-- ==== Sys2Proof/Word.lean ====
section
/-! DEFINITION. Sys2Proof/Word.lean: the word and byte types of the hub (R36: every register is 32 bits wide). -/

namespace Sys2Proof

/-- A register word, a table word or a ring word. -/
abbrev Word := BitVec 32

/-- A byte of a payload or of a memory. -/
abbrev Byte := BitVec 8

end Sys2Proof
end

