-- ==== Sys2Proof/Syntax.lean ====
section
/-! DEFINITION. Sys2Proof/Syntax.lean: the commands the block takes, one constructor per row of spec/opcode_table.json, with
the operands the row's rule gives it, and the operand types. -/

namespace Sys2Proof

/-- The path a register write takes (R8, R294, R426): BAR0, a management port, a link, a DMA channel, BOOT's own writes, the
hub's own state changes, or an engine. -/
inductive Path where
  | host | pmb | i3c | jtag | link
  | dma (ch : Fin 32)
  | boot | glb
  | eng (e : Fin 12)
deriving DecidableEq, Repr

/-- How a command of R278 arrives: from the command ring, or from the command mailbox, whose owner is the path that writes GO: 0 PMBus,
1 I3C, 2 JTAG, 3 the host through BAR0 (R305). -/
inductive CmdVia where
  | ring
  | mbx (owner : Fin 4)
deriving DecidableEq, Repr

/-- A row that is both a command and a register write (R278: every command acts as the register write it names). -/
inductive Via where
  | cmd (v : CmdVia)
  | write (p : Path) (w : Word)
deriving DecidableEq, Repr

/-- The packet error check of a PMBus write (R296, R297). -/
inductive Pec where | absent | good | bad
deriving DecidableEq, Repr


/-- A row that is a command of R278, or the one register write it names, whose word the row's operands give. -/
inductive By where
  | cmd (v : CmdVia)
  | path (p : Path)
deriving DecidableEq, Repr

/-- The conversions of a scan entry (R186, R188): the levels read, and whether the input is open. A level is in µV; of a phase's current it
is IMON less IREF; of a die's or a diode's temperature it is in 0.001 °C. -/
structure Conv where
  levels : List Word
  isOpen : Bool
deriving DecidableEq, Repr

/-- The commands of the block: one constructor per row of spec/opcode_table.json, the rows with operands first, each part
in the table's order. -/
inductive Instr where
  /-- WATCHDOG_RESET (R405): A package watchdog reset runs the steps of R414 and keeps W fields; a TRIAL class may roll back. -/
  | watchdogReset (slot : Fin 16) (kind : BitVec 3)
  /-- SOFT_RESET (R412): STATE_SET code 0x8 or GLB_CMD starts a package reset through BOOT that keeps S fields while outputs and rails run on. -/
  | softReset (via : Via)
  /-- HOST_PORT_RESET (R265): A PCIe hot reset, link-down or FLR resets the HOST block, MSI-X and host-owned channels, and disarms the rings. -/
  | hostPortReset (cause : Fin 3)
  /-- ENGINE_RESET (R350): An engine is held, its channels are halted, its section is reloaded and it is released at its entry point. -/
  | engineReset (p : Path) (e : Fin 12) (bad : Bool)
  /-- ENGINE_HOLD (R363): A write of ENG_CTL.HOLD = 1 holds the engine in reset. -/
  | engineHold (p : Path) (e : Fin 12)
  /-- ENGINE_RELEASE (R363): A write of ENG_CTL.HOLD = 0 releases the engine. -/
  | engineRelease (p : Path) (e : Fin 12)
  /-- ENG_HALT (R349): An engine halts on a double-bit error, a fatal exception or its halt instruction, and records cause and address. -/
  | engHalt (e : Fin 12) (cause : BitVec 3) (addr : BitVec 17)
  /-- BOOT_BEGIN (R400): Once supplies are in range and the main LO runs, BOOT samples MODE, reads OTP, applies the profile, loads images and enters RUN or HELD. -/
  | bootBegin (mode : BitVec 2) (jedec : BitVec 24) (bad : BitVec 12) (lo : Bool)
  /-- SUPPLY_OUT_OF_BAND (R430): A supply stays outside its monitor band for the deglitch time and has the effect its row gives. -/
  | supplyOutOfBand (x : Fin 18) (on : Bool)
  /-- DIE_ISOLATED (R24): A die detects a neighbour's isolation, latches it, raises DIE_ISOLATED and disqualifies that die's references. -/
  | dieIsolated (d : Fin 4)
  /-- SUPPLY_HOLD_END (R430): VDDPWM_p has been above 3.0 V for 1 ms, so the supply hold on the region's rails ends. -/
  | supplyHoldEnd (p : Fin 4)
  /-- THERMAL_ALARM (R442): A die sensor crosses 152 °C and raises the die alarm, or falls below 147 °C and clears it. -/
  | thermalAlarm (d : Fin 4) (hot : Bool)
  /-- THERMAL_TRIP (R442): A die held at 160 °C for 10 µs isolates as for a supply fault. -/
  | thermalTrip (d : Fin 4)
  /-- STB_LOSS (R70): The stability oscillator is lost, and each armed region moves to the main LO continuously and disarms. -/
  | stbLoss (o0 o1 : Word)
  /-- STB_START (R70): STB_IN starts running while a region is armed, and the region moves to the stability oscillator. -/
  | stbStart (o0 o1 : Word)
  /-- SCRUB_WORD (R43): A scrubber checks one SECDED word, correcting a single-bit error or poisoning the word on a double-bit error. -/
  | scrubWord (mem : Fin 11) (unit : Fin 64) (addr : BitVec 16) (double : Bool)
  /-- REGISTER_WRITE (R12): A register write that has no row of its own is judged and either applied or counted as an ignored action. -/
  | registerWrite (p : Path) (off : BitVec 20) (be : BitVec 4) (val : Word)
  /-- MON_ENABLE (R54): EN written 1 moves a monitor from OFF to FAILED and starts its activity monitor. -/
  | monEnable (p : Path) (m : Fin 16) (w : Word)
  /-- MON_DISABLE (R54): EN written 0 moves a monitor to OFF, and any selector using the reference responds as to a loss. -/
  | monDisable (p : Path) (m : Fin 16) (w : Word)
  /-- ACTIVITY_LOST (R47): Two consecutive expected edges of a reference are missing, so activity is declared lost. -/
  | activityLost (m : Fin 16)
  /-- ACTIVITY_REGAINED (R48): The second consecutive edge after a loss regains activity and starts a fresh gate. -/
  | activityRegained (m : Fin 16)
  /-- FREQ_GATE_DONE (R49): A frequency gate completes, gives a result and the accept and reject limits are evaluated. -/
  | freqGateDone (m : Fin 16) (res : BitVec 48)
  /-- PHASE_JUMP (R52): An examined edge deviates beyond the threshold, acting per PJ_ACTION and the monitor state. -/
  | phaseJump (m : Fin 16) (dev : Word)
  /-- QUAL_TIMER_EXPIRE (R53): The qualification timer expires and the monitor becomes QUALIFIED. -/
  | qualTimerExpire (m : Fin 16)
  /-- LANE_CAL_DONE (R57): The first Plaza lane calibration completes and CAL_DONE sets. -/
  | laneCalDone (r01 r10 : Byte)
  /-- SELECTOR_PASS (R63): A region selector decides from a snapshot of its inputs and hands any new choice to the region DPLL. -/
  | selectorPass (t : Fin 4)
  /-- REF_FORCE (R61): Command that sets a region selector to FORCED on a named candidate. -/
  | refForce (via : CmdVia) (t : Fin 4) (idx : BitVec 8)
  /-- REF_AUTO (R61): Command that returns a region selector to AUTO. -/
  | refAuto (via : CmdVia) (t : Fin 4)
  /-- DPLL_ENABLE (R77): EN written 1 starts a region DPLL in warm HOLDOVER or FREERUN. -/
  | dpllEnable (p : Path) (t : Fin 4) (w : Word)
  /-- DPLL_DISABLE (R77): EN written 0 disables a region DPLL, zeroes the control value and clears history and a pending REALIGN. -/
  | dpllDisable (p : Path) (t : Fin 4) (w : Word)
  /-- DPLL_SELECT (R77): The selector's choice reaches the region DPLL, which enters holdover, acquires or starts a build-out capture. -/
  | dpllSelect (t : Fin 4)
  /-- DPLL_HOLD (R76): The region DPLL stops integrating and holds its control value after a loss event on the selected candidate. -/
  | dpllHold (t : Fin 4) (cv : BitVec 48)
  /-- SAMPLE_LATE (R76): A detector sample has not arrived within half a detector period, so the DPLL holds. -/
  | sampleLate (t : Fin 4) (cv : BitVec 48)
  /-- DPLL_LOCK (R75): The phase error has stayed within LOCK_THR for LOCK_TIME, and the region enters LOCKED. -/
  | dpllLock (t : Fin 4) (cv : BitVec 48) (phErr : Word)
  /-- DPLL_UNLOCK (R75): Three consecutive samples exceed four times LOCK_THR, and the region returns to ACQUIRING. -/
  | dpllUnlock (t : Fin 4) (cv : BitVec 48) (phErr : Word)
  /-- PULLIN_SAT (R74): The control value reaches a pull-in limit from within the limits. -/
  | pullinSat (t : Fin 4) (neg : Bool)
  /-- BUILDOUT (R78): A build-out capture completes and stores the new offset in TRG_BO. -/
  | buildout (t : Fin 4) (phase : BitVec 64)
  /-- SLEW_DONE (R89): Under SLEW, TRG_BO reaches zero and SLEWING clears. -/
  | slewDone (t : Fin 4)
  /-- HOLDOVER_FORCE (R77): Command that sets or clears FORCED holdover of a region. -/
  | holdoverForce (via : CmdVia) (t : Fin 4) (force : Bool)
  /-- HISTORY_INTERVAL (R80): A history interval ends, completing one entry with its VALID bit and starting the next. -/
  | historyInterval (t : Fin 4) (mean cv : BitVec 48) (temp : BitVec 12) (phErr : Word)
  /-- HIST_INTERVAL_WRITE (R82): A write that changes TRG_HIST.INTERVAL invalidates every ring entry and restarts accumulation. -/
  | histIntervalWrite (p : Path) (t : Fin 4) (w : Word)
  /-- KILN_HO_WRITE (R87): The Kiln holdover record of a region is written after a holdover entry or every 64th entry while LOCKED. -/
  | kilnHoWrite (t : Fin 4)
  /-- TC_TERM_WRITE (R85): A write of TRG_TC_TERM_HI applies the whole temperature term as a frequency step. -/
  | tcTermWrite (p : Path) (t : Fin 4) (w : Word)
  /-- STB_EN_WRITE (R70): A write of STB_EN arms the region for the stability oscillator, or disarms it and moves to the main LO. -/
  | stbEnWrite (p : Path) (t : Fin 4) (w : Word)
  /-- REALIGN (R91): Command that arms a re-phase of named FRAME units at the K-th pacing edge. -/
  | realign (via : CmdVia) (t : Fin 4) (mask : BitVec 12) (k : BitVec 16)
  /-- REALIGN_DONE (R91): At the K-th pacing edge the named FRAME units are re-phased to the candidate and staged values applied. -/
  | realignDone (t : Fin 4) (edges : BitVec 16)
  /-- SYN_ENABLE (R108): EN written 1 starts a cluster retune to its staged frequency. -/
  | synEnable (p : Path) (c : Fin 12) (w : Word)
  /-- SYN_DISABLE (R108): EN written 0 stops the VCO, puts units in their on-loss condition and raises CLOCK_LOSS. -/
  | synDisable (p : Path) (c : Fin 12) (w : Word)
  /-- SYN_APPLY (R99): APPLY written 1 retunes the cluster to its staged values. -/
  | synApply (p : Path) (c : Fin 12) (w : Word)
  /-- HOP (R99): Command that writes the staged feedback values of a cluster and applies them in one step. -/
  | hop (v : CmdVia) (c : Fin 12) (nInt : BitVec 9) (path : BitVec 2) (num den : Word)
  /-- BAND_SEARCH_DONE (R104): A band search ends, closing the loop on the chosen core and band or failing the cluster. -/
  | bandSearchDone (c : Fin 12) (found : Bool) (core : Fin 4) (band vt : Byte)
  /-- HOP_MISS (R104): After a hop, the settled VT lies outside the entry's window, the slot is invalidated and a guided search follows. -/
  | hopMiss (c : Fin 12) (vt : Byte)
  /-- ACQUIRE_TIMEOUT (R108): No lock within 1 ms of entry to ACQUIRING starts a full search or fails the cluster. -/
  | acquireTimeout (c : Fin 12)
  /-- SYN_LOCK (R107): LK_CNT samples within the window declare lock and the cluster enters LOCKED. -/
  | synLock (c : Fin 12) (vt : Byte) (err : Word) (run : Byte)
  /-- LOL (R107): UL_CNT samples outside the window declare loss of lock, and the cluster enters UNLOCKED. -/
  | lol (c : Fin 12) (err : Word) (run : Byte)
  /-- RESEARCH_TIMEOUT (R108): RESRCH ms without lock, with no FREE-RUN unit following, starts a full search. -/
  | researchTimeout (c : Fin 12)
  /-- RETURN_HOLD_EXPIRE (R117): Lock has held for HOLD ms, and units in their on-loss condition return. -/
  | returnHoldExpire (c : Fin 12)
  /-- BYPASS_RETURN (R117): Command that returns a locked cluster's units at once and ends any hold. -/
  | bypassReturn (v : CmdVia) (c : Fin 12)
  /-- RET_AUTO_WRITE (R117): A write of RET_AUTO starts or cancels the return hold. -/
  | retAutoWrite (p : Path) (c : Fin 12) (w : Word)
  /-- BYPASS_SWITCH (R112): A unit switches between VCO-derived and lane-derived clocks at the first instant both are low. -/
  | bypassSwitch (n : Fin 48)
  /-- AVENUE_MUX_SWITCH (R147): A change of SRC or LANE on an enabled unit switches its Avenue mux at the first common low. -/
  | avenueMuxSwitch (n : Fin 48)
  /-- BAND_LOAD_START (R103): SYN_BLOAD_CTL.START opens a new band-table load copy, discarding any open one. -/
  | bandLoadStart (p : Path) (c : Fin 12) (w : Word)
  /-- BAND_LOAD_DATA (R103): A write to SYN_BLOAD_DATA adds a table word, the 513th closing the load and checking its CRC. -/
  | bandLoadData (p : Path) (c : Fin 12) (w : Word)
  /-- BAND_LOAD (R103): Command that loads a band table with its CRC from host memory. -/
  | bandLoad (v : CmdVia) (c : Fin 12) (ws : List Word)
  /-- BAND_SWAP (R103): A verified band table replaces the one in use when no retune reads it, invalidating every hop slot. -/
  | bandSwap (c : Fin 12)
  /-- RAMP_START (R134): Command, or RMP_CMD.START, that starts a Wheel with a glide to ANCHOR. -/
  | rampStart (via : Via) (c : Fin 12)
  /-- RAMP_STOP (R133): Command, or RMP_CMD.STOP, that stops a Wheel to HELD or homes it to zero. -/
  | rampStop (via : Via) (c : Fin 12) (home : Bool)
  /-- RAMP_TICK (R125): A ramp tick ends and the Wheel applies at most one step, ending segments, periods and glides. -/
  | rampTick (c : Fin 12)
  /-- RAMP_CHUNK_WRITE (R130): A word written to RMP_CHUNK, the 66th closing the chunk and triggering its check. -/
  | rampChunkWrite (p : Path) (c : Fin 12) (i : Fin 66) (w : Word)
  /-- RAMP_LOAD (R130): Command that moves 0 to 8 ramp chunks from host memory through the chunk window. -/
  | rampLoad (v : CmdVia) (c : Fin 12) (chunks : List (List Word))
  /-- OUT_ENABLE (R152): EN written 1 starts an output unit synchronously after a full low phase. -/
  | outEnable (p : Path) (n : Fin 48) (w : Word)
  /-- OUT_DISABLE (R152): EN written 0 stops an output unit at its next falling edge and optionally releases it to high impedance. -/
  | outDisable (p : Path) (n : Fin 48) (w : Word)
  /-- OUT_DIV_WRITE (R151): A ratio or delay write on a running CLOCK unit applies at a period or phase boundary without a runt. -/
  | outDivWrite (p : Path) (n : Fin 48) (delay : Bool) (w : Word)
  /-- BANK_LOSS (R145): VDDO outside its band for the deglitch time disables every unit of the bank. -/
  | bankLoss (b : Fin 8) (v : Byte)
  /-- OUT_RSYNC (R158): A write of OUT_RSYNC arms alignment of named CLOCK units at the K-th pacing edge. -/
  | outRsync (p : Path) (t : Fin 4) (w : Word)
  /-- ALIGNED (R158): At the K-th pacing edge the named CLOCK units are re-phased. -/
  | aligned (t : Fin 4) (edges : BitVec 16)
  /-- SYNC_IN_EDGE (R157): An active sync-input edge is re-timed into an echo pulse on the unit's divider grid. -/
  | syncInEdge (i : Fin 8) (falling : Bool) (high : BitVec 48)
  /-- RAIL_ENABLE (R172): EN written 1 to an OFF or STOP rail drives VRr_EN high and starts START. -/
  | railEnable (p : Path) (r : Fin 24) (w : Word)
  /-- RAIL_DISABLE (R172): EN written 0 stops a rail by ramp or coast per STOP_MODE. -/
  | railDisable (p : Path) (r : Fin 24) (w : Word)
  /-- SOFT_START_BEGIN (R173): The T_EN delay ends and soft start begins from the measured sense voltage. -/
  | softStartBegin (r : Fin 24) (v : BitVec 16)
  /-- RAMP_TARGET_REACHED (R172): The soft-start ramp target reaches V_VID and the rail enters REGULATING. -/
  | rampTargetReached (r : Fin 24)
  /-- RAIL_OFF (R172): A stopping rail's ramp target reaches 0 V and the rail goes OFF. -/
  | railOff (r : Fin 24)
  /-- RAIL_PG (R174): The sense voltage has stayed in the PG band for PG_DLY and PG becomes 1. -/
  | railPg (r : Fin 24) (v : BitVec 16)
  /-- RAIL_PG_LOST (R174): The sense voltage has stayed out of the PG band for PG_DLY and PG becomes 0. -/
  | railPgLost (r : Fin 24) (v : BitVec 16)
  /-- VID_WRITE (R175): A VID write is staged, replaces a ramp end point, or starts or redirects a move. -/
  | vidWrite (p : Path) (r : Fin 24) (w : Word)
  /-- VID_DONE (R175): A VID move reaches its target and MOVING clears. -/
  | vidDone (r : Fin 24)
  /-- SHED_ADD (R176): I_tot exceeds N_act × I_ADD over a period and one phase is added. -/
  | shedAdd (r : Fin 24) (itot : BitVec 16)
  /-- SHED_DROP (R176): I_tot has stayed below the drop level for SHED_DLY and one phase is shed. -/
  | shedDrop (r : Fin 24) (itot : BitVec 16)
  /-- DCM_ENTER (R177): I_tot has stayed below I_DCM for DCM_DLY at minimum phases and the rail enters DCM. -/
  | dcmEnter (r : Fin 24) (itot : BitVec 16)
  /-- DCM_EXIT (R177): I_tot exceeds I_CCM, or a move begins, and the rail leaves DCM. -/
  | dcmExit (r : Fin 24) (itot : BitVec 16)
  /-- PULSE_PLAN (R180): The scheduler plans one pulse, shifting it clear of windows and coincident edges. -/
  | pulsePlan (k : Fin 96) (start : BitVec 48) (imon iref : BitVec 16) (comp : Option (BitVec 16 × BitVec 16)) (ready : Bool)
  /-- WINDOW_ANNOUNCE (R183): The timing region announces an active window occurrence to the power region. -/
  | windowAnnounce (p : Fin 4) (w : Fin 8) (edge : BitVec 48)
  /-- TB_LOSS_NOTICE (R114): Notice of timebase loss reaches a paired power region, which moves to its fallback. -/
  | tbLossNotice (p : Fin 4)
  /-- LANE_MONITOR_EXPIRE (R184): The lane monitor finds a missing or off-frequency timebase edge and moves the region to fallback. -/
  | laneMonitorExpire (p : Fin 4)
  /-- TB_PAIRING_WRITE (R20): A write of PRG_TBSEL changes the pairing and passes the region through its fallback. -/
  | tbPairingWrite (p : Path) (q : Fin 4) (w : Word)
  /-- FALLBACK_TRIM (R184): Every 64 lane cycles the fallback oscillator is trimmed to the timebase lane. -/
  | fallbackTrim (p : Fin 4) (trim : Byte)
  /-- TB_RETURN (R185): After retrim and phase pull-in the grid is handed back to the lane. -/
  | tbReturn (p : Fin 4)
  /-- TLM_SCAN_START (R186): The telemetry period expires and a scan starts at the next conversion slot. -/
  | tlmScanStart (p : Fin 4)
  /-- TLM_FRAME (R187): A scan completes into a frame with its CRC and raises the telemetry request. -/
  | tlmFrame (p : Fin 4) (cs : List Conv) (damaged : Option (BitVec 6))
  /-- TLM_BUF_SNAPSHOT (R193): A read of PRG_TLM_BUF word 0 snapshots the latest frame. -/
  | tlmBufSnapshot (p : Fin 4)
  /-- SEQ_START (R200): Command, or SEQ_CMD.START, that makes a rank-3 start of a sequence. -/
  | seqStart (via : Via) (q : Fin 8)
  /-- SEQ_STOP (R199): Command, or SEQ_CMD.STOP, that stops the running sequence. -/
  | seqStop (via : Via)
  /-- SEQ_LOAD (R198): Command that loads a sequence with its CRC from host memory. -/
  | seqLoad (v : CmdVia) (ws : List Word)
  /-- SEQ_LOAD_START (R198): SEQ_LOAD_CTL.START opens a new sequence load copy. -/
  | seqLoadStart (p : Path) (w : Word)
  /-- SEQ_LOAD_DATA (R198): A write to SEQ_LOAD_DATA adds a word, the CRC word closing and checking the load. -/
  | seqLoadData (p : Path) (w : Word)
  /-- DEP_TRIP (R203): A dependency entry trips and applies its response. -/
  | depTrip (d : Fin 16)
  /-- OV (R211): An OV crossing passes its deglitch and shuts the rail down per its action. -/
  | ov (r : Fin 24) (v : BitVec 16)
  /-- UV (R204): A UV crossing in REGULATING passes its deglitch and acts per its action. -/
  | uv (r : Fin 24) (v : BitVec 16)
  /-- OC (R205): An OC comparator trips, limiting the pulse or raising the OC fault. -/
  | oc (k : Fin 96) (imon iref : BitVec 16) (step : BitVec 48)
  /-- TMON_SAMPLE (R206): The rail reads VRr_TMON every 10 µs and judges OT. -/
  | tmonSample (r : Fin 24) (mv : BitVec 12)
  /-- RAIL_RELEASE (R209): A rail whose latches, comparators and holds are clear leaves SAFE for OFF. -/
  | railRelease (r : Fin 24)
  /-- RETRY_DUE (R209): A rail's retry falls due, and is postponed or releases and re-enables the rail. -/
  | retryDue (r : Fin 24)
  /-- RETRY_RELOAD (R209): A rail has held PG for 1 s and LEFT reloads to RETRY. -/
  | retryReload (r : Fin 24)
  /-- STORE_CHARGE (R215): Command that writes CV and CC and enables the charger. -/
  | storeCharge (v : CmdVia) (arg : BitVec 16)
  /-- CHG_CV (R215): The store reaches CV − 1 % and the charger moves from CC to CV. -/
  | chgCv (v : BitVec 16)
  /-- CHG_FULL (R215): Charge current has stayed below ITERM for 10 ms and switching stops. -/
  | chgFull (i : BitVec 16)
  /-- CHG_RECHARGE (R215): The store falls below CV − 3 % and the charger returns to CC. -/
  | chgRecharge (v : BitVec 16)
  /-- CHG_FAULT (R215): Over-voltage or a CC phase lasting CC_TMO turns the charger off in FAULT. -/
  | chgFault (v : Option (BitVec 16))
  /-- STORE_READY (R215): VSTORE reaches READY_V and READY becomes 1. -/
  | storeReady (v : BitVec 16)
  /-- VIN_LOSS (R216): VIN below VIN_UV for 2 µs turns the charger off, moves HK0 to the store and starts the orderly down. -/
  | vinLoss (v : BitVec 16)
  /-- STORE_LOW (R217): The store falls below STORE_MIN while ON_STORE and a PACKAGE action follows. -/
  | storeLow (v : BitVec 16)
  /-- VIN_GOOD (R218): VIN above VIN_UV + HYST for 1 ms ends ride-through and may restart the boot sequence. -/
  | vinGood (v : BitVec 16)
  /-- HK_FAULT (R220): A regulator out of band for 50 µs or in current limit for 1 ms latches HK_FAULT. -/
  | hkFault (i : Fin 8) (mv : Option (BitVec 16))
  /-- TD_MEASURE (R221): A remote temperature diode is measured on its 10 ms period. -/
  | tdMeasure (i : Fin 8) (temp : BitVec 16)
  /-- LINK_ENABLE (R232): EN written 1 starts a port TRAINING with idle cells. -/
  | linkEnable (p : Path) (k : Fin 4) (w : Word)
  /-- LINK_DISABLE (R232): EN written 0 disables a port. -/
  | linkDisable (p : Path) (k : Fin 4) (w : Word)
  /-- HELLO_SEND (R232): A training port with valid headers sends HELLO every 10 µs. -/
  | helloSend (k : Fin 4)
  /-- LINK_UP (R232): A good HELLO received after 64 valid headers puts the port UP and records the peer. -/
  | linkUp (k : Fin 4) (peer : BitVec 64) (port : Byte)
  /-- LINK_DOWN (R232): A link loss returns an UP port to TRAINING and drops its lock, offer and delay. -/
  | linkDown (k : Fin 4)
  /-- LINK_FREQ_GATE (R234): A 1 ms gate of the recovered clock completes and FLOCK is judged. -/
  | linkFreqGate (k : Fin 4) (fofs : Word)
  /-- MARK_SEND (R236): A port sends a MARK at its scheduled slot after the epoch. -/
  | markSend (k : Fin 4) (ofs : BitVec 40)
  /-- MARK_RX (R236): A received MARK is stamped and returned in a MARK_ECHO. -/
  | markRx (k : Fin 4) (seq : Byte) (ofs arr : BitVec 40)
  /-- MARK_ECHO_RX (R236): An echo completes an exchange, which is averaged into delay and theta. -/
  | markEchoRx (k : Fin 4) (seq : Byte) (arr : BitVec 40)
  /-- EPOCH (R240): The epoch unit's rising edge increments or applies the time of day. -/
  | epoch (d : Fin 2)
  /-- TOD_SET (R240): A write of LNK_TOD_SET_HI schedules a new time at the next epoch. -/
  | todSet (p : Path) (w : Word)
  /-- TIME_CELL_SEND (R240): A port sends a TIME cell between 250 and 750 ms after its epoch. -/
  | timeCellSend (k : Fin 4)
  /-- TIME_CELL_RX (R240): A TIME cell from the uplink is loaded for the next epoch and resent on downlinks. -/
  | timeCellRx (k : Fin 4) (sec : BitVec 48)
  /-- CELL_RX (R231): A cell arrives and is accepted or discarded for header, CRC-8 or type. -/
  | cellRx (k : Fin 4) (hdr : BitVec 2) (line : BitVec 64)
  /-- MESSAGE_RX (R242): A message is received whole, checked, consumed or forwarded. -/
  | messageRx (k : Fin 4)
  /-- MESSAGE_TIMEOUT (R242): A message's next cell does not arrive within 1 µs and the message is discarded. -/
  | messageTimeout (k : Fin 4)
  /-- ANNOUNCE_RX (R244): A received ANNOUNCE becomes the port's offer, may change the uplink and is relayed. -/
  | announceRx (k : Fin 4) (gm : BitVec 64) (prio1 prio2 : Byte) (cls : BitVec 2) (reverse withdraw : Bool) (seq hops : BitVec 16) (lat : Word) (ph blat bph : BitVec 16)
  /-- OFFER_EXPIRE (R244): An offer expires after 3 × ANN_PER without a newer GM_SEQ. -/
  | offerExpire (k : Fin 4)
  /-- LINK_JOIN (R246): Command that moves a detached hub to LISTENING. -/
  | linkJoin (v : CmdVia)
  /-- LINK_LEAVE (R246): Command, or a write of LNK_SYS_CTL.JOIN, that detaches the hub and sends WITHDRAW. -/
  | linkLeave (via : Via)
  /-- REMOTE_RD (R251): Command that issues a remote register read to a target hub. -/
  | remoteRd (v : CmdVia) (tag : BitVec 16) (dst : BitVec 64) (off : BitVec 20) (n : Fin 16) (ptr : BitVec 48)
  /-- REMOTE_WR (R251): Command that fetches data and issues a remote register write. -/
  | remoteWr (v : CmdVia) (tag : BitVec 16) (dst : BitVec 64) (off : BitVec 20) (n : Fin 16) (data : List Word)
  /-- REMOTE_ACCESS_GO (R251): LNK_RMT_CTL.GO issues a remote access through the register path. -/
  | remoteAccessGo (p : Path) (w : Word)
  /-- REMOTE_REQUEST_RX (R252): A target receives a whole remote request, performs it word by word and responds. -/
  | remoteRequestRx (k : Fin 4) (write : Bool) (tag : BitVec 16) (src : BitVec 64) (off : Word) (n : Fin 16) (data : List Word)
  /-- REMOTE_RESPONSE_RX (R252): A requester receives a remote response and completes the access. -/
  | remoteResponseRx (k : Fin 4) (write : Bool) (tag : BitVec 16) (status : Fin 5) (na : BitVec 16) (data : List Word) (good fault : Bool)
  /-- REMOTE_TIMEOUT (R252): No response arrives within LNK_RMT_TMO and the access ends TIMEOUT. -/
  | remoteTimeout (cmd : Bool)
  /-- EVENT_SEND (R255): A forwarded fault class latches and an EVENT is sent to all hubs. -/
  | eventSend (c : Fin 13)
  /-- SIGNAL_SEND (R255): A write of LNK_SIGNAL sends a SIGNAL with its code. -/
  | signalSend (p : Path) (w : Word)
  /-- REMOTE_EVENT_RX (R255): A received EVENT or SIGNAL is recorded and queued for DMA. -/
  | remoteEventRx (k : Fin 4) (src : BitVec 64) (signal : Bool) (code : Byte)
  /-- HOST_WAKE (R266): A HOST_WAKE write makes the hub read the doorbell page at once. -/
  | hostWake (p : Path) (w : Word)
  /-- DOORBELL_READ_DONE (R270): Doorbell data arrives and changed tags publish new indices. -/
  | doorbellReadDone (w0 w1 w2 : BitVec 64) (dma : List (Fin 32 × BitVec 64))
  /-- COMMAND_DISPATCH (R275): An offered command descriptor is fetched and checked for CRC, form and legality. -/
  | commandDispatch (words : List Word) (payload : List Byte) (fault : Bool)
  /-- NOP (R278): Command that does nothing and completes OK. -/
  | nop (v : CmdVia)
  /-- SYNC_STATE (R287): Command that completes OK and starts resynchronisation. -/
  | syncState (v : CmdVia)
  /-- STANDBY_ENTER (R416): STATE_SET STANDBY disables non-kept outputs, rails, clusters and links and holds ENG2 to ENG11. -/
  | standbyEnter (via : Via)
  /-- STANDBY_EXIT (R417): STATE_SET RUN re-enables what STANDBY cleared, releases engines and may start the wake sequence. -/
  | standbyExit (via : Via)
  /-- KEEP_ENTER (R418): STATE_SET KEEP refreshes Kiln records and turns everything off but the Kiln. -/
  | keepEnter (via : Via)
  /-- KEEP_TIMER_WAKE (R419): WAKE_SEC keeper seconds pass in KEEP and the hub boots. -/
  | keepTimerWake (vin : BitVec 16)
  /-- RAIL_SET (R278): Command that writes a rail's EN or VID. -/
  | railSet (v : CmdVia) (rail : BitVec 5) (wen en wvid : Bool) (vid : BitVec 12)
  /-- EVENT_POST (R280): An event record moves from the FIFO to the event ring when it has room. -/
  | eventPost (damaged : Option (BitVec 3))
  /-- HOST_RESYNC (R286): A write of 0x5EED stops ring and host-memory activity and enters STOPPING. -/
  | hostResync (p : Path) (w : Word)
  /-- SUMMARY_DONE (R287): The summary is written or faults, rings disarm and the port waits to be armed. -/
  | summaryDone (fault : Option (BitVec 13)) (damaged : Option (BitVec 11))
  /-- RING_ARM (R287): EN set on all three host rings puts the port RUNNING and posts orphan completions. -/
  | ringArm (p : Path) (q : Fin 3) (w : Word)
  /-- PROMOTE (R313): A write of PROMOTE to HOST_MODE promotes an autonomous hub to HOSTED. -/
  | promote (p : Path) (w : Word)
  /-- PAGE (R298): PMBus command that selects the rail addressed by later commands. -/
  | page (wr : Option Byte) (pec : Pec)
  /-- OPERATION (R299): PMBus command that enables or stops the paged rail. -/
  | operation (wr : Option Byte) (pec : Pec)
  /-- ON_OFF_CONFIG (R299): PMBus command that reads 0x18 and refuses other values. -/
  | onOffConfig (wr : Option Byte) (pec : Pec)
  /-- CLEAR_FAULTS (R299): PMBus command that clears the paged rail's latched faults and STATUS_CML. -/
  | clearFaults (pec : Pec)
  /-- WRITE_PROTECT (R299): PMBus command that sets or reads write protection. -/
  | writeProtect (wr : Option Byte) (pec : Pec)
  /-- CAPABILITY (R299): PMBus command that returns 0xD0. -/
  | capability (other : Option (Byte × Pec × Option (Fin 33)))
  /-- VOUT_COMMAND (R299): PMBus command that writes or reads the paged rail's VID. -/
  | voutCommand (wr : Option (BitVec 16)) (pec : Pec)
  /-- VOUT_TRANSITION_RATE (R299): PMBus command that writes or reads PRG_SLEW.SLEW. -/
  | voutTransitionRate (wr : Option (BitVec 16)) (pec : Pec)
  /-- FREQUENCY_SWITCH (R299): PMBus command that writes or reads PRG_FSW.PERIOD. -/
  | frequencySwitch (wr : Option (BitVec 16)) (pec : Pec)
  /-- VOUT_OV_FAULT_LIMIT (R299): PMBus command that sets an absolute OV threshold. -/
  | voutOvFaultLimit (wr : Option (BitVec 16)) (pec : Pec)
  /-- VOUT_UV_FAULT_LIMIT (R299): PMBus command that sets an absolute UV threshold. -/
  | voutUvFaultLimit (wr : Option (BitVec 16)) (pec : Pec)
  /-- VOUT_OV_FAULT_RESPONSE (R299): PMBus command that sets the OV action and retry count. -/
  | voutOvFaultResponse (wr : Option Byte) (pec : Pec)
  /-- VOUT_UV_FAULT_RESPONSE (R299): PMBus command that sets the UV action and retry count. -/
  | voutUvFaultResponse (wr : Option Byte) (pec : Pec)
  /-- IOUT_OC_FAULT_RESPONSE (R299): PMBus command that sets the OC action and retry count. -/
  | ioutOcFaultResponse (wr : Option Byte) (pec : Pec)
  /-- OT_FAULT_RESPONSE (R299): PMBus command that sets the OT action and retry count. -/
  | otFaultResponse (wr : Option Byte) (pec : Pec)
  /-- IOUT_OC_FAULT_LIMIT (R299): PMBus command that sets the per-phase OC threshold. -/
  | ioutOcFaultLimit (wr : Option (BitVec 16)) (pec : Pec)
  /-- OT_FAULT_LIMIT (R299): PMBus command that sets FLT_OT.OT_THR. -/
  | otFaultLimit (wr : Option (BitVec 16)) (pec : Pec)
  /-- STATUS_CML (R299): PMBus command that reads or clears communication fault bits. -/
  | statusCml (wr : Option Byte) (pec : Pec)
  /-- READ_VIN (R299): PMBus command that returns VIN_SENSE. -/
  | readVin (mv : BitVec 16)
  /-- READ_TEMPERATURE_1 (R299): PMBus command that returns the paged rail's TMON temperature. -/
  | readTemperature1 (mv : BitVec 12)
  /-- MFR_REG_ADDR (R300): PMBus command that sets or reads the register offset of MFR_REG_DATA. -/
  | mfrRegAddr (wr : Option Word) (pec : Pec)
  /-- MFR_REG_DATA (R300): PMBus command that performs one register access at the set offset and advances it. -/
  | mfrRegData (wr : Option Word) (pec : Pec)
  /-- MFR_SEQ_START (R300): PMBus command that makes a rank-3 sequence start. -/
  | mfrSeqStart (b : Byte) (pec : Pec)
  /-- PMB_TIMEOUT (R296): SCL held low for 25 ms makes the port release the bus and discard the transaction. -/
  | pmbTimeout (code : Byte)
  /-- I3C_REG_WRITE (R302): A private write carries an offset and up to 16 register words. -/
  | i3cRegWrite (off : Word) (data : List Byte) (err : Bool)
  /-- I3C_REG_READ (R302): An offset write followed by a read returns up to 64 bytes of registers. -/
  | i3cRegRead (off : Word) (n : Fin 65) (err : Bool)
  /-- ENTDAA (R301): CCC that assigns a dynamic address by arbitration. -/
  | entdaa (a : BitVec 7)
  /-- SETDASA (R301): CCC that assigns a dynamic address from the static address. -/
  | setdasa (a : BitVec 7)
  /-- SETMWL (R301): CCC that sets the maximum write length. -/
  | setmwl (n : BitVec 16)
  /-- SETMRL (R301): CCC that sets the maximum read length. -/
  | setmrl (n : BitVec 16)
  /-- EVENT_POP (R304): A write of MGT_EV.POP moves the oldest FIFO record into MGT_EV_DATA. -/
  | eventPop (p : Path) (w : Word)
  /-- MAILBOX_GO (R305): A write of MGT_MBX_CTL.GO submits the mailbox command. -/
  | mailboxGo (p : Path) (w : Word)
  /-- SPI_COMMAND (R308): A write of MGT_SPI_CMD.GO issues one flash command. -/
  | spiCommand (p : Path) (w : Word)
  /-- SPI_COMMAND_DONE (R308): A direct flash command ends and BUSY clears. -/
  | spiCommandDone (status : Byte)
  /-- SAMPLE_PRELOAD (R310): JTAG instruction that samples and preloads the boundary register. -/
  | samplePreload (v oe : BitVec 68) (ins : BitVec 3) (step : BitVec 48) (zc : BitVec 96)
  /-- REG_ACCESS (R312): Update-DR with GO = 1 starts one register access through JTAG. -/
  | regAccess (wr : Bool) (off : BitVec 20) (data : Word)
  /-- DMA_ENABLE (R336): EN written 1 moves a channel from DISABLED to IDLE. -/
  | dmaEnable (p : Path) (ch : Fin 32) (w : Word)
  /-- DMA_DISABLE (R336): EN written 0 moves an IDLE or HALTED channel to DISABLED. -/
  | dmaDisable (p : Path) (ch : Fin 32) (w : Word)
  /-- DMA_DOORBELL (R318): The owning engine writes DMA_DB to publish a producer index. -/
  | dmaDoorbell (p : Path) (ch : Fin 32) (w : Word)
  /-- DESCRIPTOR_FETCH (R321): An offered descriptor is fetched and checked, or completes POISONED, IGNORED or EMPTY. -/
  | descriptorFetch (ch : Fin 32) (dbe : Option (Fin 16)) (head ext table : List Word)
  /-- DMA_REQUEST (R325): A request line asks its channel to move one unit into or out of a descriptor. -/
  | dmaRequest (l : Fin 26)
  /-- BURST_COMPLETE (R322): A burst completes and a finished descriptor is written back. -/
  | burstComplete (ch : Fin 32) (src : List Byte) (dbe : Option (BitVec 9))
  /-- WALK_READ_DONE (R340): A page-table read of a DATU walk returns and the walk advances, fills or faults. -/
  | walkReadDone (host : Bool) (x : Fin 16) (iova : BitVec 48) (kind : Fin 3) (addr : BitVec 52) (pte : BitVec 64) (err : Bool)
  /-- DMA_FAULT (R338): A fault truncates the burst and the channel enters FAULTED with its residue and cause. -/
  | dmaFault (ch : Fin 32) (src : List Byte) (fetch : Option (Fin 3 × BitVec 48 × Fin 5 × Fin 4)) (head ext : List Word)
  /-- DMA_RESUME (R336): Command, or DMA_CMD.RESUME, that resumes a FAULTED or HALTED channel. -/
  | dmaResume (by_ : By) (ch : Fin 32)
  /-- DMA_ABORT (R336): Command, or DMA_CMD.ABORT, that halts an ACTIVE or FAULTED channel and returns the residue. -/
  | dmaAbort (by_ : By) (ch : Fin 32)
  /-- DATU_INV (R340): A write of DATU_INV.GO starts an IOTLB invalidation. -/
  | datuInv (p : Path) (w : Word)
  /-- OTP_SHADOW (R392): Command, or a write of OTP_SH, that sets a shadow word and its override. -/
  | otpShadow (by_ : By) (word : BitVec 9) (value : Word)
  /-- OTP_SHADOW_CLEAR (R393): OTP_CMD.SHCLR clears every override and reloads the shadows from the fuses. -/
  | otpShadowClear (p : Path) (w : Word)
  /-- OTP_ARM (R394): A write of the arm token arms one burn or lock. -/
  | otpArm (p : Path) (w : Word)
  /-- OTP_BURN (R394): Command, or OTP_CMD.BURN, that burns one blank OTP word. -/
  | otpBurn (via : Via) (tag : BitVec 16) (word : BitVec 9) (value : Word)
  /-- COMMIT_LOCK (R396): Command, or OTP_CMD.LOCK, that margin-reads a CLOSED region before burning its lock bit. -/
  | commitLock (via : Via) (tag : BitVec 16) (region : BitVec 2)
  /-- BURN_PULSE_DONE (R394): A 10 µs burn pulse ends and the word is verified at both margins. -/
  | burnPulseDone (n lo hi : BitVec 39)
  /-- IMAGE_STAGE (R357): Command that erases, programs and verifies an image in the slot not in use. -/
  | imageStage (v : CmdVia) (tag : BitVec 16) (cls : BitVec 2) (ptr : BitVec 48) (len : Word)
  /-- IMAGE_STAGED (R357): IMAGE_STAGE completes with its status and cause. -/
  | imageStaged (data : List Byte) (fault flashBad part : Bool)
  /-- IMAGE_COMMIT (R358): Command that switches a class to its staged slot in TRIAL, or returns a TRIAL class. -/
  | imageCommit (v : CmdVia) (tag : BitVec 16) (cls : BitVec 2)
  /-- IMAGE_COMMITTED (R358): A commit's selector write and class reload complete. -/
  | imageCommitted (bad : BitVec 12) (part : Bool)
  /-- IMAGE_HEALTHY (R359): An engine of a TRIAL class writes 0x600D to ENG_HEALTH and TRIAL ends. -/
  | imageHealthy (p : Path) (cls : Fin 3) (w : Word)
  /-- PIN_HANDOVER (R371): A pin's handover interval ends and its new function connects. -/
  | pinHandover (i : Fin 64)
  /-- FAULT_IN (R370): FAULT_INk is asserted for its deglitch time and puts its rails in SAFE. -/
  | faultIn (k : Fin 4) (on : Bool)
  /-- GPIO_MOUT_WRITE (R373): A masked write changes the GPIO output latches. -/
  | gpioMoutWrite (p : Path) (g : Fin 4) (w : Word)
  /-- GPIO_MOE_WRITE (R373): A masked write changes the GPIO output-enable latches. -/
  | gpioMoeWrite (p : Path) (g : Fin 4) (w : Word)
  /-- PIN_IRQ (R375): A pin interrupt condition sets its PEND bit and signals the pin's owner. -/
  | pinIrq (i : Fin 64) (level : Bool) (bank : Fin 4)
  /-- PWMX_PERIOD (R369): A PWMX period starts and applies any new period or duty. -/
  | pwmxPeriod (k : Fin 4)
  /-- WDG_KICK (R404): A check-in is judged at its slot against window and token. -/
  | wdgKick (p : Path) (w : Word) (bad : BitVec 12)
  /-- WDG_FRAME_END (R403): A slot's frame closes, a MISSED failure is judged and two consecutive failures act on the scope. -/
  | wdgFrameEnd (i : Fin 16) (bad : BitVec 12)
  /-- WDG_FORCE (R406): A write of 0xD00D performs a package watchdog reset at once. -/
  | wdgForce (p : Path) (w : Word)
  /-- PCIE_LINK_UP (R265): The PCIe link trains to up and HOST_STAT shows LINK_UP, rate and width, so that a later fall counts as a host-port reset. -/
  | pcieLinkUp (rate width : BitVec 3)
  /-- BANK_SUPPLY_RETURN (R145): A bank's VDDO returns within ±10 % of its class and BANK_OK sets again, so enables of its units are accepted. -/
  | bankSupplyReturn (b : Fin 8) (v : Byte)
  /-- FINE_WALK_DONE (R151): A FINE delay walk of 0.5 ps per output period reaches its new value and WALKING clears. -/
  | fineWalkDone (n : Fin 48)
  /-- POWER_ON_RESET (R412): Supply returns to a Kiln that had lost all supply, and the whole package resets with the Kiln cleared. -/
  | powerOnReset
  /-- SUPPLY_LOSS (R412): HK0 output is lost while the Kiln keeps VAUX_KEEP; the package goes OFF and only P fields survive. -/
  | supplyLoss
  /-- PIN_RESET (R413): RST_N held low past the filter threshold starts a pin reset, which lasts while RST_N is low. -/
  | pinReset
  /-- LO_LOSS_RESET (R30): The self-timed activity monitor sees no main-LO edge for the loss interval, freezes the monitors and resets the package. -/
  | loLossReset
  /-- HELD_BLINK (R399): The keeper-timed blink pattern on FAULT_N advances or repeats every 4 s in HELD. -/
  | heldBlink
  /-- KEEPER_LOST (R31): The Kiln activity monitor declares the keeper lost, clears KEEPER_OK and sets KEEPER_LOST. -/
  | keeperLost
  /-- KEEPER_RETURN (R399): The keeper runs again, and KEEPER_OK sets and the HELD pattern restarts with a release. -/
  | keeperReturn
  /-- SEQ_SWAP (R198): A verified sequence replaces its slot once that sequence is not running. -/
  | seqSwap
  /-- STEP_WAIT_SATISFIED (R199): A step's condition and implicit dependencies hold and it moves to ACTING. -/
  | stepWaitSatisfied
  /-- STEP_ACTION_DONE (R199): A step's action is applied, and the next step begins or the sequence ends. -/
  | stepActionDone
  /-- STEP_TIMEOUT (R199): A step's wait times out, failing the sequence or applying the action anyway. -/
  | stepTimeout
  /-- ANNOUNCE_ORIGINATE (R244): The grandmaster sends ANNOUNCE on every UP port each ANN_PER. -/
  | announceOriginate
  /-- LISTEN_END (R246): The listen period ends and the hub becomes grandmaster, joins, is refused or listens again. -/
  | listenEnd
  /-- DOORBELL_POLL (R271): The poll interval expires and the hub reads the doorbell words. -/
  | doorbellPoll
  /-- KEEP_HK0_STOP (R418): HK0 stops 10 µs after KEEP entry's second step and the hub is in KEEP. -/
  | keepHk0Stop
  /-- VIN_WAKE (R419): VIN rises through 7.5 V after lying below 5.5 V in KEEP and the hub boots. -/
  | vinWake
  /-- COMPLETION_POST (R279): A completion entry is written when the completion ring has room. -/
  | completionPost
  /-- RESYNC_DRAINED (R287): Every burst in flight completes and the summary write begins. -/
  | resyncDrained
  /-- VOUT_MODE (R299): PMBus command that returns 0x14. -/
  | voutMode
  /-- STATUS_BYTE (R299): PMBus command that returns the status byte of the paged rail. -/
  | statusByte
  /-- STATUS_WORD (R299): PMBus command that returns the status word of the paged rail. -/
  | statusWord
  /-- STATUS_VOUT (R299): PMBus command that returns voltage fault bits. -/
  | statusVout
  /-- STATUS_IOUT (R299): PMBus command that returns current fault bits. -/
  | statusIout
  /-- STATUS_TEMPERATURE (R299): PMBus command that returns temperature fault bits. -/
  | statusTemperature
  /-- READ_VOUT (R299): PMBus command that returns the paged rail's sense voltage. -/
  | readVout
  /-- READ_IOUT (R299): PMBus command that returns the paged rail's total current. -/
  | readIout
  /-- PMBUS_REVISION (R299): PMBus command that returns 0x33. -/
  | pmbusRevision
  /-- MFR_ID (R299): PMBus command that returns the manufacturer name. -/
  | mfrId
  /-- MFR_MODEL (R299): PMBus command that returns the model name. -/
  | mfrModel
  /-- MFR_REVISION (R299): PMBus command that returns the revision. -/
  | mfrRevision
  /-- MFR_HUB_STATE (R300): PMBus command that returns the package state, MIXED and mode. -/
  | mfrHubState
  /-- MFR_PHASES (R300): PMBus command that returns active and assigned phases of the paged rail. -/
  | mfrPhases
  /-- MFR_TB_STATUS (R300): PMBus command that returns the timebase status of the rail's region. -/
  | mfrTbStatus
  /-- MFR_IGNORED (R300): PMBus command that returns GLB_IGNORED_CNT. -/
  | mfrIgnored
  /-- ALERT_RESPONSE (R296): The port answers a read of the alert response address. -/
  | alertResponse
  /-- ENEC (R301): CCC that enables IBIs. -/
  | enec
  /-- DISEC (R301): CCC that disables IBIs. -/
  | disec
  /-- RSTDAA (R301): CCC that returns the port to its static address. -/
  | rstdaa
  /-- GETMWL (R301): CCC that returns the maximum write length. -/
  | getmwl
  /-- GETMRL (R301): CCC that returns the maximum read length. -/
  | getmrl
  /-- GETPID (R301): CCC that returns the provisioned ID. -/
  | getpid
  /-- GETBCR (R301): CCC that returns BCR 0x06. -/
  | getbcr
  /-- GETDCR (R301): CCC that returns DCR 0x00. -/
  | getdcr
  /-- GETSTATUS (R301): CCC that returns the target status. -/
  | getstatus
  /-- UNSUPPORTED_CCC (R301): Any other CCC is NACKed and counted. -/
  | unsupportedCcc
  /-- HDR_ENTRY (R301): An HDR entry is ignored until its exit pattern and counted. -/
  | hdrEntry
  /-- SPI_POLL_TIMEOUT (R308): The flash master has polled the flash for 3 s and ends the command TIMEOUT. -/
  | spiPollTimeout
  /-- EXTEST (R310): JTAG instruction that drives boundary cells. -/
  | extest
  /-- IDCODE (R310): JTAG instruction that returns 0x0489_6A3F. -/
  | idcode
  /-- CLAMP (R310): JTAG instruction that clamps outputs with BYPASS selected. -/
  | clamp
  /-- HIGHZ (R310): JTAG instruction that releases outputs to high impedance. -/
  | highz
  /-- BYPASS (R310): JTAG instruction, also taken by every undefined code, that selects the bypass register. -/
  | bypass
  /-- JTAG_RESET (R310): Test-Logic-Reset or TRST_N resets the TAP and selects IDCODE. -/
  | jtagReset
  /-- BURST_GRANT (R328): The arbiter grants one burst to the highest-priority ready channel. -/
  | burstGrant
  /-- DATU_INV_DONE (R340): An invalidation removes matching entries after its walks end and INV_BUSY clears. -/
  | datuInvDone
  /-- LOCK_MARGIN_READ_DONE (R396): The region's margin reads end, and the lock bit burns if both CRCs equal the seal. -/
  | lockMarginReadDone
  /-- CAPTURE_SAMPLE (R379): The capture unit takes one sample and completes a block when full. -/
  | captureSample
  /-- HK0_IN_REGULATION (R415): After a supply loss that the Kiln survived, VIN returns, HK0 starts by itself and reaches regulation, and the package passes from OFF to BOOT with cause 0x11. -/
  | hk0InRegulation
  /-- KILN_SUPPLY_LOSS (R415): The Kiln loses all supply, for example VAUX_KEEP lost in KEEP, and the package goes OFF with everything lost. -/
  | kilnSupplyLoss
  /-- KEEP_VIN_LOW (R419): In KEEP, the Kiln's comparator sees VIN_SENSE fall below 5.5 V, which arms the VIN wake. -/
  | keepVinLow
deriving DecidableEq, Repr

end Sys2Proof
end

