-- ==== Sys2Proof/Config.lean ====
section
/-! DEFINITION. Sys2Proof/Config.lean: what an implementation fixes and the spec does not give as a number: the values the
spec leaves open (free values, no body) and the cryptographic functions an image check names. -/

namespace Sys2Proof

/-- A free word: what the spec leaves open after an operation. State counts the draws (log entry 3). -/
opaque Config.freeWord : Nat → Word

/-- The 58 line bits that leave a link port before its n-th sent item: idle cells stand there, whose payload the spec leaves open (R229).
Log entry 123. -/
opaque Config.lineFill : (port n : Nat) → BitVec 58

/-- A byte of the flash that a reset tore, by the tear and the address (R361, R407). Log entry 134. -/
opaque Config.tornByte : (tear addr : Nat) → BitVec 8

/-- SHA-384 over bytes (R353 names the function; FIPS 180 is its definition). Log entry 4. -/
opaque Config.sha384 : List Byte → Nat

/-- ECDSA P-384 verification of a digest under a key and a signature (R353). Log entry 4. -/
opaque Config.ecdsaP384 : (key digest sig : Nat) → Bool

/-- The Bisque image version of an engine, ENG_ROM (R363): fixed by the part, not stated by the spec. Log entry 5. -/
opaque Config.bisqueVersion : Nat → Word

end Sys2Proof
end

