-- ==== Sys2Proof/Machine/Reg.lean ====
section
/-! DEFINITION. Sys2Proof/Machine/Reg.lean: the registers of the hub by name, one constructor per register line of
the register tables of spec/ (chapters 02 to 16), and what the tables say of a register field: its place, its access code
(R9), its Keep code (R10) and its legal values (R12). -/

namespace Sys2Proof.Machine

/-- The register names of BAR0 (R35), in the order of the chapters. -/
inductive RegName where
  | PLZ_LANE_CAL
  | PLZ_LO_HZ
  | PLZ_SEL_CTL
  | PLZ_CAND
  | PLZ_PRIO
  | PLZ_SEL_STAT
  | PLZ_SEL_SYS
  | MON_CFG
  | MON_FNOM_INT
  | MON_FNOM_FRAC
  | MON_REJECT
  | MON_ACCEPT
  | MON_FGATE
  | MON_QUAL
  | MON_PJ_THR
  | MON_STAT
  | MON_FOFS
  | MON_QREM
  | MON_EVT
  | MON_CNT
  | MON_PJ_LAST
  | TRG_CTL
  | TRG_BW
  | TRG_PULLIN
  | TRG_LOCK
  | TRG_HIST
  | TRG_HOWIN
  | TRG_RELOCK
  | TRG_STAT
  | TRG_CV_LO
  | TRG_CV_HI
  | TRG_HO_VAL_LO
  | TRG_HO_VAL_HI
  | TRG_HO_INFO
  | TRG_BO_LO
  | TRG_BO_HI
  | TRG_PHERR
  | TRG_LO_STB
  | TRG_HIST_PTR
  | TRG_TC_SRC
  | TRG_TC_C
  | TRG_TC_TERM_LO
  | TRG_TC_TERM_HI
  | TRG_WARM
  | TRG_EVT
  | TRG_DLY
  | TRG_HIST_DMA
  | TRG_HENT_LO
  | TRG_HENT_HI
  | SYN_CTL
  | SYN_N_INT
  | SYN_N_NUM
  | SYN_N_DEN
  | SYN_APPLY
  | SYN_STAT
  | SYN_LD
  | SYN_RET
  | SYN_BYP
  | SYN_TB
  | SYN_SPUR
  | SYN_BYP_STAT
  | SYN_SPURT
  | SYN_EVT
  | SYN_CNT
  | SYN_BLOAD_CTL
  | SYN_BLOAD_DATA
  | SYN_BLOAD_STAT
  | SYN_SLOT
  | SYN_BAND
  | RMP_CTL
  | RMP_TICK
  | RMP_PERIODS
  | RMP_ANCHOR
  | RMP_LIM_NEG
  | RMP_LIM_POS
  | RMP_GLIDE
  | RMP_CMD
  | RMP_STAT
  | RMP_OFS
  | RMP_PDONE
  | RMP_CNT
  | RMP_CNT2
  | RMP_EVT
  | RMP_CHUNK
  | OUT_CTL
  | OUT_DIV
  | OUT_DLY
  | OUT_FRAME
  | OUT_PW
  | OUT_ECHO
  | OUT_STAT
  | OUT_EVT
  | OUT_CNT
  | OUT_BANK
  | OUT_RSYNC
  | OUT_RSYNC_STAT
  | PRG_RCTL
  | PRG_VID
  | PRG_SLEW
  | PRG_FSW
  | PRG_COMP
  | PRG_LIM
  | PRG_LL
  | PRG_SHED
  | PRG_DCM
  | PRG_PG
  | PRG_TMON
  | PRG_RSTAT
  | PRG_RMEAS
  | PRG_RCNT
  | PRG_REVT
  | PRG_PH
  | PRG_TBSEL
  | PRG_TBSTAT
  | PRG_SCHED
  | PRG_SCNT
  | PRG_WSTAT
  | PRG_QW_A
  | PRG_QW_B
  | PRG_TLM_CTL
  | PRG_TLM_PER
  | PRG_TLM_SEQ
  | PRG_TLM_STAT
  | PRG_SCAN
  | PRG_TLM_BUF
  | PRG_EVT
  | SEQ_CMD
  | SEQ_CFG
  | SEQ_STAT
  | SEQ_LOAD_CTL
  | SEQ_LOAD_DATA
  | SEQ_LOAD_STAT
  | SEQ_EVT
  | SEQ_CNT
  | SEQ_DEP_A
  | SEQ_DEP_B
  | SEQ_NSTEP
  | SEQ_STEP
  | FLT_OV
  | FLT_UV
  | FLT_OC
  | FLT_OT
  | FLT_RETRY
  | FLT_RSTAT
  | FLT_FNMAP
  | FLT_PGMAP
  | FLT_PKG
  | PRG_FM_GRP
  | PRG_FM_STAT
  | HUP_CTL
  | HUP_CHG
  | HUP_VIN
  | HUP_STORE
  | HUP_STAT
  | HUP_EVT
  | HK_BUCK
  | HK_LDO
  | HK_STAT
  | HK_FLT
  | HK_TD
  | HK_TDVAL
  | LNK_CTL
  | LNK_STAT
  | LNK_FQ
  | LNK_FOFS
  | LNK_ASYM
  | LNK_MARK
  | LNK_DLY
  | LNK_THETA
  | LNK_PEER_LO
  | LNK_PEER_HI
  | LNK_OFR_LAT
  | LNK_OFR_PH
  | LNK_CNT
  | LNK_EVT
  | LNK_RXQ
  | LNK_SYS_CTL
  | LNK_PRIO
  | LNK_BUDGET
  | LNK_ANN
  | LNK_SRC_ERR
  | LNK_EPOCH
  | LNK_SYS_STAT
  | LNK_ACC_LAT
  | LNK_ACC_PH
  | LNK_ID_LO
  | LNK_ID_HI
  | LNK_GM_LO
  | LNK_GM_HI
  | LNK_GM_INFO
  | LNK_TOD_LO
  | LNK_TOD_HI
  | LNK_TOD_SET_LO
  | LNK_TOD_SET_HI
  | LNK_SIGNAL
  | LNK_EVFWD
  | LNK_RMT_CTL
  | LNK_RMT_ADDR
  | LNK_RMT_DST_LO
  | LNK_RMT_DST_HI
  | LNK_RMT_TMO
  | LNK_RMT_STAT
  | LNK_RMT_DATA
  | LNK_SYS_EVT
  | LNK_SYS_CNT
  | HOST_MODE
  | HOST_STAT
  | HOST_WAKE
  | HOST_RESYNC
  | HOST_RS_STAT
  | HOST_POLL
  | HOST_SUMMARY_ADDR_LO
  | HOST_SUMMARY_ADDR_HI
  | HOST_DB_ADDR_LO
  | HOST_DB_ADDR_HI
  | HOST_XLAT
  | HOST_RING_LO
  | HOST_RING_HI
  | HOST_RING_CFG
  | HOST_RING_IDX
  | MGT_CFG
  | MGT_PMB_CFG
  | MGT_PMB_STAT
  | MGT_I3C_CFG
  | MGT_I3C_STAT
  | MGT_SPI_CFG
  | MGT_SPI_CMD
  | MGT_SPI_ADDR
  | MGT_SPI_STAT
  | MGT_SPI_BUF
  | MGT_EV
  | MGT_EV_DATA
  | MGT_MBX
  | MGT_MBX_CTL
  | MGT_MBX_RES
  | MGT_EVT
  | MGT_MBX_BUF
  | DMA_CCTL
  | DMA_RBASE_LO
  | DMA_RBASE_HI
  | DMA_DB
  | DMA_CMD
  | DMA_STAT
  | DMA_RESID
  | DMA_NEXT_LO
  | DMA_NEXT_HI
  | DMA_REQCNT
  | DMA_REQSEQ
  | DMA_EVT
  | DMA_FCNT
  | DMA_ACTIVE
  | DMA_REQ_PEND
  | DMA_REQ_BIND
  | DMA_EVREQ
  | DATU_INV
  | DATU_INV_ADDR_LO
  | DATU_INV_ADDR_HI
  | DATU_STAT
  | DATU_CNT
  | DATU_CCTL
  | DATU_ROOT_LO
  | DATU_ROOT_HI
  | DATU_FADDR_LO
  | DATU_FADDR_HI
  | DATU_FINFO
  | ENG_CTL
  | ENG_STAT
  | ENG_HALT_ADDR
  | ENG_CNT
  | ENG_ROM
  | ENG_IMG_STAT
  | ENG_IMG_VER
  | ENG_IMG_ABI
  | ENG_STG_VER
  | ENG_HEALTH
  | ENG_IMG_EVT
  | ENG_SEL
  | ENG_MIX
  | PIN_CFG
  | PIN_OWN
  | GPIO_MOUT
  | GPIO_MOE
  | GPIO_IN
  | GPIO_IRQ
  | PIN_PEN
  | GPIO_CAP_CFG
  | GPIO_CAP_RATE
  | GPIO_CAP_STAT
  | PWMX_PER
  | PWMX_DUTY
  | PIN_FIN
  | PIN_FIN_STAT
  | PIN_IRQN
  | PIN_EVT
  | PIN_CNT
  | OTP_ARM
  | OTP_BURN_ADDR
  | OTP_BURN_DATA
  | OTP_CMD
  | OTP_STAT
  | OTP_REGION
  | OTP_CNT
  | OTP_FAIL
  | OTP_FAIL_RD
  | OTP_FAIL_CHK
  | OTP_PROF
  | OTP_SH
  | OTP_OVR
  | WDG_CTL
  | WDG_TICK
  | WDG_KICK
  | WDG_FORCE
  | WDG_STAT
  | WDG_LASTFAIL
  | WDG_SLOT
  | WDG_WIN
  | WDG_SSTAT
  | GLB_ID
  | GLB_FEATGEN
  | GLB_STATE
  | GLB_CMD
  | GLB_RESET
  | GLB_IGNORED_CNT
  | GLB_IGNORED_LAST_A
  | GLB_IGNORED_LAST_S
  | GLB_STBY_CTL
  | GLB_STBY_OUT_LO
  | GLB_STBY_OUT_HI
  | GLB_STBY_RAIL
  | GLB_DIE
  | GLB_EVT
  | GLB_EVCNT
  | GLB_TIMER_LO
  | GLB_TIMER_HI
  | KLN_STAT
  | KLN_TIME
  | KLN_WDG_CNT
  | KLN_HIST
  | KLN_SLOT
  | KLN_HO_LO
  | KLN_HO_HI
  | KLN_HO_SEC
  | KLN_WAKE
  | KLN_SCR
  | MSIX_ADDR_LO
  | MSIX_ADDR_HI
  | MSIX_DATA
  | MSIX_VCTL
  | MSIX_PBA
deriving DecidableEq, Repr

/-- One register: its name and its indices in the order its table gives them. A PRG rail register, PRG_FM_GRP and PRG_PH
take the region and the rail or phase within it. Unused indices are 0. -/
structure Reg where
  name : RegName
  i : Nat := 0
  j : Nat := 0
  k : Nat := 0
deriving DecidableEq, Repr

/-- Access codes (R9). -/
inductive Acc where | rw | ro | wo | w1c | rwl
deriving DecidableEq, Repr

/-- Keep codes as the tables use them (R10): `dash` survives nothing, `p` everything but power-on. -/
inductive Keep where | dash | h | sh | wsh | kwsh | p
deriving DecidableEq, Repr

/-- One named field of a register: bits `[lo + w - 1 : lo]`; `legal` lists the ranges of values a write may carry,
the empty list allowing every value. -/
structure FieldSpec where
  lo : Nat
  w : Nat
  acc : Acc
  keep : Keep
  legal : List (Nat × Nat) := []
deriving DecidableEq, Repr

/-- A field of one register, as the model names it. -/
structure Fld where
  reg : Reg
  lo : Nat
  w : Nat
deriving DecidableEq, Repr

/-- Where the registers of one name lie: the first offset and a (count, stride) pair per index. -/
structure RegRow where
  base : Nat
  n1 : Nat := 1
  s1 : Nat := 0x100000
  n2 : Nat := 1
  s2 : Nat := 0x100000
  n3 : Nat := 1
  s3 : Nat := 0x100000
deriving DecidableEq, Repr

end Sys2Proof.Machine
end

