-- ==== Sys2Proof/Machine/Fields.lean ====
section
/-! DEFINITION. Sys2Proof/Machine/Fields.lean: one name per register field of the tables of spec/, its register's name and
its own joined by an underscore. -/

namespace Sys2Proof.Machine

def PLZ_LANE_CAL_RES_01 : Fld := ⟨⟨.PLZ_LANE_CAL, 0, 0, 0⟩, 0, 8⟩
def PLZ_LANE_CAL_RES_10 : Fld := ⟨⟨.PLZ_LANE_CAL, 0, 0, 0⟩, 8, 8⟩
def PLZ_LANE_CAL_CAL_DONE : Fld := ⟨⟨.PLZ_LANE_CAL, 0, 0, 0⟩, 31, 1⟩
def PLZ_LO_HZ_LO_HZ : Fld := ⟨⟨.PLZ_LO_HZ, 0, 0, 0⟩, 0, 27⟩
def PLZ_SEL_CTL_MODE (t : Nat) : Fld := ⟨⟨.PLZ_SEL_CTL, t, 0, 0⟩, 0, 2⟩
def PLZ_SEL_CTL_REVERT (t : Nat) : Fld := ⟨⟨.PLZ_SEL_CTL, t, 0, 0⟩, 2, 1⟩
def PLZ_SEL_CTL_FORCE_IDX (t : Nat) : Fld := ⟨⟨.PLZ_SEL_CTL, t, 0, 0⟩, 8, 5⟩
def PLZ_CAND_CAND_EN (t : Nat) : Fld := ⟨⟨.PLZ_CAND, t, 0, 0⟩, 0, 20⟩
def PLZ_PRIO_PRIO_0 (t : Nat) (g : Nat) : Fld := ⟨⟨.PLZ_PRIO, t, g, 0⟩, 0, 4⟩
def PLZ_PRIO_PRIO_1 (t : Nat) (g : Nat) : Fld := ⟨⟨.PLZ_PRIO, t, g, 0⟩, 4, 4⟩
def PLZ_PRIO_PRIO_2 (t : Nat) (g : Nat) : Fld := ⟨⟨.PLZ_PRIO, t, g, 0⟩, 8, 4⟩
def PLZ_PRIO_PRIO_3 (t : Nat) (g : Nat) : Fld := ⟨⟨.PLZ_PRIO, t, g, 0⟩, 12, 4⟩
def PLZ_PRIO_PRIO_4 (t : Nat) (g : Nat) : Fld := ⟨⟨.PLZ_PRIO, t, g, 0⟩, 16, 4⟩
def PLZ_PRIO_PRIO_5 (t : Nat) (g : Nat) : Fld := ⟨⟨.PLZ_PRIO, t, g, 0⟩, 20, 4⟩
def PLZ_PRIO_PRIO_6 (t : Nat) (g : Nat) : Fld := ⟨⟨.PLZ_PRIO, t, g, 0⟩, 24, 4⟩
def PLZ_PRIO_PRIO_7 (t : Nat) (g : Nat) : Fld := ⟨⟨.PLZ_PRIO, t, g, 0⟩, 28, 4⟩
def PLZ_SEL_STAT_CUR_IDX (t : Nat) : Fld := ⟨⟨.PLZ_SEL_STAT, t, 0, 0⟩, 0, 5⟩
def PLZ_SEL_STAT_ACTIVE (t : Nat) : Fld := ⟨⟨.PLZ_SEL_STAT, t, 0, 0⟩, 7, 1⟩
def PLZ_SEL_STAT_PREV_IDX (t : Nat) : Fld := ⟨⟨.PLZ_SEL_STAT, t, 0, 0⟩, 8, 5⟩
def PLZ_SEL_STAT_PREV_VALID (t : Nat) : Fld := ⟨⟨.PLZ_SEL_STAT, t, 0, 0⟩, 15, 1⟩
def PLZ_SEL_STAT_SWITCH_CNT (t : Nat) : Fld := ⟨⟨.PLZ_SEL_STAT, t, 0, 0⟩, 16, 16⟩
def PLZ_SEL_SYS_SYS_IDX (t : Nat) : Fld := ⟨⟨.PLZ_SEL_SYS, t, 0, 0⟩, 0, 5⟩
def PLZ_SEL_SYS_SYS_VALID (t : Nat) : Fld := ⟨⟨.PLZ_SEL_SYS, t, 0, 0⟩, 7, 1⟩
def MON_CFG_EN (m : Nat) : Fld := ⟨⟨.MON_CFG, m, 0, 0⟩, 0, 1⟩
def MON_CFG_FORMAT (m : Nat) : Fld := ⟨⟨.MON_CFG, m, 0, 0⟩, 1, 2⟩
def MON_CFG_TERM (m : Nat) : Fld := ⟨⟨.MON_CFG, m, 0, 0⟩, 3, 1⟩
def MON_CFG_AC (m : Nat) : Fld := ⟨⟨.MON_CFG, m, 0, 0⟩, 4, 1⟩
def MON_CFG_SE_THR (m : Nat) : Fld := ⟨⟨.MON_CFG, m, 0, 0⟩, 5, 2⟩
def MON_CFG_HYST (m : Nat) : Fld := ⟨⟨.MON_CFG, m, 0, 0⟩, 7, 1⟩
def MON_CFG_PJ_ACTION (m : Nat) : Fld := ⟨⟨.MON_CFG, m, 0, 0⟩, 8, 1⟩
def MON_FNOM_INT_FNOM_INT (m : Nat) : Fld := ⟨⟨.MON_FNOM_INT, m, 0, 0⟩, 0, 32⟩
def MON_FNOM_FRAC_FNOM_FRAC (m : Nat) : Fld := ⟨⟨.MON_FNOM_FRAC, m, 0, 0⟩, 0, 16⟩
def MON_REJECT_REJECT (m : Nat) : Fld := ⟨⟨.MON_REJECT, m, 0, 0⟩, 0, 20⟩
def MON_ACCEPT_ACCEPT (m : Nat) : Fld := ⟨⟨.MON_ACCEPT, m, 0, 0⟩, 0, 20⟩
def MON_FGATE_GATE (m : Nat) : Fld := ⟨⟨.MON_FGATE, m, 0, 0⟩, 0, 4⟩
def MON_QUAL_QUAL (m : Nat) : Fld := ⟨⟨.MON_QUAL, m, 0, 0⟩, 0, 14⟩
def MON_PJ_THR_PJ_THR (m : Nat) : Fld := ⟨⟨.MON_PJ_THR, m, 0, 0⟩, 0, 20⟩
def MON_STAT_STATE (m : Nat) : Fld := ⟨⟨.MON_STAT, m, 0, 0⟩, 0, 2⟩
def MON_STAT_ACT (m : Nat) : Fld := ⟨⟨.MON_STAT, m, 0, 0⟩, 2, 1⟩
def MON_STAT_FVALID (m : Nat) : Fld := ⟨⟨.MON_STAT, m, 0, 0⟩, 3, 1⟩
def MON_STAT_IN_ACCEPT (m : Nat) : Fld := ⟨⟨.MON_STAT, m, 0, 0⟩, 4, 1⟩
def MON_STAT_IN_REJECT (m : Nat) : Fld := ⟨⟨.MON_STAT, m, 0, 0⟩, 5, 1⟩
def MON_STAT_FROZEN (m : Nat) : Fld := ⟨⟨.MON_STAT, m, 0, 0⟩, 6, 1⟩
def MON_FOFS_FOFS (m : Nat) : Fld := ⟨⟨.MON_FOFS, m, 0, 0⟩, 0, 32⟩
def MON_QREM_QREM (m : Nat) : Fld := ⟨⟨.MON_QREM, m, 0, 0⟩, 0, 14⟩
def MON_EVT_LOS (m : Nat) : Fld := ⟨⟨.MON_EVT, m, 0, 0⟩, 0, 1⟩
def MON_EVT_FREQ_REJECT (m : Nat) : Fld := ⟨⟨.MON_EVT, m, 0, 0⟩, 1, 1⟩
def MON_EVT_PHASE_JUMP (m : Nat) : Fld := ⟨⟨.MON_EVT, m, 0, 0⟩, 2, 1⟩
def MON_EVT_QUALIFIED (m : Nat) : Fld := ⟨⟨.MON_EVT, m, 0, 0⟩, 3, 1⟩
def MON_CNT_LOS_CNT (m : Nat) : Fld := ⟨⟨.MON_CNT, m, 0, 0⟩, 0, 16⟩
def MON_CNT_PJ_CNT (m : Nat) : Fld := ⟨⟨.MON_CNT, m, 0, 0⟩, 16, 16⟩
def MON_PJ_LAST_PJ_LAST (m : Nat) : Fld := ⟨⟨.MON_PJ_LAST, m, 0, 0⟩, 0, 32⟩
def TRG_CTL_EN (t : Nat) : Fld := ⟨⟨.TRG_CTL, t, 0, 0⟩, 0, 1⟩
def TRG_CTL_RREF_SEL (t : Nat) : Fld := ⟨⟨.TRG_CTL, t, 0, 0⟩, 1, 3⟩
def TRG_CTL_STB_EN (t : Nat) : Fld := ⟨⟨.TRG_CTL, t, 0, 0⟩, 4, 1⟩
def TRG_CTL_RELOCK_POL (t : Nat) : Fld := ⟨⟨.TRG_CTL, t, 0, 0⟩, 5, 1⟩
def TRG_CTL_TC_EN (t : Nat) : Fld := ⟨⟨.TRG_CTL, t, 0, 0⟩, 6, 1⟩
def TRG_CTL_WARM_EN (t : Nat) : Fld := ⟨⟨.TRG_CTL, t, 0, 0⟩, 7, 1⟩
def TRG_BW_BW (t : Nat) : Fld := ⟨⟨.TRG_BW, t, 0, 0⟩, 0, 5⟩
def TRG_BW_ACQ_BW (t : Nat) : Fld := ⟨⟨.TRG_BW, t, 0, 0⟩, 8, 5⟩
def TRG_PULLIN_PULLIN (t : Nat) : Fld := ⟨⟨.TRG_PULLIN, t, 0, 0⟩, 0, 17⟩
def TRG_LOCK_LOCK_THR (t : Nat) : Fld := ⟨⟨.TRG_LOCK, t, 0, 0⟩, 0, 16⟩
def TRG_LOCK_LOCK_TIME (t : Nat) : Fld := ⟨⟨.TRG_LOCK, t, 0, 0⟩, 16, 16⟩
def TRG_HIST_INTERVAL (t : Nat) : Fld := ⟨⟨.TRG_HIST, t, 0, 0⟩, 0, 14⟩
def TRG_HIST_GUARD (t : Nat) : Fld := ⟨⟨.TRG_HIST, t, 0, 0⟩, 16, 8⟩
def TRG_HOWIN_WINDOW (t : Nat) : Fld := ⟨⟨.TRG_HOWIN, t, 0, 0⟩, 0, 10⟩
def TRG_RELOCK_SLOPE (t : Nat) : Fld := ⟨⟨.TRG_RELOCK, t, 0, 0⟩, 0, 10⟩
def TRG_STAT_STATE (t : Nat) : Fld := ⟨⟨.TRG_STAT, t, 0, 0⟩, 0, 3⟩
def TRG_STAT_FORCED (t : Nat) : Fld := ⟨⟨.TRG_STAT, t, 0, 0⟩, 3, 1⟩
def TRG_STAT_SAMP_SRC (t : Nat) : Fld := ⟨⟨.TRG_STAT, t, 0, 0⟩, 4, 1⟩
def TRG_STAT_PULLIN_SAT (t : Nat) : Fld := ⟨⟨.TRG_STAT, t, 0, 0⟩, 5, 1⟩
def TRG_STAT_SLEWING (t : Nat) : Fld := ⟨⟨.TRG_STAT, t, 0, 0⟩, 6, 1⟩
def TRG_STAT_REALIGN_PEND (t : Nat) : Fld := ⟨⟨.TRG_STAT, t, 0, 0⟩, 7, 1⟩
def TRG_STAT_BW_EFF (t : Nat) : Fld := ⟨⟨.TRG_STAT, t, 0, 0⟩, 8, 5⟩
def TRG_STAT_HO_SRC (t : Nat) : Fld := ⟨⟨.TRG_STAT, t, 0, 0⟩, 13, 2⟩
def TRG_STAT_HO_CNT (t : Nat) : Fld := ⟨⟨.TRG_STAT, t, 0, 0⟩, 16, 16⟩
def TRG_CV_LO_CV (t : Nat) : Fld := ⟨⟨.TRG_CV_LO, t, 0, 0⟩, 0, 32⟩
def TRG_CV_HI_CV (t : Nat) : Fld := ⟨⟨.TRG_CV_HI, t, 0, 0⟩, 0, 16⟩
def TRG_HO_VAL_LO_HO (t : Nat) : Fld := ⟨⟨.TRG_HO_VAL_LO, t, 0, 0⟩, 0, 32⟩
def TRG_HO_VAL_HI_HO (t : Nat) : Fld := ⟨⟨.TRG_HO_VAL_HI, t, 0, 0⟩, 0, 16⟩
def TRG_HO_VAL_HI_VALID (t : Nat) : Fld := ⟨⟨.TRG_HO_VAL_HI, t, 0, 0⟩, 31, 1⟩
def TRG_HO_INFO_NVALID (t : Nat) : Fld := ⟨⟨.TRG_HO_INFO, t, 0, 0⟩, 0, 10⟩
def TRG_HO_INFO_TWIN (t : Nat) : Fld := ⟨⟨.TRG_HO_INFO, t, 0, 0⟩, 16, 12⟩
def TRG_BO_LO_BO (t : Nat) : Fld := ⟨⟨.TRG_BO_LO, t, 0, 0⟩, 0, 32⟩
def TRG_BO_HI_BO (t : Nat) : Fld := ⟨⟨.TRG_BO_HI, t, 0, 0⟩, 0, 16⟩
def TRG_PHERR_PHERR (t : Nat) : Fld := ⟨⟨.TRG_PHERR, t, 0, 0⟩, 0, 32⟩
def TRG_LO_STB_OFS (t : Nat) : Fld := ⟨⟨.TRG_LO_STB, t, 0, 0⟩, 0, 32⟩
def TRG_HIST_PTR_WR_IDX (t : Nat) : Fld := ⟨⟨.TRG_HIST_PTR, t, 0, 0⟩, 0, 10⟩
def TRG_HIST_PTR_NFILLED (t : Nat) : Fld := ⟨⟨.TRG_HIST_PTR, t, 0, 0⟩, 16, 11⟩
def TRG_TC_SRC_SRC (t : Nat) : Fld := ⟨⟨.TRG_TC_SRC, t, 0, 0⟩, 0, 4⟩
def TRG_TC_SRC_TREF (t : Nat) : Fld := ⟨⟨.TRG_TC_SRC, t, 0, 0⟩, 16, 12⟩
def TRG_TC_C_C (t : Nat) (k : Nat) : Fld := ⟨⟨.TRG_TC_C, t, k, 0⟩, 0, 32⟩
def TRG_TC_TERM_LO_TERM (t : Nat) : Fld := ⟨⟨.TRG_TC_TERM_LO, t, 0, 0⟩, 0, 32⟩
def TRG_TC_TERM_HI_TERM (t : Nat) : Fld := ⟨⟨.TRG_TC_TERM_HI, t, 0, 0⟩, 0, 16⟩
def TRG_WARM_MAXAGE (t : Nat) : Fld := ⟨⟨.TRG_WARM, t, 0, 0⟩, 0, 16⟩
def TRG_EVT_HOLDOVER_ENTER (t : Nat) : Fld := ⟨⟨.TRG_EVT, t, 0, 0⟩, 0, 1⟩
def TRG_EVT_HOLDOVER_EXIT (t : Nat) : Fld := ⟨⟨.TRG_EVT, t, 0, 0⟩, 1, 1⟩
def TRG_EVT_DPLL_LOCK (t : Nat) : Fld := ⟨⟨.TRG_EVT, t, 0, 0⟩, 2, 1⟩
def TRG_EVT_DPLL_UNLOCK (t : Nat) : Fld := ⟨⟨.TRG_EVT, t, 0, 0⟩, 3, 1⟩
def TRG_EVT_BUILDOUT (t : Nat) : Fld := ⟨⟨.TRG_EVT, t, 0, 0⟩, 4, 1⟩
def TRG_EVT_REALIGN_DONE (t : Nat) : Fld := ⟨⟨.TRG_EVT, t, 0, 0⟩, 5, 1⟩
def TRG_EVT_REALIGN_DROPPED (t : Nat) : Fld := ⟨⟨.TRG_EVT, t, 0, 0⟩, 6, 1⟩
def TRG_EVT_STB_LOSS (t : Nat) : Fld := ⟨⟨.TRG_EVT, t, 0, 0⟩, 7, 1⟩
def TRG_EVT_PULLIN_SAT (t : Nat) : Fld := ⟨⟨.TRG_EVT, t, 0, 0⟩, 8, 1⟩
def TRG_DLY_HO_TIME (t : Nat) : Fld := ⟨⟨.TRG_DLY, t, 0, 0⟩, 0, 16⟩
def TRG_HIST_DMA_REQ_EN (t : Nat) : Fld := ⟨⟨.TRG_HIST_DMA, t, 0, 0⟩, 0, 1⟩
def TRG_HENT_LO_VALUE (t : Nat) (i : Nat) : Fld := ⟨⟨.TRG_HENT_LO, t, i, 0⟩, 0, 32⟩
def TRG_HENT_HI_VALUE (t : Nat) (i : Nat) : Fld := ⟨⟨.TRG_HENT_HI, t, i, 0⟩, 0, 16⟩
def TRG_HENT_HI_TEMP (t : Nat) (i : Nat) : Fld := ⟨⟨.TRG_HENT_HI, t, i, 0⟩, 16, 12⟩
def TRG_HENT_HI_VALID (t : Nat) (i : Nat) : Fld := ⟨⟨.TRG_HENT_HI, t, i, 0⟩, 31, 1⟩
def SYN_CTL_EN (c : Nat) : Fld := ⟨⟨.SYN_CTL, c, 0, 0⟩, 0, 1⟩
def SYN_CTL_RET_AUTO (c : Nat) : Fld := ⟨⟨.SYN_CTL, c, 0, 0⟩, 1, 1⟩
def SYN_CTL_BW (c : Nat) : Fld := ⟨⟨.SYN_CTL, c, 0, 0⟩, 3, 3⟩
def SYN_N_INT_N_INT (c : Nat) : Fld := ⟨⟨.SYN_N_INT, c, 0, 0⟩, 0, 9⟩
def SYN_N_INT_PATH (c : Nat) : Fld := ⟨⟨.SYN_N_INT, c, 0, 0⟩, 9, 2⟩
def SYN_N_NUM_NUM (c : Nat) : Fld := ⟨⟨.SYN_N_NUM, c, 0, 0⟩, 0, 32⟩
def SYN_N_DEN_DEN (c : Nat) : Fld := ⟨⟨.SYN_N_DEN, c, 0, 0⟩, 0, 32⟩
def SYN_APPLY_APPLY (c : Nat) : Fld := ⟨⟨.SYN_APPLY, c, 0, 0⟩, 0, 1⟩
def SYN_STAT_STATE (c : Nat) : Fld := ⟨⟨.SYN_STAT, c, 0, 0⟩, 0, 3⟩
def SYN_STAT_RETUNE (c : Nat) : Fld := ⟨⟨.SYN_STAT, c, 0, 0⟩, 3, 1⟩
def SYN_STAT_ON_LOSS (c : Nat) : Fld := ⟨⟨.SYN_STAT, c, 0, 0⟩, 4, 1⟩
def SYN_STAT_RET_PEND (c : Nat) : Fld := ⟨⟨.SYN_STAT, c, 0, 0⟩, 5, 1⟩
def SYN_STAT_TB_ACTIVE (c : Nat) : Fld := ⟨⟨.SYN_STAT, c, 0, 0⟩, 6, 1⟩
def SYN_STAT_SWAP_PEND (c : Nat) : Fld := ⟨⟨.SYN_STAT, c, 0, 0⟩, 7, 1⟩
def SYN_STAT_PATH_EFF (c : Nat) : Fld := ⟨⟨.SYN_STAT, c, 0, 0⟩, 8, 2⟩
def SYN_STAT_CORE (c : Nat) : Fld := ⟨⟨.SYN_STAT, c, 0, 0⟩, 10, 2⟩
def SYN_STAT_BAND (c : Nat) : Fld := ⟨⟨.SYN_STAT, c, 0, 0⟩, 12, 8⟩
def SYN_STAT_VT (c : Nat) : Fld := ⟨⟨.SYN_STAT, c, 0, 0⟩, 20, 8⟩
def SYN_STAT_SPUR_LOW (c : Nat) : Fld := ⟨⟨.SYN_STAT, c, 0, 0⟩, 28, 1⟩
def SYN_STAT_LANE_SRC_LOL (c : Nat) : Fld := ⟨⟨.SYN_STAT, c, 0, 0⟩, 29, 1⟩
def SYN_LD_WIN (c : Nat) : Fld := ⟨⟨.SYN_LD, c, 0, 0⟩, 0, 10⟩
def SYN_LD_UL_CNT (c : Nat) : Fld := ⟨⟨.SYN_LD, c, 0, 0⟩, 16, 8⟩
def SYN_LD_LK_CNT (c : Nat) : Fld := ⟨⟨.SYN_LD, c, 0, 0⟩, 24, 8⟩
def SYN_RET_HOLD (c : Nat) : Fld := ⟨⟨.SYN_RET, c, 0, 0⟩, 0, 16⟩
def SYN_RET_RESRCH (c : Nat) : Fld := ⟨⟨.SYN_RET, c, 0, 0⟩, 16, 16⟩
def SYN_BYP_SRC (c : Nat) : Fld := ⟨⟨.SYN_BYP, c, 0, 0⟩, 0, 2⟩
def SYN_BYP_BN (c : Nat) : Fld := ⟨⟨.SYN_BYP, c, 0, 0⟩, 8, 8⟩
def SYN_BYP_BR (c : Nat) : Fld := ⟨⟨.SYN_BYP, c, 0, 0⟩, 16, 4⟩
def SYN_BYP_Q (c : Nat) : Fld := ⟨⟨.SYN_BYP, c, 0, 0⟩, 20, 6⟩
def SYN_TB_TB_EN (c : Nat) : Fld := ⟨⟨.SYN_TB, c, 0, 0⟩, 0, 1⟩
def SYN_TB_TBDIV (c : Nat) : Fld := ⟨⟨.SYN_TB, c, 0, 0⟩, 8, 6⟩
def SYN_SPUR_SPUR_MIN (c : Nat) : Fld := ⟨⟨.SYN_SPUR, c, 0, 0⟩, 0, 8⟩
def SYN_BYP_STAT_IN_BYPASS (c : Nat) : Fld := ⟨⟨.SYN_BYP_STAT, c, 0, 0⟩, 0, 4⟩
def SYN_BYP_STAT_HELD_LOW (c : Nat) : Fld := ⟨⟨.SYN_BYP_STAT, c, 0, 0⟩, 4, 4⟩
def SYN_BYP_STAT_FREE_RUN (c : Nat) : Fld := ⟨⟨.SYN_BYP_STAT, c, 0, 0⟩, 8, 4⟩
def SYN_BYP_STAT_FRAME_STALE (c : Nat) : Fld := ⟨⟨.SYN_BYP_STAT, c, 0, 0⟩, 12, 4⟩
def SYN_BYP_STAT_DENIED (c : Nat) : Fld := ⟨⟨.SYN_BYP_STAT, c, 0, 0⟩, 16, 4⟩
def SYN_SPURT_DIST (c : Nat) (p : Nat) : Fld := ⟨⟨.SYN_SPURT, c, p, 0⟩, 0, 24⟩
def SYN_SPURT_VALID (c : Nat) (p : Nat) : Fld := ⟨⟨.SYN_SPURT, c, p, 0⟩, 31, 1⟩
def SYN_EVT_LOL (c : Nat) : Fld := ⟨⟨.SYN_EVT, c, 0, 0⟩, 0, 1⟩
def SYN_EVT_SYN_LOCK (c : Nat) : Fld := ⟨⟨.SYN_EVT, c, 0, 0⟩, 1, 1⟩
def SYN_EVT_BYPASS_ENTER (c : Nat) : Fld := ⟨⟨.SYN_EVT, c, 0, 0⟩, 2, 1⟩
def SYN_EVT_BYPASS_EXIT (c : Nat) : Fld := ⟨⟨.SYN_EVT, c, 0, 0⟩, 3, 1⟩
def SYN_EVT_BYPASS_DENIED (c : Nat) : Fld := ⟨⟨.SYN_EVT, c, 0, 0⟩, 4, 1⟩
def SYN_EVT_RETUNE_DONE (c : Nat) : Fld := ⟨⟨.SYN_EVT, c, 0, 0⟩, 5, 1⟩
def SYN_EVT_HOP_MISS (c : Nat) : Fld := ⟨⟨.SYN_EVT, c, 0, 0⟩, 6, 1⟩
def SYN_EVT_SEARCH_FAIL (c : Nat) : Fld := ⟨⟨.SYN_EVT, c, 0, 0⟩, 7, 1⟩
def SYN_CNT_LOL_CNT (c : Nat) : Fld := ⟨⟨.SYN_CNT, c, 0, 0⟩, 0, 16⟩
def SYN_CNT_SEARCH_CNT (c : Nat) : Fld := ⟨⟨.SYN_CNT, c, 0, 0⟩, 16, 16⟩
def SYN_BLOAD_CTL_START (c : Nat) : Fld := ⟨⟨.SYN_BLOAD_CTL, c, 0, 0⟩, 0, 1⟩
def SYN_BLOAD_DATA_DATA (c : Nat) : Fld := ⟨⟨.SYN_BLOAD_DATA, c, 0, 0⟩, 0, 32⟩
def SYN_BLOAD_STAT_WORDS (c : Nat) : Fld := ⟨⟨.SYN_BLOAD_STAT, c, 0, 0⟩, 0, 10⟩
def SYN_BLOAD_STAT_RESULT (c : Nat) : Fld := ⟨⟨.SYN_BLOAD_STAT, c, 0, 0⟩, 10, 2⟩
def SYN_SLOT_BAND (c : Nat) (v : Nat) (s : Nat) : Fld := ⟨⟨.SYN_SLOT, c, v, s⟩, 0, 8⟩
def SYN_SLOT_VT (c : Nat) (v : Nat) (s : Nat) : Fld := ⟨⟨.SYN_SLOT, c, v, s⟩, 8, 8⟩
def SYN_SLOT_ENTRY (c : Nat) (v : Nat) (s : Nat) : Fld := ⟨⟨.SYN_SLOT, c, v, s⟩, 16, 7⟩
def SYN_SLOT_VALID (c : Nat) (v : Nat) (s : Nat) : Fld := ⟨⟨.SYN_SLOT, c, v, s⟩, 31, 1⟩
def SYN_BAND_WORD (c : Nat) (i : Nat) (w : Nat) : Fld := ⟨⟨.SYN_BAND, c, i, w⟩, 0, 32⟩
def RMP_CTL_MODE (c : Nat) : Fld := ⟨⟨.RMP_CTL, c, 0, 0⟩, 0, 1⟩
def RMP_CTL_LOL_POL (c : Nat) : Fld := ⟨⟨.RMP_CTL, c, 0, 0⟩, 1, 1⟩
def RMP_CTL_REQ_EN (c : Nat) : Fld := ⟨⟨.RMP_CTL, c, 0, 0⟩, 2, 1⟩
def RMP_CTL_LOWWATER (c : Nat) : Fld := ⟨⟨.RMP_CTL, c, 0, 0⟩, 8, 4⟩
def RMP_TICK_TICKDIV (c : Nat) : Fld := ⟨⟨.RMP_TICK, c, 0, 0⟩, 0, 16⟩
def RMP_PERIODS_PERIODS (c : Nat) : Fld := ⟨⟨.RMP_PERIODS, c, 0, 0⟩, 0, 16⟩
def RMP_ANCHOR_ANCHOR (c : Nat) : Fld := ⟨⟨.RMP_ANCHOR, c, 0, 0⟩, 0, 32⟩
def RMP_LIM_NEG_LIM (c : Nat) : Fld := ⟨⟨.RMP_LIM_NEG, c, 0, 0⟩, 0, 30⟩
def RMP_LIM_POS_LIM (c : Nat) : Fld := ⟨⟨.RMP_LIM_POS, c, 0, 0⟩, 0, 30⟩
def RMP_GLIDE_GLIDE (c : Nat) : Fld := ⟨⟨.RMP_GLIDE, c, 0, 0⟩, 0, 31⟩
def RMP_CMD_START (c : Nat) : Fld := ⟨⟨.RMP_CMD, c, 0, 0⟩, 0, 1⟩
def RMP_CMD_STOP (c : Nat) : Fld := ⟨⟨.RMP_CMD, c, 0, 0⟩, 1, 1⟩
def RMP_CMD_HOME (c : Nat) : Fld := ⟨⟨.RMP_CMD, c, 0, 0⟩, 2, 1⟩
def RMP_STAT_STATE (c : Nat) : Fld := ⟨⟨.RMP_STAT, c, 0, 0⟩, 0, 2⟩
def RMP_STAT_GLIDING (c : Nat) : Fld := ⟨⟨.RMP_STAT, c, 0, 0⟩, 2, 1⟩
def RMP_STAT_UNDERRUN (c : Nat) : Fld := ⟨⟨.RMP_STAT, c, 0, 0⟩, 3, 1⟩
def RMP_STAT_PEND (c : Nat) : Fld := ⟨⟨.RMP_STAT, c, 0, 0⟩, 4, 1⟩
def RMP_STAT_HOME_PEND (c : Nat) : Fld := ⟨⟨.RMP_STAT, c, 0, 0⟩, 5, 1⟩
def RMP_STAT_SEG (c : Nat) : Fld := ⟨⟨.RMP_STAT, c, 0, 0⟩, 6, 8⟩
def RMP_STAT_CHUNKS (c : Nat) : Fld := ⟨⟨.RMP_STAT, c, 0, 0⟩, 14, 5⟩
def RMP_OFS_O (c : Nat) : Fld := ⟨⟨.RMP_OFS, c, 0, 0⟩, 0, 32⟩
def RMP_PDONE_PCNT (c : Nat) : Fld := ⟨⟨.RMP_PDONE, c, 0, 0⟩, 0, 16⟩
def RMP_PDONE_NEXT_SEQ (c : Nat) : Fld := ⟨⟨.RMP_PDONE, c, 0, 0⟩, 16, 16⟩
def RMP_CNT_UNDERRUN_CNT (c : Nat) : Fld := ⟨⟨.RMP_CNT, c, 0, 0⟩, 0, 16⟩
def RMP_CNT_CLIP_CNT (c : Nat) : Fld := ⟨⟨.RMP_CNT, c, 0, 0⟩, 16, 16⟩
def RMP_CNT2_SEQ_ERR (c : Nat) : Fld := ⟨⟨.RMP_CNT2, c, 0, 0⟩, 0, 16⟩
def RMP_CNT2_POISON_CNT (c : Nat) : Fld := ⟨⟨.RMP_CNT2, c, 0, 0⟩, 16, 16⟩
def RMP_EVT_EVT (c : Nat) : Fld := ⟨⟨.RMP_EVT, c, 0, 0⟩, 0, 7⟩
def RMP_EVT_ABORT (c : Nat) : Fld := ⟨⟨.RMP_EVT, c, 0, 0⟩, 7, 1⟩
def RMP_CHUNK_DATA (c : Nat) (w : Nat) : Fld := ⟨⟨.RMP_CHUNK, c, w, 0⟩, 0, 32⟩
def OUT_CTL_EN (n : Nat) : Fld := ⟨⟨.OUT_CTL, n, 0, 0⟩, 0, 1⟩
def OUT_CTL_FMT (n : Nat) : Fld := ⟨⟨.OUT_CTL, n, 0, 0⟩, 1, 3⟩
def OUT_CTL_ROLE (n : Nat) : Fld := ⟨⟨.OUT_CTL, n, 0, 0⟩, 4, 2⟩
def OUT_CTL_POLICY (n : Nat) : Fld := ⟨⟨.OUT_CTL, n, 0, 0⟩, 6, 2⟩
def OUT_CTL_SRC (n : Nat) : Fld := ⟨⟨.OUT_CTL, n, 0, 0⟩, 8, 2⟩
def OUT_CTL_LANE (n : Nat) : Fld := ⟨⟨.OUT_CTL, n, 0, 0⟩, 10, 2⟩
def OUT_CTL_OFF_Z (n : Nat) : Fld := ⟨⟨.OUT_CTL, n, 0, 0⟩, 12, 1⟩
def OUT_CTL_CMOS (n : Nat) : Fld := ⟨⟨.OUT_CTL, n, 0, 0⟩, 13, 2⟩
def OUT_CTL_AMP (n : Nat) : Fld := ⟨⟨.OUT_CTL, n, 0, 0⟩, 15, 2⟩
def OUT_DIV_DIV (n : Nat) : Fld := ⟨⟨.OUT_DIV, n, 0, 0⟩, 0, 24⟩
def OUT_DLY_FINE (n : Nat) : Fld := ⟨⟨.OUT_DLY, n, 0, 0⟩, 0, 8⟩
def OUT_DLY_COARSE (n : Nat) : Fld := ⟨⟨.OUT_DLY, n, 0, 0⟩, 16, 16⟩
def OUT_FRAME_FCNT (n : Nat) : Fld := ⟨⟨.OUT_FRAME, n, 0, 0⟩, 0, 32⟩
def OUT_PW_PW (n : Nat) : Fld := ⟨⟨.OUT_PW, n, 0, 0⟩, 0, 24⟩
def OUT_ECHO_SEL (n : Nat) : Fld := ⟨⟨.OUT_ECHO, n, 0, 0⟩, 0, 3⟩
def OUT_ECHO_INV (n : Nat) : Fld := ⟨⟨.OUT_ECHO, n, 0, 0⟩, 3, 1⟩
def OUT_STAT_STATE (n : Nat) : Fld := ⟨⟨.OUT_STAT, n, 0, 0⟩, 0, 3⟩
def OUT_STAT_LOSS_KIND (n : Nat) : Fld := ⟨⟨.OUT_STAT, n, 0, 0⟩, 3, 2⟩
def OUT_STAT_CUR_SRC (n : Nat) : Fld := ⟨⟨.OUT_STAT, n, 0, 0⟩, 5, 2⟩
def OUT_STAT_CUR_LANE (n : Nat) : Fld := ⟨⟨.OUT_STAT, n, 0, 0⟩, 7, 2⟩
def OUT_STAT_CLKQ (n : Nat) : Fld := ⟨⟨.OUT_STAT, n, 0, 0⟩, 9, 1⟩
def OUT_STAT_FRAME_STALE (n : Nat) : Fld := ⟨⟨.OUT_STAT, n, 0, 0⟩, 10, 1⟩
def OUT_STAT_STAGED (n : Nat) : Fld := ⟨⟨.OUT_STAT, n, 0, 0⟩, 11, 1⟩
def OUT_STAT_WALKING (n : Nat) : Fld := ⟨⟨.OUT_STAT, n, 0, 0⟩, 12, 1⟩
def OUT_STAT_ALIGN_PEND (n : Nat) : Fld := ⟨⟨.OUT_STAT, n, 0, 0⟩, 13, 1⟩
def OUT_EVT_OUT_RANGE (n : Nat) : Fld := ⟨⟨.OUT_EVT, n, 0, 0⟩, 0, 1⟩
def OUT_EVT_BANK_LOSS (n : Nat) : Fld := ⟨⟨.OUT_EVT, n, 0, 0⟩, 1, 1⟩
def OUT_EVT_ECHO_OVERRUN (n : Nat) : Fld := ⟨⟨.OUT_EVT, n, 0, 0⟩, 2, 1⟩
def OUT_EVT_ALIGNED (n : Nat) : Fld := ⟨⟨.OUT_EVT, n, 0, 0⟩, 3, 1⟩
def OUT_EVT_ALIGN_DROPPED (n : Nat) : Fld := ⟨⟨.OUT_EVT, n, 0, 0⟩, 4, 1⟩
def OUT_CNT_ECHO_CNT (n : Nat) : Fld := ⟨⟨.OUT_CNT, n, 0, 0⟩, 0, 16⟩
def OUT_CNT_OVERRUN_CNT (n : Nat) : Fld := ⟨⟨.OUT_CNT, n, 0, 0⟩, 16, 16⟩
def OUT_BANK_VCLASS (b : Nat) : Fld := ⟨⟨.OUT_BANK, b, 0, 0⟩, 0, 3⟩
def OUT_BANK_BANK_OK (b : Nat) : Fld := ⟨⟨.OUT_BANK, b, 0, 0⟩, 8, 1⟩
def OUT_BANK_VMEAS (b : Nat) : Fld := ⟨⟨.OUT_BANK, b, 0, 0⟩, 16, 8⟩
def OUT_RSYNC_MASK (t : Nat) : Fld := ⟨⟨.OUT_RSYNC, t, 0, 0⟩, 0, 12⟩
def OUT_RSYNC_K (t : Nat) : Fld := ⟨⟨.OUT_RSYNC, t, 0, 0⟩, 12, 16⟩
def OUT_RSYNC_STAT_PEND (t : Nat) : Fld := ⟨⟨.OUT_RSYNC_STAT, t, 0, 0⟩, 0, 1⟩
def OUT_RSYNC_STAT_LAST (t : Nat) : Fld := ⟨⟨.OUT_RSYNC_STAT, t, 0, 0⟩, 1, 2⟩
def OUT_RSYNC_STAT_PMASK (t : Nat) : Fld := ⟨⟨.OUT_RSYNC_STAT, t, 0, 0⟩, 4, 12⟩
def PRG_RCTL_EN (r : Nat) : Fld := ⟨⟨.PRG_RCTL, r / 6, r % 6, 0⟩, 0, 1⟩
def PRG_RCTL_STOP_MODE (r : Nat) : Fld := ⟨⟨.PRG_RCTL, r / 6, r % 6, 0⟩, 1, 1⟩
def PRG_RCTL_DCM_EN (r : Nat) : Fld := ⟨⟨.PRG_RCTL, r / 6, r % 6, 0⟩, 2, 1⟩
def PRG_RCTL_SHED_EN (r : Nat) : Fld := ⟨⟨.PRG_RCTL, r / 6, r % 6, 0⟩, 3, 1⟩
def PRG_VID_VID (r : Nat) : Fld := ⟨⟨.PRG_VID, r / 6, r % 6, 0⟩, 0, 12⟩
def PRG_SLEW_SLEW (r : Nat) : Fld := ⟨⟨.PRG_SLEW, r / 6, r % 6, 0⟩, 0, 8⟩
def PRG_SLEW_SS_SLEW (r : Nat) : Fld := ⟨⟨.PRG_SLEW, r / 6, r % 6, 0⟩, 8, 8⟩
def PRG_SLEW_T_EN (r : Nat) : Fld := ⟨⟨.PRG_SLEW, r / 6, r % 6, 0⟩, 16, 8⟩
def PRG_FSW_PERIOD (r : Nat) : Fld := ⟨⟨.PRG_FSW, r / 6, r % 6, 0⟩, 0, 15⟩
def PRG_FSW_RAIL_OFS (r : Nat) : Fld := ⟨⟨.PRG_FSW, r / 6, r % 6, 0⟩, 16, 15⟩
def PRG_COMP_KP (r : Nat) : Fld := ⟨⟨.PRG_COMP, r / 6, r % 6, 0⟩, 0, 12⟩
def PRG_COMP_KI (r : Nat) : Fld := ⟨⟨.PRG_COMP, r / 6, r % 6, 0⟩, 12, 12⟩
def PRG_COMP_KD (r : Nat) : Fld := ⟨⟨.PRG_COMP, r / 6, r % 6, 0⟩, 24, 8⟩
def PRG_LIM_TON_MIN (r : Nat) : Fld := ⟨⟨.PRG_LIM, r / 6, r % 6, 0⟩, 0, 12⟩
def PRG_LIM_TOFF_MIN (r : Nat) : Fld := ⟨⟨.PRG_LIM, r / 6, r % 6, 0⟩, 16, 12⟩
def PRG_LL_RLL (r : Nat) : Fld := ⟨⟨.PRG_LL, r / 6, r % 6, 0⟩, 0, 8⟩
def PRG_LL_IGAIN (r : Nat) : Fld := ⟨⟨.PRG_LL, r / 6, r % 6, 0⟩, 8, 8⟩
def PRG_LL_KB (r : Nat) : Fld := ⟨⟨.PRG_LL, r / 6, r % 6, 0⟩, 16, 8⟩
def PRG_SHED_NMIN (r : Nat) : Fld := ⟨⟨.PRG_SHED, r / 6, r % 6, 0⟩, 0, 4⟩
def PRG_SHED_I_ADD (r : Nat) : Fld := ⟨⟨.PRG_SHED, r / 6, r % 6, 0⟩, 4, 10⟩
def PRG_SHED_I_DROP (r : Nat) : Fld := ⟨⟨.PRG_SHED, r / 6, r % 6, 0⟩, 14, 10⟩
def PRG_SHED_SHED_DLY (r : Nat) : Fld := ⟨⟨.PRG_SHED, r / 6, r % 6, 0⟩, 24, 8⟩
def PRG_DCM_I_DCM (r : Nat) : Fld := ⟨⟨.PRG_DCM, r / 6, r % 6, 0⟩, 0, 10⟩
def PRG_DCM_I_CCM (r : Nat) : Fld := ⟨⟨.PRG_DCM, r / 6, r % 6, 0⟩, 10, 10⟩
def PRG_DCM_DCM_DLY (r : Nat) : Fld := ⟨⟨.PRG_DCM, r / 6, r % 6, 0⟩, 20, 8⟩
def PRG_PG_PG_WIN (r : Nat) : Fld := ⟨⟨.PRG_PG, r / 6, r % 6, 0⟩, 0, 8⟩
def PRG_PG_PG_DLY (r : Nat) : Fld := ⟨⟨.PRG_PG, r / 6, r % 6, 0⟩, 8, 16⟩
def PRG_TMON_OFS (r : Nat) : Fld := ⟨⟨.PRG_TMON, r / 6, r % 6, 0⟩, 0, 12⟩
def PRG_TMON_SLOPE (r : Nat) : Fld := ⟨⟨.PRG_TMON, r / 6, r % 6, 0⟩, 12, 12⟩
def PRG_RSTAT_STATE (r : Nat) : Fld := ⟨⟨.PRG_RSTAT, r / 6, r % 6, 0⟩, 0, 3⟩
def PRG_RSTAT_PG (r : Nat) : Fld := ⟨⟨.PRG_RSTAT, r / 6, r % 6, 0⟩, 3, 1⟩
def PRG_RSTAT_MOVING (r : Nat) : Fld := ⟨⟨.PRG_RSTAT, r / 6, r % 6, 0⟩, 4, 1⟩
def PRG_RSTAT_DCM (r : Nat) : Fld := ⟨⟨.PRG_RSTAT, r / 6, r % 6, 0⟩, 5, 1⟩
def PRG_RSTAT_NACT (r : Nat) : Fld := ⟨⟨.PRG_RSTAT, r / 6, r % 6, 0⟩, 6, 5⟩
def PRG_RSTAT_NASG (r : Nat) : Fld := ⟨⟨.PRG_RSTAT, r / 6, r % 6, 0⟩, 11, 5⟩
def PRG_RSTAT_SAT (r : Nat) : Fld := ⟨⟨.PRG_RSTAT, r / 6, r % 6, 0⟩, 16, 1⟩
def PRG_RMEAS_VSENSE (r : Nat) : Fld := ⟨⟨.PRG_RMEAS, r / 6, r % 6, 0⟩, 0, 16⟩
def PRG_RMEAS_ITOT (r : Nat) : Fld := ⟨⟨.PRG_RMEAS, r / 6, r % 6, 0⟩, 16, 16⟩
def PRG_RCNT_WIN_SKIP (r : Nat) : Fld := ⟨⟨.PRG_RCNT, r / 6, r % 6, 0⟩, 0, 16⟩
def PRG_RCNT_COINC (r : Nat) : Fld := ⟨⟨.PRG_RCNT, r / 6, r % 6, 0⟩, 16, 16⟩
def PRG_REVT_RAIL_PG (r : Nat) : Fld := ⟨⟨.PRG_REVT, r / 6, r % 6, 0⟩, 0, 1⟩
def PRG_REVT_RAIL_PG_LOST (r : Nat) : Fld := ⟨⟨.PRG_REVT, r / 6, r % 6, 0⟩, 1, 1⟩
def PRG_REVT_VID_DONE (r : Nat) : Fld := ⟨⟨.PRG_REVT, r / 6, r % 6, 0⟩, 2, 1⟩
def PRG_REVT_RAIL_OFF (r : Nat) : Fld := ⟨⟨.PRG_REVT, r / 6, r % 6, 0⟩, 3, 1⟩
def PRG_PH_RAIL (k : Nat) : Fld := ⟨⟨.PRG_PH, k / 24, k % 24, 0⟩, 0, 3⟩
def PRG_PH_IOFS (k : Nat) : Fld := ⟨⟨.PRG_PH, k / 24, k % 24, 0⟩, 8, 8⟩
def PRG_PH_PSTATE (k : Nat) : Fld := ⟨⟨.PRG_PH, k / 24, k % 24, 0⟩, 16, 2⟩
def PRG_TBSEL_TRG (p : Nat) : Fld := ⟨⟨.PRG_TBSEL, p, 0, 0⟩, 0, 2⟩
def PRG_TBSTAT_FALLBACK (p : Nat) : Fld := ⟨⟨.PRG_TBSTAT, p, 0, 0⟩, 0, 1⟩
def PRG_TBSTAT_RETURNING (p : Nat) : Fld := ⟨⟨.PRG_TBSTAT, p, 0, 0⟩, 1, 1⟩
def PRG_TBSTAT_LANE_OK (p : Nat) : Fld := ⟨⟨.PRG_TBSTAT, p, 0, 0⟩, 2, 1⟩
def PRG_TBSTAT_TRIM (p : Nat) : Fld := ⟨⟨.PRG_TBSTAT, p, 0, 0⟩, 8, 8⟩
def PRG_TBSTAT_FB_CNT (p : Nat) : Fld := ⟨⟨.PRG_TBSTAT, p, 0, 0⟩, 16, 16⟩
def PRG_SCHED_MINSEP (p : Nat) : Fld := ⟨⟨.PRG_SCHED, p, 0, 0⟩, 0, 4⟩
def PRG_SCHED_SHIFT_LIM (p : Nat) : Fld := ⟨⟨.PRG_SCHED, p, 0, 0⟩, 8, 7⟩
def PRG_SCNT_WIN_SKIP (p : Nat) : Fld := ⟨⟨.PRG_SCNT, p, 0, 0⟩, 0, 16⟩
def PRG_SCNT_MOVES (p : Nat) : Fld := ⟨⟨.PRG_SCNT, p, 0, 0⟩, 16, 16⟩
def PRG_WSTAT_ACTIVE (p : Nat) : Fld := ⟨⟨.PRG_WSTAT, p, 0, 0⟩, 0, 8⟩
def PRG_WSTAT_SUSP (p : Nat) : Fld := ⟨⟨.PRG_WSTAT, p, 0, 0⟩, 8, 8⟩
def PRG_QW_A_UNIT (p : Nat) (w : Nat) : Fld := ⟨⟨.PRG_QW_A, p, w, 0⟩, 0, 6⟩
def PRG_QW_A_EN (p : Nat) (w : Nat) : Fld := ⟨⟨.PRG_QW_A, p, w, 0⟩, 7, 1⟩
def PRG_QW_B_OFFSET (p : Nat) (w : Nat) : Fld := ⟨⟨.PRG_QW_B, p, w, 0⟩, 0, 16⟩
def PRG_QW_B_WIDTH (p : Nat) (w : Nat) : Fld := ⟨⟨.PRG_QW_B, p, w, 0⟩, 16, 12⟩
def PRG_TLM_CTL_EN (p : Nat) : Fld := ⟨⟨.PRG_TLM_CTL, p, 0, 0⟩, 0, 1⟩
def PRG_TLM_CTL_REQ_EN (p : Nat) : Fld := ⟨⟨.PRG_TLM_CTL, p, 0, 0⟩, 1, 1⟩
def PRG_TLM_CTL_NSCAN (p : Nat) : Fld := ⟨⟨.PRG_TLM_CTL, p, 0, 0⟩, 2, 7⟩
def PRG_TLM_PER_PERIOD (p : Nat) : Fld := ⟨⟨.PRG_TLM_PER, p, 0, 0⟩, 0, 20⟩
def PRG_TLM_SEQ_SEQ (p : Nat) : Fld := ⟨⟨.PRG_TLM_SEQ, p, 0, 0⟩, 0, 32⟩
def PRG_TLM_STAT_LEN (p : Nat) : Fld := ⟨⟨.PRG_TLM_STAT, p, 0, 0⟩, 0, 9⟩
def PRG_TLM_STAT_BUSY (p : Nat) : Fld := ⟨⟨.PRG_TLM_STAT, p, 0, 0⟩, 9, 1⟩
def PRG_SCAN_KIND (p : Nat) (i : Nat) : Fld := ⟨⟨.PRG_SCAN, p, i, 0⟩, 0, 4⟩
def PRG_SCAN_INDEX (p : Nat) (i : Nat) : Fld := ⟨⟨.PRG_SCAN, p, i, 0⟩, 4, 6⟩
def PRG_SCAN_AVG (p : Nat) (i : Nat) : Fld := ⟨⟨.PRG_SCAN, p, i, 0⟩, 10, 2⟩
def PRG_TLM_BUF_DATA (p : Nat) (w : Nat) : Fld := ⟨⟨.PRG_TLM_BUF, p, w, 0⟩, 0, 32⟩
def PRG_EVT_TB_FALLBACK (p : Nat) : Fld := ⟨⟨.PRG_EVT, p, 0, 0⟩, 0, 1⟩
def PRG_EVT_TB_RETURN (p : Nat) : Fld := ⟨⟨.PRG_EVT, p, 0, 0⟩, 1, 1⟩
def PRG_EVT_WIN_SKIP (p : Nat) : Fld := ⟨⟨.PRG_EVT, p, 0, 0⟩, 2, 1⟩
def PRG_EVT_COINC (p : Nat) : Fld := ⟨⟨.PRG_EVT, p, 0, 0⟩, 3, 1⟩
def PRG_EVT_WIN_SUSP (p : Nat) : Fld := ⟨⟨.PRG_EVT, p, 0, 0⟩, 4, 1⟩
def SEQ_CMD_START : Fld := ⟨⟨.SEQ_CMD, 0, 0, 0⟩, 0, 1⟩
def SEQ_CMD_STOP : Fld := ⟨⟨.SEQ_CMD, 0, 0, 0⟩, 1, 1⟩
def SEQ_CMD_SEQ : Fld := ⟨⟨.SEQ_CMD, 0, 0, 0⟩, 4, 3⟩
def SEQ_CFG_BOOT_EN : Fld := ⟨⟨.SEQ_CFG, 0, 0, 0⟩, 0, 1⟩
def SEQ_CFG_BOOT_SEQ : Fld := ⟨⟨.SEQ_CFG, 0, 0, 0⟩, 1, 3⟩
def SEQ_CFG_DOWN_SEQ : Fld := ⟨⟨.SEQ_CFG, 0, 0, 0⟩, 4, 3⟩
def SEQ_CFG_DOWN_EN : Fld := ⟨⟨.SEQ_CFG, 0, 0, 0⟩, 7, 1⟩
def SEQ_STAT_STATE : Fld := ⟨⟨.SEQ_STAT, 0, 0, 0⟩, 0, 2⟩
def SEQ_STAT_CUR : Fld := ⟨⟨.SEQ_STAT, 0, 0, 0⟩, 2, 3⟩
def SEQ_STAT_STEP : Fld := ⟨⟨.SEQ_STAT, 0, 0, 0⟩, 5, 6⟩
def SEQ_STAT_RANK : Fld := ⟨⟨.SEQ_STAT, 0, 0, 0⟩, 11, 2⟩
def SEQ_STAT_PEND : Fld := ⟨⟨.SEQ_STAT, 0, 0, 0⟩, 13, 1⟩
def SEQ_STAT_PEND_SEQ : Fld := ⟨⟨.SEQ_STAT, 0, 0, 0⟩, 14, 3⟩
def SEQ_STAT_LAST : Fld := ⟨⟨.SEQ_STAT, 0, 0, 0⟩, 17, 3⟩
def SEQ_STAT_CAUSE : Fld := ⟨⟨.SEQ_STAT, 0, 0, 0⟩, 20, 3⟩
def SEQ_LOAD_CTL_START : Fld := ⟨⟨.SEQ_LOAD_CTL, 0, 0, 0⟩, 0, 1⟩
def SEQ_LOAD_DATA_DATA : Fld := ⟨⟨.SEQ_LOAD_DATA, 0, 0, 0⟩, 0, 32⟩
def SEQ_LOAD_STAT_WORDS : Fld := ⟨⟨.SEQ_LOAD_STAT, 0, 0, 0⟩, 0, 8⟩
def SEQ_LOAD_STAT_RESULT : Fld := ⟨⟨.SEQ_LOAD_STAT, 0, 0, 0⟩, 8, 2⟩
def SEQ_LOAD_STAT_SLOT : Fld := ⟨⟨.SEQ_LOAD_STAT, 0, 0, 0⟩, 10, 3⟩
def SEQ_LOAD_STAT_SWAP_PEND : Fld := ⟨⟨.SEQ_LOAD_STAT, 0, 0, 0⟩, 13, 1⟩
def SEQ_EVT_EVT : Fld := ⟨⟨.SEQ_EVT, 0, 0, 0⟩, 0, 6⟩
def SEQ_CNT_SKIP_CNT : Fld := ⟨⟨.SEQ_CNT, 0, 0, 0⟩, 0, 16⟩
def SEQ_CNT_TMO_CNT : Fld := ⟨⟨.SEQ_CNT, 0, 0, 0⟩, 16, 16⟩
def SEQ_DEP_A_EN (d : Nat) : Fld := ⟨⟨.SEQ_DEP_A, d, 0, 0⟩, 0, 1⟩
def SEQ_DEP_A_KIND (d : Nat) : Fld := ⟨⟨.SEQ_DEP_A, d, 0, 0⟩, 1, 1⟩
def SEQ_DEP_A_RESP (d : Nat) : Fld := ⟨⟨.SEQ_DEP_A, d, 0, 0⟩, 2, 2⟩
def SEQ_DEP_A_RSEQ (d : Nat) : Fld := ⟨⟨.SEQ_DEP_A, d, 0, 0⟩, 4, 3⟩
def SEQ_DEP_A_T (d : Nat) : Fld := ⟨⟨.SEQ_DEP_A, d, 0, 0⟩, 8, 2⟩
def SEQ_DEP_A_UMASK (d : Nat) : Fld := ⟨⟨.SEQ_DEP_A, d, 0, 0⟩, 10, 12⟩
def SEQ_DEP_B_RMASK (d : Nat) : Fld := ⟨⟨.SEQ_DEP_B, d, 0, 0⟩, 0, 24⟩
def SEQ_NSTEP_NSTEP (s : Nat) : Fld := ⟨⟨.SEQ_NSTEP, s, 0, 0⟩, 0, 7⟩
def SEQ_STEP_WORD (s : Nat) (i : Nat) (w : Nat) : Fld := ⟨⟨.SEQ_STEP, s, i, w⟩, 0, 32⟩
def FLT_OV_THR (r : Nat) : Fld := ⟨⟨.FLT_OV, r, 0, 0⟩, 0, 10⟩
def FLT_OV_MODE (r : Nat) : Fld := ⟨⟨.FLT_OV, r, 0, 0⟩, 10, 1⟩
def FLT_OV_DG (r : Nat) : Fld := ⟨⟨.FLT_OV, r, 0, 0⟩, 12, 8⟩
def FLT_OV_ACT (r : Nat) : Fld := ⟨⟨.FLT_OV, r, 0, 0⟩, 20, 2⟩
def FLT_UV_THR (r : Nat) : Fld := ⟨⟨.FLT_UV, r, 0, 0⟩, 0, 10⟩
def FLT_UV_MODE (r : Nat) : Fld := ⟨⟨.FLT_UV, r, 0, 0⟩, 10, 1⟩
def FLT_UV_DG (r : Nat) : Fld := ⟨⟨.FLT_UV, r, 0, 0⟩, 12, 8⟩
def FLT_UV_ACT (r : Nat) : Fld := ⟨⟨.FLT_UV, r, 0, 0⟩, 20, 2⟩
def FLT_OC_OC_THR (r : Nat) : Fld := ⟨⟨.FLT_OC, r, 0, 0⟩, 0, 8⟩
def FLT_OC_OC_CNT (r : Nat) : Fld := ⟨⟨.FLT_OC, r, 0, 0⟩, 8, 8⟩
def FLT_OC_ACT (r : Nat) : Fld := ⟨⟨.FLT_OC, r, 0, 0⟩, 16, 2⟩
def FLT_OC_CBC (r : Nat) : Fld := ⟨⟨.FLT_OC, r, 0, 0⟩, 18, 1⟩
def FLT_OC_DG (r : Nat) : Fld := ⟨⟨.FLT_OC, r, 0, 0⟩, 24, 8⟩
def FLT_OT_OT_THR (r : Nat) : Fld := ⟨⟨.FLT_OT, r, 0, 0⟩, 0, 8⟩
def FLT_OT_ACT (r : Nat) : Fld := ⟨⟨.FLT_OT, r, 0, 0⟩, 8, 2⟩
def FLT_OT_FLAG_EN (r : Nat) : Fld := ⟨⟨.FLT_OT, r, 0, 0⟩, 10, 1⟩
def FLT_RETRY_RETRY (r : Nat) : Fld := ⟨⟨.FLT_RETRY, r, 0, 0⟩, 0, 3⟩
def FLT_RETRY_RETRY_DLY (r : Nat) : Fld := ⟨⟨.FLT_RETRY, r, 0, 0⟩, 8, 8⟩
def FLT_RETRY_LEFT (r : Nat) : Fld := ⟨⟨.FLT_RETRY, r, 0, 0⟩, 16, 3⟩
def FLT_RETRY_WAIT (r : Nat) : Fld := ⟨⟨.FLT_RETRY, r, 0, 0⟩, 19, 1⟩
def FLT_RSTAT_LATCH (r : Nat) : Fld := ⟨⟨.FLT_RSTAT, r, 0, 0⟩, 0, 4⟩
def FLT_RSTAT_GRP_HELD (r : Nat) : Fld := ⟨⟨.FLT_RSTAT, r, 0, 0⟩, 4, 1⟩
def FLT_RSTAT_PKG_HELD (r : Nat) : Fld := ⟨⟨.FLT_RSTAT, r, 0, 0⟩, 5, 1⟩
def FLT_RSTAT_SUP_HELD (r : Nat) : Fld := ⟨⟨.FLT_RSTAT, r, 0, 0⟩, 6, 1⟩
def FLT_RSTAT_NOW (r : Nat) : Fld := ⟨⟨.FLT_RSTAT, r, 0, 0⟩, 8, 4⟩
def FLT_RSTAT_FCNT (r : Nat) : Fld := ⟨⟨.FLT_RSTAT, r, 0, 0⟩, 16, 8⟩
def FLT_RSTAT_OC_PH (r : Nat) : Fld := ⟨⟨.FLT_RSTAT, r, 0, 0⟩, 24, 5⟩
def FLT_FNMAP_MAP : Fld := ⟨⟨.FLT_FNMAP, 0, 0, 0⟩, 0, 13⟩
def FLT_PGMAP_MAP : Fld := ⟨⟨.FLT_PGMAP, 0, 0, 0⟩, 0, 24⟩
def FLT_PKG_LATCH : Fld := ⟨⟨.FLT_PKG, 0, 0, 0⟩, 0, 13⟩
def FLT_PKG_PKG_SD : Fld := ⟨⟨.FLT_PKG, 0, 0, 0⟩, 16, 1⟩
def PRG_FM_GRP_GRP (r : Nat) : Fld := ⟨⟨.PRG_FM_GRP, r / 6, r % 6, 0⟩, 0, 6⟩
def PRG_FM_STAT_SAFE (p : Nat) : Fld := ⟨⟨.PRG_FM_STAT, p, 0, 0⟩, 0, 6⟩
def PRG_FM_STAT_GRP_HELD (p : Nat) : Fld := ⟨⟨.PRG_FM_STAT, p, 0, 0⟩, 6, 6⟩
def PRG_FM_STAT_SD_CNT (p : Nat) : Fld := ⟨⟨.PRG_FM_STAT, p, 0, 0⟩, 16, 16⟩
def HUP_CTL_EN : Fld := ⟨⟨.HUP_CTL, 0, 0, 0⟩, 0, 1⟩
def HUP_CTL_STORE_PRESENT : Fld := ⟨⟨.HUP_CTL, 0, 0, 0⟩, 1, 1⟩
def HUP_CTL_RIDE_EN : Fld := ⟨⟨.HUP_CTL, 0, 0, 0⟩, 2, 1⟩
def HUP_CTL_RESTART : Fld := ⟨⟨.HUP_CTL, 0, 0, 0⟩, 3, 1⟩
def HUP_CTL_CC_TMO : Fld := ⟨⟨.HUP_CTL, 0, 0, 0⟩, 8, 8⟩
def HUP_CHG_CV : Fld := ⟨⟨.HUP_CHG, 0, 0, 0⟩, 0, 11⟩
def HUP_CHG_CC : Fld := ⟨⟨.HUP_CHG, 0, 0, 0⟩, 11, 5⟩
def HUP_CHG_RSNS : Fld := ⟨⟨.HUP_CHG, 0, 0, 0⟩, 16, 8⟩
def HUP_CHG_ITERM : Fld := ⟨⟨.HUP_CHG, 0, 0, 0⟩, 24, 8⟩
def HUP_VIN_VIN_UV : Fld := ⟨⟨.HUP_VIN, 0, 0, 0⟩, 0, 10⟩
def HUP_VIN_HYST : Fld := ⟨⟨.HUP_VIN, 0, 0, 0⟩, 10, 7⟩
def HUP_STORE_READY_V : Fld := ⟨⟨.HUP_STORE, 0, 0, 0⟩, 0, 11⟩
def HUP_STORE_STORE_MIN : Fld := ⟨⟨.HUP_STORE, 0, 0, 0⟩, 16, 11⟩
def HUP_STAT_CHG : Fld := ⟨⟨.HUP_STAT, 0, 0, 0⟩, 0, 3⟩
def HUP_STAT_READY : Fld := ⟨⟨.HUP_STAT, 0, 0, 0⟩, 3, 1⟩
def HUP_STAT_ON_STORE : Fld := ⟨⟨.HUP_STAT, 0, 0, 0⟩, 4, 1⟩
def HUP_STAT_VIN_OK : Fld := ⟨⟨.HUP_STAT, 0, 0, 0⟩, 5, 1⟩
def HUP_STAT_VSTORE : Fld := ⟨⟨.HUP_STAT, 0, 0, 0⟩, 16, 16⟩
def HUP_EVT_EVT : Fld := ⟨⟨.HUP_EVT, 0, 0, 0⟩, 0, 5⟩
def HK_BUCK_EN (i : Nat) : Fld := ⟨⟨.HK_BUCK, i, 0, 0⟩, 0, 1⟩
def HK_BUCK_VOUT (i : Nat) : Fld := ⟨⟨.HK_BUCK, i, 0, 0⟩, 1, 9⟩
def HK_BUCK_FACT (i : Nat) : Fld := ⟨⟨.HK_BUCK, i, 0, 0⟩, 10, 1⟩
def HK_LDO_EN (i : Nat) : Fld := ⟨⟨.HK_LDO, i, 0, 0⟩, 0, 1⟩
def HK_LDO_VOUT (i : Nat) : Fld := ⟨⟨.HK_LDO, i, 0, 0⟩, 1, 7⟩
def HK_LDO_FACT (i : Nat) : Fld := ⟨⟨.HK_LDO, i, 0, 0⟩, 8, 1⟩
def HK_STAT_BUCK_PG : Fld := ⟨⟨.HK_STAT, 0, 0, 0⟩, 0, 4⟩
def HK_STAT_LDO_PG : Fld := ⟨⟨.HK_STAT, 0, 0, 0⟩, 4, 4⟩
def HK_FLT_LATCH : Fld := ⟨⟨.HK_FLT, 0, 0, 0⟩, 0, 8⟩
def HK_FLT_TD_LATCH : Fld := ⟨⟨.HK_FLT, 0, 0, 0⟩, 8, 8⟩
def HK_TD_EN (i : Nat) : Fld := ⟨⟨.HK_TD, i, 0, 0⟩, 0, 1⟩
def HK_TD_NF (i : Nat) : Fld := ⟨⟨.HK_TD, i, 0, 0⟩, 1, 8⟩
def HK_TD_ALARM (i : Nat) : Fld := ⟨⟨.HK_TD, i, 0, 0⟩, 16, 8⟩
def HK_TDVAL_TEMP (i : Nat) : Fld := ⟨⟨.HK_TDVAL, i, 0, 0⟩, 0, 16⟩
def LNK_CTL_EN (k : Nat) : Fld := ⟨⟨.LNK_CTL, k, 0, 0⟩, 0, 1⟩
def LNK_CTL_TX_TRG (k : Nat) : Fld := ⟨⟨.LNK_CTL, k, 0, 0⟩, 1, 1⟩
def LNK_CTL_FFE (k : Nat) : Fld := ⟨⟨.LNK_CTL, k, 0, 0⟩, 8, 4⟩
def LNK_CTL_EQ (k : Nat) : Fld := ⟨⟨.LNK_CTL, k, 0, 0⟩, 12, 4⟩
def LNK_STAT_STATE (k : Nat) : Fld := ⟨⟨.LNK_STAT, k, 0, 0⟩, 0, 2⟩
def LNK_STAT_FLOCK (k : Nat) : Fld := ⟨⟨.LNK_STAT, k, 0, 0⟩, 2, 1⟩
def LNK_STAT_DVALID (k : Nat) : Fld := ⟨⟨.LNK_STAT, k, 0, 0⟩, 3, 1⟩
def LNK_STAT_ROLE (k : Nat) : Fld := ⟨⟨.LNK_STAT, k, 0, 0⟩, 4, 2⟩
def LNK_STAT_OFFER (k : Nat) : Fld := ⟨⟨.LNK_STAT, k, 0, 0⟩, 6, 1⟩
def LNK_STAT_DOWN_CNT (k : Nat) : Fld := ⟨⟨.LNK_STAT, k, 0, 0⟩, 16, 16⟩
def LNK_FQ_FTOL (k : Nat) : Fld := ⟨⟨.LNK_FQ, k, 0, 0⟩, 0, 16⟩
def LNK_FQ_QUAL (k : Nat) : Fld := ⟨⟨.LNK_FQ, k, 0, 0⟩, 16, 16⟩
def LNK_FOFS_FOFS (k : Nat) : Fld := ⟨⟨.LNK_FOFS, k, 0, 0⟩, 0, 32⟩
def LNK_ASYM_ASYM (k : Nat) : Fld := ⟨⟨.LNK_ASYM, k, 0, 0⟩, 0, 24⟩
def LNK_ASYM_ASYM_UNC (k : Nat) : Fld := ⟨⟨.LNK_ASYM, k, 0, 0⟩, 24, 8⟩
def LNK_MARK_RATE (k : Nat) : Fld := ⟨⟨.LNK_MARK, k, 0, 0⟩, 0, 3⟩
def LNK_MARK_AVG (k : Nat) : Fld := ⟨⟨.LNK_MARK, k, 0, 0⟩, 4, 3⟩
def LNK_DLY_D_IN (k : Nat) : Fld := ⟨⟨.LNK_DLY, k, 0, 0⟩, 0, 32⟩
def LNK_THETA_THETA (k : Nat) : Fld := ⟨⟨.LNK_THETA, k, 0, 0⟩, 0, 32⟩
def LNK_PEER_LO_ID (k : Nat) : Fld := ⟨⟨.LNK_PEER_LO, k, 0, 0⟩, 0, 32⟩
def LNK_PEER_HI_ID (k : Nat) : Fld := ⟨⟨.LNK_PEER_HI, k, 0, 0⟩, 0, 32⟩
def LNK_OFR_LAT_ACC_LAT (k : Nat) : Fld := ⟨⟨.LNK_OFR_LAT, k, 0, 0⟩, 0, 32⟩
def LNK_OFR_PH_ACC_PH (k : Nat) : Fld := ⟨⟨.LNK_OFR_PH, k, 0, 0⟩, 0, 16⟩
def LNK_OFR_PH_HOPS (k : Nat) : Fld := ⟨⟨.LNK_OFR_PH, k, 0, 0⟩, 16, 16⟩
def LNK_CNT_CRC_ERR (k : Nat) : Fld := ⟨⟨.LNK_CNT, k, 0, 0⟩, 0, 16⟩
def LNK_CNT_MSG_DROP (k : Nat) : Fld := ⟨⟨.LNK_CNT, k, 0, 0⟩, 16, 16⟩
def LNK_EVT_EVT (k : Nat) : Fld := ⟨⟨.LNK_EVT, k, 0, 0⟩, 0, 4⟩
def LNK_RXQ_REQ_EN (k : Nat) : Fld := ⟨⟨.LNK_RXQ, k, 0, 0⟩, 0, 1⟩
def LNK_RXQ_FILL (k : Nat) : Fld := ⟨⟨.LNK_RXQ, k, 0, 0⟩, 1, 5⟩
def LNK_RXQ_DROP_CNT (k : Nat) : Fld := ⟨⟨.LNK_RXQ, k, 0, 0⟩, 16, 16⟩
def LNK_SYS_CTL_AUTO_JOIN : Fld := ⟨⟨.LNK_SYS_CTL, 0, 0, 0⟩, 0, 1⟩
def LNK_SYS_CTL_JOIN : Fld := ⟨⟨.LNK_SYS_CTL, 0, 0, 0⟩, 1, 1⟩
def LNK_SYS_CTL_CAND : Fld := ⟨⟨.LNK_SYS_CTL, 0, 0, 0⟩, 2, 1⟩
def LNK_SYS_CTL_REMOTE_RD_EN : Fld := ⟨⟨.LNK_SYS_CTL, 0, 0, 0⟩, 3, 1⟩
def LNK_SYS_CTL_REMOTE_WR_EN : Fld := ⟨⟨.LNK_SYS_CTL, 0, 0, 0⟩, 4, 1⟩
def LNK_SYS_CTL_EVRX_EN : Fld := ⟨⟨.LNK_SYS_CTL, 0, 0, 0⟩, 5, 1⟩
def LNK_SYS_CTL_TIME_TRG : Fld := ⟨⟨.LNK_SYS_CTL, 0, 0, 0⟩, 6, 2⟩
def LNK_SYS_CTL_SYS_MASK : Fld := ⟨⟨.LNK_SYS_CTL, 0, 0, 0⟩, 8, 4⟩
def LNK_SYS_CTL_GM_IDX : Fld := ⟨⟨.LNK_SYS_CTL, 0, 0, 0⟩, 12, 5⟩
def LNK_PRIO_PRIO1 : Fld := ⟨⟨.LNK_PRIO, 0, 0, 0⟩, 0, 8⟩
def LNK_PRIO_PRIO2 : Fld := ⟨⟨.LNK_PRIO, 0, 0, 0⟩, 8, 8⟩
def LNK_BUDGET_LAT : Fld := ⟨⟨.LNK_BUDGET, 0, 0, 0⟩, 0, 16⟩
def LNK_BUDGET_PHASE : Fld := ⟨⟨.LNK_BUDGET, 0, 0, 0⟩, 16, 16⟩
def LNK_ANN_ANN_PER : Fld := ⟨⟨.LNK_ANN, 0, 0, 0⟩, 0, 8⟩
def LNK_SRC_ERR_SRC_ERR : Fld := ⟨⟨.LNK_SRC_ERR, 0, 0, 0⟩, 0, 16⟩
def LNK_EPOCH_UNIT0 : Fld := ⟨⟨.LNK_EPOCH, 0, 0, 0⟩, 0, 5⟩
def LNK_EPOCH_EN0 : Fld := ⟨⟨.LNK_EPOCH, 0, 0, 0⟩, 5, 1⟩
def LNK_EPOCH_OK0 : Fld := ⟨⟨.LNK_EPOCH, 0, 0, 0⟩, 6, 1⟩
def LNK_EPOCH_UNIT1 : Fld := ⟨⟨.LNK_EPOCH, 0, 0, 0⟩, 8, 5⟩
def LNK_EPOCH_EN1 : Fld := ⟨⟨.LNK_EPOCH, 0, 0, 0⟩, 13, 1⟩
def LNK_EPOCH_OK1 : Fld := ⟨⟨.LNK_EPOCH, 0, 0, 0⟩, 14, 1⟩
def LNK_SYS_STAT_STATE : Fld := ⟨⟨.LNK_SYS_STAT, 0, 0, 0⟩, 0, 3⟩
def LNK_SYS_STAT_RING : Fld := ⟨⟨.LNK_SYS_STAT, 0, 0, 0⟩, 3, 1⟩
def LNK_SYS_STAT_UPLINK : Fld := ⟨⟨.LNK_SYS_STAT, 0, 0, 0⟩, 4, 2⟩
def LNK_SYS_STAT_UPL_VALID : Fld := ⟨⟨.LNK_SYS_STAT, 0, 0, 0⟩, 6, 1⟩
def LNK_SYS_STAT_CAUSE : Fld := ⟨⟨.LNK_SYS_STAT, 0, 0, 0⟩, 8, 3⟩
def LNK_SYS_STAT_HOPS : Fld := ⟨⟨.LNK_SYS_STAT, 0, 0, 0⟩, 16, 16⟩
def LNK_ACC_LAT_ACC_LAT : Fld := ⟨⟨.LNK_ACC_LAT, 0, 0, 0⟩, 0, 32⟩
def LNK_ACC_PH_ACC_PH : Fld := ⟨⟨.LNK_ACC_PH, 0, 0, 0⟩, 0, 16⟩
def LNK_ID_LO_ID : Fld := ⟨⟨.LNK_ID_LO, 0, 0, 0⟩, 0, 32⟩
def LNK_ID_HI_ID : Fld := ⟨⟨.LNK_ID_HI, 0, 0, 0⟩, 0, 32⟩
def LNK_GM_LO_GM : Fld := ⟨⟨.LNK_GM_LO, 0, 0, 0⟩, 0, 32⟩
def LNK_GM_HI_GM : Fld := ⟨⟨.LNK_GM_HI, 0, 0, 0⟩, 0, 32⟩
def LNK_GM_INFO_PRIO1 : Fld := ⟨⟨.LNK_GM_INFO, 0, 0, 0⟩, 0, 8⟩
def LNK_GM_INFO_PRIO2 : Fld := ⟨⟨.LNK_GM_INFO, 0, 0, 0⟩, 8, 8⟩
def LNK_GM_INFO_CLASS : Fld := ⟨⟨.LNK_GM_INFO, 0, 0, 0⟩, 16, 2⟩
def LNK_TOD_LO_SEC : Fld := ⟨⟨.LNK_TOD_LO, 0, 0, 0⟩, 0, 32⟩
def LNK_TOD_HI_SEC : Fld := ⟨⟨.LNK_TOD_HI, 0, 0, 0⟩, 0, 16⟩
def LNK_TOD_SET_LO_SEC : Fld := ⟨⟨.LNK_TOD_SET_LO, 0, 0, 0⟩, 0, 32⟩
def LNK_TOD_SET_HI_SEC : Fld := ⟨⟨.LNK_TOD_SET_HI, 0, 0, 0⟩, 0, 16⟩
def LNK_SIGNAL_CODE : Fld := ⟨⟨.LNK_SIGNAL, 0, 0, 0⟩, 0, 8⟩
def LNK_EVFWD_MASK : Fld := ⟨⟨.LNK_EVFWD, 0, 0, 0⟩, 0, 13⟩
def LNK_RMT_CTL_GO : Fld := ⟨⟨.LNK_RMT_CTL, 0, 0, 0⟩, 0, 1⟩
def LNK_RMT_CTL_WR : Fld := ⟨⟨.LNK_RMT_CTL, 0, 0, 0⟩, 1, 1⟩
def LNK_RMT_CTL_RETRY : Fld := ⟨⟨.LNK_RMT_CTL, 0, 0, 0⟩, 2, 1⟩
def LNK_RMT_CTL_N : Fld := ⟨⟨.LNK_RMT_CTL, 0, 0, 0⟩, 4, 4⟩
def LNK_RMT_ADDR_OFFSET : Fld := ⟨⟨.LNK_RMT_ADDR, 0, 0, 0⟩, 2, 18⟩
def LNK_RMT_DST_LO_DST : Fld := ⟨⟨.LNK_RMT_DST_LO, 0, 0, 0⟩, 0, 32⟩
def LNK_RMT_DST_HI_DST : Fld := ⟨⟨.LNK_RMT_DST_HI, 0, 0, 0⟩, 0, 32⟩
def LNK_RMT_TMO_TMO : Fld := ⟨⟨.LNK_RMT_TMO, 0, 0, 0⟩, 0, 16⟩
def LNK_RMT_STAT_BUSY : Fld := ⟨⟨.LNK_RMT_STAT, 0, 0, 0⟩, 0, 1⟩
def LNK_RMT_STAT_RESULT : Fld := ⟨⟨.LNK_RMT_STAT, 0, 0, 0⟩, 1, 4⟩
def LNK_RMT_STAT_NA_MASK : Fld := ⟨⟨.LNK_RMT_STAT, 0, 0, 0⟩, 16, 16⟩
def LNK_RMT_DATA_DATA (i : Nat) : Fld := ⟨⟨.LNK_RMT_DATA, i, 0, 0⟩, 0, 32⟩
def LNK_SYS_EVT_EVT : Fld := ⟨⟨.LNK_SYS_EVT, 0, 0, 0⟩, 0, 9⟩
def LNK_SYS_CNT_GM_CNT : Fld := ⟨⟨.LNK_SYS_CNT, 0, 0, 0⟩, 0, 16⟩
def LNK_SYS_CNT_HEAL_CNT : Fld := ⟨⟨.LNK_SYS_CNT, 0, 0, 0⟩, 16, 16⟩
def HOST_MODE_MODE : Fld := ⟨⟨.HOST_MODE, 0, 0, 0⟩, 0, 1⟩
def HOST_MODE_PROMOTE : Fld := ⟨⟨.HOST_MODE, 0, 0, 0⟩, 8, 1⟩
def HOST_STAT_RSTATE : Fld := ⟨⟨.HOST_STAT, 0, 0, 0⟩, 0, 3⟩
def HOST_STAT_LINK_UP : Fld := ⟨⟨.HOST_STAT, 0, 0, 0⟩, 3, 1⟩
def HOST_STAT_RATE : Fld := ⟨⟨.HOST_STAT, 0, 0, 0⟩, 4, 3⟩
def HOST_STAT_WIDTH : Fld := ⟨⟨.HOST_STAT, 0, 0, 0⟩, 7, 3⟩
def HOST_STAT_HPR_CNT : Fld := ⟨⟨.HOST_STAT, 0, 0, 0⟩, 16, 16⟩
def HOST_WAKE_WAKE : Fld := ⟨⟨.HOST_WAKE, 0, 0, 0⟩, 0, 32⟩
def HOST_RESYNC_TOKEN : Fld := ⟨⟨.HOST_RESYNC, 0, 0, 0⟩, 0, 16⟩
def HOST_RS_STAT_RESULT : Fld := ⟨⟨.HOST_RS_STAT, 0, 0, 0⟩, 0, 2⟩
def HOST_RS_STAT_SUMSEQ : Fld := ⟨⟨.HOST_RS_STAT, 0, 0, 0⟩, 16, 16⟩
def HOST_POLL_POLL_EN : Fld := ⟨⟨.HOST_POLL, 0, 0, 0⟩, 0, 1⟩
def HOST_POLL_CUR : Fld := ⟨⟨.HOST_POLL, 0, 0, 0⟩, 16, 16⟩
def HOST_SUMMARY_ADDR_LO_ADDR : Fld := ⟨⟨.HOST_SUMMARY_ADDR_LO, 0, 0, 0⟩, 12, 20⟩
def HOST_SUMMARY_ADDR_HI_ADDR : Fld := ⟨⟨.HOST_SUMMARY_ADDR_HI, 0, 0, 0⟩, 0, 16⟩
def HOST_DB_ADDR_LO_ADDR : Fld := ⟨⟨.HOST_DB_ADDR_LO, 0, 0, 0⟩, 12, 20⟩
def HOST_DB_ADDR_HI_ADDR : Fld := ⟨⟨.HOST_DB_ADDR_HI, 0, 0, 0⟩, 0, 16⟩
def HOST_XLAT_XCTX : Fld := ⟨⟨.HOST_XLAT, 0, 0, 0⟩, 0, 5⟩
def HOST_RING_LO_BASE (q : Nat) : Fld := ⟨⟨.HOST_RING_LO, q, 0, 0⟩, 12, 20⟩
def HOST_RING_HI_BASE (q : Nat) : Fld := ⟨⟨.HOST_RING_HI, q, 0, 0⟩, 0, 16⟩
def HOST_RING_CFG_EN (q : Nat) : Fld := ⟨⟨.HOST_RING_CFG, q, 0, 0⟩, 0, 1⟩
def HOST_RING_CFG_IRQ_EN (q : Nat) : Fld := ⟨⟨.HOST_RING_CFG, q, 0, 0⟩, 1, 1⟩
def HOST_RING_CFG_SIZE (q : Nat) : Fld := ⟨⟨.HOST_RING_CFG, q, 0, 0⟩, 4, 5⟩
def HOST_RING_IDX_HUB_IDX (q : Nat) : Fld := ⟨⟨.HOST_RING_IDX, q, 0, 0⟩, 0, 16⟩
def HOST_RING_IDX_PHASE (q : Nat) : Fld := ⟨⟨.HOST_RING_IDX, q, 0, 0⟩, 31, 1⟩
def MGT_CFG_PROMOTE_EN : Fld := ⟨⟨.MGT_CFG, 0, 0, 0⟩, 0, 1⟩
def MGT_CFG_WR_LOCK : Fld := ⟨⟨.MGT_CFG, 0, 0, 0⟩, 1, 1⟩
def MGT_CFG_BAUD : Fld := ⟨⟨.MGT_CFG, 0, 0, 0⟩, 2, 2⟩
def MGT_PMB_CFG_ADDR : Fld := ⟨⟨.MGT_PMB_CFG, 0, 0, 0⟩, 0, 7⟩
def MGT_PMB_CFG_EN : Fld := ⟨⟨.MGT_PMB_CFG, 0, 0, 0⟩, 7, 1⟩
def MGT_PMB_CFG_SPEED : Fld := ⟨⟨.MGT_PMB_CFG, 0, 0, 0⟩, 8, 2⟩
def MGT_PMB_CFG_PEC_REQ : Fld := ⟨⟨.MGT_PMB_CFG, 0, 0, 0⟩, 10, 1⟩
def MGT_PMB_CFG_ALERT_EV : Fld := ⟨⟨.MGT_PMB_CFG, 0, 0, 0⟩, 11, 1⟩
def MGT_PMB_STAT_PAGE : Fld := ⟨⟨.MGT_PMB_STAT, 0, 0, 0⟩, 0, 8⟩
def MGT_PMB_STAT_WP : Fld := ⟨⟨.MGT_PMB_STAT, 0, 0, 0⟩, 8, 8⟩
def MGT_PMB_STAT_TMO_CNT : Fld := ⟨⟨.MGT_PMB_STAT, 0, 0, 0⟩, 16, 8⟩
def MGT_PMB_STAT_PEC_CNT : Fld := ⟨⟨.MGT_PMB_STAT, 0, 0, 0⟩, 24, 8⟩
def MGT_I3C_CFG_SADDR : Fld := ⟨⟨.MGT_I3C_CFG, 0, 0, 0⟩, 0, 7⟩
def MGT_I3C_CFG_EN : Fld := ⟨⟨.MGT_I3C_CFG, 0, 0, 0⟩, 7, 1⟩
def MGT_I3C_STAT_DADDR : Fld := ⟨⟨.MGT_I3C_STAT, 0, 0, 0⟩, 0, 7⟩
def MGT_I3C_STAT_DA_VALID : Fld := ⟨⟨.MGT_I3C_STAT, 0, 0, 0⟩, 7, 1⟩
def MGT_I3C_STAT_IBI_EN : Fld := ⟨⟨.MGT_I3C_STAT, 0, 0, 0⟩, 8, 1⟩
def MGT_I3C_STAT_HDR_CNT : Fld := ⟨⟨.MGT_I3C_STAT, 0, 0, 0⟩, 16, 8⟩
def MGT_I3C_STAT_ERR_CNT : Fld := ⟨⟨.MGT_I3C_STAT, 0, 0, 0⟩, 24, 8⟩
def MGT_SPI_CFG_DIV : Fld := ⟨⟨.MGT_SPI_CFG, 0, 0, 0⟩, 0, 4⟩
def MGT_SPI_CFG_QUAD : Fld := ⟨⟨.MGT_SPI_CFG, 0, 0, 0⟩, 4, 1⟩
def MGT_SPI_CFG_ADDR4 : Fld := ⟨⟨.MGT_SPI_CFG, 0, 0, 0⟩, 5, 1⟩
def MGT_SPI_CMD_OP : Fld := ⟨⟨.MGT_SPI_CMD, 0, 0, 0⟩, 0, 8⟩
def MGT_SPI_CMD_LEN : Fld := ⟨⟨.MGT_SPI_CMD, 0, 0, 0⟩, 8, 9⟩
def MGT_SPI_CMD_GO : Fld := ⟨⟨.MGT_SPI_CMD, 0, 0, 0⟩, 31, 1⟩
def MGT_SPI_ADDR_ADDR : Fld := ⟨⟨.MGT_SPI_ADDR, 0, 0, 0⟩, 0, 28⟩
def MGT_SPI_STAT_BUSY : Fld := ⟨⟨.MGT_SPI_STAT, 0, 0, 0⟩, 0, 1⟩
def MGT_SPI_STAT_RESULT : Fld := ⟨⟨.MGT_SPI_STAT, 0, 0, 0⟩, 1, 2⟩
def MGT_SPI_STAT_JEDEC : Fld := ⟨⟨.MGT_SPI_STAT, 0, 0, 0⟩, 8, 24⟩
def MGT_SPI_BUF_DATA (i : Nat) : Fld := ⟨⟨.MGT_SPI_BUF, i, 0, 0⟩, 0, 32⟩
def MGT_EV_POP : Fld := ⟨⟨.MGT_EV, 0, 0, 0⟩, 0, 1⟩
def MGT_EV_VALID : Fld := ⟨⟨.MGT_EV, 0, 0, 0⟩, 1, 1⟩
def MGT_EV_FILL : Fld := ⟨⟨.MGT_EV, 0, 0, 0⟩, 16, 9⟩
def MGT_EV_DATA_WORD (i : Nat) : Fld := ⟨⟨.MGT_EV_DATA, i, 0, 0⟩, 0, 32⟩
def MGT_MBX_WORD (w : Nat) : Fld := ⟨⟨.MGT_MBX, w, 0, 0⟩, 0, 32⟩
def MGT_MBX_CTL_GO : Fld := ⟨⟨.MGT_MBX_CTL, 0, 0, 0⟩, 0, 1⟩
def MGT_MBX_CTL_BUSY : Fld := ⟨⟨.MGT_MBX_CTL, 0, 0, 0⟩, 1, 1⟩
def MGT_MBX_CTL_DONE : Fld := ⟨⟨.MGT_MBX_CTL, 0, 0, 0⟩, 2, 1⟩
def MGT_MBX_CTL_OWNER : Fld := ⟨⟨.MGT_MBX_CTL, 0, 0, 0⟩, 3, 3⟩
def MGT_MBX_CTL_STATUS : Fld := ⟨⟨.MGT_MBX_CTL, 0, 0, 0⟩, 8, 8⟩
def MGT_MBX_RES_RESULT : Fld := ⟨⟨.MGT_MBX_RES, 0, 0, 0⟩, 0, 32⟩
def MGT_EVT_EVT : Fld := ⟨⟨.MGT_EVT, 0, 0, 0⟩, 0, 5⟩
def MGT_MBX_BUF_DATA (i : Nat) : Fld := ⟨⟨.MGT_MBX_BUF, i, 0, 0⟩, 0, 32⟩
def DMA_CCTL_EN (ch : Nat) : Fld := ⟨⟨.DMA_CCTL, ch, 0, 0⟩, 0, 1⟩
def DMA_CCTL_PRIO (ch : Nat) : Fld := ⟨⟨.DMA_CCTL, ch, 0, 0⟩, 1, 2⟩
def DMA_CCTL_OWNER (ch : Nat) : Fld := ⟨⟨.DMA_CCTL, ch, 0, 0⟩, 4, 4⟩
def DMA_CCTL_XCTX (ch : Nat) : Fld := ⟨⟨.DMA_CCTL, ch, 0, 0⟩, 8, 5⟩
def DMA_CCTL_REQ (ch : Nat) : Fld := ⟨⟨.DMA_CCTL, ch, 0, 0⟩, 16, 5⟩
def DMA_CCTL_RMODE (ch : Nat) : Fld := ⟨⟨.DMA_CCTL, ch, 0, 0⟩, 21, 1⟩
def DMA_CCTL_RSIZE (ch : Nat) : Fld := ⟨⟨.DMA_CCTL, ch, 0, 0⟩, 24, 5⟩
def DMA_RBASE_LO_BASE (ch : Nat) : Fld := ⟨⟨.DMA_RBASE_LO, ch, 0, 0⟩, 12, 20⟩
def DMA_RBASE_HI_BASE (ch : Nat) : Fld := ⟨⟨.DMA_RBASE_HI, ch, 0, 0⟩, 0, 16⟩
def DMA_DB_PIDX (ch : Nat) : Fld := ⟨⟨.DMA_DB, ch, 0, 0⟩, 0, 16⟩
def DMA_CMD_RESUME (ch : Nat) : Fld := ⟨⟨.DMA_CMD, ch, 0, 0⟩, 0, 1⟩
def DMA_CMD_ABORT (ch : Nat) : Fld := ⟨⟨.DMA_CMD, ch, 0, 0⟩, 1, 1⟩
def DMA_STAT_STATE (ch : Nat) : Fld := ⟨⟨.DMA_STAT, ch, 0, 0⟩, 0, 4⟩
def DMA_STAT_CAUSE (ch : Nat) : Fld := ⟨⟨.DMA_STAT, ch, 0, 0⟩, 4, 4⟩
def DMA_STAT_LAST (ch : Nat) : Fld := ⟨⟨.DMA_STAT, ch, 0, 0⟩, 8, 8⟩
def DMA_STAT_CIDX (ch : Nat) : Fld := ⟨⟨.DMA_STAT, ch, 0, 0⟩, 16, 16⟩
def DMA_RESID_RESID (ch : Nat) : Fld := ⟨⟨.DMA_RESID, ch, 0, 0⟩, 0, 32⟩
def DMA_NEXT_LO_ADDR (ch : Nat) : Fld := ⟨⟨.DMA_NEXT_LO, ch, 0, 0⟩, 0, 32⟩
def DMA_NEXT_HI_ADDR (ch : Nat) : Fld := ⟨⟨.DMA_NEXT_HI, ch, 0, 0⟩, 0, 16⟩
def DMA_NEXT_HI_LOCAL (ch : Nat) : Fld := ⟨⟨.DMA_NEXT_HI, ch, 0, 0⟩, 31, 1⟩
def DMA_REQCNT_LATE_CNT (ch : Nat) : Fld := ⟨⟨.DMA_REQCNT, ch, 0, 0⟩, 0, 16⟩
def DMA_REQCNT_MISS_CNT (ch : Nat) : Fld := ⟨⟨.DMA_REQCNT, ch, 0, 0⟩, 16, 16⟩
def DMA_REQSEQ_SEQ (ch : Nat) : Fld := ⟨⟨.DMA_REQSEQ, ch, 0, 0⟩, 0, 32⟩
def DMA_EVT_EVT (ch : Nat) : Fld := ⟨⟨.DMA_EVT, ch, 0, 0⟩, 0, 4⟩
def DMA_FCNT_FAULT_CNT (ch : Nat) : Fld := ⟨⟨.DMA_FCNT, ch, 0, 0⟩, 0, 16⟩
def DMA_FCNT_POISON_CNT (ch : Nat) : Fld := ⟨⟨.DMA_FCNT, ch, 0, 0⟩, 16, 16⟩
def DMA_ACTIVE_ACTIVE : Fld := ⟨⟨.DMA_ACTIVE, 0, 0, 0⟩, 0, 32⟩
def DMA_REQ_PEND_PEND : Fld := ⟨⟨.DMA_REQ_PEND, 0, 0, 0⟩, 0, 26⟩
def DMA_REQ_BIND_BOUND : Fld := ⟨⟨.DMA_REQ_BIND, 0, 0, 0⟩, 0, 26⟩
def DMA_EVREQ_EN : Fld := ⟨⟨.DMA_EVREQ, 0, 0, 0⟩, 0, 1⟩
def DATU_INV_GO : Fld := ⟨⟨.DATU_INV, 0, 0, 0⟩, 0, 1⟩
def DATU_INV_KIND : Fld := ⟨⟨.DATU_INV, 0, 0, 0⟩, 1, 2⟩
def DATU_INV_CTX : Fld := ⟨⟨.DATU_INV, 0, 0, 0⟩, 4, 4⟩
def DATU_INV_ADDR_LO_IOVA : Fld := ⟨⟨.DATU_INV_ADDR_LO, 0, 0, 0⟩, 12, 20⟩
def DATU_INV_ADDR_HI_IOVA : Fld := ⟨⟨.DATU_INV_ADDR_HI, 0, 0, 0⟩, 0, 16⟩
def DATU_STAT_INV_BUSY : Fld := ⟨⟨.DATU_STAT, 0, 0, 0⟩, 0, 1⟩
def DATU_STAT_VALID : Fld := ⟨⟨.DATU_STAT, 0, 0, 0⟩, 8, 9⟩
def DATU_CNT_MISS_CNT : Fld := ⟨⟨.DATU_CNT, 0, 0, 0⟩, 0, 16⟩
def DATU_CNT_FAULT_CNT : Fld := ⟨⟨.DATU_CNT, 0, 0, 0⟩, 16, 16⟩
def DATU_CCTL_EN (x : Nat) : Fld := ⟨⟨.DATU_CCTL, x, 0, 0⟩, 0, 1⟩
def DATU_CCTL_FCNT (x : Nat) : Fld := ⟨⟨.DATU_CCTL, x, 0, 0⟩, 16, 16⟩
def DATU_ROOT_LO_ROOT (x : Nat) : Fld := ⟨⟨.DATU_ROOT_LO, x, 0, 0⟩, 12, 20⟩
def DATU_ROOT_HI_ROOT (x : Nat) : Fld := ⟨⟨.DATU_ROOT_HI, x, 0, 0⟩, 0, 20⟩
def DATU_FADDR_LO_IOVA (x : Nat) : Fld := ⟨⟨.DATU_FADDR_LO, x, 0, 0⟩, 0, 32⟩
def DATU_FADDR_HI_IOVA (x : Nat) : Fld := ⟨⟨.DATU_FADDR_HI, x, 0, 0⟩, 0, 16⟩
def DATU_FINFO_PEND (x : Nat) : Fld := ⟨⟨.DATU_FINFO, x, 0, 0⟩, 0, 1⟩
def DATU_FINFO_CAUSE (x : Nat) : Fld := ⟨⟨.DATU_FINFO, x, 0, 0⟩, 1, 3⟩
def DATU_FINFO_KIND (x : Nat) : Fld := ⟨⟨.DATU_FINFO, x, 0, 0⟩, 4, 2⟩
def DATU_FINFO_LEVEL (x : Nat) : Fld := ⟨⟨.DATU_FINFO, x, 0, 0⟩, 6, 2⟩
def DATU_FINFO_CHANNEL (x : Nat) : Fld := ⟨⟨.DATU_FINFO, x, 0, 0⟩, 8, 5⟩
def DATU_FINFO_HOSTPORT (x : Nat) : Fld := ⟨⟨.DATU_FINFO, x, 0, 0⟩, 13, 1⟩
def ENG_CTL_RESET (e : Nat) : Fld := ⟨⟨.ENG_CTL, e, 0, 0⟩, 0, 1⟩
def ENG_CTL_HOLD (e : Nat) : Fld := ⟨⟨.ENG_CTL, e, 0, 0⟩, 1, 1⟩
def ENG_STAT_STATE (e : Nat) : Fld := ⟨⟨.ENG_STAT, e, 0, 0⟩, 0, 2⟩
def ENG_STAT_BISQUE (e : Nat) : Fld := ⟨⟨.ENG_STAT, e, 0, 0⟩, 2, 1⟩
def ENG_STAT_BISQUE_WHY (e : Nat) : Fld := ⟨⟨.ENG_STAT, e, 0, 0⟩, 3, 3⟩
def ENG_STAT_HALT_CAUSE (e : Nat) : Fld := ⟨⟨.ENG_STAT, e, 0, 0⟩, 8, 3⟩
def ENG_HALT_ADDR_ADDR (e : Nat) : Fld := ⟨⟨.ENG_HALT_ADDR, e, 0, 0⟩, 0, 17⟩
def ENG_HALT_ADDR_MEM (e : Nat) : Fld := ⟨⟨.ENG_HALT_ADDR, e, 0, 0⟩, 17, 1⟩
def ENG_CNT_CE_CNT (e : Nat) : Fld := ⟨⟨.ENG_CNT, e, 0, 0⟩, 0, 16⟩
def ENG_CNT_WDG_FAIL (e : Nat) : Fld := ⟨⟨.ENG_CNT, e, 0, 0⟩, 16, 16⟩
def ENG_ROM_VERSION (e : Nat) : Fld := ⟨⟨.ENG_ROM, e, 0, 0⟩, 0, 32⟩
def ENG_IMG_STAT_ACTIVE (cl : Nat) : Fld := ⟨⟨.ENG_IMG_STAT, cl, 0, 0⟩, 0, 1⟩
def ENG_IMG_STAT_TRIAL (cl : Nat) : Fld := ⟨⟨.ENG_IMG_STAT, cl, 0, 0⟩, 1, 1⟩
def ENG_IMG_STAT_BISQUE (cl : Nat) : Fld := ⟨⟨.ENG_IMG_STAT, cl, 0, 0⟩, 2, 1⟩
def ENG_IMG_STAT_REFUSED (cl : Nat) : Fld := ⟨⟨.ENG_IMG_STAT, cl, 0, 0⟩, 3, 1⟩
def ENG_IMG_STAT_STAGED (cl : Nat) : Fld := ⟨⟨.ENG_IMG_STAT, cl, 0, 0⟩, 4, 1⟩
def ENG_IMG_STAT_TRIES (cl : Nat) : Fld := ⟨⟨.ENG_IMG_STAT, cl, 0, 0⟩, 8, 2⟩
def ENG_IMG_VER_VERSION (cl : Nat) : Fld := ⟨⟨.ENG_IMG_VER, cl, 0, 0⟩, 0, 32⟩
def ENG_IMG_ABI_ABI (cl : Nat) : Fld := ⟨⟨.ENG_IMG_ABI, cl, 0, 0⟩, 0, 16⟩
def ENG_STG_VER_VERSION (cl : Nat) : Fld := ⟨⟨.ENG_STG_VER, cl, 0, 0⟩, 0, 32⟩
def ENG_HEALTH_TOKEN (cl : Nat) : Fld := ⟨⟨.ENG_HEALTH, cl, 0, 0⟩, 0, 16⟩
def ENG_IMG_EVT_EVT (cl : Nat) : Fld := ⟨⟨.ENG_IMG_EVT, cl, 0, 0⟩, 0, 7⟩
def ENG_SEL_SEQ (cl : Nat) : Fld := ⟨⟨.ENG_SEL, cl, 0, 0⟩, 0, 32⟩
def ENG_MIX_CLASS_A : Fld := ⟨⟨.ENG_MIX, 0, 0, 0⟩, 0, 2⟩
def ENG_MIX_CLASS_B : Fld := ⟨⟨.ENG_MIX, 0, 0, 0⟩, 2, 2⟩
def ENG_MIX_VALID : Fld := ⟨⟨.ENG_MIX, 0, 0, 0⟩, 4, 1⟩
def PIN_CFG_FMASK (i : Nat) : Fld := ⟨⟨.PIN_CFG, i, 0, 0⟩, 0, 4⟩
def PIN_CFG_FN_CUR (i : Nat) : Fld := ⟨⟨.PIN_CFG, i, 0, 0⟩, 4, 3⟩
def PIN_CFG_ANA (i : Nat) : Fld := ⟨⟨.PIN_CFG, i, 0, 0⟩, 7, 1⟩
def PIN_CFG_THR (i : Nat) : Fld := ⟨⟨.PIN_CFG, i, 0, 0⟩, 8, 2⟩
def PIN_CFG_HYST (i : Nat) : Fld := ⟨⟨.PIN_CFG, i, 0, 0⟩, 10, 1⟩
def PIN_CFG_PULL (i : Nat) : Fld := ⟨⟨.PIN_CFG, i, 0, 0⟩, 11, 2⟩
def PIN_CFG_DRV (i : Nat) : Fld := ⟨⟨.PIN_CFG, i, 0, 0⟩, 13, 2⟩
def PIN_CFG_SLEW (i : Nat) : Fld := ⟨⟨.PIN_CFG, i, 0, 0⟩, 15, 1⟩
def PIN_CFG_OD (i : Nat) : Fld := ⟨⟨.PIN_CFG, i, 0, 0⟩, 16, 1⟩
def PIN_CFG_IRQ (i : Nat) : Fld := ⟨⟨.PIN_CFG, i, 0, 0⟩, 17, 3⟩
def PIN_CFG_ARG (i : Nat) : Fld := ⟨⟨.PIN_CFG, i, 0, 0⟩, 21, 8⟩
def PIN_OWN_OWNER (i : Nat) : Fld := ⟨⟨.PIN_OWN, i, 0, 0⟩, 0, 4⟩
def PIN_OWN_LOCK (i : Nat) : Fld := ⟨⟨.PIN_OWN, i, 0, 0⟩, 4, 1⟩
def GPIO_MOUT_VAL (g : Nat) : Fld := ⟨⟨.GPIO_MOUT, g, 0, 0⟩, 0, 16⟩
def GPIO_MOUT_MASK (g : Nat) : Fld := ⟨⟨.GPIO_MOUT, g, 0, 0⟩, 16, 16⟩
def GPIO_MOE_VAL (g : Nat) : Fld := ⟨⟨.GPIO_MOE, g, 0, 0⟩, 0, 16⟩
def GPIO_MOE_MASK (g : Nat) : Fld := ⟨⟨.GPIO_MOE, g, 0, 0⟩, 16, 16⟩
def GPIO_IN_IN (g : Nat) : Fld := ⟨⟨.GPIO_IN, g, 0, 0⟩, 0, 16⟩
def GPIO_IRQ_PEND (g : Nat) : Fld := ⟨⟨.GPIO_IRQ, g, 0, 0⟩, 0, 16⟩
def PIN_PEN_SPI : Fld := ⟨⟨.PIN_PEN, 0, 0, 0⟩, 0, 1⟩
def PIN_PEN_UART : Fld := ⟨⟨.PIN_PEN, 0, 0, 0⟩, 1, 1⟩
def PIN_PEN_SEQ : Fld := ⟨⟨.PIN_PEN, 0, 0, 0⟩, 2, 1⟩
def PIN_PEN_FRM : Fld := ⟨⟨.PIN_PEN, 0, 0, 0⟩, 3, 1⟩
def PIN_PEN_PGX : Fld := ⟨⟨.PIN_PEN, 0, 0, 0⟩, 4, 1⟩
def PIN_PEN_FOUT : Fld := ⟨⟨.PIN_PEN, 0, 0, 0⟩, 5, 1⟩
def PIN_PEN_PWMX : Fld := ⟨⟨.PIN_PEN, 0, 0, 0⟩, 6, 1⟩
def PIN_PEN_SYNC : Fld := ⟨⟨.PIN_PEN, 0, 0, 0⟩, 7, 1⟩
def PIN_PEN_FIN : Fld := ⟨⟨.PIN_PEN, 0, 0, 0⟩, 8, 1⟩
def GPIO_CAP_CFG_EN : Fld := ⟨⟨.GPIO_CAP_CFG, 0, 0, 0⟩, 0, 1⟩
def GPIO_CAP_CFG_WIDTH : Fld := ⟨⟨.GPIO_CAP_CFG, 0, 0, 0⟩, 1, 2⟩
def GPIO_CAP_CFG_BASE : Fld := ⟨⟨.GPIO_CAP_CFG, 0, 0, 0⟩, 4, 3⟩
def GPIO_CAP_CFG_REQ_EN : Fld := ⟨⟨.GPIO_CAP_CFG, 0, 0, 0⟩, 7, 1⟩
def GPIO_CAP_CFG_NBLK : Fld := ⟨⟨.GPIO_CAP_CFG, 0, 0, 0⟩, 8, 7⟩
def GPIO_CAP_RATE_DIV : Fld := ⟨⟨.GPIO_CAP_RATE, 0, 0, 0⟩, 0, 16⟩
def GPIO_CAP_STAT_BLK_CNT : Fld := ⟨⟨.GPIO_CAP_STAT, 0, 0, 0⟩, 0, 16⟩
def GPIO_CAP_STAT_CAP_OVR_CNT : Fld := ⟨⟨.GPIO_CAP_STAT, 0, 0, 0⟩, 16, 16⟩
def PWMX_PER_PER (k : Nat) : Fld := ⟨⟨.PWMX_PER, k, 0, 0⟩, 0, 16⟩
def PWMX_DUTY_DUTY (k : Nat) : Fld := ⟨⟨.PWMX_DUTY, k, 0, 0⟩, 0, 17⟩
def PIN_FIN_RMASK (k : Nat) : Fld := ⟨⟨.PIN_FIN, k, 0, 0⟩, 0, 24⟩
def PIN_FIN_DG (k : Nat) : Fld := ⟨⟨.PIN_FIN, k, 0, 0⟩, 24, 8⟩
def PIN_FIN_STAT_LATCH : Fld := ⟨⟨.PIN_FIN_STAT, 0, 0, 0⟩, 0, 4⟩
def PIN_FIN_STAT_NOW : Fld := ⟨⟨.PIN_FIN_STAT, 0, 0, 0⟩, 4, 4⟩
def PIN_IRQN_GPIO : Fld := ⟨⟨.PIN_IRQN, 0, 0, 0⟩, 0, 1⟩
def PIN_IRQN_EV : Fld := ⟨⟨.PIN_IRQN, 0, 0, 0⟩, 1, 1⟩
def PIN_IRQN_FAULT : Fld := ⟨⟨.PIN_IRQN, 0, 0, 0⟩, 2, 1⟩
def PIN_EVT_EVT : Fld := ⟨⟨.PIN_EVT, 0, 0, 0⟩, 0, 3⟩
def PIN_CNT_HANDOVER_CNT : Fld := ⟨⟨.PIN_CNT, 0, 0, 0⟩, 0, 16⟩
def OTP_ARM_TOKEN : Fld := ⟨⟨.OTP_ARM, 0, 0, 0⟩, 0, 24⟩
def OTP_BURN_ADDR_WORD : Fld := ⟨⟨.OTP_BURN_ADDR, 0, 0, 0⟩, 0, 9⟩
def OTP_BURN_DATA_VALUE : Fld := ⟨⟨.OTP_BURN_DATA, 0, 0, 0⟩, 0, 32⟩
def OTP_CMD_BURN : Fld := ⟨⟨.OTP_CMD, 0, 0, 0⟩, 0, 1⟩
def OTP_CMD_LOCK : Fld := ⟨⟨.OTP_CMD, 0, 0, 0⟩, 1, 1⟩
def OTP_CMD_REGION : Fld := ⟨⟨.OTP_CMD, 0, 0, 0⟩, 2, 2⟩
def OTP_CMD_SHCLR : Fld := ⟨⟨.OTP_CMD, 0, 0, 0⟩, 4, 1⟩
def OTP_STAT_BUSY : Fld := ⟨⟨.OTP_STAT, 0, 0, 0⟩, 0, 1⟩
def OTP_STAT_RESULT : Fld := ⟨⟨.OTP_STAT, 0, 0, 0⟩, 1, 2⟩
def OTP_STAT_ARMED : Fld := ⟨⟨.OTP_STAT, 0, 0, 0⟩, 3, 1⟩
def OTP_STAT_LAST_WORD : Fld := ⟨⟨.OTP_STAT, 0, 0, 0⟩, 4, 9⟩
def OTP_STAT_PULSES : Fld := ⟨⟨.OTP_STAT, 0, 0, 0⟩, 13, 3⟩
def OTP_REGION_STATE : Fld := ⟨⟨.OTP_REGION, 0, 0, 0⟩, 0, 8⟩
def OTP_REGION_LOCKED : Fld := ⟨⟨.OTP_REGION, 0, 0, 0⟩, 8, 4⟩
def OTP_REGION_OVERRIDDEN : Fld := ⟨⟨.OTP_REGION, 0, 0, 0⟩, 12, 4⟩
def OTP_CNT_CE_CNT : Fld := ⟨⟨.OTP_CNT, 0, 0, 0⟩, 0, 16⟩
def OTP_CNT_BURN_CNT : Fld := ⟨⟨.OTP_CNT, 0, 0, 0⟩, 16, 16⟩
def OTP_FAIL_WORD : Fld := ⟨⟨.OTP_FAIL, 0, 0, 0⟩, 0, 10⟩
def OTP_FAIL_CAUSE : Fld := ⟨⟨.OTP_FAIL, 0, 0, 0⟩, 10, 3⟩
def OTP_FAIL_NFAIL : Fld := ⟨⟨.OTP_FAIL, 0, 0, 0⟩, 16, 10⟩
def OTP_FAIL_RD_DATA (m : Nat) : Fld := ⟨⟨.OTP_FAIL_RD, m, 0, 0⟩, 0, 32⟩
def OTP_FAIL_CHK_CHK_0 : Fld := ⟨⟨.OTP_FAIL_CHK, 0, 0, 0⟩, 0, 7⟩
def OTP_FAIL_CHK_CHK_1 : Fld := ⟨⟨.OTP_FAIL_CHK, 0, 0, 0⟩, 8, 7⟩
def OTP_FAIL_CHK_CHK_2 : Fld := ⟨⟨.OTP_FAIL_CHK, 0, 0, 0⟩, 16, 7⟩
def OTP_PROF_OTP_DONE : Fld := ⟨⟨.OTP_PROF, 0, 0, 0⟩, 0, 1⟩
def OTP_PROF_EXT_DONE : Fld := ⟨⟨.OTP_PROF, 0, 0, 0⟩, 1, 1⟩
def OTP_PROF_EXT_BAD : Fld := ⟨⟨.OTP_PROF, 0, 0, 0⟩, 2, 1⟩
def OTP_PROF_STOPPED : Fld := ⟨⟨.OTP_PROF, 0, 0, 0⟩, 3, 1⟩
def OTP_PROF_STOP_SRC : Fld := ⟨⟨.OTP_PROF, 0, 0, 0⟩, 4, 1⟩
def OTP_PROF_STOP_IDX : Fld := ⟨⟨.OTP_PROF, 0, 0, 0⟩, 5, 16⟩
def OTP_PROF_HDR_BAD : Fld := ⟨⟨.OTP_PROF, 0, 0, 0⟩, 21, 1⟩
def OTP_SH_VALUE (w : Nat) : Fld := ⟨⟨.OTP_SH, w, 0, 0⟩, 0, 32⟩
def OTP_OVR_OVR (j : Nat) : Fld := ⟨⟨.OTP_OVR, j, 0, 0⟩, 0, 32⟩
def WDG_CTL_EN : Fld := ⟨⟨.WDG_CTL, 0, 0, 0⟩, 0, 1⟩
def WDG_CTL_LOCK : Fld := ⟨⟨.WDG_CTL, 0, 0, 0⟩, 1, 1⟩
def WDG_TICK_TICK : Fld := ⟨⟨.WDG_TICK, 0, 0, 0⟩, 0, 16⟩
def WDG_KICK_TOKEN : Fld := ⟨⟨.WDG_KICK, 0, 0, 0⟩, 0, 16⟩
def WDG_KICK_SLOT : Fld := ⟨⟨.WDG_KICK, 0, 0, 0⟩, 16, 4⟩
def WDG_FORCE_TOKEN : Fld := ⟨⟨.WDG_FORCE, 0, 0, 0⟩, 0, 16⟩
def WDG_STAT_FAILED : Fld := ⟨⟨.WDG_STAT, 0, 0, 0⟩, 0, 16⟩
def WDG_STAT_ARMED : Fld := ⟨⟨.WDG_STAT, 0, 0, 0⟩, 16, 16⟩
def WDG_LASTFAIL_SLOT : Fld := ⟨⟨.WDG_LASTFAIL, 0, 0, 0⟩, 0, 4⟩
def WDG_LASTFAIL_KIND : Fld := ⟨⟨.WDG_LASTFAIL, 0, 0, 0⟩, 4, 3⟩
def WDG_LASTFAIL_VALID : Fld := ⟨⟨.WDG_LASTFAIL, 0, 0, 0⟩, 7, 1⟩
def WDG_SLOT_EN (s : Nat) : Fld := ⟨⟨.WDG_SLOT, s, 0, 0⟩, 0, 1⟩
def WDG_SLOT_OWNER (s : Nat) : Fld := ⟨⟨.WDG_SLOT, s, 0, 0⟩, 1, 4⟩
def WDG_SLOT_SCOPE (s : Nat) : Fld := ⟨⟨.WDG_SLOT, s, 0, 0⟩, 5, 1⟩
def WDG_SLOT_TOKEN (s : Nat) : Fld := ⟨⟨.WDG_SLOT, s, 0, 0⟩, 16, 16⟩
def WDG_WIN_WMIN (s : Nat) : Fld := ⟨⟨.WDG_WIN, s, 0, 0⟩, 0, 16⟩
def WDG_WIN_WMAX (s : Nat) : Fld := ⟨⟨.WDG_WIN, s, 0, 0⟩, 16, 16⟩
def WDG_SSTAT_LAST (s : Nat) : Fld := ⟨⟨.WDG_SSTAT, s, 0, 0⟩, 0, 2⟩
def WDG_SSTAT_KIND (s : Nat) : Fld := ⟨⟨.WDG_SSTAT, s, 0, 0⟩, 2, 3⟩
def WDG_SSTAT_FAIL_CNT (s : Nat) : Fld := ⟨⟨.WDG_SSTAT, s, 0, 0⟩, 16, 16⟩
def GLB_ID_ID : Fld := ⟨⟨.GLB_ID, 0, 0, 0⟩, 0, 32⟩
def GLB_FEATGEN_FEATGEN : Fld := ⟨⟨.GLB_FEATGEN, 0, 0, 0⟩, 0, 16⟩
def GLB_STATE_STATE : Fld := ⟨⟨.GLB_STATE, 0, 0, 0⟩, 0, 4⟩
def GLB_STATE_MODE : Fld := ⟨⟨.GLB_STATE, 0, 0, 0⟩, 4, 1⟩
def GLB_STATE_MIXED : Fld := ⟨⟨.GLB_STATE, 0, 0, 0⟩, 5, 1⟩
def GLB_STATE_SUFFIX : Fld := ⟨⟨.GLB_STATE, 0, 0, 0⟩, 6, 1⟩
def GLB_STATE_CHANGING : Fld := ⟨⟨.GLB_STATE, 0, 0, 0⟩, 7, 1⟩
def GLB_CMD_CODE : Fld := ⟨⟨.GLB_CMD, 0, 0, 0⟩, 0, 4⟩
def GLB_CMD_TOKEN : Fld := ⟨⟨.GLB_CMD, 0, 0, 0⟩, 16, 16⟩
def GLB_RESET_CAUSE : Fld := ⟨⟨.GLB_RESET, 0, 0, 0⟩, 0, 8⟩
def GLB_RESET_RST_CNT : Fld := ⟨⟨.GLB_RESET, 0, 0, 0⟩, 16, 16⟩
def GLB_IGNORED_CNT_CNT : Fld := ⟨⟨.GLB_IGNORED_CNT, 0, 0, 0⟩, 0, 32⟩
def GLB_IGNORED_LAST_A_ADDR : Fld := ⟨⟨.GLB_IGNORED_LAST_A, 0, 0, 0⟩, 0, 32⟩
def GLB_IGNORED_LAST_S_SOURCE : Fld := ⟨⟨.GLB_IGNORED_LAST_S, 0, 0, 0⟩, 0, 8⟩
def GLB_IGNORED_LAST_S_DETAIL : Fld := ⟨⟨.GLB_IGNORED_LAST_S, 0, 0, 0⟩, 8, 8⟩
def GLB_STBY_CTL_LINKS : Fld := ⟨⟨.GLB_STBY_CTL, 0, 0, 0⟩, 0, 1⟩
def GLB_STBY_CTL_WAKE_EN : Fld := ⟨⟨.GLB_STBY_CTL, 0, 0, 0⟩, 1, 1⟩
def GLB_STBY_CTL_WAKE_SEQ : Fld := ⟨⟨.GLB_STBY_CTL, 0, 0, 0⟩, 2, 3⟩
def GLB_STBY_OUT_LO_MASK : Fld := ⟨⟨.GLB_STBY_OUT_LO, 0, 0, 0⟩, 0, 32⟩
def GLB_STBY_OUT_HI_MASK : Fld := ⟨⟨.GLB_STBY_OUT_HI, 0, 0, 0⟩, 0, 16⟩
def GLB_STBY_RAIL_MASK : Fld := ⟨⟨.GLB_STBY_RAIL, 0, 0, 0⟩, 0, 24⟩
def GLB_DIE_ISOLATED : Fld := ⟨⟨.GLB_DIE, 0, 0, 0⟩, 0, 4⟩
def GLB_DIE_SUPPLY : Fld := ⟨⟨.GLB_DIE, 0, 0, 0⟩, 4, 4⟩
def GLB_DIE_THERM : Fld := ⟨⟨.GLB_DIE, 0, 0, 0⟩, 8, 4⟩
def GLB_EVT_EVT : Fld := ⟨⟨.GLB_EVT, 0, 0, 0⟩, 0, 8⟩
def GLB_EVCNT_OVF_CNT : Fld := ⟨⟨.GLB_EVCNT, 0, 0, 0⟩, 0, 16⟩
def GLB_TIMER_LO_US : Fld := ⟨⟨.GLB_TIMER_LO, 0, 0, 0⟩, 0, 32⟩
def GLB_TIMER_HI_US : Fld := ⟨⟨.GLB_TIMER_HI, 0, 0, 0⟩, 0, 16⟩
def KLN_STAT_KEEPER_OK : Fld := ⟨⟨.KLN_STAT, 0, 0, 0⟩, 0, 1⟩
def KLN_STAT_KEEPER_LOST : Fld := ⟨⟨.KLN_STAT, 0, 0, 0⟩, 1, 1⟩
def KLN_STAT_VAUX_OK : Fld := ⟨⟨.KLN_STAT, 0, 0, 0⟩, 2, 1⟩
def KLN_STAT_CE_CNT : Fld := ⟨⟨.KLN_STAT, 0, 0, 0⟩, 16, 16⟩
def KLN_TIME_SEC : Fld := ⟨⟨.KLN_TIME, 0, 0, 0⟩, 0, 32⟩
def KLN_WDG_CNT_CNT : Fld := ⟨⟨.KLN_WDG_CNT, 0, 0, 0⟩, 0, 16⟩
def KLN_HIST_CAUSE (i : Nat) : Fld := ⟨⟨.KLN_HIST, i, 0, 0⟩, 0, 8⟩
def KLN_HIST_SEC (i : Nat) : Fld := ⟨⟨.KLN_HIST, i, 0, 0⟩, 8, 24⟩
def KLN_SLOT_ACT : Fld := ⟨⟨.KLN_SLOT, 0, 0, 0⟩, 0, 3⟩
def KLN_SLOT_VALID : Fld := ⟨⟨.KLN_SLOT, 0, 0, 0⟩, 3, 1⟩
def KLN_SLOT_TRIES : Fld := ⟨⟨.KLN_SLOT, 0, 0, 0⟩, 8, 6⟩
def KLN_HO_LO_HO (t : Nat) : Fld := ⟨⟨.KLN_HO_LO, t, 0, 0⟩, 0, 32⟩
def KLN_HO_HI_HO (t : Nat) : Fld := ⟨⟨.KLN_HO_HI, t, 0, 0⟩, 0, 16⟩
def KLN_HO_HI_STB (t : Nat) : Fld := ⟨⟨.KLN_HO_HI, t, 0, 0⟩, 16, 1⟩
def KLN_HO_HI_VALID (t : Nat) : Fld := ⟨⟨.KLN_HO_HI, t, 0, 0⟩, 31, 1⟩
def KLN_HO_SEC_SEC (t : Nat) : Fld := ⟨⟨.KLN_HO_SEC, t, 0, 0⟩, 0, 32⟩
def KLN_WAKE_WAKE_SEC : Fld := ⟨⟨.KLN_WAKE, 0, 0, 0⟩, 0, 24⟩
def KLN_WAKE_VIN_WAKE : Fld := ⟨⟨.KLN_WAKE, 0, 0, 0⟩, 24, 1⟩
def KLN_SCR_DATA (i : Nat) : Fld := ⟨⟨.KLN_SCR, i, 0, 0⟩, 0, 32⟩
def MSIX_ADDR_LO_ADDR (v : Nat) : Fld := ⟨⟨.MSIX_ADDR_LO, v, 0, 0⟩, 2, 30⟩
def MSIX_ADDR_HI_ADDR (v : Nat) : Fld := ⟨⟨.MSIX_ADDR_HI, v, 0, 0⟩, 0, 32⟩
def MSIX_DATA_DATA (v : Nat) : Fld := ⟨⟨.MSIX_DATA, v, 0, 0⟩, 0, 32⟩
def MSIX_VCTL_MASK (v : Nat) : Fld := ⟨⟨.MSIX_VCTL, v, 0, 0⟩, 0, 1⟩
def MSIX_PBA_PEND (w : Nat) : Fld := ⟨⟨.MSIX_PBA, w, 0, 0⟩, 0, 32⟩

end Sys2Proof.Machine
end

