-- ==== Sys2Proof/Machine/RegTable.lean ====
section
/-! DEFINITION. Sys2Proof/Machine/RegTable.lean: where each register lies (R8, R35), its reset value, its fields, and the
register an offset names. Written from the register tables of spec/, one arm per register line. -/

namespace Sys2Proof.Machine

/-- The place of the registers of a name in BAR0 (R8, R35). -/
def RegName.row : RegName → RegRow
  | .PLZ_LANE_CAL => { base := 0x10000 }
  | .PLZ_LO_HZ => { base := 0x10004 }
  | .PLZ_SEL_CTL => { base := 0x10100, n1 := 4, s1 := 0x40 }
  | .PLZ_CAND => { base := 0x10104, n1 := 4, s1 := 0x40 }
  | .PLZ_PRIO => { base := 0x10108, n1 := 4, s1 := 0x40, n2 := 3, s2 := 4 }
  | .PLZ_SEL_STAT => { base := 0x10114, n1 := 4, s1 := 0x40 }
  | .PLZ_SEL_SYS => { base := 0x10118, n1 := 4, s1 := 0x40 }
  | .MON_CFG => { base := 0x11000, n1 := 0x10, s1 := 0x100 }
  | .MON_FNOM_INT => { base := 0x11004, n1 := 0x10, s1 := 0x100 }
  | .MON_FNOM_FRAC => { base := 0x11008, n1 := 0x10, s1 := 0x100 }
  | .MON_REJECT => { base := 0x1100c, n1 := 0x10, s1 := 0x100 }
  | .MON_ACCEPT => { base := 0x11010, n1 := 0x10, s1 := 0x100 }
  | .MON_FGATE => { base := 0x11014, n1 := 0x10, s1 := 0x100 }
  | .MON_QUAL => { base := 0x11018, n1 := 0x10, s1 := 0x100 }
  | .MON_PJ_THR => { base := 0x1101c, n1 := 0x10, s1 := 0x100 }
  | .MON_STAT => { base := 0x11020, n1 := 0x10, s1 := 0x100 }
  | .MON_FOFS => { base := 0x11024, n1 := 0x10, s1 := 0x100 }
  | .MON_QREM => { base := 0x11028, n1 := 0x10, s1 := 0x100 }
  | .MON_EVT => { base := 0x1102c, n1 := 0x10, s1 := 0x100 }
  | .MON_CNT => { base := 0x11030, n1 := 0x10, s1 := 0x100 }
  | .MON_PJ_LAST => { base := 0x11034, n1 := 0x10, s1 := 0x100 }
  | .TRG_CTL => { base := 0x20000, n1 := 4, s1 := 0x4000 }
  | .TRG_BW => { base := 0x20004, n1 := 4, s1 := 0x4000 }
  | .TRG_PULLIN => { base := 0x20008, n1 := 4, s1 := 0x4000 }
  | .TRG_LOCK => { base := 0x2000c, n1 := 4, s1 := 0x4000 }
  | .TRG_HIST => { base := 0x20010, n1 := 4, s1 := 0x4000 }
  | .TRG_HOWIN => { base := 0x20014, n1 := 4, s1 := 0x4000 }
  | .TRG_RELOCK => { base := 0x20018, n1 := 4, s1 := 0x4000 }
  | .TRG_STAT => { base := 0x20020, n1 := 4, s1 := 0x4000 }
  | .TRG_CV_LO => { base := 0x20024, n1 := 4, s1 := 0x4000 }
  | .TRG_CV_HI => { base := 0x20028, n1 := 4, s1 := 0x4000 }
  | .TRG_HO_VAL_LO => { base := 0x2002c, n1 := 4, s1 := 0x4000 }
  | .TRG_HO_VAL_HI => { base := 0x20030, n1 := 4, s1 := 0x4000 }
  | .TRG_HO_INFO => { base := 0x20034, n1 := 4, s1 := 0x4000 }
  | .TRG_BO_LO => { base := 0x20038, n1 := 4, s1 := 0x4000 }
  | .TRG_BO_HI => { base := 0x2003c, n1 := 4, s1 := 0x4000 }
  | .TRG_PHERR => { base := 0x20040, n1 := 4, s1 := 0x4000 }
  | .TRG_LO_STB => { base := 0x20044, n1 := 4, s1 := 0x4000 }
  | .TRG_HIST_PTR => { base := 0x20048, n1 := 4, s1 := 0x4000 }
  | .TRG_TC_SRC => { base := 0x2004c, n1 := 4, s1 := 0x4000 }
  | .TRG_TC_C => { base := 0x20050, n1 := 4, s1 := 0x4000, n2 := 4, s2 := 4 }
  | .TRG_TC_TERM_LO => { base := 0x20060, n1 := 4, s1 := 0x4000 }
  | .TRG_TC_TERM_HI => { base := 0x20064, n1 := 4, s1 := 0x4000 }
  | .TRG_WARM => { base := 0x20068, n1 := 4, s1 := 0x4000 }
  | .TRG_EVT => { base := 0x2006c, n1 := 4, s1 := 0x4000 }
  | .TRG_DLY => { base := 0x20070, n1 := 4, s1 := 0x4000 }
  | .TRG_HIST_DMA => { base := 0x20074, n1 := 4, s1 := 0x4000 }
  | .TRG_HENT_LO => { base := 0x22000, n1 := 4, s1 := 0x4000, n2 := 0x400, s2 := 8 }
  | .TRG_HENT_HI => { base := 0x22004, n1 := 4, s1 := 0x4000, n2 := 0x400, s2 := 8 }
  | .SYN_CTL => { base := 0x30000, n1 := 0xc, s1 := 0x1000 }
  | .SYN_N_INT => { base := 0x30004, n1 := 0xc, s1 := 0x1000 }
  | .SYN_N_NUM => { base := 0x30008, n1 := 0xc, s1 := 0x1000 }
  | .SYN_N_DEN => { base := 0x3000c, n1 := 0xc, s1 := 0x1000 }
  | .SYN_APPLY => { base := 0x30010, n1 := 0xc, s1 := 0x1000 }
  | .SYN_STAT => { base := 0x30014, n1 := 0xc, s1 := 0x1000 }
  | .SYN_LD => { base := 0x30018, n1 := 0xc, s1 := 0x1000 }
  | .SYN_RET => { base := 0x3001c, n1 := 0xc, s1 := 0x1000 }
  | .SYN_BYP => { base := 0x30020, n1 := 0xc, s1 := 0x1000 }
  | .SYN_TB => { base := 0x30024, n1 := 0xc, s1 := 0x1000 }
  | .SYN_SPUR => { base := 0x30028, n1 := 0xc, s1 := 0x1000 }
  | .SYN_BYP_STAT => { base := 0x3002c, n1 := 0xc, s1 := 0x1000 }
  | .SYN_SPURT => { base := 0x30030, n1 := 0xc, s1 := 0x1000, n2 := 3, s2 := 4 }
  | .SYN_EVT => { base := 0x3003c, n1 := 0xc, s1 := 0x1000 }
  | .SYN_CNT => { base := 0x30040, n1 := 0xc, s1 := 0x1000 }
  | .SYN_BLOAD_CTL => { base := 0x30048, n1 := 0xc, s1 := 0x1000 }
  | .SYN_BLOAD_DATA => { base := 0x3004c, n1 := 0xc, s1 := 0x1000 }
  | .SYN_BLOAD_STAT => { base := 0x30050, n1 := 0xc, s1 := 0x1000 }
  | .SYN_SLOT => { base := 0x30100, n1 := 0xc, s1 := 0x1000, n2 := 4, s2 := 0x40, n3 := 0x10, s3 := 4 }
  | .SYN_BAND => { base := 0x30800, n1 := 0xc, s1 := 0x1000, n2 := 0x80, s2 := 0x10, n3 := 4, s3 := 4 }
  | .RMP_CTL => { base := 0x48000, n1 := 0xc, s1 := 0x400 }
  | .RMP_TICK => { base := 0x48004, n1 := 0xc, s1 := 0x400 }
  | .RMP_PERIODS => { base := 0x48008, n1 := 0xc, s1 := 0x400 }
  | .RMP_ANCHOR => { base := 0x4800c, n1 := 0xc, s1 := 0x400 }
  | .RMP_LIM_NEG => { base := 0x48010, n1 := 0xc, s1 := 0x400 }
  | .RMP_LIM_POS => { base := 0x48014, n1 := 0xc, s1 := 0x400 }
  | .RMP_GLIDE => { base := 0x48018, n1 := 0xc, s1 := 0x400 }
  | .RMP_CMD => { base := 0x4801c, n1 := 0xc, s1 := 0x400 }
  | .RMP_STAT => { base := 0x48020, n1 := 0xc, s1 := 0x400 }
  | .RMP_OFS => { base := 0x48024, n1 := 0xc, s1 := 0x400 }
  | .RMP_PDONE => { base := 0x48028, n1 := 0xc, s1 := 0x400 }
  | .RMP_CNT => { base := 0x4802c, n1 := 0xc, s1 := 0x400 }
  | .RMP_CNT2 => { base := 0x48030, n1 := 0xc, s1 := 0x400 }
  | .RMP_EVT => { base := 0x48034, n1 := 0xc, s1 := 0x400 }
  | .RMP_CHUNK => { base := 0x48100, n1 := 0xc, s1 := 0x400, n2 := 0x42, s2 := 4 }
  | .OUT_CTL => { base := 0x40000, n1 := 0x30, s1 := 0x200 }
  | .OUT_DIV => { base := 0x40004, n1 := 0x30, s1 := 0x200 }
  | .OUT_DLY => { base := 0x40008, n1 := 0x30, s1 := 0x200 }
  | .OUT_FRAME => { base := 0x4000c, n1 := 0x30, s1 := 0x200 }
  | .OUT_PW => { base := 0x40010, n1 := 0x30, s1 := 0x200 }
  | .OUT_ECHO => { base := 0x40014, n1 := 0x30, s1 := 0x200 }
  | .OUT_STAT => { base := 0x40018, n1 := 0x30, s1 := 0x200 }
  | .OUT_EVT => { base := 0x4001c, n1 := 0x30, s1 := 0x200 }
  | .OUT_CNT => { base := 0x40020, n1 := 0x30, s1 := 0x200 }
  | .OUT_BANK => { base := 0x401f0, n1 := 8, s1 := 0xc00 }
  | .OUT_RSYNC => { base := 0x401f8, n1 := 4, s1 := 0x1800 }
  | .OUT_RSYNC_STAT => { base := 0x401fc, n1 := 4, s1 := 0x1800 }
  | .PRG_RCTL => { base := 0x50000, n1 := 4, s1 := 0x4000, n2 := 6, s2 := 0x400 }
  | .PRG_VID => { base := 0x50004, n1 := 4, s1 := 0x4000, n2 := 6, s2 := 0x400 }
  | .PRG_SLEW => { base := 0x50008, n1 := 4, s1 := 0x4000, n2 := 6, s2 := 0x400 }
  | .PRG_FSW => { base := 0x5000c, n1 := 4, s1 := 0x4000, n2 := 6, s2 := 0x400 }
  | .PRG_COMP => { base := 0x50010, n1 := 4, s1 := 0x4000, n2 := 6, s2 := 0x400 }
  | .PRG_LIM => { base := 0x50014, n1 := 4, s1 := 0x4000, n2 := 6, s2 := 0x400 }
  | .PRG_LL => { base := 0x50018, n1 := 4, s1 := 0x4000, n2 := 6, s2 := 0x400 }
  | .PRG_SHED => { base := 0x5001c, n1 := 4, s1 := 0x4000, n2 := 6, s2 := 0x400 }
  | .PRG_DCM => { base := 0x50020, n1 := 4, s1 := 0x4000, n2 := 6, s2 := 0x400 }
  | .PRG_PG => { base := 0x50024, n1 := 4, s1 := 0x4000, n2 := 6, s2 := 0x400 }
  | .PRG_TMON => { base := 0x50028, n1 := 4, s1 := 0x4000, n2 := 6, s2 := 0x400 }
  | .PRG_RSTAT => { base := 0x5002c, n1 := 4, s1 := 0x4000, n2 := 6, s2 := 0x400 }
  | .PRG_RMEAS => { base := 0x50030, n1 := 4, s1 := 0x4000, n2 := 6, s2 := 0x400 }
  | .PRG_RCNT => { base := 0x50034, n1 := 4, s1 := 0x4000, n2 := 6, s2 := 0x400 }
  | .PRG_REVT => { base := 0x50038, n1 := 4, s1 := 0x4000, n2 := 6, s2 := 0x400 }
  | .PRG_PH => { base := 0x51800, n1 := 4, s1 := 0x4000, n2 := 0x18, s2 := 4 }
  | .PRG_TBSEL => { base := 0x51860, n1 := 4, s1 := 0x4000 }
  | .PRG_TBSTAT => { base := 0x51864, n1 := 4, s1 := 0x4000 }
  | .PRG_SCHED => { base := 0x51868, n1 := 4, s1 := 0x4000 }
  | .PRG_SCNT => { base := 0x5186c, n1 := 4, s1 := 0x4000 }
  | .PRG_WSTAT => { base := 0x51870, n1 := 4, s1 := 0x4000 }
  | .PRG_QW_A => { base := 0x51880, n1 := 4, s1 := 0x4000, n2 := 8, s2 := 8 }
  | .PRG_QW_B => { base := 0x51884, n1 := 4, s1 := 0x4000, n2 := 8, s2 := 8 }
  | .PRG_TLM_CTL => { base := 0x518c0, n1 := 4, s1 := 0x4000 }
  | .PRG_TLM_PER => { base := 0x518c4, n1 := 4, s1 := 0x4000 }
  | .PRG_TLM_SEQ => { base := 0x518c8, n1 := 4, s1 := 0x4000 }
  | .PRG_TLM_STAT => { base := 0x518cc, n1 := 4, s1 := 0x4000 }
  | .PRG_SCAN => { base := 0x51900, n1 := 4, s1 := 0x4000, n2 := 0x76, s2 := 4 }
  | .PRG_TLM_BUF => { base := 0x51b00, n1 := 4, s1 := 0x4000, n2 := 0x40, s2 := 4 }
  | .PRG_EVT => { base := 0x51c00, n1 := 4, s1 := 0x4000 }
  | .SEQ_CMD => { base := 0x60000 }
  | .SEQ_CFG => { base := 0x60004 }
  | .SEQ_STAT => { base := 0x60008 }
  | .SEQ_LOAD_CTL => { base := 0x6000c }
  | .SEQ_LOAD_DATA => { base := 0x60010 }
  | .SEQ_LOAD_STAT => { base := 0x60014 }
  | .SEQ_EVT => { base := 0x60018 }
  | .SEQ_CNT => { base := 0x6001c }
  | .SEQ_DEP_A => { base := 0x60040, n1 := 0x10, s1 := 8 }
  | .SEQ_DEP_B => { base := 0x60044, n1 := 0x10, s1 := 8 }
  | .SEQ_NSTEP => { base := 0x60100, n1 := 8, s1 := 4 }
  | .SEQ_STEP => { base := 0x61000, n1 := 8, s1 := 0x300, n2 := 0x40, s2 := 0xc, n3 := 3, s3 := 4 }
  | .FLT_OV => { base := 0x64000, n1 := 0x18, s1 := 0x40 }
  | .FLT_UV => { base := 0x64004, n1 := 0x18, s1 := 0x40 }
  | .FLT_OC => { base := 0x64008, n1 := 0x18, s1 := 0x40 }
  | .FLT_OT => { base := 0x6400c, n1 := 0x18, s1 := 0x40 }
  | .FLT_RETRY => { base := 0x64010, n1 := 0x18, s1 := 0x40 }
  | .FLT_RSTAT => { base := 0x64014, n1 := 0x18, s1 := 0x40 }
  | .FLT_FNMAP => { base := 0x64800 }
  | .FLT_PGMAP => { base := 0x64804 }
  | .FLT_PKG => { base := 0x64808 }
  | .PRG_FM_GRP => { base := 0x53800, n1 := 4, s1 := 0x4000, n2 := 6, s2 := 4 }
  | .PRG_FM_STAT => { base := 0x53818, n1 := 4, s1 := 0x4000 }
  | .HUP_CTL => { base := 0x68000 }
  | .HUP_CHG => { base := 0x68004 }
  | .HUP_VIN => { base := 0x68008 }
  | .HUP_STORE => { base := 0x6800c }
  | .HUP_STAT => { base := 0x68010 }
  | .HUP_EVT => { base := 0x68014 }
  | .HK_BUCK => { base := 0x6c000, n1 := 4, s1 := 4 }
  | .HK_LDO => { base := 0x6c010, n1 := 4, s1 := 4 }
  | .HK_STAT => { base := 0x6c020 }
  | .HK_FLT => { base := 0x6c024 }
  | .HK_TD => { base := 0x6c040, n1 := 8, s1 := 8 }
  | .HK_TDVAL => { base := 0x6c044, n1 := 8, s1 := 8 }
  | .LNK_CTL => { base := 0x70000, n1 := 4, s1 := 0x2000 }
  | .LNK_STAT => { base := 0x70004, n1 := 4, s1 := 0x2000 }
  | .LNK_FQ => { base := 0x70008, n1 := 4, s1 := 0x2000 }
  | .LNK_FOFS => { base := 0x7000c, n1 := 4, s1 := 0x2000 }
  | .LNK_ASYM => { base := 0x70010, n1 := 4, s1 := 0x2000 }
  | .LNK_MARK => { base := 0x70014, n1 := 4, s1 := 0x2000 }
  | .LNK_DLY => { base := 0x70018, n1 := 4, s1 := 0x2000 }
  | .LNK_THETA => { base := 0x7001c, n1 := 4, s1 := 0x2000 }
  | .LNK_PEER_LO => { base := 0x70020, n1 := 4, s1 := 0x2000 }
  | .LNK_PEER_HI => { base := 0x70024, n1 := 4, s1 := 0x2000 }
  | .LNK_OFR_LAT => { base := 0x70028, n1 := 4, s1 := 0x2000 }
  | .LNK_OFR_PH => { base := 0x7002c, n1 := 4, s1 := 0x2000 }
  | .LNK_CNT => { base := 0x70030, n1 := 4, s1 := 0x2000 }
  | .LNK_EVT => { base := 0x70034, n1 := 4, s1 := 0x2000 }
  | .LNK_RXQ => { base := 0x70038, n1 := 4, s1 := 0x2000 }
  | .LNK_SYS_CTL => { base := 0x71000 }
  | .LNK_PRIO => { base := 0x71004 }
  | .LNK_BUDGET => { base := 0x71008 }
  | .LNK_ANN => { base := 0x7100c }
  | .LNK_SRC_ERR => { base := 0x71014 }
  | .LNK_EPOCH => { base := 0x71010 }
  | .LNK_SYS_STAT => { base := 0x71018 }
  | .LNK_ACC_LAT => { base := 0x7101c }
  | .LNK_ACC_PH => { base := 0x71020 }
  | .LNK_ID_LO => { base := 0x71024 }
  | .LNK_ID_HI => { base := 0x71028 }
  | .LNK_GM_LO => { base := 0x7102c }
  | .LNK_GM_HI => { base := 0x71030 }
  | .LNK_GM_INFO => { base := 0x71034 }
  | .LNK_TOD_LO => { base := 0x71038 }
  | .LNK_TOD_HI => { base := 0x7103c }
  | .LNK_TOD_SET_LO => { base := 0x71040 }
  | .LNK_TOD_SET_HI => { base := 0x71044 }
  | .LNK_SIGNAL => { base := 0x71048 }
  | .LNK_EVFWD => { base := 0x7104c }
  | .LNK_RMT_CTL => { base := 0x71050 }
  | .LNK_RMT_ADDR => { base := 0x71054 }
  | .LNK_RMT_DST_LO => { base := 0x71058 }
  | .LNK_RMT_DST_HI => { base := 0x7105c }
  | .LNK_RMT_TMO => { base := 0x71064 }
  | .LNK_RMT_STAT => { base := 0x71060 }
  | .LNK_RMT_DATA => { base := 0x71080, n1 := 0x10, s1 := 4 }
  | .LNK_SYS_EVT => { base := 0x71068 }
  | .LNK_SYS_CNT => { base := 0x7106c }
  | .HOST_MODE => { base := 0x1000 }
  | .HOST_STAT => { base := 0x1004 }
  | .HOST_WAKE => { base := 0x1008 }
  | .HOST_RESYNC => { base := 0x100c }
  | .HOST_RS_STAT => { base := 0x1010 }
  | .HOST_POLL => { base := 0x1014 }
  | .HOST_SUMMARY_ADDR_LO => { base := 0x1018 }
  | .HOST_SUMMARY_ADDR_HI => { base := 0x101c }
  | .HOST_DB_ADDR_LO => { base := 0x1020 }
  | .HOST_DB_ADDR_HI => { base := 0x1024 }
  | .HOST_XLAT => { base := 0x1028 }
  | .HOST_RING_LO => { base := 0x1040, n1 := 3, s1 := 0x10 }
  | .HOST_RING_HI => { base := 0x1044, n1 := 3, s1 := 0x10 }
  | .HOST_RING_CFG => { base := 0x1048, n1 := 3, s1 := 0x10 }
  | .HOST_RING_IDX => { base := 0x104c, n1 := 3, s1 := 0x10 }
  | .MGT_CFG => { base := 0x2000 }
  | .MGT_PMB_CFG => { base := 0x2004 }
  | .MGT_PMB_STAT => { base := 0x2008 }
  | .MGT_I3C_CFG => { base := 0x2010 }
  | .MGT_I3C_STAT => { base := 0x2014 }
  | .MGT_SPI_CFG => { base := 0x2020 }
  | .MGT_SPI_CMD => { base := 0x2024 }
  | .MGT_SPI_ADDR => { base := 0x2028 }
  | .MGT_SPI_STAT => { base := 0x202c }
  | .MGT_SPI_BUF => { base := 0x2100, n1 := 0x40, s1 := 4 }
  | .MGT_EV => { base := 0x2300 }
  | .MGT_EV_DATA => { base := 0x2320, n1 := 8, s1 := 4 }
  | .MGT_MBX => { base := 0x2400, n1 := 0x10, s1 := 4 }
  | .MGT_MBX_CTL => { base := 0x2440 }
  | .MGT_MBX_RES => { base := 0x2444 }
  | .MGT_EVT => { base := 0x2480 }
  | .MGT_MBX_BUF => { base := 0x3000, n1 := 0x400, s1 := 4 }
  | .DMA_CCTL => { base := 0x80000, n1 := 0x20, s1 := 0x100 }
  | .DMA_RBASE_LO => { base := 0x80004, n1 := 0x20, s1 := 0x100 }
  | .DMA_RBASE_HI => { base := 0x80008, n1 := 0x20, s1 := 0x100 }
  | .DMA_DB => { base := 0x8000c, n1 := 0x20, s1 := 0x100 }
  | .DMA_CMD => { base := 0x80010, n1 := 0x20, s1 := 0x100 }
  | .DMA_STAT => { base := 0x80014, n1 := 0x20, s1 := 0x100 }
  | .DMA_RESID => { base := 0x80018, n1 := 0x20, s1 := 0x100 }
  | .DMA_NEXT_LO => { base := 0x8001c, n1 := 0x20, s1 := 0x100 }
  | .DMA_NEXT_HI => { base := 0x80020, n1 := 0x20, s1 := 0x100 }
  | .DMA_REQCNT => { base := 0x80024, n1 := 0x20, s1 := 0x100 }
  | .DMA_REQSEQ => { base := 0x80028, n1 := 0x20, s1 := 0x100 }
  | .DMA_EVT => { base := 0x8002c, n1 := 0x20, s1 := 0x100 }
  | .DMA_FCNT => { base := 0x80030, n1 := 0x20, s1 := 0x100 }
  | .DMA_ACTIVE => { base := 0x82000 }
  | .DMA_REQ_PEND => { base := 0x82004 }
  | .DMA_REQ_BIND => { base := 0x82008 }
  | .DMA_EVREQ => { base := 0x8200c }
  | .DATU_INV => { base := 0x88000 }
  | .DATU_INV_ADDR_LO => { base := 0x88004 }
  | .DATU_INV_ADDR_HI => { base := 0x88008 }
  | .DATU_STAT => { base := 0x8800c }
  | .DATU_CNT => { base := 0x88010 }
  | .DATU_CCTL => { base := 0x88100, n1 := 0x10, s1 := 0x20 }
  | .DATU_ROOT_LO => { base := 0x88104, n1 := 0x10, s1 := 0x20 }
  | .DATU_ROOT_HI => { base := 0x88108, n1 := 0x10, s1 := 0x20 }
  | .DATU_FADDR_LO => { base := 0x8810c, n1 := 0x10, s1 := 0x20 }
  | .DATU_FADDR_HI => { base := 0x88110, n1 := 0x10, s1 := 0x20 }
  | .DATU_FINFO => { base := 0x88114, n1 := 0x10, s1 := 0x20 }
  | .ENG_CTL => { base := 0x90000, n1 := 0xc, s1 := 0x400 }
  | .ENG_STAT => { base := 0x90004, n1 := 0xc, s1 := 0x400 }
  | .ENG_HALT_ADDR => { base := 0x90008, n1 := 0xc, s1 := 0x400 }
  | .ENG_CNT => { base := 0x9000c, n1 := 0xc, s1 := 0x400 }
  | .ENG_ROM => { base := 0x90010, n1 := 0xc, s1 := 0x400 }
  | .ENG_IMG_STAT => { base := 0x90100, n1 := 3, s1 := 0x1000 }
  | .ENG_IMG_VER => { base := 0x90104, n1 := 3, s1 := 0x1000 }
  | .ENG_IMG_ABI => { base := 0x90108, n1 := 3, s1 := 0x1000 }
  | .ENG_STG_VER => { base := 0x9010c, n1 := 3, s1 := 0x1000 }
  | .ENG_HEALTH => { base := 0x90110, n1 := 3, s1 := 0x1000 }
  | .ENG_IMG_EVT => { base := 0x90114, n1 := 3, s1 := 0x1000 }
  | .ENG_SEL => { base := 0x90118, n1 := 3, s1 := 0x1000 }
  | .ENG_MIX => { base := 0x90180 }
  | .PIN_CFG => { base := 0x8000, n1 := 0x40, s1 := 4 }
  | .PIN_OWN => { base := 0x8100, n1 := 0x40, s1 := 4 }
  | .GPIO_MOUT => { base := 0x8300, n1 := 4, s1 := 4 }
  | .GPIO_MOE => { base := 0x8310, n1 := 4, s1 := 4 }
  | .GPIO_IN => { base := 0x8320, n1 := 4, s1 := 4 }
  | .GPIO_IRQ => { base := 0x8330, n1 := 4, s1 := 4 }
  | .PIN_PEN => { base := 0x8200 }
  | .GPIO_CAP_CFG => { base := 0x8400 }
  | .GPIO_CAP_RATE => { base := 0x8404 }
  | .GPIO_CAP_STAT => { base := 0x8408 }
  | .PWMX_PER => { base := 0x8500, n1 := 4, s1 := 8 }
  | .PWMX_DUTY => { base := 0x8504, n1 := 4, s1 := 8 }
  | .PIN_FIN => { base := 0x8600, n1 := 4, s1 := 4 }
  | .PIN_FIN_STAT => { base := 0x8610 }
  | .PIN_IRQN => { base := 0x8700 }
  | .PIN_EVT => { base := 0x8704 }
  | .PIN_CNT => { base := 0x8708 }
  | .OTP_ARM => { base := 0x6000 }
  | .OTP_BURN_ADDR => { base := 0x6004 }
  | .OTP_BURN_DATA => { base := 0x6008 }
  | .OTP_CMD => { base := 0x600c }
  | .OTP_STAT => { base := 0x6010 }
  | .OTP_REGION => { base := 0x6014 }
  | .OTP_CNT => { base := 0x6018 }
  | .OTP_FAIL => { base := 0x6020 }
  | .OTP_FAIL_RD => { base := 0x6024, n1 := 3, s1 := 4 }
  | .OTP_FAIL_CHK => { base := 0x6030 }
  | .OTP_PROF => { base := 0x6040 }
  | .OTP_SH => { base := 0x6800, n1 := 0x200, s1 := 4 }
  | .OTP_OVR => { base := 0x7000, n1 := 0x10, s1 := 4 }
  | .WDG_CTL => { base := 0x5000 }
  | .WDG_TICK => { base := 0x5004 }
  | .WDG_KICK => { base := 0x5008 }
  | .WDG_FORCE => { base := 0x500c }
  | .WDG_STAT => { base := 0x5010 }
  | .WDG_LASTFAIL => { base := 0x5014 }
  | .WDG_SLOT => { base := 0x5100, n1 := 0x10, s1 := 8 }
  | .WDG_WIN => { base := 0x5104, n1 := 0x10, s1 := 8 }
  | .WDG_SSTAT => { base := 0x5180, n1 := 0x10, s1 := 4 }
  | .GLB_ID => { base := 0 }
  | .GLB_FEATGEN => { base := 4 }
  | .GLB_STATE => { base := 8 }
  | .GLB_CMD => { base := 0xc }
  | .GLB_RESET => { base := 0x10 }
  | .GLB_IGNORED_CNT => { base := 0x14 }
  | .GLB_IGNORED_LAST_A => { base := 0x18 }
  | .GLB_IGNORED_LAST_S => { base := 0x1c }
  | .GLB_STBY_CTL => { base := 0x20 }
  | .GLB_STBY_OUT_LO => { base := 0x24 }
  | .GLB_STBY_OUT_HI => { base := 0x28 }
  | .GLB_STBY_RAIL => { base := 0x2c }
  | .GLB_DIE => { base := 0x30 }
  | .GLB_EVT => { base := 0x34 }
  | .GLB_EVCNT => { base := 0x38 }
  | .GLB_TIMER_LO => { base := 0x3c }
  | .GLB_TIMER_HI => { base := 0x40 }
  | .KLN_STAT => { base := 0x4000 }
  | .KLN_TIME => { base := 0x4004 }
  | .KLN_WDG_CNT => { base := 0x4008 }
  | .KLN_HIST => { base := 0x4010, n1 := 8, s1 := 4 }
  | .KLN_SLOT => { base := 0x4030 }
  | .KLN_HO_LO => { base := 0x4040, n1 := 4, s1 := 0x10 }
  | .KLN_HO_HI => { base := 0x4044, n1 := 4, s1 := 0x10 }
  | .KLN_HO_SEC => { base := 0x4048, n1 := 4, s1 := 0x10 }
  | .KLN_WAKE => { base := 0x4080 }
  | .KLN_SCR => { base := 0x4400, n1 := 0x100, s1 := 4 }
  | .MSIX_ADDR_LO => { base := 0x1800, n1 := 0x40, s1 := 0x10 }
  | .MSIX_ADDR_HI => { base := 0x1804, n1 := 0x40, s1 := 0x10 }
  | .MSIX_DATA => { base := 0x1808, n1 := 0x40, s1 := 0x10 }
  | .MSIX_VCTL => { base := 0x180c, n1 := 0x40, s1 := 0x10 }
  | .MSIX_PBA => { base := 0x1c00, n1 := 2, s1 := 4 }

/-- The BAR0 offset of a register (R8). -/
def Reg.off (r : Reg) : Nat :=
  let row := r.name.row
  row.base + row.s1 * r.i + row.s2 * r.j + row.s3 * r.k

/-- A register that exists: its indices lie within its array. -/
def Reg.real (r : Reg) : Bool :=
  let row := r.name.row
  r.i < row.n1 && r.j < row.n2 && r.k < row.n3

/-- The value of a register at reset, where the tables give one; log entries 1 and 2 name the rest. -/
def Reg.reset (r : Reg) : BitVec 32 :=
  match r.name with
  | .PLZ_LO_HZ => 0x17d7840
  | .PLZ_PRIO => if r.j = 2 then 0xFFFF else 0xFFFFFFFF
  | .MON_FNOM_INT => 0x17d7840
  | .MON_REJECT => 0x4b0
  | .MON_ACCEPT => 0x384
  | .MON_FGATE => 7
  | .MON_QUAL => 0x64
  | .MON_PJ_THR => 0x3e8
  | .TRG_CTL => 4
  | .TRG_BW => 0x120c
  | .TRG_PULLIN => 0x1f4
  | .TRG_LOCK => 0x64000a
  | .TRG_HIST => 0x1003e8
  | .TRG_HOWIN => 0x100
  | .TRG_RELOCK => 0x64
  | .TRG_STAT => 0x4000
  | .TRG_WARM => 0xe10
  | .SYN_CTL => 0x1a
  | .SYN_N_INT => 0x50
  | .SYN_N_DEN => 1
  | .SYN_LD => 0x400400c8
  | .SYN_RET => 0xa0064
  | .SYN_BYP => 0x301800
  | .SYN_TB => if r.i % 3 = 0 then 0x1901 else 0x1900
  | .SYN_SPUR => 0xa
  | .RMP_CTL => 0x800
  | .RMP_TICK => 0x18
  | .RMP_LIM_NEG => 0x147ae148
  | .RMP_GLIDE => 0x100000
  | .OUT_CTL => 0x1000
  | .OUT_DIV => 0x63
  | .OUT_PW => 1
  | .OUT_BANK => 4
  | .PRG_RCTL => 0xc
  | .PRG_VID => 0x1e0
  | .PRG_SLEW => 0xa0428
  | .PRG_FSW => 0x1900
  | .PRG_COMP => 0x20010100
  | .PRG_LIM => 0x14000a0
  | .PRG_LL => 0x103200
  | .PRG_SHED => 0xa401400
  | .PRG_DCM => 0x506010
  | .PRG_PG => 0x641e
  | .PRG_TMON => 0x320258
  | .PRG_PH => 7
  | .PRG_TBSEL => BitVec.ofNat 32 (r.i % 4)
  | .PRG_SCHED => 0x1e04
  | .PRG_QW_B => 0x10000
  | .PRG_TLM_CTL => 4
  | .PRG_TLM_PER => 0x3e8
  | .PRG_SCAN => 3
  | .SEQ_CFG => 0x70
  | .FLT_OV => 0x100432
  | .FLT_UV => 0x110432
  | .FLT_OC => 0x50850
  | .FLT_OT => 0x57d
  | .FLT_RETRY => 0x6400
  | .FLT_FNMAP => 0x12f
  | .HUP_CTL => 0x3c00
  | .HUP_CHG => 0xa321cb0
  | .HUP_VIN => 0x65f4
  | .HUP_STORE => 0x28a044c
  | .HK_BUCK => if r.i = 0 then 0x33 else 0xF0
  | .HK_LDO => 0x50
  | .HK_TD => 0x690000
  | .LNK_CTL => 0x400
  | .LNK_FQ => 0x6407d0
  | .LNK_MARK => 0x34
  | .LNK_SYS_CTL => 8
  | .LNK_PRIO => 0x8080
  | .LNK_BUDGET => 0x3e809c4
  | .LNK_ANN => 0xa
  | .LNK_RMT_TMO => 0x3e8
  | .HOST_POLL => 1
  | .HOST_XLAT => 0x10
  | .HOST_RING_CFG => 0x60
  | .MGT_PMB_CFG => 0x1c0
  | .MGT_I3C_CFG => 0xd0
  | .MGT_SPI_CFG => 7
  | .DMA_CCTL => 0x6001006
  | .ENG_STAT => 2
  | .PIN_CFG => if r.i < 8 ∨ (24 ≤ r.i ∧ r.i < 29) then 0x2a10 else 0x2a00
  | .PIN_OWN => 0xc
  | .PIN_PEN => 3
  | .GPIO_CAP_CFG => 0x100
  | .PWMX_PER => 0xffff
  | .WDG_TICK => 0xffff
  | .WDG_SLOT => 0x20
  | .WDG_WIN => 0x10000
  | .GLB_ID => 0x4896001
  | .GLB_FEATGEN => 2
  | .GLB_STATE => 1
  | .GLB_RESET => 0x10
  | .MSIX_VCTL => 1
  | _ => 0

/-- The named fields of a register; every other bit is reserved (R12). -/
def Reg.fields (r : Reg) : List FieldSpec :=
  match r.name with
  | .PLZ_LANE_CAL => [⟨0, 8, .ro, .sh, []⟩, ⟨8, 8, .ro, .sh, []⟩, ⟨31, 1, .ro, .sh, []⟩]
  | .PLZ_LO_HZ => [⟨0, 27, .rw, .sh, [(0x17d7840, 0x7735940)]⟩]
  | .PLZ_SEL_CTL => [⟨0, 2, .rw, .sh, [(0, 2)]⟩, ⟨2, 1, .rw, .sh, []⟩, ⟨8, 5, .rw, .sh, [(0, 0x13)]⟩]
  | .PLZ_CAND => [⟨0, 20, .rw, .sh, []⟩]
  | .PLZ_PRIO => if r.j = 2 then [⟨0, 4, .rw, .sh, []⟩, ⟨4, 4, .rw, .sh, []⟩, ⟨8, 4, .rw, .sh, []⟩, ⟨12, 4, .rw, .sh, []⟩] else [⟨0, 4, .rw, .sh, []⟩, ⟨4, 4, .rw, .sh, []⟩, ⟨8, 4, .rw, .sh, []⟩, ⟨12, 4, .rw, .sh, []⟩, ⟨16, 4, .rw, .sh, []⟩, ⟨20, 4, .rw, .sh, []⟩, ⟨24, 4, .rw, .sh, []⟩, ⟨28, 4, .rw, .sh, []⟩]
  | .PLZ_SEL_STAT => [⟨0, 5, .ro, .sh, []⟩, ⟨7, 1, .ro, .sh, []⟩, ⟨8, 5, .ro, .sh, []⟩, ⟨15, 1, .ro, .sh, []⟩, ⟨16, 16, .ro, .sh, []⟩]
  | .PLZ_SEL_SYS => [⟨0, 5, .ro, .sh, []⟩, ⟨7, 1, .ro, .sh, []⟩]
  | .MON_CFG => [⟨0, 1, .rw, .sh, []⟩, ⟨1, 2, .rw, .sh, [(0, 2)]⟩, ⟨3, 1, .rw, .sh, []⟩, ⟨4, 1, .rw, .sh, []⟩, ⟨5, 2, .rw, .sh, [(0, 2)]⟩, ⟨7, 1, .rw, .sh, []⟩, ⟨8, 1, .rw, .sh, []⟩]
  | .MON_FNOM_INT => [⟨0, 32, .rw, .sh, []⟩]
  | .MON_FNOM_FRAC => [⟨0, 16, .rw, .sh, []⟩]
  | .MON_REJECT => [⟨0, 20, .rw, .sh, [(1, 0xf4240)]⟩]
  | .MON_ACCEPT => [⟨0, 20, .rw, .sh, [(1, 0xf4240)]⟩]
  | .MON_FGATE => [⟨0, 4, .rw, .sh, []⟩]
  | .MON_QUAL => [⟨0, 14, .rw, .sh, [(1, 0x2710)]⟩]
  | .MON_PJ_THR => [⟨0, 20, .rw, .sh, [(0, 0xf4240)]⟩]
  | .MON_STAT => [⟨0, 2, .ro, .sh, []⟩, ⟨2, 1, .ro, .sh, []⟩, ⟨3, 1, .ro, .sh, []⟩, ⟨4, 1, .ro, .sh, []⟩, ⟨5, 1, .ro, .sh, []⟩, ⟨6, 1, .ro, .sh, []⟩]
  | .MON_FOFS => [⟨0, 32, .ro, .sh, []⟩]
  | .MON_QREM => [⟨0, 14, .ro, .sh, []⟩]
  | .MON_EVT => [⟨0, 1, .w1c, .sh, []⟩, ⟨1, 1, .w1c, .sh, []⟩, ⟨2, 1, .w1c, .sh, []⟩, ⟨3, 1, .w1c, .sh, []⟩]
  | .MON_CNT => [⟨0, 16, .ro, .sh, []⟩, ⟨16, 16, .ro, .sh, []⟩]
  | .MON_PJ_LAST => [⟨0, 32, .ro, .sh, []⟩]
  | .TRG_CTL => [⟨0, 1, .rw, .sh, []⟩, ⟨1, 3, .rw, .sh, [(0, 4)]⟩, ⟨4, 1, .rw, .sh, []⟩, ⟨5, 1, .rw, .sh, []⟩, ⟨6, 1, .rw, .sh, []⟩, ⟨7, 1, .rw, .sh, []⟩]
  | .TRG_BW => [⟨0, 5, .rw, .sh, [(0, 0x18)]⟩, ⟨8, 5, .rw, .sh, [(0, 0x18)]⟩]
  | .TRG_PULLIN => [⟨0, 17, .rw, .sh, [(1, 0x186a0)]⟩]
  | .TRG_LOCK => [⟨0, 16, .rw, .sh, [(1, 0xffff)]⟩, ⟨16, 16, .rw, .sh, [(1, 0xffff)]⟩]
  | .TRG_HIST => [⟨0, 14, .rw, .sh, [(1, 0x3e80)]⟩, ⟨16, 8, .rw, .sh, [(1, 0xff)]⟩]
  | .TRG_HOWIN => [⟨0, 10, .rw, .sh, [(1, 0x300)]⟩]
  | .TRG_RELOCK => [⟨0, 10, .rw, .sh, [(1, 0x3e8)]⟩]
  | .TRG_STAT => [⟨0, 3, .ro, .sh, []⟩, ⟨3, 1, .ro, .sh, []⟩, ⟨4, 1, .ro, .sh, []⟩, ⟨5, 1, .ro, .sh, []⟩, ⟨6, 1, .ro, .sh, []⟩, ⟨7, 1, .ro, .sh, []⟩, ⟨8, 5, .ro, .sh, []⟩, ⟨13, 2, .ro, .sh, []⟩, ⟨16, 16, .ro, .sh, []⟩]
  | .TRG_CV_LO => [⟨0, 32, .ro, .sh, []⟩]
  | .TRG_CV_HI => [⟨0, 16, .ro, .sh, []⟩]
  | .TRG_HO_VAL_LO => [⟨0, 32, .ro, .sh, []⟩]
  | .TRG_HO_VAL_HI => [⟨0, 16, .ro, .sh, []⟩, ⟨31, 1, .ro, .sh, []⟩]
  | .TRG_HO_INFO => [⟨0, 10, .ro, .sh, []⟩, ⟨16, 12, .ro, .sh, []⟩]
  | .TRG_BO_LO => [⟨0, 32, .ro, .sh, []⟩]
  | .TRG_BO_HI => [⟨0, 16, .ro, .sh, []⟩]
  | .TRG_PHERR => [⟨0, 32, .ro, .sh, []⟩]
  | .TRG_LO_STB => [⟨0, 32, .ro, .sh, []⟩]
  | .TRG_HIST_PTR => [⟨0, 10, .ro, .sh, []⟩, ⟨16, 11, .ro, .sh, []⟩]
  | .TRG_TC_SRC => [⟨0, 4, .rw, .sh, [(0, 8)]⟩, ⟨16, 12, .rw, .sh, []⟩]
  | .TRG_TC_C => [⟨0, 32, .rw, .sh, []⟩]
  | .TRG_TC_TERM_LO => [⟨0, 32, .rw, .sh, []⟩]
  | .TRG_TC_TERM_HI => [⟨0, 16, .rw, .sh, []⟩]
  | .TRG_WARM => [⟨0, 16, .rw, .sh, [(1, 0xffff)]⟩]
  | .TRG_EVT => [⟨0, 1, .w1c, .sh, []⟩, ⟨1, 1, .w1c, .sh, []⟩, ⟨2, 1, .w1c, .sh, []⟩, ⟨3, 1, .w1c, .sh, []⟩, ⟨4, 1, .w1c, .sh, []⟩, ⟨5, 1, .w1c, .sh, []⟩, ⟨6, 1, .w1c, .sh, []⟩, ⟨7, 1, .w1c, .sh, []⟩, ⟨8, 1, .w1c, .sh, []⟩]
  | .TRG_DLY => [⟨0, 16, .ro, .sh, []⟩]
  | .TRG_HIST_DMA => [⟨0, 1, .rw, .sh, []⟩]
  | .TRG_HENT_LO => [⟨0, 32, .ro, .sh, []⟩]
  | .TRG_HENT_HI => [⟨0, 16, .ro, .sh, []⟩, ⟨16, 12, .ro, .sh, []⟩, ⟨31, 1, .ro, .sh, []⟩]
  | .SYN_CTL => [⟨0, 1, .rw, .sh, []⟩, ⟨1, 1, .rw, .sh, []⟩, ⟨3, 3, .rw, .sh, [(0, 5)]⟩]
  | .SYN_N_INT => [⟨0, 9, .rw, .sh, [(0xe, 0x120)]⟩, ⟨9, 2, .rw, .sh, []⟩]
  | .SYN_N_NUM => [⟨0, 32, .rw, .sh, []⟩]
  | .SYN_N_DEN => [⟨0, 32, .rw, .sh, [(1, 0xffffffff)]⟩]
  | .SYN_APPLY => [⟨0, 1, .wo, .dash, []⟩]
  | .SYN_STAT => [⟨0, 3, .ro, .sh, []⟩, ⟨3, 1, .ro, .sh, []⟩, ⟨4, 1, .ro, .sh, []⟩, ⟨5, 1, .ro, .sh, []⟩, ⟨6, 1, .ro, .sh, []⟩, ⟨7, 1, .ro, .sh, []⟩, ⟨8, 2, .ro, .sh, []⟩, ⟨10, 2, .ro, .sh, []⟩, ⟨12, 8, .ro, .sh, []⟩, ⟨20, 8, .ro, .sh, []⟩, ⟨28, 1, .ro, .sh, []⟩, ⟨29, 1, .ro, .sh, []⟩]
  | .SYN_LD => [⟨0, 10, .rw, .sh, [(1, 0x3ff)]⟩, ⟨16, 8, .rw, .sh, [(1, 0xff)]⟩, ⟨24, 8, .rw, .sh, [(1, 0xff)]⟩]
  | .SYN_RET => [⟨0, 16, .rw, .sh, [(1, 0xffff)]⟩, ⟨16, 16, .rw, .sh, [(1, 0xffff)]⟩]
  | .SYN_BYP => [⟨0, 2, .rw, .sh, [(0, 2)]⟩, ⟨8, 8, .rw, .sh, []⟩, ⟨16, 4, .rw, .sh, []⟩, ⟨20, 6, .rw, .sh, []⟩]
  | .SYN_TB => [⟨0, 1, .rw, .sh, []⟩, ⟨8, 6, .rw, .sh, [(0x12, 0x24)]⟩]
  | .SYN_SPUR => [⟨0, 8, .rw, .sh, [(1, 0xff)]⟩]
  | .SYN_BYP_STAT => [⟨0, 4, .ro, .sh, []⟩, ⟨4, 4, .ro, .sh, []⟩, ⟨8, 4, .ro, .sh, []⟩, ⟨12, 4, .ro, .sh, []⟩, ⟨16, 4, .ro, .sh, []⟩]
  | .SYN_SPURT => [⟨0, 24, .ro, .sh, []⟩, ⟨31, 1, .ro, .sh, []⟩]
  | .SYN_EVT => [⟨0, 1, .w1c, .sh, []⟩, ⟨1, 1, .w1c, .sh, []⟩, ⟨2, 1, .w1c, .sh, []⟩, ⟨3, 1, .w1c, .sh, []⟩, ⟨4, 1, .w1c, .sh, []⟩, ⟨5, 1, .w1c, .sh, []⟩, ⟨6, 1, .w1c, .sh, []⟩, ⟨7, 1, .w1c, .sh, []⟩]
  | .SYN_CNT => [⟨0, 16, .ro, .sh, []⟩, ⟨16, 16, .ro, .sh, []⟩]
  | .SYN_BLOAD_CTL => [⟨0, 1, .wo, .dash, []⟩]
  | .SYN_BLOAD_DATA => [⟨0, 32, .wo, .dash, []⟩]
  | .SYN_BLOAD_STAT => [⟨0, 10, .ro, .sh, []⟩, ⟨10, 2, .ro, .sh, []⟩]
  | .SYN_SLOT => [⟨0, 8, .ro, .sh, []⟩, ⟨8, 8, .ro, .sh, []⟩, ⟨16, 7, .ro, .sh, []⟩, ⟨31, 1, .ro, .sh, []⟩]
  | .SYN_BAND => [⟨0, 32, .ro, .sh, []⟩]
  | .RMP_CTL => [⟨0, 1, .rw, .sh, []⟩, ⟨1, 1, .rw, .sh, []⟩, ⟨2, 1, .rw, .sh, []⟩, ⟨8, 4, .rw, .sh, [(1, 0xf)]⟩]
  | .RMP_TICK => [⟨0, 16, .rw, .sh, []⟩]
  | .RMP_PERIODS => [⟨0, 16, .rw, .sh, []⟩]
  | .RMP_ANCHOR => [⟨0, 32, .rw, .sh, []⟩]
  | .RMP_LIM_NEG => [⟨0, 30, .rw, .sh, [(0, 0x28f5c28f)]⟩]
  | .RMP_LIM_POS => [⟨0, 30, .rw, .sh, [(0, 0x28f5c28f)]⟩]
  | .RMP_GLIDE => [⟨0, 31, .rw, .sh, [(1, 0x7fffffff)]⟩]
  | .RMP_CMD => [⟨0, 1, .wo, .dash, []⟩, ⟨1, 1, .wo, .dash, []⟩, ⟨2, 1, .wo, .dash, []⟩]
  | .RMP_STAT => [⟨0, 2, .ro, .sh, []⟩, ⟨2, 1, .ro, .sh, []⟩, ⟨3, 1, .ro, .sh, []⟩, ⟨4, 1, .ro, .sh, []⟩, ⟨5, 1, .ro, .sh, []⟩, ⟨6, 8, .ro, .sh, []⟩, ⟨14, 5, .ro, .sh, []⟩]
  | .RMP_OFS => [⟨0, 32, .ro, .sh, []⟩]
  | .RMP_PDONE => [⟨0, 16, .ro, .sh, []⟩, ⟨16, 16, .ro, .sh, []⟩]
  | .RMP_CNT => [⟨0, 16, .ro, .sh, []⟩, ⟨16, 16, .ro, .sh, []⟩]
  | .RMP_CNT2 => [⟨0, 16, .ro, .sh, []⟩, ⟨16, 16, .ro, .sh, []⟩]
  | .RMP_EVT => [⟨0, 7, .w1c, .sh, []⟩, ⟨7, 1, .w1c, .sh, []⟩]
  | .RMP_CHUNK => [⟨0, 32, .wo, .dash, []⟩]
  | .OUT_CTL => [⟨0, 1, .rw, .sh, []⟩, ⟨1, 3, .rw, .sh, [(0, 5)]⟩, ⟨4, 2, .rw, .sh, [(0, 2)]⟩, ⟨6, 2, .rw, .sh, [(0, 2)]⟩, ⟨8, 2, .rw, .sh, []⟩, ⟨10, 2, .rw, .sh, [(0, 2)]⟩, ⟨12, 1, .rw, .sh, []⟩, ⟨13, 2, .rw, .sh, [(0, 1)]⟩, ⟨15, 2, .rw, .sh, [(0, 2)]⟩]
  | .OUT_DIV => [⟨0, 24, .rw, .sh, []⟩]
  | .OUT_DLY => [⟨0, 8, .rw, .sh, []⟩, ⟨16, 16, .rw, .sh, []⟩]
  | .OUT_FRAME => [⟨0, 32, .rw, .sh, []⟩]
  | .OUT_PW => [⟨0, 24, .rw, .sh, [(1, 0xffffff)]⟩]
  | .OUT_ECHO => [⟨0, 3, .rw, .sh, []⟩, ⟨3, 1, .rw, .sh, []⟩]
  | .OUT_STAT => [⟨0, 3, .ro, .sh, []⟩, ⟨3, 2, .ro, .sh, []⟩, ⟨5, 2, .ro, .sh, []⟩, ⟨7, 2, .ro, .sh, []⟩, ⟨9, 1, .ro, .sh, []⟩, ⟨10, 1, .ro, .sh, []⟩, ⟨11, 1, .ro, .sh, []⟩, ⟨12, 1, .ro, .sh, []⟩, ⟨13, 1, .ro, .sh, []⟩]
  | .OUT_EVT => [⟨0, 1, .w1c, .sh, []⟩, ⟨1, 1, .w1c, .sh, []⟩, ⟨2, 1, .w1c, .sh, []⟩, ⟨3, 1, .w1c, .sh, []⟩, ⟨4, 1, .w1c, .sh, []⟩]
  | .OUT_CNT => [⟨0, 16, .ro, .sh, []⟩, ⟨16, 16, .ro, .sh, []⟩]
  | .OUT_BANK => [⟨0, 3, .rw, .sh, [(0, 4)]⟩, ⟨8, 1, .ro, .dash, []⟩, ⟨16, 8, .ro, .dash, []⟩]
  | .OUT_RSYNC => [⟨0, 12, .wo, .dash, []⟩, ⟨12, 16, .wo, .dash, [(1, 0xffff)]⟩]
  | .OUT_RSYNC_STAT => [⟨0, 1, .ro, .sh, []⟩, ⟨1, 2, .ro, .sh, []⟩, ⟨4, 12, .ro, .sh, []⟩]
  | .PRG_RCTL => [⟨0, 1, .rw, .sh, []⟩, ⟨1, 1, .rw, .sh, []⟩, ⟨2, 1, .rw, .sh, []⟩, ⟨3, 1, .rw, .sh, []⟩]
  | .PRG_VID => [⟨0, 12, .rw, .sh, [(0, 0xa78)]⟩]
  | .PRG_SLEW => [⟨0, 8, .rw, .sh, [(1, 0xc8)]⟩, ⟨8, 8, .rw, .sh, [(1, 0xc8)]⟩, ⟨16, 8, .rw, .sh, []⟩]
  | .PRG_FSW => [⟨0, 15, .rw, .sh, [(0x640, 0x6400)]⟩, ⟨16, 15, .rw, .sh, []⟩]
  | .PRG_COMP => [⟨0, 12, .rw, .sh, []⟩, ⟨12, 12, .rw, .sh, []⟩, ⟨24, 8, .rw, .sh, []⟩]
  | .PRG_LIM => [⟨0, 12, .rw, .sh, [(0x10, 0xfff)]⟩, ⟨16, 12, .rw, .sh, [(0x10, 0xfff)]⟩]
  | .PRG_LL => [⟨0, 8, .rw, .sh, []⟩, ⟨8, 8, .rw, .sh, [(1, 0xff)]⟩, ⟨16, 8, .rw, .sh, []⟩]
  | .PRG_SHED => [⟨0, 4, .rw, .sh, []⟩, ⟨4, 10, .rw, .sh, [(1, 0x3ff)]⟩, ⟨14, 10, .rw, .sh, [(1, 0x3ff)]⟩, ⟨24, 8, .rw, .sh, [(1, 0xff)]⟩]
  | .PRG_DCM => [⟨0, 10, .rw, .sh, [(1, 0x3ff)]⟩, ⟨10, 10, .rw, .sh, [(1, 0x3ff)]⟩, ⟨20, 8, .rw, .sh, [(1, 0xff)]⟩]
  | .PRG_PG => [⟨0, 8, .rw, .sh, [(1, 0xff)]⟩, ⟨8, 16, .rw, .sh, [(1, 0xffff)]⟩]
  | .PRG_TMON => [⟨0, 12, .rw, .sh, []⟩, ⟨12, 12, .rw, .sh, [(1, 0xfff)]⟩]
  | .PRG_RSTAT => [⟨0, 3, .ro, .sh, []⟩, ⟨3, 1, .ro, .sh, []⟩, ⟨4, 1, .ro, .sh, []⟩, ⟨5, 1, .ro, .sh, []⟩, ⟨6, 5, .ro, .sh, []⟩, ⟨11, 5, .ro, .sh, []⟩, ⟨16, 1, .ro, .sh, []⟩]
  | .PRG_RMEAS => [⟨0, 16, .ro, .dash, []⟩, ⟨16, 16, .ro, .dash, []⟩]
  | .PRG_RCNT => [⟨0, 16, .ro, .sh, []⟩, ⟨16, 16, .ro, .sh, []⟩]
  | .PRG_REVT => [⟨0, 1, .w1c, .sh, []⟩, ⟨1, 1, .w1c, .sh, []⟩, ⟨2, 1, .w1c, .sh, []⟩, ⟨3, 1, .w1c, .sh, []⟩]
  | .PRG_PH => [⟨0, 3, .rw, .sh, [(0, 5), (7, 7)]⟩, ⟨8, 8, .rw, .sh, []⟩, ⟨16, 2, .ro, .sh, []⟩]
  | .PRG_TBSEL => [⟨0, 2, .rw, .h, []⟩]
  | .PRG_TBSTAT => [⟨0, 1, .ro, .sh, []⟩, ⟨1, 1, .ro, .sh, []⟩, ⟨2, 1, .ro, .sh, []⟩, ⟨8, 8, .ro, .sh, []⟩, ⟨16, 16, .ro, .sh, []⟩]
  | .PRG_SCHED => [⟨0, 4, .rw, .sh, []⟩, ⟨8, 7, .rw, .sh, [(0, 0x7d)]⟩]
  | .PRG_SCNT => [⟨0, 16, .ro, .sh, []⟩, ⟨16, 16, .ro, .sh, []⟩]
  | .PRG_WSTAT => [⟨0, 8, .ro, .sh, []⟩, ⟨8, 8, .ro, .sh, []⟩]
  | .PRG_QW_A => [⟨0, 6, .rw, .sh, [(0, 0x2f)]⟩, ⟨7, 1, .rw, .sh, []⟩]
  | .PRG_QW_B => [⟨0, 16, .rw, .sh, []⟩, ⟨16, 12, .rw, .sh, [(1, 0xfff)]⟩]
  | .PRG_TLM_CTL => [⟨0, 1, .rw, .sh, []⟩, ⟨1, 1, .rw, .sh, []⟩, ⟨2, 7, .rw, .sh, [(1, 0x76)]⟩]
  | .PRG_TLM_PER => [⟨0, 20, .rw, .sh, [(4, 0xf4240)]⟩]
  | .PRG_TLM_SEQ => [⟨0, 32, .ro, .sh, []⟩]
  | .PRG_TLM_STAT => [⟨0, 9, .ro, .sh, []⟩, ⟨9, 1, .ro, .sh, []⟩]
  | .PRG_SCAN => [⟨0, 4, .rw, .sh, []⟩, ⟨4, 6, .rw, .sh, []⟩, ⟨10, 2, .rw, .sh, []⟩]
  | .PRG_TLM_BUF => [⟨0, 32, .ro, .dash, []⟩]
  | .PRG_EVT => [⟨0, 1, .w1c, .sh, []⟩, ⟨1, 1, .w1c, .sh, []⟩, ⟨2, 1, .w1c, .sh, []⟩, ⟨3, 1, .w1c, .sh, []⟩, ⟨4, 1, .w1c, .sh, []⟩]
  | .SEQ_CMD => [⟨0, 1, .wo, .dash, []⟩, ⟨1, 1, .wo, .dash, []⟩, ⟨4, 3, .wo, .dash, []⟩]
  | .SEQ_CFG => [⟨0, 1, .rw, .sh, []⟩, ⟨1, 3, .rw, .sh, []⟩, ⟨4, 3, .rw, .sh, []⟩, ⟨7, 1, .rw, .sh, []⟩]
  | .SEQ_STAT => [⟨0, 2, .ro, .sh, []⟩, ⟨2, 3, .ro, .sh, []⟩, ⟨5, 6, .ro, .sh, []⟩, ⟨11, 2, .ro, .sh, []⟩, ⟨13, 1, .ro, .sh, []⟩, ⟨14, 3, .ro, .sh, []⟩, ⟨17, 3, .ro, .sh, []⟩, ⟨20, 3, .ro, .sh, []⟩]
  | .SEQ_LOAD_CTL => [⟨0, 1, .wo, .dash, []⟩]
  | .SEQ_LOAD_DATA => [⟨0, 32, .wo, .dash, []⟩]
  | .SEQ_LOAD_STAT => [⟨0, 8, .ro, .sh, []⟩, ⟨8, 2, .ro, .sh, []⟩, ⟨10, 3, .ro, .sh, []⟩, ⟨13, 1, .ro, .sh, []⟩]
  | .SEQ_EVT => [⟨0, 6, .w1c, .sh, []⟩]
  | .SEQ_CNT => [⟨0, 16, .ro, .sh, []⟩, ⟨16, 16, .ro, .sh, []⟩]
  | .SEQ_DEP_A => [⟨0, 1, .rw, .sh, []⟩, ⟨1, 1, .rw, .sh, []⟩, ⟨2, 2, .rw, .sh, [(0, 2)]⟩, ⟨4, 3, .rw, .sh, []⟩, ⟨8, 2, .rw, .sh, []⟩, ⟨10, 12, .rw, .sh, []⟩]
  | .SEQ_DEP_B => [⟨0, 24, .rw, .sh, []⟩]
  | .SEQ_NSTEP => [⟨0, 7, .ro, .sh, []⟩]
  | .SEQ_STEP => [⟨0, 32, .ro, .sh, []⟩]
  | .FLT_OV => [⟨0, 10, .rw, .sh, []⟩, ⟨10, 1, .rw, .sh, []⟩, ⟨12, 8, .rw, .sh, []⟩, ⟨20, 2, .rw, .sh, []⟩]
  | .FLT_UV => [⟨0, 10, .rw, .sh, []⟩, ⟨10, 1, .rw, .sh, []⟩, ⟨12, 8, .rw, .sh, []⟩, ⟨20, 2, .rw, .sh, []⟩]
  | .FLT_OC => [⟨0, 8, .rw, .sh, [(1, 0xff)]⟩, ⟨8, 8, .rw, .sh, [(1, 0xff)]⟩, ⟨16, 2, .rw, .sh, []⟩, ⟨18, 1, .rw, .sh, []⟩, ⟨24, 8, .rw, .sh, []⟩]
  | .FLT_OT => [⟨0, 8, .rw, .sh, [(1, 0xc8)]⟩, ⟨8, 2, .rw, .sh, []⟩, ⟨10, 1, .rw, .sh, []⟩]
  | .FLT_RETRY => [⟨0, 3, .rw, .sh, []⟩, ⟨8, 8, .rw, .sh, [(1, 0xff)]⟩, ⟨16, 3, .ro, .sh, []⟩, ⟨19, 1, .ro, .sh, []⟩]
  | .FLT_RSTAT => [⟨0, 4, .w1c, .sh, []⟩, ⟨4, 1, .ro, .sh, []⟩, ⟨5, 1, .ro, .sh, []⟩, ⟨6, 1, .ro, .sh, []⟩, ⟨8, 4, .ro, .dash, []⟩, ⟨16, 8, .ro, .sh, []⟩, ⟨24, 5, .ro, .sh, []⟩]
  | .FLT_FNMAP => [⟨0, 13, .rw, .sh, []⟩]
  | .FLT_PGMAP => [⟨0, 24, .rw, .sh, []⟩]
  | .FLT_PKG => [⟨0, 13, .w1c, .sh, []⟩, ⟨16, 1, .w1c, .sh, []⟩]
  | .PRG_FM_GRP => [⟨0, 6, .rw, .sh, []⟩]
  | .PRG_FM_STAT => [⟨0, 6, .ro, .sh, []⟩, ⟨6, 6, .ro, .sh, []⟩, ⟨16, 16, .ro, .sh, []⟩]
  | .HUP_CTL => [⟨0, 1, .rw, .sh, []⟩, ⟨1, 1, .rw, .sh, []⟩, ⟨2, 1, .rw, .sh, []⟩, ⟨3, 1, .rw, .sh, []⟩, ⟨8, 8, .rw, .sh, [(1, 0xff)]⟩]
  | .HUP_CHG => [⟨0, 11, .rw, .sh, [(0x258, 0x640)]⟩, ⟨11, 5, .rw, .sh, []⟩, ⟨16, 8, .rw, .sh, [(0xa, 0xff)]⟩, ⟨24, 8, .rw, .sh, [(1, 0xff)]⟩]
  | .HUP_VIN => [⟨0, 10, .rw, .sh, [(0x12c, 0x2ee)]⟩, ⟨10, 7, .rw, .sh, [(1, 0x64)]⟩]
  | .HUP_STORE => [⟨0, 11, .rw, .sh, [(0x258, 0x640)]⟩, ⟨16, 11, .rw, .sh, [(0x258, 0x640)]⟩]
  | .HUP_STAT => [⟨0, 3, .ro, .dash, []⟩, ⟨3, 1, .ro, .dash, []⟩, ⟨4, 1, .ro, .dash, []⟩, ⟨5, 1, .ro, .dash, []⟩, ⟨16, 16, .ro, .dash, []⟩]
  | .HUP_EVT => [⟨0, 5, .w1c, .sh, []⟩]
  | .HK_BUCK => if r.i = 0 then [⟨0, 1, .ro, .sh, []⟩, ⟨1, 9, .ro, .sh, []⟩, ⟨10, 1, .ro, .sh, []⟩] else [⟨0, 1, .rw, .sh, []⟩, ⟨1, 9, .rw, .sh, [(0, 0x12c)]⟩, ⟨10, 1, .rw, .sh, []⟩]
  | .HK_LDO => [⟨0, 1, .rw, .sh, []⟩, ⟨1, 7, .rw, .sh, [(0, 0x64)]⟩, ⟨8, 1, .rw, .sh, []⟩]
  | .HK_STAT => [⟨0, 4, .ro, .dash, []⟩, ⟨4, 4, .ro, .dash, []⟩]
  | .HK_FLT => [⟨0, 8, .w1c, .sh, []⟩, ⟨8, 8, .w1c, .sh, []⟩]
  | .HK_TD => [⟨0, 1, .rw, .sh, []⟩, ⟨1, 8, .rw, .sh, []⟩, ⟨16, 8, .rw, .sh, []⟩]
  | .HK_TDVAL => [⟨0, 16, .ro, .dash, []⟩]
  | .LNK_CTL => [⟨0, 1, .rw, .sh, []⟩, ⟨1, 1, .rw, .sh, []⟩, ⟨8, 4, .rw, .sh, [(0, 9)]⟩, ⟨12, 4, .rw, .sh, [(0, 9)]⟩]
  | .LNK_STAT => [⟨0, 2, .ro, .sh, []⟩, ⟨2, 1, .ro, .sh, []⟩, ⟨3, 1, .ro, .sh, []⟩, ⟨4, 2, .ro, .sh, []⟩, ⟨6, 1, .ro, .sh, []⟩, ⟨16, 16, .ro, .sh, []⟩]
  | .LNK_FQ => [⟨0, 16, .rw, .sh, [(1, 0xffff)]⟩, ⟨16, 16, .rw, .sh, [(1, 0xffff)]⟩]
  | .LNK_FOFS => [⟨0, 32, .ro, .sh, []⟩]
  | .LNK_ASYM => [⟨0, 24, .rw, .sh, []⟩, ⟨24, 8, .rw, .sh, []⟩]
  | .LNK_MARK => [⟨0, 3, .rw, .sh, []⟩, ⟨4, 3, .rw, .sh, []⟩]
  | .LNK_DLY => [⟨0, 32, .ro, .sh, []⟩]
  | .LNK_THETA => [⟨0, 32, .ro, .sh, []⟩]
  | .LNK_PEER_LO => [⟨0, 32, .ro, .sh, []⟩]
  | .LNK_PEER_HI => [⟨0, 32, .ro, .sh, []⟩]
  | .LNK_OFR_LAT => [⟨0, 32, .ro, .sh, []⟩]
  | .LNK_OFR_PH => [⟨0, 16, .ro, .sh, []⟩, ⟨16, 16, .ro, .sh, []⟩]
  | .LNK_CNT => [⟨0, 16, .ro, .sh, []⟩, ⟨16, 16, .ro, .sh, []⟩]
  | .LNK_EVT => [⟨0, 4, .w1c, .sh, []⟩]
  | .LNK_RXQ => [⟨0, 1, .rw, .sh, []⟩, ⟨1, 5, .ro, .sh, []⟩, ⟨16, 16, .ro, .sh, []⟩]
  | .LNK_SYS_CTL => [⟨0, 1, .rw, .sh, []⟩, ⟨1, 1, .w1c, .sh, []⟩, ⟨2, 1, .rw, .sh, []⟩, ⟨3, 1, .rw, .sh, []⟩, ⟨4, 1, .rw, .sh, []⟩, ⟨5, 1, .rw, .sh, []⟩, ⟨6, 2, .rw, .sh, []⟩, ⟨8, 4, .rw, .sh, []⟩, ⟨12, 5, .rw, .sh, [(0, 0xf)]⟩]
  | .LNK_PRIO => [⟨0, 8, .rw, .sh, []⟩, ⟨8, 8, .rw, .sh, []⟩]
  | .LNK_BUDGET => [⟨0, 16, .rw, .sh, []⟩, ⟨16, 16, .rw, .sh, []⟩]
  | .LNK_ANN => [⟨0, 8, .rw, .sh, [(1, 0xff)]⟩]
  | .LNK_SRC_ERR => [⟨0, 16, .rw, .sh, []⟩]
  | .LNK_EPOCH => [⟨0, 5, .rw, .sh, [(0, 0x17)]⟩, ⟨5, 1, .rw, .sh, []⟩, ⟨6, 1, .ro, .sh, []⟩, ⟨8, 5, .rw, .sh, [(0, 0x17)]⟩, ⟨13, 1, .rw, .sh, []⟩, ⟨14, 1, .ro, .sh, []⟩]
  | .LNK_SYS_STAT => [⟨0, 3, .ro, .sh, []⟩, ⟨3, 1, .ro, .sh, []⟩, ⟨4, 2, .ro, .sh, []⟩, ⟨6, 1, .ro, .sh, []⟩, ⟨8, 3, .ro, .sh, []⟩, ⟨16, 16, .ro, .sh, []⟩]
  | .LNK_ACC_LAT => [⟨0, 32, .ro, .sh, []⟩]
  | .LNK_ACC_PH => [⟨0, 16, .ro, .sh, []⟩]
  | .LNK_ID_LO => [⟨0, 32, .ro, .dash, []⟩]
  | .LNK_ID_HI => [⟨0, 32, .ro, .dash, []⟩]
  | .LNK_GM_LO => [⟨0, 32, .ro, .sh, []⟩]
  | .LNK_GM_HI => [⟨0, 32, .ro, .sh, []⟩]
  | .LNK_GM_INFO => [⟨0, 8, .ro, .sh, []⟩, ⟨8, 8, .ro, .sh, []⟩, ⟨16, 2, .ro, .sh, []⟩]
  | .LNK_TOD_LO => [⟨0, 32, .ro, .sh, []⟩]
  | .LNK_TOD_HI => [⟨0, 16, .ro, .sh, []⟩]
  | .LNK_TOD_SET_LO => [⟨0, 32, .rw, .sh, []⟩]
  | .LNK_TOD_SET_HI => [⟨0, 16, .rw, .sh, []⟩]
  | .LNK_SIGNAL => [⟨0, 8, .wo, .dash, [(0x80, 0xff)]⟩]
  | .LNK_EVFWD => [⟨0, 13, .rw, .sh, []⟩]
  | .LNK_RMT_CTL => [⟨0, 1, .wo, .dash, []⟩, ⟨1, 1, .wo, .dash, []⟩, ⟨2, 1, .wo, .dash, []⟩, ⟨4, 4, .wo, .dash, []⟩]
  | .LNK_RMT_ADDR => [⟨2, 18, .rw, .h, []⟩]
  | .LNK_RMT_DST_LO => [⟨0, 32, .rw, .h, []⟩]
  | .LNK_RMT_DST_HI => [⟨0, 32, .rw, .h, []⟩]
  | .LNK_RMT_TMO => [⟨0, 16, .rw, .sh, [(1, 0xffff)]⟩]
  | .LNK_RMT_STAT => [⟨0, 1, .ro, .h, []⟩, ⟨1, 4, .ro, .h, []⟩, ⟨16, 16, .ro, .h, []⟩]
  | .LNK_RMT_DATA => [⟨0, 32, .rw, .h, []⟩]
  | .LNK_SYS_EVT => [⟨0, 9, .w1c, .sh, []⟩]
  | .LNK_SYS_CNT => [⟨0, 16, .ro, .sh, []⟩, ⟨16, 16, .ro, .sh, []⟩]
  | .HOST_MODE => [⟨0, 1, .ro, .h, []⟩, ⟨8, 1, .wo, .dash, []⟩]
  | .HOST_STAT => [⟨0, 3, .ro, .dash, []⟩, ⟨3, 1, .ro, .dash, []⟩, ⟨4, 3, .ro, .dash, []⟩, ⟨7, 3, .ro, .dash, []⟩, ⟨16, 16, .ro, .sh, []⟩]
  | .HOST_WAKE => [⟨0, 32, .wo, .dash, []⟩]
  | .HOST_RESYNC => [⟨0, 16, .wo, .dash, [(0x5eed, 0x5eed)]⟩]
  | .HOST_RS_STAT => [⟨0, 2, .ro, .dash, []⟩, ⟨16, 16, .ro, .sh, []⟩]
  | .HOST_POLL => [⟨0, 1, .rw, .dash, []⟩, ⟨16, 16, .ro, .dash, []⟩]
  | .HOST_SUMMARY_ADDR_LO => [⟨12, 20, .rw, .dash, []⟩]
  | .HOST_SUMMARY_ADDR_HI => [⟨0, 16, .rw, .dash, []⟩]
  | .HOST_DB_ADDR_LO => [⟨12, 20, .rw, .dash, []⟩]
  | .HOST_DB_ADDR_HI => [⟨0, 16, .rw, .dash, []⟩]
  | .HOST_XLAT => [⟨0, 5, .rw, .dash, [(0, 0x10)]⟩]
  | .HOST_RING_LO => [⟨12, 20, .rw, .dash, []⟩]
  | .HOST_RING_HI => [⟨0, 16, .rw, .dash, []⟩]
  | .HOST_RING_CFG => if r.i = 2 then [⟨0, 1, .rw, .dash, []⟩, ⟨1, 1, .rw, .dash, []⟩, ⟨4, 5, .rw, .dash, [(4, 0x10)]⟩] else [⟨0, 1, .rw, .dash, []⟩, ⟨4, 5, .rw, .dash, [(4, 0x10)]⟩]
  | .HOST_RING_IDX => [⟨0, 16, .ro, .dash, []⟩, ⟨31, 1, .ro, .dash, []⟩]
  | .MGT_CFG => [⟨0, 1, .rw, .sh, []⟩, ⟨1, 1, .rw, .h, []⟩, ⟨2, 2, .rw, .sh, []⟩]
  | .MGT_PMB_CFG => [⟨0, 7, .rw, .sh, [(8, 0xb), (0xd, 0x77)]⟩, ⟨7, 1, .rw, .sh, []⟩, ⟨8, 2, .rw, .sh, [(0, 2)]⟩, ⟨10, 1, .rw, .sh, []⟩, ⟨11, 1, .rw, .sh, []⟩]
  | .MGT_PMB_STAT => [⟨0, 8, .ro, .dash, []⟩, ⟨8, 8, .ro, .sh, []⟩, ⟨16, 8, .ro, .sh, []⟩, ⟨24, 8, .ro, .sh, []⟩]
  | .MGT_I3C_CFG => [⟨0, 7, .rw, .sh, [(0, 0x7d), (0x7f, 0x7f)]⟩, ⟨7, 1, .rw, .sh, []⟩]
  | .MGT_I3C_STAT => [⟨0, 7, .ro, .dash, []⟩, ⟨7, 1, .ro, .dash, []⟩, ⟨8, 1, .ro, .dash, []⟩, ⟨16, 8, .ro, .sh, []⟩, ⟨24, 8, .ro, .sh, []⟩]
  | .MGT_SPI_CFG => [⟨0, 4, .rw, .sh, []⟩, ⟨4, 1, .rw, .sh, []⟩, ⟨5, 1, .rw, .sh, []⟩]
  | .MGT_SPI_CMD => [⟨0, 8, .wo, .dash, []⟩, ⟨8, 9, .wo, .dash, [(0, 0x100)]⟩, ⟨31, 1, .wo, .dash, []⟩]
  | .MGT_SPI_ADDR => [⟨0, 28, .rw, .dash, []⟩]
  | .MGT_SPI_STAT => [⟨0, 1, .ro, .dash, []⟩, ⟨1, 2, .ro, .dash, []⟩, ⟨8, 24, .ro, .dash, []⟩]
  | .MGT_SPI_BUF => [⟨0, 32, .rw, .dash, []⟩]
  | .MGT_EV => [⟨0, 1, .wo, .dash, []⟩, ⟨1, 1, .ro, .dash, []⟩, ⟨16, 9, .ro, .dash, []⟩]
  | .MGT_EV_DATA => [⟨0, 32, .ro, .dash, []⟩]
  | .MGT_MBX => if r.i = 0 then [⟨0, 31, .rw, .dash, []⟩] else [⟨0, 32, .rw, .dash, []⟩]
  | .MGT_MBX_CTL => [⟨0, 1, .wo, .dash, []⟩, ⟨1, 1, .ro, .dash, []⟩, ⟨2, 1, .w1c, .dash, []⟩, ⟨3, 3, .ro, .dash, []⟩, ⟨8, 8, .ro, .dash, []⟩]
  | .MGT_MBX_RES => [⟨0, 32, .ro, .dash, []⟩]
  | .MGT_EVT => [⟨0, 5, .w1c, .sh, []⟩]
  | .MGT_MBX_BUF => [⟨0, 32, .rw, .dash, []⟩]
  | .DMA_CCTL => [⟨0, 1, .rw, .sh, []⟩, ⟨1, 2, .rw, .sh, []⟩, ⟨4, 4, .rw, .sh, [(0, 0xc)]⟩, ⟨8, 5, .rw, .sh, [(0, 0x10)]⟩, ⟨16, 5, .rw, .sh, [(0, 0x1a)]⟩, ⟨21, 1, .rw, .sh, []⟩, ⟨24, 5, .rw, .sh, [(4, 0x10)]⟩]
  | .DMA_RBASE_LO => [⟨12, 20, .rw, .sh, []⟩]
  | .DMA_RBASE_HI => [⟨0, 16, .rw, .sh, []⟩]
  | .DMA_DB => [⟨0, 16, .wo, .dash, []⟩]
  | .DMA_CMD => [⟨0, 1, .wo, .dash, []⟩, ⟨1, 1, .wo, .dash, []⟩]
  | .DMA_STAT => [⟨0, 4, .ro, .sh, []⟩, ⟨4, 4, .ro, .sh, []⟩, ⟨8, 8, .ro, .sh, []⟩, ⟨16, 16, .ro, .sh, []⟩]
  | .DMA_RESID => [⟨0, 32, .ro, .sh, []⟩]
  | .DMA_NEXT_LO => [⟨0, 32, .ro, .sh, []⟩]
  | .DMA_NEXT_HI => [⟨0, 16, .ro, .sh, []⟩, ⟨31, 1, .ro, .sh, []⟩]
  | .DMA_REQCNT => [⟨0, 16, .ro, .sh, []⟩, ⟨16, 16, .ro, .sh, []⟩]
  | .DMA_REQSEQ => [⟨0, 32, .ro, .sh, []⟩]
  | .DMA_EVT => [⟨0, 4, .w1c, .sh, []⟩]
  | .DMA_FCNT => [⟨0, 16, .ro, .sh, []⟩, ⟨16, 16, .ro, .sh, []⟩]
  | .DMA_ACTIVE => [⟨0, 32, .ro, .dash, []⟩]
  | .DMA_REQ_PEND => [⟨0, 26, .ro, .dash, []⟩]
  | .DMA_REQ_BIND => [⟨0, 26, .ro, .sh, []⟩]
  | .DMA_EVREQ => [⟨0, 1, .rw, .sh, []⟩]
  | .DATU_INV => [⟨0, 1, .wo, .dash, []⟩, ⟨1, 2, .wo, .dash, [(0, 2)]⟩, ⟨4, 4, .wo, .dash, []⟩]
  | .DATU_INV_ADDR_LO => [⟨12, 20, .rw, .dash, []⟩]
  | .DATU_INV_ADDR_HI => [⟨0, 16, .rw, .dash, []⟩]
  | .DATU_STAT => [⟨0, 1, .ro, .dash, []⟩, ⟨8, 9, .ro, .dash, []⟩]
  | .DATU_CNT => [⟨0, 16, .ro, .sh, []⟩, ⟨16, 16, .ro, .sh, []⟩]
  | .DATU_CCTL => [⟨0, 1, .rw, .dash, []⟩, ⟨16, 16, .ro, .sh, []⟩]
  | .DATU_ROOT_LO => [⟨12, 20, .rw, .dash, []⟩]
  | .DATU_ROOT_HI => [⟨0, 20, .rw, .dash, []⟩]
  | .DATU_FADDR_LO => [⟨0, 32, .ro, .sh, []⟩]
  | .DATU_FADDR_HI => [⟨0, 16, .ro, .sh, []⟩]
  | .DATU_FINFO => [⟨0, 1, .w1c, .sh, []⟩, ⟨1, 3, .ro, .sh, []⟩, ⟨4, 2, .ro, .sh, []⟩, ⟨6, 2, .ro, .sh, []⟩, ⟨8, 5, .ro, .sh, []⟩, ⟨13, 1, .ro, .sh, []⟩]
  | .ENG_CTL => [⟨0, 1, .wo, .dash, []⟩, ⟨1, 1, .rw, .dash, []⟩]
  | .ENG_STAT => [⟨0, 2, .ro, .dash, []⟩, ⟨2, 1, .ro, .dash, []⟩, ⟨3, 3, .ro, .dash, []⟩, ⟨8, 3, .ro, .dash, []⟩]
  | .ENG_HALT_ADDR => [⟨0, 17, .ro, .dash, []⟩, ⟨17, 1, .ro, .dash, []⟩]
  | .ENG_CNT => [⟨0, 16, .ro, .sh, []⟩, ⟨16, 16, .ro, .sh, []⟩]
  | .ENG_ROM => [⟨0, 32, .ro, .dash, []⟩]
  | .ENG_IMG_STAT => [⟨0, 1, .ro, .sh, []⟩, ⟨1, 1, .ro, .sh, []⟩, ⟨2, 1, .ro, .sh, []⟩, ⟨3, 1, .ro, .sh, []⟩, ⟨4, 1, .ro, .dash, []⟩, ⟨8, 2, .ro, .kwsh, []⟩]
  | .ENG_IMG_VER => [⟨0, 32, .ro, .sh, []⟩]
  | .ENG_IMG_ABI => [⟨0, 16, .ro, .sh, []⟩]
  | .ENG_STG_VER => [⟨0, 32, .ro, .dash, []⟩]
  | .ENG_HEALTH => [⟨0, 16, .wo, .dash, [(0x600d, 0x600d)]⟩]
  | .ENG_IMG_EVT => [⟨0, 7, .w1c, .sh, []⟩]
  | .ENG_SEL => [⟨0, 32, .ro, .sh, []⟩]
  | .ENG_MIX => [⟨0, 2, .ro, .sh, []⟩, ⟨2, 2, .ro, .sh, []⟩, ⟨4, 1, .ro, .sh, []⟩]
  | .PIN_CFG => if 56 ≤ r.i then [⟨0, 4, .rw, .sh, []⟩, ⟨4, 3, .ro, .sh, []⟩, ⟨7, 1, .rw, .sh, []⟩, ⟨8, 2, .rw, .sh, [(0, 2)]⟩, ⟨10, 1, .rw, .sh, []⟩, ⟨11, 2, .rw, .sh, [(0, 2)]⟩, ⟨13, 2, .rw, .sh, []⟩, ⟨15, 1, .rw, .sh, []⟩, ⟨16, 1, .rw, .sh, []⟩, ⟨17, 3, .rw, .sh, [(0, 5)]⟩, ⟨21, 8, .rw, .sh, []⟩] else [⟨0, 4, .rw, .sh, []⟩, ⟨4, 3, .ro, .sh, []⟩, ⟨8, 2, .rw, .sh, [(0, 2)]⟩, ⟨10, 1, .rw, .sh, []⟩, ⟨11, 2, .rw, .sh, [(0, 2)]⟩, ⟨13, 2, .rw, .sh, []⟩, ⟨15, 1, .rw, .sh, []⟩, ⟨16, 1, .rw, .sh, []⟩, ⟨17, 3, .rw, .sh, [(0, 5)]⟩, ⟨21, 8, .rw, .sh, []⟩]
  | .PIN_OWN => [⟨0, 4, .rwl, .h, [(0, 0xc)]⟩, ⟨4, 1, .rwl, .h, []⟩]
  | .GPIO_MOUT => [⟨0, 16, .rw, .sh, []⟩, ⟨16, 16, .wo, .dash, []⟩]
  | .GPIO_MOE => [⟨0, 16, .rw, .sh, []⟩, ⟨16, 16, .wo, .dash, []⟩]
  | .GPIO_IN => [⟨0, 16, .ro, .dash, []⟩]
  | .GPIO_IRQ => [⟨0, 16, .w1c, .sh, []⟩]
  | .PIN_PEN => [⟨0, 1, .rw, .sh, []⟩, ⟨1, 1, .rw, .sh, []⟩, ⟨2, 1, .rw, .sh, []⟩, ⟨3, 1, .rw, .sh, []⟩, ⟨4, 1, .rw, .sh, []⟩, ⟨5, 1, .rw, .sh, []⟩, ⟨6, 1, .rw, .sh, []⟩, ⟨7, 1, .rw, .sh, []⟩, ⟨8, 1, .rw, .sh, []⟩]
  | .GPIO_CAP_CFG => [⟨0, 1, .rw, .sh, []⟩, ⟨1, 2, .rw, .sh, [(0, 2)]⟩, ⟨4, 3, .rw, .sh, []⟩, ⟨7, 1, .rw, .sh, []⟩, ⟨8, 7, .rw, .sh, [(1, 0x7f)]⟩]
  | .GPIO_CAP_RATE => [⟨0, 16, .rw, .sh, []⟩]
  | .GPIO_CAP_STAT => [⟨0, 16, .ro, .sh, []⟩, ⟨16, 16, .ro, .sh, []⟩]
  | .PWMX_PER => [⟨0, 16, .rw, .sh, [(1, 0xffff)]⟩]
  | .PWMX_DUTY => [⟨0, 17, .rw, .sh, []⟩]
  | .PIN_FIN => [⟨0, 24, .rw, .sh, []⟩, ⟨24, 8, .rw, .sh, []⟩]
  | .PIN_FIN_STAT => [⟨0, 4, .w1c, .sh, []⟩, ⟨4, 4, .ro, .dash, []⟩]
  | .PIN_IRQN => [⟨0, 1, .rw, .sh, []⟩, ⟨1, 1, .rw, .sh, []⟩, ⟨2, 1, .rw, .sh, []⟩]
  | .PIN_EVT => [⟨0, 3, .w1c, .sh, []⟩]
  | .PIN_CNT => [⟨0, 16, .ro, .sh, []⟩]
  | .OTP_ARM => [⟨0, 24, .wo, .dash, [(0xf05e, 0xf05e)]⟩]
  | .OTP_BURN_ADDR => [⟨0, 9, .rw, .h, []⟩]
  | .OTP_BURN_DATA => [⟨0, 32, .rw, .h, []⟩]
  | .OTP_CMD => [⟨0, 1, .wo, .dash, []⟩, ⟨1, 1, .wo, .dash, []⟩, ⟨2, 2, .wo, .dash, []⟩, ⟨4, 1, .wo, .dash, []⟩]
  | .OTP_STAT => [⟨0, 1, .ro, .h, []⟩, ⟨1, 2, .ro, .h, []⟩, ⟨3, 1, .ro, .h, []⟩, ⟨4, 9, .ro, .h, []⟩, ⟨13, 3, .ro, .h, []⟩]
  | .OTP_REGION => [⟨0, 8, .ro, .h, []⟩, ⟨8, 4, .ro, .h, []⟩, ⟨12, 4, .ro, .h, []⟩]
  | .OTP_CNT => [⟨0, 16, .ro, .h, []⟩, ⟨16, 16, .ro, .h, []⟩]
  | .OTP_FAIL => [⟨0, 10, .ro, .h, []⟩, ⟨10, 3, .ro, .h, []⟩, ⟨16, 10, .ro, .h, []⟩]
  | .OTP_FAIL_RD => [⟨0, 32, .ro, .h, []⟩]
  | .OTP_FAIL_CHK => [⟨0, 7, .ro, .h, []⟩, ⟨8, 7, .ro, .h, []⟩, ⟨16, 7, .ro, .h, []⟩]
  | .OTP_PROF => [⟨0, 1, .ro, .h, []⟩, ⟨1, 1, .ro, .h, []⟩, ⟨2, 1, .ro, .h, []⟩, ⟨3, 1, .ro, .h, []⟩, ⟨4, 1, .ro, .h, []⟩, ⟨5, 16, .ro, .h, []⟩, ⟨21, 1, .ro, .h, []⟩]
  | .OTP_SH => [⟨0, 32, .rw, .wsh, []⟩]
  | .OTP_OVR => [⟨0, 32, .w1c, .wsh, []⟩]
  | .WDG_CTL => [⟨0, 1, .rw, .h, []⟩, ⟨1, 1, .rwl, .h, []⟩]
  | .WDG_TICK => [⟨0, 16, .rw, .h, []⟩]
  | .WDG_KICK => [⟨0, 16, .wo, .dash, []⟩, ⟨16, 4, .wo, .dash, []⟩]
  | .WDG_FORCE => [⟨0, 16, .wo, .dash, [(0xd00d, 0xd00d)]⟩]
  | .WDG_STAT => [⟨0, 16, .ro, .h, []⟩, ⟨16, 16, .ro, .h, []⟩]
  | .WDG_LASTFAIL => [⟨0, 4, .ro, .wsh, []⟩, ⟨4, 3, .ro, .wsh, []⟩, ⟨7, 1, .ro, .wsh, []⟩]
  | .WDG_SLOT => [⟨0, 1, .rw, .h, []⟩, ⟨1, 4, .rw, .h, [(0, 0xc)]⟩, ⟨5, 1, .rw, .h, []⟩, ⟨16, 16, .rw, .h, []⟩]
  | .WDG_WIN => [⟨0, 16, .rw, .h, []⟩, ⟨16, 16, .rw, .h, []⟩]
  | .WDG_SSTAT => [⟨0, 2, .ro, .h, []⟩, ⟨2, 3, .ro, .h, []⟩, ⟨16, 16, .ro, .sh, []⟩]
  | .GLB_ID => [⟨0, 32, .ro, .dash, []⟩]
  | .GLB_FEATGEN => [⟨0, 16, .ro, .dash, []⟩]
  | .GLB_STATE => [⟨0, 4, .ro, .dash, []⟩, ⟨4, 1, .ro, .dash, []⟩, ⟨5, 1, .ro, .dash, []⟩, ⟨6, 1, .ro, .dash, []⟩, ⟨7, 1, .ro, .dash, []⟩]
  | .GLB_CMD => [⟨0, 4, .wo, .dash, []⟩, ⟨16, 16, .wo, .dash, [(0x5afe, 0x5afe)]⟩]
  | .GLB_RESET => [⟨0, 8, .ro, .p, []⟩, ⟨16, 16, .ro, .p, []⟩]
  | .GLB_IGNORED_CNT => [⟨0, 32, .ro, .p, []⟩]
  | .GLB_IGNORED_LAST_A => [⟨0, 32, .ro, .p, []⟩]
  | .GLB_IGNORED_LAST_S => [⟨0, 8, .ro, .p, []⟩, ⟨8, 8, .ro, .p, []⟩]
  | .GLB_STBY_CTL => [⟨0, 1, .rw, .sh, []⟩, ⟨1, 1, .rw, .sh, []⟩, ⟨2, 3, .rw, .sh, []⟩]
  | .GLB_STBY_OUT_LO => [⟨0, 32, .rw, .sh, []⟩]
  | .GLB_STBY_OUT_HI => [⟨0, 16, .rw, .sh, []⟩]
  | .GLB_STBY_RAIL => [⟨0, 24, .rw, .sh, []⟩]
  | .GLB_DIE => [⟨0, 4, .ro, .h, []⟩, ⟨4, 4, .ro, .dash, []⟩, ⟨8, 4, .ro, .dash, []⟩]
  | .GLB_EVT => [⟨0, 8, .w1c, .sh, []⟩]
  | .GLB_EVCNT => [⟨0, 16, .ro, .sh, []⟩]
  | .GLB_TIMER_LO => [⟨0, 32, .ro, .sh, []⟩]
  | .GLB_TIMER_HI => [⟨0, 16, .ro, .sh, []⟩]
  | .KLN_STAT => [⟨0, 1, .ro, .dash, []⟩, ⟨1, 1, .w1c, .p, []⟩, ⟨2, 1, .ro, .dash, []⟩, ⟨16, 16, .ro, .p, []⟩]
  | .KLN_TIME => [⟨0, 32, .ro, .p, []⟩]
  | .KLN_WDG_CNT => [⟨0, 16, .ro, .p, []⟩]
  | .KLN_HIST => [⟨0, 8, .ro, .p, []⟩, ⟨8, 24, .ro, .p, []⟩]
  | .KLN_SLOT => [⟨0, 3, .ro, .p, []⟩, ⟨3, 1, .ro, .p, []⟩, ⟨8, 6, .ro, .kwsh, []⟩]
  | .KLN_HO_LO => [⟨0, 32, .ro, .p, []⟩]
  | .KLN_HO_HI => [⟨0, 16, .ro, .p, []⟩, ⟨16, 1, .ro, .p, []⟩, ⟨31, 1, .ro, .p, []⟩]
  | .KLN_HO_SEC => [⟨0, 32, .ro, .p, []⟩]
  | .KLN_WAKE => [⟨0, 24, .rw, .kwsh, []⟩, ⟨24, 1, .rw, .kwsh, []⟩]
  | .KLN_SCR => [⟨0, 32, .rw, .p, []⟩]
  | .MSIX_ADDR_LO => [⟨2, 30, .rw, .dash, []⟩]
  | .MSIX_ADDR_HI => [⟨0, 32, .rw, .dash, []⟩]
  | .MSIX_DATA => [⟨0, 32, .rw, .dash, []⟩]
  | .MSIX_VCTL => [⟨0, 1, .rw, .dash, []⟩]
  | .MSIX_PBA => [⟨0, 32, .ro, .dash, []⟩]

/-- The register of a name at an offset: every index below its count and nothing left over (R35, R36). -/
def RegName.find (off : Nat) (n : RegName) : Option Reg :=
  let row := n.row
  if off < row.base then none else
  let d := off - row.base
  let i := d / row.s1
  let d1 := d % row.s1
  let j := d1 / row.s2
  let d2 := d1 % row.s2
  let k := d2 / row.s3
  if i < row.n1 ∧ j < row.n2 ∧ k < row.n3 ∧ d2 % row.s3 = 0 then some ⟨n, i, j, k⟩ else none

/-- The register names of the span of GLB (R35). -/
def namesGLB : List RegName :=
  [.GLB_ID, .GLB_FEATGEN, .GLB_STATE, .GLB_CMD, .GLB_RESET, .GLB_IGNORED_CNT, .GLB_IGNORED_LAST_A, .GLB_IGNORED_LAST_S,
   .GLB_STBY_CTL, .GLB_STBY_OUT_LO, .GLB_STBY_OUT_HI, .GLB_STBY_RAIL, .GLB_DIE, .GLB_EVT, .GLB_EVCNT, .GLB_TIMER_LO,
   .GLB_TIMER_HI]

/-- The register names of the span of HOST (R35). -/
def namesHOST : List RegName :=
  [.HOST_MODE, .HOST_STAT, .HOST_WAKE, .HOST_RESYNC, .HOST_RS_STAT, .HOST_POLL, .HOST_SUMMARY_ADDR_LO, .HOST_SUMMARY_ADDR_HI,
   .HOST_DB_ADDR_LO, .HOST_DB_ADDR_HI, .HOST_XLAT, .HOST_RING_LO, .HOST_RING_HI, .HOST_RING_CFG, .HOST_RING_IDX, .MSIX_ADDR_LO,
   .MSIX_ADDR_HI, .MSIX_DATA, .MSIX_VCTL, .MSIX_PBA]

/-- The register names of the span of MGT (R35). -/
def namesMGT : List RegName :=
  [.MGT_CFG, .MGT_PMB_CFG, .MGT_PMB_STAT, .MGT_I3C_CFG, .MGT_I3C_STAT, .MGT_SPI_CFG, .MGT_SPI_CMD, .MGT_SPI_ADDR,
   .MGT_SPI_STAT, .MGT_SPI_BUF, .MGT_EV, .MGT_EV_DATA, .MGT_MBX, .MGT_MBX_CTL, .MGT_MBX_RES, .MGT_EVT,
   .MGT_MBX_BUF]

/-- The register names of the span of KLN (R35). -/
def namesKLN : List RegName :=
  [.KLN_STAT, .KLN_TIME, .KLN_WDG_CNT, .KLN_HIST, .KLN_SLOT, .KLN_HO_LO, .KLN_HO_HI, .KLN_HO_SEC,
   .KLN_WAKE, .KLN_SCR]

/-- The register names of the span of WDG (R35). -/
def namesWDG : List RegName :=
  [.WDG_CTL, .WDG_TICK, .WDG_KICK, .WDG_FORCE, .WDG_STAT, .WDG_LASTFAIL, .WDG_SLOT, .WDG_WIN,
   .WDG_SSTAT]

/-- The register names of the span of OTP (R35). -/
def namesOTP : List RegName :=
  [.OTP_ARM, .OTP_BURN_ADDR, .OTP_BURN_DATA, .OTP_CMD, .OTP_STAT, .OTP_REGION, .OTP_CNT, .OTP_FAIL,
   .OTP_FAIL_RD, .OTP_FAIL_CHK, .OTP_PROF, .OTP_SH, .OTP_OVR]

/-- The register names of the span of PIN (R35). -/
def namesPIN : List RegName :=
  [.PIN_CFG, .PIN_OWN, .GPIO_MOUT, .GPIO_MOE, .GPIO_IN, .GPIO_IRQ, .PIN_PEN, .GPIO_CAP_CFG,
   .GPIO_CAP_RATE, .GPIO_CAP_STAT, .PWMX_PER, .PWMX_DUTY, .PIN_FIN, .PIN_FIN_STAT, .PIN_IRQN, .PIN_EVT,
   .PIN_CNT]

/-- The register names of the span of PLZ (R35). -/
def namesPLZ : List RegName :=
  [.PLZ_LANE_CAL, .PLZ_LO_HZ, .PLZ_SEL_CTL, .PLZ_CAND, .PLZ_PRIO, .PLZ_SEL_STAT, .PLZ_SEL_SYS, .MON_CFG,
   .MON_FNOM_INT, .MON_FNOM_FRAC, .MON_REJECT, .MON_ACCEPT, .MON_FGATE, .MON_QUAL, .MON_PJ_THR, .MON_STAT,
   .MON_FOFS, .MON_QREM, .MON_EVT, .MON_CNT, .MON_PJ_LAST]

/-- The register names of the span of TRG (R35). -/
def namesTRG : List RegName :=
  [.TRG_CTL, .TRG_BW, .TRG_PULLIN, .TRG_LOCK, .TRG_HIST, .TRG_HOWIN, .TRG_RELOCK, .TRG_STAT,
   .TRG_CV_LO, .TRG_CV_HI, .TRG_HO_VAL_LO, .TRG_HO_VAL_HI, .TRG_HO_INFO, .TRG_BO_LO, .TRG_BO_HI, .TRG_PHERR,
   .TRG_LO_STB, .TRG_HIST_PTR, .TRG_TC_SRC, .TRG_TC_C, .TRG_TC_TERM_LO, .TRG_TC_TERM_HI, .TRG_WARM, .TRG_EVT,
   .TRG_DLY, .TRG_HIST_DMA, .TRG_HENT_LO, .TRG_HENT_HI]

/-- The register names of the span of SYN (R35). -/
def namesSYN : List RegName :=
  [.SYN_CTL, .SYN_N_INT, .SYN_N_NUM, .SYN_N_DEN, .SYN_APPLY, .SYN_STAT, .SYN_LD, .SYN_RET,
   .SYN_BYP, .SYN_TB, .SYN_SPUR, .SYN_BYP_STAT, .SYN_SPURT, .SYN_EVT, .SYN_CNT, .SYN_BLOAD_CTL,
   .SYN_BLOAD_DATA, .SYN_BLOAD_STAT, .SYN_SLOT, .SYN_BAND]

/-- The register names of the span of OUT (R35). -/
def namesOUT : List RegName :=
  [.OUT_CTL, .OUT_DIV, .OUT_DLY, .OUT_FRAME, .OUT_PW, .OUT_ECHO, .OUT_STAT, .OUT_EVT,
   .OUT_CNT, .OUT_BANK, .OUT_RSYNC, .OUT_RSYNC_STAT]

/-- The register names of the span of RMP (R35). -/
def namesRMP : List RegName :=
  [.RMP_CTL, .RMP_TICK, .RMP_PERIODS, .RMP_ANCHOR, .RMP_LIM_NEG, .RMP_LIM_POS, .RMP_GLIDE, .RMP_CMD,
   .RMP_STAT, .RMP_OFS, .RMP_PDONE, .RMP_CNT, .RMP_CNT2, .RMP_EVT, .RMP_CHUNK]

/-- The register names of the span of PRG (R35). -/
def namesPRG : List RegName :=
  [.PRG_RCTL, .PRG_VID, .PRG_SLEW, .PRG_FSW, .PRG_COMP, .PRG_LIM, .PRG_LL, .PRG_SHED,
   .PRG_DCM, .PRG_PG, .PRG_TMON, .PRG_RSTAT, .PRG_RMEAS, .PRG_RCNT, .PRG_REVT, .PRG_PH,
   .PRG_TBSEL, .PRG_TBSTAT, .PRG_SCHED, .PRG_SCNT, .PRG_WSTAT, .PRG_QW_A, .PRG_QW_B, .PRG_TLM_CTL,
   .PRG_TLM_PER, .PRG_TLM_SEQ, .PRG_TLM_STAT, .PRG_SCAN, .PRG_TLM_BUF, .PRG_EVT, .PRG_FM_GRP, .PRG_FM_STAT]

/-- The register names of the span of SEQ (R35). -/
def namesSEQ : List RegName :=
  [.SEQ_CMD, .SEQ_CFG, .SEQ_STAT, .SEQ_LOAD_CTL, .SEQ_LOAD_DATA, .SEQ_LOAD_STAT, .SEQ_EVT, .SEQ_CNT,
   .SEQ_DEP_A, .SEQ_DEP_B, .SEQ_NSTEP, .SEQ_STEP, .FLT_OV, .FLT_UV, .FLT_OC, .FLT_OT,
   .FLT_RETRY, .FLT_RSTAT, .FLT_FNMAP, .FLT_PGMAP, .FLT_PKG, .HUP_CTL, .HUP_CHG, .HUP_VIN,
   .HUP_STORE, .HUP_STAT, .HUP_EVT, .HK_BUCK, .HK_LDO, .HK_STAT, .HK_FLT, .HK_TD,
   .HK_TDVAL]

/-- The register names of the span of LNK (R35). -/
def namesLNK : List RegName :=
  [.LNK_CTL, .LNK_STAT, .LNK_FQ, .LNK_FOFS, .LNK_ASYM, .LNK_MARK, .LNK_DLY, .LNK_THETA,
   .LNK_PEER_LO, .LNK_PEER_HI, .LNK_OFR_LAT, .LNK_OFR_PH, .LNK_CNT, .LNK_EVT, .LNK_RXQ, .LNK_SYS_CTL,
   .LNK_PRIO, .LNK_BUDGET, .LNK_ANN, .LNK_SRC_ERR, .LNK_EPOCH, .LNK_SYS_STAT, .LNK_ACC_LAT, .LNK_ACC_PH,
   .LNK_ID_LO, .LNK_ID_HI, .LNK_GM_LO, .LNK_GM_HI, .LNK_GM_INFO, .LNK_TOD_LO, .LNK_TOD_HI, .LNK_TOD_SET_LO,
   .LNK_TOD_SET_HI, .LNK_SIGNAL, .LNK_EVFWD, .LNK_RMT_CTL, .LNK_RMT_ADDR, .LNK_RMT_DST_LO, .LNK_RMT_DST_HI, .LNK_RMT_TMO,
   .LNK_RMT_STAT, .LNK_RMT_DATA, .LNK_SYS_EVT, .LNK_SYS_CNT]

/-- The register names of the span of DMA (R35). -/
def namesDMA : List RegName :=
  [.DMA_CCTL, .DMA_RBASE_LO, .DMA_RBASE_HI, .DMA_DB, .DMA_CMD, .DMA_STAT, .DMA_RESID, .DMA_NEXT_LO,
   .DMA_NEXT_HI, .DMA_REQCNT, .DMA_REQSEQ, .DMA_EVT, .DMA_FCNT, .DMA_ACTIVE, .DMA_REQ_PEND, .DMA_REQ_BIND,
   .DMA_EVREQ, .DATU_INV, .DATU_INV_ADDR_LO, .DATU_INV_ADDR_HI, .DATU_STAT, .DATU_CNT, .DATU_CCTL, .DATU_ROOT_LO,
   .DATU_ROOT_HI, .DATU_FADDR_LO, .DATU_FADDR_HI, .DATU_FINFO]

/-- The register names of the span of ENG (R35). -/
def namesENG : List RegName :=
  [.ENG_CTL, .ENG_STAT, .ENG_HALT_ADDR, .ENG_CNT, .ENG_ROM, .ENG_IMG_STAT, .ENG_IMG_VER, .ENG_IMG_ABI,
   .ENG_STG_VER, .ENG_HEALTH, .ENG_IMG_EVT, .ENG_SEL, .ENG_MIX]

/-- The register names of the block an offset lies in (the BAR0 map, R35). -/
def namesAt (off : Nat) : List RegName :=
  if 0 ≤ off ∧ off < 0x1000 then namesGLB
  else if 0x1000 ≤ off ∧ off < 0x2000 then namesHOST
  else if 0x2000 ≤ off ∧ off < 0x4000 then namesMGT
  else if 0x4000 ≤ off ∧ off < 0x5000 then namesKLN
  else if 0x5000 ≤ off ∧ off < 0x6000 then namesWDG
  else if 0x6000 ≤ off ∧ off < 0x8000 then namesOTP
  else if 0x8000 ≤ off ∧ off < 0x10000 then namesPIN
  else if 0x10000 ≤ off ∧ off < 0x12000 then namesPLZ
  else if 0x20000 ≤ off ∧ off < 0x30000 then namesTRG
  else if 0x30000 ≤ off ∧ off < 0x3c000 then namesSYN
  else if 0x40000 ≤ off ∧ off < 0x46000 then namesOUT
  else if 0x48000 ≤ off ∧ off < 0x4b000 then namesRMP
  else if 0x50000 ≤ off ∧ off < 0x60000 then namesPRG
  else if 0x60000 ≤ off ∧ off < 0x70000 then namesSEQ
  else if 0x70000 ≤ off ∧ off < 0x78000 then namesLNK
  else if 0x80000 ≤ off ∧ off < 0x90000 then namesDMA
  else if 0x90000 ≤ off ∧ off < 0x93000 then namesENG
  else []

/-- The register at an offset, if the offset names one (R35, R36). -/
def Reg.ofOff (off : Nat) : Option Reg :=
  (namesAt off).findSome? (RegName.find off)

end Sys2Proof.Machine
end

