-- ==== Sys2Proof/Machine/State.lean ====
section
/-! DEFINITION. Sys2Proof/Machine/State.lean: everything the spec gives the hub to hold. Every field a register of the tables
shows lives in `regs`; what the rules make the blocks remember beside their registers is typed below, block by block. -/

namespace Sys2Proof.Machine

/-- A record of the event FIFO (R280); the phase bit and the dropped count are written when it is posted. -/
structure EvtRec where
  code : Nat
  src : Nat
  seq : Nat
  time : Nat
  body : Nat
  dropped : Nat
  /-- the number of the request that line 24 has raised for the record; no other request fetches it (R324, R326) -/
  req : Option Nat := none
deriving DecidableEq, Repr, Inhabited

/-- What the hub sends to an agent outside it; the state keeps what has been sent, oldest first (log entry 19). -/
inductive Emit where
  /-- a write to host memory: the DATU context (16 untranslated), the IO-virtual or bus address, the bytes (R267, R323) -/
  | host (ctx addr : Nat) (bytes : List Byte)
  /-- an MSI-X message of a vector: the address and data of its table entry (R283, R293) -/
  | msix (v addr data : Nat)
  /-- an interrupt of an engine: its DMA interrupt (R337) or a pin's (R375) -/
  | engIrq (e : Nat) (pin : Bool)
  /-- a typed cell on a link port: its type, its eight payload bytes before scrambling and its 66 line bits (R229, R230) -/
  | link (port kind : Nat) (bytes : List Byte) (line : Nat)
  /-- an answer on PMBus, on I3C or on JTAG (chapter 11) -/
  | pmb (bytes : List Byte)
  | i3c (bytes : List Byte)
  /-- an I3C in-band interrupt with its payload byte (R303) -/
  | ibi (cls : Nat)
  | jtag (bits : Nat)
  /-- the Bisque image of ENG0 prints its boot log on the UART at the coded baud rate; what it says is the image's own (R309, R351) -/
  | bootLog (baud : Nat)
deriving DecidableEq, Repr

/-- A unit that a request line moves whole, and the number of the request raised for it (R324): a frame, a record or a block. -/
structure LineUnit where
  req : Option Nat := none
  bytes : List Byte := []
deriving DecidableEq, Repr, Inhabited

/-- The memories of an engine (R346), sparse and in canonical form, a byte not listed being 0: 128 KiB of instructions and 64 KiB of
data; and the entry byte address at which it was last released on a section (R350, R352). -/
structure EngMem where
  text : List Host.Cell := []
  data : List Host.Cell := []
  entry : Nat := 0
deriving DecidableEq, Repr, Inhabited

/-- What a reference monitor holds beside its registers: the gate in progress gives no result (R48, R49, R52), and the µs left of the
qualification timer and the length it was loaded with at the latest entry to QUALIFYING (R53). -/
structure MonInt where
  gateVoid : Bool := true
  qual : Nat := 0
  qualLen : Nat := 0
deriving DecidableEq, Repr, Inhabited

/-- What a region DPLL holds beside its registers (chapter 03). -/
structure TrgInt where
  /-- the candidate followed while ACQUIRING or LOCKED -/
  cand : Option Nat := none
  /-- the control value is held under R76 -/
  held : Bool := false
  /-- a build-out capture on a candidate, and whether SLEW follows it (R78, R89) -/
  capture : Option (Nat × Bool) := none
  /-- the loop uses ACQ_BW (R73) -/
  acqBw : Bool := false
  /-- the history interval in progress is still VALID (R81) -/
  clean : Bool := false
  /-- armed for the stability oscillator (R70) -/
  armed : Bool := false
  /-- history entries completed since the latest entry to LOCKED (R87) -/
  sinceLock : Nat := 0
  /-- the pending REALIGN, mask and K (R91), and the edge count K of the pending OUT_RSYNC (R158) -/
  realign : Option (Nat × Nat) := none
  rsyncK : Nat := 0
  /-- the holdover value without the temperature term (R83, R85) -/
  hoBase : Int := 0
  /-- the temperature term applied (R85) -/
  term : Int := 0
  /-- a value waiting to be written to the Kiln record, and whether it was computed against the stability oscillator (R87) -/
  kilnDue : Option (Int × Bool) := none
  /-- the part of a TRG_BO unit the slew has gone through, in ns/s times µs: a unit of 0.25 ps is 250 (R89) -/
  slewAcc : Nat := 0
  /-- history requests whose block has not been moved: number and first ring index (R95, R325) -/
  histReq : List (Nat × Nat) := []
deriving DecidableEq, Repr, Inhabited

/-- A verified ramp chunk (R129): its trailer's fields, its 64 segment words, and the segments whose words carry a double-bit
error (R42). -/
structure Chunk where
  seq : Nat := 0
  idx : Nat := 0
  last : Bool := false
  nseg : Nat := 0
  words : List Word := []
  bad : Nat := 0
deriving DecidableEq, Repr, Inhabited

/-- What a Wheel holds beside its registers (chapter 05). -/
structure WheelInt where
  /-- words of the open chunk, and whether one carries a double-bit error (R39, R130) -/
  opened : List Word := []
  openBad : Bool := false
  /-- RESIDENT: the profile in use, the load copy and whether it is poisoned, the pending profile (R131) -/
  bank : List Chunk := []
  load : List Chunk := []
  loadBad : Bool := false
  pend : Option (List Chunk) := none
  /-- STREAM: verified chunks waiting, and whether chunks are discarded until one with IDX = 0 (R132, R136) -/
  ring : List Chunk := []
  skip : Bool := false
  /-- STREAM: a chunk of the period now arriving has been discarded, so none that follows it in the period is present (R136) -/
  gap : Bool := false
  /-- the chunk in play, the next segment in it and the chunk index expected after it -/
  cur : Option Chunk := none
  pos : Nat := 0
  expIdx : Nat := 0
  /-- ticks left of the segment in play, its slope, and whether it has met a limit (R126) -/
  left : Nat := 0
  slope : Int := 0
  atLim : Bool := false
  /-- the next period begins at the next tick (R135); the wait for its first chunk is no underrun (R134, R136) -/
  fresh : Bool := false
  wait : Bool := false
  /-- a glide to 0 under HOME (R133) -/
  homing : Bool := false
deriving DecidableEq, Repr, Inhabited

/-- What a cluster holds beside its registers (chapter 04). -/
structure SynInt where
  /-- the applied feedback: f_VCO = f_RREF × num / den (R97, R106) -/
  num : Nat := 0
  den : Nat := 1
  /-- the kind of search: 0 hop, 1 hop that missed, 2 guided, 3 full (R120) -/
  kind : Nat := 3
  /-- the entry read at the start of the retune: its index and its four words (R104) -/
  entry : Option (Nat × List Word) := none
  /-- the applied N or the target lies outside R97 (R99, R108) -/
  outOfRange : Bool := false
  /-- the timebase has been regained since the last loss (R114, R117) -/
  returned : Bool := false
  /-- units that have returned in the return in progress (R117) -/
  exitMask : Nat := 0
  /-- RESRCH ms have passed while a FREE-RUN unit follows the cluster (R108) -/
  due : Bool := false
  /-- the open load copy, whether it met a double-bit error, and the verified table waiting (R103) -/
  load : Option (List Word) := none
  loadBad : Bool := false
  pend : Option (List Word) := none
  /-- entries with a double-bit error, of the table in use and of the verified one that waits (R42, R102) -/
  badEntries : List Nat := []
  pendBad : List Nat := []
deriving DecidableEq, Repr, Inhabited

/-- A switch of a unit's clock that waits for its instant (R112, R147). -/
inductive PendSw where
  /-- onto the bypass lane of a cluster of the region -/
  | toLane (lane : Nat)
  /-- back to the VCO, in the return of a cluster -/
  | back (c : Nat)
  /-- to the source OUT_CTL names -/
  | mux
deriving DecidableEq, Repr

/-- What an output unit holds beside its registers (chapter 06). -/
structure OutInt where
  /-- the applied ratio, delay, frame count and pulse width (R155) -/
  div : Nat := 0x63
  coarse : Nat := 0
  fine : Nat := 0
  fcnt : Nat := 0
  pw : Nat := 1
  /-- the source and lane the Avenue mux is at (R147) -/
  src : Nat := 0
  lane : Nat := 0
  /-- the clusters of the region whose loss holds the unit in its on-loss condition, bit i for SYN(3t + i) (R109) -/
  lost : Nat := 0
  /-- the last loss denied BYPASS (R110) -/
  denied : Bool := false
  sw : Option PendSw := none
  /-- the driver is at high impedance (R152) -/
  hiZ : Bool := true
deriving DecidableEq, Repr, Inhabited

/-- What a rail holds beside its registers (chapters 07 and 08). -/
structure RailInt where
  /-- START: the T_EN delay runs (R172); the sense voltage soft start began from, in 0.1 mV (R173) -/
  enWait : Bool := false
  rampFrom : Nat := 0
  /-- the ramp's or the move's target in force, in µV, the part of a step the move has gained, in µV, and the target the move began from
  (R173, R175, R204) -/
  target : Int := 0
  slewAcc : Nat := 0
  moveFrom : Int := 0
  /-- the period under way: its first step, and the PERIOD, the RAIL_OFS and the N_act in force in it (R176, R179) -/
  perStart : Option Nat := none
  period : Nat := 0x1900
  ofs : Nat := 0
  spread : Nat := 0
  /-- the compensator: integrator, last error, last on-time clamped, on-time (R170) -/
  integ : Int := 0
  ePrev : Int := 0
  clamped : Bool := false
  ton : Nat := 0
  /-- rails of the region whose GROUP action holds this one, bit j for rail 6p + j, and the FAULT_INs that hold it (R209, R370) -/
  grpBy : Nat := 0
  finBy : Nat := 0
  /-- shut down by its own fault: a retry is to come (R209) -/
  retryDue : Bool := false
  /-- consecutive TMON readings at or above the threshold and at the flag level (R206) -/
  otRun : Nat := 0
  flagRun : Nat := 0
deriving DecidableEq, Repr, Inhabited

/-- What a power region holds beside its registers (chapter 07). -/
structure PrgInt where
  /-- announced window occurrences, first and end step (R182, R183) -/
  occ : List (Nat × Nat) := []
  /-- placed edges: rail within the region and step (R180) -/
  edges : List (Nat × Nat) := []
  /-- last on-time of each phase of the region (R181) -/
  lastTon : Vector Nat 24 := Vector.replicate 24 0
  /-- each phase's last placed pulse, rise and fall, and its last current reading in 0.125 A (R167, R176) -/
  pulse : Vector (Nat × Nat) 24 := Vector.replicate 24 (0, 0)
  amps : Vector Int 24 := Vector.replicate 24 0
  /-- the millisecond of the last WIN_SKIP and COINC events (R191) -/
  skipMs : Option Nat := none
  coincMs : Option Nat := none
  /-- phases whose OC comparator is asserted, each phase's consecutive limited periods, and the last of them, counted from step 0
  (R205) -/
  ocNow : Nat := 0
  ocRun : Vector Nat 24 := Vector.replicate 24 0
  ocLast : Vector (Option Nat) 24 := Vector.replicate 24 none
  /-- a passage through the fallback is due: TB_EN, TBDIV or the pairing has moved (R20, R114) -/
  passDue : Bool := false
  /-- the µs at which the region moved to its fallback (R191) -/
  fbSince : Nat := 0
  /-- telemetry: SEQ of the next frame, the scan in progress (start, entries, fallback seen) and whether the next one waits for its end,
  and the two latest frames (R186, R187, R189, R190) -/
  nextSeq : Nat := 0
  scanStart : Nat := 0
  scanFb : Bool := false
  scanLen : Nat := 0
  scanDue : Bool := false
  frame : LineUnit := {}
  older : LineUnit := {}
deriving DecidableEq, Repr, Inhabited

/-- What a multi-function pin puts out (R369, R371, R373, R377, R378): a level, nothing, its port's own signal, the copy of an output unit,
or a general PWM waveform of a period and a duty in main-LO periods; of an open-drain signal (`od`) the high parts are released. -/
inductive PinOut where
  | low | high | released
  | port (od : Bool)
  | unit (n : Nat) (od : Bool)
  | pwm (per duty : Nat) (od : Bool)
deriving DecidableEq, Repr, Inhabited

/-- What the pins hold beside their registers (chapter 14). -/
structure PinInt where
  /-- handovers in progress: the pin, the functions it is going to, one after another, and what its keeper holds (R371) -/
  hand : List (Nat × List Nat × PinOut) := []
  /-- what pins keep driving while the die that controls them, or their own, is isolated (R365, R381) -/
  kept : List (Nat × PinOut) := []
  /-- I/O banks below 1.0 V, one bit each (R430) -/
  bankLow : Nat := 0
  /-- levels of the last PIN_SET of each pin (R369) -/
  seqOut : Nat := 0
  /-- the PWMX periods and duties in effect (R369) -/
  pwmPer : Vector Nat 4 := Vector.replicate 4 0xFFFF
  pwmDuty : Vector Nat 4 := Vector.replicate 4 0
  /-- full capture blocks, the block being filled, and whether blocks are being discarded (R379) -/
  capFull : List LineUnit := []
  capCur : List Byte := []
  capDrop : Bool := false
deriving DecidableEq, Repr, Inhabited

/-- What the sequencer holds beside its registers (chapter 08). -/
structure SeqInt where
  /-- the open load copy, and whether it met a double-bit error (R198) -/
  load : Option (List Word) := none
  loadBad : Bool := false
  /-- the verified copies waiting, one for a slot: its words and its steps with a double-bit error (R198) -/
  pend : List (Nat × List Word × List Nat) := []
  /-- steps with a double-bit error: slot and step (R195, R42) -/
  badSteps : List (Nat × Nat) := []
  /-- the held request: rank and sequence (R200) -/
  held : Option (Nat × Nat) := none
  /-- SEQ_STOP waits for the action (R199) -/
  stopPend : Bool := false
  /-- link event codes received, and regions that raised HOLDOVER_ENTER, since the wait began (R196) -/
  links : List Nat := []
  hoSeen : Nat := 0
  /-- pins that have shown a rising edge, and a falling edge, since the wait began (R196) -/
  rose : Nat := 0
  fell : Nat := 0
  /-- VIN_GOOD has been raised with RESTART = 1 and the orderly down has not ended (R218) -/
  restartDue : Bool := false
  /-- the last VIN_LOSS requested the orderly down (R218) -/
  downRan : Bool := false
deriving DecidableEq, Repr, Inhabited

/-- A DMA descriptor taken by a channel (R319, R320): its words, its extension, its index table, its place in the ring, the bytes
of its stream granted and moved, whether a word it read was bad, and the request it served last (R327). -/
structure Desc where
  words : List Word := []
  ext : List Word := []
  table : List Word := []
  idx : Nat := 0
  total : Nat := 0
  granted : Nat := 0
  done : Nat := 0
  bad : Bool := false
  seq : Nat := 0
deriving DecidableEq, Repr, Inhabited

/-- A fault met by a burst or by a fetch (R338): the stream offset, DMA_STAT.CAUSE, the address and whether it is local, the access kind
(0 read, 1 write), whether it is one of translation, and then its cause and level (R340). -/
structure XFault where
  off : Nat
  cause : Nat
  addr : Nat
  isLocal : Bool := false
  kind : Nat := 0
  xlate : Bool := false
  why : Nat := 0
  level : Nat := 0
deriving DecidableEq, Repr, Inhabited

/-- A burst in flight (R328): its part of the stream, the pages it still needs (written side, page), its fault, the unit of a request line
taken at the grant, how many bytes of it have gone before, and the ring index a history unit begins at. -/
structure Burst where
  off : Nat := 0
  len : Nat := 0
  need : List (Bool × Nat) := []
  bad : Option XFault := none
  data : Option (List Byte) := none
  gone : Nat := 0
  first : Nat := 0
deriving DecidableEq, Repr, Inhabited

/-- What a DMA channel holds beside its registers (chapter 12). -/
structure DmaInt where
  /-- the producer index and, for a host ring, the tag last acted on (R270, R318) -/
  prod : Nat := 0
  tag : Option Nat := none
  cur : Option Desc := none
  bursts : List Burst := []
  /-- what a fault has left of the unit of a request line, for RESUME (R338) -/
  rest : Option Burst := none
  /-- requests waiting: sequence number, and whether the unit has been dropped LATE (R325, R327) -/
  reqs : List (Nat × Bool) := []
  /-- the state STOPPED was entered from (R336) -/
  back : Nat := 0
  /-- ABORT waits for the bursts in flight: the status to write back (R336) -/
  abort : Option Nat := none
  /-- the millisecond of the last DMA_LATE and DMA_MISSED events (R342) -/
  lateMs : Option Nat := none
  missMs : Option Nat := none
  /-- the entry at the consumer index had OWN = 0: it waits for a later doorbell read (R272) -/
  stalled : Bool := false
deriving DecidableEq, Repr, Inhabited

/-- An IOTLB entry (R340): context, first 4 KiB page, whether it covers 2 MiB, permissions and the level of its leaf. -/
structure TlbEnt where
  ctx : Nat
  page : Nat
  big : Bool
  frame : Nat
  r : Bool
  w : Bool
  xn : Bool
deriving DecidableEq, Repr, Inhabited

/-- A page-table walk in progress (R340): whose, of which context and page, for which access (0 read, 1 write, 2 execute), the
level it reads next and the table's address. -/
structure Walk where
  host : Bool
  ctx : Nat
  page : Nat
  kind : Nat
  level : Nat
  base : Nat
deriving DecidableEq, Repr, Inhabited

/-- An offer: what the latest ANNOUNCE on a port carries (R241, R244), and whether its GM_SEQ was not older than the last seen. -/
structure Offer where
  gm : Nat
  prio1 : Nat
  prio2 : Nat
  cls : Nat
  seq : Nat
  hops : Nat
  lat : Nat
  ph : Nat
  blat : Nat
  bph : Nat
  fresh : Bool := true
deriving DecidableEq, Repr, Inhabited

/-- A message on its way out of a port (R241): the port its copy comes from, 4 for the hub's own, its cells that have not left, and
whether the last of them is among these. -/
structure TxMsg where
  src : Nat
  cells : List (Nat × List Byte)
  done : Bool
deriving DecidableEq, Repr, Inhabited

/-- What a link port holds beside its registers (chapter 09). -/
structure LnkInt where
  /-- the last 58 bits received, which the descrambler works with (R229), and which of the last 64 headers were invalid (R232) -/
  rxLine : BitVec 58 := 0
  badHdr : BitVec 64 := 0
  /-- the message on the line, if one is in progress, and the messages that wait for its end (R241) -/
  tx : List TxMsg := []
  /-- consecutive valid headers, up to 64 (R232), and the peer's port index, from its HELLO -/
  good : Nat := 0
  peerPort : Nat := 0
  /-- ms of gate results within FTOL without a break (R234) -/
  qualRun : Nat := 0
  /-- the cells of the message in progress, whether its MSG_LAST has come, and the ports it is being forwarded on (R241, R242) -/
  cells : List (List Byte) := []
  whole : Bool := false
  fwd : List Nat := []
  /-- the next SEQ, the last own mark (SEQ, OFS) and the last peer mark (OFS, arrival) (R236) -/
  txSeq : Nat := 0
  own : Option (Nat × Nat) := none
  peerMark : Option (Nat × Nat) := none
  /-- the average in progress: twice the sums of d_in and theta, and the exchanges in it -/
  sumD : Int := 0
  sumT : Int := 0
  cnt : Nat := 0
  /-- mark slots passed without EPOCH_OK, up to 3 (R258) -/
  missing : Nat := 0
  /-- the mark slot the last own mark left at, and whether the TIME cell has left, since the last epoch (R236, R240) -/
  slot : Option Nat := none
  timeSent : Bool := false
  offer : Option Offer := none
  /-- the peer's latest ANNOUNCE is REVERSE (R244) -/
  reverse : Bool := false
deriving DecidableEq, Repr, Inhabited

/-- A remote access the hub has issued and waits for (R251): its TAG, whether it writes, its words. -/
structure RmtAcc where
  tag : Nat
  write : Bool
  n : Nat
  /-- µs left before it ends TIMEOUT (R252) -/
  left : Nat := 0
deriving DecidableEq, Repr, Inhabited

/-- A kept write request (R253): its requester and TAG, its status and NA_MASK, and the µs it was kept at. -/
structure DupEnt where
  src : Nat
  tag : Nat
  status : Nat
  na : Nat
  time : Nat
deriving DecidableEq, Repr, Inhabited

/-- What the system agent holds beside its registers (chapter 09). -/
structure SysInt where
  /-- GM_SEQ of the hub's own ANNOUNCE, and the last GM_SEQ seen from each grandmaster (R244) -/
  gmSeq : Nat := 0
  seen : List (Nat × Nat) := []
  /-- a written time of day and one from a TIME cell, for the next epoch (R240) -/
  todSet : Option Nat := none
  todNext : Option Nat := none
  /-- the register path: the last TAG used and the access in progress (R251, R253) -/
  regTag : Nat := 0
  regAcc : Option RmtAcc := none
  /-- the command path's access in progress -/
  cmdAcc : Option RmtAcc := none
  dup : List DupEnt := []
deriving DecidableEq, Repr, Inhabited

/-- A completion waiting for the completion ring (R279). -/
structure Cpl where
  idx : Nat
  status : Nat
  opcode : Nat
  tag : Nat
  result : Nat
  irq : Bool
  orphan : Bool := false
  /-- of a deferred command: it outlives its ring (R290) -/
  late : Bool := false
  /-- the bytes or words its command has done (R288) -/
  done : Nat := 0
  sqHead : Nat := 0
deriving DecidableEq, Repr, Inhabited

/-- The deferred command of a group (R276): state 0 none, 1 running, 2 aborted, 3 ended with its orphan completion not posted. -/
structure Defer where
  state : Nat := 0
  opcode : Nat := 0
  tag : Nat := 0
  idx : Nat := 0
  irq : Bool := false
  mbx : Bool := false
  /-- its rings have been taken from it: its completion becomes an orphan (R265, R290) -/
  orphan : Bool := false
  /-- descriptor words kept for the write-back, the payload or result buffer, the work done -/
  words : List Word := []
  ptr : Nat := 0
  len : Nat := 0
  done : Nat := 0
  cls : Nat := 0
  /-- IMAGE_STAGE: its data has been fetched, and is this (R290, R357) -/
  fetched : Bool := false
  data : List Byte := []
  /-- IMAGE_COMMIT: the slot the class goes to, whether it returns there out of TRIAL, and whether the selector has been rewritten and
  the class is held and loading (R358, R361) -/
  slot : Nat := 0
  back : Bool := false
  loading : Bool := false
deriving DecidableEq, Repr, Inhabited

/-- What the host port holds of one of its rings: the last tag acted on, the index published, and whether a message has been sent on
its vector since the tag changed (R270, R283). -/
structure RingInt where
  tag : Option Nat := none
  idx : Nat := 0
  sent : Bool := false
deriving DecidableEq, Repr, Inhabited

/-- What the host port holds beside its registers (chapter 10). -/
structure HostInt where
  ring : Vector RingInt 3 := Vector.replicate 3 {}
  /-- the PCIe vendor and device identifiers, once BOOT has loaded them (R4, R262), and the data link layer is active (R265) -/
  ids : Option (Nat × Nat) := none
  link : Bool := false
  /-- a doorbell read is outstanding (R271), and the command at the consumer index had OWN = 0 (R272) -/
  reading : Bool := false
  stalled : Bool := false
  /-- completions waiting to be posted, and orphan completions held for the next arming (R290) -/
  cplQ : List Cpl := []
  orphans : List Cpl := []
  /-- the deferred commands of the groups OTP, IMAGE and REMOTE (R276) -/
  defer : Vector Defer 3 := Vector.replicate 3 {}
  /-- status and result of the last command that came without a descriptor of its own -/
  lastStatus : Nat := 0
  lastResult : Nat := 0
  /-- cause of the resynchronisation in progress: 1 SYNC_STATE, 2 HOST_RESYNC -/
  cause : Nat := 0
  /-- counters of the summary: events posted, commands consumed, IGNORED and POISONED completions (R288) -/
  evtPosted : Nat := 0
  consumed : Nat := 0
  ignoredCpl : Nat := 0
  poisonedCpl : Nat := 0
deriving DecidableEq, Repr, Inhabited

/-- What the management ports hold beside their registers (chapter 11). -/
structure MgtInt where
  /-- MFR_REG_ADDR -/
  regAddr : Nat := 0
  /-- the last off code of each rail: 0x40 or 0x00 (R299) -/
  offCode : Vector Nat 24 := Vector.replicate 24 0x40
  /-- STATUS_CML: invalid command, invalid data, PEC failed -/
  cmlCmd : Bool := false
  cmlData : Bool := false
  cmlPec : Bool := false
  /-- I3C maximum write and read lengths (R301) -/
  mwl : Nat := 0
  mrl : Nat := 0
  /-- JTAG: the instruction, the boundary cells preloaded (level and enable), the REG_ACCESS data and status (R310 to R312) -/
  ir : Nat := 1
  cells : Nat := 0
  cellsOe : Nat := 0
  jtagData : Nat := 0
  jtagStatus : Nat := 0
  /-- the SPI command in progress: opcode, address, length (R308) -/
  spi : Option (Nat × Nat × Nat) := none
deriving DecidableEq, Repr, Inhabited

/-- A burn or lock in progress (R394, R396): the row burned (512 the lock row), its value (data or lock bits), pulses used, and the
region of a lock. -/
structure BurnJob where
  word : Nat
  value : Nat
  pulses : Nat := 0
  region : Option Nat := none
  /-- a command of the OTP group waits for it -/
  cmd : Bool := false
deriving DecidableEq, Repr, Inhabited

/-- What the OTP block holds beside its registers (chapter 15). -/
structure OtpInt where
  /-- the fuses: rows that are not blank, as their raw 39 bits read at normal sense, low and high margin (R386, R398) -/
  fuse : List (Nat × Nat × Nat × Nat) := []
  /-- armed, by HOST (false) or ENG0 (true) (R394) -/
  arm : Option Bool := none
  burn : Option BurnJob := none
  /-- the margin reads of a lock in progress: its region, whether a command waits for it, and the source of the request (R396) -/
  margin : Option (Nat × Bool × Nat) := none
  /-- the words found burned when the shadows were loaded, bit w for word w (R389, R392) -/
  burnt : Nat := 0
  /-- a package reset that waits for the word being burned: its kind and cause (R397) -/
  due : Option (Nat × Nat) := none
deriving DecidableEq, Repr, Inhabited

/-- An image as the compatibility decision sees it (R352, R355). -/
structure ImgInfo where
  slot : Nat
  version : Nat
  abi : Nat
  featLo : Nat
  featHi : Nat
  compat : List Nat
  commit : Nat := 0
deriving DecidableEq, Repr, Inhabited

/-- What a watchdog slot holds beside its registers (R403, R404): the frame has had its check-in, the frame has failed. -/
structure WdgInt where
  /-- its first frame has started (R403), and how far the frame has run, in main-LO cycles times 10^6 -/
  started : Bool := false
  pos : Nat := 0
  kicked : Bool := false
  failed : Bool := false
deriving DecidableEq, Repr, Inhabited

/-- What the package holds beside its registers (chapter 16). -/
structure PkgInt where
  /-- an entry to KEEP is in progress (R418) -/
  keeping : Bool := false
  /-- the Kiln has lost all supply (R415) -/
  kilnLost : Bool := false
  /-- what STANDBY entry cleared: units, clusters, ports; the engines it held (R416, R417) -/
  stbyOut : Nat := 0
  stbySyn : Nat := 0
  stbyLnk : Nat := 0
  stbyEng : Nat := 0
  /-- VIN has fallen below 5.5 V during KEEP and has not risen through 7.5 V since, and a timer wake waits for it (R419) -/
  vinLow : Bool := false
  timerDue : Bool := false
  /-- main-LO microseconds into the keeper second in progress, for the tick of the empty queue (log entry 9) -/
  subSec : Nat := 0
  /-- the main LO runs, as the activity monitor sees it (R31, R400) -/
  loRuns : Bool := true
  /-- KLN_TIME at the entry to KEEP (R419) -/
  keepSec : Nat := 0
  /-- the 250 ms slot of the HELD blink pattern (R399) -/
  blink : Nat := 0
  /-- how far the watchdog's tick has run, in main-LO cycles times 10^6 (R402, R403) -/
  wdgPhase : Nat := 0
  /-- the engines whose load copy a double-bit error has poisoned, in the load that is under way (R39, R361) -/
  loadBad : Nat := 0
  /-- a package reset or wake awaits its RESET_RECORDED (R425) -/
  resetDue : Bool := true
  /-- the BOOT under way follows a soft reset, which keeps the S fields (R401, R412) -/
  bootSoft : Bool := false
  /-- a package reset has taken place at this moment: another that arises with it joins it (R424) -/
  resetHold : Bool := false
  /-- the supplies outside their monitor bands now, bit x in the order of R430 -/
  supplyOut : Nat := 0
  /-- corrected-error counts and poisoned words of the dies (R288) -/
  dieCe : Vector Nat 4 := Vector.replicate 4 0
  diePoison : Vector Nat 4 := Vector.replicate 4 0
deriving DecidableEq, Repr, Inhabited

/-- Why a step faults. No meaning of this model faults: every row of the table has an effect the spec gives, and a condition
the spec does not list leaves the machine as it is. -/
inductive Fault where
  /-- raised by no meaning; it keeps the outcome type inhabited. Safe. -/
  | none_
deriving DecidableEq, Repr

/-- Why a step refuses. -/
inductive Refusal where
  /-- an instruction without a meaning yet, named by its mnemonic. Safe. -/
  | notModelled (mnemonic : String)
deriving DecidableEq, Repr

/-- The hub's state. -/
structure State where
  /-- the register file, sparse and in canonical form: a register not listed holds its reset value -/
  regs : List (Reg × Word) := []
  /-- high words snapshotted by a path read of their low word, by offset of the high register (R95, R261, R426) -/
  snap : List (Nat × Nat) := []
  /-- the event FIFO (R280), oldest first, its sequence number, its dropped count and whether it has overflowed -/
  evtFifo : List EvtRec := []
  evtSeq : Nat := 0
  evtDropped : Nat := 0
  evtFull : Bool := false
  mon : Vector MonInt 16 := Vector.replicate 16 {}
  /-- T-die 1's copy of PLZ_LO_HZ (R450) -/
  loHz1 : Nat := 25000000
  trg : Vector TrgInt 4 := Vector.replicate 4 {}
  /-- STB_IN runs, as the T-dies' activity monitors see it, and what each T-die then measures of the main LO against it (R31, R70) -/
  stbRuns : Bool := false
  stbOfs : Vector Nat 2 := Vector.replicate 2 0
  /-- bit t: the keeper was lost since region t's Kiln record was written (R87) -/
  kilnStale : Nat := 0
  wheel : Vector WheelInt 12 := Vector.replicate 12 {}
  syn : Vector SynInt 12 := Vector.replicate 12 {}
  out : Vector OutInt 48 := Vector.replicate 48 {}
  rail : Vector RailInt 24 := Vector.replicate 24 {}
  prg : Vector PrgInt 4 := Vector.replicate 4 {}
  /-- dependency entries that are armed, and that have been triggered and not yet tripped (R203) -/
  depArmed : Nat := 0
  depTrig : Nat := 0
  pin : PinInt := {}
  seq : SeqInt := {}
  dma : Vector DmaInt 32 := Vector.replicate 32 {}
  /-- the channel served last at each priority level (R328) -/
  rr : Vector Nat 4 := Vector.replicate 4 31
  iotlb : List TlbEnt := []
  walks : List Walk := []
  /-- the invalidation in progress: kind, context, page (R340) -/
  inv : Option (Nat × Nat × Nat) := none
  host : HostInt := {}
  mgt : MgtInt := {}
  otp : OtpInt := {}
  /-- the image each class runs, and the staged one; none under the Bisque image (R352, R357) -/
  img : Vector (Option ImgInfo) 3 := Vector.replicate 3 none
  stg : Vector (Option ImgInfo) 3 := Vector.replicate 3 none
  wdg : Vector WdgInt 16 := Vector.replicate 16 {}
  pkg_ : PkgInt := {}
  /-- the external flash, sparse and in canonical form; a byte not listed is erased, 0xFF (R307) -/
  flash : List Host.Cell := []
  /-- ranges of the flash that a reset has torn, what they read as being free: first byte, length, the tear (R361, R407) -/
  torn : List (Nat × Nat × Nat) := []
  lnk : Vector LnkInt 4 := Vector.replicate 4 {}
  sys : SysInt := {}
  /-- received records waiting in the queue of each link port (R257) -/
  rxq : Vector (List LineUnit) 4 := Vector.replicate 4 []
  /-- what the hub has sent, oldest first -/
  sent : List Emit := []
  /-- the engines' memories (R346) -/
  engMem : Vector EngMem 12 := Vector.replicate 12 {}
  /-- requests of the 26 DMA request lines: raised and not yet taken, and numbered (R324) -/
  lineWait : Vector Nat 26 := Vector.replicate 26 0
  lineSeq : Vector Nat 26 := Vector.replicate 26 0
  /-- draws of free values so far (Config.freeWord; the model's own field) -/
  freeCount : Nat := 0
  /-- commands waiting, first in first out -/
  pending : List Instr := []
deriving DecidableEq, Repr

/-- The fuses of a part as Opevo ships it: ID/TRIM closed and locked (R387), with the PCIe identifiers of R4 in word 0, HK0's 0.85 V in
word 5 (R219), the seal in word 31 and the lock bit in row 512; the other words unburned (log entry 7). -/
def shippedFuses : List (Nat × Nat × Nat × Nat) :=
  let same (w v : Nat) : Nat × Nat × Nat × Nat := (w, v, v, v)
  [same 0 538088709759, same 5 489626271769, same 31 510281289776, same 512 1]

/-- The hub right after power-on reset (R412, R426). -/
def State.reset : State := { otp := { fuse := shippedFuses } }

end Sys2Proof.Machine
end

