-- ==== Sys2Proof/Machine/Ops.lean ====
section
/-! DEFINITION. Sys2Proof/Machine/Ops.lean: the shared operations over State: reading and writing a register or a field,
counting an ignored action (R12), raising an event (R34, R280), the die of a unit (R14), CRC32C (R37) and bytes. -/

namespace Sys2Proof.Machine

/-! ### Words and numbers -/

/-- Field `[lo + n - 1 : lo]` of a word. -/
def wordGet (w : Word) (lo n : Nat) : Nat := w.toNat / 2 ^ lo % 2 ^ n

/-- The word with field `[lo + n - 1 : lo]` replaced by the low `n` bits of `v`. -/
def wordSet (w : Word) (lo n v : Nat) : Word :=
  BitVec.ofNat 32 (w.toNat / 2 ^ (lo + n) * 2 ^ (lo + n) + v % 2 ^ n * 2 ^ lo + w.toNat % 2 ^ lo)

/-- An `n`-bit field read as two's complement. -/
def toSigned (n v : Nat) : Int := if v % 2 ^ n < 2 ^ (n - 1) then (v % 2 ^ n : Nat) else (v % 2 ^ n : Nat) - (2 ^ n : Nat)

/-- A whole number as an `n`-bit two's complement field. -/
def ofSigned (n : Nat) (v : Int) : Nat := (v % (2 ^ n : Nat)).toNat

/-- A whole number held within two bounds. -/
def clampInt (lo hi v : Int) : Int := if v < lo then lo else if hi < v then hi else v

/-- A value held to the largest an `n`-bit field carries. -/
def satNat (n v : Nat) : Nat := min v (2 ^ n - 1)

/-- The signed result encodings of the measurement registers saturate at 0x7FFF_FFFF and 0x8000_0001. -/
def satS32 (v : Int) : Nat := ofSigned 32 (clampInt (-2147483647) 2147483647 v)

/-- Division to the nearest whole number, a half going up; 0 for a zero divisor. -/
def roundDiv (a b : Nat) : Nat := (2 * a + b) / (2 * b)

/-- Signed division to the nearest whole number, a half away from zero. -/
def roundDivInt (a : Int) (b : Nat) : Int :=
  if a < 0 then -((roundDiv a.natAbs b : Nat) : Int) else ((roundDiv a.natAbs b : Nat) : Int)

/-- Bit `i` of a number. -/
def bitOf (v i : Nat) : Bool := v / 2 ^ i % 2 = 1

/-- The number with bit `i` set or cleared. -/
def bitPut (v i : Nat) (b : Bool) : Nat :=
  if bitOf v i = b then v else if b then v + 2 ^ i else v - 2 ^ i

/-- The positions below `n` whose bit is set. -/
def bitsOf (n v : Nat) : List Nat := (List.range n).filter (bitOf v)

/-- The mask of a list of positions below `n`. -/
def maskOf (n : Nat) (p : Nat → Bool) : Nat := (List.range n).foldl (fun a i => if p i then a + 2 ^ i else a) 0

/-- The number of set bits below `n`. -/
def popCount (n v : Nat) : Nat := (bitsOf n v).length

/-- The first `n` bytes of a number, little-endian. -/
def natBytes : Nat → Nat → List Byte
  | 0, _ => []
  | n + 1, v => BitVec.ofNat 8 v :: natBytes n (v / 256)

/-! ### The register file -/

/-- The stored word of a register. -/
def regLookup : List (Reg × Word) → Reg → Option Word
  | [], _ => none
  | (r, w) :: l, q => if r = q then some w else regLookup l q

/-- The register file without a register. -/
def regErase (l : List (Reg × Word)) (r : Reg) : List (Reg × Word) := l.filter (fun e => e.1 ≠ r)

/-- The order of the register file: by name, then by index. -/
def Reg.before (r q : Reg) : Bool :=
  if r.name ≠ q.name then r.name.ctorIdx < q.name.ctorIdx
  else if r.i ≠ q.i then r.i < q.i
  else if r.j ≠ q.j then r.j < q.j
  else r.k < q.k

/-- A word put in at its place. -/
def regInsert (r : Reg) (w : Word) : List (Reg × Word) → List (Reg × Word)
  | [] => [(r, w)]
  | e :: l => if r.before e.1 then (r, w) :: e :: l else e :: regInsert r w l

/-- Storing a word keeps the canonical form: a register at its reset value is not listed. -/
def regStore (l : List (Reg × Word)) (r : Reg) (w : Word) : List (Reg × Word) :=
  if w = r.reset then regErase l r else regInsert r w (regErase l r)

/-- The canonical form of the register file: registers in order, each once, none listed at its reset value. -/
abbrev RegsWf (l : List (Reg × Word)) : Prop :=
  l.Pairwise (fun a b => a.1.before b.1 = true) ∧ ∀ e ∈ l, e.2 ≠ e.1.reset

/-- The word a register holds. -/
def State.word (s : State) (r : Reg) : Word := (regLookup s.regs r).getD r.reset

/-- The state with a register's word replaced. -/
def State.setWord (s : State) (r : Reg) (w : Word) : State := { s with regs := regStore s.regs r w }

/-- A field's value. -/
def State.get (s : State) (f : Fld) : Nat := wordGet (s.word f.reg) f.lo f.w

/-- The state with a field's value replaced. -/
def State.set (s : State) (f : Fld) (v : Nat) : State := s.setWord f.reg (wordSet (s.word f.reg) f.lo f.w v)

/-- A one-bit field as a condition. -/
def State.on (s : State) (f : Fld) : Bool := s.get f = 1

/-- A one-bit field set from a condition. -/
def State.put (s : State) (f : Fld) (b : Bool) : State := s.set f (if b then 1 else 0)

/-- Bit `i` of a field. -/
def State.bit (s : State) (f : Fld) (i : Nat) : Bool := bitOf (s.get f) i

/-- Bit `i` of a field set or cleared. -/
def State.setBit (s : State) (f : Fld) (i : Nat) (b : Bool) : State := s.set f (bitPut (s.get f) i b)

/-- A counter field goes up by `n` and saturates. -/
def State.bumpBy (s : State) (f : Fld) (n : Nat) : State := s.set f (satNat f.w (s.get f + n))

/-- A counter field goes up by one and saturates. -/
def State.bump (s : State) (f : Fld) : State := s.bumpBy f 1

/-- A signed field. -/
def State.getS (s : State) (f : Fld) : Int := toSigned f.w (s.get f)

/-- A signed field set. -/
def State.setS (s : State) (f : Fld) (v : Int) : State := s.set f (ofSigned f.w v)

/-- A 48-bit (or narrower) unsigned value held in a low and a high field. -/
def State.getWide (s : State) (lo hi : Fld) : Nat := s.get lo + 2 ^ 32 * s.get hi

/-- The value of a low and a high field set together. -/
def State.setWide (s : State) (lo hi : Fld) (v : Nat) : State := (s.set lo v).set hi (v / 2 ^ 32)

/-- A signed 48-bit value held in a low and a high field. -/
def State.getS48 (s : State) (lo hi : Fld) : Int := toSigned 48 (s.getWide lo hi)

/-- A signed 48-bit value stored in a low and a high field. -/
def State.setS48 (s : State) (lo hi : Fld) (v : Int) : State := s.setWide lo hi (ofSigned 48 v)

/-- An operation applied for each number below `n` in rising order. -/
def State.each (s : State) (n : Nat) (f : Nat → State → State) : State := (List.range n).foldl (fun a i => f i a) s

/-- An operation applied where a condition holds. -/
def State.when (s : State) (b : Bool) (f : State → State) : State := if b then f s else s

/-! ### Banks of internal state -/

/-- An element of a bank, the default beyond its end. -/
def bankGet {α : Type} {n : Nat} [Inhabited α] (v : Vector α n) (i : Nat) : α := v[i]?.getD default

/-- A bank with one element changed. -/
def bankMod {α : Type} {n : Nat} [Inhabited α] (v : Vector α n) (i : Nat) (f : α → α) : Vector α n :=
  v.setIfInBounds i (f (bankGet v i))

/-! ### Ignored actions -/

/-- An ignored action is counted, with its source and address (R12, R426). -/
def State.ignored (s : State) (source addr : Nat) (detail : Nat := 0) : State :=
  (((s.bump GLB_IGNORED_CNT_CNT).set GLB_IGNORED_LAST_A_ADDR addr).set GLB_IGNORED_LAST_S_SOURCE source).set
    GLB_IGNORED_LAST_S_DETAIL detail

/-- The SOURCE code of a writer (R426). -/
def Path.source : Path → Nat
  | .host => 0x01
  | .pmb => 0x04
  | .i3c => 0x05
  | .jtag => 0x06
  | .link => 0x08
  | .dma _ => 0x09
  | .boot => 0x0A
  | .glb => 0x0B
  | .eng e => 0x10 + e.val

/-- The DETAIL of a writer: the channel of a DMA write (R426). -/
def Path.detail : Path → Nat
  | .dma ch => ch.val
  | _ => 0

/-! ### What the hub sends -/

/-- Something is sent to an agent outside the hub. -/
def State.emit (s : State) (e : Emit) : State := { s with sent := s.sent ++ [e] }

/-- The message of an MSI-X vector, as its table entry gives it (R293). -/
def State.msixOf (s : State) (v : Nat) : Emit :=
  .msix v (4 * s.get (MSIX_ADDR_LO_ADDR v) + 2 ^ 32 * s.get (MSIX_ADDR_HI_ADDR v)) (s.get (MSIX_DATA_DATA v))

/-- An MSI-X vector is raised (R283): sent, or pending while it is masked (R293). -/
def State.vector (s : State) (v : Nat) : State :=
  if s.on (MSIX_VCTL_MASK v) then s.setBit (MSIX_PBA_PEND (v / 32)) (v % 32) true else s.emit (s.msixOf v)

/-! ### Dies -/

/-- The die codes of R280: C, T0, T1, P. -/
def dieC : Nat := 0
def dieT0 : Nat := 1
def dieT1 : Nat := 2
def dieP : Nat := 3

/-- The die of a timing region (R14). -/
def dieOfRegion (t : Nat) : Nat := if t < 2 then dieT0 else dieT1

/-- The die of a cluster (R14). -/
def dieOfCluster (c : Nat) : Nat := if c < 6 then dieT0 else dieT1

/-- The die of an output unit (R14). -/
def dieOfOut (n : Nat) : Nat := if n < 24 then dieT0 else dieT1

/-- The home die of a reference (R14). -/
def dieOfRef (m : Nat) : Nat := if m < 8 then dieT0 else dieT1

/-- A die is isolated (R24, GLB_DIE). -/
def State.isolated (s : State) (d : Nat) : Bool := s.bit GLB_DIE_ISOLATED d

/-- The die of a link port (R27). -/
def dieOfPort (k : Nat) : Nat := if k < 2 then dieT0 else dieT1

/-- The die of an engine (R346). -/
def dieOfEngine (e : Nat) : Nat :=
  if e < 4 then dieC else if e < 6 then dieT0 else if e < 8 then dieT1 else dieP

/-- The die the register at an offset lies on. -/
def dieOfOff (off : Nat) : Nat :=
  if off < 0x10000 then dieC
  else if off < 0x10100 then dieT0
  else if off < 0x11000 then dieOfRegion ((off - 0x10100) / 0x40)
  else if off < 0x20000 then dieOfRef ((off - 0x11000) / 0x100)
  else if off < 0x30000 then dieOfRegion ((off - 0x20000) / 0x4000)
  else if off < 0x40000 then dieOfCluster ((off - 0x30000) / 0x1000)
  else if off < 0x48000 then dieOfOut ((off - 0x40000) / 0x200)
  else if off < 0x50000 then dieOfCluster ((off - 0x48000) / 0x400)
  else if off < 0x70000 then dieP
  else if 0x71000 ≤ off ∧ off < 0x71100 then dieC
  else if off < 0x80000 then dieOfPort ((off - 0x70000) / 0x2000)
  else if off < 0x90000 then dieC
  else dieOfEngine ((off - 0x90000) / 0x400)

/-- The die links from one die to another carry what it sends: they are one die, or neither is isolated (R22, R23). -/
def State.linked (s : State) (a b : Nat) : Bool := a = b || (!s.isolated a && !s.isolated b)

/-- Data from one die reaches another: no data lane joins a T-die and the P-die, so what passes between these goes over the C-die
(R22, R23, R28). -/
def State.routed (s : State) (a b : Nat) : Bool :=
  s.linked a b && (!((a = dieP && (b = dieT0 || b = dieT1)) || (b = dieP && (a = dieT0 || a = dieT1))) || !s.isolated dieC)

/-- The die an event's record comes from, by its class and its source (R27, R280, R281). -/
def evtDie (code src : Nat) : Nat :=
  match code / 256 with
  | 0 => if code = 0 then src else dieC
  | 1 => if code < 0x104 then dieOfRef src else dieOfRegion src
  | 2 => dieOfRegion src
  | 3 => dieOfCluster src
  | 4 => dieOfCluster src
  | 5 => dieOfOut src
  | 6 => dieP
  | 7 => dieP
  | 8 => if code < 0x804 then dieOfPort src else dieC
  | 11 => if code < 0xB02 then dieOfEngine src else dieC
  | 12 => if code = 0xC01 then dieP else dieC
  | _ => dieC

/-! ### DMA request lines -/

/-- A request line is raised: it waits, and its sequence number rises (R324). -/
def raiseLine (l : Nat) (s : State) : State :=
  { s with lineWait := bankMod s.lineWait l (· + 1), lineSeq := bankMod s.lineSeq l (fun n => (n + 1) % 2 ^ 32) }.setBit
    DMA_REQ_PEND_PEND l true

/-- A request line is raised from a die; the request of a die whose links are isolated never arrives (R22, R23). -/
def raiseLineFrom (d l : Nat) (s : State) : State := if s.linked d dieC then raiseLine l s else s

/-- The number of a line's latest request (R324). -/
def State.lastReq (s : State) (l : Nat) : Nat := s.lineSeq.toList.getD l 0

/-- A request line is raised from a die for a unit, which `mark` gives the request's number. -/
def raiseLineFor (d l : Nat) (mark : Nat → State → State) (s : State) : State :=
  if s.linked d dieC then let s1 := raiseLine l s; mark (s1.lastReq l) s1 else s

/-- The event FIFO's request line (R324). -/
def lineEvent : Nat := 24

/-- The records of the FIFO that no request has been raised for are numbered, from the request after `q` on. -/
def askRecords : Nat → List EvtRec → List EvtRec
  | _, [] => []
  | q, e :: l =>
    if e.req.isSome then e :: askRecords q l
    else let q' := (q + 1) % 2 ^ 32; { e with req := some q' } :: askRecords q' l

/-- Line 24 is raised once per record while DMA_EVREQ.EN is 1 and the host port is not RUNNING (R324). -/
def eventLine (s : State) : State :=
  if s.on DMA_EVREQ_EN && s.get HOST_STAT_RSTATE ≠ 1 then
    let s1 := (s.evtFifo.filter (fun e => e.req.isNone)).foldl (fun s _ => raiseLine lineEvent s) s
    { s1 with evtFifo := askRecords (s.lastReq lineEvent) s.evtFifo }
  else s

/-! ### Events -/

/-- Items of a record packed from word 4 bit 0 in their widths (R280). -/
def packBody : List (Nat × Nat) → Nat
  | [] => 0
  | (w, v) :: l => v % 2 ^ w + 2 ^ w * packBody l

/-- The capacity of the event FIFO (R280). -/
def evtCapacity : Nat := 256

/-- MGT_EV.FILL follows the FIFO (R316). -/
def showFill (s : State) : State := s.set MGT_EV_FILL s.evtFifo.length

/-- An IBI with the CLASS of the record is raised as the FIFO becomes non-empty, while IBIs are enabled and the ring does not own
the FIFO (R303, R304). -/
def raiseIbi (was code : Nat) (s : State) : State :=
  if was = 0 && s.on MGT_I3C_STAT_IBI_EN && s.on MGT_I3C_CFG_EN && s.get HOST_STAT_RSTATE ≠ 1 then s.emit (.ibi (code / 256)) else s

/-- A record enters the FIFO, or is dropped and counted when it meets a full one (R34, R280); the first drop sets the sticky
EVT_OVERFLOW bit (R282). -/
def State.postEvt (s : State) (code src body : Nat) : State :=
  let seq := s.evtSeq + 1
  if s.evtFifo.length < evtCapacity then
    raiseIbi s.evtFifo.length code <| showFill <| eventLine
    { s with evtSeq := seq, evtFull := false
             evtFifo := s.evtFifo ++ [{ code := code, src := src, seq := seq
                                        time := s.getWide GLB_TIMER_LO_US GLB_TIMER_HI_US, body := body
                                        dropped := satNat 16 s.evtDropped }]
             evtDropped := 0 }
  else
    let s1 := ({ s with evtSeq := seq, evtDropped := s.evtDropped + 1, evtFull := true }).bump GLB_EVCNT_OVF_CNT
    s1.when (!s.evtFull) (fun s => s.setBit GLB_EVT_EVT 2 true)

/-- A record is sent to the event FIFO on the C-die; one from a die whose links are isolated never arrives (R22, R23, R34). -/
def State.pushEvt (s : State) (code src body : Nat) : State :=
  if s.linked (evtDie code src) dieC then s.postEvt code src body else s

/-- The oldest record leaves the FIFO. The EVT_OVERFLOW record of a drop enters as soon as there is room for it, with the number of
records dropped by then (R280, R282, log entry 6: DEDUCED). -/
def State.dropOldest (s : State) : State :=
  let s1 := showFill { s with evtFifo := s.evtFifo.drop 1, evtFull := false }
  if s.evtFull then s1.postEvt 0x0002 0 (packBody [(16, satNat 16 s.evtDropped)]) else s1

/-- The record at place `i` leaves the FIFO, as the oldest does. -/
def State.dropAt (s : State) (i : Nat) : State :=
  if i = 0 then s.dropOldest
  else
    let s1 := showFill { s with evtFifo := s.evtFifo.eraseIdx i, evtFull := false }
    if s.evtFull then s1.postEvt 0x0002 0 (packBody [(16, satNat 16 s.evtDropped)]) else s1

/-- The 32 bytes of an event entry with a phase bit (R280). -/
def EvtRec.bytes (e : EvtRec) (phase : Bool) : List Byte :=
  natBytes 4 (e.code % 2 ^ 16 + 2 ^ 16 * (e.src % 2 ^ 8)) ++ natBytes 4 e.seq ++ natBytes 8 (e.time % 2 ^ 48) ++
    natBytes 12 e.body ++ natBytes 4 (e.dropped % 2 ^ 16 + (if phase then 2 ^ 31 else 0))

/-- An event is raised: its sticky bit sets and its record is made (R34, R281). -/
def State.raise (s : State) (sticky : Fld) (bit : Nat) (code src : Nat) (body : List (Nat × Nat) := []) : State :=
  (s.setBit sticky bit true).pushEvt code src (packBody body)

/-- The registers that posting an event may touch: the request lines (R324), the FIFO's fill (R316), the count of dropped records
and the overflow's sticky bit (R280, R282). -/
def eventOffs : List Nat :=
  [Reg.off ⟨.DMA_REQ_PEND, 0, 0, 0⟩, Reg.off ⟨.MGT_EV, 0, 0, 0⟩, Reg.off ⟨.GLB_EVCNT, 0, 0, 0⟩, Reg.off ⟨.GLB_EVT, 0, 0, 0⟩]

/-- The registers that counting an ignored action touches (R12, R426). -/
def ignoredOffs : List Nat :=
  [Reg.off ⟨.GLB_IGNORED_CNT, 0, 0, 0⟩, Reg.off ⟨.GLB_IGNORED_LAST_A, 0, 0, 0⟩, Reg.off ⟨.GLB_IGNORED_LAST_S, 0, 0, 0⟩]

/-! ### The package state (R415) -/

def pkgOff : Nat := 0
def pkgBoot : Nat := 1
def pkgHeld : Nat := 2
def pkgRun : Nat := 3
def pkgStandby : Nat := 4
def pkgKeep : Nat := 5

/-- The package state, as GLB_STATE shows it. -/
def State.pkg (s : State) : Nat := s.get GLB_STATE_STATE

/-- RUN or STANDBY. -/
def State.active (s : State) : Bool := s.pkg = pkgRun || s.pkg = pkgStandby

/-! ### Bytes and CRC32C -/

/-- One bit step of the reflected CRC32C (R37: polynomial 0x1EDC_6F41, reflected 0x82F6_3B78). -/
def crcBit (c : Nat) : Nat := if c % 2 = 1 then (c / 2) ^^^ 0x82F63B78 else c / 2

/-- One byte into the CRC accumulator. -/
def crcByte (c : Nat) (b : Nat) : Nat :=
  crcBit (crcBit (crcBit (crcBit (crcBit (crcBit (crcBit (crcBit (c ^^^ b))))))))

/-- CRC32C of a byte list (R37: initial value and final XOR 0xFFFF_FFFF). -/
def crc32c (l : List Byte) : Word :=
  BitVec.ofNat 32 ((l.foldl (fun c b => crcByte c b.toNat) 0xFFFFFFFF) ^^^ 0xFFFFFFFF)

/-- A word as its little-endian bytes. -/
def wordBytes (w : Word) : List Byte :=
  [w.extractLsb' 0 8, w.extractLsb' 8 8, w.extractLsb' 16 8, w.extractLsb' 24 8]

/-- Words as their little-endian bytes. -/
def wordsBytes (l : List Word) : List Byte := l.flatMap wordBytes

/-- CRC32C of words in little-endian order. -/
def crcWords (l : List Word) : Word := crc32c (wordsBytes l)

/-- The little-endian number of a byte list. -/
def leNat : List Byte → Nat
  | [] => 0
  | b :: l => b.toNat + 256 * leNat l

/-- The big-endian number of a byte list. -/
def beNat (l : List Byte) : Nat := l.foldl (fun a b => a * 256 + b.toNat) 0

/-- Bytes `[a, a + n)` of a list, zero beyond its end. -/
def bytesAt (l : List Byte) (a n : Nat) : List Byte := (List.range n).map (fun i => l.getD (a + i) 0)

/-- The little-endian word at a byte offset of a list. -/
def wordAt (l : List Byte) (a : Nat) : Word := BitVec.ofNat 32 (leNat (bytesAt l a 4))

/-- The words of a byte list. -/
def bytesWords (l : List Byte) : List Word := (List.range ((l.length + 3) / 4)).map (fun i => wordAt l (4 * i))

/-! ### Sparse byte memories -/

/-- The byte at an address, the memory's blank value where nothing is listed. -/
def memGet (blank : Byte) : List Host.Cell → Nat → Byte
  | [], _ => blank
  | (a, b) :: l, x => if a = x then b else memGet blank l x

/-- A byte put in at its place in address order. -/
def memInsert (a : Nat) (b : Byte) : List Host.Cell → List Host.Cell
  | [] => [(a, b)]
  | e :: l => if a < e.1 then (a, b) :: e :: l else e :: memInsert a b l

/-- A byte written: the list keeps its canonical form. -/
def memPut (blank : Byte) (l : List Host.Cell) (a : Nat) (b : Byte) : List Host.Cell :=
  let l' := l.filter (fun e => e.1 ≠ a)
  if b = blank then l' else memInsert a b l'

/-- Bytes written at rising addresses. -/
def memPutAll (blank : Byte) : List Host.Cell → Nat → List Byte → List Host.Cell
  | l, _, [] => l
  | l, a, b :: bs => memPutAll blank (memPut blank l a b) (a + 1) bs

/-- Bytes read at rising addresses. -/
def memGetAll (blank : Byte) (l : List Host.Cell) (a n : Nat) : List Byte :=
  (List.range n).map (fun i => memGet blank l (a + i))

/-- Bytes loaded from address 0 on; what lies above them stays. -/
def memLoad (blank : Byte) (l : List Host.Cell) (bs : List Byte) : List Host.Cell :=
  (bs.zipIdx.filter (fun b => b.1 ≠ blank)).map (fun b => (b.2, b.1)) ++ l.filter (fun e => bs.length ≤ e.1)

/-- The canonical form of a sparse byte memory: addresses strictly rising, no listed byte equal to the blank value. -/
abbrev Memory.wf (blank : Byte) (l : List Host.Cell) : Prop :=
  l.Pairwise (fun a b => a.1 < b.1) ∧ ∀ e ∈ l, e.2 ≠ blank

/-- A byte written to an engine's data memory (R346). -/
def engStore (e a : Nat) (b : List Byte) (s : State) : State :=
  { s with engMem := bankMod s.engMem e (fun m => { m with data := memPutAll 0 m.data a b }) }

/-- A section loaded into an engine's memories from address 0: its instructions, its data, and the entry point (R346, R350, R352; log entry
158: DESIGN CHOICE). -/
def engLoad (e : Nat) (text data : List Byte) (entry : Nat) (s : State) : State :=
  { s with engMem := bankMod s.engMem e (fun m => { m with text := memLoad 0 m.text text, data := memLoad 0 m.data data, entry := entry }) }

/-- Bytes of an engine's data memory. -/
def State.engBytes (s : State) (e a n : Nat) : List Byte := memGetAll 0 (bankGet s.engMem e).data a n

/-- Bytes sent to an engine's data memory from the C-die, which an isolated die does not take (R22, R346). -/
def engWrite (e a : Nat) (b : List Byte) (s : State) : State := if s.linked dieC (dieOfEngine e) then engStore e a b s else s

/-- An engine's interrupt, from the C-die: its DMA interrupt (R337) or a pin's (R375). -/
def engInterrupt (e : Nat) (pin : Bool) (s : State) : State := if s.linked dieC (dieOfEngine e) then s.emit (.engIrq e pin) else s

/-! ### Free values -/

/-- A draw of a free value (log entry 3). -/
def State.draw (s : State) : Nat × State := ((Config.freeWord s.freeCount).toNat, { s with freeCount := s.freeCount + 1 })

/-! ### Memories and their errors (R38, R42) -/

/-- POISONED (R38, R282): the die's count and, where its links carry the error to the C-die (R22, R23), the sticky bit and the record; the
memory's code is log entry 23's. -/
def poisoned (die mem addr : Nat) (s : State) : State :=
  let s1 := { s with pkg_ := { s.pkg_ with diePoison := bankMod s.pkg_.diePoison die (· + 1) } }
  if s.linked die dieC then s1.raise GLB_EVT_EVT 0 0x0000 die [(2, die), (32, mem), (32, addr)] else s1

def memInstr : Nat := 0
def memData : Nat := 1
def memKiln : Nat := 2
def memDesc : Nat := 3
def memBand : Nat := 4
def memSeq : Nat := 5
def memRamp : Nat := 6
def memTable : Nat := 7

/-- The memories the hub sends from (R41, R332), after those of `execScrubWord`: telemetry frames, event records, the state summary, link
receive queues and capture blocks (log entry 23). -/
def memFrame : Nat := 11
def memEvent : Nat := 12
def memSummary : Nat := 13
def memRxq : Nat := 14
def memCap : Nat := 15

/-- An object sent with its CRC32C, or with the CRC's inverse where a word of it had a double-bit error (R41). -/
def withCrc (body : List Byte) (damaged : Bool) : List Byte :=
  let c := (crc32c body).toNat
  body ++ natBytes 4 (if damaged then c ^^^ 0xFFFFFFFF else c)

end Sys2Proof.Machine
end

