-- ==== Sys2Proof/Machine/Clock.lean ====
section
/-! DEFINITION. Sys2Proof/Machine/Clock.lean: the frequencies of region references, VCOs and bypass lanes, nominal and as they run (R69,
R97, R111), as fractions of hertz, and the names of the cluster states (R108). -/

namespace Sys2Proof.Machine

def synOff : Nat := 0
def synSearching : Nat := 1
def synAcquiring : Nat := 2
def synLocked : Nat := 3
def synUnlocked : Nat := 4
def synFailed : Nat := 5

/-- The state of a cluster. -/
def State.synState (s : State) (c : Nat) : Nat := s.get (SYN_STAT_STATE c)

/-- A cluster's internal state. -/
def State.synOf (s : State) (c : Nat) : SynInt := bankGet s.syn c

/-- A cluster's internal state changed. -/
def State.modSyn (s : State) (c : Nat) (f : SynInt → SynInt) : State := { s with syn := bankMod s.syn c f }

/-- The nominal region reference in Hz (R69). -/
def State.rref (s : State) (t : Nat) : Nat :=
  [100000000, 122880000, 125000000, 156250000, 250000000].getD (s.get (TRG_CTL_RREF_SEL t)) 125000000

/-- A frequency as a fraction of hertz: numerator and denominator. -/
structure Freq where
  num : Nat
  den : Nat
deriving DecidableEq, Repr

/-- The control value of a region DPLL, in units of 2^-48 (R69). -/
def State.cv (s : State) (t : Nat) : Int := s.getS48 (TRG_CV_LO_CV t) (TRG_CV_HI_CV t)

/-- The region reference as it runs, f_RREF × (1 + CV × 2^-48) (R69). -/
def State.rrefNow (s : State) (t : Nat) : Freq := ⟨(s.rref t * ((2 ^ 48 : Nat) + s.cv t)).toNat, 2 ^ 48⟩

/-- A frequency divided by a whole number. -/
def Freq.over (f : Freq) (n : Nat) : Freq := ⟨f.num, f.den * n⟩

/-- A frequency is at least a number of hertz. -/
def Freq.atLeast (f : Freq) (hz : Nat) : Bool := hz * f.den ≤ f.num

/-- A frequency is at most a number of hertz. -/
def Freq.atMost (f : Freq) (hz : Nat) : Bool := f.num ≤ hz * f.den

/-- A frequency rounded to a unit of `u` hertz. -/
def Freq.inUnits (f : Freq) (u : Nat) : Nat := roundDiv f.num (f.den * u)

/-- The applied target of a cluster at nominal f_RREF (R97). -/
def State.fTarget (s : State) (c : Nat) : Freq := ⟨s.rref (c / 3) * (s.synOf c).num, (s.synOf c).den⟩

/-- The applied VCO frequency at nominal f_RREF (R97); 0 while the VCO is stopped. -/
def State.fVco (s : State) (c : Nat) : Freq := if s.synState c = synOff then ⟨0, 1⟩ else s.fTarget c

/-- A frequency moved by a Wheel offset of `o` units of 2^-36 (R124). -/
def Freq.shifted (f : Freq) (o : Int) : Freq := ⟨(f.num * ((2 ^ 36 : Nat) + o)).toNat, f.den * 2 ^ 36⟩

/-- The VCO frequency as it runs: on the region reference with its control value, and with the Wheel's offset, f_VCO × (1 + O × 2^-36)
(R69, R97, R124). -/
def State.fVcoNow (s : State) (c : Nat) : Freq :=
  if s.synState c = synOff then ⟨0, 1⟩
  else
    let f := s.rrefNow (c / 3)
    (⟨f.num * (s.synOf c).num, f.den * (s.synOf c).den⟩ : Freq).shifted (s.getS (RMP_OFS_O c))

/-- A cluster's VCO frequency as it runs (`now`), or at nominal frequencies. -/
def State.vcoAt (s : State) (now : Bool) (c : Nat) : Freq := if now then s.fVcoNow c else s.fVco c

/-- The sibling that source code `src` (1 or 2) of SYN_BYP names: the lower- or the higher-indexed of the region's other two
clusters (R111). -/
def sibling (c src : Nat) : Nat :=
  let t := c / 3
  (([3 * t, 3 * t + 1, 3 * t + 2].filter (· ≠ c))).getD (src - 1) (3 * t)

/-- The main LO's frequency as the die of a cluster computes with it: T-die 1 holds its own copy of PLZ_LO_HZ (R111, R450). -/
def State.loHz (s : State) (c : Nat) : Nat := if c < 6 then s.get PLZ_LO_HZ_LO_HZ else s.loHz1

/-- The lane of a cluster, from the main LO or from its sibling's VCO (R111); as it runs, a lane of the main LO stops with it (R119). -/
def State.laneAt (s : State) (now : Bool) (c : Nat) : Freq :=
  if s.get (SYN_BYP_SRC c) = 0 then
    if now && !s.pkg_.loRuns then ⟨0, 1⟩ else ⟨s.loHz c * s.get (SYN_BYP_BN c), s.get (SYN_BYP_BR c) + 1⟩
  else (s.vcoAt now (sibling c (s.get (SYN_BYP_SRC c)))).over (s.get (SYN_BYP_BN c))

/-- The lane of a cluster at nominal frequencies (R111). -/
def State.fLane (s : State) (c : Nat) : Freq := s.laneAt false c

/-- A lane is usable (R111). -/
def State.laneUsable (s : State) (c : Nat) : Bool :=
  (s.fLane c).atLeast 500000000 && (s.fLane c).atMost 3200000000 &&
    (s.get (SYN_BYP_SRC c) ≠ 0 || 5000000 * (s.get (SYN_BYP_BR c) + 1) ≤ s.loHz c)

/-- The cluster that supplies a region's timebase: the lowest-indexed one with TB_EN = 1 (R114). -/
def State.tbCluster (s : State) (t : Nat) : Option Nat :=
  [3 * t, 3 * t + 1, 3 * t + 2].find? (fun c => s.on (SYN_TB_TB_EN c))

/-- The timebase of a region as it runs (R97, R114, R139). -/
def State.fTb (s : State) (t : Nat) : Freq :=
  match s.tbCluster t with
  | some c => (s.fVcoNow c).over (s.get (SYN_TB_TBDIV c))
  | none => ⟨0, 1⟩

/-- The timebase, dithered by its cluster's Wheel, stays within 375 MHz to 425 MHz (R114, R139). -/
def State.tbInRange (s : State) (t : Nat) : Bool :=
  (s.tbCluster t).isSome && (s.fTb t).atLeast 375000000 && (s.fTb t).atMost 425000000

/-- A region's timebase is not lost (R114). -/
def State.tbGood (s : State) (t : Nat) : Bool :=
  match s.tbCluster t with
  | some c => s.synState c = synLocked && !s.on (SYN_STAT_RETUNE c) && (s.synOf c).returned && s.tbInRange t &&
      !s.isolated (dieOfRegion t)
  | none => false

/-! ### Output units -/

def outOff : Nat := 0
def outStarting : Nat := 1
def outRunning : Nat := 2
def outStopping : Nat := 3
def outOnLoss : Nat := 4

/-- An output unit's internal state. -/
def State.outOf (s : State) (n : Nat) : OutInt := bankGet s.out n

/-- An output unit's internal state changed. -/
def State.modOut (s : State) (n : Nat) (f : OutInt → OutInt) : State := { s with out := bankMod s.out n f }

/-- A unit is enabled. -/
def State.unitOn (s : State) (n : Nat) : Bool := s.on (OUT_CTL_EN n)

/-- A unit is in its on-loss condition (R109). -/
def State.onLoss (s : State) (n : Nat) : Bool := s.get (OUT_STAT_LOSS_KIND n) ≠ 0

/-- The source frequency of a unit whose mux is at `src` and `lane` (R147). -/
def State.sourceAt (s : State) (now : Bool) (n src lane : Nat) : Freq :=
  if src < 3 then s.vcoAt now (3 * (n / 12) + src) else s.laneAt now (3 * (n / 12) + lane)

/-- The frequency the format rules judge a source by: the applied target at nominal f_RREF, or the lane at nominal frequencies
(R146). -/
def State.fSource (s : State) (n src lane : Nat) : Freq :=
  if src < 3 then s.fTarget (3 * (n / 12) + src) else s.fLane (3 * (n / 12) + lane)

/-- A unit is in bypass on a lane: it has switched there at a loss (R110, R112). -/
def State.onLane (s : State) (n : Nat) : Bool := s.get (OUT_STAT_LOSS_KIND n) = 1 && s.get (OUT_STAT_CUR_SRC n) = 3

/-- The clock a unit divides, f_src: the VCO or the lane its mux is at, or in bypass the lane it has switched to (R149). -/
def State.fInUse (s : State) (now : Bool) (n : Nat) : Freq :=
  if s.onLane n then s.laneAt now (3 * (n / 12) + s.get (OUT_STAT_CUR_LANE n))
  else s.sourceAt now n (s.outOf n).src (s.outOf n).lane

/-- The ratio a unit divides by: R, or R / Q in bypass (R110, R149). -/
def State.ratioInUse (s : State) (n : Nat) : Nat :=
  let r := (s.outOf n).div + 1
  if s.onLane n then r / (s.get (SYN_BYP_Q (3 * (n / 12) + s.get (OUT_STAT_CUR_LANE n))) + 1) else r

/-- The frequency of a unit's divider output (R149). -/
def State.fOut (s : State) (now : Bool) (n : Nat) : Freq := (s.fInUse now n).over (s.ratioInUse n)

/-- The rate of a unit's rising edges (R149, R154): a FRAME unit counts F divider periods a frame. -/
def State.edgeRate (s : State) (now : Bool) (n : Nat) : Freq :=
  if s.get (OUT_CTL_ROLE n) = 1 then (s.fOut now n).over ((s.outOf n).fcnt + 1) else s.fOut now n

/-- The rate of a unit's rising edges as it runs, the control value and the Wheels' offsets included (R69, R97, R124, R182). -/
def State.unitRate (s : State) (n : Nat) : Freq := s.edgeRate true n

/-- The rate of a unit's rising edges at nominal frequencies (R235). -/
def State.nominalRate (s : State) (n : Nat) : Freq := s.edgeRate false n

/-- The half-periods of the source after which a unit's COARSE delay wraps: 2R, and 2R × F for a FRAME unit (R150). -/
def State.delayModulus (s : State) (n : Nat) : Nat :=
  2 * s.ratioInUse n * (if s.get (OUT_CTL_ROLE n) = 1 then (s.outOf n).fcnt + 1 else 1)

/-- The delay of a unit's edges, t_d = COARSE / (2 f_src) + FINE × 0.5 ps, in units of 0.5 ps, as a numerator and a denominator
(R150): a half-period of the source is 10^12 / f_src of them. COARSE counts half-periods of the source in use. -/
def State.unitDelay (s : State) (n : Nat) : Nat × Nat :=
  let f := s.fInUse true n
  let o := s.outOf n
  (10 ^ 12 * (o.coarse % s.delayModulus n) * f.den + o.fine * f.num, f.num)

end Sys2Proof.Machine
end

