-- ==== Sys2Proof/Machine/Plaza.lean ====
section
/-! DEFINITION. Sys2Proof/Machine/Plaza.lean: reference monitors and region selectors (chapter 02, R44 to R68). -/

namespace Sys2Proof.Machine

/-- The outcome of every meaning. -/
abbrev Out := Host.Outcome State Fault Refusal

/-- How a command of R278 ends (R277); `deferred` stands for an accepted deferred command. -/
structure CmdRes where
  status : Nat
  result : Word := 0
  s : State

/-- A command refused: IGNORED, no effect (R277). -/
def cmdIgnored (s : State) : CmdRes := ⟨0x01, 0, s⟩

/-- A command that took effect. -/
def cmdOk (s : State) : CmdRes := ⟨0x00, 0, s⟩

/-! ### Monitor states (R54) -/

def monOff : Nat := 0
def monFailed : Nat := 1
def monQualifying : Nat := 2
def monQualified : Nat := 3

/-- A monitor runs: neither OFF nor frozen by main-LO loss (R54, R55). -/
def State.monRuns (s : State) (m : Nat) : Bool :=
  s.get (MON_STAT_STATE m) ≠ monOff ∧ s.get (MON_STAT_FROZEN m) = 0

/-- A monitor's internal state changed. -/
def State.modMon (s : State) (m : Nat) (f : MonInt → MonInt) : State := { s with mon := bankMod s.mon m f }

/-- The gate in progress gives no result (R49). -/
def State.voidGate (s : State) (m : Nat) : State := s.modMon m (fun x => { x with gateVoid := true })

/-- Microseconds in the 0.1 s unit of MON_QUAL. -/
def qualUnit : Nat := 100000

/-- MON_QREM shows the time left of the qualification timer, rounded up (R68). -/
def showQrem (m : Nat) (s : State) : State := s.set (MON_QREM_QREM m) (((bankGet s.mon m).qual + (qualUnit - 1)) / qualUnit)

/-- The qualification timer is loaded from MON_QUAL, at an entry to QUALIFYING (R53). -/
def State.loadQual (s : State) (m : Nat) : State :=
  let n := qualUnit * s.get (MON_QUAL_QUAL m)
  showQrem m (s.modMon m (fun x => { x with qual := n, qualLen := n }))

/-- The running qualification timer starts again at the length it has: a value written since applies from the next entry (R53, R54). -/
def State.reloadQual (s : State) (m : Nat) : State := showQrem m (s.modMon m (fun x => { x with qual := x.qualLen }))

/-- A microsecond of the qualification timer (R53); its end is QUAL_TIMER_EXPIRE's. -/
def qualTick (m : Nat) (s : State) : State :=
  if s.get (MON_STAT_STATE m) = monQualifying ∧ s.get (MON_STAT_FROZEN m) = 0 then
    showQrem m (s.modMon m (fun x => { x with qual := x.qual - 1 }))
  else s

/-- To FAILED, the qualification timer gone (R53, R54). -/
def State.monFail (s : State) (m : Nat) : State := (s.set (MON_STAT_STATE m) monFailed).set (MON_QREM_QREM m) 0

/-- Qualifying or qualified: the states in which a failure raises an event (R54). -/
def State.monTrusted (s : State) (m : Nat) : Bool :=
  s.get (MON_STAT_STATE m) = monQualifying ∨ s.get (MON_STAT_STATE m) = monQualified

/-- EN written 0 (R54): OFF from any state; the activity monitor stops (R48). In OFF, ACT reads 0, and FVALID, FOFS, IN_ACCEPT and
IN_REJECT keep the last gate's result (log entry 147: DESIGN CHOICE). -/
def monDisable (m : Nat) (s : State) : State :=
  (((s.set (MON_STAT_STATE m) monOff).set (MON_STAT_ACT m) 0).set (MON_QREM_QREM m) 0).voidGate m

/-- EN written 1 (R54): OFF to FAILED, the activity monitor starts with no activity seen. -/
def monEnable (m : Nat) (s : State) : State :=
  if s.get (MON_STAT_STATE m) = monOff then ((s.set (MON_STAT_STATE m) monFailed).set (MON_STAT_ACT m) 0).voidGate m else s

/-- ACTIVITY_LOST (R47, R48, R54). -/
def execActivityLost (m : Fin 16) (s : State) : Out :=
  .next <|
    if s.monRuns m then
      let s1 := (s.set (MON_STAT_ACT m) 0).voidGate m
      if s.monTrusted m then ((s1.monFail m).bump (MON_CNT_LOS_CNT m)).raise (MON_EVT_LOS m) 0 0x0100 m else s1
    else s

/-- ACTIVITY_REGAINED (R48): activity present and a fresh gate. -/
def execActivityRegained (m : Fin 16) (s : State) : Out :=
  .next <|
    if s.monRuns m then (s.set (MON_STAT_ACT m) 1).modMon m (fun x => { x with gateVoid := false }) else s

/-- A gate result in 0.001 ppm lies within a limit in 0.01 ppm (R50: equal lies within). -/
def withinLimit (res : Int) (limit : Nat) : Bool := res.natAbs ≤ 10 * limit

/-- FREQ_GATE_DONE (R49, R50, R54): `res` is the gate's result in 0.001 ppm. A voided gate gives none and the next gate
starts clean while activity is present. -/
def execFreqGateDone (m : Fin 16) (res : BitVec 48) (s : State) : Out :=
  .next <|
    if s.monRuns m then
      let clean := s.on (MON_STAT_ACT m)
      let s0 := s.modMon m (fun x => { x with gateVoid := !clean })
      if (bankGet s.mon m.val).gateVoid then s0 else
      let r := res.toInt
      let acc := withinLimit r (s.get (MON_ACCEPT_ACCEPT m))
      let rej := withinLimit r (s.get (MON_REJECT_REJECT m))
      let s1 := (((s0.set (MON_FOFS_FOFS m) (satS32 r)).set (MON_STAT_FVALID m) 1).put (MON_STAT_IN_ACCEPT m) acc).put
        (MON_STAT_IN_REJECT m) rej
      if s.monTrusted m && !rej then (s1.monFail m).raise (MON_EVT_FREQ_REJECT m) 0 0x0101 m
      else if s.get (MON_STAT_STATE m) = monFailed ∧ clean ∧ acc then
        (s1.set (MON_STAT_STATE m) monQualifying).loadQual m
      else s1
    else s

/-- The nominal frequency of a reference in units of 2^−16 Hz (R44). -/
def State.refUnits (s : State) (m : Nat) : Nat := s.get (MON_FNOM_INT_FNOM_INT m) * 65536 + s.get (MON_FNOM_FRAC_FNOM_FRAC m)

/-- A second, in ns times 2^16: the nominal period in ns is this over `refUnits`. -/
def secUnits : Nat := 65536 * 1000000000

/-- D, the smallest power of two for which D × T_nom is at least 4 × MON_PJ_THR: every D-th edge is examined (R52). -/
def State.jumpSpan (s : State) (m : Nat) : Nat :=
  2 ^ ((List.range 24).find? (fun k => 4 * s.get (MON_PJ_THR_PJ_THR m) * s.refUnits m ≤ 2 ^ k * secUnits)).getD 24

/-- A number reduced modulo `n` into [−n/2, n/2). -/
def reduceInt (n : Nat) (v : Int) : Int := let r := v % (n : Int); if 2 * r < n then r else r - n

/-- The deviation of an examined edge, `dev` ns from its prediction, reduced modulo D × T_nom, in ns times `refUnits` (R52). -/
def State.jumpDev (s : State) (m : Nat) (dev : Int) : Int := reduceInt (s.jumpSpan m * secUnits) (dev * s.refUnits m)

/-- The reduced deviation is beyond the threshold of a detector that is on (R52). -/
def State.jumpSeen (s : State) (m : Nat) (dev : Int) : Bool :=
  s.get (MON_PJ_THR_PJ_THR m) ≠ 0 ∧ s.get (MON_PJ_THR_PJ_THR m) * s.refUnits m < (s.jumpDev m dev).natAbs

/-- PHASE_JUMP (R52, R54): `dev` is how far an examined edge, the D-th since the last, lies from its prediction, in ns. The regions that
follow the reference mark their history interval (R81). MON_PJ_LAST takes the reduced deviation to the nearest ns, a half away from zero
(log entry 105: DESIGN CHOICE). In QUALIFYING the timer is reloaded. -/
def execPhaseJump (m : Fin 16) (dev : Word) (s : State) : Out :=
  .next <|
    if s.monRuns m && s.on (MON_STAT_ACT m) && s.jumpSeen m dev.toInt then
      let s1 := s.voidGate m
      if s.monTrusted m then
        let last := ofSigned 32 (roundDivInt (s.jumpDev m dev.toInt) (s.refUnits m))
        let s2 := ((s1.bump (MON_CNT_PJ_CNT m)).set (MON_PJ_LAST_PJ_LAST m) last).raise (MON_EVT_PHASE_JUMP m) 0 0x0102 m
        let s3 := { s2 with trg := s2.trg.map (fun g => if g.cand = some m.val then { g with clean := false } else g) }
        if s.get (MON_STAT_STATE m) = monQualifying then s3.reloadQual m
        else if s.get (MON_CFG_PJ_ACTION m) = 0 then s3.monFail m else s3
      else s1
    else s

/-- QUAL_TIMER_EXPIRE (R53, R54). -/
def execQualTimerExpire (m : Fin 16) (s : State) : Out :=
  .next <|
    if s.monRuns m ∧ s.get (MON_STAT_STATE m) = monQualifying then
      ((s.set (MON_STAT_STATE m) monQualified).set (MON_QREM_QREM m) 0).raise (MON_EVT_QUALIFIED m) 0 0x0103 m
    else s

/-- Every monitor holds its state while the main LO is declared lost (R55). -/
def freezeMonitors (s : State) : State :=
  s.each 16 (fun m s => s.set (MON_STAT_FROZEN m) 1)

/-- LANE_CAL_DONE (R57, R66): the residuals of the reference lanes in 0.5 ps. -/
def execLaneCalDone (r01 r10 : Byte) (s : State) : Out :=
  .next (((s.set PLZ_LANE_CAL_RES_01 r01.toNat).set PLZ_LANE_CAL_RES_10 r10.toNat).set PLZ_LANE_CAL_CAL_DONE 1)

/-! ### Selectors (R56 to R64) -/

/-- Candidate `i` may be offered to region `t` (R56). -/
def candAvailable (t i : Nat) : Bool := i < 16 ∨ (t < 2 ∧ (i = 16 ∨ i = 17)) ∨ (2 ≤ t ∧ (i = 18 ∨ i = 19))

/-- The candidates of a region as a mask (R56). -/
def candMask (t : Nat) : Nat := maskOf 20 (candAvailable t)

/-- A candidate is qualified for a region: its monitor, or its port's frequency lock (R56, R234), and its die not cut off from
the region's (R58). -/
def State.candQualified (s : State) (t i : Nat) : Bool :=
  if i < 16 then
    s.get (MON_STAT_STATE i) = monQualified ∧
      (dieOfRef i = dieOfRegion t ∨ (s.isolated (dieOfRef i) = false ∧ s.isolated (dieOfRegion t) = false))
  else s.on (LNK_STAT_FLOCK (i - 16))

/-- A candidate is enabled in PLZ_CAND and qualified. -/
def State.candUsable (s : State) (t i : Nat) : Bool :=
  i < 20 && s.bit (PLZ_CAND_CAND_EN t) i && candAvailable t i && s.candQualified t i

/-- The priority of a candidate, PLZ_PRIO (R59). -/
def State.candPrio (s : State) (t i : Nat) : Nat :=
  wordGet (s.word ⟨.PLZ_PRIO, t, i / 8, 0⟩) (4 * (i % 8)) 4

/-- The better of two candidates: the lower priority value, then the lower index (R59). -/
def State.betterCand (s : State) (t : Nat) (best : Option Nat) (i : Nat) : Option Nat :=
  if s.candUsable t i then
    match best with
    | none => some i
    | some b => if s.candPrio t i < s.candPrio t b then some i else some b
  else best

/-- The best candidate of a region (R59). -/
def State.bestCand (s : State) (t : Nat) : Option Nat := (List.range 20).foldl (s.betterCand t) none

/-- The candidate selected now, or NONE. -/
def State.selected (s : State) (t : Nat) : Option Nat :=
  if s.on (PLZ_SEL_STAT_ACTIVE t) then some (s.get (PLZ_SEL_STAT_CUR_IDX t)) else none

/-- The selector's decision from one snapshot (R60 to R62, R64). -/
def State.selectorChoice (s : State) (t : Nat) : Option Nat :=
  let named (i : Nat) : Option Nat := if s.candUsable t i then some i else none
  match s.get (PLZ_SEL_CTL_MODE t) with
  | 1 => named (s.get (PLZ_SEL_CTL_FORCE_IDX t))
  | 2 => if s.on (PLZ_SEL_SYS_SYS_VALID t) then named (s.get (PLZ_SEL_SYS_SYS_IDX t)) else none
  | _ =>
    match s.selected t with
    | none => s.bestCand t
    | some x =>
      if s.candUsable t x then
        match s.bestCand t with
        | some b => if s.on (PLZ_SEL_CTL_REVERT t) ∧ s.candPrio t b < s.candPrio t x then some b else some x
        | none => some x
      else s.bestCand t

/-- The index an event record shows for a selection, 0x1F for none (R65). -/
def selCode : Option Nat → Nat
  | some i => i
  | none => 0x1F

/-- SELECTOR_PASS (R63, R64): a changed choice becomes the selection and raises REF_SWITCH. A selector on an isolated T-die
keeps deciding (R58); one whose C-die is isolated runs on its last settings (R24). -/
def execSelectorPass (t : Fin 4) (s : State) : Out :=
  .next <|
    let old := s.selected t
    let new := s.selectorChoice t
    if new = old then s else
    let s1 := match old with
      | some x => (s.set (PLZ_SEL_STAT_PREV_IDX t) x).set (PLZ_SEL_STAT_PREV_VALID t) 1
      | none => s.set (PLZ_SEL_STAT_PREV_VALID t) 0
    let s2 := match new with
      | some x => ((s1.set (PLZ_SEL_STAT_CUR_IDX t) x).set (PLZ_SEL_STAT_ACTIVE t) 1).bump (PLZ_SEL_STAT_SWITCH_CNT t)
      | none => s1.set (PLZ_SEL_STAT_ACTIVE t) 0
    s2.pushEvt 0x0104 t (packBody [(5, selCode old), (5, selCode new)])

/-- REF_FORCE (R61): refused for a candidate out of range or not enabled. -/
def cmdRefForce (t idx : Nat) (s : State) : CmdRes :=
  if idx < 20 ∧ s.bit (PLZ_CAND_CAND_EN t) idx then
    cmdOk ((s.set (PLZ_SEL_CTL_MODE t) 1).set (PLZ_SEL_CTL_FORCE_IDX t) idx)
  else cmdIgnored s

/-- REF_AUTO (R61). -/
def cmdRefAuto (t : Nat) (s : State) : CmdRes := cmdOk (s.set (PLZ_SEL_CTL_MODE t) 0)

/-! ### Write rules of the Plaza registers -/

/-- The nominal frequency that FNOM_INT, at least 1, and FNOM_FRAC give is at most 1.25 GHz (R45, R68). -/
def fnomLegal (int frac : Nat) : Bool := 1 ≤ int ∧ int * 65536 + frac ≤ 1250000000 * 65536

/-- The ordering and state rules of the PLZ and MON registers (R45, R51, R56, R61, R66): the write is applied only where this
holds. -/
def plzRule (r : Reg) (old new : Word) (s : State) : Bool :=
  match r.name with
  | .PLZ_LO_HZ => (List.range 16).all (fun m => s.get (MON_CFG_EN m) = 0)
  | .PLZ_CAND => (bitsOf 20 new.toNat).all (candAvailable r.i)
  | .PLZ_SEL_CTL => wordGet new 0 2 ≠ 1 ∨ s.bit (PLZ_CAND_CAND_EN r.i) (wordGet new 8 5)
  | .MON_CFG => !(wordGet old 0 1 = 1 ∧ wordGet new 0 1 = 1 ∧ wordGet old 1 7 ≠ wordGet new 1 7)
  | .MON_FNOM_INT => s.get (MON_CFG_EN r.i) = 0 && fnomLegal new.toNat (s.get (MON_FNOM_FRAC_FNOM_FRAC r.i))
  | .MON_FNOM_FRAC => s.get (MON_CFG_EN r.i) = 0 && fnomLegal (s.get (MON_FNOM_INT_FNOM_INT r.i)) (wordGet new 0 16)
  | .MON_REJECT => s.get (MON_ACCEPT_ACCEPT r.i) < wordGet new 0 20
  | .MON_ACCEPT => wordGet new 0 20 < s.get (MON_REJECT_REJECT r.i)
  | _ => true

/-- What an applied write of a PLZ or MON register sets off: the monitor starts or stops (R54), and T-die 1's copy of LO_HZ follows over
the die link (R450). -/
def plzAfter (r : Reg) (old new : Word) (s : State) : State :=
  match r.name with
  | .PLZ_LO_HZ => if s.linked dieT0 dieT1 then { s with loHz1 := wordGet new 0 27 } else s
  | .MON_CFG =>
    if wordGet old 0 1 = 0 ∧ wordGet new 0 1 = 1 then monEnable r.i s
    else if wordGet new 0 1 = 0 then monDisable r.i s
    else s
  | _ => s

end Sys2Proof.Machine
end

