-- ==== Sys2Proof/Machine/Dpll.lean ====
section
/-! DEFINITION. Sys2Proof/Machine/Dpll.lean: region DPLLs, holdover history and the Kiln record, and the dropping of pending
alignments (chapter 03, R69 to R96; R158). -/

namespace Sys2Proof.Machine

/-! ### Pending alignments -/

/-- A region's internal state changed. -/
def State.modTrg (s : State) (t : Nat) (f : TrgInt → TrgInt) : State := { s with trg := bankMod s.trg t f }

/-- Units of a region's 12-bit mask lose their ALIGN_PEND bit unless the other pending alignment names them. -/
def clearAlignPend (t mask other : Nat) (s : State) : State :=
  s.each 12 (fun j s => if bitOf mask j ∧ ¬ bitOf other j then s.set (OUT_STAT_ALIGN_PEND (12 * t + j)) 0 else s)

/-- The mask of the REALIGN pending in a region, 0 for none. -/
def State.realignMask (s : State) (t : Nat) : Nat :=
  match (bankGet s.trg t).realign with
  | some (m, _) => m
  | none => 0

/-- The mask of the OUT_RSYNC pending in a region, 0 for none. -/
def State.rsyncMask (s : State) (t : Nat) : Nat :=
  if s.on (OUT_RSYNC_STAT_PEND t) then s.get (OUT_RSYNC_STAT_PMASK t) else 0

/-- A pending REALIGN is dropped with a cause (R92). -/
def dropRealign (t cause : Nat) (s : State) : State :=
  match (bankGet s.trg t).realign with
  | some (m, _) =>
    ((clearAlignPend t m (s.rsyncMask t) (s.modTrg t (fun g => { g with realign := none }))).set (TRG_STAT_REALIGN_PEND t) 0).raise
      (TRG_EVT_REALIGN_DROPPED t) 0 0x0206 t [(12, m), (4, cause)]
  | none => s

/-- A pending OUT_RSYNC is dropped with a cause; each named unit records it (R158, R162). -/
def dropRsync (t cause : Nat) (s : State) : State :=
  if s.on (OUT_RSYNC_STAT_PEND t) then
    let m := s.get (OUT_RSYNC_STAT_PMASK t)
    let s1 := (clearAlignPend t m (s.realignMask t) s).set (OUT_RSYNC_STAT_PEND t) 0
    (s1.set (OUT_RSYNC_STAT_LAST t) 2).each 12 (fun j s =>
      if bitOf m j then s.raise (OUT_EVT_ALIGN_DROPPED (12 * t + j)) 0 0x0504 (12 * t + j) [(12, m), (4, cause)] else s)
  else s

/-! ### Control value (R69, R74) -/

def dpllDisabled : Nat := 0
def dpllFreerun : Nat := 1
def dpllAcquiring : Nat := 2
def dpllLocked : Nat := 3
def dpllHoldover : Nat := 4

/-- The state of a region DPLL. -/
def State.dpll (s : State) (t : Nat) : Nat := s.get (TRG_STAT_STATE t)

/-- The region follows a candidate: ACQUIRING or LOCKED (R77). -/
def State.dpllFollows (s : State) (t : Nat) : Bool := s.dpll t = dpllAcquiring ∨ s.dpll t = dpllLocked

/-- The pull-in limit in units of 2^−48 (R74: TRG_PULLIN in 0.1 ppm; rounded down, log entry 10). -/
def State.pullLimit (s : State) (t : Nat) : Nat := s.get (TRG_PULLIN_PULLIN t) * 2 ^ 48 / 10 ^ 7

/-- The control value, in every state clamped to the pull-in limit; an entry to a limit raises PULLIN_SAT and spoils the history
interval (R74, R81). -/
def setCv (t : Nat) (v : Int) (s : State) : State :=
  let lim : Int := s.pullLimit t
  let sat := lim ≤ v.natAbs
  let s1 := (s.setS48 (TRG_CV_LO_CV t) (TRG_CV_HI_CV t) (clampInt (-lim) lim v)).put (TRG_STAT_PULLIN_SAT t) sat
  if sat ∧ s.get (TRG_STAT_PULLIN_SAT t) = 0 then
    (s1.modTrg t (fun g => { g with clean := false })).raise (TRG_EVT_PULLIN_SAT t) 0 0x0208 t [(1, if v < 0 then 1 else 0)]
  else if sat then s1.modTrg t (fun g => { g with clean := false })
  else s1

/-- In HOLDOVER the control value is the holdover value plus the temperature term where TC_EN is 1 (R85). -/
def applyHoldover (t : Nat) (s : State) : State :=
  let g := bankGet s.trg t
  setCv t (g.hoBase + (if s.on (TRG_CTL_TC_EN t) then g.term else 0)) s

/-- While the loop integrates, the control value is what the loop has reached; held, captured or not following, it stays
(R76, R78). -/
def trackCv (t : Nat) (v : Int) (s : State) : State :=
  let g := bankGet s.trg t
  if s.dpllFollows t && !g.held && g.capture.isNone then setCv t v s else s

/-! ### Bandwidth in use (R71, R72) -/

/-- A candidate's nominal frequency in units of 2^−16 Hz (R71, R234). -/
def State.candFnom (s : State) (i : Nat) : Nat :=
  if i < 16 then s.get (MON_FNOM_INT_FNOM_INT i) * 65536 + s.get (MON_FNOM_FRAC_FNOM_FRAC i) else 156250000 * 65536

/-- The smallest power of two `D` with `f / D` at most 2 MHz (R71); 2^10 covers 1.25 GHz. -/
def detectorDiv (fnom : Nat) : Nat :=
  ((List.range 16).find? (fun d => fnom ≤ 2000000 * 65536 * 2 ^ d)).elim (2 ^ 15) (fun d => 2 ^ d)

/-- The bandwidth of a code in 0.1 mHz (R72). -/
def bandwidthOf (code : Nat) : Nat := [1, 2, 5].getD (code % 3) 0 * 10 ^ (code / 3)

/-- The highest code up to the set one whose bandwidth does not exceed f_pd / 20 (R72). -/
def bwEffective (fnom code : Nat) : Nat :=
  ((List.range (code + 1)).reverse.find? (fun c => bandwidthOf c * 20 * 65536 * detectorDiv fnom ≤ fnom * 10 ^ 4)).getD 0

/-- TRG_STAT.BW_EFF for the candidate followed (R72, R73). With no candidate followed, in FREERUN and HOLDOVER and after EN = 0, it keeps
the code last in use (log entry 106: DESIGN CHOICE). -/
def updateBw (t : Nat) (s : State) : State :=
  let g := bankGet s.trg t
  let code := if g.acqBw then s.get (TRG_BW_ACQ_BW t) else s.get (TRG_BW_BW t)
  let eff := match g.cand with
    | some c => bwEffective (s.candFnom c) code
    | none => code
  s.set (TRG_STAT_BW_EFF t) eff

/-! ### History and the holdover computation (R80 to R83, R87) -/

/-- The ring entry `j` places back from the one in accumulation. -/
def State.histIndex (s : State) (t j : Nat) : Nat := (s.get (TRG_HIST_PTR_WR_IDX t) + 1024 - j % 1024) % 1024

/-- The Kiln record of a region is usable (R87). -/
def State.kilnUsable (s : State) (t : Nat) : Bool :=
  s.on (KLN_HO_HI_VALID t) && !bitOf s.kilnStale t &&
  (s.get KLN_TIME_SEC - s.get (KLN_HO_SEC_SEC t) ≤ s.get (TRG_WARM_MAXAGE t)) &&
  (s.get (KLN_HO_HI_STB t) = s.get (TRG_CTL_STB_EN t))

/-- The value in a region's Kiln record. -/
def State.kilnValue (s : State) (t : Nat) : Int := toSigned 48 (s.getWide (KLN_HO_LO_HO t) (KLN_HO_HI_HO t))

/-- The sums of the window's VALID entries: value, temperature and count (R83). -/
def State.windowSums (s : State) (t : Nat) : Int × Int × Nat :=
  let guard := s.get (TRG_HIST_GUARD t)
  (List.range (s.get (TRG_HOWIN_WINDOW t))).foldl (fun a j =>
    let i := s.histIndex t (guard + 1 + j)
    if s.on (TRG_HENT_HI_VALID t i) then
      (a.1 + s.getS48 (TRG_HENT_LO_VALUE t i) (TRG_HENT_HI_VALUE t i), a.2.1 + s.getS (TRG_HENT_HI_TEMP t i), a.2.2 + 1)
    else a) (0, 0, 0)

/-- HO_SRC codes (R95). -/
def hoWindow : Nat := 0
def hoWarm : Nat := 1
def hoNone : Nat := 2

/-- The magnitude of a phase error in ps is within `k` times the lock threshold (R75). -/
def State.withinLock (s : State) (t k : Nat) (ph : Int) : Bool := ph.natAbs ≤ 1000 * k * s.get (TRG_LOCK_LOCK_THR t)

/-- A detector sample (R95): it is shown, and the first one within the lock threshold while ACQUIRING puts BW in use (R73). -/
def samplePhase (t : Nat) (ph : Word) (s : State) : State :=
  let s1 := s.set (TRG_PHERR_PHERR t) ph.toNat
  if s.dpll t = dpllAcquiring && (bankGet s.trg t).acqBw && s.withinLock t 1 ph.toInt then
    updateBw t (s1.modTrg t (fun g => { g with acqBw := false }))
  else s1

/-- The holdover computation (R83): value, source, entries used and mean temperature. -/
def State.holdoverValue (s : State) (t : Nat) : Int × Nat × Nat × Int :=
  let w := s.windowSums t
  if w.2.2 = 0 then
    if s.kilnUsable t then (s.kilnValue t, hoWarm, 0, 0) else (0, hoNone, 0, 0)
  else (roundDivInt w.1 w.2.2, hoWindow, w.2.2, roundDivInt w.2.1 w.2.2)

/-- The registers the computation writes (R83); TWIN only where a window was used (log entry 11). -/
def writeHoldover (t : Nat) (h : Int × Nat × Nat × Int) (s : State) : State :=
  let s1 := (s.setS48 (TRG_HO_VAL_LO_HO t) (TRG_HO_VAL_HI_HO t) h.1).set (TRG_HO_VAL_HI_VALID t) 1
  let s2 := (s1.set (TRG_HO_INFO_NVALID t) h.2.2.1).set (TRG_STAT_HO_SRC t) h.2.1
  if h.2.1 = hoWindow then s2.setS (TRG_HO_INFO_TWIN t) h.2.2.2 else s2

/-- Entry to HOLDOVER at a value (R77, R85, R87): the term is 0, the count and the length restart, HOLDOVER_ENTER is raised,
and a value from the window waits for the Kiln. -/
def enterHoldover (t : Nat) (value : Int) (src nvalid : Nat) (s : State) : State :=
  let s1 := s.modTrg t (fun g => { g with held := false, capture := none, cand := none, clean := false, sinceLock := 0
                                          hoBase := value, term := 0
                                          kilnDue := if src = hoWindow then some (value, s.on (TRG_STAT_SAMP_SRC t)) else g.kilnDue })
  let s2 := ((s1.set (TRG_STAT_STATE t) dpllHoldover).set (TRG_STAT_SLEWING t) 0).set (TRG_STAT_HO_SRC t) src
  let s3 := (s2.setWord ⟨.TRG_TC_TERM_LO, t, 0, 0⟩ 0).setWord ⟨.TRG_TC_TERM_HI, t, 0, 0⟩ 0
  let s5 := applyHoldover t ((s3.bump (TRG_STAT_HO_CNT t)).set (TRG_DLY_HO_TIME t) 0)
  let s4 := s5.when (s5.linked (dieOfRegion t) dieP) (fun s => { s with seq := { s.seq with hoSeen := bitPut s.seq.hoSeen t true } })
  s4.raise (TRG_EVT_HOLDOVER_ENTER t) 0 0x0200 t [(2, src), (10, nvalid), (48, ofSigned 48 (s4.cv t))]

/-- ACQUIRING or LOCKED to HOLDOVER: pending alignments are dropped if the region was LOCKED, the value is computed and
applied (R77, R83, R92, R158). -/
def loseCandidate (t : Nat) (s : State) : State :=
  let h := s.holdoverValue t
  let s1 := if s.dpll t = dpllLocked then dropRsync t 1 (dropRealign t 1 s) else s
  enterHoldover t h.1 h.2.1 h.2.2.1 (writeHoldover t h s1)

/-- A build-out capture begins: the control value is held, a slew ends and pending alignments are dropped with cause 2 (R78,
R89, R92, R158). -/
def startCapture (t cand : Nat) (slew : Bool) (s : State) : State :=
  let s1 := dropRsync t 2 (dropRealign t 2 s)
  updateBw t ((s1.modTrg t (fun g => { g with capture := some (cand, slew), cand := some cand, held := false, clean := false })).set
    (TRG_STAT_SLEWING t) 0)

/-- The selector's present choice acts on the region DPLL (R77, R78, R93). -/
def dpllFollowSelector (t : Nat) (s : State) : State :=
  let g := bankGet s.trg t
  if s.dpll t = dpllDisabled ∨ s.on (TRG_STAT_FORCED t) then s else
  match s.selected t with
  | none => if s.dpllFollows t then loseCandidate t s else s
  | some c =>
    if s.dpllFollows t then
      if g.cand = some c then s else startCapture t c false s
    else
      let s1 := if s.dpll t = dpllHoldover then
          s.raise (TRG_EVT_HOLDOVER_EXIT t) 0 0x0201 t [(16, s.get (TRG_DLY_HO_TIME t))] else s
      startCapture t c (s.on (TRG_CTL_RELOCK_POL t))
        ((s1.set (TRG_STAT_STATE t) dpllAcquiring).modTrg t (fun g => { g with acqBw := true }))

/-- DPLL_SELECT (R63, R77). -/
def execDpllSelect (t : Fin 4) (s : State) : Out := .next (dpllFollowSelector t s)

/-- Every entry of a region's ring not VALID (R77, R82, R96): the listed words lose their VALID bit. WR_IDX stays where it is (log entry
107: DESIGN CHOICE). -/
def clearRing (t : Nat) (s : State) : State :=
  let f (e : Reg × Word) : Option (Reg × Word) :=
    if e.1.name = .TRG_HENT_HI ∧ e.1.i = t then
      let w := wordSet e.2 31 1 0
      if w = e.1.reset then none else some (e.1, w)
    else some e
  ({ s with regs := s.regs.filterMap f }.set (TRG_HIST_PTR_NFILLED t) 0).set (TRG_HO_VAL_HI_VALID t) 0

/-- EN written 0, in any state (R77): control value 0, history cleared, FORCED cleared, pending REALIGN dropped with cause 3; a region
that was LOCKED has left LOCKED for a pending OUT_RSYNC (R158). -/
def dpllDisable (t : Nat) (s : State) : State :=
  let s0 := dropRealign t 3 s
  let s1 := if s.dpll t = dpllLocked then dropRsync t 1 s0 else s0
  let s2 := (((s1.set (TRG_STAT_STATE t) dpllDisabled).set (TRG_STAT_FORCED t) 0).set (TRG_STAT_SLEWING t) 0).modTrg t
    (fun g => { g with held := false, capture := none, cand := none, clean := false, sinceLock := 0, hoBase := 0, term := 0
                       acqBw := false })
  clearRing t (setCv t 0 s2)

/-- EN written 1 (R77, R88): a warm start from a usable Kiln record, otherwise FREERUN; the selector's choice then acts. -/
def dpllEnable (t : Nat) (s : State) : State :=
  if s.dpll t ≠ dpllDisabled then s else
  if s.on (TRG_CTL_WARM_EN t) && s.kilnUsable t then
    dpllFollowSelector t (enterHoldover t (s.kilnValue t) hoWarm 0 s)
  else dpllFollowSelector t (setCv t 0 (s.set (TRG_STAT_STATE t) dpllFreerun))

/-- The region stops integrating and holds until a transition of R77 (R76); pending alignments are dropped (R92 cause 6, R158 cause 5), a
slew stops where it is, and a capture in progress is abandoned (R93). -/
def holdDpll (t : Nat) (cv : Int) (s : State) : State :=
  let g := bankGet s.trg t
  if s.dpllFollows t && !g.held then
    let s1 := trackCv t cv s
    let s2 := (s1.modTrg t (fun g => { g with held := true, capture := none })).set (TRG_STAT_SLEWING t) 0
    dropRsync t 5 (dropRealign t 6 s2)
  else s

/-- DPLL_HOLD (R76): `cv` is the control value the loop had reached. -/
def execDpllHold (t : Fin 4) (cv : BitVec 48) (s : State) : Out := .next (holdDpll t cv.toInt s)

/-- SAMPLE_LATE (R76): a sample not arrived within half a detector period holds the loop too. -/
def execSampleLate (t : Fin 4) (cv : BitVec 48) (s : State) : Out := .next (holdDpll t cv.toInt s)

/-- DPLL_LOCK (R75, R77): declared with the phase error within the lock threshold, not at a pull-in limit, nor during a capture, which
takes no phase error (R78). The transition ends a hold (R76). -/
def execDpllLock (t : Fin 4) (cv : BitVec 48) (phErr : Word) (s : State) : Out :=
  .next <|
    let g := bankGet s.trg t.val
    let s1 := samplePhase t phErr (trackCv t cv.toInt s)
    if s.dpll t = dpllAcquiring ∧ g.capture = none ∧ s.withinLock t 1 phErr.toInt ∧ s1.get (TRG_STAT_PULLIN_SAT t) = 0 then
      let s2 := updateBw t ((s1.set (TRG_STAT_STATE t) dpllLocked).modTrg t
        (fun g => { g with sinceLock := 0, acqBw := false, held := false }))
      s2.raise (TRG_EVT_DPLL_LOCK t) 0 0x0202 t [(5, g.cand.getD 0)]
    else s

/-- DPLL_UNLOCK (R75, R77): the phase error beyond four times the lock threshold; LOCKED to ACQUIRING, which ends a hold, and pending
alignments are dropped with cause 1. -/
def execDpllUnlock (t : Fin 4) (cv : BitVec 48) (phErr : Word) (s : State) : Out :=
  .next <|
    if s.dpll t = dpllLocked ∧ !s.withinLock t 4 phErr.toInt then
      let s1 := dropRsync t 1 (dropRealign t 1 (samplePhase t phErr (trackCv t cv.toInt s)))
      let s2 := updateBw t ((s1.set (TRG_STAT_STATE t) dpllAcquiring).modTrg t
        (fun g => { g with clean := false, sinceLock := 0, acqBw := true, held := false }))
      s2.raise (TRG_EVT_DPLL_UNLOCK t) 0 0x0203 t [(32, phErr.toNat)]
    else s

/-- PULLIN_SAT (R74): the loop reaches the positive or the negative limit. -/
def execPullinSat (t : Fin 4) (neg : Bool) (s : State) : Out :=
  .next (trackCv t (if neg then -(s.pullLimit t : Int) else s.pullLimit t) s)

/-- A measured phase in 0.25 ps reduced modulo the candidate's detector period into [−P/2, +P/2) (R78). -/
def reducePhase (fnom : Nat) (phase : Int) : Int :=
  let num : Int := 4 * 10 ^ 12 * 65536 * detectorDiv fnom
  let q := (2 * phase * fnom + num) / (2 * num)
  phase - roundDivInt (q * num) fnom

/-- BUILDOUT (R78, R89): the capture completes; `phase` is the candidate's phase against the region reference in 0.25 ps. The
loop resumes with the offset subtracted, so the phase error lies within the lock threshold and BW is in use (R73); under SLEW the
offset begins to slew out. -/
def execBuildout (t : Fin 4) (phase : BitVec 64) (s : State) : Out :=
  .next <|
    match (bankGet s.trg t.val).capture with
    | some (c, slew) =>
      let bo := reducePhase (s.candFnom c) phase.toInt
      let s1 := updateBw t ((s.setS48 (TRG_BO_LO_BO t) (TRG_BO_HI_BO t) bo).modTrg t
        (fun g => { g with capture := none, acqBw := false, slewAcc := 0 }))
      (s1.put (TRG_STAT_SLEWING t) (slew && bo ≠ 0)).raise (TRG_EVT_BUILDOUT t) 0 0x0204 t [(48, ofSigned 48 bo)]
    | none => s

/-- The offset being subtracted from every phase sample, in 0.25 ps (R78). -/
def State.buildout (s : State) (t : Nat) : Int := s.getS48 (TRG_BO_LO_BO t) (TRG_BO_HI_BO t)

/-- TRG_BO reaches zero and the slew ends (R89). -/
def slewEnd (t : Nat) (s : State) : State := (s.setS48 (TRG_BO_LO_BO t) (TRG_BO_HI_BO t) 0).set (TRG_STAT_SLEWING t) 0

/-- A microsecond of a slew (R89): SLOPE ns per second are SLOPE / 250 units of 0.25 ps. -/
def slewTick (t : Nat) (s : State) : State :=
  if s.on (TRG_STAT_SLEWING t) then
    let a := (bankGet s.trg t).slewAcc + s.get (TRG_RELOCK_SLOPE t)
    let bo := s.buildout t
    let left : Nat := bo.natAbs - a / 250
    if left = 0 then slewEnd t s
    else
      (s.setS48 (TRG_BO_LO_BO t) (TRG_BO_HI_BO t) (if bo < 0 then -(left : Int) else left)).modTrg t
        (fun g => { g with slewAcc := a % 250 })
  else s

/-- SLEW_DONE (R89): TRG_BO reaches zero. -/
def execSlewDone (t : Fin 4) (s : State) : Out := .next (if s.on (TRG_STAT_SLEWING t) then slewEnd t s else s)

/-- HOLDOVER_FORCE (R77): ignored while DISABLED; FORCE = 0 hands the region back to its selector's choice. -/
def cmdHoldoverForce (t : Nat) (force : Bool) (s : State) : CmdRes :=
  if s.dpll t = dpllDisabled then cmdIgnored s
  else if force then cmdOk ((if s.dpllFollows t then loseCandidate t s else s).set (TRG_STAT_FORCED t) 1)
  else if s.dpllFollows t then cmdOk s
  else cmdOk (dpllFollowSelector t (s.set (TRG_STAT_FORCED t) 0))

/-! ### History intervals -/

/-- What R81 asks of an interval holds at its start: LOCKED, no capture, and the control value not at the pull-in limit. -/
def State.cleanNow (s : State) (t : Nat) : Bool :=
  s.dpll t = dpllLocked && (bankGet s.trg t).capture.isNone && s.get (TRG_STAT_PULLIN_SAT t) = 0

/-- The request line of a region's history (R324). -/
def lineHistory (t : Nat) : Nat := 4 + t

/-- p(T) times 512, for a temperature and TREF in 0.125 °C: C0 + C1·ΔT + C2·ΔT² + C3·ΔT³ in units of 2^−48 (R86). -/
def State.tcPoly (s : State) (t : Nat) (temp : Int) : Int :=
  let d := temp - s.getS (TRG_TC_SRC_TREF t)
  let c (k : Nat) : Int := s.getS (TRG_TC_C_C t k)
  512 * c 0 + 64 * c 1 * d + 8 * c 2 * d ^ 2 + c 3 * d ^ 3

/-- The term that the loop engine computes: p(T_now) − p(TWIN), rounded to the nearest unit (R86, log entry 108). -/
def State.tcTerm (s : State) (t : Nat) (now : Int) : Int :=
  clampInt (-(2 ^ 47 : Nat)) ((2 ^ 47 : Nat) - 1) (roundDivInt (s.tcPoly t now - s.tcPoly t (s.getS (TRG_HO_INFO_TWIN t))) 512)

/-- The term's registers have been written: the whole term applies (R85). -/
def applyTerm (t : Nat) (s : State) : State :=
  let term := toSigned 48 (s.getWide (TRG_TC_TERM_LO_TERM t) (TRG_TC_TERM_HI_TERM t))
  let s1 := s.modTrg t (fun g => { g with term := term })
  if s.dpll t = dpllHoldover then applyHoldover t s1 else s1

/-- The loop engine of the region, ENG4 to ENG7, writes the term once per history interval in HOLDOVER while TC_EN is 1; a halted or
held engine leaves it as it was (R86). -/
def engineTerm (t : Nat) (now : Int) (s : State) : State :=
  if s.on (TRG_CTL_TC_EN t) && s.get (ENG_STAT_STATE (4 + t)) = 0 then
    applyTerm t (s.setS48 (TRG_TC_TERM_LO_TERM t) (TRG_TC_TERM_HI_TERM t) (s.tcTerm t now))
  else s

/-- HISTORY_INTERVAL (R29, R80, R81, R86, R87, R95): `mean` and `temp` are the interval's means, `cv` and `phErr` the loop's value and the
last sample at its end. The entry completes, the 64th since lock runs the computation of R83 for a Kiln refresh, and every entry whose
ring index ends a block of 64 may raise the history request (log entry 107: DESIGN CHOICE). -/
def execHistoryInterval (t : Fin 4) (mean cv : BitVec 48) (temp : BitVec 12) (phErr : Word) (s : State) : Out :=
  .next <|
    if !s.pkg_.loRuns then s else
    let s0 := trackCv t cv.toInt (if s.dpllFollows t then samplePhase t phErr s else s)
    let g := bankGet s0.trg t.val
    let locked := s.dpll t = dpllLocked
    let i := s.get (TRG_HIST_PTR_WR_IDX t)
    let valid := g.clean && locked
    let s1 := (s0.setWide (TRG_HENT_LO_VALUE t i) (TRG_HENT_HI_VALUE t i) mean.toNat).set (TRG_HENT_HI_TEMP t i) temp.toNat
    let s2 := (s1.put (TRG_HENT_HI_VALID t i) valid).set (TRG_HIST_PTR_WR_IDX t) ((i + 1) % 1024)
    let s3 := s2.set (TRG_HIST_PTR_NFILLED t) (min 1024 (s.get (TRG_HIST_PTR_NFILLED t) + 1))
    let n := if locked then g.sinceLock + 1 else 0
    let h := s3.holdoverValue t
    let refresh := locked && n % 64 = 0
    let due := if refresh && h.2.1 = hoWindow then some (h.1, s.on (TRG_STAT_SAMP_SRC t)) else g.kilnDue
    let s4 := (s3.when refresh (writeHoldover t h)).modTrg t
      (fun g => { g with sinceLock := n, kilnDue := due, clean := s3.cleanNow t })
    let s5 := if s.dpll t = dpllHoldover then engineTerm t temp.toInt (s4.bump (TRG_DLY_HO_TIME t)) else s4
    s5.when (s.on (TRG_HIST_DMA_REQ_EN t) && (i + 1) % 64 = 0) (raiseLineFor (dieOfRegion t) (lineHistory t) (fun q s =>
      s.modTrg t (fun g => { g with histReq := g.histReq ++ [(q, i - 63)] })))

/-- A region's Kiln record written (R87): the value, the oscillator it was computed against and the keeper time. The Kiln is on the
C-die, which a region whose links are isolated does not reach (R22). -/
def writeKilnRecord (t : Nat) (v : Int) (stb : Bool) (s : State) : State :=
  if s.linked (dieOfRegion t) dieC then
    let s1 := s.setS48 (KLN_HO_LO_HO t) (KLN_HO_HI_HO t) v
    let s2 := (s1.put (KLN_HO_HI_STB t) stb).set (KLN_HO_HI_VALID t) 1
    { s2.set (KLN_HO_SEC_SEC t) (s.get KLN_TIME_SEC) with kilnStale := bitPut s.kilnStale t false }
  else s

/-- KILN_HO_WRITE (R87). -/
def execKilnHoWrite (t : Fin 4) (s : State) : Out :=
  .next <|
    match (bankGet s.trg t.val).kilnDue with
    | some v => (writeKilnRecord t v.1 v.2 s).modTrg t (fun g => { g with kilnDue := none })
    | none => s

/-! ### The stability oscillator (R70) -/

/-- The measured offset of TRG_LO_STB, in 0.001 ppm, as a control value. -/
def stbOffset (ofs : Int) : Int := roundDivInt (ofs * 2 ^ 48) (10 ^ 9)

/-- A move between the oscillators, in any state: the measured offset goes into the control value on the way to the main LO and out of
it on the way back (R70, R93; log entry 12). A move to the main LO, whatever brings it about, raises STB_LOSS, whose record carries the
measured offset as TRG_LO_STB holds it, 32 bits in 0.001 ppm (R94, R280; log entry 109: DESIGN CHOICE). -/
def moveSampling (t : Nat) (toStb : Bool) (s : State) : State :=
  if s.on (TRG_STAT_SAMP_SRC t) = toStb then s else
  let d := stbOffset (s.getS (TRG_LO_STB_OFS t))
  let d' := if toStb then -d else d
  let s1 := (s.put (TRG_STAT_SAMP_SRC t) toStb).modTrg t (fun g => { g with clean := false, hoBase := g.hoBase + d' })
  let s2 := if s.dpll t = dpllHoldover then applyHoldover t s1 else setCv t (s.cv t + d') s1
  if toStb then s2 else s2.raise (TRG_EVT_STB_LOSS t) 0 0x0207 t [(32, s.get (TRG_LO_STB_OFS t))]

/-- TRG_LO_STB shows what each T-die measures, 0 while STB_IN is absent (R70, R95). -/
def showLoStb (s : State) : State :=
  s.each 4 (fun t s => s.set (TRG_LO_STB_OFS t) (if s.stbRuns then bankGet s.stbOfs (t / 2) else 0))

/-- What the T-dies measure of the main LO against the stability oscillator. -/
def measureLoStb (o0 o1 : Word) (s : State) : State :=
  { s.each 4 (fun t s => s.set (TRG_LO_STB_OFS t) (if t < 2 then o0.toNat else o1.toNat)) with stbOfs := #v[o0.toNat, o1.toNat] }

/-- STB_LOSS (R31, R70): the offset last measured is applied on every region that samples with the stability oscillator, the
loss disarms every armed region, and TRG_LO_STB then reads 0. -/
def execStbLoss (o0 o1 : Word) (s : State) : Out :=
  .next <|
    let s2 := (measureLoStb o0 o1 s).each 4 (fun t s => moveSampling t false s)
    let s3 := s2.each 4 (fun t s => s.modTrg t (fun g => { g with armed := false }))
    showLoStb { s3 with stbRuns := false }

/-- STB_START (R70): STB_IN runs; every armed region moves to it. -/
def execStbStart (o0 o1 : Word) (s : State) : Out :=
  .next <|
    { (measureLoStb o0 o1 s).each 4 (fun t s => if (bankGet s.trg t).armed then moveSampling t true s else s) with stbRuns := true }

/-- STB_EN written (R70): a change to 1 arms and moves at once where STB_IN runs; 0 disarms and moves to the main LO. -/
def stbEnWritten (t : Nat) (old new : Bool) (s : State) : State :=
  if new && !old then
    let s1 := s.modTrg t (fun g => { g with armed := true })
    if s.stbRuns then moveSampling t true s1 else s1
  else if new then s
  else moveSampling t false (s.modTrg t (fun g => { g with armed := false }))

/-! ### REALIGN (R91, R92) -/

/-- REALIGN is accepted: the region LOCKED, a non-empty mask of FRAME units, none in an on-loss condition, K at least 1 (R92,
R118). The newer one replaces a pending
one, which is dropped with cause 4. -/
def cmdRealign (t mask k : Nat) (s : State) : CmdRes :=
  if s.dpll t = dpllLocked ∧ mask ≠ 0 ∧ k ≠ 0 ∧
      (bitsOf 12 mask).all (fun j => s.get (OUT_CTL_ROLE (12 * t + j)) = 1 ∧ s.get (OUT_STAT_LOSS_KIND (12 * t + j)) = 0) then
    let s1 := (dropRealign t 4 s).modTrg t (fun g => { g with realign := some (mask, k) })
    let s2 := s1.each 12 (fun j s => if bitOf mask j then s.set (OUT_STAT_ALIGN_PEND (12 * t + j)) 1 else s)
    cmdOk (s2.set (TRG_STAT_REALIGN_PEND t) 1)
  else cmdIgnored s

/-! ### Write rules of the TRG registers -/

/-- RREF_SEL is not changed while EN is left at 1, ACQ_BW is at least BW, and no write enters the history ring (R73, R95, R96). -/
def trgRule (r : Reg) (old new : Word) : Bool :=
  match r.name with
  | .TRG_CTL => !(wordGet old 0 1 = 1 ∧ wordGet new 0 1 = 1 ∧ wordGet old 1 3 ≠ wordGet new 1 3)
  | .TRG_BW => wordGet new 0 5 ≤ wordGet new 8 5
  | .TRG_HENT_LO => false
  | .TRG_HENT_HI => false
  | _ => true

/-- What an applied write of a TRG register sets off (R70, R74, R77, R82, R85). -/
def trgAfter (r : Reg) (old new : Word) (s : State) : State :=
  let t := r.i
  match r.name with
  | .TRG_CTL =>
    let s1 := stbEnWritten t (wordGet old 4 1 = 1) (wordGet new 4 1 = 1) s
    let s2 := if wordGet new 0 1 = 0 then dpllDisable t s1
      else if wordGet old 0 1 = 0 then dpllEnable t s1 else s1
    if s2.dpll t = dpllHoldover ∧ wordGet old 6 1 ≠ wordGet new 6 1 then applyHoldover t s2 else s2
  | .TRG_BW => if s.dpllFollows t then updateBw t s else s
  | .TRG_PULLIN => if s.dpll t = dpllHoldover then applyHoldover t s else setCv t (s.cv t) s
  | .TRG_HIST =>
    if wordGet old 0 14 ≠ wordGet new 0 14 then (clearRing t s).modTrg t (fun g => { g with clean := s.cleanNow t }) else s
  | .TRG_TC_TERM_HI => applyTerm t s
  | _ => s

end Sys2Proof.Machine
end

