-- ==== Sys2Proof/Machine/Fabric.lean ====
section
/-! DEFINITION. Sys2Proof/Machine/Fabric.lean: the fault fabric: the fault classes and the pins of the package square (R213), the
dependency entries (R202, R203), rails entering and leaving SAFE with their holds (R172, R208, R209), and the quiet windows'
activity (R182). -/

namespace Sys2Proof.Machine

/-! ### Fault classes (R213) -/

def clsOv : Nat := 0
def clsClockLoss : Nat := 4
def clsDieIsolated : Nat := 5
def clsDieAlarm : Nat := 6
def clsVinLoss : Nat := 7
def clsStoreLow : Nat := 8
def clsChgFault : Nat := 9
def clsHkFault : Nat := 10
def clsTdAlarm : Nat := 11
def clsSeqFail : Nat := 12

/-- The square latches a fault class (R213). -/
def latchClass (c : Nat) (s : State) : State := s.setBit FLT_PKG_LATCH c true

/-- A fault of a die reaches the square over the fault lanes, unless a die on its way is isolated (R22, R32, R34). -/
def latchFrom (d c : Nat) (s : State) : State := if s.linked d dieP then latchClass c s else s

/-- Host-port states (R287). -/
def rsDisarmed : Nat := 0
def rsRunning : Nat := 1
def rsStopping : Nat := 2
def rsSummary : Nat := 3
def rsWaitArm : Nat := 4

/-- The host-port state. -/
def State.rstate (s : State) : Nat := s.get HOST_STAT_RSTATE

/-- A class mapped to FAULT_N is latched (R213). -/
def State.faultMapped (s : State) : Bool := (List.range 13).any (fun c => s.bit FLT_PKG_LATCH c && s.bit FLT_FNMAP_MAP c)

/-- Every rail of PGMAP has PG = 1 and PGMAP is not zero: PG_OUT is driven high (R213). -/
def State.pgOut (s : State) : Bool :=
  s.get FLT_PGMAP_MAP ≠ 0 && (bitsOf 24 (s.get FLT_PGMAP_MAP)).all (fun r => s.on (PRG_RSTAT_PG r))

/-! ### Dependencies (R202, R203) -/

/-- The output units of an entry. -/
def State.depUnits (s : State) (d : Nat) : List Nat :=
  (bitsOf 12 (s.get (SEQ_DEP_A_UMASK d))).map (fun j => 12 * s.get (SEQ_DEP_A_T d) + j)

/-- The rails of an entry. -/
def State.depRails (s : State) (d : Nat) : List Nat := bitsOf 24 (s.get (SEQ_DEP_B_RMASK d))

/-- A unit is clock-qualified, as the P-die sees it: nothing is learned of the units of a die whose links are isolated (R22, R23,
R116). -/
def State.clkqAtP (s : State) (n : Nat) : Bool := s.on (OUT_STAT_CLKQ n) && s.linked (dieOfOut n) dieP

/-- An entry is satisfied: every unit clock-qualified (CBP), or every rail good (PBC) (R202). -/
def State.depSatisfied (s : State) (d : Nat) : Bool :=
  if s.on (SEQ_DEP_A_KIND d) then (s.depRails d).all (fun r => s.on (PRG_RSTAT_PG r))
  else (s.depUnits d).all s.clkqAtP

/-- An enabled, unsatisfied CBP entry names the rail (R202). -/
def State.depBlocksRail (s : State) (r : Nat) : Bool :=
  (List.range 16).any (fun d => s.on (SEQ_DEP_A_EN d) && !s.on (SEQ_DEP_A_KIND d) && s.bit (SEQ_DEP_B_RMASK d) r && !s.depSatisfied d)

/-- An enabled, unsatisfied PBC entry names the unit (R202). -/
def State.depBlocksUnit (s : State) (n : Nat) : Bool :=
  (List.range 16).any (fun d => s.on (SEQ_DEP_A_EN d) && s.on (SEQ_DEP_A_KIND d) && s.get (SEQ_DEP_A_T d) = n / 12 &&
    s.bit (SEQ_DEP_A_UMASK d) (n % 12) && !s.depSatisfied d)

/-- Enabled entries that are satisfied are armed (R203). -/
def rearmDeps (s : State) : State :=
  { s with depArmed := maskOf 16 (fun d => s.on (SEQ_DEP_A_EN d) && (bitOf s.depArmed d || s.depSatisfied d)) }

/-- Armed entries that a condition picks are triggered, once each (R203). -/
def triggerDeps (p : State → Nat → Bool) (s : State) : State :=
  let hit (d : Nat) : Bool := s.on (SEQ_DEP_A_EN d) && bitOf s.depArmed d && p s d
  { s with depTrig := maskOf 16 (fun d => bitOf s.depTrig d || hit d)
           depArmed := maskOf 16 (fun d => bitOf s.depArmed d && !hit d) }

/-- CLOCK_LOSS (R115, R203, R213): the record, the class and the CBP entries whose units share the mask. -/
def clockLoss (c mask : Nat) (s : State) : State :=
  let s1 := latchFrom (dieOfCluster c) clsClockLoss (s.pushEvt 0x0301 c mask)
  triggerDeps (fun s d => s.linked (dieOfCluster c) dieP && !s.on (SEQ_DEP_A_KIND d) && s.get (SEQ_DEP_A_T d) = c / 3 &&
    (s.get (SEQ_DEP_A_UMASK d) &&& mask) ≠ 0) s1

/-- A rail leaves PG while REGULATING, or enters SAFE: the PBC trigger (R203). -/
def railTrigger (r : Nat) (s : State) : State :=
  triggerDeps (fun s d => s.on (SEQ_DEP_A_KIND d) && s.bit (SEQ_DEP_B_RMASK d) r) s

/-! ### Rails in SAFE and their holds (R172, R208, R209) -/

def railOff : Nat := 0
def railStart : Nat := 1
def railRegulating : Nat := 2
def railStop : Nat := 3
def railSafe : Nat := 4

/-- The state of a rail. -/
def State.railState (s : State) (r : Nat) : Nat := s.get (PRG_RSTAT_STATE r)

/-- A rail's internal state. -/
def State.railOf (s : State) (r : Nat) : RailInt := bankGet s.rail r

/-- A rail's internal state changed. -/
def State.modRail (s : State) (r : Nat) (f : RailInt → RailInt) : State := { s with rail := bankMod s.rail r f }

/-- The phase units of a rail in ascending order (R168). -/
def State.phasesOf (s : State) (r : Nat) : List Nat :=
  ((List.range 24).map (fun j => 24 * (r / 6) + j)).filter (fun k => s.get (PRG_PH_RAIL k) = r % 6)

def phIdle : Nat := 0
def phActive : Nat := 1
def phShed : Nat := 2
def phSafe : Nat := 3

/-- Every phase of a rail in one state. -/
def setPhases (r st : Nat) (s : State) : State := (s.phasesOf r).foldl (fun s k => s.set (PRG_PH_PSTATE k) st) s

/-- The first `n` phases of a rail are active, the others shed (R176). -/
def setActive (r n : Nat) (s : State) : State :=
  let s1 := (s.phasesOf r).zipIdx.foldl (fun s kj => s.set (PRG_PH_PSTATE kj.1) (if kj.2 < n then phActive else phShed)) s
  s1.set (PRG_RSTAT_NACT r) n

/-- The phases assigned to a rail, as PRG_RSTAT shows them (R168). -/
def State.nasg (s : State) (r : Nat) : Nat := (s.phasesOf r).length

/-- A rail stops regulating: PG and MOVING read 0, and its UV comparator is no longer armed (R174, R204). -/
def railUnregulated (r : Nat) (s : State) : State :=
  (((s.set (PRG_RSTAT_PG r) 0).set (PRG_RSTAT_MOVING r) 0).set (PRG_RSTAT_DCM r) 0).setBit (FLT_RSTAT_NOW r) 1 false

/-- A power region's internal state. -/
def State.prgOf (s : State) (p : Nat) : PrgInt := bankGet s.prg p

/-- A power region's internal state changed. -/
def State.modPrg (s : State) (p : Nat) (f : PrgInt → PrgInt) : State := { s with prg := bankMod s.prg p f }

/-- A rail runs no phase: its planned edges are discarded (R190), and no period is under way. -/
def railIdle (r ph : Nat) (s : State) : State :=
  let s1 := s.modPrg (r / 6) (fun g => { g with edges := g.edges.filter (fun e => e.1 ≠ r % 6) })
  setPhases r ph ((railUnregulated r (s1.modRail r (fun x => { x with perStart := none }))).set (PRG_RSTAT_NACT r) 0)

/-- A rail runs: it soft-starts, regulates or ramps down (R172). -/
def State.railRuns (s : State) (r : Nat) : Bool :=
  s.railState r = railStart || s.railState r = railRegulating || s.railState r = railStop

/-- The VRr_EN pad: driven high from the enable until the rail is OFF or SAFE, and low otherwise; its pull-down holds it low while the hub
is unpowered, in reset, or the P-die isolated (R165, R166, R172, R193). -/
def State.vrEn (s : State) (r : Nat) : Bool := s.railRuns r && !s.isolated dieP

/-- A rail that is not OFF enters SAFE: the phases in the safe state, PG 0 (R166, R172); the PBC trigger (R203). -/
def railToSafe (r : Nat) (s : State) : State :=
  if s.railState r = railOff ∨ s.railState r = railSafe then s else
  let s1 := railIdle r phSafe (s.set (PRG_RSTAT_STATE r) railSafe)
  let s2 := (s1.setBit (PRG_FM_STAT_SAFE (r / 6)) (r % 6) true).bump (PRG_FM_STAT_SD_CNT (r / 6))
  railTrigger r (s2.modRail r (fun x => { x with enWait := false }))

/-- The GRP_HELD bits of a rail follow its GROUP and FAULT_IN holds (R209, R225, R226). -/
def showHold (r : Nat) (s : State) : State :=
  let x := s.railOf r
  (s.put (FLT_RSTAT_GRP_HELD r) (x.grpBy ≠ 0 || x.finBy ≠ 0)).setBit (PRG_FM_STAT_GRP_HELD (r / 6)) (r % 6) (x.grpBy ≠ 0)

/-- A rail is under a hold (R209). -/
def State.railHeld (s : State) (r : Nat) : Bool :=
  s.on (FLT_RSTAT_GRP_HELD r) || s.on (FLT_RSTAT_PKG_HELD r) || s.on (FLT_RSTAT_SUP_HELD r)

/-- A comparator of the rail is asserted, or a hold remains on it: the retry is postponed (R209). -/
def State.railBlocked (s : State) (r : Nat) : Bool := s.get (FLT_RSTAT_NOW r) ≠ 0 || s.railHeld r

/-- A GROUP action of rail `r` (R208): it and the rails of its mask enter SAFE, and the others are held by it. -/
def groupShutdown (r : Nat) (s : State) : State :=
  let p := r / 6
  (bitsOf 6 (bitPut (s.get (PRG_FM_GRP_GRP r)) (r % 6) true)).foldl (fun s j =>
    let q := 6 * p + j
    let s1 := railToSafe q s
    if q = r then s1 else showHold q (s1.modRail q (fun x => { x with grpBy := bitPut x.grpBy (r % 6) true }))) s

/-- A PACKAGE action (R208, R212): every rail enters SAFE and is held while PKG_SD is 1. -/
def packageShutdown (s : State) : State :=
  (s.set FLT_PKG_PKG_SD 1).each 24 (fun r s => railToSafe r (s.set (FLT_RSTAT_PKG_HELD r) 1))

/-- A rail leaves SAFE for OFF: EN = 0, RAIL_RELEASE; its GROUP holds on others end (R209). -/
def leaveSafe (r : Nat) (s : State) : State :=
  let s1 := railIdle r phIdle ((s.set (PRG_RSTAT_STATE r) railOff).set (PRG_RCTL_EN r) 0)
  let s2 := (s1.setBit (PRG_FM_STAT_SAFE (r / 6)) (r % 6) false).set (FLT_RETRY_WAIT r) 0
  let s3 := s2.modRail r (fun x => { x with retryDue := false })
  let s4 := s3.each 6 (fun j s =>
    let q := 6 * (r / 6) + j
    showHold q (s.modRail q (fun x => { x with grpBy := bitPut x.grpBy (r % 6) false })))
  s4.pushEvt 0x0709 r 0

/-! ### Quiet windows (R182) -/

/-- The rising-edge rate a window may be tied to, 1.5625 MHz (R182). -/
def windowRate : Nat := 1562500

/-- Why an enabled window is suspended: 0 it is active, 1 the unit, 2 the pairing, 3 the fallback, 4 the rate (R182; the cause
codes are log entry 14's). -/
def State.windowCause (s : State) (p w : Nat) : Nat :=
  let n := s.get (PRG_QW_A_UNIT p w)
  if s.on (PRG_TBSTAT_FALLBACK p) then 3
  else if n / 12 ≠ s.get (PRG_TBSEL_TRG p) then 2
  else if !s.unitOn n || s.onLoss n then 1
  else if !(s.unitRate n).atMost windowRate then 4
  else 0

/-- One window's ACTIVE and SUSP bits; WIN_SUSP where it becomes suspended (R182, R191). -/
def refreshWindow (p w : Nat) (s : State) : State :=
  let en := s.on (PRG_QW_A_EN p w)
  let cause := s.windowCause p w
  let susp := en && cause ≠ 0
  let was := s.bit (PRG_WSTAT_SUSP p) w
  let s1 := (s.setBit (PRG_WSTAT_ACTIVE p) w (en && cause = 0)).setBit (PRG_WSTAT_SUSP p) w susp
  if susp && !was then s1.raise (PRG_EVT_WIN_SUSP p) 0 0x0608 p [(32, w), (32, cause)] else s1

/-- Every window of a power region. -/
def refreshWindows (p : Nat) (s : State) : State := s.each 8 (refreshWindow p)

/-! ### Epoch units (R235) -/

/-- A T-die's epoch unit, or none named. -/
def State.epochUnit (s : State) (d : Nat) : Option Nat :=
  if d = 0 then if s.on LNK_EPOCH_EN0 then some (s.get LNK_EPOCH_UNIT0) else none
  else if s.on LNK_EPOCH_EN1 then some (24 + s.get LNK_EPOCH_UNIT1) else none

/-- A unit of T-die `d` can give its epoch (R235): FRAME, enabled, 1 Hz at nominal frequencies, its die not isolated. -/
def State.epochFit (s : State) (d n : Nat) : Bool :=
  n / 24 = d && s.get (OUT_CTL_ROLE n) = 1 && s.unitOn n && (s.nominalRate n).num = (s.nominalRate n).den && !s.isolated (dieOfOut n)

/-- The epoch unit meets every condition of R235: named, fit, in no on-loss condition. -/
def State.epochMet (s : State) (d : Nat) : Bool := (s.epochUnit d).any (fun n => s.epochFit d n && !s.onLoss n)

/-- EPOCH_OK of a T-die. -/
def State.epochOk (s : State) (d : Nat) : Bool := if d = 0 then s.on LNK_EPOCH_OK0 else s.on LNK_EPOCH_OK1

/-- A port's internal state. -/
def State.lnkOf (s : State) (k : Nat) : LnkInt := bankGet s.lnk k

/-- A port's internal state changed. -/
def State.modLnk (s : State) (k : Nat) (f : LnkInt → LnkInt) : State := { s with lnk := bankMod s.lnk k f }

/-- The average in progress of a port is discarded (R236, R258). -/
def dropAverage (k : Nat) (s : State) : State := s.modLnk k (fun x => { x with sumD := 0, sumT := 0, cnt := 0 })

/-- An epoch unit is realigned: the averages of its die's ports restart (R258). -/
def epochRealigned (n : Nat) (s : State) : State :=
  let d := n / 24
  if s.epochUnit d = some n then dropAverage (2 * d + 1) (dropAverage (2 * d) s) else s

end Sys2Proof.Machine
end

