-- ==== Sys2Proof/Machine/Link.lean ====
section
/-! DEFINITION. Sys2Proof/Machine/Link.lean: the Fjoeth Links: cells, ports, marks, time of day, messages, election, the budget
and events across the system (chapter 09, R229 to R250, R255 to R261). -/

namespace Sys2Proof.Machine

/-! ### Names -/

def lnkDisabled : Nat := 0
def lnkTraining : Nat := 1
def lnkUp : Nat := 2

def roleNone : Nat := 0
def roleUplink : Nat := 1
def roleDownlink : Nat := 2
def roleBreak : Nat := 3

def sysDetached : Nat := 0
def sysListening : Nat := 1
def sysJoined : Nat := 2
def sysRefused : Nat := 3
def sysGm : Nat := 4

/-- The state of a port. -/
def State.lnkState (s : State) (k : Nat) : Nat := s.get (LNK_STAT_STATE k)

/-- The state of the system agent. -/
def State.sysState (s : State) : Nat := s.get LNK_SYS_STAT_STATE

/-- A port is UP and its die not isolated (R258). -/
def State.portUp (s : State) (k : Nat) : Bool := s.lnkState k = lnkUp && !s.isolated (dieOfPort k)

/-- A port's die is not isolated, and its VDDL is in its band (R22, R430). -/
def State.portPowered (s : State) (k : Nat) : Bool := !s.isolated (dieOfPort k) && !bitOf s.pkg_.supplyOut (5 + k / 2)

/-- A port's die has a valid epoch (R235). -/
def State.portEpoch (s : State) (k : Nat) : Bool := s.epochOk (k / 2)

/-- The hub's identity and the grandmaster's. -/
def State.hubId (s : State) : Nat := s.getWide LNK_ID_LO_ID LNK_ID_HI_ID
def State.gmId (s : State) : Nat := s.getWide LNK_GM_LO_GM LNK_GM_HI_GM

/-- The peer's identity. -/
def State.peerId (s : State) (k : Nat) : Nat := s.getWide (LNK_PEER_LO_ID k) (LNK_PEER_HI_ID k)

/-- The system agent's internal state changed. -/
def State.modSys (s : State) (f : SysInt → SysInt) : State := { s with sys := f s.sys }

/-- A port event (R259). -/
def portEvt (k bit : Nat) (body : List (Nat × Nat)) (s : State) : State := s.raise (LNK_EVT_EVT k) bit (0x0800 + bit) k body

/-- A system event (R259): its LNK_SYS_EVT bit, its record, and the code a waiting sequencer step counts (R256). -/
def sysEvt (bit : Nat) (body : List (Nat × Nat)) (s : State) : State := s.raise LNK_SYS_EVT_EVT bit (0x0804 + bit) 0 body

/-- A link event code is counted for the sequencer's wait, which the P-die learns from the system agent (R22, R196, R256). -/
def noteLink (code : Nat) (s : State) : State :=
  if s.linked dieC dieP then { s with seq := { s.seq with links := s.seq.links ++ [code] } } else s

/-- What JOINED, JOIN_REFUSED and LEFT carry (R259). -/
def State.joinBody (s : State) : List (Nat × Nat) :=
  [(64, s.gmId), (32, s.get LNK_ACC_LAT_ACC_LAT), (16, s.get LNK_ACC_PH_ACC_PH), (3, s.get LNK_SYS_STAT_CAUSE)]

/-! ### Cells and messages (R230, R241) -/

/-- One bit step of the cell CRC-8 (R230: polynomial 0x07, not reflected). -/
def crc8Bit (c : Nat) : Nat := if 128 ≤ c then (2 * c % 256) ^^^ 0x07 else 2 * c % 256

/-- One byte into the CRC-8. -/
def crc8Byte (c : Nat) (b : Byte) : Nat :=
  crc8Bit (crc8Bit (crc8Bit (crc8Bit (crc8Bit (crc8Bit (crc8Bit (crc8Bit (c ^^^ b.toNat))))))))

/-- The CRC-8 of bytes in the order they are sent. -/
def crc8 (l : List Byte) : Nat := l.foldl crc8Byte 0

/-- The eight bytes of a typed cell: TYPE, the six of BODY, the CRC-8. -/
def cellBytes (type : Nat) (body : List Byte) : List Byte :=
  let l := BitVec.ofNat 8 type :: bytesAt body 0 6
  l ++ [BitVec.ofNat 8 (crc8 l)]

def cellMark : Nat := 0x4D
def cellEcho : Nat := 0x45
def cellTime : Nat := 0x54
def cellFirst : Nat := 0x51
def cellMid : Nat := 0x52
def cellLast : Nat := 0x53

/-! ### The line (R229) -/

/-- One bit through the self-synchronous scrambler x^58 + x^39 + 1 (R229): it is added to the line bits 39 and 58 places before it.
`h` holds the last 58 line bits, the latest lowest. -/
def scrambleBit (h b : Nat) : Nat := (b + h / 2 ^ 38 + h / 2 ^ 57) % 2

/-- The last 58 line bits once another has passed. -/
def lineShift (h y : Nat) : Nat := (2 * h + y) % 2 ^ 58

/-- 64 payload bits scrambled, bit 0 first (log entry 123), and the line bits then last. -/
def scramble (h w : Nat) : Nat × Nat :=
  (List.range 64).foldl (fun (h, x) i => let y := scrambleBit h (w / 2 ^ i); (lineShift h y, x + y * 2 ^ i)) (h, 0)

/-- 64 line bits descrambled, and the line bits then last. -/
def descramble (h w : Nat) : Nat × Nat :=
  (List.range 64).foldl (fun (h, x) i => let y := w / 2 ^ i % 2; (lineShift h y, x + scrambleBit h y * 2 ^ i)) (h, 0)

def hdrTyped : Nat := 1
def hdrIdle : Nat := 2

/-- The 66 bits of a typed cell on the line: the header lowest, then the scrambled payload (R229). -/
def cellLine (h type : Nat) (body : List Byte) : Nat := hdrTyped + 4 * (scramble h (leNat (cellBytes type body))).2

/-- The rate of a port's line in baud, 28.125 GHz × f_RREF,actual / f_RREF,nominal, against its region's sampling oscillator (R69, R233). -/
def State.lineRate (s : State) (k : Nat) : Freq :=
  let t := 2 * (k / 2) + s.get (LNK_CTL_TX_TRG k)
  ⟨(28125000000 * (2 ^ 48 + s.cv t)).toNat, 2 ^ 48⟩

/-- The nominal frequency of a recovered clock, the line divided by 180, in hertz (R234). -/
def recoveredHz : Nat := 28125000000 / 180

/-- A typed cell leaves on a port. -/
def sendCell (k type : Nat) (body : List Byte) (s : State) : State :=
  s.emit (.link k type (cellBytes type body) (cellLine (Config.lineFill k s.sent.length).toNat type body))

/-- The identity that names all hubs (R241). -/
def allHubs : Nat := 2 ^ 64 - 1

/-- A message (R241): header, payload, zero bytes to the next multiple of 6, and the CRC32C over all earlier bytes. -/
def message (kind tag dst src : Nat) (payload : List Byte) : List Byte :=
  let cells := max 4 ((20 + payload.length + 4 + 5) / 6)
  let body := natBytes 1 kind ++ natBytes 1 cells ++ natBytes 2 tag ++ natBytes 8 dst ++ natBytes 8 src ++ payload
  let full := bytesAt body 0 (6 * cells - 4)
  full ++ wordBytes (crc32c full)

/-- The type of cell `i` of `n` of a message. -/
def cellType (i n : Nat) : Nat := if i = 0 then cellFirst else if i + 1 = n then cellLast else cellMid

/-- The cells of a message leave on a port, or wait there for the end of the message in progress, since two never interleave (R241; log
entry 124). -/
def sendMessage (k : Nat) (m : List Byte) (s : State) : State :=
  let n := m.length / 6
  if (s.lnkOf k).tx.isEmpty then s.each n (fun i => sendCell k (cellType i n) (bytesAt m (6 * i) 6))
  else
    let cells := (List.range n).map (fun i => (cellType i n, bytesAt m (6 * i) 6))
    s.modLnk k (fun x => { x with tx := x.tx ++ [{ src := 4, cells := cells, done := true }] })

/-- A cell joins the copy from port `src`, which it opens if there is none. -/
def queueCell (src type : Nat) (body : List Byte) (l : List TxMsg) : List TxMsg :=
  let open_ (m : TxMsg) : Bool := m.src = src && !m.done
  if l.any open_ then
    l.map (fun m => if open_ m then { m with cells := m.cells ++ [(type, body)], done := type = cellLast } else m)
  else l ++ [{ src := src, cells := [(type, body)], done := type = cellLast }]

/-- The cells that may leave now, in their order: those of the first message and, where it is whole, of the next. -/
def drainTx : List TxMsg → List (Nat × List Byte) × List TxMsg
  | [] => ([], [])
  | m :: l => if m.done then (m.cells ++ (drainTx l).1, (drainTx l).2) else (m.cells, { m with cells := [] } :: l)

/-- A cell of the message that comes in on port `src` is forwarded on port `k`, or waits for the message there to end. -/
def forwardCell (k src type : Nat) (body : List Byte) (s : State) : State :=
  let (out, l) := drainTx (queueCell src type body (s.lnkOf k).tx)
  out.foldl (fun s c => sendCell k c.1 c.2 s) (s.modLnk k (fun x => { x with tx := l }))

/-- A port is a tree port: the uplink or a downlink (R242, R244). -/
def State.treePort (s : State) (k : Nat) : Bool :=
  s.portUp k && (s.get (LNK_STAT_ROLE k) = roleUplink || s.get (LNK_STAT_ROLE k) = roleDownlink)

/-- A message of the hub's own leaves on every tree port. -/
def sendTree (m : List Byte) (s : State) : State := s.each 4 (fun k s => s.when (s.treePort k) (sendMessage k m))

/-- A message leaves on every UP port. -/
def sendUp (m : Nat → List Byte) (s : State) : State := s.each 4 (fun k s => s.when (s.portUp k) (sendMessage k (m k)))

def kindHello : Nat := 0x01
def kindAnnounce : Nat := 0x02
def kindRdReq : Nat := 0x10
def kindRdResp : Nat := 0x11
def kindWrReq : Nat := 0x12
def kindWrResp : Nat := 0x13
def kindEvent : Nat := 0x20
def kindSignal : Nat := 0x21

/-! ### The tree (R243 to R249) -/

/-- A rank as one number, lower is better (R243). -/
def rankOf (prio1 cls prio2 id : Nat) : Nat := ((prio1 * 4 + cls) * 256 + prio2) * 2 ^ 64 + id

/-- The grandmaster rank an offer names. -/
def Offer.rank (o : Offer) : Nat := rankOf o.prio1 o.cls o.prio2 o.gm

/-- The hub's own CLASS, from its time region (R243). -/
def State.ownClass (s : State) : Nat :=
  let t := s.get LNK_SYS_CTL_TIME_TRG
  if s.dpll t = dpllLocked ∧ (s.selected t).any (· < 16) then 0 else if s.dpll t = dpllHoldover then 1 else 2

/-- The hub's own rank. -/
def State.ownRank (s : State) : Nat := rankOf (s.get LNK_PRIO_PRIO1) s.ownClass (s.get LNK_PRIO_PRIO2) s.hubId

/-- A port's offer, while it counts (R244). -/
def State.countingOffer (s : State) (k : Nat) : Option Offer :=
  match (s.lnkOf k).offer with
  | some o => if o.fresh && s.portUp k && s.on (LNK_STAT_DVALID k) then some o else none
  | none => none

/-- The values a hub would hold through a port's offer: ACC_LAT in 0.1 ns, ACC_PH in ps, HOPS (R248). -/
def State.afterHop (s : State) (k : Nat) (o : Offer) : Nat × Nat × Nat :=
  (o.lat + (s.get (LNK_DLY_D_IN k) + 99) / 100 + 1600, o.ph + 30 + 2 * s.get (LNK_ASYM_ASYM_UNC k), o.hops + 1)

/-- The offer of port `k` is better than that of port `b`: rank, then ACC_LAT, then HOPS after the hop, then the port index (R244). -/
def State.betterOffer (s : State) (best : Option (Nat × Offer)) (k : Nat) : Option (Nat × Offer) :=
  match s.countingOffer k with
  | none => best
  | some o =>
    match best with
    | none => some (k, o)
    | some (b, p) =>
      let (lk, _, hk) := s.afterHop k o
      let (lb, _, hb) := s.afterHop b p
      if o.rank < p.rank || (o.rank = p.rank && (lk < lb || (lk = lb && hk < hb))) then some (k, o) else best

/-- The uplink offer of R244. -/
def State.bestOffer (s : State) : Option (Nat × Offer) := (List.range 4).foldl s.betterOffer none

/-- The budget check (R249): 0 passed, 1 LAT, 2 PHASE, 3 HOPS, 4 NO_BUDGET. -/
def budgetCause (o : Offer) (lat ph hops : Nat) : Nat :=
  if o.blat = 0 ∨ o.bph = 0 then 4 else if 100 * o.blat < lat then 1 else if o.bph < ph then 2 else if 65535 < hops then 3 else 0

/-- The uplink port, where valid. -/
def State.uplink (s : State) : Option Nat := if s.on LNK_SYS_STAT_UPL_VALID then some (s.get LNK_SYS_STAT_UPLINK) else none

/-- The hub is a member of the tree: JOINED, REFUSED or GM. -/
def State.inTree (s : State) : Bool := s.sysState = sysJoined || s.sysState = sysRefused || s.sysState = sysGm

/-- The role of a port (R244, R245): a downlink wherever the peer's latest ANNOUNCE is REVERSE; the break at both ends, be one of them the
grandmaster. -/
def State.portRole (s : State) (k : Nat) : Nat :=
  if !s.portUp k then roleNone
  else if s.uplink = some k then roleUplink
  else if (s.lnkOf k).reverse then roleDownlink
  else if s.inTree && (s.lnkOf k).offer.any (fun o => o.gm = s.gmId) then roleBreak
  else roleNone

/-- ROLE, OFFER and the after-hop values of every port follow (R260). -/
def showPorts (s : State) : State :=
  s.each 4 (fun k s =>
    let s1 := (s.set (LNK_STAT_ROLE k) (s.portRole k)).put (LNK_STAT_OFFER k) (s.countingOffer k).isSome
    match (s.lnkOf k).offer with
    | some o =>
      let (l, p, h) := s.afterHop k o
      ((s1.set (LNK_OFR_LAT_ACC_LAT k) (satNat 32 l)).set (LNK_OFR_PH_ACC_PH k) (satNat 16 p)).set (LNK_OFR_PH_HOPS k) (satNat 16 h)
    | none => s1)

/-- The system choice of every region in SYS_MASK (R62, R247), which the system agent sends to the region's T-die (R22). -/
def showSys (s : State) : State :=
  s.each 4 (fun t s =>
    if s.bit LNK_SYS_CTL_SYS_MASK t && s.linked dieC (dieOfRegion t) then
      if s.sysState = sysJoined then
        match s.uplink with
        | some k =>
          if candAvailable t (16 + k) then (s.set (PLZ_SEL_SYS_SYS_IDX t) (16 + k)).set (PLZ_SEL_SYS_SYS_VALID t) 1
          else s.set (PLZ_SEL_SYS_SYS_VALID t) 0
        | none => s.set (PLZ_SEL_SYS_SYS_VALID t) 0
      else if s.sysState = sysGm then
        (s.set (PLZ_SEL_SYS_SYS_IDX t) (s.get LNK_SYS_CTL_GM_IDX)).set (PLZ_SEL_SYS_SYS_VALID t) 1
      else s.set (PLZ_SEL_SYS_SYS_VALID t) 0
    else s)

/-- SYS_VALID = 0 in every region (R246). -/
def clearSysValid (s : State) : State := s.each 4 (fun t s => s.set (PLZ_SEL_SYS_SYS_VALID t) 0)

/-- The last GM_SEQ seen from a grandmaster. -/
def State.seenSeq (s : State) (gm : Nat) : Option Nat := (s.sys.seen.find? (fun e => e.1 = gm)).map (·.2)

/-- The budget a hub passes on: that of its uplink offer, its own as grandmaster or without one (R244). -/
def State.budgetOut (s : State) : Nat × Nat :=
  match s.uplink.bind (fun k => (s.lnkOf k).offer) with
  | some o => (o.blat, o.bph)
  | none => (s.get LNK_BUDGET_LAT, s.get LNK_BUDGET_PHASE)

/-- The hub's own ANNOUNCE for a port (R241, R244): REVERSE on the uplink. -/
def State.announce (s : State) (withdraw : Bool) (k : Nat) : List Byte :=
  let seq := if s.gmId = s.hubId then s.sys.gmSeq else (s.seenSeq s.gmId).getD 0
  let flags := s.get LNK_GM_INFO_CLASS + (if s.uplink = some k then 4 else 0) + (if withdraw then 8 else 0)
  message kindAnnounce 0 allHubs s.hubId
    (natBytes 8 s.gmId ++ natBytes 1 (s.get LNK_GM_INFO_PRIO1) ++ natBytes 1 (s.get LNK_GM_INFO_PRIO2) ++ natBytes 2 flags ++
      natBytes 2 seq ++ natBytes 2 (s.get LNK_SYS_STAT_HOPS) ++ natBytes 4 (s.get LNK_ACC_LAT_ACC_LAT) ++
      natBytes 2 (s.get LNK_ACC_PH_ACC_PH) ++ natBytes 2 s.budgetOut.1 ++ natBytes 2 s.budgetOut.2)

/-- The hub's ANNOUNCE, or its WITHDRAW, leaves on every UP port. -/
def relay (s : State) : State := sendUp (s.announce false) s
def withdraw (s : State) : State := sendUp (s.announce true) s

/-- What the hub shows of its grandmaster. -/
def setGm (gm prio1 prio2 cls lat ph hops : Nat) (s : State) : State :=
  let s1 := s.setWide LNK_GM_LO_GM LNK_GM_HI_GM gm
  let s2 := ((s1.set LNK_GM_INFO_PRIO1 prio1).set LNK_GM_INFO_PRIO2 prio2).set LNK_GM_INFO_CLASS cls
  ((s2.set LNK_ACC_LAT_ACC_LAT (satNat 32 lat)).set LNK_ACC_PH_ACC_PH (satNat 16 ph)).set LNK_SYS_STAT_HOPS (satNat 16 hops)

/-- GM_CHANGE where the grandmaster has changed (R246). -/
def gmChange (old : Nat) (s : State) : State :=
  noteLink 0x03 (sysEvt 3 [(64, old), (64, s.gmId)] (s.bump LNK_SYS_CNT_GM_CNT))

/-- The uplink offer is taken by the check (R246, R249): JOINED or REFUSED, with the events of the transition. -/
def adopt (k : Nat) (o : Offer) (s : State) : State :=
  let (lat, ph, hops) := s.afterHop k o
  let cause := budgetCause o lat ph hops
  let old := s.gmId
  let was := s.sysState
  let heal := (was = sysJoined || was = sysRefused) && s.uplink ≠ some k && s.get (LNK_STAT_ROLE k) = roleBreak
  let now := if cause = 0 then sysJoined else sysRefused
  let s1 := setGm o.gm o.prio1 o.prio2 o.cls lat ph hops (((s.set LNK_SYS_STAT_UPLINK k).set LNK_SYS_STAT_UPL_VALID 1))
  let s2 := showSys (showPorts ((s1.set LNK_SYS_STAT_CAUSE cause).set LNK_SYS_STAT_STATE now))
  let s3 := s2.when heal (fun s => noteLink 0x04 (sysEvt 4 [(2, k)] (s.bump LNK_SYS_CNT_HEAL_CNT)))
  let s4 := s3.when (was ≠ sysListening && old ≠ o.gm) (gmChange old)
  if was = now then s4
  else if now = sysJoined then noteLink 0x01 (sysEvt 0 s4.joinBody s4)
  else noteLink 0x02 (sysEvt 1 s4.joinBody s4)

/-- The uplink is gone (R246). -/
def noUplink (st : Nat) (s : State) : State :=
  showPorts ((s.set LNK_SYS_STAT_STATE st).set LNK_SYS_STAT_UPL_VALID 0)

/-- The tree is judged again after an offer has changed (R244, R246); `from_` is the port a new offer has come on. The hub's own
ANNOUNCE follows a new uplink or a new offer on it. -/
def reelect (from_ : Option Nat) (s : State) : State :=
  let s0 := showPorts s
  if s.sysState = sysJoined ∨ s.sysState = sysRefused then
    match s.bestOffer with
    | some (k, o) =>
      let s1 := adopt k o s
      s1.when (s.uplink ≠ some k || from_ = some k) relay
    | none => noUplink sysListening (clearSysValid (withdraw s0))
  else if s.sysState = sysGm then
    match s.bestOffer with
    | some (k, o) => if o.rank < s.ownRank then relay (adopt k o s) else s0
    | none => s0
  else s0

/-- EPOCH_OK follows its conditions at once (R235). Where it falls for another reason than an on-loss condition of the epoch unit
(R258), the delay results of the die's ports fall with it. -/
def showEpoch (d : Nat) (s : State) : State :=
  let was := s.epochOk d
  let s1 := s.put (if d = 0 then LNK_EPOCH_OK0 else LNK_EPOCH_OK1) (s.epochMet d)
  if was && !s.epochMet d && !(s.epochUnit d).any (fun n => s.epochFit d n && s.onLoss n) then
    let ports := [2 * d, 2 * d + 1].filter (fun k => s.on (LNK_STAT_DVALID k))
    if ports.isEmpty then s1 else reelect none (ports.foldl (fun s k => dropAverage k (s.set (LNK_STAT_DVALID k) 0)) s1)
  else s1

def showEpochs (s : State) : State := showEpoch 1 (showEpoch 0 s)

/-- Every window of the package and the epochs: after a unit, a pairing or a fallback has changed. -/
def refreshAllWindows (s : State) : State := showEpochs (s.each 4 refreshWindows)

/-! ### Ports (R232, R234) -/

/-- What a port drops at a link loss or when it is disabled (R232, R236, R242). -/
def portDrop (k : Nat) (s : State) : State :=
  let x := s.lnkOf k
  let s1 := (s.set (LNK_STAT_FLOCK k) 0).set (LNK_STAT_DVALID k) 0
  let s2 := s1.when (!x.cells.isEmpty) (fun s => s.bump (LNK_CNT_MSG_DROP k))
  let s3 := s2.each 4 (fun i s => s.modLnk i (fun y => { y with fwd := y.fwd.filter (· ≠ k) }))
  s3.modLnk k (fun y => { txSeq := y.txSeq, peerPort := y.peerPort })

/-- The copies on the ports `l` of the message that comes in on `k` end with a MSG_LAST of an inverted CRC (R242). -/
def endCopiesOn (l : List Nat) (k : Nat) (s : State) : State :=
  let sent := (s.lnkOf k).cells.flatten ++ [0, 0]
  let bad := [0, 0] ++ wordBytes (crc32c sent ^^^ 0xFFFFFFFF)
  l.foldl (fun s j => s.when (s.portUp j) (forwardCell j k cellLast bad)) s

/-- Every copy of a discarded message ends (R242). -/
def endCopies (k : Nat) (s : State) : State := endCopiesOn (s.lnkOf k).fwd k s

/-- A port leaves UP (R232): `loss` for a link loss, which is counted. -/
def portDown (k st : Nat) (loss : Bool) (s : State) : State :=
  if s.lnkState k = lnkUp then
    let hadLock := s.on (LNK_STAT_FLOCK k)
    let s1 := (portDrop k (endCopies k s)).set (LNK_STAT_STATE k) st
    let s2 := s1.when loss (fun s => s.bump (LNK_STAT_DOWN_CNT k))
    let s3 := s2.when hadLock (fun s => portEvt k 3 [(32, s.get (LNK_FOFS_FOFS k))] s)
    reelect none (portEvt k 1 [(64, s.peerId k)] s3)
  else portDrop k (s.set (LNK_STAT_STATE k) st)

/-- EN written 1 to a DISABLED port (R232). -/
def portEnable (k : Nat) (s : State) : State := if s.lnkState k = lnkDisabled then s.set (LNK_STAT_STATE k) lnkTraining else s

/-- EN written 0 (R232). -/
def portDisable (k : Nat) (s : State) : State := if s.lnkState k = lnkDisabled then s else portDown k lnkDisabled false s

/-- HELLO_SEND (R232): a training port with 64 valid headers sends HELLO. -/
def execHelloSend (k : Fin 4) (s : State) : Out :=
  .next <|
    if s.lnkState k = lnkTraining ∧ (s.lnkOf k).good = 64 ∧ s.portPowered k then
      sendMessage k (message kindHello 0 allHubs s.hubId (natBytes 1 k.val)) s
    else s

/-- LINK_UP (R232): a good HELLO from `peer` after 64 valid headers. -/
def execLinkUp (k : Fin 4) (peer : BitVec 64) (port : Byte) (s : State) : Out :=
  .next <|
    if s.lnkState k = lnkTraining ∧ (s.lnkOf k).good = 64 ∧ s.portPowered k then
      let s1 := (s.set (LNK_STAT_STATE k) lnkUp).setWide (LNK_PEER_LO_ID k) (LNK_PEER_HI_ID k) peer.toNat
      showPorts (portEvt k 0 [(64, peer.toNat)] (s1.modLnk k (fun x => { x with peerPort := port.toNat })))
    else s

/-- LINK_DOWN (R232): a link loss of an UP port. -/
def execLinkDown (k : Fin 4) (s : State) : Out :=
  .next (if s.lnkState k = lnkUp then portDown k lnkTraining true s else s)

/-- LINK_FREQ_GATE (R234): a 1 ms gate of the recovered clock; `fofs` in 0.001 ppm. -/
def execLinkFreqGate (k : Fin 4) (fofs : Word) (s : State) : Out :=
  .next <|
    if s.lnkState k = lnkDisabled ∨ s.isolated (dieOfPort k) then s else
    let s1 := s.set (LNK_FOFS_FOFS k) fofs.toNat
    if s.lnkState k ≠ lnkUp then s1 else
    if withinLimit fofs.toInt (s.get (LNK_FQ_FTOL k)) then
      let run := min 65535 ((s.lnkOf k).qualRun + 1)
      let s2 := s1.modLnk k (fun x => { x with qualRun := run })
      if s.on (LNK_STAT_FLOCK k) ∨ run < s.get (LNK_FQ_QUAL k) then s2
      else portEvt k 2 [(32, fofs.toNat)] (s2.set (LNK_STAT_FLOCK k) 1)
    else
      let s2 := s1.modLnk k (fun x => { x with qualRun := 0 })
      if s.on (LNK_STAT_FLOCK k) then portEvt k 3 [(32, fofs.toNat)] (s2.set (LNK_STAT_FLOCK k) 0) else s2

/-! ### Marks (R235, R236) -/

/-- Offsets wrap modulo one second, 10^12 ps (R236). -/
def wrapPs (x : Int) : Int := (x + 500000000000) % 1000000000000 - 500000000000

/-- The mark slot of an offset from the epoch: 2^RATE slots divide the second (R236). -/
def State.markSlot (s : State) (k ofs : Nat) : Nat := ofs * 2 ^ s.get (LNK_MARK_RATE k) / 1000000000000

/-- MARK_SEND (R236, R258): a mark slot of a port; `ofs` is the departure stamp, and a slot carries one mark. Without a valid epoch no mark
leaves, and the third missing exchange clears DVALID. -/
def execMarkSend (k : Fin 4) (ofs : BitVec 40) (s : State) : Out :=
  .next <|
    if !s.portUp k then s
    else if s.portEpoch k then
      let q := (s.lnkOf k).txSeq
      let i := s.markSlot k ofs.toNat
      if 2 ^ s.get (LNK_MARK_RATE k) ≤ i ∨ (s.lnkOf k).slot = some i then s else
      let s1 := s.modLnk k (fun x => { x with own := some (q, ofs.toNat), txSeq := (q + 1) % 256, missing := 0, slot := some i })
      sendCell k cellMark (natBytes 1 q ++ natBytes 5 ofs.toNat) s1
    else
      let m := min 3 ((s.lnkOf k).missing + 1)
      let s1 := s.modLnk k (fun x => { x with missing := m })
      if m = 3 ∧ s.on (LNK_STAT_DVALID k) then reelect none (s1.set (LNK_STAT_DVALID k) 0) else s1

/-- MARK_RX (R236): a peer mark is stamped at `arr` and returned in a MARK_ECHO. -/
def execMarkRx (k : Fin 4) (seq : Byte) (ofs arr : BitVec 40) (s : State) : Out :=
  .next <|
    if s.portUp k && s.portEpoch k then
      sendCell k cellEcho (natBytes 1 seq.toNat ++ natBytes 5 arr.toNat)
        (s.modLnk k (fun x => { x with peerMark := some (ofs.toNat, arr.toNat) }))
    else s

/-- An average has its 2^AVG exchanges: the means are shown and the next average starts (R236). -/
def showAverage (k : Nat) (s : State) : State :=
  let x := s.lnkOf k
  let s1 := (s.setS (LNK_DLY_D_IN k) (roundDivInt x.sumD (2 * x.cnt))).setS (LNK_THETA_THETA k) (roundDivInt x.sumT (2 * x.cnt))
  reelect none (dropAverage k (s1.set (LNK_STAT_DVALID k) 1))

/-- MARK_ECHO_RX (R236): the echo of the last own mark completes an exchange with the last peer mark. -/
def execMarkEchoRx (k : Fin 4) (seq : Byte) (arr : BitVec 40) (s : State) : Out :=
  .next <|
    let x := s.lnkOf k
    match x.own, x.peerMark with
    | some (q, ofs), some (pofs, parr) =>
      if s.portUp k ∧ s.portEpoch k ∧ q = seq.toNat then
        let i := wrapPs ((parr : Int) - pofs)
        let o := wrapPs ((arr.toNat : Int) - ofs)
        let asym := s.getS (LNK_ASYM_ASYM k)
        let s1 := s.modLnk k (fun x =>
          { x with own := none, peerMark := none, sumD := x.sumD + i + o + asym, sumT := x.sumT + (o - i) + asym, cnt := x.cnt + 1 })
        if (s1.lnkOf k).cnt < 2 ^ s.get (LNK_MARK_AVG k) then s1 else showAverage k s1
      else s
    | _, _ => s

/-! ### Time of day (R240) -/

/-- The seconds of the hub's next epoch. -/
def State.nextTod (s : State) : Nat :=
  (s.sys.todSet.orElse (fun _ => s.sys.todNext)).getD ((s.getWide LNK_TOD_LO_SEC LNK_TOD_HI_SEC + 1) % 2 ^ 48)

/-- EPOCH (R236, R240): the epoch of T-die `d`: the mark slots and the TIME cells of its ports begin anew, and the time region's die counts
the seconds. -/
def execEpoch (d : Fin 2) (s : State) : Out :=
  .next <|
    if s.epochOk d then
      let anew (k : Nat) (s : State) : State := s.modLnk k (fun x => { x with slot := none, timeSent := false })
      let s0 := anew (2 * d.val + 1) (anew (2 * d.val) s)
      if d.val = s.get LNK_SYS_CTL_TIME_TRG / 2 then
        let v := s.nextTod
        let s1 := (s0.setWide LNK_TOD_LO_SEC LNK_TOD_HI_SEC v).modSys (fun x => { x with todSet := none, todNext := none })
        if s.sys.todSet.isSome then noteLink 0x05 (sysEvt 5 [(48, v)] s1) else s1
      else s0
    else s

/-- TIME_CELL_SEND (R240): the one TIME cell of a port between two epochs. -/
def execTimeCellSend (k : Fin 4) (s : State) : Out :=
  .next <|
    if s.portUp k && s.portEpoch k && !(s.lnkOf k).timeSent then
      sendCell k cellTime (natBytes 6 s.nextTod) (s.modLnk k (fun x => { x with timeSent := true }))
    else s

/-- TIME_CELL_RX (R240): the uplink's cell is loaded for the next epoch and resent on every downlink. -/
def execTimeCellRx (k : Fin 4) (sec : BitVec 48) (s : State) : Out :=
  .next <|
    if s.portUp k ∧ s.sysState = sysJoined ∧ s.uplink = some k.val then
      (s.modSys (fun x => { x with todNext := some sec.toNat })).each 4 (fun j s =>
        s.when (s.portUp j && s.get (LNK_STAT_ROLE j) = roleDownlink) (sendCell j cellTime (natBytes 6 sec.toNat)))
    else s

/-! ### Receiving cells and messages (R231, R232, R242) -/

/-- The message in progress on a port is discarded and counted; its copies end (R242). -/
def dropMessage (k : Nat) (s : State) : State :=
  if (s.lnkOf k).cells.isEmpty then s
  else ((endCopies k s).modLnk k (fun x => { x with cells := [], whole := false, fwd := [] })).bump (LNK_CNT_MSG_DROP k)

/-- A message of the tree kinds (R241). -/
def treeKind (kind : Nat) : Bool := 0x10 ≤ kind

/-- The ports a tree message that arrives on `k` is forwarded on (R242): none for one the hub alone consumes. -/
def State.forwardPorts (s : State) (k : Nat) (bytes : List Byte) : List Nat :=
  if treeKind (bytes.getD 0 0).toNat && s.treePort k && leNat (bytesAt bytes 4 8) ≠ s.hubId then
    (List.range 4).filter (fun j => j ≠ k && s.treePort j)
  else []

/-- A message cell is taken (R241, R242): the second cell brings DST, and with it the forwarding of both; later cells follow on the ports
that are still UP and of the tree, and a copy on any other ends. -/
def messageCell (k type : Nat) (body : List Byte) (s : State) : State :=
  let s0 := if type = cellFirst then dropMessage k s else s
  let x := s0.lnkOf k
  if type ≠ cellFirst ∧ (x.cells.isEmpty ∨ x.whole) then s0 else
  let cells := x.cells ++ [body]
  let fwd := if cells.length = 2 then s0.forwardPorts k cells.flatten else x.fwd.filter s0.treePort
  let s1 := endCopiesOn (x.fwd.filter (fun j => !s0.treePort j)) k s0
  let s2 := s1.modLnk k (fun x => { x with cells := cells, fwd := fwd, whole := type = cellLast })
  fwd.foldl (fun s j =>
    forwardCell j k type body (s.when (cells.length = 2) (forwardCell j k cellFirst (cells.getD 0 [])))) s2

/-- The invalid headers among the last 64 cells (R232). -/
def badHeaders (h : BitVec 64) : Nat := (bitsOf 64 h.toNat).length

/-- CELL_RX (R229, R231, R232, R242): a cell off the line, its payload still scrambled. Eight invalid headers among 64 consecutive
cells are a link loss of an UP port. Marks, echoes, TIME cells and whole messages have rows of their own. -/
def execCellRx (k : Fin 4) (hdr : BitVec 2) (line : BitVec 64) (s : State) : Out :=
  .next <|
    if s.lnkState k = lnkDisabled ∨ s.isolated (dieOfPort k) then s else
    let (h, payload) := descramble (s.lnkOf k).rxLine.toNat line.toNat
    let bytes := natBytes 8 payload
    let type := (bytes.getD 0 0).toNat
    let isMsg := type = cellFirst ∨ type = cellMid ∨ type = cellLast
    let known := isMsg ∨ type = cellMark ∨ type = cellEcho ∨ type = cellTime
    let valid := hdr.toNat = hdrTyped ∨ hdr.toNat = hdrIdle
    let s1 := s.modLnk k (fun x =>
      { x with rxLine := BitVec.ofNat 58 h, badHdr := x.badHdr <<< 1 ||| (if valid then 0 else 1)
               good := if valid then min 64 (x.good + 1) else 0 })
    if hdr.toNat = hdrIdle then s1
    else if valid ∧ known ∧ crc8 (bytesAt bytes 0 7) = (bytes.getD 7 0).toNat then
      if isMsg then messageCell k type (bytesAt bytes 1 6) s1 else s1
    else
      let s2 := s1.bump (LNK_CNT_CRC_ERR k)
      if s.lnkState k = lnkUp ∧ 8 ≤ badHeaders (s1.lnkOf k).badHdr then portDown k lnkTraining true s2
      else if isMsg then dropMessage k s2 else s2

/-- A whole message has the length its LEN gives, within the bounds of R241, and passes its CRC32C. -/
def messageGood (m : List Byte) : Bool :=
  24 ≤ m.length && m.length ≤ 258 && m.length = 6 * (m.getD 1 0).toNat && crc32c (m.take (m.length - 4)) = wordAt m (m.length - 4)

/-- MESSAGE_RX (R242): a whole message: a one-hop message and one the hub consumes are checked; a tree message on a port that is
no tree port is discarded. -/
def execMessageRx (k : Fin 4) (s : State) : Out :=
  .next <|
    let x := s.lnkOf k
    if !x.whole then s else
    let m := x.cells.flatten
    let tree := treeKind (m.getD 0 0).toNat
    let dst := leNat (bytesAt m 4 8)
    let mine := !tree || dst = s.hubId || dst = allHubs
    let s1 := s.modLnk k (fun x => { x with cells := [], whole := false, fwd := [] })
    if (tree && !s.treePort k) || (mine && !messageGood m) then s1.bump (LNK_CNT_MSG_DROP k) else s1

/-- MESSAGE_TIMEOUT (R242): the next cell has not come within 1 µs. -/
def execMessageTimeout (k : Fin 4) (s : State) : Out :=
  .next (if (s.lnkOf k).whole then s else dropMessage k s)

/-! ### Election commands (R244, R246) -/

/-- ANNOUNCE_ORIGINATE (R244): the grandmaster's ANNOUNCE. -/
def originate (s : State) : State :=
  let s1 := s.modSys (fun x => { x with gmSeq := (x.gmSeq + 1) % 2 ^ 16 })
  let s2 := setGm s.hubId (s.get LNK_PRIO_PRIO1) (s.get LNK_PRIO_PRIO2) s.ownClass 0 (s.get LNK_SRC_ERR_SRC_ERR) 0 s1
  relay s2

/-- ANNOUNCE_ORIGINATE: once per ANN_PER in state GM. -/
def execAnnounceOriginate (s : State) : Out := .next (if s.sysState = sysGm then originate s else s)

/-- A GM_SEQ is not older, modulo 2^16, than the last one seen from its grandmaster (R244). -/
def State.seqFresh (s : State) (gm seq : Nat) : Bool :=
  match s.seenSeq gm with
  | some l => (seq + 2 ^ 16 - l) % 2 ^ 16 < 2 ^ 15
  | none => true

/-- The last GM_SEQ seen from a grandmaster moves on. -/
def noteSeq (gm seq : Nat) (s : State) : State :=
  if s.seqFresh gm seq then s.modSys (fun x => { x with seen := (gm, seq) :: x.seen.filter (fun e => e.1 ≠ gm) }) else s

/-- ANNOUNCE_RX (R244 to R246): the fields of a checked ANNOUNCE that has come on port `k`. -/
def execAnnounceRx (k : Fin 4) (gm : BitVec 64) (prio1 prio2 : Byte) (cls : BitVec 2) (reverse withdraw : Bool)
    (seq hops : BitVec 16) (lat : Word) (ph blat bph : BitVec 16) (s : State) : Out :=
  .next <|
    if !s.portUp k then s else
    let o : Offer :=
      { gm := gm.toNat, prio1 := prio1.toNat, prio2 := prio2.toNat, cls := cls.toNat, seq := seq.toNat, hops := hops.toNat
        lat := lat.toNat, ph := ph.toNat, blat := blat.toNat, bph := bph.toNat, fresh := s.seqFresh gm.toNat seq.toNat }
    let s1 := s.when (s.sysState = sysGm && gm.toNat = s.hubId && hops ≠ 0) (fun s => s.set LNK_SYS_STAT_RING 1)
    let s2 := (noteSeq gm.toNat seq.toNat s1).modLnk k (fun x =>
      { x with reverse := reverse && !withdraw, offer := if reverse || withdraw then none else some o })
    reelect (some k.val) s2

/-- OFFER_EXPIRE (R244): no newer GM_SEQ for 3 × ANN_PER. -/
def execOfferExpire (k : Fin 4) (s : State) : Out :=
  .next (if (s.lnkOf k).offer.isSome then reelect none (s.modLnk k (fun x => { x with offer := none })) else s)

/-- LISTEN_END (R246). -/
def execListenEnd (s : State) : Out :=
  .next <|
    if s.sysState ≠ sysListening then s else
    match s.bestOffer, s.on LNK_SYS_CTL_CAND with
    | some (k, o), cand =>
      if cand && s.ownRank < o.rank then becomeGm s else relay (adopt k o s)
    | none, true => becomeGm s
    | none, false => s
where
  /-- The hub becomes grandmaster (R246). -/
  becomeGm (s : State) : State :=
    let s1 := originate (s.set LNK_SYS_STAT_CAUSE 0)
    let s2 := gmChange s.gmId (showSys (showPorts (s1.set LNK_SYS_STAT_STATE sysGm)))
    noteLink 0x01 (sysEvt 0 s2.joinBody s2)

/-- LINK_JOIN (R246, R258): DETACHED to LISTENING; ignored in any other state. -/
def cmdLinkJoin (s : State) : CmdRes :=
  if s.sysState = sysDetached then cmdOk (showPorts ((s.set LNK_SYS_STAT_STATE sysListening).set LNK_SYS_CTL_JOIN 1))
  else cmdIgnored s

/-- Entry to RUN with AUTO_JOIN = 1 joins as LINK_JOIN does (R246). -/
def autoJoin (s : State) : State := if s.on LNK_SYS_CTL_AUTO_JOIN then (cmdLinkJoin s).s else s

/-- Leaving the system, from any state (R246). -/
def linkLeave (s : State) : State :=
  let s1 := clearSysValid (withdraw s)
  sysEvt 2 s.joinBody (noUplink sysDetached (s1.set LNK_SYS_CTL_JOIN 0))

/-- LINK_LEAVE (R246). -/
def cmdLinkLeave (s : State) : CmdRes := cmdOk (linkLeave s)

/-! ### Events across the system (R255 to R257) -/

/-- The DMA request line of a port's receive queue (R324). -/
def lineRx (k : Nat) : Nat := 20 + k

/-- Records of the receive queue that have raised no request raise it while REQ_EN is 1; FILL follows (R257). -/
def showRx (k : Nat) (s : State) : State :=
  let n := (bankGet s.rxq k).length
  let s1 := s.set (LNK_RXQ_FILL k) n
  if s.on (LNK_RXQ_REQ_EN k) then
    s1.each n (fun j s => s.when (((bankGet s.rxq k)[j]?).any (fun u => u.req.isNone))
      (raiseLineFor (dieOfPort k) (lineRx k) (fun q s =>
        { s with rxq := bankMod s.rxq k (fun l => l.modify j (fun u => { u with req := some q })) })))
  else s1

/-- A record enters a port's receive queue, or is dropped and counted (R257). -/
def queueRx (k : Nat) (m : List Byte) (s : State) : State :=
  if (bankGet s.rxq k).length < 16 then
    let rec_ := bytesAt m 0 28 ++ natBytes 4 (s.getWide GLB_TIMER_LO_US GLB_TIMER_HI_US)
    showRx k { s with rxq := bankMod s.rxq k (· ++ [{ bytes := rec_ }]) }
  else s.bump (LNK_RXQ_DROP_CNT k)

/-- EVENT_SEND (R255): a forwarded class has latched. -/
def execEventSend (c : Fin 13) (s : State) : Out :=
  .next <|
    if s.bit LNK_EVFWD_MASK c && s.bit FLT_PKG_LATCH c then
      sendTree (message kindEvent 0 allHubs s.hubId (natBytes 1 c.val)) s
    else s

/-- A write of LNK_SIGNAL sends a SIGNAL (R255). -/
def sendSignal (code : Nat) (s : State) : State := sendTree (message kindSignal 0 allHubs s.hubId (natBytes 1 code)) s

/-- REMOTE_EVENT_RX (R255 to R257): a checked EVENT of a fault class or SIGNAL of a code, from `src`, on a tree port. -/
def execRemoteEventRx (k : Fin 4) (src : BitVec 64) (signal : Bool) (code : Byte) (s : State) : Out :=
  .next <|
    let c := code.toNat
    if !s.treePort k || (if signal then c < 0x80 else 12 < c) then s else
    let m := message (if signal then kindSignal else kindEvent) 0 allHubs src.toNat (natBytes 1 c)
    let s1 := noteLink (if signal then c else 0x10 + c) (queueRx k m s)
    if s.on LNK_SYS_CTL_EVRX_EN then sysEvt (if signal then 7 else 6) [(64, src.toNat), (32, c)] s1 else s1

/-! ### Write rules of the LNK registers (R260, R261) -/

/-- The ordering and state rules of the LNK registers. -/
def lnkRule (r : Reg) (old new : Word) (s : State) : Bool :=
  match r.name with
  | .LNK_CTL => !(wordGet old 0 1 = 1 && wordGet old 1 1 ≠ wordGet new 1 1)
  | .LNK_TOD_SET_HI => s.sysState = sysGm
  | .LNK_SIGNAL => 0x80 ≤ wordGet new 0 8
  | .LNK_RMT_CTL => wordGet new 0 1 = 0 || !s.on LNK_RMT_STAT_BUSY
  | _ => true

/-- What an applied write of an LNK register sets off. -/
def lnkAfter (r : Reg) (_old new : Word) (s : State) : State :=
  match r.name with
  | .LNK_CTL => if wordGet new 0 1 = 1 then portEnable r.i s else portDisable r.i s
  | .LNK_EPOCH => showEpochs s
  | .LNK_SYS_CTL =>
    if wordGet new 1 1 = 1 then linkLeave s else showSys s
  | .LNK_TOD_SET_HI =>
    s.modSys (fun x => { x with todSet := some (s.getWide LNK_TOD_SET_LO_SEC LNK_TOD_SET_HI_SEC) })
  | .LNK_SIGNAL => sendSignal (wordGet new 0 8) s
  | .LNK_RXQ => showRx r.i s
  | _ => s

end Sys2Proof.Machine
end

