-- ==== Sys2Proof/Machine/Rail.lean ====
section
/-! DEFINITION. Sys2Proof/Machine/Rail.lean: rails and their supervisors, phase units, the edge scheduler, the fallback grid and
telemetry (chapter 07, R165 to R193; R204 to R209). -/

namespace Sys2Proof.Machine

/-! ### Rail states (R172 to R177) -/

/-- The rail reaches OFF from STOP or by COAST: RAIL_OFF (R172, R191). -/
def railGoesOff (r : Nat) (s : State) : State :=
  (railIdle r phIdle (s.set (PRG_RSTAT_STATE r) railOff)).raise (PRG_REVT_RAIL_OFF r) 0 0x0603 r

/-- EN written 1 (R172, R173): an OFF rail waits T_EN and soft-starts; a stopping rail soft-starts from the present sense
voltage; every assigned phase is active, in DCM. -/
def railEnable (r : Nat) (s : State) : State :=
  let st := s.railState r
  if st = railOff ∨ st = railStop then
    let v := s.get (PRG_RMEAS_VSENSE r)
    let s1 := (s.set (PRG_RSTAT_STATE r) railStart).modRail r (fun x =>
      if st = railOff then { x with enWait := true, target := 0 } else { x with enWait := false, rampFrom := v, target := 100 * v })
    setActive r (s.nasg r) (s1.set (PRG_RSTAT_DCM r) 1)
  else s

/-- V_VID in µV (R169). -/
def State.vVid (s : State) (r : Nat) : Int := 250000 + 1250 * (s.get (PRG_VID_VID r) : Int)

/-- The target in force, before the load line, in µV: the ramp's in START and STOP, the move's while MOVING, V_VID otherwise; a START that
still waits T_EN has no ramp target yet and counts as OFF (R169, R173, R175; log entry 118). -/
def State.vNow (s : State) (r : Nat) : Int :=
  let st := s.railState r
  if (st = railStart && !(s.railOf r).enWait) || st = railStop || (st = railRegulating && s.on (PRG_RSTAT_MOVING r)) then
    (s.railOf r).target
  else s.vVid r

/-- The droop R_LL × I_tot in µV, R_LL in 0.01 mΩ and I_tot in 0.1 A (R169). -/
def State.droop (s : State) (r : Nat) : Int := (s.get (PRG_LL_RLL r) : Int) * s.getS (PRG_RMEAS_ITOT r)

/-- V_target in µV: with the load line in REGULATING, the ramp target in START and STOP (R169, R173). -/
def State.vTarget (s : State) (r : Nat) : Int :=
  if s.railState r = railRegulating then s.vNow r - s.droop r else s.vNow r

/-- EN written 0 (R172, R173, R190): by ramp from the present target, with every assigned phase active in CCM, or by coast. -/
def railDisable (r : Nat) (s : State) : State :=
  let st := s.railState r
  let coast := s.on (PRG_RCTL_STOP_MODE r)
  if st = railStart ∨ st = railRegulating then
    let s0 := s.modRail r (fun x => { x with enWait := false, target := if x.enWait then 0 else s.vNow r })
    if coast then railGoesOff r s0
    else setActive r (s.nasg r) ((railUnregulated r s0).set (PRG_RSTAT_STATE r) railStop)
  else if st = railStop ∧ coast then railGoesOff r s
  else s

/-- SOFT_START_BEGIN (R173): the T_EN delay ends; the ramp begins at the sense voltage `v` in 0.1 mV, or at 0 V below 0.1 V. -/
def execSoftStartBegin (r : Fin 24) (v : BitVec 16) (s : State) : Out :=
  .next <|
    if s.railState r = railStart ∧ (s.railOf r).enWait then
      (s.set (PRG_RMEAS_VSENSE r) v.toNat).modRail r (fun x =>
        let v0 := if v.toNat < 1000 then 0 else v.toNat
        { x with enWait := false, rampFrom := v0, target := 100 * v0 })
    else s

/-- RAMP_TARGET_REACHED (R172): the ramp target is at V_VID: START to REGULATING; shedding and DCM are enabled. -/
def execRampTargetReached (r : Fin 24) (s : State) : Out :=
  .next <|
    if s.railState r = railStart ∧ !(s.railOf r).enWait then
      ((s.set (PRG_RSTAT_STATE r) railRegulating).set (PRG_RSTAT_DCM r) 0).modRail r (fun x => { x with target := s.vVid r })
    else s

/-- RAIL_OFF (R172): the ramp target of a stopping rail reaches 0 V. -/
def execRailOff (r : Fin 24) (s : State) : Out :=
  .next <| if s.railState r = railStop then (railGoesOff r s).modRail r (fun x => { x with target := 0 }) else s

/-- A sense voltage in 0.1 mV lies within ±PG_WIN mV of V_target, which follows a move (R174). -/
def State.inPgBand (s : State) (r v : Nat) : Bool := decide ((100 * (v : Int) - s.vTarget r).natAbs ≤ 1000 * s.get (PRG_PG_PG_WIN r))

/-- RAIL_PG (R174): the sense voltage `v` has stayed in the band for PG_DLY. The record carries V_target in 0.1 mV. -/
def execRailPg (r : Fin 24) (v : BitVec 16) (s : State) : Out :=
  .next <|
    if s.railState r = railRegulating ∧ s.get (PRG_RSTAT_PG r) = 0 ∧ s.inPgBand r v.toNat then
      let s1 := (s.set (PRG_RMEAS_VSENSE r) v.toNat).set (PRG_RSTAT_PG r) 1
      rearmDeps (s1.raise (PRG_REVT_RAIL_PG r) 0 0x0600 r [(32, ofSigned 32 (roundDivInt (s1.vTarget r) 100))])
    else s

/-- RAIL_PG_LOST (R174, R203): the sense voltage has stayed out of the band for PG_DLY. -/
def execRailPgLost (r : Fin 24) (v : BitVec 16) (s : State) : Out :=
  .next <|
    if s.railState r = railRegulating ∧ s.on (PRG_RSTAT_PG r) ∧ !s.inPgBand r v.toNat then
      let s1 := (s.set (PRG_RMEAS_VSENSE r) v.toNat).set (PRG_RSTAT_PG r) 0
      railTrigger r (s1.raise (PRG_REVT_RAIL_PG_LOST r) 0 0x0601 r [(16, v.toNat)])
    else s

/-- A VID write (R175): during REGULATING it starts a move from the target in force, or redirects the one under way, with every assigned
phase active in CCM; during START it replaces the end point of the ramp, and elsewhere the register holds it for the start. -/
def vidWritten (r : Nat) (s : State) : State :=
  if s.railState r = railRegulating then
    let s1 := s.modRail r (fun x => { x with moveFrom := x.target, slewAcc := if s.on (PRG_RSTAT_MOVING r) then x.slewAcc else 0 })
    setActive r (s.nasg r) ((s1.set (PRG_RSTAT_MOVING r) 1).set (PRG_RSTAT_DCM r) 0)
  else s

/-- VID_DONE (R175): the target has reached the new V_VID. -/
def execVidDone (r : Fin 24) (s : State) : Out :=
  .next <|
    if s.railState r = railRegulating ∧ s.on (PRG_RSTAT_MOVING r) then
      ((s.set (PRG_RSTAT_MOVING r) 0).modRail r (fun x => { x with target := s.vVid r, slewAcc := 0 })).raise
        (PRG_REVT_VID_DONE r) 0 0x0602 r [(12, s.get (PRG_VID_VID r))]
    else s

/-- A value moved towards another by at most a step. -/
def towards (goal step x : Int) : Int := if x ≤ goal then min goal (x + step) else max goal (x - step)

/-- A microsecond of a rail's ramp or move (R173, R175): the ramp rises to V_VID or falls to 0 V at SS_SLEW; a move steps by 1.25 mV at the
rate SLEW (both in 0.25 mV/µs). -/
def railTick (r : Nat) (s : State) : State :=
  let st := s.railState r
  let x := s.railOf r
  let ss : Int := 250 * s.get (PRG_SLEW_SS_SLEW r)
  if st = railStart && !x.enWait then s.modRail r (fun x => { x with target := max x.target (min (s.vVid r) (x.target + ss)) })
  else if st = railStop then s.modRail r (fun x => { x with target := max 0 (x.target - ss) })
  else if st = railRegulating && s.on (PRG_RSTAT_MOVING r) then
    let acc := x.slewAcc + 250 * s.get (PRG_SLEW_SLEW r)
    s.modRail r (fun x => { x with target := towards (s.vVid r) ((acc / 1250 * 1250 : Nat) : Int) x.target, slewAcc := acc % 1250 })
  else s

/-- The fewest active phases of a rail (R176). -/
def State.minActive (s : State) (r : Nat) : Nat :=
  if s.on (PRG_RCTL_SHED_EN r) then min (s.get (PRG_SHED_NMIN r) + 1) (s.nasg r) else s.nasg r

/-- A rail may shed: REGULATING, SHED_EN, not moving (R175, R176). -/
def State.maySheds (s : State) (r : Nat) : Bool :=
  s.railState r = railRegulating && s.on (PRG_RCTL_SHED_EN r) && !s.on (PRG_RSTAT_MOVING r)

/-- I_tot, signed in 0.1 A, exceeds a threshold in 0.125 A (R176, R177). -/
def itotOver (itot : BitVec 16) (thr : Nat) : Bool := decide (((5 * thr : Nat) : Int) < 4 * itot.toInt)

/-- I_tot, signed in 0.1 A, lies below a threshold in 0.125 A (R176, R177). -/
def itotBelow (itot : BitVec 16) (thr : Nat) : Bool := decide (4 * itot.toInt < ((5 * thr : Nat) : Int))

/-- SHED_ADD (R176): I_tot (0.1 A) has exceeded N_act × I_ADD over a period. -/
def execShedAdd (r : Fin 24) (itot : BitVec 16) (s : State) : Out :=
  .next <|
    if s.maySheds r && s.get (PRG_RSTAT_NACT r) < s.nasg r && itotOver itot (s.get (PRG_RSTAT_NACT r) * s.get (PRG_SHED_I_ADD r)) then
      setActive r (s.get (PRG_RSTAT_NACT r) + 1) (s.set (PRG_RMEAS_ITOT r) itot.toNat)
    else s

/-- SHED_DROP (R176): I_tot has stayed below (N_act − 1) × I_DROP for SHED_DLY. -/
def execShedDrop (r : Fin 24) (itot : BitVec 16) (s : State) : Out :=
  .next <|
    if s.maySheds r && s.minActive r < s.get (PRG_RSTAT_NACT r) &&
        itotBelow itot ((s.get (PRG_RSTAT_NACT r) - 1) * s.get (PRG_SHED_I_DROP r)) then
      setActive r (s.get (PRG_RSTAT_NACT r) - 1) (s.set (PRG_RMEAS_ITOT r) itot.toNat)
    else s

/-- DCM_ENTER (R177): I_tot has stayed below I_DCM for DCM_DLY at the fewest phases. -/
def execDcmEnter (r : Fin 24) (itot : BitVec 16) (s : State) : Out :=
  .next <|
    if s.railState r = railRegulating && s.on (PRG_RCTL_DCM_EN r) && !s.on (PRG_RSTAT_MOVING r) &&
        s.get (PRG_RSTAT_NACT r) = s.minActive r && itotBelow itot (s.get (PRG_DCM_I_DCM r)) then
      (s.set (PRG_RMEAS_ITOT r) itot.toNat).set (PRG_RSTAT_DCM r) 1
    else s

/-- DCM_EXIT (R177): I_tot exceeds I_CCM. -/
def execDcmExit (r : Fin 24) (itot : BitVec 16) (s : State) : Out :=
  .next <|
    if s.railState r = railRegulating && s.on (PRG_RSTAT_DCM r) && itotOver itot (s.get (PRG_DCM_I_CCM r)) then
      (s.set (PRG_RMEAS_ITOT r) itot.toNat).set (PRG_RSTAT_DCM r) 0
    else s

/-! ### Supervisors (R204 to R209) -/

/-- The action of a fault kind of a rail: 0 OV, 1 UV, 2 OC, 3 OT (R208). -/
def State.faultAct (s : State) (r kind : Nat) : Nat :=
  match kind with
  | 0 => s.get (FLT_OV_ACT r)
  | 1 => s.get (FLT_UV_ACT r)
  | 2 => s.get (FLT_OC_ACT r)
  | _ => s.get (FLT_OT_ACT r)

/-- A rail shut down by its own fault: a retry is to come, or with LEFT at 0 it latches (R209). -/
def armRetry (r : Nat) (s : State) : State :=
  if s.get (FLT_RETRY_RETRY r) = 0 then s
  else if s.get (FLT_RETRY_LEFT r) = 0 then s.pushEvt 0x070A r 0
  else s.modRail r (fun x => { x with retryDue := true })

/-- A fault of a rail (R208, R210, R213): latched, counted, raised, its class at the square, and its action applied. -/
def railFault (r kind : Nat) (s : State) : State :=
  let was := s.railState r
  let s1 := ((s.setBit (FLT_RSTAT_LATCH r) kind true).bump (FLT_RSTAT_FCNT r)).pushEvt (0x0705 + kind) r 0
  let s2 := latchClass (clsOv + kind) s1
  let s3 := match s.faultAct r kind with
    | 0 => s2
    | 1 => railToSafe r s2
    | 2 => groupShutdown r s2
    | _ => packageShutdown s2
  let s4 := if was ≠ railOff ∧ was ≠ railSafe ∧ s3.railState r = railSafe then armRetry r s3 else s3
  refreshAllWindows s4

/-- The reference of a TRACK threshold in µV (R204): V_target in REGULATING, while MOVING the higher or the lower of the start and end
targets, the ramp target in START and STOP, V_VID in OFF and SAFE. -/
def State.trackRef (s : State) (r : Nat) (higher : Bool) : Int :=
  if s.railState r = railRegulating && s.on (PRG_RSTAT_MOVING r) then
    let a := (s.railOf r).moveFrom
    (if higher then max a (s.vVid r) else min a (s.vVid r)) - s.droop r
  else s.vTarget r

/-- The OV threshold in µV: THR × 4 mV, alone or above the reference (R204). -/
def State.ovThreshold (s : State) (r : Nat) : Int :=
  (if s.on (FLT_OV_MODE r) then s.trackRef r true else 0) + 4000 * s.get (FLT_OV_THR r)

/-- The UV threshold in µV: THR × 4 mV alone, or the reference less it (R204). -/
def State.uvThreshold (s : State) (r : Nat) : Int :=
  if s.on (FLT_UV_MODE r) then s.trackRef r false - 4000 * s.get (FLT_UV_THR r) else 4000 * s.get (FLT_UV_THR r)

/-- The comparators' hysteresis in µV: they assert beyond the threshold and release 8 mV inside it (R204; log entry 119). -/
def hysteresis : Int := 8000

/-- OV (R204, R211): the sense voltage `v` in 0.1 mV past the deglitch asserts or releases the comparator; armed in every rail state. -/
def execOv (r : Fin 24) (v : BitVec 16) (s : State) : Out :=
  .next <|
    let uv : Int := 100 * v.toNat
    if s.bit (FLT_RSTAT_NOW r) 0 then (if uv < s.ovThreshold r - hysteresis then s.setBit (FLT_RSTAT_NOW r) 0 false else s)
    else if s.ovThreshold r < uv then railFault r 0 (s.setBit (FLT_RSTAT_NOW r) 0 true)
    else s

/-- UV (R204): as OV, below the threshold; armed only in REGULATING. -/
def execUv (r : Fin 24) (v : BitVec 16) (s : State) : Out :=
  .next <|
    let uv : Int := 100 * v.toNat
    if s.bit (FLT_RSTAT_NOW r) 1 then (if s.uvThreshold r + hysteresis < uv then s.setBit (FLT_RSTAT_NOW r) 1 false else s)
    else if uv < s.uvThreshold r ∧ s.railState r = railRegulating then railFault r 1 (s.setBit (FLT_RSTAT_NOW r) 1 true)
    else s

/-- The rail of a phase unit, none where it is unassigned (R168). -/
def State.railOfPhase (s : State) (k : Nat) : Option Nat :=
  if s.get (PRG_PH_RAIL k) < 6 then some (6 * (k / 24) + s.get (PRG_PH_RAIL k)) else none

/-- NOW.OC of a rail: any of its phases is tripped. -/
def showOc (r : Nat) (s : State) : State :=
  s.setBit (FLT_RSTAT_NOW r) 2 ((s.phasesOf r).any (fun k => bitOf (s.prgOf (r / 6)).ocNow (k % 24)))

/-- The ordinal of a phase in its rail (R168). -/
def State.ordinal (s : State) (r k : Nat) : Nat := (s.phasesOf r).idxOf k

/-- Where the nominal rise of ordinal `j` lies in a rail's period, in steps (R179). -/
def State.riseOfs (s : State) (r j : Nat) : Nat := let x := s.railOf r; x.ofs + j * x.period / max x.spread 1

/-- The periods of its own a phase has completed by a step (R179, R205). -/
def State.phasePeriod (s : State) (r k step : Nat) : Nat :=
  let x := s.railOf r
  (step + x.period - s.riseOfs r (s.ordinal r k) % x.period) / x.period

/-- A phase is in an on-time that a step would end (R205). -/
def State.onTime (s : State) (r k step : Nat) : Bool :=
  let q := bankGet (s.prgOf (r / 6)).pulse (k % 24)
  q.1 < step && step < q.2

/-- A phase's pulse ends at a step: the edge it was planned to fall on moves there (R205). -/
def cutPulse (r k step : Nat) (s : State) : State :=
  s.modPrg (r / 6) (fun g =>
    let q := bankGet g.pulse (k % 24)
    { g with pulse := bankMod g.pulse (k % 24) (fun _ => (q.1, step))
             edges := g.edges.map (fun e => if e = (r % 6, q.2) then (r % 6, step) else e) })

/-- A phase's period is limited: the periods in a row (R205). A second trip in one period counts once. -/
def countLimited (p j per : Nat) (s : State) : State :=
  s.modPrg p (fun g =>
    let run := g.ocRun.toList.getD j 0
    let n := match g.ocLast.toList.getD j none with
      | some q => if q = per then run else if q + 1 = per then run + 1 else 1
      | none => 1
    { g with ocRun := bankMod g.ocRun j (fun _ => n), ocLast := bankMod g.ocLast j (fun _ => some per) })

/-- The periods in a row are forgotten. -/
def forgetLimited (p j : Nat) (s : State) : State :=
  s.modPrg p (fun g => { g with ocRun := bankMod g.ocRun j (fun _ => 0), ocLast := bankMod g.ocLast j (fun _ => none) })

/-- OC (R205): a phase's comparator, past its deglitch, at the levels IMON and IREF in 0.1 mV, trips above V_IREF + G × OC_THR × 0.5 A or
releases; `step` is the next grid instant. With CBC = 1 a trip in an on-time ends the pulse there, and the fault is raised when the phase
has been limited in OC_CNT consecutive periods of its own; a trip outside an on-time limits nothing. With CBC = 0 it is raised at once. -/
def execOc (k : Fin 96) (imon iref : BitVec 16) (step : BitVec 48) (s : State) : Out :=
  .next <|
    match s.railOfPhase k with
    | none => s
    | some r =>
      let p := k.val / 24
      let j := k.val % 24
      let on := 2 * iref.toNat + s.get (PRG_LL_IGAIN r) * s.get (FLT_OC_OC_THR r) < 2 * imon.toNat
      let s1 := s.modPrg p (fun g => { g with ocNow := bitPut g.ocNow j on })
      if !on then showOc r s1
      else
        let s2 := showOc r (s1.set (FLT_RSTAT_OC_PH r) (s.ordinal r k))
        if s.on (FLT_OC_CBC r) then
          if !s2.onTime r k step.toNat then s2 else
          let s3 := countLimited p j (s.phasePeriod r k step.toNat) (cutPulse r k step.toNat s2)
          if s.get (FLT_OC_OC_CNT r) ≤ (s3.prgOf p).ocRun.toList.getD j 0 then railFault r 2 (forgetLimited p j s3) else s3
        else railFault r 2 s2

/-- TMON_SAMPLE (R167, R206): `mv` is the level of VRr_TMON. OT on four consecutive readings at or above OT_THR, or on two at the
fault-flag level. -/
def execTmonSample (r : Fin 24) (mv : BitVec 12) (s : State) : Out :=
  .next <|
    let hot := decide ((s.get (FLT_OT_OT_THR r) * s.get (PRG_TMON_SLOPE r) : Int) ≤ ((mv.toNat : Int) - s.get (PRG_TMON_OFS r)) * 100)
    let flag := s.on (FLT_OT_FLAG_EN r) && 2600 ≤ mv.toNat
    let x := s.railOf r
    let otRun := if hot then x.otRun + 1 else 0
    let flagRun := if flag then x.flagRun + 1 else 0
    let s1 := (s.modRail r (fun x => { x with otRun := min otRun 5, flagRun := min flagRun 3 })).setBit (FLT_RSTAT_NOW r) 3 (hot || flag)
    if otRun = 4 ∨ flagRun = 2 then railFault r 3 s1 else s1

/-- RAIL_RELEASE (R209): SAFE to OFF once the latches and comparators are clear and no hold remains. -/
def execRailRelease (r : Fin 24) (s : State) : Out :=
  .next <|
    if s.railState r = railSafe ∧ s.get (FLT_RSTAT_LATCH r) = 0 ∧ !s.railBlocked r then leaveSafe r s else s

/-- A write of EN = 1 to a rail is not ignored (R168, R202, R222, R430). -/
def State.railMayEnable (s : State) (r : Nat) : Bool :=
  s.nasg r ≠ 0 && s.railState r ≠ railSafe && !s.railHeld r && !s.depBlocksRail r

/-- RETRY_DUE (R209, R222): postponed while a comparator is asserted or a hold remains; otherwise the rail is released and
enabled, and LEFT goes down unless a dependency ignores the enable. -/
def execRetryDue (r : Fin 24) (s : State) : Out :=
  .next <|
    if s.railState r = railSafe ∧ (s.railOf r).retryDue then
      if s.railBlocked r then s.set (FLT_RETRY_WAIT r) 1
      else
        let s1 := leaveSafe r (s.set (FLT_RSTAT_LATCH r) 0)
        if s1.railMayEnable r then
          railEnable r ((s1.set (PRG_RCTL_EN r) 1).set (FLT_RETRY_LEFT r) (s.get (FLT_RETRY_LEFT r) - 1))
        else s1
    else s

/-- RETRY_RELOAD (R209): PG held for 1 s. -/
def execRetryReload (r : Fin 24) (s : State) : Out :=
  .next <| if s.on (PRG_RSTAT_PG r) then s.set (FLT_RETRY_LEFT r) (s.get (FLT_RETRY_RETRY r)) else s

/-! ### The compensator and the edge scheduler (R170, R178 to R183) -/

/-- A quotient as a whole number, the nearest (R170 gives the grid of the error and of the currents and no rounding; log entry 120). -/
def nearestQuot (a : Int) (b : Nat) : Int := roundDivInt a b

/-- The current of a phase in 0.125 A from the levels of IMON and IREF in 0.1 mV: (V_IMON − V_IREF) / G − IOFS (R167). -/
def State.phaseAmps (s : State) (r k imon iref : Nat) : Int :=
  nearestQuot (8 * ((imon : Int) - iref)) (s.get (PRG_LL_IGAIN r)) - s.getS (PRG_PH_IOFS k)

/-- The last current reading of a phase, in 0.125 A. -/
def State.ampsOf (s : State) (k : Nat) : Int := (s.prgOf (k / 24)).amps.toList.getD (k % 24) 0

/-- The active phases of a rail. -/
def State.activePhases (s : State) (r : Nat) : List Nat := (s.phasesOf r).filter (fun k => s.get (PRG_PH_PSTATE k) = phActive)

/-- The sum of the currents of a rail's active phases, in 0.125 A (R169). -/
def State.sumAmps (s : State) (r : Nat) : Int := ((s.activePhases r).map s.ampsOf).sum

/-- One evaluation of a rail's compensator, once per period (R170): the sense voltage `vs` in 0.1 mV and VIN in mV. The sense voltage and
I_tot show in PRG_RMEAS. -/
def compensate (r vs vin : Nat) (s0 : State) : State :=
  let itot := clampInt (-32768) 32767 (nearestQuot (5 * s0.sumAmps r) 4)
  let s := (s0.set (PRG_RMEAS_VSENSE r) vs).setS (PRG_RMEAS_ITOT r) itot
  let c := s.railOf r
  let e := nearestQuot (s.vTarget r - 100 * (vs : Int)) 625
  let integ := if c.clamped then c.integ else clampInt (-(2 ^ 20)) (2 ^ 20) (c.integ + e)
  let u := ((s.get (PRG_COMP_KP r) : Int) * e + (s.get (PRG_COMP_KI r) : Int) * integ +
    (s.get (PRG_COMP_KD r) : Int) * (e - c.ePrev)).tdiv 256
  let ton := nearestQuot (c.period * s.vTarget r) (1000 * vin) + u
  let lo : Int := s.get (PRG_LIM_TON_MIN r)
  let hi : Int := (c.period : Int) - s.get (PRG_LIM_TOFF_MIN r)
  let sat := ton < lo ∨ hi < ton
  (s.put (PRG_RSTAT_SAT r) sat).modRail r (fun y =>
    { y with integ := integ, ePrev := e, clamped := sat, ton := (clampInt lo hi ton).toNat })

/-- The on-time of a phase after current balance (R170): the mean of the active phases' currents less its own, in 0.125 A. -/
def State.phaseTon (s : State) (r k : Nat) : Nat :=
  let x := s.railOf r
  let lo : Int := s.get (PRG_LIM_TON_MIN r)
  let hi : Int := (x.period : Int) - s.get (PRG_LIM_TOFF_MIN r)
  let di := nearestQuot (s.sumAmps r) (s.activePhases r).length - s.ampsOf k
  (clampInt lo hi (x.ton + clampInt (-16) 16 ((di * s.get (PRG_LL_KB r)).tdiv 256))).toNat

/-- An edge lies in an announced window (R180). -/
def inWindow (occ : List (Nat × Nat)) (e : Int) : Bool := occ.any (fun w => (w.1 : Int) ≤ e && e < w.2)

/-- An edge is coincident: fewer than MINSEP steps from a placed edge of another rail (R180). -/
def coincident (edges : List (Nat × Nat)) (rail minsep : Nat) (e : Int) : Bool :=
  edges.any (fun x => x.1 ≠ rail && (e - x.2).natAbs < minsep)

/-- The shifts tried, in order: 0, +1, −1, +2, −2, … (R180). -/
def shifts (l : Nat) : List Int := 0 :: (List.range l).flatMap (fun i => [(i + 1 : Int), -(i + 1 : Int)])

/-- What the placement of a pulse comes to (R180): the shift, and whether a coincidence or a window hit is left standing. No shift takes the
rise before `lo`, where the phase may pulse again (R176). -/
def placePulse (occ edges : List (Nat × Nat)) (rail minsep l : Nat) (lo rise fall : Int) : Int × Bool × Bool :=
  let free (d : Int) : Bool := lo ≤ rise + d && !inWindow occ (rise + d) && !inWindow occ (fall + d)
  let apart (d : Int) : Bool := !coincident edges rail minsep (rise + d) && !coincident edges rail minsep (fall + d)
  match (shifts l).find? (fun d => free d && apart d) with
  | some d => (d, false, false)
  | none =>
    match (shifts l).find? free with
    | some d => (d, true, false)
    | none => (0, false, true)

/-- The main-LO millisecond: some events are raised at most once in it (R191, R345). -/
def State.nowMs (s : State) : Nat := s.getWide GLB_TIMER_LO_US GLB_TIMER_HI_US / 1000

/-- The window skip of a pulse: counted by the rail and the region, raised once per millisecond (R180, R191). -/
def winSkip (p r : Nat) (s : State) : State :=
  let s1 := (s.bump (PRG_RCNT_WIN_SKIP r)).bump (PRG_SCNT_WIN_SKIP p)
  if (s.prgOf p).skipMs = some s.nowMs then s1
  else (s1.modPrg p (fun g => { g with skipMs := some s.nowMs })).raise (PRG_EVT_WIN_SKIP p) 0 0x0606 p [(16, s1.get (PRG_SCNT_WIN_SKIP p))]

/-- A coincidence left standing: counted by the rail, raised once per millisecond (R180, R191). -/
def coincLeft (p r : Nat) (s : State) : State :=
  let s1 := s.bump (PRG_RCNT_COINC r)
  if (s.prgOf p).coincMs = some s.nowMs then s1
  else (s1.modPrg p (fun g => { g with coincMs := some s.nowMs })).raise (PRG_EVT_COINC p) 0 0x0607 p
    [(32, r), (16, s1.get (PRG_RCNT_COINC r))]

/-- How far behind a planned pulse the scheduler keeps placed edges and past windows, in steps: beyond the longest on-time and
both shift limits. -/
def schedReach : Nat := 65536

/-- A rail's period starts at a step: the PERIOD, the RAIL_OFS and the spread of the phases written since take effect (R176, R179). -/
def periodStarts (r start : Nat) (s : State) : State :=
  if (s.railOf r).perStart = some start then s
  else s.modRail r (fun x => { x with perStart := some start, period := s.get (PRG_FSW_PERIOD r), ofs := s.get (PRG_FSW_RAIL_OFS r)
                                      spread := s.get (PRG_RSTAT_NACT r) })

/-- A phase of a rail may pulse: the rail runs past T_EN, and in START the ramp target exceeds the measured voltage, so that a pre-biased
load is not discharged (R173). -/
def State.mayPulse (s : State) (r : Nat) : Bool :=
  s.railRuns r && !(s.railOf r).enWait &&
    (s.railState r ≠ railStart || decide (100 * (s.get (PRG_RMEAS_VSENSE r) : Int) < (s.railOf r).target))

/-- A pulse of phase `k` of the on-time `ton` is placed in the period that starts at `start` (R176, R179, R180). It never starts before the
phase's previous pulse has ended and TOFF_MIN has passed (log entry 121). -/
def placeOne (r k start ton : Nat) (s : State) : State :=
  let p := k / 24
  let g := s.prgOf p
  let period := (s.railOf r).period
  let prev := bankGet g.pulse (k % 24)
  let lo := if prev.1 = prev.2 then 0 else prev.2 + s.get (PRG_LIM_TOFF_MIN r)
  let rise := max (start + s.riseOfs r (s.ordinal r k)) lo
  let fall := rise + ton
  let keep (e : Nat × Nat) : Bool := rise < e.2 + schedReach
  let occ := g.occ.filter keep
  let edges := g.edges.filter keep
  let pl := placePulse occ edges (r % 6) (s.get (PRG_SCHED_MINSEP p)) (period * s.get (PRG_SCHED_SHIFT_LIM p) / 1000) lo rise fall
  let a := ((rise : Int) + pl.1).toNat
  let s2 := s.modPrg p (fun g => { g with occ := occ, edges := edges ++ [(r % 6, a), (r % 6, a + ton)]
                                          lastTon := bankMod g.lastTon (k % 24) (fun _ => ton)
                                          pulse := bankMod g.pulse (k % 24) (fun _ => (a, a + ton)) })
  let moved := pl.1 ≠ 0 && (inWindow occ rise || inWindow occ fall)
  let s3 := if moved then s2.bump (PRG_SCNT_MOVES p) else s2
  if pl.2.2 then winSkip p r s3 else if pl.2.1 then coincLeft p r s3 else s3

/-- PULSE_PLAN (R167, R170, R179 to R181): the pulse of phase `k` in the rail period that starts at step `start`, with the levels of
IMON and IREF in 0.1 mV at the middle of its last on-time. `comp` carries the sense voltage in 0.1 mV and VIN in mV where this plan is
the period's first and the compensator is evaluated; where its result is not ready the phase's previous on-time serves. -/
def execPulsePlan (k : Fin 96) (start : BitVec 48) (imon iref : BitVec 16) (comp : Option (BitVec 16 × BitVec 16)) (ready : Bool)
    (s : State) : Out :=
  .next <|
    match s.railOfPhase k with
    | none => s
    | some r =>
      if !s.railRuns r || (s.railOf r).enWait || s.get (PRG_PH_PSTATE k) ≠ phActive then s else
      let s0 := s.modPrg (k / 24) (fun g => { g with amps := bankMod g.amps (k % 24) (fun _ => s.phaseAmps r k imon.toNat iref.toNat) })
      let s1 := periodStarts r start.toNat s0
      let s2 := match comp with
        | some (vs, vin) => if vin = 0 then s1.set (PRG_RMEAS_VSENSE r) vs.toNat else compensate r vs.toNat vin.toNat s1
        | none => s1
      if s2.mayPulse r && s2.ordinal r k < (s2.railOf r).spread then
        placeOne r k start.toNat (if ready then s2.phaseTon r k else (s2.prgOf (k / 24)).lastTon.toList.getD (k % 24) 0) s2
      else s2

/-- The three levels of a PWM pad (R165). -/
inductive Pad where
  | high
  | low
  /-- released to tri-state: the stage's own bias sets the mid level -/
  | released
deriving DecidableEq, Repr

/-- The level of PHk_PWM at a grid instant (R165, R166, R172, R173, R176, R177); `zc` is the zero-cross comparator of the phase, which has
seen its inductor current cross zero in the off-time. Where the phase is idle, shed or safe the pad is released, and outside RUN and
STANDBY its pull-down then holds it low, as it does while the P-die is isolated (R166, R423); a phase that is shed ends the pulse it is
in; in DCM the pad is released from the zero crossing. -/
def State.pwmPad (s : State) (k step : Nat) (zc : Bool) : Pad :=
  let rest : Pad := if s.active then .released else .low
  if s.isolated dieP then .low else
  match s.railOfPhase k with
  | none => rest
  | some r =>
    let q := bankGet (s.prgOf (k / 24)).pulse (k % 24)
    let st := s.get (PRG_PH_PSTATE k)
    if !s.mayPulse r || (st ≠ phActive && st ≠ phShed) then rest
    else if q.1 ≤ step ∧ step < q.2 then .high
    else if st = phShed || (s.on (PRG_RSTAT_DCM r) && zc) then rest
    else .low

/-- WINDOW_ANNOUNCE (R183): an occurrence of an active window, for the unit's edge at a step. -/
def execWindowAnnounce (p : Fin 4) (w : Fin 8) (edge : BitVec 48) (s : State) : Out :=
  .next <|
    if s.bit (PRG_WSTAT_ACTIVE p) w then
      let a := (edge.toNat : Int) + s.getS (PRG_QW_B_OFFSET p w)
      let b := a + s.get (PRG_QW_B_WIDTH p w)
      s.modPrg p (fun g => { g with occ := g.occ ++ [(a.toNat, b.toNat)] })
    else s

/-! ### Fallback and return (R20, R184, R185) -/

/-- The region moves its grid to the fallback oscillator (R184); a loss during a return restarts it (R185). -/
def toFallback (p cause : Nat) (s : State) : State :=
  let s0 := (s.modPrg p (fun g => { g with passDue := false })).set (PRG_TBSTAT_RETURNING p) 0
  if s.on (PRG_TBSTAT_FALLBACK p) then s0
  else
    let s1 := (s0.set (PRG_TBSTAT_FALLBACK p) 1).bump (PRG_TBSTAT_FB_CNT p)
    let s2 := s1.modPrg p (fun g => { g with fbSince := s.getWide GLB_TIMER_LO_US GLB_TIMER_HI_US, scanFb := true })
    refreshWindows p (s2.raise (PRG_EVT_TB_FALLBACK p) 0 0x0604 p [(32, cause), (2, s.get (PRG_TBSEL_TRG p))])

/-- TB_LOSS_NOTICE (R114, R184): notice of timebase loss, or of a moved TB_EN or TBDIV, reaches the region. -/
def execTbLossNotice (p : Fin 4) (s : State) : Out :=
  .next <| if (s.prgOf p).passDue || !s.tbGood (s.get (PRG_TBSEL_TRG p)) then toFallback p 0 s else s

/-- LANE_MONITOR_EXPIRE (R184). -/
def execLaneMonitorExpire (p : Fin 4) (s : State) : Out := .next (toFallback p 1 (s.set (PRG_TBSTAT_LANE_OK p) 0))

/-- A lane frequency lies more than 4 % away from the fallback trim, both in 0.05 % of nominal (R184). -/
def laneOff (trim lane : Int) : Bool := decide (2000 + trim < 25 * ((lane - trim).natAbs : Int))

/-- FALLBACK_TRIM (R184, R185): the lane's frequency over 64 cycles, in 0.05 % of nominal; the oscillator is trimmed to a good lane, and on
the fallback this is the return's second stage. More than 4 % away from the trim in force, the lane monitor moves the region to its
fallback. -/
def execFallbackTrim (p : Fin 4) (trim : Byte) (s : State) : Out :=
  .next <|
    if !s.tbGood (s.get (PRG_TBSEL_TRG p)) then s
    else if !s.on (PRG_TBSTAT_FALLBACK p) && laneOff (s.getS (PRG_TBSTAT_TRIM p)) trim.toInt then
      toFallback p 1 (s.set (PRG_TBSTAT_LANE_OK p) 0)
    else
      let s1 := (s.set (PRG_TBSTAT_TRIM p) trim.toNat).set (PRG_TBSTAT_LANE_OK p) 1
      s1.put (PRG_TBSTAT_RETURNING p) (s.on (PRG_TBSTAT_FALLBACK p))

/-- TB_RETURN (R185, R191): after the retrim, on a lane that has stayed good, the grid is handed to the lane; the record carries the time on
the fallback in µs. -/
def execTbReturn (p : Fin 4) (s : State) : Out :=
  .next <|
    if s.on (PRG_TBSTAT_FALLBACK p) && s.on (PRG_TBSTAT_RETURNING p) && s.on (PRG_TBSTAT_LANE_OK p) &&
        s.tbGood (s.get (PRG_TBSEL_TRG p)) then
      let s1 := (s.set (PRG_TBSTAT_FALLBACK p) 0).set (PRG_TBSTAT_RETURNING p) 0
      refreshWindows p (s1.raise (PRG_EVT_TB_RETURN p) 0 0x0605 p
        [(32, satNat 16 (s.getWide GLB_TIMER_LO_US GLB_TIMER_HI_US - (s.prgOf p).fbSince))])
    else s

/-! ### Telemetry (R186 to R189) -/

/-- A scan starts (R186, R190): TSTART is its real start. -/
def scanBegin (p : Nat) (s : State) : State :=
  (s.set (PRG_TLM_STAT_BUSY p) 1).modPrg p (fun g =>
    { g with scanStart := s.getWide GLB_TIMER_LO_US GLB_TIMER_HI_US, scanFb := s.on (PRG_TBSTAT_FALLBACK p)
             scanLen := s.get (PRG_TLM_CTL_NSCAN p), scanDue := false })

/-- TLM_SCAN_START (R29, R186, R190): a frame instant, timed on the main LO; the scan starts, or waits for the end of the one in
progress. -/
def execTlmScanStart (p : Fin 4) (s : State) : Out :=
  .next <|
    if !s.on (PRG_TLM_CTL_EN p) || !s.pkg_.loRuns then s
    else if s.on (PRG_TLM_STAT_BUSY p) then s.modPrg p (fun g => { g with scanDue := true })
    else scanBegin p s

/-- A frame's bytes before its CRC (R187). -/
def frameBody (p : Nat) (fb : Bool) (seq start : Nat) (samples : List (BitVec 16)) : List Byte :=
  let n := samples.length
  let len := 20 + 2 * n + (if n % 2 = 1 then 2 else 0)
  [0x71, BitVec.ofNat 8 (p + (if fb then 64 else 0))] ++ natBytes 2 len ++ natBytes 4 seq ++ natBytes 6 start ++ natBytes 2 n ++
    samples.flatMap (fun x => natBytes 2 x.toNat) ++ (if n % 2 = 1 then [0, 0] else [])

/-- A reading as a numerator and a denominator in the units of its kind's sample, from the sum of `n` levels (R167, R188): 0.1 mV, 10 mA,
0.0625 °C or 1 mV. -/
def State.scanReading (s : State) (p kind idx n : Nat) (sum : Int) : Int × Nat :=
  let r := 6 * p + idx
  match kind with
  | 1 =>
    let k := 24 * p + idx
    let g := s.get (PRG_LL_IGAIN ((s.railOfPhase k).getD 0))
    (2 * sum - 25 * s.getS (PRG_PH_IOFS k) * (g * n : Nat), 2 * g * n)
  | 2 => (16 * (sum - 1000 * s.get (PRG_TMON_OFS r) * n), 10 * s.get (PRG_TMON_SLOPE r) * n)
  | 3 => (sum, 1000 * n)
  | 4 => (sum, 1000 * n)
  | 5 => (16 * sum, 1000 * n)
  | 7 => (16 * sum, 1000 * n)
  | _ => (sum, 100 * n)

/-- A scan kind whose sample is signed (R188). -/
def scanSigned (kind : Nat) : Bool := kind = 1 || kind = 2 || kind = 5 || kind = 7

/-- The sample of scan entry `i` (R186, R188): the mean of 2^AVG conversions in the units of its kind, saturating; 0x8000 for an open
diode or TMON input, and 0 for an analogue pin in a region other than 0 (R378). The current of a phase of no rail has no G: a free
value. -/
def scanSample (p i : Nat) (c : Conv) (s : State) : BitVec 16 × State :=
  let kind := s.get (PRG_SCAN_KIND p i)
  let idx := s.get (PRG_SCAN_INDEX p i)
  let n := 2 ^ s.get (PRG_SCAN_AVG p i)
  let v := s.scanReading p kind idx n (((List.range n).map (fun j => (c.levels.getD j 0).toInt)).sum)
  let x := roundDivInt v.1 v.2
  if c.isOpen && (kind = 2 || kind = 7) then (0x8000, s)
  else if kind = 8 && p ≠ 0 then (0, s)
  else if kind = 1 && s.railOfPhase (24 * p + idx) = none then (BitVec.ofNat 16 s.draw.1, s.draw.2)
  else (BitVec.ofInt 16 (if scanSigned kind then clampInt (-32768) 32767 x else clampInt 0 65535 x), s)

/-- The samples of a scan in scan order. -/
def scanSamples (p : Nat) (cs : List Conv) : Nat → State → List (BitVec 16) × State
  | 0, s => ([], s)
  | n + 1, s =>
    let a := scanSamples p cs n s
    let b := scanSample p n (cs.getD n ⟨[], false⟩) a.2
    (a.1 ++ [b.1], b.2)

/-- The telemetry request line of a region (R324). -/
def lineTelemetry (p : Nat) : Nat := p

/-- TLM_FRAME (R186 to R189, R41): a scan completes into a frame; `damaged` names a word of it that met a double-bit error. The region keeps
its two latest frames, and a scan whose instant has passed starts. -/
def execTlmFrame (p : Fin 4) (cs : List Conv) (damaged : Option (BitVec 6)) (s : State) : Out :=
  .next <|
    if s.on (PRG_TLM_STAT_BUSY p) then
      let g := s.prgOf p
      let xs := scanSamples p cs g.scanLen s
      let f := withCrc (frameBody p g.scanFb g.nextSeq g.scanStart xs.1) damaged.isSome
      let ask := s.on (PRG_TLM_CTL_REQ_EN p)
      let s1 := (xs.2.modPrg p (fun g => { g with frame := { bytes := f }, older := g.frame, nextSeq := (g.nextSeq + 1) % 2 ^ 32 })).set
        (PRG_TLM_STAT_BUSY p) 0
      let s2 := (s1.set (PRG_TLM_SEQ_SEQ p) g.nextSeq).set (PRG_TLM_STAT_LEN p) f.length
      let s3 := match damaged with | some w => poisoned dieP memFrame w.toNat s2 | none => s2
      let s4 := s3.when ask (raiseLineFor dieP (lineTelemetry p) (fun q s =>
        s.modPrg p (fun g => { g with frame := { g.frame with req := some q } })))
      if g.scanDue then scanBegin p s4 else s4
    else s

/-- The frame request `q` of a region moves (R189): its own, or, where that is no longer one of the two kept, the older of them (log entry
156: DESIGN CHOICE). -/
def State.frameOf (s : State) (p q : Nat) : List Byte :=
  if (s.prgOf p).frame.req = some q then (s.prgOf p).frame.bytes else (s.prgOf p).older.bytes

/-- The latest frame is snapshotted into PRG_TLM_BUF (R193). -/
def tlmSnapshot (p : Nat) (s : State) : State :=
  (List.range 64).foldl (fun a w => a.setWord ⟨.PRG_TLM_BUF, p, w, 0⟩ (wordAt (s.prgOf p).frame.bytes (4 * w))) s

/-- TLM_BUF_SNAPSHOT (R193). -/
def execTlmBufSnapshot (p : Fin 4) (s : State) : Out := .next (tlmSnapshot p s)

/-! ### Write rules of the PRG and FLT registers -/

/-- The nominal scan time does not exceed 0.9 × PERIOD (R186): entries `w` in 0.5 µs. -/
def scanFits (avgs : List Nat) (period : Nat) : Bool := 5 * (avgs.map (fun a => 2 ^ a)).sum ≤ 9 * period

/-- The averages of the first `n` scan entries, entry `i0` taken as `a0`. -/
def State.scanAvgs (s : State) (p n : Nat) (i0 a0 : Nat) : List Nat :=
  (List.range n).map (fun i => if i = i0 then a0 else s.get (PRG_SCAN_AVG p i))

/-- The index range of a scan kind (R188). -/
def scanIndexes (kind : Nat) : Nat := [6, 24, 6, 1, 1, 1, 2, 8, 8].getD kind 0

/-- PRG_PH (R17, R168): a phase joins or leaves a rail that is OFF, at most 16 to a rail; one that a rail holds is not assigned to another
before it has been unassigned. -/
def phaseRule (k old new : Nat) (s : State) : Bool :=
  let off (x : Nat) : Bool := 6 ≤ x || s.railState (6 * (k / 24) + x) = railOff
  old = new || (off old && off new && (6 ≤ new || (6 ≤ old && s.nasg (6 * (k / 24) + new) < 16)))

/-- The rail or phase a PRG register's indices name. -/
def Reg.rail (r : Reg) : Nat := 6 * r.i + r.j
def Reg.phase (r : Reg) : Nat := 24 * r.i + r.j

/-- The rules a write of a PRG register must satisfy (EN = 1 written while a dependency of the rail is unsatisfied is ignored, R202;
R168, R170, R176, R177, R179, R182, R186, R188). -/
def prgRule (r : Reg) (old new : Word) (s : State) : Bool :=
  let v := r.rail
  let p := r.i
  match r.name with
  | .PRG_RCTL => wordGet new 0 1 = 0 || (!s.depBlocksRail v && (wordGet old 0 1 = 1 || s.railMayEnable v))
  | .PRG_FSW => s.get (PRG_LIM_TON_MIN v) + s.get (PRG_LIM_TOFF_MIN v) < wordGet new 0 15 && wordGet new 16 15 < wordGet new 0 15
  | .PRG_LIM => wordGet new 0 12 + wordGet new 16 12 < s.get (PRG_FSW_PERIOD v)
  | .PRG_SHED => wordGet new 14 10 < wordGet new 4 10
  | .PRG_DCM => wordGet new 0 10 < wordGet new 10 10
  | .PRG_PH => phaseRule r.phase (wordGet old 0 3) (wordGet new 0 3) s
  | .PRG_QW_A => wordGet new 7 1 = 0 || (s.unitRate (wordGet new 0 6)).atMost windowRate
  | .PRG_TLM_CTL => scanFits (s.scanAvgs p (wordGet new 2 7) 999 0) (s.get (PRG_TLM_PER_PERIOD p))
  | .PRG_TLM_PER => scanFits (s.scanAvgs p (s.get (PRG_TLM_CTL_NSCAN p)) 999 0) (wordGet new 0 20)
  | .PRG_SCAN => wordGet new 4 6 < scanIndexes (wordGet new 0 4) &&
      scanFits (s.scanAvgs p (s.get (PRG_TLM_CTL_NSCAN p)) r.j (wordGet new 10 2)) (s.get (PRG_TLM_PER_PERIOD p))
  | _ => true

/-- NASG of every rail of a region follows the phases' assignments (R168). -/
def showAssigned (p : Nat) (s : State) : State := s.each 6 (fun j s => s.set (PRG_RSTAT_NASG (6 * p + j)) (s.nasg (6 * p + j)))

/-- What an applied write of a PRG register sets off. -/
def prgAfter (r : Reg) (old new : Word) (s : State) : State :=
  let v := r.rail
  let p := r.i
  match r.name with
  | .PRG_RCTL =>
    let s1 := if wordGet old 0 1 = 0 ∧ wordGet new 0 1 = 1 then railEnable v s
      else if wordGet new 0 1 = 0 then railDisable v s else s
    if s1.railState v = railRegulating then
      let s2 := if wordGet new 3 1 = 0 then setActive v (s1.nasg v) s1 else s1
      if wordGet new 2 1 = 0 then s2.set (PRG_RSTAT_DCM v) 0 else s2
    else s1
  | .PRG_VID => vidWritten v s
  | .PRG_SHED => if s.maySheds v && s.get (PRG_RSTAT_NACT v) < s.minActive v then setActive v (s.minActive v) s else s
  | .PRG_PH => showAssigned p (if wordGet old 0 3 ≠ wordGet new 0 3 then s.set (PRG_PH_PSTATE r.phase) phIdle else s)
  | .PRG_TBSEL => if old ≠ new then toFallback p 2 s else s
  | .PRG_QW_A => refreshWindow p r.j s
  | .PRG_TLM_CTL =>
    let s1 := if wordGet new 0 1 = 0 then (s.set (PRG_TLM_STAT_BUSY p) 0).modPrg p (fun g => { g with scanDue := false }) else s
    if wordGet old 0 1 = 0 ∧ wordGet new 0 1 = 1 then s1.modPrg p (fun g => { g with nextSeq := 0 }) else s1
  | _ => s

/-- The thresholds and actions of the FLT registers (R204, R208). -/
def fltRule (r : Reg) (new : Word) : Bool :=
  let thr := wordGet new 0 10
  let inRange := 1 ≤ thr && (wordGet new 10 1 = 0 || thr ≤ 255)
  match r.name with
  | .FLT_OV => inRange && wordGet new 20 2 ≠ 0
  | .FLT_UV => inRange
  | _ => true

/-- What an applied write of an FLT register sets off: bits whose source persists stay set (R209, R213), the PACKAGE hold ends with
PKG_SD, and LEFT is loaded with RETRY (log entry 16). -/
def fltAfter (r : Reg) (old new : Word) (s : State) : State :=
  match r.name with
  | .FLT_RSTAT =>
    s.set (FLT_RSTAT_LATCH r.i) (s.get (FLT_RSTAT_LATCH r.i) ||| (wordGet old 0 4 &&& s.get (FLT_RSTAT_NOW r.i)))
  | .FLT_PKG =>
    let s1 := s.each 4 (fun k s =>
      if bitOf old.toNat k && (List.range 24).any (fun q => s.bit (FLT_RSTAT_LATCH q) k) then latchClass k s else s)
    if s1.get FLT_PKG_PKG_SD = 0 then s1.each 24 (fun q s => s.set (FLT_RSTAT_PKG_HELD q) 0) else s1
  | .FLT_RETRY => s.set (FLT_RETRY_LEFT r.i) (wordGet new 0 3)
  | _ => s

end Sys2Proof.Machine
end

