-- ==== Sys2Proof/Machine/Dma.lean ====
section
/-! DEFINITION. Sys2Proof/Machine/Dma.lean: DMA channels, request lines, bursts and the DATU (chapter 12, R317 to R345). -/

namespace Sys2Proof.Machine

/-! ### Channels and owners (R317, R318) -/

def chDisabled : Nat := 0
def chIdle : Nat := 1
def chActive : Nat := 2
def chFaulted : Nat := 3
def chHalted : Nat := 4
def chStopped : Nat := 5

/-- A channel's internal state. -/
def State.dmaOf (s : State) (ch : Nat) : DmaInt := bankGet s.dma ch

/-- A channel's internal state changed. -/
def State.modDma (s : State) (ch : Nat) (f : DmaInt → DmaInt) : State := { s with dma := bankMod s.dma ch f }

/-- The state of a channel. -/
def State.chState (s : State) (ch : Nat) : Nat := s.get (DMA_STAT_STATE ch)

/-- The engine that owns a channel, none where the host does (R317). -/
def State.chEngine (s : State) (ch : Nat) : Option Nat :=
  if s.get (DMA_CCTL_OWNER ch) = 0 then none else some (s.get (DMA_CCTL_OWNER ch) - 1)

/-- The owner as a writer: 0 to 11 an engine, 12 the host. -/
def State.chOwner (s : State) (ch : Nat) : Nat := (s.chEngine ch).getD 12

/-- The channel is the host's. -/
def State.hostOwned (s : State) (ch : Nat) : Bool := (s.chEngine ch).isNone

/-- The entries of a channel's ring (R318). -/
def State.ringSize (s : State) (ch : Nat) : Nat := 2 ^ s.get (DMA_CCTL_RSIZE ch)

/-- The address of a ring entry: a host address, or an offset in the owner's data memory (R318). -/
def State.ringAddr (s : State) (ch i : Nat) : Nat :=
  4096 * (s.get (DMA_RBASE_LO_BASE ch) + 2 ^ 20 * s.get (DMA_RBASE_HI_BASE ch)) + 32 * i

/-- The request line a channel is bound to (R324). -/
def State.lineOf (s : State) (ch : Nat) : Option Nat :=
  if s.get (DMA_CCTL_REQ ch) = 0 then none else some (s.get (DMA_CCTL_REQ ch) - 1)

/-- The channel bound to a line (R324). -/
def State.boundTo (s : State) (l : Nat) : Option Nat := (List.range 32).find? (fun ch => s.lineOf ch = some l)

/-- The descriptors offered and not yet taken. -/
def State.offered (s : State) (ch : Nat) : Nat :=
  ((s.dmaOf ch).prod + s.ringSize ch - s.get (DMA_STAT_CIDX ch)) % s.ringSize ch

/-- The bits the common registers show (R344). -/
def showDma (s : State) : State :=
  let s1 := s.set DMA_ACTIVE_ACTIVE (maskOf 32 (fun ch => s.chState ch = chActive))
  let s2 := s1.set DMA_REQ_BIND_BOUND (maskOf 26 (fun l => (s.boundTo l).isSome))
  s2.set DMA_REQ_PEND_PEND (maskOf 26 (fun l => s.lineWait.toList.getD l 0 ≠ 0 ||
    (match s.boundTo l with | some ch => !(s.dmaOf ch).reqs.isEmpty | none => false)))

/-- The channel's interrupt (R337). -/
def chInterrupt (ch : Nat) (s : State) : State :=
  match s.chEngine ch with
  | none => s.vector ch
  | some e => engInterrupt e false s


/-! ### Descriptors (R319 to R323) -/

/-- A word of a descriptor. -/
def Desc.w (d : Desc) (i : Nat) : Word := d.words.getD i 0

/-- A word of its extension. -/
def Desc.x (d : Desc) (i : Nat) : Word := d.ext.getD i 0

def Desc.pat (d : Desc) : Nat := wordGet (d.w 0) 0 2
def Desc.patDst (d : Desc) : Bool := wordGet (d.w 0) 2 1 = 1
def Desc.shuf (d : Desc) : Nat := wordGet (d.w 0) 3 2
def Desc.lanes (d : Desc) : Nat := wordGet (d.w 0) 5 5 + 1
def Desc.laneBytes (d : Desc) : Nat := 2 ^ wordGet (d.w 0) 10 2
def Desc.irq (d : Desc) : Bool := wordGet (d.w 0) 12 1 = 1
def Desc.own (w : Word) : Bool := wordGet w 31 1 = 1

/-- The 64-bit address of a side: the source, or the destination. -/
def Desc.base (d : Desc) (dst : Bool) : Nat :=
  if dst then (d.w 4).toNat + 2 ^ 32 * (d.w 5).toNat else (d.w 2).toNat + 2 ^ 32 * (d.w 3).toNat

/-- The descriptor has an extension entry (R320). -/
def extended (w0 : Word) : Bool := wordGet w0 0 2 = 1 || wordGet w0 0 2 = 2

/-- The bytes of its stream (R321). -/
def Desc.sum (d : Desc) : Nat :=
  match d.pat with
  | 1 => (d.w 1).toNat * wordGet (d.x 0) 0 16 * wordGet (d.x 1) 0 16 * wordGet (d.x 1) 16 16
  | 2 => (d.w 1).toNat * wordGet (d.x 0) 0 24
  | _ => (d.w 1).toNat

/-- The bytes of a reshuffle's group (R334). -/
def Desc.group (d : Desc) : Nat :=
  match d.shuf with
  | 0 => 1
  | 3 => d.lanes
  | _ => d.lanes * d.laneBytes

/-- What an address reaches (R323). -/
inductive Space where
  | host (a : Nat)
  | reg (a : Nat)
  | eng (e a : Nat)
  | bad
deriving DecidableEq, Repr

/-- What an address of a channel reaches (R323): host addresses are for host-owned channels, an engine's data memory for its own
channels and ENG0's. -/
def State.space (s : State) (ch a : Nat) : Space :=
  if a < 2 ^ 63 then (if a < 2 ^ 48 && s.hostOwned ch then .host a else .bad)
  else
    let l := a - 2 ^ 63
    if l < 0x100000 then .reg l
    else if 0x10000000 ≤ l ∧ l < 0x10000000 + 12 * 0x10000 then
      let e := (l - 0x10000000) / 0x10000
      if s.chEngine ch = some e ∨ s.chEngine ch = some 0 then .eng e (l % 0x10000) else .bad
    else .bad

/-- The two addresses lie in spaces of one kind. -/
def Space.sameKind : Space → Space → Bool
  | .host _, .host _ => true
  | .reg _, .reg _ => true
  | .eng _ _, .eng _ _ => true
  | _, _ => false

/-- The two addresses lie in one memory: an engine's, or that of the host. -/
def Space.sameMemory : Space → Space → Bool
  | .eng e _, .eng f _ => e = f
  | a, b => a.sameKind b

/-- A side of a descriptor that the line implies: its address field is zero (R324). Lines 8 to 19 carry chunks to a Wheel. -/
def lineIsSink (l : Nat) : Bool := 8 ≤ l && l ≤ 19

/-- The largest unit of a line (R324). -/
def lineMax (l : Nat) : Nat :=
  if l < 4 then 256 else if l < 8 then 512 else if l < 20 then 264 else if l < 25 then 32 else 512

/-- The rules of the reshuffles (R334). -/
def Desc.shufOk (d : Desc) : Bool :=
  (match d.shuf with
    | 0 => d.lanes = 1 && wordGet (d.w 0) 10 2 = 0
    | 3 => (d.lanes = 8 || d.lanes = 16 || d.lanes = 32) && wordGet (d.w 0) 10 2 = 0
    | _ => 2 ≤ d.lanes && wordGet (d.w 0) 10 2 ≠ 3) &&
  (d.shuf = 0 || d.pat = 0 || (if d.shuf = 2 then d.patDst else !d.patDst)) && d.sum % d.group = 0

/-- Reserved fields and the sizes of elements (R319 to R321). -/
def Desc.formOk (d : Desc) : Bool :=
  d.pat ≠ 3 && wordGet (d.w 0) 13 3 = 0 && wordGet (d.w 0) 24 7 = 0 &&
  (match d.pat with
    | 1 => (d.w 1).toNat ≤ 4096 && wordGet (d.x 0) 16 15 = 0 && d.x 5 = 0 && d.x 6 = 0 && d.x 7 = 0
    | 2 => (d.w 1).toNat ≤ 64 && wordGet (d.x 0) 24 7 = 0 && wordGet (d.x 1) 0 2 = 0 && d.x 3 = 0 && d.x 4 = 0 && d.x 5 = 0 &&
        d.x 6 = 0 && d.x 7 = 0
    | _ => true)

/-- The address of an INDEX table. -/
def Desc.tableAddr (d : Desc) : Nat := (d.x 1).toNat + 2 ^ 32 * (d.x 2).toNat

/-- An address the line does not imply is in reach; a register side is word-aligned, linear and a multiple of 4 bytes (R323). -/
def State.plainSide (s : State) (ch : Nat) (d : Desc) (dst : Bool) : Bool :=
  match s.space ch (d.base dst) with
  | .bad => false
  | .reg a => a % 4 = 0 && d.sum % 4 = 0 && !(d.pat ≠ 0 && d.patDst = dst)
  | _ => true

/-- A side's address is as R323 and R324 ask: zero where the line implies it. -/
def State.sideOk (s : State) (ch : Nat) (d : Desc) (dst : Bool) : Bool :=
  match s.lineOf ch with
  | some l => if lineIsSink l = dst then d.base dst = 0 else s.plainSide ch d dst
  | none => s.plainSide ch d dst

/-- A descriptor that is not ignored (R321 check 2). -/
def State.descOk (s : State) (ch : Nat) (d : Desc) : Bool :=
  d.formOk && d.shufOk && s.sideOk ch d false && s.sideOk ch d true &&
  (d.pat ≠ 2 || (s.space ch d.tableAddr).sameMemory (s.space ch (d.base d.patDst))) &&
  (match s.lineOf ch with
    | some l => d.pat = 0 && d.shuf = 0 && (s.get (DMA_CCTL_RMODE ch) = 0 || lineMax l ≤ (d.w 1).toNat)
    | none => true)

/-! ### Where the bytes of a stream lie (R332, R334) -/

/-- The offset of a byte of the arrays side of a reshuffle: lane j of group g (R334). -/
def Desc.laneOffset (d : Desc) (k : Nat) : Nat :=
  let w := if d.shuf = 3 then 1 else d.laneBytes
  k % d.group / w * (d.total / d.lanes) + k / d.group * w + k % w

/-- The offset of stream byte `k` on a side, from its base (R332, R334). -/
def Desc.offset (d : Desc) (dst : Bool) (k : Nat) : Int :=
  if d.pat ≠ 0 ∧ d.patDst = dst then
    let size := (d.w 1).toNat
    let e := k / size
    if d.pat = 1 then
      let c0 := wordGet (d.x 0) 0 16
      let c1 := wordGet (d.x 1) 0 16
      (e % c0 : Nat) * (d.x 2).toInt + (e / c0 % c1 : Nat) * (d.x 3).toInt + (e / (c0 * c1) : Nat) * (d.x 4).toInt + (k % size : Nat)
    else (d.table.getD e 0).toInt + (k % size : Nat)
  else if d.shuf = 0 ∨ (d.shuf = 2) = dst then (k : Int)
  else (d.laneOffset k : Int)

/-- What stream byte `k` reaches on a side (R323, R332). -/
def State.reach (s : State) (ch : Nat) (d : Desc) (dst : Bool) (k : Nat) : Space :=
  let a := (d.base dst : Int) + d.offset dst k
  let sp := if a < 0 then .bad else s.space ch a.toNat
  if sp.sameKind (s.space ch (d.base dst)) then sp else .bad

/-- The address of stream byte `k` on a side, as DMA_NEXT shows it: 48 bits and whether it is local. -/
def Desc.address (d : Desc) (dst : Bool) (k : Nat) : Nat × Bool :=
  ((((d.base dst : Int) + d.offset dst k) % (2 ^ 48 : Nat)).toNat, 2 ^ 63 ≤ d.base dst)

/-- DMA_NEXT shows an address. -/
def showNext (ch : Nat) (a : Nat × Bool) (s : State) : State :=
  (s.setWide (DMA_NEXT_LO_ADDR ch) (DMA_NEXT_HI_ADDR ch) a.1).put (DMA_NEXT_HI_LOCAL ch) a.2

/-! ### Translation (R338 to R340) -/

def xNotPresent : Nat := 0
def xPerm : Nat := 1
def xRsvd : Nat := 2
def xWalkErr : Nat := 3
def xCtxOff : Nat := 4

/-- The IOTLB's leaf for a page of a context. -/
def State.tlbFind (s : State) (x page : Nat) : Option TlbEnt :=
  s.iotlb.find? (fun e => e.ctx = x && (if e.big then e.page / 512 = page / 512 else e.page = page))

/-- A leaf permits an access: 0 read, 1 write, 2 execute (R339). -/
def TlbEnt.permits (e : TlbEnt) (kind : Nat) : Bool :=
  match kind with
  | 0 => e.r
  | 1 => e.w
  | _ => e.r && !e.xn

/-- A translation in hand: none missing, some none a hit, some (some (why, level)) a fault (R340). -/
def State.translate (s : State) (x page kind : Nat) : Option (Option (Nat × Nat)) :=
  if !s.on (DATU_CCTL_EN x) then some (some (xCtxOff, 1))
  else
    match s.tlbFind x page with
    | some e => if e.permits kind then some none else some (some (xPerm, if e.big then 2 else 1))
    | none => none

/-- A translation fault is recorded in its context (R338, R345). -/
def recordXlate (x iova kind why level ch : Nat) (host : Bool) (s : State) : State :=
  let s1 := (s.setWide (DATU_FADDR_LO_IOVA x) (DATU_FADDR_HI_IOVA x) iova).set (DATU_FINFO_PEND x) 1
  let s2 := ((s1.set (DATU_FINFO_CAUSE x) why).set (DATU_FINFO_KIND x) kind).set (DATU_FINFO_LEVEL x) (level - 1)
  let s3 := (s2.set (DATU_FINFO_CHANNEL x) ch).put (DATU_FINFO_HOSTPORT x) host
  (s3.bump (DATU_CCTL_FCNT x)).bump DATU_CNT_FAULT_CNT

/-- The pages a side of a burst lies in, each with the first stream offset in it; none where the side is not translated. -/
def State.pagesOf (s : State) (ch : Nat) (d : Desc) (dst : Bool) (off len : Nat) : List (Nat × Nat) :=
  if 16 ≤ s.get (DMA_CCTL_XCTX ch) then []
  else
    (List.range len).foldl (fun l i =>
      match s.reach ch d dst (off + i) with
      | .host a => if l.any (fun e => e.1 = a / 4096) then l else l ++ [(a / 4096, off + i)]
      | _ => l) []

/-- The earlier of two faults in stream order. -/
def earlier : Option XFault → Option XFault → Option XFault
  | none, b => b
  | a, none => a
  | some a, some b => if b.off < a.off then some b else some a

/-- The first byte of a burst that lies outside its space: a fault of cause ADDRESS (R332). -/
def State.addressFault (s : State) (ch : Nat) (d : Desc) (dst : Bool) (off len : Nat) : Option XFault :=
  ((List.range len).find? (fun i => s.reach ch d dst (off + i) = .bad)).map (fun i =>
    let a := d.address dst (off + i)
    { off := off + i, cause := 4, addr := a.1, isLocal := a.2, kind := if dst then 1 else 0 })

/-- What the translations in hand say of one side of a burst: the pages still needed and the earliest fault. -/
def State.sideXlate (s : State) (ch : Nat) (d : Desc) (dst : Bool) (off len : Nat) : List (Bool × Nat × Nat) × Option XFault :=
  (s.pagesOf ch d dst off len).foldl (fun (acc : List (Bool × Nat × Nat) × Option XFault) (pg : Nat × Nat) =>
    match s.translate (s.get (DMA_CCTL_XCTX ch)) pg.1 (if dst then 1 else 0) with
    | none => (acc.1 ++ [(dst, pg.1, pg.2)], acc.2)
    | some none => acc
    | some (some (why, level)) =>
      (acc.1, earlier acc.2 (some { off := pg.2, cause := 1, addr := (d.address dst pg.2).1, kind := if dst then 1 else 0
                                    xlate := true, why := why, level := level }))) ([], none)

/-! ### Completion (R320, R322) -/

/-- The residue of a descriptor: the bytes not moved. -/
def Desc.residue (d : Desc) : Nat := d.total - d.done

/-- Bytes written into a channel's ring (R318, R322): a write to host memory is looked up in the IOTLB, a page not there being a miss (R340,
R345; log entry 157: DESIGN CHOICE). -/
def ringWrite (ch i : Nat) (b : List Byte) (s : State) : State :=
  match s.chEngine ch with
  | none =>
    let x := s.get (DMA_CCTL_XCTX ch)
    let miss := x < 16 && (s.translate x (s.ringAddr ch i / 4096) 1).isNone
    (s.when miss (fun s => s.bump DATU_CNT_MISS_CNT)).emit (.host x (s.ringAddr ch i) b)
  | some e => engWrite e (s.ringAddr ch i) b s

/-- DMA_RESID and DMA_NEXT follow the current descriptor (R343). -/
def showProgress (ch : Nat) (d : Desc) (s : State) : State :=
  showNext ch (d.address true d.done) (s.set (DMA_RESID_RESID ch) d.residue)

/-- A descriptor is written back and the ring moves on (R320, R322): the extension first, then the head with STATUS, REQSEQ and
RESIDUE (log entry 166: DEDUCED). -/
def finishDesc (ch : Nat) (d : Desc) (status residue : Nat) (s : State) : State :=
  let n := s.ringSize ch
  let w0 := wordSet (wordSet (d.w 0) 16 8 status) 31 1 0
  let bytes := wordsBytes (w0 :: ((d.words.drop 1).take 5 ++ [BitVec.ofNat 32 d.seq, BitVec.ofNat 32 residue]))
  let e := extended (d.w 0)
  let s1 := if e then ringWrite ch ((d.idx + 1) % n) (wordsBytes (wordSet (d.x 0) 31 1 0 :: d.ext.drop 1)) s else s
  let s2 := ringWrite ch d.idx bytes s1
  let s3 := ((s2.set (DMA_STAT_LAST ch) status).set (DMA_RESID_RESID ch) residue).set (DMA_STAT_CIDX ch) ((d.idx + if e then 2 else 1) % n)
  let s4 := (s3.when (status = 3) (fun s => s.bump (DMA_FCNT_POISON_CNT ch))).modDma ch (fun x =>
    { x with cur := none, bursts := [], rest := none })
  if d.irq then chInterrupt ch s4 else s4

/-- The channel is IDLE with no further work, ACTIVE otherwise (R336). -/
def settle (ch : Nat) (s : State) : State :=
  let x := s.dmaOf ch
  let work := match s.lineOf ch with
    | some _ => !x.reqs.isEmpty
    | none => x.cur.isSome || s.offered ch ≠ 0
  if s.chState ch = chActive && !work then s.set (DMA_STAT_STATE ch) chIdle
  else if s.chState ch = chIdle && x.cur.isSome && work then s.set (DMA_STAT_STATE ch) chActive
  else s

/-- The unit of request `q` in a list, none where it is not there any more. -/
def unitFor (q : Nat) (l : List LineUnit) : List Byte := ((l.find? (fun u => u.req = some q)).map (·.bytes)).getD []

/-- The length of the unit of request `q` of a line (R324). -/
def State.unitLen (s : State) (l q : Nat) : Nat :=
  if l < 4 then (s.frameOf l q).length else if l = 25 then (unitFor q s.pin.capFull).length else lineMax l

/-- The request a channel serves next. -/
def State.nextReq (s : State) (ch : Nat) : Nat := ((s.dmaOf ch).reqs.headD (0, false)).1

/-- STREAM (R325): a descriptor with too little room for the next unit is closed with its residue. -/
def fitUnit (ch : Nat) (s : State) : State :=
  match s.lineOf ch, (s.dmaOf ch).cur with
  | some l, some d =>
    if s.get (DMA_CCTL_RMODE ch) = 0 && !(s.dmaOf ch).reqs.isEmpty && (s.dmaOf ch).bursts.isEmpty &&
        d.total - d.granted < s.unitLen l (s.nextReq ch)
    then finishDesc ch d 0x00 d.residue s else s
  | _, _ => s

/-! ### Units that are not taken, halts and faults (R326, R336 to R338) -/

/-- The unit of request `q` of a line is not taken, nor fetched later (R326, R327). A frame and the Wheel's window are no unit of the
request's own, and an event record stays for the other readers of the FIFO. -/
def loseUnit (l q : Nat) (s : State) : State :=
  if l < 4 then s
  else if l < 8 then s.modTrg (l - 4) (fun g => { g with histReq := g.histReq.filter (fun e => e.1 ≠ q) })
  else if l < 20 then s
  else if l < 24 then
    let s1 := { s with rxq := bankMod s.rxq (l - 20) (fun u => u.filter (fun u => u.req ≠ some q)) }
    s1.set (LNK_RXQ_FILL (l - 20)) (bankGet s1.rxq (l - 20)).length
  else if l = 24 then s
  else { s with pin := { s.pin with capFull := s.pin.capFull.filter (fun u => u.req ≠ some q) } }

/-- A unit that its channel does not take is lost. The blocks of a capture channel that is FAULTED or HALTED stay in their buffers, so that
later ones overrun (R326, R381). -/
def unitMissed (ch l q : Nat) (s : State) : State :=
  if l = 25 && (s.chState ch = chFaulted || s.chState ch = chHalted) then s else loseUnit l q s

/-- The requests that wait at a channel are dropped with their units. -/
def dropRequests (ch : Nat) (s : State) : State :=
  match s.lineOf ch with
  | some l => ((s.dmaOf ch).reqs.foldl (fun s r => unitMissed ch l r.1 s) s).modDma ch (fun x => { x with reqs := [] })
  | none => s.modDma ch (fun x => { x with reqs := [] })

/-- The channel enters HALTED (R336, R337, R342): its descriptor, where it has one (log entry 165: DEDUCED), is written back with
its residue. -/
def haltChannel (ch status : Nat) (s : State) : State :=
  let s1 := match (s.dmaOf ch).cur with
    | some d => finishDesc ch d status d.residue s
    | none => s
  let s2 := (dropRequests ch (s1.set (DMA_STAT_STATE ch) chHalted)).modDma ch
    (fun x => { x with abort := none, bursts := [], rest := none })
  chInterrupt ch (s2.raise (DMA_EVT_EVT ch) 1 0x0A01 ch [(5, ch), (8, status), (32, s2.get (DMA_RESID_RESID ch))])

/-- A channel faults, one that is STOPPED too (R291): recorded, raised, its interrupt; an ABORT that waits ends it FAULT (R336, R338, R341,
R342). -/
def faultChannel (ch : Nat) (f : XFault) (s : State) : State :=
  let x := s.get (DMA_CCTL_XCTX ch)
  let s1 := s.when f.xlate (recordXlate x f.addr f.kind f.why f.level ch false)
  let s2 := (showNext ch (f.addr, f.isLocal) (s1.set (DMA_STAT_CAUSE ch) f.cause)).bump (DMA_FCNT_FAULT_CNT ch)
  let s3 := s2.raise (DMA_EVT_EVT ch) 0 0x0A00 ch
    [(5, ch), (5, x), (48, f.addr), (2, f.kind), (4, f.cause), (2, if f.xlate then f.level - 1 else 0)]
  let s4 := s3.set (DMA_STAT_STATE ch) chFaulted
  match (s4.dmaOf ch).abort with
  | some _ => haltChannel ch 0x04 s4
  | none => chInterrupt ch s4

/-! ### Descriptor fetch (R321, R336, R338) -/

/-- The channel may take its next descriptor; an engine's ring on an isolated die does not answer (R22). -/
def State.mayFetch (s : State) (ch : Nat) : Bool :=
  let x := s.dmaOf ch
  (s.chState ch = chIdle || s.chState ch = chActive) && x.abort.isNone && x.cur.isNone && !x.stalled && s.offered ch ≠ 0 &&
    (match s.lineOf ch with | some _ => !x.reqs.isEmpty | none => true) &&
    (match s.chEngine ch with | some e => s.linked dieC (dieOfEngine e) | none => true)

/-- The pages of an access to `len` bytes at `a`. -/
def pagesFrom (a len : Nat) : List Nat := (List.range ((a + len - 1) / 4096 + 1 - a / 4096)).map (a / 4096 + ·)

/-- The translations of a fetch of `len` bytes at `a` are in hand and permit it; an engine's and an untranslated channel's need none (R318,
R340). -/
def State.fetchInHand (s : State) (ch a len : Nat) : Bool :=
  let x := s.get (DMA_CCTL_XCTX ch)
  !s.hostOwned ch || 16 ≤ x || (pagesFrom a len).all (fun p => s.translate x p 0 = some none)

/-- The translations of the fetch of a descriptor, its extension and its index table are in hand. -/
def State.descInHand (s : State) (ch : Nat) (d : Desc) : Bool :=
  s.fetchInHand ch (s.ringAddr ch d.idx) 32 &&
    (!extended (d.w 0) || s.fetchInHand ch (s.ringAddr ch ((d.idx + 1) % s.ringSize ch)) 32) &&
    (d.pat ≠ 2 || s.fetchInHand ch d.tableAddr (4 * wordGet (d.x 0) 0 24))

/-- The fault of a fetch that no translation met: the address lies beyond the reach (R323, R338). -/
def reachFault (cause a : Nat) (loc : Bool) : XFault := { off := 0, cause := cause, addr := a % 2 ^ 48, isLocal := loc }

/-- A ring entry lies beyond the memory that holds the ring (R318, R338): a fault of cause 2. -/
def State.ringFault (s : State) (ch : Nat) : Option XFault :=
  let a := s.ringAddr ch (s.get (DMA_STAT_CIDX ch))
  match s.chEngine ch with
  | none => if 2 ^ 48 < a + 32 then some (reachFault 2 a false) else none
  | some e => if 0x10000 < a + 32 then some (reachFault 2 (0x10000000 + 0x10000 * e + a) true) else none

/-- An index table runs beyond the reach of the channel (R323, R338): a fault of cause 3 at its first address beyond it. -/
def State.tableFault (s : State) (ch : Nat) (d : Desc) : Option XFault :=
  let e := d.tableAddr + 4 * wordGet (d.x 0) 0 24
  let stop := match s.chEngine ch with
    | none => 2 ^ 48
    | some 0 => 2 ^ 63 + 0x10000000 + 12 * 0x10000
    | some e => 2 ^ 63 + 0x10000000 + (e + 1) * 0x10000
  if d.pat = 2 && stop < e then some (reachFault 3 stop (!s.hostOwned ch)) else none

/-- A descriptor becomes the channel's current one (R343). -/
def takeUp (ch : Nat) (d : Desc) (s : State) : State := showProgress ch d (s.modDma ch (fun x => { x with cur := some d }))

/-- The descriptor whose OWN bits are set is checked and completes, faults at its table, or is taken up (R321, R338); `dbe` is the word of
the descriptor cache that met a double-bit error (R42, R342). -/
def takeDesc (ch : Nat) (dbe : Option Nat) (d : Desc) (s : State) : State :=
  match dbe with
  | some w => finishDesc ch d 0x03 d.sum (poisoned dieC memDesc w s)
  | none =>
    if !s.descOk ch d then finishDesc ch d 0x01 d.sum (s.ignored 0x09 d.idx ch)
    else if d.sum = 0 then finishDesc ch d 0x02 0 s
    else
      match s.tableFault ch d with
      | some f => faultChannel ch f (takeUp ch d s)
      | none =>
        match (s.dmaOf ch).reqs with
        | (q, true) :: rest =>
          finishDesc ch { d with seq := q } 0x07 (d.w 1).toNat (s.modDma ch (fun x => { x with reqs := rest }))
        | _ => fitUnit ch (takeUp ch d s)

/-- The descriptor at a channel's consumer index with the words that its memory gives. -/
def State.descAt (s : State) (ch : Nat) (head ext table : List Word) : Desc :=
  let d : Desc := { words := head.take 8, ext := if extended (head.getD 0 0) then ext.take 8 else [], table := table
                    idx := s.get (DMA_STAT_CIDX ch) }
  { d with total := d.sum }

/-- What an engine's program has left in the ring and the table that a fetch reads (log entry 31). -/
def engDescLands (ch : Nat) (d : Desc) (s : State) : State :=
  match s.chEngine ch with
  | none => s
  | some e =>
    let s1 := engStore e (s.ringAddr ch d.idx) (wordsBytes d.words) s
    let s2 := s1.when (extended (d.w 0)) (engStore e (s.ringAddr ch ((d.idx + 1) % s.ringSize ch)) (wordsBytes d.ext))
    match s.space ch d.tableAddr with
    | .eng f a => s2.when (d.pat = 2) (engStore f a (wordsBytes d.table))
    | _ => s2

/-- DESCRIPTOR_FETCH (R320, R321): the words of the entry (and of its extension and index table) arrive, their translations in hand; `dbe`
is a word of the descriptor cache that met a double-bit error, the extension's from 8 on. With an OWN bit 0 the hub waits at the entry until
a later doorbell read, or the owner's next write of DMA_DB (R272, R318; log entry 127). -/
def execDescriptorFetch (ch : Fin 32) (dbe : Option (Fin 16)) (head ext table : List Word) (s : State) : Out :=
  .next <|
    if !s.mayFetch ch then s else
    match s.ringFault ch with
    | some f => showDma (faultChannel ch f s)
    | none =>
      let d := s.descAt ch head ext table
      if !s.descInHand ch d then s else
      let s1 := engDescLands ch d s
      if Desc.own (d.w 0) && (!extended (d.w 0) || Desc.own (d.x 0)) then showDma (settle ch (takeDesc ch (dbe.map (·.val)) d s1))
      else showDma ((s1.set (DMA_STAT_STATE ch) chIdle).modDma ch (fun x => { x with stalled := true }))

/-! ### Requests (R324 to R327) -/

/-- A request is missed (R326): its unit is lost, it is counted, DMA_MISSED at most once a millisecond (R342). -/
def missRequest (ch l q : Nat) (s : State) : State :=
  let s1 := (unitMissed ch l q s).bump (DMA_REQCNT_MISS_CNT ch)
  if (s.dmaOf ch).missMs = some s.nowMs then s1
  else (s1.modDma ch (fun x => { x with missMs := some s.nowMs })).raise (DMA_EVT_EVT ch) 3 0x0A03 ch [(5, ch), (32, l), (32, q)]

/-- DMA_LATE of a dropped unit (R327, R342). -/
def lateEvent (ch q : Nat) (s : State) : State :=
  let s1 := s.bump (DMA_REQCNT_LATE_CNT ch)
  if (s.dmaOf ch).lateMs = some s.nowMs then s1
  else (s1.modDma ch (fun x => { x with lateMs := some s.nowMs })).raise (DMA_EVT_EVT ch) 2 0x0A02 ch [(5, ch), (32, q)]

/-- PERIODIC (R327): a request that arrives before the previous unit's burst has completed drops that unit whole. -/
def dropLate (ch l : Nat) (s : State) : State :=
  match (s.dmaOf ch).reqs.getLast?, (s.dmaOf ch).cur with
  | some (q, false), some d =>
    lateEvent ch q (finishDesc ch { d with seq := q } 0x07 d.total
      ((loseUnit l q s).modDma ch (fun x => { x with reqs := x.reqs.dropLast })))
  | some (q, false), none => lateEvent ch q ((loseUnit l q s).modDma ch (fun x => { x with reqs := x.reqs.dropLast ++ [(q, true)] }))
  | _, _ => s

/-- A request reaches its channel (R325 to R327). -/
def takeRequest (ch l q : Nat) (s : State) : State :=
  let s0 := s.set (DMA_REQSEQ_SEQ ch) q
  let periodic := s.on (DMA_CCTL_RMODE ch)
  let live := (s.chState ch = chIdle || s.chState ch = chActive) && (s.dmaOf ch).abort.isNone
  let s1 := if live && periodic then dropLate ch l s0 else s0
  let x := s1.dmaOf ch
  let room := if periodic then x.reqs.length < s1.offered ch else x.reqs.length < 16 && (x.cur.isSome || s1.offered ch ≠ 0)
  if live && room then
    fitUnit ch ((s1.modDma ch (fun x => { x with reqs := x.reqs ++ [(q, false)] })).set (DMA_STAT_STATE ch) chActive)
  else missRequest ch l q s1

/-- DMA_REQUEST (R324, R326): the oldest waiting request of a line reaches the channel bound to it; with none bound it is dropped with its
unit (log entry 129: DEDUCED). -/
def execDmaRequest (l : Fin 26) (s : State) : Out :=
  .next <|
    let n := s.lineWait.toList.getD l 0
    if n = 0 then s
    else
      let q := (s.lineSeq.toList.getD l 0 + 2 ^ 32 + 1 - n) % 2 ^ 32
      let s1 := { s with lineWait := bankMod s.lineWait l (· - 1) }
      match s1.boundTo l with
      | none => showDma (loseUnit l q s1)
      | some ch => showDma (takeRequest ch l q s1)

/-! ### Grants (R328, R329, R335) -/

/-- The line implies this side of the channel's descriptors. -/
def State.deviceSide (s : State) (ch : Nat) (dst : Bool) : Bool :=
  match s.lineOf ch with
  | some l => lineIsSink l = dst
  | none => false

/-- The length of the next burst (R325, R328, R329, R335). -/
def State.burstLen (s : State) (ch : Nat) (d : Desc) : Nat :=
  let left := d.total - d.granted
  match s.lineOf ch with
  | some l => s.unitLen l (s.nextReq ch)
  | none =>
    if d.shuf ≠ 0 then min left (512 / d.group * d.group)
    else if d.pat ≠ 0 then min left 512
    else min left (512 - (d.base true + d.granted) % 512)

/-- The bursts a channel may have in flight (R328). -/
def State.burstLimit (s : State) (ch : Nat) (d : Desc) : Nat :=
  match s.lineOf ch, s.space ch (d.base false) with
  | some _, _ => 1
  | none, .reg _ => 1
  | none, _ => 4

/-- A channel is ready for a grant (R328, R336). -/
def State.chReady (s : State) (ch : Nat) : Bool :=
  let x := s.dmaOf ch
  s.chState ch = chActive && x.abort.isNone && x.bursts.all (fun b => b.bad.isNone) &&
    (match x.cur with
      | none => false
      | some d => x.bursts.length < s.burstLimit ch d &&
        (match s.lineOf ch with
          | some _ => !x.reqs.isEmpty
          | none => d.granted < d.total))

/-- The channel the arbiter picks (R328): the highest level with a ready channel, round-robin within it. -/
def State.arbiter (s : State) : Option Nat :=
  (List.range 4).findSome? (fun lv =>
    ((List.range 32).map (fun i => (bankGet s.rr lv + 1 + i) % 32)).find? (fun ch => s.get (DMA_CCTL_PRIO ch) = lv && s.chReady ch))

/-- The bursts in flight in the engine. -/
def State.inFlight (s : State) : Nat := (s.dma.toList.map (fun x => x.bursts.length)).sum

/-- The bytes of a history request: 64 entries from ring index `i` on, oldest first (R95, R96). -/
def State.historyUnit (s : State) (t i : Nat) : List Byte :=
  (List.range 64).flatMap (fun k => wordBytes (s.word ⟨.TRG_HENT_LO, t, i + k, 0⟩) ++ wordBytes (s.word ⟨.TRG_HENT_HI, t, i + k, 0⟩))

/-- The hub memory a line to host memory reads, and the die it lies on (R324, R450). -/
def lineMemory (l : Nat) : Nat × Nat :=
  if l < 4 then (dieP, memFrame) else if l < 8 then (dieOfRegion (l - 4), memTable) else if l < 24 then (dieOfPort (l - 20), memRxq)
  else if l = 24 then (dieC, memEvent) else (dieC, memCap)

/-- The ring index at which the block of a history request begins. -/
def State.historyFirst (s : State) (l q : Nat) : Nat :=
  if 4 ≤ l && l < 8 then ((bankGet s.trg (l - 4)).histReq.lookup q).getD 0 else 0

/-- The unit of request `q` of a line to memory, as its source holds it (R324). -/
def State.unitBytes (s : State) (l q : Nat) : List Byte :=
  if l < 4 then s.frameOf l q
  else if l < 8 then s.historyUnit (l - 4) (s.historyFirst l q)
  else if l < 24 then unitFor q (bankGet s.rxq (l - 20))
  else if l = 24 then ((s.evtFifo.find? (fun e => e.req = some q)).map (fun e => e.bytes false)).getD []
  else unitFor q s.pin.capFull

/-- The unit of request `q` of a line to memory is taken from its source as its burst is granted (R324). A source on a die that has been
isolated since reads all ones (R22, R36; log entry 168: DEDUCED). -/
def takeUnit (l q : Nat) (s : State) : Option (List Byte) × State :=
  if lineIsSink l then (none, s)
  else if !s.linked (lineMemory l).1 dieC then (some (List.replicate (s.unitLen l q) 0xFF), s)
  else if l = 24 then
    (some (s.unitBytes l q), match s.evtFifo.findIdx? (fun e => e.req = some q) with | some i => s.dropAt i | none => s)
  else (some (s.unitBytes l q), loseUnit l q s)

/-- A burst's pages that still need a walk, and its earliest known fault, of both sides (R338, R340). -/
def State.lookup (s : State) (ch : Nat) (d : Desc) (off len : Nat) : List (Bool × Nat) × Option XFault :=
  let side (dst : Bool) : List (Bool × Nat × Nat) × Option XFault :=
    if s.deviceSide ch dst then ([], none)
    else
      let x := s.sideXlate ch d dst off len
      (x.1, earlier x.2 (s.addressFault ch d dst off len))
  let bad := earlier (side false).2 (side true).2
  let need := ((side false).1 ++ (side true).1).filter (fun e => match bad with | some b => e.2.2 < b.off | none => true)
  (need.map (fun e => (e.1, e.2.1)), bad)

/-- One burst of a channel is granted (R328, R338): its pages are looked up, misses counted, faults noted. -/
def grantBurst (ch : Nat) (d : Desc) (s : State) : State :=
  let len := s.burstLen ch d
  let (data, d1, s1) := match s.lineOf ch with
    | some l => let u := takeUnit l (s.nextReq ch) s; (u.1, { d with seq := s.nextReq ch }, u.2)
    | none => (none, d, s)
  let (need, bad) := s.lookup ch d d.granted len
  let first := (s.lineOf ch).elim 0 (fun l => s.historyFirst l (s.nextReq ch))
  let b : Burst := { off := d.granted, len := len, need := need, bad := bad, data := data, first := first }
  let s2 := s1.modDma ch (fun x => { x with cur := some { d1 with granted := d.granted + len }, bursts := x.bursts ++ [b] })
  let s3 := { s2 with rr := bankMod s2.rr (s.get (DMA_CCTL_PRIO ch)) (fun _ => ch) }
  s3.bumpBy DATU_CNT_MISS_CNT need.length

/-- BURST_GRANT (R328, R329): the arbiter grants one burst. -/
def execBurstGrant (s : State) : Out :=
  .next <|
    match s.arbiter with
    | some ch =>
      if s.inFlight < 32 then
        match (s.dmaOf ch).cur with
        | some d => showDma (grantBurst ch d s)
        | none => s
      else s
    | none => s

/-! ### Walks and invalidation (R339, R340) -/

/-- The IOTLB holds 256 leaves: the oldest makes room (R340; log entry 20). -/
def tlbFill (e : TlbEnt) (s : State) : State :=
  let l := s.iotlb ++ [e]
  let l' := if 256 < l.length then l.drop 1 else l
  { s with iotlb := l' }.set DATU_STAT_VALID l'.length

/-- A burst learns that a page of a side is in hand, or that it faults (R338). -/
def Burst.learn (d : Desc) (dst : Bool) (page : Nat) (fault : Option (Nat × Nat)) (first : Nat) (b : Burst) : Burst :=
  if !b.need.contains (dst, page) then b
  else
    let b1 := { b with need := b.need.filter (fun e => e ≠ (dst, page)) }
    match fault with
    | none => b1
    | some (why, level) =>
      { b1 with bad := earlier b1.bad (some { off := first, cause := 1, addr := (d.address dst first).1
                                              kind := if dst then 1 else 0, xlate := true, why := why, level := level }) }

/-- A burst learns the outcome of the translation of a page of a side. -/
def State.told (s : State) (ch : Nat) (d : Desc) (dst : Bool) (page : Nat) (fault : Option (Nat × Nat)) (b : Burst) : Burst :=
  let first := ((s.pagesOf ch d dst b.off b.len).find? (fun e => e.1 = page)).map (·.2)
  b.learn d dst page fault (first.getD b.off)

/-- Every burst of the channels of a context is changed. -/
def State.modBursts (s : State) (x : Nat) (f : Nat → Desc → Burst → Burst) : State :=
  s.each 32 (fun ch s =>
    match (s.dmaOf ch).cur with
    | some d => if s.get (DMA_CCTL_XCTX ch) = x then s.modDma ch (fun z => { z with bursts := z.bursts.map (f ch d) }) else s
    | none => s)

/-- The outcome of a translation reaches every burst that waits on the page. -/
def tellBursts (x page kind : Nat) (fault : Option (Nat × Nat)) (s : State) : State :=
  if kind < 2 then s.modBursts x (fun ch d => s.told ch d (kind = 1) page fault) else s

/-- A walk for a page and an access of a context is in progress. -/
def State.walking (s : State) (x page kind : Nat) : Bool := s.walks.any (fun w => !w.host && w.ctx = x && w.page = page && w.kind = kind)

/-- The pages that bursts of a context wait on, and that no walk is in progress for, are looked up again: a leaf that another walk has
filled serves them, and a context that has been disabled faults them (R340, R341). -/
def lookAgain (x : Nat) (s : State) : State :=
  s.modBursts x (fun ch d b =>
    b.need.foldl (fun b n =>
      let kind := if n.1 then 1 else 0
      if s.walking x n.2 kind then b
      else
        match s.translate x n.2 kind with
        | some f => s.told ch d n.1 n.2 f b
        | none => b) b)

/-- Some burst waits on a page. -/
def State.pageWanted (s : State) (x page kind : Nat) : Bool :=
  (List.range 32).any (fun ch => s.get (DMA_CCTL_XCTX ch) = x &&
    (s.dmaOf ch).bursts.any (fun b => b.need.contains (kind = 1, page)))

/-- A channel of a context is about to fetch a descriptor, an extension or an index table, which reads through the context (R318, R340). -/
def State.fetchWanted (s : State) (x kind : Nat) : Bool :=
  kind = 0 && (List.range 32).any (fun ch => s.get (DMA_CCTL_XCTX ch) = x && s.hostOwned ch && s.mayFetch ch)

/-- A translation fault of a host-port access (R275, R345): recorded with HOSTPORT = 1, and sent to the event ring as channel 0. -/
def hostXlateFault (x iova kind why level : Nat) (s : State) : State :=
  (recordXlate x iova kind why level 0 true s).pushEvt 0x0A00 0
    (packBody [(5, 0), (5, x), (48, iova), (2, kind), (4, 1), (2, level - 1)])

/-- The first address of a host-port access of a kind (0 read, 1 write, 2 execute) that a translation in hand denies, with its cause and
level: a disabled context, or an IOTLB leaf without the permission (R267, R340). -/
def State.hostDenied (s : State) (a len kind : Nat) : Option (Nat × Nat × Nat) :=
  let x := s.get HOST_XLAT_XCTX
  if 16 ≤ x then none
  else (pagesFrom a len).findSome? (fun p =>
    match s.translate x p kind with
    | some (some (why, level)) => some (max a (4096 * p), why, level)
    | _ => none)

/-- A host-port access meets a translation fault (R267, R275, R340): where a translation in hand denies it, or, on a page that needs a walk,
where `fault` says so. -/
def State.hostFault (s : State) (a len kind : Nat) (fault : Bool) : Bool :=
  let x := s.get HOST_XLAT_XCTX
  x < 16 && ((s.hostDenied a len kind).isSome || (fault && (pagesFrom a len).any (fun p => (s.translate x p kind).isNone)))

/-- The record of a fault of a translation in hand; any other is recorded by the walk that met it. -/
def hostDeny (a len kind : Nat) (s : State) : State :=
  match s.hostDenied a len kind with
  | some (f, why, level) => hostXlateFault (s.get HOST_XLAT_XCTX) f kind why level s
  | none => s

/-- A walk ends (R340): a channel's faults reach its bursts, a host-port access's fault is recorded at once with HOSTPORT = 1. -/
def walkEnds (w : Walk) (iova : Nat) (fault : Option (Nat × Nat)) (s : State) : State :=
  let s1 := { s with walks := s.walks.filter (fun v => v ≠ w) }
  match w.host, fault with
  | true, some (why, level) => hostXlateFault w.ctx iova w.kind why level s1
  | true, none => lookAgain w.ctx s1
  | false, f => lookAgain w.ctx (tellBursts w.ctx w.page w.kind f s1)

/-- A page-table entry's reserved bits are set (R339). -/
def pteReserved (e level : Nat) : Bool :=
  e / 2 ^ 4 % 8 ≠ 0 || e / 2 ^ 52 ≠ 0 || (bitOf e 7 && level ≠ 2) || (bitOf e 7 && level = 2 && e / 2 ^ 12 % 2 ^ 9 ≠ 0)

/-- The bus address of the entry a walk reads at its level: the index is nine bits of the IO-virtual address, [47:39] at level 4 down to
[20:12] at level 1, and an entry has 8 bytes (R339, R340). -/
def Walk.entry (w : Walk) (iova : Nat) : Nat := w.base + 8 * (iova / 2 ^ (12 + 9 * (w.level - 1)) % 512)

/-- One step of a walk with the entry its read returned (R340). -/
def walkStep (w : Walk) (iova pte : Nat) (s : State) : State :=
  if !bitOf pte 0 then walkEnds w iova (some (xNotPresent, w.level)) s
  else if pteReserved pte w.level then walkEnds w iova (some (xRsvd, w.level)) s
  else if w.level = 1 ∨ (w.level = 2 ∧ bitOf pte 7) then
    let e : TlbEnt := { ctx := w.ctx, page := w.page, big := w.level = 2, frame := pte / 2 ^ 12 % 2 ^ 40
                        r := bitOf pte 1, w := bitOf pte 2, xn := bitOf pte 3 }
    if e.permits w.kind then walkEnds w iova none (tlbFill e s) else walkEnds w iova (some (xPerm, w.level)) s
  else
    { s with walks := s.walks.map (fun v =>
        if v = w then { w with level := w.level - 1, base := pte / 2 ^ 12 % 2 ^ 40 * 2 ^ 12 } else v) }

/-- WALK_READ_DONE (R339, R340, R345): the page-table read at `addr` of a walk for an address returns `pte`, or fails. A walk starts where a
burst waits on the page, where a channel is about to fetch, or for an access of the host port (`host`); the miss of a burst was counted at
its lookup, any other is counted here. -/
def execWalkReadDone (host : Bool) (x : Fin 16) (iova : BitVec 48) (kind : Fin 3) (addr : BitVec 52) (pte : BitVec 64) (err : Bool)
    (s : State) : Out :=
  .next <|
    let page := iova.toNat / 4096
    let fits (w : Walk) : Bool := w.host = host && w.ctx = x.val && w.page = page && w.kind = kind.val
    let w0 : Walk := { host := host, ctx := x, page := page, kind := kind, level := 4
                       base := 4096 * (s.get (DATU_ROOT_LO_ROOT x) + 2 ^ 20 * s.get (DATU_ROOT_HI_ROOT x)) }
    let go (w : Walk) (s : State) : State :=
      if w.entry iova.toNat ≠ addr.toNat then s
      else if err then walkEnds w iova.toNat (some (xWalkErr, w.level)) s else walkStep w iova.toNat pte.toNat s
    match s.walks.find? fits with
    | some w => go w s
    | none =>
      let burst := !host && s.pageWanted x page kind
      if s.on (DATU_CCTL_EN x) && (s.tlbFind x page).isNone && (host || burst || s.fetchWanted x kind) &&
          w0.entry iova.toNat = addr.toNat then
        go w0 ({ s with walks := s.walks ++ [w0] }.when (!burst) (fun s => s.bump DATU_CNT_MISS_CNT))
      else s

/-- An invalidation names a context. -/
def invNames (i : Nat × Nat × Nat) (x : Nat) : Bool := i.1 = 0 || i.2.1 = x

/-- DATU_INV_DONE (R340): once the walks of the contexts it names have ended, every matching entry is removed. -/
def execDatuInvDone (s : State) : Out :=
  .next <|
    match s.inv with
    | none => s
    | some i =>
      if s.walks.any (fun w => invNames i w.ctx) then s
      else
        let hit (e : TlbEnt) : Bool := match i.1 with
          | 0 => true
          | 1 => e.ctx = i.2.1
          | _ => e.ctx = i.2.1 && (if e.big then e.page / 512 = i.2.2 / 512 else e.page = i.2.2)
        let l := s.iotlb.filter (fun e => !hit e)
        ({ s with iotlb := l, inv := none }.set DATU_STAT_VALID l.length).set DATU_STAT_INV_BUSY 0

/-! ### Abort, resume and the ends of a channel (R336, R337) -/

/-- An ABORT takes effect (R336): at once, or when the bursts in flight have completed. -/
def abortChannel (ch status : Nat) (s : State) : State :=
  if (s.dmaOf ch).bursts.isEmpty || s.chState ch = chFaulted then haltChannel ch status s
  else s.modDma ch (fun x => { x with abort := some status })

/-- DMA_ABORT (R336): from ACTIVE or FAULTED; the result is the residue that is written back: of an ACTIVE channel the one that the bursts
in flight leave (log entry 21). -/
def cmdDmaAbort (ch : Nat) (s : State) : CmdRes :=
  let left := match (s.dmaOf ch).cur with
    | some d => if s.chState ch = chFaulted then d.residue else d.total - d.granted
    | none => 0
  if s.chState ch = chActive ∧ (s.dmaOf ch).abort.isNone then
    ⟨0x00, BitVec.ofNat 32 left, showDma (abortChannel ch 0x06 s)⟩
  else if s.chState ch = chFaulted then ⟨0x00, BitVec.ofNat 32 left, showDma (abortChannel ch 0x04 s)⟩
  else cmdIgnored s

/-- What is left of a line's unit is taken up again, its translations retried (R336, R338). -/
def retryRest (ch : Nat) (s : State) : State :=
  match (s.dmaOf ch).cur, (s.dmaOf ch).rest with
  | some d, some b =>
    let (need, bad) := s.lookup ch d b.off b.len
    (s.modDma ch (fun x => { x with rest := none, bursts := [{ b with need := need, bad := bad }] })).bumpBy DATU_CNT_MISS_CNT need.length
  | _, _ => s

/-- A FAULTED channel goes on (R336, R338): at the faulting byte of its descriptor, whose next destination DMA_NEXT shows again (R343), or
with the fetch of the descriptor whose index table faulted. -/
def resumeFaulted (ch cause : Nat) (s : State) : State :=
  if cause = 3 then s.modDma ch (fun x => { x with cur := none })
  else
    match (s.dmaOf ch).cur with
    | some d => retryRest ch (showProgress ch d s)
    | none => s

/-- DMA_RESUME (R336): a FAULTED channel goes on at the faulting byte, a HALTED one takes its next descriptor; the
capture unit resumes clean with its channel (R379). -/
def cmdDmaResume (ch : Nat) (s : State) : CmdRes :=
  let go (st : Nat) : State :=
    let s1 := (s.set (DMA_STAT_STATE ch) st).set (DMA_STAT_CAUSE ch) 0
    showDma (if s.lineOf ch = some 25 then { s1 with pin := { s1.pin with capFull := [], capCur := [], capDrop := false } } else s1)
  if s.chState ch = chFaulted then cmdOk (resumeFaulted ch (s.get (DMA_STAT_CAUSE ch)) (go chActive))
  else if s.chState ch = chHalted then cmdOk (go chIdle)
  else cmdIgnored s

/-- The channel is DISABLED with EN = 0, its descriptor not written back (R336). -/
def disableChannel (ch : Nat) (s : State) : State :=
  (dropRequests ch ((s.set (DMA_STAT_STATE ch) chDisabled).set (DMA_CCTL_EN ch) 0)).modDma ch (fun x =>
    { x with cur := none, bursts := [], rest := none, abort := none })

/-- A host-port reset or a soft reset: every host-owned channel is DISABLED (R336, R337). -/
def disableHostChannels (s : State) : State :=
  showDma (s.each 32 (fun ch s => if s.hostOwned ch && s.chState ch ≠ chDisabled then disableChannel ch s else s))

/-- The host port enters STOPPING: every channel stops at its burst boundary (R336). -/
def stopChannels (s : State) : State :=
  showDma (s.each 32 (fun ch s =>
    let st := s.chState ch
    if st = chDisabled ∨ st = chStopped then s
    else (s.set (DMA_STAT_STATE ch) chStopped).modDma ch (fun x => { x with back := st })))

/-- The host port enters WAIT_ARM (R336): host-owned channels are DISABLED, the others return to their state, IDLE where their work ended
meanwhile. -/
def unstopChannels (s : State) : State :=
  showDma (s.each 32 (fun ch s =>
    if s.chState ch ≠ chStopped then s
    else if s.hostOwned ch then disableChannel ch s
    else settle ch (s.set (DMA_STAT_STATE ch) (s.dmaOf ch).back)))

/-- An engine is reset: its ACTIVE and FAULTED channels halt as by ABORT, status ABORTED (R336). -/
def haltEngineChannels (e : Nat) (s : State) : State :=
  showDma (s.each 32 (fun ch s =>
    if s.chEngine ch = some e && (s.chState ch = chActive || s.chState ch = chFaulted) then abortChannel ch 0x06 s else s))

/-- EN written 1: IDLE, consumer index 0, the first doorbell tag read is acted on (R336). -/
def enableChannel (ch : Nat) (s : State) : State :=
  ((s.set (DMA_STAT_STATE ch) chIdle).set (DMA_STAT_CIDX ch) 0).modDma ch (fun x => { lateMs := x.lateMs, missMs := x.missMs })

/-- A doorbell word of a channel's host ring (R270, R318): acted on when its tag is new; an index of N or more is ignored. -/
def channelDoorbell (ch tag idx : Nat) (s : State) : State :=
  if (s.dmaOf ch).tag = some tag then s
  else
    let s1 := s.modDma ch (fun x => { x with tag := some tag })
    if idx < s.ringSize ch then s1.modDma ch (fun x => { x with prod := idx }) else s1.ignored 0x03 (32 + ch)

/-! ### Write rules of the DMA and DATU registers -/

/-- The rules a write of a DMA or DATU register must satisfy (R317, R318, R324, R336, R340, R343, R345); `who` writes: 0 to 11 an
engine, 12 the host, by BAR0 where `bar` holds. A write of a register that is only read counts as ignored but for the owner's. -/
def dmaRule (who : Nat) (bar : Bool) (r : Reg) (old new : Word) (s : State) : Bool :=
  let ch := r.i
  let mine := who = s.chOwner ch
  let st := s.chState ch
  match r.name with
  | .DMA_CCTL =>
    let onlyOwner := wordSet new 4 4 0 = wordSet old 4 4 0
    let req := wordGet new 16 5
    (mine || (who = 0 && onlyOwner)) &&
      (if wordGet old 0 1 = 1 then
        wordSet new 0 1 0 = wordSet old 0 1 0 &&
          (wordGet new 0 1 = 1 || st = chIdle || st = chHalted)
      else req = 0 || (List.range 32).all (fun c => c = ch || s.get (DMA_CCTL_REQ c) ≠ req))
  | .DMA_RBASE_LO => mine
  | .DMA_RBASE_HI => mine && (s.hostOwned ch || new = 0)
  | .DMA_DB => mine && !s.hostOwned ch && wordGet new 0 16 < s.ringSize ch
  | .DMA_CMD =>
    mine && !(wordGet new 0 1 = 1 && wordGet new 1 1 = 1) &&
      (wordGet new 0 1 = 0 || st = chFaulted || st = chHalted) &&
      (wordGet new 1 1 = 0 || (st = chActive && (s.dmaOf ch).abort.isNone) || st = chFaulted)
  | .DMA_EVT => mine
  | .DMA_STAT => mine
  | .DMA_RESID => mine
  | .DMA_NEXT_LO => mine
  | .DMA_NEXT_HI => mine
  | .DMA_REQCNT => mine
  | .DMA_REQSEQ => mine
  | .DMA_FCNT => mine
  | .DATU_STAT => bar
  | .DATU_CNT => bar
  | .DATU_FADDR_LO => bar
  | .DATU_FADDR_HI => bar
  | .DATU_INV => bar && !s.on DATU_STAT_INV_BUSY
  | .DATU_INV_ADDR_LO => bar
  | .DATU_INV_ADDR_HI => bar
  | .DATU_CCTL => bar
  | .DATU_ROOT_LO => bar && !s.on (DATU_CCTL_EN r.i)
  | .DATU_ROOT_HI => bar && !s.on (DATU_CCTL_EN r.i)
  | .DATU_FINFO => bar
  | _ => true

/-- What an applied write of a DMA or DATU register sets off. -/
def dmaAfter (r : Reg) (old new : Word) (s : State) : State :=
  let ch := r.i
  match r.name with
  | .DMA_CCTL =>
    if wordGet old 0 1 = 0 ∧ wordGet new 0 1 = 1 then showDma (enableChannel ch s)
    else if wordGet old 0 1 = 1 ∧ wordGet new 0 1 = 0 then showDma (disableChannel ch s)
    else showDma s
  | .DMA_DB => s.modDma ch (fun x => { x with prod := wordGet new 0 16, stalled := false })
  | .DMA_CMD =>
    if wordGet new 0 1 = 1 then (cmdDmaResume ch s).s else if wordGet new 1 1 = 1 then (cmdDmaAbort ch s).s else s
  | .DMA_EVREQ => eventLine s
  | .DATU_INV =>
    if wordGet new 0 1 = 1 then
      { s with inv := some (wordGet new 1 2, wordGet new 4 4, s.get DATU_INV_ADDR_LO_IOVA + 2 ^ 20 * s.get DATU_INV_ADDR_HI_IOVA) }.set
        DATU_STAT_INV_BUSY 1
    else s
  | .DATU_CCTL => s.when (wordGet new 0 1 = 0) (lookAgain r.i)
  | _ => s

end Sys2Proof.Machine
end

