-- ==== Sys2Proof/Machine/Defer.lean ====
section
/-! DEFINITION. Sys2Proof/Machine/Defer.lean: how a command of R278 ends: completions, the mailbox's result, the deferred commands
of the three groups and the ignored commands that are counted (R274 to R279, R285, R290, R305). -/

namespace Sys2Proof.Machine

def grpOtp : Nat := 0
def grpImage : Nat := 1
def grpRemote : Nat := 2

/-- Statuses of R277; 0xFF stands for a deferred command that has been accepted. -/
def stOk : Nat := 0x00
def stIgnored : Nat := 0x01
def stEmpty : Nat := 0x02
def stPoisoned : Nat := 0x03
def stFault : Nat := 0x04
def stRemoteErr : Nat := 0x05
def stAborted : Nat := 0x06
def stDeferred : Nat := 0xFF

/-- The host port's internal state changed. -/
def State.modHost (s : State) (f : HostInt → HostInt) : State := { s with host := f s.host }

/-- A group's deferred command. -/
def State.deferOf (s : State) (g : Nat) : Defer := bankGet s.host.defer g

/-- A group's deferred command changed. -/
def State.modDefer (s : State) (g : Nat) (f : Defer → Defer) : State :=
  s.modHost (fun h => { h with defer := bankMod h.defer g f })

/-- A deferred command of the group is outstanding (R276). -/
def State.groupBusy (s : State) (g : Nat) : Bool := (s.deferOf g).state = 1

/-- A write to host memory in the host port's context (R267). -/
def emitHost (a : Nat) (bytes : List Byte) (s : State) : State := s.emit (.host (s.get HOST_XLAT_XCTX) a bytes)

/-- A host ring's size and base (R269). -/
def State.hostRingSize (s : State) (q : Nat) : Nat := 2 ^ s.get (HOST_RING_CFG_SIZE q)
def State.hostRingBase (s : State) (q : Nat) : Nat := s.get (HOST_RING_LO_BASE q) * 4096 + s.get (HOST_RING_HI_BASE q) * 2 ^ 32

/-- The hub's index of a host ring, and what the doorbell has published. -/
def State.hubIdx (s : State) (q : Nat) : Nat := s.get (HOST_RING_IDX_HUB_IDX q)
def State.pubIdx (s : State) (q : Nat) : Nat := (bankGet s.host.ring q).idx

/-- A ring the hub writes has room for `n` more entries (R269). -/
def State.ringRoom (s : State) (q n : Nat) : Bool :=
  let size := s.hostRingSize q
  (s.hubIdx q + size - s.pubIdx q) % size + n < size

/-- The descriptor's status is written in place and OWN cleared, in one write (R272). -/
def writeBack (idx status result : Nat) (words : List Word) (s : State) : State :=
  if words.isEmpty then s
  else
    let w0 := wordSet (wordSet (words.getD 0 0) 8 8 status) 31 1 0
    emitHost (s.hostRingBase 0 + 64 * idx) (wordsBytes (w0 :: ((words.take 16).set 5 (BitVec.ofNat 32 result)).drop 1)) s

/-- The summary's counters of completions follow one (R288). -/
def countCpl (c : Cpl) (s : State) : State :=
  s.modHost (fun h => { h with ignoredCpl := h.ignoredCpl + (if c.status = stIgnored then 1 else 0)
                               poisonedCpl := h.poisonedCpl + (if c.status = stPoisoned then 1 else 0) })

/-- A completion waits for the ring (R279). -/
def queueCpl (c : Cpl) (s : State) : State := (countCpl c s).modHost (fun h => { h with cplQ := h.cplQ ++ [c] })

/-- A completion is held for the next arming (R290). -/
def holdOrphan (c : Cpl) (s : State) : State := (countCpl c s).modHost (fun h => { h with orphans := h.orphans ++ [c] })

/-- The group of a deferred opcode (R276). -/
def groupOf (opcode : Nat) : Nat := if opcode < 0x48 then grpOtp else if opcode < 0x50 then grpImage else grpRemote

/-- The completions of deferred commands that found no room in the old ring become orphans; their groups show it (R288, R290). -/
def holdLate (s : State) : State :=
  let late := s.host.cplQ.filter (fun c => c.late)
  let s1 := s.modHost (fun h =>
    { h with cplQ := [], orphans := late.map (fun c => { c with idx := 0xFFFF, orphan := true }) ++ h.orphans })
  late.foldl (fun s c =>
    let g := groupOf c.opcode
    if (s.deferOf g).state = 0 then
      s.modDefer g (fun d => { d with state := 3, opcode := c.opcode, tag := c.tag, idx := c.idx, done := c.done })
    else s) s1

/-- A mailbox command ends (R305, R315). -/
def mbxDone (opcode status result : Nat) (s : State) : State :=
  let s1 := ((s.set MGT_MBX_CTL_BUSY 0).set MGT_MBX_CTL_DONE 1).set MGT_MBX_CTL_STATUS status
  (s1.set MGT_MBX_RES_RESULT result).raise MGT_EVT_EVT 4 0x0904 0 [(8, opcode), (8, status)]

/-- A command that completes IGNORED is counted, by the ring index or the mailbox (R285, R426). -/
def countIgnored (v : CmdVia) (s : State) : State :=
  match v with
  | .ring => s.ignored 0x02 (s.hubIdx 0)
  | .mbx _ => s.ignored 0x07 0x2440

/-- The mailbox is taken by an owner until its command is DONE (R305). -/
def mbxTake (owner : Nat) (s : State) : State := ((s.set MGT_MBX_CTL_BUSY 1).set MGT_MBX_CTL_DONE 0).set MGT_MBX_CTL_OWNER owner

/-- A deferred command is accepted into its group (R276). -/
def deferStart (g : Nat) (d : Defer) (s : State) : CmdRes :=
  ⟨stDeferred, 0, s.modDefer g (fun _ => { d with state := 1, orphan := false, done := 0 })⟩

/-- The bytes or words of a deferred command's work (R288): the word burned, the image's bytes, the registers' words. -/
def Defer.work (d : Defer) : Nat :=
  if groupOf d.opcode = grpOtp then 1 else if groupOf d.opcode = grpImage then d.len else d.len / 4

/-- A deferred command of a group ends (R276, R290, R305): in the mailbox, as an orphan, or with its descriptor written back and a
completion; one that ends IGNORED is counted. -/
def deferEnd (g status result : Nat) (s : State) : State :=
  let d := s.deferOf g
  if d.state ≠ 1 then s
  else
  let s := if status ≠ stIgnored then s else if d.mbx then s.ignored 0x07 0x2440 else s.ignored 0x02 d.idx
  if d.mbx then mbxDone d.opcode status result (s.modDefer g (fun _ => {}))
  else
    let done := if status = stOk then d.work else d.done
    let c : Cpl := { idx := d.idx, status := status, opcode := d.opcode, tag := d.tag, result := result, irq := d.irq, done := done }
    let o := { c with idx := 0xFFFF, orphan := true, late := true }
    if d.orphan ∧ s.rstate = rsRunning then queueCpl { o with sqHead := s.hubIdx 0 } (s.modDefer g (fun _ => {}))
    else if d.orphan then
      holdOrphan o (s.modDefer g (fun d => { d with state := 3, done := done }))
    else
      let s1 := writeBack d.idx status result d.words (s.modDefer g (fun _ => {}))
      queueCpl { c with late := true, sqHead := s1.hubIdx 0 } s1

/-- An image event of a class. -/
def imgEvt (c bit : Nat) (body : List (Nat × Nat)) (s : State) : State := s.raise (ENG_IMG_EVT_EVT c) bit (0x0B02 + bit) c body

/-- IMAGE_STAGE of a class has completed (R362). -/
def stagedEvt (c status cause : Nat) (s : State) : State := imgEvt c 3 [(2, c), (8, status), (32, cause)] s

/-- A deferred command that needs host memory is ended ABORTED, and its orphan completion held (R265, R287, R290, R362). -/
def deferAbort (g : Nat) (s : State) : State :=
  let d := s.deferOf g
  (holdOrphan { idx := 0xFFFF, status := stAborted, opcode := d.opcode, tag := d.tag, result := 0, irq := d.irq, orphan := true
                late := true }
    (s.modDefer g (fun d => { d with state := 2 }))).when (d.opcode = 0x48) (stagedEvt d.cls stAborted 0)

/-- The rings are taken from the outstanding deferred commands (R265, R287, R290): those still needing host memory end ABORTED,
IMAGE_STAGE while it fetches and REMOTE_RD until it has written; the others go on. -/
def orphanDeferred (s : State) : State :=
  s.each 3 (fun g s =>
    let d := s.deferOf g
    if d.state ≠ 1 || d.mbx then s
    else if d.opcode = 0x48 && !d.fetched then deferAbort g s
    else if d.opcode = 0x52 then deferAbort g (s.modSys (fun x => { x with cmdAcc := none }))
    else s.modDefer g (fun d => { d with orphan := true }))

end Sys2Proof.Machine
end

