-- ==== Sys2Proof/Machine/Remote.lean ====
section
/-! DEFINITION. Sys2Proof/Machine/Remote.lean: remote register access as the requester sees it (R251 to R254, R259). -/

namespace Sys2Proof.Machine

def rmtTimeout : Nat := 8
def rmtPoisoned : Nat := 9
def rmtNotJoined : Nat := 0xA

/-- RMT_DONE (R259). -/
def rmtDone (tag status : Nat) (s : State) : State := sysEvt 8 [(32, tag), (4, status)] s

/-- A request message (R241): offset, N − 1, and for a write the words. -/
def State.request (s : State) (write : Bool) (tag dst off n : Nat) (data : List Word) : List Byte :=
  message (if write then kindWrReq else kindRdReq) tag dst s.hubId
    (natBytes 4 off ++ natBytes 1 (n - 1) ++ (if write then wordsBytes (data.take n) else []))

/-- The command path's access ends (R252, R277). `bad`: the result buffer meets a translation fault. -/
def cmdAccEnd (acc : RmtAcc) (status na : Nat) (data : List Word) (bad : Bool) (s : State) : State :=
  let d := s.deferOf grpRemote
  let s1 := s.modSys (fun x => { x with cmdAcc := none })
  let read := !acc.write && (status = 0 || status = 1)
  let bad := !d.mbx && s.hostFault d.ptr d.len 1 bad
  let s1 := if read && bad then hostDeny d.ptr d.len 1 s1 else s1
  let s2 :=
    if !read || bad then s1
    else if d.mbx then
      s1.each acc.n (fun i s => s.set (MGT_MBX_BUF_DATA (d.ptr / 4 + i)) (data.getD i 0).toNat)
    else if d.orphan then s1 else emitHost d.ptr (wordsBytes (data.take acc.n)) s1
  let s3 := rmtDone acc.tag status s2
  if read && bad then deferEnd grpRemote stFault 0 s3
  else if status = 0 then deferEnd grpRemote stOk 0 s3
  else deferEnd grpRemote stRemoteErr (status + 2 ^ 16 * na) s3

/-- The register path's access ends (R252, R261). -/
def regAccEnd (acc : RmtAcc) (status na : Nat) (data : List Word) (s : State) : State :=
  let s1 := s.modSys (fun x => { x with regAcc := none })
  let s2 := ((s1.set LNK_RMT_STAT_BUSY 0).set LNK_RMT_STAT_RESULT status).set LNK_RMT_STAT_NA_MASK na
  let s3 := s2.when (!acc.write && (status = 0 || status = 1)) (fun s =>
    s.each acc.n (fun i s => s.set (LNK_RMT_DATA_DATA i) (data.getD i 0).toNat))
  rmtDone acc.tag status s3

/-- REMOTE_RD and REMOTE_WR (R251, R278): TAG not 0, the group free; a hub outside the tree ends it NOT_JOINED. -/
def cmdRemote (write : Bool) (d : Defer) (dst off n : Nat) (data : List Word) (s : State) : CmdRes :=
  if d.tag = 0 ∨ s.groupBusy grpRemote ∨ 16 < n ∨ n = 0 ∨ off % 4 ≠ 0 ∨ 2 ^ 20 ≤ off then cmdIgnored s
  else
    let s1 := (deferStart grpRemote { d with opcode := if write then 0x53 else 0x52 } s).s
    let acc : RmtAcc := { tag := d.tag, write := write, n := n, left := s.get LNK_RMT_TMO_TMO }
    if s.inTree then
      ⟨stDeferred, 0, sendTree (s.request write d.tag dst off n data) (s1.modSys (fun x => { x with cmdAcc := some acc }))⟩
    else ⟨stDeferred, 0, cmdAccEnd acc rmtNotJoined 0 [] false s1⟩

/-- The record of a deferred command that comes without a descriptor. -/
def State.bareDefer (s : State) (v : CmdVia) (tag : Nat) : Defer :=
  { tag := tag, idx := s.hubIdx 0, mbx := v ≠ .ring }

/-- GO written to LNK_RMT_CTL (R251, R253, R261): one access on the register path, with a new TAG or, under RETRY, the last. -/
def remoteGo (w : Word) (s : State) : State :=
  let write := wordGet w 1 1 = 1
  let n := wordGet w 4 4 + 1
  let tag := if wordGet w 2 1 = 1 then s.sys.regTag else s.sys.regTag % 65535 + 1
  let acc : RmtAcc := { tag := tag, write := write, n := n, left := s.get LNK_RMT_TMO_TMO }
  let s1 := s.modSys (fun x => { x with regTag := tag, regAcc := some acc })
  if s.inTree then
    let data := (List.range n).map (fun i => s.word ⟨.LNK_RMT_DATA, i, 0, 0⟩)
    sendTree (s.request write tag (s.getWide LNK_RMT_DST_LO_DST LNK_RMT_DST_HI_DST) (4 * s.get LNK_RMT_ADDR_OFFSET) n data)
      (((s1.set LNK_RMT_STAT_BUSY 1).set LNK_RMT_STAT_RESULT 0xF).set LNK_RMT_STAT_NA_MASK 0)
  else regAccEnd acc rmtNotJoined 0 [] s1

/-- REMOTE_RESPONSE_RX (R252, R254): a response on a tree port; `good` says that its CRC32C passes, `fault` that the result buffer
of the command meets a translation fault. One that nothing waits for is discarded. -/
def execRemoteResponseRx (k : Fin 4) (write : Bool) (tag : BitVec 16) (status : Fin 5) (na : BitVec 16) (data : List Word)
    (good fault : Bool) (s : State) : Out :=
  .next <|
    if !s.treePort k then s else
    let hit (a : Option RmtAcc) : Bool := a.any (fun a => a.tag = tag.toNat && a.write = write)
    let st := if good then status.val else rmtPoisoned
    let na' := if good then na.toNat else 0
    if hit s.sys.cmdAcc then
      match s.sys.cmdAcc with | some a => cmdAccEnd a st na' data fault s | none => s
    else if hit s.sys.regAcc then
      match s.sys.regAcc with | some a => regAccEnd a st na' data s | none => s
    else s.bump (LNK_CNT_MSG_DROP k)

/-- REMOTE_TIMEOUT (R252): no response within LNK_RMT_TMO, for the command path or the register path. -/
def execRemoteTimeout (cmd : Bool) (s : State) : Out :=
  .next <|
    if cmd then match s.sys.cmdAcc with | some a => cmdAccEnd a rmtTimeout 0 [] false s | none => s
    else match s.sys.regAcc with | some a => regAccEnd a rmtTimeout 0 [] s | none => s

end Sys2Proof.Machine
end

