-- ==== Sys2Proof/Machine/Otp.lean ====
section
/-! DEFINITION. Sys2Proof/Machine/Otp.lean: the OTP array: its code, its regions, the shadows, burning and locking (R386 to R397,
R409, R410). -/

namespace Sys2Proof.Machine

/-! ### The fuse code (R386) -/

/-- The Hamming positions of the data bits d0 to d31. -/
def dataPos : List Nat := (List.range 39).filter (fun p => p ≠ 0 && p ≠ 1 && p ≠ 2 && p ≠ 4 && p ≠ 8 && p ≠ 16 && p ≠ 32)

/-- The parity of a list of conditions. -/
def xorAll (l : List Bool) : Bool := l.foldl (fun a b => a != b) false

/-- Check bit ci, i from 0 to 5, of data. -/
def hamBit (d i : Nat) : Bool := xorAll (dataPos.zipIdx.map (fun pj => bitOf pj.1 i && bitOf d pj.2))

/-- Check bits c0 to c5 of data as a number. -/
def hamBits (d : Nat) : Nat := maskOf 6 (hamBit d)

/-- The check field of data: c0 to c5 and c6, the parity of all. -/
def otpCheck (d : Nat) : Nat :=
  let h := hamBits d
  h + (if xorAll ((List.range 32).map (bitOf d) ++ (List.range 6).map (bitOf h)) then 64 else 0)

/-- The raw fuses of a burned word: the data, and the check field inverted. -/
def otpRaw (d : Nat) : Nat := d % 2 ^ 32 + 2 ^ 32 * (127 - otpCheck (d % 2 ^ 32))

/-- What a raw word reads as. -/
inductive OtpRead where
  | good (d : Nat)
  | fixed (d : Nat)
  | double
deriving DecidableEq, Repr

/-- A raw word decoded (R386): a blank word reads as data 0. -/
def otpDecode (raw : Nat) : OtpRead :=
  if raw = 0 then .good 0
  else
    let d := raw % 2 ^ 32
    let chk := 127 - raw / 2 ^ 32 % 128
    let s := (chk % 64) ^^^ hamBits d
    let p := xorAll ((List.range 32).map (bitOf d) ++ (List.range 7).map (bitOf chk))
    if s = 0 && !p then .good d
    else if p && s = 0 then .fixed d
    else if p && s ≤ 38 then
      .fixed (match dataPos.zipIdx.find? (fun pj => pj.1 = s) with | some pj => bitPut d pj.2 (!bitOf d pj.2) | none => d)
    else .double

/-- The data of a read, 0 where it is lost. -/
def OtpRead.data : OtpRead → Nat
  | .good d => d
  | .fixed d => d
  | .double => 0

/-! ### The array and its regions (R386 to R389) -/

/-- The lock row. -/
def lockRow : Nat := 512

/-- The three raw reads of a row: normal sense, low margin, high margin. -/
def State.fuse (s : State) (w : Nat) : Nat × Nat × Nat :=
  match s.otp.fuse.find? (fun e => e.1 = w) with
  | some e => e.2
  | none => (0, 0, 0)

/-- A row's fuses change; a row whose fuses all read unburned is not listed. -/
def setFuse (w : Nat) (r : Nat × Nat × Nat) (s : State) : State :=
  let l := s.otp.fuse.filter (fun e => e.1 ≠ w)
  let lo := l.takeWhile (fun e => e.1 < w)
  { s with otp := { s.otp with fuse := if r = (0, 0, 0) then l else lo ++ (w, r) :: l.drop lo.length } }

/-- The region of a word: 0 ID/TRIM, 1 SECURITY, 2 PROFILE, 3 CUSTOMER. -/
def otpRegionOf (w : Nat) : Nat := if w < 32 then 0 else if w < 128 then 1 else if w < 384 then 2 else 3

/-- The first word and the seal of a region. -/
def otpSpan (r : Nat) : Nat × Nat := [(0, 31), (32, 127), (128, 383), (384, 511)].getD r (0, 0)

/-- The words a seal covers. -/
def sealWords (r : Nat) : List Nat :=
  ((List.range ((otpSpan r).2 - (otpSpan r).1)).map (fun i => (otpSpan r).1 + i)).filter (fun w => w < 104 || 109 < w)

def otpBlank : Nat := 0
def otpOpen : Nat := 1
def otpClosed : Nat := 2

/-- The OTP block's internal state changed. -/
def State.modOtp (s : State) (f : OtpInt → OtpInt) : State := { s with otp := f s.otp }

/-- The state of a region as BOOT decided it (R388). -/
def State.otpState (s : State) (r : Nat) : Nat := wordGet (s.word ⟨.OTP_REGION, 0, 0, 0⟩) (2 * r) 2

/-- A region is locked. -/
def State.otpLocked (s : State) (r : Nat) : Bool := s.bit OTP_REGION_LOCKED r

/-- The CRC of a region's words at a margin: 0 normal, 1 low, 2 high. -/
def State.otpCrc (s : State) (r m : Nat) : Nat :=
  let read (w : Nat) : Nat := let f := s.fuse w; if m = 0 then f.1 else if m = 1 then f.2.1 else f.2.2
  (crcWords ((sealWords r).map (fun w => BitVec.ofNat 32 (otpDecode (read w)).data))).toNat

/-- The override bit of a word (R392). -/
def State.otpOver (s : State) (w : Nat) : Bool := s.bit (OTP_OVR_OVR (w / 32)) (w % 32)

/-- A word as the hub uses it (R388, R392): its shadow, where its region is CLOSED or the word overridden; else blank. -/
def State.otpWord (s : State) (w : Nat) : Nat :=
  if s.otpState (otpRegionOf w) = otpClosed || s.otpOver w then s.get (OTP_SH_VALUE w) else 0

/-- OTP_REGION.OVERRIDDEN follows the override bits. -/
def showOver (s : State) : State :=
  s.set OTP_REGION_OVERRIDDEN (maskOf 4 (fun r => (List.range 512).any (fun w => otpRegionOf w = r && s.otpOver w)))

/-! ### Writers and shadows (R392 to R394, R410) -/

/-- Who writes the OTP block: HOST (false), ENG0 (true) or nobody allowed. -/
def otpWriter : Path → Option Bool
  | .host => some false
  | .pmb => some false
  | .i3c => some false
  | .jtag => some false
  | .eng e => if e = 0 then some true else none
  | _ => none

/-- A shadow may be set (R392): outside ID/TRIM and SECURITY, its region not locked, not in BOOT or HELD. -/
def State.shadowOk (s : State) (w : Nat) : Bool := 128 ≤ w && w < 512 && !s.otpLocked (otpRegionOf w) && s.active

/-- A shadow word and its override bit are set. -/
def setShadow (w v : Nat) (s : State) : State :=
  showOver ((s.set (OTP_SH_VALUE w) v).setBit (OTP_OVR_OVR (w / 32)) (w % 32) true)

/-- OTP_SHADOW (R392). -/
def cmdOtpShadow (w v : Nat) (s : State) : CmdRes := if s.shadowOk w then cmdOk (setShadow w v s) else cmdIgnored s

/-- Every shadow is loaded from its word's normal read, but for overridden ones (R392); with them, which words are burned (R389). -/
def loadShadows (s : State) : State :=
  let s1 := s.modOtp (fun o => { o with burnt := maskOf 512 (fun w => s.fuse w ≠ (0, 0, 0)) })
  s1.each 512 (fun w s => if s.otpOver w then s else s.set (OTP_SH_VALUE w) (otpDecode (s.fuse w).1).data)

/-- SHCLR (R393): every override cleared, every shadow reloaded. -/
def clearShadows (s : State) : State := showOver (loadShadows (s.each 16 (fun j s => s.set (OTP_OVR_OVR j) 0)))

/-! ### Burning and locking (R394 to R397) -/

/-- What every burn and lock needs (R394): armed by the same writer, none in progress, RUN, VIN present. -/
def State.burnReady (s : State) (who : Bool) : Bool :=
  s.otp.arm = some who && s.otp.burn.isNone && s.otp.margin.isNone && s.pkg = pkgRun && !s.on HUP_STAT_ON_STORE

/-- A word reads the same at both margins. -/
def State.marginSame (s : State) (w : Nat) : Bool := (s.fuse w).2.1 = (s.fuse w).2.2

/-- A revocation word: it lies outside the seal and the lock, so a key can be revoked in a locked region (R389). -/
def revocation (w : Nat) : Bool := 104 ≤ w && w ≤ 109

/-- A burn is accepted (R389, R394, R395). -/
def State.burnOk (s : State) (who : Bool) (w v : Nat) : Bool :=
  let r := otpRegionOf w
  s.burnReady who && w < 512 && s.fuse w = (0, 0, 0) && (revocation w || (s.otpState r ≠ otpClosed && !s.otpLocked r)) &&
    (w ≠ (otpSpan r).2 || ((sealWords r).all s.marginSame && v = s.otpCrc r 1))

/-- A burn begins. -/
def burnStart (w v : Nat) (cmd : Bool) (s : State) : State :=
  ((s.modOtp (fun o => { o with arm := none, burn := some { word := w, value := v, cmd := cmd } })).set OTP_STAT_BUSY 1).set
    OTP_STAT_ARMED 0

/-- A lock is accepted (R396): the region CLOSED and not locked. -/
def State.lockOk (s : State) (who : Bool) (r : Nat) : Bool := s.burnReady who && s.otpState r = otpClosed && !s.otpLocked r

/-- The margin reads of a lock begin; `src` is who asked for it, as GLB_IGNORED_LAST names sources. -/
def lockStart (r : Nat) (cmd : Bool) (src : Nat) (s : State) : State :=
  ((s.modOtp (fun o => { o with arm := none, margin := some (r, cmd, src) })).set OTP_STAT_BUSY 1).set OTP_STAT_ARMED 0

/-- OTP_BURN (R394): it sets both registers from its arguments. -/
def cmdOtpBurn (d : Defer) (w v : Nat) (s : State) : CmdRes :=
  if s.groupBusy grpOtp || !s.burnOk false w v then cmdIgnored s
  else deferStart grpOtp { d with opcode := 0x41 } (burnStart w v true ((s.set OTP_BURN_ADDR_WORD w).set OTP_BURN_DATA_VALUE v))

/-- COMMIT_LOCK (R396). -/
def cmdCommitLock (d : Defer) (r : Nat) (s : State) : CmdRes :=
  if s.groupBusy grpOtp || !s.lockOk false r then cmdIgnored s
  else deferStart grpOtp { d with opcode := 0x42 } (lockStart r true 2 s)

/-- The fuses a job burns, and whether a read of them shows it done. -/
def BurnJob.met (j : BurnJob) (raw : Nat) : Bool := if j.word = lockRow then raw % 16 = j.value else raw = otpRaw j.value

/-- A burn or a lock ends (R394, R396, R409). -/
def burnEnd (j : BurnJob) (ok : Bool) (lo hi : Nat) (s : State) : State :=
  let s1 := ((s.modOtp (fun o => { o with burn := none })).set OTP_STAT_BUSY 0).set OTP_STAT_RESULT (if ok then 1 else 3)
  let s2 := match j.region with
    | some r =>
      if ok then (s1.setBit OTP_REGION_LOCKED r true).pushEvt 0x0D02 0 (packBody [(2, r)])
      else s1.pushEvt 0x0D01 0 (packBody [(10, lockRow), (32, lo), (32, hi)])
    | none =>
      let s2 := ((s1.set OTP_STAT_LAST_WORD j.word).set OTP_STAT_PULSES j.pulses).bump OTP_CNT_BURN_CNT
      if ok then s2.pushEvt 0x0D00 0 (packBody [(9, j.word), (3, j.pulses)])
      else s2.pushEvt 0x0D01 0 (packBody [(9, j.word), (32, lo), (32, hi)])
  if j.cmd then deferEnd grpOtp (if ok then stOk else stPoisoned) (if j.region.isSome then 0 else j.pulses) s2 else s2

/-- A pulse of the burn in progress has ended; the row is read at normal sense and at both margins (R394). -/
def burnPulse (n lo hi : Nat) (s : State) : State :=
  match s.otp.burn with
  | none => s
  | some j =>
    let j' := { j with pulses := j.pulses + 1 }
    let s1 := (setFuse j.word (n, lo, hi) s).modOtp (fun o => { o with burn := some j' })
    if j.met lo && j.met hi then burnEnd j' true lo hi s1
    else if j'.pulses = 4 then burnEnd j' false lo hi s1
    else s1

/-- LOCK_MARGIN_READ_DONE (R396): both CRCs equal the seal and the lock bit burns, or the request is ignored. -/
def execLockMarginReadDone (s : State) : Out :=
  .next <|
    match s.otp.margin with
    | none => s
    | some (r, cmd, src) =>
      let s1 := s.modOtp (fun o => { o with margin := none })
      let sealWord := (otpSpan r).2
      let sealAt (m : Nat) : Nat := (otpDecode (if m = 1 then (s.fuse sealWord).2.1 else (s.fuse sealWord).2.2)).data
      if s.otpCrc r 1 = sealAt 1 && s.otpCrc r 2 = sealAt 2 then
        let bits := bitPut ((s.fuse lockRow).1 % 16) r true
        s1.modOtp (fun o => { o with burn := some { word := lockRow, value := bits, region := some r, cmd := cmd } })
      else
        let s2 := (s1.set OTP_STAT_BUSY 0).set OTP_STAT_RESULT 2
        if cmd then deferEnd grpOtp stIgnored 0 s2 else s2.ignored src 0x600C

/-! ### Write rules of the OTP registers (R410) -/

/-- The rules a write of an OTP register must satisfy. -/
def otpRule (p : Path) (r : Reg) (new : Word) (s : State) : Bool :=
  match otpWriter p with
  | none => false
  | some who =>
    s.active &&
      match r.name with
      | .OTP_ARM => wordGet new 0 24 = 0x00F05E
      | .OTP_SH => s.shadowOk r.i
      | .OTP_CMD =>
        !(wordGet new 0 1 = 1 && wordGet new 1 1 = 1) &&
          (wordGet new 0 1 = 0 || s.burnOk who (s.get OTP_BURN_ADDR_WORD) (s.get OTP_BURN_DATA_VALUE)) &&
          (wordGet new 1 1 = 0 || s.lockOk who (wordGet new 2 2))
      | _ => true

/-- What an applied write of an OTP register sets off. -/
def otpAfter (p : Path) (r : Reg) (new : Word) (s : State) : State :=
  match r.name with
  | .OTP_ARM => (s.modOtp (fun o => { o with arm := otpWriter p })).set OTP_STAT_ARMED 1
  | .OTP_SH => showOver (s.setBit (OTP_OVR_OVR (r.i / 32)) (r.i % 32) true)
  | .OTP_OVR => showOver s
  | .OTP_CMD =>
    let s1 := if wordGet new 4 1 = 1 then clearShadows s else s
    if wordGet new 0 1 = 1 then burnStart (s.get OTP_BURN_ADDR_WORD) (s.get OTP_BURN_DATA_VALUE) false s1
    else if wordGet new 1 1 = 1 then lockStart (wordGet new 2 2) false (Path.source p) s1
    else s1
  | _ => s

end Sys2Proof.Machine
end

