-- ==== Sys2Proof/Machine/Engine.lean ====
section
/-! DEFINITION. Sys2Proof/Machine/Engine.lean: the engines and their images: halts and resets, the store's records, validity,
compatibility, staging, committing and rolling back (chapter 13). -/

namespace Sys2Proof.Machine

/-! ### Engines (R346 to R350) -/

def engRunning : Nat := 0
def engHalted : Nat := 1
def engInReset : Nat := 2

/-- The class of an engine: 0 C, 1 T, 2 P; and the class of the hardware in a recorded pair. -/
def classOf (e : Nat) : Nat := e / 4
def classHw : Nat := 3

/-- The engines of a class. -/
def classEngines (c : Nat) : List Nat := [4 * c, 4 * c + 1, 4 * c + 2, 4 * c + 3]

def whyNone : Nat := 0
def whyMode : Nat := 1
def whyNoSelector : Nat := 2
def whyHeader : Nat := 3
def whyKey : Nat := 4
def whyRefused : Nat := 5
def whyPoisoned : Nat := 6

/-- A running engine halts (R349): cause 1 and 2 a double-bit error in instruction or data memory, 3 a fatal exception, 4 its halt
instruction; the address is one of instruction memory but for cause 2. -/
def haltEngine (e cause addr : Nat) (s : State) : State :=
  if s.get (ENG_STAT_STATE e) = engRunning ∧ 1 ≤ cause ∧ cause ≤ 4 then
    let a := addr / 4 * 4
    let s1 := ((s.set (ENG_STAT_STATE e) engHalted).set (ENG_STAT_HALT_CAUSE e) cause).set (ENG_HALT_ADDR_ADDR e) a
    let m := if cause = 2 then 1 else 0
    (s1.set (ENG_HALT_ADDR_MEM e) m).pushEvt 0x0B00 e (packBody [(32, e), (3, cause), (17, a), (1, m)])
  else s

/-- ENG_HALT (R349): a double-bit error also raises POISONED (R38, R42). -/
def execEngHalt (e : Fin 12) (cause : BitVec 3) (addr : BitVec 17) (s : State) : Out :=
  .next <|
    let s1 := haltEngine e cause.toNat addr.toNat s
    if s.get (ENG_STAT_STATE e) = engRunning ∧ (cause = 1 ∨ cause = 2) then
      poisoned (dieOfEngine e) (if cause = 1 then memInstr else memData) (addr.toNat / 4) s1
    else s1

/-! ### The flash and the image store (R306, R307, R352 to R354) -/

/-- The program and erase opcodes, the erase sizes, and the opcodes of R306. -/
def spiProgram (op : Nat) : Bool := [0x02, 0x32, 0x12, 0x34].contains op
def spiErase (op : Nat) : Option Nat :=
  if op = 0x20 ∨ op = 0x21 then some 0x1000 else if op = 0xD8 ∨ op = 0xDC then some 0x10000 else none
def spiRead (op : Nat) : Bool := [0x03, 0x0B, 0x6B, 0x13, 0x0C, 0x6C].contains op
def spiListed (op : Nat) : Bool :=
  spiProgram op || (spiErase op).isSome || spiRead op || [0x05, 0x06, 0x9F].contains op

/-- The address the master sends: 32 bits with ADDR4 = 1, of which the largest flash uses 28, and 24 bits without, which reach the first
16 MiB (R306; log entry 160: DEDUCED). -/
def State.spiAddr (s : State) (a : Nat) : Nat := if s.on MGT_SPI_CFG_ADDR4 then a % 2 ^ 28 else a % 2 ^ 24

/-- A byte of the flash: an erased byte reads 0xFF, and one of a torn range is free (R407). -/
def State.storeByte (s : State) (a : Nat) : Byte :=
  match s.torn.find? (fun t => t.1 ≤ a && a < t.1 + t.2.1) with
  | some t => Config.tornByte t.2.2 a
  | none => memGet 0xFF s.flash a

/-- Bytes of the flash. -/
def State.storeBytes (s : State) (a n : Nat) : List Byte :=
  if s.torn.isEmpty then memGetAll 0xFF s.flash a n else (List.range n).map (fun i => s.storeByte (a + i))

/-- What an erase of `n` bytes from `a` leaves of a torn range. -/
def tornLeft (a n : Nat) (t : Nat × Nat × Nat) : List (Nat × Nat × Nat) :=
  let e := t.1 + t.2.1
  (if t.1 < a then [(t.1, min t.2.1 (a - t.1), t.2.2)] else []) ++
    (if a + n < e then [(max t.1 (a + n), e - max t.1 (a + n), t.2.2)] else [])

/-- A range of the flash is erased. -/
def flashErase (a n : Nat) (s : State) : State :=
  { s with flash := s.flash.filter (fun e => e.1 < a || a + n ≤ e.1), torn := s.torn.flatMap (tornLeft a n) }

/-- Bytes are programmed: programming clears bits (PRESUMED of the flash; log entry 24). -/
def flashProgram (a : Nat) (b : List Byte) (s : State) : State :=
  { s with flash := memPutAll 0xFF s.flash a (b.zipIdx.map (fun bi => bi.1 &&& memGet 0xFF s.flash (a + bi.2))) }

/-- The words of a selector record at a sector, where it is valid (R354). -/
def State.selRecord (s : State) (a : Nat) : Option (List Word) :=
  let w := bytesWords (s.storeBytes a 64)
  if w.getD 0 0 = 0x534C4352 ∧ ((w.drop 8).take 7).all (· = 0) ∧ crcWords (w.take 15) = w.getD 15 0 then some w else none

/-- SEQ a is newer than SEQ b (R354). -/
def seqNewer (a b : Nat) : Bool := let d := (a + 2 ^ 32 - b) % 2 ^ 32; 1 ≤ d && d ≤ 2 ^ 31 - 1

/-- The record in force and its sector (R354). -/
def State.selector (s : State) : Option (Nat × List Word) :=
  match s.selRecord 0x1000, s.selRecord 0x2000 with
  | some a, some b => if seqNewer (b.getD 1 0).toNat (a.getD 1 0).toNat then some (0x2000, b) else some (0x1000, a)
  | some a, none => some (0x1000, a)
  | none, some b => some (0x2000, b)
  | none, none => none

/-- The class word and COMMIT_SEQ of a class in a record. -/
def selActive (w : List Word) (c : Nat) : Nat := wordGet (w.getD (2 + c) 0) 0 1
def selTrial (w : List Word) (c : Nat) : Bool := wordGet (w.getD (2 + c) 0) 1 1 = 1
def selCommit (w : List Word) (c : Nat) : Nat := (w.getD (5 + c) 0).toNat

/-- The record not in force is erased and rewritten with SEQ one newer (R354): the class word of `c`, and its COMMIT_SEQ where the
slot changes. -/
def writeSelector (c slot : Nat) (trial commit : Bool) (s : State) : State :=
  let (a, w) := s.selector.getD (0x2000, List.replicate 16 0)
  let seq := (w.getD 1 0).toNat + 1
  let w1 := ((w.set 0 0x534C4352).set 1 (BitVec.ofNat 32 seq)).set (2 + c) (BitVec.ofNat 32 (slot + if trial then 2 else 0))
  let w2 := if commit then w1.set (5 + c) (BitVec.ofNat 32 seq) else w1
  let w3 := w2.set 15 (crcWords (w2.take 15))
  let other := if a = 0x1000 then 0x2000 else 0x1000
  let s1 := flashProgram other (wordsBytes w3) (flashErase other 4096 s)
  s1.each 3 (fun i s => s.set (ENG_SEL_SEQ i) seq)

/-- The first byte of a slot (R307). -/
def slotBase (c slot : Nat) : Nat := 0x100000 + (2 * c + slot) * 0x100000

/-- A section entry of a header is well formed (R352). -/
def sectionForm (h : List Byte) (i : Nat) : Bool :=
  let w0 := wordAt h (0x40 + 16 * i)
  let w1 := wordAt h (0x44 + 16 * i)
  w0.toNat ≤ 131072 && w1.toNat ≤ 65536 && wordGet w0 0 2 = 0 && wordGet w1 0 2 = 0

/-- A header is well formed for a class (R352, R353 check 1). -/
def headerOk (c : Nat) (h : List Byte) : Bool :=
  let form := wordAt h 4
  let zero (a b : Nat) : Bool := (bytesAt h a (b - a)).all (· = 0)
  wordAt h 0 = 0x494D475A && wordGet form 0 16 = 1 && wordGet form 16 2 = c && wordGet form 18 14 = 0 &&
    wordAt h 8 ≠ 0 && 1 ≤ wordGet (wordAt h 12) 0 16 && (wordAt h 12).toNat ≤ 32 && wordAt h (0x14 + 4 * c) = 0 &&
    16 ≤ (wordAt h 0x20).toNat && (wordAt h 0x20).toNat ≤ 1048064 && zero 0x24 0x40 && zero 0x140 0x1FC &&
    (List.range 4).all (sectionForm h) && crc32c (h.take 0x1FC) = wordAt h 0x1FC

/-- The key hash slots of a class that hold a hash and are not revoked (R353, R389), by the shadows as BOOT loaded them and what it found
burned, never by the fuses (R392). -/
def State.keyTrusted (s : State) (c hash : Nat) : Bool :=
  [2 * c, 2 * c + 1].any (fun k =>
    let ws := (List.range 12).map (fun i => 32 + 12 * k + i)
    s.otpState 1 = otpClosed && ws.any (bitOf s.otp.burnt) && !bitOf s.otp.burnt (104 + k) &&
      beNat (wordsBytes (ws.map (fun w => BitVec.ofNat 32 (s.otpWord w)))) = hash)

/-- The image in a slot, checks 1 to 3 of R353: its data, or the failed check: 1 header or CRC, 2 key, 3 signature. -/
def State.checkImage (s : State) (c slot : Nat) : Except Nat ImgInfo :=
  let a := slotBase c slot
  let h := s.storeBytes a 512
  if !headerOk c h then .error 1
  else
    let key := bytesAt h 0x80 96
    if !s.keyTrusted c (Config.sha384 key) then .error 2
    else
      let digest := Config.sha384 (h.take 0xE0 ++ s.storeBytes (a + 512) (wordAt h 0x20).toNat)
      if !Config.ecdsaP384 (beNat key) digest (beNat (bytesAt h 0xE0 96)) then .error 3
      else .ok { slot := slot, version := (wordAt h 8).toNat, abi := wordGet (wordAt h 12) 0 16, featLo := wordGet (wordAt h 16) 0 16
                 featHi := wordGet (wordAt h 16) 16 16
                 compat := [(wordAt h 0x14).toNat, (wordAt h 0x18).toNat, (wordAt h 0x1C).toNat] }

/-- An engine's section in a slot: its instruction and data bytes, its first byte in the flash, and its entry point (R352). -/
structure Section where
  text : Nat
  data : Nat
  at_ : Nat
  entry : Nat

/-- The section a header names for an engine. -/
def State.sectionOf (s : State) (e slot : Nat) : Section :=
  let a := slotBase (classOf e) slot
  let w (j : Nat) : Nat := (wordAt (s.storeBytes a 512) (0x40 + 16 * (e % 4) + 4 * j)).toNat
  { text := w 0, data := w 1, at_ := a + 512 + w 2, entry := w 3 }

/-- The section of an engine in a slot is well formed and passes its CRC32C (R352, R353 check 4). -/
def State.sectionGood (s : State) (e slot : Nat) : Bool :=
  let x := s.sectionOf e slot
  let n := x.text + x.data
  sectionForm (s.storeBytes (slotBase (classOf e) slot) 512) (e % 4) &&
    crc32c (s.storeBytes x.at_ n) = wordAt (s.storeBytes (x.at_ + n) 4) 0

/-! ### The compatibility decision (R355, R356) -/

/-- An image's FEATGEN range contains the hardware's. -/
def ImgInfo.fits (i : ImgInfo) (s : State) : Bool := i.featLo ≤ s.get GLB_FEATGEN_FEATGEN && s.get GLB_FEATGEN_FEATGEN ≤ i.featHi

/-- Two images name each other's ABI generation. -/
def compatible (cx : Nat) (x : ImgInfo) (cy : Nat) (y : ImgInfo) : Bool :=
  bitOf (x.compat.getD cy 0) (y.abi - 1) && bitOf (y.compat.getD cx 0) (x.abi - 1)

/-- A refusal: the class, and the pair recorded. -/
structure Refused where
  cls : Nat
  a : Nat
  b : Nat
deriving DecidableEq, Repr

/-- The pair of running images that a class breaks, in the order of the classes. -/
def brokenPair (l : List (Option ImgInfo)) : Option (Nat × Nat) :=
  [(0, 1), (0, 2), (1, 2)].find? (fun p =>
    match l.getD p.1 none, l.getD p.2 none with
    | some x, some y => !compatible p.1 x p.2 y
    | _, _ => false)

/-- One row of the table of R355 applied to the images of all classes. -/
def decideOnce (s : State) (l : List (Option ImgInfo)) : Option Refused :=
  match (List.range 3).find? (fun c => (l.getD c none).any (fun i => !i.fits s)) with
  | some c => some ⟨c, c, classHw⟩
  | none =>
    match brokenPair l with
    | none => none
    | some (x, y) =>
      let sx := ((l.getD x none).map (·.commit)).getD 0
      let sy := ((l.getD y none).map (·.commit)).getD 0
      some ⟨if seqNewer sx sy then x else y, x, y⟩

/-- The decision at BOOT (R355): rows until none applies; the images that run and the refusals in order. -/
def decideAll (s : State) : Nat → List (Option ImgInfo) → List (Option ImgInfo) × List Refused
  | 0, l => (l, [])
  | n + 1, l =>
    match decideOnce s l with
    | none => (l, [])
    | some r => let x := decideAll s n (l.set r.cls none); (x.1, r :: x.2)

/-- The decision for one class against the others as they run: 0 it runs, 4 FEATGEN, 5 compatibility (R355, R357). -/
def decideClass (s : State) (c : Nat) (i : ImgInfo) : Nat × Option Refused :=
  if !i.fits s then (4, some ⟨c, c, classHw⟩)
  else
    match (List.range 3).find? (fun d => d ≠ c && (bankGet s.img d).any (fun j => !compatible c i d j)) with
    | some d => (5, some ⟨c, min c d, max c d⟩)
    | none => (0, none)

/-- MIXED and ENG_MIX after a decision (R356). -/
def recordMixed (first : Option Refused) (s : State) : State :=
  match first with
  | some r => (((s.set GLB_STATE_MIXED 1).set ENG_MIX_CLASS_A r.a).set ENG_MIX_CLASS_B r.b).set ENG_MIX_VALID 1
  | none => (s.set GLB_STATE_MIXED 0).set ENG_MIX_VALID 0

/-! ### Running images (R350, R353, R362) -/

/-- The engine starts on the Bisque image: ENG0's prints its boot log on the UART (R309, R351; log entry 163). -/
def startBisque (e : Nat) (s : State) : State :=
  let s1 := (s.set (ENG_STAT_STATE e) engRunning).set (ENG_STAT_BISQUE e) 1
  s1.when (e = 0) (fun s => s.emit (.bootLog (s.get MGT_CFG_BAUD)))

/-- An engine runs the Bisque image, and why (R351, R362). -/
def runBisque (e why : Nat) (s : State) : State :=
  let s1 := (startBisque e s).set (ENG_STAT_BISQUE_WHY e) why
  if why = whyRefused then s1 else imgEvt (classOf e) 2 [(32, e), (3, why)] s1

/-- An engine's memories take its section, and it starts at the section's entry point (R350). -/
def runSection (e slot : Nat) (s : State) : State :=
  let x := s.sectionOf e slot
  let s1 := engLoad e (s.storeBytes x.at_ x.text) (s.storeBytes (x.at_ + x.text) x.data) x.entry s
  ((s1.set (ENG_STAT_STATE e) engRunning).set (ENG_STAT_BISQUE e) 0).set (ENG_STAT_BISQUE_WHY e) whyNone

/-- An engine starts on its section once its load copy has passed the handover of R39; a double-bit error met during the load poisons the
copy, and that engine runs the Bisque image (R361). -/
def startSection (e slot : Nat) (s : State) : State :=
  if bitOf s.pkg_.loadBad e then runBisque e whyPoisoned (poisoned (dieOfEngine e) memInstr 0 s)
  else if s.sectionGood e slot then runSection e slot s
  else runBisque e whyPoisoned s

/-- The engines whose load copy a double-bit error has poisoned (R39, R361). -/
def markLoads (n : Nat) (s : State) : State := { s with pkg_ := { s.pkg_ with loadBad := n } }

/-- A row runs with the engines given whose load copy meets a double-bit error, in a load that the row sets off
(log entry 162: DESIGN CHOICE). -/
def withLoads (bad : Nat) (f : State → State) (s : State) : State :=
  let old := s.pkg_.loadBad
  markLoads old (f (markLoads (old ||| bad) s))

/-- The class is being loaded by an IMAGE_COMMIT (R361). -/
def State.classLoading (s : State) (c : Nat) : Bool :=
  let d := s.deferOf grpImage
  d.state = 1 && d.loading && d.cls = c

/-- An engine is held for a load or by STANDBY: until its release the frames of its slots are suspended (R350, R405, R416). -/
def State.engSuspended (s : State) (e : Nat) : Bool := bitOf s.pkg_.stbyEng e || s.classLoading (classOf e)

/-- The frames of an engine's slots start anew, at the first tick after its release (R405). -/
def restartFrames (e : Nat) (s : State) : State :=
  s.each 16 (fun i s => if s.get (WDG_SLOT_OWNER i) = e then { s with wdg := bankMod s.wdg i (fun _ => {}) } else s)

/-- What a class runs after a load: an image, or the Bisque image and why. -/
inductive ClassRun where
  | image (i : ImgInfo)
  | bisque (why : Nat)

/-- The class's BISQUE bit: every engine of it runs the Bisque image, and no version or ABI runs (R364). -/
def showBisque (c : Nat) (s : State) : State :=
  if (classEngines c).all (fun e => s.on (ENG_STAT_BISQUE e)) then
    (({ s with img := s.img.setIfInBounds c none }.set (ENG_IMG_STAT_BISQUE c) 1).set (ENG_IMG_VER_VERSION c) 0).set (ENG_IMG_ABI_ABI c) 0
  else s.set (ENG_IMG_STAT_BISQUE c) 0

/-- A class is released, the frames of its engines' slots starting anew (R353, R358, R361, R362, R405). -/
def releaseClass (c slot : Nat) (run : ClassRun) (s : State) : State :=
  let s := (classEngines c).foldl (fun s e => restartFrames e s) (s.set (ENG_IMG_STAT_ACTIVE c) slot)
  match run with
  | .image i =>
    let s1 := { s with img := s.img.setIfInBounds c (some i) }
    let s2 := ((s1.set (ENG_IMG_STAT_REFUSED c) 0).set (ENG_IMG_VER_VERSION c) i.version).set (ENG_IMG_ABI_ABI c) i.abi
    let s3 := showBisque c ((classEngines c).foldl (fun s e => startSection e slot s) s2)
    s3.when (!s3.on (ENG_IMG_STAT_BISQUE c)) (imgEvt c 0 [(2, c), (1, slot), (32, i.version)])
  | .bisque why =>
    showBisque c ((classEngines c).foldl (fun s e => runBisque e why s) (s.put (ENG_IMG_STAT_REFUSED c) (why = whyRefused)))

/-- A class as the store holds it: valid with its sections, or why it is not (R353). -/
def State.loadable (s : State) (c slot : Nat) : Except Nat ImgInfo :=
  match s.checkImage c slot with
  | .ok i => if (classEngines c).all (fun e => s.sectionGood e slot) then .ok i else .error whyHeader
  | .error 1 => .error whyHeader
  | .error _ => .error whyKey

/-- The engines of a class are held for a load under R350: their channels halt and ENG_CTL returns to its reset value. -/
def holdClass (c : Nat) (s : State) : State :=
  (classEngines c).foldl
    (fun s e => restartFrames e (haltEngineChannels e ((s.set (ENG_STAT_STATE e) engInReset).set (ENG_CTL_HOLD e) 0))) s

/-- A class is held, loaded from a slot, judged against the others and released (R355, R358). -/
def loadClass (c slot commit : Nat) (s : State) : State :=
  let s1 := holdClass c s
  match s1.loadable c slot with
  | .error why => recordMixed none (releaseClass c slot (.bisque why) s1)
  | .ok i =>
    let i := { i with commit := commit }
    match (decideClass s1 c i).2 with
    | some r => imgEvt c 1 [(2, c), (2, r.a), (2, r.b)] (recordMixed (some r) (releaseClass c slot (.bisque whyRefused) s1))
    | none => recordMixed none (releaseClass c slot (.image i) s1)

/-- TRIES of a class, in the Kiln and mirrored (R360). -/
def setTries (c n : Nat) (s : State) : State :=
  let k := s.get KLN_SLOT_TRIES
  (s.set KLN_SLOT_TRIES (k / 4 ^ (c + 1) * 4 ^ (c + 1) + n % 4 * 4 ^ c + k % 4 ^ c)).set (ENG_IMG_STAT_TRIES c) n

/-- TRIES of a class. -/
def State.tries (s : State) (c : Nat) : Nat := s.get KLN_SLOT_TRIES / 4 ^ c % 4

/-- The selector returns to the other slot and TRIES clears (R360 steps 1 and 2). -/
def rollbackRecord (c : Nat) (s : State) : State :=
  match s.selector with
  | none => s
  | some (_, w) => (setTries c 0 (writeSelector c (1 - selActive w c) false true s)).set (ENG_IMG_STAT_TRIAL c) 0

/-- IMAGE_ROLLBACK, raised once the class has been loaded from its previous slot (R360 step 4). -/
def rollbackEvt (c slot : Nat) (s : State) : State := imgEvt c 6 [(2, c), (1, slot), (32, s.get (ENG_SEL_SEQ c))] s

/-- An engine reset (R350): `who` wrote it, 0 the watchdog. -/
def engineReset (who e : Nat) (s : State) : State :=
  let c := classOf e
  let s1 := restartFrames e ((haltEngineChannels e s).set (ENG_CTL_HOLD e) 0)
  let s2 := match (if s1.on (ENG_STAT_BISQUE e) then none else bankGet s1.img c) with
    | some i => showBisque c (startSection e i.slot s1)
    | none => startBisque e s1
  s2.pushEvt 0x0B01 e (packBody [(32, e), (8, who)])

/-- A watchdog engine reset (R360, R405): counted while its class is in TRIAL; the third rolls the class back. -/
def engineWatchdog (e : Nat) (s : State) : State :=
  let c := classOf e
  if s.classLoading c then s
  else if s.on (ENG_IMG_STAT_TRIAL c) then
    if s.tries c + 1 < 3 then engineReset 0 e (setTries c (s.tries c + 1) s)
    else
      let s1 := rollbackRecord c s
      match s1.selector with
      | some (_, w) =>
        (rollbackEvt c (selActive w c) (loadClass c (selActive w c) (selCommit w c) s1)).pushEvt 0x0B01 e (packBody [(32, e), (8, 0)])
      | none => s1
  else engineReset 0 e s

/-- HOLD written (R350, R363): a running engine goes into reset, and from there it is released unless a load or STANDBY holds it too. A
halted engine stays halted until an engine reset (R349; log entry 159: DESIGN CHOICE). -/
def engineHold (e : Nat) (hold : Bool) (s : State) : State :=
  if hold then (if s.get (ENG_STAT_STATE e) = engRunning then s.set (ENG_STAT_STATE e) engInReset else s)
  else if s.get (ENG_STAT_STATE e) = engInReset ∧ !s.engSuspended e then s.set (ENG_STAT_STATE e) engRunning
  else s

/-! ### Staging and committing (R357 to R359) -/

/-- IMAGE_STAGE (R357); one that completes at once raises IMAGE_STAGED as well (R362; log entry 164: DEDUCED). -/
def cmdImageStage (d : Defer) (c ptr len : Nat) (s : State) : CmdRes :=
  if 3 ≤ c then cmdIgnored s
  else if s.groupBusy grpImage ∨ (d.mbx ∧ len ≠ 0 ∧ ptr < 0x700000) then cmdIgnored (stagedEvt c stIgnored 0 s)
  else if len = 0 then ⟨stEmpty, 0, stagedEvt c stEmpty 0 s⟩
  else if 2 ^ 20 < len ∨ s.on (ENG_IMG_STAT_TRIAL c) then cmdIgnored (stagedEvt c stIgnored 0 s)
  else
    let s1 := { s with stg := s.stg.setIfInBounds c none }
    deferStart grpImage { d with opcode := 0x48, cls := c, ptr := ptr, len := len }
      ((s1.set (ENG_IMG_STAT_STAGED c) 0).set (ENG_STG_VER_VERSION c) 0)

/-- The slot not in use, erased and programmed with `bytes` (R357). -/
def slotProgrammed (c : Nat) (bytes : List Byte) (s : State) : State :=
  let a := slotBase c (1 - s.get (ENG_IMG_STAT_ACTIVE c))
  flashProgram a bytes (flashErase a 0x100000 s)

/-- A stage ends with a status and a cause (R357, R362). -/
def stageEnd (c status cause : Nat) (s : State) : State :=
  deferEnd grpImage status cause (stagedEvt c status cause s)

/-- IMAGE_STAGED (R357): the image is in the slot not in use and has been checked. `data` is what host memory gave, `fault` a
translation fault on it, `flashBad` a slot that does not read back as programmed. With `part`, the data has been fetched and the rest of the
stage is still to come (R290, R361; log entry 133). -/
def execImageStaged (data : List Byte) (fault flashBad part : Bool) (s : State) : Out :=
  .next <|
    let d := s.deferOf grpImage
    if d.state ≠ 1 ∨ d.opcode ≠ 0x48 then s else
    let c := d.cls
    if !d.mbx && !d.fetched && s.hostFault d.ptr d.len 2 fault then stageEnd c stFault 0 (hostDeny d.ptr d.len 2 s) else
    let bytes := if d.fetched then d.data else if d.mbx then s.storeBytes (s.spiAddr d.ptr) d.len else bytesAt data 0 d.len
    if part then s.modDefer grpImage (fun d => { d with fetched := true, data := bytes, done := d.len }) else
    let slot := 1 - s.get (ENG_IMG_STAT_ACTIVE c)
    if flashBad then stageEnd c stPoisoned 6 (flashErase (slotBase c slot) 0x100000 s) else
    let s2 := slotProgrammed c bytes s
    match s2.checkImage c slot with
    | .error why => stageEnd c stPoisoned why s2
    | .ok i =>
      if (decideClass s2 c i).1 ≠ 0 then stageEnd c stPoisoned (decideClass s2 c i).1 s2
      else
        let s3 := { s2 with stg := s2.stg.setIfInBounds c (some i) }
        stageEnd c stOk 0 ((s3.set (ENG_IMG_STAT_STAGED c) 1).set (ENG_STG_VER_VERSION c) i.version)

/-- IMAGE_COMMIT (R358): a class in TRIAL returns; a staged class is judged again and switches. -/
def cmdImageCommit (d : Defer) (c : Nat) (s : State) : CmdRes :=
  let d1 : Defer := { d with opcode := 0x49, cls := c }
  if 3 ≤ c ∨ s.groupBusy grpImage then cmdIgnored s
  else if s.on (ENG_IMG_STAT_TRIAL c) then deferStart grpImage { d1 with slot := 1 - s.get (ENG_IMG_STAT_ACTIVE c), back := true } s
  else
    match bankGet s.stg c with
    | some i =>
      if s.on (ENG_IMG_STAT_STAGED c) ∧ (decideClass s c i).1 = 0 then deferStart grpImage { d1 with slot := i.slot } s
      else cmdIgnored s
    | none => cmdIgnored s

/-- Steps 1 and 2 of a commit (R358): the selector is rewritten, TRIES counts from here (R364), and the class is held. -/
def commitWrite (d : Defer) (s : State) : State :=
  let s1 := (setTries d.cls 0 (writeSelector d.cls d.slot (!d.back) true s)).put (ENG_IMG_STAT_TRIAL d.cls) (!d.back)
  (holdClass d.cls s1).modDefer grpImage (fun d => { d with loading := true })

/-- IMAGE_COMMITTED (R358): the selector rewritten, the class loaded and released; `bad` marks engines whose load copy met a
double-bit error. With `part`, the selector has been written and the class is loading: from here on the new record is in force (R361; log
entry 161). -/
def execImageCommitted (bad : BitVec 12) (part : Bool) (s : State) : Out :=
  .next <|
    let d := s.deferOf grpImage
    if d.state ≠ 1 ∨ d.opcode ≠ 0x49 then s else
    let s1 := if d.loading then s else commitWrite d s
    if part then s1 else
    let seq := s1.get (ENG_SEL_SEQ d.cls)
    let s2 := markLoads 0 (withLoads bad.toNat (loadClass d.cls d.slot seq) s1)
    deferEnd grpImage stOk 0 (imgEvt d.cls 4 [(2, d.cls), (1, d.slot), (32, seq)] s2)

/-- A health report (R359): 0x600D by an engine of a class in TRIAL. -/
def State.healthOk (s : State) (p : Path) (c : Nat) (w : Word) : Bool :=
  match p with
  | .eng e => classOf e = c && s.on (ENG_IMG_STAT_TRIAL c) && w = 0x600D
  | _ => false

/-- The health report ends TRIAL (R359). -/
def imageHealthy (c : Nat) (s : State) : State :=
  let s1 := setTries c 0 (writeSelector c (s.get (ENG_IMG_STAT_ACTIVE c)) false false s)
  imgEvt c 5 [(2, c), (32, s1.get (ENG_SEL_SEQ c))] (s1.set (ENG_IMG_STAT_TRIAL c) 0)

/-! ### Write rules of the ENG registers (R350, R359, R361, R363) -/

/-- The host through BAR0, or ENG0. -/
def hostOrEng0 : Path → Bool
  | .host => true
  | .eng e => e = 0
  | _ => false

/-- The rules a write of an ENG register must satisfy. -/
def engRule (p : Path) (r : Reg) (new : Word) (s : State) : Bool :=
  match r.name with
  | .ENG_HEALTH => s.healthOk p r.i new
  | .ENG_IMG_EVT => true
  | .ENG_CTL => hostOrEng0 p && !(p = .eng 0 && r.i = 0) && !(wordGet new 0 1 = 1 && s.classLoading (classOf r.i))
  | _ => hostOrEng0 p

/-- What an applied write of an ENG register sets off: RESET wins over HOLD. -/
def engAfter (p : Path) (r : Reg) (old new : Word) (s : State) : State :=
  match r.name with
  | .ENG_HEALTH => imageHealthy r.i s
  | .ENG_CTL =>
    if wordGet new 0 1 = 1 then engineReset (Path.source p) r.i s
    else if wordGet old 1 1 ≠ wordGet new 1 1 then engineHold r.i (wordGet new 1 1 = 1) s
    else s
  | _ => s

end Sys2Proof.Machine
end

