-- ==== Sys2Proof/Machine/Wheel.lean ====
section
/-! DEFINITION. Sys2Proof/Machine/Wheel.lean: the Wheels: offset, ticks, segments, chunks, the two modes, underrun (chapter 05,
R124 to R142). -/

namespace Sys2Proof.Machine

def whIdle : Nat := 0
def whRunning : Nat := 1
def whPaused : Nat := 2
def whHeld : Nat := 3

/-- A Wheel's internal state. -/
def State.wh (s : State) (c : Nat) : WheelInt := bankGet s.wheel c

/-- A Wheel's internal state changed. -/
def State.modWh (s : State) (c : Nat) (f : WheelInt → WheelInt) : State := { s with wheel := bankMod s.wheel c f }

/-- The state of a Wheel (R133). -/
def State.wheelState (s : State) (c : Nat) : Nat := s.get (RMP_STAT_STATE c)

/-- The Wheel is running: RUNNING or PAUSED (R133). -/
def State.wheelRuns (s : State) (c : Nat) : Bool := s.wheelState c = whRunning ∨ s.wheelState c = whPaused

/-- STREAM mode (R132). -/
def State.wheelStream (s : State) (c : Nat) : Bool := s.on (RMP_CTL_MODE c)

/-- The offset O (R124). -/
def State.ofs (s : State) (c : Nat) : Int := s.getS (RMP_OFS_O c)

/-- O as an event record carries it. -/
def State.ofsBits (s : State) (c : Nat) : Nat := s.get (RMP_OFS_O c)

/-- A Wheel event (R141): its sticky bit, its code and its body. -/
def wheelEvt (c bit : Nat) (body : List (Nat × Nat)) (s : State) : State :=
  if bit = 7 then s.raise (RMP_EVT_ABORT c) 0 0x0407 c body else s.raise (RMP_EVT_EVT c) bit (0x0400 + bit) c body

def whUnderrun : Nat := 0
def whClip : Nat := 1
def whPause : Nat := 2
def whResume : Nat := 3
def whGlide : Nat := 4
def whEmpty : Nat := 5
def whDone : Nat := 6
def whAbort : Nat := 7

/-! ### Chunks (R129 to R132) -/

/-- The low-water request line of a cluster (R324). -/
def lineLowWater (c : Nat) : Nat := 8 + c

/-- The verified chunks waiting, as RMP_STAT shows them. -/
def countChunks (c : Nat) (s : State) : State := s.set (RMP_STAT_CHUNKS c) (s.wh c).ring.length

/-- The slots of the ramp SRAM a STREAM Wheel uses (R132). -/
def ringSlots : Nat := 16

/-- A slot of the ring is free. -/
def WheelInt.hasSlot (w : WheelInt) : Bool := w.ring.length + (if w.cur.isSome then 1 else 0) < ringSlots

/-- The low-water request (R132): raised while fewer than LOWWATER verified chunks wait and a slot is free, one burst at a
time. -/
def lowWater (c : Nat) (s : State) : State :=
  if s.wheelStream c && s.on (RMP_CTL_REQ_EN c) && (s.wh c).ring.length < s.get (RMP_CTL_LOWWATER c) && (s.wh c).hasSlot
      && !s.bit DMA_REQ_PEND_PEND (lineLowWater c) then
    raiseLineFrom (dieOfCluster c) (lineLowWater c) s
  else s

/-- The load copy becomes pending; an IDLE or HELD Wheel takes it into use at once (R131). -/
def profileReady (c : Nat) (p : List Chunk) (s : State) : State :=
  if s.wheelRuns c then (s.modWh c (fun w => { w with pend := some p })).set (RMP_STAT_PEND c) 1
  else (s.modWh c (fun w => { w with bank := p, pend := none })).set (RMP_STAT_PEND c) 0

/-- A pending profile becomes the profile in use at a period boundary (R131). -/
def swapProfile (c : Nat) (s : State) : State :=
  match (s.wh c).pend with
  | some p => (s.modWh c (fun w => { w with bank := p, pend := none })).set (RMP_STAT_PEND c) 0
  | none => s

/-- A chunk is poisoned: counted; in RESIDENT mode it poisons the load copy, and in STREAM mode the chunks that follow it in its period are
not present either (R129, R131, R136). -/
def chunkPoisoned (c : Nat) (s : State) : State :=
  (s.bump (RMP_CNT2_POISON_CNT c)).modWh c (fun w => { w with opened := [], openBad := false, loadBad := true, gap := true })

/-- A verified chunk in RESIDENT mode: IDX runs from 0 up to the chunk with LAST; IDX 0 opens a new load copy (R131), and a profile that is
pending stays so until the new copy has verified (log entry 115: DESIGN CHOICE). -/
def residentChunk (c : Nat) (ch : Chunk) (s : State) : State :=
  let w := s.wh c
  let load := if ch.idx = 0 then [] else w.load
  let bad := if ch.idx = 0 then false else w.loadBad || ch.idx ≠ w.load.length
  if bad then s.modWh c (fun w => { w with loadBad := true })
  else if ch.last then profileReady c (load ++ [ch]) (s.modWh c (fun w => { w with load := [], loadBad := true }))
  else s.modWh c (fun w => { w with load := load ++ [ch], loadBad := false })

/-- Every segment of a chunk as not present. -/
def Chunk.absent (ch : Chunk) : Chunk := { ch with bad := 2 ^ 32 - 1 }

/-- A verified chunk in STREAM mode: its sequence number must run on; a dropped period discards it; a full ring has no slot for
it (R132, R136; log entry 13). A discarded or poisoned chunk does not move NEXT_SEQ (log entry 114: DESIGN CHOICE). A chunk that follows a
discarded one of its period takes its slot, and its segments are not present (R136). -/
def streamChunk (c : Nat) (ch : Chunk) (s : State) : State :=
  let w := s.wh c
  let next := s.get (RMP_PDONE_NEXT_SEQ c)
  if ch.seq ≠ next then (s.bump (RMP_CNT2_SEQ_ERR c)).modWh c (fun w => { w with gap := true })
  else if !w.hasSlot then s.modWh c (fun w => { w with gap := true })
  else
    let s1 := s.set (RMP_PDONE_NEXT_SEQ c) ((next + 1) % 65536)
    if w.skip && ch.idx ≠ 0 then s1
    else
      let gap := w.gap && ch.idx ≠ 0
      countChunks c (s1.modWh c (fun w =>
        { w with ring := w.ring ++ [if gap then ch.absent else ch], skip := false, gap := gap && !ch.last }))

/-- The chunk that 65 words and their CRC word make, none where it is poisoned (R129). -/
def chunkOf (ws : List Word) (crc : Word) : Option Chunk :=
  let tr := ws.getD 64 0
  let n := wordGet tr 20 6
  if crcWords (ws.take 65) = crc ∧ 1 ≤ n ∧ n ≤ 32 ∧ wordGet tr 26 6 = 0 then
    some { seq := wordGet tr 0 16, idx := wordGet tr 16 3, last := wordGet tr 19 1 = 1, nseg := n, words := ws.take 64 }
  else none

/-- A word written to RMP_CHUNK (R130): in ascending order from word 0; word 65 closes the chunk; a word out of order discards
the open chunk, and word 0 opens a new one. -/
def chunkWord (c w : Nat) (v : Word) (s : State) : State :=
  let o := (s.wh c).opened
  let s0 := if w ≠ o.length ∧ o ≠ [] then chunkPoisoned c s else s
  let o' := (s0.wh c).opened
  if w ≠ o'.length then s0
  else if w < 65 then s0.modWh c (fun x => { x with opened := o' ++ [v] })
  else
    let s1 := s0.modWh c (fun x => { x with opened := [], openBad := false })
    match chunkOf o' v, (s0.wh c).openBad with
    | some ch, false => lowWater c (if s.wheelStream c then streamChunk c ch s1 else residentChunk c ch s1)
    | _, _ => lowWater c (chunkPoisoned c s1)

/-- RAMP_LOAD (R130): 0 to 8 chunks through the same window; a poisoned load completes POISONED (R40), and so does one whose first word
discards a chunk left half written in the window (log entry 155: DESIGN CHOICE). -/
def cmdRampLoad (c : Nat) (chunks : List (List Word)) (s : State) : CmdRes :=
  if chunks = [] then ⟨0x02, 0, s⟩
  else if 8 < chunks.length then cmdIgnored s
  else
    let s1 := chunks.foldl (fun s ch => (List.range 66).foldl (fun s i => chunkWord c i (ch.getD i 0) s) s) s
    if s1.get (RMP_CNT2_POISON_CNT c) ≠ s.get (RMP_CNT2_POISON_CNT c) ∨
        chunks.any (fun ch => chunkOf (ch.take 65) (ch.getD 65 0) = none) then ⟨0x03, 0, s1⟩
    else cmdOk s1

/-! ### States (R133) -/

/-- The play stops: nothing is in progress. -/
def stopPlay (c : Nat) (s : State) : State :=
  let s1 := s.modWh c (fun w => { w with cur := none, left := 0, atLim := false, fresh := false, wait := false, homing := false })
  ((s1.set (RMP_STAT_GLIDING c) 0).set (RMP_STAT_UNDERRUN c) 0).set (RMP_STAT_HOME_PEND c) 0

/-- Entry to IDLE with O = 0: the first chunk after it carries SEQ = 0 (R132, R133). -/
def toIdle (c : Nat) (s : State) : State :=
  swapProfile c ((((stopPlay c s).set (RMP_STAT_STATE c) whIdle).set (RMP_OFS_O c) 0).set (RMP_PDONE_NEXT_SEQ c) 0)

/-- Entry to HELD: O kept. -/
def toHeld (c : Nat) (s : State) : State := swapProfile c ((stopPlay c s).set (RMP_STAT_STATE c) whHeld)

/-- RAMP_DONE: the period count and O (R141). -/
def rampDone (c : Nat) (s : State) : State := wheelEvt c whDone [(16, s.get (RMP_PDONE_PCNT c)), (32, s.ofsBits c)] s

/-- The cluster enters OFF or SEARCHING: from any state but IDLE to IDLE, streamed chunks discarded, RAMP_ABORT (R133). -/
def wheelAbort (c : Nat) (s : State) : State :=
  if s.wheelState c = whIdle then s else
  let s1 := (toIdle c s).modWh c (fun w => { w with ring := [], skip := false, gap := false })
  lowWater c (wheelEvt c whAbort [(32, s.ofsBits c)] (countChunks c s1))

/-- APPLY or HOP accepted: HELD to IDLE as the retune begins (R133), before the cluster enters SEARCHING, so without RAMP_ABORT and with the
streamed chunks kept (log entry 151: DESIGN CHOICE). -/
def wheelRetune (c : Nat) (s : State) : State := if s.wheelState c = whHeld then toIdle c s else s

/-- Loss of lock declared: RUNNING to PAUSED (R133, R137). -/
def wheelLol (c : Nat) (s : State) : State :=
  if s.wheelState c = whRunning then
    wheelEvt c whPause [(32, s.ofsBits c)] (s.set (RMP_STAT_STATE c) whPaused)
  else s

/-- Chunks of a dropped period leave the ring; the rest of them is discarded on arrival (R136). -/
def dropPeriod (c : Nat) (s : State) : State :=
  countChunks c (s.modWh c (fun w =>
    let r := w.ring.dropWhile (fun ch => ch.idx ≠ 0)
    { w with cur := none, left := 0, ring := r, skip := r.isEmpty, fresh := true }))

/-- The rest of the profile is dropped and the Wheel glides to 0, to go to IDLE with RAMP_DONE; at 0 it goes at once (R133, R135). -/
def wheelHome (c : Nat) (s : State) : State :=
  let s1 := (((dropPeriod c s).set (RMP_STAT_GLIDING c) 0).set (RMP_STAT_UNDERRUN c) 0).set (RMP_STAT_HOME_PEND c) 0
  lowWater c (if s.ofs c = 0 then rampDone c (toIdle c s1)
    else s1.modWh c (fun w => { w with homing := true, fresh := false, wait := false }))

/-- Lock declared while PAUSED (R133): HOME pending glides to 0; RESUME goes on; RESTART begins the next period clean, a glide in
progress afresh towards ANCHOR (R140), that of a HOME included (log entry 116: DEDUCED). A period dropped by RESTART or by HOME is not
counted in PCNT (log entry 152: DESIGN CHOICE). -/
def wheelLock (c : Nat) (s : State) : State :=
  if s.wheelState c = whPaused then
    let s1 := s.set (RMP_STAT_STATE c) whRunning
    if s.on (RMP_STAT_HOME_PEND c) then wheelHome c s1
    else
      let s2 := if s.on (RMP_CTL_LOL_POL c) then
          lowWater c ((dropPeriod c (s1.set (RMP_STAT_GLIDING c) 0)).modWh c (fun w => { w with homing := false }))
        else s1
      wheelEvt c whResume [(32, s.ofsBits c)] s2
  else s

/-- The limits keep the VCO within 7.2 GHz to 14.4 GHz at nominal f_RREF (R134). -/
def State.rampLimitsOk (s : State) (c : Nat) : Bool :=
  let f := s.fVco c
  let down : Nat := f.num * (2 ^ 36 - s.get (RMP_LIM_NEG_LIM c))
  let up : Nat := f.num * (2 ^ 36 + s.get (RMP_LIM_POS_LIM c))
  decide (7200000000 * f.den * 2 ^ 36 ≤ down) && decide (up ≤ 14400000000 * f.den * 2 ^ 36)

/-- RAMP_START (R134). -/
def cmdRampStart (c : Nat) (s : State) : CmdRes :=
  if s.wheelRuns c || s.synState c ≠ synLocked || s.on (SYN_STAT_RETUNE c) || !s.rampLimitsOk c then cmdIgnored s
  else if !s.wheelStream c && (s.wh c).bank = [] then ⟨0x02, 0, s⟩
  else
    let s1 := ((stopPlay c s).set (RMP_STAT_STATE c) whRunning).set (RMP_PDONE_PCNT c) 0
    cmdOk (lowWater c (s1.modWh c (fun w => { w with fresh := true, wait := true })))

/-- RAMP_STOP (R133, R134): HOLD keeps O in HELD; HOME drops the rest of the profile and glides to 0, or waits for lock while
PAUSED. -/
def cmdRampStop (c : Nat) (home : Bool) (s : State) : CmdRes :=
  if !s.wheelRuns c then cmdIgnored s
  else if !home then cmdOk (rampDone c (toHeld c s))
  else if s.wheelState c = whPaused then cmdOk (s.set (RMP_STAT_HOME_PEND c) 1)
  else if (s.wh c).homing then cmdOk s
  else cmdOk (wheelHome c s)

/-! ### Ticks (R125 to R128, R135, R136) -/

/-- What stands next in a period. -/
inductive NextSeg where
  /-- a segment: its ticks, its slope and its index -/
  | seg (ticks : Nat) (slope : Int) (idx : Nat)
  | missing
  | ended
deriving DecidableEq, Repr

/-- The next segment of the period, segments of no duration passed over (R128); a reserved bit or a double-bit error makes it
not present (R128, R136). The fuel bounds the 256 segments and 8 chunks of a profile. -/
def nextSeg (stream : Bool) : Nat → WheelInt → NextSeg × WheelInt
  | 0, w => (.missing, w)
  | n + 1, w =>
    match w.cur with
    | some ch =>
      if ch.nseg ≤ w.pos then
        if ch.last then (.ended, w) else nextSeg stream n { w with cur := none, expIdx := ch.idx + 1 }
      else
        let w0 := ch.words.getD (2 * w.pos) 0
        if bitOf ch.bad w.pos || wordGet w0 24 8 ≠ 0 then (.missing, w)
        else if wordGet w0 0 16 = 0 then nextSeg stream n { w with pos := w.pos + 1 }
        else (.seg (wordGet w0 0 16 * (wordGet w0 16 8 + 1)) (ch.words.getD (2 * w.pos + 1) 0).toInt (32 * ch.idx + w.pos), w)
    | none =>
      if stream then
        match w.ring with
        | ch :: r => if ch.idx = w.expIdx then nextSeg stream n { w with cur := some ch, pos := 0, ring := r } else (.missing, w)
        | [] => (.missing, w)
      else
        match w.bank.find? (fun ch => ch.idx = w.expIdx) with
        | some ch => nextSeg stream n { w with cur := some ch, pos := 0 }
        | none => (.missing, w)

/-- The bound of the search for a segment. -/
def segFuel : Nat := 300

/-- A period completes, by its end or by an underrun: at PERIODS the Wheel is HELD, otherwise the next period begins at the
next tick (R133, R136). -/
def periodDone (c : Nat) (s : State) : State :=
  let s1 := s.bump (RMP_PDONE_PCNT c)
  let n := s.get (RMP_PERIODS_PERIODS c)
  if n ≠ 0 ∧ n ≤ s1.get (RMP_PDONE_PCNT c) then rampDone c (toHeld c s1)
  else swapProfile c (countChunks c (s1.modWh c (fun w => { w with cur := none, left := 0, fresh := true })))

/-- The Wheel underruns (R136): `idx` is the segment due. -/
def underrun (c idx : Nat) (s : State) : State :=
  let s1 := wheelEvt c whUnderrun [(8, idx), (32, s.ofsBits c)] ((s.bump (RMP_CNT_UNDERRUN_CNT c)).set (RMP_STAT_UNDERRUN c) 1)
  periodDone c ((dropPeriod c s1).modWh c (fun w => { w with wait := true }))

/-- An empty period (R128): counted, RAMP_EMPTY; in RESIDENT mode the Wheel ends as if its last period had completed. -/
def emptyPeriod (c : Nat) (s : State) : State :=
  let s1 := s.bump (RMP_PDONE_PCNT c)
  let s2 := wheelEvt c whEmpty [(16, s1.get (RMP_PDONE_PCNT c))] s1
  if s.wheelStream c then periodDone c (s2.set (RMP_PDONE_PCNT c) (s.get (RMP_PDONE_PCNT c))) else rampDone c (toHeld c s2)

/-- One glide step towards a target (R135): it lands exactly. -/
def glideStep (o target step : Int) : Int :=
  if o < target then (if target ≤ o + step then target else o + step)
  else (if o - step ≤ target then target else o - step)

/-- The glide's target: 0 under HOME, ANCHOR otherwise. -/
def State.glideTarget (s : State) (c : Nat) : Int := if (s.wh c).homing then 0 else s.getS (RMP_ANCHOR_ANCHOR c)

/-- The period's first segment may play: a pending profile is swapped in, the chunk index restarts (R131, R135, R140). -/
def periodStart (c : Nat) (s : State) : State :=
  (swapProfile c s).modWh c (fun w => { w with fresh := false, wait := false, cur := none, pos := 0, expIdx := 0, left := 0 })

/-- A tick of a glide in progress; its last tick lands on the target and ends it. -/
def glideTick (c : Nat) (s : State) : State :=
  let target := s.glideTarget c
  let o := glideStep (s.ofs c) target (s.get (RMP_GLIDE_GLIDE c))
  let s1 := s.setS (RMP_OFS_O c) o
  if o = target then
    if (s.wh c).homing then rampDone c (toIdle c s1) else periodStart c (s1.set (RMP_STAT_GLIDING c) 0)
  else s1

/-- A glide begins and takes its first step. -/
def glideBegin (c : Nat) (s : State) : State :=
  glideTick c (wheelEvt c whGlide [(32, s.ofsBits c), (32, ofSigned 32 (s.glideTarget c))] (s.set (RMP_STAT_GLIDING c) 1))

/-- One step of the segment in play, held within the limits (R126, R127); RAMP_CLIP carries the limit as its register codes it (R141,
R280). After its last tick the next segment is looked for, so a chunk that it opens no longer counts as unplayed, and the period may end;
a period's first chunk counts as unplayed up to its first tick (log entry 154: DESIGN CHOICE). -/
def segTick (c : Nat) (s : State) : State :=
  let w := s.wh c
  let hi : Int := s.get (RMP_LIM_POS_LIM c)
  let lo : Int := -(s.get (RMP_LIM_NEG_LIM c) : Int)
  let o := s.ofs c + w.slope
  let s1 :=
    if w.atLim then s
    else if o < lo ∨ hi < o then
      wheelEvt c whClip [(30, if o < lo then s.get (RMP_LIM_NEG_LIM c) else s.get (RMP_LIM_POS_LIM c))]
        (((s.setS (RMP_OFS_O c) (clampInt lo hi o)).bump (RMP_CNT_CLIP_CNT c)).modWh c (fun w => { w with atLim := true }))
    else s.setS (RMP_OFS_O c) o
  let s2 := s1.modWh c (fun w => { w with left := w.left - 1 })
  if w.left = 1 then
    match nextSeg (s.wheelStream c) segFuel { s2.wh c with pos := (s2.wh c).pos + 1 } with
    | (.ended, w') => periodDone c (s2.modWh c (fun _ => w'))
    | (_, w') => countChunks c (s2.modWh c (fun _ => w'))
  else s2

/-- The next period begins clean, with a glide where O differs from ANCHOR (R135), whose segment is due once the glide has ended; after an
underrun and at a start it waits in STREAM mode for the chunk with IDX = 0, holding O flat (R134, R136). `play` plays its first segment. -/
def freshTick (c : Nat) (play : State → State) (s : State) : State :=
  let s1 := if s.wheelStream c then
      countChunks c (s.modWh c (fun w => { w with ring := w.ring.dropWhile (fun ch => ch.idx ≠ 0) }))
    else s
  if s.wheelStream c && (s1.wh c).ring.isEmpty && (s1.wh c).wait then s1
  else
    let s2 := (swapProfile c s1).set (RMP_STAT_UNDERRUN c) 0
    if s.ofs c ≠ s.getS (RMP_ANCHOR_ANCHOR c) then glideBegin c s2 else play (periodStart c s2)

/-- A tick with no glide: the segment in play goes on, or the next one is read and takes its first step (R132, R136). A period that ends
before its tick has taken a step, being empty or having only segments of no duration left, takes no time: the next one begins in the same
tick (R128). The fuel bounds the periods that a ring of chunks can hold. -/
def playTick (c : Nat) : Nat → State → State
  | 0, s => s
  | fuel + 1, s =>
    let w := s.wh c
    if w.left ≠ 0 then segTick c s else
    match nextSeg (s.wheelStream c) segFuel w with
    | (.seg n slope idx, w') =>
      segTick c ((countChunks c (s.modWh c (fun _ => { w' with left := n, slope := slope, atLim := false }))).set (RMP_STAT_SEG c) idx)
    | (.missing, w') =>
      underrun c (match w'.cur with | some ch => 32 * ch.idx + w'.pos | none => 32 * w'.expIdx) (countChunks c (s.modWh c (fun _ => w')))
    | (.ended, w') =>
      let s1 := s.modWh c (fun _ => w')
      let s2 := if w.cur.isNone ∧ w.expIdx = 0 then emptyPeriod c s1 else periodDone c s1
      if (s2.wh c).fresh then freshTick c (playTick c fuel) s2 else s2

/-- The bound of the periods one tick can pass over: the chunks of a ring and the one in play. -/
def playFuel : Nat := ringSlots + 2

/-- A tick (R125): a Wheel in RUNNING applies at most one step. -/
def wheelTick (c : Nat) (s : State) : State :=
  if s.wheelState c = whRunning then
    lowWater c <|
      if s.on (RMP_STAT_GLIDING c) then glideTick c s
      else if (s.wh c).homing then glideBegin c s
      else if (s.wh c).fresh then freshTick c (playTick c playFuel) s
      else playTick c playFuel s
  else s

/-- Segment `seg` of a chunk carries a double-bit error. -/
def Chunk.mark (seg : Nat) (ch : Chunk) : Chunk := { ch with bad := bitPut ch.bad seg true }

/-- A double-bit error in word `a` of slot `k` of the ring (R42, R132): the chunk in play, those that wait behind it, or the one that is
arriving. A segment is two words. -/
def WheelInt.ringError (k a : Nat) (w : WheelInt) : WheelInt :=
  let i := if w.cur.isSome then k - 1 else k
  if w.cur.isSome && k = 0 then { w with cur := w.cur.map (Chunk.mark (a / 2)) }
  else if i < w.ring.length then { w with ring := w.ring.modify i (Chunk.mark (a / 2)) }
  else if i = w.ring.length && a < w.opened.length then { w with openBad := true }
  else w

/-- A double-bit error in word `a` of slot `k` of the two banks (R39, R42, R131): slots 0 to 7 are the bank in use, 8 to 15 the load copy,
which it poisons while it is being loaded; in a pending profile the segment is not present. -/
def WheelInt.bankError (k a : Nat) (w : WheelInt) : WheelInt :=
  if k < 8 then { w with bank := w.bank.modify k (Chunk.mark (a / 2))
                         cur := w.cur.map (fun ch => if ch.idx = k then ch.mark (a / 2) else ch) }
  else if k - 8 = w.load.length && a < w.opened.length then { w with openBad := true }
  else if k - 8 < w.load.length then { w with loadBad := true }
  else { w with pend := w.pend.map (fun p => p.modify (k - 8) (Chunk.mark (a / 2))) }

/-- A double-bit error in word `a` of slot `k` of a ramp SRAM (R42). -/
def poisonRamp (c k a : Nat) (s : State) : State :=
  s.modWh c (fun w => if s.wheelStream c then w.ringError k a else w.bankError k a)

/-! ### Write rules of the RMP registers (R142) -/

/-- ANCHOR lies within the limits. -/
def anchorOk (anchor : Int) (neg pos : Nat) : Bool := -(neg : Int) ≤ anchor && anchor ≤ pos

/-- Writes refused while the Wheel runs, and ANCHOR within the limits (R142); START and STOP together are reserved. -/
def rmpRule (r : Reg) (old new : Word) (s : State) : Bool :=
  let c := r.i
  match r.name with
  | .RMP_CTL => !(s.wheelRuns c && wordGet old 0 1 ≠ wordGet new 0 1)
  | .RMP_TICK => !s.wheelRuns c
  | .RMP_LIM_NEG => !s.wheelRuns c && anchorOk (s.getS (RMP_ANCHOR_ANCHOR c)) (wordGet new 0 30) (s.get (RMP_LIM_POS_LIM c))
  | .RMP_LIM_POS => !s.wheelRuns c && anchorOk (s.getS (RMP_ANCHOR_ANCHOR c)) (s.get (RMP_LIM_NEG_LIM c)) (wordGet new 0 30)
  | .RMP_ANCHOR => !s.wheelRuns c && anchorOk new.toInt (s.get (RMP_LIM_NEG_LIM c)) (s.get (RMP_LIM_POS_LIM c))
  | .RMP_CMD => wordGet new 0 2 ≠ 3 &&
      (wordGet new 0 1 = 0 || (cmdRampStart c s).status ≠ 0x01) && (wordGet new 1 1 = 0 || s.wheelRuns c)
  | _ => true

/-- O never lies outside its limits (R126): a limit written below it in HELD takes it there (log entry 117: DESIGN CHOICE). -/
def clampOfs (c : Nat) (s : State) : State :=
  s.setS (RMP_OFS_O c) (clampInt (-(s.get (RMP_LIM_NEG_LIM c) : Int)) (s.get (RMP_LIM_POS_LIM c)) (s.ofs c))

/-- What an applied write of an RMP register sets off. A change of MODE keeps the chunks of the ring and the profiles of the banks as they
are (log entry 153: DESIGN CHOICE). -/
def rmpAfter (r : Reg) (new : Word) (s : State) : State :=
  let c := r.i
  match r.name with
  | .RMP_LIM_NEG => clampOfs c s
  | .RMP_LIM_POS => clampOfs c s
  | .RMP_CTL => lowWater c s
  | .RMP_CMD =>
    if wordGet new 0 1 = 1 then (cmdRampStart c s).s
    else if wordGet new 1 1 = 1 then (cmdRampStop c (wordGet new 2 1 = 1) s).s
    else s
  | .RMP_CHUNK => chunkWord c r.j new s
  | _ => s

end Sys2Proof.Machine
end

