-- ==== Sys2Proof/Machine/Synth.lean ====
section
/-! DEFINITION. Sys2Proof/Machine/Synth.lean: synthesizer clusters: retunes, band tables, lock, loss of lock, the units' on-loss
conditions and their return (chapter 04, R97 to R123). -/

namespace Sys2Proof.Machine

/-! ### Frequency plan (R97, R99, R106) -/

/-- What a retune applies: the feedback, the path and the spur distances. -/
structure Plan where
  num : Nat
  den : Nat
  path : Nat
  /-- d_p of ×2, ×1 and ÷2 in units of 1 / (2 den) Hz -/
  dist : List Nat
  ok : Bool
deriving DecidableEq, Repr

/-- PATH codes of the spur table's order: ×2, ×1, ÷2 (R106). -/
def pathCode (p : Nat) : Nat := [1, 0, 2].getD p 0

/-- Twice the reference-path factor M of a PATH code (R97); AUTO is taken as ×1 (R106). -/
def pathFactor (code : Nat) : Nat := [2, 4, 1, 2].getD code 2

/-- The distance from a number to the nearest multiple of another. -/
def nearestMultiple (f p : Nat) : Nat := min (f % p) (p - f % p)

/-- The plan of four staged values at nominal f_RREF (R97, R106): frequencies in units of 1 / (2 × den) Hz; AUTO picks the largest
distance among the paths whose applied N lies within R97, ties to ×2, ×1, ÷2. Where AUTO finds none, the plan keeps ×1 (log entry 111:
DESIGN CHOICE). -/
def State.plan (s : State) (c nInt path num den : Nat) : Plan :=
  let fr := s.rref (c / 3)
  let d := 2 * den
  let n := pathFactor path * (nInt * den + num)
  let f := 2 * fr * n
  let pfd (p : Nat) : Nat := pathFactor (pathCode p) * fr * d
  let dist := [0, 1, 2].map (fun p => nearestMultiple f (pfd p))
  let inN (p : Nat) : Bool := 14 * pfd p ≤ f && f ≤ 288 * pfd p
  let best : Option Nat := [0, 1, 2].foldl (fun b p =>
    if inN p then
      match b with
      | none => some p
      | some q => if dist.getD q 0 < dist.getD p 0 then some p else some q
    else b) none
  let eff : Option Nat := if path = 3 then best else [0, 1, 2].find? (fun p => pathCode p = path && inN p)
  { num := n, den := d, path := if path = 3 then pathCode (best.getD 1) else path, dist := dist
    ok := eff.isSome && 7200000000 * 2 * d ≤ f && f ≤ 14400000000 * 2 * d }

/-- The plan of the staged values of a cluster. -/
def State.stagedPlan (s : State) (c : Nat) : Plan :=
  s.plan c (s.get (SYN_N_INT_N_INT c)) (s.get (SYN_N_INT_PATH c)) (s.get (SYN_N_NUM_NUM c)) (s.get (SYN_N_DEN_DEN c))

/-- The loop bandwidth in Hz (R100). -/
def State.loopBw (s : State) (c : Nat) : Nat := [50000, 100000, 200000, 500000, 1000000, 2000000].getD (s.get (SYN_CTL_BW c)) 0

/-- The target of a cluster in 100 Hz units, 28 bits, saturating (R120); one that is no whole number of units is coded by the nearest
(log entry 111: DESIGN CHOICE). -/
def State.targetCode (s : State) (c : Nat) : Nat := satNat 28 ((s.fTarget c).inUnits 100)

/-- The plan applied: the feedback, PATH_EFF, the spur table and SPUR_LOW (R97, R106); a d_p of no whole number of kHz is recorded by
the nearest, a half going up (log entry 111: DESIGN CHOICE). -/
def applyPlan (c : Nat) (p : Plan) (s : State) : State :=
  let s1 := (s.modSyn c (fun x => { x with num := p.num, den := p.den, outOfRange := !p.ok })).set (SYN_STAT_PATH_EFF c) p.path
  let s2 := s1.each 3 (fun i s =>
    (s.set (SYN_SPURT_DIST c i) (satNat 24 (roundDiv (p.dist.getD i 0) (2 * p.den * 1000)))).set (SYN_SPURT_VALID c i) 1)
  let i := [1, 0, 2].getD p.path 1
  s2.put (SYN_STAT_SPUR_LOW c) (decide (p.dist.getD i 0 < s.get (SYN_SPUR_SPUR_MIN c) * s.loopBw c * 2 * p.den))

/-! ### Band table (R101 to R105) -/

/-- The range of a VCO core in 100 Hz units (R101). -/
def coreRange (v : Nat) : Nat × Nat :=
  [(72000000, 91000000), (89000000, 109000000), (107000000, 127000000), (125000000, 144000000)].getD v (1, 0)

/-- The four words of an entry of the table in use. -/
def State.bandEntry (s : State) (c i : Nat) : List Word := (List.range 4).map (fun w => s.word ⟨.SYN_BAND, c, i, w⟩)

/-- Fields of an entry (R102). -/
def entFmin (e : List Word) : Nat := wordGet (e.getD 0 0) 0 28
def entFmax (e : List Word) : Nat := wordGet (e.getD 1 0) 0 28
def entCore (e : List Word) : Nat := wordGet (e.getD 2 0) 0 2
def entBand (e : List Word) : Nat := wordGet (e.getD 2 0) 8 8
def entVtLo (e : List Word) : Nat := wordGet (e.getD 2 0) 16 8
def entVtHi (e : List Word) : Nat := wordGet (e.getD 2 0) 24 8
def entSlot (e : List Word) : Nat := wordGet (e.getD 3 0) 0 4
def entSlotEn (e : List Word) : Bool := wordGet (e.getD 3 0) 4 1 = 1
def entValid (e : List Word) : Bool := wordGet (e.getD 3 0) 31 1 = 1

/-- An entry is present (R102). -/
def entPresent (e : List Word) : Bool :=
  entValid e && entFmin e ≤ entFmax e && (coreRange (entCore e)).1 ≤ entFmin e && entFmax e ≤ (coreRange (entCore e)).2 &&
    entVtLo e ≤ entVtHi e

/-- An entry serves a target of `f / d` hertz. -/
def entServes (e : List Word) (f d : Nat) : Bool := entFmin e * 100 * d ≤ f && f ≤ entFmax e * 100 * d

/-- The entry a retune reads: the lowest present one that serves the applied target (R104). -/
def State.findEntry (s : State) (c : Nat) : Option (Nat × List Word) :=
  let x := s.synOf c
  ((List.range 128).find? (fun i => !x.badEntries.contains i && entPresent (s.bandEntry c i) &&
      entServes (s.bandEntry c i) (s.rref (c / 3) * x.num) x.den)).map (fun i => (i, s.bandEntry c i))

/-- The kind of search a retune begins with: 0 a hop from a valid slot, 2 guided, 3 full (R104, R120). -/
def State.searchKind (s : State) (c : Nat) : Option (Nat × List Word) → Nat
  | none => 3
  | some (i, e) =>
    if entSlotEn e && s.on (SYN_SLOT_VALID c (entCore e) (entSlot e)) && s.get (SYN_SLOT_ENTRY c (entCore e) (entSlot e)) = i then 0
    else 2

/-- A retune reads the table in use: from its start until it has locked or failed (R103, R119). The automatic full search of R108 reads no
table. -/
def State.readsTable (s : State) (c : Nat) : Bool :=
  s.on (SYN_STAT_RETUNE c) && (s.synState c = synSearching || s.synState c = synAcquiring)

/-- The verified table replaces the table in use at an instant at which no retune reads it; the entries of it that a double-bit error has
met stay absent, and every hop slot is no longer VALID (R42, R103). -/
def swapBands (c : Nat) (s : State) : State :=
  match (s.synOf c).pend with
  | some ws =>
    if s.readsTable c then s
    else
      let s1 := (List.range 512).foldl (fun s i => s.setWord ⟨.SYN_BAND, c, i / 4, i % 4⟩ (ws.getD i 0)) s
      let s2 := s1.each 4 (fun v s => s.each 16 (fun k s => s.set (SYN_SLOT_VALID c v k) 0))
      (s2.modSyn c (fun x => { x with pend := none, badEntries := x.pendBad, pendBad := [] })).set (SYN_STAT_SWAP_PEND c) 0
  | none => s

/-- BAND_SWAP (R103, R119). -/
def execBandSwap (c : Fin 12) (s : State) : Out := .next (swapBands c s)

/-- A new load copy opens; an open one is discarded (R103). A verified table that still waits for its instant goes on waiting, RESULT shows
the open load, and a copy verified later takes its place (log entry 148: DESIGN CHOICE). -/
def bandLoadStart (c : Nat) (s : State) : State :=
  ((s.modSyn c (fun x => { x with load := some [], loadBad := false })).set (SYN_BLOAD_STAT_WORDS c) 0).set
    (SYN_BLOAD_STAT_RESULT c) 1

/-- A table word: the 513th is the CRC32C and closes the load (R39, R103). -/
def bandLoadData (c : Nat) (w : Word) (s : State) : State :=
  match (s.synOf c).load with
  | none => s
  | some ws =>
    let s1 := s.set (SYN_BLOAD_STAT_WORDS c) (ws.length + 1)
    if ws.length < 512 then s1.modSyn c (fun x => { x with load := some (ws ++ [w]) })
    else if crcWords ws = w ∧ (s.synOf c).loadBad = false then
      ((s1.modSyn c (fun x => { x with load := none, pend := some ws, pendBad := [] })).set (SYN_BLOAD_STAT_RESULT c) 2).set
        (SYN_STAT_SWAP_PEND c) 1
    else (s1.modSyn c (fun x => { x with load := none })).set (SYN_BLOAD_STAT_RESULT c) 3

/-- A double-bit error in word `a` of a cluster's load copy (R39, R42): it poisons an open copy that holds the word, and leaves the entry
of a verified copy absent. -/
def bandLoadError (c a : Nat) (s : State) : State :=
  match (s.synOf c).load with
  | some ws => if a < ws.length then s.modSyn c (fun x => { x with loadBad := true }) else s
  | none => s.modSyn c (fun x => { x with pendBad := a / 4 :: x.pendBad.filter (· ≠ a / 4) })

/-- BAND_LOAD (R103): the same 513 words from host memory; a poisoned copy completes POISONED (R40). -/
def cmdBandLoad (c : Nat) (ws : List Word) (s : State) : CmdRes :=
  let s1 := (List.range 513).foldl (fun s i => bandLoadData c (ws.getD i 0) s) (bandLoadStart c s)
  ⟨if s1.get (SYN_BLOAD_STAT_RESULT c) = 2 then 0x00 else 0x03, 513, s1⟩

/-! ### What a region shows of its units and clusters -/

/-- A unit is clock-qualified (R116). -/
def State.clockQualified (s : State) (n : Nat) : Bool :=
  let o := s.outOf n
  let c := 3 * (n / 12) + o.src
  s.unitOn n && o.src < 3 && s.synState c = synLocked && !s.on (SYN_STAT_RETUNE c) && !s.on (SYN_STAT_RET_PEND c) && !s.onLoss n

/-- A unit takes its clock from a cluster. -/
def State.unitTakes (s : State) (n c : Nat) : Bool := s.unitOn n && n / 12 = c / 3 && (s.outOf n).src = c % 3

/-- A unit acts on a cluster's lock state: its home cluster and the cluster its mux selects (R109). -/
def State.unitActsOn (s : State) (n c : Nat) : Bool := s.unitOn n && (n / 4 = c || (n / 12 = c / 3 && (s.outOf n).src = c % 3))

/-- The status bits of a region's units and clusters that follow from their states (R111, R114, R116, R121, R163). IN_BYPASS shows a unit
from its loss on, before its switch to the lane is done (log entry 150: DESIGN CHOICE). -/
def showRegion (t : Nat) (s : State) : State :=
  let s1 := s.each 12 (fun j s => s.put (OUT_STAT_CLKQ (12 * t + j)) (s.clockQualified (12 * t + j)))
  let s2 := s1.each 3 (fun i s =>
    let c := 3 * t + i
    let home (p : Nat → Bool) : Nat := maskOf 4 (fun j => p (4 * c + j))
    let src := s.get (SYN_BYP_SRC c)
    let s1 := s.put (SYN_STAT_ON_LOSS c) ((List.range 12).any (fun j => s.unitTakes (12 * t + j) c && s.onLoss (12 * t + j)))
    let s2 := (s1.put (SYN_STAT_TB_ACTIVE c) (s.tbCluster t = some c && s.synState c ≠ synOff)).put (SYN_STAT_LANE_SRC_LOL c)
      (src ≠ 0 && s.synState (sibling c src) ≠ synLocked)
    let s3 := (s2.set (SYN_BYP_STAT_IN_BYPASS c) (home (fun n => s.get (OUT_STAT_LOSS_KIND n) = 1))).set (SYN_BYP_STAT_HELD_LOW c)
      (home (fun n => s.get (OUT_STAT_LOSS_KIND n) = 2))
    let s4 := (s3.set (SYN_BYP_STAT_FREE_RUN c) (home (fun n => s.get (OUT_STAT_LOSS_KIND n) = 3))).set (SYN_BYP_STAT_FRAME_STALE c)
      (home (fun n => s.on (OUT_STAT_FRAME_STALE n)))
    s4.set (SYN_BYP_STAT_DENIED c) (home (fun n => (s.outOf n).denied)))
  refreshAllWindows (rearmDeps s2)

/-! ### On-loss conditions (R109 to R112, R117, R118) -/

/-- Why a BYPASS unit is denied its lane: 0 the lane is unusable, 1 the ratio is not a multiple of Q, 2 its clock is already on a
lane (R110; the codes are log entry 15's). -/
def State.denyCause (s : State) (n c : Nat) : Option Nat :=
  if !s.laneUsable c then some 0
  else if ((s.outOf n).div + 1) % (s.get (SYN_BYP_Q c) + 1) ≠ 0 then some 1
  else if (s.outOf n).src = 3 then some 2
  else none

/-- A named unit enters an on-loss condition: pending alignments that name it are dropped (R92, R118, R158). -/
def dropAlignOnLoss (n : Nat) (s : State) : State :=
  let t := n / 12
  let s1 := if bitOf (s.realignMask t) (n % 12) then dropRealign t 5 s else s
  if bitOf (s1.rsyncMask t) (n % 12) then dropRsync t 3 s1 else s1

/-- What a loss makes of a unit: 1 it goes to its lane, 2 it is held low, 3 it follows the unlocked VCO (R110); a unit whose mux is at a
lane is held low whatever its policy (R148). -/
def State.lossKind (s : State) (n c : Nat) : Nat :=
  if (s.outOf n).src = 3 then 2
  else if s.get (OUT_CTL_POLICY n) = 0 then (if s.denyCause n c = none then 1 else 2)
  else if s.get (OUT_CTL_POLICY n) = 1 then 2
  else 3

/-- A unit enters its on-loss condition by the loss of cluster `c`, or stays in it (R110, R119). FREE-RUN changes nothing: a change of
source on its way is still carried out; the others leave it for their return (R147; log entry 112). -/
def enterLoss (n c : Nat) (s : State) : State :=
  if s.onLoss n then
    s.modOut n (fun o => { o with lost := bitPut o.lost (c % 3) true
                                  sw := match o.sw with | some (.back _) => none | x => x })
  else
    let kind := s.lossKind n c
    let deny := if s.get (OUT_CTL_POLICY n) = 0 then s.denyCause n c else none
    let s1 := (dropAlignOnLoss n (s.set (OUT_STAT_STATE n) outOnLoss)).set (OUT_STAT_LOSS_KIND n) kind
    let s2 := s1.modOut n (fun o => { o with lost := bitPut 0 (c % 3) true, denied := deny.isSome
                                             sw := if kind = 1 then some (.toLane (c % 3)) else if kind = 2 then none else o.sw })
    match deny with
    | some cause => s2.raise (SYN_EVT_BYPASS_DENIED c) 0 0x0305 c [(32, n), (32, cause)]
    | none => s2

/-- The units that newly entered an on-loss condition between two states, as a mask of the region's units of one kind. -/
def enteredMask (t kind : Nat) (old new : State) : Nat :=
  maskOf 12 (fun j => !old.onLoss (12 * t + j) && new.get (OUT_STAT_LOSS_KIND (12 * t + j)) = kind)

/-- BYPASS_ENTER for the units that entered (R120). -/
def bypassEnter (c : Nat) (old new : State) : State :=
  let m (k : Nat) : Nat := enteredMask (c / 3) k old new
  if m 1 = 0 ∧ m 2 = 0 ∧ m 3 = 0 then new
  else new.raise (SYN_EVT_BYPASS_ENTER c) 0 0x0303 c [(12, m 1), (12, m 2), (12, m 3)]

/-- The mux of a unit is at the source OUT_CTL names (R147). -/
def muxToCtl (n : Nat) (s : State) : State :=
  s.modOut n (fun o => { o with src := s.get (OUT_CTL_SRC n), lane := s.get (OUT_CTL_LANE n) })

/-- A unit's return switch ends (R117, R118): it runs on the source its mux names, one on its way to another source going there now (log
entry 112); a FRAME unit that was on a lane is stale. A FREE-RUN unit has nothing to do. -/
def unitBack (n : Nat) (s : State) : State :=
  let kind := s.get (OUT_STAT_LOSS_KIND n)
  let s1 := (s.set (OUT_STAT_LOSS_KIND n) 0).set (OUT_STAT_STATE n) outRunning
  if kind = 3 then s1
  else
    let s2 := (muxToCtl n s1).modOut n (fun o => { o with sw := none })
    let o := s2.outOf n
    let s3 := (s2.set (OUT_STAT_CUR_SRC n) o.src).set (OUT_STAT_CUR_LANE n) o.lane
    if kind = 1 && s.get (OUT_CTL_ROLE n) = 1 then s3.set (OUT_STAT_FRAME_STALE n) 1 else s3

/-- A unit whose mux is at a cluster that is not LOCKED is in its on-loss condition, with no CLOCK_LOSS (R109, R152). -/
def lossAtStart (n : Nat) (s : State) : State :=
  let o := s.outOf n
  let c := 3 * (n / 12) + o.src
  if o.src < 3 && s.synState c ≠ synLocked then bypassEnter c s (enterLoss n c s) else s

/-- The switches of a cluster's return are outstanding (R117). -/
def State.returning (s : State) (c : Nat) : Bool := (List.range 12).any (fun j => (s.outOf (12 * (c / 3) + j)).sw = some (.back c))

/-- The return of a cluster ends once no unit's switch is outstanding: BYPASS_EXIT with the units that returned, and the timebase
counts as regained (R114, R117). -/
def returnEnds (c : Nat) (s : State) : State :=
  if s.returning c then s
  else
    let m := (s.synOf c).exitMask
    let s1 := s.modSyn c (fun x => { x with exitMask := 0, returned := s.synState c = synLocked })
    if m = 0 then s1 else s1.raise (SYN_EVT_BYPASS_EXIT c) 0 0x0304 c [(12, m)]

/-- A unit has come back in the return of cluster `c`. -/
def countBack (n c : Nat) (s : State) : State :=
  lossAtStart n ((unitBack n s).modSyn c (fun x => { x with exitMask := bitPut x.exitMask (n % 12) true }))

/-- A unit's bypass or return switch is carried out (R112). -/
def finishSwitch (n : Nat) (s : State) : State :=
  match (s.outOf n).sw with
  | some (.toLane l) =>
    ((s.modOut n (fun o => { o with sw := none })).set (OUT_STAT_CUR_SRC n) 3).set (OUT_STAT_CUR_LANE n) l
  | some (.back c) => returnEnds c (countBack n c s)
  | _ => s

/-- Returns of a region's other clusters whose last outstanding switch a loss has abandoned end (R117). -/
def endReturns (c : Nat) (old new : State) : State :=
  new.each 3 (fun i s =>
    let c' := 3 * (c / 3) + i
    if c' ≠ c ∧ old.returning c' then returnEnds c' s else s)

/-- Units of a region that a condition picks enter their on-loss condition by the loss of cluster `c`; its own return in progress is
abandoned (R119). -/
def loseUnits (c : Nat) (p : Nat → Bool) (s : State) : State :=
  let t := c / 3
  let s1 := s.each 12 (fun j s => if p (12 * t + j) then enterLoss (12 * t + j) c s else s)
  endReturns c s (s1.modSyn c (fun x => { x with exitMask := 0, returned := false }))

/-- Loss of lock or EN = 0 of a cluster: the affected units (R109), CLOCK_LOSS (R115), the return hold cancelled, the Wheel
(R133). -/
def clusterLost (c : Nat) (s : State) : State :=
  let t := c / 3
  let acts (n : Nat) : Bool := s.unitActsOn n c
  let mask := maskOf 12 (fun j => acts (12 * t + j))
  let used := (List.range 12).any (fun j => s.unitTakes (12 * t + j) c) || s.tbCluster t = some c
  let s1 := loseUnits c acts (s.set (SYN_STAT_RET_PEND c) 0)
  bypassEnter c s (if used then clockLoss c mask s1 else s1)

/-- Units in their on-loss condition return to a locked cluster (R117): those on a lane switch back at the first common low
(R112), the others at once. -/
def clusterReturn (c : Nat) (s : State) : State :=
  let t := c / 3
  let s1 := (s.set (SYN_STAT_RET_PEND c) 0).each 12 (fun j s =>
    let n := 12 * t + j
    let o := s.outOf n
    if s.unitOn n && s.onLoss n && bitOf o.lost (c % 3) then
      let s1 := s.modOut n (fun o => { o with lost := bitPut o.lost (c % 3) false })
      if bitPut o.lost (c % 3) false ≠ 0 then s1
      else if s.get (OUT_STAT_LOSS_KIND n) = 1 then s1.modOut n (fun o => { o with sw := some (.back c) })
      else countBack n c s1
    else s)
  returnEnds c s1

/-- BYPASS_SWITCH (R112): a unit's clock moves onto its lane, or back to the VCO at a return. -/
def execBypassSwitch (n : Fin 48) (s : State) : Out := .next (showRegion (n / 12) (finishSwitch n s))

/-! ### Retunes (R99, R104, R108) -/

/-- A full search starts (R104, R108): counted, the Wheel aborted. -/
def fullSearch (c : Nat) (s : State) : State :=
  let s1 := (s.set (SYN_STAT_STATE c) synSearching).bump (SYN_CNT_SEARCH_CNT c)
  wheelAbort c (s1.modSyn c (fun x => { x with kind := 3, due := false }))

/-- A retune starts (R104, R108): the plan is applied, the entry read once, RETUNE_START raised. -/
def startRetune (c : Nat) (p : Plan) (s : State) : State :=
  let s1 := applyPlan c p s
  let e := if p.ok then s1.findEntry c else none
  let kind := s1.searchKind c e
  let s2 := s1.modSyn c (fun x => { x with entry := e, kind := kind, returned := false, due := false })
  let s3 := ((s2.set (SYN_STAT_RETUNE c) 1).set (SYN_STAT_RET_PEND c) 0).set (SYN_STAT_STATE c) synSearching
  let s4 := if kind = 3 && p.ok then s3.bump (SYN_CNT_SEARCH_CNT c) else s3
  wheelAbort c (s4.pushEvt 0x0306 c (packBody [(28, s4.targetCode c), (2, kind)]))

/-- The cluster enters FAILED (R108). -/
def synFail (c : Nat) (s : State) : State :=
  ((s.set (SYN_STAT_STATE c) synFailed).set (SYN_STAT_RETUNE c) 0).raise (SYN_EVT_SEARCH_FAIL c) 0 0x0309 c [(28, s.targetCode c)]

/-- EN written 1 to an OFF cluster (R99, R108). -/
def synEnable (c : Nat) (s : State) : State :=
  if s.synState c ≠ synOff then s
  else showRegion (c / 3) (startRetune c (s.stagedPlan c) s)

/-- EN written 0 (R108, R115, R133): return switches on their way complete first, and those units re-enter their on-loss condition
(R119). -/
def synDisable (c : Nat) (s : State) : State :=
  if s.synState c = synOff then s else
  let s0 := s.each 12 (fun j s => if (s.outOf (12 * (c / 3) + j)).sw = some (.back c) then finishSwitch (12 * (c / 3) + j) s else s)
  let s1 := (s0.set (SYN_STAT_STATE c) synOff).set (SYN_STAT_RETUNE c) 0
  let s2 := clusterLost c (s1.modSyn c (fun x => { x with due := false }))
  showRegion (c / 3) (wheelAbort c s2)

/-- An APPLY or a HOP is accepted (R99): EN is 1, the Wheel is not running, no retune is in progress, and the plan lies within
R97. -/
def State.applyAccepted (s : State) (c : Nat) (p : Plan) : Bool :=
  s.on (SYN_CTL_EN c) && !s.wheelRuns c && !s.on (SYN_STAT_RETUNE c) && p.ok

/-- APPLY or HOP (R99, R108): the retune starts, and the units taking the cluster's clock enter their on-loss condition, with no
CLOCK_LOSS. -/
def synApply (c : Nat) (p : Plan) (s : State) : State :=
  let s1 := startRetune c p (wheelRetune c s)
  showRegion (c / 3) (bypassEnter c s1 (loseUnits c (fun n => s.unitTakes n c) s1))

/-- HOP (R99): the four staged values are written and applied in one step. -/
def cmdHop (c nInt path num den : Nat) (s : State) : CmdRes :=
  let p := s.plan c nInt path num den
  if 14 ≤ nInt ∧ nInt ≤ 288 ∧ path < 4 ∧ num < den ∧ s.applyAccepted c p then
    let s1 := ((s.set (SYN_N_INT_N_INT c) nInt).set (SYN_N_INT_PATH c) path).set (SYN_N_DEN_DEN c) den
    cmdOk (synApply c p (s1.set (SYN_N_NUM_NUM c) num))
  else cmdIgnored s

/-- The core and band a search may close the loop on (R104): the stored band for a hop, eight bands around BAND for a guided
search, any core whose range holds the target for a full one. -/
def State.searchAllows (s : State) (c core band : Nat) : Bool :=
  let x := s.synOf c
  match x.kind, x.entry with
  | 3, _ =>
    let f := s.rref (c / 3) * x.num
    (coreRange core).1 * 100 * x.den ≤ f && f ≤ (coreRange core).2 * 100 * x.den
  | 0, some (_, e) => core = entCore e && band = s.get (SYN_SLOT_BAND c (entCore e) (entSlot e))
  | _, some (_, e) => core = entCore e && entBand e ≤ band + 8 && band ≤ entBand e + 8
  | _, none => false

/-- BAND_SEARCH_DONE (R104, R108): an out-of-range retune fails at once; a search closes the loop on a core and band; only a full
search may find none. -/
def execBandSearchDone (c : Fin 12) (found : Bool) (core : Fin 4) (band vt : Byte) (s : State) : Out :=
  .next <|
    if s.synState c ≠ synSearching then s
    else if (s.synOf c).outOfRange then showRegion (c / 3) (synFail c s)
    else if !found then (if (s.synOf c).kind = 3 then showRegion (c / 3) (synFail c s) else s)
    else if s.searchAllows c core.val band.toNat then
      (((s.set (SYN_STAT_STATE c) synAcquiring).set (SYN_STAT_CORE c) core).set (SYN_STAT_BAND c) band.toNat).set (SYN_STAT_VT c)
        vt.toNat
    else s

/-- HOP_MISS (R104, R108): the settled VT of a hop lies outside the entry's window; the slot is no longer VALID and a guided
search follows. -/
def execHopMiss (c : Fin 12) (vt : Byte) (s : State) : Out :=
  .next <|
    match (s.synOf c).entry with
    | some (i, e) =>
      if s.synState c = synAcquiring ∧ (s.synOf c).kind = 0 ∧ (vt.toNat < entVtLo e ∨ entVtHi e < vt.toNat) then
        let s1 := ((s.set (SYN_STAT_VT c) vt.toNat).set (SYN_STAT_STATE c) synSearching).set (SYN_SLOT_VALID c (entCore e) (entSlot e)) 0
        (s1.modSyn c (fun x => { x with kind := 1 })).raise (SYN_EVT_HOP_MISS c) 0 0x0308 c [(7, i), (8, vt.toNat)]
      else s
    | none => s

/-- ACQUIRE_TIMEOUT (R108): 1 ms in ACQUIRING without lock: a full search, or FAILED where the last search was full. -/
def execAcquireTimeout (c : Fin 12) (s : State) : Out :=
  .next <|
    if s.synState c = synAcquiring then
      showRegion (c / 3) (if (s.synOf c).kind = 3 then synFail c s else fullSearch c s)
    else s

/-- RESEARCH_TIMEOUT (R108): no FREE-RUN unit follows the cluster. -/
def State.freeRunFollows (s : State) (c : Nat) : Bool :=
  (List.range 12).any (fun j => s.unitTakes (12 * (c / 3) + j) c && s.get (OUT_STAT_LOSS_KIND (12 * (c / 3) + j)) = 3)

/-- RESEARCH_TIMEOUT (R108): RESRCH ms unlocked; the full search waits for the last FREE-RUN unit to stop following. -/
def execResearchTimeout (c : Fin 12) (s : State) : Out :=
  .next <|
    if s.synState c ≠ synUnlocked then s
    else if s.freeRunFollows c then s.modSyn c (fun x => { x with due := true })
    else showRegion (c / 3) (fullSearch c (s.modSyn c (fun x => { x with entry := none })))

/-- The condition of R108's last row is evaluated again after a unit has stopped following a cluster. -/
def followCheck (t : Nat) (s : State) : State :=
  s.each 3 (fun i s =>
    let c := 3 * t + i
    if (s.synOf c).due && s.synState c = synUnlocked && !s.freeRunFollows c then
      fullSearch c (s.modSyn c (fun x => { x with entry := none }))
    else s)

/-! ### Lock and loss of lock (R107, R108, R117) -/

/-- The result of a search stored in the entry's slot (R104, R105): with the lock of the retune, so a retune that ends in FAILED stores
none (log entry 149: DESIGN CHOICE). -/
def storeSlot (c : Nat) (s : State) : State :=
  let x := s.synOf c
  match x.entry with
  | some (i, e) =>
    if entSlotEn e && x.kind ≠ 0 then
      let v := entCore e
      let k := entSlot e
      (((s.set (SYN_SLOT_BAND c v k) (s.get (SYN_STAT_BAND c))).set (SYN_SLOT_VT c v k) (s.get (SYN_STAT_VT c))).set
        (SYN_SLOT_ENTRY c v k) i).set (SYN_SLOT_VALID c v k) 1
    else s
  | none => s

/-- The maximum output frequency of a format in Hz (R143). -/
def fmtMax (fmt : Nat) : Nat := [2750000000, 2750000000, 400000000, 400000000, 1500000000, 250000000].getD fmt 0

/-- The supply classes a format permits (R143). -/
def fmtClasses (fmt : Nat) : List Nat := [[2, 3, 4], [2, 3, 4], [3, 4], [2, 3, 4], [3, 4], [0, 1, 2, 3, 4]].getD fmt []

/-- A disabled unit leaves a pending REALIGN, which still applies to its other units; an OUT_RSYNC is dropped as a whole (R158,
R161). -/
def dropAlignDisabled (n : Nat) (s : State) : State :=
  let t := n / 12
  let m := s.realignMask t
  let s1 :=
    if bitOf m (n % 12) then
      let m' := bitPut m (n % 12) false
      let s1 := (s.modTrg t (fun g => { g with realign := if m' = 0 then none else g.realign.map (fun x => (m', x.2)) })).set
        (OUT_STAT_ALIGN_PEND n) 0
      if m' = 0 then s1.set (TRG_STAT_REALIGN_PEND t) 0 else s1
    else s
  if bitOf (s1.rsyncMask t) (n % 12) then dropRsync t 4 s1 else s1

/-- A unit stops (R152, R161): a bypass or return switch on its way completes, and the unit then ends low, and at high impedance where
OFF_Z is 1 or its bank is lost. A FRAME unit keeps its staged values and stays stale: only a REALIGN changes either (R118, R155). -/
def unitStop (n : Nat) (hiZ : Bool) (s : State) : State :=
  let s1 := (dropAlignDisabled n (finishSwitch n s)).modOut n (fun o => { o with lost := 0, sw := none, hiZ := hiZ })
  let s2 := ((s1.set (OUT_CTL_EN n) 0).set (OUT_STAT_STATE n) outOff).set (OUT_STAT_LOSS_KIND n) 0
  followCheck (n / 12) (s2.set (OUT_STAT_WALKING n) 0)

/-- A unit's output frequency follows a cluster: its mux is at the cluster, or at a lane the cluster feeds as a sibling (R111, R146). -/
def State.fedBy (s : State) (n c : Nat) : Bool :=
  let o := s.outOf n
  let l := 3 * (n / 12) + o.lane
  s.unitTakes n c ||
    (s.unitOn n && n / 12 = c / 3 && o.src = 3 && s.get (SYN_BYP_SRC l) ≠ 0 && sibling l (s.get (SYN_BYP_SRC l)) = c)

/-- At a retune's lock, units above their format's maximum are disabled with OUT_RANGE (R146, R161), whose record carries the frequency to
the nearest kHz (log entry 111: DESIGN CHOICE). -/
def retuneRange (c : Nat) (s : State) : State :=
  s.each 12 (fun j s =>
    let n := 12 * (c / 3) + j
    let fmt := s.get (OUT_CTL_FMT n)
    let f := (s.fSource n (s.outOf n).src (s.outOf n).lane).over ((s.outOf n).div + 1)
    if s.fedBy n c && !f.atMost (fmtMax fmt) then
      (unitStop n (s.on (OUT_CTL_OFF_Z n)) s).raise (OUT_EVT_OUT_RANGE n) 0 0x0500 n [(3, fmt), (32, f.inUnits 1000)]
    else s)

/-- The return hold starts where RET_AUTO is 1 (R117). -/
def startHold (c : Nat) (s : State) : State := if s.on (SYN_CTL_RET_AUTO c) then s.set (SYN_STAT_RET_PEND c) 1 else s

/-- A sample of the lock detector lies within ±WIN ps: `err` is its averaged phase error, signed ps (R107). -/
def State.inWindow (s : State) (c : Nat) (err : Word) : Bool := err.toInt.natAbs ≤ s.get (SYN_LD_WIN c)

/-- SYN_LOCK (R107, R108), with the last sample's error and the run of samples it ends: lock is declared after LK_CNT consecutive samples
within the window. The end of a retune stores the slot, disables units out of range and returns the others at once; other
locks start the return hold. The Wheel goes on under LOL_POL. -/
def execSynLock (c : Fin 12) (vt : Byte) (err : Word) (run : Byte) (s : State) : Out :=
  .next <|
    if s.synState c ≠ synAcquiring ∧ s.synState c ≠ synUnlocked then s else
    if !s.inWindow c err ∨ run.toNat < s.get (SYN_LD_LK_CNT c) then s else
    let missed : Bool := match (s.synOf c).entry with
      | some (_, e) => s.synState c = synAcquiring && (s.synOf c).kind = 0 && (vt.toNat < entVtLo e || entVtHi e < vt.toNat)
      | none => false
    if missed then s else
    let s1 := ((s.set (SYN_STAT_VT c) vt.toNat).set (SYN_STAT_STATE c) synLocked).modSyn c (fun x => { x with due := false })
    let s2 := s1.raise (SYN_EVT_SYN_LOCK c) 0 0x0302 c [(2, s1.get (SYN_STAT_CORE c)), (8, s1.get (SYN_STAT_BAND c)), (8, vt.toNat)]
    let s3 :=
      if s.on (SYN_STAT_RETUNE c) then
        let s3 := (storeSlot c s2).set (SYN_STAT_RETUNE c) 0
        let s4 := s3.raise (SYN_EVT_RETUNE_DONE c) 0 0x0307 c [(28, s3.targetCode c), (2, (s3.synOf c).kind)]
        clusterReturn c (retuneRange c s4)
      else startHold c s2
    showRegion (c / 3) (wheelLock c s3)

/-- LOL (R107, R108), with the last averaged phase error and the run of samples it ends: loss of lock is declared after UL_CNT consecutive
samples outside the window. A sample closed by a missing edge reads 0x7FFF_FFFF and lies outside it (R120). -/
def execLol (c : Fin 12) (err : Word) (run : Byte) (s : State) : Out :=
  .next <|
    if s.synState c ≠ synLocked ∨ s.inWindow c err ∨ run.toNat < s.get (SYN_LD_UL_CNT c) then s else
    let s1 := (s.set (SYN_STAT_STATE c) synUnlocked).bump (SYN_CNT_LOL_CNT c)
    let s2 := s1.raise (SYN_EVT_LOL c) 0 0x0300 c [(32, satS32 err.toInt)]
    showRegion (c / 3) (wheelLol c (clusterLost c s2))

/-- RETURN_HOLD_EXPIRE (R29, R117): the hold is timed on the main LO. -/
def execReturnHoldExpire (c : Fin 12) (s : State) : Out :=
  .next <|
    if s.on (SYN_STAT_RET_PEND c) ∧ s.synState c = synLocked ∧ s.pkg_.loRuns then showRegion (c / 3) (clusterReturn c s) else s

/-- BYPASS_RETURN (R117): refused unless the cluster is LOCKED. -/
def cmdBypassReturn (c : Nat) (s : State) : CmdRes :=
  if s.synState c = synLocked then cmdOk (showRegion (c / 3) (clusterReturn c s)) else cmdIgnored s

/-- RET_AUTO written (R117): 1 starts the hold while LOCKED with units in their on-loss condition; 0 cancels it. -/
def retAutoWritten (c : Nat) (new : Bool) (s : State) : State :=
  if !new then showRegion (c / 3) (s.set (SYN_STAT_RET_PEND c) 0)
  else if s.synState c = synLocked ∧ s.get (SYN_STAT_RET_PEND c) = 0 ∧
      (List.range 12).any (fun j => s.onLoss (12 * (c / 3) + j) && bitOf (s.outOf (12 * (c / 3) + j)).lost (c % 3)) then
    showRegion (c / 3) (s.set (SYN_STAT_RET_PEND c) 1)
  else s

/-! ### Write rules of the SYN registers -/

/-- A unit is on the lane of a cluster: in bypass on it, or its mux names it, also where the change to it waits for its instant (R111,
R148). -/
def State.laneInUse (s : State) (c : Nat) : Bool :=
  (List.range 12).any (fun j =>
    let n := 12 * (c / 3) + j
    let o := s.outOf n
    s.unitOn n && ((o.src = 3 && o.lane = c % 3) || (s.get (OUT_CTL_SRC n) = 3 && s.get (OUT_CTL_LANE n) = c % 3) ||
      (s.get (OUT_STAT_LOSS_KIND n) = 1 &&
      ((s.get (OUT_STAT_CUR_SRC n) = 3 && s.get (OUT_STAT_CUR_LANE n) = c % 3) || o.sw = some (.toLane (c % 3))))))

/-- The rules a write of a SYN register must satisfy (R98, R99, R103, R111). -/
def synRule (r : Reg) (new : Word) (s : State) : Bool :=
  let c := r.i
  match r.name with
  | .SYN_N_NUM => new.toNat < s.get (SYN_N_DEN_DEN c)
  | .SYN_N_DEN => s.get (SYN_N_NUM_NUM c) < new.toNat
  | .SYN_APPLY => wordGet new 0 1 = 0 || s.applyAccepted c (s.stagedPlan c)
  | .SYN_BYP =>
    let bn := wordGet new 8 8
    !s.laneInUse c && (if wordGet new 0 2 = 0 then 8 ≤ bn && bn ≤ 128 else 4 ≤ bn && bn ≤ 64)
  | .SYN_BLOAD_DATA => (s.synOf c).load.isSome
  | .SYN_SLOT => false
  | .SYN_BAND => false
  | _ => true

/-- The power regions that pair with a timing region pass through their fallback (R20, R114). -/
def passFallback (t : Nat) (s : State) : State :=
  s.each 4 (fun p s => if s.get (PRG_TBSEL_TRG p) = t then s.modPrg p (fun g => { g with passDue := true }) else s)

/-- The Wheel's offset has moved: what hangs on the output rates and on the timebase follows (R124, R139, R182). -/
def wheelMoved (c : Nat) (old new : State) : State := if old.ofs c = new.ofs c then new else showRegion (c / 3) new

/-- RAMP_TICK (R125): a Wheel in RUNNING applies at most one step. -/
def execRampTick (c : Fin 12) (s : State) : Out := .next (wheelMoved c s (wheelTick c s))

/-- What an applied write of an RMP register sets off in the region. -/
def rmpMoved (r : Reg) (new : Word) (s : State) : State := wheelMoved r.i s (rmpAfter r new s)

/-- What an applied write of a SYN register sets off. Moving TB_EN or changing TBDIV passes the paired regions through their fallback,
also where the cluster does not supply the timebase (R114; log entry 113: DEDUCED). -/
def synAfter (r : Reg) (old new : Word) (s : State) : State :=
  let c := r.i
  match r.name with
  | .SYN_CTL =>
    if wordGet old 0 1 ≠ wordGet new 0 1 then (if wordGet new 0 1 = 1 then synEnable c s else synDisable c s)
    else if wordGet old 1 1 ≠ wordGet new 1 1 then retAutoWritten c (wordGet new 1 1 = 1) s
    else s
  | .SYN_APPLY => if wordGet new 0 1 = 1 then synApply c (s.stagedPlan c) s else s
  | .SYN_BYP => showRegion (c / 3) s
  | .SYN_TB => showRegion (c / 3) (if old ≠ new then passFallback (c / 3) s else s)
  | .SYN_BLOAD_CTL => if wordGet new 0 1 = 1 then bandLoadStart c s else s
  | .SYN_BLOAD_DATA => bandLoadData c new s
  | _ => s

end Sys2Proof.Machine
end

