-- ==== Sys2Proof/Machine/Output.lean ====
section
/-! DEFINITION. Sys2Proof/Machine/Output.lean: output units: banks, formats, the Avenue mux, dividing and delaying, enable and
disable, alignment and echoes (chapter 06, R143 to R164). -/

namespace Sys2Proof.Machine

/-! ### Banks (R145) -/

/-- The nominal voltage of a class in mV (R145). -/
def classMv (cls : Nat) : Nat := [1200, 1500, 1800, 2500, 3300].getD cls 0

/-- A measured VDDO in 20 mV units lies within ±10 % of a class (R145). -/
def bankInBand (cls v : Nat) : Bool := decide (9 * classMv cls ≤ 200 * v) && decide (200 * v ≤ 11 * classMv cls)

/-- BANK_LOSS (R145): VDDO has lain outside its band; every enabled unit of the bank is disabled, and each unit's driver goes to high
impedance. -/
def execBankLoss (b : Fin 8) (v : Byte) (s : State) : Out :=
  .next <|
    if bankInBand (s.get (OUT_BANK_VCLASS b)) v.toNat then s else
    let s1 := (s.set (OUT_BANK_VMEAS b) v.toNat).set (OUT_BANK_BANK_OK b) 0
    let s2 := s1.each 6 (fun j s =>
      let n := 6 * b.val + j
      if s.unitOn n then (unitStop n true s).raise (OUT_EVT_BANK_LOSS n) 0 0x0501 n [(32, b), (8, v.toNat)]
      else s.modOut n (fun o => { o with hiZ := true }))
    showRegion (b / 2) s2

/-- BANK_SUPPLY_RETURN (R145): VDDO lies within its band again and BANK_OK sets. -/
def execBankSupplyReturn (b : Fin 8) (v : Byte) (s : State) : Out :=
  .next <|
    if bankInBand (s.get (OUT_BANK_VCLASS b)) v.toNat then (s.set (OUT_BANK_VMEAS b) v.toNat).set (OUT_BANK_BANK_OK b) 1 else s

/-! ### Enable and disable (R152) -/

/-- The format is permitted at the bank's class, the bank is good, and the output frequency does not exceed the format's maximum
(R143, R146). -/
def State.formatOk (s : State) (n fmt src lane div : Nat) : Bool :=
  (fmtClasses fmt).contains (s.get (OUT_BANK_VCLASS (n / 6))) && s.on (OUT_BANK_BANK_OK (n / 6)) &&
    ((s.fSource n src lane).over (div + 1)).atMost (fmtMax fmt)

/-- The applied values of a unit are those of its registers. -/
def applyUnit (n : Nat) (s : State) : State :=
  s.modOut n (fun o => { o with div := s.get (OUT_DIV_DIV n), coarse := s.get (OUT_DLY_COARSE n), fine := s.get (OUT_DLY_FINE n)
                                fcnt := s.get (OUT_FRAME_FCNT n), pw := s.get (OUT_PW_PW n) })

/-- STAGED of a FRAME unit: its registers differ from what is applied (R155); a disabled one keeps its staged values (R161). -/
def showStaged (n : Nat) (s : State) : State :=
  let o := s.outOf n
  s.put (OUT_STAT_STAGED n) (s.get (OUT_CTL_ROLE n) = 1 &&
    (o.div ≠ s.get (OUT_DIV_DIV n) || o.coarse ≠ s.get (OUT_DLY_COARSE n) || o.fine ≠ s.get (OUT_DLY_FINE n) ||
      o.fcnt ≠ s.get (OUT_FRAME_FCNT n) || o.pw ≠ s.get (OUT_PW_PW n)))

/-- The values of a unit's registers apply, but for those a FRAME unit holds staged (R155, R161). -/
def applyUnstaged (n : Nat) (s : State) : State :=
  if s.get (OUT_CTL_ROLE n) = 1 && s.on (OUT_STAT_STAGED n) then s else showStaged n (applyUnit n s)

/-- The mux of a unit moves to the source OUT_CTL names, the source in use (R147). -/
def applySource (n : Nat) (s : State) : State :=
  let s1 := (muxToCtl n s).modOut n (fun o => { o with sw := none })
  (s1.set (OUT_STAT_CUR_SRC n) (s.get (OUT_CTL_SRC n))).set (OUT_STAT_CUR_LANE n) (s.get (OUT_CTL_LANE n))

/-- EN written 1 (R152): the unit starts on the source its mux names. -/
def unitStart (n : Nat) (s : State) : State :=
  let s1 := (applySource n (applyUnstaged n s)).modOut n (fun o => { o with lost := 0, denied := false, hiZ := false })
  let s2 := (s1.set (OUT_STAT_STATE n) outRunning).set (OUT_STAT_LOSS_KIND n) 0
  showRegion (n / 12) (lossAtStart n s2)

/-- EN written 0 (R152). -/
def unitDisable (n : Nat) (s : State) : State := showRegion (n / 12) (unitStop n (s.on (OUT_CTL_OFF_Z n)) s)

/-- A FREE-RUN unit that has moved to another source leaves the losses it no longer acts on (R109); with none left it is in no on-loss
condition (log entry 112). -/
def leaveLosses (n : Nat) (s : State) : State :=
  let lost := maskOf 3 (fun i => bitOf (s.outOf n).lost i && s.unitActsOn n (3 * (n / 12) + i))
  let s1 := s.modOut n (fun o => { o with lost := lost })
  if s.onLoss n && lost = 0 then (s1.set (OUT_STAT_LOSS_KIND n) 0).set (OUT_STAT_STATE n) outRunning else s1

/-- AVENUE_MUX_SWITCH (R147): a changed source is switched to at the first common low; onto a cluster that is not LOCKED the unit
enters its on-loss condition. The unit may have been the last FREE-RUN unit to follow a cluster (R108). -/
def execAvenueMuxSwitch (n : Fin 48) (s : State) : Out :=
  .next <|
    if s.unitOn n ∧ (s.outOf n).sw = some .mux then
      showRegion (n / 12) (followCheck (n / 12) (lossAtStart n (leaveLosses n (applySource n s))))
    else s

/-! ### What the pins carry (R143, R144, R152) -/

/-- The output is at high impedance: its driver is, or its T-die is isolated (R24, R152). -/
def State.outZ (s : State) (n : Nat) : Bool := (s.outOf n).hiZ || s.isolated (dieOfOut n)

/-- The two legs of an output, P and N, at a level of the unit's clock; none at high impedance. The N leg carries the inverse, but for
LVCMOS IN_PHASE, where both carry the clock (R144). -/
def State.outLegs (s : State) (n : Nat) (level : Bool) : Option (Bool × Bool) :=
  if s.outZ n then none
  else some (level, if s.get (OUT_CTL_FMT n) = 5 && s.get (OUT_CTL_CMOS n) = 0 then level else !level)

/-- The legs of a unit in its low state: P low, N low in LVCMOS IN_PHASE and high otherwise (R144). -/
def State.lowLegs (s : State) (n : Nat) : Option (Bool × Bool) := s.outLegs n false

/-! ### Alignment (R155, R156, R158) -/

/-- The pacing unit of a mask: its lowest-indexed unit (R91, R158). -/
def pacingUnit (t mask : Nat) : Nat := 12 * t + ((bitsOf 12 mask).headD 0)

/-- REALIGN_DONE (R91, R155, R156), with the rising edges of the pacing unit since acceptance: at the K-th the named units are re-phased
to the selected candidate and their staged values apply. An edge that comes before the hold of a lost candidate still applies it (R93);
the hold itself drops the REALIGN. -/
def execRealignDone (t : Fin 4) (edges : BitVec 16) (s : State) : Out :=
  .next <|
    match (bankGet s.trg t.val).realign with
    | some (m, k) =>
      if edges.toNat < k then s else
      let s1 := (clearAlignPend t m (s.rsyncMask t) (s.modTrg t (fun g => { g with realign := none }))).set
        (TRG_STAT_REALIGN_PEND t) 0
      let s2 := s1.each 12 (fun j s =>
        let n := 12 * t.val + j
        if bitOf m j then
          let s1 := epochRealigned n (showStaged n (applyUnit n (s.set (OUT_STAT_FRAME_STALE n) 0)))
          s1.raise (OUT_EVT_ALIGNED n) 0 0x0503 n [(12, m)]
        else s)
      showRegion t (s2.raise (TRG_EVT_REALIGN_DONE t) 0 0x0205 t [(12, m)])
    | none => s

/-- OUT_RSYNC is accepted: the region LOCKED, a non-empty mask of enabled CLOCK units in no on-loss condition, K at least 1
(R158). -/
def State.rsyncOk (s : State) (t mask k : Nat) : Bool :=
  s.dpll t = dpllLocked && mask ≠ 0 && k ≠ 0 && (bitsOf 12 mask).all (fun j =>
    s.unitOn (12 * t + j) && s.get (OUT_CTL_ROLE (12 * t + j)) = 0 && !s.onLoss (12 * t + j))

/-- An accepted OUT_RSYNC replaces a pending one (R158). -/
def rsyncArm (t mask k : Nat) (s : State) : State :=
  let s0 := clearAlignPend t (s.rsyncMask t) (s.realignMask t) s
  let s1 := s0.each 12 (fun j s => if bitOf mask j then s.set (OUT_STAT_ALIGN_PEND (12 * t + j)) 1 else s)
  ((s1.modTrg t (fun g => { g with rsyncK := k })).set (OUT_RSYNC_STAT_PEND t) 1).set (OUT_RSYNC_STAT_PMASK t) mask

/-- ALIGNED (R158), with the rising edges of the pacing unit since acceptance: at the K-th every named unit is re-phased. -/
def execAligned (t : Fin 4) (edges : BitVec 16) (s : State) : Out :=
  .next <|
    if s.on (OUT_RSYNC_STAT_PEND t) ∧ (bankGet s.trg t.val).rsyncK ≤ edges.toNat then
      let m := s.get (OUT_RSYNC_STAT_PMASK t)
      let s1 := ((clearAlignPend t m (s.realignMask t) s).set (OUT_RSYNC_STAT_PEND t) 0).set (OUT_RSYNC_STAT_LAST t) 1
      s1.each 12 (fun j s =>
        let n := 12 * t.val + j
        if bitOf m j then s.raise (OUT_EVT_ALIGNED n) 0 0x0503 n [(12, m)] else s)
    else s

/-! ### Dividing, delaying and echoing (R151, R157) -/

/-- FINE_WALK_DONE (R151). -/
def execFineWalkDone (n : Fin 48) (s : State) : Out :=
  .next <|
    if s.on (OUT_STAT_WALKING n) then
      (s.modOut n (fun o => { o with fine := s.get (OUT_DLY_FINE n) })).set (OUT_STAT_WALKING n) 0
    else s

/-- A sync input carries its function: pin MFP(34 + i) is at F1 (R366, R367). -/
def State.syncInOn (s : State) (i : Nat) : Bool := s.get (PIN_CFG_FN_CUR (34 + i)) = 1 && !bitOf s.pin.bankLow ((34 + i) / 16)

/-- SYNC_IN_EDGE (R157, R161): an edge of a sync input reaches every echo unit that names it with that sense; where the unit's
echo is high (`high`, bit n for OUTn) the edge is discarded and counted. -/
def execSyncInEdge (i : Fin 8) (falling : Bool) (high : BitVec 48) (s : State) : Out :=
  .next <|
    if s.syncInOn i then
      s.each 48 (fun n s =>
        if s.unitOn n && s.get (OUT_CTL_ROLE n) = 2 && s.get (OUT_ECHO_SEL n) = i.val && s.on (OUT_ECHO_INV n) = falling &&
            s.get (OUT_STAT_LOSS_KIND n) ≠ 2 && s.linked dieC (dieOfOut n) then
          if bitOf high.toNat n then
            (s.bump (OUT_CNT_OVERRUN_CNT n)).raise (OUT_EVT_ECHO_OVERRUN n) 0 0x0502 n [(3, i)]
          else s.bump (OUT_CNT_ECHO_CNT n)
        else s)
    else s

/-! ### Write rules of the OUT registers -/

/-- An enable in a role finds values a FRAME unit holds staged, which stay staged (R161). -/
def State.startsStaged (s : State) (n role : Nat) : Bool := role = 1 && s.on (OUT_STAT_STAGED n)

/-- The divider a unit enabled in a role runs at (R146, R161). -/
def State.startDiv (s : State) (n role : Nat) : Nat := if s.startsStaged n role then (s.outOf n).div else s.get (OUT_DIV_DIV n)

/-- A frame of FCNT + 1 divider periods holds a pulse of PW (R154). -/
def frameOk (fcnt pw : Nat) : Bool := fcnt ≠ 0 && pw ≤ fcnt

/-- A FRAME unit may be enabled (R154): its registers, and the values it runs at where those are staged, hold FCNT above 0 and PW below
F. -/
def State.startFrameOk (s : State) (n : Nat) : Bool :=
  frameOk (s.get (OUT_FRAME_FCNT n)) (s.get (OUT_PW_PW n)) && (!s.startsStaged n 1 || frameOk (s.outOf n).fcnt (s.outOf n).pw)

/-- A divider suits an enabled unit's format on the source in use, and on the one an accepted change is moving it to (R146). -/
def State.divOk (s : State) (n div : Nat) : Bool :=
  let o := s.outOf n
  s.formatOk n (s.get (OUT_CTL_FMT n)) o.src o.lane div &&
    (o.sw ≠ some .mux || s.formatOk n (s.get (OUT_CTL_FMT n)) (s.get (OUT_CTL_SRC n)) (s.get (OUT_CTL_LANE n)) div)

/-- OUT_CTL (R143, R146, R147, R153, R154, R163, R202). While EN is 1 a change of FMT or ROLE is ignored, and a change of SRC is judged,
also in a write that clears EN. -/
def outCtlRule (n : Nat) (old new : Word) (s : State) : Bool :=
  let fmt := wordGet new 1 3
  let src := wordGet new 8 2
  let lane := wordGet new 10 2
  let role := wordGet new 4 2
  let wasOn := wordGet old 0 1 = 1
  let on := wordGet new 0 1 = 1
  !(fmt = 5 && wordGet new 15 2 ≠ 0) && !(on && s.depBlocksUnit n) &&
  (if wasOn then
    wordGet old 1 5 = wordGet new 1 5 &&
      (wordGet old 8 4 = wordGet new 8 4 ||
        (!s.onLoss n && (wordGet old 8 2 = src || s.formatOk n fmt src lane (s.outOf n).div)))
  else if on then
    s.formatOk n fmt src lane (s.startDiv n role) && (role ≠ 1 || s.startFrameOk n)
  else true)

/-- The rules a write of an OUT register must satisfy. -/
def outRule (r : Reg) (old new : Word) (s : State) : Bool :=
  let n := r.i
  match r.name with
  | .OUT_CTL => outCtlRule n old new s
  | .OUT_DIV => !s.unitOn n || (!s.onLoss n && s.divOk n (wordGet new 0 24))
  | .OUT_FRAME => !(s.unitOn n && s.get (OUT_CTL_ROLE n) = 1) || s.get (OUT_PW_PW n) ≤ new.toNat
  | .OUT_PW => !(s.unitOn n && s.get (OUT_CTL_ROLE n) = 1) || wordGet new 0 24 ≤ s.get (OUT_FRAME_FCNT n)
  | .OUT_BANK => (List.range 6).all (fun j => !s.unitOn (6 * n + j))
  | .OUT_RSYNC => s.rsyncOk n (wordGet new 0 12) (wordGet new 12 16)
  | _ => true

/-- OUT_CTL written while the unit stays disabled: the mux, the values of a unit that no longer stages, and the driver, which a lost bank
keeps at high impedance (R145, R152). -/
def unitConfigured (n : Nat) (s : State) : State :=
  (applyUnstaged n (muxToCtl n s)).modOut n
    (fun o => { o with hiZ := s.on (OUT_CTL_OFF_Z n) || (o.hiZ && !s.on (OUT_BANK_BANK_OK (n / 6))) })

/-- What an applied write of an OUT register sets off: the divider, delay and frame registers of an enabled FRAME unit are staged, and
every other write applies at once (R151, R155). -/
def outAfter (r : Reg) (old new : Word) (s : State) : State :=
  let n := r.i
  let frame := s.get (OUT_CTL_ROLE n) = 1
  let staged := s.unitOn n && frame
  let applied (f : OutInt → OutInt) : State := showStaged n (if staged then s else s.modOut n f)
  match r.name with
  | .OUT_CTL =>
    if wordGet old 0 1 = 0 && wordGet new 0 1 = 1 then unitStart n s
    else if wordGet old 0 1 = 1 && wordGet new 0 1 = 0 then unitDisable n s
    else if wordGet new 0 1 = 0 then showRegion (n / 12) (unitConfigured n s)
    else if wordGet old 8 4 ≠ wordGet new 8 4 then s.modOut n (fun o => { o with sw := some .mux })
    else s
  | .OUT_DIV => showRegion (n / 12) (applied (fun o => { o with div := wordGet new 0 24 }))
  | .OUT_DLY =>
    if s.unitOn n && !frame then
      (s.modOut n (fun o => { o with coarse := wordGet new 16 16 })).put (OUT_STAT_WALKING n)
        (s.on (OUT_STAT_WALKING n) || (s.outOf n).fine ≠ wordGet new 0 8)
    else applied (fun o => { o with coarse := wordGet new 16 16, fine := wordGet new 0 8 })
  | .OUT_FRAME => showRegion (n / 12) (applied (fun o => { o with fcnt := new.toNat }))
  | .OUT_PW => applied (fun o => { o with pw := wordGet new 0 24 })
  | .OUT_BANK => s.put (OUT_BANK_BANK_OK n) (bankInBand (wordGet new 0 3) (s.get (OUT_BANK_VMEAS n)))
  | .OUT_RSYNC => rsyncArm n (wordGet new 0 12) (wordGet new 12 16) s
  | _ => s

end Sys2Proof.Machine
end

