-- ==== Sys2Proof/Machine/Pin.lean ====
section
/-! DEFINITION. Sys2Proof/Machine/Pin.lean: multi-function pins, GPIO, external fault inputs, PWMX and logic capture (chapter 14,
R365 to R385). -/

namespace Sys2Proof.Machine

/-! ### Functions (R366 to R368) -/

/-- The peripheral functions a pin can carry. -/
inductive PinFn where
  | spi | uart | pmb | i3c | seqOut | frmOut | pgx | faultOut | pwmx | syncIn | faultIn
deriving DecidableEq, Repr

/-- The functions of a pin, F1 first (R367). -/
def pinFns (i : Nat) : List PinFn :=
  if i < 6 then [.spi]
  else if i < 8 then [.uart]
  else if i < 24 then [.seqOut, .frmOut, .pgx]
  else if i < 27 then [.pmb]
  else if i < 29 then [.i3c]
  else if i < 30 then [.faultOut, .seqOut]
  else if i < 34 then [.pwmx, .seqOut]
  else if i < 42 then [.syncIn]
  else if i < 56 then [.faultOut, .pgx, .seqOut, .frmOut]
  else if i < 60 then [.faultIn]
  else []

/-- A peripheral is enabled (R368). -/
def State.fnEnabled (s : State) : PinFn → Bool
  | .spi => s.on PIN_PEN_SPI
  | .uart => s.on PIN_PEN_UART
  | .pmb => s.on MGT_PMB_CFG_EN
  | .i3c => s.on MGT_I3C_CFG_EN
  | .seqOut => s.on PIN_PEN_SEQ
  | .frmOut => s.on PIN_PEN_FRM
  | .pgx => s.on PIN_PEN_PGX
  | .faultOut => s.on PIN_PEN_FOUT
  | .pwmx => s.on PIN_PEN_PWMX
  | .syncIn => s.on PIN_PEN_SYNC
  | .faultIn => s.on PIN_PEN_FIN

/-- The function code the settings give a pin: 5 analogue, the highest-ranked candidate, or 0 for GPIO (R366). -/
def State.fnWanted (s : State) (i : Nat) : Nat :=
  if s.on (PIN_CFG_ANA i) then 5
  else
    match (pinFns i).zipIdx.find? (fun fk => s.fnEnabled fk.1 && !s.bit (PIN_CFG_FMASK i) fk.2) with
    | some fk => fk.2 + 1
    | none => 0

/-- A pin carries a function now. -/
def State.pinCarries (s : State) (i : Nat) (f : PinFn) : Bool :=
  1 ≤ s.get (PIN_CFG_FN_CUR i) && (pinFns i)[s.get (PIN_CFG_FN_CUR i) - 1]? = some f

/-- The handovers of a pin: the function it is going to and those it goes to afterwards, and what its keeper holds (R371). -/
def State.handover (s : State) (i : Nat) : Option (List Nat × PinOut) := (s.pin.hand.find? (fun h => h.1 = i)).map (·.2)

/-- An output of a pin under its open-drain option, which applies to every function (R377). -/
def State.openDrain (s : State) (i : Nat) (o : PinOut) : PinOut :=
  let od := s.on (PIN_CFG_OD i)
  match o with
  | .high => if od then .released else .high
  | .port _ => .port od
  | .unit n _ => .unit n od
  | .pwm per duty _ => .pwm per duty od
  | o => o

/-- A driven level. -/
def PinOut.ofBool (b : Bool) : PinOut := if b then .high else .low

/-- Whether FAULT_N, and whether SMBALERT#, is asserted, as the pins see them. -/
structure Alarms where
  faultN : Bool
  alert : Bool

/-- What a pin puts out in the function it carries (R296, R369, R373). The ports drive their own lines, SMBALERT# excepted; a frame copy
is low while its unit is disabled, runs faster than 25 MHz, or lies on an isolated T-die (R381). -/
def State.fnOut (s : State) (a : Alarms) (i : Nat) : PinOut :=
  let cur := s.get (PIN_CFG_FN_CUR i)
  let arg := s.get (PIN_CFG_ARG i)
  s.openDrain i <|
    if cur = 0 then
      if s.bit (GPIO_MOE_VAL (i / 16)) (i % 16) then .ofBool (s.bit (GPIO_MOUT_VAL (i / 16)) (i % 16)) else .released
    else
      match (pinFns i)[cur - 1]? with
      | some .seqOut => .ofBool (bitOf s.pin.seqOut i)
      | some .frmOut =>
        if s.unitOn arg && (s.unitRate arg).atMost 25000000 && !s.isolated (dieOfOut arg) then .unit arg false else .low
      | some .pgx => .ofBool (s.on (PRG_RSTAT_PG arg))
      | some .faultOut => .ofBool (!a.faultN)
      | some .pwmx => .pwm (bankGet s.pin.pwmPer (i - 30) + 1) (bankGet s.pin.pwmDuty (i - 30)) false
      | some .pmb => if i = 26 then (if a.alert then .low else .released) else .port false
      | some .spi => .port false
      | some .uart => .port false
      | some .i3c => .port false
      | some .syncIn => .released
      | some .faultIn => .released
      | none => .released

/-- What a pin drives, its keeper's level during a handover (R371), the boundary register not counted; a bank below 1.0 V drives
nothing (R430). -/
def State.pinOut (s : State) (a : Alarms) (i : Nat) : PinOut :=
  if bitOf s.pin.bankLow (i / 16) then .released else
  match s.pin.kept.find? (fun e => e.1 = i) with
  | some e => e.2
  | none =>
    match s.handover i with
    | some h => h.2
    | none => s.fnOut a i

/-- The level a keeper holds of what a pin put out (R371, R381): of a signal that runs, the level it had at that instant, which no rule
gives: a free value (log entry 3); a pin that drove nothing stays released. -/
def heldLevel (o : PinOut) (s : State) : PinOut × State :=
  let free (od : Bool) : PinOut × State :=
    let (v, s1) := s.draw
    (if v % 2 = 0 then .low else if od then .released else .high, s1)
  match o with
  | .port od => free od
  | .unit _ od => free od
  | .pwm per duty od => if duty = 0 then (.low, s) else if per ≤ duty then (if od then .released else .high, s) else free od
  | o => (o, s)

/-- A pin goes to the functions of a list, one after another, its keeper holding the old level (R371). -/
def startHandover (i : Nat) (l : List Nat) (old : PinOut) (s : State) : State :=
  let (o, s1) := heldLevel old s
  { s1 with pin := { s1.pin with hand := (i, l, o) :: s1.pin.hand } }

/-- A write has moved the functions its pins are to carry: a handover starts on every such pin, and a change that arrives during one waits
for its end and runs its own (R371). The keeper takes what the pin drove in `old`. -/
def pinsMoved (a : Alarms) (old s : State) : State :=
  s.each 64 (fun i s =>
    let f := s.fnWanted i
    if (s.handover i).isSome then
      if old.fnWanted i = f then s
      else { s with pin := { s.pin with hand := s.pin.hand.map (fun h => if h.1 = i then (i, h.2.1 ++ [f], h.2.2) else h) } }
    else if f = s.get (PIN_CFG_FN_CUR i) then s
    else startHandover i [f] (old.pinOut a i) s)

/-- Every pin takes its wanted function with no handover: BOOT's reset enables (R371, R385). -/
def pinsSettle (s : State) : State := s.each 64 (fun i s => s.set (PIN_CFG_FN_CUR i) (s.fnWanted i))

/-! ### Ownership (R372) -/

/-- Who writes, as PIN_OWN names owners: 0 to 11 an engine, 12 HOST. -/
def hostOwner : Nat := 12

/-- The owner of a pin. -/
def State.pinOwner (s : State) (i : Nat) : Nat := s.get (PIN_OWN_OWNER i)

/-- Pins whose wanted function differs between two states. -/
def fnChanges (old new : State) : List Nat := (List.range 64).filter (fun i => old.fnWanted i ≠ new.fnWanted i)

/-- A writer may make this write (R372, R373, R375, R376, R379): it owns the pins concerned, and every pin whose function the write
would change. -/
def pinOwnRule (who : Nat) (r : Reg) (new : Word) (s : State) : Bool :=
  let owns (i : Nat) : Bool := s.pinOwner i = who
  let fnOk : Bool := (fnChanges s (s.setWord r new)).all owns
  let secure : Bool := who = 0 || who = hostOwner
  match r.name with
  | .PIN_CFG => owns r.i && fnOk
  | .PIN_OWN => who = 0
  | .PIN_PEN => fnOk
  | .MGT_PMB_CFG => fnOk
  | .MGT_I3C_CFG => fnOk
  | .PWMX_PER => owns (30 + r.i)
  | .PWMX_DUTY => owns (30 + r.i)
  | .PIN_FIN => owns (56 + r.i)
  | .GPIO_MOUT => (bitsOf 16 (wordGet new 16 16)).all (fun j => owns (16 * r.i + j))
  | .GPIO_MOE => (bitsOf 16 (wordGet new 16 16)).all (fun j => owns (16 * r.i + j))
  | .GPIO_IRQ => (bitsOf 16 (wordGet new 0 16)).all (fun j => owns (16 * r.i + j))
  | .PIN_IRQN => secure
  | .GPIO_CAP_CFG => secure
  | .GPIO_CAP_RATE => secure
  | _ => true

/-! ### External fault inputs (R370) -/

/-- The holds of a FAULT_IN end: the pin is deasserted and its latch is clear (R370). -/
def finRelease (k : Nat) (s : State) : State :=
  if s.bit PIN_FIN_STAT_NOW k || s.bit PIN_FIN_STAT_LATCH k then s
  else s.each 24 (fun r s => showHold r (s.modRail r (fun x => { x with finBy := bitPut x.finBy k false })))

/-- FAULT_IN (R370): the input is asserted past its deglitch, or released. -/
def execFaultIn (k : Fin 4) (on : Bool) (s : State) : Out :=
  .next <|
    if on && !s.pinCarries (56 + k) .faultIn then s
    else if on && !s.bit PIN_FIN_STAT_NOW k then
      let s1 := (s.setBit PIN_FIN_STAT_NOW k true).setBit PIN_FIN_STAT_LATCH k true
      let s2 := (bitsOf 24 (s.get (PIN_FIN_RMASK k))).foldl (fun s r =>
        showHold r ((railToSafe r s).modRail r (fun x => { x with finBy := bitPut x.finBy k true }))) s1
      s2.when (s2.linked dieP dieC) (fun s => s.raise PIN_EVT_EVT 1 0x0C01 k [(32, k), (24, s.get (PIN_FIN_RMASK k))])
    else if !on then finRelease k (s.setBit PIN_FIN_STAT_NOW k false)
    else s

/-! ### GPIO (R373 to R376) -/

/-- A masked write of an output or enable latch (R373). -/
def maskedWrite (old : Nat) (w : Word) : Nat := maskOf 16 (fun j => if wordGet w (16 + j) 1 = 1 then wordGet w j 1 = 1 else bitOf old j)

/-- The interrupt condition of a pin holds between two samples (R375). -/
def irqHolds (mode : Nat) (old new : Bool) : Bool :=
  match mode with
  | 1 => !old && new
  | 2 => old && !new
  | 3 => old ≠ new
  | 4 => new
  | 5 => !new
  | _ => false

/-- The synchronised level of a pin (R374). -/
def State.pinHigh (s : State) (n : Nat) : Bool := s.bit (GPIO_IN_IN (n / 16)) (n % 16)

/-- A sample of a pin: its level, and the edges a PIN wait counts, which the sequencer on the P-die learns over the link from the C-die
(R22, R196, R374). -/
def pinSampled (n : Nat) (lv : Bool) (s : State) : State :=
  let old := s.pinHigh n
  let seen := s.linked dieC dieP
  { s with seq := { s.seq with rose := if seen && !old && lv then bitPut s.seq.rose n true else s.seq.rose
                               fell := if seen && old && !lv then bitPut s.seq.fell n true else s.seq.fell } }.setBit
    (GPIO_IN_IN (n / 16)) (n % 16) lv

/-- A pin's condition holds at level `lv`: a PEND bit that goes from 0 to 1 is signalled to a HOST owner as the event, and to an engine as
its pin interrupt, which reaches it over the die links (R22, R375). -/
def pinPend (n : Nat) (lv : Bool) (s : State) : State :=
  if s.bit (GPIO_IRQ_PEND (n / 16)) (n % 16) then s
  else
    let s1 := s.setBit (GPIO_IRQ_PEND (n / 16)) (n % 16) true
    if s.pinOwner n = hostOwner then
      s1.raise PIN_EVT_EVT 0 0x0C00 n [(32, n), (3, s.get (PIN_CFG_IRQ n)), (1, if lv then 1 else 0)]
    else engInterrupt (s.pinOwner n) true s1

/-- The synchroniser of a pin runs: on the main LO, and for the pads of the P-die over the link from it (R365, R374, R381). -/
def State.pinSynced (s : State) (n : Nat) : Bool := s.pkg_.loRuns && (n < 56 || s.linked dieP dieC)

/-- A pin is sampled at a level of its pad: in analogue mode, and while its bank is low, it reads 0; its condition sets PEND (R374, R375,
R430). -/
def pinSample (i : Nat) (level : Bool) (s : State) : State :=
  if !s.pinSynced i then s
  else
    let lv := level && s.get (PIN_CFG_FN_CUR i) ≠ 5 && !bitOf s.pin.bankLow (i / 16)
    let s1 := pinSampled i lv s
    if irqHolds (s.get (PIN_CFG_IRQ i)) (s.pinHigh i) lv then pinPend i lv s1 else s1

/-- A threshold class in the order of the I/O bank voltages 1.2, 1.8, 2.5 and 3.3 V. -/
def thrBank (thr : Nat) : Nat := if thr = 2 then 3 else thr

/-- PIN_IRQ (R374, R375, R377): a pin is sampled at `level`, its bank being at 1.2, 1.8, 2.5 or 3.3 V (`bank` 0 to 3); an input whose
class lies above the bank voltage never reads high (log entry 146). -/
def execPinIrq (i : Fin 64) (level : Bool) (bank : Fin 4) (s : State) : Out :=
  .next (pinSample i (level && thrBank (s.get (PIN_CFG_THR i)) ≤ bank.val) s)

/-- A level interrupt sets its bit again after a W1C while its level persists (R375). -/
def levelAgain (g : Nat) (s : State) : State :=
  s.each 16 (fun j s =>
    let n := 16 * g + j
    let mode := s.get (PIN_CFG_IRQ n)
    if s.pinSynced n ∧ (mode = 4 ∨ mode = 5) ∧ irqHolds mode (s.pinHigh n) (s.pinHigh n) then pinPend n (s.pinHigh n) s else s)

/-- PWMX_PERIOD (R369): a period starts and takes the written values; none does without the main LO (R381). -/
def execPwmxPeriod (k : Fin 4) (s : State) : Out :=
  .next <|
    if !s.pkg_.loRuns then s
    else { s with pin := { s.pin with pwmPer := bankMod s.pin.pwmPer k (fun _ => s.get (PWMX_PER_PER k))
                                      pwmDuty := bankMod s.pin.pwmDuty k (fun _ => s.get (PWMX_DUTY_DUTY k)) } }

/-! ### Logic capture (R379) -/

/-- The lanes of a sample: 8, 16 or 32. -/
def State.capWidth (s : State) : Nat := 8 * 2 ^ s.get GPIO_CAP_CFG_WIDTH

/-- The bytes of a block: NBLK × L. -/
def State.capBlock (s : State) : Nat := s.get GPIO_CAP_CFG_NBLK * s.capWidth

/-- The capture unit's request line (R324). -/
def lineCapture : Nat := 25

/-- A sample: the synchronised levels of the pins from MFP(8 × BASE) on (R374, R379). -/
def State.capLanes (s : State) : Nat := maskOf s.capWidth (fun j => s.pinHigh (8 * s.get GPIO_CAP_CFG_BASE + j))

/-- CAPTURE_SAMPLE (R379): one sample; a full block raises its request; with both buffers full the block being filled is discarded. -/
def execCaptureSample (s : State) : Out :=
  .next <|
    if !s.on GPIO_CAP_CFG_EN || !s.pkg_.loRuns then s
    else if 2 ≤ s.pin.capFull.length then
      if s.pin.capDrop then s
      else
        let s1 := { s with pin := { s.pin with capCur := [], capDrop := true } }.bump GPIO_CAP_STAT_CAP_OVR_CNT
        s1.raise PIN_EVT_EVT 2 0x0C02 0 [(16, s1.get GPIO_CAP_STAT_CAP_OVR_CNT)]
    else
      let cur := s.pin.capCur ++ natBytes (s.capWidth / 8) s.capLanes
      if s.capBlock ≤ cur.length then
        let i := s.pin.capFull.length
        let s1 := { s with pin := { s.pin with capCur := [], capDrop := false, capFull := s.pin.capFull ++ [LineUnit.mk none cur] } }.bump
          GPIO_CAP_STAT_BLK_CNT
        s1.when (s.on GPIO_CAP_CFG_REQ_EN) (raiseLineFor dieC lineCapture (fun q s =>
          { s with pin := { s.pin with capFull := s.pin.capFull.modify i (fun (u : LineUnit) => { u with req := some q }) } }))
      else { s with pin := { s.pin with capCur := cur, capDrop := false } }

/-! ### Write rules of the pin registers -/

/-- An ARG is in the range of the function that uses it (R369): rail 0 to 23 for PGX, unit 0 to 47 for FRM_OUT. Where the pin carries
neither, it may lie in the range of any of the two that FMASK leaves the pin (log entry 145: DESIGN CHOICE). -/
def argOk (i arg fmask : Nat) (s : State) : Bool :=
  let free := (pinFns i).zipIdx.filter (fun fk => !bitOf fmask fk.2)
  let has (f : PinFn) : Bool := free.any (fun fk => fk.1 = f)
  match free.find? (fun fk => s.fnEnabled fk.1) with
  | some (.pgx, _) => arg < 24
  | some (.frmOut, _) => arg < 48
  | _ => arg < (if has .pgx && !has .frmOut then 24 else 48)

/-- The rules a write of a pin register must satisfy, whoever writes (R369, R372, R378, R379). -/
def pinRule (r : Reg) (old new : Word) (s : State) : Bool :=
  match r.name with
  | .PIN_CFG =>
    argOk r.i (wordGet new 21 8) (wordGet new 0 4) s &&
      (wordGet new 7 1 = 0 || (56 ≤ r.i && (wordGet old 7 1 = 1 ||
        (s.get (PIN_CFG_FN_CUR r.i) = 0 && !s.bit (GPIO_MOE_VAL (r.i / 16)) (r.i % 16)))))
  | .PIN_OWN => wordGet old 4 1 = 0
  | .GPIO_CAP_CFG =>
    (wordGet old 0 1 = 0 || wordGet new 0 1 = 0) && wordGet new 4 3 + 2 ^ wordGet new 1 2 ≤ 8 &&
      wordGet new 8 7 ≤ 512 / (8 * 2 ^ wordGet new 1 2)
  | .GPIO_CAP_RATE => !s.on GPIO_CAP_CFG_EN
  | .PWMX_DUTY => wordGet new 0 17 ≤ s.get (PWMX_PER_PER r.i) + 1
  | _ => true

/-- What an applied write of a pin register sets off. -/
def pinAfter (r : Reg) (old new : Word) (s : State) : State :=
  match r.name with
  | .GPIO_MOUT => s.set (GPIO_MOUT_VAL r.i) (maskedWrite (wordGet old 0 16) new)
  | .GPIO_MOE => s.set (GPIO_MOE_VAL r.i) (maskedWrite (wordGet old 0 16) new)
  | .GPIO_IRQ => levelAgain r.i s
  | .PIN_FIN_STAT =>
    let s1 := s.set PIN_FIN_STAT_LATCH (s.get PIN_FIN_STAT_LATCH ||| (wordGet old 0 4 &&& s.get PIN_FIN_STAT_NOW))
    s1.each 4 finRelease
  | .GPIO_CAP_CFG =>
    if wordGet old 0 1 ≠ wordGet new 0 1 then { s with pin := { s.pin with capFull := [], capCur := [], capDrop := false } } else s
  | _ => s

end Sys2Proof.Machine
end

