-- ==== Sys2Proof/Machine/Seq.lean ====
section
/-! DEFINITION. Sys2Proof/Machine/Seq.lean: sequences, dependencies' trips, the hold-up charger, VIN supervision and the
housekeeping regulators (chapter 08, R194 to R203, R214 to R221). -/

namespace Sys2Proof.Machine

/-! ### Steps (R195 to R197) -/

def seqIdle : Nat := 0
def seqWaiting : Nat := 1
def seqActing : Nat := 2

/-- The state of the sequencer. -/
def State.seqState (s : State) : Nat := s.get SEQ_STAT_STATE

/-- The sequencer's internal state changed. -/
def State.modSeq (s : State) (f : SeqInt → SeqInt) : State := { s with seq := f s.seq }

/-- Word `w` of step `i` of a sequence. -/
def State.stepWord (s : State) (q i w : Nat) : Word := s.word ⟨.SEQ_STEP, q, i, w⟩

/-- A code of the link-event table (R256). -/
def linkCode (c : Nat) : Bool := (1 ≤ c && c ≤ 5) || (0x10 ≤ c && c ≤ 0x1C) || (0x80 ≤ c && c ≤ 0xFF)

/-- A wait kind and its argument hold no reserved code, bit or value (R196). -/
def waitOk (kind : Nat) (a : Word) : Bool :=
  match kind with
  | 0 => a = 0
  | 1 => a.toNat ≠ 0 && a.toNat < 2 ^ 24
  | 2 => a.toNat ≠ 0 && a.toNat < 2 ^ 24
  | 3 => a.toNat ≠ 0 && a.toNat < 2 ^ 24
  | 4 => wordGet a 0 12 ≠ 0 && a.toNat < 2 ^ 14
  | 5 => a.toNat < 2 ^ 8
  | 6 => a.toNat < 2 ^ 8 && linkCode a.toNat
  | 7 => a.toNat < 2 ^ 4 && wordGet a 2 2 ≠ 3
  | 8 => a = 0
  | _ => false

/-- An action kind and its argument hold no reserved code, bit or value (R197). -/
def actOk (kind : Nat) (a : Word) : Bool :=
  match kind with
  | 0 => a = 0
  | 1 => a.toNat < 2 ^ 24
  | 2 => a.toNat < 2 ^ 24
  | 3 => wordGet a 0 5 ≤ 23 && wordGet a 5 11 = 0 && wordGet a 16 12 ≤ 2680 && a.toNat < 2 ^ 28
  | 4 => a.toNat < 2 ^ 14
  | 5 => a.toNat < 2 ^ 14
  | 6 => a.toNat < 2 ^ 7
  | 7 => a.toNat < 2 ^ 8 && wordGet a 0 1 = 0
  | 8 => a.toNat < 2 ^ 8 && wordGet a 0 1 = 0
  | _ => false

/-- A step is present: no reserved code, bit or value and no double-bit error (R195, R42). -/
def State.stepPresent (s : State) (q i : Nat) : Bool :=
  let w0 := s.stepWord q i 0
  w0.toNat < 2 ^ 25 && waitOk (wordGet w0 0 4) (s.stepWord q i 1) && actOk (wordGet w0 4 4) (s.stepWord q i 2) &&
    !s.seq.badSteps.contains (q, i)

/-! ### Actions (R197) -/

/-- A part of an action that would be ignored is skipped and counted (R197). -/
def part (ok : Bool) (f : State → State) (s : State) : State := if ok then f s else s.bump SEQ_CNT_SKIP_CNT

/-- EN = 1 written to a rail by an action (R172, R197, R222): a rail in SAFE, held, without phases or waiting for its clock skips
it. -/
def railOnPart (r : Nat) (s : State) : State :=
  if s.on (PRG_RCTL_EN r) ∧ s.railState r ≠ railSafe ∧ !s.railHeld r ∧ !s.depBlocksRail r then s
  else part (s.railMayEnable r) (fun s => railEnable r (s.set (PRG_RCTL_EN r) 1)) s

/-- EN = 0 written to a rail. -/
def railWriteOff (r : Nat) (s : State) : State := railDisable r (s.set (PRG_RCTL_EN r) 0)

/-- EN = 1 written to an output unit is not ignored (R143, R146, R202). -/
def State.unitMayEnable (s : State) (n : Nat) : Bool :=
  let old := s.word ⟨.OUT_CTL, n, 0, 0⟩
  outCtlRule n old (wordSet old 0 1 1) s

/-- EN = 1 written to an output unit from the P-die, whose write goes over the C-die (R24, R28); a unit that is enabled runs on. -/
def unitWriteOn (n : Nat) (s : State) : State :=
  if !s.routed dieP (dieOfOut n) then s
  else part (s.unitMayEnable n) (fun s => if s.unitOn n then s else unitStart n (s.set (OUT_CTL_EN n) 1)) s

/-- EN = 0 written to an output unit from the P-die. -/
def unitWriteOff (n : Nat) (s : State) : State :=
  if s.unitOn n && s.routed dieP (dieOfOut n) then unitDisable n (s.set (OUT_CTL_EN n) 0) else s

/-- The housekeeping regulators of a mask: bit i for HKi, bit 4 + i for LDOi. -/
def hkField (b : Nat) : Fld := if b < 4 then HK_BUCK_EN b else HK_LDO_EN (b - 4)

/-- HK_STAT follows the enables: a regulator that is on is within its band, one that is off is not (log entry 18). -/
def hkPg (b : Nat) (on : Bool) (s : State) : State :=
  if b < 4 then s.setBit HK_STAT_BUCK_PG b on else s.setBit HK_STAT_LDO_PG (b - 4) on

/-- A housekeeping regulator enabled or disabled (R220). -/
def hkWrite (b : Nat) (on : Bool) (s : State) : State := if s.on (hkField b) = on then s else hkPg b on (s.put (hkField b) on)

/-- The action of the running step is applied (R197); what it sends to another die arrives where the die links carry it (R22, R28). -/
def applyAction (s : State) : State :=
  let q := s.get SEQ_STAT_CUR
  let i := s.get SEQ_STAT_STEP
  let a := s.stepWord q i 2
  let units := (bitsOf 12 (wordGet a 0 12)).map (fun j => 12 * wordGet a 12 2 + j)
  match wordGet (s.stepWord q i 0) 4 4 with
  | 1 => (bitsOf 24 (wordGet a 0 24)).foldl (fun s r => railOnPart r s) s
  | 2 => (bitsOf 24 (wordGet a 0 24)).foldl (fun s r => railWriteOff r s) s
  | 3 => vidWritten (wordGet a 0 5) (s.set (PRG_VID_VID (wordGet a 0 5)) (wordGet a 16 12))
  | 4 => units.foldl (fun s n => unitWriteOn n s) s
  | 5 => units.foldl (fun s n => unitWriteOff n s) s
  | 6 =>
    if !s.linked dieP dieC then s
    else part (s.pinCarries (wordGet a 0 6) .seqOut) (fun s =>
      { s with pin := { s.pin with seqOut := bitPut s.pin.seqOut (wordGet a 0 6) (wordGet a 6 1 = 1) } }) s
  | 7 => (bitsOf 8 (wordGet a 0 8)).foldl (fun s b => hkWrite b true s) s
  | 8 => (bitsOf 8 (wordGet a 0 8)).foldl (fun s b => hkWrite b false s) s
  | _ => s

/-! ### The sequencer (R198 to R200) -/

/-- A sequence event: its SEQ_EVT bit and its record (R223). -/
def seqEvt (bit : Nat) (s : State) : State := s.raise SEQ_EVT_EVT bit (0x0700 + bit) 0

/-- How a sequence ended, as SEQ_STAT shows it: LAST 1 DONE, 2 EMPTY, 3 FAILED, 4 STOPPED; CAUSE 1 TIMEOUT, 2 POISONED,
3 PREEMPT, 4 COMMAND, 5 STORE_LOW. -/
def seqEnded (last cause : Nat) (s : State) : State :=
  let s1 := ((s.set SEQ_STAT_STATE seqIdle).set SEQ_STAT_LAST last).set SEQ_STAT_CAUSE cause
  let s2 := s1.modSeq (fun x => { x with stopPend := false })
  match last with
  | 3 => latchClass clsSeqFail (seqEvt 1 s2)
  | 4 => s2.setBit SEQ_EVT_EVT 5 true
  | _ => seqEvt 0 s2

/-- Step `i` of the running sequence begins its wait; an absent step fails the sequence (R199). -/
def beginStep (i : Nat) (s : State) : State :=
  let s1 := ((s.set SEQ_STAT_STATE seqWaiting).set SEQ_STAT_STEP i).modSeq (fun x =>
    { x with links := [], hoSeen := 0, rose := 0, fell := 0 })
  if s1.stepPresent (s1.get SEQ_STAT_CUR) i then s1 else seqEnded 3 2 s1

/-- A sequence is started: EMPTY without steps (R199). -/
def startCore (rank q : Nat) (s : State) : State :=
  let s1 := ((s.set SEQ_STAT_CUR q).set SEQ_STAT_RANK rank).set SEQ_STAT_STEP 0
  if s.get (SEQ_NSTEP_NSTEP q) = 0 then seqEnded 2 0 s1 else beginStep 0 s1

/-- The held request starts when no sequence runs (R200). -/
def startHeld (s : State) : State :=
  match s.seq.held with
  | some (rank, q) =>
    if s.seqState = seqIdle then
      startCore rank q (((s.modSeq (fun x => { x with held := none })).set SEQ_STAT_PEND 0).set SEQ_STAT_PEND_SEQ 0)
    else s
  | none => s

/-- A start request that finds the sequencer IDLE. -/
def startNow (rank q : Nat) (s : State) : State := startHeld (startCore rank q s)

/-- A request is held; a newer one replaces it (R200). -/
def holdRequest (rank q : Nat) (s : State) : State :=
  ((s.modSeq (fun x => { x with held := some (rank, q) })).set SEQ_STAT_PEND 1).set SEQ_STAT_PEND_SEQ q

/-- A start request of rank 0, 1 or 2 (R200): it starts, pre-empts, is dropped by an orderly down, or is held. -/
def seqRequest (rank q : Nat) (s : State) : State :=
  if !s.active then s
  else if s.seqState = seqIdle then startNow rank q s
  else if rank < s.get SEQ_STAT_RANK then
    startNow rank q (seqEnded 4 3 (if s.seqState = seqActing then applyAction s else s))
  else if s.get SEQ_STAT_RANK = 0 then seqEvt 3 s
  else holdRequest rank q s

/-- After the orderly down has ended, the boot sequence that VIN_GOOD has made due (R218). -/
def tryRestart (s : State) : State :=
  if s.seq.restartDue && (s.seqState = seqIdle || s.get SEQ_STAT_RANK ≠ 0) then
    seqRequest 2 (s.get SEQ_CFG_BOOT_SEQ) (s.modSeq (fun x => { x with restartDue := false }))
  else s

/-- The running sequence ends: the held request starts (R200), and a due restart follows (R218). -/
def seqEnd (last cause : Nat) (s : State) : State := tryRestart (startHeld (seqEnded last cause s))

/-- A rank-3 start (R200, R278): SEQ_START, SEQ_CMD.START and MFR_SEQ_START. Ignored while a sequence runs; EMPTY without
steps. -/
def cmdSeqStart (q : Nat) (s : State) : CmdRes :=
  if s.active ∧ s.seqState = seqIdle then ⟨if s.get (SEQ_NSTEP_NSTEP q) = 0 then 0x02 else 0x00, 0, startNow 3 q s⟩
  else cmdIgnored s

/-- The step the sequencer waits in is absent: a double-bit error has met it since (R42, R199). -/
def State.stepLost (s : State) : Bool := s.seqState = seqWaiting && !s.stepPresent (s.get SEQ_STAT_CUR) (s.get SEQ_STAT_STEP)

/-- SEQ_STOP (R199): an absent step has failed the sequence before; while ACTING it waits for the action; ignored while IDLE. -/
def cmdSeqStop (s : State) : CmdRes :=
  if s.stepLost then cmdOk (seqEnd 3 2 s)
  else if s.seqState = seqWaiting then cmdOk (seqEnd 4 4 s)
  else if s.seqState = seqActing then cmdOk (s.modSeq (fun x => { x with stopPend := true }))
  else cmdIgnored s

/-- The condition of a PIN wait, as the pin synchronizer shows it: a level, or an edge since the wait began (R196). -/
def State.pinWaitMet (s : State) (a : Word) : Bool :=
  let n := wordGet a 0 6
  match wordGet a 6 2 with
  | 0 => s.pinHigh n
  | 1 => !s.pinHigh n
  | 2 => bitOf s.seq.rose n
  | _ => bitOf s.seq.fell n

/-- The conditions of the wait kinds that the state decides, as the sequencer learns of them on the P-die: what lies beyond an isolated
link satisfies no wait (R22, R23). The time of a TIME wait is the row's own (R196). -/
def State.waitMet (s : State) (kind : Nat) (a : Word) : Bool :=
  match kind with
  | 2 => (bitsOf 24 (wordGet a 0 24)).all (fun r => s.on (PRG_RSTAT_PG r))
  | 3 => (bitsOf 24 (wordGet a 0 24)).all (fun r => s.railState r = railOff)
  | 4 => (bitsOf 12 (wordGet a 0 12)).all (fun j => s.clkqAtP (12 * wordGet a 12 2 + j))
  | 5 => s.linked dieC dieP && s.pinWaitMet a
  | 6 => s.seq.links.contains (wordGet a 0 8)
  | 7 =>
    s.linked (dieOfRegion (wordGet a 0 2)) dieP &&
    match wordGet a 2 2 with
    | 0 => s.dpll (wordGet a 0 2) = dpllLocked
    | 1 => bitOf s.seq.hoSeen (wordGet a 0 2)
    | _ => (s.selected (wordGet a 0 2)).isSome
  | 8 => s.on HUP_STAT_READY
  | 1 => s.pkg_.loRuns
  | _ => true

/-- The implicit dependencies of an action are satisfied (R202). -/
def State.actDepsMet (s : State) (kind : Nat) (a : Word) : Bool :=
  match kind with
  | 1 => (bitsOf 24 (wordGet a 0 24)).all (fun r => !s.depBlocksRail r)
  | 4 => (bitsOf 12 (wordGet a 0 12)).all (fun j => !s.depBlocksUnit (12 * wordGet a 12 2 + j))
  | _ => true

/-- STEP_WAIT_SATISFIED (R196, R199, R202): WAITING to ACTING; an absent step is never acted on. -/
def execStepWaitSatisfied (s : State) : Out :=
  .next <|
    let q := s.get SEQ_STAT_CUR
    let i := s.get SEQ_STAT_STEP
    let w0 := s.stepWord q i 0
    if s.stepLost then seqEnd 3 2 s
    else if s.seqState = seqWaiting ∧ s.waitMet (wordGet w0 0 4) (s.stepWord q i 1) ∧ s.actDepsMet (wordGet w0 4 4) (s.stepWord q i 2) then
      s.set SEQ_STAT_STATE seqActing
    else s

/-- STEP_ACTION_DONE (R197, R199): the action is applied; a pending stop, the next step, or the end. -/
def execStepActionDone (s : State) : Out :=
  .next <|
    if s.seqState = seqActing then
      let s1 := applyAction s
      if s1.seq.stopPend then seqEnd 4 4 s1
      else if s1.get SEQ_STAT_STEP + 1 < s1.get (SEQ_NSTEP_NSTEP (s1.get SEQ_STAT_CUR)) then
        let s2 := beginStep (s1.get SEQ_STAT_STEP + 1) s1
        if s2.seqState = seqIdle then tryRestart (startHeld s2) else s2
      else seqEnd 1 0 s1
    else s

/-- STEP_TIMEOUT (R29, R199), timed on the main LO: counted; the sequence fails, or SEQ_TIMEOUT is raised and the action is applied
anyway. -/
def execStepTimeout (s : State) : Out :=
  .next <|
    let w0 := s.stepWord (s.get SEQ_STAT_CUR) (s.get SEQ_STAT_STEP) 0
    if s.stepLost then seqEnd 3 2 s
    else if s.seqState = seqWaiting ∧ wordGet w0 8 16 ≠ 0 ∧ s.pkg_.loRuns then
      let s1 := s.bump SEQ_CNT_TMO_CNT
      if wordGet w0 24 1 = 1 then seqEvt 2 (s1.set SEQ_STAT_STATE seqActing) else seqEnd 3 1 s1
    else s

/-! ### Loading (R198) -/

/-- A load copy opens; an open one is discarded. -/
def seqLoadStart (s : State) : State :=
  ((s.modSeq (fun x => { x with load := some [], loadBad := false })).set SEQ_LOAD_STAT_WORDS 0).set SEQ_LOAD_STAT_RESULT 1

/-- The header is well formed: NSTEP to 64, every other bit but SLOT zero. -/
def seqHeaderOk (h : Word) : Bool := wordGet h 0 7 ≤ 64 && wordGet h 7 1 = 0 && h.toNat < 2 ^ 11

/-- A load word (R198): the CRC word closes the load; a header with a reserved value poisons it. A verified copy waits beside those that
wait for other slots, in place of an older one for its own. -/
def seqLoadData (w : Word) (s : State) : State :=
  match s.seq.load with
  | none => s
  | some ws =>
    let s1 := s.set SEQ_LOAD_STAT_WORDS (ws.length + 1)
    let poison (s : State) : State := (s.modSeq (fun x => { x with load := none })).set SEQ_LOAD_STAT_RESULT 3
    match ws with
    | [] =>
      let s2 := s1.set SEQ_LOAD_STAT_SLOT (wordGet w 8 3)
      if seqHeaderOk w then s2.modSeq (fun x => { x with load := some [w] }) else poison s2
    | h :: _ =>
      if ws.length < 1 + 3 * wordGet h 0 7 then s1.modSeq (fun x => { x with load := some (ws ++ [w]) })
      else if crcWords ws = w ∧ s.seq.loadBad = false then
        let q := wordGet h 8 3
        ((s1.modSeq (fun x => { x with load := none, pend := (q, ws, []) :: x.pend.filter (fun e => e.1 ≠ q) })).set
          SEQ_LOAD_STAT_RESULT 2).set SEQ_LOAD_STAT_SWAP_PEND 1
      else poison s1

/-- The steps word `a` of a load copy belongs to: every one for the header, none for the CRC word. -/
def loadSteps (a : Nat) : List Nat := if a = 0 then List.range 64 else if a ≤ 192 then [(a - 1) / 3] else []

/-- A double-bit error in word `a` of the load copy (R39, R42): it poisons an open copy that holds the word, and leaves the steps of the
latest verified copy absent. -/
def seqLoadError (a : Nat) (s : State) : State :=
  match s.seq.load with
  | some ws => if a < ws.length then s.modSeq (fun x => { x with loadBad := true }) else s
  | none => s.modSeq (fun x => { x with pend :=
      match x.pend with
      | [] => []
      | (q, ws, bad) :: l => (q, ws, (bad ++ loadSteps a).eraseDups) :: l })

/-- SEQ_LOAD (R198, R278): the words from host memory; a length that does not fit the header is ignored, a poisoned copy completes
POISONED (R40). -/
def cmdSeqLoad (ws : List Word) (s : State) : CmdRes :=
  let h := ws.getD 0 0
  if seqHeaderOk h && ws.length ≠ 2 + 3 * wordGet h 0 7 then cmdIgnored s
  else
    let s1 := ws.foldl (fun s w => seqLoadData w s) (seqLoadStart s)
    if s1.get SEQ_LOAD_STAT_RESULT = 2 then cmdOk s1 else ⟨0x03, 0, s1⟩

/-- The verified copy of slot `q` replaces the sequence in it (R198). -/
def seqReplace (q : Nat) (ws : List Word) (bad : List Nat) (s : State) : State :=
  let s1 := s.modSeq (fun x => { x with
    pend := x.pend.filter (fun e => e.1 ≠ q)
    badSteps := x.badSteps.filter (fun e => e.1 ≠ q) ++ bad.map (fun i => (q, i)) })
  let s2 := s1.set (SEQ_NSTEP_NSTEP q) (wordGet (ws.getD 0 0) 0 7)
  s2.each 192 (fun k s => s.setWord ⟨.SEQ_STEP, q, k / 3, k % 3⟩ (ws.getD (1 + k) 0))

/-- The slot whose sequence runs. -/
def State.seqRuns (s : State) (q : Nat) : Bool := s.seqState ≠ seqIdle && s.get SEQ_STAT_CUR = q

/-- Every verified copy whose sequence is not running replaces it; SWAP_PEND stays 1 while another waits (R198). -/
def seqSwap (s : State) : State :=
  let s1 := (s.seq.pend.filter (fun e => !s.seqRuns e.1)).foldl (fun s e => seqReplace e.1 e.2.1 e.2.2 s) s
  s1.put SEQ_LOAD_STAT_SWAP_PEND (!s1.seq.pend.isEmpty)

/-- SEQ_SWAP (R198). -/
def execSeqSwap (s : State) : Out := .next (seqSwap s)

/-! ### Dependencies' trips (R203) -/

/-- DEP_TRIP (R203): a triggered entry trips once and applies its response. -/
def execDepTrip (d : Fin 16) (s : State) : Out :=
  .next <|
    if bitOf s.depTrig d then
      let s1 := ({ s with depTrig := bitPut s.depTrig d false }.setBit SEQ_EVT_EVT 4 true).pushEvt 0x0704 d 0
      match s.get (SEQ_DEP_A_RESP d) with
      | 1 =>
        if s.on (SEQ_DEP_A_KIND d) then (s.depUnits d).foldl (fun s n => unitWriteOff n s) s1
        else (s.depRails d).foldl (fun s r => railWriteOff r s) s1
      | 2 => seqRequest 1 (s.get (SEQ_DEP_A_RSEQ d)) s1
      | _ => s1
    else s

/-! ### The charger and VIN (R215 to R218) -/

def chgOff : Nat := 0
def chgCc : Nat := 1
def chgCv : Nat := 2
def chgFull : Nat := 3
def chgFault : Nat := 4

/-- A hold-up event: its HUP_EVT bit and its record (R223). -/
def hupEvt (bit code : Nat) (s : State) : State := s.raise HUP_EVT_EVT bit code 0

/-- The charger follows its enable and VIN_OK (R215); it is off while the P-die is isolated (R214). -/
def chargerFollow (s : State) : State :=
  if !s.on HUP_CTL_EN || !s.on HUP_STAT_VIN_OK || s.isolated dieP then s.set HUP_STAT_CHG chgOff
  else if s.get HUP_STAT_CHG = chgOff then s.set HUP_STAT_CHG chgCc
  else s

/-- READY is 1 while VSTORE ≥ READY_V; STORE_READY as it becomes 1 (R215, R223). -/
def showReady (s : State) : State :=
  let ready := decide (10 * s.get HUP_STORE_READY_V ≤ s.get HUP_STAT_VSTORE)
  let s1 := s.put HUP_STAT_READY ready
  if ready && !s.on HUP_STAT_READY then hupEvt 2 0x070F s1 else s1

/-- The store is measured at `v` mV. -/
def storeMeasured (v : BitVec 16) (s : State) : State := showReady (s.set HUP_STAT_VSTORE v.toNat)

/-- The gates HUP_GA to HUP_GD switch: the charger charges or holds CV; they are off otherwise, and held off by their pull-downs while the
P-die is isolated (R214, R215). -/
def State.chgGates (s : State) : Bool := (s.get HUP_STAT_CHG = chgCc || s.get HUP_STAT_CHG = chgCv) && !s.isolated dieP

/-- HUP_BG is on: the store feeds HK0 (R214, R216). -/
def State.biasGate (s : State) : Bool := s.on HUP_STAT_ON_STORE && !s.isolated dieP

/-- The charger fails (R215): gates off, CHG_FAULT. -/
def chargerFault (s : State) : State := latchClass clsChgFault (hupEvt 4 0x070D (s.set HUP_STAT_CHG chgFault))

/-- The store is measured at `v` mV; in CC or CV a store above CV + 5 % is a fault (R215). -/
def chargeMeasured (v : BitVec 16) (s : State) : State :=
  let s1 := storeMeasured v s
  if (s.get HUP_STAT_CHG = chgCc ∨ s.get HUP_STAT_CHG = chgCv) ∧ 1050 * s.get HUP_CHG_CV < 100 * v.toNat then chargerFault s1 else s1

/-- CHG_CV (R215): CC to CV at VSTORE ≥ CV − 1 %. -/
def execChgCv (v : BitVec 16) (s : State) : Out :=
  .next <|
    let s1 := chargeMeasured v s
    if s1.get HUP_STAT_CHG = chgCc ∧ 990 * s.get HUP_CHG_CV ≤ 100 * v.toNat then s1.set HUP_STAT_CHG chgCv else s1

/-- CHG_FULL (R215): in CV the current, `i` in mA, has stayed below ITERM for 10 ms. -/
def execChgFull (i : BitVec 16) (s : State) : Out :=
  .next <| if s.get HUP_STAT_CHG = chgCv ∧ i.toNat < 10 * s.get HUP_CHG_ITERM then s.set HUP_STAT_CHG chgFull else s

/-- CHG_RECHARGE (R215): FULL to CC below CV − 3 %. -/
def execChgRecharge (v : BitVec 16) (s : State) : Out :=
  .next <|
    let s1 := storeMeasured v s
    if s.get HUP_STAT_CHG = chgFull ∧ 100 * v.toNat < 970 * s.get HUP_CHG_CV then s1.set HUP_STAT_CHG chgCc else s1

/-- CHG_FAULT (R215): the store above CV + 5 % in CC or CV, or (`v` none) CC lasting CC_TMO s. -/
def execChgFault (v : Option (BitVec 16)) (s : State) : Out :=
  .next <|
    match v with
    | some v => chargeMeasured v s
    | none => if s.get HUP_STAT_CHG = chgCc then chargerFault s else s

/-- STORE_READY (R215): the store is measured; READY and its event follow. -/
def execStoreReady (v : BitVec 16) (s : State) : Out := .next (chargeMeasured v s)

/-- STORE_CHARGE (R215, R278): CV and CC are written and EN set, as the register writes would. -/
def cmdStoreCharge (arg : Nat) (s : State) : CmdRes :=
  let cv := arg % 2 ^ 11
  if 600 ≤ cv ∧ cv ≤ 1600 ∧ s.get HUP_STORE_READY_V ≤ cv then
    cmdOk (chargerFollow (((s.set HUP_CHG_CV cv).set HUP_CHG_CC (arg / 2 ^ 11)).set HUP_CTL_EN 1))
  else cmdIgnored s

/-- VIN_LOSS (R216): VIN_SENSE, `v` in mV, has lain below VIN_UV: the charger off, the bias on the store, the orderly down requested. With
the P-die isolated HUP_BG stays off (R214). -/
def execVinLoss (v : BitVec 16) (s : State) : Out :=
  .next <|
    if s.on HUP_STAT_VIN_OK ∧ v.toNat < 20 * s.get HUP_VIN_VIN_UV then
      let s1 := chargerFollow (s.set HUP_STAT_VIN_OK 0)
      let s2 := latchClass clsVinLoss (hupEvt 0 0x070B s1)
      let s3 := if s.on HUP_CTL_RIDE_EN && s.on HUP_CTL_STORE_PRESENT && !s.isolated dieP then s2.set HUP_STAT_ON_STORE 1 else s2
      let s4 := s3.modSeq (fun x => { x with restartDue := false, downRan := s.on SEQ_CFG_DOWN_EN })
      if s.on SEQ_CFG_DOWN_EN then seqRequest 0 (s.get SEQ_CFG_DOWN_SEQ) s4 else s4
    else s

/-- STORE_LOW (R217): on the store, below STORE_MIN: a PACKAGE action, and the running sequence ends; an action that has begun
completes. -/
def execStoreLow (v : BitVec 16) (s : State) : Out :=
  .next <|
    let s1 := storeMeasured v s
    if s.on HUP_STAT_ON_STORE ∧ v.toNat < 10 * s.get HUP_STORE_STORE_MIN then
      let s2 := latchClass clsStoreLow (hupEvt 3 0x070C s1)
      let s3 := packageShutdown (if s.seqState = seqActing then applyAction s2 else s2)
      if s3.seqState = seqIdle then s3 else seqEnd 4 5 s3
    else s1

/-- VIN_GOOD (R29, R218), its filter timed on the main LO: VIN_SENSE, `v` in mV, has stayed above
VIN_UV + HYST: the ride-through ends, the charger resumes, and where an orderly down was requested a restart may follow. -/
def execVinGood (v : BitVec 16) (s : State) : Out :=
  .next <|
    if s.on HUP_STAT_VIN_OK || s.pkg = pkgOff || s.pkg = pkgKeep || !s.pkg_.loRuns ||
        v.toNat ≤ 20 * (s.get HUP_VIN_VIN_UV + s.get HUP_VIN_HYST) then s
    else
      let s1 := chargerFollow ((s.set HUP_STAT_VIN_OK 1).set HUP_STAT_ON_STORE 0)
      let s2 := hupEvt 1 0x070E s1
      tryRestart (s2.modSeq (fun x => { x with restartDue := s.on HUP_CTL_RESTART && x.downRan, downRan := false }))

/-! ### Housekeeping (R219 to R221) -/

/-- The output setting of a housekeeping regulator in mV (R228). -/
def State.hkMv (s : State) (b : Nat) : Nat := if b < 4 then 600 + 10 * s.get (HK_BUCK_VOUT b) else 800 + 25 * s.get (HK_LDO_VOUT (b - 4))

/-- An output in mV lies outside ±8 % of its setting (R220). -/
def hkOutside (set mv : Nat) : Bool := decide (8 * set < 100 * ((mv : Int) - set).natAbs)

/-- HK_FAULT (R219, R220): regulator `i` (HK0 to HK3, LDO0 to LDO3) at `mv` has been out of band, or (`none`) held in current limit; with
FACT = 1 it is turned off, HK0 never. An enabled regulator back within its band shows its PG again (R228). -/
def execHkFault (i : Fin 8) (mv : Option (BitVec 16)) (s : State) : Out :=
  .next <|
    let outOfBand : Bool := match mv with | some v => hkOutside (s.hkMv i) v.toNat | none => false
    if s.on (hkField i) ∧ (mv = none ∨ outOfBand) then
      let s1 := latchClass clsHkFault ((s.setBit HK_FLT_LATCH i true).pushEvt 0x0710 i 0)
      let fact := if i.val < 4 then s.on (HK_BUCK_FACT i) else s.on (HK_LDO_FACT (i - 4))
      if i.val ≠ 0 ∧ fact then hkWrite i false s1 else if outOfBand then hkPg i false s1 else s1
    else if s.on (hkField i) then hkPg i true s
    else s

/-- TD_MEASURE (R221): a reading in 0.0625 °C, 0x8000 when open; TD_ALARM at or above ALARM or open. -/
def execTdMeasure (i : Fin 8) (temp : BitVec 16) (s : State) : Out :=
  .next <|
    if s.on (HK_TD_EN i) then
      let s1 := s.set (HK_TDVAL_TEMP i) temp.toNat
      if temp = 0x8000 ∨ (16 * s.get (HK_TD_ALARM i) : Int) ≤ temp.toInt then
        if s.bit HK_FLT_TD_LATCH i then latchClass clsTdAlarm s1
        else latchClass clsTdAlarm ((s1.setBit HK_FLT_TD_LATCH i true).pushEvt 0x0711 i 0)
      else s1
    else s

/-! ### Write rules of the SEQ, HUP and HK registers -/

/-- The rules a write of a SEQ, HUP or HK register must satisfy (R198 to R200, R215, R220, R224). -/
def seqRule (r : Reg) (old new : Word) (s : State) : Bool :=
  match r.name with
  | .SEQ_CMD =>
    !(wordGet new 0 1 = 1 && wordGet new 1 1 = 1) && (wordGet new 0 1 = 0 || (s.active && s.seqState = seqIdle)) &&
      (wordGet new 1 1 = 0 || s.seqState ≠ seqIdle)
  | .SEQ_LOAD_DATA => s.seq.load.isSome
  | .SEQ_STEP => false
  | .HUP_CHG => s.get HUP_STORE_READY_V ≤ wordGet new 0 11
  | .HUP_STORE => wordGet new 16 11 < wordGet new 0 11 && wordGet new 0 11 ≤ s.get HUP_CHG_CV
  | .HK_BUCK => r.i = 0 || wordGet old 0 1 = 0 || wordGet old 1 9 = wordGet new 1 9
  | .HK_LDO => wordGet old 0 1 = 0 || wordGet old 1 7 = wordGet new 1 7
  | _ => true

/-- What an applied write of a SEQ, HUP or HK register sets off. A dependency entry that is written anew is armed: it trips once (R203; log
entry 122). Nothing stops HK0 (R219, R228). -/
def seqAfter (r : Reg) (old new : Word) (s : State) : State :=
  match r.name with
  | .SEQ_CMD =>
    if wordGet new 0 1 = 1 then (cmdSeqStart (wordGet new 4 3) s).s
    else if wordGet new 1 1 = 1 then (cmdSeqStop s).s else s
  | .SEQ_LOAD_CTL => if wordGet new 0 1 = 1 then seqLoadStart s else s
  | .SEQ_LOAD_DATA => seqLoadData new s
  | .SEQ_DEP_A => rearmDeps (if old = new then s else { s with depArmed := bitPut s.depArmed r.i true })
  | .SEQ_DEP_B => rearmDeps (if old = new then s else { s with depArmed := bitPut s.depArmed r.i true })
  | .HUP_CTL => chargerFollow s
  | .HUP_STORE => showReady s
  | .HK_BUCK => if r.i ≠ 0 && wordGet old 0 1 ≠ wordGet new 0 1 then hkPg r.i (wordGet new 0 1 = 1) s else s
  | .HK_LDO => if wordGet old 0 1 ≠ wordGet new 0 1 then hkPg (4 + r.i) (wordGet new 0 1 = 1) s else s
  | _ => s

end Sys2Proof.Machine
end

