-- ==== Sys2Proof/Machine/Pads.lean ====
section
/-! DEFINITION. Sys2Proof/Machine/Pads.lean: what the dedicated and the multi-function pins show (R24, R213, R304, R311, R371, R376, R380,
R381, R399). -/

namespace Sys2Proof.Machine

/-! ### Dedicated pins (R213, R376, R380, R399) -/

/-- The 250 ms slots of the 4 s blink pattern (R399). -/
def blinkSlots : Nat := 16

/-- FAULT_N is driven low (R24, R213, R399, R423). -/
def State.faultN (s : State) : Bool :=
  if s.pkg = pkgOff ∨ s.pkg = pkgKeep then false
  else if s.pkg = pkgBoot then true
  else if s.pkg = pkgHeld then
    s.isolated dieC || !(s.on KLN_STAT_KEEPER_OK && s.pkg_.blink % 2 = 0 && s.pkg_.blink / 2 < s.get OTP_FAIL_CAUSE)
  else s.faultMapped || s.isolated dieC

/-- SMBALERT# is asserted: ALERT_EV, and the FIFO holds a record (R304). -/
def State.alert (s : State) : Bool := s.on MGT_PMB_CFG_ALERT_EV && !s.evtFifo.isEmpty

/-- The alarms of the pins. -/
def State.alarms (s : State) : Alarms := ⟨s.faultN, s.alert⟩

/-- The hub is unpowered, in reset, or in HELD: IRQ_N and PG_OUT rest (R380, R423). -/
def State.resting (s : State) : Bool := !s.active

/-- The dedicated pins drive: VDDIO_0, which feeds them, is not low (R430). -/
def State.padsFed (s : State) : Bool := !bitOf s.pin.bankLow 0

/-- FAULT_N at its pad. -/
def State.faultNPad (s : State) : Bool := s.padsFed && s.faultN

/-- IRQ_N is asserted (R376, R380, R430): a PEND bit of a HOST-owned pin, a record waiting while the host port is not RUNNING, or
FAULT_N. -/
def State.irqN (s : State) : Bool :=
  !s.resting && s.padsFed &&
    ((s.on PIN_IRQN_GPIO && (List.range 64).any (fun i => s.bit (GPIO_IRQ_PEND (i / 16)) (i % 16) && s.pinOwner i = hostOwner)) ||
      (s.on PIN_IRQN_EV && !s.evtFifo.isEmpty && s.rstate ≠ rsRunning) || (s.on PIN_IRQN_FAULT && s.faultN))

/-- READY is high: RUN and STANDBY (R380, R430). -/
def State.readyPin (s : State) : Bool := s.active && s.padsFed

/-- PG_OUT is high (R213, R380, R430). -/
def State.pgPin (s : State) : Bool := !s.resting && s.pgOut && s.padsFed

/-! ### Multi-function pins under the boundary register (R311, R371) -/

/-- A pin under the boundary register: EXTEST and CLAMP drive its preloaded cell, HIGHZ releases it (R311). -/
def State.scanned (s : State) (cell : Nat) (o : PinOut) : PinOut :=
  if s.mgt.ir = 0x00 ∨ s.mgt.ir = 0x04 then (if bitOf s.mgt.cellsOe cell then .ofBool (bitOf s.mgt.cells cell) else .released)
  else if s.mgt.ir = 0x05 then .released
  else o

/-- What a pin drives, the boundary register included. An unpowered hub, and a bank below 1.0 V, drive nothing; in reset and in HELD the
pins are inputs, but for the reset of a soft reset, which leaves them as they were (R380, R385, R423, R430). -/
def State.mfpOut (s : State) (i : Nat) : PinOut :=
  if s.pkg = pkgOff ∨ s.pkg = pkgKeep ∨ bitOf s.pin.bankLow (i / 16) then .released
  else s.scanned i <|
    if s.pkg = pkgHeld ∨ (s.pkg = pkgBoot ∧ !s.pkg_.bootSoft) then .released else s.pinOut s.alarms i

/-- What the dedicated outputs drive, the boundary register included: 0 FAULT_N, 1 READY, 2 IRQ_N, 3 PG_OUT; FAULT_N and IRQ_N are open
drain (R311, R380, R423). -/
def State.dedOut (s : State) (k : Nat) : PinOut :=
  if s.pkg = pkgOff ∨ s.pkg = pkgKeep ∨ !s.padsFed then .released
  else
    let o := s.scanned (64 + k) (match k with
      | 0 => .ofBool (!s.faultN)
      | 1 => .ofBool s.readyPin
      | 2 => .ofBool (!s.irqN)
      | _ => .ofBool s.pgPin)
    if o = .high ∧ k % 2 = 0 then .released else o

/-- The pins of a list keep the levels they had in `old` (R381); one that kept a level before keeps that. -/
def keepLevels (l : List Nat) (old s : State) : State :=
  l.foldl (fun s i =>
    let (o, s) := heldLevel (old.pinOut old.alarms i) s
    { s with pin := { s.pin with kept := (i, o) :: s.pin.kept } }) s

/-- Every pin keeps its level as the C-die is isolated (R381). -/
def keepPins (old s : State) : State := keepLevels (List.range 64) old s

/-- The pads of MFP56 to MFP63 keep their levels as the P-die is isolated from the multiplexer (R365). -/
def keepPads (old s : State) : State := keepLevels ((List.range 8).map (56 + ·)) old s

/-- PIN_HANDOVER (R371): the interval ends and the new function is applied; each change that came meanwhile runs a handover of its own,
in turn. A pin in analogue mode reads 0 (R374), which its interrupt judges as any sample (R375). -/
def execPinHandover (i : Fin 64) (s : State) : Out :=
  .next <|
    match s.handover i with
    | none => s
    | some ([], _) => { s with pin := { s.pin with hand := s.pin.hand.filter (fun h => h.1 ≠ i.val) } }
    | some (f :: l, _) =>
      let s1 := (s.set (PIN_CFG_FN_CUR i) f).bump PIN_CNT_HANDOVER_CNT
      let s2 := { s1 with pin := { s1.pin with hand := s1.pin.hand.filter (fun h => h.1 ≠ i.val) } }
      let s3 := if f = 5 then pinSample i false s2 else s2
      if l.isEmpty then s3 else startHandover i l (s3.fnOut s3.alarms i) s3

/-- What the boundary register captures (R310, R311; log entry 131): the 64 multi-function pins, a pin that drives no level showing its
synchronised input; FAULT_N, READY, IRQ_N and PG_OUT; VRr_EN; the gates HUP_GA to HUP_GD, which `gates` gives while the charger switches
them, and HUP_BG; PHk_PWM at a grid instant; and MODE[0], MODE[1] and RST_N as they are (`ins`). -/
def State.boundary (s : State) (ins gates step zc : Nat) : Nat :=
  let mfp := maskOf 64 (fun i =>
    match s.mfpOut i with
    | .low => false
    | .high => true
    | _ => s.pinHigh i)
  let ded := maskOf 4 (fun k => s.padsFed && decide (s.dedOut k = .high ∨ (k % 2 = 0 ∧ s.dedOut k = .released)))
  let hup := maskOf 5 (fun k => if k < 4 then s.chgGates && bitOf gates k else s.biasGate)
  let pwm := maskOf 96 (fun k => s.pwmPad k step (bitOf zc k) = .high)
  mfp + 2 ^ 64 * ded + 2 ^ 68 * maskOf 24 s.vrEn + 2 ^ 92 * hup + 2 ^ 97 * pwm + 2 ^ 193 * (ins % 8)

end Sys2Proof.Machine
end

