-- ==== Sys2Proof/Machine/Pkg.lean ====
section
/-! DEFINITION. Sys2Proof/Machine/Pkg.lean: the package: resets and what they keep, its states, its supplies, its dies and its
scrubbers (R24, R30, R31, R42, R43, R265, R412 to R426, R430, R442). -/

namespace Sys2Proof.Machine

/-- The package's internal state changed. -/
def State.modPkg (s : State) (f : PkgInt → PkgInt) : State := { s with pkg_ := f s.pkg_ }

/-! ### What a reset keeps (R10, R412, R422) -/

/-- The resets that pass through BOOT, and leaving KEEP (R412, R419). -/
inductive ResetKind where
  | power | supply | pin | watchdog | lo | soft | keep
deriving DecidableEq, Repr

/-- A field's Keep code carries the reset's letter. -/
def ResetKind.keeps : ResetKind → Keep → Bool
  | .power, _ => false
  | .supply, k => k = .p
  | .pin, k => k = .p
  | .watchdog, k => k = .p || k = .kwsh || k = .wsh
  | .lo, k => k = .p || k = .kwsh || k = .wsh
  | .soft, k => k ≠ .dash && k ≠ .h
  | .keep, k => k = .p || k = .kwsh

/-- Measurements: a reset measures again what it did not change (R422, log entry 25). -/
def ResetKind.measured (k : ResetKind) (r : Reg) (lo : Nat) : Bool :=
  let board : Bool := (r.name = .OUT_BANK && lo = 16) || (r.name = .HUP_STAT && (lo = 5 || lo = 16)) || r.name = .HK_TDVAL ||
    (r.name = .GLB_DIE && 4 ≤ lo)
  match k with
  | .power => false
  | .supply => r.name = .KLN_STAT
  | .keep => r.name = .KLN_STAT
  | .soft => board || r.name = .KLN_STAT || r.name = .OUT_BANK || r.name = .PRG_RMEAS || r.name = .FLT_RSTAT || r.name = .HUP_STAT ||
      r.name = .HK_STAT
  | _ => board || r.name = .KLN_STAT

/-- A register's word after a reset: kept fields over the reset value. -/
def resetWord (keep : FieldSpec → Bool) (r : Reg) (w : Word) : Word :=
  r.fields.foldl (fun a f => if keep f then wordSet a f.lo f.w (wordGet w f.lo f.w) else a) r.reset

/-- The register file after a reset whose scope is the registers `scope` picks. -/
def resetRegs (scope : Reg → Bool) (keep : Reg → FieldSpec → Bool) (l : List (Reg × Word)) : List (Reg × Word) :=
  l.filterMap (fun e =>
    if scope e.1 then
      let w := resetWord (keep e.1) e.1 e.2
      if w = e.1.reset then none else some (e.1, w)
    else some e)

/-! ### The package reset (R414) -/

/-- A reset or wake is recorded in the Kiln: its cause and its count, with a watchdog reset's own (R414, R427). -/
def recordReset (cause : Nat) (watchdog : Bool) (s : State) : State :=
  let s1 := s.each 7 (fun i s => s.setWord ⟨.KLN_HIST, 7 - i, 0, 0⟩ (s.word ⟨.KLN_HIST, 6 - i, 0, 0⟩))
  let s2 := ((s1.set (KLN_HIST_CAUSE 0) cause).set (KLN_HIST_SEC 0) (s.get KLN_TIME_SEC)).set GLB_RESET_CAUSE cause
  (s2.bump GLB_RESET_RST_CNT).when watchdog (fun s => s.bump KLN_WDG_CNT_CNT)

/-- The registers after a package reset; a snapshotted high word is kept where its field is (R95). -/
def resetFields (k : ResetKind) (s : State) : State :=
  { s with
    regs := resetRegs (fun _ => true) (fun r f => k.keeps f.keep || k.measured r f.lo) s.regs
    snap := s.snap.filter (fun e => ((Reg.ofOff e.1).elim false (fun r => r.fields.any (fun f => k.keeps f.keep)))) }

/-- What every package reset leaves of the state beside the registers: the fuses, the flash, what has been sent, the queue, the Kiln's
own, the TAP, the supplies, and the stability oscillator, which runs outside. -/
def bareState (k : ResetKind) (s : State) : State :=
  { (resetFields k s) with
    evtFifo := [], evtSeq := 0, evtDropped := 0, evtFull := false
    mon := State.reset.mon, trg := State.reset.trg, wheel := State.reset.wheel, syn := State.reset.syn, out := State.reset.out
    rail := State.reset.rail, prg := State.reset.prg, depArmed := 0, depTrig := 0, pin := { bankLow := s.pin.bankLow }
    seq := {}, dma := State.reset.dma
    rr := State.reset.rr, iotlb := [], walks := [], inv := none, host := {}
    mgt := if k = .supply ∨ k = .keep then {} else
      { ir := s.mgt.ir, cells := s.mgt.cells, cellsOe := s.mgt.cellsOe, jtagData := s.mgt.jtagData, jtagStatus := s.mgt.jtagStatus }
    otp := { fuse := s.otp.fuse }, img := State.reset.img, stg := State.reset.stg, wdg := State.reset.wdg
    engMem := if k = .supply ∨ k = .keep then State.reset.engMem else s.engMem
    pkg_ := { loRuns := s.pkg_.loRuns, resetHold := s.pkg_.resetHold, supplyOut := s.pkg_.supplyOut }
    lnk := State.reset.lnk, sys := {}, loHz1 := State.reset.loHz1, rxq := State.reset.rxq
    lineWait := State.reset.lineWait, lineSeq := State.reset.lineSeq }

/-- What a soft reset leaves: outputs, rails, links and engine-owned channels run on; engines, host port, images, watchdog and the OTP
block's work do not (R337, R422). The running sequence ends STOPPED, an action that has begun having completed (R199). -/
def softState (s : State) : State :=
  let s0 := if s.seqState = seqIdle then s else seqEnded 4 4 (s.when (s.seqState = seqActing) applyAction)
  let s1 := ((s0.modSeq (fun x => { x with held := none, restartDue := false, stopPend := false })).set SEQ_STAT_PEND 0).set
    SEQ_STAT_PEND_SEQ 0
  let s3 := resetFields .soft (disableHostChannels s1)
  let s4 := { s3 with
    pin := { s3.pin with kept := [] }, iotlb := [], walks := [], inv := none, host := {}
    mgt := { offCode := s.mgt.offCode, ir := s.mgt.ir, cells := s.mgt.cells, cellsOe := s.mgt.cellsOe, jtagData := s.mgt.jtagData
             jtagStatus := s.mgt.jtagStatus }
    otp := { fuse := s.otp.fuse }, img := State.reset.img, stg := State.reset.stg, wdg := State.reset.wdg
    pkg_ := { loRuns := s.pkg_.loRuns, resetHold := s.pkg_.resetHold, supplyOut := s.pkg_.supplyOut, dieCe := s.pkg_.dieCe
              diePoison := s.pkg_.diePoison }
    sys := { s.sys with regAcc := none, cmdAcc := none } }
  showFill (s4.each 4 (fun p s5 =>
    let r : Reg := ⟨.PRG_TBSEL, p, 0, 0⟩
    prgAfter r (s.word r) (s5.word r) s5))

/-- HK_STAT, HUP_STAT and BANK_OK measured again (R145, R219, R422). -/
def remeasure (s : State) : State :=
  showReady ((s.set HUP_STAT_ON_STORE 0).each 8 (fun b s =>
    s.put (OUT_BANK_BANK_OK b) (bankInBand (s.get (OUT_BANK_VCLASS b)) (s.get (OUT_BANK_VMEAS b)))))

/-- A range of the flash is torn (R361, R407): what it reads as is free until it is erased. -/
def flashTear (a n : Nat) (s : State) : State := { s with torn := (a, n, s.freeCount) :: s.torn, freeCount := s.freeCount + 1 }

/-- A reset tears the direct erase and the slot being staged that it meets (R361, R407). -/
def tearFlash (s : State) : State :=
  let s1 := match s.mgt.spi with
    | some (op, a, _) => (match spiErase op with | some n => flashTear (a / n * n) n s | none => s)
    | none => s
  let d := s1.deferOf grpImage
  if d.state = 1 ∧ d.opcode = 0x48 then flashTear (slotBase d.cls (1 - s1.get (ENG_IMG_STAT_ACTIVE d.cls))) 0x100000 s1 else s1

/-- A word whose burn a supply loss tears reads as it may, at each of the three sense levels (R397, R398, R408). -/
def tearBurn (s : State) : State :=
  match s.otp.burn with
  | some j =>
    let (n, s1) := s.draw
    let (l, s2) := s1.draw
    let (h, s3) := s2.draw
    let (m, s4) := s3.draw
    setFuse j.word (n + 2 ^ 32 * (m % 128), l + 2 ^ 32 * (m / 128 % 128), h + 2 ^ 32 * (m / 16384 % 128)) s4
  | none => s

/-- Everything is lost (R415): the Kiln too. -/
def loseAll (s : State) : State :=
  let s1 := tearFlash (tearBurn s)
  { State.reset with
    otp := { fuse := s1.otp.fuse }, flash := s1.flash, torn := s1.torn, sent := s1.sent, freeCount := s1.freeCount, pending := s1.pending
    stbRuns := s1.stbRuns, stbOfs := s1.stbOfs, pkg_ := { supplyOut := s1.pkg_.supplyOut } }

/-- The dies a supply of R430 feeds, in its order: VDDC, VDDD, VDDA_T0, VDDA_T1, VDDA_P; the other supplies isolate none. -/
def supplyDies (x : Nat) : List Nat :=
  if x < 2 then [0, 1, 2, 3] else if x = 2 then [dieT0] else if x = 3 then [dieT1] else if x = 4 then [dieP] else []

/-- A die's supply alarm: any supply that isolates it is out of its band (R426, R430). -/
def State.dieStarved (s : State) (d : Nat) : Bool := (List.range 5).any (fun x => bitOf s.pkg_.supplyOut x && (supplyDies x).contains d)

/-- GLB_DIE.SUPPLY follows the monitors. -/
def showSupply (s : State) : State := s.set GLB_DIE_SUPPLY (maskOf 4 s.dieStarved)

/-- A bank with the elements a condition picks taken from another. -/
def mixBank {α : Type} {n : Nat} (old new : Vector α n) (p : Nat → Bool) : Vector α n :=
  Vector.ofFn (fun i : Fin n => if p i then new[i] else old[i])

/-- A die held in reset (R430): its registers but the P-coded ones at their reset values, its blocks at rest, its outputs at high
impedance and its rails off; the C-die's monitors, VDDC and VDDD, are every die's (log entry 142: DESIGN CHOICE). -/
def holdDie (d : Nat) (s : State) : State :=
  let z := State.reset
  let kept (r : Reg) (f : FieldSpec) : Bool := ResetKind.pin.keeps f.keep || ResetKind.pin.measured r f.lo
  let s1 := { s with regs := resetRegs (fun r => dieOfOff r.off = d) kept s.regs }
  if d = dieP then
    rearmDeps { s1 with rail := z.rail, prg := z.prg, depTrig := 0, seq := {} }
  else
    { s1 with
      mon := mixBank s.mon z.mon (fun m => dieOfRef m = d), trg := mixBank s.trg z.trg (fun t => dieOfRegion t = d)
      wheel := mixBank s.wheel z.wheel (fun c => dieOfCluster c = d), syn := mixBank s.syn z.syn (fun c => dieOfCluster c = d)
      out := mixBank s.out z.out (fun n => dieOfOut n = d), lnk := mixBank s.lnk z.lnk (fun k => dieOfPort k = d)
      rxq := mixBank s.rxq z.rxq (fun k => dieOfPort k = d) }

/-- The dies whose supplies are out of band as BOOT waits for them are held in reset (R430). -/
def holdDies (s : State) : State :=
  if s.dieStarved dieC then showSupply ((bareState .supply s).set GLB_STATE_STATE pkgBoot)
  else [dieT0, dieT1, dieP].foldl (fun s d => if s.dieStarved d then holdDie d s else s) s

/-- BOOT is entered: what the supply monitors see, and what they hold (R430). -/
def bootSupplies (s : State) : State :=
  (holdDies (showSupply s)).each 24 (fun r s => s.set (FLT_RSTAT_SUP_HELD r) (s.pkg_.supplyOut / 2 ^ (9 + r / 6) % 2))

/-- Every class in TRIAL counts a watchdog reset (R360). -/
def countTries (s : State) : State :=
  s.each 3 (fun c s => if s.on (ENG_IMG_STAT_TRIAL c) then setTries c (min 3 (s.tries c + 1)) s else s)

/-- The causes of a watchdog reset (R427). -/
def watchdogCause (cause : Nat) : Bool := 0x30 ≤ cause && cause ≤ 0x40

/-- HK0's output is lost and the hub is OFF (R415): the P fields survive where VAUX_KEEP keeps the Kiln supplied, and nothing where it
does not (R412, R421; log entry 136). -/
def hk0Lost (s : State) : State :=
  if s.on KLN_STAT_VAUX_OK then (bareState .supply s).set GLB_STATE_STATE pkgOff
  else ((loseAll s).set GLB_STATE_STATE pkgOff).modPkg (fun x => { x with kilnLost := true })

/-- The fields and blocks a package reset of a kind resets (R412); BOOT follows, and dies without their supplies wait in reset. -/
def resetScope (k : ResetKind) (s : State) : State :=
  let s1 := if k = .soft then softState s else bareState k s
  bootSupplies ((remeasure ((s1.set GLB_STATE_STATE pkgBoot).modPkg (fun x => { x with
    resetDue := true, resetHold := true, bootSoft := decide (k = .soft) }))))

/-- A package reset takes place now (R414): a watchdog reset counts in every TRIAL class (R360); the ride-through ends, and without VIN
the hub goes OFF (R424). -/
def doReset (k : ResetKind) (cause : Nat) (s : State) : State :=
  let off := s.on HUP_STAT_ON_STORE && !s.on HUP_STAT_VIN_OK
  let s1 := recordReset cause (watchdogCause cause) (tearFlash s)
  let s2 := resetScope k (s1.when (watchdogCause cause) countTries)
  if off then hk0Lost s2 else s2

/-- The codes of OtpInt.due. -/
def ResetKind.code : ResetKind → Nat
  | .pin => 1 | .watchdog => 2 | .lo => 3 | .soft => 4 | _ => 0
def ResetKind.ofCode (n : Nat) : ResetKind := if n = 1 then .pin else if n = 2 then .watchdog else if n = 3 then .lo else .soft

/-- The kind of two resets that arise together: the one that keeps less (R412; log entry 143: DESIGN CHOICE). -/
def ResetKind.join (a b : ResetKind) : ResetKind :=
  if a = .pin ∨ b = .pin then .pin else if a = .soft then b else a

/-- A package reset that now arises is one of its own: none waits for a burn, and none has taken place at this moment (R424). -/
def State.resetAlone (s : State) : Bool := s.otp.due.isNone && !s.pkg_.resetHold

/-- A package reset waits for a fuse word being burned (R397). Of those that arise together one takes place, with one history entry and
the cause that came first (R424). -/
def packageReset (k : ResetKind) (cause : Nat) (s : State) : State :=
  if s.otp.burn.isSome then
    s.modOtp (fun o => { o with due := some (match o.due with
      | some (n, c) => (((ResetKind.ofCode n).join k).code, c)
      | none => (k.code, cause)) })
  else if s.pkg_.resetHold ∧ s.pkg = pkgBoot then (if k = .soft then s else resetScope k s)
  else doReset k cause s

/-- A reset that waited for a burn takes place once no burn is in progress. -/
def dueReset (s : State) : State :=
  match s.otp.due with
  | some (n, cause) => if s.otp.burn.isNone then doReset (.ofCode n) cause s else s
  | none => s

/-- The hub takes resets other than a pin or power-on reset: it is powered, and its C-die is not isolated (R24). -/
def State.resettable (s : State) : Bool := s.pkg ≠ pkgOff && s.pkg ≠ pkgKeep && !s.isolated dieC

/-- POWER_ON_RESET (R412, R415): supply returns to a Kiln that had lost all of it. -/
def powerOn (s : State) : State := bootSupplies ((loseAll s).set (KLN_HIST_CAUSE 0) 0x10)

def execPowerOnReset (s : State) : Out := .next (powerOn s)

/-- KILN_SUPPLY_LOSS (R415): the hub is OFF with everything lost. -/
def execKilnSupplyLoss (s : State) : Out :=
  .next (((loseAll s).set GLB_STATE_STATE pkgOff).modPkg (fun x => { x with kilnLost := true }))

/-- SUPPLY_LOSS (R412, R415): HK0's output is lost. In OFF and KEEP there is none to lose. -/
def execSupplyLoss (s : State) : Out :=
  .next <|
    if s.pkg = pkgOff ∨ s.pkg = pkgKeep then s
    else hk0Lost (tearFlash (tearBurn s))

/-- HK0_IN_REGULATION (R415): OFF to BOOT, cause 0x11 where the Kiln survived and 0x10 where it did not. -/
def execHk0InRegulation (s : State) : Out :=
  .next <|
    if s.pkg ≠ pkgOff then s
    else if s.pkg_.kilnLost then powerOn s
    else bootSupplies ((((recordReset 0x11 false s).set GLB_STATE_STATE pkgBoot).modPkg (fun x => { x with resetDue := true })))

/-- PIN_RESET (R413, R414, R419): in KEEP it is a wake; an unpowered hub does not see it. -/
def execPinReset (s : State) : Out := .next (if s.pkg = pkgOff then s else packageReset .pin 0x20 s)

/-- LO_LOSS_RESET (R30, R31, R55): every monitor freezes, and the C-die resets the package; an isolated C-die takes no reset but a pin
or power-on reset (R24). -/
def execLoLossReset (s : State) : Out :=
  .next <|
    if s.pkg = pkgOff ∨ s.pkg = pkgKeep then s
    else
      let s1 := freezeMonitors (s.modPkg (fun x => { x with loRuns := false }))
      if s.resettable then packageReset .lo 0x50 s1 else s1

/-- A package watchdog reset (R405): the failing slot and kind recorded. -/
def watchdogReset (slot kind : Nat) (s : State) : State :=
  if s.resettable then
    packageReset .watchdog (0x30 + slot) (s.when s.resetAlone (fun s =>
      ((s.set WDG_LASTFAIL_KIND kind).set WDG_LASTFAIL_SLOT slot).set WDG_LASTFAIL_VALID 1))
  else s

/-- A forced watchdog reset (R406); the spec names no slot for it, and SLOT is a free value. -/
def forcedReset (s : State) : State :=
  if s.resettable then
    let (v, s1) := s.draw
    packageReset .watchdog 0x40 (s1.when s1.resetAlone (fun s =>
      ((s.set WDG_LASTFAIL_KIND 5).set WDG_LASTFAIL_SLOT (v % 16)).set WDG_LASTFAIL_VALID 1))
  else s

/-- The slot runs: the watchdog and the slot enabled, in RUN or STANDBY, with the main LO running (R402, R403, R408). -/
def State.slotRuns (s : State) (i : Nat) : Bool := s.active && s.pkg_.loRuns && s.on WDG_CTL_EN && s.on (WDG_SLOT_EN i)

/-! ### The host-port reset (R265) -/

/-- A host-port reset: 0 hot reset, 1 link-down, 2 FLR. None can arise while no link is up. Of the HOST registers only HPR_CNT, SUMSEQ
and MODE survive it (R293), so HOST_STAT shows no link after an FLR either, although the link stays up; a walk or a burst of the host
port is abandoned, the IOTLB keeps what it holds, and an invalidation in progress goes on (R10). PAGE, the I3C dynamic address, the
mailbox and the event pop return to reset, as their row of R422 has it, beside R10's scope (log entry 144: DESIGN CHOICE). -/
def hostPortReset (cause : Nat) (s : State) : State :=
  if !s.host.link then s else
  let s1 := orphanDeferred (holdLate s)
  let s2 := (disableHostChannels s1).modHost (fun h =>
    { h with ring := State.reset.host.ring, reading := false, stalled := false, cause := 0
             link := cause = 2 })
  let scope (r : Reg) : Bool := namesHOST.contains r.name || r.name = .DATU_CCTL || r.name = .DATU_ROOT_LO || r.name = .DATU_ROOT_HI ||
    r.name = .DATU_FADDR_LO || r.name = .DATU_FADDR_HI || r.name = .DATU_FINFO || [RegName.MGT_MBX, .MGT_MBX_CTL, .MGT_MBX_RES,
      .MGT_MBX_BUF, .MGT_EV, .MGT_EV_DATA].contains r.name
  let page (r : Reg) (f : FieldSpec) : Bool :=
    (r.name = .MGT_PMB_STAT && f.lo = MGT_PMB_STAT_PAGE.lo) || (r.name = .MGT_I3C_STAT && f.lo = MGT_I3C_STAT_DADDR.lo)
  let regs := resetRegs (fun r => r.name = .MGT_PMB_STAT || r.name = .MGT_I3C_STAT) (fun r f => !page r f)
    (resetRegs scope (fun _ f => f.keep ≠ Keep.dash) s2.regs)
  let s3 := showFill { s2 with regs := regs, walks := s2.walks.filter (fun w => !w.host) }
  eventLine ((s3.bump HOST_STAT_HPR_CNT).raise GLB_EVT_EVT 4 0x0004 0 [(8, cause)])

/-- HOST_PORT_RESET (R265). -/
def execHostPortReset (cause : Fin 3) (s : State) : Out := .next (hostPortReset cause s)

/-! ### Dies and supplies (R24, R430, R442) -/

/-- A die is isolated (R23, R24): latched, recorded once, and what it carried falls away; its outputs are at high impedance while it
lasts (State.outZ), and the gates of an isolated P-die's charger are off (R214). The pins of an isolated C-die keep what they drove
(R381), as do those of the P-die's pads when that is isolated (R365); a burn in progress ends torn (R449); of the resets that waited for
it a pin reset takes place, and the others, which an isolated C-die does not take, fall away (R24). Before BOOT's first step the die is
held in reset instead (R430). -/
def dieIsolate (d : Nat) (s : State) : State :=
  if s.isolated d ∨ s.pkg = pkgOff ∨ s.pkg = pkgKeep then s
  else if s.pkg = pkgBoot then (if d = dieC then holdDies s else holdDie d s)
  else
  let s1 := latchClass clsDieIsolated (s.setBit GLB_DIE_ISOLATED d true)
  let s2 := s1.raise GLB_EVT_EVT 1 0x0001 d [(2, d)]
  if d = dieT0 ∨ d = dieT1 then
    let t := if d = dieT0 then 0 else 2
    reelect none (showEpoch (t / 2) (showRegion (t + 1) (showRegion t s2)))
  else if d = dieC then
    dueReset ((keepPins s (tearBurn s2)).modOtp (fun o => { o with burn := none, due := o.due.filter (fun e => e.1 = ResetKind.pin.code) }))
  else if d = dieP then (((keepPads s s2).each 24 railToSafe).set HUP_STAT_CHG chgOff).set HUP_STAT_ON_STORE 0
  else s2

/-- DIE_ISOLATED (R24): a die detects a neighbour's isolation. -/
def execDieIsolated (d : Fin 4) (s : State) : Out := .next (dieIsolate d s)

/-- VDDPWM_p low: a supply hold on every rail of the region (R430). -/
def supplyHold (p : Nat) (s : State) : State :=
  latchClass clsDieAlarm (s.each 6 (fun j s => railToSafe (6 * p + j) (s.set (FLT_RSTAT_SUP_HELD (6 * p + j)) 1)))

/-- VDDIO_b low: the bank's pads read 0, which their synchronisers judge as any level, and drive nothing (R375, R430). -/
def bankLow (b : Nat) (s : State) : State :=
  { s with pin := { s.pin with bankLow := bitPut s.pin.bankLow b true } }.each 16 (fun j s => pinSample (16 * b + j) false s)

/-- SUPPLY_OUT_OF_BAND (R430): supply `x` (0 VDDC, 1 VDDD, 2 and 3 VDDA_T0 and T1, 4 VDDA_P, 5 and 6 VDDL_T0 and T1, 7 VDDPE,
8 VDDPE_H, 9 to 12 VDDPWM_p, 13 to 16 VDDIO_b, 17 VAUX_KEEP) leaves its band (`on`) or is back in it. -/
def execSupplyOutOfBand (x : Fin 18) (on : Bool) (s : State) : Out :=
  .next <|
    let i := x.val
    let s := if i < 9 ∨ (i < 13 ∧ on) then s.modPkg (fun p => { p with supplyOut := bitPut p.supplyOut i on }) else s
    if i = 17 then s.put KLN_STAT_VAUX_OK (!on)
    else if s.pkg = pkgOff ∨ s.pkg = pkgKeep then s
    else if i < 5 then
      let s1 := showSupply s
      if on then (supplyDies i).foldl (fun s d => dieIsolate d s) ((supplyDies i).foldl (fun s d => latchFrom d clsDieAlarm s) s1) else s1
    else if !on then (if 13 ≤ i then { s with pin := { s.pin with bankLow := bitPut s.pin.bankLow (i - 13) false } } else s)
    else if i < 7 then
      let k := 2 * (i - 5)
      let down (k : Nat) (s : State) : State := if s.lnkState k = lnkUp then portDown k lnkTraining true s else s
      down (k + 1) (down k s)
    else if i < 9 then hostPortReset 1 s
    else if i < 13 then supplyHold (i - 9) s
    else bankLow (i - 13) s

/-- SUPPLY_HOLD_END (R430): VDDPWM_p has been above 3.0 V for 1 ms. -/
def execSupplyHoldEnd (p : Fin 4) (s : State) : Out :=
  let s1 := s.modPkg (fun x => { x with supplyOut := bitPut x.supplyOut (9 + p.val) false })
  .next (s1.each 6 (fun j s => s.set (FLT_RSTAT_SUP_HELD (6 * p.val + j)) 0))

/-- THERMAL_ALARM (R442): a die sensor crosses 152 °C (`hot`), or falls below 147 °C. -/
def execThermalAlarm (d : Fin 4) (hot : Bool) (s : State) : Out :=
  .next <|
    let s1 := s.setBit GLB_DIE_THERM d hot
    if hot then latchFrom d clsDieAlarm s1 else s1

/-- THERMAL_TRIP (R442): 160 °C held for 10 µs. -/
def execThermalTrip (d : Fin 4) (s : State) : Out := .next (dieIsolate d s)

/-! ### The keeper and HELD (R31, R399) -/

/-- KEEPER_LOST (R31, R425): the event as the flag becomes 1; the Kiln records age unknown from now on (R87). -/
def execKeeperLost (s : State) : Out :=
  .next <|
    if s.on KLN_STAT_KEEPER_OK then
      let s1 := { (s.set KLN_STAT_KEEPER_OK 0).set KLN_STAT_KEEPER_LOST 1 with kilnStale := 15 }
      if s.on KLN_STAT_KEEPER_LOST then s1 else s1.raise GLB_EVT_EVT 7 0x0E02 0 [(32, s.get KLN_TIME_SEC)]
    else s

/-- KEEPER_RETURN (R399): the HELD pattern begins afresh with a release. -/
def execKeeperReturn (s : State) : Out := .next ((s.set KLN_STAT_KEEPER_OK 1).modPkg (fun x => { x with blink := 0 }))

/-- HELD_BLINK (R399): the next 250 ms of the pattern. -/
def execHeldBlink (s : State) : Out :=
  .next <|
    if s.pkg = pkgHeld ∧ s.on KLN_STAT_KEEPER_OK then s.modPkg (fun x => { x with blink := (x.blink + 1) % blinkSlots }) else s

/-! ### STANDBY (R416, R417) -/

/-- The state is entered: STATE_ENTER with the old and new codes (R425). -/
def enterState (new : Nat) (s : State) : State :=
  (s.set GLB_STATE_STATE new).raise GLB_EVT_EVT 5 0x0E00 0 [(4, s.pkg), (4, new)]

/-- A unit is kept alive in STANDBY. -/
def State.keptUnit (s : State) (n : Nat) : Bool :=
  if n < 32 then s.bit GLB_STBY_OUT_LO_MASK n else s.bit GLB_STBY_OUT_HI_MASK (n - 32)

/-- A cluster supplies the timebase of a region paired with a power region that holds a kept rail. -/
def State.feedsKept (s : State) (c : Nat) : Bool :=
  let t := c / 3
  s.tbCluster t = some c && (List.range 24).any (fun r => s.get (PRG_TBSEL_TRG (r / 6)) = t && s.bit GLB_STBY_RAIL_MASK r)

/-- Entry to STANDBY (R416). -/
def standbyEnter (s : State) : State :=
  let units := (List.range 48).filter (fun n => s.unitOn n && !s.keptUnit n)
  let s1 := units.foldl (fun s n => unitDisable n (s.set (OUT_CTL_EN n) 0)) s
  let s2 := s1.each 24 (fun r s => if s.on (PRG_RCTL_EN r) && !s.bit GLB_STBY_RAIL_MASK r then railWriteOff r s else s)
  let idle := (List.range 12).filter (fun c => s2.on (SYN_CTL_EN c) && (List.range 48).all (fun n => !s2.unitTakes n c) && !s2.feedsKept c)
  let s3 := idle.foldl (fun s c => synDisable c (s.set (SYN_CTL_EN c) 0)) s2
  let ports := if s.on GLB_STBY_CTL_LINKS then [] else (List.range 4).filter (fun k => s.on (LNK_CTL_EN k))
  let s4 := ports.foldl (fun s k => portDisable k (s.set (LNK_CTL_EN k) 0)) s3
  let engs := ((List.range 10).map (· + 2)).filter (fun e => s.get (ENG_STAT_STATE e) ≠ engInReset)
  let s5 := engs.foldl (fun s e => s.set (ENG_STAT_STATE e) engInReset) s4
  enterState pkgStandby (s5.modPkg (fun x =>
    { x with stbyOut := maskOf 48 (units.contains ·), stbySyn := maskOf 12 (idle.contains ·), stbyLnk := maskOf 4 (ports.contains ·)
             stbyEng := maskOf 12 (engs.contains ·) }))

/-- An enable the hub writes, judged with source GLB; one that would be ignored is counted and skipped, and an isolated die takes no
write (R417). -/
def hubEnable (r : Reg) (die : Nat) (ok : State → Bool) (f : State → State) (s : State) : State :=
  if s.isolated die then s else if ok s then f s else s.ignored 0x0B r.off

/-- The word of a control register with its EN bit set. -/
def State.enWord (s : State) (r : Reg) : Word := wordSet (s.word r) 0 1 1

/-- Leaving STANDBY (R417). The engines that entry held are released afterwards, one after another, with CHANGING at 1 (releaseTick). -/
def standbyExit (s : State) : State :=
  let x := s.pkg_
  let s1 := s.put GLB_STATE_CHANGING (x.stbyEng ≠ 0)
  let s2 := (bitsOf 4 x.stbyLnk).foldl (fun s k =>
    let r : Reg := ⟨.LNK_CTL, k, 0, 0⟩
    hubEnable r (dieOfPort k) (fun s => lnkRule r (s.word r) (s.enWord r) s) (fun s => portEnable k (s.set (LNK_CTL_EN k) 1)) s) s1
  let s3 := (bitsOf 12 x.stbySyn).foldl (fun s c =>
    let r : Reg := ⟨.SYN_CTL, c, 0, 0⟩
    hubEnable r (dieOfCluster c) (fun s => synRule r (s.enWord r) s) (fun s => synEnable c (s.set (SYN_CTL_EN c) 1)) s) s2
  let s4 := (bitsOf 48 x.stbyOut).foldl (fun s n =>
    hubEnable ⟨.OUT_CTL, n, 0, 0⟩ (dieOfOut n) (fun s => s.unitMayEnable n)
      (fun s => if s.unitOn n then s else unitStart n (s.set (OUT_CTL_EN n) 1)) s) s3
  let s5 := autoJoin (enterState pkgRun (s4.modPkg (fun x => { x with stbyOut := 0, stbySyn := 0, stbyLnk := 0 })))
  if s.on GLB_STBY_CTL_WAKE_EN then seqRequest 2 (s.get GLB_STBY_CTL_WAKE_SEQ) s5 else s5

/-- The next engine of a STANDBY exit is released, the lowest first; CHANGING falls with the last (R417; log entry 137). -/
def releaseTick (s : State) : State :=
  match (if s.pkg = pkgRun ∧ s.on GLB_STATE_CHANGING then bitsOf 12 s.pkg_.stbyEng else []) with
  | [] => s
  | e :: l => ((engineReset 0x0B e s).modPkg (fun x => { x with stbyEng := bitPut x.stbyEng e false })).put GLB_STATE_CHANGING (!l.isEmpty)

/-! ### KEEP (R418, R419) -/

/-- What entry to KEEP needs (R418). -/
def State.keepOk (s : State) : Bool :=
  (List.range 24).all (fun r => s.railState r = railOff || s.railState r = railSafe) && s.seqState = seqIdle &&
    s.on KLN_STAT_VAUX_OK && s.otp.burn.isNone && s.otp.margin.isNone

/-- Outputs at high impedance, links, charger and the regulators but HK0 off (R399, R418). -/
def servicesOff (s : State) : State :=
  let s1 := s.each 48 (fun n s => if s.unitOn n then unitDisable n (s.set (OUT_CTL_EN n) 0) else s)
  let s2 := s1.each 48 (fun n s => s.modOut n (fun o => { o with hiZ := true }))
  let s3 := s2.each 4 (fun k s => portDisable k (s.set (LNK_CTL_EN k) 0))
  (chargerFollow (s3.set HUP_CTL_EN 0)).each 7 (fun b s => hkWrite (b + 1) false s)

/-- HELD after a soft reset, which had kept them: no rail and none of the services stays enabled (R399). -/
def heldOff (s : State) : State :=
  servicesOff (s.each 24 (fun r s =>
    let s1 := s.set (PRG_RCTL_EN r) 0
    if s1.railState r = railOff then s1 else railGoesOff r s1))

/-- Entry to KEEP up to HK0's stop (R418): the Kiln records refreshed; outputs, links, charger, PCIe and regulators off. -/
def keepEnter (s : State) : State :=
  let s1 := s.each 4 (fun t s =>
    let h := s.holdoverValue t
    if s.dpll t = dpllLocked then
      (writeHoldover t h s).when (h.2.1 = hoWindow) (writeKilnRecord t h.1 (s.on (TRG_STAT_SAMP_SRC t)))
    else s)
  let s7 := (((servicesOff s1).set HOST_STAT_LINK_UP 0).set HOST_STAT_RATE 0).set HOST_STAT_WIDTH 0
  ((s7.modHost (fun h => { h with link := false })).set GLB_STATE_CHANGING 1).modPkg (fun x => { x with keeping := true })

/-- KEEP_HK0_STOP (R418): from now on only the Kiln runs. -/
def execKeepHk0Stop (s : State) : Out :=
  .next <|
    if s.pkg_.keeping then
      ((bareState .keep (tearFlash s)).set GLB_STATE_STATE pkgKeep).modPkg (fun x => { x with keepSec := s.get KLN_TIME_SEC })
    else s

/-- A wake by timer or VIN (R419): BOOT follows with what KEEP keeps. -/
def keepWake (cause : Nat) (s : State) : State :=
  bootSupplies
    ((((bareState .keep (recordReset cause false s)).set GLB_STATE_STATE pkgBoot).modPkg (fun x => { x with resetDue := true })))

/-- The keeper time once WAKE_SEC seconds have passed since the entry to KEEP. -/
def State.wakeTime (s : State) : Nat := max (s.get KLN_TIME_SEC) ((s.pkg_.keepSec + s.get KLN_WAKE_WAKE_SEC) % 2 ^ 32)

/-- KEEP_TIMER_WAKE (R419): WAKE_SEC keeper seconds have passed since entry, as KLN_TIME then shows; with VIN, `vin` in mV, below 7.5 V the
wake waits for it. -/
def execKeepTimerWake (vin : BitVec 16) (s : State) : Out :=
  .next <|
    if s.pkg = pkgKeep ∧ s.get KLN_WAKE_WAKE_SEC ≠ 0 ∧ s.on KLN_STAT_KEEPER_OK then
      let s1 := s.set KLN_TIME_SEC s.wakeTime
      if s.pkg_.vinLow ∨ vin.toNat < 7500 then s1.modPkg (fun x => { x with timerDue := true }) else keepWake 0x71 s1
    else s

/-- KEEP_VIN_LOW (R419). -/
def execKeepVinLow (s : State) : Out := .next (if s.pkg = pkgKeep then s.modPkg (fun x => { x with vinLow := true }) else s)

/-- VIN_WAKE (R419): VIN rises through 7.5 V; a timer wake that waited for VIN goes first, and VIN itself wakes the hub where it has lain
below 5.5 V. -/
def execVinWake (s : State) : Out :=
  .next <|
    if s.pkg = pkgKeep ∧ s.pkg_.timerDue then keepWake 0x71 s
    else if s.pkg = pkgKeep ∧ s.pkg_.vinLow then
      if s.on KLN_WAKE_VIN_WAKE then keepWake 0x72 s
      else s.modPkg (fun x => { x with vinLow := false })
    else s

/-! ### STATE_SET and GLB_CMD (R278, R415, R426) -/

/-- A state command is accepted (R415, R418): 1 RUN, 2 STANDBY, 3 KEEP, 8 soft reset. -/
def State.stateOk (s : State) (code : Nat) : Bool :=
  match code with
  | 1 => s.pkg = pkgStandby && !s.on GLB_STATE_CHANGING
  | 2 => s.pkg = pkgRun && !s.on GLB_STATE_CHANGING
  | 3 => s.active && !s.on GLB_STATE_CHANGING && s.keepOk
  | 8 => s.active && s.resettable
  | _ => false

/-- The change an accepted state command makes; `cause` names a soft reset's origin: 0x60 a command, 0x61 GLB_CMD. -/
def stateChange (code cause : Nat) (s : State) : State :=
  match code with
  | 1 => standbyExit s
  | 2 => standbyEnter s
  | 3 => keepEnter s
  | 8 => packageReset .soft cause s
  | _ => s

/-! ### Scrubbers (R42, R43) -/

/-- The memories a scrubber reads, after those of log entry 23: the load copies of the band tables and of the sequence store, and the
hop slots. -/
def memBandLoad : Nat := 8
def memSeqLoad : Nat := 9
def memSlots : Nat := 10

/-- The die a memory lies on (R450). -/
def memDie (mem unit : Nat) : Nat :=
  if mem = memInstr ∨ mem = memData then dieOfEngine unit
  else if mem = memBand ∨ mem = memBandLoad ∨ mem = memSlots ∨ mem = memRamp then dieOfCluster unit
  else if mem = memSeq ∨ mem = memSeqLoad then dieP
  else if mem = memTable then dieOfRegion unit
  else dieC

/-- The register a word of the Kiln's SRAM holds (R421): word `a` the KLN register at 0x4000 + 4a, and words 64 to 67 GLB_RESET and the
three words of GLB_IGNORED (log entry 104: DESIGN CHOICE). -/
def kilnReg (a : Nat) : Option Reg :=
  match a with
  | 64 => some ⟨.GLB_RESET, 0, 0, 0⟩
  | 65 => some ⟨.GLB_IGNORED_CNT, 0, 0, 0⟩
  | 66 => some ⟨.GLB_IGNORED_LAST_A, 0, 0, 0⟩
  | 67 => some ⟨.GLB_IGNORED_LAST_S, 0, 0, 0⟩
  | _ => Reg.ofOff (0x4000 + 4 * a)

/-- A Kiln word reads as its power-on default until it is next written (R42); KEEPER_OK and VAUX_OK are no retained bits but what the
monitors see now (R31, R427). -/
def kilnDefault (a : Nat) (s : State) : State :=
  match kilnReg a with
  | some r => s.setWord r (resetWord (fun f => f.keep = .dash) r (s.word r))
  | none => s

/-- The effect of a double-bit error (R42, R103, R198); in an engine's memories while its class is loading it poisons the load copy
(R361). -/
def doubleBit (mem unit addr : Nat) (s : State) : State :=
  if (mem = memInstr ∨ mem = memData) ∧ s.classLoading (classOf unit) then markLoads (bitPut s.pkg_.loadBad unit true) s
  else if mem = memInstr then haltEngine unit 1 (4 * addr) s
  else if mem = memData then haltEngine unit 2 (4 * addr) s
  else if mem = memKiln then kilnDefault addr s
  else if mem = memDesc then
    match (s.dmaOf unit).cur with
    | some d => showDma (settle unit (finishDesc unit d 0x03 d.residue s))
    | none => s
  else if mem = memBand then s.modSyn unit (fun x => { x with badEntries := addr / 4 :: x.badEntries.filter (· ≠ addr / 4) })
  else if mem = memSeq then
    let e := (addr / 192, addr % 192 / 3)
    s.modSeq (fun x => { x with badSteps := e :: x.badSteps.filter (· ≠ e) })
  else if mem = memRamp then poisonRamp unit (addr / 64) (addr % 64) s
  else if mem = memTable then s.set (TRG_HENT_HI_VALID unit (addr / 2)) 0
  else if mem = memBandLoad then bandLoadError unit addr s
  else if mem = memSeqLoad then seqLoadError addr s
  else s.set (SYN_SLOT_VALID unit (addr / 16) (addr % 16)) 0

/-- The units of a memory. -/
def memUnits (mem : Nat) : Nat := [12, 12, 1, 32, 12, 1, 12, 4, 12, 1, 12].getD mem 0

/-- The words of one unit of a memory, as `doubleBit` numbers them. -/
def memSize (mem : Nat) : Nat := [32768, 16384, 512, 16, 512, 1536, 1024, 2048, 513, 194, 64].getD mem 0

/-- SCRUB_WORD (R42, R43): one SECDED word is found with a single-bit error, corrected and counted, or with a double-bit error. The
Kiln's scrubber stops with the keeper (R31). -/
def execScrubWord (mem : Fin 11) (unit : Fin 64) (addr : BitVec 16) (double : Bool) (s : State) : Out :=
  .next <|
    if memUnits mem ≤ unit.val ∨ memSize mem ≤ addr.toNat ∨ (mem.val = memKiln ∧ !s.on KLN_STAT_KEEPER_OK) then s
    else
      let die := memDie mem unit
      if double then poisoned die mem addr.toNat (doubleBit mem unit addr.toNat s)
      else
        let s1 := s.modPkg (fun x => { x with dieCe := bankMod x.dieCe die (· + 1) })
        if mem.val = memInstr ∨ mem.val = memData then s1.bump (ENG_CNT_CE_CNT unit)
        else if mem.val = memKiln then s1.bump KLN_STAT_CE_CNT
        else s1

end Sys2Proof.Machine
end

