-- ==== Sys2Proof/Machine/Wdg.lean ====
section
/-! DEFINITION. Sys2Proof/Machine/Wdg.lean: the watchdog: check-ins, frames, failures and their scopes (R402 to R407, R411), and
the end of a burn pulse, on which a reset may wait (R394, R397). -/

namespace Sys2Proof.Machine

/-! ### Who writes -/

/-- The owner a path writes as: 0 to 11 an engine, 12 HOST, which the host and the management ports share; none for a link and for
the hub's own writes (R8, R294, R318, R372). -/
def State.writer (s : State) : Path → Option Nat
  | .host => some 12
  | .pmb => some 12
  | .i3c => some 12
  | .jtag => some 12
  | .eng e => some e.val
  | .dma ch => some (s.chOwner ch)
  | .link => none
  | .boot => none
  | .glb => none

/-- HOST or ENG0. -/
def State.secure (s : State) (p : Path) : Bool := s.writer p = some 12 || s.writer p = some 0

/-! ### Frames (R403 to R405) -/

def wdgEarly : Nat := 1
def wdgDouble : Nat := 2
def wdgMissed : Nat := 3
def wdgToken : Nat := 4

/-- A slot's internal state, and a change of it. -/
def State.wdgOf (s : State) (i : Nat) : WdgInt := bankGet s.wdg i
def State.modWdg (s : State) (i : Nat) (f : WdgInt → WdgInt) : State := { s with wdg := bankMod s.wdg i f }

/-- A slot's frames run: the slot runs, and no load or STANDBY holds its owner (R405, R416). An engine held by ENG_CTL.HOLD, or halted,
lets its frames fail (R348). -/
def State.framesRun (s : State) (i : Nat) : Bool :=
  let o := s.get (WDG_SLOT_OWNER i)
  s.slotRuns i && (12 ≤ o || !s.engSuspended o)

/-- A frame of the slot is open: its first one has started (R403). -/
def State.frameOpen (s : State) (i : Nat) : Bool := s.framesRun i && (s.wdgOf i).started

/-- A frame's failure is counted and recorded (R404, R409). -/
def recordFail (i kind : Nat) (s : State) : State :=
  let o := s.get (WDG_SLOT_OWNER i)
  let s1 := ((s.set (WDG_SSTAT_LAST i) 2).set (WDG_SSTAT_KIND i) kind).bump (WDG_SSTAT_FAIL_CNT i)
  (s1.when (o < 12) (fun s => s.bump (ENG_CNT_WDG_FAIL o))).pushEvt 0x0D06 i (packBody [(4, i), (3, kind)])

/-- The slot's SCOPE after two consecutive failures (R405). -/
def wdgScope (i kind : Nat) (s : State) : State :=
  let o := s.get (WDG_SLOT_OWNER i)
  if s.on (WDG_SLOT_SCOPE i) then watchdogReset i kind s
  else if o < 12 then
    (engineWatchdog o s).pushEvt 0x0D07 i (packBody [(4, i), (4, o)])
  else s

/-- A frame fails (R404, R405): the first of two consecutive failures is remembered, the second acts. -/
def wdgFail (i kind : Nat) (s : State) : State :=
  let s1 := recordFail i kind s
  if s.bit WDG_STAT_ARMED i then wdgScope i kind (s1.setBit WDG_STAT_ARMED i false) else s1.setBit WDG_STAT_ARMED i true

/-- Main-LO cycles of `n` watchdog ticks, as WdgInt.pos counts them (R402). -/
def State.wdgTicks (s : State) (n : Nat) : Nat := n * (s.get WDG_TICK_TICK + 1) * 1000000

/-- The slot's open frame fails, at most once (R404). -/
def frameFails (i kind : Nat) (s : State) : State :=
  if (s.wdgOf i).failed then s else wdgFail i kind (s.modWdg i (fun x => { x with failed := true }))

/-- A check-in judged `at_` into the open frame (R402, R404): before the window it is EARLY. -/
def kickAt (w : Word) (at_ : Nat) (s : State) : State :=
  let i := wordGet w 16 4
  if !s.frameOpen i then s
  else if at_ < s.wdgTicks (s.get (WDG_WIN_WMIN i)) then frameFails i wdgEarly s
  else if wordGet w 0 16 ≠ s.get (WDG_SLOT_TOKEN i) then frameFails i wdgToken s
  else if (s.wdgOf i).kicked then frameFails i wdgDouble s
  else s.modWdg i (fun x => { x with kicked := true })

/-- Slot `i` is checked in by the Bisque image of ENGi, which runs and owns it (R351, R402). -/
def State.bisqueSlot (s : State) (i : Nat) : Bool :=
  i < 12 && s.get (WDG_SLOT_OWNER i) = i && s.get (ENG_STAT_STATE i) = engRunning && s.on (ENG_STAT_BISQUE i)

/-- The middle of a slot's window, as WdgInt.pos counts. -/
def State.midWindow (s : State) (i : Nat) : Nat := (s.wdgTicks (s.get (WDG_WIN_WMIN i)) + s.wdgTicks (s.get (WDG_WIN_WMAX i))) / 2

/-- The Bisque image's check-in, where the frame has not yet come to the middle of its window and `upTo` reaches it (R402). -/
def bisqueKick (i upTo : Nat) (s : State) : State :=
  let mid := s.midWindow i
  if s.bisqueSlot i ∧ (s.wdgOf i).pos < mid ∧ mid ≤ upTo then
    kickAt (BitVec.ofNat 32 (i * 2 ^ 16 + s.get (WDG_SLOT_TOKEN i))) mid s
  else s

/-- A slot's frame closes and the next opens (R403 to R405): without a check-in it is MISSED; a frame without a failure clears the count. -/
def frameEnd (i : Nat) (s : State) : State :=
  let s := bisqueKick i (s.wdgTicks (s.get (WDG_WIN_WMAX i))) s
  let x := s.wdgOf i
  let missed := !x.kicked && !x.failed
  let s1 := (s.modWdg i (fun _ => { started := true })).setBit WDG_STAT_FAILED i (missed || x.failed)
  if missed then wdgFail i wdgMissed s1
  else if x.failed then s1
  else ((s1.setBit WDG_STAT_ARMED i false).set (WDG_SSTAT_LAST i) 1).set (WDG_SSTAT_KIND i) 0

/-- A check-in is judged two main-LO cycles after it is written; at the tick that closes a frame it belongs to the next (R404). -/
def wdgKick (w : Word) (s : State) : State :=
  let i := wordGet w 16 4
  let at_ := (s.wdgOf i).pos + 2000000
  let len := s.wdgTicks (s.get (WDG_WIN_WMAX i))
  if s.frameOpen i && len ≤ at_ then
    kickAt w (at_ - len) ((frameEnd i s).modWdg i (fun x => if x.started then { x with pos := at_ - len - 2000000 } else x))
  else kickAt w at_ s

/-- WDG_FRAME_END (R403 to R405); `bad` marks engines whose load copy meets a double-bit error where the failure resets one (R361). -/
def execWdgFrameEnd (i : Fin 16) (bad : BitVec 12) (s : State) : Out :=
  .next (if s.frameOpen i then withLoads bad.toNat (frameEnd i) s else s)

/-- A failure of a kind can become certain in the slot's open frame (R404). -/
def State.failsAs (s : State) (i kind : Nat) : Bool :=
  let x := s.wdgOf i
  !x.failed &&
    if kind = wdgEarly then decide (x.pos < s.wdgTicks (s.get (WDG_WIN_WMIN i)))
    else if kind = wdgDouble then x.kicked
    else if kind = wdgMissed then !x.kicked && !s.bisqueSlot i
    else kind = wdgToken

/-- WATCHDOG_RESET (R405, R406): the second failure of a PACKAGE slot, of a kind its frame can fail by, or the token of WDG_FORCE (kind
5). -/
def execWatchdogReset (slot : Fin 16) (kind : BitVec 3) (s : State) : Out :=
  .next <|
    if kind = 5 then (if s.active then forcedReset s else s)
    else if s.frameOpen slot ∧ s.failsAs slot kind.toNat ∧ s.on (WDG_SLOT_SCOPE slot) ∧ s.bit WDG_STAT_ARMED slot then
      if kind.toNat = wdgMissed then frameEnd slot s else frameFails slot kind.toNat s
    else s

/-- A microsecond of the main LO, of PLZ_LO_HZ cycles a second, passes in the watchdog: a slot's first frame starts at the first tick
boundary, the others run on to their check-in by the Bisque image, and a suspended frame starts anew (R402, R403, R405; log entry 135). -/
def frameTick (s : State) : State :=
  let hz := s.get PLZ_LO_HZ_LO_HZ
  let now := s.pkg_.wdgPhase + hz
  let one := s.wdgTicks 1
  let runs := s.active && s.on WDG_CTL_EN
  let s1 := s.each 16 (fun i s =>
    if !s.framesRun i then (if s.wdgOf i = {} then s else s.modWdg i (fun _ => {}))
    else
      let x := s.wdgOf i
      if x.started then (bisqueKick i (x.pos + hz) s).modWdg i (fun x => if x.started then { x with pos := x.pos + hz } else x)
      else if one ≤ now then s.modWdg i (fun _ => { started := true, pos := min hz (now - one) })
      else s)
  s1.modPkg (fun x => { x with wdgPhase := if runs then now % one else 0 })

/-! ### Write rules of the WDG registers (R402 to R407, R411) -/

/-- The rules a write of a WDG register must satisfy. -/
def wdgRule (p : Path) (r : Reg) (new : Word) (s : State) : Bool :=
  let unlocked := s.secure p && !s.on WDG_CTL_LOCK
  match r.name with
  | .WDG_CTL => unlocked
  | .WDG_TICK => unlocked
  | .WDG_SLOT => unlocked && !s.on (WDG_SLOT_EN r.i) && !(wordGet new 1 4 = 12 && wordGet new 5 1 = 0)
  | .WDG_WIN => unlocked && !s.on (WDG_SLOT_EN r.i) && wordGet new 0 16 < wordGet new 16 16
  | .WDG_KICK => s.writer p = some (s.get (WDG_SLOT_OWNER (wordGet new 16 4)))
  | .WDG_FORCE => s.secure p && wordGet new 0 16 = 0xD00D
  | _ => true

/-- What an applied write of a WDG register sets off. -/
def wdgAfter (r : Reg) (old new : Word) (s : State) : State :=
  match r.name with
  | .WDG_CTL =>
    if wordGet old 0 1 = 0 ∧ wordGet new 0 1 = 1 then
      (s.each 16 (fun i s => s.modWdg i (fun _ => {}))).modPkg (fun x => { x with wdgPhase := 0 })
    else s
  | .WDG_TICK => s.modPkg (fun x => { x with wdgPhase := x.wdgPhase % s.wdgTicks 1 })
  | .WDG_SLOT => s.modWdg r.i (fun _ => {})
  | .WDG_KICK => wdgKick new s
  | .WDG_FORCE => forcedReset s
  | _ => s

/-! ### The end of a burn pulse (R394, R397) -/

/-- BURN_PULSE_DONE: the row read at normal sense and at both margins; a reset that waited for the word takes place. -/
def execBurnPulseDone (n lo hi : BitVec 39) (s : State) : Out := .next (dueReset (burnPulse n.toNat lo.toNat hi.toNat s))

end Sys2Proof.Machine
end

