-- ==== Sys2Proof/Machine/HostPort.lean ====
section
/-! DEFINITION. Sys2Proof/Machine/HostPort.lean: the host port: doorbells, completions and events on their rings, resynchronisation
and its summary, arming, promotion (R262 to R273, R279 to R293, R313). -/

namespace Sys2Proof.Machine

/-! ### The rings the hub writes (R269, R273, R279, R280, R283) -/

/-- A host ring's internal state. -/
def State.ringOf (s : State) (q : Nat) : RingInt := bankGet s.host.ring q

/-- A host ring's internal state changed. -/
def State.modRing (s : State) (q : Nat) (f : RingInt → RingInt) : State := s.modHost (fun h => { h with ring := bankMod h.ring q f })

/-- The hub's index moves on; PHASE inverts as it wraps (R273). -/
def ringAdvance (q : Nat) (s : State) : State :=
  let i := (s.hubIdx q + 1) % s.hostRingSize q
  let s1 := s.set (HOST_RING_IDX_HUB_IDX q) i
  if i = 0 ∧ q ≠ 0 then s1.put (HOST_RING_IDX_PHASE q) (!s.on (HOST_RING_IDX_PHASE q)) else s1

/-- Vectors 32 and 33: one message until the ring's doorbell tag changes (R283). -/
def ringVector (q v : Nat) (s : State) : State :=
  if (s.ringOf q).sent then s else (s.vector v).modRing q (fun r => { r with sent := true })

/-- The 16 bytes of a completion entry (R279). -/
def Cpl.bytes (c : Cpl) (phase : Bool) : List Byte :=
  natBytes 4 (c.idx % 2 ^ 16 + 2 ^ 16 * (c.status % 2 ^ 8) + 2 ^ 24 * c.opcode) ++
    natBytes 4 (c.tag % 2 ^ 16 + if c.orphan then 2 ^ 16 else 0) ++ natBytes 4 c.result ++
    natBytes 4 (c.sqHead % 2 ^ 16 + if phase then 2 ^ 31 else 0)

/-- The oldest waiting completion is written where the ring has room; vector 32 for IRQ = 1, never for IGNORED (R279, R283). -/
def postCpl (s : State) : State :=
  match s.host.cplQ with
  | [] => s
  | c :: l =>
    if s.ringRoom 1 1 then
      let s1 := emitHost (s.hostRingBase 1 + 16 * s.hubIdx 1) (c.bytes (s.on (HOST_RING_IDX_PHASE 1))) s
      let s2 := ringAdvance 1 (s1.modHost (fun h => { h with cplQ := l }))
      if c.irq ∧ c.status ≠ stIgnored then ringVector 1 32 s2 else s2
    else s

/-- Every waiting completion that fits. -/
def postCpls (s : State) : State := s.each s.host.cplQ.length (fun _ => postCpl)

/-- COMPLETION_POST (R279). -/
def execCompletionPost (s : State) : Out := .next (if s.rstate = rsRunning then postCpl s else s)

/-- EVENT_POST (R280): the oldest record moves to the event ring. `damaged` names a word of it that met a double-bit error: POISONED
is raised, and the record, which carries no CRC, is sent all the same (R41; log entry 126). -/
def execEventPost (damaged : Option (BitVec 3)) (s : State) : Out :=
  .next <|
    match s.evtFifo with
    | [] => s
    | e :: _ =>
      if s.rstate = rsRunning ∧ s.ringRoom 2 1 then
        let s1 := emitHost (s.hostRingBase 2 + 32 * s.hubIdx 2) (e.bytes (s.on (HOST_RING_IDX_PHASE 2))) s
        let s2 := ringAdvance 2 s1.dropOldest
        let s3 := (s2.modHost (fun h => { h with evtPosted := h.evtPosted + 1 }))
        let s3 := match damaged with | some w => poisoned dieC memEvent w.toNat s3 | none => s3
        if s.on (HOST_RING_CFG_IRQ_EN 2) then ringVector 2 33 s3 else s3
      else s

/-! ### Doorbells (R266, R270, R271) -/

/-- A doorbell read is issued at once, and the poll interval returns to 1 µs (R266, R271). -/
def hostWake (s : State) : State :=
  if s.rstate = rsRunning then (s.modHost (fun h => { h with reading := true })).set HOST_POLL_CUR 1 else s

/-- DOORBELL_POLL (R29, R271): the poll interval has passed on the main LO. -/
def execDoorbellPoll (s : State) : Out :=
  .next <|
    if s.rstate = rsRunning ∧ s.on HOST_POLL_POLL_EN ∧ s.pkg_.loRuns then s.modHost (fun h => { h with reading := true }) else s

/-- The next poll interval: 1 to 512 µs by doubling, then 1,000 µs (R271). -/
def nextPoll (cur : Nat) : Nat := if cur < 512 then 2 * cur else 1000

/-- A doorbell word of a host ring (R270): acted on where its tag differs from the last one acted on. -/
def hostDoorbell (q : Nat) (w : BitVec 64) (s : State) : State :=
  let tag := (w.extractLsb' 32 32).toNat
  let idx := (w.extractLsb' 0 32).toNat
  if (s.ringOf q).tag = some tag then s
  else
    let s1 := s.modRing q (fun r => { r with tag := some tag, sent := false })
    if idx < s.hostRingSize q then s1.modRing q (fun r => { r with idx := idx }) else s1.ignored 0x03 q

/-- Some offered entry of a ring the hub reads is unprocessed (R271). -/
def State.portBusy (s : State) : Bool :=
  s.hubIdx 0 ≠ s.pubIdx 0 || (List.range 32).any (fun ch => s.hostOwned ch && s.on (DMA_CCTL_EN ch) && s.offered ch ≠ 0)

/-- DOORBELL_READ_DONE (R270 to R272): the words of the three host rings, and those of the enabled host-owned channels; entries found with
OWN = 0 are read again. -/
def execDoorbellReadDone (w0 w1 w2 : BitVec 64) (dma : List (Fin 32 × BitVec 64)) (s : State) : Out :=
  .next <|
    if s.rstate = rsRunning ∧ s.host.reading then
      let mine := dma.filter (fun e => s.hostOwned e.1 && s.on (DMA_CCTL_EN e.1))
      let tagOf (w : BitVec 64) : Nat := (w.extractLsb' 32 32).toNat
      let fresh := [w0, w1, w2].zipIdx.any (fun wq => (s.ringOf wq.2).tag ≠ some (tagOf wq.1)) ||
        mine.any (fun e => (s.dmaOf e.1).tag ≠ some (tagOf e.2))
      let s0 := s.modHost (fun h => { h with reading := false, stalled := false })
      let s1 := hostDoorbell 2 w2 (hostDoorbell 1 w1 (hostDoorbell 0 w0 s0))
      let s2 := showDma (mine.foldl (fun s e =>
        channelDoorbell e.1 (tagOf e.2) (e.2.extractLsb' 0 32).toNat (s.modDma e.1 (fun x => { x with stalled := false }))) s1)
      s2.set HOST_POLL_CUR (if fresh || s2.portBusy then 1 else nextPoll (max 1 (s.get HOST_POLL_CUR)))
    else s

/-! ### Arming and resynchronisation (R286, R287, R289, R290) -/

/-- The port enters RUNNING: indices 0, PHASE 1, no tag acted on, the orphan completions first, a first doorbell read (R287 to
R290). -/
def armPort (s : State) : State :=
  let s1 := s.each 3 (fun q s =>
    (s.set (HOST_RING_IDX_HUB_IDX q) 0).put (HOST_RING_IDX_PHASE q) (q ≠ 0))
  let s2 := s1.modHost (fun h =>
    { h with ring := State.reset.host.ring, reading := true, stalled := false
             cplQ := h.orphans.map (fun c => { c with sqHead := 0 }), orphans := [] })
  let s3 := s2.each 3 (fun g s => if 2 ≤ (s.deferOf g).state then s.modDefer g (fun _ => {}) else s)
  postCpls ((s3.set HOST_STAT_RSTATE rsRunning).set HOST_POLL_CUR 1)

/-- The port is armed once every host ring is enabled, from DISARMED in HOSTED or from WAIT_ARM (R287). -/
def tryArm (s : State) : State :=
  let ready := (List.range 3).all (fun q => s.on (HOST_RING_CFG_EN q))
  if ready ∧ ((s.rstate = rsDisarmed ∧ s.on HOST_MODE_MODE) ∨ s.rstate = rsWaitArm) then armPort s else s

/-- The port enters STOPPING (R287): what is due in the old rings is posted, then host memory is left alone; deferred completions that
found no room wait as orphans. -/
def startResync (cause : Nat) (s : State) : State :=
  let s1 := if s.rstate = rsRunning then postCpls s else s
  let s2 := (holdLate s1).modHost (fun h => { h with reading := false, cause := cause })
  eventLine (stopChannels (orphanDeferred (s2.set HOST_STAT_RSTATE rsStopping)))

/-- A resynchronisation may start: not in STOPPING or SUMMARY (R287). -/
def State.resyncOk (s : State) : Bool := s.rstate = rsRunning || s.rstate = rsDisarmed || s.rstate = rsWaitArm

/-- RESYNC_DRAINED (R287): every burst in flight has completed. -/
def execResyncDrained (s : State) : Out :=
  .next (if s.rstate = rsStopping ∧ s.inFlight = 0 then s.set HOST_STAT_RSTATE rsSummary else s)

/-! ### The summary (R288) -/

/-- A list of words held to a length, zeros filling it. -/
def padWords (n : Nat) (l : List Word) : List Word := (l ++ List.replicate n 0).take n

/-- Words from numbers. -/
def natWords (l : List Nat) : List Word := l.map (BitVec.ofNat 32)

/-- A register as the summary reads it: all ones where its die is isolated (R36, R288; log entry 168). -/
def State.seen (s : State) (r : Reg) : Word := if s.isolated (dieOfOff r.off) then 0xFFFFFFFF else s.word r

/-- A field of a register as the summary reads it. -/
def State.seenGet (s : State) (f : Fld) : Nat := wordGet (s.seen f.reg) f.lo f.w

/-- The record of registers of one index. -/
def State.regWords (s : State) (i : Nat) (l : List RegName) : List Word := l.map (fun n => s.seen ⟨n, i, 0, 0⟩)

/-- The version and ABI of the image a slot holds, 0 where its header is not valid. -/
def State.slotInfo (s : State) (c slot : Nat) : List Nat :=
  let h := s.storeBytes (slotBase c slot) 512
  if headerOk c h then [(wordAt h 8).toNat, wordGet (wordAt h 12) 0 16] else [0, 0]

/-- The first records of the summary, 0x0000 to 0x01FF. -/
def State.summaryHead (s : State) : List Word :=
  let timer := s.getWide GLB_TIMER_LO_US GLB_TIMER_HI_US
  let mode := s.get HOST_MODE_MODE
  let header := natWords [0x4D53525A, 0x00080001, s.get HOST_RS_STAT_SUMSEQ,
    s.host.cause + 2 ^ 8 * s.pkg + 2 ^ 16 * mode + 2 ^ 17 * s.get GLB_STATE_MIXED + 2 ^ 18 * s.get GLB_STATE_SUFFIX,
    timer % 2 ^ 32, timer / 2 ^ 32, s.get GLB_ID_ID, s.get GLB_FEATGEN_FEATGEN,
    s.get ENG_MIX_CLASS_A + 4 * s.get ENG_MIX_CLASS_B + 16 * s.get ENG_MIX_VALID]
  let phase (q : Nat) : Nat := s.hubIdx q + 2 ^ 31 * s.get (HOST_RING_IDX_PHASE q)
  let tag (q : Nat) : Nat := (s.ringOf q).tag.getD 0
  let rings := natWords [s.hubIdx 0, s.pubIdx 0, tag 0, phase 1, s.pubIdx 1, tag 1, phase 2, s.pubIdx 2, tag 2, s.evtFifo.length]
  let defers := (List.range 3).flatMap (fun g =>
    let d := s.deferOf g
    natWords [d.opcode + 2 ^ 8 * d.state + 2 ^ 16 * d.tag, d.idx, d.done, 0])
  let counters := [s.word ⟨.GLB_IGNORED_CNT, 0, 0, 0⟩, s.word ⟨.GLB_IGNORED_LAST_A, 0, 0, 0⟩, s.word ⟨.GLB_IGNORED_LAST_S, 0, 0, 0⟩] ++
    natWords [s.get GLB_EVCNT_OVF_CNT, s.host.evtPosted, s.host.consumed, s.host.ignoredCpl, s.host.poisonedCpl]
  let watchdog := [s.word ⟨.KLN_WDG_CNT, 0, 0, 0⟩] ++ (List.range 8).map (fun i => s.word ⟨.KLN_HIST, i, 0, 0⟩) ++
    natWords [s.get WDG_STAT_FAILED, s.get WDG_LASTFAIL_SLOT]
  let images := (List.range 3).flatMap (fun c => padWords 8 (natWords
    ([s.seenGet (ENG_IMG_STAT_ACTIVE c) + 2 * s.seenGet (ENG_IMG_STAT_BISQUE c) + 4 * s.seenGet (ENG_IMG_STAT_TRIAL c)] ++
      s.slotInfo c 0 ++ s.slotInfo c 1 ++ [s.seenGet (ENG_SEL_SEQ c), s.tries c])))
  let otp := natWords [s.get OTP_REGION_LOCKED + 16 * maskOf 4 (fun r => s.otpState r = otpClosed), s.get OTP_REGION_OVERRIDDEN,
    (if s.otp.burn.isSome then 1 else 0) + 2 ^ 16 * s.get OTP_STAT_LAST_WORD]
  padWords 16 header ++ padWords 16 rings ++ padWords 16 defers ++ padWords 16 counters ++ padWords 16 watchdog ++
    padWords 32 images ++ padWords 16 otp

/-- The register records of the summary, 0x0200 to 0x09FF. -/
def State.summaryRegs (s : State) : List Word :=
  let rows (n k : Nat) (f : Nat → List Word) : List Word := (List.range n).flatMap (fun i => padWords k (f i))
  let timing := rows 4 16 (fun t => s.regWords t
    [.TRG_CTL, .TRG_STAT, .TRG_CV_LO, .TRG_CV_HI, .TRG_HO_VAL_LO, .TRG_HO_VAL_HI, .TRG_HO_INFO, .TRG_BO_LO, .TRG_BO_HI, .TRG_DLY,
      .TRG_HIST_PTR, .PLZ_SEL_CTL, .PLZ_CAND, .PLZ_SEL_STAT, .PLZ_SEL_SYS, .TRG_EVT])
  let clusters := rows 12 8 (fun c => s.regWords c
    [.SYN_CTL, .SYN_STAT, .SYN_BYP_STAT, .SYN_CNT, .SYN_BLOAD_STAT, .RMP_STAT, .RMP_OFS, .RMP_CNT])
  let monitors := rows 16 4 (fun m => s.regWords m [.MON_CFG, .MON_STAT, .MON_FOFS, .MON_CNT])
  let units := rows 48 2 (fun n => s.regWords n [.OUT_CTL, .OUT_STAT])
  let regions := rows 4 8 (fun p => s.regWords p
    [.PRG_TBSEL, .PRG_TBSTAT, .PRG_SCNT, .PRG_WSTAT, .PRG_TLM_CTL, .PRG_TLM_SEQ, .PRG_FM_STAT, .PRG_EVT])
  let rails := rows 24 4 (fun r =>
    [s.seen ⟨.PRG_RCTL, r / 6, r % 6, 0⟩, s.seen ⟨.PRG_RSTAT, r / 6, r % 6, 0⟩, s.seen ⟨.PRG_RMEAS, r / 6, r % 6, 0⟩,
      s.seen ⟨.FLT_RSTAT, r, 0, 0⟩])
  let faults := padWords 16 (s.regWords 0
    [.FLT_PKG, .FLT_FNMAP, .FLT_PGMAP, .SEQ_STAT, .SEQ_CFG, .SEQ_CNT, .SEQ_LOAD_STAT, .HUP_STAT, .HUP_CTL, .HK_STAT, .HK_FLT] ++
    (List.range 4).map (fun i => s.seen ⟨.HK_BUCK, i, 0, 0⟩))
  let ports := rows 4 8 (fun k => s.regWords k
    [.LNK_CTL, .LNK_STAT, .LNK_FOFS, .LNK_DLY, .LNK_THETA, .LNK_CNT, .LNK_RXQ, .LNK_PEER_LO])
  let sys := padWords 16 (s.regWords 0
    [.LNK_SYS_CTL, .LNK_SYS_STAT, .LNK_ACC_LAT, .LNK_ACC_PH, .LNK_ID_LO, .LNK_ID_HI, .LNK_GM_LO, .LNK_GM_HI, .LNK_GM_INFO, .LNK_TOD_LO,
      .LNK_TOD_HI, .LNK_RMT_STAT, .LNK_SYS_CNT, .LNK_EPOCH])
  timing ++ clusters ++ monitors ++ units ++ regions ++ rails ++ faults ++ ports ++ sys

/-- The last records of the summary, 0x0A00 to 0x0F7F, with the die temperatures as measured. -/
def State.summaryTail (s : State) (temps : List Nat) : List Word :=
  let channels := (List.range 32).flatMap (fun ch => padWords 8 (natWords
    [s.chState ch + 2 ^ 16 * s.get (DMA_REQCNT_MISS_CNT ch), s.get (DMA_STAT_CIDX ch), (s.dmaOf ch).prod, ((s.dmaOf ch).tag.getD 0),
      s.get (DMA_RESID_RESID ch), (s.word ⟨.DMA_NEXT_LO, ch, 0, 0⟩).toNat, (s.word ⟨.DMA_NEXT_HI, ch, 0, 0⟩).toNat,
      s.get (DMA_STAT_LAST ch)]))
  let contexts := (List.range 16).flatMap (fun x => natWords
    [s.get (DATU_CCTL_EN x) + 2 * s.get (DATU_FINFO_PEND x) + 2 ^ 16 * s.get (DATU_CCTL_FCNT x), 0])
  let engines := (List.range 12).flatMap (fun e => natWords
    [s.seenGet (ENG_STAT_STATE e) + 16 * s.seenGet (ENG_STAT_BISQUE e), (s.seen ⟨.ENG_HALT_ADDR, e, 0, 0⟩).toNat,
      s.seenGet (ENG_CNT_CE_CNT e), s.seenGet (ENG_CNT_WDG_FAIL e)])
  let dies := (List.range 4).flatMap (fun d => natWords
    [(if s.isolated d then 1 else 0) + 16 * (s.get GLB_DIE_SUPPLY / 2 ^ d % 2), temps.getD d 0, bankGet s.pkg_.dieCe d,
      bankGet s.pkg_.diePoison d])
  channels ++ contexts ++ padWords 48 engines ++ dies

/-- The 8,192 bytes of the summary, its CRC last, inverted where a word of it met a double-bit error (R41). -/
def State.summary (s : State) (temps : List Nat) (damaged : Bool := false) : List Byte :=
  withCrc (wordsBytes (padWords 2047 (s.summaryHead ++ s.summaryRegs ++ s.summaryTail temps))) damaged

/-- Four measured die temperatures, which no rule gives: free values (log entries 3 and 163). -/
def dieTemps (s : State) : List Nat × State :=
  let (a, s) := s.draw
  let (b, s) := s.draw
  let (c, s) := s.draw
  let (d, s) := s.draw
  ([a, b, c, d], s)

/-- SUMMARY_DONE (R287, R288): the summary is written, or its write stops at a fault after some bytes, at the latest where a translation in
hand denies it; the rings are disarmed and RESYNC_DONE and vector 34 raised. `damaged` names a word that met a double-bit error (R41). -/
def execSummaryDone (fault : Option (BitVec 13)) (damaged : Option (BitVec 11)) (s : State) : Out :=
  .next <|
    if s.rstate ≠ rsSummary then s else
    let (temps, s0) := dieTemps s
    let s1 := match damaged with | some w => poisoned dieC memSummary w.toNat s0 | none => s0
    let addr := 4096 * s.get HOST_SUMMARY_ADDR_LO_ADDR + 2 ^ 32 * s.get HOST_SUMMARY_ADDR_HI_ADDR
    let bytes := s.summary temps damaged.isSome
    let fault := if s.hostFault addr 8192 1 fault.isSome then
      (match s.hostDenied addr 8192 1 with | some (a, _, _) => some (a - addr) | none => fault.map (·.toNat)) else none
    let s1 := hostDeny addr 8192 1 s1
    let s2 := emitHost addr (match fault with | some n => bytes.take n | none => bytes) s1
    let s3 := s2.each 3 (fun q s => s.set (HOST_RING_CFG_EN q) 0)
    let s4 := s3.set HOST_RS_STAT_RESULT (if fault.isSome then 2 else 1)
    let s5 := if fault.isSome then s4 else s4.bump HOST_RS_STAT_SUMSEQ
    let s6 := s5.raise GLB_EVT_EVT 3 0x0003 0 [(16, s5.get HOST_RS_STAT_SUMSEQ), (2, s5.get HOST_RS_STAT_RESULT)]
    unstopChannels ((s6.vector 34).set HOST_STAT_RSTATE rsWaitArm)

/-! ### Commands of the host port -/

/-- SYNC_STATE (R278, R287, R305): only the command ring carries it. -/
def cmdSyncState (v : CmdVia) (s : State) : CmdRes :=
  if v = .ring ∧ s.rstate = rsRunning then cmdOk s else cmdIgnored s

/-- The capabilities the endpoint has (R262); ATS, PRI, PASID, SR-IOV, MSI and INTx are none of them (R263). -/
inductive PciCap where
  | pciExpress | powerManagement | msix | aer | serialNumber
deriving DecidableEq, Repr

/-- The device power states of the power-management capability, and the link states the endpoint takes: ASPM L1 and its substates, and no
L0s (R262). -/
inductive PciPower where
  | d0 | d3hot
deriving DecidableEq, Repr

inductive PciLink where
  | l0 | l1 | l1Substates
deriving DecidableEq, Repr

/-- What the endpoint's configuration space presents (R4, R262, R263): one physical function with one 64-bit BAR of 1 MiB, MSI-X, the
device serial number, and its power and link states. No row of the table lets the host write the configuration space, so which of these
states it has chosen is no part of the state (log entry 141). -/
structure PciConfig where
  vendor : Nat
  device : Nat
  powerStates : List PciPower := [.d0, .d3hot]
  linkStates : List PciLink := [.l0, .l1, .l1Substates]
  classCode : Nat := 0x088000
  barBits : Nat := 64
  barSize : Nat := 2 ^ 20
  msixVectors : Nat := 64
  msixTable : Nat := 0x1800
  msixPba : Nat := 0x1C00
  caps : List PciCap := [.pciExpress, .powerManagement, .msix, .aer, .serialNumber]
  payloadSizes : List Nat := [128, 256, 512]
  maxReadHonoured : Nat := 4096
  maxReadIssued : Nat := 512
  serial : Nat
deriving DecidableEq, Repr

/-- The configuration space, once the identifiers are loaded: a hub in HELD has none (R4, R262). -/
def State.pciConfig (s : State) : Option PciConfig :=
  s.host.ids.map (fun v => { vendor := v.1, device := v.2, serial := s.getWide LNK_ID_LO_ID LNK_ID_HI_ID })

/-- PCIE_LINK_UP (R262, R265, R430): the link has trained, which it may with VDDPE and VDDPE_H in their bands, from step 4 of BOOT, at a
rate, Gen 1 to 5, and a width of 1, 2 or 4 lanes. -/
def execPcieLinkUp (rate width : BitVec 3) (s : State) : Out :=
  .next <|
    if (s.active ∨ s.pkg = pkgBoot) ∧ s.host.ids.isSome ∧ s.pkg_.supplyOut / 2 ^ 7 % 4 = 0 ∧ !s.on HOST_STAT_LINK_UP ∧
        1 ≤ rate.toNat ∧ rate.toNat ≤ 5 ∧ (width = 1 ∨ width = 2 ∨ width = 4) then
      (((s.set HOST_STAT_LINK_UP 1).set HOST_STAT_RATE rate.toNat).set HOST_STAT_WIDTH width.toNat).modHost
        (fun h => { h with link := true })
    else s

/-- Promotion (R313); rings that are enabled already arm the port (R287). -/
def promote (s : State) : State :=
  tryArm (((s.set HOST_MODE_MODE 1).set GLB_STATE_MODE 1).raise MGT_EVT_EVT 0 0x0900 0)

/-! ### Write rules of the HOST registers (R264, R266, R286, R292, R313) -/

/-- The rules a write of a HOST register must satisfy; only the driver promotes, by a BAR0 write (R6, R264, R313). -/
def hostRule (p : Path) (r : Reg) (new : Word) (s : State) : Bool :=
  let idle := s.rstate = rsDisarmed || s.rstate = rsWaitArm
  let ringOk := idle && !s.on (HOST_RING_CFG_EN r.i)
  match r.name with
  | .HOST_MODE => wordGet new 8 1 = 0 || (p = .host && s.on MGT_CFG_PROMOTE_EN && s.active && !s.on HOST_MODE_MODE)
  | .HOST_RESYNC => wordGet new 0 16 = 0x5EED && s.resyncOk
  | .HOST_SUMMARY_ADDR_LO => s.rstate ≠ rsSummary
  | .HOST_SUMMARY_ADDR_HI => s.rstate ≠ rsSummary
  | .HOST_DB_ADDR_LO => idle
  | .HOST_DB_ADDR_HI => idle
  | .HOST_XLAT => idle
  | .HOST_RING_LO => ringOk
  | .HOST_RING_HI => ringOk
  | .HOST_RING_IDX => ringOk
  | .HOST_RING_CFG => ringOk && (r.i = 2 || wordGet new 1 1 = 0)
  | _ => true

/-- What an applied write of a HOST register sets off; an unmasked vector that is pending is sent (R293). -/
def hostAfter (r : Reg) (new : Word) (s : State) : State :=
  match r.name with
  | .HOST_MODE => if wordGet new 8 1 = 1 then promote s else s
  | .HOST_WAKE => hostWake s
  | .HOST_RESYNC => startResync 2 s
  | .HOST_RING_CFG => tryArm s
  | .MSIX_VCTL =>
    if wordGet new 0 1 = 0 ∧ s.bit (MSIX_PBA_PEND (r.i / 32)) (r.i % 32) then
      (s.setBit (MSIX_PBA_PEND (r.i / 32)) (r.i % 32) false).emit (s.msixOf r.i)
    else s
  | _ => s

end Sys2Proof.Machine
end

