-- ==== Sys2Proof/Machine/RegRule.lean ====
section
/-! DEFINITION. Sys2Proof/Machine/RegRule.lean: how a register write is judged and what it stores and sets off, block by block
(R9, R12, R36, R450), the flash command and the event queue of the management ports (R304, R306 to R308), and a rail's EN and VID
written by command (R278). -/

namespace Sys2Proof.Machine

/-! ### Fields (R9, R12) -/

/-- A written value lies in a field's legal ranges; a field the writer cannot write takes any value. -/
def FieldSpec.takes (f : FieldSpec) (new : Word) : Bool :=
  let v := wordGet new f.lo f.w
  f.acc = .ro || f.legal.isEmpty || f.legal.any (fun ab => ab.1 ≤ v && v ≤ ab.2)

/-- The bits a register's fields cover. -/
def Reg.named (r : Reg) : Word := r.fields.foldl (fun a f => a ||| wordSet 0 f.lo f.w (2 ^ f.w - 1)) 0

/-- No reserved bit is set and no field carries a reserved value (R12). -/
def Reg.legalWord (r : Reg) (new : Word) : Bool := new &&& ~~~r.named = 0 && r.fields.all (fun f => f.takes new)

/-- What one field stores of a write, by its access code (R9). -/
def FieldSpec.store (f : FieldSpec) (new old : Word) : Word :=
  match f.acc with
  | .rw => wordSet old f.lo f.w (wordGet new f.lo f.w)
  | .rwl => wordSet old f.lo f.w (wordGet new f.lo f.w)
  | .w1c => old &&& ~~~(wordSet 0 f.lo f.w (wordGet new f.lo f.w))
  | .ro => old
  | .wo => old

/-- What a register stores of a write. -/
def Reg.stored (r : Reg) (new old : Word) : Word := r.fields.foldl (fun a f => f.store new a) old

/-! ### The flash master (R306 to R308) -/

/-- The range a program or erase touches lies in the scratch area. -/
def spiRangeOk (op a len : Nat) : Bool :=
  match spiErase op with
  | some n => 0x700000 ≤ a / n * n
  | none => !spiProgram op || len = 0 || 0x700000 ≤ a

/-- A flash command is issued where this holds (R308); the image machinery holds the flash while a command of its group runs. -/
def State.spiOk (s : State) (w : Word) : Bool :=
  let op := wordGet w 0 8
  spiListed op && spiRangeOk op (s.spiAddr (s.get MGT_SPI_ADDR_ADDR)) (wordGet w 8 9) && !s.on MGT_SPI_STAT_BUSY &&
    !s.groupBusy grpImage

/-- The management internal state changed. -/
def State.modMgt (s : State) (f : MgtInt → MgtInt) : State := { s with mgt := f s.mgt }

/-- A flash command starts. -/
def spiStart (w : Word) (s : State) : State :=
  let op := wordGet w 0 8
  (s.modMgt (fun m => { m with spi := some (op, s.spiAddr (s.get MGT_SPI_ADDR_ADDR), wordGet w 8 9) })).set MGT_SPI_STAT_BUSY 1

/-! ### Events without a driver (R304) -/

/-- POP: the oldest record moves to MGT_EV_DATA. -/
def eventPop (s : State) : State :=
  match s.evtFifo with
  | [] => s.set MGT_EV_VALID 0
  | e :: _ =>
    let b := e.bytes false
    let s1 := s.each 8 (fun i s => s.set (MGT_EV_DATA_WORD i) (wordAt b (4 * i)).toNat)
    s1.dropOldest.set MGT_EV_VALID 1

/-! ### GLB, KLN and MGT rules (R304, R305, R308, R415, R426, R427) -/

/-- The mailbox owner's code of a path (MGT_MBX_CTL.OWNER), and the path of a code. -/
def mbxPath (owner : Fin 4) : Path := [Path.pmb, .i3c, .jtag, .host].getD owner .host
def mbxCode : Path → Option (Fin 4)
  | .pmb => some 0
  | .i3c => some 1
  | .jtag => some 2
  | .host => some 3
  | _ => none

/-- While the mailbox is busy, only its owner writes it (R305). -/
def State.mbxFree (s : State) (p : Path) : Bool := !s.on MGT_MBX_CTL_BUSY || (mbxCode p).any (fun k => k = s.get MGT_MBX_CTL_OWNER)

/-- The rules a write of a GLB, KLN or MGT register must satisfy. -/
def pkgRule (p : Path) (r : Reg) (old new : Word) (s : State) : Bool :=
  let mine := p = .boot || s.secure p
  match r.name with
  | .GLB_CMD => mine && s.stateOk (wordGet new 0 4)
  | .GLB_STBY_CTL => mine
  | .GLB_STBY_OUT_LO => mine
  | .GLB_STBY_OUT_HI => mine
  | .GLB_STBY_RAIL => mine
  | .KLN_WAKE => mine
  | .KLN_SCR => mine
  | .MGT_CFG => p = .host || p = .boot || wordGet old 1 1 = wordGet new 1 1
  | .MGT_SPI_CMD => wordGet new 31 1 = 0 || s.spiOk new
  | .MGT_EV => wordGet new 0 1 = 0 || (s.rstate ≠ rsRunning && !(s.on DMA_EVREQ_EN && (s.boundTo lineEvent).isSome))
  | .MGT_MBX => s.mbxFree p
  | .MGT_MBX_BUF => s.mbxFree p
  | .MGT_MBX_CTL => s.mbxFree p && (wordGet new 0 1 = 0 || (!s.on MGT_MBX_CTL_BUSY && (mbxCode p).isSome))
  | _ => true

/-- A write that may move the functions of pins has been stored: their handovers start (R371). -/
def pinsAfter (r : Reg) (old : Word) (s : State) : State :=
  let before := s.setWord r old
  pinsMoved before.alarms before s

/-- What an applied write of a GLB or MGT register sets off; the mailbox's GO is taken up with the commands. -/
def pkgAfter (r : Reg) (old new : Word) (s : State) : State :=
  match r.name with
  | .MGT_PMB_CFG => pinsAfter r old s
  | .MGT_I3C_CFG => pinsAfter r old s
  | .GLB_CMD => stateChange (wordGet new 0 4) 0x61 s
  | .MGT_SPI_CMD => if wordGet new 31 1 = 1 then spiStart new s else s
  | .MGT_EV => if wordGet new 0 1 = 1 then eventPop s else s
  | _ => s

/-! ### All blocks -/

/-- The path an owner rule judges: the hub's own writes carry every right (R391), and an engine's channel writes as the engine that owns it
(R323, R347). -/
def State.asOwner (s : State) : Path → Path
  | .boot => .host
  | .glb => .host
  | .dma ch => (s.chEngine ch).elim (.dma ch) (fun e => if h : e < 12 then .eng ⟨e, h⟩ else .dma ch)
  | p => p

/-- The writer's number where a rule asks for one; 99 stands for a writer that owns nothing. -/
def State.who (s : State) (p : Path) : Nat := (s.writer p).getD 99

/-- The ordering, state and owner rules of every block. -/
def blockRule (p : Path) (r : Reg) (old new : Word) (s : State) : Bool :=
  let own := p = .boot || p = .glb
  (own || pinOwnRule (s.who p) r new s) && pinRule r old new s && pkgRule p r old new s && plzRule r old new s &&
    trgRule r old new && synRule r new s && rmpRule r old new s && outRule r old new s && prgRule r old new s && fltRule r new &&
    seqRule r old new s && lnkRule r old new s && hostRule p r new s && wdgRule (s.asOwner p) r new s &&
    dmaRule (if own then s.chOwner r.i else s.who p) (p = .host || own) r old new s &&
    (namesOTP.contains r.name → otpRule p r new s) && (namesENG.contains r.name → engRule (s.asOwner p) r new s)

/-- What an applied write sets off, in its block. A new LO_HZ or RREF_SEL moves the rates that the windows and the epochs follow (R69, R111,
R182, R235). -/
def blockAfter (p : Path) (r : Reg) (old new : Word) (s : State) : State :=
  let f : State → State :=
    if namesPLZ.contains r.name then fun s => (plzAfter r old new s).when (r.name = .PLZ_LO_HZ) refreshAllWindows
    else if namesTRG.contains r.name then fun s => (trgAfter r old new s).when (r.name = .TRG_CTL) refreshAllWindows
    else if namesSYN.contains r.name then synAfter r old new
    else if namesRMP.contains r.name then rmpMoved r new
    else if namesOUT.contains r.name then outAfter r old new
    else if namesPRG.contains r.name then prgAfter r old new
    else if namesSEQ.contains r.name then fun s => fltAfter r old new (seqAfter r old new s)
    else if r.name = .LNK_RMT_CTL then fun s => if wordGet new 0 1 = 1 then remoteGo new s else s
    else if namesLNK.contains r.name then lnkAfter r old new
    else if namesDMA.contains r.name then dmaAfter r old new
    else if namesPIN.contains r.name then fun s =>
      let s1 := pinAfter r old new s
      if r.name = .PIN_CFG ∨ r.name = .PIN_PEN then pinsAfter r old s1 else s1
    else if namesOTP.contains r.name then otpAfter p r new
    else if namesENG.contains r.name then fun s => engAfter (s.asOwner p) r old new s
    else if namesWDG.contains r.name then wdgAfter r old new
    else if namesHOST.contains r.name then hostAfter r new
    else pkgAfter r old new
  f s

/-- The judgement of a write of a register that exists, on a die that is not isolated. -/
def State.accepts (s : State) (p : Path) (r : Reg) (new : Word) : Bool := r.legalWord new && blockRule p r (s.word r) new s

/-- An accepted write: what it stores, then what it sets off. -/
def applyWrite (p : Path) (r : Reg) (new : Word) (s : State) : State :=
  blockAfter p r (s.word r) new (s.setWord r (r.stored new (s.word r)))

/-! ### RAIL_SET (R278) -/

/-- RAIL_SET: writes of VID and EN, both judged before either is applied. -/
def cmdRailSet (rail : Nat) (wen en wvid : Bool) (vid : Nat) (s : State) : CmdRes :=
  let rv : Reg := ⟨.PRG_VID, rail / 6, rail % 6, 0⟩
  let rc : Reg := ⟨.PRG_RCTL, rail / 6, rail % 6, 0⟩
  let nv := BitVec.ofNat 32 vid
  let nc := wordSet (s.word rc) 0 1 (if en then 1 else 0)
  if rail < 24 && (wen || wvid) && (!wvid || s.accepts .host rv nv) && (!wen || s.accepts .host rc nc) then
    let s1 := if wvid then applyWrite .host rv nv s else s
    cmdOk (if wen then applyWrite .host rc nc s1 else s1)
  else cmdIgnored s

end Sys2Proof.Machine
end

