-- ==== Sys2Proof/Machine/Command.lean ====
section
/-! DEFINITION. Sys2Proof/Machine/Command.lean: commands by descriptor, from the command ring and from the mailbox: the checks of
R275, the opcodes of R278, completion (R272, R276, R279) and the mailbox (R305). -/

namespace Sys2Proof.Machine

/-! ### The descriptor (R274, R278) -/

/-- The opcodes of R278. -/
def opcodes : List Nat :=
  [0x00, 0x01, 0x02, 0x10, 0x11, 0x12, 0x13, 0x20, 0x21, 0x22, 0x24, 0x25, 0x26, 0x30, 0x31, 0x32, 0x33, 0x34, 0x40, 0x41, 0x42, 0x48,
    0x49, 0x50, 0x51, 0x52, 0x53, 0x60, 0x61]

/-- The bits of an argument that an opcode names. -/
def argMask (op i : Nat) : Nat :=
  match op, i with
  | 0x02, 0 => 0xF
  | 0x10, 0 => 0x1F03
  | 0x11, 0 => 0x3
  | 0x12, 0 => 0x103
  | 0x13, 0 => 0x0FFF0003
  | 0x13, 1 => 0xFFFF
  | 0x20, 0 => 0xF
  | 0x21, 0 => 0xF
  | 0x21, 1 => 0x7FF
  | 0x21, 2 => 0xFFFFFFFF
  | 0x21, 3 => 0xFFFFFFFF
  | 0x22, 0 => 0xF
  | 0x24, 0 => 0xF
  | 0x24, 1 => 0xF
  | 0x25, 0 => 0xF
  | 0x26, 0 => 0xF
  | 0x26, 1 => 0x1
  | 0x30, 0 => 0x0FFF131F
  | 0x32, 0 => 0x7
  | 0x34, 0 => 0xFFFF
  | 0x40, 0 => 0x1FF
  | 0x40, 1 => 0xFFFFFFFF
  | 0x41, 0 => 0x1FF
  | 0x41, 1 => 0xFFFFFFFF
  | 0x42, 0 => 0x3
  | 0x48, 0 => 0x3
  | 0x49, 0 => 0x3
  | 0x52, 0 => 0xFFFFFFFF
  | 0x52, 1 => 0xFFFFFFFF
  | 0x52, 2 => 0xFFFFC
  | 0x52, 3 => 0xF
  | 0x53, 0 => 0xFFFFFFFF
  | 0x53, 1 => 0xFFFFFFFF
  | 0x53, 2 => 0xFFFFC
  | 0x53, 3 => 0xF
  | 0x60, 0 => 0x1F
  | 0x61, 0 => 0x1F
  | _, _ => 0

/-- A command by its sixteen words. -/
structure Cmd where
  words : List Word
deriving DecidableEq, Repr

/-- A word of the descriptor, and its fields. -/
def Cmd.w (c : Cmd) (i : Nat) : Word := c.words.getD i 0
def Cmd.op (c : Cmd) : Nat := wordGet (c.w 0) 0 8
def Cmd.irq (c : Cmd) : Bool := wordGet (c.w 0) 16 1 = 1
def Cmd.own (c : Cmd) : Bool := wordGet (c.w 0) 31 1 = 1
def Cmd.tag (c : Cmd) : Nat := wordGet (c.w 1) 0 16
def Cmd.ptr (c : Cmd) : Nat := (c.w 2).toNat + 2 ^ 32 * (c.w 3).toNat
def Cmd.len (c : Cmd) : Nat := (c.w 4).toNat
def Cmd.arg (c : Cmd) (i : Nat) : Word := c.w (6 + i)
def Cmd.argField (c : Cmd) (i lo n : Nat) : Nat := wordGet (c.arg i) lo n

/-- The CRC of a descriptor: word 0 bits [31:8] and word 5 are taken as zero (R274). -/
def Cmd.crcGood (c : Cmd) : Bool :=
  crcWords (BitVec.ofNat 32 c.op :: (List.range 14).map (fun i => if i = 4 then 0 else c.w (i + 1))) = c.w 15

/-- LEN is as the opcode requires; an opcode without payload or result has LEN and PTR zero (R278). -/
def Cmd.lenOk (c : Cmd) : Bool :=
  match c.op with
  | 0x20 => c.len = 2052
  | 0x24 => c.len = 264 * c.argField 1 0 4
  | 0x31 => c.len % 12 = 8 && c.len ≤ 776
  | 0x48 => true
  | 0x52 => c.len = 4 * (c.argField 3 0 4 + 1)
  | 0x53 => c.len = 4 * (c.argField 3 0 4 + 1)
  | _ => c.len = 0 && c.ptr = 0

/-- PTR is 4-byte aligned and lies in 48 bits; in the mailbox PTR and LEN lie in MGT_MBX_BUF, but for IMAGE_STAGE (R274, R305). -/
def Cmd.ptrOk (c : Cmd) (v : CmdVia) : Bool :=
  c.ptr % 4 = 0 && c.ptr < 2 ^ 48 && (v = .ring || c.op = 0x48 || c.ptr + c.len ≤ 4096)

/-- Arguments that name a cluster, a rail, a class and the like lie in range. -/
def Cmd.rangeOk (c : Cmd) : Bool :=
  let a0 := (c.arg 0).toNat
  if 0x20 ≤ c.op ∧ c.op ≤ 0x26 then a0 < 12 && (c.op ≠ 0x24 || c.argField 1 0 4 ≤ 8)
  else if c.op = 0x30 then c.argField 0 0 5 < 24 && (c.argField 0 8 1 = 1 || c.argField 0 12 1 = 1)
  else if c.op = 0x48 ∨ c.op = 0x49 then a0 < 3
  else if c.op = 0x02 then [1, 2, 3, 8].contains a0
  else if c.op = 0x52 ∨ c.op = 0x53 then c.tag ≠ 0
  else true

/-- The second check of R275: opcode, reserved fields, ranges, PTR and LEN. -/
def Cmd.formOk (c : Cmd) (v : CmdVia) : Bool :=
  opcodes.contains c.op && wordGet (c.w 0) 17 14 = 0 && wordGet (c.w 1) 16 16 = 0 &&
    (List.range 9).all (fun i => c.arg i &&& ~~~(BitVec.ofNat 32 (argMask c.op i)) = 0) && c.lenOk && c.ptrOk v && c.rangeOk

/-- The die whose registers a command names (R450); C where it names none. -/
def Cmd.die (c : Cmd) : Nat :=
  if 0x10 ≤ c.op ∧ c.op ≤ 0x13 then dieOfRegion (c.argField 0 0 2)
  else if 0x20 ≤ c.op ∧ c.op ≤ 0x26 then dieOfCluster (c.argField 0 0 4)
  else if 0x30 ≤ c.op ∧ c.op ≤ 0x34 then dieP
  else dieC

/-- A command that names registers of an isolated die is dropped there, as its register writes are (R36). -/
def onDie (d : Nat) (f : State → CmdRes) (s : State) : CmdRes := if s.isolated d then cmdOk s else f s

/-- Opcodes whose payload is fetched before they act. -/
def Cmd.fetches (c : Cmd) : Bool := c.op = 0x20 || (c.op = 0x24 && c.len ≠ 0) || c.op = 0x31 || c.op = 0x53

/-! ### What a command does (R278) -/

/-- The deferred-command record of a descriptor. -/
def Cmd.defer (c : Cmd) (v : CmdVia) (idx : Nat) : Defer :=
  { opcode := c.op, tag := c.tag, idx := idx, irq := c.irq, mbx := v ≠ .ring, words := if v = .ring then c.words else [], ptr := c.ptr
    len := c.len }

/-- A channel command (R305, R317): the ring carries those of the host's channels, the mailbox those of the engines' (log entry 128). -/
def channelCmd (v : CmdVia) (ch : Nat) (f : Nat → State → CmdRes) (s : State) : CmdRes :=
  if s.hostOwned ch = decide (v = .ring) then f ch s else cmdIgnored s

/-- The effect of a command whose form is right, its payload fetched. -/
def runOp (c : Cmd) (v : CmdVia) (idx : Nat) (payload : List Word) (s : State) : CmdRes :=
  let a := c.argField
  let d := c.defer v idx
  match c.op with
  | 0x00 => cmdOk s
  | 0x01 => cmdSyncState v s
  | 0x02 => if s.stateOk (a 0 0 4) then cmdOk s else cmdIgnored s
  | 0x10 => cmdRefForce (a 0 0 2) (a 0 8 5) s
  | 0x11 => cmdRefAuto (a 0 0 2) s
  | 0x12 => cmdHoldoverForce (a 0 0 2) (a 0 8 1 = 1) s
  | 0x13 => cmdRealign (a 0 0 2) (a 0 16 12) (a 1 0 16) s
  | 0x20 => cmdBandLoad (a 0 0 4) payload s
  | 0x21 => cmdHop (a 0 0 4) (a 1 0 9) (a 1 9 2) (c.arg 2).toNat (c.arg 3).toNat s
  | 0x22 => cmdBypassReturn (a 0 0 4) s
  | 0x24 => cmdRampLoad (a 0 0 4) ((List.range (a 1 0 4)).map (fun i => (payload.drop (66 * i)).take 66)) s
  | 0x25 => cmdRampStart (a 0 0 4) s
  | 0x26 => cmdRampStop (a 0 0 4) (a 1 0 1 = 1) s
  | 0x30 => cmdRailSet (a 0 0 5) (a 0 8 1 = 1) (a 0 9 1 = 1) (a 0 12 1 = 1) (a 0 16 12) s
  | 0x31 => cmdSeqLoad payload s
  | 0x32 => cmdSeqStart (a 0 0 3) s
  | 0x33 => cmdSeqStop s
  | 0x34 => cmdStoreCharge (a 0 0 16) s
  | 0x40 => cmdOtpShadow (a 0 0 9) (c.arg 1).toNat s
  | 0x41 => cmdOtpBurn d (a 0 0 9) (c.arg 1).toNat s
  | 0x42 => cmdCommitLock d (a 0 0 2) s
  | 0x48 => cmdImageStage d (a 0 0 2) c.ptr c.len s
  | 0x49 => cmdImageCommit d (a 0 0 2) s
  | 0x50 => cmdLinkJoin s
  | 0x51 => cmdLinkLeave s
  | 0x52 => cmdRemote false d ((c.arg 0).toNat + 2 ^ 32 * (c.arg 1).toNat) (c.arg 2).toNat (a 3 0 4 + 1) [] s
  | 0x53 => cmdRemote true d ((c.arg 0).toNat + 2 ^ 32 * (c.arg 1).toNat) (c.arg 2).toNat (a 3 0 4 + 1) payload s
  | 0x60 => channelCmd v (a 0 0 5) cmdDmaResume s
  | 0x61 => channelCmd v (a 0 0 5) cmdDmaAbort s
  | _ => cmdIgnored s

/-- The third check of R275 for a command with a payload, before that is fetched: the loads' register writes are refused in no state;
a remote write needs its group free. -/
def Cmd.legal (c : Cmd) (s : State) : Bool := c.op ≠ 0x53 || !s.groupBusy grpRemote

/-- Words of the mailbox buffer (R305). -/
def State.mbxWords (s : State) (ptr len : Nat) : List Word := (List.range (len / 4)).map (fun i => s.word ⟨.MGT_MBX_BUF, ptr / 4 + i, 0, 0⟩)

/-- The checks of R275 in order, then the effect. The state commands and SYNC_STATE are only judged here: their change follows their
completion. `payload` is what host memory gives, `fault` a translation fault on it. -/
def runCommand (c : Cmd) (v : CmdVia) (idx : Nat) (payload : List Byte) (fault : Bool) (s : State) : CmdRes :=
  if !c.crcGood then ⟨stPoisoned, 0, s⟩
  else if !c.formOk v then cmdIgnored s
  else if !c.legal s then cmdIgnored s
  else if c.fetches && v = .ring && s.hostFault c.ptr c.len 0 fault then ⟨stFault, 0, hostDeny c.ptr c.len 0 s⟩
  else
    let ws := if v = .ring then bytesWords (bytesAt payload 0 (if c.fetches then c.len else 0)) else s.mbxWords c.ptr c.len
    onDie c.die (runOp c v idx ws) s

/-- The change a judged command makes after its completion: a state command's, or resynchronisation (R278, R287). -/
def afterCommand (c : Cmd) (s : State) : State :=
  if c.op = 0x01 then startResync 1 s else if c.op = 0x02 then stateChange (c.argField 0 0 4) 0x60 s else s

/-! ### The command ring (R272, R276, R279) -/

/-- The completion ring has room for one more completion beside those that wait. -/
def State.cplRoom (s : State) : Bool := s.ringRoom 1 (s.host.cplQ.length + 1)

/-- COMMAND_DISPATCH (R272, R275, R276): the next offered descriptor, its payload and a translation fault on that. The hub stops at an
entry whose OWN is 0 until a later doorbell read. -/
def execCommandDispatch (words : List Word) (payload : List Byte) (fault : Bool) (s : State) : Out :=
  .next <|
    let c : Cmd := ⟨padWords 16 words⟩
    if !(s.rstate = rsRunning ∧ s.active ∧ s.hubIdx 0 ≠ s.pubIdx 0 ∧ s.cplRoom ∧ !s.host.stalled) then s
    else if !c.own then s.modHost (fun h => { h with stalled := true })
    else
      let idx := s.hubIdx 0
      let s0 := ringAdvance 0 (s.modHost (fun h => { h with consumed := h.consumed + 1 }))
      let r := runCommand c .ring idx payload fault s0
      if r.status = stDeferred then r.s
      else
        let s1 := if r.status = stIgnored then r.s.ignored 0x02 idx else r.s
        let s2 := queueCpl { idx := idx, status := r.status, opcode := c.op, tag := c.tag, result := r.result.toNat, irq := c.irq
                             sqHead := s1.hubIdx 0 } (writeBack idx r.status r.result.toNat c.words s1)
        if r.status = stOk ∧ (c.op = 0x01 ∨ c.op = 0x02) then afterCommand c (postCpls s2) else s2

/-! ### The mailbox (R305) -/

/-- GO: the path owns the mailbox until DONE. -/
def mbxGo (owner : Fin 4) (s : State) : State :=
  let c : Cmd := ⟨(List.range 16).map (fun i => s.word ⟨.MGT_MBX, i, 0, 0⟩)⟩
  let r := runCommand c (.mbx owner) 0 [] false (mbxTake owner s)
  if r.status = stDeferred then r.s
  else
    let s1 := mbxDone c.op r.status r.result.toNat (if r.status = stIgnored then countIgnored (.mbx owner) r.s else r.s)
    if r.status = stOk ∧ c.op = 0x02 then afterCommand c s1 else s1

end Sys2Proof.Machine
end

