-- ==== Sys2Proof/Machine/RegWrite.lean ====
section
/-! DEFINITION. Sys2Proof/Machine/RegWrite.lean: register accesses of every path (R8, R12, R36, R251 to R253, R262, R264, R294,
R347, R426, R450), and the remote requests that a target answers. -/

namespace Sys2Proof.Machine

/-! ### What a path reaches -/

/-- A debug lock of OTP word 110 is set: bit 0 REG_RD_LOCK, bit 1 REG_WR_LOCK, bit 2 SCAN_LOCK (R389). -/
def State.debugLock (s : State) (b : Nat) : Bool := bitOf (s.otpWord 110) b

/-- GLB or OTP, which I3C and JTAG read in BOOT and HELD (R294). -/
def glbOrOtp (off : Nat) : Bool := off < 0x1000 || (0x6000 ≤ off && off < 0x8000)

/-- The HOST block with the MSI-X table. -/
def hostSpan (off : Nat) : Bool := 0x1000 ≤ off && off < 0x2000

/-- BOOT or HELD. -/
def State.early (s : State) : Bool := s.pkg = pkgBoot || s.pkg = pkgHeld

/-- The die a path's accesses come from: an engine's own, the C-die otherwise (R27). -/
def Path.die : Path → Nat
  | .eng e => dieOfEngine e
  | _ => dieC

/-- A path carries an access at all: the C-die is not isolated, and the state lets the path answer (R24, R262, R294, R312, R399); a
halted engine, or one in reset, issues none (R349, R363). -/
def State.pathOpen (s : State) (p : Path) (write : Bool) : Bool :=
  !s.isolated dieC &&
    match p with
    | .host => s.active || (s.pkg = pkgBoot && s.host.ids.isSome)
    | .pmb => s.active && s.on MGT_PMB_CFG_EN
    | .i3c => (s.active || s.early) && s.on MGT_I3C_CFG_EN
    | .jtag => s.early || (s.active && !s.debugLock (if write then 1 else 0))
    | .boot => s.pkg = pkgBoot
    | .eng e => s.active && s.get (ENG_STAT_STATE e.val) = engRunning
    | _ => s.active

/-- Registers a remote write may not reach (R251). -/
def linkDenied (off : Nat) : Bool :=
  (0x1000 ≤ off && off < 0x2000) || (0x4000 ≤ off && off < 0x8000) || (0x8000 ≤ off && off < 0x10000) ||
    (0x90000 ≤ off && off < 0x93000) || off = 0x71000 || off = 0x71050 || off = 0x71054 || off = 0x71058 || off = 0x7105C ||
    off = 0x71064 || off = 0x71060 || (0x71080 ≤ off && off < 0x710C0)

/-- The command mailbox, to which WR_LOCK does not apply (R294). -/
def mailboxSpan (off : Nat) : Bool := (0x2400 ≤ off && off < 0x2448) || (0x3000 ≤ off && off < 0x4000)

/-- A write lies in the path's reach (R251, R264, R294, R391). -/
def State.reaches (s : State) (p : Path) (off : Nat) (new : Word) : Bool :=
  let hosted := s.on HOST_MODE_MODE
  match p with
  | .host => s.active && (hosted || (off = 0x1000 && wordGet new 8 1 = 1))
  | .pmb => !hostSpan off && (mailboxSpan off || !(hosted && s.on MGT_CFG_WR_LOCK))
  | .i3c => s.active && !hostSpan off && (mailboxSpan off || !(hosted && s.on MGT_CFG_WR_LOCK))
  | .jtag => s.active && !hostSpan off
  | .link => !linkDenied off
  | .boot => !hostSpan off && !(0x4000 ≤ off && off < 0x5000) && !(0x6000 ≤ off && off < 0x8000) &&
      !(0x90000 ≤ off && off < 0x93000 && off % 0x400 = 0)
  | _ => true

/-! ### Writes -/

/-- What becomes of a register write (R12, R36): applied, ignored and counted, dropped by an isolated die, or not carried at all. -/
inductive WRes where
  | applied | ignored | dropped | absent
deriving DecidableEq, Repr

/-- A 32-bit register write with its byte enables (R36). A write with short byte enables, or one out of its path's reach, counts as
ignored even where its register lies on an isolated die, whose writes are dropped without a count (log entry 103: DESIGN CHOICE). An
engine of an isolated die writes the registers of that die only, and nothing of what it does is counted on the C-die (R22, R23). -/
def regWriteBe (p : Path) (off : Nat) (be : Nat) (new : Word) (s : State) : WRes × State :=
  let no : WRes × State := if s.isolated (Path.die p) then (.dropped, s) else (.ignored, s.ignored (Path.source p) off (Path.detail p))
  if !s.pathOpen p true then (.absent, s)
  else if be ≠ 15 ∨ !s.reaches p off new then no
  else
    match Reg.ofOff off with
    | none => no
    | some r =>
      if !s.linked (Path.die p) (dieOfOff off) then (.dropped, s)
      else if s.accepts p r new then
        let s1 := applyWrite p r new s
        (.applied, if r.name = .MGT_MBX_CTL ∧ wordGet new 0 1 = 1 then mbxGo ((mbxCode p).getD 0) s1 else s1)
      else if r.name = .MGT_SPI_CMD ∧ wordGet new 31 1 = 1 ∧ !s.on MGT_SPI_STAT_BUSY then (no.1, no.2.set MGT_SPI_STAT_RESULT 1)
      else no

/-- A whole register write. -/
def regWrite (p : Path) (off : Nat) (new : Word) (s : State) : WRes × State := regWriteBe p off 15 new s

/-- A write of a register by name. -/
def writeReg (p : Path) (r : Reg) (new : Word) (s : State) : State := (regWrite p r.off new s).2

/-- A write row: the bit that names the row is set or cleared in the written word. -/
def writeRow (p : Path) (r : Reg) (w : Word) (lo n v : Nat) (s : State) : Out := .next (writeReg p r (wordSet w lo n v) s)

/-- REGISTER_WRITE (R12, R36). -/
def execRegisterWrite (p : Path) (off : BitVec 20) (be : BitVec 4) (val : Word) (s : State) : Out :=
  .next (regWriteBe p off.toNat be.toNat val s).2

/-! ### Reads -/

/-- The high register that a read of a low one snapshots (R95, R96, R261, R426). -/
def Reg.high (r : Reg) : Option Reg :=
  match r.name with
  | .TRG_CV_LO => some { r with name := .TRG_CV_HI }
  | .TRG_BO_LO => some { r with name := .TRG_BO_HI }
  | .TRG_HENT_LO => some { r with name := .TRG_HENT_HI }
  | .LNK_TOD_LO => some { r with name := .LNK_TOD_HI }
  | .GLB_TIMER_LO => some { r with name := .GLB_TIMER_HI }
  | _ => none

/-- A high word snapshotted by a read. -/
def State.takeSnap (s : State) (r : Reg) : State :=
  match r.high with
  | some h => { s with snap := (h.off, (s.word h).toNat) :: s.snap.filter (fun e => e.1 ≠ h.off) }
  | none => s

/-- A high word that a read returns as it was last snapshotted, its reset value before that (R95); an entry of the history ring reads as
it stands until its low word has been read (R96, log entry 110: DESIGN CHOICE). -/
def Reg.snapped (r : Reg) : Bool := [RegName.TRG_CV_HI, .TRG_BO_HI, .LNK_TOD_HI, .GLB_TIMER_HI].contains r.name

/-- What a register returns: its stored word, a snapshotted high word, or the Bisque version of ENG_ROM (log entry 5). -/
def State.shown (s : State) (r : Reg) : Word :=
  if r.name = .ENG_ROM then Config.bisqueVersion r.i
  else
    match s.snap.find? (fun e => e.1 = r.off) with
    | some e => BitVec.ofNat 32 e.2
    | none => if r.snapped then r.reset else s.word r

/-- A read lies in the path's reach (R294). -/
def State.readable (s : State) (p : Path) (off : Nat) : Bool :=
  s.pathOpen p false && (s.active || p = .host || p = .boot || glbOrOtp off)

/-- A register read (R35, R36): zero outside the reach and at reserved offsets, all ones where the die links do not carry it. -/
def regRead (p : Path) (off : Nat) (s : State) : Word × State :=
  if s.isolated dieC then (0xFFFFFFFF, s)
  else if !s.readable p off then (0, s)
  else
    match Reg.ofOff off with
    | none => (0, s)
    | some r =>
      if !s.linked (Path.die p) (dieOfOff off) then (0xFFFFFFFF, s)
      else
        let s1 := if r.name = .PRG_TLM_BUF ∧ r.j = 0 then tlmSnapshot r.i s else s.takeSnap r
        (s1.shown r, s1)

/-- Consecutive registers read. -/
def regReads (p : Path) (off : Nat) : Nat → State → List Word × State
  | 0, s => ([], s)
  | n + 1, s =>
    let (w, s1) := regRead p off s
    let (l, s2) := regReads p (off + 4) n s1
    (w :: l, s2)

/-- Consecutive registers written, in ascending order; bit i of the mask tells that word i was ignored or dropped (R252). -/
def regWrites (p : Path) (off : Nat) : Nat → List Word → State → Nat × State
  | _, [], s => (0, s)
  | i, w :: l, s =>
    let r := regWrite p (off + 4 * i) w s
    let (m, s2) := regWrites p off (i + 1) l r.2
    (m + (if r.1 = .applied then 0 else 2 ^ i), s2)

/-! ### Remote requests at the target (R251 to R253) -/

/-- The kept write requests that are not older than 1 s. -/
def State.kept (s : State) : List DupEnt :=
  let now := s.getWide GLB_TIMER_LO_US GLB_TIMER_HI_US
  s.sys.dup.filter (fun d => now - d.time < 1000000)

/-- The response: status, NA_MASK and the words read. -/
def respond (write : Bool) (tag src status na : Nat) (data : List Word) (s : State) : State :=
  sendTree (message (if write then kindWrResp else kindRdResp) tag src s.hubId
    (natBytes 1 status ++ [0] ++ natBytes 2 na ++ wordsBytes data)) s

/-- A request performed: its status, NA_MASK and words. -/
def perform (write : Bool) (off n : Nat) (data : List Word) (s : State) : Nat × Nat × List Word × State :=
  if !s.on (if write then LNK_SYS_CTL_REMOTE_WR_EN else LNK_SYS_CTL_REMOTE_RD_EN) then (3, 0, [], s)
  else if 2 ^ 20 < off + 4 * n then (4, 0, [], s.ignored (Path.source .link) off)
  else if write then
    match (List.range n).find? (fun i => linkDenied (off + 4 * i)) with
    | some i => (2, 0, [], s.ignored (Path.source .link) (off + 4 * i))
    | none =>
      let (na, s1) := regWrites .link off 0 (data.take n) s
      (if na = 0 then 0 else 1, na, [], s1)
  else
    let (l, s1) := regReads .link off n s
    (0, 0, l, s1)

/-- REMOTE_REQUEST_RX (R251 to R253): a whole request whose CRC32C passes, N words; a write that repeats a kept SRC and TAG is not
applied again. -/
def execRemoteRequestRx (k : Fin 4) (write : Bool) (tag : BitVec 16) (src : BitVec 64) (off : Word) (n : Fin 16) (data : List Word)
    (s : State) : Out :=
  .next <|
    if !s.treePort k || !s.active || s.isolated dieC then s else
    match (if write then s.kept.find? (fun d => d.src = src.toNat && d.tag = tag.toNat) else none) with
    | some d => respond write tag.toNat src.toNat d.status d.na [] s
    | none =>
      let (st, na, l, s1) := perform write off.toNat (n + 1) (padWords (n + 1) data) s
      let ent : DupEnt := { src := src.toNat, tag := tag.toNat, status := st, na := na
                            time := s.getWide GLB_TIMER_LO_US GLB_TIMER_HI_US }
      let s2 := if write then s1.modSys (fun x => { x with dup := (ent :: s1.kept).take 16 }) else s1
      respond write tag.toNat src.toNat st na l s2

end Sys2Proof.Machine
end

