-- ==== Sys2Proof/Machine/Boot.lean ====
section
/-! DEFINITION. Sys2Proof/Machine/Boot.lean: BOOT: the triple read and the HELD decision, the shadows, the board profile, the store
header and the extension block, the images, and the entry to RUN (R355, R390, R391, R398 to R401, R451). -/

namespace Sys2Proof.Machine

/-! ### The triple read (R398) -/

/-- A finding: its word and its cause, 1 MARGIN, 2 ECC, 3 SEAL, 4 ID, 5 LOCK. -/
structure Finding where
  word : Nat
  cause : Nat
deriving DecidableEq, Repr

/-- A row reads the same three times. -/
def State.steady (s : State) (w : Nat) : Bool := let f := s.fuse w; f.1 = f.2.1 && f.1 = f.2.2

/-- The state of a region from the reads (R388). -/
def State.regionRead (s : State) (r : Nat) : Nat :=
  if s.fuse (otpSpan r).2 ≠ (0, 0, 0) then otpClosed
  else if (List.range ((otpSpan r).2 - (otpSpan r).1)).all (fun i => s.fuse ((otpSpan r).1 + i) = (0, 0, 0)) then otpBlank
  else otpOpen

/-- The lock bits as the lock row reads. -/
def State.lockBits (s : State) : Nat := (s.fuse lockRow).1 % 16

/-- The findings at a word, in the order of their causes. -/
def State.findingsAt (s : State) (w : Nat) : List Finding :=
  let r := otpRegionOf w
  let own : List Finding :=
    if !s.steady w then [⟨w, 1⟩] else if otpDecode (s.fuse w).1 = .double then [⟨w, 2⟩] else []
  if w = lockRow then
    (if s.steady w then [] else [⟨w, 1⟩]) ++
      (if s.regionRead 0 = otpClosed && !bitOf s.lockBits 0 then [⟨w, 4⟩] else []) ++
      (if (List.range 4).any (fun r => bitOf s.lockBits r && s.regionRead r ≠ otpClosed) then [⟨w, 5⟩] else [])
  else
    own ++
      (if w = (otpSpan r).2 && s.regionRead r = otpClosed && (otpDecode (s.fuse w).1).data ≠ s.otpCrc r 0 then [⟨w, 3⟩] else []) ++
      (if w = 31 && s.regionRead 0 ≠ otpClosed then [⟨w, 4⟩] else [])

/-- Every finding, words in ascending order with the lock row last. -/
def State.findings (s : State) : List Finding := (List.range 513).flatMap s.findingsAt

/-- The words corrected: steady words with a single-bit error. -/
def State.correctedWords (s : State) : List Nat :=
  (List.range 512).filter (fun w => s.steady w && match otpDecode (s.fuse w).1 with | .fixed _ => true | _ => false)

/-- The regions' states, their locks, valid only on CLOSED regions, and the corrections are shown (R388, R398). -/
def showReads (s : State) : State :=
  let states := (List.range 4).foldl (fun a r => a + s.regionRead r * 4 ^ r) 0
  let locks := maskOf 4 (fun r => bitOf s.lockBits r && s.regionRead r = otpClosed)
  let s1 := ((s.set OTP_REGION_STATE states).set OTP_REGION_LOCKED locks).set OTP_CNT_CE_CNT s.correctedWords.length
  s.correctedWords.foldl (fun s w => s.pushEvt 0x0D03 0 (packBody [(9, w)])) s1

/-- The first finding is recorded with its three reads (R398, R399). -/
def recordFinding (f : Finding) (n : Nat) (s : State) : State :=
  let (a, b, c) := s.fuse f.word
  let s1 := ((s.set OTP_FAIL_WORD f.word).set OTP_FAIL_CAUSE f.cause).set OTP_FAIL_NFAIL n
  let s2 := ((s1.set (OTP_FAIL_RD_DATA 0) a).set (OTP_FAIL_RD_DATA 1) b).set (OTP_FAIL_RD_DATA 2) c
  ((s2.set OTP_FAIL_CHK_CHK_0 (a / 2 ^ 32)).set OTP_FAIL_CHK_CHK_1 (b / 2 ^ 32)).set OTP_FAIL_CHK_CHK_2 (c / 2 ^ 32)

/-! ### The board profile (R390, R391, R401) -/

/-- What a profile value writes after a soft reset: the fields whose Keep code lacks S take it, the others keep their value. -/
def softMerge (r : Reg) (new old : Word) : Word :=
  r.fields.foldl (fun a f => if ResetKind.soft.keeps f.keep then wordSet a f.lo f.w (wordGet old f.lo f.w) else a) new

/-- A register has a field that the profile reaches after a soft reset. -/
def Reg.softWritten (r : Reg) : Bool := r.fields.any (fun f => f.acc ≠ .ro && !ResetKind.soft.keeps f.keep)

/-- One profile value (R391, R401). -/
def profileValue (soft : Bool) (off : Nat) (v : Word) (s : State) : State :=
  match Reg.ofOff off with
  | some r =>
    if !soft then writeReg .boot r v s else if r.softWritten then writeReg .boot r (softMerge r v (s.word r)) s else s
  | none => (regWrite .boot off v s).2

/-- A WRITE record; one that names a block BOOT may not write is ignored as a whole (R391). -/
def profileWrite (soft : Bool) (off : Nat) (vs : List Word) (s : State) : State :=
  if (List.range vs.length).any (fun i => !s.reaches .boot (off + 4 * i) 0) then s.ignored (Path.source .boot) off
  else vs.zipIdx.foldl (fun s vi => profileValue soft (off + 4 * vi.2) vi.1 s) s

/-- A SEQ record: its words go through the sequence load path (R198); a verified sequence replaces its slot. -/
def profileSeq (ws : List Word) (s : State) : State :=
  let s1 := writeReg .boot ⟨.SEQ_LOAD_CTL, 0, 0, 0⟩ 1 s
  seqSwap (ws.foldl (fun s w => writeReg .boot ⟨.SEQ_LOAD_DATA, 0, 0, 0⟩ w s) s1)

/-- PROFILE_STOP: the source, 0 the OTP profile and 1 the extension, and the word index. -/
def profileStop (src idx : Nat) (s : State) : State :=
  (((s.set OTP_PROF_STOPPED 1).set OTP_PROF_STOP_SRC src).set OTP_PROF_STOP_IDX idx).pushEvt 0x0D04 0 (packBody [(1, src), (16, idx)])

/-- An EXTEND record: offset, length and CRC of its block. -/
structure Ext where
  off : Nat
  len : Nat
  crc : Word
deriving DecidableEq, Repr

/-- How a record reads (R390): the end, a reserved record, or a record and the words it takes. -/
inductive Rec where
  | done
  | bad
  | write (off : Nat) (vs : List Word)
  | seq (ws : List Word)
  | ext (e : Ext)
deriving DecidableEq, Repr

/-- The record at the head of a list of words. `mayExtend`: an EXTEND is allowed here. -/
def parseRec (mayExtend : Bool) : List Word → Rec
  | [] => .done
  | h :: l =>
    match wordGet h 28 4 with
    | 0 => if h = 0 then .done else .bad
    | 1 =>
      let n := wordGet h 20 8 + 1
      if wordGet h 0 2 ≠ 0 ∨ l.length < n then .bad else .write (4 * wordGet h 2 18) (l.take n)
    | 2 =>
      let n := wordGet h 0 8
      if n < 2 ∨ 194 < n ∨ wordGet h 8 20 ≠ 0 ∨ l.length < n then .bad else .seq (l.take n)
    | 3 =>
      let off := wordGet h 0 28
      let len := (l.getD 0 0).toNat
      if !mayExtend ∨ off < 0x700000 ∨ off % 4 ≠ 0 ∨ l.length < 2 ∨ len < 4 ∨ 65536 < len ∨ len % 4 ≠ 0 then .bad
      else .ext { off := off, len := len, crc := l.getD 1 0 }
    | _ => .bad

/-- The words a record takes. -/
def Rec.size : Rec → Nat
  | .write _ vs => 1 + vs.length
  | .seq ws => 1 + ws.length
  | .ext _ => 3
  | _ => 1

/-- The records of a source applied in order, at most `n` of them; the block named by an EXTEND. -/
def applyRecords (soft : Bool) (src base : Nat) : Nat → Nat → List Word → Option Ext → State → Option Ext × State
  | 0, _, _, e, s => (e, s)
  | n + 1, i, ws, e, s =>
    let r := parseRec (src = 0 && e.isNone) ws
    match r with
    | .done => (e, s)
    | .bad => (e, profileStop src (base + i) s)
    | .write off vs => applyRecords soft src base n (i + r.size) (ws.drop r.size) e (profileWrite soft off vs s)
    | .seq l => applyRecords soft src base n (i + r.size) (ws.drop r.size) e (if soft then s else profileSeq l s)
    | .ext x => applyRecords soft src base n (i + r.size) (ws.drop r.size) (some x) s

/-- Step 5: the OTP profile, words 128 to 382; OTP_DONE is set when its application has ended, at END or at a stop. -/
def otpProfile (soft : Bool) (s : State) : Option Ext × State :=
  let ws := (List.range 255).map (fun i => BitVec.ofNat 32 (s.otpWord (128 + i)))
  let r := applyRecords soft 0 128 255 0 ws none s
  (r.1, r.2.set OTP_PROF_OTP_DONE 1)

/-! ### The store header and the extension block (R391, R451) -/

/-- The store header is valid. -/
def headerValid (h : List Byte) : Bool :=
  wordAt h 0 = 0x53545A52 && leNat (bytesAt h 4 2) = 1 && (h.getD 6 0).toNat < 4 && (bytesAt h 7 53).all (· = 0) &&
    crc32c (h.take 60) = wordAt h 60

/-- Step 6, its first part: a valid header gives QUAD and ADDR4. -/
def readHeader (s : State) : State :=
  let h := s.storeBytes 0 64
  let flags := (h.getD 6 0).toNat
  if headerValid h then (s.put MGT_SPI_CFG_QUAD (bitOf flags 0)).put MGT_SPI_CFG_ADDR4 (bitOf flags 1) else s.set OTP_PROF_HDR_BAD 1

/-- PROFILE_EXT_BAD: 1 a CRC mismatch, 2 a block beyond the reach of the addressing mode. -/
def extBad (e : Ext) (cause : Nat) (s : State) : State :=
  (s.set OTP_PROF_EXT_BAD 1).pushEvt 0x0D05 0 (packBody [(28, e.off), (8, cause)])

/-- Step 6, its second part: the extension block. -/
def applyExt (soft : Bool) (e : Option Ext) (s : State) : State :=
  match e with
  | none => s
  | some e =>
    if !s.on MGT_SPI_CFG_ADDR4 ∧ 2 ^ 24 < e.off + e.len then extBad e 2 s
    else
      let b := s.storeBytes e.off e.len
      if crc32c b ≠ e.crc then extBad e 1 s
      else (applyRecords soft 1 0 (e.len / 4) 0 (bytesWords b) none s).2.set OTP_PROF_EXT_DONE 1

/-! ### Images (R353 to R356, R360) -/

/-- Every class runs the Bisque image for one cause; where BOOT has read the selector and found none, none is in force (R364). -/
def bisqueAll (why : Nat) (s : State) : State :=
  recordMixed none (s.each 3 (fun c s =>
    releaseClass c 0 (.bisque why) ((s.set (ENG_IMG_STAT_TRIAL c) 0).when (why = whyNoSelector) (fun s => s.set (ENG_SEL_SEQ c) 0))))

/-- A class as the selector names it, checked. -/
def State.bootImage (s : State) (w : List Word) (c : Nat) : Except Nat ImgInfo :=
  match s.loadable c (selActive w c) with
  | .ok i => .ok { i with commit := selCommit w c }
  | .error e => .error e

/-- A class is released as the decision has it. -/
def releaseBoot (w : List Word) (l : List (Option ImgInfo)) (refs : List Refused) (c : Nat) (s : State) : State :=
  let slot := selActive w c
  let s0 := s.put (ENG_IMG_STAT_TRIAL c) (selTrial w c)
  match s0.bootImage w c, l.getD c none, refs.find? (fun r => r.cls = c) with
  | .error e, _, _ => releaseClass c slot (.bisque e) s0
  | .ok _, some i, _ => releaseClass c slot (.image i) s0
  | .ok _, none, some r => imgEvt c 1 [(2, c), (2, r.a), (2, r.b)] (releaseClass c slot (.bisque whyRefused) s0)
  | .ok _, none, none => releaseClass c slot (.bisque whyRefused) s0

/-- Step 7 with a record in force: the decision for all classes together, and their release; a class in `rolled` has rolled back (R360
step 4). -/
def releaseAll (w : List Word) (rolled : List Nat) (s : State) : State :=
  let found := (List.range 3).map (fun c => match s.bootImage w c with | .ok i => some i | .error _ => none)
  let (l, refs) := decideAll s 4 found
  let s1 := s.each 3 (fun c s => (releaseBoot w l refs c s).when (rolled.contains c) (rollbackEvt c (selActive w c)))
  let acts := (List.range 3).foldl (fun a c => a + selActive w c * 2 ^ c) 0
  recordMixed refs.head? ((s1.set KLN_SLOT_ACT acts).set KLN_SLOT_VALID 1)

/-- The classes in TRIAL whose count has reached 3: they roll back before they are released (R360). -/
def State.rollsBack (s : State) : List Nat :=
  match s.selector with
  | some (_, w) => (List.range 3).filter (fun c => selTrial w c && 3 ≤ s.tries c)
  | none => []

/-- Step 7. -/
def bootImages (mode : Nat) (s : State) : State :=
  if 2 ≤ mode then bisqueAll whyMode s
  else
    let rolled := s.rollsBack
    let s1 := (rolled.foldl (fun s c => rollbackRecord c s) s).each 3 (fun c s => s.set (ENG_IMG_STAT_TRIES c) (s.tries c))
    match s1.selector with
    | none => bisqueAll whyNoSelector s1
    | some (_, w) => releaseAll w rolled (s1.each 3 (fun c s => s.set (ENG_SEL_SEQ c) (w.getD 1 0).toNat))

/-! ### Entry to HELD and to RUN (R399, R400, R425) -/

/-- BOOT ends: STATE_ENTER and RESET_RECORDED. -/
def bootEnds (new : Nat) (s : State) : State :=
  let s1 := enterState new s
  if s1.pkg_.resetDue then
    (s1.raise GLB_EVT_EVT 6 0x0E01 0 [(8, s1.get GLB_RESET_CAUSE), (32, s1.get KLN_TIME_SEC)]).modPkg
      (fun x => { x with resetDue := false })
  else s1

/-- Step 4: the shadows, the identity, the PCIe identifiers (R4, R262), HK0's trim (R219, R392), and the pins' reset enables (R368). -/
def bootShadows (soft : Bool) (s : State) : State :=
  let s1 := showOver (loadShadows s)
  let s2 := (s1.set LNK_ID_LO_ID (s1.otpWord 1)).set LNK_ID_HI_ID (s1.otpWord 2)
  let s3 := (s2.set GLB_STATE_SUFFIX (s2.otpWord 4 / 2 ^ 16 % 2)).set (HK_BUCK_VOUT 0) (s2.otpWord 5)
  let s4 := s3.modHost (fun h => { h with ids := some (s2.otpWord 0 % 2 ^ 16, s2.otpWord 0 / 2 ^ 16) })
  if soft then s4 else pinsSettle s4

/-- Step 8: RUN, the system joined where AUTO_JOIN asks for it (R246), and the rank-2 boot sequence (R200). -/
def bootRun (soft : Bool) (s : State) : State :=
  let s1 := autoJoin (bootEnds pkgRun s)
  if s1.on SEQ_CFG_BOOT_EN && !soft then seqRequest 2 (s1.get SEQ_CFG_BOOT_SEQ) s1 else s1

/-- BOOT_BEGIN (R400): the hub waits for its supplies (R431), those of VDDIO and VDDPWM apart; MODE's pins read 0 while VDDIO_0 is low
(R430). `lo` tells that the activity monitor sees the main LO running, without which BOOT waits (R31); `mode` is what
MODE[1:0] samples, `jedec` what the flash answers, `bad` marks the engines whose load copy meets a double-bit error. -/
def execBootBegin (mode : BitVec 2) (jedec : BitVec 24) (bad : BitVec 12) (lo : Bool) (s : State) : Out :=
  .next <|
    if s.pkg ≠ pkgBoot ∨ s.pkg_.supplyOut % 2 ^ 9 ≠ 0 ∨ !lo then s
    else
      let s := showLoStb (s.modPkg (fun x => { x with loRuns := true, resetHold := false }))
      let soft := s.pkg_.bootSoft
      let m := if bitOf s.pin.bankLow 0 then 0 else mode.toNat
      let s1 := hkPg 0 true ((s.set HOST_MODE_MODE (m % 2)).set GLB_STATE_MODE (m % 2))
      let s2 := showOver (showReads s1)
      match s2.findings with
      | f :: l => (bootEnds pkgHeld (recordFinding f (l.length + 1) (s2.when soft heldOff))).modPkg (fun x => { x with blink := 0 })
      | [] =>
        let s3 := (bootShadows soft s2).set MGT_SPI_STAT_JEDEC jedec.toNat
        let (e, s4) := otpProfile soft s3
        let s5 := if m < 2 then applyExt soft e (readHeader s4) else s4
        bootRun soft (withLoads bad.toNat (bootImages m) s5)

end Sys2Proof.Machine
end

