-- ==== Sys2Proof/Machine/Burst.lean ====
section
/-! DEFINITION. Sys2Proof/Machine/Burst.lean: the data of a burst on its way, its end, and the faults of a channel (R322, R325, R332 to
R338, R341). -/

namespace Sys2Proof.Machine

/-! ### Where the bytes go (R323, R332 to R334) -/

/-- The same space `n` bytes on. -/
def Space.plus (n : Nat) : Space → Space
  | .host a => .host (a + n)
  | .reg a => .reg (a + n)
  | .eng e a => .eng e (a + n)
  | .bad => .bad

/-- Contiguous bytes gathered into runs, newest first, each run's bytes reversed. -/
def gather : List (Space × Byte) → List (Space × List Byte) → List (Space × List Byte)
  | [], acc => acc
  | (sp, b) :: l, (sp0, bs) :: acc =>
    if sp = sp0.plus bs.length then gather l ((sp0, b :: bs) :: acc) else gather l ((sp, [b]) :: (sp0, bs) :: acc)
  | (sp, b) :: l, [] => gather l [(sp, [b])]

/-- One run is written to host memory or to an engine's data memory. -/
def emitRun (ch : Nat) (r : Space × List Byte) (s : State) : State :=
  match r.1 with
  | .host a => s.emit (.host (s.get (DMA_CCTL_XCTX ch)) a r.2.reverse)
  | .eng e a => engWrite e a r.2.reverse s
  | _ => s

/-- A byte joins the register word it belongs to: the word's offset, its byte enables and its value. -/
def wordJoin (a : Nat) (b : Byte) : List (Nat × Nat × Nat) → List (Nat × Nat × Nat)
  | [] => [(a / 4 * 4, 2 ^ (a % 4), b.toNat * 2 ^ (8 * (a % 4)))]
  | e :: l =>
    if e.1 = a / 4 * 4 then (e.1, e.2.1 ||| 2 ^ (a % 4), e.2.2 + b.toNat * 2 ^ (8 * (a % 4))) :: l else e :: wordJoin a b l

/-- The register words that bytes make, in the order of their first bytes (R323). -/
def regJoin (l : List (Space × Byte)) : List (Nat × Nat × Nat) :=
  l.foldl (fun ws e => match e.1 with | .reg a => wordJoin a e.2 ws | _ => ws) []

/-- BITPLANE of one group (R334): byte j of the result holds bit j of eight samples of L / 8 bytes each. -/
def bitplaneGroup (lanes : Nat) (g : List Byte) : List Byte :=
  let n := lanes / 8
  (List.range lanes).map (fun j =>
    BitVec.ofNat 8 (maskOf 8 (fun i => bitOf ((g.getD (i * n + j / 8) 0).toNat) (j % 8))))

/-- The bytes as the reshuffle leaves them, group by group; the other reshuffles only move their places. -/
def Desc.transform (d : Desc) (b : List Byte) : List Byte :=
  if d.shuf = 3 then (List.range (b.length / d.lanes)).flatMap (fun g => bitplaneGroup d.lanes ((b.drop (g * d.lanes)).take d.lanes)) else b

/-- The Wheel's chunk window of a line to a device (R324). -/
def chunkReg (l : Nat) : Reg := ⟨.RMP_CHUNK, l - 8, 0, 0⟩

/-- Bytes of a stream from offset `off` on reach their destination, registers one word at a time: a word the burst does not fill is a write
with short byte enables (R36, R323). On a line to a device, `pos` bytes of the unit have gone before. -/
def deliver (ch : Nat) (d : Desc) (off pos : Nat) (b : List Byte) (s : State) : State :=
  match s.lineOf ch with
  | some l =>
    if lineIsSink l then (regWrites (.dma (Fin.ofNat 32 ch)) ((chunkReg l).off + pos) 0 (bytesWords b) s).2
    else memory s
  | none => memory s
where
  memory (s : State) : State :=
    let run := (d.transform b).zipIdx.map (fun bi => (s.reach ch d true (off + bi.2), bi.1))
    let s1 := (regJoin run).foldl (fun s w => (regWriteBe (.dma (Fin.ofNat 32 ch)) w.1 w.2.1 (BitVec.ofNat 32 w.2.2) s).2) s
    ((gather run []).reverse).foldl (fun s r => emitRun ch r s) s1

/-- The register words that `n` bytes of a stream from offset `off` on are read from, each once (R323). -/
def State.regSources (s : State) (ch : Nat) (d : Desc) (off n : Nat) : List Nat :=
  (List.range n).foldl (fun l k =>
    match s.reach ch d false (off + k) with
    | .reg a => if l.contains (a / 4 * 4) then l else l ++ [a / 4 * 4]
    | _ => l) []

/-- Registers read one after another, with their offsets. -/
def regFetch (ch : Nat) : List Nat → State → List (Nat × Word) × State
  | [], s => ([], s)
  | a :: l, s =>
    let x := regRead (.dma (Fin.ofNat 32 ch)) a s
    let y := regFetch ch l x.2
    ((a, x.1) :: y.1, y.2)

/-- What engines' programs have left in the bytes of their data memories that a burst reads (log entry 31). -/
def engSourceLands (ch : Nat) (d : Desc) (off : Nat) (src : List Byte) (s : State) : State :=
  ((gather (src.zipIdx.map (fun bi => (s.reach ch d false (off + bi.2), bi.1))) []).reverse).foldl
    (fun s r => match r.1 with | .eng e a => engStore e a r.2.reverse s | _ => s) s

/-- The bytes of a burst's source: the unit a line took, registers read, an engine's data memory, or what host memory gave. -/
def sourceBytes (ch : Nat) (d : Desc) (b : Burst) (n : Nat) (src : List Byte) (s : State) : List Byte × State :=
  match b.data with
  | some u => (bytesAt u 0 n, s)
  | none =>
    match s.space ch (d.base false) with
    | .reg _ =>
      let x := regFetch ch (s.regSources ch d b.off n) s
      ((List.range n).map (fun k => match s.reach ch d false (b.off + k) with
        | .reg a => (wordBytes ((x.1.lookup (a / 4 * 4)).getD 0)).getD (a % 4) 0
        | _ => 0), x.2)
    | .eng _ _ =>
      let s1 := engSourceLands ch d b.off (bytesAt src 0 n) s
      ((List.range n).map (fun k => match s1.reach ch d false (b.off + k) with
        | .eng e a => if s1.linked dieC (dieOfEngine e) then memGet 0 (bankGet s1.engMem e).data a else 0xFF
        | _ => 0), s1)
    | _ => (bytesAt src 0 n, s)

/-- The memory behind a register that a read of it reads, its unit and the word, as `doubleBit` numbers them (R42, R332). -/
def Reg.memWord (r : Reg) : Option (Nat × Nat × Nat) :=
  match r.name with
  | .SYN_BAND => some (memBand, r.i, 4 * r.j + r.k)
  | .SYN_SLOT => some (memSlots, r.i, 16 * r.j + r.k)
  | .TRG_HENT_LO => some (memTable, r.i, 2 * r.j)
  | .TRG_HENT_HI => some (memTable, r.i, 2 * r.j + 1)
  | .SEQ_STEP => some (memSeq, 0, 192 * r.i + 3 * r.j + r.k)
  | _ => if 0x4000 ≤ r.off ∧ r.off < 0x4100 then some (memKiln, 0, (r.off - 0x4000) / 4) else none

/-- The word at an address of a space. -/
def Space.word : Space → Space
  | .host a => .host (a / 4)
  | .reg a => .reg (a / 4)
  | .eng e a => .eng e (a / 4)
  | .bad => .bad

/-- The bytes of a stream that lie in the word of its byte `i` delivered as zero (R332). -/
def State.zeroWord (s : State) (ch : Nat) (d : Desc) (off i : Nat) (b : List Byte) : List Byte :=
  b.zipIdx.map (fun bk => if (s.reach ch d false (off + bk.2)).word = (s.reach ch d false (off + i)).word then 0 else bk.1)

/-- A memory word that a burst reads has a double-bit error (R42, R332). -/
def wordBad (mem unit addr : Nat) (s : State) : State := poisoned (memDie mem unit) mem addr (doubleBit mem unit addr s)

/-- A double-bit error in a hub memory, met at byte `i` of a burst (R332): the word is delivered as zero, POISONED raised, and the error has
its effect on what the memory serves (R42). Host memory and registers that no memory holds have none. -/
def poisonWord (ch : Nat) (d : Desc) (b : Burst) (dbe : Option (BitVec 9)) (x : List Byte × State) : List Byte × State × Bool :=
  match dbe.filter (fun i => i.toNat < x.1.length) with
  | none => (x.1, x.2, false)
  | some i =>
    let k := i.toNat
    let s := x.2
    match b.data, (s.lineOf ch).getD 26 with
    | some _, l =>
      let w (k : Nat) : Nat := (b.gone + k) / 4
      let s1 := if 4 ≤ l && l < 8 then wordBad memTable (l - 4) (2 * b.first + w k) s
        else poisoned (lineMemory l).1 (lineMemory l).2 (w k) s
      (x.1.zipIdx.map (fun bk => if w bk.2 = w k then 0 else bk.1), s1, true)
    | none, _ =>
      let hit (f : State → State) : List Byte × State × Bool := (s.zeroWord ch d b.off k x.1, f s, true)
      match s.reach ch d false (b.off + k) with
      | .eng e a => hit (wordBad memData e (a / 4))
      | .reg a =>
        match Reg.ofOff (a / 4 * 4) with
        | some r =>
          if r.name = .PRG_TLM_BUF then hit (poisoned dieP memFrame r.j)
          else match r.memWord with
            | some m => hit (wordBad m.1 m.2.1 m.2.2)
            | none => (x.1, s, false)
        | none => (x.1, s, false)
      | _ => (x.1, s, false)

/-! ### A burst completes (R322, R325, R336) -/

/-- A unit of a request line has moved: its request leaves, and the descriptor ends in PERIODIC mode or when it is full (R325). -/
def unitDone (ch : Nat) (d : Desc) (s : State) : State :=
  let rest := (s.dmaOf ch).reqs.drop 1
  let s1 := s.modDma ch (fun x => { x with reqs := rest })
  let st := if d.bad then 0x03 else 0x00
  if s.on (DMA_CCTL_RMODE ch) then finishDesc ch d st d.residue s1
  else if d.done = d.total then finishDesc ch d st 0 s1
  else fitUnit ch s1

/-- What follows once the bytes of the oldest burst have moved. -/
def burstDone (ch : Nat) (d : Desc) (s : State) : State :=
  let s1 := showProgress ch d (s.modDma ch (fun x => { x with cur := some d, bursts := x.bursts.drop 1 }))
  let s2 := if (s.lineOf ch).isSome then unitDone ch d s1
    else if d.done = d.total then finishDesc ch d (if d.bad then 0x03 else 0x00) 0 s1
    else s1
  match (s2.dmaOf ch).abort with
  | some st => if (s2.dmaOf ch).bursts.isEmpty then haltChannel ch st s2 else s2
  | none => settle ch s2

/-- BURST_COMPLETE (R322, R332): the oldest burst of a channel ends; `src` is what host or engine memory gave, in stream order, `dbe` the
byte at which a double-bit error was met. -/
def execBurstComplete (ch : Fin 32) (src : List Byte) (dbe : Option (BitVec 9)) (s : State) : Out :=
  .next <|
    let x := s.dmaOf ch
    match x.cur, x.bursts with
    | some d, b :: _ =>
      if (s.chState ch = chActive ∨ s.chState ch = chStopped) ∧ b.need = [] ∧ b.bad = none then
        let (data, s1, bad) := poisonWord ch d b dbe (sourceBytes ch d b b.len src s)
        let s2 := deliver ch d b.off b.gone data s1
        showDma (burstDone ch { d with done := b.off + b.len, bad := d.bad || bad } s2)
      else s
    | _, _ => s

/-! ### Faults (R338, R341, R342) -/

/-- Whole words only reach registers; whole groups only a reshuffle (R323, R335). -/
def State.cut (s : State) (ch : Nat) (d : Desc) (off : Nat) : Nat :=
  if d.shuf ≠ 0 then off / d.group * d.group
  else
    match s.deviceSide ch true, s.space ch (d.base true) with
    | true, _ => off / 4 * 4
    | false, .reg _ => off / 4 * 4
    | false, _ => off

/-- The oldest burst meets its fault: every byte before it is moved, the later bursts issue no writes. -/
def truncateBurst (ch : Nat) (d : Desc) (b : Burst) (f : XFault) (src : List Byte) (s : State) : State :=
  let upto := max b.off (s.cut ch d f.off)
  let n := upto - b.off
  let (data, s1) := sourceBytes ch d b n src s
  let s2 := deliver ch d b.off b.gone data s1
  let d' := { d with done := upto, granted := if (s.lineOf ch).isSome then d.granted else upto }
  let rest : Option Burst := if (s.lineOf ch).isSome then
    some { off := upto, len := b.len - n, data := b.data.map (·.drop n), gone := b.gone + n, first := b.first } else none
  let s3 := s2.modDma ch (fun x => { x with cur := some d', bursts := [], rest := rest })
  faultChannel ch f (showProgress ch d' s3)

/-- The address of a fetch that faults: 0 the descriptor's entry, 1 its extension's, 2 a word of its index table, which is read once the
descriptor has passed its checks (R320, R321, R338). -/
def State.fetchAt (s : State) (ch kind a : Nat) (d : Desc) : Bool :=
  match kind with
  | 0 => a = s.ringAddr ch d.idx
  | 1 => extended (d.w 0) && a = s.ringAddr ch ((d.idx + 1) % s.ringSize ch)
  | _ => d.pat = 2 && Desc.own (d.w 0) && Desc.own (d.x 0) && s.descOk ch d && d.sum ≠ 0 && d.tableAddr ≤ a &&
      a < d.tableAddr + 4 * wordGet (d.x 0) 0 24

/-- DMA_FAULT (R338): the oldest burst has met a fault, `src` what its source gave before it; or the fetch of a descriptor, an extension or
an index table (`fetch`: 0, 1, 2) faults at an address with a cause and level, which a translation in hand gives instead. `head` and `ext`
are the words fetched before it; the descriptor whose table faults is the channel's current one. -/
def execDmaFault (ch : Fin 32) (src : List Byte) (fetch : Option (Fin 3 × BitVec 48 × Fin 5 × Fin 4)) (head ext : List Word)
    (s : State) : Out :=
  .next <|
    let x := s.dmaOf ch
    match fetch with
    | some (kind, a, why, level) =>
      let d := s.descAt ch head ext []
      let known := s.translate (s.get (DMA_CCTL_XCTX ch)) (a.toNat / 4096) 0
      if s.mayFetch ch ∧ s.hostOwned ch ∧ s.get (DMA_CCTL_XCTX ch) < 16 ∧ s.fetchAt ch kind a.toNat d ∧ known ≠ some none then
        let f := (known.join).getD (why, level + 1)
        showDma (faultChannel ch { off := 0, cause := if kind = 2 then 3 else 2, addr := a.toNat, xlate := true, why := f.1, level := f.2 }
          (s.when (kind = 2) (takeUp ch d)))
      else s
    | none =>
      match x.cur, x.bursts with
      | some d, b :: _ =>
        match b.bad with
        | some f =>
          if (s.chState ch = chActive ∨ s.chState ch = chStopped) ∧ b.need = [] then showDma (truncateBurst ch d b f src s) else s
        | none => s
      | _, _ => s

end Sys2Proof.Machine
end

