-- ==== Sys2Proof/Machine/Pmbus.lean ====
section
/-! DEFINITION. Sys2Proof/Machine/Pmbus.lean: the PMBus port: transactions, formats, and one meaning per command (R296 to R300,
R304). -/

namespace Sys2Proof.Machine

/-! ### Formats (R299) -/

/-- Division of a signed number to the nearest, for a positive divisor. -/
def nearest (a : Int) (b : Nat) : Int := roundDivInt a b

/-- A LINEAR11 word times `k`, to the nearest whole number. -/
def lin11Times (w k : Nat) : Int :=
  let m := toSigned 11 (w % 2 ^ 11)
  let e := toSigned 5 (w / 2 ^ 11)
  if 0 ≤ e then m * (k * 2 ^ e.toNat : Nat) else nearest (m * k) (2 ^ (-e).toNat)

/-- `k` divided by a LINEAR11 word, to the nearest; none where the word is not positive. -/
def lin11Under (w k : Nat) : Option Int :=
  let m := toSigned 11 (w % 2 ^ 11)
  let e := toSigned 5 (w / 2 ^ 11)
  if m ≤ 0 then none
  else if 0 ≤ e then some (roundDiv k (m.toNat * 2 ^ e.toNat) : Nat)
  else some (roundDiv (k * 2 ^ (-e).toNat) m.toNat : Nat)

/-- The LINEAR11 word of `a / b`: the smallest exponent whose mantissa fits (log entry 60). -/
def toLin11 (a : Int) (b : Nat) : Nat :=
  let mant (e : Int) : Int := if 0 ≤ e then nearest a (b * 2 ^ e.toNat) else nearest (a * (2 ^ (-e).toNat : Nat)) b
  let es : List Int := (List.range 32).map (fun i => (i : Int) - 16)
  match es.find? (fun e => -1024 ≤ mant e && mant e ≤ 1023) with
  | some e => ofSigned 5 e * 2 ^ 11 + ofSigned 11 (mant e)
  | none => 0

/-! ### Transactions (R296 to R298) -/

def pmbPage (s : State) : Nat := s.get MGT_PMB_STAT_PAGE

/-- The rails a write addresses: the page, or every rail (R298). -/
def pmbRails (s : State) : List Nat := if pmbPage s = 0xFF then List.range 24 else [pmbPage s]

/-- A command that WRITE_PROTECT forbids (PMBus Part II; log entry 61). -/
def writeProtected (wp code : Nat) : Bool :=
  if wp = 0x80 then code ≠ 0x10
  else if wp = 0x40 then !([0x10, 0x01, 0x00].contains code)
  else if wp = 0x20 then !([0x10, 0x01, 0x00, 0x02, 0x21].contains code)
  else false

/-- The registers of a rail. -/
def prgReg (n : RegName) (r : Nat) : Reg := ⟨n, r / 6, r % 6, 0⟩

/-- The register a command of a rail maps to (R299, R300). -/
def pmbMaps (code r : Nat) : Option Reg :=
  match code with
  | 0x01 => some (prgReg .PRG_RCTL r)
  | 0x03 => some ⟨.FLT_RSTAT, r, 0, 0⟩
  | 0x21 => some (prgReg .PRG_VID r)
  | 0x27 => some (prgReg .PRG_SLEW r)
  | 0x33 => some (prgReg .PRG_FSW r)
  | 0x40 => some ⟨.FLT_OV, r, 0, 0⟩
  | 0x41 => some ⟨.FLT_OV, r, 0, 0⟩
  | 0x44 => some ⟨.FLT_UV, r, 0, 0⟩
  | 0x45 => some ⟨.FLT_UV, r, 0, 0⟩
  | 0x46 => some ⟨.FLT_OC, r, 0, 0⟩
  | 0x47 => some ⟨.FLT_OC, r, 0, 0⟩
  | 0x4F => some ⟨.FLT_OT, r, 0, 0⟩
  | 0x50 => some ⟨.FLT_OT, r, 0, 0⟩
  | 0x7A => some ⟨.FLT_RSTAT, r, 0, 0⟩
  | 0x7B => some ⟨.FLT_RSTAT, r, 0, 0⟩
  | 0x7D => some ⟨.FLT_RSTAT, r, 0, 0⟩
  | 0x8B => some (prgReg .PRG_RMEAS r)
  | 0x8C => some (prgReg .PRG_RMEAS r)
  | 0x8D => some (prgReg .PRG_TMON r)
  | 0xD4 => some (prgReg .PRG_RSTAT r)
  | 0xD5 => some ⟨.PRG_TBSTAT, r / 6, 0, 0⟩
  | _ => none

/-- The address an ignored command records (R12): the offset of the register it maps to on the first rail it addresses, the offset
MFR_REG_DATA would reach, and the command code where no one register stands behind it (log entry 62). -/
def State.pmbAddr (s : State) (code : Nat) : Nat :=
  if code = 0xD1 then s.mgt.regAddr
  else match pmbMaps code ((pmbRails s).headD 0) with
    | some r => r.off
    | none => code

/-- A command refused as a whole: one ignored action of PMB. -/
def pmbRefuse (code : Nat) (s : State) : WRes × State := (.ignored, s.ignored 0x04 (s.pmbAddr code))

/-- PMBus writes are locked: HOSTED with WR_LOCK = 1 (R294). PAGE and MFR_REG_ADDR write no BAR0 offset: they only say what a read or
MFR_REG_DATA reaches; and MFR_REG_DATA is judged with its register, since the lock leaves the command mailbox free (log entry 69). -/
def State.pmbLocked (s : State) (code : Nat) : Bool :=
  s.on HOST_MODE_MODE && s.on MGT_CFG_WR_LOCK && !([0x00, 0xD0, 0xD1].contains code)

/-- A write, applied at STOP (R294, R296, R297): PEC, the lock, write protection, then what the command does; a refusal sets a bit of
STATUS_CML. -/
def pmbWrite (code : Nat) (pec : Pec) (f : State → WRes × State) (s : State) : State :=
  if !s.pathOpen .pmb true then s
  else if pec = .bad then
    ((s.modMgt (fun m => { m with cmlPec := true })).bump MGT_PMB_STAT_PEC_CNT).raise MGT_EVT_EVT 2 0x0902 0 [(8, code)]
  else if pec = .absent ∧ s.on MGT_PMB_CFG_PEC_REQ then s
  else if writeProtected (s.get MGT_PMB_STAT_WP) code then (pmbRefuse code s).2.modMgt (fun m => { m with cmlCmd := true })
  else
    let r := if s.pmbLocked code then pmbRefuse code s else f s
    if r.1 = .ignored then r.2.modMgt (fun m => { m with cmlData := true }) else r.2

/-- A write made on every addressed rail; it is refused if any of them refuses. -/
def onRails (f : Nat → State → WRes × State) (s : State) : WRes × State :=
  (pmbRails s).foldl (fun a r => let b := f r a.2; (if a.1 = .ignored then a.1 else b.1, b.2)) (.applied, s)

/-- An answer. -/
def answer (b : List Byte) (s : State) : State := s.emit (.pmb b)

/-- A read of a package command. -/
def pmbRead (f : State → List Byte) (s : State) : State := if s.pathOpen .pmb false then answer (f s) s else s

/-- A read of a command that PAGE applies to, answered in `n` bytes: with PAGE 0xFF, 0xFF in every byte and an ignored action (R298). -/
def pagedRead (code n : Nat) (f : State → State) (s : State) : State :=
  if !s.pathOpen .pmb false then s
  else if pmbPage s = 0xFF then answer (List.replicate n 0xFF) (pmbRefuse code s).2
  else f s

/-- A read of a rail's command, `n` bytes: from an isolated P-die all ones (R36). -/
def railRead (code n : Nat) (f : Nat → State → List Byte) : State → State :=
  pagedRead code n (fun s => answer (if s.isolated dieP then List.replicate n 0xFF else f (pmbPage s) s) s)

/-- A free value read where the spec gives no encoding for what the register holds. -/
def railReadFree (code n : Nat) (known : Nat → State → Option (List Byte)) (s : State) : State :=
  if pmbPage s ≠ 0xFF && s.pathOpen .pmb false && !s.isolated dieP && (known (pmbPage s) s).isNone then
    let (v, s1) := s.draw
    answer (natBytes n v) s1
  else railRead code n (fun r s => (known r s).getD []) s

/-- A register field written on PMBus: the other fields keep their values. -/
def pmbField (r : Reg) (lo n v : Nat) (s : State) : WRes × State := regWrite .pmb r.off (wordSet (s.word r) lo n v) s

/-- A write of one value to every addressed rail, refused once where the value lies outside its range (R12, R299). -/
def onRailsIf (ok : Bool) (code : Nat) (f : Nat → State → WRes × State) (s : State) : WRes × State :=
  if ok then onRails f s else pmbRefuse code s

/-- A value within bounds goes to a field of every addressed rail's register. -/
def pmbBounded (code : Nat) (reg : Nat → Reg) (lo n : Nat) (v : Int) (a b : Nat) : State → WRes × State :=
  onRailsIf ((a : Int) ≤ v && v ≤ b) code (fun r => pmbField (reg r) lo n v.toNat)

/-! ### Commands of R299 -/

/-- PAGE (R298). -/
def execPage (wr : Option Byte) (pec : Pec) (s : State) : Out :=
  .next <|
    match wr with
    | some b => pmbWrite 0x00 pec (fun s =>
        if b.toNat ≤ 0x17 ∨ b.toNat = 0xFF then (.applied, s.set MGT_PMB_STAT_PAGE b.toNat) else pmbRefuse 0x00 s) s
    | none => pagedRead 0x00 1 (fun s => answer (natBytes 1 (pmbPage s)) s) s

/-- OPERATION on one rail: EN and, at an off code, STOP_MODE, in one write of PRG_RCTL. -/
def operation (code r : Nat) (s : State) : WRes × State :=
  let reg := prgReg .PRG_RCTL r
  if code = 0x80 then pmbField reg 0 1 1 s
  else
    let w := wordSet (wordSet (s.word reg) 0 1 0) 1 1 (if code = 0x40 then 0 else 1)
    let x := regWrite .pmb reg.off w s
    (x.1, if x.1 = .applied then x.2.modMgt (fun m => { m with offCode := m.offCode.setIfInBounds r code }) else x.2)

/-- OPERATION. -/
def execOperation (wr : Option Byte) (pec : Pec) (s : State) : Out :=
  .next <|
    match wr with
    | some b => pmbWrite 0x01 pec (fun s =>
        onRailsIf ([0x80, 0x40, 0x00].contains b.toNat) 0x01 (operation b.toNat) s) s
    | none => railRead 0x01 1 (fun r s => natBytes 1 (if s.on (PRG_RCTL_EN r) then 0x80 else bankGet s.mgt.offCode r)) s

/-- ON_OFF_CONFIG: 0x18 and nothing else. -/
def execOnOffConfig (wr : Option Byte) (pec : Pec) (s : State) : Out :=
  .next <|
    match wr with
    | some b => pmbWrite 0x02 pec (fun s => if b = 0x18 then (.applied, s) else pmbRefuse 0x02 s) s
    | none => pagedRead 0x02 1 (answer [0x18]) s

/-- CLEAR_FAULTS: the page's latches, subject to R209, and STATUS_CML. -/
def execClearFaults (pec : Pec) (s : State) : Out :=
  .next <| pmbWrite 0x03 pec (fun s =>
    let r := onRails (fun r s => regWrite .pmb (⟨.FLT_RSTAT, r, 0, 0⟩ : Reg).off 0xF s) s
    (r.1, r.2.modMgt (fun m => { m with cmlCmd := false, cmlData := false, cmlPec := false }))) s

/-- WRITE_PROTECT. -/
def execWriteProtect (wr : Option Byte) (pec : Pec) (s : State) : Out :=
  .next <|
    match wr with
    | some b => pmbWrite 0x10 pec (fun s =>
        if [0x80, 0x40, 0x20, 0x00].contains b.toNat then (.applied, s.set MGT_PMB_STAT_WP b.toNat) else pmbRefuse 0x10 s) s
    | none => pmbRead (fun s => natBytes 1 (s.get MGT_PMB_STAT_WP)) s

/-- The commands the port lets a controller write, and read (R299, R300). -/
def pmbWritable (code : Nat) : Bool :=
  [0x00, 0x01, 0x02, 0x03, 0x10, 0x21, 0x27, 0x33, 0x40, 0x41, 0x44, 0x45, 0x46, 0x47, 0x4F, 0x50, 0x7E, 0xD0, 0xD1, 0xD3].contains code
def pmbReadable (code : Nat) : Bool :=
  [0x00, 0x01, 0x02, 0x10, 0x19, 0x20, 0x21, 0x27, 0x33, 0x40, 0x41, 0x44, 0x45, 0x46, 0x47, 0x4F, 0x50, 0x78, 0x79, 0x7A, 0x7B, 0x7D,
    0x7E, 0x88, 0x8B, 0x8C, 0x8D, 0x98, 0x99, 0x9A, 0x9B, 0xD0, 0xD1, 0xD2, 0xD4, 0xD5, 0xD6].contains code

/-- A write of an unsupported command (R297): an ignored action, and the CML bit for an invalid command. -/
def pmbUnsupported (code : Nat) (pec : Pec) : State → State :=
  pmbWrite code pec (fun s => (.dropped, (pmbRefuse code s).2.modMgt (fun m => { m with cmlCmd := true })))

/-- CAPABILITY: 0xD0. With `other`, a transaction of a command the port does not support in that direction (R297; log entry 132): a write,
or a read of n bytes, 0xFF in every byte. -/
def execCapability (other : Option (Byte × Pec × Option (Fin 33))) (s : State) : Out :=
  .next <|
    match other with
    | none => pmbRead (fun _ => [0xD0]) s
    | some (c, pec, none) => if pmbWritable c.toNat then s else pmbUnsupported c.toNat pec s
    | some (c, _, some n) => if pmbReadable c.toNat then s else pmbRead (fun _ => List.replicate n 0xFF) s

/-- VOUT_MODE. -/
def execVoutMode (s : State) : Out := .next (pagedRead 0x20 1 (answer [0x14]) s)

/-- VOUT_COMMAND: 0.250 V to 3.600 V in steps of 1.25 mV. -/
def execVoutCommand (wr : Option (BitVec 16)) (pec : Pec) (s : State) : Out :=
  .next <|
    match wr with
    | some w => pmbWrite 0x21 pec (fun s =>
        onRailsIf (1024 ≤ w.toNat && 1000 * w.toNat ≤ 3600 * 4096) 0x21
          (fun r => pmbField (prgReg .PRG_VID r) 0 12 (roundDiv (25 * w.toNat) 128 - 200)) s) s
    | none => railRead 0x21 2 (fun r s => natBytes 2 (roundDiv ((s.get (PRG_VID_VID r) + 200) * 512) 100)) s

/-- VOUT_TRANSITION_RATE: SLEW in 0.25 mV/µs. -/
def execVoutTransitionRate (wr : Option (BitVec 16)) (pec : Pec) (s : State) : Out :=
  .next <|
    match wr with
    | some w => pmbWrite 0x27 pec (pmbBounded 0x27 (prgReg .PRG_SLEW) 0 8 (lin11Times w.toNat 4) 1 200) s
    | none => railRead 0x27 2 (fun r s => natBytes 2 (toLin11 (s.get (PRG_SLEW_SLEW r)) 4)) s

/-- FREQUENCY_SWITCH: PERIOD in grid steps. -/
def execFrequencySwitch (wr : Option (BitVec 16)) (pec : Pec) (s : State) : Out :=
  .next <|
    match wr with
    | some w => pmbWrite 0x33 pec (pmbBounded 0x33 (prgReg .PRG_FSW) 0 15 ((lin11Under w.toNat 6400000).getD 0) 1600 25600) s
    | none => railRead 0x33 2 (fun r s => natBytes 2 (toLin11 6400000 (s.get (PRG_FSW_PERIOD r)))) s

/-- A voltage limit, from 1 to 1,023: MODE = ABS and THR in 4 mV. -/
def voltageLimit (code : Nat) (n : RegName) (w : BitVec 16) : State → WRes × State :=
  let thr := roundDiv (125 * w.toNat) 2048
  onRailsIf (1 ≤ thr && thr ≤ 1023) code (fun r s =>
    let reg : Reg := ⟨n, r, 0, 0⟩
    regWrite .pmb reg.off (wordSet (wordSet (s.word reg) 0 10 thr) 10 1 0) s)

/-- A voltage limit as read: known in ABS mode. -/
def limitRead (mode thr : Nat → Fld) (r : Nat) (s : State) : Option (List Byte) :=
  if s.get (mode r) = 0 then some (natBytes 2 (roundDiv (s.get (thr r) * 2048) 125)) else none

/-- VOUT_OV_FAULT_LIMIT. -/
def execVoutOvFaultLimit (wr : Option (BitVec 16)) (pec : Pec) (s : State) : Out :=
  .next <|
    match wr with
    | some w => pmbWrite 0x40 pec (voltageLimit 0x40 .FLT_OV w) s
    | none => railReadFree 0x40 2 (limitRead FLT_OV_MODE FLT_OV_THR) s

/-- VOUT_UV_FAULT_LIMIT. -/
def execVoutUvFaultLimit (wr : Option (BitVec 16)) (pec : Pec) (s : State) : Out :=
  .next <|
    match wr with
    | some w => pmbWrite 0x44 pec (voltageLimit 0x44 .FLT_UV w) s
    | none => railReadFree 0x44 2 (limitRead FLT_UV_MODE FLT_UV_THR) s

/-- The fault response codes of R299: REPORT, refused for OV, and RAIL with its retries. -/
def responseOk (ov : Bool) (b : Nat) : Bool :=
  b % 8 = 0 && b / 8 % 8 ≠ 7 && ((b / 64 = 0 && !ov) || b / 64 = 2)

/-- A fault response: ACT, then RETRY for RAIL. `act` is the ACT field. -/
def faultResponse (code : Nat) (act : Nat → Fld) (ov : Bool) (b : Byte) : State → WRes × State :=
  onRailsIf (responseOk ov b.toNat) code (fun r s =>
    let f := act r
    let x := pmbField f.reg f.lo f.w (b.toNat / 128) s
    if b.toNat / 64 = 2 ∧ x.1 = .applied then pmbField ⟨.FLT_RETRY, r, 0, 0⟩ 0 3 (b.toNat / 8 % 8) x.2 else x)

/-- A fault response as read: known for REPORT and RAIL. -/
def responseRead (act : Nat → Fld) (r : Nat) (s : State) : Option (List Byte) :=
  match s.get (act r) with
  | 0 => some [0x00]
  | 1 => some (natBytes 1 (0x80 + 8 * s.get (FLT_RETRY_RETRY r)))
  | _ => none

/-- VOUT_OV_FAULT_RESPONSE. -/
def execVoutOvFaultResponse (wr : Option Byte) (pec : Pec) (s : State) : Out :=
  .next <|
    match wr with
    | some b => pmbWrite 0x41 pec (faultResponse 0x41 FLT_OV_ACT true b) s
    | none => railReadFree 0x41 1 (responseRead FLT_OV_ACT) s

/-- VOUT_UV_FAULT_RESPONSE. -/
def execVoutUvFaultResponse (wr : Option Byte) (pec : Pec) (s : State) : Out :=
  .next <|
    match wr with
    | some b => pmbWrite 0x45 pec (faultResponse 0x45 FLT_UV_ACT false b) s
    | none => railReadFree 0x45 1 (responseRead FLT_UV_ACT) s

/-- IOUT_OC_FAULT_RESPONSE. -/
def execIoutOcFaultResponse (wr : Option Byte) (pec : Pec) (s : State) : Out :=
  .next <|
    match wr with
    | some b => pmbWrite 0x47 pec (faultResponse 0x47 FLT_OC_ACT false b) s
    | none => railReadFree 0x47 1 (responseRead FLT_OC_ACT) s

/-- OT_FAULT_RESPONSE. -/
def execOtFaultResponse (wr : Option Byte) (pec : Pec) (s : State) : Out :=
  .next <|
    match wr with
    | some b => pmbWrite 0x50 pec (faultResponse 0x50 FLT_OT_ACT false b) s
    | none => railReadFree 0x50 1 (responseRead FLT_OT_ACT) s

/-- IOUT_OC_FAULT_LIMIT: OC_THR in 0.5 A. -/
def execIoutOcFaultLimit (wr : Option (BitVec 16)) (pec : Pec) (s : State) : Out :=
  .next <|
    match wr with
    | some w => pmbWrite 0x46 pec (pmbBounded 0x46 (fun r => ⟨.FLT_OC, r, 0, 0⟩) 0 8 (lin11Times w.toNat 2) 1 255) s
    | none => railRead 0x46 2 (fun r s => natBytes 2 (toLin11 (s.get (FLT_OC_OC_THR r)) 2)) s

/-- OT_FAULT_LIMIT: OT_THR in °C. -/
def execOtFaultLimit (wr : Option (BitVec 16)) (pec : Pec) (s : State) : Out :=
  .next <|
    match wr with
    | some w => pmbWrite 0x4F pec (pmbBounded 0x4F (fun r => ⟨.FLT_OT, r, 0, 0⟩) 0 8 (lin11Times w.toNat 1) 1 200) s
    | none => railRead 0x4F 2 (fun r s => natBytes 2 (toLin11 (s.get (FLT_OT_OT_THR r)) 1)) s

/-- STATUS_CML: the bits of R299 at their PMBus Part II places. -/
def State.cml (s : State) : Nat :=
  (if s.mgt.cmlCmd then 0x80 else 0) + (if s.mgt.cmlData then 0x40 else 0) + (if s.mgt.cmlPec then 0x20 else 0)

/-- STATUS_WORD of a rail: the bits R299 names at their PMBus Part II places (log entry 63). -/
def State.statusWord (s : State) (r : Nat) : Nat :=
  let l (k : Nat) : Bool := s.bit (FLT_RSTAT_LATCH r) k
  let b (c : Bool) (i : Nat) : Nat := if c then 2 ^ i else 0
  b (s.railState r ≠ railRegulating) 6 + b (l 0) 5 + b (l 2) 4 + b (s.bit FLT_PKG_LATCH clsVinLoss) 3 + b (l 3) 2 + b (s.cml ≠ 0) 1 +
    b (l 0 || l 1) 15 + b (l 2) 14 + b (!s.on (PRG_RSTAT_PG r)) 11

/-- STATUS_BYTE: the low byte of STATUS_WORD. -/
def execStatusByte (s : State) : Out := .next (railRead 0x78 1 (fun r s => natBytes 1 (s.statusWord r)) s)

/-- STATUS_WORD. -/
def execStatusWord (s : State) : Out := .next (railRead 0x79 2 (fun r s => natBytes 2 (s.statusWord r)) s)

/-- STATUS_VOUT: OV and UV faults. -/
def execStatusVout (s : State) : Out :=
  .next (railRead 0x7A 1 (fun r s =>
    natBytes 1 ((if s.bit (FLT_RSTAT_LATCH r) 0 then 0x80 else 0) + (if s.bit (FLT_RSTAT_LATCH r) 1 then 0x10 else 0))) s)

/-- STATUS_IOUT: the OC fault. -/
def execStatusIout (s : State) : Out :=
  .next (railRead 0x7B 1 (fun r s => natBytes 1 (if s.bit (FLT_RSTAT_LATCH r) 2 then 0x80 else 0)) s)

/-- STATUS_TEMPERATURE: the OT fault. -/
def execStatusTemperature (s : State) : Out :=
  .next (railRead 0x7D 1 (fun r s => natBytes 1 (if s.bit (FLT_RSTAT_LATCH r) 3 then 0x80 else 0)) s)

/-- STATUS_CML: each bit cleared by writing 1. -/
def execStatusCml (wr : Option Byte) (pec : Pec) (s : State) : Out :=
  .next <|
    match wr with
    | some b => pmbWrite 0x7E pec (fun s => (.applied, s.modMgt (fun m =>
        { m with cmlCmd := m.cmlCmd && !bitOf b.toNat 7, cmlData := m.cmlData && !bitOf b.toNat 6
                 cmlPec := m.cmlPec && !bitOf b.toNat 5 }))) s
    | none => pagedRead 0x7E 1 (fun s => answer (natBytes 1 s.cml) s) s

/-- READ_VIN: `mv` is the level of VIN_SENSE. -/
def execReadVin (mv : BitVec 16) (s : State) : Out := .next (pmbRead (fun _ => natBytes 2 (toLin11 mv.toNat 1000)) s)

/-- READ_VOUT: VSENSE in ULINEAR16. -/
def execReadVout (s : State) : Out :=
  .next (railRead 0x8B 2 (fun r s => natBytes 2 (roundDiv (s.get (PRG_RMEAS_VSENSE r) * 4096) 10000)) s)

/-- READ_IOUT: I_tot, signed, 0.1 A. -/
def execReadIout (s : State) : Out := .next (railRead 0x8C 2 (fun r s => natBytes 2 (toLin11 (s.getS (PRG_RMEAS_ITOT r)) 10)) s)

/-- READ_TEMPERATURE_1 (R167): `mv` is the level of the rail's TMON pin. -/
def execReadTemperature1 (mv : BitVec 12) (s : State) : Out :=
  .next (railRead 0x8D 2 (fun r s =>
    natBytes 2 (toLin11 (((mv.toNat : Int) - s.get (PRG_TMON_OFS r)) * 100) (s.get (PRG_TMON_SLOPE r)))) s)

/-- PMBUS_REVISION. -/
def execPmbusRevision (s : State) : Out := .next (pmbRead (fun _ => [0x33]) s)

/-- A block: its length, then its bytes. -/
def block (b : List Byte) : List Byte := BitVec.ofNat 8 b.length :: b

/-- MFR_ID: "OPEVO". -/
def execMfrId (s : State) : Out := .next (pmbRead (fun _ => block [0x4F, 0x50, 0x45, 0x56, 0x4F]) s)

/-- MFR_MODEL: "ZR4896". -/
def execMfrModel (s : State) : Out := .next (pmbRead (fun _ => block [0x5A, 0x52, 0x34, 0x38, 0x39, 0x36]) s)

/-- MFR_REVISION: "A1". -/
def execMfrRevision (s : State) : Out := .next (pmbRead (fun _ => block [0x41, 0x31]) s)

/-! ### Commands of R300 -/

/-- MFR_REG_ADDR: a BAR0 offset with bits [1:0] zero. -/
def execMfrRegAddr (wr : Option Word) (pec : Pec) (s : State) : Out :=
  .next <|
    match wr with
    | some w => pmbWrite 0xD0 pec (fun s =>
        if w.toNat % 4 = 0 then (.applied, s.modMgt (fun m => { m with regAddr := w.toNat })) else pmbRefuse 0xD0 s) s
    | none => pagedRead 0xD0 5 (fun s => answer (block (natBytes 4 s.mgt.regAddr)) s) s

/-- The offset advances by 4. -/
def regAdvance (s : State) : State := s.modMgt (fun m => { m with regAddr := (m.regAddr + 4) % 2 ^ 32 })

/-- MFR_REG_DATA: one register access. -/
def execMfrRegData (wr : Option Word) (pec : Pec) (s : State) : Out :=
  .next <|
    match wr with
    | some w => pmbWrite 0xD1 pec (fun s => let r := regWrite .pmb s.mgt.regAddr w s; (r.1, regAdvance r.2)) s
    | none => pagedRead 0xD1 5 (fun s =>
        let r := regRead .pmb s.mgt.regAddr s
        answer (block (wordBytes r.1)) (regAdvance r.2)) s

/-- MFR_HUB_STATE: the state code, MODE and MIXED as GLB_STATE shows them. -/
def execMfrHubState (s : State) : Out := .next (pmbRead (fun s => natBytes 2 (wordGet (s.word ⟨.GLB_STATE, 0, 0, 0⟩) 0 6)) s)

/-- MFR_SEQ_START: a rank-3 start. -/
def execMfrSeqStart (b : Byte) (pec : Pec) (s : State) : Out :=
  .next <| pmbWrite 0xD3 pec (fun s =>
    if 8 ≤ b.toNat then pmbRefuse 0xD3 s
    else if s.isolated dieP then (.dropped, s)
    else
      let r := cmdSeqStart b.toNat s
      if r.status = stIgnored then pmbRefuse 0xD3 r.s else (.applied, r.s)) s

/-- MFR_PHASES: NACT and NASG. -/
def execMfrPhases (s : State) : Out :=
  .next (railRead 0xD4 2 (fun r s => natBytes 2 (s.get (PRG_RSTAT_NACT r) + 2 ^ 8 * s.get (PRG_RSTAT_NASG r))) s)

/-- MFR_TB_STATUS: PRG_TBSTAT bits [15:0] of the rail's region. -/
def execMfrTbStatus (s : State) : Out :=
  .next (railRead 0xD5 2 (fun r s => natBytes 2 (wordGet (s.word ⟨.PRG_TBSTAT, r / 6, 0, 0⟩) 0 16)) s)

/-- MFR_IGNORED. -/
def execMfrIgnored (s : State) : Out := .next (pmbRead (fun s => block (natBytes 4 (s.get GLB_IGNORED_CNT_CNT))) s)

/-! ### SMBALERT# and the timeout (R296, R304) -/

/-- ALERT_RESPONSE (R296): the port that asserts SMBALERT# answers with its address. -/
def execAlertResponse (s : State) : Out :=
  .next (if s.pathOpen .pmb false && s.alert then answer (natBytes 1 (2 * s.get MGT_PMB_CFG_ADDR)) s else s)

/-- PMB_TIMEOUT (R296): SCL held low for 25 ms; the transaction of a command is discarded. -/
def execPmbTimeout (code : Byte) (s : State) : Out :=
  .next <|
    if s.pathOpen .pmb false then
      (s.bump MGT_PMB_STAT_TMO_CNT).raise MGT_EVT_EVT 1 0x0901 0 [(8, code.toNat)]
    else s

end Sys2Proof.Machine
end

