-- ==== Sys2Proof/Machine/Mgmt.lean ====
section
/-! DEFINITION. Sys2Proof/Machine/Mgmt.lean: the I3C port, the flash master's commands and JTAG (R301 to R303, R306 to R312,
R314). -/

namespace Sys2Proof.Machine

/-! ### I3C (R301 to R303) -/

/-- The I3C port answers. -/
def State.i3cOn (s : State) : Bool := s.pathOpen .i3c false

/-- I3C_ERROR, counted; the error kind has no code in the spec: a free value. -/
def i3cError (s : State) : State :=
  let (v, s1) := s.draw
  (s1.bump MGT_I3C_STAT_ERR_CNT).raise MGT_EVT_EVT 3 0x0903 0 [(32, v)]

/-- I3C_REG_WRITE (R302): an offset and data bytes; `err` a parity or CRC error, which discards the transfer. -/
def execI3cRegWrite (off : Word) (data : List Byte) (err : Bool) (s : State) : Out :=
  .next <|
    if !s.i3cOn then s
    else if err then i3cError s
    else if data = [] then s
    else if off.toNat % 4 ≠ 0 ∨ data.length % 4 ≠ 0 ∨ 64 < data.length then s.ignored 0x05 off.toNat
    else (regWrites .i3c off.toNat 0 (bytesWords data) s).2

/-- I3C_REG_READ (R302, R36): up to 64 bytes from consecutive registers; a misaligned offset gives zero bytes. -/
def execI3cRegRead (off : Word) (n : Fin 65) (err : Bool) (s : State) : Out :=
  .next <|
    if !s.i3cOn then s
    else if err then i3cError s
    else if off.toNat % 4 ≠ 0 then s.emit (.i3c (List.replicate n 0))
    else
      let (l, s1) := regReads .i3c off.toNat ((n + 3) / 4) s
      s1.emit (.i3c ((wordsBytes l).take n))

/-- A CCC the port supports. -/
def ccc (f : State → State) (s : State) : Out := .next (if s.i3cOn then f s else s)

/-- ENEC: in-band interrupts enabled (R303). -/
def execEnec (s : State) : Out := ccc (fun s => s.set MGT_I3C_STAT_IBI_EN 1) s

/-- DISEC. -/
def execDisec (s : State) : Out := ccc (fun s => s.set MGT_I3C_STAT_IBI_EN 0) s

/-- RSTDAA: back to the static address. -/
def execRstdaa (s : State) : Out := ccc (fun s => (s.set MGT_I3C_STAT_DA_VALID 0).set MGT_I3C_STAT_DADDR 0) s

/-- A dynamic address is assigned to a port that has none. -/
def assignAddr (a : Nat) (s : State) : State :=
  if s.on MGT_I3C_STAT_DA_VALID then s else (s.set MGT_I3C_STAT_DADDR a).set MGT_I3C_STAT_DA_VALID 1

/-- ENTDAA. -/
def execEntdaa (a : BitVec 7) (s : State) : Out := ccc (assignAddr a.toNat) s

/-- SETDASA. -/
def execSetdasa (a : BitVec 7) (s : State) : Out := ccc (assignAddr a.toNat) s

/-- SETMWL and SETMRL: the maximum lengths. -/
def execSetmwl (n : BitVec 16) (s : State) : Out := ccc (fun s => s.modMgt (fun m => { m with mwl := n.toNat })) s
def execSetmrl (n : BitVec 16) (s : State) : Out := ccc (fun s => s.modMgt (fun m => { m with mrl := n.toNat })) s

/-- Bytes answered, most significant first (log entry 64). -/
def i3cAnswer (n v : Nat) (s : State) : State := s.emit (.i3c (natBytes n v).reverse)

/-- GETMWL. -/
def execGetmwl (s : State) : Out := ccc (fun s => i3cAnswer 2 s.mgt.mwl s) s

/-- GETMRL. -/
def execGetmrl (s : State) : Out := ccc (fun s => i3cAnswer 2 s.mgt.mrl s) s

/-- GETPID: the 48-bit provisioned ID of OTP words 3 and 4 (R389). -/
def execGetpid (s : State) : Out := ccc (fun s => i3cAnswer 6 (s.otpWord 3 + 2 ^ 32 * (s.otpWord 4 % 2 ^ 16)) s) s

/-- GETBCR: 0x06. -/
def execGetbcr (s : State) : Out := ccc (i3cAnswer 1 0x06) s

/-- GETDCR: 0x00. -/
def execGetdcr (s : State) : Out := ccc (i3cAnswer 1 0x00) s

/-- GETSTATUS: its contents are not stated: a free value. -/
def execGetstatus (s : State) : Out := ccc (fun s => let (v, s1) := s.draw; i3cAnswer 2 v s1) s

/-- UNSUPPORTED_CCC: NACKed and counted. -/
def execUnsupportedCcc (s : State) : Out := ccc i3cError s

/-- HDR_ENTRY: ignored and counted. -/
def execHdrEntry (s : State) : Out := ccc (fun s => s.bump MGT_I3C_STAT_HDR_CNT) s

/-! ### The flash master (R306 to R308) and the UART (R309) -/

/-- The flash clock divides the main LO by 2 × (DIV + 1) (R306). -/
def State.spiDivide (s : State) : Nat := 2 * (s.get MGT_SPI_CFG_DIV + 1)

/-- The clocks of a flash read of n bytes: opcode, address, the dummy clocks of the fast reads, and data at x1 or x4 (R306). -/
def State.spiReadClocks (s : State) (op n : Nat) : Nat :=
  let fast : Bool := [0x0B, 0x0C, 0x6B, 0x6C].contains op
  8 + (if s.on MGT_SPI_CFG_ADDR4 then 32 else 24) + (if fast then 8 else 0) + (if op = 0x6B ∨ op = 0x6C then 2 * n else 8 * n)

/-- The UART's rate in baud (R309). -/
def State.uartBaud (s : State) : Nat := [115200, 460800, 921600, 3000000].getD (s.get MGT_CFG_BAUD) 0

/-- Bytes into MGT_SPI_BUF, byte 4i first. -/
def fillBuf (b : List Byte) (s : State) : State :=
  s.each ((b.length + 3) / 4) (fun i s =>
    let old := wordBytes (s.word ⟨.MGT_SPI_BUF, i, 0, 0⟩)
    s.set (MGT_SPI_BUF_DATA i) (leNat ((List.range 4).map (fun j => if 4 * i + j < b.length then b.getD (4 * i + j) 0 else old.getD j 0))))

/-- The bytes of MGT_SPI_BUF. -/
def State.bufBytes (s : State) (n : Nat) : List Byte := (wordsBytes ((List.range 64).map (fun i => s.word ⟨.MGT_SPI_BUF, i, 0, 0⟩))).take n

/-- What a flash command does: reads fill the buffer, programs and erases change the flash, 0x05 reads the flash's status byte and 0x9F
its JEDEC ID (log entry 65). -/
def spiEffect (op a len : Nat) (status : Byte) (s : State) : State :=
  if spiRead op then fillBuf (s.storeBytes a len) s
  else if spiProgram op then flashProgram a (s.bufBytes len) s
  else
    match spiErase op with
    | some n => flashErase (a / n * n) n s
    | none =>
      if op = 0x05 then fillBuf (List.replicate len status) s
      else if op = 0x9F then fillBuf (bytesAt (natBytes 3 (s.get MGT_SPI_STAT_JEDEC)) 0 len) s
      else s

/-- SPI_COMMAND_DONE (R308). -/
def execSpiCommandDone (status : Byte) (s : State) : Out :=
  .next <|
    match s.mgt.spi with
    | some (op, a, len) =>
      let s1 := (s.modMgt (fun m => { m with spi := none })).set MGT_SPI_STAT_BUSY 0
      spiEffect op a len status (s1.set MGT_SPI_STAT_RESULT 0)
    | none => s

/-- SPI_POLL_TIMEOUT (R308): 3 s of polling have passed; RESULT is TIMEOUT. -/
def execSpiPollTimeout (s : State) : Out :=
  .next <|
    if s.mgt.spi.isSome then
      ((s.modMgt (fun m => { m with spi := none })).set MGT_SPI_STAT_BUSY 0).set MGT_SPI_STAT_RESULT 2
    else s

/-! ### JTAG (R310 to R312) -/

/-- The JTAG port is powered. -/
def State.jtagOn (s : State) : Bool := s.pkg ≠ pkgOff && s.pkg ≠ pkgKeep

/-- An instruction is loaded; under SCAN_LOCK the boundary instructions act as BYPASS (R389). -/
def loadIr (code : Nat) (scan : Bool) (s : State) : State :=
  if s.jtagOn then s.modMgt (fun m => { m with ir := if scan && s.debugLock 2 then 0xFF else code }) else s

/-- EXTEST: the preloaded cells drive the covered pins. -/
def execExtest (s : State) : Out := .next (loadIr 0x00 true s)

/-- IDCODE: 0x0489_6A3F. -/
def execIdcode (s : State) : Out := .next (if s.jtagOn then (loadIr 0x01 false s).emit (.jtag 0x04896A3F) else s)

/-- SAMPLE_PRELOAD: the boundary register captures what the pins show and shifts it out, and the cells of the multi-function pins and of
the dedicated outputs take levels and enables (R310, R311). `ins` is what MODE[1:0] and RST_N show, `step` the grid instant and `zc` the
zero-cross comparators; what the charger's gates show as they switch is a free value (log entry 3). -/
def execSamplePreload (v oe : BitVec 68) (ins : BitVec 3) (step : BitVec 48) (zc : BitVec 96) (s : State) : Out :=
  .next <|
    let s1 := loadIr 0x02 true s
    if s.jtagOn && !s.debugLock 2 then
      let (g, s2) := if s1.chgGates then s1.draw else (0, s1)
      (s2.modMgt (fun m => { m with cells := v.toNat, cellsOe := oe.toNat })).emit
        (.jtag (s2.boundary ins.toNat g step.toNat zc.toNat))
    else s1

/-- CLAMP. -/
def execClamp (s : State) : Out := .next (loadIr 0x04 true s)

/-- HIGHZ. -/
def execHighz (s : State) : Out := .next (loadIr 0x05 true s)

/-- BYPASS, and every code the table does not list. -/
def execBypass (s : State) : Out := .next (loadIr 0xFF false s)

/-- JTAG_RESET: Test-Logic-Reset selects IDCODE. -/
def execJtagReset (s : State) : Out := .next (loadIr 0x01 false s)

/-- The data register's answer. -/
def jtagAnswer (status : Nat) (data : Word) (s : State) : State :=
  (s.modMgt (fun m => { m with ir := 0x20, jtagData := data.toNat, jtagStatus := status })).emit (.jtag (data.toNat + 2 ^ 54 * status))

/-- REG_ACCESS (R312, R314, R389): one register access; STATUS 0 done, 2 ignored, 3 locked. -/
def execRegAccess (wr : Bool) (off : BitVec 20) (data : Word) (s : State) : Out :=
  .next <|
    if !s.jtagOn then s
    else if s.isolated dieC then jtagAnswer 2 data s
    else if s.active && s.debugLock (if wr then 1 else 0) then jtagAnswer 3 data s
    else if wr then
      let r := regWrite .jtag off.toNat data s
      jtagAnswer (if r.1 = .ignored then 2 else 0) data r.2
    else
      let r := regRead .jtag off.toNat s
      jtagAnswer 0 r.1 r.2

end Sys2Proof.Machine
end

