-- ==== Sys2Proof/Machine/Rows.lean ====
section
/-! DEFINITION. Sys2Proof/Machine/Rows.lean: the rows that name one register write, one command, or both: each goes through the write
path of R12 and R36, or through the command of R278 that acts as that write. -/

namespace Sys2Proof.Machine

/-! ### Commands without a descriptor (R276, R294, R305) -/

/-- The path of a mailbox command may write MGT_MBX_CTL.GO. -/
def State.mbxOpen (s : State) (owner : Fin 4) : Bool :=
  s.active && s.pathOpen (mbxPath owner) true && s.reaches (mbxPath owner) 0x2440 1

/-- Commands are taken: in RUN and STANDBY, from the ring while the host port is RUNNING, and from a mailbox that is not busy. -/
def State.takesCmd (s : State) (v : CmdVia) : Bool :=
  match v with
  | .ring => s.active && s.rstate = rsRunning
  | .mbx k => s.mbxOpen k && !s.on MGT_MBX_CTL_BUSY

/-- A command row of an opcode that comes without a descriptor: its status and result are held, an IGNORED one is counted, and a mailbox
command that is not deferred is DONE (R305). GO written to a busy mailbox is an ignored action. `after` follows the completion. -/
def directThen (v : CmdVia) (op : Nat) (f : State → CmdRes) (after : State → State) (s : State) : State :=
  if s.takesCmd v then
    let r := f (match v with | .ring => s | .mbx k => mbxTake k s)
    let s1 := r.s.modHost (fun h => { h with lastStatus := r.status, lastResult := r.result.toNat })
    let s2 := if r.status = stIgnored then countIgnored v s1 else s1
    let s3 := if v = .ring ∨ r.status = stDeferred then s2 else mbxDone op r.status r.result.toNat s2
    if r.status = stOk then after s3 else s3
  else
    match v with
    | .ring => s
    | .mbx k => if s.mbxOpen k then s.ignored (Path.source (mbxPath k)) 0x2440 else s

/-- A command row with nothing after its completion. -/
def directCmd (v : CmdVia) (op : Nat) (f : State → CmdRes) : State → State := directThen v op f id

/-- A row that is both: the command, or the write with its naming bits set. -/
def rowVia (via : Via) (op die : Nat) (f : State → CmdRes) (r : Reg) (lo n v : Nat) (s : State) : Out :=
  match via with
  | .cmd c => .next (directCmd c op (onDie die f) s)
  | .write p w => writeRow p r w lo n v s

/-- NOP (R278). -/
def execNop (v : CmdVia) (s : State) : Out := .next (directCmd v 0x00 cmdOk s)

/-- SYNC_STATE (R278, R287, R305): it completes, and resynchronisation starts. -/
def execSyncState (v : CmdVia) (s : State) : Out := .next (directThen v 0x01 (cmdSyncState v) (startResync 1) s)

/-- The rails, units and ports by their registers. -/
def regRctl (r : Nat) : Reg := ⟨.PRG_RCTL, r / 6, r % 6, 0⟩
def regVid (r : Nat) : Reg := ⟨.PRG_VID, r / 6, r % 6, 0⟩

/-! ### Timing -/

/-- MON_ENABLE, MON_DISABLE (R54). -/
def execMonEnable (p : Path) (m : Fin 16) (w : Word) (s : State) : Out := writeRow p ⟨.MON_CFG, m, 0, 0⟩ w 0 1 1 s
def execMonDisable (p : Path) (m : Fin 16) (w : Word) (s : State) : Out := writeRow p ⟨.MON_CFG, m, 0, 0⟩ w 0 1 0 s

/-- REF_FORCE (R61): candidate `idx` of a region's selector. -/
def execRefForce (via : CmdVia) (t : Fin 4) (idx : BitVec 8) (s : State) : Out :=
  .next (directCmd via 0x10 (onDie (dieOfRegion t) (fun s => if idx.toNat < 32 then cmdRefForce t idx.toNat s else cmdIgnored s)) s)

/-- REF_AUTO (R61). -/
def execRefAuto (via : CmdVia) (t : Fin 4) (s : State) : Out := .next (directCmd via 0x11 (onDie (dieOfRegion t) (cmdRefAuto t)) s)

/-- DPLL_ENABLE, DPLL_DISABLE (R77). -/
def execDpllEnable (p : Path) (t : Fin 4) (w : Word) (s : State) : Out := writeRow p ⟨.TRG_CTL, t, 0, 0⟩ w 0 1 1 s
def execDpllDisable (p : Path) (t : Fin 4) (w : Word) (s : State) : Out := writeRow p ⟨.TRG_CTL, t, 0, 0⟩ w 0 1 0 s

/-- HOLDOVER_FORCE (R77): FORCED set or cleared. -/
def execHoldoverForce (via : CmdVia) (t : Fin 4) (force : Bool) (s : State) : Out :=
  .next (directCmd via 0x12 (onDie (dieOfRegion t) (cmdHoldoverForce t force)) s)

/-- HIST_INTERVAL_WRITE (R82). -/
def execHistIntervalWrite (p : Path) (t : Fin 4) (w : Word) (s : State) : Out := .next (writeReg p ⟨.TRG_HIST, t, 0, 0⟩ w s)

/-- TC_TERM_WRITE (R85). -/
def execTcTermWrite (p : Path) (t : Fin 4) (w : Word) (s : State) : Out := .next (writeReg p ⟨.TRG_TC_TERM_HI, t, 0, 0⟩ w s)

/-- STB_EN_WRITE (R70). -/
def execStbEnWrite (p : Path) (t : Fin 4) (w : Word) (s : State) : Out := .next (writeReg p ⟨.TRG_CTL, t, 0, 0⟩ w s)

/-- REALIGN (R91). -/
def execRealign (via : CmdVia) (t : Fin 4) (mask : BitVec 12) (k : BitVec 16) (s : State) : Out :=
  .next (directCmd via 0x13 (onDie (dieOfRegion t) (cmdRealign t mask.toNat k.toNat)) s)

/-! ### Clusters and Wheels -/

/-- SYN_ENABLE, SYN_DISABLE (R108). -/
def execSynEnable (p : Path) (c : Fin 12) (w : Word) (s : State) : Out := writeRow p ⟨.SYN_CTL, c, 0, 0⟩ w 0 1 1 s
def execSynDisable (p : Path) (c : Fin 12) (w : Word) (s : State) : Out := writeRow p ⟨.SYN_CTL, c, 0, 0⟩ w 0 1 0 s

/-- SYN_APPLY (R99). -/
def execSynApply (p : Path) (c : Fin 12) (w : Word) (s : State) : Out := writeRow p ⟨.SYN_APPLY, c, 0, 0⟩ w 0 1 1 s

/-- HOP (R99, R278): N_INT, PATH, NUM and DEN. -/
def execHop (v : CmdVia) (c : Fin 12) (nInt : BitVec 9) (path : BitVec 2) (num den : Word) (s : State) : Out :=
  .next (directCmd v 0x21 (onDie (dieOfCluster c) (cmdHop c nInt.toNat path.toNat num.toNat den.toNat)) s)

/-- BYPASS_RETURN (R117). -/
def execBypassReturn (v : CmdVia) (c : Fin 12) (s : State) : Out :=
  .next (directCmd v 0x22 (onDie (dieOfCluster c) (cmdBypassReturn c)) s)

/-- RET_AUTO_WRITE (R117). -/
def execRetAutoWrite (p : Path) (c : Fin 12) (w : Word) (s : State) : Out := .next (writeReg p ⟨.SYN_CTL, c, 0, 0⟩ w s)

/-- BAND_LOAD_START, BAND_LOAD_DATA (R103). -/
def execBandLoadStart (p : Path) (c : Fin 12) (w : Word) (s : State) : Out := writeRow p ⟨.SYN_BLOAD_CTL, c, 0, 0⟩ w 0 1 1 s
def execBandLoadData (p : Path) (c : Fin 12) (w : Word) (s : State) : Out := .next (writeReg p ⟨.SYN_BLOAD_DATA, c, 0, 0⟩ w s)

/-- BAND_LOAD (R103, R278): 513 words. -/
def execBandLoad (v : CmdVia) (c : Fin 12) (ws : List Word) (s : State) : Out :=
  .next (directCmd v 0x20 (onDie (dieOfCluster c) (fun s => if ws.length = 513 then cmdBandLoad c ws s else cmdIgnored s)) s)

/-- RAMP_START, RAMP_STOP (R133, R134). -/
def execRampStart (via : Via) (c : Fin 12) (s : State) : Out :=
  rowVia via 0x25 (dieOfCluster c) (cmdRampStart c) ⟨.RMP_CMD, c, 0, 0⟩ 0 1 1 s
def execRampStop (via : Via) (c : Fin 12) (home : Bool) (s : State) : Out :=
  rowVia via 0x26 (dieOfCluster c) (cmdRampStop c home) ⟨.RMP_CMD, c, 0, 0⟩ 1 1 1 s

/-- RAMP_CHUNK_WRITE (R130). -/
def execRampChunkWrite (p : Path) (c : Fin 12) (i : Fin 66) (w : Word) (s : State) : Out :=
  .next (writeReg p ⟨.RMP_CHUNK, c, i, 0⟩ w s)

/-- RAMP_LOAD (R130, R278): chunks of 66 words. -/
def execRampLoad (v : CmdVia) (c : Fin 12) (chunks : List (List Word)) (s : State) : Out :=
  .next (directCmd v 0x24 (onDie (dieOfCluster c) (cmdRampLoad c chunks)) s)

/-! ### Outputs -/

/-- OUT_ENABLE, OUT_DISABLE (R152). -/
def execOutEnable (p : Path) (n : Fin 48) (w : Word) (s : State) : Out := writeRow p ⟨.OUT_CTL, n, 0, 0⟩ w 0 1 1 s
def execOutDisable (p : Path) (n : Fin 48) (w : Word) (s : State) : Out := writeRow p ⟨.OUT_CTL, n, 0, 0⟩ w 0 1 0 s

/-- OUT_DIV_WRITE (R151): the ratio, or the delay. -/
def execOutDivWrite (p : Path) (n : Fin 48) (delay : Bool) (w : Word) (s : State) : Out :=
  .next (writeReg p (if delay then ⟨.OUT_DLY, n, 0, 0⟩ else ⟨.OUT_DIV, n, 0, 0⟩) w s)

/-- OUT_RSYNC (R158). -/
def execOutRsync (p : Path) (t : Fin 4) (w : Word) (s : State) : Out := .next (writeReg p ⟨.OUT_RSYNC, t, 0, 0⟩ w s)

/-! ### Rails and sequences -/

/-- RAIL_ENABLE, RAIL_DISABLE (R172). -/
def execRailEnable (p : Path) (r : Fin 24) (w : Word) (s : State) : Out := writeRow p (regRctl r) w 0 1 1 s
def execRailDisable (p : Path) (r : Fin 24) (w : Word) (s : State) : Out := writeRow p (regRctl r) w 0 1 0 s

/-- RAIL_SET (R278): EN and VID of a rail, each where its bit asks for it. -/
def execRailSet (v : CmdVia) (rail : BitVec 5) (wen en wvid : Bool) (vid : BitVec 12) (s : State) : Out :=
  .next (directCmd v 0x30 (onDie dieP (cmdRailSet rail.toNat wen en wvid vid.toNat)) s)

/-- VID_WRITE (R175). -/
def execVidWrite (p : Path) (r : Fin 24) (w : Word) (s : State) : Out := .next (writeReg p (regVid r) w s)

/-- TB_PAIRING_WRITE (R20). -/
def execTbPairingWrite (p : Path) (q : Fin 4) (w : Word) (s : State) : Out := .next (writeReg p ⟨.PRG_TBSEL, q, 0, 0⟩ w s)

/-- SEQ_START, SEQ_STOP (R199, R200). -/
def execSeqStart (via : Via) (q : Fin 8) (s : State) : Out := rowVia via 0x32 dieP (cmdSeqStart q) ⟨.SEQ_CMD, 0, 0, 0⟩ 0 1 1 s
def execSeqStop (via : Via) (s : State) : Out := rowVia via 0x33 dieP cmdSeqStop ⟨.SEQ_CMD, 0, 0, 0⟩ 1 1 1 s

/-- SEQ_LOAD (R198, R278): a header, the steps and the CRC word. -/
def execSeqLoad (v : CmdVia) (ws : List Word) (s : State) : Out :=
  .next (directCmd v 0x31 (onDie dieP (fun s => if ws.length % 3 = 2 ∧ ws.length ≤ 194 then cmdSeqLoad ws s else cmdIgnored s)) s)

/-- SEQ_LOAD_START, SEQ_LOAD_DATA (R198). -/
def execSeqLoadStart (p : Path) (w : Word) (s : State) : Out := writeRow p ⟨.SEQ_LOAD_CTL, 0, 0, 0⟩ w 0 1 1 s
def execSeqLoadData (p : Path) (w : Word) (s : State) : Out := .next (writeReg p ⟨.SEQ_LOAD_DATA, 0, 0, 0⟩ w s)

/-- STORE_CHARGE (R215). -/
def execStoreCharge (v : CmdVia) (arg : BitVec 16) (s : State) : Out :=
  .next (directCmd v 0x34 (onDie dieP (cmdStoreCharge arg.toNat)) s)

/-! ### Links -/

/-- LINK_ENABLE, LINK_DISABLE (R232). -/
def execLinkEnable (p : Path) (k : Fin 4) (w : Word) (s : State) : Out := writeRow p ⟨.LNK_CTL, k, 0, 0⟩ w 0 1 1 s
def execLinkDisable (p : Path) (k : Fin 4) (w : Word) (s : State) : Out := writeRow p ⟨.LNK_CTL, k, 0, 0⟩ w 0 1 0 s

/-- TOD_SET (R240). -/
def execTodSet (p : Path) (w : Word) (s : State) : Out := .next (writeReg p ⟨.LNK_TOD_SET_HI, 0, 0, 0⟩ w s)

/-- LINK_JOIN by the command ring or the mailbox. -/
def execLinkJoin (v : CmdVia) (s : State) : Out := .next (directCmd v 0x50 (onDie dieC cmdLinkJoin) s)

/-- REMOTE_RD (R251): the target, the offset and N − 1; the result goes to `ptr`. -/
def execRemoteRd (v : CmdVia) (tag : BitVec 16) (dst : BitVec 64) (off : BitVec 20) (n : Fin 16) (ptr : BitVec 48) (s : State) : Out :=
  .next <| directCmd v 0x52 (onDie dieC (fun s =>
    cmdRemote false { s.bareDefer v tag.toNat with ptr := ptr.toNat, len := 4 * (n + 1) } dst.toNat off.toNat (n + 1) [] s)) s

/-- REMOTE_WR (R251): the words have been fetched from the payload. -/
def execRemoteWr (v : CmdVia) (tag : BitVec 16) (dst : BitVec 64) (off : BitVec 20) (n : Fin 16) (data : List Word) (s : State) : Out :=
  .next <| directCmd v 0x53 (onDie dieC (fun s =>
    cmdRemote true { s.bareDefer v tag.toNat with len := 4 * (n + 1) } dst.toNat off.toNat (n + 1) data s)) s

/-- LINK_LEAVE (R246): the command, or a write of LNK_SYS_CTL.JOIN. -/
def execLinkLeave (via : Via) (s : State) : Out := rowVia via 0x51 dieC cmdLinkLeave ⟨.LNK_SYS_CTL, 0, 0, 0⟩ 1 1 1 s

/-- REMOTE_ACCESS_GO (R251). -/
def execRemoteAccessGo (p : Path) (w : Word) (s : State) : Out := writeRow p ⟨.LNK_RMT_CTL, 0, 0, 0⟩ w 0 1 1 s

/-- SIGNAL_SEND (R255). -/
def execSignalSend (p : Path) (w : Word) (s : State) : Out := .next (writeReg p ⟨.LNK_SIGNAL, 0, 0, 0⟩ w s)

/-! ### The host port and the package -/

/-- HOST_WAKE (R266), HOST_RESYNC (R286), RING_ARM (R287), PROMOTE (R313). -/
def execHostWake (p : Path) (w : Word) (s : State) : Out := .next (writeReg p ⟨.HOST_WAKE, 0, 0, 0⟩ w s)
def execHostResync (p : Path) (w : Word) (s : State) : Out := .next (writeReg p ⟨.HOST_RESYNC, 0, 0, 0⟩ w s)
def execRingArm (p : Path) (q : Fin 3) (w : Word) (s : State) : Out := writeRow p ⟨.HOST_RING_CFG, q, 0, 0⟩ w 0 1 1 s
def execPromote (p : Path) (w : Word) (s : State) : Out := writeRow p ⟨.HOST_MODE, 0, 0, 0⟩ w 8 1 1 s

/-- STATE_SET with a code, whose change follows its completion, or GLB_CMD with it (R278, R415, R426). -/
def stateRow (via : Via) (code : Nat) (s : State) : Out :=
  match via with
  | .cmd c => .next (directThen c 0x02 (onDie dieC (fun s => if s.stateOk code then cmdOk s else cmdIgnored s))
      (fun s => if s.isolated dieC then s else stateChange code 0x60 s) s)
  | .write p w => writeRow p ⟨.GLB_CMD, 0, 0, 0⟩ w 0 4 code s

/-- STANDBY_ENTER (R416), STANDBY_EXIT (R417), KEEP_ENTER (R418), SOFT_RESET (R412). -/
def execStandbyEnter (via : Via) (s : State) : Out := stateRow via 2 s
def execStandbyExit (via : Via) (s : State) : Out := stateRow via 1 s
def execKeepEnter (via : Via) (s : State) : Out := stateRow via 3 s
def execSoftReset (via : Via) (s : State) : Out := stateRow via 8 s

/-! ### Management ports -/

/-- EVENT_POP (R304), MAILBOX_GO (R305), SPI_COMMAND (R308). -/
def execEventPop (p : Path) (w : Word) (s : State) : Out := writeRow p ⟨.MGT_EV, 0, 0, 0⟩ w 0 1 1 s
def execMailboxGo (p : Path) (w : Word) (s : State) : Out := writeRow p ⟨.MGT_MBX_CTL, 0, 0, 0⟩ w 0 1 1 s
def execSpiCommand (p : Path) (w : Word) (s : State) : Out := writeRow p ⟨.MGT_SPI_CMD, 0, 0, 0⟩ w 31 1 1 s

/-! ### DMA -/

/-- DMA_ENABLE, DMA_DISABLE (R336), DMA_DOORBELL (R318), DATU_INV (R340). -/
def execDmaEnable (p : Path) (ch : Fin 32) (w : Word) (s : State) : Out := writeRow p ⟨.DMA_CCTL, ch, 0, 0⟩ w 0 1 1 s
def execDmaDisable (p : Path) (ch : Fin 32) (w : Word) (s : State) : Out := writeRow p ⟨.DMA_CCTL, ch, 0, 0⟩ w 0 1 0 s
def execDmaDoorbell (p : Path) (ch : Fin 32) (w : Word) (s : State) : Out := .next (writeReg p ⟨.DMA_DB, ch, 0, 0⟩ w s)
def execDatuInv (p : Path) (w : Word) (s : State) : Out := writeRow p ⟨.DATU_INV, 0, 0, 0⟩ w 0 1 1 s

/-- A channel command, or the same bit of DMA_CMD (R336). -/
def channelRow (by_ : By) (ch : Fin 32) (op : Nat) (f : Nat → State → CmdRes) (bit : Nat) (s : State) : Out :=
  match by_ with
  | .cmd v => .next (directCmd v op (channelCmd v ch f) s)
  | .path p => .next (writeReg p ⟨.DMA_CMD, ch, 0, 0⟩ (BitVec.ofNat 32 (2 ^ bit)) s)

/-- DMA_RESUME, DMA_ABORT (R336). -/
def execDmaResume (by_ : By) (ch : Fin 32) (s : State) : Out := channelRow by_ ch 0x60 cmdDmaResume 0 s
def execDmaAbort (by_ : By) (ch : Fin 32) (s : State) : Out := channelRow by_ ch 0x61 cmdDmaAbort 1 s

/-! ### OTP and images -/

/-- OTP_SHADOW (R392). -/
def execOtpShadow (by_ : By) (word : BitVec 9) (value : Word) (s : State) : Out :=
  match by_ with
  | .cmd v => .next (directCmd v 0x40 (cmdOtpShadow word.toNat value.toNat) s)
  | .path p => .next (writeReg p ⟨.OTP_SH, word.toNat, 0, 0⟩ value s)

/-- OTP_SHADOW_CLEAR (R393), OTP_ARM (R394). -/
def execOtpShadowClear (p : Path) (w : Word) (s : State) : Out := writeRow p ⟨.OTP_CMD, 0, 0, 0⟩ w 4 1 1 s
def execOtpArm (p : Path) (w : Word) (s : State) : Out := .next (writeReg p ⟨.OTP_ARM, 0, 0, 0⟩ w s)

/-- OTP_BURN (R394), COMMIT_LOCK (R396): deferred commands of the OTP group, or OTP_CMD. -/
def execOtpBurn (via : Via) (tag : BitVec 16) (word : BitVec 9) (value : Word) (s : State) : Out :=
  rowVia via 0x41 dieC (fun s => match via with
    | .cmd v => cmdOtpBurn (s.bareDefer v tag.toNat) word.toNat value.toNat s
    | .write _ _ => cmdIgnored s) ⟨.OTP_CMD, 0, 0, 0⟩ 0 1 1 s
def execCommitLock (via : Via) (tag : BitVec 16) (region : BitVec 2) (s : State) : Out :=
  rowVia via 0x42 dieC (fun s => match via with
    | .cmd v => cmdCommitLock (s.bareDefer v tag.toNat) region.toNat s
    | .write _ _ => cmdIgnored s) ⟨.OTP_CMD, 0, 0, 0⟩ 1 1 1 s

/-- IMAGE_STAGE (R357): the class, and the image's place and length. -/
def execImageStage (v : CmdVia) (tag : BitVec 16) (cls : BitVec 2) (ptr : BitVec 48) (len : Word) (s : State) : Out :=
  .next (directCmd v 0x48 (fun s =>
    if ptr.toNat % 4 = 0 then cmdImageStage (s.bareDefer v tag.toNat) cls.toNat ptr.toNat len.toNat s else cmdIgnored s) s)

/-- IMAGE_COMMIT (R358). -/
def execImageCommit (v : CmdVia) (tag : BitVec 16) (cls : BitVec 2) (s : State) : Out :=
  .next (directCmd v 0x49 (fun s => cmdImageCommit (s.bareDefer v tag.toNat) cls.toNat s) s)

/-- IMAGE_HEALTHY (R359): a health report of a class. -/
def execImageHealthy (p : Path) (cls : Fin 3) (w : Word) (s : State) : Out := .next (writeReg p ⟨.ENG_HEALTH, cls, 0, 0⟩ w s)

/-- ENGINE_RESET, ENGINE_HOLD, ENGINE_RELEASE (R350, R363): ENG_CTL written with RESET, with HOLD, and with neither; `bad` tells that the
reload of the reset meets a double-bit error (R361). -/
def execEngineReset (p : Path) (e : Fin 12) (bad : Bool) (s : State) : Out :=
  .next (withLoads (if bad then 2 ^ e.val else 0) (writeReg p ⟨.ENG_CTL, e, 0, 0⟩ 1) s)
def execEngineHold (p : Path) (e : Fin 12) (s : State) : Out := .next (writeReg p ⟨.ENG_CTL, e, 0, 0⟩ 2 s)
def execEngineRelease (p : Path) (e : Fin 12) (s : State) : Out := .next (writeReg p ⟨.ENG_CTL, e, 0, 0⟩ 0 s)

/-! ### Pins and the watchdog -/

/-- GPIO_MOUT_WRITE, GPIO_MOE_WRITE (R373): a group of sixteen latches under a mask. -/
def execGpioMoutWrite (p : Path) (g : Fin 4) (w : Word) (s : State) : Out := .next (writeReg p ⟨.GPIO_MOUT, g, 0, 0⟩ w s)
def execGpioMoeWrite (p : Path) (g : Fin 4) (w : Word) (s : State) : Out := .next (writeReg p ⟨.GPIO_MOE, g, 0, 0⟩ w s)

/-- WDG_KICK (R404); `bad` marks engines whose load copy meets a double-bit error where the failure resets one (R361). -/
def execWdgKick (p : Path) (w : Word) (bad : BitVec 12) (s : State) : Out :=
  .next (withLoads bad.toNat (writeReg p ⟨.WDG_KICK, 0, 0, 0⟩ w) s)

/-- WDG_FORCE (R406). -/
def execWdgForce (p : Path) (w : Word) (s : State) : Out := .next (writeReg p ⟨.WDG_FORCE, 0, 0, 0⟩ w s)

end Sys2Proof.Machine
end

