-- ==== Sys2Proof/Machine/Dispatch.lean ====
section
/-! DEFINITION. Sys2Proof/Machine/Dispatch.lean: the effect of each command, one arm per row of the table (R12 and the rule
of each row). -/

namespace Sys2Proof.Machine

def exec (i : Instr) (s : State) : Host.Outcome State Fault Refusal :=
  match i with
  | .watchdogReset slot kind => Sys2Proof.Machine.execWatchdogReset slot kind s
  | .softReset via => Sys2Proof.Machine.execSoftReset via s
  | .hostPortReset cause => Sys2Proof.Machine.execHostPortReset cause s
  | .engineReset p e bad => Sys2Proof.Machine.execEngineReset p e bad s
  | .engineHold p e => Sys2Proof.Machine.execEngineHold p e s
  | .engineRelease p e => Sys2Proof.Machine.execEngineRelease p e s
  | .engHalt e cause addr => Sys2Proof.Machine.execEngHalt e cause addr s
  | .bootBegin mode jedec bad lo => Sys2Proof.Machine.execBootBegin mode jedec bad lo s
  | .supplyOutOfBand x on => Sys2Proof.Machine.execSupplyOutOfBand x on s
  | .dieIsolated d => Sys2Proof.Machine.execDieIsolated d s
  | .supplyHoldEnd p => Sys2Proof.Machine.execSupplyHoldEnd p s
  | .thermalAlarm d hot => Sys2Proof.Machine.execThermalAlarm d hot s
  | .thermalTrip d => Sys2Proof.Machine.execThermalTrip d s
  | .stbLoss o0 o1 => Sys2Proof.Machine.execStbLoss o0 o1 s
  | .stbStart o0 o1 => Sys2Proof.Machine.execStbStart o0 o1 s
  | .scrubWord mem unit addr double => Sys2Proof.Machine.execScrubWord mem unit addr double s
  | .registerWrite p off be val => Sys2Proof.Machine.execRegisterWrite p off be val s
  | .monEnable p m w => Sys2Proof.Machine.execMonEnable p m w s
  | .monDisable p m w => Sys2Proof.Machine.execMonDisable p m w s
  | .activityLost m => Sys2Proof.Machine.execActivityLost m s
  | .activityRegained m => Sys2Proof.Machine.execActivityRegained m s
  | .freqGateDone m res => Sys2Proof.Machine.execFreqGateDone m res s
  | .phaseJump m dev => Sys2Proof.Machine.execPhaseJump m dev s
  | .qualTimerExpire m => Sys2Proof.Machine.execQualTimerExpire m s
  | .laneCalDone r01 r10 => Sys2Proof.Machine.execLaneCalDone r01 r10 s
  | .selectorPass t => Sys2Proof.Machine.execSelectorPass t s
  | .refForce via t idx => Sys2Proof.Machine.execRefForce via t idx s
  | .refAuto via t => Sys2Proof.Machine.execRefAuto via t s
  | .dpllEnable p t w => Sys2Proof.Machine.execDpllEnable p t w s
  | .dpllDisable p t w => Sys2Proof.Machine.execDpllDisable p t w s
  | .dpllSelect t => Sys2Proof.Machine.execDpllSelect t s
  | .dpllHold t cv => Sys2Proof.Machine.execDpllHold t cv s
  | .sampleLate t cv => Sys2Proof.Machine.execSampleLate t cv s
  | .dpllLock t cv phErr => Sys2Proof.Machine.execDpllLock t cv phErr s
  | .dpllUnlock t cv phErr => Sys2Proof.Machine.execDpllUnlock t cv phErr s
  | .pullinSat t neg => Sys2Proof.Machine.execPullinSat t neg s
  | .buildout t phase => Sys2Proof.Machine.execBuildout t phase s
  | .slewDone t => Sys2Proof.Machine.execSlewDone t s
  | .holdoverForce via t force => Sys2Proof.Machine.execHoldoverForce via t force s
  | .historyInterval t mean cv temp phErr => Sys2Proof.Machine.execHistoryInterval t mean cv temp phErr s
  | .histIntervalWrite p t w => Sys2Proof.Machine.execHistIntervalWrite p t w s
  | .kilnHoWrite t => Sys2Proof.Machine.execKilnHoWrite t s
  | .tcTermWrite p t w => Sys2Proof.Machine.execTcTermWrite p t w s
  | .stbEnWrite p t w => Sys2Proof.Machine.execStbEnWrite p t w s
  | .realign via t mask k => Sys2Proof.Machine.execRealign via t mask k s
  | .realignDone t edges => Sys2Proof.Machine.execRealignDone t edges s
  | .synEnable p c w => Sys2Proof.Machine.execSynEnable p c w s
  | .synDisable p c w => Sys2Proof.Machine.execSynDisable p c w s
  | .synApply p c w => Sys2Proof.Machine.execSynApply p c w s
  | .hop v c nInt path num den => Sys2Proof.Machine.execHop v c nInt path num den s
  | .bandSearchDone c found core band vt => Sys2Proof.Machine.execBandSearchDone c found core band vt s
  | .hopMiss c vt => Sys2Proof.Machine.execHopMiss c vt s
  | .acquireTimeout c => Sys2Proof.Machine.execAcquireTimeout c s
  | .synLock c vt err run => Sys2Proof.Machine.execSynLock c vt err run s
  | .lol c err run => Sys2Proof.Machine.execLol c err run s
  | .researchTimeout c => Sys2Proof.Machine.execResearchTimeout c s
  | .returnHoldExpire c => Sys2Proof.Machine.execReturnHoldExpire c s
  | .bypassReturn v c => Sys2Proof.Machine.execBypassReturn v c s
  | .retAutoWrite p c w => Sys2Proof.Machine.execRetAutoWrite p c w s
  | .bypassSwitch n => Sys2Proof.Machine.execBypassSwitch n s
  | .avenueMuxSwitch n => Sys2Proof.Machine.execAvenueMuxSwitch n s
  | .bandLoadStart p c w => Sys2Proof.Machine.execBandLoadStart p c w s
  | .bandLoadData p c w => Sys2Proof.Machine.execBandLoadData p c w s
  | .bandLoad v c ws => Sys2Proof.Machine.execBandLoad v c ws s
  | .bandSwap c => Sys2Proof.Machine.execBandSwap c s
  | .rampStart via c => Sys2Proof.Machine.execRampStart via c s
  | .rampStop via c home => Sys2Proof.Machine.execRampStop via c home s
  | .rampTick c => Sys2Proof.Machine.execRampTick c s
  | .rampChunkWrite p c i1 w => Sys2Proof.Machine.execRampChunkWrite p c i1 w s
  | .rampLoad v c chunks => Sys2Proof.Machine.execRampLoad v c chunks s
  | .outEnable p n w => Sys2Proof.Machine.execOutEnable p n w s
  | .outDisable p n w => Sys2Proof.Machine.execOutDisable p n w s
  | .outDivWrite p n delay w => Sys2Proof.Machine.execOutDivWrite p n delay w s
  | .bankLoss b v => Sys2Proof.Machine.execBankLoss b v s
  | .outRsync p t w => Sys2Proof.Machine.execOutRsync p t w s
  | .aligned t edges => Sys2Proof.Machine.execAligned t edges s
  | .syncInEdge i1 falling high => Sys2Proof.Machine.execSyncInEdge i1 falling high s
  | .railEnable p r w => Sys2Proof.Machine.execRailEnable p r w s
  | .railDisable p r w => Sys2Proof.Machine.execRailDisable p r w s
  | .softStartBegin r v => Sys2Proof.Machine.execSoftStartBegin r v s
  | .rampTargetReached r => Sys2Proof.Machine.execRampTargetReached r s
  | .railOff r => Sys2Proof.Machine.execRailOff r s
  | .railPg r v => Sys2Proof.Machine.execRailPg r v s
  | .railPgLost r v => Sys2Proof.Machine.execRailPgLost r v s
  | .vidWrite p r w => Sys2Proof.Machine.execVidWrite p r w s
  | .vidDone r => Sys2Proof.Machine.execVidDone r s
  | .shedAdd r itot => Sys2Proof.Machine.execShedAdd r itot s
  | .shedDrop r itot => Sys2Proof.Machine.execShedDrop r itot s
  | .dcmEnter r itot => Sys2Proof.Machine.execDcmEnter r itot s
  | .dcmExit r itot => Sys2Proof.Machine.execDcmExit r itot s
  | .pulsePlan k start imon iref comp ready => Sys2Proof.Machine.execPulsePlan k start imon iref comp ready s
  | .windowAnnounce p w edge => Sys2Proof.Machine.execWindowAnnounce p w edge s
  | .tbLossNotice p => Sys2Proof.Machine.execTbLossNotice p s
  | .laneMonitorExpire p => Sys2Proof.Machine.execLaneMonitorExpire p s
  | .tbPairingWrite p q w => Sys2Proof.Machine.execTbPairingWrite p q w s
  | .fallbackTrim p trim => Sys2Proof.Machine.execFallbackTrim p trim s
  | .tbReturn p => Sys2Proof.Machine.execTbReturn p s
  | .tlmScanStart p => Sys2Proof.Machine.execTlmScanStart p s
  | .tlmFrame p cs damaged => Sys2Proof.Machine.execTlmFrame p cs damaged s
  | .tlmBufSnapshot p => Sys2Proof.Machine.execTlmBufSnapshot p s
  | .seqStart via q => Sys2Proof.Machine.execSeqStart via q s
  | .seqStop via => Sys2Proof.Machine.execSeqStop via s
  | .seqLoad v ws => Sys2Proof.Machine.execSeqLoad v ws s
  | .seqLoadStart p w => Sys2Proof.Machine.execSeqLoadStart p w s
  | .seqLoadData p w => Sys2Proof.Machine.execSeqLoadData p w s
  | .depTrip d => Sys2Proof.Machine.execDepTrip d s
  | .ov r v => Sys2Proof.Machine.execOv r v s
  | .uv r v => Sys2Proof.Machine.execUv r v s
  | .oc k imon iref step => Sys2Proof.Machine.execOc k imon iref step s
  | .tmonSample r mv => Sys2Proof.Machine.execTmonSample r mv s
  | .railRelease r => Sys2Proof.Machine.execRailRelease r s
  | .retryDue r => Sys2Proof.Machine.execRetryDue r s
  | .retryReload r => Sys2Proof.Machine.execRetryReload r s
  | .storeCharge v arg => Sys2Proof.Machine.execStoreCharge v arg s
  | .chgCv v => Sys2Proof.Machine.execChgCv v s
  | .chgFull i1 => Sys2Proof.Machine.execChgFull i1 s
  | .chgRecharge v => Sys2Proof.Machine.execChgRecharge v s
  | .chgFault v => Sys2Proof.Machine.execChgFault v s
  | .storeReady v => Sys2Proof.Machine.execStoreReady v s
  | .vinLoss v => Sys2Proof.Machine.execVinLoss v s
  | .storeLow v => Sys2Proof.Machine.execStoreLow v s
  | .vinGood v => Sys2Proof.Machine.execVinGood v s
  | .hkFault i1 mv => Sys2Proof.Machine.execHkFault i1 mv s
  | .tdMeasure i1 temp => Sys2Proof.Machine.execTdMeasure i1 temp s
  | .linkEnable p k w => Sys2Proof.Machine.execLinkEnable p k w s
  | .linkDisable p k w => Sys2Proof.Machine.execLinkDisable p k w s
  | .helloSend k => Sys2Proof.Machine.execHelloSend k s
  | .linkUp k peer port => Sys2Proof.Machine.execLinkUp k peer port s
  | .linkDown k => Sys2Proof.Machine.execLinkDown k s
  | .linkFreqGate k fofs => Sys2Proof.Machine.execLinkFreqGate k fofs s
  | .markSend k ofs => Sys2Proof.Machine.execMarkSend k ofs s
  | .markRx k seq ofs arr => Sys2Proof.Machine.execMarkRx k seq ofs arr s
  | .markEchoRx k seq arr => Sys2Proof.Machine.execMarkEchoRx k seq arr s
  | .epoch d => Sys2Proof.Machine.execEpoch d s
  | .todSet p w => Sys2Proof.Machine.execTodSet p w s
  | .timeCellSend k => Sys2Proof.Machine.execTimeCellSend k s
  | .timeCellRx k sec => Sys2Proof.Machine.execTimeCellRx k sec s
  | .cellRx k hdr line => Sys2Proof.Machine.execCellRx k hdr line s
  | .messageRx k => Sys2Proof.Machine.execMessageRx k s
  | .messageTimeout k => Sys2Proof.Machine.execMessageTimeout k s
  | .announceRx k gm prio1 prio2 cls reverse withdraw seq hops lat ph blat bph => Sys2Proof.Machine.execAnnounceRx k gm prio1 prio2 cls reverse withdraw seq hops lat ph blat bph s
  | .offerExpire k => Sys2Proof.Machine.execOfferExpire k s
  | .linkJoin v => Sys2Proof.Machine.execLinkJoin v s
  | .linkLeave via => Sys2Proof.Machine.execLinkLeave via s
  | .remoteRd v tag dst off n ptr => Sys2Proof.Machine.execRemoteRd v tag dst off n ptr s
  | .remoteWr v tag dst off n data => Sys2Proof.Machine.execRemoteWr v tag dst off n data s
  | .remoteAccessGo p w => Sys2Proof.Machine.execRemoteAccessGo p w s
  | .remoteRequestRx k write tag src off n data => Sys2Proof.Machine.execRemoteRequestRx k write tag src off n data s
  | .remoteResponseRx k write tag status na data good fault => Sys2Proof.Machine.execRemoteResponseRx k write tag status na data good fault s
  | .remoteTimeout cmd => Sys2Proof.Machine.execRemoteTimeout cmd s
  | .eventSend c => Sys2Proof.Machine.execEventSend c s
  | .signalSend p w => Sys2Proof.Machine.execSignalSend p w s
  | .remoteEventRx k src signal code => Sys2Proof.Machine.execRemoteEventRx k src signal code s
  | .hostWake p w => Sys2Proof.Machine.execHostWake p w s
  | .doorbellReadDone w0 w1 w2 dma => Sys2Proof.Machine.execDoorbellReadDone w0 w1 w2 dma s
  | .commandDispatch words payload fault => Sys2Proof.Machine.execCommandDispatch words payload fault s
  | .nop v => Sys2Proof.Machine.execNop v s
  | .syncState v => Sys2Proof.Machine.execSyncState v s
  | .standbyEnter via => Sys2Proof.Machine.execStandbyEnter via s
  | .standbyExit via => Sys2Proof.Machine.execStandbyExit via s
  | .keepEnter via => Sys2Proof.Machine.execKeepEnter via s
  | .keepTimerWake vin => Sys2Proof.Machine.execKeepTimerWake vin s
  | .railSet v rail wen en wvid vid => Sys2Proof.Machine.execRailSet v rail wen en wvid vid s
  | .eventPost damaged => Sys2Proof.Machine.execEventPost damaged s
  | .hostResync p w => Sys2Proof.Machine.execHostResync p w s
  | .summaryDone fault damaged => Sys2Proof.Machine.execSummaryDone fault damaged s
  | .ringArm p q w => Sys2Proof.Machine.execRingArm p q w s
  | .promote p w => Sys2Proof.Machine.execPromote p w s
  | .page wr pec => Sys2Proof.Machine.execPage wr pec s
  | .operation wr pec => Sys2Proof.Machine.execOperation wr pec s
  | .onOffConfig wr pec => Sys2Proof.Machine.execOnOffConfig wr pec s
  | .clearFaults pec => Sys2Proof.Machine.execClearFaults pec s
  | .writeProtect wr pec => Sys2Proof.Machine.execWriteProtect wr pec s
  | .capability other => Sys2Proof.Machine.execCapability other s
  | .voutCommand wr pec => Sys2Proof.Machine.execVoutCommand wr pec s
  | .voutTransitionRate wr pec => Sys2Proof.Machine.execVoutTransitionRate wr pec s
  | .frequencySwitch wr pec => Sys2Proof.Machine.execFrequencySwitch wr pec s
  | .voutOvFaultLimit wr pec => Sys2Proof.Machine.execVoutOvFaultLimit wr pec s
  | .voutUvFaultLimit wr pec => Sys2Proof.Machine.execVoutUvFaultLimit wr pec s
  | .voutOvFaultResponse wr pec => Sys2Proof.Machine.execVoutOvFaultResponse wr pec s
  | .voutUvFaultResponse wr pec => Sys2Proof.Machine.execVoutUvFaultResponse wr pec s
  | .ioutOcFaultResponse wr pec => Sys2Proof.Machine.execIoutOcFaultResponse wr pec s
  | .otFaultResponse wr pec => Sys2Proof.Machine.execOtFaultResponse wr pec s
  | .ioutOcFaultLimit wr pec => Sys2Proof.Machine.execIoutOcFaultLimit wr pec s
  | .otFaultLimit wr pec => Sys2Proof.Machine.execOtFaultLimit wr pec s
  | .statusCml wr pec => Sys2Proof.Machine.execStatusCml wr pec s
  | .readVin mv => Sys2Proof.Machine.execReadVin mv s
  | .readTemperature1 mv => Sys2Proof.Machine.execReadTemperature1 mv s
  | .mfrRegAddr wr pec => Sys2Proof.Machine.execMfrRegAddr wr pec s
  | .mfrRegData wr pec => Sys2Proof.Machine.execMfrRegData wr pec s
  | .mfrSeqStart b pec => Sys2Proof.Machine.execMfrSeqStart b pec s
  | .pmbTimeout code => Sys2Proof.Machine.execPmbTimeout code s
  | .i3cRegWrite off data err => Sys2Proof.Machine.execI3cRegWrite off data err s
  | .i3cRegRead off n err => Sys2Proof.Machine.execI3cRegRead off n err s
  | .entdaa a => Sys2Proof.Machine.execEntdaa a s
  | .setdasa a => Sys2Proof.Machine.execSetdasa a s
  | .setmwl n => Sys2Proof.Machine.execSetmwl n s
  | .setmrl n => Sys2Proof.Machine.execSetmrl n s
  | .eventPop p w => Sys2Proof.Machine.execEventPop p w s
  | .mailboxGo p w => Sys2Proof.Machine.execMailboxGo p w s
  | .spiCommand p w => Sys2Proof.Machine.execSpiCommand p w s
  | .spiCommandDone status => Sys2Proof.Machine.execSpiCommandDone status s
  | .samplePreload v oe ins step zc => Sys2Proof.Machine.execSamplePreload v oe ins step zc s
  | .regAccess wr off data => Sys2Proof.Machine.execRegAccess wr off data s
  | .dmaEnable p ch w => Sys2Proof.Machine.execDmaEnable p ch w s
  | .dmaDisable p ch w => Sys2Proof.Machine.execDmaDisable p ch w s
  | .dmaDoorbell p ch w => Sys2Proof.Machine.execDmaDoorbell p ch w s
  | .descriptorFetch ch dbe head ext table => Sys2Proof.Machine.execDescriptorFetch ch dbe head ext table s
  | .dmaRequest l => Sys2Proof.Machine.execDmaRequest l s
  | .burstComplete ch src dbe => Sys2Proof.Machine.execBurstComplete ch src dbe s
  | .walkReadDone host x iova kind addr pte err => Sys2Proof.Machine.execWalkReadDone host x iova kind addr pte err s
  | .dmaFault ch src fetch head ext => Sys2Proof.Machine.execDmaFault ch src fetch head ext s
  | .dmaResume by_ ch => Sys2Proof.Machine.execDmaResume by_ ch s
  | .dmaAbort by_ ch => Sys2Proof.Machine.execDmaAbort by_ ch s
  | .datuInv p w => Sys2Proof.Machine.execDatuInv p w s
  | .otpShadow by_ word value => Sys2Proof.Machine.execOtpShadow by_ word value s
  | .otpShadowClear p w => Sys2Proof.Machine.execOtpShadowClear p w s
  | .otpArm p w => Sys2Proof.Machine.execOtpArm p w s
  | .otpBurn via tag word value => Sys2Proof.Machine.execOtpBurn via tag word value s
  | .commitLock via tag region => Sys2Proof.Machine.execCommitLock via tag region s
  | .burnPulseDone n lo hi => Sys2Proof.Machine.execBurnPulseDone n lo hi s
  | .imageStage v tag cls ptr len => Sys2Proof.Machine.execImageStage v tag cls ptr len s
  | .imageStaged data fault flashBad part => Sys2Proof.Machine.execImageStaged data fault flashBad part s
  | .imageCommit v tag cls => Sys2Proof.Machine.execImageCommit v tag cls s
  | .imageCommitted bad part => Sys2Proof.Machine.execImageCommitted bad part s
  | .imageHealthy p cls w => Sys2Proof.Machine.execImageHealthy p cls w s
  | .pinHandover i1 => Sys2Proof.Machine.execPinHandover i1 s
  | .faultIn k on => Sys2Proof.Machine.execFaultIn k on s
  | .gpioMoutWrite p g w => Sys2Proof.Machine.execGpioMoutWrite p g w s
  | .gpioMoeWrite p g w => Sys2Proof.Machine.execGpioMoeWrite p g w s
  | .pinIrq i1 level bank => Sys2Proof.Machine.execPinIrq i1 level bank s
  | .pwmxPeriod k => Sys2Proof.Machine.execPwmxPeriod k s
  | .wdgKick p w bad => Sys2Proof.Machine.execWdgKick p w bad s
  | .wdgFrameEnd i1 bad => Sys2Proof.Machine.execWdgFrameEnd i1 bad s
  | .wdgForce p w => Sys2Proof.Machine.execWdgForce p w s
  | .pcieLinkUp rate width => Sys2Proof.Machine.execPcieLinkUp rate width s
  | .bankSupplyReturn b v => Sys2Proof.Machine.execBankSupplyReturn b v s
  | .fineWalkDone n => Sys2Proof.Machine.execFineWalkDone n s
  | .powerOnReset => Sys2Proof.Machine.execPowerOnReset s
  | .supplyLoss => Sys2Proof.Machine.execSupplyLoss s
  | .pinReset => Sys2Proof.Machine.execPinReset s
  | .loLossReset => Sys2Proof.Machine.execLoLossReset s
  | .heldBlink => Sys2Proof.Machine.execHeldBlink s
  | .keeperLost => Sys2Proof.Machine.execKeeperLost s
  | .keeperReturn => Sys2Proof.Machine.execKeeperReturn s
  | .seqSwap => Sys2Proof.Machine.execSeqSwap s
  | .stepWaitSatisfied => Sys2Proof.Machine.execStepWaitSatisfied s
  | .stepActionDone => Sys2Proof.Machine.execStepActionDone s
  | .stepTimeout => Sys2Proof.Machine.execStepTimeout s
  | .announceOriginate => Sys2Proof.Machine.execAnnounceOriginate s
  | .listenEnd => Sys2Proof.Machine.execListenEnd s
  | .doorbellPoll => Sys2Proof.Machine.execDoorbellPoll s
  | .keepHk0Stop => Sys2Proof.Machine.execKeepHk0Stop s
  | .vinWake => Sys2Proof.Machine.execVinWake s
  | .completionPost => Sys2Proof.Machine.execCompletionPost s
  | .resyncDrained => Sys2Proof.Machine.execResyncDrained s
  | .voutMode => Sys2Proof.Machine.execVoutMode s
  | .statusByte => Sys2Proof.Machine.execStatusByte s
  | .statusWord => Sys2Proof.Machine.execStatusWord s
  | .statusVout => Sys2Proof.Machine.execStatusVout s
  | .statusIout => Sys2Proof.Machine.execStatusIout s
  | .statusTemperature => Sys2Proof.Machine.execStatusTemperature s
  | .readVout => Sys2Proof.Machine.execReadVout s
  | .readIout => Sys2Proof.Machine.execReadIout s
  | .pmbusRevision => Sys2Proof.Machine.execPmbusRevision s
  | .mfrId => Sys2Proof.Machine.execMfrId s
  | .mfrModel => Sys2Proof.Machine.execMfrModel s
  | .mfrRevision => Sys2Proof.Machine.execMfrRevision s
  | .mfrHubState => Sys2Proof.Machine.execMfrHubState s
  | .mfrPhases => Sys2Proof.Machine.execMfrPhases s
  | .mfrTbStatus => Sys2Proof.Machine.execMfrTbStatus s
  | .mfrIgnored => Sys2Proof.Machine.execMfrIgnored s
  | .alertResponse => Sys2Proof.Machine.execAlertResponse s
  | .enec => Sys2Proof.Machine.execEnec s
  | .disec => Sys2Proof.Machine.execDisec s
  | .rstdaa => Sys2Proof.Machine.execRstdaa s
  | .getmwl => Sys2Proof.Machine.execGetmwl s
  | .getmrl => Sys2Proof.Machine.execGetmrl s
  | .getpid => Sys2Proof.Machine.execGetpid s
  | .getbcr => Sys2Proof.Machine.execGetbcr s
  | .getdcr => Sys2Proof.Machine.execGetdcr s
  | .getstatus => Sys2Proof.Machine.execGetstatus s
  | .unsupportedCcc => Sys2Proof.Machine.execUnsupportedCcc s
  | .hdrEntry => Sys2Proof.Machine.execHdrEntry s
  | .spiPollTimeout => Sys2Proof.Machine.execSpiPollTimeout s
  | .extest => Sys2Proof.Machine.execExtest s
  | .idcode => Sys2Proof.Machine.execIdcode s
  | .clamp => Sys2Proof.Machine.execClamp s
  | .highz => Sys2Proof.Machine.execHighz s
  | .bypass => Sys2Proof.Machine.execBypass s
  | .jtagReset => Sys2Proof.Machine.execJtagReset s
  | .burstGrant => Sys2Proof.Machine.execBurstGrant s
  | .datuInvDone => Sys2Proof.Machine.execDatuInvDone s
  | .lockMarginReadDone => Sys2Proof.Machine.execLockMarginReadDone s
  | .captureSample => Sys2Proof.Machine.execCaptureSample s
  | .hk0InRegulation => Sys2Proof.Machine.execHk0InRegulation s
  | .kilnSupplyLoss => Sys2Proof.Machine.execKilnSupplyLoss s
  | .keepVinLow => Sys2Proof.Machine.execKeepVinLow s

end Sys2Proof.Machine
end

