-- ==== Sys2Proof/Machine/Tick.lean ====
section
/-! DEFINITION. Sys2Proof/Machine/Tick.lean: what the empty queue does in place of idling: one microsecond of the main LO and of the
keeper, and what moves in it (R426, R427; log entries 9 and 101). -/

namespace Sys2Proof.Machine

/-- Microseconds in a keeper second. -/
def usPerSec : Nat := 1000000

/-- GLB_TIMER counts microseconds of the main LO while it runs; it stands still in OFF and KEEP (R29, R426). -/
def timerTick (s : State) : State :=
  if s.pkg = pkgOff ∨ s.pkg = pkgKeep ∨ !s.pkg_.loRuns then s
  else s.setWide GLB_TIMER_LO_US GLB_TIMER_HI_US (s.getWide GLB_TIMER_LO_US GLB_TIMER_HI_US + 1)

/-- KLN_TIME counts keeper seconds while the keeper runs (R31, R427). -/
def keeperTick (s : State) : State :=
  if !s.on KLN_STAT_KEEPER_OK then s
  else if s.pkg_.subSec + 1 < usPerSec then { s with pkg_ := { s.pkg_ with subSec := s.pkg_.subSec + 1 } }
  else { s with pkg_ := { s.pkg_ with subSec := 0 } }.set KLN_TIME_SEC (s.get KLN_TIME_SEC + 1)

/-- The low-water request of a Wheel, one burst at a time (R132). -/
def wheelTickLow (c : Nat) (s : State) : State :=
  match s.boundTo (lineLowWater c) with
  | some ch => if (s.dmaOf ch).bursts.isEmpty && (s.dmaOf ch).reqs.isEmpty then lowWater c s else s
  | none => lowWater c s

/-- The clocks of the T-dies' monitors, the slews, the rails' targets and the low-water requests move on (R50, R89, R132, R175), and the
windows follow the rates of their units (R182). -/
def clocksTick (s : State) : State :=
  let s1 := s.each 16 qualTick
  let s2 := s1.each 4 slewTick
  let s3 := s2.each 24 railTick
  refreshAllWindows (s3.each 12 wheelTickLow)

/-- The accesses that wait for a response come nearer to their timeout (R252). -/
def remoteTick (s : State) : State :=
  let step (a : Option RmtAcc) : Option RmtAcc := a.map (fun a => { a with left := a.left - 1 })
  s.modSys (fun x => { x with cmdAcc := step x.cmdAcc, regAcc := step x.regAcc })

/-- One microsecond with no command (log entries 9 and 101). The hub's own clocks stand still in OFF and KEEP and while the main LO
does; the Kiln's does not. The moment of a package reset is over (R424). -/
def tick (s : State) : State :=
  let s1 := (keeperTick (timerTick s)).modPkg (fun x => { x with resetHold := false })
  if s.pkg = pkgOff ∨ s.pkg = pkgKeep ∨ !s.pkg_.loRuns then s1 else releaseTick (frameTick (remoteTick (clocksTick s1)))

end Sys2Proof.Machine
end

