-- ==== Sys2Proof/Safety.lean ====
section
/-! DEFINITION. Sys2Proof/Safety.lean: what every state of the hub keeps (the canonical forms of its sparse memories), and the terms the
statements use: a write that is taken, an event posted, and what a command leaves unchanged. -/

namespace Sys2Proof.Machine

/-- The register file, the flash and the engines' memories are in canonical form, so equal contents are equal data. -/
abbrev State.Canon (s : State) : Prop :=
  RegsWf s.regs ∧ Memory.wf 0xFF s.flash ∧ ∀ m ∈ s.engMem.toList, Memory.wf 0 m.text ∧ Memory.wf 0 m.data

/-- A run is safe when each of its steps answers a next state. -/
def State.Goes (s : State) : Prop := ∃ t, step s = .next t

/-- The offset of a field's register. -/
def Fld.off (f : Fld) : Nat := f.reg.off

/-- The value a written word gives a field. -/
def Fld.of (f : Fld) (w : Word) : Nat := wordGet w f.lo f.w

/-- A write of a register that exists is carried, reaches it, finds its die in contact, and satisfies the legal values, the order,
state and owner rules (R12, R36). -/
abbrev State.takesWrite (s : State) (p : Path) (r : Reg) (w : Word) : Prop :=
  s.pathOpen p true = true ∧ s.reaches p r.off w = true ∧ s.isolated (dieOfOff r.off) = false ∧ s.accepts p r w = true

/-- An event's record, whether or not the interrupt line has been asked for it. -/
def EvtRec.bare (e : EvtRec) : EvtRec := { e with req := none }

/-- No event has been posted between two states, and none has left the FIFO. -/
def Silent (s t : State) : Prop := t.evtSeq = s.evtSeq ∧ t.evtFifo.map EvtRec.bare = s.evtFifo.map EvtRec.bare

/-- Between two states one event has been posted: it has the next sequence number and, with room, is the FIFO's last record (R280);
the record of a die whose links are isolated never reaches the C-die, where the FIFO is (R22, R23, R34). -/
def Posted (s t : State) (code src : Nat) : Prop :=
  if s.linked (evtDie code src) dieC then
    t.evtSeq = s.evtSeq + 1 ∧ (s.evtFifo.length < evtCapacity →
      ∃ e, t.evtFifo.getLast? = some e ∧ e.code = code ∧ e.src = src ∧ e.seq = s.evtSeq + 1)
  else Silent s t

/-- A usable candidate ranks before every other usable one: the lower priority value, then the lower index (R59). -/
def State.ranksFirst (s : State) (t i : Nat) : Bool :=
  s.candUsable t i && (List.range 20).all (fun j =>
    !s.candUsable t j || s.candPrio t i < s.candPrio t j || (s.candPrio t i = s.candPrio t j && i ≤ j))

/-- Between two states the listed events (code and source) have been posted in their order, those of dies whose links are isolated left out:
each takes the next sequence number, and with room for all of them they are the FIFO's last records (R22, R280). -/
abbrev Posts (s t : State) (l : List (Nat × Nat)) : Prop :=
  let m := l.filter (fun e => s.linked (evtDie e.1 e.2) dieC)
  t.evtSeq = s.evtSeq + m.length ∧ (s.evtFifo.length + m.length ≤ evtCapacity →
    t.evtFifo.map (fun e => (e.code, e.src, e.seq)) =
      s.evtFifo.map (fun e => (e.code, e.src, e.seq)) ++ m.zipIdx.map (fun e => (e.1.1, e.1.2, s.evtSeq + 1 + e.2)))

/-- What the end of a command adds by the way it came: from the mailbox, MBX_DONE and the mailbox's registers (R305). -/
def viaEvt : CmdVia → List (Nat × Nat)
  | .ring => []
  | .mbx _ => [(0x0904, 0)]
def viaOffs : CmdVia → List Nat
  | .ring => []
  | .mbx _ => [MGT_MBX_CTL_BUSY.off, MGT_MBX_RES_RESULT.off, MGT_EVT_EVT.off] ++ eventOffs
def viaSpans : CmdVia → List (Nat × Nat)
  | .ring => []
  | .mbx _ => [(0x2000, 0x4000)]

/-- The source an IGNORED command is counted with (R426). -/
def viaSource : CmdVia → Nat
  | .ring => 0x02
  | .mbx _ => 0x07

/-- The rails on which an action ACT of rail `r`'s faults falls: REPORT none, RAIL the rail, GROUP also the rails of its mask, PACKAGE all
(R208). -/
def State.actsOn (s : State) (r act q : Nat) : Bool :=
  act = 3 || (act ≠ 0 && q = r) || (act = 2 && q / 6 = r / 6 && s.bit (PRG_FM_GRP_GRP r) (q % 6))

/-- Between two states an action of rail `r`'s faults has been taken: the rails it falls on are in SAFE, those that are OFF stay so, and
every other rail is in the state it was in (R172, R208). -/
abbrev Acted (s t : State) (r act : Nat) : Prop :=
  ∀ q : Fin 24, t.railState q = if s.actsOn r act q && s.railState q ≠ railOff then railSafe else s.railState q

/-- A typed cell that leaves on a port as the `i`-th thing sent after a state: its bytes and its line bits (R229, R230). -/
def State.cellOut (s : State) (i k type : Nat) (body : List Byte) : Emit :=
  .link k type (cellBytes type body) (cellLine (Config.lineFill k (s.sent.length + i)).toNat type body)

/-- The cell begins a message of a kind on a port (R231, R241). -/
def Emit.begins (k kind : Nat) : Emit → Bool
  | .link j type x _ => j = k && type = cellFirst && bytesAt x 1 1 = natBytes 1 kind
  | _ => false

/-- Between two states a stage from the mailbox has answered for class `c` as the programmed slot of `z` is found (R357): STAGED with the
image's version where it is good and compatible, and else POISONED with the cause, STAGED as it was unless the image itself is good. -/
def StageAnswered (c : Nat) (z s t : State) : Prop :=
  match z.checkImage c (1 - s.get (ENG_IMG_STAT_ACTIVE c)) with
  | .ok i =>
    if (decideClass z c i).1 = 0 then
      t.get MGT_MBX_CTL_STATUS = stOk ∧ t.get (ENG_IMG_STAT_STAGED c) = 1 ∧ t.get (ENG_STG_VER_VERSION c) = i.version % 2 ^ 32 ∧
        bankGet t.stg c = some i
    else t.get MGT_MBX_CTL_STATUS = stPoisoned ∧ t.get MGT_MBX_RES_RESULT = (decideClass z c i).1
  | .error why =>
    t.get MGT_MBX_CTL_STATUS = stPoisoned ∧ t.get MGT_MBX_RES_RESULT = why % 2 ^ 32 ∧
      t.get (ENG_IMG_STAT_STAGED c) = s.get (ENG_IMG_STAT_STAGED c)

/-- The flash (its bytes and the spans whose program or erase was cut short), the engines' memories, the fuses and the queue are what they
were. -/
def Stored (s t : State) : Prop :=
  t.flash = s.flash ∧ t.torn = s.torn ∧ t.engMem = s.engMem ∧ t.otp.fuse = s.otp.fuse ∧ t.pending = s.pending

/-- Outside the listed register offsets no register that exists has changed, nor what Stored names. -/
def Frame (s t : State) (offs : List Nat) : Prop :=
  (∀ q : Reg, q.real = true → q.off ∉ offs → t.word q = s.word q) ∧ Stored s t

/-- Outside the listed spans of register offsets, each from its first to before its second, and the event registers, nothing of the
register file has changed. -/
def RegsWithin (s t : State) (spans : List (Nat × Nat)) : Prop :=
  ∀ q : Reg, q.real = true → (∀ a ∈ spans, q.off < a.1 ∨ a.2 ≤ q.off) → q.off ∉ eventOffs → t.word q = s.word q

/-- Nor has what Stored names. -/
def Within (s t : State) (spans : List (Nat × Nat)) : Prop := RegsWithin s t spans ∧ Stored s t

/-- The registers that a read of a telemetry buffer's first word fills (R193). -/
abbrev tlmBufOffs : List Nat :=
  (List.range 4).flatMap (fun p => (List.range 64).map (fun w => Reg.off ⟨.PRG_TLM_BUF, p, w, 0⟩))

/-- The registers of the package. -/
abbrev spanGlb : List (Nat × Nat) := [(0, 0x1000)]

/-- The registers of the host port. -/
abbrev spanHost : List (Nat × Nat) := [(0x1000, 0x2000)]

/-- The registers of the management ports. -/
abbrev spanMgt : List (Nat × Nat) := [(0x2000, 0x4000)]

/-- The registers of the Kiln. -/
abbrev spanKln : List (Nat × Nat) := [(0x4000, 0x5000)]

/-- The registers of the watchdog. -/
abbrev spanWdg : List (Nat × Nat) := [(0x5000, 0x6000)]

/-- The registers of the OTP block. -/
abbrev spanOtp : List (Nat × Nat) := [(0x6000, 0x8000)]

/-- The registers of the pins. -/
abbrev spanPin : List (Nat × Nat) := [(0x8000, 0x10000)]

/-- The registers of the plaza: monitors and selectors. -/
abbrev spanPlz : List (Nat × Nat) := [(0x10000, 0x12000)]

/-- The registers of the region DPLLs. -/
abbrev spanTrg : List (Nat × Nat) := [(0x20000, 0x30000)]

/-- The registers of the clusters. -/
abbrev spanSyn : List (Nat × Nat) := [(0x30000, 0x3c000)]

/-- The registers of the outputs. -/
abbrev spanOut : List (Nat × Nat) := [(0x40000, 0x46000)]

/-- The registers of the wheel. -/
abbrev spanRmp : List (Nat × Nat) := [(0x48000, 0x4b000)]

/-- The registers of the power regions. -/
abbrev spanPrg : List (Nat × Nat) := [(0x50000, 0x60000)]

/-- The registers of the sequencer, the faults, the hold-up block and housekeeping. -/
abbrev spanSeq : List (Nat × Nat) := [(0x60000, 0x70000)]

/-- The registers of the links. -/
abbrev spanLnk : List (Nat × Nat) := [(0x70000, 0x78000)]

/-- The registers of the DMA channels and the DATU. -/
abbrev spanDma : List (Nat × Nat) := [(0x80000, 0x90000)]

/-- The registers of the engines. -/
abbrev spanEng : List (Nat × Nat) := [(0x90000, 0x93000)]

/-- The registers that a change of power or of a clock may reach: the pins, the timing and power regions, the sequencer, the links. -/
abbrev spanWork : List (Nat × Nat) := spanPin ++ spanTrg ++ spanSyn ++ spanOut ++ spanRmp ++ spanPrg ++ spanSeq ++ spanLnk

end Sys2Proof.Machine
end

