-- ==== Sys2Proof/Certificates/Slice0/Obligations.lean ====
section
/-! DEFINITION. Sys2Proof/Certificates/Slice0/Obligations.lean: what is stated of the hub for the provers: the meaning of every command, the
frames, the write path, the step and the invariant that every step keeps. -/

open Sys2Proof Sys2Proof.Machine

/-- ACTIVITY_LOST clears ACT; on a qualifying or qualified monitor it also goes to FAILED with the timer at 0, counts the loss and posts
LOS, and on a FAILED one nothing more. ACTIVITY_REGAINED sets ACT and starts a gate that will give a result. Every other register,
the flash, the fuses and the queue stay. A taken write that raises EN starts an OFF monitor in FAILED with no activity seen; a taken
write with EN = 0 puts it in OFF with activity and timer cleared. The written FORMAT is stored, no event is posted, and no other
register changes. -/
def Obligations.MonitorActivityAndEnable : Prop :=
  (∀ (m : Fin 16) (s : State), s.monRuns m = true → s.monTrusted m = true → ∃ u, exec (.activityLost m) s = .next u ∧ u.get
    (MON_STAT_STATE m) = monFailed ∧ u.get (MON_STAT_ACT m) = 0 ∧ u.get (MON_QREM_QREM m) = 0 ∧ u.get (MON_EVT_LOS m) = 1 ∧ u.get
    (MON_CNT_LOS_CNT m) = satNat 16 (s.get (MON_CNT_LOS_CNT m) + 1) ∧ Posted s u 0x0100 m ∧ Frame s u ([Fld.off (MON_STAT_STATE m),
    Fld.off (MON_QREM_QREM m), Fld.off (MON_EVT_LOS m), Fld.off (MON_CNT_LOS_CNT m)] ++ eventOffs)) ∧
  (∀ (m : Fin 16) (s : State), s.monRuns m = true → s.monTrusted m = false → ∃ u, exec (.activityLost m) s = .next u ∧ u.get
    (MON_STAT_ACT m) = 0 ∧ u.get (MON_STAT_STATE m) = s.get (MON_STAT_STATE m) ∧ Silent s u ∧ Frame s u [Fld.off (MON_STAT_ACT m)]) ∧
  (∀ (m : Fin 16) (s : State), s.monRuns m = true → ∃ u, exec (.activityRegained m) s = .next u ∧ u.get (MON_STAT_ACT m) = 1 ∧
    (bankGet u.mon m.val).gateVoid = false ∧ u.get (MON_STAT_STATE m) = s.get (MON_STAT_STATE m) ∧ Silent s u ∧ Frame s u [Fld.off
    (MON_STAT_ACT m)]) ∧
  (∀ (p : Path) (m : Fin 16) (w : Word) (s : State), s.takesWrite p ⟨.MON_CFG, m, 0, 0⟩ (wordSet w 0 1 1) → s.get (MON_CFG_EN m) =
    0 → s.get (MON_STAT_STATE m) = monOff → ∃ u, exec (.monEnable p m w) s = .next u ∧ u.get (MON_CFG_EN m) = 1 ∧ u.get
    (MON_CFG_FORMAT m) = (MON_CFG_FORMAT m).of w ∧ u.get (MON_STAT_STATE m) = monFailed ∧ u.get (MON_STAT_ACT m) = 0 ∧ Silent s u ∧
    Frame s u [Fld.off (MON_CFG_EN m), Fld.off (MON_STAT_STATE m)]) ∧
  (∀ (p : Path) (m : Fin 16) (w : Word) (s : State), s.takesWrite p ⟨.MON_CFG, m, 0, 0⟩ (wordSet w 0 1 0) → ∃ u, exec (.monDisable
    p m w) s = .next u ∧ u.get (MON_CFG_EN m) = 0 ∧ u.get (MON_CFG_FORMAT m) = (MON_CFG_FORMAT m).of w ∧ u.get (MON_STAT_STATE m) =
    monOff ∧ u.get (MON_STAT_ACT m) = 0 ∧ u.get (MON_QREM_QREM m) = 0 ∧ Silent s u ∧ Frame s u [Fld.off (MON_CFG_EN m), Fld.off
    (MON_STAT_STATE m), Fld.off (MON_QREM_QREM m)])

/-- A gate that gives a result stores it in FOFS with FVALID; beyond the reject limit it takes a qualifying or qualified monitor to
FAILED and posts FREQ_REJECT; within the accept limit, with activity, it takes a FAILED monitor to QUALIFYING with QREM = QUAL. A
voided gate gives nothing. An examined edge whose deviation, reduced modulo D nominal periods, is beyond the threshold counts and
records the reduced jump and posts PHASE_JUMP; with PJ_ACTION 0 a QUALIFIED monitor goes to FAILED, and a QUALIFYING one restarts
its timer at the length it was loaded with. The end of the timer makes a QUALIFYING monitor QUALIFIED and posts QUALIFIED. In each
clause no register outside those it names and the event registers changes, nor do the flash, the fuses or the queue. -/
def Obligations.MonitorGatesJumpsAndQualification : Prop :=
  (∀ (m : Fin 16) (res : BitVec 48) (s : State), s.monRuns m = true → (bankGet s.mon m.val).gateVoid = false → s.monTrusted m =
    true → withinLimit res.toInt (s.get (MON_REJECT_REJECT m)) = false → ∃ u, exec (.freqGateDone m res) s = .next u ∧ u.get
    (MON_STAT_STATE m) = monFailed ∧ u.get (MON_QREM_QREM m) = 0 ∧ u.get (MON_FOFS_FOFS m) = satS32 res.toInt % 2 ^ 32 ∧ u.get
    (MON_STAT_FVALID m) = 1 ∧ u.get (MON_STAT_IN_REJECT m) = 0 ∧ u.get (MON_EVT_FREQ_REJECT m) = 1 ∧ Posted s u 0x0101 m ∧ Frame s u
    ([Fld.off (MON_STAT_STATE m), Fld.off (MON_FOFS_FOFS m), Fld.off (MON_QREM_QREM m), Fld.off (MON_EVT_LOS m)] ++ eventOffs)) ∧
  (∀ (m : Fin 16) (res : BitVec 48) (s : State), s.monRuns m = true → (bankGet s.mon m.val).gateVoid = false → s.get
    (MON_STAT_STATE m) = monFailed → s.on (MON_STAT_ACT m) = true → withinLimit res.toInt (s.get (MON_ACCEPT_ACCEPT m)) = true → ∃
    u, exec (.freqGateDone m res) s = .next u ∧ u.get (MON_STAT_STATE m) = monQualifying ∧ u.get (MON_QREM_QREM m) = s.get
    (MON_QUAL_QUAL m) ∧ u.get (MON_STAT_IN_ACCEPT m) = 1 ∧ Silent s u ∧ Frame s u [Fld.off (MON_STAT_STATE m), Fld.off
    (MON_FOFS_FOFS m), Fld.off (MON_QREM_QREM m)]) ∧
  (∀ (m : Fin 16) (res : BitVec 48) (s : State), s.monRuns m = true → (bankGet s.mon m.val).gateVoid = true → ∃ u, exec
    (.freqGateDone m res) s = .next u ∧ (bankGet u.mon m.val).gateVoid = !s.on (MON_STAT_ACT m) ∧ Silent s u ∧ Frame s u []) ∧
  (∀ (m : Fin 16) (dev : Word) (s : State), s.monRuns m = true → s.on (MON_STAT_ACT m) = true → s.jumpSeen m dev.toInt = true →
    s.get (MON_STAT_STATE m) = monQualified → s.get (MON_CFG_PJ_ACTION m) = 0 → ∃ u, exec (.phaseJump m dev) s = .next u ∧ u.get
    (MON_STAT_STATE m) = monFailed ∧ u.get (MON_QREM_QREM m) = 0 ∧ u.get (MON_PJ_LAST_PJ_LAST m) = ofSigned 32 (roundDivInt
    (s.jumpDev m dev.toInt) (s.refUnits m)) ∧ u.get (MON_CNT_PJ_CNT m) = satNat 16 (s.get (MON_CNT_PJ_CNT m) + 1) ∧ u.get
    (MON_EVT_PHASE_JUMP m) = 1 ∧ Posted s u 0x0102 m ∧ Frame s u ([Fld.off (MON_STAT_STATE m), Fld.off (MON_QREM_QREM m), Fld.off
    (MON_PJ_LAST_PJ_LAST m), Fld.off (MON_CNT_PJ_CNT m), Fld.off (MON_EVT_LOS m)] ++ eventOffs)) ∧
  (∀ (m : Fin 16) (dev : Word) (s : State), s.monRuns m = true → s.on (MON_STAT_ACT m) = true → s.jumpSeen m dev.toInt = true →
    s.get (MON_STAT_STATE m) = monQualifying → ∃ u, exec (.phaseJump m dev) s = .next u ∧ u.get (MON_STAT_STATE m) = monQualifying ∧
    (bankGet u.mon m.val).qual = (bankGet s.mon m.val).qualLen ∧ (bankGet u.mon m.val).qualLen = (bankGet s.mon m.val).qualLen ∧
    u.get (MON_EVT_PHASE_JUMP m) = 1 ∧ Posted s u 0x0102 m ∧ Within s u spanPlz) ∧
  (∀ (m : Fin 16) (s : State), s.monRuns m = true → s.get (MON_STAT_STATE m) = monQualifying → ∃ u, exec (.qualTimerExpire m) s =
    .next u ∧ u.get (MON_STAT_STATE m) = monQualified ∧ u.get (MON_QREM_QREM m) = 0 ∧ u.get (MON_EVT_QUALIFIED m) = 1 ∧ Posted s u
    0x0103 m ∧ Frame s u ([Fld.off (MON_STAT_STATE m), Fld.off (MON_QREM_QREM m), Fld.off (MON_EVT_LOS m)] ++ eventOffs))

/-- SELECTOR_PASS decides from one snapshot. FORCED selects FORCE_IDX, and SYSTEM the candidate of PLZ_SEL_SYS while SYS_VALID is 1,
where it is usable (enabled and qualified), and else nothing. AUTO with no usable selection takes the usable candidate that ranks
first, by priority and then by index, and none where there is none; it stays on a usable selection with REVERT 0, and with REVERT 1
leaves it only for a strictly lower priority value. A pass that changes nothing leaves the state as it is; a change posts REF_SWITCH
and touches only PLZ_SEL_STAT and the event registers. In each clause no register outside those it names and the event registers
changes, nor do the flash, the fuses or the queue. -/
def Obligations.SelectorPassTakesTheChoice : Prop :=
  (∀ (t : Fin 4) (s : State), ∃ u, exec (.selectorPass t) s = .next u ∧ u.selected t = s.selectorChoice t ∧ (s.selectorChoice t =
    s.selected t → u = s) ∧ (s.selectorChoice t ≠ s.selected t → Posted s u 0x0104 t ∧ Frame s u (Fld.off (PLZ_SEL_STAT_CUR_IDX t)
    :: eventOffs))) ∧
  (∀ (t : Fin 4) (s : State), s.get (PLZ_SEL_CTL_MODE t) = 1 → ∃ u, exec (.selectorPass t) s = .next u ∧ u.selected t = (if
    s.candUsable t (s.get (PLZ_SEL_CTL_FORCE_IDX t)) = true then some (s.get (PLZ_SEL_CTL_FORCE_IDX t)) else none) ∧ Within s u
    (spanPlz ++ spanWork)) ∧
  (∀ (t : Fin 4) (s : State), s.get (PLZ_SEL_CTL_MODE t) = 2 → ∃ u, exec (.selectorPass t) s = .next u ∧ u.selected t = (if s.on
    (PLZ_SEL_SYS_SYS_VALID t) = true ∧ s.candUsable t (s.get (PLZ_SEL_SYS_SYS_IDX t)) = true then some (s.get (PLZ_SEL_SYS_SYS_IDX
    t)) else none) ∧ Within s u (spanPlz ++ spanWork)) ∧
  (∀ (t : Fin 4) (s : State), s.get (PLZ_SEL_CTL_MODE t) = 0 → (s.selected t).all (fun x => !s.candUsable t x) = true → ∃ u, exec
    (.selectorPass t) s = .next u ∧ (∀ i : Fin 20, u.selected t = some i.val ↔ s.ranksFirst t i = true) ∧ (u.selected t).all (fun x
    => x < 20) = true ∧ Within s u (spanPlz ++ spanWork)) ∧
  (∀ (t : Fin 4) (x : Fin 20) (s : State), s.get (PLZ_SEL_CTL_MODE t) = 0 → s.selected t = some x.val → s.candUsable t x = true →
    s.get (PLZ_SEL_CTL_REVERT t) = 0 → ∃ u, exec (.selectorPass t) s = .next u ∧ u.selected t = some x.val ∧ Within s u (spanPlz ++
    spanWork)) ∧
  (∀ (t : Fin 4) (x i : Fin 20) (s : State), s.get (PLZ_SEL_CTL_MODE t) = 0 → s.selected t = some x.val → s.candUsable t x = true
    → s.get (PLZ_SEL_CTL_REVERT t) = 1 → s.ranksFirst t i = true → ∃ u, exec (.selectorPass t) s = .next u ∧ u.selected t = some (if
    s.candPrio t i < s.candPrio t x then i.val else x.val) ∧ Within s u (spanPlz ++ spanWork))

/-- REF_FORCE of an enabled candidate below 20 puts the selector in FORCED on it and completes OK; any other, from the mailbox,
completes IGNORED, is counted with source 7 and changes nothing else. REF_AUTO returns the selector to AUTO and keeps FORCE_IDX.
LANE_CAL_DONE stores both residuals and sets CAL_DONE. -/
def Obligations.SelectorCommands : Prop :=
  (∀ (v : CmdVia) (t : Fin 4) (i : BitVec 8) (s : State), s.takesCmd v = true → s.isolated (dieOfRegion t) = false → i.toNat < 20
    → s.bit (PLZ_CAND_CAND_EN t) i.toNat = true → ∃ u, exec (.refForce v t i) s = .next u ∧ u.get (PLZ_SEL_CTL_MODE t) = 1 ∧ u.get
    (PLZ_SEL_CTL_FORCE_IDX t) = i.toNat ∧ u.host.lastStatus = stOk ∧ Posts s u (viaEvt v) ∧ Frame s u ([Fld.off (PLZ_SEL_CTL_MODE
    t)] ++ viaOffs v)) ∧
  (∀ (v : CmdVia) (t : Fin 4) (i : BitVec 8) (s : State), s.takesCmd v = true → s.isolated (dieOfRegion t) = false → 20 ≤ i.toNat
    ∨ s.bit (PLZ_CAND_CAND_EN t) i.toNat = false → ∃ u, exec (.refForce v t i) s = .next u ∧ u.host.lastStatus = stIgnored ∧ u.get
    GLB_IGNORED_CNT_CNT = satNat 32 (s.get GLB_IGNORED_CNT_CNT + 1) ∧ u.get GLB_IGNORED_LAST_S_SOURCE = viaSource v ∧ Posts s u
    (viaEvt v) ∧ Frame s u (ignoredOffs ++ viaOffs v)) ∧
  (∀ (v : CmdVia) (t : Fin 4) (s : State), s.takesCmd v = true → s.isolated (dieOfRegion t) = false → ∃ u, exec (.refAuto v t) s =
    .next u ∧ u.get (PLZ_SEL_CTL_MODE t) = 0 ∧ u.get (PLZ_SEL_CTL_FORCE_IDX t) = s.get (PLZ_SEL_CTL_FORCE_IDX t) ∧ u.host.lastStatus
    = stOk ∧ Posts s u (viaEvt v) ∧ Frame s u ([Fld.off (PLZ_SEL_CTL_MODE t)] ++ viaOffs v)) ∧
  (∀ (a c : Byte) (s : State), ∃ u, exec (.laneCalDone a c) s = .next u ∧ u.get PLZ_LANE_CAL_RES_01 = a.toNat ∧ u.get
    PLZ_LANE_CAL_RES_10 = c.toNat ∧ u.get PLZ_LANE_CAL_CAL_DONE = 1 ∧ Silent s u ∧ Frame s u [Fld.off PLZ_LANE_CAL_RES_01])

/-- A taken write that raises EN of a DISABLED region whose selector has no choice starts FREERUN at control value 0, or, with WARM_EN
and a usable Kiln record, HOLDOVER with HO_SRC warm and HOLDOVER_ENTER set. A taken write with EN = 0 takes a region from any state
to DISABLED, its control value at 0 where no move between the oscillators follows, with FORCED and SLEWING cleared and no history
entries. DPLL_SELECT with no choice takes a region that follows a candidate to HOLDOVER and sets HOLDOVER_ENTER; with a choice it
takes one in FREERUN or HOLDOVER to ACQUIRING on that candidate under a build-out capture. DPLL_HOLD and SAMPLE_LATE hold a
following region that was not held: its state stays and a slew stops. In each clause no register outside those it names and the
event registers changes, nor do the flash, the fuses or the queue. -/
def Obligations.DpllEnablesAndFollowsTheSelector : Prop :=
  (∀ (p : Path) (t : Fin 4) (w : Word) (s : State), s.takesWrite p ⟨.TRG_CTL, t, 0, 0⟩ (wordSet w 0 1 1) → s.get (TRG_CTL_EN t) =
    0 → s.dpll t = dpllDisabled → s.get (TRG_CTL_STB_EN t) = (TRG_CTL_STB_EN t).of w → s.selected t = none → (TRG_CTL_WARM_EN t).of
    w = 0 → ∃ u, exec (.dpllEnable p t w) s = .next u ∧ u.get (TRG_CTL_EN t) = 1 ∧ u.dpll t = dpllFreerun ∧ u.get (TRG_CV_LO_CV t) =
    0 ∧ u.get (TRG_CV_HI_CV t) = 0 ∧ Within s u (spanWork ++ spanLnk)) ∧
  (∀ (p : Path) (t : Fin 4) (w : Word) (s : State), s.takesWrite p ⟨.TRG_CTL, t, 0, 0⟩ (wordSet w 0 1 1) → s.get (TRG_CTL_EN t) =
    0 → s.dpll t = dpllDisabled → s.get (TRG_CTL_STB_EN t) = (TRG_CTL_STB_EN t).of w → s.selected t = none → (TRG_CTL_WARM_EN t).of
    w = 1 → s.kilnUsable t = true → ∃ u, exec (.dpllEnable p t w) s = .next u ∧ u.get (TRG_CTL_EN t) = 1 ∧ u.dpll t = dpllHoldover ∧
    u.get (TRG_STAT_HO_SRC t) = hoWarm ∧ u.get (TRG_EVT_HOLDOVER_ENTER t) = 1 ∧ Within s u spanWork) ∧
  (∀ (p : Path) (t : Fin 4) (w : Word) (s : State), s.takesWrite p ⟨.TRG_CTL, t, 0, 0⟩ (wordSet w 0 1 0) → s.get (TRG_CTL_STB_EN
    t) = (TRG_CTL_STB_EN t).of w → ∃ u, exec (.dpllDisable p t w) s = .next u ∧ u.get (TRG_CTL_EN t) = 0 ∧ u.dpll t = dpllDisabled ∧
    u.get (TRG_STAT_FORCED t) = 0 ∧ u.get (TRG_STAT_SLEWING t) = 0 ∧ u.get (TRG_HIST_PTR_NFILLED t) = 0 ∧ u.get (TRG_CV_LO_CV t) = 0
    ∧ u.get (TRG_CV_HI_CV t) = 0 ∧ Within s u spanWork) ∧
  (∀ (t : Fin 4) (s : State), s.dpllFollows t = true → s.on (TRG_STAT_FORCED t) = false → s.selected t = none → ∃ u, exec
    (.dpllSelect t) s = .next u ∧ u.dpll t = dpllHoldover ∧ u.get (TRG_EVT_HOLDOVER_ENTER t) = 1 ∧ (bankGet u.trg t.val).cand = none
    ∧ Within s u spanWork) ∧
  (∀ (t : Fin 4) (s : State), s.dpll t = dpllFreerun ∨ s.dpll t = dpllHoldover → s.on (TRG_STAT_FORCED t) = false → s.on
    (PLZ_SEL_STAT_ACTIVE t) = true → ∃ u, exec (.dpllSelect t) s = .next u ∧ u.dpll t = dpllAcquiring ∧ (bankGet u.trg t.val).cand =
    some (s.get (PLZ_SEL_STAT_CUR_IDX t)) ∧ (bankGet u.trg t.val).capture.isSome = true ∧ (bankGet u.trg t.val).acqBw = true ∧
    Within s u spanWork) ∧
  (∀ (t : Fin 4) (cv : BitVec 48) (s : State), s.dpllFollows t = true → (bankGet s.trg t.val).held = false → ∃ u, exec (.dpllHold
    t cv) s = .next u ∧ (bankGet u.trg t.val).held = true ∧ u.dpll t = s.dpll t ∧ u.get (TRG_STAT_SLEWING t) = 0 ∧ Within s u
    spanWork) ∧
  (∀ (t : Fin 4) (cv : BitVec 48) (s : State), s.dpllFollows t = true → (bankGet s.trg t.val).held = false → ∃ u, exec
    (.sampleLate t cv) s = .next u ∧ (bankGet u.trg t.val).held = true ∧ u.dpll t = s.dpll t ∧ u.get (TRG_STAT_SLEWING t) = 0 ∧
    Within s u spanWork)

/-- DPLL_LOCK takes an ACQUIRING region that captures no build-out, held or not, with the phase error within the lock threshold and the
control value within the pull-in limit, to LOCKED, records the phase error, puts BW in use and posts DPLL_LOCK. DPLL_UNLOCK, the
phase error beyond four times the threshold, takes a LOCKED region back to ACQUIRING with ACQ_BW, no longer held, and sets
DPLL_UNLOCK; with a smaller error it changes nothing. PULLIN_SAT on an integrating region sets the PULLIN_SAT status and, on entry
to the limit, posts PULLIN_SAT. BUILDOUT ends a capture, stores the reduced phase in TRG_BO and posts BUILDOUT; SLEWING tells
whether an offset slews out. SLEW_DONE leaves TRG_BO at 0 and SLEWING clear. In each clause no register outside those it names and
the event registers changes, nor do the flash, the fuses or the queue. -/
def Obligations.DpllLockPullInAndBuildOut : Prop :=
  (∀ (t : Fin 4) (cv : BitVec 48) (ph : Word) (s : State), s.dpll t = dpllAcquiring → (bankGet s.trg t.val).capture = none →
    s.withinLock t 1 ph.toInt = true → (if (bankGet s.trg t.val).held = true then s.get (TRG_STAT_PULLIN_SAT t) = 0 else
    cv.toInt.natAbs < s.pullLimit t) → ∃ u, exec (.dpllLock t cv ph) s = .next u ∧ u.dpll t = dpllLocked ∧ u.get (TRG_PHERR_PHERR t)
    = ph.toNat ∧ (bankGet u.trg t.val).held = false ∧ (bankGet u.trg t.val).acqBw = false ∧ (bankGet u.trg t.val).sinceLock = 0 ∧
    u.get (TRG_EVT_DPLL_LOCK t) = 1 ∧ Posted s u 0x0202 t ∧ Frame s u ([Fld.off (TRG_STAT_STATE t), Fld.off (TRG_CV_LO_CV t),
    Fld.off (TRG_CV_HI_CV t), Fld.off (TRG_PHERR_PHERR t), Fld.off (TRG_EVT_DPLL_LOCK t)] ++ eventOffs)) ∧
  (∀ (t : Fin 4) (cv : BitVec 48) (ph : Word) (s : State), s.dpll t = dpllLocked → s.withinLock t 4 ph.toInt = false → ∃ u, exec
    (.dpllUnlock t cv ph) s = .next u ∧ u.dpll t = dpllAcquiring ∧ u.get (TRG_PHERR_PHERR t) = ph.toNat ∧ (bankGet u.trg
    t.val).acqBw = true ∧ (bankGet u.trg t.val).held = false ∧ u.get (TRG_EVT_DPLL_UNLOCK t) = 1 ∧ Within s u spanWork) ∧
  (∀ (t : Fin 4) (cv : BitVec 48) (ph : Word) (s : State), s.withinLock t 4 ph.toInt = true → ∃ u, exec (.dpllUnlock t cv ph) s =
    .next u ∧ u = s) ∧
  (∀ (t : Fin 4) (neg : Bool) (s : State), s.dpllFollows t = true → (bankGet s.trg t.val).held = false → (bankGet s.trg
    t.val).capture = none → s.get (TRG_STAT_PULLIN_SAT t) = 0 → ∃ u, exec (.pullinSat t neg) s = .next u ∧ u.get
    (TRG_STAT_PULLIN_SAT t) = 1 ∧ u.get (TRG_EVT_PULLIN_SAT t) = 1 ∧ Posted s u 0x0208 t ∧ u.dpll t = s.dpll t ∧ Frame s u ([Fld.off
    (TRG_STAT_STATE t), Fld.off (TRG_CV_LO_CV t), Fld.off (TRG_CV_HI_CV t), Fld.off (TRG_EVT_DPLL_LOCK t)] ++ eventOffs)) ∧
  (∀ (t : Fin 4) (ph : BitVec 64) (c : Nat) (slew : Bool) (s : State), (bankGet s.trg t.val).capture = some (c, slew) → ∃ u, exec
    (.buildout t ph) s = .next u ∧ (bankGet u.trg t.val).capture = none ∧ (bankGet u.trg t.val).held = (bankGet s.trg t.val).held ∧
    u.getWide (TRG_BO_LO_BO t) (TRG_BO_HI_BO t) = ofSigned 48 (reducePhase (s.candFnom c) ph.toInt) ∧ u.on (TRG_STAT_SLEWING t) =
    (slew && reducePhase (s.candFnom c) ph.toInt != 0) ∧ u.get (TRG_EVT_BUILDOUT t) = 1 ∧ Posted s u 0x0204 t ∧ Within s u spanWork) ∧
  (∀ (t : Fin 4) (s : State), s.on (TRG_STAT_SLEWING t) = true → ∃ u, exec (.slewDone t) s = .next u ∧ u.get (TRG_BO_LO_BO t) = 0
    ∧ u.get (TRG_BO_HI_BO t) = 0 ∧ u.get (TRG_STAT_SLEWING t) = 0 ∧ Silent s u ∧ Frame s u [Fld.off (TRG_BO_LO_BO t), Fld.off
    (TRG_BO_HI_BO t), Fld.off (TRG_STAT_SLEWING t)])

/-- HOLDOVER_FORCE of a following region enters HOLDOVER and sets FORCED. With the main LO running HISTORY_INTERVAL stores the
interval's mean and temperature in the entry WR_IDX named and moves WR_IDX on, modulo 1024. A taken write that changes INTERVAL
empties the history. KILN_HO_WRITE stores the value that waits with its oscillator and keeper time. Raising STB_EN, EN unchanged in
a DISABLED region, arms the region, which samples with the oscillator from then on where that runs; writing 0 disarms it and moves
it to the main LO, which sets STB_LOSS where it sampled with the stability oscillator. STB_START runs the oscillator; STB_LOSS stops
it, disarms every region and leaves TRG_LO_STB at 0. A write of TRG_TC_TERM_HI makes the 48-bit term the region's term. REALIGN of
FRAME units in a LOCKED region becomes pending with its mask and K. In each clause no register outside those it names and the event
registers changes, nor do the flash, the fuses or the queue. -/
def Obligations.HoldoverHistoryStabilityAndTemperature : Prop :=
  (∀ (v : CmdVia) (t : Fin 4) (s : State), s.takesCmd v = true → s.isolated (dieOfRegion t) = false → s.dpllFollows t = true → ∃
    u, exec (.holdoverForce v t true) s = .next u ∧ u.dpll t = dpllHoldover ∧ u.get (TRG_STAT_FORCED t) = 1 ∧ u.get
    (TRG_EVT_HOLDOVER_ENTER t) = 1 ∧ u.host.lastStatus = stOk ∧ Within s u (spanMgt ++ spanWork)) ∧
  (∀ (t : Fin 4) (mean cv : BitVec 48) (temp : BitVec 12) (ph : Word) (s : State), s.pkg_.loRuns = true → ∃ u, exec
    (.historyInterval t mean cv temp ph) s = .next u ∧ u.getWide (TRG_HENT_LO_VALUE t (s.get (TRG_HIST_PTR_WR_IDX t)))
    (TRG_HENT_HI_VALUE t (s.get (TRG_HIST_PTR_WR_IDX t))) = mean.toNat ∧ u.get (TRG_HENT_HI_TEMP t (s.get (TRG_HIST_PTR_WR_IDX t)))
    = temp.toNat ∧ u.get (TRG_HIST_PTR_WR_IDX t) = (s.get (TRG_HIST_PTR_WR_IDX t) + 1) % 1024 ∧ u.dpll t = s.dpll t ∧ Within s u
    spanTrg) ∧
  (∀ (p : Path) (t : Fin 4) (w : Word) (s : State), s.takesWrite p ⟨.TRG_HIST, t, 0, 0⟩ w → (TRG_HIST_INTERVAL t).of w ≠ s.get
    (TRG_HIST_INTERVAL t) → ∃ u, exec (.histIntervalWrite p t w) s = .next u ∧ u.get (TRG_HIST_INTERVAL t) = (TRG_HIST_INTERVAL
    t).of w ∧ u.get (TRG_HIST_PTR_NFILLED t) = 0 ∧ u.get (TRG_HO_VAL_HI_VALID t) = 0 ∧ Silent s u ∧ Within s u spanTrg) ∧
  (∀ (t : Fin 4) (v : Int) (stb : Bool) (s : State), (bankGet s.trg t.val).kilnDue = some (v, stb) → s.linked (dieOfRegion t) dieC
    = true → ∃ u, exec (.kilnHoWrite t) s = .next u ∧ u.getWide (KLN_HO_LO_HO t) (KLN_HO_HI_HO t) = ofSigned 48 v ∧ u.get
    (KLN_HO_HI_STB t) = (if stb then 1 else 0) ∧ u.get (KLN_HO_HI_VALID t) = 1 ∧ u.get (KLN_HO_SEC_SEC t) = s.get KLN_TIME_SEC ∧
    (bankGet u.trg t.val).kilnDue = none ∧ Silent s u ∧ Frame s u [Fld.off (KLN_HO_LO_HO t), Fld.off (KLN_HO_HI_HO t), Fld.off
    (KLN_HO_SEC_SEC t)]) ∧
  (∀ (p : Path) (t : Fin 4) (w : Word) (s : State), s.takesWrite p ⟨.TRG_CTL, t, 0, 0⟩ w → (TRG_CTL_EN t).of w = s.get (TRG_CTL_EN
    t) → (TRG_CTL_TC_EN t).of w = s.get (TRG_CTL_TC_EN t) → s.dpll t = dpllDisabled → s.get (TRG_CTL_EN t) = 0 → s.get
    (TRG_CTL_STB_EN t) = 0 → (TRG_CTL_STB_EN t).of w = 1 → ∃ u, exec (.stbEnWrite p t w) s = .next u ∧ u.get (TRG_CTL_STB_EN t) = 1
    ∧ (bankGet u.trg t.val).armed = true ∧ u.dpll t = dpllDisabled ∧ (s.stbRuns = true → u.get (TRG_STAT_SAMP_SRC t) = 1) ∧
    (s.stbRuns = false → u.get (TRG_STAT_SAMP_SRC t) = s.get (TRG_STAT_SAMP_SRC t)) ∧ Within s u spanWork) ∧
  (∀ (p : Path) (t : Fin 4) (w : Word) (s : State), s.takesWrite p ⟨.TRG_CTL, t, 0, 0⟩ w → (TRG_CTL_EN t).of w = s.get (TRG_CTL_EN
    t) → (TRG_CTL_TC_EN t).of w = s.get (TRG_CTL_TC_EN t) → s.dpll t = dpllDisabled → s.get (TRG_CTL_EN t) = 0 → (TRG_CTL_STB_EN
    t).of w = 0 → s.get (TRG_STAT_SAMP_SRC t) = 0 → ∃ u, exec (.stbEnWrite p t w) s = .next u ∧ u.get (TRG_CTL_STB_EN t) = 0 ∧
    (bankGet u.trg t.val).armed = false ∧ u.get (TRG_STAT_SAMP_SRC t) = 0 ∧ Within s u spanWork) ∧
  (∀ (p : Path) (t : Fin 4) (w : Word) (s : State), s.takesWrite p ⟨.TRG_CTL, t, 0, 0⟩ w → (TRG_CTL_EN t).of w = s.get (TRG_CTL_EN
    t) → (TRG_CTL_TC_EN t).of w = s.get (TRG_CTL_TC_EN t) → s.dpll t = dpllDisabled → s.get (TRG_CTL_EN t) = 0 → (TRG_CTL_STB_EN
    t).of w = 0 → s.get (TRG_STAT_SAMP_SRC t) = 1 → ∃ u, exec (.stbEnWrite p t w) s = .next u ∧ u.get (TRG_CTL_STB_EN t) = 0 ∧
    (bankGet u.trg t.val).armed = false ∧ u.get (TRG_STAT_SAMP_SRC t) = 0 ∧ u.get (TRG_EVT_STB_LOSS t) = 1 ∧ Within s u spanWork) ∧
  (∀ (a c : Word) (s : State), ∃ u, exec (.stbStart a c) s = .next u ∧ u.stbRuns = true ∧ Within s u spanWork) ∧
  (∀ (a c : Word) (s : State), ∃ u, exec (.stbLoss a c) s = .next u ∧ u.stbRuns = false ∧ (∀ t : Fin 4, (bankGet u.trg
    t.val).armed = false ∧ u.get (TRG_LO_STB_OFS t) = 0 ∧ u.get (TRG_STAT_SAMP_SRC t) = 0) ∧ Within s u spanTrg) ∧
  (∀ (p : Path) (t : Fin 4) (w : Word) (s : State), s.takesWrite p ⟨.TRG_TC_TERM_HI, t, 0, 0⟩ w → ∃ u, exec (.tcTermWrite p t w) s
    = .next u ∧ (bankGet u.trg t.val).term = toSigned 48 (s.get (TRG_TC_TERM_LO_TERM t) + 2 ^ 32 * (TRG_TC_TERM_HI_TERM t).of w) ∧
    Within s u spanWork) ∧
  (∀ (v : CmdVia) (t : Fin 4) (mask : BitVec 12) (k : BitVec 16) (s : State), s.takesCmd v = true → s.isolated (dieOfRegion t) =
    false → s.dpll t = dpllLocked → mask ≠ 0 → k ≠ 0 → (∀ j : Fin 12, bitOf mask.toNat j = true → s.get (OUT_CTL_ROLE (12 * t + j))
    = 1 ∧ s.get (OUT_STAT_LOSS_KIND (12 * t + j)) = 0) → ∃ u, exec (.realign v t mask k) s = .next u ∧ (bankGet u.trg t.val).realign
    = some (mask.toNat, k.toNat) ∧ u.get (TRG_STAT_REALIGN_PEND t) = 1 ∧ u.dpll t = dpllLocked ∧ u.host.lastStatus = stOk ∧ Within s
    u (spanMgt ++ spanWork))

/-- A taken write that raises EN of an OFF cluster applies the staged feedback and enters SEARCHING with RETUNE set. A taken write that
clears EN of a cluster that is not OFF enters OFF with RETUNE and the return hold cleared. A taken APPLY, and a HOP whose four
values and plan are legal on an enabled cluster whose Wheel does not run and that is not retuning, put the feedback of the plan in
use and enter SEARCHING with RETUNE set; HOP also stores the four staged values and completes OK. A HOP that is not accepted
completes IGNORED and changes nothing of the cluster. In each clause no register outside those it names and the event registers
changes, nor do the flash, the fuses or the queue. -/
def Obligations.ClusterEnableApplyAndHop : Prop :=
  (∀ (p : Path) (c : Fin 12) (w : Word) (s : State), s.takesWrite p ⟨.SYN_CTL, c, 0, 0⟩ (wordSet w 0 1 1) → s.get (SYN_CTL_EN c) =
    0 → s.synState c = synOff → ∃ u, exec (.synEnable p c w) s = .next u ∧ u.get (SYN_CTL_EN c) = 1 ∧ u.synState c = synSearching ∧
    u.get (SYN_STAT_RETUNE c) = 1 ∧ (u.synOf c).num = (s.stagedPlan c).num ∧ (u.synOf c).den = (s.stagedPlan c).den ∧ u.get
    (SYN_STAT_PATH_EFF c) = (s.stagedPlan c).path % 4 ∧ Within s u spanWork) ∧
  (∀ (p : Path) (c : Fin 12) (w : Word) (s : State), s.takesWrite p ⟨.SYN_CTL, c, 0, 0⟩ (wordSet w 0 1 0) → s.get (SYN_CTL_EN c) =
    1 → s.synState c ≠ synOff → ∃ u, exec (.synDisable p c w) s = .next u ∧ u.get (SYN_CTL_EN c) = 0 ∧ u.synState c = synOff ∧ u.get
    (SYN_STAT_RETUNE c) = 0 ∧ u.get (SYN_STAT_RET_PEND c) = 0 ∧ Within s u spanWork) ∧
  (∀ (p : Path) (c : Fin 12) (w : Word) (s : State), s.takesWrite p ⟨.SYN_APPLY, c, 0, 0⟩ (wordSet w 0 1 1) → ∃ u, exec (.synApply
    p c w) s = .next u ∧ u.synState c = synSearching ∧ u.get (SYN_STAT_RETUNE c) = 1 ∧ (u.synOf c).num = (s.stagedPlan c).num ∧
    (u.synOf c).den = (s.stagedPlan c).den ∧ (u.synOf c).returned = false ∧ Within s u spanWork) ∧
  (∀ (v : CmdVia) (c : Fin 12) (i : BitVec 9) (h : BitVec 2) (a d : Word) (s : State), s.takesCmd v = true → s.isolated
    (dieOfCluster c) = false → 14 ≤ i.toNat → i.toNat ≤ 288 → a.toNat < d.toNat → s.applyAccepted c (s.plan c i.toNat h.toNat
    a.toNat d.toNat) = true → ∃ u, exec (.hop v c i h a d) s = .next u ∧ u.get (SYN_N_INT_N_INT c) = i.toNat ∧ u.get (SYN_N_INT_PATH
    c) = h.toNat ∧ u.get (SYN_N_NUM_NUM c) = a.toNat ∧ u.get (SYN_N_DEN_DEN c) = d.toNat ∧ u.synState c = synSearching ∧ u.get
    (SYN_STAT_RETUNE c) = 1 ∧ (u.synOf c).num = (s.plan c i.toNat h.toNat a.toNat d.toNat).num ∧ u.host.lastStatus = stOk ∧ Within s
    u (spanMgt ++ spanWork)) ∧
  (∀ (v : CmdVia) (c : Fin 12) (i : BitVec 9) (h : BitVec 2) (a d : Word) (s : State), s.takesCmd v = true → s.isolated
    (dieOfCluster c) = false → s.applyAccepted c (s.plan c i.toNat h.toNat a.toNat d.toNat) = false → ∃ u, exec (.hop v c i h a d) s
    = .next u ∧ u.host.lastStatus = stIgnored ∧ u.synState c = s.synState c ∧ Frame s u (ignoredOffs ++ viaOffs v))

/-- BAND_SEARCH_DONE of an in-range search on a core and band the search allows enters ACQUIRING with CORE, BAND and VT; a full search
that finds none, or an out-of-range retune, enters FAILED and sets SEARCH_FAIL. HOP_MISS voids the slot and starts a guided search.
ACQUIRE_TIMEOUT fails a full search and otherwise starts one. RESEARCH_TIMEOUT starts a full search, or waits while a FREE-RUN unit
follows. In each clause no register outside those it names and the event registers changes, nor do the flash, the fuses or the
queue. -/
def Obligations.BandSearches : Prop :=
  (∀ (c : Fin 12) (k : Fin 4) (band vt : Byte) (s : State), s.synState c = synSearching → (s.synOf c).outOfRange = false →
    s.searchAllows c k.val band.toNat = true → ∃ u, exec (.bandSearchDone c true k band vt) s = .next u ∧ u.synState c =
    synAcquiring ∧ u.get (SYN_STAT_CORE c) = k.val ∧ u.get (SYN_STAT_BAND c) = band.toNat ∧ u.get (SYN_STAT_VT c) = vt.toNat ∧
    Silent s u ∧ Frame s u [Fld.off (SYN_STAT_STATE c)]) ∧
  (∀ (c : Fin 12) (k : Fin 4) (band vt : Byte) (s : State), s.synState c = synSearching → (s.synOf c).outOfRange = true ∨ (s.synOf
    c).kind = 3 → ∃ u, exec (.bandSearchDone c false k band vt) s = .next u ∧ u.synState c = synFailed ∧ u.get (SYN_STAT_RETUNE c) =
    0 ∧ u.get (SYN_EVT_SEARCH_FAIL c) = 1 ∧ Within s u spanWork) ∧
  (∀ (c : Fin 12) (vt : Byte) (i : Nat) (e : List Word) (s : State), (s.synOf c).entry = some (i, e) → s.synState c = synAcquiring
    → (s.synOf c).kind = 0 → vt.toNat < entVtLo e ∨ entVtHi e < vt.toNat → ∃ u, exec (.hopMiss c vt) s = .next u ∧ u.synState c =
    synSearching ∧ (u.synOf c).kind = 1 ∧ u.get (SYN_SLOT_VALID c (entCore e) (entSlot e)) = 0 ∧ u.get (SYN_EVT_HOP_MISS c) = 1 ∧
    Posted s u 0x0308 c ∧ Within s u spanSyn) ∧
  (∀ (c : Fin 12) (s : State), s.synState c = synAcquiring → (s.synOf c).kind = 3 → ∃ u, exec (.acquireTimeout c) s = .next u ∧
    u.synState c = synFailed ∧ u.get (SYN_STAT_RETUNE c) = 0 ∧ u.get (SYN_EVT_SEARCH_FAIL c) = 1 ∧ Within s u spanWork) ∧
  (∀ (c : Fin 12) (s : State), s.synState c = synAcquiring → (s.synOf c).kind ≠ 3 → ∃ u, exec (.acquireTimeout c) s = .next u ∧
    u.synState c = synSearching ∧ (u.synOf c).kind = 3 ∧ u.get (SYN_CNT_SEARCH_CNT c) = satNat 16 (s.get (SYN_CNT_SEARCH_CNT c) + 1)
    ∧ Within s u spanWork) ∧
  (∀ (c : Fin 12) (s : State), s.synState c = synUnlocked → s.freeRunFollows c = false → ∃ u, exec (.researchTimeout c) s = .next
    u ∧ u.synState c = synSearching ∧ (u.synOf c).kind = 3 ∧ u.get (SYN_CNT_SEARCH_CNT c) = satNat 16 (s.get (SYN_CNT_SEARCH_CNT c)
    + 1) ∧ Within s u spanWork) ∧
  (∀ (c : Fin 12) (s : State), s.synState c = synUnlocked → s.freeRunFollows c = true → ∃ u, exec (.researchTimeout c) s = .next u
    ∧ u.synState c = synUnlocked ∧ (u.synOf c).due = true ∧ Silent s u ∧ Frame s u [])

/-- SYN_LOCK, after LK_CNT samples within the window, takes an UNLOCKED cluster without a retune to LOCKED, records VT, sets SYN_LOCK
and starts the return hold where RET_AUTO is 1; in a retune it clears RETUNE and sets RETUNE_DONE; with fewer samples, or the last
outside the window, it changes nothing. LOL of a LOCKED cluster, after UL_CNT samples outside the window, enters UNLOCKED, counts
and sets LOL; a sample within the window changes nothing. A taken write that sets RET_AUTO on a LOCKED cluster with lost units
starts the hold. RETURN_HOLD_EXPIRE, with the main LO running, and BYPASS_RETURN of a LOCKED cluster, and a taken write that clears
RET_AUTO, end the hold; BYPASS_RETURN of any other completes IGNORED. In each clause no register outside those it names and the
event registers changes, nor do the flash, the fuses or the queue. -/
def Obligations.ClusterLockAndLossOfLock : Prop :=
  (∀ (c : Fin 12) (vt run : Byte) (err : Word) (s : State), s.synState c = synUnlocked → s.get (SYN_STAT_RETUNE c) = 0 →
    s.inWindow c err = true → s.get (SYN_LD_LK_CNT c) ≤ run.toNat → ∃ u, exec (.synLock c vt err run) s = .next u ∧ u.synState c =
    synLocked ∧ u.get (SYN_STAT_VT c) = vt.toNat ∧ u.get (SYN_EVT_SYN_LOCK c) = 1 ∧ (s.on (SYN_CTL_RET_AUTO c) = true → u.get
    (SYN_STAT_RET_PEND c) = 1) ∧ Within s u spanWork) ∧
  (∀ (c : Fin 12) (vt run : Byte) (err : Word) (s : State), s.synState c = synAcquiring → s.get (SYN_STAT_RETUNE c) = 1 → (s.synOf
    c).kind = 3 → s.inWindow c err = true → s.get (SYN_LD_LK_CNT c) ≤ run.toNat → ∃ u, exec (.synLock c vt err run) s = .next u ∧
    u.synState c = synLocked ∧ u.get (SYN_STAT_VT c) = vt.toNat ∧ u.get (SYN_STAT_RETUNE c) = 0 ∧ u.get (SYN_EVT_SYN_LOCK c) = 1 ∧
    u.get (SYN_EVT_RETUNE_DONE c) = 1 ∧ Within s u spanWork) ∧
  (∀ (c : Fin 12) (vt run : Byte) (err : Word) (s : State), s.inWindow c err = false ∨ run.toNat < s.get (SYN_LD_LK_CNT c) → ∃ u,
    exec (.synLock c vt err run) s = .next u ∧ u = s) ∧
  (∀ (c : Fin 12) (err : Word) (run : Byte) (s : State), s.synState c = synLocked → s.inWindow c err = false → s.get
    (SYN_LD_UL_CNT c) ≤ run.toNat → ∃ u, exec (.lol c err run) s = .next u ∧ u.synState c = synUnlocked ∧ u.get (SYN_CNT_LOL_CNT c)
    = satNat 16 (s.get (SYN_CNT_LOL_CNT c) + 1) ∧ u.get (SYN_EVT_LOL c) = 1 ∧ u.get (SYN_STAT_RET_PEND c) = 0 ∧ Within s u spanWork) ∧
  (∀ (c : Fin 12) (err : Word) (run : Byte) (s : State), s.inWindow c err = true → ∃ u, exec (.lol c err run) s = .next u ∧ u = s) ∧
  (∀ (c : Fin 12) (s : State), s.get (SYN_STAT_RET_PEND c) = 1 → s.synState c = synLocked → s.pkg_.loRuns = true → ∃ u, exec
    (.returnHoldExpire c) s = .next u ∧ u.get (SYN_STAT_RET_PEND c) = 0 ∧ u.synState c = synLocked ∧ Within s u spanWork) ∧
  (∀ (v : CmdVia) (c : Fin 12) (s : State), s.takesCmd v = true → s.isolated (dieOfCluster c) = false → s.synState c = synLocked →
    ∃ u, exec (.bypassReturn v c) s = .next u ∧ u.get (SYN_STAT_RET_PEND c) = 0 ∧ u.synState c = synLocked ∧ u.host.lastStatus =
    stOk ∧ Within s u (spanMgt ++ spanWork)) ∧
  (∀ (v : CmdVia) (c : Fin 12) (s : State), s.takesCmd v = true → s.isolated (dieOfCluster c) = false → s.synState c ≠ synLocked →
    ∃ u, exec (.bypassReturn v c) s = .next u ∧ u.host.lastStatus = stIgnored ∧ Posts s u (viaEvt v) ∧ Frame s u (ignoredOffs ++
    viaOffs v)) ∧
  (∀ (p : Path) (c : Fin 12) (w : Word) (s : State), s.takesWrite p ⟨.SYN_CTL, c, 0, 0⟩ w → (SYN_CTL_EN c).of w = s.get
    (SYN_CTL_EN c) → s.get (SYN_CTL_RET_AUTO c) = 1 → (SYN_CTL_RET_AUTO c).of w = 0 → ∃ u, exec (.retAutoWrite p c w) s = .next u ∧
    u.get (SYN_CTL_RET_AUTO c) = 0 ∧ u.get (SYN_STAT_RET_PEND c) = 0 ∧ u.synState c = s.synState c ∧ Within s u spanWork) ∧
  (∀ (p : Path) (c : Fin 12) (w : Word) (j : Fin 12) (s : State), s.takesWrite p ⟨.SYN_CTL, c, 0, 0⟩ w → (SYN_CTL_EN c).of w =
    s.get (SYN_CTL_EN c) → s.get (SYN_CTL_RET_AUTO c) = 0 → (SYN_CTL_RET_AUTO c).of w = 1 → s.synState c = synLocked → s.onLoss (12
    * (c / 3) + j) = true → bitOf (s.outOf (12 * (c / 3) + j)).lost (c % 3) = true → ∃ u, exec (.retAutoWrite p c w) s = .next u ∧
    u.get (SYN_CTL_RET_AUTO c) = 1 ∧ u.get (SYN_STAT_RET_PEND c) = 1 ∧ u.synState c = synLocked ∧ Within s u spanWork)

/-- START opens an empty load; a word before the 513th extends it and is counted; the 513th closes it: equal to the CRC32C of the 512
words it makes the table pending, otherwise the load ends POISONED and what was pending stays so. BAND_LOAD of 513 words with the
right CRC32C completes OK with the table pending. BAND_SWAP outside SEARCHING and ACQUIRING puts a pending table in use and voids
every hop slot. That a verified table waits, SWAP_PEND at 1, until the row BAND_SWAP is the model's choice (log entry 28: DEDUCED),
and so is that a new load leaves it waiting (log entry 148: DESIGN CHOICE). In each clause no register outside those it names and
the event registers changes, nor do the flash, the fuses or the queue. -/
def Obligations.BandTableLoads : Prop :=
  (∀ (p : Path) (c : Fin 12) (w : Word) (s : State), s.takesWrite p ⟨.SYN_BLOAD_CTL, c, 0, 0⟩ (wordSet w 0 1 1) → ∃ u, exec
    (.bandLoadStart p c w) s = .next u ∧ (u.synOf c).load = some [] ∧ u.get (SYN_BLOAD_STAT_WORDS c) = 0 ∧ u.get
    (SYN_BLOAD_STAT_RESULT c) = 1 ∧ Silent s u ∧ Within s u spanSyn) ∧
  (∀ (p : Path) (c : Fin 12) (w : Word) (l : List Word) (s : State), s.takesWrite p ⟨.SYN_BLOAD_DATA, c, 0, 0⟩ w → (s.synOf
    c).load = some l → l.length < 512 → ∃ u, exec (.bandLoadData p c w) s = .next u ∧ (u.synOf c).load = some (l ++ [w]) ∧ u.get
    (SYN_BLOAD_STAT_WORDS c) = l.length + 1 ∧ Silent s u ∧ Within s u spanSyn) ∧
  (∀ (p : Path) (c : Fin 12) (w : Word) (l : List Word) (s : State), s.takesWrite p ⟨.SYN_BLOAD_DATA, c, 0, 0⟩ w → (s.synOf
    c).load = some l → l.length = 512 → (s.synOf c).loadBad = false → crcWords l = w → ∃ u, exec (.bandLoadData p c w) s = .next u ∧
    (u.synOf c).load = none ∧ (u.synOf c).pend = some l ∧ u.get (SYN_BLOAD_STAT_RESULT c) = 2 ∧ u.get (SYN_STAT_SWAP_PEND c) = 1 ∧
    Silent s u ∧ Within s u spanSyn) ∧
  (∀ (p : Path) (c : Fin 12) (w : Word) (l : List Word) (s : State), s.takesWrite p ⟨.SYN_BLOAD_DATA, c, 0, 0⟩ w → (s.synOf
    c).load = some l → l.length = 512 → crcWords l ≠ w → ∃ u, exec (.bandLoadData p c w) s = .next u ∧ (u.synOf c).load = none ∧
    (u.synOf c).pend = (s.synOf c).pend ∧ u.get (SYN_BLOAD_STAT_RESULT c) = 3 ∧ Silent s u ∧ Within s u spanSyn) ∧
  (∀ (v : CmdVia) (c : Fin 12) (l : List Word) (s : State), s.takesCmd v = true → s.isolated (dieOfCluster c) = false → l.length =
    512 → ∃ u, exec (.bandLoad v c (l ++ [crcWords l])) s = .next u ∧ u.host.lastStatus = stOk ∧ (u.synOf c).pend = some l ∧ u.get
    (SYN_STAT_SWAP_PEND c) = 1 ∧ Within s u (spanMgt ++ spanSyn)) ∧
  (∀ (c : Fin 12) (l : List Word) (s : State), (s.synOf c).pend = some l → s.synState c ≠ synSearching → s.synState c ≠
    synAcquiring → ∃ u, exec (.bandSwap c) s = .next u ∧ (u.synOf c).pend = none ∧ u.get (SYN_STAT_SWAP_PEND c) = 0 ∧ (∀ v : Fin 4,
    ∀ k : Fin 16, u.get (SYN_SLOT_VALID c v k) = 0) ∧ (∀ i : Fin 128, ∀ k : Fin 4, u.word ⟨.SYN_BAND, c, i, k⟩ = l.getD (4 * i + k)
    0) ∧ Silent s u ∧ Within s u spanSyn)

/-- BYPASS_SWITCH of a unit that waits for a lane shows the lane as its source and ends the wait; of one that returns from its lane it
leaves the on-loss condition on the source OUT_CTL names, which is LOCKED or a lane. AVENUE_MUX_SWITCH of an enabled unit that waits
for its mux moves the mux to SRC and LANE. What a change of source accepted meanwhile becomes at the return from bypass is the
model's choice (log entries 27: DEDUCED, 112: DEDUCED). In each clause no register outside those it names and the event registers
changes, nor do the flash, the fuses or the queue. -/
def Obligations.BypassAndMuxSwitches : Prop :=
  (∀ (n : Fin 48) (l : Nat) (s : State), (s.outOf n).sw = some (.toLane l) → ∃ u, exec (.bypassSwitch n) s = .next u ∧ u.get
    (OUT_STAT_CUR_SRC n) = 3 ∧ u.get (OUT_STAT_CUR_LANE n) = l % 4 ∧ (u.outOf n).sw = none ∧ Within s u spanWork) ∧
  (∀ (n : Fin 48) (c : Nat) (s : State), (s.outOf n).sw = some (.back c) → s.get (OUT_STAT_LOSS_KIND n) ≠ 3 → s.get (OUT_CTL_SRC
    n) = 3 ∨ s.synState (3 * (n / 12) + s.get (OUT_CTL_SRC n)) = synLocked → ∃ u, exec (.bypassSwitch n) s = .next u ∧ u.get
    (OUT_STAT_LOSS_KIND n) = 0 ∧ u.get (OUT_STAT_STATE n) = outRunning ∧ u.get (OUT_STAT_CUR_SRC n) = s.get (OUT_CTL_SRC n) ∧
    (u.outOf n).src = s.get (OUT_CTL_SRC n) ∧ (u.outOf n).sw = none ∧ Within s u spanWork) ∧
  (∀ (n : Fin 48) (s : State), s.unitOn n = true → (s.outOf n).sw = some .mux → ∃ u, exec (.avenueMuxSwitch n) s = .next u ∧
    (u.outOf n).src = s.get (OUT_CTL_SRC n) ∧ (u.outOf n).lane = s.get (OUT_CTL_LANE n) ∧ u.get (OUT_STAT_CUR_SRC n) = s.get
    (OUT_CTL_SRC n) ∧ Within s u spanWork)

/-- RAMP_START of a Wheel that does not run, on a LOCKED cluster that is not retuning with limits inside the VCO range and a profile in
use or STREAM mode, enters RUNNING with PCNT 0 and completes OK, the taken RMP_CMD write likewise; without a RESIDENT profile the
command completes EMPTY. RAMP_STOP with HOLD enters HELD with O kept and sets RAMP_DONE; with HOME it waits while PAUSED, enters
IDLE where O is 0 and otherwise homes; on a Wheel that does not run it completes IGNORED. In each clause no register outside those
it names and the event registers changes, nor do the flash, the fuses or the queue. -/
def Obligations.WheelStartsAndStops : Prop :=
  (∀ (v : CmdVia) (c : Fin 12) (s : State), s.takesCmd v = true → s.isolated (dieOfCluster c) = false → s.wheelRuns c = false →
    s.synState c = synLocked → s.on (SYN_STAT_RETUNE c) = false → s.rampLimitsOk c = true → s.wheelStream c = true ∨ (s.wh c).bank ≠
    [] → ∃ u, exec (.rampStart (.cmd v) c) s = .next u ∧ u.wheelState c = whRunning ∧ u.get (RMP_PDONE_PCNT c) = 0 ∧ u.ofs c = s.ofs
    c ∧ u.host.lastStatus = stOk ∧ Within s u (spanMgt ++ spanRmp)) ∧
  (∀ (p : Path) (c : Fin 12) (w : Word) (s : State), s.takesWrite p ⟨.RMP_CMD, c, 0, 0⟩ (wordSet w 0 1 1) → s.wheelStream c = true
    ∨ (s.wh c).bank ≠ [] → ∃ u, exec (.rampStart (.write p w) c) s = .next u ∧ u.wheelState c = whRunning ∧ u.get (RMP_PDONE_PCNT c)
    = 0 ∧ u.ofs c = s.ofs c ∧ Within s u spanRmp) ∧
  (∀ (v : CmdVia) (c : Fin 12) (s : State), s.takesCmd v = true → s.isolated (dieOfCluster c) = false → s.wheelRuns c = false →
    s.synState c = synLocked → s.on (SYN_STAT_RETUNE c) = false → s.rampLimitsOk c = true → s.wheelStream c = false → (s.wh c).bank
    = [] → ∃ u, exec (.rampStart (.cmd v) c) s = .next u ∧ u.wheelState c = s.wheelState c ∧ u.host.lastStatus = stEmpty ∧ Posts s u
    (viaEvt v) ∧ Frame s u ([] ++ viaOffs v)) ∧
  (∀ (v : CmdVia) (c : Fin 12) (s : State), s.takesCmd v = true → s.isolated (dieOfCluster c) = false → s.wheelRuns c = true → ∃
    u, exec (.rampStop (.cmd v) c false) s = .next u ∧ u.wheelState c = whHeld ∧ u.ofs c = s.ofs c ∧ u.bit (RMP_EVT_EVT c) whDone =
    true ∧ u.host.lastStatus = stOk ∧ Within s u (spanMgt ++ spanRmp)) ∧
  (∀ (v : CmdVia) (c : Fin 12) (s : State), s.takesCmd v = true → s.isolated (dieOfCluster c) = false → s.wheelState c = whPaused
    → ∃ u, exec (.rampStop (.cmd v) c true) s = .next u ∧ u.wheelState c = whPaused ∧ u.get (RMP_STAT_HOME_PEND c) = 1 ∧
    u.host.lastStatus = stOk ∧ Posts s u (viaEvt v) ∧ Frame s u ([Fld.off (RMP_STAT_HOME_PEND c)] ++ viaOffs v)) ∧
  (∀ (v : CmdVia) (c : Fin 12) (s : State), s.takesCmd v = true → s.isolated (dieOfCluster c) = false → s.wheelState c = whRunning
    → s.ofs c = 0 → (s.wh c).homing = false → ∃ u, exec (.rampStop (.cmd v) c true) s = .next u ∧ u.wheelState c = whIdle ∧ u.ofs c
    = 0 ∧ u.bit (RMP_EVT_EVT c) whDone = true ∧ u.host.lastStatus = stOk ∧ Within s u (spanMgt ++ spanRmp)) ∧
  (∀ (v : CmdVia) (c : Fin 12) (s : State), s.takesCmd v = true → s.isolated (dieOfCluster c) = false → s.wheelState c = whRunning
    → s.ofs c ≠ 0 → ∃ u, exec (.rampStop (.cmd v) c true) s = .next u ∧ u.wheelState c = whRunning ∧ (u.wh c).homing = true ∧ u.ofs
    c = s.ofs c ∧ u.host.lastStatus = stOk ∧ Posts s u (viaEvt v) ∧ Within s u (spanMgt ++ spanRmp)) ∧
  (∀ (v : CmdVia) (c : Fin 12) (h : Bool) (s : State), s.takesCmd v = true → s.isolated (dieOfCluster c) = false → s.wheelRuns c =
    false → ∃ u, exec (.rampStop (.cmd v) c h) s = .next u ∧ u.host.lastStatus = stIgnored ∧ Posts s u (viaEvt v) ∧ Frame s u
    (ignoredOffs ++ viaOffs v)) ∧
  (∀ (p : Path) (c : Fin 12) (w : Word) (s : State), s.takesWrite p ⟨.RMP_CMD, c, 0, 0⟩ (wordSet w 1 1 1) → (RMP_CMD_HOME c).of w
    = 0 → ∃ u, exec (.rampStop (.write p w) c false) s = .next u ∧ u.wheelState c = whHeld ∧ u.ofs c = s.ofs c ∧ u.bit (RMP_EVT_EVT
    c) whDone = true ∧ Within s u spanRmp)

/-- A tick of a glide to ANCHOR that has further to go moves O by one glide step towards it and raises no event of the Wheel. A tick of
a segment in play with ticks left moves O by the slope where the limits allow it, and counts the tick; where they do not, O stops at
the limit, the clip is counted and CLIP is set. A Wheel that is not RUNNING does not move. In each clause no register outside those
it names and the event registers changes, nor do the flash, the fuses or the queue. -/
def Obligations.WheelTicks : Prop :=
  (∀ (c : Fin 12) (s : State), s.wheelState c = whRunning → s.on (RMP_STAT_GLIDING c) = true → (s.wh c).homing = false → glideStep
    (s.ofs c) (s.getS (RMP_ANCHOR_ANCHOR c)) (s.get (RMP_GLIDE_GLIDE c)) ≠ s.getS (RMP_ANCHOR_ANCHOR c) → ∃ u, exec (.rampTick c) s
    = .next u ∧ u.ofs c = glideStep (s.ofs c) (s.getS (RMP_ANCHOR_ANCHOR c)) (s.get (RMP_GLIDE_GLIDE c)) ∧ u.wheelState c =
    whRunning ∧ u.on (RMP_STAT_GLIDING c) = true ∧ u.get (RMP_EVT_EVT c) = s.get (RMP_EVT_EVT c) ∧ Within s u spanWork) ∧
  (∀ (c : Fin 12) (s : State), s.wheelState c = whRunning → s.on (RMP_STAT_GLIDING c) = false → (s.wh c).homing = false → (s.wh
    c).fresh = false → 1 < (s.wh c).left → (s.wh c).atLim = false → -(s.get (RMP_LIM_NEG_LIM c) : Int) ≤ s.ofs c + (s.wh c).slope →
    s.ofs c + (s.wh c).slope ≤ s.get (RMP_LIM_POS_LIM c) → ∃ u, exec (.rampTick c) s = .next u ∧ u.ofs c = s.ofs c + (s.wh c).slope
    ∧ (u.wh c).left = (s.wh c).left - 1 ∧ u.wheelState c = whRunning ∧ u.get (RMP_EVT_EVT c) = s.get (RMP_EVT_EVT c) ∧ Within s u
    spanWork) ∧
  (∀ (c : Fin 12) (s : State), s.wheelState c = whRunning → s.on (RMP_STAT_GLIDING c) = false → (s.wh c).homing = false → (s.wh
    c).fresh = false → 1 < (s.wh c).left → (s.wh c).atLim = false → (s.get (RMP_LIM_POS_LIM c) : Int) < s.ofs c + (s.wh c).slope → ∃
    u, exec (.rampTick c) s = .next u ∧ u.ofs c = s.get (RMP_LIM_POS_LIM c) ∧ (u.wh c).atLim = true ∧ u.get (RMP_CNT_CLIP_CNT c) =
    satNat 16 (s.get (RMP_CNT_CLIP_CNT c) + 1) ∧ u.bit (RMP_EVT_EVT c) whClip = true ∧ u.wheelState c = whRunning ∧ Within s u
    spanWork) ∧
  (∀ (c : Fin 12) (s : State), s.wheelState c ≠ whRunning → ∃ u, exec (.rampTick c) s = .next u ∧ u = s)

/-- A taken write of the next word below 65 extends the open chunk. Word 65 closes it: a chunk that fails its check is counted as
poisoned; in STREAM mode a good one with the next sequence number and a free slot joins the ring. RAMP_LOAD of one good LAST chunk
into a RESIDENT Wheel at rest puts it in use and completes OK; of no chunk it completes EMPTY; of more than eight it completes
IGNORED. In each clause no register outside those it names and the event registers changes, nor do the flash, the fuses or the
queue. -/
def Obligations.RampChunks : Prop :=
  (∀ (p : Path) (c : Fin 12) (i : Fin 66) (w : Word) (l : List Word) (s : State), s.takesWrite p ⟨.RMP_CHUNK, c, i, 0⟩ w → (s.wh
    c).opened = l → l.length = i.val → i.val < 65 → ∃ u, exec (.rampChunkWrite p c i w) s = .next u ∧ (u.wh c).opened = l ++ [w] ∧
    (u.wh c).ring = (s.wh c).ring ∧ Silent s u ∧ Within s u spanRmp) ∧
  (∀ (p : Path) (c : Fin 12) (w : Word) (l : List Word) (s : State), s.takesWrite p ⟨.RMP_CHUNK, c, 65, 0⟩ w → (s.wh c).opened = l
    → l.length = 65 → chunkOf l w = none → ∃ u, exec (.rampChunkWrite p c 65 w) s = .next u ∧ (u.wh c).opened = [] ∧ u.get
    (RMP_CNT2_POISON_CNT c) = satNat 16 (s.get (RMP_CNT2_POISON_CNT c) + 1) ∧ (u.wh c).ring = (s.wh c).ring ∧ (u.wh c).bank = (s.wh
    c).bank ∧ Within s u spanRmp) ∧
  (∀ (p : Path) (c : Fin 12) (w : Word) (l : List Word) (k : Chunk) (s : State), s.takesWrite p ⟨.RMP_CHUNK, c, 65, 0⟩ w → (s.wh
    c).opened = l → l.length = 65 → chunkOf l w = some k → s.wheelStream c = true → k.seq = s.get (RMP_PDONE_NEXT_SEQ c) → (s.wh
    c).hasSlot = true → (s.wh c).skip = false → (s.wh c).openBad = false → (s.wh c).gap = false ∨ k.idx = 0 → ∃ u, exec
    (.rampChunkWrite p c 65 w) s = .next u ∧ (u.wh c).opened = [] ∧ (u.wh c).ring = (s.wh c).ring ++ [k] ∧ u.get (RMP_PDONE_NEXT_SEQ
    c) = (k.seq + 1) % 65536 ∧ Within s u spanRmp) ∧
  (∀ (v : CmdVia) (c : Fin 12) (l : List Word) (k : Chunk) (s : State), s.takesCmd v = true → s.isolated (dieOfCluster c) = false
    → l.length = 66 → chunkOf (l.take 65) (l.getD 65 0) = some k → (s.wh c).opened = [] → (s.wh c).openBad = false → s.wheelStream c
    = false → s.wheelRuns c = false → k.idx = 0 → k.last = true → ∃ u, exec (.rampLoad v c [l]) s = .next u ∧ (u.wh c).bank = [k] ∧
    u.get (RMP_STAT_PEND c) = 0 ∧ u.host.lastStatus = stOk ∧ Posts s u (viaEvt v) ∧ Within s u (spanMgt ++ spanRmp)) ∧
  (∀ (v : CmdVia) (c : Fin 12) (s : State), s.takesCmd v = true → s.isolated (dieOfCluster c) = false → ∃ u, exec (.rampLoad v c
    []) s = .next u ∧ u.host.lastStatus = stEmpty ∧ Posts s u (viaEvt v) ∧ Frame s u ([] ++ viaOffs v)) ∧
  (∀ (v : CmdVia) (c : Fin 12) (l : List (List Word)) (s : State), s.takesCmd v = true → s.isolated (dieOfCluster c) = false → 8 <
    l.length → ∃ u, exec (.rampLoad v c l) s = .next u ∧ u.host.lastStatus = stIgnored ∧ Posts s u (viaEvt v) ∧ Frame s u
    (ignoredOffs ++ viaOffs v))

/-- A taken write that raises EN applies the source the word names and the unit's ratio, which a FRAME unit may not hold staged; where
that source is the lane or a LOCKED cluster the unit is RUNNING in no on-loss condition (within the row, as it is OFF after a
disable: log entry 26, DEDUCED). A taken write that clears EN stops the unit: OFF, in no on-loss condition, its driver at high
impedance as OFF_Z says. A taken ratio write on an enabled unit that is no FRAME unit applies the ratio, on a FRAME unit it stages
it; a delay write applies COARSE and sets WALKING where FINE differs; FINE_WALK_DONE applies FINE and clears WALKING. BANK_LOSS
outside the band clears BANK_OK and disables all six units of the bank and puts their drivers at high impedance; BANK_SUPPLY_RETURN
inside it sets BANK_OK; each records VMEAS. In each clause no register outside those it names and the event registers changes, nor
do the flash, the fuses or the queue. -/
def Obligations.OutputEnableDividerDelayAndBanks : Prop :=
  (∀ (p : Path) (n : Fin 48) (w : Word) (s : State), s.takesWrite p ⟨.OUT_CTL, n, 0, 0⟩ (wordSet w 0 1 1) → s.get (OUT_CTL_EN n) =
    0 → (OUT_CTL_SRC n).of w = 3 ∨ s.synState (3 * (n / 12) + (OUT_CTL_SRC n).of w) = synLocked → (OUT_CTL_ROLE n).of w ≠ 1 ∨ s.on
    (OUT_STAT_STAGED n) = false → ∃ u, exec (.outEnable p n w) s = .next u ∧ u.get (OUT_CTL_EN n) = 1 ∧ (u.outOf n).src =
    (OUT_CTL_SRC n).of w ∧ (u.outOf n).lane = (OUT_CTL_LANE n).of w ∧ (u.outOf n).div = s.get (OUT_DIV_DIV n) ∧ (u.outOf n).hiZ =
    false ∧ u.get (OUT_STAT_STATE n) = outRunning ∧ u.get (OUT_STAT_LOSS_KIND n) = 0 ∧ u.get (OUT_STAT_CUR_SRC n) = (OUT_CTL_SRC
    n).of w ∧ Within s u spanWork) ∧
  (∀ (p : Path) (n : Fin 48) (w : Word) (s : State), s.takesWrite p ⟨.OUT_CTL, n, 0, 0⟩ (wordSet w 0 1 0) → s.get (OUT_CTL_EN n) =
    1 → ∃ u, exec (.outDisable p n w) s = .next u ∧ u.get (OUT_CTL_EN n) = 0 ∧ u.get (OUT_STAT_STATE n) = outOff ∧ u.get
    (OUT_STAT_LOSS_KIND n) = 0 ∧ u.get (OUT_STAT_WALKING n) = 0 ∧ (u.outOf n).hiZ = ((OUT_CTL_OFF_Z n).of w == 1) ∧ (u.outOf n).sw =
    none ∧ Within s u spanWork) ∧
  (∀ (p : Path) (n : Fin 48) (w : Word) (s : State), s.takesWrite p ⟨.OUT_DIV, n, 0, 0⟩ w → s.unitOn n = true → s.get
    (OUT_CTL_ROLE n) ≠ 1 → ∃ u, exec (.outDivWrite p n false w) s = .next u ∧ u.get (OUT_DIV_DIV n) = (OUT_DIV_DIV n).of w ∧
    (u.outOf n).div = (OUT_DIV_DIV n).of w ∧ Within s u spanWork) ∧
  (∀ (p : Path) (n : Fin 48) (w : Word) (s : State), s.takesWrite p ⟨.OUT_DIV, n, 0, 0⟩ w → s.unitOn n = true → s.get
    (OUT_CTL_ROLE n) = 1 → ∃ u, exec (.outDivWrite p n false w) s = .next u ∧ u.get (OUT_DIV_DIV n) = (OUT_DIV_DIV n).of w ∧
    (u.outOf n).div = (s.outOf n).div ∧ ((s.outOf n).div ≠ (OUT_DIV_DIV n).of w → u.get (OUT_STAT_STAGED n) = 1) ∧ Within s u
    spanWork) ∧
  (∀ (p : Path) (n : Fin 48) (w : Word) (s : State), s.takesWrite p ⟨.OUT_DLY, n, 0, 0⟩ w → s.unitOn n = true → s.get
    (OUT_CTL_ROLE n) ≠ 1 → s.get (OUT_STAT_WALKING n) = 0 → ∃ u, exec (.outDivWrite p n true w) s = .next u ∧ u.get (OUT_DLY_COARSE
    n) = (OUT_DLY_COARSE n).of w ∧ (u.outOf n).coarse = (OUT_DLY_COARSE n).of w ∧ u.on (OUT_STAT_WALKING n) = ((s.outOf n).fine !=
    (OUT_DLY_FINE n).of w) ∧ Silent s u ∧ Frame s u [Fld.off (OUT_DLY_FINE n), Fld.off (OUT_STAT_WALKING n)]) ∧
  (∀ (n : Fin 48) (s : State), s.on (OUT_STAT_WALKING n) = true → ∃ u, exec (.fineWalkDone n) s = .next u ∧ (u.outOf n).fine =
    s.get (OUT_DLY_FINE n) ∧ u.get (OUT_STAT_WALKING n) = 0 ∧ Silent s u ∧ Frame s u [Fld.off (OUT_STAT_WALKING n)]) ∧
  (∀ (k : Fin 8) (x : Byte) (s : State), bankInBand (s.get (OUT_BANK_VCLASS k)) x.toNat = false → ∃ u, exec (.bankLoss k x) s =
    .next u ∧ u.get (OUT_BANK_BANK_OK k) = 0 ∧ u.get (OUT_BANK_VMEAS k) = x.toNat ∧ (∀ j : Fin 6, u.get (OUT_CTL_EN (6 * k + j)) = 0
    ∧ (u.outOf (6 * k + j)).hiZ = true) ∧ Within s u spanWork) ∧
  (∀ (k : Fin 8) (x : Byte) (s : State), bankInBand (s.get (OUT_BANK_VCLASS k)) x.toNat = true → ∃ u, exec (.bankSupplyReturn k x)
    s = .next u ∧ u.get (OUT_BANK_BANK_OK k) = 1 ∧ u.get (OUT_BANK_VMEAS k) = x.toNat ∧ Silent s u ∧ Frame s u [Fld.off
    (OUT_BANK_BANK_OK k)])

/-- A taken OUT_RSYNC becomes pending with its mask and K, and every named unit shows ALIGN_PEND. ALIGNED with a selected candidate, at
the K-th edge of the pacing unit, ends it with LAST 1 and sets ALIGNED on every named unit. REALIGN_DONE at the K-th edge ends a
REALIGN, applies the registers of every named unit and sets REALIGN_DONE. A sync-input edge counts one echo on each enabled echo
unit that names the input with that sense and whose echo is low. In each clause no register outside those it names and the event
registers changes, nor do the flash, the fuses or the queue. -/
def Obligations.OutputAlignmentAndEchoes : Prop :=
  (∀ (p : Path) (t : Fin 4) (w : Word) (s : State), s.takesWrite p ⟨.OUT_RSYNC, t, 0, 0⟩ w → ∃ u, exec (.outRsync p t w) s = .next
    u ∧ u.get (OUT_RSYNC_STAT_PEND t) = 1 ∧ u.get (OUT_RSYNC_STAT_PMASK t) = (OUT_RSYNC_MASK t).of w ∧ (bankGet u.trg t.val).rsyncK
    = (OUT_RSYNC_K t).of w ∧ (∀ j : Fin 12, bitOf ((OUT_RSYNC_MASK t).of w) j = true → u.get (OUT_STAT_ALIGN_PEND (12 * t + j)) = 1)
    ∧ Silent s u ∧ Within s u spanOut) ∧
  (∀ (t : Fin 4) (e : BitVec 16) (s : State), s.on (OUT_RSYNC_STAT_PEND t) = true → s.on (PLZ_SEL_STAT_ACTIVE t) = true → (bankGet
    s.trg t.val).rsyncK ≤ e.toNat → ∃ u, exec (.aligned t e) s = .next u ∧ u.get (OUT_RSYNC_STAT_PEND t) = 0 ∧ u.get
    (OUT_RSYNC_STAT_LAST t) = 1 ∧ (∀ j : Fin 12, bitOf (s.get (OUT_RSYNC_STAT_PMASK t)) j = true → u.get (OUT_EVT_ALIGNED (12 * t +
    j)) = 1) ∧ Within s u spanOut) ∧
  (∀ (t : Fin 4) (m k : Nat) (e : BitVec 16) (s : State), (bankGet s.trg t.val).realign = some (m, k) → s.on (PLZ_SEL_STAT_ACTIVE
    t) = true → k ≤ e.toNat → ∃ u, exec (.realignDone t e) s = .next u ∧ (bankGet u.trg t.val).realign = none ∧ u.get
    (TRG_STAT_REALIGN_PEND t) = 0 ∧ u.get (TRG_EVT_REALIGN_DONE t) = 1 ∧ (∀ j : Fin 12, bitOf m j = true → (u.outOf (12 * t +
    j)).div = s.get (OUT_DIV_DIV (12 * t + j)) ∧ (u.outOf (12 * t + j)).fcnt = s.get (OUT_FRAME_FCNT (12 * t + j)) ∧ u.get
    (OUT_EVT_ALIGNED (12 * t + j)) = 1) ∧ Within s u spanWork) ∧
  (∀ (i : Fin 8) (f : Bool) (h : BitVec 48) (n : Fin 48) (s : State), s.syncInOn i = true → s.unitOn n = true → s.get
    (OUT_CTL_ROLE n) = 2 → s.get (OUT_ECHO_SEL n) = i.val → s.on (OUT_ECHO_INV n) = f → s.get (OUT_STAT_LOSS_KIND n) ≠ 2 → s.linked
    dieC (dieOfOut n) = true → bitOf h.toNat n = false → ∃ u, exec (.syncInEdge i f h) s = .next u ∧ u.get (OUT_CNT_ECHO_CNT n) =
    satNat 16 (s.get (OUT_CNT_ECHO_CNT n) + 1) ∧ Within s u spanOut) ∧
  (∀ (i : Fin 8) (f : Bool) (h : BitVec 48) (n : Fin 48) (s : State), s.syncInOn i = true → s.unitOn n = true → s.get
    (OUT_CTL_ROLE n) = 2 → s.get (OUT_ECHO_SEL n) = i.val → s.on (OUT_ECHO_INV n) = f → s.get (OUT_STAT_LOSS_KIND n) ≠ 2 → s.linked
    dieC (dieOfOut n) = true → bitOf h.toNat n = true → ∃ u, exec (.syncInEdge i f h) s = .next u ∧ u.get (OUT_CNT_ECHO_CNT n) =
    s.get (OUT_CNT_ECHO_CNT n) ∧ u.get (OUT_CNT_OVERRUN_CNT n) = satNat 16 (s.get (OUT_CNT_OVERRUN_CNT n) + 1) ∧ u.get
    (OUT_EVT_ECHO_OVERRUN n) = 1 ∧ Within s u spanOut)

/-- A taken write that raises EN of an OFF rail enters START, waiting T_EN, with every assigned phase active; of a stopping rail it
starts the ramp from the sense voltage. A write that clears EN of a REGULATING rail enters STOP, or with STOP_MODE 1 OFF with
RAIL_OFF. SOFT_START_BEGIN ends the wait and begins the ramp at the sense voltage, at 0 V below 0.1 V; RAMP_TARGET_REACHED enters
REGULATING; RAIL_OFF enters OFF, no phase active. Each of the last three does nothing in another state, and SOFT_START_BEGIN nothing
without a wait in START. In each clause no register outside those it names and the event registers changes, nor do the flash, the
fuses or the queue. -/
def Obligations.RailStartsAndStops : Prop :=
  (∀ (p : Path) (r : Fin 24) (w : Word) (s : State), s.takesWrite p (regRctl r) (wordSet w 0 1 1) → s.get (PRG_RCTL_EN r) = 0 →
    s.railState r = railOff → ∃ u, exec (.railEnable p r w) s = .next u ∧ u.get (PRG_RCTL_EN r) = 1 ∧ u.railState r = railStart ∧
    (u.railOf r).enWait = true ∧ u.get (PRG_RSTAT_NACT r) = s.nasg r % 32 ∧ (∀ k ∈ s.phasesOf r, u.get (PRG_PH_PSTATE k) = phActive)
    ∧ Silent s u ∧ Within s u spanWork) ∧
  (∀ (p : Path) (r : Fin 24) (w : Word) (s : State), s.takesWrite p (regRctl r) (wordSet w 0 1 1) → s.get (PRG_RCTL_EN r) = 0 →
    s.railState r = railStop → ∃ u, exec (.railEnable p r w) s = .next u ∧ u.railState r = railStart ∧ (u.railOf r).enWait = false ∧
    (u.railOf r).rampFrom = s.get (PRG_RMEAS_VSENSE r) ∧ Silent s u ∧ Within s u spanWork) ∧
  (∀ (p : Path) (r : Fin 24) (w : Word) (s : State), s.takesWrite p (regRctl r) (wordSet w 0 1 0) → (PRG_RCTL_STOP_MODE r).of w =
    0 → s.railState r = railRegulating → ∃ u, exec (.railDisable p r w) s = .next u ∧ u.get (PRG_RCTL_EN r) = 0 ∧ u.railState r =
    railStop ∧ u.get (PRG_RSTAT_PG r) = 0 ∧ (∀ k ∈ s.phasesOf r, u.get (PRG_PH_PSTATE k) = phActive) ∧ Silent s u ∧ Within s u
    spanWork) ∧
  (∀ (p : Path) (r : Fin 24) (w : Word) (s : State), s.takesWrite p (regRctl r) (wordSet w 0 1 0) → (PRG_RCTL_STOP_MODE r).of w =
    1 → s.railState r = railRegulating → ∃ u, exec (.railDisable p r w) s = .next u ∧ u.get (PRG_RCTL_EN r) = 0 ∧ u.railState r =
    railOff ∧ u.get (PRG_RSTAT_PG r) = 0 ∧ u.get (PRG_RSTAT_NACT r) = 0 ∧ (∀ k ∈ s.phasesOf r, u.get (PRG_PH_PSTATE k) = phIdle) ∧
    u.get (PRG_REVT_RAIL_OFF r) = 1 ∧ Posted s u 0x0603 r ∧ Within s u spanWork) ∧
  (∀ (r : Fin 24) (x : BitVec 16) (s : State), s.railState r = railStart → (s.railOf r).enWait = true → ∃ u, exec (.softStartBegin
    r x) s = .next u ∧ u.get (PRG_RMEAS_VSENSE r) = x.toNat ∧ (u.railOf r).enWait = false ∧ ((u.railOf r).rampFrom = if x.toNat <
    1000 then 0 else x.toNat) ∧ u.railState r = railStart ∧ Silent s u ∧ Frame s u [Fld.off (PRG_RMEAS_VSENSE r)]) ∧
  (∀ (r : Fin 24) (s : State), s.railState r = railStart → (s.railOf r).enWait = false → ∃ u, exec (.rampTargetReached r) s =
    .next u ∧ u.railState r = railRegulating ∧ u.get (PRG_RSTAT_DCM r) = 0 ∧ Silent s u ∧ Frame s u [Fld.off (PRG_RSTAT_STATE r)]) ∧
  (∀ (r : Fin 24) (x : BitVec 16) (s : State), s.railState r ≠ railStart ∨ (s.railOf r).enWait = false → ∃ u, exec
    (.softStartBegin r x) s = .next u ∧ u = s) ∧
  (∀ (r : Fin 24) (s : State), s.railState r ≠ railStart → ∃ u, exec (.rampTargetReached r) s = .next u ∧ u = s) ∧
  (∀ (r : Fin 24) (s : State), s.railState r = railStop → ∃ u, exec (.railOff r) s = .next u ∧ u.railState r = railOff ∧ u.get
    (PRG_RSTAT_NACT r) = 0 ∧ u.get (PRG_RSTAT_PG r) = 0 ∧ (∀ k ∈ s.phasesOf r, u.get (PRG_PH_PSTATE k) = phIdle) ∧ u.get
    (PRG_REVT_RAIL_OFF r) = 1 ∧ Posted s u 0x0603 r ∧ Within s u spanWork) ∧
  (∀ (r : Fin 24) (s : State), s.railState r ≠ railStop → ∃ u, exec (.railOff r) s = .next u ∧ u = s)

/-- RAIL_PG with the sense voltage in the band, and RAIL_PG_LOST with it outside, set and clear PG, record the voltage and raise their
events. A taken VID write of a REGULATING rail stores VID and starts a move in CCM; VID_DONE ends it. SHED_ADD and SHED_DROP, with
I_tot beyond their thresholds, move NACT by one and make the phases below it active, where the rail may shed; DCM_ENTER and
DCM_EXIT, beyond theirs, set and clear DCM. In each clause no register outside those it names and the event registers changes, nor
do the flash, the fuses or the queue. -/
def Obligations.RailRegulates : Prop :=
  (∀ (r : Fin 24) (x : BitVec 16) (s : State), s.railState r = railRegulating → s.get (PRG_RSTAT_PG r) = 0 → s.inPgBand r x.toNat
    = true → ∃ u, exec (.railPg r x) s = .next u ∧ u.get (PRG_RSTAT_PG r) = 1 ∧ u.get (PRG_RMEAS_VSENSE r) = x.toNat ∧ u.get
    (PRG_REVT_RAIL_PG r) = 1 ∧ Posted s u 0x0600 r ∧ u.railState r = railRegulating ∧ Within s u spanWork) ∧
  (∀ (r : Fin 24) (x : BitVec 16) (s : State), s.railState r = railRegulating → s.get (PRG_RSTAT_PG r) = 1 → s.inPgBand r x.toNat
    = false → ∃ u, exec (.railPgLost r x) s = .next u ∧ u.get (PRG_RSTAT_PG r) = 0 ∧ u.get (PRG_RMEAS_VSENSE r) = x.toNat ∧ u.get
    (PRG_REVT_RAIL_PG_LOST r) = 1 ∧ Posted s u 0x0601 r ∧ (∀ d : Fin 16, s.on (SEQ_DEP_A_EN d) = true → s.on (SEQ_DEP_A_KIND d) =
    true → bitOf s.depArmed d = true → s.bit (SEQ_DEP_B_RMASK d) r = true → bitOf u.depTrig d = true) ∧ Within s u spanWork) ∧
  (∀ (r : Fin 24) (x : BitVec 16) (s : State), s.railState r ≠ railRegulating ∨ s.inPgBand r x.toNat = true → ∃ u, exec
    (.railPgLost r x) s = .next u ∧ u = s) ∧
  (∀ (p : Path) (r : Fin 24) (w : Word) (s : State), s.takesWrite p (regVid r) w → s.railState r = railRegulating → ∃ u, exec
    (.vidWrite p r w) s = .next u ∧ u.get (PRG_VID_VID r) = (PRG_VID_VID r).of w ∧ u.get (PRG_RSTAT_MOVING r) = 1 ∧ u.get
    (PRG_RSTAT_DCM r) = 0 ∧ (∀ k ∈ s.phasesOf r, u.get (PRG_PH_PSTATE k) = phActive) ∧ Silent s u ∧ Within s u spanWork) ∧
  (∀ (p : Path) (r : Fin 24) (w : Word) (s : State), s.takesWrite p (regVid r) w → s.railState r ≠ railRegulating → ∃ u, exec
    (.vidWrite p r w) s = .next u ∧ u.get (PRG_VID_VID r) = (PRG_VID_VID r).of w ∧ Silent s u ∧ Frame s u [Fld.off (PRG_VID_VID r)]) ∧
  (∀ (r : Fin 24) (s : State), s.railState r = railRegulating → s.on (PRG_RSTAT_MOVING r) = true → ∃ u, exec (.vidDone r) s =
    .next u ∧ u.get (PRG_RSTAT_MOVING r) = 0 ∧ u.get (PRG_REVT_VID_DONE r) = 1 ∧ Posted s u 0x0602 r ∧ u.get (PRG_VID_VID r) = s.get
    (PRG_VID_VID r) ∧ Within s u spanWork) ∧
  (∀ (r : Fin 24) (i : BitVec 16) (s : State), s.maySheds r = true → s.get (PRG_RSTAT_NACT r) < s.nasg r → itotOver i (s.get
    (PRG_RSTAT_NACT r) * s.get (PRG_SHED_I_ADD r)) = true → ∃ u, exec (.shedAdd r i) s = .next u ∧ u.get (PRG_RSTAT_NACT r) = (s.get
    (PRG_RSTAT_NACT r) + 1) % 32 ∧ u.get (PRG_RMEAS_ITOT r) = i.toNat ∧ Silent s u ∧ Within s u spanWork) ∧
  (∀ (r : Fin 24) (i : BitVec 16) (s : State), s.maySheds r = true → s.minActive r < s.get (PRG_RSTAT_NACT r) → itotBelow i
    ((s.get (PRG_RSTAT_NACT r) - 1) * s.get (PRG_SHED_I_DROP r)) = true → ∃ u, exec (.shedDrop r i) s = .next u ∧ u.get
    (PRG_RSTAT_NACT r) = s.get (PRG_RSTAT_NACT r) - 1 ∧ u.get (PRG_RMEAS_ITOT r) = i.toNat ∧ Silent s u ∧ Within s u spanWork) ∧
  (∀ (r : Fin 24) (i : BitVec 16) (s : State), s.maySheds r = false → ∃ u, exec (.shedDrop r i) s = .next u ∧ u = s) ∧
  (∀ (r : Fin 24) (i : BitVec 16) (s : State), s.railState r = railRegulating → s.on (PRG_RCTL_DCM_EN r) = true → s.on
    (PRG_RSTAT_MOVING r) = false → s.get (PRG_RSTAT_NACT r) = s.minActive r → itotBelow i (s.get (PRG_DCM_I_DCM r)) = true → ∃ u,
    exec (.dcmEnter r i) s = .next u ∧ u.get (PRG_RSTAT_DCM r) = 1 ∧ u.get (PRG_RMEAS_ITOT r) = i.toNat ∧ Silent s u ∧ Frame s u
    [Fld.off (PRG_RMEAS_ITOT r), Fld.off (PRG_RSTAT_DCM r)]) ∧
  (∀ (r : Fin 24) (i : BitVec 16) (s : State), s.railState r = railRegulating → s.on (PRG_RSTAT_DCM r) = true → itotOver i (s.get
    (PRG_DCM_I_CCM r)) = true → ∃ u, exec (.dcmExit r i) s = .next u ∧ u.get (PRG_RSTAT_DCM r) = 0 ∧ u.get (PRG_RMEAS_ITOT r) =
    i.toNat ∧ Silent s u ∧ Frame s u [Fld.off (PRG_RMEAS_ITOT r), Fld.off (PRG_RSTAT_DCM r)])

/-- In every state of the rail an OV comparator beyond its threshold, in REGULATING a UV comparator below its own, a phase beyond the OC
threshold with CBC = 0 or in the OC_CNT-th limited period in a row with CBC = 1, and the fourth consecutive TMON reading at OT_THR
or above each set NOW and LATCH of their rail, count FCNT, latch their class at the square and act as ACT says: with REPORT no rail
changes its state; with RAIL the rail, with GROUP also the rails of its mask, with PACKAGE every rail enters SAFE, one that is OFF
staying OFF; GROUP holds the others of the mask, PACKAGE every rail. A comparator beyond 8 mV inside its threshold clears NOW alone:
that the 8 mV lie inside the threshold is the model's choice (log entry 119: DESIGN CHOICE). A limited pulse ends at the next grid
instant and below OC_CNT latches nothing; a trip outside an on-time counts nothing; a phase back within the threshold keeps its run
of limited periods; UV is not armed outside REGULATING, where its NOW falls; a TMON reading below the levels clears NOW. In each
clause no register outside those it names and the event registers changes, nor do the flash, the fuses or the queue. -/
def Obligations.RailFaults : Prop :=
  (∀ (r : Fin 24) (x : BitVec 16) (s : State), s.bit (FLT_RSTAT_NOW r) 0 = false → s.ovThreshold r < 100 * (x.toNat : Int) → ∃ u,
    exec (.ov r x) s = .next u ∧ u.bit (FLT_RSTAT_NOW r) 0 = true ∧ u.bit (FLT_RSTAT_LATCH r) 0 = true ∧ u.get (FLT_RSTAT_FCNT r) =
    satNat (FLT_RSTAT_FCNT r).w (s.get (FLT_RSTAT_FCNT r) + 1) ∧ u.bit FLT_PKG_LATCH 0 = true ∧ Acted s u r (s.faultAct r 0) ∧
    (s.linked dieP dieC = true → s.evtSeq < u.evtSeq) ∧ Within s u spanWork) ∧
  (∀ (r : Fin 24) (x : BitVec 16) (s : State), s.bit (FLT_RSTAT_NOW r) 0 = false → s.ovThreshold r < 100 * (x.toNat : Int) → s.get
    (FLT_OV_ACT r) = 2 → ∃ u, exec (.ov r x) s = .next u ∧ (∀ j : Fin 6, j.val ≠ r % 6 → s.bit (PRG_FM_GRP_GRP r) j = true → u.get
    (FLT_RSTAT_GRP_HELD (6 * (r / 6) + j)) = 1) ∧ Within s u spanWork) ∧
  (∀ (r : Fin 24) (x : BitVec 16) (s : State), s.bit (FLT_RSTAT_NOW r) 0 = false → s.ovThreshold r < 100 * (x.toNat : Int) → s.get
    (FLT_OV_ACT r) = 3 → ∃ u, exec (.ov r x) s = .next u ∧ u.get FLT_PKG_PKG_SD = 1 ∧ (∀ q : Fin 24, u.get (FLT_RSTAT_PKG_HELD q) =
    1) ∧ Within s u spanWork) ∧
  (∀ (r : Fin 24) (x : BitVec 16) (s : State), s.bit (FLT_RSTAT_NOW r) 0 = true → 100 * (x.toNat : Int) < s.ovThreshold r -
    hysteresis → ∃ u, exec (.ov r x) s = .next u ∧ u.bit (FLT_RSTAT_NOW r) 0 = false ∧ u.get (FLT_RSTAT_LATCH r) = s.get
    (FLT_RSTAT_LATCH r) ∧ Silent s u ∧ Frame s u [Fld.off (FLT_RSTAT_NOW r)]) ∧
  (∀ (r : Fin 24) (x : BitVec 16) (s : State), s.bit (FLT_RSTAT_NOW r) 1 = true → s.uvThreshold r + hysteresis < 100 * (x.toNat :
    Int) → ∃ u, exec (.uv r x) s = .next u ∧ u.bit (FLT_RSTAT_NOW r) 1 = false ∧ u.get (FLT_RSTAT_LATCH r) = s.get (FLT_RSTAT_LATCH
    r) ∧ Silent s u ∧ Frame s u [Fld.off (FLT_RSTAT_NOW r)]) ∧
  (∀ (r : Fin 24) (x : BitVec 16) (s : State), s.bit (FLT_RSTAT_NOW r) 1 = false → 100 * (x.toNat : Int) < s.uvThreshold r →
    s.railState r = railRegulating → ∃ u, exec (.uv r x) s = .next u ∧ u.bit (FLT_RSTAT_NOW r) 1 = decide (u.railState r =
    railRegulating) ∧ u.bit (FLT_RSTAT_LATCH r) 1 = true ∧ u.get (FLT_RSTAT_FCNT r) = satNat (FLT_RSTAT_FCNT r).w (s.get
    (FLT_RSTAT_FCNT r) + 1) ∧ u.bit FLT_PKG_LATCH 1 = true ∧ Acted s u r (s.faultAct r 1) ∧ (s.linked dieP dieC = true → s.evtSeq <
    u.evtSeq) ∧ Within s u spanWork) ∧
  (∀ (r : Fin 24) (x : BitVec 16) (s : State), s.bit (FLT_RSTAT_NOW r) 1 = false → s.railState r ≠ railRegulating → ∃ u, exec (.uv
    r x) s = .next u ∧ u = s) ∧
  (∀ (k : Fin 96) (r : Nat) (a c : BitVec 16) (x : BitVec 48) (s : State), s.railOfPhase k = some r → s.get (FLT_OC_CBC r) = 0 → 2
    * c.toNat + s.get (PRG_LL_IGAIN r) * s.get (FLT_OC_OC_THR r) < 2 * a.toNat → ∃ u, exec (.oc k a c x) s = .next u ∧ u.bit
    (FLT_RSTAT_NOW r) 2 = true ∧ u.bit (FLT_RSTAT_LATCH r) 2 = true ∧ u.get (FLT_RSTAT_FCNT r) = satNat (FLT_RSTAT_FCNT r).w (s.get
    (FLT_RSTAT_FCNT r) + 1) ∧ u.bit FLT_PKG_LATCH 2 = true ∧ Acted s u r (s.faultAct r 2) ∧ (s.linked dieP dieC = true → s.evtSeq <
    u.evtSeq) ∧ u.get (FLT_RSTAT_OC_PH r) = s.ordinal r k % 16 ∧ Within s u spanWork) ∧
  (∀ (k : Fin 96) (x : BitVec 48) (r q : Nat) (a c : BitVec 16) (s : State), s.railOfPhase k = some r → s.get (FLT_OC_CBC r) = 1 →
    2 * c.toNat + s.get (PRG_LL_IGAIN r) * s.get (FLT_OC_OC_THR r) < 2 * a.toNat → s.onTime r k x.toNat = true → (s.prgOf (k /
    24)).ocLast.toList.getD (k % 24) none = some q → q + 1 = s.phasePeriod r k x.toNat → (s.prgOf (k / 24)).ocRun.toList.getD (k %
    24) 0 + 1 < s.get (FLT_OC_OC_CNT r) → ∃ u, exec (.oc k a c x) s = .next u ∧ u.bit (FLT_RSTAT_NOW r) 2 = true ∧ u.get
    (FLT_RSTAT_LATCH r) = s.get (FLT_RSTAT_LATCH r) ∧ (u.prgOf (k / 24)).ocRun.toList.getD (k % 24) 0 = (s.prgOf (k /
    24)).ocRun.toList.getD (k % 24) 0 + 1 ∧ (bankGet (u.prgOf (k / 24)).pulse (k % 24)).2 = x.toNat ∧ Silent s u ∧ Frame s u
    [Fld.off (FLT_RSTAT_NOW r)]) ∧
  (∀ (k : Fin 96) (x : BitVec 48) (r q : Nat) (a c : BitVec 16) (s : State), s.railOfPhase k = some r → s.get (FLT_OC_CBC r) = 1 →
    2 * c.toNat + s.get (PRG_LL_IGAIN r) * s.get (FLT_OC_OC_THR r) < 2 * a.toNat → s.onTime r k x.toNat = true → (s.prgOf (k /
    24)).ocLast.toList.getD (k % 24) none = some q → q + 1 = s.phasePeriod r k x.toNat → s.get (FLT_OC_OC_CNT r) ≤ (s.prgOf (k /
    24)).ocRun.toList.getD (k % 24) 0 + 1 → ∃ u, exec (.oc k a c x) s = .next u ∧ u.bit (FLT_RSTAT_NOW r) 2 = true ∧ u.bit
    (FLT_RSTAT_LATCH r) 2 = true ∧ u.get (FLT_RSTAT_FCNT r) = satNat (FLT_RSTAT_FCNT r).w (s.get (FLT_RSTAT_FCNT r) + 1) ∧ u.bit
    FLT_PKG_LATCH 2 = true ∧ Acted s u r (s.faultAct r 2) ∧ (s.linked dieP dieC = true → s.evtSeq < u.evtSeq) ∧ Within s u spanWork) ∧
  (∀ (k : Fin 96) (x : BitVec 48) (r : Nat) (a c : BitVec 16) (s : State), s.railOfPhase k = some r → s.get (FLT_OC_CBC r) = 1 → 2
    * c.toNat + s.get (PRG_LL_IGAIN r) * s.get (FLT_OC_OC_THR r) < 2 * a.toNat → s.onTime r k x.toNat = false → ∃ u, exec (.oc k a c
    x) s = .next u ∧ u.bit (FLT_RSTAT_NOW r) 2 = true ∧ u.get (FLT_RSTAT_LATCH r) = s.get (FLT_RSTAT_LATCH r) ∧ (u.prgOf (k /
    24)).ocRun = (s.prgOf (k / 24)).ocRun ∧ (u.prgOf (k / 24)).pulse = (s.prgOf (k / 24)).pulse ∧ Silent s u ∧ Frame s u [Fld.off
    (FLT_RSTAT_NOW r)]) ∧
  (∀ (k : Fin 96) (r : Nat) (a c : BitVec 16) (x : BitVec 48) (s : State), s.railOfPhase k = some r → 2 * a.toNat ≤ 2 * c.toNat +
    s.get (PRG_LL_IGAIN r) * s.get (FLT_OC_OC_THR r) → ∃ u, exec (.oc k a c x) s = .next u ∧ bitOf (u.prgOf (k / 24)).ocNow (k % 24)
    = false ∧ u.get (FLT_RSTAT_LATCH r) = s.get (FLT_RSTAT_LATCH r) ∧ (u.prgOf (k / 24)).ocRun = (s.prgOf (k / 24)).ocRun ∧ Silent s
    u ∧ Frame s u [Fld.off (FLT_RSTAT_NOW r)]) ∧
  (∀ (r : Fin 24) (m : BitVec 12) (s : State), (s.get (FLT_OT_OT_THR r) * s.get (PRG_TMON_SLOPE r) : Int) ≤ ((m.toNat : Int) -
    s.get (PRG_TMON_OFS r)) * 100 → (s.railOf r).otRun = 3 → ∃ u, exec (.tmonSample r m) s = .next u ∧ u.bit (FLT_RSTAT_NOW r) 3 =
    true ∧ u.bit (FLT_RSTAT_LATCH r) 3 = true ∧ u.get (FLT_RSTAT_FCNT r) = satNat (FLT_RSTAT_FCNT r).w (s.get (FLT_RSTAT_FCNT r) +
    1) ∧ u.bit FLT_PKG_LATCH 3 = true ∧ Acted s u r (s.faultAct r 3) ∧ (s.linked dieP dieC = true → s.evtSeq < u.evtSeq) ∧ Within s
    u spanWork) ∧
  (∀ (r : Fin 24) (m : BitVec 12) (s : State), ((m.toNat : Int) - s.get (PRG_TMON_OFS r)) * 100 < (s.get (FLT_OT_OT_THR r) * s.get
    (PRG_TMON_SLOPE r) : Int) → m.toNat < 2600 → ∃ u, exec (.tmonSample r m) s = .next u ∧ u.bit (FLT_RSTAT_NOW r) 3 = false ∧
    (u.railOf r).otRun = 0 ∧ u.get (FLT_RSTAT_LATCH r) = s.get (FLT_RSTAT_LATCH r) ∧ Silent s u ∧ Frame s u [Fld.off (FLT_RSTAT_NOW
    r)])

/-- RAIL_RELEASE of a SAFE rail without latch, assertion or hold enters OFF with EN 0; otherwise nothing happens. A due retry is
postponed with WAIT while the rail is blocked; else the rail is released and enabled, in START with EN 1, and LEFT goes down by one.
RETRY_RELOAD loads LEFT with RETRY while PG is 1. RAIL_SET writes EN and VID as register writes do; with neither asked for it
completes IGNORED. In each clause no register outside those it names and the event registers changes, nor do the flash, the fuses or
the queue. -/
def Obligations.RailReleaseAndRetry : Prop :=
  (∀ (r : Fin 24) (s : State), s.railState r = railSafe → s.get (FLT_RSTAT_LATCH r) = 0 → s.railBlocked r = false → ∃ u, exec
    (.railRelease r) s = .next u ∧ u.railState r = railOff ∧ u.get (PRG_RCTL_EN r) = 0 ∧ u.get (FLT_RETRY_WAIT r) = 0 ∧ (u.railOf
    r).retryDue = false ∧ Posted s u 0x0709 r ∧ Within s u spanWork) ∧
  (∀ (r : Fin 24) (s : State), s.railState r = railSafe → s.railBlocked r = true → ∃ u, exec (.railRelease r) s = .next u ∧ u = s) ∧
  (∀ (r : Fin 24) (s : State), s.railState r = railSafe → (s.railOf r).retryDue = true → s.railBlocked r = true → ∃ u, exec
    (.retryDue r) s = .next u ∧ u.get (FLT_RETRY_WAIT r) = 1 ∧ u.railState r = railSafe ∧ (u.railOf r).retryDue = true ∧ Silent s u
    ∧ Frame s u [Fld.off (FLT_RETRY_WAIT r)]) ∧
  (∀ (r : Fin 24) (s : State), s.railState r = railSafe → (s.railOf r).retryDue = true → s.railBlocked r = false → (s.railOf
    r).grpBy = 0 → (s.railOf r).finBy = 0 → s.phasesOf r ≠ [] → s.depBlocksRail r = false → ∃ u, exec (.retryDue r) s = .next u ∧
    u.railState r = railStart ∧ u.get (PRG_RCTL_EN r) = 1 ∧ u.get (FLT_RETRY_LEFT r) = s.get (FLT_RETRY_LEFT r) - 1 ∧ u.get
    (FLT_RSTAT_LATCH r) = 0 ∧ (u.railOf r).retryDue = false ∧ Within s u spanWork) ∧
  (∀ (r : Fin 24) (s : State), s.on (PRG_RSTAT_PG r) = true → ∃ u, exec (.retryReload r) s = .next u ∧ u.get (FLT_RETRY_LEFT r) =
    s.get (FLT_RETRY_RETRY r) ∧ Silent s u ∧ Frame s u [Fld.off (FLT_RETRY_LEFT r)]) ∧
  (∀ (v : CmdVia) (r : Fin 24) (s : State), s.takesCmd v = true → s.isolated dieP = false → s.accepts .host (regRctl r) (wordSet
    (s.word (regRctl r)) 0 1 1) = true → s.get (PRG_RCTL_EN r) = 0 → s.railState r = railOff → ∃ u, exec (.railSet v (BitVec.ofNat 5
    r) true true false 0) s = .next u ∧ u.get (PRG_RCTL_EN r) = 1 ∧ u.railState r = railStart ∧ u.host.lastStatus = stOk ∧ Posts s u
    (viaEvt v) ∧ Within s u (spanMgt ++ spanWork)) ∧
  (∀ (v : CmdVia) (r : Fin 24) (x : BitVec 12) (s : State), s.takesCmd v = true → s.isolated dieP = false → s.accepts .host
    (regVid r) (BitVec.ofNat 32 x.toNat) = true → ∃ u, exec (.railSet v (BitVec.ofNat 5 r) false true true x) s = .next u ∧ u.get
    (PRG_VID_VID r) = x.toNat ∧ u.get (PRG_RCTL_EN r) = s.get (PRG_RCTL_EN r) ∧ u.host.lastStatus = stOk ∧ Posts s u (viaEvt v) ∧
    Within s u (spanMgt ++ spanWork)) ∧
  (∀ (q : BitVec 5) (x : BitVec 12) (s : State), s.takesCmd .ring = true → s.isolated dieP = false → ∃ u, exec (.railSet .ring q
    false true false x) s = .next u ∧ u.host.lastStatus = stIgnored ∧ u.get GLB_IGNORED_CNT_CNT = satNat 32 (s.get
    GLB_IGNORED_CNT_CNT + 1) ∧ u.get GLB_IGNORED_LAST_S_SOURCE = 2 ∧ Silent s u ∧ Frame s u ignoredOffs)

/-- With no announced window and no edge in reach, a pulse in a period under way whose results are not ready is placed unshifted with
the previous on-time, its rise at the period start plus the rail offset plus its phase share, as they are in force in that period.
The first plan of a period puts the PERIOD, RAIL_OFS and number of active phases then written in force. With a window over its rise
and no shift allowed, it stays and the rail counts a window skip. A phase that is not active, or whose rail runs no ramp, gets no
pulse. An announced window of an active entry joins the region's occurrences; of an inactive one it is dropped. A scan starts where
scans run, the main LO runs and none is in progress, with NSCAN entries. It completes into a frame: the header bytes, the samples of
its kinds and the CRC32C, inverted, with POISONED posted, where a word was damaged; SEQ is the frame's number and the next is one
higher; the frame before is kept, and BUSY clears unless an instant has passed meanwhile, whose scan then starts. TLM_BUF_SNAPSHOT
copies the frame into the buffer's 64 words. In each clause no register outside those it names and the event registers changes, nor
do the flash, the fuses or the queue. -/
def Obligations.EdgeSchedulerAndTelemetry : Prop :=
  (∀ (k : Fin 96) (r : Nat) (i q : BitVec 16) (x : BitVec 48) (s : State), s.railOfPhase k = some r → s.mayPulse r = true → s.get
    (PRG_PH_PSTATE k) = phActive → (s.railOf r).perStart = some x.toNat → s.ordinal r k < (s.railOf r).spread → (bankGet (s.prgOf (k
    / 24)).pulse (k % 24)).1 = (bankGet (s.prgOf (k / 24)).pulse (k % 24)).2 → (s.prgOf (k / 24)).occ = [] → (s.prgOf (k /
    24)).edges = [] → ∃ u, exec (.pulsePlan k x i q none false) s = .next u ∧ (u.prgOf (k / 24)).edges = [(r % 6, x.toNat +
    s.riseOfs r (s.ordinal r k)), (r % 6, x.toNat + s.riseOfs r (s.ordinal r k) + (s.prgOf (k / 24)).lastTon.toList.getD (k % 24)
    0)] ∧ bankGet (u.prgOf (k / 24)).pulse (k % 24) = (x.toNat + s.riseOfs r (s.ordinal r k), x.toNat + s.riseOfs r (s.ordinal r k)
    + (s.prgOf (k / 24)).lastTon.toList.getD (k % 24) 0) ∧ Silent s u ∧ Frame s u []) ∧
  (∀ (k : Fin 96) (r a z : Nat) (i q : BitVec 16) (x : BitVec 48) (s : State), s.railOfPhase k = some r → s.mayPulse r = true →
    s.get (PRG_PH_PSTATE k) = phActive → (s.railOf r).perStart = some x.toNat → s.ordinal r k < (s.railOf r).spread → (bankGet
    (s.prgOf (k / 24)).pulse (k % 24)).1 = (bankGet (s.prgOf (k / 24)).pulse (k % 24)).2 → (s.prgOf (k / 24)).occ = [(a, z)] → s.get
    (PRG_SCHED_SHIFT_LIM (k / 24)) = 0 → a ≤ x.toNat + s.riseOfs r (s.ordinal r k) → x.toNat + s.riseOfs r (s.ordinal r k) < z → ∃
    u, exec (.pulsePlan k x i q none false) s = .next u ∧ u.get (PRG_RCNT_WIN_SKIP r) = satNat (PRG_RCNT_WIN_SKIP r).w (s.get
    (PRG_RCNT_WIN_SKIP r) + 1) ∧ u.get (PRG_SCNT_WIN_SKIP (k / 24)) = satNat (PRG_SCNT_WIN_SKIP (k / 24)).w (s.get
    (PRG_SCNT_WIN_SKIP (k / 24)) + 1) ∧ Within s u spanPrg) ∧
  (∀ (k : Fin 96) (r : Nat) (i q : BitVec 16) (x : BitVec 48) (h : Bool) (s : State), s.railOfPhase k = some r → s.railRuns r =
    true → (s.railOf r).enWait = false → s.get (PRG_PH_PSTATE k) = phActive → (s.railOf r).perStart ≠ some x.toNat → ∃ u, exec
    (.pulsePlan k x i q none h) s = .next u ∧ (u.railOf r).perStart = some x.toNat ∧ (u.railOf r).period = s.get (PRG_FSW_PERIOD r)
    ∧ (u.railOf r).ofs = s.get (PRG_FSW_RAIL_OFS r) ∧ (u.railOf r).spread = s.get (PRG_RSTAT_NACT r) ∧ (u.prgOf (k /
    24)).amps.toList.getD (k % 24) 0 = s.phaseAmps r k i.toNat q.toNat ∧ Within s u spanPrg) ∧
  (∀ (k : Fin 96) (x : BitVec 48) (i q : BitVec 16) (c : Option (BitVec 16 × BitVec 16)) (d : Bool) (s : State), s.get
    (PRG_PH_PSTATE k) ≠ phActive → ∃ u, exec (.pulsePlan k x i q c d) s = .next u ∧ u = s) ∧
  (∀ (p : Fin 4) (w : Fin 8) (e : BitVec 48) (s : State), s.bit (PRG_WSTAT_ACTIVE p) w = true → ∃ u, exec (.windowAnnounce p w e)
    s = .next u ∧ (u.prgOf p).occ = (s.prgOf p).occ ++ [(((e.toNat : Int) + s.getS (PRG_QW_B_OFFSET p w)).toNat, ((e.toNat : Int) +
    s.getS (PRG_QW_B_OFFSET p w) + s.get (PRG_QW_B_WIDTH p w)).toNat)] ∧ Silent s u ∧ Frame s u []) ∧
  (∀ (p : Fin 4) (w : Fin 8) (e : BitVec 48) (s : State), s.bit (PRG_WSTAT_ACTIVE p) w = false → ∃ u, exec (.windowAnnounce p w e)
    s = .next u ∧ u = s) ∧
  (∀ (p : Fin 4) (s : State), s.pkg_.loRuns = true → s.on (PRG_TLM_CTL_EN p) = true → s.on (PRG_TLM_STAT_BUSY p) = false → ∃ u,
    exec (.tlmScanStart p) s = .next u ∧ u.get (PRG_TLM_STAT_BUSY p) = 1 ∧ (u.prgOf p).scanLen = s.get (PRG_TLM_CTL_NSCAN p) ∧
    (u.prgOf p).scanFb = s.on (PRG_TBSTAT_FALLBACK p) ∧ Silent s u ∧ Frame s u [Fld.off (PRG_TLM_STAT_BUSY p)]) ∧
  (∀ (p : Fin 4) (l : List Conv) (s : State), s.on (PRG_TLM_STAT_BUSY p) = true → (s.prgOf p).scanDue = false → ∃ u, exec
    (.tlmFrame p l none) s = .next u ∧ (u.prgOf p).frame.bytes = withCrc (frameBody p (s.prgOf p).scanFb (s.prgOf p).nextSeq
    (s.prgOf p).scanStart (scanSamples p l (s.prgOf p).scanLen s).1) false ∧ (u.prgOf p).older = (s.prgOf p).frame ∧ (u.prgOf
    p).nextSeq = ((s.prgOf p).nextSeq + 1) % 2 ^ 32 ∧ u.get (PRG_TLM_SEQ_SEQ p) = (s.prgOf p).nextSeq % 2 ^ 32 ∧ u.get
    (PRG_TLM_STAT_BUSY p) = 0 ∧ Silent s u ∧ Within s u spanPrg) ∧
  (∀ (p : Fin 4) (l : List Conv) (w : BitVec 6) (s : State), s.on (PRG_TLM_STAT_BUSY p) = true → (s.prgOf p).scanDue = false → ∃
    u, exec (.tlmFrame p l (some w)) s = .next u ∧ (u.prgOf p).frame.bytes = withCrc (frameBody p (s.prgOf p).scanFb (s.prgOf
    p).nextSeq (s.prgOf p).scanStart (scanSamples p l (s.prgOf p).scanLen s).1) true ∧ (u.prgOf p).older = (s.prgOf p).frame ∧
    (u.prgOf p).nextSeq = ((s.prgOf p).nextSeq + 1) % 2 ^ 32 ∧ u.get (PRG_TLM_SEQ_SEQ p) = (s.prgOf p).nextSeq % 2 ^ 32 ∧ u.get
    (PRG_TLM_STAT_BUSY p) = 0 ∧ (s.linked dieP dieC = true → u.bit GLB_EVT_EVT 0 = true) ∧ Posted s u 0x0000 dieP ∧ Within s u
    spanPrg) ∧
  (∀ (p : Fin 4) (l : List Conv) (w : Option (BitVec 6)) (s : State), s.on (PRG_TLM_STAT_BUSY p) = true → (s.prgOf p).scanDue =
    true → ∃ u, exec (.tlmFrame p l w) s = .next u ∧ u.get (PRG_TLM_STAT_BUSY p) = 1 ∧ (u.prgOf p).scanDue = false ∧ (u.prgOf
    p).nextSeq = ((s.prgOf p).nextSeq + 1) % 2 ^ 32 ∧ Within s u spanPrg) ∧
  (∀ (p : Fin 4) (s : State), ∃ u, exec (.tlmBufSnapshot p) s = .next u ∧ (∀ w : Fin 64, u.word ⟨.PRG_TLM_BUF, p, w, 0⟩ = wordAt
    (s.prgOf p).frame.bytes (4 * w)) ∧ Silent s u ∧ Within s u spanPrg)

/-- A notice of a timebase that is not good, the lane monitor and a taken write that changes the pairing each move a region that is not
on its fallback to it, count FB_CNT and set TB_FALLBACK. A trim to a good lane stores TRIM, sets LANE_OK and shows RETURNING while
on the fallback; a lane more than 4 % away from the trim in force moves the region to its fallback instead. TB_RETURN after that
retrim with a good lane clears FALLBACK and sets TB_RETURN; otherwise nothing happens. In each clause no register outside those it
names and the event registers changes, nor do the flash, the fuses or the queue. -/
def Obligations.FallbackAndReturn : Prop :=
  (∀ (p : Fin 4) (s : State), s.tbGood (s.get (PRG_TBSEL_TRG p)) = false → s.get (PRG_TBSTAT_FALLBACK p) = 0 → ∃ u, exec
    (.tbLossNotice p) s = .next u ∧ u.get (PRG_TBSTAT_FALLBACK p) = 1 ∧ u.get (PRG_TBSTAT_FB_CNT p) = satNat 16 (s.get
    (PRG_TBSTAT_FB_CNT p) + 1) ∧ u.get (PRG_EVT_TB_FALLBACK p) = 1 ∧ (s.linked dieP dieC = true → s.evtSeq < u.evtSeq) ∧ Within s u
    spanWork) ∧
  (∀ (p : Fin 4) (s : State), s.get (PRG_TBSTAT_FALLBACK p) = 0 → ∃ u, exec (.laneMonitorExpire p) s = .next u ∧ u.get
    (PRG_TBSTAT_FALLBACK p) = 1 ∧ u.get (PRG_TBSTAT_LANE_OK p) = 0 ∧ u.get (PRG_TBSTAT_FB_CNT p) = satNat 16 (s.get
    (PRG_TBSTAT_FB_CNT p) + 1) ∧ u.get (PRG_EVT_TB_FALLBACK p) = 1 ∧ (s.linked dieP dieC = true → s.evtSeq < u.evtSeq) ∧ Within s u
    spanWork) ∧
  (∀ (p : Path) (q : Fin 4) (w : Word) (s : State), s.takesWrite p ⟨.PRG_TBSEL, q, 0, 0⟩ w → (PRG_TBSEL_TRG q).of w ≠ s.get
    (PRG_TBSEL_TRG q) → s.get (PRG_TBSTAT_FALLBACK q) = 0 → ∃ u, exec (.tbPairingWrite p q w) s = .next u ∧ u.get (PRG_TBSEL_TRG q)
    = (PRG_TBSEL_TRG q).of w ∧ u.get (PRG_TBSTAT_FALLBACK q) = 1 ∧ u.get (PRG_EVT_TB_FALLBACK q) = 1 ∧ (s.linked dieP dieC = true →
    s.evtSeq < u.evtSeq) ∧ Within s u spanWork) ∧
  (∀ (p : Fin 4) (t : Fin 4) (x : Byte) (s : State), s.get (PRG_TBSEL_TRG p) = t.val → s.tbGood t = true → s.get
    (PRG_TBSTAT_FALLBACK p) = 1 ∨ laneOff (s.getS (PRG_TBSTAT_TRIM p)) x.toInt = false → ∃ u, exec (.fallbackTrim p x) s = .next u ∧
    u.get (PRG_TBSTAT_TRIM p) = x.toNat ∧ u.get (PRG_TBSTAT_LANE_OK p) = 1 ∧ u.get (PRG_TBSTAT_RETURNING p) = s.get
    (PRG_TBSTAT_FALLBACK p) ∧ Silent s u ∧ Frame s u [Fld.off (PRG_TBSTAT_TRIM p)]) ∧
  (∀ (p : Fin 4) (t : Fin 4) (x : Byte) (s : State), s.get (PRG_TBSEL_TRG p) = t.val → s.tbGood t = true → s.get
    (PRG_TBSTAT_FALLBACK p) = 0 → laneOff (s.getS (PRG_TBSTAT_TRIM p)) x.toInt = true → ∃ u, exec (.fallbackTrim p x) s = .next u ∧
    u.get (PRG_TBSTAT_FALLBACK p) = 1 ∧ u.get (PRG_TBSTAT_LANE_OK p) = 0 ∧ u.get (PRG_TBSTAT_TRIM p) = s.get (PRG_TBSTAT_TRIM p) ∧
    u.get (PRG_EVT_TB_FALLBACK p) = 1 ∧ (s.linked dieP dieC = true → s.evtSeq < u.evtSeq) ∧ Within s u spanWork) ∧
  (∀ (p : Fin 4) (t : Fin 4) (s : State), s.get (PRG_TBSEL_TRG p) = t.val → s.tbGood t = true → s.get (PRG_TBSTAT_FALLBACK p) = 1
    → s.get (PRG_TBSTAT_RETURNING p) = 1 → s.get (PRG_TBSTAT_LANE_OK p) = 1 → ∃ u, exec (.tbReturn p) s = .next u ∧ u.get
    (PRG_TBSTAT_FALLBACK p) = 0 ∧ u.get (PRG_TBSTAT_RETURNING p) = 0 ∧ u.get (PRG_EVT_TB_RETURN p) = 1 ∧ (s.linked dieP dieC = true
    → s.evtSeq < u.evtSeq) ∧ Within s u spanWork) ∧
  (∀ (p : Fin 4) (t : Fin 4) (s : State), s.get (PRG_TBSEL_TRG p) = t.val → s.tbGood t = false ∨ s.get (PRG_TBSTAT_RETURNING p) =
    0 ∨ s.get (PRG_TBSTAT_LANE_OK p) = 0 → ∃ u, exec (.tbReturn p) s = .next u ∧ u = s)

/-- SEQ_START of a sequence with steps, from IDLE in RUN, makes it current at rank 3 and begins step 0, WAITING where the step is
present; without steps it ends EMPTY with SEQ_DONE. While a sequence runs it completes IGNORED. SEQ_STOP of a WAITING sequence ends
it STOPPED for COMMAND, or FAILED for POISONED where its step has gone absent; of an ACTING one it waits for the action. In each
clause no register outside those it names and the event registers changes, nor do the flash, the fuses or the queue. -/
def Obligations.SequencesStartAndStop : Prop :=
  (∀ (v : CmdVia) (q : Fin 8) (s : State), s.takesCmd v = true → s.isolated dieP = false → s.seqState = seqIdle → s.get
    (SEQ_NSTEP_NSTEP q) ≠ 0 → s.stepPresent q 0 = true → s.seq.held = none → ∃ u, exec (.seqStart (.cmd v) q) s = .next u ∧
    u.seqState = seqWaiting ∧ u.get SEQ_STAT_CUR = q.val ∧ u.get SEQ_STAT_RANK = 3 ∧ u.get SEQ_STAT_STEP = 0 ∧ u.host.lastStatus =
    stOk ∧ Posts s u (viaEvt v) ∧ Within s u (spanMgt ++ spanSeq)) ∧
  (∀ (p : Path) (q : Fin 8) (w : Word) (s : State), s.takesWrite p ⟨.SEQ_CMD, 0, 0, 0⟩ (wordSet w 0 1 1) → wordGet w 4 3 = q.val →
    s.get (SEQ_NSTEP_NSTEP q) ≠ 0 → s.stepPresent q 0 = true → s.seq.held = none → ∃ u, exec (.seqStart (.write p w) q) s = .next u
    ∧ u.seqState = seqWaiting ∧ u.get SEQ_STAT_CUR = q.val ∧ u.get SEQ_STAT_RANK = 3 ∧ u.get SEQ_STAT_STEP = 0 ∧ Silent s u ∧ Within
    s u spanSeq) ∧
  (∀ (v : CmdVia) (q : Fin 8) (s : State), s.takesCmd v = true → s.isolated dieP = false → s.seqState = seqIdle → s.get
    (SEQ_NSTEP_NSTEP q) = 0 → s.seq.held = none → ∃ u, exec (.seqStart (.cmd v) q) s = .next u ∧ u.seqState = seqIdle ∧ u.get
    SEQ_STAT_LAST = 2 ∧ u.bit SEQ_EVT_EVT 0 = true ∧ u.host.lastStatus = stEmpty ∧ Posts s u ((0x0700, 0) :: viaEvt v) ∧ Within s u
    (spanMgt ++ spanSeq)) ∧
  (∀ (v : CmdVia) (q : Fin 8) (s : State), s.takesCmd v = true → s.isolated dieP = false → s.seqState ≠ seqIdle → ∃ u, exec
    (.seqStart (.cmd v) q) s = .next u ∧ u.seqState = s.seqState ∧ u.host.lastStatus = stIgnored ∧ u.get GLB_IGNORED_CNT_CNT =
    satNat 32 (s.get GLB_IGNORED_CNT_CNT + 1) ∧ Posts s u (viaEvt v) ∧ Frame s u (ignoredOffs ++ viaOffs v)) ∧
  (∀ (v : CmdVia) (s : State), s.takesCmd v = true → s.isolated dieP = false → s.seqState = seqWaiting → s.stepLost = false →
    s.seq.held = none → s.seq.restartDue = false → ∃ u, exec (.seqStop (.cmd v)) s = .next u ∧ u.seqState = seqIdle ∧ u.get
    SEQ_STAT_LAST = 4 ∧ u.get SEQ_STAT_CAUSE = 4 ∧ u.bit SEQ_EVT_EVT 5 = true ∧ u.host.lastStatus = stOk ∧ Posts s u (viaEvt v) ∧
    Within s u (spanMgt ++ spanSeq)) ∧
  (∀ (p : Path) (w : Word) (s : State), s.takesWrite p ⟨.SEQ_CMD, 0, 0, 0⟩ (wordSet w 1 1 1) → s.seqState = seqWaiting →
    s.stepLost = false → s.seq.held = none → s.seq.restartDue = false → ∃ u, exec (.seqStop (.write p w)) s = .next u ∧ u.seqState =
    seqIdle ∧ u.get SEQ_STAT_LAST = 4 ∧ u.get SEQ_STAT_CAUSE = 4 ∧ Silent s u ∧ Within s u spanSeq) ∧
  (∀ (p : Path) (w : Word) (s : State), s.takesWrite p ⟨.SEQ_CMD, 0, 0, 0⟩ (wordSet w 1 1 1) → s.stepLost = true → s.seq.held =
    none → s.seq.restartDue = false → ∃ u, exec (.seqStop (.write p w)) s = .next u ∧ u.seqState = seqIdle ∧ u.get SEQ_STAT_LAST = 3
    ∧ u.get SEQ_STAT_CAUSE = 2 ∧ u.bit SEQ_EVT_EVT 1 = true ∧ u.bit FLT_PKG_LATCH 12 = true ∧ Posted s u 0x0701 0 ∧ Within s u
    spanSeq) ∧
  (∀ (v : CmdVia) (s : State), s.takesCmd v = true → s.isolated dieP = false → s.seqState = seqActing → ∃ u, exec (.seqStop (.cmd
    v)) s = .next u ∧ u.seqState = seqActing ∧ u.seq.stopPend = true ∧ u.host.lastStatus = stOk ∧ Posts s u (viaEvt v) ∧ Frame s u
    ([] ++ viaOffs v))

/-- A step whose condition and dependencies hold moves to ACTING; one whose condition does not, stays; an absent one ends the sequence
POISONED. The end of the last step's action, here an action of kind NONE, ends the sequence DONE with SEQ_DONE; a VID action writes
its rail's VID. A timeout with ONTMO 0 is counted and fails the sequence for TIMEOUT with SEQ_FAIL and its class at the square; with
ONTMO 1 it raises SEQ_TIMEOUT and acts. A triggered entry trips once: its trigger ends, DEP_TRIP is set, and its response starts its
sequence. In each clause no register outside those it names and the event registers changes, nor do the flash, the fuses or the
queue. -/
def Obligations.SequenceSteps : Prop :=
  (∀ (s : State), s.seqState = seqWaiting → s.stepLost = false → s.waitMet (wordGet (s.stepWord (s.get SEQ_STAT_CUR) (s.get
    SEQ_STAT_STEP) 0) 0 4) (s.stepWord (s.get SEQ_STAT_CUR) (s.get SEQ_STAT_STEP) 1) = true → s.actDepsMet (wordGet (s.stepWord
    (s.get SEQ_STAT_CUR) (s.get SEQ_STAT_STEP) 0) 4 4) (s.stepWord (s.get SEQ_STAT_CUR) (s.get SEQ_STAT_STEP) 2) = true → ∃ u, exec
    (.stepWaitSatisfied) s = .next u ∧ u.seqState = seqActing ∧ Silent s u ∧ Frame s u [Fld.off SEQ_STAT_STATE]) ∧
  (∀ (s : State), s.seqState = seqWaiting → s.stepLost = false → s.waitMet (wordGet (s.stepWord (s.get SEQ_STAT_CUR) (s.get
    SEQ_STAT_STEP) 0) 0 4) (s.stepWord (s.get SEQ_STAT_CUR) (s.get SEQ_STAT_STEP) 1) = false → ∃ u, exec (.stepWaitSatisfied) s =
    .next u ∧ u = s) ∧
  (∀ (s : State), s.stepLost = true → s.seq.held = none → s.seq.restartDue = false → ∃ u, exec (.stepWaitSatisfied) s = .next u ∧
    u.seqState = seqIdle ∧ u.get SEQ_STAT_LAST = 3 ∧ u.get SEQ_STAT_CAUSE = 2 ∧ u.bit SEQ_EVT_EVT 1 = true ∧ u.bit FLT_PKG_LATCH 12
    = true ∧ Posted s u 0x0701 0 ∧ Within s u spanSeq) ∧
  (∀ (s : State), s.seqState = seqActing → wordGet (s.stepWord (s.get SEQ_STAT_CUR) (s.get SEQ_STAT_STEP) 0) 4 4 = 0 → s.get
    (SEQ_NSTEP_NSTEP (s.get SEQ_STAT_CUR)) ≤ s.get SEQ_STAT_STEP + 1 → s.seq.stopPend = false → s.seq.held = none → s.seq.restartDue
    = false → ∃ u, exec (.stepActionDone) s = .next u ∧ u.seqState = seqIdle ∧ u.get SEQ_STAT_LAST = 1 ∧ u.get SEQ_STAT_CAUSE = 0 ∧
    u.bit SEQ_EVT_EVT 0 = true ∧ Posted s u 0x0700 0 ∧ Within s u spanSeq) ∧
  (∀ (s : State), s.seqState = seqActing → wordGet (s.stepWord (s.get SEQ_STAT_CUR) (s.get SEQ_STAT_STEP) 0) 4 4 = 0 → s.get
    SEQ_STAT_STEP + 1 < s.get (SEQ_NSTEP_NSTEP (s.get SEQ_STAT_CUR)) → s.stepPresent (s.get SEQ_STAT_CUR) (s.get SEQ_STAT_STEP + 1)
    = true → s.seq.stopPend = false → ∃ u, exec (.stepActionDone) s = .next u ∧ u.seqState = seqWaiting ∧ u.get SEQ_STAT_STEP =
    (s.get SEQ_STAT_STEP + 1) % 64 ∧ u.seq.links = [] ∧ Silent s u ∧ Within s u spanWork) ∧
  (∀ (s : State), s.pkg_.loRuns = true → s.seqState = seqWaiting → s.stepLost = false → wordGet (s.stepWord (s.get SEQ_STAT_CUR)
    (s.get SEQ_STAT_STEP) 0) 8 16 ≠ 0 → wordGet (s.stepWord (s.get SEQ_STAT_CUR) (s.get SEQ_STAT_STEP) 0) 24 1 = 0 → s.seq.held =
    none → s.seq.restartDue = false → ∃ u, exec (.stepTimeout) s = .next u ∧ u.seqState = seqIdle ∧ u.get SEQ_STAT_LAST = 3 ∧ u.get
    SEQ_STAT_CAUSE = 1 ∧ u.get SEQ_CNT_TMO_CNT = satNat SEQ_CNT_TMO_CNT.w (s.get SEQ_CNT_TMO_CNT + 1) ∧ u.bit SEQ_EVT_EVT 1 = true ∧
    u.bit FLT_PKG_LATCH 12 = true ∧ Posted s u 0x0701 0 ∧ Within s u spanWork) ∧
  (∀ (s : State), s.pkg_.loRuns = true → s.seqState = seqWaiting → s.stepLost = false → wordGet (s.stepWord (s.get SEQ_STAT_CUR)
    (s.get SEQ_STAT_STEP) 0) 8 16 ≠ 0 → wordGet (s.stepWord (s.get SEQ_STAT_CUR) (s.get SEQ_STAT_STEP) 0) 24 1 = 1 → ∃ u, exec
    (.stepTimeout) s = .next u ∧ u.seqState = seqActing ∧ u.get SEQ_CNT_TMO_CNT = satNat SEQ_CNT_TMO_CNT.w (s.get SEQ_CNT_TMO_CNT +
    1) ∧ u.bit SEQ_EVT_EVT 2 = true ∧ Posted s u 0x0702 0 ∧ Within s u spanWork) ∧
  (∀ (s : State), s.seqState = seqActing → wordGet (s.stepWord (s.get SEQ_STAT_CUR) (s.get SEQ_STAT_STEP) 0) 4 4 = 3 → wordGet
    (s.stepWord (s.get SEQ_STAT_CUR) (s.get SEQ_STAT_STEP) 2) 0 5 < 24 → ∃ u, exec (.stepActionDone) s = .next u ∧ u.get
    (PRG_VID_VID (wordGet (s.stepWord (s.get SEQ_STAT_CUR) (s.get SEQ_STAT_STEP) 2) 0 5)) = wordGet (s.stepWord (s.get SEQ_STAT_CUR)
    (s.get SEQ_STAT_STEP) 2) 16 12 ∧ Within s u spanWork) ∧
  (∀ (s : State), s.seqState ≠ seqActing → ∃ u, exec (.stepActionDone) s = .next u ∧ u = s) ∧
  (∀ (d : Fin 16) (s : State), bitOf s.depTrig d = true → s.get (SEQ_DEP_A_RESP d) = 0 → ∃ u, exec (.depTrip d) s = .next u ∧
    bitOf u.depTrig d = false ∧ u.bit SEQ_EVT_EVT 4 = true ∧ Posted s u 0x0704 d ∧ Within s u spanWork) ∧
  (∀ (d : Fin 16) (s : State), bitOf s.depTrig d = true → s.get (SEQ_DEP_A_RESP d) = 2 → s.active = true → s.seqState = seqIdle →
    s.get (SEQ_NSTEP_NSTEP (s.get (SEQ_DEP_A_RSEQ d))) ≠ 0 → s.stepPresent (s.get (SEQ_DEP_A_RSEQ d)) 0 = true → s.seq.held = none →
    ∃ u, exec (.depTrip d) s = .next u ∧ bitOf u.depTrig d = false ∧ u.seqState = seqWaiting ∧ u.get SEQ_STAT_CUR = s.get
    (SEQ_DEP_A_RSEQ d) ∧ u.get SEQ_STAT_RANK = 1 ∧ Within s u spanWork) ∧
  (∀ (d : Fin 16) (s : State), bitOf s.depTrig d = false → ∃ u, exec (.depTrip d) s = .next u ∧ u = s)

/-- A taken SEQ_LOAD_CTL write with START opens an empty copy; the first taken word, a header of at most 64 steps without reserved bits,
joins it, and any other poisons the load; the word after the last step that equals the CRC32C makes the copy pending, in place of an
older one of its slot. A SEQ_LOAD whose length does not fit its header completes IGNORED; of an empty sequence with a good CRC, OK.
SEQ_SWAP puts every pending copy whose slot is not running into its slot, with the steps a double-bit error has left absent; that a
verified copy of a slot that is not running waits for this row, SWAP_PEND 1, is read from the table of rows and no rule (log entry
28: DEDUCED). A copy of the running slot stays pending, beside those of other slots. In each clause no register outside those it
names and the event registers changes, nor do the flash, the fuses or the queue. -/
def Obligations.SequenceLoads : Prop :=
  (∀ (p : Path) (w : Word) (s : State), s.takesWrite p ⟨.SEQ_LOAD_CTL, 0, 0, 0⟩ (wordSet w 0 1 1) → ∃ u, exec (.seqLoadStart p w)
    s = .next u ∧ u.seq.load = some [] ∧ u.get SEQ_LOAD_STAT_WORDS = 0 ∧ u.get SEQ_LOAD_STAT_RESULT = 1 ∧ Silent s u ∧ Frame s u
    [Fld.off SEQ_LOAD_STAT_WORDS]) ∧
  (∀ (p : Path) (w : Word) (s : State), s.takesWrite p ⟨.SEQ_LOAD_DATA, 0, 0, 0⟩ w → s.seq.load = some [] → seqHeaderOk w = true →
    ∃ u, exec (.seqLoadData p w) s = .next u ∧ u.seq.load = some [w] ∧ u.get SEQ_LOAD_STAT_WORDS = 1 ∧ u.get SEQ_LOAD_STAT_SLOT =
    wordGet w 8 3 ∧ Silent s u ∧ Frame s u [Fld.off SEQ_LOAD_STAT_WORDS]) ∧
  (∀ (p : Path) (w : Word) (s : State), s.takesWrite p ⟨.SEQ_LOAD_DATA, 0, 0, 0⟩ w → s.seq.load = some [] → seqHeaderOk w = false
    → ∃ u, exec (.seqLoadData p w) s = .next u ∧ u.seq.load = none ∧ u.get SEQ_LOAD_STAT_RESULT = 3 ∧ u.seq.pend = s.seq.pend ∧
    Silent s u ∧ Within s u spanSeq) ∧
  (∀ (p : Path) (h : Word) (l : List Word) (w : Word) (s : State), s.takesWrite p ⟨.SEQ_LOAD_DATA, 0, 0, 0⟩ w → s.seq.load = some
    (h :: l) → l.length = 3 * wordGet h 0 7 → crcWords (h :: l) = w → s.seq.loadBad = false → ∃ u, exec (.seqLoadData p w) s = .next
    u ∧ u.seq.load = none ∧ u.seq.pend = (wordGet h 8 3, h :: l, []) :: s.seq.pend.filter (fun e => e.1 ≠ wordGet h 8 3) ∧ u.get
    SEQ_LOAD_STAT_RESULT = 2 ∧ u.get SEQ_LOAD_STAT_SWAP_PEND = 1 ∧ Silent s u ∧ Within s u spanSeq) ∧
  (∀ (p : Path) (h : Word) (l : List Word) (w : Word) (s : State), s.takesWrite p ⟨.SEQ_LOAD_DATA, 0, 0, 0⟩ w → s.seq.load = some
    (h :: l) → l.length = 3 * wordGet h 0 7 → crcWords (h :: l) ≠ w → ∃ u, exec (.seqLoadData p w) s = .next u ∧ u.seq.load = none ∧
    u.seq.pend = s.seq.pend ∧ u.get SEQ_LOAD_STAT_RESULT = 3 ∧ Silent s u ∧ Within s u spanSeq) ∧
  (∀ (v : CmdVia) (h w : Word) (s : State), s.takesCmd v = true → s.isolated dieP = false → seqHeaderOk h = true → wordGet h 0 7 =
    0 → crcWords [h] = w → ∃ u, exec (.seqLoad v [h, w]) s = .next u ∧ u.seq.pend = (wordGet h 8 3, [h], []) :: s.seq.pend.filter
    (fun e => e.1 ≠ wordGet h 8 3) ∧ u.get SEQ_LOAD_STAT_RESULT = 2 ∧ u.host.lastStatus = stOk ∧ Posts s u (viaEvt v) ∧ Within s u
    (spanMgt ++ spanSeq)) ∧
  (∀ (l : List Word) (s : State), s.takesCmd .ring = true → s.isolated dieP = false → seqHeaderOk (l.getD 0 0) = true → l.length ≠
    2 + 3 * wordGet (l.getD 0 0) 0 7 → ∃ u, exec (.seqLoad .ring l) s = .next u ∧ u.seq = s.seq ∧ u.host.lastStatus = stIgnored ∧
    Silent s u ∧ Frame s u ignoredOffs) ∧
  (∀ (q : Fin 8) (l : List Word) (d : List Nat) (s : State), s.seq.pend = [(q.val, l, d)] → s.seqRuns q = false → ∃ u, exec
    (.seqSwap) s = .next u ∧ u.seq.pend = [] ∧ u.get SEQ_LOAD_STAT_SWAP_PEND = 0 ∧ u.get (SEQ_NSTEP_NSTEP q) = wordGet (l.getD 0 0)
    0 7 ∧ (∀ (i : Fin 64) (j : Fin 3), u.stepWord q i j = l.getD (1 + 3 * i + j) 0) ∧ u.seq.badSteps = s.seq.badSteps.filter (fun e
    => e.1 ≠ q.val) ++ d.map (fun i => (q.val, i)) ∧ Silent s u ∧ Within s u spanSeq) ∧
  (∀ (q r : Fin 8) (l m : List Word) (d e : List Nat) (s : State), s.seq.pend = [(r.val, m, e), (q.val, l, d)] → s.seqRuns q =
    true → s.seqRuns r = false → ∃ u, exec (.seqSwap) s = .next u ∧ u.seq.pend = [(q.val, l, d)] ∧ u.get SEQ_LOAD_STAT_SWAP_PEND = 1
    ∧ u.get (SEQ_NSTEP_NSTEP q) = s.get (SEQ_NSTEP_NSTEP q) ∧ u.get (SEQ_NSTEP_NSTEP r) = wordGet (m.getD 0 0) 0 7 ∧ Silent s u ∧
    Within s u spanSeq) ∧
  (∀ (q : Fin 8) (l : List Word) (d : List Nat) (s : State), s.seq.pend = [(q.val, l, d)] → s.seqRuns q = true → ∃ u, exec
    (.seqSwap) s = .next u ∧ u.seq.pend = s.seq.pend ∧ u.get SEQ_LOAD_STAT_SWAP_PEND = 1 ∧ (∀ (i : Fin 64) (j : Fin 3), u.stepWord q
    i j = s.stepWord q i j) ∧ Silent s u ∧ Frame s u [Fld.off SEQ_LOAD_STAT_SWAP_PEND])

/-- STORE_CHARGE in range sets CV, CC and EN and completes OK; out of range it completes IGNORED. CC enters CV at 99 % of CV, CV enters
FULL with the current below ITERM, FULL enters CC below 97 %; above 105 % in CC or CV, or at the CC timeout, the charger enters
FAULT with CHG_FAULT and its class at the square. A measurement at or above READY_V sets READY, with STORE_READY as it rises. In
each clause no register outside those it names and the event registers changes, nor do the flash, the fuses or the queue. -/
def Obligations.ChargerAndStore : Prop :=
  (∀ (v : CmdVia) (a : BitVec 16) (s : State), s.takesCmd v = true → s.isolated dieP = false → 600 ≤ a.toNat % 2 ^ 11 → a.toNat %
    2 ^ 11 ≤ 1600 → s.get HUP_STORE_READY_V ≤ a.toNat % 2 ^ 11 → ∃ u, exec (.storeCharge v a) s = .next u ∧ u.get HUP_CHG_CV =
    a.toNat % 2 ^ 11 ∧ u.get HUP_CHG_CC = a.toNat / 2 ^ 11 ∧ u.get HUP_CTL_EN = 1 ∧ u.host.lastStatus = stOk ∧ Posts s u (viaEvt v)
    ∧ Within s u (spanMgt ++ spanSeq)) ∧
  (∀ (v : CmdVia) (a : BitVec 16) (s : State), s.takesCmd v = true → s.isolated dieP = false → a.toNat % 2 ^ 11 < 600 ∨ 1600 <
    a.toNat % 2 ^ 11 → ∃ u, exec (.storeCharge v a) s = .next u ∧ u.host.lastStatus = stIgnored ∧ u.get GLB_IGNORED_CNT_CNT = satNat
    32 (s.get GLB_IGNORED_CNT_CNT + 1) ∧ Posts s u (viaEvt v) ∧ Frame s u (ignoredOffs ++ viaOffs v)) ∧
  (∀ (x : BitVec 16) (s : State), s.get HUP_STAT_CHG = chgCc → 990 * s.get HUP_CHG_CV ≤ 100 * x.toNat → 100 * x.toNat ≤ 1050 *
    s.get HUP_CHG_CV → ∃ u, exec (.chgCv x) s = .next u ∧ u.get HUP_STAT_CHG = chgCv ∧ u.get HUP_STAT_VSTORE = x.toNat ∧ Within s u
    spanWork) ∧
  (∀ (i : BitVec 16) (s : State), s.get HUP_STAT_CHG = chgCv → i.toNat < 10 * s.get HUP_CHG_ITERM → ∃ u, exec (.chgFull i) s =
    .next u ∧ u.get HUP_STAT_CHG = Machine.chgFull ∧ Silent s u ∧ Frame s u [Fld.off HUP_STAT_CHG]) ∧
  (∀ (i : BitVec 16) (s : State), s.get HUP_STAT_CHG ≠ chgCv ∨ 10 * s.get HUP_CHG_ITERM ≤ i.toNat → ∃ u, exec (.chgFull i) s =
    .next u ∧ u = s) ∧
  (∀ (x : BitVec 16) (s : State), s.get HUP_STAT_CHG = Machine.chgFull → 100 * x.toNat < 970 * s.get HUP_CHG_CV → ∃ u, exec
    (.chgRecharge x) s = .next u ∧ u.get HUP_STAT_CHG = chgCc ∧ u.get HUP_STAT_VSTORE = x.toNat ∧ Within s u spanWork) ∧
  (∀ (x : BitVec 16) (s : State), s.get HUP_STAT_CHG = chgCc ∨ s.get HUP_STAT_CHG = chgCv → 1050 * s.get HUP_CHG_CV < 100 *
    x.toNat → ∃ u, exec (.chgFault (some x)) s = .next u ∧ u.get HUP_STAT_CHG = Machine.chgFault ∧ u.bit HUP_EVT_EVT 4 = true ∧
    u.bit FLT_PKG_LATCH 9 = true ∧ (s.linked dieP dieC = true → s.evtSeq < u.evtSeq) ∧ Within s u spanWork) ∧
  (∀ (s : State), s.get HUP_STAT_CHG = chgCc → ∃ u, exec (.chgFault none) s = .next u ∧ u.get HUP_STAT_CHG = Machine.chgFault ∧
    u.bit FLT_PKG_LATCH 9 = true ∧ Posted s u 0x070D 0 ∧ Within s u spanWork) ∧
  (∀ (x : BitVec 16) (s : State), 10 * s.get HUP_STORE_READY_V ≤ x.toNat → s.get HUP_STAT_READY = 0 → (s.get HUP_STAT_CHG ≠ chgCc
    ∧ s.get HUP_STAT_CHG ≠ chgCv) ∨ 100 * x.toNat ≤ 1050 * s.get HUP_CHG_CV → ∃ u, exec (.storeReady x) s = .next u ∧ u.get
    HUP_STAT_READY = 1 ∧ u.get HUP_STAT_VSTORE = x.toNat ∧ u.bit HUP_EVT_EVT 2 = true ∧ Posted s u 0x070F 0 ∧ Within s u spanWork) ∧
  (∀ (x : BitVec 16) (s : State), x.toNat < 10 * s.get HUP_STORE_READY_V → (s.get HUP_STAT_CHG ≠ chgCc ∧ s.get HUP_STAT_CHG ≠
    chgCv) ∨ 100 * x.toNat ≤ 1050 * s.get HUP_CHG_CV → ∃ u, exec (.storeReady x) s = .next u ∧ u.get HUP_STAT_READY = 0 ∧ u.get
    HUP_STAT_VSTORE = x.toNat ∧ Silent s u ∧ Frame s u [Fld.off HUP_STAT_READY])

/-- VIN_LOSS below VIN_UV clears VIN_OK, turns the charger off, latches its class and, with RIDE_EN and STORE_PRESENT, moves the bias to
the store. VIN_GOOD above VIN_UV + HYST restores it and, after an orderly down with RESTART, starts the boot sequence. STORE_LOW on
the store below STORE_MIN latches its class and sets PKG_SD, every rail that was not OFF in SAFE. A regulator outside its band, or
held in current limit, latches; with FACT 1 and not HK0 it is turned off. A diode reading at or above ALARM latches its bit and its
class. In each clause no register outside those it names and the event registers changes, nor do the flash, the fuses or the queue. -/
def Obligations.VinAndHousekeeping : Prop :=
  (∀ (v : BitVec 16) (s : State), s.on HUP_STAT_VIN_OK = true → v.toNat < 20 * s.get HUP_VIN_VIN_UV → s.on SEQ_CFG_DOWN_EN = false
    → ∃ u, exec (.vinLoss v) s = .next u ∧ u.get HUP_STAT_VIN_OK = 0 ∧ u.get HUP_STAT_CHG = chgOff ∧ u.bit HUP_EVT_EVT 0 = true ∧
    u.bit FLT_PKG_LATCH 7 = true ∧ (s.on HUP_CTL_RIDE_EN = true → s.on HUP_CTL_STORE_PRESENT = true → s.isolated dieP = false →
    u.get HUP_STAT_ON_STORE = 1) ∧ Posted s u 0x070B 0 ∧ Within s u spanWork) ∧
  (∀ (v : BitVec 16) (s : State), s.on HUP_STAT_VIN_OK = true → v.toNat < 20 * s.get HUP_VIN_VIN_UV → s.on SEQ_CFG_DOWN_EN = true
    → s.active = true → s.seqState = seqIdle → s.get (SEQ_NSTEP_NSTEP (s.get SEQ_CFG_DOWN_SEQ)) ≠ 0 → s.stepPresent (s.get
    SEQ_CFG_DOWN_SEQ) 0 = true → s.seq.held = none → ∃ u, exec (.vinLoss v) s = .next u ∧ u.get HUP_STAT_VIN_OK = 0 ∧ u.seqState =
    seqWaiting ∧ u.get SEQ_STAT_CUR = s.get SEQ_CFG_DOWN_SEQ ∧ u.get SEQ_STAT_RANK = 0 ∧ u.seq.downRan = true ∧ Within s u spanWork) ∧
  (∀ (v : BitVec 16) (s : State), s.on HUP_STAT_VIN_OK = false ∨ 20 * s.get HUP_VIN_VIN_UV ≤ v.toNat → ∃ u, exec (.vinLoss v) s =
    .next u ∧ u = s) ∧
  (∀ (v : BitVec 16) (s : State), s.pkg_.loRuns = true → s.on HUP_STAT_VIN_OK = false → s.pkg ≠ pkgOff → s.pkg ≠ pkgKeep → 20 *
    (s.get HUP_VIN_VIN_UV + s.get HUP_VIN_HYST) < v.toNat → s.on HUP_CTL_RESTART = false ∨ s.seq.downRan = false → ∃ u, exec
    (.vinGood v) s = .next u ∧ u.get HUP_STAT_VIN_OK = 1 ∧ u.get HUP_STAT_ON_STORE = 0 ∧ u.bit HUP_EVT_EVT 1 = true ∧ Posted s u
    0x070E 0 ∧ Within s u spanWork) ∧
  (∀ (v : BitVec 16) (s : State), s.pkg_.loRuns = true → s.on HUP_STAT_VIN_OK = false → s.active = true → 20 * (s.get
    HUP_VIN_VIN_UV + s.get HUP_VIN_HYST) < v.toNat → s.on HUP_CTL_RESTART = true → s.seq.downRan = true → s.seqState = seqIdle →
    s.get (SEQ_NSTEP_NSTEP (s.get SEQ_CFG_BOOT_SEQ)) ≠ 0 → s.stepPresent (s.get SEQ_CFG_BOOT_SEQ) 0 = true → s.seq.held = none → ∃
    u, exec (.vinGood v) s = .next u ∧ u.get HUP_STAT_VIN_OK = 1 ∧ u.seqState = seqWaiting ∧ u.get SEQ_STAT_CUR = s.get
    SEQ_CFG_BOOT_SEQ ∧ u.get SEQ_STAT_RANK = 2 ∧ Within s u spanWork) ∧
  (∀ (x : BitVec 16) (s : State), s.on HUP_STAT_ON_STORE = true → x.toNat < 10 * s.get HUP_STORE_STORE_MIN → s.seqState = seqIdle
    → ∃ u, exec (.storeLow x) s = .next u ∧ u.get HUP_STAT_VSTORE = x.toNat ∧ u.get FLT_PKG_PKG_SD = 1 ∧ u.bit FLT_PKG_LATCH 8 =
    true ∧ u.bit HUP_EVT_EVT 3 = true ∧ (∀ r : Fin 24, u.railState r = if s.railState r = railOff then railOff else railSafe) ∧ (∀ r
    : Fin 24, u.get (FLT_RSTAT_PKG_HELD r) = 1) ∧ (s.linked dieP dieC = true → s.evtSeq < u.evtSeq) ∧ Within s u spanWork) ∧
  (∀ (i : Fin 8) (o : Option (BitVec 16)) (s : State), s.on (hkField i) = true → o.all (fun x => hkOutside (s.hkMv i) x.toNat) =
    true → i.val ≠ 0 → (if i.val < 4 then s.on (HK_BUCK_FACT i) else s.on (HK_LDO_FACT (i - 4))) = true → ∃ u, exec (.hkFault i o) s
    = .next u ∧ u.bit HK_FLT_LATCH i = true ∧ u.on (hkField i) = false ∧ u.bit FLT_PKG_LATCH 10 = true ∧ Posted s u 0x0710 i ∧
    Within s u spanWork) ∧
  (∀ (o : Option (BitVec 16)) (s : State), s.on (hkField 0) = true → o.all (fun x => hkOutside (s.hkMv 0) x.toNat) = true → ∃ u,
    exec (.hkFault 0 o) s = .next u ∧ u.bit HK_FLT_LATCH 0 = true ∧ u.on (hkField 0) = true ∧ u.bit FLT_PKG_LATCH 10 = true ∧ Posted
    s u 0x0710 0 ∧ Within s u spanWork) ∧
  (∀ (i : Fin 8) (x : BitVec 16) (s : State), s.on (HK_TD_EN i) = true → (16 * s.get (HK_TD_ALARM i) : Int) ≤ x.toInt ∨ x = 0x8000
    → s.bit HK_FLT_TD_LATCH i = false → ∃ u, exec (.tdMeasure i x) s = .next u ∧ u.get (HK_TDVAL_TEMP i) = x.toNat ∧ u.bit
    HK_FLT_TD_LATCH i = true ∧ u.bit FLT_PKG_LATCH 11 = true ∧ Posted s u 0x0711 i ∧ Within s u spanWork) ∧
  (∀ (i : Fin 8) (x : BitVec 16) (s : State), s.on (HK_TD_EN i) = true → x.toInt < (16 * s.get (HK_TD_ALARM i) : Int) → x ≠ 0x8000
    → ∃ u, exec (.tdMeasure i x) s = .next u ∧ u.get (HK_TDVAL_TEMP i) = x.toNat ∧ Silent s u ∧ Frame s u [Fld.off (HK_TDVAL_TEMP
    i)])

/-- A handover gives the pin the first of the functions its changes have called for and is counted; the next of them runs a handover of
its own. A pin in analogue mode reads 0. A FAULT_IN that asserts sets NOW and LATCH, raises FAULT_IN, puts its rails that are not
OFF in SAFE and holds each. A masked GPIO write changes the masked latches alone. A pin whose condition holds sets PEND, and a
HOST-owned one raises PIN_IRQ, an engine's interrupts its engine; an input whose class lies above the bank voltage never reads high,
and without its clock no pin is sampled. A PWMX period takes the written values. A capture sample joins the block; with both buffers
full the block is dropped and counted once. In each clause no register outside those it names and the event registers changes, nor
do the flash, the fuses or the queue. -/
def Obligations.PinsAndGpio : Prop :=
  (∀ (i : Fin 64) (f : Fin 8) (o : PinOut) (s : State), s.handover i = some ([f.val], o) → f.val ≠ 5 → ∃ u, exec (.pinHandover i)
    s = .next u ∧ u.get (PIN_CFG_FN_CUR i) = f ∧ u.get PIN_CNT_HANDOVER_CNT = satNat 16 (s.get PIN_CNT_HANDOVER_CNT + 1) ∧
    u.handover i = none ∧ Silent s u ∧ Frame s u [Fld.off (PIN_CFG_FN_CUR i), Fld.off (PIN_CNT_HANDOVER_CNT)]) ∧
  (∀ (i : Fin 64) (f g : Fin 8) (l : List Nat) (o : PinOut) (s : State), s.handover i = some (f.val :: g.val :: l, o) → f.val ≠ 5
    → ∃ u, exec (.pinHandover i) s = .next u ∧ u.get (PIN_CFG_FN_CUR i) = f ∧ u.get PIN_CNT_HANDOVER_CNT = satNat 16 (s.get
    PIN_CNT_HANDOVER_CNT + 1) ∧ (u.handover i).map Prod.fst = some (g.val :: l) ∧ Silent s u ∧ Frame s u [Fld.off (PIN_CFG_FN_CUR
    i), Fld.off (PIN_CNT_HANDOVER_CNT)]) ∧
  (∀ (i : Fin 64) (o : PinOut) (s : State), s.handover i = some ([5], o) → s.pinSynced i = true → s.get (PIN_CFG_IRQ i) = 0 → ∃ u,
    exec (.pinHandover i) s = .next u ∧ u.get (PIN_CFG_FN_CUR i) = 5 ∧ u.get PIN_CNT_HANDOVER_CNT = satNat 16 (s.get
    PIN_CNT_HANDOVER_CNT + 1) ∧ u.handover i = none ∧ u.bit (GPIO_IN_IN (i / 16)) (i % 16) = false ∧ Silent s u ∧ Within s u
    spanPin) ∧
  (∀ (i : Fin 64) (s : State), s.handover i = none → ∃ u, exec (.pinHandover i) s = .next u ∧ u = s) ∧
  (∀ (k : Fin 4) (s : State), s.pinCarries (56 + k) .faultIn = true → s.bit PIN_FIN_STAT_NOW k = false → ∃ u, exec (.faultIn k
    true) s = .next u ∧ u.bit PIN_FIN_STAT_NOW k = true ∧ u.bit PIN_FIN_STAT_LATCH k = true ∧ (s.linked dieP dieC = true → u.bit
    PIN_EVT_EVT 1 = true) ∧ (∀ r : Fin 24, s.bit (PIN_FIN_RMASK k) r = true → u.railState r = (if s.railState r = railOff then
    railOff else railSafe) ∧ u.get (FLT_RSTAT_GRP_HELD r) = 1) ∧ Posted s u 0x0C01 k ∧ Within s u spanWork) ∧
  (∀ (k : Fin 4) (s : State), s.pinCarries (56 + k) .faultIn = false → ∃ u, exec (.faultIn k true) s = .next u ∧ u = s) ∧
  (∀ (k : Fin 4) (s : State), ∃ u, exec (.faultIn k false) s = .next u ∧ u.bit PIN_FIN_STAT_NOW k = false ∧ (∀ r : Fin 24, bitOf
    (u.railOf r).finBy k = (bitOf (s.railOf r).finBy k && s.bit PIN_FIN_STAT_LATCH k)) ∧ (∀ r : Fin 24, u.railState r = s.railState
    r) ∧ Silent s u ∧ Within s u spanWork) ∧
  (∀ (p : Path) (g : Fin 4) (w : Word) (s : State), s.takesWrite p ⟨.GPIO_MOUT, g, 0, 0⟩ w → ∃ u, exec (.gpioMoutWrite p g w) s =
    .next u ∧ (∀ j : Fin 16, u.bit (GPIO_MOUT_VAL g) j = if wordGet w (16 + j) 1 = 1 then decide (wordGet w j 1 = 1) else s.bit
    (GPIO_MOUT_VAL g) j) ∧ Silent s u ∧ Frame s u [Fld.off (GPIO_MOUT_VAL g)]) ∧
  (∀ (p : Path) (g : Fin 4) (w : Word) (s : State), s.takesWrite p ⟨.GPIO_MOE, g, 0, 0⟩ w → ∃ u, exec (.gpioMoeWrite p g w) s =
    .next u ∧ (∀ j : Fin 16, u.bit (GPIO_MOE_VAL g) j = if wordGet w (16 + j) 1 = 1 then decide (wordGet w j 1 = 1) else s.bit
    (GPIO_MOE_VAL g) j) ∧ Silent s u ∧ Frame s u [Fld.off (GPIO_MOE_VAL g)]) ∧
  (∀ (i : Fin 64) (k : Fin 4) (s : State), s.get (PIN_CFG_FN_CUR i) ≠ 5 → s.pinSynced i = true → bitOf s.pin.bankLow (i / 16) =
    false → thrBank (s.get (PIN_CFG_THR i)) ≤ k.val → s.get (PIN_CFG_IRQ i) = 1 ∨ s.get (PIN_CFG_IRQ i) = 3 ∨ s.get (PIN_CFG_IRQ i)
    = 4 → s.bit (GPIO_IN_IN (i / 16)) (i % 16) = false → s.bit (GPIO_IRQ_PEND (i / 16)) (i % 16) = false → s.pinOwner i = hostOwner
    → ∃ u, exec (.pinIrq i true k) s = .next u ∧ u.bit (GPIO_IN_IN (i / 16)) (i % 16) = true ∧ u.bit (GPIO_IRQ_PEND (i / 16)) (i %
    16) = true ∧ u.bit PIN_EVT_EVT 0 = true ∧ Posted s u 0x0C00 i ∧ Within s u spanPin) ∧
  (∀ (i : Fin 64) (k : Fin 4) (s : State), s.get (PIN_CFG_FN_CUR i) ≠ 5 → s.pinSynced i = true → bitOf s.pin.bankLow (i / 16) =
    false → thrBank (s.get (PIN_CFG_THR i)) ≤ k.val → s.get (PIN_CFG_IRQ i) = 1 → s.bit (GPIO_IN_IN (i / 16)) (i % 16) = false →
    s.bit (GPIO_IRQ_PEND (i / 16)) (i % 16) = false → s.pinOwner i ≠ hostOwner → ∃ u, exec (.pinIrq i true k) s = .next u ∧ u.bit
    (GPIO_IN_IN (i / 16)) (i % 16) = true ∧ u.bit (GPIO_IRQ_PEND (i / 16)) (i % 16) = true ∧ (s.linked dieC (dieOfEngine (s.pinOwner
    i)) = true → u.sent.getLast? = some (.engIrq (s.pinOwner i) true)) ∧ Silent s u ∧ Frame s u [Fld.off (GPIO_IN_IN (i / 16)),
    Fld.off (GPIO_IRQ_PEND (i / 16))]) ∧
  (∀ (i : Fin 64) (o : Bool) (k : Fin 4) (s : State), s.get (PIN_CFG_FN_CUR i) ≠ 5 → s.pinSynced i = true → bitOf s.pin.bankLow (i
    / 16) = false → s.get (PIN_CFG_IRQ i) = 0 → ∃ u, exec (.pinIrq i o k) s = .next u ∧ u.bit (GPIO_IN_IN (i / 16)) (i % 16) = (o &&
    thrBank (s.get (PIN_CFG_THR i)) ≤ k.val) ∧ Silent s u ∧ Frame s u [Fld.off (GPIO_IN_IN (i / 16))]) ∧
  (∀ (i : Fin 64) (o : Bool) (k : Fin 4) (s : State), s.pinSynced i = false → ∃ u, exec (.pinIrq i o k) s = .next u ∧ u = s) ∧
  (∀ (k : Fin 4) (s : State), s.pkg_.loRuns = true → ∃ u, exec (.pwmxPeriod k) s = .next u ∧ bankGet u.pin.pwmPer k = s.get
    (PWMX_PER_PER k) ∧ bankGet u.pin.pwmDuty k = s.get (PWMX_DUTY_DUTY k) ∧ Silent s u ∧ Frame s u []) ∧
  (∀ (s : State), s.on GPIO_CAP_CFG_EN = true → s.pkg_.loRuns = true → s.pin.capFull.length < 2 → s.pin.capCur.length + s.capWidth
    / 8 < s.capBlock → ∃ u, exec (.captureSample) s = .next u ∧ u.pin.capCur = s.pin.capCur ++ natBytes (s.capWidth / 8) s.capLanes
    ∧ u.pin.capFull = s.pin.capFull ∧ Silent s u ∧ Frame s u []) ∧
  (∀ (s : State), s.on GPIO_CAP_CFG_EN = true → s.pkg_.loRuns = true → s.pin.capFull.length < 2 → s.capBlock ≤ s.pin.capCur.length
    + s.capWidth / 8 → ∃ u, exec (.captureSample) s = .next u ∧ u.pin.capCur = [] ∧ u.pin.capFull.map LineUnit.bytes =
    s.pin.capFull.map LineUnit.bytes ++ [s.pin.capCur ++ natBytes (s.capWidth / 8) s.capLanes] ∧ u.get GPIO_CAP_STAT_BLK_CNT =
    satNat 16 (s.get GPIO_CAP_STAT_BLK_CNT + 1) ∧ Silent s u ∧ Within s u spanPin) ∧
  (∀ (s : State), s.on GPIO_CAP_CFG_EN = true → s.pkg_.loRuns = true → s.pin.capFull.length = 2 → s.pin.capDrop = false → ∃ u,
    exec (.captureSample) s = .next u ∧ u.pin.capCur = [] ∧ u.pin.capDrop = true ∧ u.get GPIO_CAP_STAT_CAP_OVR_CNT = satNat 16
    (s.get GPIO_CAP_STAT_CAP_OVR_CNT + 1) ∧ u.bit PIN_EVT_EVT 2 = true ∧ Posted s u 0x0C02 0 ∧ Within s u spanPin)

/-- A taken check-in with the token in an open window marks its frame; before the window it fails the frame, EARLY, with another token
TOKEN, after a good one DOUBLE, recorded and counted. A frame with its check-in closes with LAST 1; without one it fails, MISSED,
and the first failure arms the slot; the Bisque image of its engine checks in at the middle of the window. The second of a PACKAGE
slot, a WATCHDOG_RESET and a taken WDG_FORCE reset the package: BOOT, the cause, LASTFAIL and the reset count. A slot with no open
frame changes nothing. The fuses and the queue stay as they are; where a clause names register spans, no register outside them and
the event registers changes. -/
def Obligations.WatchdogJudgesFrames : Prop :=
  (∀ (p : Path) (i : Fin 16) (w : Word) (x : BitVec 12) (s : State), s.takesWrite p ⟨.WDG_KICK, 0, 0, 0⟩ w → wordGet w 16 4 =
    i.val → s.frameOpen i = true → (s.wdgOf i).pos + 2000000 < s.wdgTicks (s.get (WDG_WIN_WMAX i)) → s.wdgTicks (s.get (WDG_WIN_WMIN
    i)) ≤ (s.wdgOf i).pos + 2000000 → wordGet w 0 16 = s.get (WDG_SLOT_TOKEN i) → (s.wdgOf i).kicked = false → ∃ u, exec (.wdgKick p
    w x) s = .next u ∧ (u.wdgOf i).kicked = true ∧ Silent s u ∧ Frame s u []) ∧
  (∀ (p : Path) (i : Fin 16) (w : Word) (x : BitVec 12) (s : State), s.takesWrite p ⟨.WDG_KICK, 0, 0, 0⟩ w → wordGet w 16 4 =
    i.val → s.frameOpen i = true → (s.wdgOf i).pos + 2000000 < s.wdgTicks (s.get (WDG_WIN_WMAX i)) → (s.wdgOf i).pos + 2000000 <
    s.wdgTicks (s.get (WDG_WIN_WMIN i)) → (s.wdgOf i).failed = false → s.bit WDG_STAT_ARMED i = false → ∃ u, exec (.wdgKick p w x) s
    = .next u ∧ (u.wdgOf i).failed = true ∧ u.get (WDG_SSTAT_KIND i) = wdgEarly ∧ u.get (WDG_SSTAT_LAST i) = 2 ∧ u.get
    (WDG_SSTAT_FAIL_CNT i) = satNat 16 (s.get (WDG_SSTAT_FAIL_CNT i) + 1) ∧ u.bit WDG_STAT_ARMED i = true ∧ Posted s u 0x0D06 i ∧
    Within s u spanWdg) ∧
  (∀ (p : Path) (i : Fin 16) (w : Word) (x : BitVec 12) (s : State), s.takesWrite p ⟨.WDG_KICK, 0, 0, 0⟩ w → wordGet w 16 4 =
    i.val → s.frameOpen i = true → (s.wdgOf i).pos + 2000000 < s.wdgTicks (s.get (WDG_WIN_WMAX i)) → s.wdgTicks (s.get (WDG_WIN_WMIN
    i)) ≤ (s.wdgOf i).pos + 2000000 → wordGet w 0 16 ≠ s.get (WDG_SLOT_TOKEN i) → (s.wdgOf i).failed = false → s.bit WDG_STAT_ARMED
    i = false → ∃ u, exec (.wdgKick p w x) s = .next u ∧ (u.wdgOf i).failed = true ∧ u.get (WDG_SSTAT_KIND i) = wdgToken ∧ u.get
    (WDG_SSTAT_LAST i) = 2 ∧ u.get (WDG_SSTAT_FAIL_CNT i) = satNat 16 (s.get (WDG_SSTAT_FAIL_CNT i) + 1) ∧ u.bit WDG_STAT_ARMED i =
    true ∧ Posted s u 0x0D06 i ∧ u.flash = s.flash ∧ u.otp.fuse = s.otp.fuse ∧ u.pending = s.pending) ∧
  (∀ (i : Fin 16) (x : BitVec 12) (s : State), s.frameOpen i = true → s.bisqueSlot i = false → (s.wdgOf i).kicked = true →
    (s.wdgOf i).failed = false → ∃ u, exec (.wdgFrameEnd i x) s = .next u ∧ u.wdgOf i = { started := true } ∧ u.bit WDG_STAT_ARMED i
    = false ∧ u.bit WDG_STAT_FAILED i = false ∧ u.get (WDG_SSTAT_LAST i) = 1 ∧ u.get (WDG_SSTAT_KIND i) = 0 ∧ Silent s u ∧ Frame s u
    [Fld.off (WDG_STAT_ARMED), Fld.off (WDG_SSTAT_LAST i)]) ∧
  (∀ (i : Fin 16) (x : BitVec 12) (s : State), s.frameOpen i = true → s.bisqueSlot i = false → (s.wdgOf i).kicked = false →
    (s.wdgOf i).failed = false → s.bit WDG_STAT_ARMED i = false → ∃ u, exec (.wdgFrameEnd i x) s = .next u ∧ u.get (WDG_SSTAT_KIND
    i) = wdgMissed ∧ u.get (WDG_SSTAT_LAST i) = 2 ∧ u.bit WDG_STAT_ARMED i = true ∧ u.bit WDG_STAT_FAILED i = true ∧ Posted s u
    0x0D06 i ∧ u.flash = s.flash ∧ u.otp.fuse = s.otp.fuse ∧ u.pending = s.pending) ∧
  (∀ (i : Fin 16) (x : BitVec 12) (s : State), s.frameOpen i = true → s.bisqueSlot i = false → (s.wdgOf i).kicked = false →
    (s.wdgOf i).failed = false → s.bit WDG_STAT_ARMED i = true → s.get (WDG_SLOT_SCOPE i) = 1 → s.resettable = true → s.resetAlone =
    true → s.otp.burn = none → s.on HUP_STAT_ON_STORE = false → s.dieStarved dieC = false → ∃ u, exec (.wdgFrameEnd i x) s = .next u
    ∧ u.pkg = pkgBoot ∧ u.get GLB_RESET_CAUSE = 0x30 + i ∧ u.get WDG_LASTFAIL_SLOT = i.val ∧ u.get WDG_LASTFAIL_KIND = wdgMissed ∧
    u.get WDG_LASTFAIL_VALID = 1 ∧ u.evtFifo.length ≤ 1 ∧ u.flash = s.flash ∧ u.otp.fuse = s.otp.fuse ∧ u.pending = s.pending) ∧
  (∀ (p : Path) (i : Fin 16) (w : Word) (x : BitVec 12) (s : State), s.takesWrite p ⟨.WDG_KICK, 0, 0, 0⟩ w → wordGet w 16 4 =
    i.val → s.frameOpen i = true → (s.wdgOf i).pos + 2000000 < s.wdgTicks (s.get (WDG_WIN_WMAX i)) → s.wdgTicks (s.get (WDG_WIN_WMIN
    i)) ≤ (s.wdgOf i).pos + 2000000 → wordGet w 0 16 = s.get (WDG_SLOT_TOKEN i) → (s.wdgOf i).kicked = true → (s.wdgOf i).failed =
    false → s.bit WDG_STAT_ARMED i = false → ∃ u, exec (.wdgKick p w x) s = .next u ∧ (u.wdgOf i).failed = true ∧ u.get
    (WDG_SSTAT_KIND i) = wdgDouble ∧ u.bit WDG_STAT_ARMED i = true ∧ Posted s u 0x0D06 i ∧ u.flash = s.flash ∧ u.otp.fuse =
    s.otp.fuse ∧ u.pending = s.pending) ∧
  (∀ (i : Fin 16) (x : BitVec 12) (s : State), s.frameOpen i = true → s.bisqueSlot i = true → (s.wdgOf i).kicked = false →
    (s.wdgOf i).failed = false → (s.wdgOf i).pos < s.midWindow i → s.get (WDG_WIN_WMIN i) ≤ s.get (WDG_WIN_WMAX i) → ∃ u, exec
    (.wdgFrameEnd i x) s = .next u ∧ u.wdgOf i = { started := true } ∧ u.bit WDG_STAT_ARMED i = false ∧ u.get (WDG_SSTAT_LAST i) = 1
    ∧ Silent s u ∧ Frame s u [Fld.off (WDG_STAT_ARMED), Fld.off (WDG_SSTAT_LAST i)]) ∧
  (∀ (i : Fin 16) (x : BitVec 12) (s : State), s.frameOpen i = false → ∃ u, exec (.wdgFrameEnd i x) s = .next u ∧ u = s) ∧
  (∀ (i : Fin 16) (k : BitVec 3) (s : State), 1 ≤ k.toNat → k.toNat ≤ 4 → s.frameOpen i = true → s.failsAs i k.toNat = true →
    s.bit WDG_STAT_ARMED i = true → s.on (WDG_SLOT_SCOPE i) = true → s.resettable = true → RegsWf s.regs → s.resetAlone = true →
    s.otp.burn = none → s.on HUP_STAT_ON_STORE = false → s.dieStarved dieC = false → ∃ u, exec (.watchdogReset i k) s = .next u ∧
    u.pkg = pkgBoot ∧ u.get GLB_RESET_CAUSE = 0x30 + i ∧ u.get GLB_RESET_RST_CNT = satNat 16 (s.get GLB_RESET_RST_CNT + 1) ∧ u.get
    KLN_WDG_CNT_CNT = satNat 16 (s.get KLN_WDG_CNT_CNT + 1) ∧ u.get WDG_LASTFAIL_KIND = k.toNat ∧ (∀ j : Fin 256, u.get
    (KLN_SCR_DATA j) = s.get (KLN_SCR_DATA j)) ∧ u.flash = s.flash ∧ u.otp.fuse = s.otp.fuse ∧ u.pending = s.pending) ∧
  (∀ (p : Path) (w : Word) (s : State), s.takesWrite p ⟨.WDG_FORCE, 0, 0, 0⟩ w → s.resettable = true → s.resetAlone = true →
    s.otp.burn = none → s.on HUP_STAT_ON_STORE = false → s.dieStarved dieC = false → ∃ u, exec (.wdgForce p w) s = .next u ∧ u.pkg =
    pkgBoot ∧ u.get GLB_RESET_CAUSE = 0x40 ∧ u.get GLB_RESET_RST_CNT = satNat 16 (s.get GLB_RESET_RST_CNT + 1) ∧ u.get
    WDG_LASTFAIL_KIND = 5 ∧ u.flash = s.flash ∧ u.otp.fuse = s.otp.fuse ∧ u.pending = s.pending)

/-- A die found isolated, or tripped by its temperature, is latched in GLB_DIE with its class and DIE_ISOLATED; with the P-die every
rail that was not OFF enters SAFE, with a T-die every unit of it is at high impedance. VDDA_P out of band marks its die and isolates
it; VDDPWM holds every rail of its region, and SUPPLY_HOLD_END ends that; VDDIO out of band reads its pins as 0 and drives none. The
thermal alarm sets and clears THERM. A single-bit error is corrected and counted; a double-bit error raises POISONED. In each clause
no register outside the spans it names and the event registers changes, nor does the queue. -/
def Obligations.DiesSuppliesAndTemperature : Prop :=
  (∀ (d : Fin 4) (s : State), s.pkg ≠ pkgOff → s.pkg ≠ pkgBoot → s.pkg ≠ pkgKeep → s.isolated d = false → d.val = dieC → s.otp.due
    = none → ∃ u, exec (.dieIsolated d) s = .next u ∧ u.isolated d = true ∧ u.otp.burn = none ∧ u.bit FLT_PKG_LATCH 5 = true ∧ u.bit
    GLB_EVT_EVT 1 = true ∧ Posted s u 0x0001 d ∧ RegsWithin s u (spanGlb ++ spanHost ++ spanPlz ++ spanWork ++ spanDma ++ spanEng) ∧
    u.pending = s.pending ∧ u.flash = s.flash) ∧
  (∀ (s : State), s.pkg ≠ pkgOff → s.pkg ≠ pkgBoot → s.pkg ≠ pkgKeep → s.isolated dieP = false → ∃ u, exec (.dieIsolated 3) s =
    .next u ∧ u.isolated dieP = true ∧ u.bit FLT_PKG_LATCH 5 = true ∧ (∀ r : Fin 24, u.railState r = if s.railState r = railOff then
    railOff else railSafe) ∧ u.get HUP_STAT_CHG = chgOff ∧ u.on HUP_STAT_ON_STORE = false ∧ Posted s u 0x0001 3 ∧ Within s u
    (spanGlb ++ spanHost ++ spanPlz ++ spanWork ++ spanDma ++ spanEng)) ∧
  (∀ (d : Fin 4) (s : State), s.isolated d = true → ∃ u, exec (.dieIsolated d) s = .next u ∧ u = s) ∧
  (∀ (s : State), s.pkg ≠ pkgOff → s.pkg ≠ pkgBoot → s.pkg ≠ pkgKeep → s.isolated dieT0 = false → ∃ u, exec (.thermalTrip 1) s =
    .next u ∧ u.isolated dieT0 = true ∧ u.bit FLT_PKG_LATCH 5 = true ∧ (∀ n : Fin 24, u.outZ n = true) ∧ Within s u (spanGlb ++
    spanHost ++ spanPlz ++ spanWork ++ spanDma ++ spanEng)) ∧
  (∀ (d : Fin 4) (s : State), s.pkg ≠ pkgOff → s.pkg ≠ pkgBoot → s.pkg ≠ pkgKeep → s.isolated d = false → (d.val = dieC →
    s.otp.due = none) → ∃ u, exec (.thermalTrip d) s = .next u ∧ u.isolated d = true ∧ (s.linked d dieP = true → u.bit FLT_PKG_LATCH
    5 = true) ∧ u.bit GLB_EVT_EVT 1 = true ∧ u.pending = s.pending ∧ u.flash = s.flash ∧ RegsWithin s u (spanGlb ++ spanHost ++
    spanPlz ++ spanWork ++ spanDma ++ spanEng)) ∧
  (∀ (d : Fin 4) (s : State), ∃ u, exec (.thermalAlarm d true) s = .next u ∧ u.bit GLB_DIE_THERM d = true ∧ (s.linked d dieP =
    true → u.bit FLT_PKG_LATCH 6 = true) ∧ Silent s u ∧ Frame s u [Fld.off (GLB_DIE_THERM), Fld.off (FLT_PKG_LATCH)]) ∧
  (∀ (d : Fin 4) (s : State), ∃ u, exec (.thermalAlarm d false) s = .next u ∧ u.bit GLB_DIE_THERM d = false ∧ Silent s u ∧ Frame s
    u [Fld.off GLB_DIE_THERM]) ∧
  (∀ (s : State), s.pkg ≠ pkgOff → s.pkg ≠ pkgBoot → s.pkg ≠ pkgKeep → s.isolated dieP = false → ∃ u, exec (.supplyOutOfBand 4
    true) s = .next u ∧ u.bit GLB_DIE_SUPPLY 3 = true ∧ u.isolated dieP = true ∧ u.bit FLT_PKG_LATCH 6 = true ∧ Posted s u 0x0001 3
    ∧ Within s u (spanGlb ++ spanHost ++ spanPlz ++ spanWork ++ spanDma ++ spanEng)) ∧
  (∀ (p : Fin 4) (x : Fin 18) (s : State), x.val = 9 + p.val → s.pkg ≠ pkgOff → s.pkg ≠ pkgKeep → ∃ u, exec (.supplyOutOfBand x
    true) s = .next u ∧ (∀ j : Fin 6, u.get (FLT_RSTAT_SUP_HELD (6 * p + j)) = 1 ∧ u.railState (6 * p + j) = if s.railState (6 * p +
    j) = railOff then railOff else railSafe) ∧ u.bit FLT_PKG_LATCH 6 = true ∧ Silent s u ∧ Within s u (spanGlb ++ spanHost ++
    spanPlz ++ spanWork ++ spanDma ++ spanEng)) ∧
  (∀ (p : Fin 4) (s : State), ∃ u, exec (.supplyHoldEnd p) s = .next u ∧ (∀ j : Fin 6, u.get (FLT_RSTAT_SUP_HELD (6 * p + j)) = 0)
    ∧ (∀ r : Fin 24, u.railState r = s.railState r) ∧ Silent s u ∧ Within s u (spanGlb ++ spanHost ++ spanPlz ++ spanWork ++ spanDma
    ++ spanEng)) ∧
  (∀ (g : Fin 4) (x : Fin 18) (s : State), x.val = 13 + g.val → s.pkg ≠ pkgOff → s.pkg ≠ pkgKeep → (∀ j : Fin 16, s.pinSynced (16
    * g + j) = true ∧ s.get (PIN_CFG_IRQ (16 * g + j)) = 0) → ∃ u, exec (.supplyOutOfBand x true) s = .next u ∧ u.get (GPIO_IN_IN g)
    = 0 ∧ bitOf u.pin.bankLow g = true ∧ (∀ j : Fin 16, u.mfpOut (16 * g + j) = .released) ∧ Silent s u ∧ Frame s u [Fld.off
    (GPIO_IN_IN g)]) ∧
  (∀ (o : Bool) (s : State), ∃ u, exec (.supplyOutOfBand 17 o) s = .next u ∧ u.on KLN_STAT_VAUX_OK = !o ∧ Silent s u ∧ Frame s u
    [Fld.off KLN_STAT_VAUX_OK]) ∧
  (∀ (e : Fin 64) (a : BitVec 16) (s : State), e.val < 12 → a.toNat < 32768 → ∃ u, exec (.scrubWord 0 e a false) s = .next u ∧
    u.get (ENG_CNT_CE_CNT e) = satNat 16 (s.get (ENG_CNT_CE_CNT e) + 1) ∧ Silent s u ∧ Frame s u [Fld.off (ENG_CNT_CE_CNT e)]) ∧
  (∀ (e : Fin 64) (a : BitVec 16) (s : State), e.val < 12 → a.toNat < 32768 → s.classLoading (classOf e) = false → s.get
    (ENG_STAT_STATE e) = engRunning → ∃ u, exec (.scrubWord 0 e a true) s = .next u ∧ u.get (ENG_STAT_STATE e) = engHalted ∧ u.get
    (ENG_STAT_HALT_CAUSE e) = 1 ∧ (s.linked (dieOfEngine e) dieC = true → u.bit GLB_EVT_EVT 0 = true) ∧ (s.linked (dieOfEngine e)
    dieC = true → s.evtSeq < u.evtSeq) ∧ Within s u (spanGlb ++ spanDma ++ spanEng)) ∧
  (∀ (m : Fin 11) (e : Fin 64) (a : BitVec 16) (d : Bool) (s : State), memUnits m ≤ e.val ∨ memSize m ≤ a.toNat → ∃ u, exec
    (.scrubWord m e a d) s = .next u ∧ u = s)

/-- POWER_ON_RESET leaves the reset state with its cause in the Kiln, but for the fuses, the flash and the queue. KILN_SUPPLY_LOSS
leaves OFF with everything lost; HK0_IN_REGULATION then powers on, and from an OFF that kept the Kiln it boots with cause 0x11.
SUPPLY_LOSS leaves OFF, the Kiln kept. A pin reset, an LO loss and a soft reset enter BOOT with their causes and count; the Kiln
scratch is kept, the event FIFO holds at most STORE_READY after the first two, and a soft reset keeps the enables of outputs and the
states of rails, where no action of a sequence is under way and no die is without its supply; a reset that arises while one waits or
has just taken place is none of its own. What is kept of the register file is said of one in canonical form. The fuses and the queue
stay as they are, and in a reset the flash does too. -/
def Obligations.PackageResets : Prop :=
  (∀ (s : State), s.otp.burn = none → ∃ u, exec (.powerOnReset) s = .next u ∧ u.pkg = pkgBoot ∧ u.get (KLN_HIST_CAUSE 0) = 0x10 ∧
    u.get GLB_RESET_CAUSE = 0x10 ∧ u.flash = s.flash ∧ u.otp.fuse = s.otp.fuse ∧ u.pending = s.pending ∧ u.evtFifo = [] ∧
    (s.pkg_.supplyOut = 0 → ∀ q : Reg, q.off ≠ Fld.off (KLN_HIST_CAUSE 0) → u.word q = q.reset)) ∧
  (∀ (s : State), s.otp.burn = none → ∃ u, exec (.kilnSupplyLoss) s = .next u ∧ u.pkg = pkgOff ∧ u.pkg_.kilnLost = true ∧ u.flash
    = s.flash ∧ u.otp.fuse = s.otp.fuse ∧ (∀ q : Reg, q.off ≠ Fld.off GLB_STATE_STATE → u.word q = q.reset)) ∧
  (∀ (s : State), s.pkg = pkgOff → s.pkg_.kilnLost = true → s.otp.burn = none → ∃ u, exec (.hk0InRegulation) s = .next u ∧ u.pkg =
    pkgBoot ∧ u.get (KLN_HIST_CAUSE 0) = 0x10 ∧ u.pkg_.kilnLost = false ∧ u.flash = s.flash ∧ u.otp.fuse = s.otp.fuse ∧ u.pending =
    s.pending) ∧
  (∀ (s : State), s.pkg = pkgOff → s.pkg_.kilnLost = false → ∃ u, exec (.hk0InRegulation) s = .next u ∧ u.pkg = pkgBoot ∧ u.get
    GLB_RESET_CAUSE = 0x11 ∧ u.get (KLN_HIST_CAUSE 0) = 0x11 ∧ u.get (KLN_HIST_CAUSE 1) = s.get (KLN_HIST_CAUSE 0) ∧ u.get
    GLB_RESET_RST_CNT = satNat 16 (s.get GLB_RESET_RST_CNT + 1) ∧ u.flash = s.flash ∧ u.otp.fuse = s.otp.fuse ∧ u.pending =
    s.pending) ∧
  (∀ (s : State), s.pkg ≠ pkgOff → s.pkg ≠ pkgKeep → s.otp.burn = none → s.on KLN_STAT_VAUX_OK = true → RegsWf s.regs → ∃ u, exec
    (.supplyLoss) s = .next u ∧ u.pkg = pkgOff ∧ u.otp.fuse = s.otp.fuse ∧ u.flash = s.flash ∧ u.evtFifo = [] ∧ (∀ j : Fin 256,
    u.get (KLN_SCR_DATA j) = s.get (KLN_SCR_DATA j)) ∧ (∀ n : Fin 48, u.get (OUT_CTL_EN n) = 0) ∧ u.pending = s.pending) ∧
  (∀ (s : State), s.pkg ≠ pkgOff → s.pkg ≠ pkgKeep → s.otp.burn = none → s.on KLN_STAT_VAUX_OK = false → ∃ u, exec (.supplyLoss) s
    = .next u ∧ u.pkg = pkgOff ∧ u.pkg_.kilnLost = true ∧ u.flash = s.flash ∧ u.otp.fuse = s.otp.fuse ∧ (∀ q : Reg, q.off ≠ Fld.off
    GLB_STATE_STATE → u.word q = q.reset)) ∧
  (∀ (s : State), s.pkg ≠ pkgOff → RegsWf s.regs → s.resetAlone = true → s.otp.burn = none → s.on HUP_STAT_ON_STORE = false → ∃ u,
    exec (.pinReset) s = .next u ∧ u.pkg = pkgBoot ∧ u.get GLB_RESET_CAUSE = 0x20 ∧ u.get GLB_RESET_RST_CNT = satNat 16 (s.get
    GLB_RESET_RST_CNT + 1) ∧ u.get (KLN_HIST_CAUSE 0) = 0x20 ∧ u.evtFifo.length ≤ 1 ∧ (∀ e ∈ u.evtFifo, e.code = 0x070F) ∧ (∀ j :
    Fin 256, u.get (KLN_SCR_DATA j) = s.get (KLN_SCR_DATA j)) ∧ (∀ n : Fin 48, u.get (OUT_CTL_EN n) = 0) ∧ u.flash = s.flash ∧
    u.otp.fuse = s.otp.fuse ∧ u.pending = s.pending) ∧
  (∀ (s : State), s.pkg = pkgOff → ∃ u, exec (.pinReset) s = .next u ∧ u = s) ∧
  (∀ (s : State), s.resettable = true → RegsWf s.regs → s.resetAlone = true → s.otp.burn = none → s.on HUP_STAT_ON_STORE = false →
    ∃ u, exec (.loLossReset) s = .next u ∧ u.pkg = pkgBoot ∧ u.get GLB_RESET_CAUSE = 0x50 ∧ u.get GLB_RESET_RST_CNT = satNat 16
    (s.get GLB_RESET_RST_CNT + 1) ∧ u.evtFifo.length ≤ 1 ∧ (∀ e ∈ u.evtFifo, e.code = 0x070F) ∧ (∀ j : Fin 256, u.get (KLN_SCR_DATA
    j) = s.get (KLN_SCR_DATA j)) ∧ u.flash = s.flash ∧ u.otp.fuse = s.otp.fuse ∧ u.pending = s.pending) ∧
  (∀ (v : CmdVia) (s : State), s.takesCmd v = true → s.isolated dieC = false → s.resettable = true → RegsWf s.regs → s.seqState ≠
    seqActing → s.pkg_.supplyOut % 32 = 0 → s.resetAlone = true → s.otp.burn = none → s.on HUP_STAT_ON_STORE = false → ∃ u, exec
    (.softReset (.cmd v)) s = .next u ∧ u.pkg = pkgBoot ∧ u.get GLB_RESET_CAUSE = 0x60 ∧ u.get GLB_RESET_RST_CNT = satNat 16 (s.get
    GLB_RESET_RST_CNT + 1) ∧ (∀ r : Fin 24, u.railState r = s.railState r) ∧ (∀ n : Fin 48, u.get (OUT_CTL_EN n) = s.get (OUT_CTL_EN
    n)) ∧ u.host.lastStatus = stOk ∧ u.flash = s.flash ∧ u.otp.fuse = s.otp.fuse ∧ u.pending = s.pending) ∧
  (∀ (p : Path) (w : Word) (s : State), s.takesWrite p ⟨.GLB_CMD, 0, 0, 0⟩ (wordSet w 0 4 8) → s.resettable = true → RegsWf s.regs
    → s.seqState ≠ seqActing → s.pkg_.supplyOut % 32 = 0 → s.resetAlone = true → s.otp.burn = none → s.on HUP_STAT_ON_STORE = false
    → ∃ u, exec (.softReset (.write p w)) s = .next u ∧ u.pkg = pkgBoot ∧ u.get GLB_RESET_CAUSE = 0x61 ∧ (∀ r : Fin 24, u.railState
    r = s.railState r) ∧ (∀ n : Fin 48, u.get (OUT_CTL_EN n) = s.get (OUT_CTL_EN n)) ∧ u.flash = s.flash ∧ u.otp.fuse = s.otp.fuse ∧
    u.pending = s.pending) ∧
  (∀ (v : CmdVia) (s : State), s.takesCmd v = true → s.isolated dieC = false → s.resettable = true → s.otp.burn.isSome = true →
    s.otp.due = none → ∃ u, exec (.softReset (.cmd v)) s = .next u ∧ u.otp.due = some (ResetKind.soft.code, 0x60) ∧ u.pkg = s.pkg ∧
    u.host.lastStatus = stOk ∧ Posts s u (viaEvt v) ∧ Frame s u ([] ++ viaOffs v))

/-- STANDBY_ENTER from RUN leaves STANDBY: every enabled unit that is not kept is disabled, every engine but ENG0 and ENG1 is in reset
and STATE_ENTER is raised. STANDBY_EXIT with nothing to restore and no wake sequence leaves RUN. KEEP_ENTER, where allowed, disables
every unit and shows CHANGING; HK0's stop then leaves KEEP, the Kiln kept. A timer wake boots with 0x71, or waits while VIN is below
7.5 V; a rise of VIN wakes with 0x72, or with 0x71 where a timer waited. The fuses and the queue stay as they are; where a clause
names register spans, no register outside them and the event registers changes. -/
def Obligations.StandbyAndKeep : Prop :=
  (∀ (v : CmdVia) (s : State), s.takesCmd v = true → s.isolated dieC = false → s.pkg = pkgRun → s.on GLB_STATE_CHANGING = false →
    ∃ u, exec (.standbyEnter (.cmd v)) s = .next u ∧ u.pkg = pkgStandby ∧ u.get GLB_STATE_CHANGING = 0 ∧ (∀ n : Fin 48, s.unitOn n =
    true → s.keptUnit n = false → u.get (OUT_CTL_EN n) = 0) ∧ (∀ e : Fin 10, u.get (ENG_STAT_STATE (e + 2)) = engInReset) ∧ u.bit
    GLB_EVT_EVT 5 = true ∧ s.evtSeq < u.evtSeq ∧ u.host.lastStatus = stOk ∧ Within s u (spanGlb ++ spanHost ++ spanMgt ++ spanPlz ++
    spanWork ++ spanDma ++ spanEng)) ∧
  (∀ (p : Path) (w : Word) (s : State), s.takesWrite p ⟨.GLB_CMD, 0, 0, 0⟩ (wordSet w 0 4 2) → ∃ u, exec (.standbyEnter (.write p
    w)) s = .next u ∧ u.pkg = pkgStandby ∧ (∀ n : Fin 48, s.unitOn n = true → s.keptUnit n = false → u.get (OUT_CTL_EN n) = 0) ∧ (∀
    e : Fin 10, u.get (ENG_STAT_STATE (e + 2)) = engInReset) ∧ Within s u (spanGlb ++ spanHost ++ spanMgt ++ spanPlz ++ spanWork ++
    spanDma ++ spanEng)) ∧
  (∀ (v : CmdVia) (s : State), s.takesCmd v = true → s.isolated dieC = false → s.pkg = pkgStandby → s.on GLB_STATE_CHANGING =
    false → s.pkg_.stbyEng = 0 → s.pkg_.stbyLnk = 0 → s.pkg_.stbySyn = 0 → s.pkg_.stbyOut = 0 → s.on GLB_STBY_CTL_WAKE_EN = false →
    ∃ u, exec (.standbyExit (.cmd v)) s = .next u ∧ u.pkg = pkgRun ∧ u.bit GLB_EVT_EVT 5 = true ∧ s.evtSeq < u.evtSeq ∧
    u.host.lastStatus = stOk ∧ Within s u (spanGlb ++ spanHost ++ spanMgt ++ spanPlz ++ spanWork ++ spanDma ++ spanEng)) ∧
  (∀ (p : Path) (w : Word) (s : State), s.takesWrite p ⟨.GLB_CMD, 0, 0, 0⟩ (wordSet w 0 4 1) → s.pkg_.stbyEng = 0 → s.pkg_.stbyLnk
    = 0 → s.pkg_.stbySyn = 0 → s.pkg_.stbyOut = 0 → s.on GLB_STBY_CTL_WAKE_EN = false → ∃ u, exec (.standbyExit (.write p w)) s =
    .next u ∧ u.pkg = pkgRun ∧ u.bit GLB_EVT_EVT 5 = true ∧ s.evtSeq < u.evtSeq ∧ Within s u (spanGlb ++ spanHost ++ spanMgt ++
    spanPlz ++ spanWork ++ spanDma ++ spanEng)) ∧
  (∀ (v : CmdVia) (s : State), s.takesCmd v = true → s.isolated dieC = false → s.on GLB_STATE_CHANGING = false → s.keepOk = true →
    ∃ u, exec (.keepEnter (.cmd v)) s = .next u ∧ u.get GLB_STATE_CHANGING = 1 ∧ u.pkg = s.pkg ∧ u.get HOST_STAT_LINK_UP = 0 ∧ u.get
    HUP_STAT_CHG = chgOff ∧ (∀ n : Fin 48, u.get (OUT_CTL_EN n) = 0 ∧ (u.outOf n).hiZ = true) ∧ (∀ k : Fin 4, u.get (LNK_CTL_EN k) =
    0) ∧ u.host.lastStatus = stOk ∧ Within s u (spanGlb ++ spanHost ++ spanMgt ++ spanKln ++ spanPlz ++ spanWork ++ spanDma ++
    spanEng)) ∧
  (∀ (p : Path) (w : Word) (s : State), s.takesWrite p ⟨.GLB_CMD, 0, 0, 0⟩ (wordSet w 0 4 3) → ∃ u, exec (.keepEnter (.write p w))
    s = .next u ∧ u.get GLB_STATE_CHANGING = 1 ∧ u.pkg = s.pkg ∧ (∀ n : Fin 48, u.get (OUT_CTL_EN n) = 0 ∧ (u.outOf n).hiZ = true) ∧
    Within s u (spanGlb ++ spanHost ++ spanMgt ++ spanKln ++ spanPlz ++ spanWork ++ spanDma ++ spanEng)) ∧
  (∀ (s : State), s.pkg_.keeping = true → RegsWf s.regs → ∃ u, exec (.keepHk0Stop) s = .next u ∧ u.pkg = pkgKeep ∧ u.evtFifo = []
    ∧ u.flash = s.flash ∧ u.otp.fuse = s.otp.fuse ∧ u.pending = s.pending ∧ (∀ j : Fin 256, u.get (KLN_SCR_DATA j) = s.get
    (KLN_SCR_DATA j)) ∧ u.get KLN_WAKE_WAKE_SEC = s.get KLN_WAKE_WAKE_SEC) ∧
  (∀ (s : State), s.pkg_.keeping = false → ∃ u, exec (.keepHk0Stop) s = .next u ∧ u = s) ∧
  (∀ (v : BitVec 16) (s : State), s.pkg = pkgKeep → s.get KLN_WAKE_WAKE_SEC ≠ 0 → s.on KLN_STAT_KEEPER_OK = true → s.pkg_.vinLow =
    false → 7500 ≤ v.toNat → ∃ u, exec (.keepTimerWake v) s = .next u ∧ u.pkg = pkgBoot ∧ u.get GLB_RESET_CAUSE = 0x71 ∧ u.get
    (KLN_HIST_CAUSE 0) = 0x71 ∧ u.get GLB_RESET_RST_CNT = satNat 16 (s.get GLB_RESET_RST_CNT + 1) ∧ u.flash = s.flash ∧ u.otp.fuse =
    s.otp.fuse ∧ u.pending = s.pending) ∧
  (∀ (v : BitVec 16) (s : State), s.pkg = pkgKeep → s.get KLN_WAKE_WAKE_SEC ≠ 0 → s.on KLN_STAT_KEEPER_OK = true → s.pkg_.vinLow =
    true ∨ v.toNat < 7500 → ∃ u, exec (.keepTimerWake v) s = .next u ∧ u.pkg = pkgKeep ∧ u.pkg_.timerDue = true ∧ u.get KLN_TIME_SEC
    = s.wakeTime ∧ Silent s u ∧ Frame s u [Fld.off KLN_TIME_SEC]) ∧
  (∀ (s : State), s.pkg = pkgKeep → ∃ u, exec (.keepVinLow) s = .next u ∧ u.pkg_.vinLow = true ∧ Silent s u ∧ Frame s u []) ∧
  (∀ (s : State), s.pkg = pkgKeep → s.pkg_.vinLow = true → s.pkg_.timerDue = false → s.on KLN_WAKE_VIN_WAKE = true → ∃ u, exec
    (.vinWake) s = .next u ∧ u.pkg = pkgBoot ∧ u.get GLB_RESET_CAUSE = 0x72 ∧ u.flash = s.flash ∧ u.otp.fuse = s.otp.fuse ∧
    u.pending = s.pending) ∧
  (∀ (s : State), s.pkg = pkgKeep → s.pkg_.vinLow = true → s.pkg_.timerDue = true → ∃ u, exec (.vinWake) s = .next u ∧ u.pkg =
    pkgBoot ∧ u.get GLB_RESET_CAUSE = 0x71 ∧ u.flash = s.flash ∧ u.otp.fuse = s.otp.fuse ∧ u.pending = s.pending)

/-- BOOT_BEGIN with every supply in band and no finding in the fuses ends in RUN; with a finding it ends in HELD and records the first
finding's word and cause and their number. Outside BOOT, while a supply is out of band or without the main LO it does nothing.
KEEPER_LOST clears KEEPER_OK, sets KEEPER_LOST and raises its event as the flag becomes 1; KEEPER_RETURN sets KEEPER_OK and begins
the HELD pattern afresh; HELD_BLINK advances it in HELD. The fuses and the queue stay as they are; where a clause names register
spans, no register outside them and the event registers changes. -/
def Obligations.BootAndKeeper : Prop :=
  (∀ (m : BitVec 2) (j : BitVec 24) (x : BitVec 12) (s : State), s.pkg = pkgBoot → s.pkg_.supplyOut % 2 ^ 9 = 0 → s.findings = []
    → 2 ≤ m.toNat → ∃ u, exec (.bootBegin m j x true) s = .next u ∧ u.pkg = pkgRun ∧ u.get MGT_SPI_STAT_JEDEC = j.toNat ∧ s.evtSeq <
    u.evtSeq ∧ u.otp.fuse = s.otp.fuse ∧ u.pending = s.pending) ∧
  (∀ (m : BitVec 2) (j : BitVec 24) (x : BitVec 12) (s : State), s.pkg = pkgBoot → s.pkg_.supplyOut % 2 ^ 9 = 0 → s.findings ≠ []
    → ∃ u, exec (.bootBegin m j x true) s = .next u ∧ u.pkg = pkgHeld ∧ u.get OTP_FAIL_WORD = (s.findings.headD ⟨0, 0⟩).word % 1024
    ∧ u.get OTP_FAIL_CAUSE = (s.findings.headD ⟨0, 0⟩).cause % 8 ∧ u.get OTP_FAIL_NFAIL = s.findings.length % 1024 ∧ u.pkg_.blink =
    0 ∧ s.evtSeq < u.evtSeq ∧ u.otp.fuse = s.otp.fuse ∧ u.pending = s.pending) ∧
  (∀ (m : BitVec 2) (j : BitVec 24) (x : BitVec 12) (lo : Bool) (s : State), s.pkg ≠ pkgBoot ∨ s.pkg_.supplyOut % 2 ^ 9 ≠ 0 ∨ lo =
    false → ∃ u, exec (.bootBegin m j x lo) s = .next u ∧ u = s) ∧
  (∀ (s : State), s.on KLN_STAT_KEEPER_OK = true → s.on KLN_STAT_KEEPER_LOST = false → ∃ u, exec (.keeperLost) s = .next u ∧ u.get
    KLN_STAT_KEEPER_OK = 0 ∧ u.get KLN_STAT_KEEPER_LOST = 1 ∧ u.kilnStale = 15 ∧ u.bit GLB_EVT_EVT 7 = true ∧ Posted s u 0x0E02 0 ∧
    Within s u (spanGlb ++ spanKln)) ∧
  (∀ (s : State), s.on KLN_STAT_KEEPER_OK = true → s.on KLN_STAT_KEEPER_LOST = true → ∃ u, exec (.keeperLost) s = .next u ∧ u.get
    KLN_STAT_KEEPER_OK = 0 ∧ u.get KLN_STAT_KEEPER_LOST = 1 ∧ u.kilnStale = 15 ∧ Silent s u ∧ Frame s u [Fld.off
    KLN_STAT_KEEPER_OK]) ∧
  (∀ (s : State), s.on KLN_STAT_KEEPER_OK = false → ∃ u, exec (.keeperLost) s = .next u ∧ u = s) ∧
  (∀ (s : State), ∃ u, exec (.keeperReturn) s = .next u ∧ u.get KLN_STAT_KEEPER_OK = 1 ∧ u.pkg_.blink = 0 ∧ Silent s u ∧ Frame s u
    [Fld.off KLN_STAT_KEEPER_OK]) ∧
  (∀ (s : State), s.pkg = pkgHeld → s.on KLN_STAT_KEEPER_OK = true → ∃ u, exec (.heldBlink) s = .next u ∧ u.pkg_.blink =
    (s.pkg_.blink + 1) % 16 ∧ Silent s u ∧ Frame s u []) ∧
  (∀ (s : State), s.pkg ≠ pkgHeld → ∃ u, exec (.heldBlink) s = .next u ∧ u = s)

/-- OTP_SHADOW of an allowed word sets its shadow and its override. A clear leaves no override and every shadow as the fuses read. A
taken arm token arms for its writer. An accepted OTP_BURN, by command or write, begins the burn of the word and ends the arm; an
accepted lock begins the region's margin reads. Not armed, a burn completes IGNORED. No fuse changes in any of these. In each clause
no register outside those it names and the event registers changes, nor do the flash, the fuses or the queue. -/
def Obligations.OtpShadowsBurnsAndLocks : Prop :=
  (∀ (v : CmdVia) (a : BitVec 9) (x : Word) (s : State), s.takesCmd v = true → s.shadowOk a.toNat = true → ∃ u, exec (.otpShadow
    (.cmd v) a x) s = .next u ∧ u.get (OTP_SH_VALUE a.toNat) = x.toNat ∧ u.otpOver a.toNat = true ∧ u.host.lastStatus = stOk ∧ Posts
    s u (viaEvt v) ∧ u.otp = s.otp ∧ Within s u (spanGlb ++ spanHost ++ spanMgt ++ spanOtp ++ spanDma)) ∧
  (∀ (p : Path) (a : BitVec 9) (x : Word) (s : State), s.takesWrite p ⟨.OTP_SH, a.toNat, 0, 0⟩ x → ∃ u, exec (.otpShadow (.path p)
    a x) s = .next u ∧ u.get (OTP_SH_VALUE a.toNat) = x.toNat ∧ u.otpOver a.toNat = true ∧ Silent s u ∧ u.otp = s.otp ∧ Within s u
    (spanGlb ++ spanHost ++ spanMgt ++ spanOtp ++ spanDma)) ∧
  (∀ (v : CmdVia) (a : BitVec 9) (x : Word) (s : State), s.takesCmd v = true → a.toNat < 128 → ∃ u, exec (.otpShadow (.cmd v) a x)
    s = .next u ∧ u.host.lastStatus = stIgnored ∧ Posts s u (viaEvt v) ∧ Frame s u (ignoredOffs ++ viaOffs v)) ∧
  (∀ (p : Path) (w : Word) (s : State), s.takesWrite p ⟨.OTP_CMD, 0, 0, 0⟩ (wordSet w 4 1 1) → wordGet w 0 1 = 0 → wordGet w 1 1 =
    0 → ∃ u, exec (.otpShadowClear p w) s = .next u ∧ (∀ j : Fin 16, u.get (OTP_OVR_OVR j) = 0) ∧ (∀ a : Fin 512, u.get
    (OTP_SH_VALUE a) = (otpDecode (s.fuse a).1).data) ∧ Silent s u ∧ u.otp.fuse = s.otp.fuse ∧ Within s u (spanGlb ++ spanHost ++
    spanMgt ++ spanOtp ++ spanDma)) ∧
  (∀ (p : Path) (w : Word) (s : State), s.takesWrite p ⟨.OTP_ARM, 0, 0, 0⟩ w → ∃ u, exec (.otpArm p w) s = .next u ∧ u.otp.arm =
    otpWriter p ∧ u.get OTP_STAT_ARMED = 1 ∧ u.otp.burn = s.otp.burn ∧ Silent s u ∧ Frame s u [Fld.off OTP_STAT_ARMED]) ∧
  (∀ (v : CmdVia) (t : BitVec 16) (a : BitVec 9) (x : Word) (s : State), s.takesCmd v = true → s.isolated dieC = false →
    s.groupBusy grpOtp = false → s.burnOk false a.toNat x.toNat = true → ∃ u, exec (.otpBurn (.cmd v) t a x) s = .next u ∧
    u.otp.burn = some { word := a.toNat, value := x.toNat, cmd := true } ∧ u.otp.arm = none ∧ u.get OTP_STAT_BUSY = 1 ∧ u.otp.fuse =
    s.otp.fuse ∧ u.host.lastStatus = stDeferred ∧ (u.deferOf grpOtp).state = 1 ∧ Silent s u ∧ Within s u (spanGlb ++ spanHost ++
    spanMgt ++ spanOtp ++ spanDma)) ∧
  (∀ (v : CmdVia) (t : BitVec 16) (a : BitVec 9) (x : Word) (s : State), s.takesCmd v = true → s.isolated dieC = false → s.otp.arm
    ≠ some false → ∃ u, exec (.otpBurn (.cmd v) t a x) s = .next u ∧ u.otp = s.otp ∧ u.host.lastStatus = stIgnored ∧ Posts s u
    (viaEvt v) ∧ Frame s u (ignoredOffs ++ viaOffs v)) ∧
  (∀ (p : Path) (t : BitVec 16) (a : BitVec 9) (x w : Word) (s : State), s.takesWrite p ⟨.OTP_CMD, 0, 0, 0⟩ (wordSet w 0 1 1) →
    wordGet w 4 1 = 0 → ∃ u, exec (.otpBurn (.write p w) t a x) s = .next u ∧ u.otp.burn = some
    { word := s.get OTP_BURN_ADDR_WORD, value := s.get OTP_BURN_DATA_VALUE } ∧ u.otp.arm = none ∧ u.get OTP_STAT_BUSY = 1 ∧
    u.otp.fuse = s.otp.fuse ∧ Silent s u ∧ Within s u (spanGlb ++ spanHost ++ spanMgt ++ spanOtp ++ spanDma)) ∧
  (∀ (v : CmdVia) (t : BitVec 16) (r : BitVec 2) (s : State), s.takesCmd v = true → s.isolated dieC = false → s.groupBusy grpOtp =
    false → s.lockOk false r.toNat = true → ∃ u, exec (.commitLock (.cmd v) t r) s = .next u ∧ u.otp.margin = some (r.toNat, true,
    2) ∧ u.otp.arm = none ∧ u.get OTP_STAT_BUSY = 1 ∧ u.otp.fuse = s.otp.fuse ∧ u.host.lastStatus = stDeferred ∧ Silent s u ∧ Within
    s u (spanGlb ++ spanHost ++ spanMgt ++ spanOtp ++ spanDma)) ∧
  (∀ (p : Path) (t : BitVec 16) (r : BitVec 2) (w : Word) (s : State), s.takesWrite p ⟨.OTP_CMD, 0, 0, 0⟩ (wordSet w 1 1 1) →
    wordGet w 4 1 = 0 → ∃ u, exec (.commitLock (.write p w) t r) s = .next u ∧ u.otp.margin = some (wordGet w 2 2, false,
    Machine.Path.source p) ∧ u.otp.arm = none ∧ u.get OTP_STAT_BUSY = 1 ∧ u.otp.fuse = s.otp.fuse ∧ Silent s u ∧ Within s u (spanGlb
    ++ spanHost ++ spanMgt ++ spanOtp ++ spanDma))

/-- After a pulse the row reads as the three reads given. Where both margins show the word, the burn ends with RESULT 1, the pulses used
and OTP_BURNED; where the fourth pulse does not, with RESULT 3 and OTP_BURN_FAIL; before that the burn goes on. Margin reads that
both equal the seal begin the burn of the lock bit in the lock row; otherwise the request is ignored, with RESULT 2. In each clause
no register outside the spans it names and the event registers changes, nor does the queue. -/
def Obligations.OtpPulsesAndMargins : Prop :=
  (∀ (n l h : BitVec 39) (q x k : Nat) (s : State), s.otp.burn = some { word := q, value := x, pulses := k } → s.otp.due = none →
    q < 512 → k < 4 → l.toNat = otpRaw x → h.toNat = otpRaw x → ∃ u, exec (.burnPulseDone n l h) s = .next u ∧ u.otp.burn = none ∧
    u.fuse q = (n.toNat, l.toNat, h.toNat) ∧ u.get OTP_STAT_BUSY = 0 ∧ u.get OTP_STAT_RESULT = 1 ∧ u.get OTP_STAT_PULSES = k + 1 ∧
    u.get OTP_CNT_BURN_CNT = satNat OTP_CNT_BURN_CNT.w (s.get OTP_CNT_BURN_CNT + 1) ∧ Posted s u 0x0D00 0 ∧ RegsWithin s u (spanGlb
    ++ spanHost ++ spanMgt ++ spanOtp ++ spanDma) ∧ u.pending = s.pending ∧ u.flash = s.flash) ∧
  (∀ (n l h : BitVec 39) (q x : Nat) (s : State), s.otp.burn = some { word := q, value := x, pulses := 3 } → s.otp.due = none → q
    < 512 → l.toNat ≠ otpRaw x → ∃ u, exec (.burnPulseDone n l h) s = .next u ∧ u.otp.burn = none ∧ u.fuse q = (n.toNat, l.toNat,
    h.toNat) ∧ u.get OTP_STAT_BUSY = 0 ∧ u.get OTP_STAT_RESULT = 3 ∧ u.get OTP_STAT_PULSES = 4 ∧ Posted s u 0x0D01 0 ∧ RegsWithin s
    u (spanGlb ++ spanHost ++ spanMgt ++ spanOtp ++ spanDma) ∧ u.pending = s.pending ∧ u.flash = s.flash) ∧
  (∀ (n l h : BitVec 39) (q x k : Nat) (s : State), s.otp.burn = some { word := q, value := x, pulses := k } → s.otp.due = none →
    q < 512 → k < 3 → l.toNat ≠ otpRaw x → ∃ u, exec (.burnPulseDone n l h) s = .next u ∧ u.otp.burn = some
    { word := q, value := x, pulses := k + 1 } ∧ u.fuse q = (n.toNat, l.toNat, h.toNat) ∧ (∀ a : Fin 513, a.val ≠ q → u.fuse a =
    s.fuse a) ∧ Silent s u ∧ RegsWithin s u (spanGlb ++ spanHost ++ spanMgt ++ spanOtp ++ spanDma) ∧ u.pending = s.pending ∧ u.flash
    = s.flash) ∧
  (∀ (n l h : BitVec 39) (s : State), s.otp.burn = none → s.otp.due = none → ∃ u, exec (.burnPulseDone n l h) s = .next u ∧ u = s) ∧
  (∀ (r : Fin 4) (c : Bool) (e : Nat) (s : State), s.otp.margin = some (r.val, c, e) → s.otpCrc r 1 = (otpDecode (s.fuse (otpSpan
    r).2).2.1).data → s.otpCrc r 2 = (otpDecode (s.fuse (otpSpan r).2).2.2).data → ∃ u, exec (.lockMarginReadDone) s = .next u ∧
    u.otp.margin = none ∧ u.otp.burn = some
    { word := lockRow, value := bitPut ((s.fuse lockRow).1 % 16) r true, region := some r.val, cmd := c } ∧ u.otp.fuse = s.otp.fuse
    ∧ Silent s u ∧ Frame s u []) ∧
  (∀ (r : Fin 4) (e : Nat) (s : State), s.otp.margin = some (r.val, false, e) → s.otpCrc r 1 ≠ (otpDecode (s.fuse (otpSpan
    r).2).2.1).data → ∃ u, exec (.lockMarginReadDone) s = .next u ∧ u.otp.margin = none ∧ u.otp.burn = s.otp.burn ∧ u.get
    OTP_STAT_BUSY = 0 ∧ u.get OTP_STAT_RESULT = 2 ∧ u.get GLB_IGNORED_CNT_CNT = satNat 32 (s.get GLB_IGNORED_CNT_CNT + 1) ∧ Silent s
    u ∧ RegsWithin s u (spanGlb ++ spanHost ++ spanMgt ++ spanOtp ++ spanDma) ∧ u.pending = s.pending ∧ u.flash = s.flash)

/-- A taken ENG_CTL write with RESET clears HOLD and releases the engine: into its section, at its entry point, where that passes its
CRC and its load copy meets no double-bit error, else into the Bisque image, POISONED; where the class runs no image it starts on
the Bisque image; ENG_RESET is raised. HOLD puts a running engine in reset; its release from that runs it, unless a load or STANDBY
holds it; a halted one stays halted (log entry 159: DESIGN CHOICE). ENG_HALT of a running engine shows HALTED, the cause and the
address, with its event; a double-bit error also raises POISONED; an engine that does not run is not halted. In each clause no
register outside the spans it names and the event registers changes, nor does the queue. -/
def Obligations.EnginesRunAndHalt : Prop :=
  (∀ (p : Path) (e : Fin 12) (x : Bool) (s : State), s.takesWrite p ⟨.ENG_CTL, e, 0, 0⟩ 1 → bankGet s.img (e / 4) = none → ∃ u,
    exec (.engineReset p e x) s = .next u ∧ u.get (ENG_STAT_STATE e) = engRunning ∧ u.get (ENG_CTL_HOLD e) = 0 ∧ u.get
    (ENG_STAT_BISQUE e) = 1 ∧ (s.linked (dieOfEngine e) dieC = true → s.evtSeq < u.evtSeq) ∧ Within s u (spanGlb ++ spanDma ++
    spanEng)) ∧
  (∀ (p : Path) (e : Fin 12) (i : ImgInfo) (x : Bool) (s : State), s.takesWrite p ⟨.ENG_CTL, e, 0, 0⟩ 1 → bankGet s.img (e / 4) =
    some i → s.get (ENG_STAT_BISQUE e) = 0 → s.sectionGood e i.slot = true → x = false → bitOf s.pkg_.loadBad e = false → ∃ u, exec
    (.engineReset p e x) s = .next u ∧ u.get (ENG_STAT_STATE e) = engRunning ∧ u.get (ENG_STAT_BISQUE e) = 0 ∧ u.get
    (ENG_STAT_BISQUE_WHY e) = whyNone ∧ (bankGet u.engMem e).entry = (s.sectionOf e i.slot).entry ∧ (s.linked (dieOfEngine e) dieC =
    true → s.evtSeq < u.evtSeq) ∧ RegsWithin s u (spanGlb ++ spanDma ++ spanEng) ∧ u.pending = s.pending ∧ u.otp.fuse = s.otp.fuse ∧
    u.flash = s.flash) ∧
  (∀ (p : Path) (e : Fin 12) (i : ImgInfo) (x : Bool) (s : State), s.takesWrite p ⟨.ENG_CTL, e, 0, 0⟩ 1 → bankGet s.img (e / 4) =
    some i → s.get (ENG_STAT_BISQUE e) = 0 → x = true ∨ s.sectionGood e i.slot = false → ∃ u, exec (.engineReset p e x) s = .next u
    ∧ u.get (ENG_STAT_STATE e) = engRunning ∧ u.get (ENG_STAT_BISQUE e) = 1 ∧ u.get (ENG_STAT_BISQUE_WHY e) = whyPoisoned ∧
    (s.linked (dieOfEngine e) dieC = true → s.evtSeq < u.evtSeq) ∧ Within s u (spanGlb ++ spanDma ++ spanEng)) ∧
  (∀ (p : Path) (e : Fin 12) (s : State), s.takesWrite p ⟨.ENG_CTL, e, 0, 0⟩ 2 → s.get (ENG_CTL_HOLD e) = 0 → s.get
    (ENG_STAT_STATE e) = engRunning → ∃ u, exec (.engineHold p e) s = .next u ∧ u.get (ENG_STAT_STATE e) = engInReset ∧ u.get
    (ENG_CTL_HOLD e) = 1 ∧ Silent s u ∧ Frame s u [Fld.off (ENG_CTL_HOLD e), Fld.off (ENG_STAT_STATE e)]) ∧
  (∀ (p : Path) (e : Fin 12) (s : State), s.takesWrite p ⟨.ENG_CTL, e, 0, 0⟩ 2 → s.get (ENG_STAT_STATE e) = engHalted → ∃ u, exec
    (.engineHold p e) s = .next u ∧ u.get (ENG_STAT_STATE e) = engHalted ∧ u.get (ENG_CTL_HOLD e) = 1 ∧ Silent s u ∧ Frame s u
    [Fld.off (ENG_CTL_HOLD e)]) ∧
  (∀ (p : Path) (e : Fin 12) (s : State), s.takesWrite p ⟨.ENG_CTL, e, 0, 0⟩ 0 → s.get (ENG_CTL_HOLD e) = 1 → s.get
    (ENG_STAT_STATE e) = engInReset → s.engSuspended e = false → ∃ u, exec (.engineRelease p e) s = .next u ∧ u.get (ENG_STAT_STATE
    e) = engRunning ∧ u.get (ENG_CTL_HOLD e) = 0 ∧ Silent s u ∧ Frame s u [Fld.off (ENG_CTL_HOLD e), Fld.off (ENG_STAT_STATE e)]) ∧
  (∀ (e : Fin 12) (c : BitVec 3) (a : BitVec 17) (s : State), s.get (ENG_STAT_STATE e) = engRunning → c = 3 ∨ c = 4 → ∃ u, exec
    (.engHalt e c a) s = .next u ∧ u.get (ENG_STAT_STATE e) = engHalted ∧ u.get (ENG_STAT_HALT_CAUSE e) = c.toNat ∧ u.get
    (ENG_HALT_ADDR_ADDR e) = a.toNat / 4 * 4 ∧ u.get (ENG_HALT_ADDR_MEM e) = 0 ∧ Posted s u 0x0B00 e ∧ Within s u (spanGlb ++
    spanDma ++ spanEng)) ∧
  (∀ (e : Fin 12) (c : BitVec 3) (a : BitVec 17) (s : State), s.get (ENG_STAT_STATE e) = engRunning → c = 1 ∨ c = 2 → ∃ u, exec
    (.engHalt e c a) s = .next u ∧ u.get (ENG_STAT_STATE e) = engHalted ∧ u.get (ENG_STAT_HALT_CAUSE e) = c.toNat ∧ u.get
    (ENG_HALT_ADDR_ADDR e) = a.toNat / 4 * 4 ∧ u.on (ENG_HALT_ADDR_MEM e) = decide (c = 2) ∧ (s.linked (dieOfEngine e) dieC = true →
    u.bit GLB_EVT_EVT 0 = true) ∧ (s.linked (dieOfEngine e) dieC = true → u.evtSeq = s.evtSeq + 2) ∧ Within s u (spanGlb ++ spanDma
    ++ spanEng)) ∧
  (∀ (e : Fin 12) (c : BitVec 3) (a : BitVec 17) (s : State), s.get (ENG_STAT_STATE e) ≠ engRunning → ∃ u, exec (.engHalt e c a) s
    = .next u ∧ u = s)

/-- An accepted IMAGE_STAGE is deferred with its class and clears STAGED; of no bytes it completes EMPTY and of a class in TRIAL
IGNORED, each with IMAGE_STAGED. It ends POISONED with cause 6 where the slot does not read back and with cause 1 where the header
fails, the slot not in use erased before, STAGED as it was. IMAGE_COMMIT of a TRIAL class, or of a staged one that is compatible, is
deferred; its selector write, which the row may end with (log entry 161: DESIGN CHOICE), turns TRIAL over and holds the class, and
its end completes OK. A health report ends TRIAL and clears TRIES. In each clause no register outside the spans it names and the
event registers changes, nor does the queue. -/
def Obligations.ImagesStagedAndCommitted : Prop :=
  (∀ (v : CmdVia) (t : BitVec 16) (c : BitVec 2) (a : BitVec 48) (l : Word) (s : State), s.takesCmd v = true → c.toNat < 3 →
    s.groupBusy grpImage = false → a.toNat % 4 = 0 → 0 < l.toNat → l.toNat ≤ 2 ^ 20 → v = .ring ∨ 0x700000 ≤ a.toNat → s.get
    (ENG_IMG_STAT_TRIAL c.toNat) = 0 → ∃ u, exec (.imageStage v t c a l) s = .next u ∧ u.host.lastStatus = stDeferred ∧ (u.deferOf
    grpImage).state = 1 ∧ (u.deferOf grpImage).opcode = 0x48 ∧ (u.deferOf grpImage).cls = c.toNat ∧ (u.deferOf grpImage).len =
    l.toNat ∧ u.get (ENG_IMG_STAT_STAGED c.toNat) = 0 ∧ u.flash = s.flash ∧ Silent s u ∧ RegsWithin s u (spanGlb ++ spanHost ++
    spanMgt ++ spanDma ++ spanEng) ∧ u.pending = s.pending ∧ u.otp.fuse = s.otp.fuse) ∧
  (∀ (v : CmdVia) (t : BitVec 16) (c : BitVec 2) (a : BitVec 48) (s : State), s.takesCmd v = true → c.toNat < 3 → s.groupBusy
    grpImage = false → a.toNat % 4 = 0 → ∃ u, exec (.imageStage v t c a 0) s = .next u ∧ u.host.lastStatus = stEmpty ∧ u.bit
    (ENG_IMG_EVT_EVT c.toNat) 3 = true ∧ Posts s u ((0x0B05, c.toNat) :: viaEvt v) ∧ Frame s u (([Fld.off (ENG_IMG_EVT_EVT c.toNat)]
    ++ eventOffs) ++ viaOffs v)) ∧
  (∀ (t : BitVec 16) (c : BitVec 2) (a : BitVec 48) (l : Word) (s : State), s.takesCmd .ring = true → c.toNat < 3 → a.toNat % 4 =
    0 → 0 < l.toNat → s.get (ENG_IMG_STAT_TRIAL c.toNat) = 1 → ∃ u, exec (.imageStage .ring t c a l) s = .next u ∧ u.host.lastStatus
    = stIgnored ∧ u.bit (ENG_IMG_EVT_EVT c.toNat) 3 = true ∧ Posted s u 0x0B05 c.toNat ∧ Frame s u ([Fld.off (ENG_IMG_EVT_EVT
    c.toNat)] ++ ignoredOffs ++ eventOffs)) ∧
  (∀ (l : List Byte) (f : Bool) (c : Fin 3) (s : State), (s.deferOf grpImage).state = 1 → (s.deferOf grpImage).opcode = 0x48 →
    (s.deferOf grpImage).mbx = true → (s.deferOf grpImage).fetched = false → (s.deferOf grpImage).cls = c.val → ∃ u, exec
    (.imageStaged l f false false) s = .next u ∧ (u.deferOf grpImage).state = 0 ∧ u.bit (ENG_IMG_EVT_EVT c) 3 = true ∧ u.flash =
    (slotProgrammed c (s.storeBytes (s.spiAddr (s.deferOf grpImage).ptr) (s.deferOf grpImage).len) s).flash ∧ StageAnswered c
    (slotProgrammed c (s.storeBytes (s.spiAddr (s.deferOf grpImage).ptr) (s.deferOf grpImage).len) s) s u ∧ RegsWithin s u (spanGlb
    ++ spanHost ++ spanMgt ++ spanDma ++ spanEng) ∧ u.pending = s.pending ∧ u.otp.fuse = s.otp.fuse) ∧
  (∀ (l : List Byte) (f : Bool) (c : Nat) (s : State), c < 3 → (s.deferOf grpImage).state = 1 → (s.deferOf grpImage).opcode = 0x48
    → (s.deferOf grpImage).mbx = true → (s.deferOf grpImage).fetched = false → (s.deferOf grpImage).cls = c → ∃ u, exec
    (.imageStaged l f false true) s = .next u ∧ (u.deferOf grpImage).fetched = true ∧ (u.deferOf grpImage).data = s.storeBytes
    (s.spiAddr (s.deferOf grpImage).ptr) (s.deferOf grpImage).len ∧ (u.deferOf grpImage).done = (s.deferOf grpImage).len ∧
    (u.deferOf grpImage).state = 1 ∧ Silent s u ∧ Frame s u []) ∧
  (∀ (l : List Byte) (f : Bool) (c : Nat) (s : State), c < 3 → (s.deferOf grpImage).state = 1 → (s.deferOf grpImage).opcode = 0x48
    → (s.deferOf grpImage).mbx = true → (s.deferOf grpImage).cls = c → ∃ u, exec (.imageStaged l f true false) s = .next u ∧
    (u.deferOf grpImage).state = 0 ∧ u.get MGT_MBX_CTL_STATUS = stPoisoned ∧ u.get MGT_MBX_RES_RESULT = 6 ∧ u.bit (ENG_IMG_EVT_EVT
    c) 3 = true ∧ u.flash = (flashErase (slotBase c (1 - s.get (ENG_IMG_STAT_ACTIVE c))) 0x100000 s).flash ∧ u.get
    (ENG_IMG_STAT_STAGED c) = s.get (ENG_IMG_STAT_STAGED c) ∧ RegsWithin s u (spanGlb ++ spanHost ++ spanMgt ++ spanDma ++ spanEng)
    ∧ u.pending = s.pending ∧ u.otp.fuse = s.otp.fuse) ∧
  (∀ (l : List Byte) (f : Bool) (c : Nat) (s : State), c < 3 → (s.deferOf grpImage).state = 1 → (s.deferOf grpImage).opcode = 0x48
    → (s.deferOf grpImage).mbx = true → (s.deferOf grpImage).cls = c → (s.deferOf grpImage).len = 0 → ∃ u, exec (.imageStaged l f
    false false) s = .next u ∧ (u.deferOf grpImage).state = 0 ∧ u.get MGT_MBX_CTL_STATUS = stPoisoned ∧ u.get MGT_MBX_RES_RESULT = 1
    ∧ u.bit (ENG_IMG_EVT_EVT c) 3 = true ∧ u.get (ENG_IMG_STAT_STAGED c) = s.get (ENG_IMG_STAT_STAGED c) ∧ RegsWithin s u (spanGlb
    ++ spanHost ++ spanMgt ++ spanDma ++ spanEng) ∧ u.pending = s.pending ∧ u.otp.fuse = s.otp.fuse) ∧
  (∀ (v : CmdVia) (t : BitVec 16) (c : BitVec 2) (s : State), s.takesCmd v = true → c.toNat < 3 → s.groupBusy grpImage = false →
    s.get (ENG_IMG_STAT_TRIAL c.toNat) = 1 → ∃ u, exec (.imageCommit v t c) s = .next u ∧ u.host.lastStatus = stDeferred ∧
    (u.deferOf grpImage).state = 1 ∧ (u.deferOf grpImage).opcode = 0x49 ∧ (u.deferOf grpImage).cls = c.toNat ∧ Silent s u ∧ Frame s
    u ([] ++ viaOffs v)) ∧
  (∀ (v : CmdVia) (t : BitVec 16) (c : BitVec 2) (i : ImgInfo) (s : State), s.takesCmd v = true → c.toNat < 3 → s.groupBusy
    grpImage = false → s.get (ENG_IMG_STAT_TRIAL c.toNat) = 0 → s.get (ENG_IMG_STAT_STAGED c.toNat) = 1 → bankGet s.stg c.toNat =
    some i → (decideClass s c.toNat i).1 = 0 → ∃ u, exec (.imageCommit v t c) s = .next u ∧ u.host.lastStatus = stDeferred ∧
    (u.deferOf grpImage).opcode = 0x49 ∧ (u.deferOf grpImage).cls = c.toNat ∧ Silent s u ∧ Frame s u ([] ++ viaOffs v)) ∧
  (∀ (v : CmdVia) (t : BitVec 16) (c : BitVec 2) (s : State), s.takesCmd v = true → s.get (ENG_IMG_STAT_TRIAL c.toNat) = 0 →
    bankGet s.stg c.toNat = none → ∃ u, exec (.imageCommit v t c) s = .next u ∧ u.host.lastStatus = stIgnored ∧ Posts s u (viaEvt v)
    ∧ Frame s u (ignoredOffs ++ viaOffs v)) ∧
  (∀ (x : BitVec 12) (c : Nat) (s : State), c < 3 → (s.deferOf grpImage).state = 1 → (s.deferOf grpImage).opcode = 0x49 →
    (s.deferOf grpImage).mbx = true → (s.deferOf grpImage).loading = false → (s.deferOf grpImage).cls = c → ∃ u, exec
    (.imageCommitted x false) s = .next u ∧ (u.deferOf grpImage).state = 0 ∧ u.get MGT_MBX_CTL_STATUS = stOk ∧ u.on
    (ENG_IMG_STAT_TRIAL c) = !(s.deferOf grpImage).back ∧ u.bit (ENG_IMG_EVT_EVT c) 4 = true ∧ s.evtSeq < u.evtSeq ∧ RegsWithin s u
    (spanGlb ++ spanHost ++ spanMgt ++ spanDma ++ spanEng ++ spanKln) ∧ u.pending = s.pending ∧ u.otp.fuse = s.otp.fuse) ∧
  (∀ (x : BitVec 12) (c : Nat) (s : State), c < 3 → (s.deferOf grpImage).state = 1 → (s.deferOf grpImage).opcode = 0x49 →
    (s.deferOf grpImage).loading = false → (s.deferOf grpImage).cls = c → ∃ u, exec (.imageCommitted x true) s = .next u ∧
    (u.deferOf grpImage).state = 1 ∧ (u.deferOf grpImage).loading = true ∧ u.classLoading c = true ∧ u.on (ENG_IMG_STAT_TRIAL c) =
    !(s.deferOf grpImage).back ∧ u.tries c = 0 ∧ (∀ e ∈ classEngines c, u.get (ENG_STAT_STATE e) = engInReset ∧ u.get (ENG_CTL_HOLD
    e) = 0) ∧ RegsWithin s u (spanGlb ++ spanHost ++ spanMgt ++ spanDma ++ spanEng ++ spanKln) ∧ u.pending = s.pending ∧ u.otp.fuse
    = s.otp.fuse) ∧
  (∀ (p : Path) (c : Fin 3) (w : Word) (s : State), s.takesWrite p ⟨.ENG_HEALTH, c, 0, 0⟩ w → ∃ u, exec (.imageHealthy p c w) s =
    .next u ∧ u.get (ENG_IMG_STAT_TRIAL c) = 0 ∧ u.get (ENG_IMG_STAT_TRIES c) = 0 ∧ u.tries c = 0 ∧ u.bit (ENG_IMG_EVT_EVT c) 5 =
    true ∧ Posted s u 0x0B07 c ∧ RegsWithin s u (spanGlb ++ spanHost ++ spanMgt ++ spanDma ++ spanEng ++ spanKln) ∧ u.pending =
    s.pending ∧ u.otp.fuse = s.otp.fuse)

/-- A taken write that raises EN enters IDLE with no descriptor; one that clears it enters DISABLED. A taken doorbell publishes its
index. DMA_RESUME of a FAULTED channel enters ACTIVE, of a HALTED one IDLE, of another completes IGNORED. DMA_ABORT without a burst
in flight enters HALTED with DMA_HALT; with one it waits for the bursts. A request of a bound live channel with an offered
descriptor is queued; of one that is not live it is counted as missed; of an unbound line it is dropped. In each clause no register
outside those it names and the event registers changes, nor do the flash, the fuses or the queue. -/
def Obligations.DmaChannelsStartAndStop : Prop :=
  (∀ (p : Path) (ch : Fin 32) (w : Word) (s : State), s.takesWrite p ⟨.DMA_CCTL, ch, 0, 0⟩ (wordSet w 0 1 1) → s.get (DMA_CCTL_EN
    ch) = 0 → ∃ u, exec (.dmaEnable p ch w) s = .next u ∧ u.get (DMA_CCTL_EN ch) = 1 ∧ u.chState ch = chIdle ∧ u.get (DMA_STAT_CIDX
    ch) = 0 ∧ (u.dmaOf ch).cur = none ∧ (u.dmaOf ch).reqs = [] ∧ (u.dmaOf ch).prod = 0 ∧ Silent s u ∧ Within s u (spanGlb ++
    spanHost ++ spanMgt ++ spanLnk ++ spanDma ++ spanEng)) ∧
  (∀ (p : Path) (ch : Fin 32) (w : Word) (s : State), s.takesWrite p ⟨.DMA_CCTL, ch, 0, 0⟩ (wordSet w 0 1 0) → s.get (DMA_CCTL_EN
    ch) = 1 → ∃ u, exec (.dmaDisable p ch w) s = .next u ∧ u.get (DMA_CCTL_EN ch) = 0 ∧ u.chState ch = chDisabled ∧ (u.dmaOf ch).cur
    = none ∧ (u.dmaOf ch).bursts = [] ∧ Silent s u ∧ Within s u (spanGlb ++ spanHost ++ spanMgt ++ spanLnk ++ spanDma ++ spanEng)) ∧
  (∀ (p : Path) (ch : Fin 32) (w : Word) (s : State), s.takesWrite p ⟨.DMA_DB, ch, 0, 0⟩ w → ∃ u, exec (.dmaDoorbell p ch w) s =
    .next u ∧ (u.dmaOf ch).prod = wordGet w 0 16 ∧ (u.dmaOf ch).stalled = false ∧ u.chState ch = s.chState ch ∧ Silent s u ∧ Frame s
    u []) ∧
  (∀ (v : CmdVia) (ch : Fin 32) (s : State), s.takesCmd v = true → s.hostOwned ch = decide (v = .ring) → s.chState ch = chHalted →
    ∃ u, exec (.dmaResume (.cmd v) ch) s = .next u ∧ u.chState ch = chIdle ∧ u.get (DMA_STAT_CAUSE ch) = 0 ∧ u.host.lastStatus =
    stOk ∧ Posts s u (viaEvt v) ∧ Within s u (spanGlb ++ spanHost ++ spanMgt ++ spanLnk ++ spanDma ++ spanEng)) ∧
  (∀ (v : CmdVia) (ch : Fin 32) (s : State), s.takesCmd v = true → s.hostOwned ch = decide (v = .ring) → s.chState ch = chFaulted
    → ∃ u, exec (.dmaResume (.cmd v) ch) s = .next u ∧ u.chState ch = chActive ∧ u.get (DMA_STAT_CAUSE ch) = 0 ∧ ((u.dmaOf ch).rest
    = none ∨ (s.dmaOf ch).cur = none) ∧ u.host.lastStatus = stOk ∧ Posts s u (viaEvt v) ∧ Within s u (spanGlb ++ spanHost ++ spanMgt
    ++ spanLnk ++ spanDma ++ spanEng)) ∧
  (∀ (ch : Fin 32) (s : State), s.takesCmd .ring = true → s.chState ch ≠ chFaulted → s.chState ch ≠ chHalted → ∃ u, exec
    (.dmaResume (.cmd .ring) ch) s = .next u ∧ u.dma = s.dma ∧ u.host.lastStatus = stIgnored ∧ Silent s u ∧ Frame s u ignoredOffs) ∧
  (∀ (p : Path) (ch : Fin 32) (s : State), s.takesWrite p ⟨.DMA_CMD, ch, 0, 0⟩ 1 → s.chState ch = chHalted → ∃ u, exec (.dmaResume
    (.path p) ch) s = .next u ∧ u.chState ch = chIdle ∧ u.get (DMA_STAT_CAUSE ch) = 0 ∧ Silent s u ∧ Within s u (spanGlb ++ spanHost
    ++ spanMgt ++ spanLnk ++ spanDma ++ spanEng)) ∧
  (∀ (v : CmdVia) (ch : Fin 32) (s : State), s.takesCmd v = true → s.hostOwned ch = decide (v = .ring) → s.chState ch = chActive →
    (s.dmaOf ch).bursts = [] → (s.dmaOf ch).abort = none → ∃ u, exec (.dmaAbort (.cmd v) ch) s = .next u ∧ u.chState ch = chHalted ∧
    (u.dmaOf ch).cur = none ∧ (u.dmaOf ch).reqs = [] ∧ (u.get (DMA_STAT_LAST ch) = if (s.dmaOf ch).cur.isSome then 6 else s.get
    (DMA_STAT_LAST ch)) ∧ u.bit (DMA_EVT_EVT ch) 1 = true ∧ u.host.lastStatus = stOk ∧ Posts s u ((0x0A01, ch) :: viaEvt v) ∧ Within
    s u (spanGlb ++ spanHost ++ spanMgt ++ spanLnk ++ spanDma ++ spanEng)) ∧
  (∀ (v : CmdVia) (ch : Fin 32) (s : State), s.takesCmd v = true → s.hostOwned ch = decide (v = .ring) → s.chState ch = chActive →
    (s.dmaOf ch).bursts ≠ [] → (s.dmaOf ch).abort = none → ∃ u, exec (.dmaAbort (.cmd v) ch) s = .next u ∧ u.chState ch = chActive ∧
    (u.dmaOf ch).abort = some 6 ∧ (u.dmaOf ch).bursts = (s.dmaOf ch).bursts ∧ u.host.lastStatus = stOk ∧ Posts s u (viaEvt v) ∧
    Within s u (spanGlb ++ spanHost ++ spanMgt ++ spanLnk ++ spanDma ++ spanEng)) ∧
  (∀ (p : Path) (ch : Fin 32) (s : State), s.takesWrite p ⟨.DMA_CMD, ch, 0, 0⟩ 2 → s.chState ch = chFaulted → ∃ u, exec (.dmaAbort
    (.path p) ch) s = .next u ∧ u.chState ch = chHalted ∧ (u.dmaOf ch).cur = none ∧ (u.get (DMA_STAT_LAST ch) = if (s.dmaOf
    ch).cur.isSome then 4 else s.get (DMA_STAT_LAST ch)) ∧ u.bit (DMA_EVT_EVT ch) 1 = true ∧ Posted s u 0x0A01 ch ∧ Within s u
    (spanGlb ++ spanHost ++ spanMgt ++ spanLnk ++ spanDma ++ spanEng)) ∧
  (∀ (l : Fin 26) (ch : Fin 32) (s : State), s.lineWait.toList.getD l 0 ≠ 0 → s.boundTo l = some ch.val → s.chState ch = chIdle ∨
    s.chState ch = chActive → s.get (DMA_CCTL_RMODE ch) = 0 → (s.dmaOf ch).abort = none → (s.dmaOf ch).cur = none → (s.dmaOf
    ch).reqs.length < 16 → s.offered ch ≠ 0 → ∃ u, exec (.dmaRequest l) s = .next u ∧ (u.dmaOf ch).reqs.length = (s.dmaOf
    ch).reqs.length + 1 ∧ u.chState ch = chActive ∧ u.lineWait.toList.getD l 0 = s.lineWait.toList.getD l 0 - 1 ∧ Silent s u ∧
    Within s u (spanGlb ++ spanHost ++ spanMgt ++ spanLnk ++ spanDma ++ spanEng)) ∧
  (∀ (l : Fin 26) (ch : Fin 32) (s : State), s.lineWait.toList.getD l 0 ≠ 0 → s.boundTo l = some ch.val → s.chState ch ≠ chIdle →
    s.chState ch ≠ chActive → ∃ u, exec (.dmaRequest l) s = .next u ∧ u.get (DMA_REQCNT_MISS_CNT ch) = satNat 16 (s.get
    (DMA_REQCNT_MISS_CNT ch) + 1) ∧ (u.dmaOf ch).reqs = (s.dmaOf ch).reqs ∧ u.lineWait.toList.getD l 0 = s.lineWait.toList.getD l 0
    - 1 ∧ Within s u (spanGlb ++ spanHost ++ spanMgt ++ spanLnk ++ spanDma ++ spanEng)) ∧
  (∀ (l : Fin 26) (s : State), s.lineWait.toList.getD l 0 ≠ 0 → s.boundTo l = none → ∃ u, exec (.dmaRequest l) s = .next u ∧ u.dma
    = s.dma ∧ u.lineWait.toList.getD l 0 = s.lineWait.toList.getD l 0 - 1 ∧ Silent s u ∧ Within s u (spanGlb ++ spanHost ++ spanMgt
    ++ spanLnk ++ spanDma ++ spanEng)) ∧
  (∀ (l : Fin 26) (s : State), s.lineWait.toList.getD l 0 = 0 → ∃ u, exec (.dmaRequest l) s = .next u ∧ u = s)

/-- A fetched descriptor with OWN 0 leaves the channel IDLE, waiting for a doorbell; one met by a double-bit error is written back
POISONED and counted, one that fails its check IGNORED, one of no bytes EMPTY; a good one is taken up, and faults where its table
runs beyond the reach; a ring entry beyond its memory faults. The arbiter's channel gets a burst from where its grants stand; with
no channel ready nothing happens. A linear burst between host addresses that completes writes its bytes in order at the destination
and ends the descriptor with status 0 where it was the last. A burst's fault enters FAULTED with its cause, address and event, and
so does the fault of a fetch. In each clause no register outside the spans it names and the event registers changes, nor does the
queue. -/
def Obligations.DmaDescriptorsAndBursts : Prop :=
  (∀ (ch : Fin 32) (h e t : List Word) (x : Option (Fin 16)) (s : State), s.mayFetch ch = true → s.ringFault ch = none →
    s.descInHand ch (s.descAt ch h e t) = true → Desc.own (h.getD 0 0) = false → ∃ u, exec (.descriptorFetch ch x h e t) s = .next u
    ∧ u.chState ch = chIdle ∧ (u.dmaOf ch).cur = none ∧ (u.dmaOf ch).stalled = true ∧ u.get (DMA_STAT_CIDX ch) = s.get
    (DMA_STAT_CIDX ch) ∧ u.sent = s.sent ∧ Silent s u ∧ RegsWithin s u (spanGlb ++ spanHost ++ spanMgt ++ spanLnk ++ spanDma ++
    spanEng) ∧ u.pending = s.pending ∧ u.otp.fuse = s.otp.fuse ∧ u.flash = s.flash) ∧
  (∀ (ch : Fin 32) (h e t : List Word) (x : Option (Fin 16)) (s : State), s.mayFetch ch = false → ∃ u, exec (.descriptorFetch ch x
    h e t) s = .next u ∧ u = s) ∧
  (∀ (ch : Fin 32) (h e t : List Word) (f : XFault) (x : Option (Fin 16)) (s : State), s.mayFetch ch = true → s.ringFault ch =
    some f → ∃ u, exec (.descriptorFetch ch x h e t) s = .next u ∧ u.chState ch = chFaulted ∧ u.get (DMA_STAT_CAUSE ch) = 2 ∧ u.get
    (DMA_FCNT_FAULT_CNT ch) = satNat 16 (s.get (DMA_FCNT_FAULT_CNT ch) + 1) ∧ u.bit (DMA_EVT_EVT ch) 0 = true ∧ Posted s u 0x0A00 ch
    ∧ RegsWithin s u (spanGlb ++ spanHost ++ spanMgt ++ spanLnk ++ spanDma ++ spanEng) ∧ u.pending = s.pending ∧ u.otp.fuse =
    s.otp.fuse ∧ u.flash = s.flash) ∧
  (∀ (ch : Fin 32) (h e t : List Word) (w : Fin 16) (s : State), s.mayFetch ch = true → s.ringFault ch = none → s.descInHand ch
    (s.descAt ch h e t) = true → Desc.own ((s.descAt ch h e t).w 0) = true → (extended ((s.descAt ch h e t).w 0) = true → Desc.own
    ((s.descAt ch h e t).x 0) = true) → (s.descAt ch h e t).irq = false → ∃ u, exec (.descriptorFetch ch (some w) h e t) s = .next u
    ∧ (u.dmaOf ch).cur = none ∧ u.get (DMA_STAT_LAST ch) = 3 ∧ u.get (DMA_RESID_RESID ch) = (s.descAt ch h e t).total % 2 ^ 32 ∧
    u.get (DMA_STAT_CIDX ch) = (s.get (DMA_STAT_CIDX ch) + if extended ((s.descAt ch h e t).w 0) then 2 else 1) % s.ringSize ch % 2
    ^ 16 ∧ u.get (DMA_FCNT_POISON_CNT ch) = satNat 16 (s.get (DMA_FCNT_POISON_CNT ch) + 1) ∧ (s.hostOwned ch = true → s.on
    MGT_I3C_STAT_IBI_EN = false → u.sent.length = s.sent.length + if extended ((s.descAt ch h e t).w 0) then 2 else 1) ∧ u.bit
    GLB_EVT_EVT 0 = true ∧ Posted s u 0x0000 dieC ∧ RegsWithin s u (spanGlb ++ spanHost ++ spanMgt ++ spanLnk ++ spanDma ++ spanEng)
    ∧ u.pending = s.pending ∧ u.otp.fuse = s.otp.fuse ∧ u.flash = s.flash) ∧
  (∀ (ch : Fin 32) (h e t : List Word) (s : State), s.mayFetch ch = true → s.ringFault ch = none → s.descInHand ch (s.descAt ch h
    e t) = true → Desc.own ((s.descAt ch h e t).w 0) = true → (extended ((s.descAt ch h e t).w 0) = true → Desc.own ((s.descAt ch h
    e t).x 0) = true) → s.descOk ch (s.descAt ch h e t) = false → (s.descAt ch h e t).irq = false → ∃ u, exec (.descriptorFetch ch
    none h e t) s = .next u ∧ (u.dmaOf ch).cur = none ∧ u.get (DMA_STAT_LAST ch) = 1 ∧ u.get (DMA_STAT_CIDX ch) = (s.get
    (DMA_STAT_CIDX ch) + if extended ((s.descAt ch h e t).w 0) then 2 else 1) % s.ringSize ch % 2 ^ 16 ∧ u.get GLB_IGNORED_CNT_CNT =
    satNat 32 (s.get GLB_IGNORED_CNT_CNT + 1) ∧ u.get GLB_IGNORED_LAST_S_SOURCE = 9 ∧ Silent s u ∧ RegsWithin s u (spanGlb ++
    spanHost ++ spanMgt ++ spanLnk ++ spanDma ++ spanEng) ∧ u.pending = s.pending ∧ u.otp.fuse = s.otp.fuse ∧ u.flash = s.flash) ∧
  (∀ (ch : Fin 32) (h e t : List Word) (s : State), s.mayFetch ch = true → s.ringFault ch = none → s.descInHand ch (s.descAt ch h
    e t) = true → Desc.own ((s.descAt ch h e t).w 0) = true → (extended ((s.descAt ch h e t).w 0) = true → Desc.own ((s.descAt ch h
    e t).x 0) = true) → s.descOk ch (s.descAt ch h e t) = true → (s.descAt ch h e t).total = 0 → (s.descAt ch h e t).irq = false → ∃
    u, exec (.descriptorFetch ch none h e t) s = .next u ∧ (u.dmaOf ch).cur = none ∧ u.get (DMA_STAT_LAST ch) = 2 ∧ u.get
    (DMA_RESID_RESID ch) = 0 ∧ u.get (DMA_STAT_CIDX ch) = (s.get (DMA_STAT_CIDX ch) + if extended ((s.descAt ch h e t).w 0) then 2
    else 1) % s.ringSize ch % 2 ^ 16 ∧ Silent s u ∧ RegsWithin s u (spanGlb ++ spanHost ++ spanMgt ++ spanLnk ++ spanDma ++ spanEng)
    ∧ u.pending = s.pending ∧ u.otp.fuse = s.otp.fuse ∧ u.flash = s.flash) ∧
  (∀ (ch : Fin 32) (h e t : List Word) (f : XFault) (s : State), s.mayFetch ch = true → s.ringFault ch = none → s.descInHand ch
    (s.descAt ch h e t) = true → Desc.own ((s.descAt ch h e t).w 0) = true → (extended ((s.descAt ch h e t).w 0) = true → Desc.own
    ((s.descAt ch h e t).x 0) = true) → s.descOk ch (s.descAt ch h e t) = true → (s.descAt ch h e t).total ≠ 0 → s.tableFault ch
    (s.descAt ch h e t) = some f → ∃ u, exec (.descriptorFetch ch none h e t) s = .next u ∧ u.chState ch = chFaulted ∧ u.get
    (DMA_STAT_CAUSE ch) = 3 ∧ (u.dmaOf ch).cur = some (s.descAt ch h e t) ∧ u.get (DMA_RESID_RESID ch) = (s.descAt ch h e t).total %
    2 ^ 32 ∧ u.get (DMA_FCNT_FAULT_CNT ch) = satNat 16 (s.get (DMA_FCNT_FAULT_CNT ch) + 1) ∧ Posted s u 0x0A00 ch ∧ RegsWithin s u
    (spanGlb ++ spanHost ++ spanMgt ++ spanLnk ++ spanDma ++ spanEng) ∧ u.pending = s.pending ∧ u.otp.fuse = s.otp.fuse ∧ u.flash =
    s.flash) ∧
  (∀ (ch : Fin 32) (h e t : List Word) (s : State), s.mayFetch ch = true → s.ringFault ch = none → s.descInHand ch (s.descAt ch h
    e t) = true → Desc.own ((s.descAt ch h e t).w 0) = true → (extended ((s.descAt ch h e t).w 0) = true → Desc.own ((s.descAt ch h
    e t).x 0) = true) → s.lineOf ch = none → s.descOk ch (s.descAt ch h e t) = true → (s.descAt ch h e t).total ≠ 0 → s.tableFault
    ch (s.descAt ch h e t) = none → (s.dmaOf ch).reqs = [] → ∃ u, exec (.descriptorFetch ch none h e t) s = .next u ∧ (u.dmaOf
    ch).cur = some (s.descAt ch h e t) ∧ u.chState ch = chActive ∧ u.get (DMA_STAT_CIDX ch) = s.get (DMA_STAT_CIDX ch) ∧ u.get
    (DMA_RESID_RESID ch) = (s.descAt ch h e t).total % 2 ^ 32 ∧ u.sent = s.sent ∧ Silent s u ∧ RegsWithin s u (spanGlb ++ spanHost
    ++ spanMgt ++ spanLnk ++ spanDma ++ spanEng) ∧ u.pending = s.pending ∧ u.otp.fuse = s.otp.fuse ∧ u.flash = s.flash) ∧
  (∀ (ch : Fin 32) (d : Desc) (s : State), s.arbiter = some ch.val → s.inFlight < 32 → (s.dmaOf ch).cur = some d → s.lineOf ch =
    none → ∃ u, exec (.burstGrant) s = .next u ∧ (u.dmaOf ch).cur = some { d with granted := d.granted + s.burstLen ch d } ∧
    (u.dmaOf ch).bursts.length = (s.dmaOf ch).bursts.length + 1 ∧ bankGet u.rr (s.get (DMA_CCTL_PRIO ch)) = ch ∧ Silent s u ∧
    RegsWithin s u (spanGlb ++ spanHost ++ spanMgt ++ spanLnk ++ spanDma ++ spanEng) ∧ u.pending = s.pending ∧ u.otp.fuse =
    s.otp.fuse ∧ u.flash = s.flash) ∧
  (∀ (s : State), s.arbiter = none → ∃ u, exec (.burstGrant) s = .next u ∧ u = s) ∧
  (∀ (ch : Fin 32) (d : Desc) (k : Burst) (x : List Byte) (s : State), s.lineOf ch = none → s.hostOwned ch = true → (s.dmaOf
    ch).cur = some d → (s.dmaOf ch).abort = none → s.chState ch = chActive → d.pat = 0 → d.shuf = 0 → d.base false < 2 ^ 48 → d.base
    true < 2 ^ 48 → (s.dmaOf ch).bursts = [k] → k.need = [] → k.bad = none → k.data = none → k.off + k.len < d.total → 0 < k.len →
    d.base true + d.total ≤ 2 ^ 48 → ∃ u, exec (.burstComplete ch x none) s = .next u ∧ (u.dmaOf ch).cur = some
    { d with done := k.off + k.len } ∧ (u.dmaOf ch).bursts = [] ∧ u.sent = s.sent ++ [.host (s.get (DMA_CCTL_XCTX ch)) (d.base true
    + k.off) (bytesAt x 0 k.len)] ∧ u.chState ch = chActive ∧ Silent s u ∧ RegsWithin s u (spanGlb ++ spanHost ++ spanMgt ++ spanLnk
    ++ spanDma ++ spanEng) ∧ u.pending = s.pending ∧ u.otp.fuse = s.otp.fuse ∧ u.flash = s.flash) ∧
  (∀ (ch : Fin 32) (d : Desc) (k : Burst) (x : List Byte) (s : State), s.lineOf ch = none → s.hostOwned ch = true → (s.dmaOf
    ch).cur = some d → (s.dmaOf ch).abort = none → s.chState ch = chActive → d.pat = 0 → d.shuf = 0 → d.base false < 2 ^ 48 → d.base
    true < 2 ^ 48 → (s.dmaOf ch).bursts = [k] → k.need = [] → k.bad = none → k.data = none → k.off + k.len = d.total → 0 < k.len →
    d.bad = false → extended (d.w 0) = false → ∃ u, exec (.burstComplete ch x none) s = .next u ∧ (u.dmaOf ch).cur = none ∧ u.get
    (DMA_STAT_LAST ch) = 0 ∧ u.get (DMA_RESID_RESID ch) = 0 ∧ u.get (DMA_STAT_CIDX ch) = (d.idx + 1) % s.ringSize ch % 2 ^ 16 ∧
    Silent s u ∧ RegsWithin s u (spanGlb ++ spanHost ++ spanMgt ++ spanLnk ++ spanDma ++ spanEng) ∧ u.pending = s.pending ∧
    u.otp.fuse = s.otp.fuse ∧ u.flash = s.flash) ∧
  (∀ (ch : Fin 32) (d : Desc) (f : XFault) (k : Burst) (l : List Burst) (x : List Byte) (h e : List Word) (s : State), s.lineOf ch
    = none → s.hostOwned ch = true → (s.dmaOf ch).cur = some d → (s.dmaOf ch).abort = none → s.chState ch = chActive → d.pat = 0 →
    d.shuf = 0 → d.base false < 2 ^ 48 → d.base true < 2 ^ 48 → (s.dmaOf ch).bursts = k :: l → k.need = [] → k.bad = some f → k.data
    = none → f.off = k.off → f.cause = 4 → ∃ u, exec (.dmaFault ch x none h e) s = .next u ∧ u.chState ch = chFaulted ∧ u.get
    (DMA_STAT_CAUSE ch) = 4 ∧ (u.dmaOf ch).bursts = [] ∧ (u.dmaOf ch).cur = some { d with done := k.off, granted := k.off } ∧ u.get
    (DMA_FCNT_FAULT_CNT ch) = satNat 16 (s.get (DMA_FCNT_FAULT_CNT ch) + 1) ∧ u.bit (DMA_EVT_EVT ch) 0 = true ∧ Posted s u 0x0A00 ch
    ∧ RegsWithin s u (spanGlb ++ spanHost ++ spanMgt ++ spanLnk ++ spanDma ++ spanEng) ∧ u.pending = s.pending ∧ u.otp.fuse =
    s.otp.fuse ∧ u.flash = s.flash) ∧
  (∀ (ch : Fin 32) (x : List Byte) (k : Fin 3) (a : BitVec 48) (y : Fin 5) (z : Fin 4) (h e : List Word) (s : State), s.mayFetch
    ch = true → s.hostOwned ch = true → s.get (DMA_CCTL_XCTX ch) < 16 → s.fetchAt ch k a.toNat (s.descAt ch h e []) = true →
    s.translate (s.get (DMA_CCTL_XCTX ch)) (a.toNat / 4096) 0 ≠ some none → ∃ u, exec (.dmaFault ch x (some (k, a, y, z)) h e) s =
    .next u ∧ u.chState ch = chFaulted ∧ (u.get (DMA_STAT_CAUSE ch) = if k.val = 2 then 3 else 2) ∧ u.get (DATU_FINFO_PEND (s.get
    (DMA_CCTL_XCTX ch))) = 1 ∧ u.bit (DMA_EVT_EVT ch) 0 = true ∧ Posted s u 0x0A00 ch ∧ RegsWithin s u (spanGlb ++ spanHost ++
    spanMgt ++ spanLnk ++ spanDma ++ spanEng) ∧ u.pending = s.pending ∧ u.otp.fuse = s.otp.fuse ∧ u.flash = s.flash)

/-- A host-port walk whose first entry is not present records the address and the fault and ends; an entry that names a table starts a
walk one level down at that table, counted as a miss; each entry is read at its nine bits of the address, and a read elsewhere
changes nothing. A readable leaf that ends a read walk fills the IOTLB and the walk leaves. A taken DATU_INV becomes the
invalidation in progress with INV_BUSY; once no walk it names remains it removes every entry, or its context's, and INV_BUSY clears.
In each clause no register outside those it names and the event registers changes, nor do the flash, the fuses or the queue. -/
def Obligations.DatuWalksAndInvalidation : Prop :=
  (∀ (x : Fin 16) (a : BitVec 48) (k : Fin 3) (e : BitVec 64) (z : BitVec 52) (s : State), s.on (DATU_CCTL_EN x) = true →
    s.tlbFind x (a.toNat / 4096) = none → (∀ v ∈ s.walks, ¬(v.host = true ∧ v.ctx = x.val ∧ v.page = a.toNat / 4096 ∧ v.kind =
    k.val)) →
    ({ host := true, ctx := x.val, page := a.toNat / 4096, kind := k.val, level := 4, base := 4096 * (s.get (DATU_ROOT_LO_ROOT x) + 2 ^ 20 * s.get (DATU_ROOT_HI_ROOT x)) }
    : Walk).entry a.toNat = z.toNat → bitOf e.toNat 0 = false → ∃ u, exec (.walkReadDone true x a k z e false) s = .next u ∧ u.walks
    = s.walks ∧ u.iotlb = s.iotlb ∧ u.get (DATU_FINFO_PEND x) = 1 ∧ u.get (DATU_FINFO_CAUSE x) = xNotPresent ∧ u.get
    (DATU_FINFO_LEVEL x) = 3 ∧ u.get (DATU_FADDR_LO_IOVA x) = a.toNat % 2 ^ 32 ∧ u.get (DATU_CCTL_FCNT x) = satNat 16 (s.get
    (DATU_CCTL_FCNT x) + 1) ∧ Posted s u 0x0A00 0 ∧ Within s u spanDma) ∧
  (∀ (x : Fin 16) (a : BitVec 48) (k : Fin 3) (e : BitVec 64) (z : BitVec 52) (s : State), s.on (DATU_CCTL_EN x) = true →
    s.tlbFind x (a.toNat / 4096) = none → (∀ v ∈ s.walks, ¬(v.host = true ∧ v.ctx = x.val ∧ v.page = a.toNat / 4096 ∧ v.kind =
    k.val)) →
    ({ host := true, ctx := x.val, page := a.toNat / 4096, kind := k.val, level := 4, base := 4096 * (s.get (DATU_ROOT_LO_ROOT x) + 2 ^ 20 * s.get (DATU_ROOT_HI_ROOT x)) }
    : Walk).entry a.toNat = z.toNat → bitOf e.toNat 0 = true → pteReserved e.toNat 4 = false → ∃ u, exec (.walkReadDone true x a k z
    e false) s = .next u ∧ u.walks = s.walks ++
    [{ host := true, ctx := x.val, page := a.toNat / 4096, kind := k.val, level := 3, base := e.toNat / 2 ^ 12 % 2 ^ 40 * 2 ^ 12 }]
    ∧ u.iotlb = s.iotlb ∧ u.get DATU_CNT_MISS_CNT = satNat DATU_CNT_MISS_CNT.w (s.get DATU_CNT_MISS_CNT + 1) ∧ Silent s u ∧ Frame s
    u [Fld.off DATU_CNT_MISS_CNT]) ∧
  (∀ (x : Fin 16) (a : BitVec 48) (e : BitVec 64) (w : Walk) (z : BitVec 52) (s : State), s.walks = [w] → w.host = true → w.ctx =
    x.val → w.page = a.toNat / 4096 → w.kind = 0 → w.level = 1 → w.entry a.toNat = z.toNat → bitOf e.toNat 0 = true → bitOf e.toNat
    1 = true → pteReserved e.toNat 1 = false → s.iotlb.length < 256 → ∃ u, exec (.walkReadDone true x a 0 z e false) s = .next u ∧
    u.walks = [] ∧ u.iotlb = s.iotlb ++
    [{ ctx := x.val, page := a.toNat / 4096, big := false, frame := e.toNat / 2 ^ 12 % 2 ^ 40, r := true, w := bitOf e.toNat 2, xn := bitOf e.toNat 3 }]
    ∧ u.get DATU_STAT_VALID = s.iotlb.length + 1 ∧ Silent s u ∧ Frame s u [Fld.off DATU_STAT_VALID]) ∧
  (∀ (x : Fin 16) (a : BitVec 48) (k : Fin 3) (e : BitVec 64) (z : BitVec 52) (f : Bool) (s : State), s.on (DATU_CCTL_EN x) = true
    → s.tlbFind x (a.toNat / 4096) = none → (∀ v ∈ s.walks, ¬(v.host = true ∧ v.ctx = x.val ∧ v.page = a.toNat / 4096 ∧ v.kind =
    k.val)) →
    ({ host := true, ctx := x.val, page := a.toNat / 4096, kind := k.val, level := 4, base := 4096 * (s.get (DATU_ROOT_LO_ROOT x) + 2 ^ 20 * s.get (DATU_ROOT_HI_ROOT x)) }
    : Walk).entry a.toNat ≠ z.toNat → ∃ u, exec (.walkReadDone true x a k z e f) s = .next u ∧ u = s) ∧
  (∀ (p : Path) (w : Word) (s : State), s.takesWrite p ⟨.DATU_INV, 0, 0, 0⟩ (wordSet w 0 1 1) → ∃ u, exec (.datuInv p w) s = .next
    u ∧ u.inv = some (wordGet w 1 2, wordGet w 4 4, s.get DATU_INV_ADDR_LO_IOVA + 2 ^ 20 * s.get DATU_INV_ADDR_HI_IOVA) ∧ u.get
    DATU_STAT_INV_BUSY = 1 ∧ u.iotlb = s.iotlb ∧ Silent s u ∧ Frame s u [Fld.off DATU_STAT_INV_BUSY]) ∧
  (∀ (x g : Nat) (s : State), s.inv = some (0, x, g) → s.walks = [] → ∃ u, exec (.datuInvDone) s = .next u ∧ u.iotlb = [] ∧ u.inv
    = none ∧ u.get DATU_STAT_VALID = 0 ∧ u.get DATU_STAT_INV_BUSY = 0 ∧ Silent s u ∧ Frame s u [Fld.off DATU_STAT_VALID]) ∧
  (∀ (x g : Nat) (s : State), s.inv = some (1, x, g) → s.walks = [] → ∃ u, exec (.datuInvDone) s = .next u ∧ u.iotlb =
    s.iotlb.filter (fun e => e.ctx ≠ x) ∧ u.inv = none ∧ u.get DATU_STAT_INV_BUSY = 0 ∧ Silent s u ∧ Frame s u [Fld.off
    DATU_STAT_VALID]) ∧
  (∀ (x g : Nat) (s : State), s.inv = some (0, x, g) → s.walks ≠ [] → ∃ u, exec (.datuInvDone) s = .next u ∧ u = s)

/-- A taken write that raises EN starts a DISABLED port TRAINING; one with EN = 0 leaves it DISABLED. A TRAINING port with its link
supply in band that has seen 64 valid headers sends HELLO in five cells, and on a good HELLO goes UP, records the peer and posts
LINK_UP; otherwise neither does anything. A link loss of an UP port of a detached hub returns it to TRAINING, counts it, clears
FLOCK, DVALID and the offer, and posts LINK_DOWN. A gate within FTOL that completes QUAL sets FLOCK; one beyond FTOL clears it; a
DISABLED port judges none. In each clause no register outside those it names and the event registers changes, nor do the flash, the
fuses or the queue. -/
def Obligations.LinkPortsTrainRiseAndFall : Prop :=
  (∀ (p : Path) (k : Fin 4) (w : Word) (s : State), s.takesWrite p ⟨.LNK_CTL, k, 0, 0⟩ (wordSet w 0 1 1) → s.lnkState k =
    lnkDisabled → ∃ u, exec (.linkEnable p k w) s = .next u ∧ u.get (LNK_CTL_EN k) = 1 ∧ u.lnkState k = lnkTraining ∧ Silent s u ∧
    Frame s u [Fld.off (LNK_CTL_EN k), Fld.off (LNK_STAT_STATE k)]) ∧
  (∀ (p : Path) (k : Fin 4) (w : Word) (s : State), s.takesWrite p ⟨.LNK_CTL, k, 0, 0⟩ (wordSet w 0 1 0) → s.lnkState k =
    lnkTraining → ∃ u, exec (.linkDisable p k w) s = .next u ∧ u.get (LNK_CTL_EN k) = 0 ∧ u.lnkState k = lnkDisabled ∧ u.get
    (LNK_STAT_FLOCK k) = 0 ∧ u.get (LNK_STAT_DVALID k) = 0 ∧ (u.lnkOf k).offer = none ∧ Silent s u ∧ Frame s u [Fld.off (LNK_CTL_EN
    k), Fld.off (LNK_STAT_STATE k), Fld.off (LNK_CNT_MSG_DROP k)]) ∧
  (∀ (p : Path) (k : Fin 4) (w : Word) (s : State), s.takesWrite p ⟨.LNK_CTL, k, 0, 0⟩ (wordSet w 0 1 0) → s.lnkState k = lnkUp →
    ∃ u, exec (.linkDisable p k w) s = .next u ∧ u.get (LNK_CTL_EN k) = 0 ∧ u.lnkState k = lnkDisabled ∧ u.get (LNK_STAT_DOWN_CNT k)
    = s.get (LNK_STAT_DOWN_CNT k) ∧ u.get (LNK_STAT_FLOCK k) = 0 ∧ u.get (LNK_STAT_DVALID k) = 0 ∧ (u.lnkOf k).offer = none ∧ u.bit
    (LNK_EVT_EVT k) 1 = true ∧ s.evtSeq < u.evtSeq ∧ Within s u (spanPlz ++ spanLnk)) ∧
  (∀ (k : Fin 4) (s : State), s.lnkState k = lnkTraining → (s.lnkOf k).good = 64 → s.portPowered k = true → (s.lnkOf k).tx = [] →
    s.isolated (dieOfPort k) = false → ∃ u, exec (.helloSend k) s = .next u ∧ u.sent = s.sent ++ (List.range 5).map (fun i =>
    s.cellOut i k (if i = 0 then cellFirst else if i = 4 then cellLast else cellMid) (bytesAt (message kindHello 0 allHubs s.hubId
    (natBytes 1 k.val)) (6 * i) 6)) ∧ Silent s u ∧ Frame s u []) ∧
  (∀ (k : Fin 4) (s : State), s.lnkState k ≠ lnkTraining ∨ (s.lnkOf k).good ≠ 64 ∨ s.portPowered k = false → ∃ u, exec (.helloSend
    k) s = .next u ∧ u = s) ∧
  (∀ (k : Fin 4) (peer : BitVec 64) (port : Byte) (s : State), s.lnkState k = lnkTraining → (s.lnkOf k).good = 64 → s.portPowered
    k = true → s.isolated (dieOfPort k) = false → ∃ u, exec (.linkUp k peer port) s = .next u ∧ u.lnkState k = lnkUp ∧ u.peerId k =
    peer.toNat ∧ (u.lnkOf k).peerPort = port.toNat ∧ u.bit (LNK_EVT_EVT k) 0 = true ∧ Posted s u 0x0800 k ∧ Frame s u ([Fld.off
    (LNK_PEER_LO_ID k), Fld.off (LNK_PEER_HI_ID k), Fld.off (LNK_EVT_EVT k)] ++ ((List.range 4).flatMap (fun j => [Fld.off
    (LNK_STAT_STATE j), Fld.off (LNK_OFR_LAT_ACC_LAT j), Fld.off (LNK_OFR_PH_ACC_PH j)])) ++ eventOffs)) ∧
  (∀ (k : Fin 4) (peer : BitVec 64) (port : Byte) (s : State), s.lnkState k ≠ lnkTraining ∨ (s.lnkOf k).good ≠ 64 ∨ s.portPowered
    k = false → ∃ u, exec (.linkUp k peer port) s = .next u ∧ u = s) ∧
  (∀ (k : Fin 4) (s : State), s.lnkState k = lnkUp → s.sysState = sysDetached → s.on (LNK_STAT_FLOCK k) = false → ∃ u, exec
    (.linkDown k) s = .next u ∧ u.lnkState k = lnkTraining ∧ u.get (LNK_STAT_DOWN_CNT k) = satNat 16 (s.get (LNK_STAT_DOWN_CNT k) +
    1) ∧ u.get (LNK_STAT_DVALID k) = 0 ∧ (u.lnkOf k).offer = none ∧ (u.lnkOf k).good = 0 ∧ u.bit (LNK_EVT_EVT k) 1 = true ∧ Posted s
    u 0x0801 k ∧ Frame s u ([Fld.off (LNK_CNT_MSG_DROP k), Fld.off (LNK_EVT_EVT k)] ++ ((List.range 4).flatMap (fun j => [Fld.off
    (LNK_STAT_STATE j), Fld.off (LNK_OFR_LAT_ACC_LAT j), Fld.off (LNK_OFR_PH_ACC_PH j)])) ++ eventOffs)) ∧
  (∀ (k : Fin 4) (s : State), s.lnkState k ≠ lnkUp → ∃ u, exec (.linkDown k) s = .next u ∧ u = s) ∧
  (∀ (k : Fin 4) (fofs : Word) (s : State), s.lnkState k = lnkUp → s.isolated (dieOfPort k) = false → withinLimit fofs.toInt
    (s.get (LNK_FQ_FTOL k)) = true → s.on (LNK_STAT_FLOCK k) = false → s.get (LNK_FQ_QUAL k) ≤ (s.lnkOf k).qualRun + 1 → (s.lnkOf
    k).qualRun < 65535 → ∃ u, exec (.linkFreqGate k fofs) s = .next u ∧ u.get (LNK_STAT_FLOCK k) = 1 ∧ u.get (LNK_FOFS_FOFS k) =
    fofs.toNat ∧ (u.lnkOf k).qualRun = (s.lnkOf k).qualRun + 1 ∧ u.bit (LNK_EVT_EVT k) 2 = true ∧ Posted s u 0x0802 k ∧ Frame s u
    ([Fld.off (LNK_STAT_FLOCK k), Fld.off (LNK_FOFS_FOFS k), Fld.off (LNK_EVT_EVT k)] ++ eventOffs)) ∧
  (∀ (k : Fin 4) (fofs : Word) (s : State), s.lnkState k = lnkUp → s.isolated (dieOfPort k) = false → withinLimit fofs.toInt
    (s.get (LNK_FQ_FTOL k)) = false → s.on (LNK_STAT_FLOCK k) = true → ∃ u, exec (.linkFreqGate k fofs) s = .next u ∧ u.get
    (LNK_STAT_FLOCK k) = 0 ∧ u.get (LNK_FOFS_FOFS k) = fofs.toNat ∧ (u.lnkOf k).qualRun = 0 ∧ u.bit (LNK_EVT_EVT k) 3 = true ∧
    Posted s u 0x0803 k ∧ Within s u (spanPlz ++ spanLnk)) ∧
  (∀ (k : Fin 4) (fofs : Word) (s : State), s.lnkState k = lnkDisabled → ∃ u, exec (.linkFreqGate k fofs) s = .next u ∧ u = s)

/-- With a valid epoch MARK_SEND sends a MARK of the next SEQ and MARK_RX returns the arrival stamp in a MARK_ECHO. An echo of the own
mark adds one exchange; the last of an average shows d_in and theta and sets DVALID. Without an epoch no mark leaves and the third
missing exchange clears DVALID. EPOCH of the time region's die counts the seconds, and applies a written time with TOD_SET posted. A
TIME cell leaves with the next second, and one from the uplink is loaded for the next epoch. Payloads are descrambled; a cell with a
bad CRC-8 is counted, eight bad headers of 64 are a link loss, a good first cell starts a message; a whole good one-hop message is
consumed, a bad one counted as dropped; a message that stops is dropped. In each clause no register outside those it names and the
event registers changes, nor do the flash, the fuses or the queue. -/
def Obligations.LinkMarksTimeAndMessages : Prop :=
  (∀ (k : Fin 4) (ofs : BitVec 40) (s : State), s.portUp k = true → s.portEpoch k = true → s.markSlot k ofs.toNat < 2 ^ s.get
    (LNK_MARK_RATE k) → (s.lnkOf k).slot ≠ some (s.markSlot k ofs.toNat) → ∃ u, exec (.markSend k ofs) s = .next u ∧ u.sent = s.sent
    ++ [s.cellOut 0 k cellMark (natBytes 1 (s.lnkOf k).txSeq ++ natBytes 5 ofs.toNat)] ∧ (u.lnkOf k).slot = some (s.markSlot k
    ofs.toNat) ∧ (u.lnkOf k).txSeq = ((s.lnkOf k).txSeq + 1) % 256 ∧ (u.lnkOf k).own = some ((s.lnkOf k).txSeq, ofs.toNat) ∧ Silent
    s u ∧ Frame s u []) ∧
  (∀ (k : Fin 4) (ofs : BitVec 40) (s : State), s.portUp k = true → s.portEpoch k = true → (s.lnkOf k).slot = some (s.markSlot k
    ofs.toNat) → ∃ u, exec (.markSend k ofs) s = .next u ∧ u = s) ∧
  (∀ (k : Fin 4) (ofs : BitVec 40) (s : State), s.portUp k = true → s.portEpoch k = false → ∃ u, exec (.markSend k ofs) s = .next
    u ∧ (u.sent = s.sent ∨ (s.lnkOf k).missing ≥ 2) ∧ (u.lnkOf k).missing = min 3 ((s.lnkOf k).missing + 1) ∧ ((s.lnkOf k).missing =
    2 → u.get (LNK_STAT_DVALID k) = 0) ∧ Within s u (spanPlz ++ spanLnk)) ∧
  (∀ (k : Fin 4) (seq : Byte) (ofs arr : BitVec 40) (s : State), s.portUp k = true → s.portEpoch k = true → ∃ u, exec (.markRx k
    seq ofs arr) s = .next u ∧ u.sent = s.sent ++ [s.cellOut 0 k cellEcho (natBytes 1 seq.toNat ++ natBytes 5 arr.toNat)] ∧ (u.lnkOf
    k).peerMark = some (ofs.toNat, arr.toNat) ∧ Silent s u ∧ Frame s u []) ∧
  (∀ (k : Fin 4) (seq : Byte) (ofs arr : BitVec 40) (s : State), s.portUp k = false ∨ s.portEpoch k = false → ∃ u, exec (.markRx k
    seq ofs arr) s = .next u ∧ u = s) ∧
  (∀ (k : Fin 4) (seq : Byte) (arr : BitVec 40) (ofs pofs parr : Nat) (s : State), (s.lnkOf k).own = some (seq.toNat, ofs) →
    (s.lnkOf k).peerMark = some (pofs, parr) → s.portUp k = true → s.portEpoch k = true → (s.lnkOf k).cnt + 1 < 2 ^ s.get
    (LNK_MARK_AVG k) → ∃ u, exec (.markEchoRx k seq arr) s = .next u ∧ (u.lnkOf k).cnt = (s.lnkOf k).cnt + 1 ∧ (u.lnkOf k).sumD =
    (s.lnkOf k).sumD + (wrapPs ((parr : Int) - pofs)) + (wrapPs ((arr.toNat : Int) - ofs)) + s.getS (LNK_ASYM_ASYM k) ∧ (u.lnkOf
    k).sumT = (s.lnkOf k).sumT + ((wrapPs ((arr.toNat : Int) - ofs)) - (wrapPs ((parr : Int) - pofs))) + s.getS (LNK_ASYM_ASYM k) ∧
    (u.lnkOf k).own = none ∧ Silent s u ∧ Frame s u []) ∧
  (∀ (k : Fin 4) (seq : Byte) (arr : BitVec 40) (ofs pofs parr : Nat) (s : State), (s.lnkOf k).own = some (seq.toNat, ofs) →
    (s.lnkOf k).peerMark = some (pofs, parr) → s.portUp k = true → s.portEpoch k = true → 2 ^ s.get (LNK_MARK_AVG k) ≤ (s.lnkOf
    k).cnt + 1 → ∃ u, exec (.markEchoRx k seq arr) s = .next u ∧ u.get (LNK_DLY_D_IN k) = ofSigned 32 (roundDivInt ((s.lnkOf k).sumD
    + (wrapPs ((parr : Int) - pofs)) + (wrapPs ((arr.toNat : Int) - ofs)) + s.getS (LNK_ASYM_ASYM k)) (2 * ((s.lnkOf k).cnt + 1))) ∧
    u.get (LNK_THETA_THETA k) = ofSigned 32 (roundDivInt ((s.lnkOf k).sumT + ((wrapPs ((arr.toNat : Int) - ofs)) - (wrapPs ((parr :
    Int) - pofs))) + s.getS (LNK_ASYM_ASYM k)) (2 * ((s.lnkOf k).cnt + 1))) ∧ u.get (LNK_STAT_DVALID k) = 1 ∧ (u.lnkOf k).cnt = 0 ∧
    Within s u (spanPlz ++ spanLnk)) ∧
  (∀ (d : Fin 2) (s : State), s.epochOk d = true → d.val = s.get LNK_SYS_CTL_TIME_TRG / 2 → s.sys.todSet = none → ∃ u, exec
    (.epoch d) s = .next u ∧ u.getWide LNK_TOD_LO_SEC LNK_TOD_HI_SEC = s.nextTod % 2 ^ 48 ∧ u.sys.todNext = none ∧ (u.lnkOf (2 *
    d)).slot = none ∧ (u.lnkOf (2 * d + 1)).timeSent = false ∧ Silent s u ∧ Frame s u [Fld.off LNK_TOD_LO_SEC, Fld.off
    LNK_TOD_HI_SEC]) ∧
  (∀ (d : Fin 2) (v : Nat) (s : State), s.epochOk d = true → d.val = s.get LNK_SYS_CTL_TIME_TRG / 2 → s.sys.todSet = some v → ∃ u,
    exec (.epoch d) s = .next u ∧ u.getWide LNK_TOD_LO_SEC LNK_TOD_HI_SEC = v % 2 ^ 48 ∧ u.sys.todSet = none ∧ u.bit LNK_SYS_EVT_EVT
    5 = true ∧ Posted s u 0x0809 0 ∧ Frame s u ([Fld.off LNK_TOD_LO_SEC, Fld.off LNK_TOD_HI_SEC, Fld.off LNK_SYS_EVT_EVT] ++
    eventOffs)) ∧
  (∀ (d : Fin 2) (s : State), s.epochOk d = false → ∃ u, exec (.epoch d) s = .next u ∧ u = s) ∧
  (∀ (d : Fin 2) (s : State), s.epochOk d = true → d.val ≠ s.get LNK_SYS_CTL_TIME_TRG / 2 → ∃ u, exec (.epoch d) s = .next u ∧
    (u.lnkOf (2 * d)).slot = none ∧ (u.lnkOf (2 * d + 1)).timeSent = false ∧ u.sys = s.sys ∧ Silent s u ∧ Frame s u []) ∧
  (∀ (p : Path) (w : Word) (s : State), s.takesWrite p ⟨.LNK_TOD_SET_HI, 0, 0, 0⟩ w → ∃ u, exec (.todSet p w) s = .next u ∧
    u.sys.todSet = some (s.get LNK_TOD_SET_LO_SEC + 2 ^ 32 * wordGet w 0 16) ∧ s.sysState = sysGm ∧ Silent s u ∧ Frame s u [Fld.off
    LNK_TOD_SET_HI_SEC]) ∧
  (∀ (k : Fin 4) (s : State), s.portUp k = true → s.portEpoch k = true → (s.lnkOf k).timeSent = false → ∃ u, exec (.timeCellSend
    k) s = .next u ∧ u.sent = s.sent ++ [s.cellOut 0 k cellTime (natBytes 6 s.nextTod)] ∧ (u.lnkOf k).timeSent = true ∧ Silent s u ∧
    Frame s u []) ∧
  (∀ (k : Fin 4) (s : State), (s.lnkOf k).timeSent = true → ∃ u, exec (.timeCellSend k) s = .next u ∧ u = s) ∧
  (∀ (k : Fin 4) (sec : BitVec 48) (s : State), s.portUp k = true → s.sysState = sysJoined → s.uplink = some k.val → ∃ u, exec
    (.timeCellRx k sec) s = .next u ∧ u.sys.todNext = some sec.toNat ∧ u.sent = s.sent ++ (((List.range 4).filter (fun j => s.portUp
    j && s.get (LNK_STAT_ROLE j) = roleDownlink)).zipIdx).map (fun x => s.cellOut x.2 x.1 cellTime (natBytes 6 sec.toNat)) ∧ Silent
    s u ∧ Frame s u []) ∧
  (∀ (k : Fin 4) (sec : BitVec 48) (s : State), s.sysState ≠ sysJoined ∨ s.uplink ≠ some k.val → ∃ u, exec (.timeCellRx k sec) s =
    .next u ∧ u = s) ∧
  (∀ (k : Fin 4) (line : BitVec 64) (s : State), s.lnkState k ≠ lnkDisabled → s.isolated (dieOfPort k) = false → s.lnkState k ≠
    lnkUp ∨ badHeaders ((s.lnkOf k).badHdr <<< 1) < 8 → crc8 (bytesAt (natBytes 8 (descramble (s.lnkOf k).rxLine.toNat
    line.toNat).2) 0 7) ≠ ((natBytes 8 (descramble (s.lnkOf k).rxLine.toNat line.toNat).2).getD 7 0).toNat → ((natBytes 8
    (descramble (s.lnkOf k).rxLine.toNat line.toNat).2).getD 0 0).toNat = cellMark → ∃ u, exec (.cellRx k 1 line) s = .next u ∧
    u.get (LNK_CNT_CRC_ERR k) = satNat 16 (s.get (LNK_CNT_CRC_ERR k) + 1) ∧ (u.lnkOf k).good = min 64 ((s.lnkOf k).good + 1) ∧
    Silent s u ∧ Frame s u [Fld.off (LNK_CNT_CRC_ERR k)]) ∧
  (∀ (k : Fin 4) (line : BitVec 64) (s : State), s.lnkState k ≠ lnkDisabled → s.isolated (dieOfPort k) = false → crc8 (bytesAt
    (natBytes 8 (descramble (s.lnkOf k).rxLine.toNat line.toNat).2) 0 7) = ((natBytes 8 (descramble (s.lnkOf k).rxLine.toNat
    line.toNat).2).getD 7 0).toNat → ((natBytes 8 (descramble (s.lnkOf k).rxLine.toNat line.toNat).2).getD 0 0).toNat = cellFirst →
    (s.lnkOf k).cells = [] → (s.lnkOf k).fwd = [] → ∃ u, exec (.cellRx k 1 line) s = .next u ∧ (u.lnkOf k).cells = [bytesAt
    (natBytes 8 (descramble (s.lnkOf k).rxLine.toNat line.toNat).2) 1 6] ∧ (u.lnkOf k).whole = false ∧ u.sent = s.sent ∧ Silent s u
    ∧ Frame s u []) ∧
  (∀ (k : Fin 4) (p : BitVec 64) (s : State), s.lnkState k ≠ lnkDisabled → s.isolated (dieOfPort k) = false → crc8 (bytesAt
    (natBytes 8 p.toNat) 0 7) = ((natBytes 8 p.toNat).getD 7 0).toNat → ((natBytes 8 p.toNat).getD 0 0).toNat = cellFirst → (s.lnkOf
    k).cells = [] → (s.lnkOf k).fwd = [] → ∃ u, exec (.cellRx k 1 (BitVec.ofNat 64 (scramble (s.lnkOf k).rxLine.toNat p.toNat).2)) s
    = .next u ∧ (u.lnkOf k).cells = [bytesAt (natBytes 8 p.toNat) 1 6] ∧ (u.lnkOf k).rxLine.toNat = (scramble (s.lnkOf
    k).rxLine.toNat p.toNat).1 ∧ Within s u (spanPlz ++ spanLnk)) ∧
  (∀ (k : Fin 4) (line : BitVec 64) (s : State), s.lnkState k ≠ lnkDisabled → s.isolated (dieOfPort k) = false → ∃ u, exec
    (.cellRx k 2 line) s = .next u ∧ (u.lnkOf k).good = min 64 ((s.lnkOf k).good + 1) ∧ (u.lnkOf k).rxLine.toNat = (descramble
    (s.lnkOf k).rxLine.toNat line.toNat).1 ∧ Silent s u ∧ Frame s u []) ∧
  (∀ (k : Fin 4) (h : BitVec 2) (line : BitVec 64) (s : State), s.lnkState k = lnkUp → s.isolated (dieOfPort k) = false → h = 0 ∨
    h = 3 → 8 ≤ badHeaders ((s.lnkOf k).badHdr <<< 1 ||| 1) → ∃ u, exec (.cellRx k h line) s = .next u ∧ u.lnkState k = lnkTraining
    ∧ u.get (LNK_STAT_DOWN_CNT k) = satNat 16 (s.get (LNK_STAT_DOWN_CNT k) + 1) ∧ u.get (LNK_CNT_CRC_ERR k) = satNat 16 (s.get
    (LNK_CNT_CRC_ERR k) + 1) ∧ (u.lnkOf k).good = 0 ∧ u.bit (LNK_EVT_EVT k) 1 = true ∧ Within s u (spanPlz ++ spanLnk)) ∧
  (∀ (k : Fin 4) (s : State), (s.lnkOf k).whole = true → treeKind ((s.lnkOf k).cells.flatten.getD 0 0).toNat = false → messageGood
    (s.lnkOf k).cells.flatten = true → ∃ u, exec (.messageRx k) s = .next u ∧ (u.lnkOf k).cells = [] ∧ (u.lnkOf k).whole = false ∧
    Silent s u ∧ Frame s u []) ∧
  (∀ (k : Fin 4) (s : State), (s.lnkOf k).whole = true → treeKind ((s.lnkOf k).cells.flatten.getD 0 0).toNat = false → messageGood
    (s.lnkOf k).cells.flatten = false → ∃ u, exec (.messageRx k) s = .next u ∧ (u.lnkOf k).cells = [] ∧ u.get (LNK_CNT_MSG_DROP k) =
    satNat 16 (s.get (LNK_CNT_MSG_DROP k) + 1) ∧ Silent s u ∧ Frame s u [Fld.off (LNK_CNT_MSG_DROP k)]) ∧
  (∀ (k : Fin 4) (s : State), (s.lnkOf k).whole = false → (s.lnkOf k).cells ≠ [] → ∃ u, exec (.messageTimeout k) s = .next u ∧
    (u.lnkOf k).cells = [] ∧ u.get (LNK_CNT_MSG_DROP k) = satNat 16 (s.get (LNK_CNT_MSG_DROP k) + 1) ∧ Silent s u ∧ Frame s u
    [Fld.off (LNK_CNT_MSG_DROP k)]) ∧
  (∀ (k : Fin 4) (s : State), (s.lnkOf k).whole = true → ∃ u, exec (.messageTimeout k) s = .next u ∧ u = s)

/-- LINK_JOIN takes a DETACHED hub to LISTENING, and elsewhere completes IGNORED. At the end of the listen period a candidate without an
offer becomes GM and posts GM_CHANGE and JOINED; a hub that is no candidate takes the best offer, JOINED or REFUSED by the budget
check; one with neither listens again. A grandmaster's ANNOUNCE counts its sequence and shows itself with no hop. An ANNOUNCE on an
UP port is its offer, a REVERSE one is none. A hub whose last counting offer expires goes back to LISTENING. LINK_LEAVE ends in
DETACHED with no system choice and posts LEFT. In each clause no register outside those it names and the event registers changes,
nor do the flash, the fuses or the queue. -/
def Obligations.SystemElection : Prop :=
  (∀ (v : CmdVia) (s : State), s.takesCmd v = true → s.isolated dieC = false → s.sysState = sysDetached → ∃ u, exec (.linkJoin v)
    s = .next u ∧ u.sysState = sysListening ∧ u.get LNK_SYS_CTL_JOIN = 1 ∧ u.host.lastStatus = stOk ∧ Posts s u (viaEvt v) ∧ Frame s
    u (([Fld.off LNK_SYS_CTL_JOIN, Fld.off LNK_SYS_STAT_STATE] ++ ((List.range 4).flatMap (fun j => [Fld.off (LNK_STAT_STATE j),
    Fld.off (LNK_OFR_LAT_ACC_LAT j), Fld.off (LNK_OFR_PH_ACC_PH j)]))) ++ viaOffs v)) ∧
  (∀ (v : CmdVia) (s : State), s.takesCmd v = true → s.isolated dieC = false → s.sysState ≠ sysDetached → ∃ u, exec (.linkJoin v)
    s = .next u ∧ u.sysState = s.sysState ∧ u.host.lastStatus = stIgnored ∧ u.get GLB_IGNORED_CNT_CNT = satNat 32 (s.get
    GLB_IGNORED_CNT_CNT + 1) ∧ Posts s u (viaEvt v) ∧ Frame s u (ignoredOffs ++ viaOffs v)) ∧
  (∀ (s : State), s.sysState = sysListening → s.bestOffer = none → s.on LNK_SYS_CTL_CAND = true → ∃ u, exec (.listenEnd) s = .next
    u ∧ u.sysState = sysGm ∧ u.gmId = s.hubId ∧ u.get LNK_SYS_STAT_CAUSE = 0 ∧ u.get LNK_SYS_STAT_HOPS = 0 ∧ u.get
    LNK_ACC_LAT_ACC_LAT = 0 ∧ u.bit LNK_SYS_EVT_EVT 3 = true ∧ u.bit LNK_SYS_EVT_EVT 0 = true ∧ u.evtSeq = s.evtSeq + 2 ∧ Within s u
    (spanPlz ++ spanLnk)) ∧
  (∀ (k : Nat) (o : Offer) (s : State), s.sysState = sysListening → s.bestOffer = some (k, o) → s.on LNK_SYS_CTL_CAND = false → ∃
    u, exec (.listenEnd) s = .next u ∧ u.sysState = (if budgetCause o (s.afterHop k o).1 (s.afterHop k o).2.1 (s.afterHop k o).2.2 =
    0 then sysJoined else sysRefused) ∧ u.get LNK_SYS_STAT_CAUSE = budgetCause o (s.afterHop k o).1 (s.afterHop k o).2.1 (s.afterHop
    k o).2.2 ∧ u.get LNK_SYS_STAT_UPL_VALID = 1 ∧ u.get LNK_SYS_STAT_UPLINK = k % 4 ∧ u.evtSeq = s.evtSeq + 1 ∧ Within s u (spanPlz
    ++ spanLnk)) ∧
  (∀ (s : State), s.sysState = sysListening → s.bestOffer = none → s.on LNK_SYS_CTL_CAND = false → ∃ u, exec (.listenEnd) s =
    .next u ∧ u = s) ∧
  (∀ (s : State), s.sysState = sysGm → ∃ u, exec (.announceOriginate) s = .next u ∧ u.sys.gmSeq = (s.sys.gmSeq + 1) % 2 ^ 16 ∧
    u.gmId = s.hubId ∧ u.get LNK_SYS_STAT_HOPS = 0 ∧ u.get LNK_ACC_LAT_ACC_LAT = 0 ∧ u.get LNK_ACC_PH_ACC_PH = s.get
    LNK_SRC_ERR_SRC_ERR ∧ u.sysState = sysGm ∧ (∀ k : Fin 4, s.portUp k = true → (s.lnkOf k).tx = [] → s.isolated (dieOfPort k) =
    false → (u.sent.drop s.sent.length).any (Emit.begins k kindAnnounce) = true) ∧ Silent s u ∧ Within s u (spanPlz ++ spanLnk)) ∧
  (∀ (s : State), s.sysState ≠ sysGm → ∃ u, exec (.announceOriginate) s = .next u ∧ u = s) ∧
  (∀ (k : Fin 4) (gm : BitVec 64) (prio1 prio2 : Byte) (cls : BitVec 2) (seq hops : BitVec 16) (lat : Word) (ph blat bph : BitVec
    16) (s : State), s.portUp k = true → s.sysState = sysDetached ∨ s.sysState = sysListening → ∃ u, exec (.announceRx k gm prio1
    prio2 cls false false seq hops lat ph blat bph) s = .next u ∧ (u.lnkOf k).offer = some
    { gm := gm.toNat, prio1 := prio1.toNat, prio2 := prio2.toNat, cls := cls.toNat, seq := seq.toNat, hops := hops.toNat, lat := lat.toNat, ph := ph.toNat, blat := blat.toNat, bph := bph.toNat, fresh := s.seqFresh gm.toNat seq.toNat }
    ∧ (u.lnkOf k).reverse = false ∧ u.sysState = s.sysState ∧ Silent s u ∧ Frame s u ((List.range 4).flatMap (fun j => [Fld.off
    (LNK_STAT_STATE j), Fld.off (LNK_OFR_LAT_ACC_LAT j), Fld.off (LNK_OFR_PH_ACC_PH j)]))) ∧
  (∀ (k : Fin 4) (gm : BitVec 64) (prio1 prio2 : Byte) (cls : BitVec 2) (withdraw : Bool) (seq hops : BitVec 16) (lat : Word) (ph
    blat bph : BitVec 16) (s : State), s.portUp k = true → s.sysState = sysDetached ∨ s.sysState = sysListening → ∃ u, exec
    (.announceRx k gm prio1 prio2 cls true withdraw seq hops lat ph blat bph) s = .next u ∧ (u.lnkOf k).offer = none ∧ (u.lnkOf
    k).reverse = !withdraw ∧ u.sysState = s.sysState ∧ Silent s u ∧ Within s u (spanPlz ++ spanLnk)) ∧
  (∀ (k : Fin 4) (s : State), s.sysState = sysJoined ∨ s.sysState = sysRefused → (s.lnkOf k).offer ≠ none → (s.modLnk k (fun x =>
    { x with offer := none })).bestOffer = none → ∃ u, exec (.offerExpire k) s = .next u ∧ (u.lnkOf k).offer = none ∧ u.sysState =
    sysListening ∧ u.get LNK_SYS_STAT_UPL_VALID = 0 ∧ (∀ t : Fin 4, u.get (PLZ_SEL_SYS_SYS_VALID t) = 0) ∧ Silent s u ∧ Within s u
    (spanPlz ++ spanLnk)) ∧
  (∀ (k : Fin 4) (s : State), (s.lnkOf k).offer = none → ∃ u, exec (.offerExpire k) s = .next u ∧ u = s) ∧
  (∀ (v : CmdVia) (s : State), s.takesCmd v = true → s.isolated dieC = false → ∃ u, exec (.linkLeave (.cmd v)) s = .next u ∧
    u.sysState = sysDetached ∧ u.get LNK_SYS_STAT_UPL_VALID = 0 ∧ u.get LNK_SYS_CTL_JOIN = 0 ∧ (∀ t : Fin 4, u.get
    (PLZ_SEL_SYS_SYS_VALID t) = 0) ∧ u.bit LNK_SYS_EVT_EVT 2 = true ∧ u.host.lastStatus = stOk ∧ Posts s u ((0x0806, 0) :: viaEvt v)
    ∧ Within s u (spanMgt ++ spanPlz ++ spanLnk)) ∧
  (∀ (p : Path) (w : Word) (s : State), s.takesWrite p ⟨.LNK_SYS_CTL, 0, 0, 0⟩ (wordSet w 1 1 1) → ∃ u, exec (.linkLeave (.write p
    w)) s = .next u ∧ u.sysState = sysDetached ∧ u.get LNK_SYS_STAT_UPL_VALID = 0 ∧ u.get LNK_SYS_CTL_JOIN = 0 ∧ (∀ t : Fin 4, u.get
    (PLZ_SEL_SYS_SYS_VALID t) = 0) ∧ u.bit LNK_SYS_EVT_EVT 2 = true ∧ Posted s u 0x0806 0 ∧ Within s u (spanPlz ++ spanLnk))

/-- REMOTE_RD and REMOTE_WR of a hub in the tree are deferred with their TAG outstanding; with TAG 0 or the group busy they complete
IGNORED; outside the tree they end at once NOT_JOINED. GO of the register path takes the next TAG and is BUSY. A response of the
awaited TAG ends the access with its status, a timeout with TIMEOUT, and RMT_DONE is posted. A target performs a request once: a
write that repeats a kept SRC and TAG is only answered. A latched forwarded class sends an EVENT, a written code a SIGNAL; a
received one enters the port's queue, is counted for the sequencer and, with EVRX_EN, posted. In each clause no register outside
those it names and the event registers changes, nor do the flash, the fuses or the queue. -/
def Obligations.RemoteAccessAndSystemEvents : Prop :=
  (∀ (v : CmdVia) (tag : BitVec 16) (dst : BitVec 64) (off : BitVec 20) (n : Fin 16) (ptr : BitVec 48) (s : State), s.takesCmd v =
    true → s.isolated dieC = false → tag ≠ 0 → s.groupBusy grpRemote = false → off.toNat % 4 = 0 → s.inTree = true → ∃ u, exec
    (.remoteRd v tag dst off n ptr) s = .next u ∧ u.sys.cmdAcc = some
    { tag := tag.toNat, write := false, n := n + 1, left := s.get LNK_RMT_TMO_TMO } ∧ u.sent = (sendTree (s.request false tag.toNat
    dst.toNat off.toNat (n + 1) []) s).sent ∧ u.groupBusy grpRemote = true ∧ u.host.lastStatus = stDeferred ∧ Silent s u ∧ Frame s u
    ([] ++ viaOffs v)) ∧
  (∀ (v : CmdVia) (tag : BitVec 16) (dst : BitVec 64) (off : BitVec 20) (n : Fin 16) (ptr : BitVec 48) (s : State), s.takesCmd v =
    true → s.isolated dieC = false → tag = 0 ∨ s.groupBusy grpRemote = true → ∃ u, exec (.remoteRd v tag dst off n ptr) s = .next u
    ∧ u.sys = s.sys ∧ u.sent = s.sent ∧ u.host.lastStatus = stIgnored ∧ u.get GLB_IGNORED_CNT_CNT = satNat 32 (s.get
    GLB_IGNORED_CNT_CNT + 1) ∧ Posts s u (viaEvt v) ∧ Frame s u (ignoredOffs ++ viaOffs v)) ∧
  (∀ (v : CmdVia) (tag : BitVec 16) (dst : BitVec 64) (off : BitVec 20) (n : Fin 16) (data : List Word) (s : State), s.takesCmd v
    = true → s.isolated dieC = false → tag ≠ 0 → s.groupBusy grpRemote = false → off.toNat % 4 = 0 → s.inTree = true → ∃ u, exec
    (.remoteWr v tag dst off n data) s = .next u ∧ u.sys.cmdAcc = some
    { tag := tag.toNat, write := true, n := n + 1, left := s.get LNK_RMT_TMO_TMO } ∧ u.sent = (sendTree (s.request true tag.toNat
    dst.toNat off.toNat (n + 1) data) s).sent ∧ u.groupBusy grpRemote = true ∧ u.host.lastStatus = stDeferred ∧ Silent s u ∧ Frame s
    u ([] ++ viaOffs v)) ∧
  (∀ (tag : BitVec 16) (dst : BitVec 64) (off : BitVec 20) (n : Fin 16) (data : List Word) (s : State), s.takesCmd .ring = true →
    s.isolated dieC = false → tag ≠ 0 → s.groupBusy grpRemote = false → off.toNat % 4 = 0 → s.inTree = false → ∃ u, exec (.remoteWr
    .ring tag dst off n data) s = .next u ∧ u.sys.cmdAcc = none ∧ u.groupBusy grpRemote = false ∧ u.sent = s.sent ∧
    (u.host.cplQ.getLast?.map (fun c => (c.status, c.result, c.tag))) = some (stRemoteErr, rmtNotJoined, tag.toNat) ∧ u.bit
    LNK_SYS_EVT_EVT 8 = true ∧ Posted s u 0x080C 0 ∧ Within s u (spanGlb ++ spanHost ++ spanMgt ++ spanSeq ++ spanLnk ++ spanDma)) ∧
  (∀ (p : Path) (w : Word) (s : State), s.takesWrite p ⟨.LNK_RMT_CTL, 0, 0, 0⟩ (wordSet w 0 1 1) → wordGet w 2 1 = 0 → s.inTree =
    true → ∃ u, exec (.remoteAccessGo p w) s = .next u ∧ u.get LNK_RMT_STAT_BUSY = 1 ∧ u.get LNK_RMT_STAT_RESULT = 15 ∧ u.sys.regTag
    = s.sys.regTag % 65535 + 1 ∧ u.sys.regAcc = some
    { tag := u.sys.regTag, write := wordGet w 1 1 = 1, n := wordGet w 4 4 + 1, left := s.get LNK_RMT_TMO_TMO } ∧ u.sent = (sendTree
    (s.request (wordGet w 1 1 = 1) u.sys.regTag (s.getWide LNK_RMT_DST_LO_DST LNK_RMT_DST_HI_DST) (4 * s.get LNK_RMT_ADDR_OFFSET)
    (wordGet w 4 4 + 1) ((List.range (wordGet w 4 4 + 1)).map (fun i => s.word ⟨.LNK_RMT_DATA, i, 0, 0⟩))) s).sent ∧ Silent s u ∧
    Frame s u [Fld.off LNK_RMT_STAT_BUSY, Fld.off LNK_RMT_CTL_GO]) ∧
  (∀ (k : Fin 4) (write : Bool) (tag : BitVec 16) (status : Fin 5) (na : BitVec 16) (data : List Word) (fault : Bool) (a : RmtAcc)
    (s : State), s.treePort k = true → s.sys.cmdAcc = none → s.sys.regAcc = some a → a.tag = tag.toNat → a.write = write → ∃ u, exec
    (.remoteResponseRx k write tag status na data true fault) s = .next u ∧ u.sys.regAcc = none ∧ u.get LNK_RMT_STAT_BUSY = 0 ∧
    u.get LNK_RMT_STAT_RESULT = status ∧ u.get LNK_RMT_STAT_NA_MASK = na.toNat ∧ (write = false → status.val ≤ 1 → ∀ i : Fin 16,
    i.val < a.n → u.get (LNK_RMT_DATA_DATA i) = (data.getD i 0).toNat) ∧ u.bit LNK_SYS_EVT_EVT 8 = true ∧ Posted s u 0x080C 0 ∧
    Within s u (spanGlb ++ spanHost ++ spanMgt ++ spanSeq ++ spanLnk ++ spanDma)) ∧
  (∀ (k : Fin 4) (write : Bool) (tag : BitVec 16) (status : Fin 5) (na : BitVec 16) (data : List Word) (good fault : Bool) (s :
    State), s.treePort k = true → s.sys.cmdAcc = none → s.sys.regAcc = none → ∃ u, exec (.remoteResponseRx k write tag status na
    data good fault) s = .next u ∧ u.get (LNK_CNT_MSG_DROP k) = satNat 16 (s.get (LNK_CNT_MSG_DROP k) + 1) ∧ Silent s u ∧ Frame s u
    [Fld.off (LNK_CNT_MSG_DROP k)]) ∧
  (∀ (k : Fin 4) (tag na : BitVec 16) (data : List Word) (fault : Bool) (a : RmtAcc) (s : State), s.treePort k = true →
    s.sys.cmdAcc = some a → a.tag = tag.toNat → a.write = false → s.groupBusy grpRemote = true → (s.deferOf grpRemote).mbx = true →
    (s.deferOf grpRemote).orphan = false → (s.deferOf grpRemote).ptr / 4 + a.n ≤ 16 → ∃ u, exec (.remoteResponseRx k false tag 0 na
    data true fault) s = .next u ∧ u.sys.cmdAcc = none ∧ u.groupBusy grpRemote = false ∧ u.get MGT_MBX_CTL_STATUS = stOk ∧ (∀ i :
    Fin 16, i.val < a.n → u.get (MGT_MBX_BUF_DATA ((s.deferOf grpRemote).ptr / 4 + i)) = (data.getD i 0).toNat) ∧ u.bit
    LNK_SYS_EVT_EVT 8 = true ∧ u.bit MGT_EVT_EVT 4 = true ∧ Within s u (spanGlb ++ spanHost ++ spanMgt ++ spanSeq ++ spanLnk ++
    spanDma)) ∧
  (∀ (k : Fin 4) (tag na : BitVec 16) (data : List Word) (fault : Bool) (a : RmtAcc) (s : State), s.treePort k = true →
    s.sys.cmdAcc = some a → a.tag = tag.toNat → a.write = true → s.groupBusy grpRemote = true → (s.deferOf grpRemote).mbx = false →
    (s.deferOf grpRemote).orphan = false → ∃ u, exec (.remoteResponseRx k true tag 0 na data true fault) s = .next u ∧ u.sys.cmdAcc
    = none ∧ u.groupBusy grpRemote = false ∧ (u.host.cplQ.getLast?.map (fun c => (c.status, c.result))) = some (stOk, 0) ∧ Posted s
    u 0x080C 0 ∧ Within s u (spanGlb ++ spanHost ++ spanMgt ++ spanSeq ++ spanLnk ++ spanDma)) ∧
  (∀ (a : RmtAcc) (s : State), s.sys.regAcc = some a → ∃ u, exec (.remoteTimeout false) s = .next u ∧ u.sys.regAcc = none ∧ u.get
    LNK_RMT_STAT_BUSY = 0 ∧ u.get LNK_RMT_STAT_RESULT = rmtTimeout ∧ u.get LNK_RMT_STAT_NA_MASK = 0 ∧ Posted s u 0x080C 0 ∧ Within s
    u (spanGlb ++ spanHost ++ spanMgt ++ spanSeq ++ spanLnk ++ spanDma)) ∧
  (∀ (a : RmtAcc) (s : State), s.sys.cmdAcc = some a → s.groupBusy grpRemote = true → (s.deferOf grpRemote).mbx = false →
    (s.deferOf grpRemote).orphan = false → ∃ u, exec (.remoteTimeout true) s = .next u ∧ u.sys.cmdAcc = none ∧ u.groupBusy grpRemote
    = false ∧ (u.host.cplQ.getLast?.map (fun c => (c.status, c.result))) = some (stRemoteErr, rmtTimeout) ∧ Posted s u 0x080C 0 ∧
    Within s u (spanGlb ++ spanHost ++ spanMgt ++ spanSeq ++ spanLnk ++ spanDma)) ∧
  (∀ (k : Fin 4) (tag : BitVec 16) (src : BitVec 64) (off : Word) (n : Fin 16) (data : List Word) (d : DupEnt) (s : State),
    s.treePort k = true → s.active = true → s.isolated dieC = false → s.kept.find? (fun d => d.src = src.toNat && d.tag = tag.toNat)
    = some d → ∃ u, exec (.remoteRequestRx k true tag src off n data) s = .next u ∧ u.regs = s.regs ∧ u.sys = s.sys ∧ u = respond
    true tag.toNat src.toNat d.status d.na [] s ∧ ((∀ k : Fin 4, (s.lnkOf k).tx = []) → s.sent.length < u.sent.length) ∧ Silent s u
    ∧ Frame s u []) ∧
  (∀ (k : Fin 4) (tag : BitVec 16) (src : BitVec 64) (off : Word) (n : Fin 16) (data : List Word) (s : State), s.treePort k = true
    → s.active = true → s.isolated dieC = false → s.on LNK_SYS_CTL_REMOTE_RD_EN = false → ∃ u, exec (.remoteRequestRx k false tag
    src off n data) s = .next u ∧ u.regs = s.regs ∧ u = respond false tag.toNat src.toNat 3 0 [] s ∧ ((∀ k : Fin 4, (s.lnkOf k).tx =
    []) → s.sent.length < u.sent.length) ∧ Silent s u ∧ Frame s u []) ∧
  (∀ (k : Fin 4) (tag : BitVec 16) (src : BitVec 64) (off : Word) (n : Fin 16) (data : List Word) (s : State), s.treePort k = true
    → s.active = true → s.isolated dieC = false → s.on LNK_SYS_CTL_REMOTE_RD_EN = true → off.toNat + 4 * (n + 1) ≤ 2 ^ 20 → ∃ u,
    exec (.remoteRequestRx k false tag src off n data) s = .next u ∧ u = respond false tag.toNat src.toNat 0 0 (regReads .link
    off.toNat (n + 1) s).1 (regReads .link off.toNat (n + 1) s).2 ∧ (regReads .link off.toNat (n + 1) s).1.length = n + 1 ∧
    (regReads .link off.toNat (n + 1) s).1.head? = some (regRead .link off.toNat s).1 ∧ Within s u (spanGlb ++ spanHost ++ spanMgt
    ++ spanSeq ++ spanLnk ++ spanDma)) ∧
  (∀ (k : Fin 4) (tag : BitVec 16) (src : BitVec 64) (off w : Word) (s : State), s.treePort k = true → s.active = true →
    s.isolated dieC = false → s.on LNK_SYS_CTL_REMOTE_WR_EN = true → off.toNat + 4 ≤ 2 ^ 20 → linkDenied off.toNat = false →
    (s.kept.find? (fun d => d.src = src.toNat && d.tag = tag.toNat)) = none → ∃ u, exec (.remoteRequestRx k true tag src off 0 [w])
    s = .next u ∧ u.regs = (regWrite .link off.toNat w s).2.regs ∧ (u.sys.dup.head?.map (fun d => (d.src, d.tag, d.na))) = some
    (src.toNat, tag.toNat, if (regWrite .link off.toNat w s).1 = .applied then 0 else 1) ∧ u.sent = (respond true tag.toNat
    src.toNat (if (regWrite .link off.toNat w s).1 = .applied then 0 else 1) (if (regWrite .link off.toNat w s).1 = .applied then 0
    else 1) [] (regWrite .link off.toNat w s).2).sent) ∧
  (∀ (c : Fin 13) (s : State), s.bit LNK_EVFWD_MASK c = true → s.bit FLT_PKG_LATCH c = true → (∃ k : Fin 4, s.treePort k = true) →
    ∃ u, exec (.eventSend c) s = .next u ∧ ((∀ k : Fin 4, (s.lnkOf k).tx = []) → s.sent.length < u.sent.length) ∧ u = sendTree
    (message kindEvent 0 allHubs s.hubId (natBytes 1 c.val)) s ∧ Silent s u ∧ Frame s u []) ∧
  (∀ (c : Fin 13) (s : State), s.bit LNK_EVFWD_MASK c = false ∨ s.bit FLT_PKG_LATCH c = false → ∃ u, exec (.eventSend c) s = .next
    u ∧ u = s) ∧
  (∀ (p : Path) (w : Word) (s : State), s.takesWrite p ⟨.LNK_SIGNAL, 0, 0, 0⟩ w → (∃ k : Fin 4, s.treePort k = true) → ∃ u, exec
    (.signalSend p w) s = .next u ∧ 128 ≤ wordGet w 0 8 ∧ ((∀ k : Fin 4, (s.lnkOf k).tx = []) → s.sent.length < u.sent.length) ∧
    u.sent = (sendTree (message kindSignal 0 allHubs s.hubId (natBytes 1 (wordGet w 0 8))) s).sent ∧ Silent s u ∧ Frame s u [Fld.off
    LNK_SIGNAL_CODE]) ∧
  (∀ (k : Fin 4) (src : BitVec 64) (code : Byte) (s : State), s.treePort k = true → 128 ≤ code.toNat → s.on LNK_SYS_CTL_EVRX_EN =
    true → (bankGet s.rxq k.val).length < 16 → ∃ u, exec (.remoteEventRx k src true code) s = .next u ∧ (bankGet u.rxq k.val).length
    = (bankGet s.rxq k.val).length + 1 ∧ (u.seq.links = if s.linked dieC dieP then s.seq.links ++ [code.toNat] else s.seq.links) ∧
    u.bit LNK_SYS_EVT_EVT 7 = true ∧ Posted s u 0x080B 0 ∧ Within s u (spanGlb ++ spanHost ++ spanMgt ++ spanSeq ++ spanLnk ++
    spanDma)) ∧
  (∀ (k : Fin 4) (src : BitVec 64) (code : Byte) (s : State), s.treePort k = true → code.toNat ≤ 12 → s.on LNK_SYS_CTL_EVRX_EN =
    false → 16 ≤ (bankGet s.rxq k.val).length → ∃ u, exec (.remoteEventRx k src false code) s = .next u ∧ bankGet u.rxq k.val =
    bankGet s.rxq k.val ∧ u.get (LNK_RXQ_DROP_CNT k) = satNat 16 (s.get (LNK_RXQ_DROP_CNT k) + 1) ∧ (u.seq.links = if s.linked dieC
    dieP then s.seq.links ++ [0x10 + code.toNat] else s.seq.links) ∧ Silent s u ∧ Frame s u [Fld.off (LNK_RXQ_DROP_CNT k)])

/-- A taken HOST_WAKE on a RUNNING port, and a poll with POLL_EN, start a doorbell read. A read with a new tag publishes its index, or,
beyond the ring, is ignored with source 3; one with nothing new lengthens the poll interval. Dispatch consumes the next owned
descriptor with room for its completion: a bad CRC completes POISONED, a bad form IGNORED and counted, a NOP OK; without OWN it
stops until a later doorbell read. NOP completes OK, from the mailbox with DONE, its status and MBX_DONE; GO of a busy mailbox is an
ignored action. The oldest waiting completion, and the oldest event, move to their rings in host memory when there is room, and not
otherwise; one posted from a full FIFO makes room for EVT_OVERFLOW. In each clause no register outside those it names and the event
registers changes, nor do the flash, the fuses or the queue. -/
def Obligations.HostRingsCommandsAndPosts : Prop :=
  (∀ (p : Path) (w : Word) (s : State), s.takesWrite p ⟨.HOST_WAKE, 0, 0, 0⟩ w → s.rstate = rsRunning → ∃ u, exec (.hostWake p w)
    s = .next u ∧ u.host.reading = true ∧ u.get HOST_POLL_CUR = 1 ∧ Silent s u ∧ Frame s u [Fld.off HOST_POLL_CUR, Fld.off
    HOST_WAKE_WAKE]) ∧
  (∀ (s : State), s.rstate = rsRunning → s.pkg_.loRuns = true → s.on HOST_POLL_POLL_EN = true → ∃ u, exec (.doorbellPoll) s =
    .next u ∧ u.host.reading = true ∧ Silent s u ∧ Frame s u []) ∧
  (∀ (s : State), s.rstate ≠ rsRunning ∨ s.on HOST_POLL_POLL_EN = false ∨ s.pkg_.loRuns = false → ∃ u, exec (.doorbellPoll) s =
    .next u ∧ u = s) ∧
  (∀ (w0 w1 w2 : BitVec 64) (s : State), s.rstate = rsRunning → s.host.reading = true → (s.ringOf 1).tag = some (w1.extractLsb' 32
    32).toNat → (s.ringOf 2).tag = some (w2.extractLsb' 32 32).toNat → (s.ringOf 0).tag ≠ some (w0.extractLsb' 32 32).toNat →
    (w0.extractLsb' 0 32).toNat < s.hostRingSize 0 → ∃ u, exec (.doorbellReadDone w0 w1 w2 []) s = .next u ∧ u.pubIdx 0 =
    (w0.extractLsb' 0 32).toNat ∧ (u.ringOf 0).tag = some (w0.extractLsb' 32 32).toNat ∧ (u.ringOf 1) = (s.ringOf 1) ∧
    u.host.reading = false ∧ u.get HOST_POLL_CUR = 1 ∧ Silent s u ∧ Frame s u [Fld.off HOST_POLL_CUR, Fld.off DMA_ACTIVE_ACTIVE,
    Fld.off DMA_REQ_BIND_BOUND, Fld.off DMA_REQ_PEND_PEND]) ∧
  (∀ (w0 w1 w2 : BitVec 64) (s : State), s.rstate = rsRunning → s.host.reading = true → (s.ringOf 1).tag = some (w1.extractLsb' 32
    32).toNat → (s.ringOf 2).tag = some (w2.extractLsb' 32 32).toNat → (s.ringOf 0).tag ≠ some (w0.extractLsb' 32 32).toNat →
    s.hostRingSize 0 ≤ (w0.extractLsb' 0 32).toNat → ∃ u, exec (.doorbellReadDone w0 w1 w2 []) s = .next u ∧ u.pubIdx 0 = s.pubIdx 0
    ∧ u.get GLB_IGNORED_CNT_CNT = satNat 32 (s.get GLB_IGNORED_CNT_CNT + 1) ∧ u.get GLB_IGNORED_LAST_S_SOURCE = 3 ∧ u.get
    HOST_POLL_CUR = 1 ∧ Silent s u ∧ Frame s u ([Fld.off HOST_POLL_CUR, Fld.off DMA_ACTIVE_ACTIVE, Fld.off DMA_REQ_BIND_BOUND,
    Fld.off DMA_REQ_PEND_PEND] ++ ignoredOffs)) ∧
  (∀ (w0 w1 w2 : BitVec 64) (s : State), s.rstate = rsRunning → s.host.reading = true → (s.ringOf 1).tag = some (w1.extractLsb' 32
    32).toNat → (s.ringOf 2).tag = some (w2.extractLsb' 32 32).toNat → (s.ringOf 0).tag = some (w0.extractLsb' 32 32).toNat →
    s.portBusy = false → 1 ≤ s.get HOST_POLL_CUR → s.get HOST_POLL_CUR ≤ 1000 → ∃ u, exec (.doorbellReadDone w0 w1 w2 []) s = .next
    u ∧ u.get HOST_POLL_CUR = nextPoll (s.get HOST_POLL_CUR) ∧ u.host.ring = s.host.ring ∧ u.host.reading = false ∧ Silent s u ∧
    Frame s u [Fld.off HOST_POLL_CUR, Fld.off DMA_ACTIVE_ACTIVE, Fld.off DMA_REQ_BIND_BOUND, Fld.off DMA_REQ_PEND_PEND]) ∧
  (∀ (ws : List Word) (payload : List Byte) (fault : Bool) (s : State), s.rstate = rsRunning → s.active = true → s.hubIdx 0 ≠
    s.pubIdx 0 → s.cplRoom = true → s.host.stalled = false → ({ words := padWords 16 ws } : Cmd).own = true →
    ({ words := padWords 16 ws } : Cmd).crcGood = true → ({ words := padWords 16 ws } : Cmd).formOk .ring = true →
    ({ words := padWords 16 ws } : Cmd).op = 0 → ∃ u, exec (.commandDispatch ws payload fault) s = .next u ∧ u.hubIdx 0 = (s.hubIdx
    0 + 1) % s.hostRingSize 0 % 2 ^ 16 ∧ (u.host.cplQ.getLast?.map (fun c => (c.status, c.opcode, c.tag))) = some (stOk, 0,
    ({ words := padWords 16 ws } : Cmd).tag) ∧ u.host.cplQ.length = s.host.cplQ.length + 1 ∧ u.host.consumed = s.host.consumed + 1 ∧
    Silent s u ∧ Frame s u [Fld.off (HOST_RING_IDX_HUB_IDX 0)]) ∧
  (∀ (ws : List Word) (payload : List Byte) (fault : Bool) (s : State), s.rstate = rsRunning → s.active = true → s.hubIdx 0 ≠
    s.pubIdx 0 → s.cplRoom = true → s.host.stalled = false → ({ words := padWords 16 ws } : Cmd).own = true →
    ({ words := padWords 16 ws } : Cmd).crcGood = false → ∃ u, exec (.commandDispatch ws payload fault) s = .next u ∧ u.hubIdx 0 =
    (s.hubIdx 0 + 1) % s.hostRingSize 0 % 2 ^ 16 ∧ (u.host.cplQ.getLast?.map (fun c => (c.status, c.opcode, c.tag))) = some
    (stPoisoned, ({ words := padWords 16 ws } : Cmd).op, ({ words := padWords 16 ws } : Cmd).tag) ∧ u.host.cplQ.length =
    s.host.cplQ.length + 1 ∧ Silent s u ∧ Frame s u [Fld.off (HOST_RING_IDX_HUB_IDX 0)]) ∧
  (∀ (ws : List Word) (payload : List Byte) (fault : Bool) (s : State), s.rstate = rsRunning → s.active = true → s.hubIdx 0 ≠
    s.pubIdx 0 → s.cplRoom = true → s.host.stalled = false → ({ words := padWords 16 ws } : Cmd).own = true →
    ({ words := padWords 16 ws } : Cmd).crcGood = true → ({ words := padWords 16 ws } : Cmd).formOk .ring = false → ∃ u, exec
    (.commandDispatch ws payload fault) s = .next u ∧ u.hubIdx 0 = (s.hubIdx 0 + 1) % s.hostRingSize 0 % 2 ^ 16 ∧
    (u.host.cplQ.getLast?.map (fun c => (c.status, c.opcode, c.tag))) = some (stIgnored, ({ words := padWords 16 ws } : Cmd).op,
    ({ words := padWords 16 ws } : Cmd).tag) ∧ u.get GLB_IGNORED_CNT_CNT = satNat 32 (s.get GLB_IGNORED_CNT_CNT + 1) ∧ u.get
    GLB_IGNORED_LAST_S_SOURCE = 2 ∧ u.get GLB_IGNORED_LAST_A_ADDR = s.hubIdx 0 ∧ Silent s u ∧ Frame s u (Fld.off
    (HOST_RING_IDX_HUB_IDX 0) :: ignoredOffs)) ∧
  (∀ (ws : List Word) (payload : List Byte) (fault : Bool) (s : State), s.hubIdx 0 = s.pubIdx 0 ∨ s.cplRoom = false ∨
    s.host.stalled = true → ∃ u, exec (.commandDispatch ws payload fault) s = .next u ∧ u = s) ∧
  (∀ (ws : List Word) (payload : List Byte) (fault : Bool) (s : State), s.rstate = rsRunning → s.active = true → s.hubIdx 0 ≠
    s.pubIdx 0 → s.cplRoom = true → s.host.stalled = false → ({ words := padWords 16 ws } : Cmd).own = false → ∃ u, exec
    (.commandDispatch ws payload fault) s = .next u ∧ u.host.stalled = true ∧ u.hubIdx 0 = s.hubIdx 0 ∧ u.host.cplQ = s.host.cplQ ∧
    Silent s u ∧ Frame s u []) ∧
  (∀ (v : CmdVia) (s : State), s.takesCmd v = true → ∃ u, exec (.nop v) s = .next u ∧ u.host.lastStatus = stOk ∧ Posts s u (viaEvt
    v) ∧ Frame s u ([] ++ viaOffs v)) ∧
  (∀ (k : Fin 4) (s : State), s.takesCmd (.mbx k) = true → ∃ u, exec (.nop (.mbx k)) s = .next u ∧ u.get MGT_MBX_CTL_BUSY = 0 ∧
    u.get MGT_MBX_CTL_DONE = 1 ∧ u.get MGT_MBX_CTL_STATUS = stOk ∧ u.get MGT_MBX_CTL_OWNER = k ∧ u.get MGT_MBX_RES_RESULT = 0 ∧
    u.bit MGT_EVT_EVT 4 = true ∧ Posted s u 0x0904 0 ∧ Within s u (spanGlb ++ spanHost ++ spanMgt)) ∧
  (∀ (k : Fin 4) (s : State), s.mbxOpen k = true → s.on MGT_MBX_CTL_BUSY = true → ∃ u, exec (.nop (.mbx k)) s = .next u ∧ u.get
    GLB_IGNORED_CNT_CNT = satNat 32 (s.get GLB_IGNORED_CNT_CNT + 1) ∧ u.get GLB_IGNORED_LAST_S_SOURCE = Machine.Path.source (mbxPath
    k) ∧ u.get GLB_IGNORED_LAST_A_ADDR = 0x2440 ∧ Silent s u ∧ Frame s u ignoredOffs) ∧
  (∀ (k : Fin 4) (s : State), s.mbxOpen k = false → ∃ u, exec (.nop (.mbx k)) s = .next u ∧ u = s) ∧
  (∀ (c : Cpl) (l : List Cpl) (s : State), s.rstate = rsRunning → s.host.cplQ = c :: l → s.ringRoom 1 1 = true → c.irq = false → ∃
    u, exec (.completionPost) s = .next u ∧ u.host.cplQ = l ∧ u.hubIdx 1 = (s.hubIdx 1 + 1) % s.hostRingSize 1 % 2 ^ 16 ∧ u.sent =
    s.sent ++ [Emit.host (s.get HOST_XLAT_XCTX) (s.hostRingBase 1 + 16 * s.hubIdx 1) (c.bytes (s.on (HOST_RING_IDX_PHASE 1)))] ∧
    Silent s u ∧ Frame s u [Fld.off (HOST_RING_IDX_HUB_IDX 1)]) ∧
  (∀ (s : State), s.rstate ≠ rsRunning ∨ s.host.cplQ = [] ∨ s.ringRoom 1 1 = false → ∃ u, exec (.completionPost) s = .next u ∧ u =
    s) ∧
  (∀ (e : EvtRec) (l : List EvtRec) (s : State), s.rstate = rsRunning → s.evtFifo = e :: l → s.ringRoom 2 1 = true → s.on
    (HOST_RING_CFG_IRQ_EN 2) = false → s.evtFull = false → ∃ u, exec (.eventPost none) s = .next u ∧ u.evtFifo = l ∧ u.evtFull =
    false ∧ u.evtSeq = s.evtSeq ∧ u.hubIdx 2 = (s.hubIdx 2 + 1) % s.hostRingSize 2 % 2 ^ 16 ∧ u.sent = s.sent ++ [Emit.host (s.get
    HOST_XLAT_XCTX) (s.hostRingBase 2 + 32 * s.hubIdx 2) (e.bytes (s.on (HOST_RING_IDX_PHASE 2)))] ∧ u.host.evtPosted =
    s.host.evtPosted + 1 ∧ Frame s u (Fld.off (HOST_RING_IDX_HUB_IDX 2) :: eventOffs)) ∧
  (∀ (e : EvtRec) (l : List EvtRec) (w : Option (BitVec 3)) (s : State), s.rstate = rsRunning → s.evtFifo = e :: l → s.ringRoom 2
    1 = true → s.evtFull = true → l.length < evtCapacity → w = none → ∃ u, exec (.eventPost w) s = .next u ∧ u.evtFull = false ∧
    (u.evtFifo.getLast?.map (fun r => (r.code, r.seq))) = some (0x0002, s.evtSeq + 1) ∧ u.evtSeq = s.evtSeq + 1 ∧ Within s u
    (spanGlb ++ spanHost ++ spanMgt)) ∧
  (∀ (e : EvtRec) (l : List EvtRec) (w : BitVec 3) (s : State), s.rstate = rsRunning → s.evtFifo = e :: l → s.ringRoom 2 1 = true
    → s.on (HOST_RING_CFG_IRQ_EN 2) = false → ∃ u, exec (.eventPost (some w)) s = .next u ∧ u.bit GLB_EVT_EVT 0 = true ∧ u.hubIdx 2
    = (s.hubIdx 2 + 1) % s.hostRingSize 2 % 2 ^ 16 ∧ u.sent = s.sent ++ [Emit.host (s.get HOST_XLAT_XCTX) (s.hostRingBase 2 + 32 *
    s.hubIdx 2) (e.bytes (s.on (HOST_RING_IDX_PHASE 2)))] ∧ Within s u (spanGlb ++ spanHost ++ spanMgt)) ∧
  (∀ (w : Option (BitVec 3)) (s : State), s.evtFifo = [] ∨ s.rstate ≠ rsRunning ∨ s.ringRoom 2 1 = false → ∃ u, exec (.eventPost
    w) s = .next u ∧ u = s)

/-- SYNC_STATE from the ring completes OK and, like a taken HOST_RESYNC, enters STOPPING; from the mailbox it is ignored. With no burst
in flight STOPPING ends in SUMMARY; the written summary disarms the rings, counts, and enters WAIT_ARM. Arming the last ring of a
DISARMED hosted port enters RUNNING with its indices at 0; with another ring disabled it does not. Promotion makes the hub HOSTED. A
link that trains with its supplies in band shows its rate and width. A host-port reset disarms the port, keeps the IOTLB, counts
itself and posts HOST_PORT_RESET; it returns PAGE and the mailbox to reset (log entry 144: DESIGN CHOICE); without a link none
arises. In each clause no register outside the spans it names and the event registers changes, nor does the queue. -/
def Obligations.HostPortStates : Prop :=
  (∀ (s : State), s.takesCmd .ring = true → ∃ u, exec (.syncState .ring) s = .next u ∧ u.rstate = rsStopping ∧ u.host.cause = 1 ∧
    u.host.cplQ = [] ∧ u.host.reading = false ∧ u.host.lastStatus = stOk ∧ Silent s u ∧ RegsWithin s u (spanGlb ++ spanHost ++
    spanMgt ++ spanLnk ++ spanDma ++ spanEng) ∧ u.pending = s.pending ∧ u.otp.fuse = s.otp.fuse) ∧
  (∀ (k : Fin 4) (s : State), s.takesCmd (.mbx k) = true → ∃ u, exec (.syncState (.mbx k)) s = .next u ∧ u.rstate = s.rstate ∧
    u.host.lastStatus = stIgnored ∧ u.get MGT_MBX_CTL_STATUS = stIgnored ∧ u.get GLB_IGNORED_CNT_CNT = satNat 32 (s.get
    GLB_IGNORED_CNT_CNT + 1) ∧ u.get GLB_IGNORED_LAST_S_SOURCE = 7 ∧ Posted s u 0x0904 0 ∧ Frame s u (ignoredOffs ++ viaOffs (.mbx
    k))) ∧
  (∀ (p : Path) (w : Word) (s : State), s.takesWrite p ⟨.HOST_RESYNC, 0, 0, 0⟩ w → ∃ u, exec (.hostResync p w) s = .next u ∧
    wordGet w 0 16 = 0x5EED ∧ u.rstate = rsStopping ∧ u.host.cause = 2 ∧ u.host.cplQ = [] ∧ u.host.reading = false ∧ Silent s u ∧
    RegsWithin s u (spanGlb ++ spanHost ++ spanMgt ++ spanLnk ++ spanDma ++ spanEng) ∧ u.pending = s.pending ∧ u.otp.fuse =
    s.otp.fuse) ∧
  (∀ (s : State), s.rstate = rsStopping → s.inFlight = 0 → ∃ u, exec (.resyncDrained) s = .next u ∧ u.rstate = rsSummary ∧ Silent
    s u ∧ Frame s u [Fld.off HOST_STAT_RSTATE]) ∧
  (∀ (s : State), s.rstate ≠ rsStopping ∨ s.inFlight ≠ 0 → ∃ u, exec (.resyncDrained) s = .next u ∧ u = s) ∧
  (∀ (s : State), s.rstate = rsSummary → s.hostFault (4096 * s.get HOST_SUMMARY_ADDR_LO_ADDR + 2 ^ 32 * s.get
    HOST_SUMMARY_ADDR_HI_ADDR) 8192 1 false = false → ∃ u, exec (.summaryDone none none) s = .next u ∧ u.rstate = rsWaitArm ∧ u.get
    HOST_RS_STAT_RESULT = 1 ∧ u.get HOST_RS_STAT_SUMSEQ = satNat 16 (s.get HOST_RS_STAT_SUMSEQ + 1) ∧ (∀ q : Fin 3, u.get
    (HOST_RING_CFG_EN q) = 0) ∧ ((u.sent.drop s.sent.length).any (fun e => match e with | .host c a l => c = s.get HOST_XLAT_XCTX &&
    a = (4096 * s.get HOST_SUMMARY_ADDR_LO_ADDR + 2 ^ 32 * s.get HOST_SUMMARY_ADDR_HI_ADDR) && l.length = 8192 | _ => false)) = true
    ∧ u.bit GLB_EVT_EVT 3 = true ∧ Posted s u 0x0003 0 ∧ RegsWithin s u (spanGlb ++ spanHost ++ spanMgt ++ spanLnk ++ spanDma ++
    spanEng) ∧ u.pending = s.pending ∧ u.otp.fuse = s.otp.fuse) ∧
  (∀ (n : BitVec 13) (d : Option (BitVec 11)) (s : State), s.rstate = rsSummary → s.hostFault (4096 * s.get
    HOST_SUMMARY_ADDR_LO_ADDR + 2 ^ 32 * s.get HOST_SUMMARY_ADDR_HI_ADDR) 8192 1 true = true → ∃ u, exec (.summaryDone (some n) d) s
    = .next u ∧ u.rstate = rsWaitArm ∧ u.get HOST_RS_STAT_RESULT = 2 ∧ u.get HOST_RS_STAT_SUMSEQ = s.get HOST_RS_STAT_SUMSEQ ∧ (∀ q
    : Fin 3, u.get (HOST_RING_CFG_EN q) = 0) ∧ u.bit GLB_EVT_EVT 3 = true ∧ RegsWithin s u (spanGlb ++ spanHost ++ spanMgt ++
    spanLnk ++ spanDma ++ spanEng) ∧ u.pending = s.pending ∧ u.otp.fuse = s.otp.fuse) ∧
  (∀ (fault : Option (BitVec 13)) (d : Option (BitVec 11)) (s : State), s.rstate ≠ rsSummary → ∃ u, exec (.summaryDone fault d) s
    = .next u ∧ u = s) ∧
  (∀ (p : Path) (q : Fin 3) (w : Word) (s : State), s.takesWrite p ⟨.HOST_RING_CFG, q, 0, 0⟩ (wordSet w 0 1 1) → (∀ j : Fin 3, j =
    q ∨ s.on (HOST_RING_CFG_EN j) = true) → s.rstate = rsWaitArm ∨ s.on HOST_MODE_MODE = true → ∃ u, exec (.ringArm p q w) s = .next
    u ∧ u.rstate = rsRunning ∧ u.get (HOST_RING_CFG_EN q) = 1 ∧ u.get (HOST_RING_IDX_HUB_IDX 0) = 0 ∧ (∀ j : Fin 3, u.pubIdx j = 0 ∧
    (u.ringOf j).tag = none) ∧ u.host.reading = true ∧ u.get HOST_POLL_CUR = 1 ∧ Silent s u ∧ RegsWithin s u (spanGlb ++ spanHost ++
    spanMgt ++ spanLnk ++ spanDma ++ spanEng) ∧ u.pending = s.pending ∧ u.otp.fuse = s.otp.fuse) ∧
  (∀ (p : Path) (q j : Fin 3) (w : Word) (s : State), s.takesWrite p ⟨.HOST_RING_CFG, q, 0, 0⟩ (wordSet w 0 1 1) → j ≠ q → s.on
    (HOST_RING_CFG_EN j) = false → ∃ u, exec (.ringArm p q w) s = .next u ∧ u.rstate = s.rstate ∧ u.get (HOST_RING_CFG_EN q) = 1 ∧
    u.host = s.host ∧ Silent s u ∧ Frame s u [Fld.off (HOST_RING_CFG_EN q)]) ∧
  (∀ (p : Path) (w : Word) (s : State), s.takesWrite p ⟨.HOST_MODE, 0, 0, 0⟩ (wordSet w 8 1 1) → ∃ u, exec (.promote p w) s =
    .next u ∧ s.on HOST_MODE_MODE = false ∧ s.on MGT_CFG_PROMOTE_EN = true ∧ u.get HOST_MODE_MODE = 1 ∧ u.get GLB_STATE_MODE = 1 ∧
    u.bit MGT_EVT_EVT 0 = true ∧ Posted s u 0x0900 0 ∧ Frame s u ([Fld.off HOST_MODE_MODE, Fld.off GLB_STATE_MODE, Fld.off
    MGT_EVT_EVT] ++ eventOffs)) ∧
  (∀ (cause : Fin 3) (s : State), s.host.link = true → RegsWf s.regs → ∃ u, exec (.hostPortReset cause) s = .next u ∧ u.rstate =
    rsDisarmed ∧ u.host.cplQ = [] ∧ u.host.reading = false ∧ u.iotlb = s.iotlb ∧ u.get MGT_PMB_STAT_PAGE = 0 ∧ u.get
    MGT_MBX_CTL_BUSY = 0 ∧ u.get HOST_STAT_HPR_CNT = satNat 16 (s.get HOST_STAT_HPR_CNT + 1) ∧ u.host.link = decide (cause = 2) ∧
    u.get HOST_STAT_LINK_UP = 0 ∧ u.inv = s.inv ∧ (∀ q : Fin 3, u.get (HOST_RING_CFG_EN q) = 0) ∧ u.bit GLB_EVT_EVT 4 = true ∧
    Posted s u 0x0004 0 ∧ RegsWithin s u (spanGlb ++ spanHost ++ spanMgt ++ spanLnk ++ spanDma ++ spanEng) ∧ u.pending = s.pending ∧
    u.otp.fuse = s.otp.fuse) ∧
  (∀ (cause : Fin 3) (s : State), s.host.link = false → ∃ u, exec (.hostPortReset cause) s = .next u ∧ u = s) ∧
  (∀ (rate width : BitVec 3) (s : State), s.active = true ∨ s.pkg = pkgBoot → s.host.ids.isSome = true → s.pkg_.supplyOut / 2 ^ 7
    % 4 = 0 → s.on HOST_STAT_LINK_UP = false → 1 ≤ rate.toNat → rate.toNat ≤ 5 → width = 1 ∨ width = 2 ∨ width = 4 → ∃ u, exec
    (.pcieLinkUp rate width) s = .next u ∧ u.get HOST_STAT_LINK_UP = 1 ∧ u.get HOST_STAT_RATE = rate.toNat ∧ u.get HOST_STAT_WIDTH =
    width.toNat ∧ u.host.link = true ∧ u.rstate = s.rstate ∧ Silent s u ∧ Frame s u [Fld.off HOST_STAT_LINK_UP])

/-- With the port open, a good PEC and no write protection: PAGE takes 0 to 0x17 and 0xFF, and any other value is an ignored action of
source 4 that sets the invalid-data bit; a bad PEC discards the write, counts it and posts PEC_ERROR; a protected or unsupported
command sets the invalid-command bit, and under WR_LOCK in HOSTED a write is ignored. Where the register write is taken, each rail
command stores the value it converts to in the paged rail. CLEAR_FAULTS clears the latches and STATUS_CML, WRITE_PROTECT and
MFR_REG_ADDR store their values, MFR_REG_DATA makes one access and advances by 4, MFR_SEQ_START acts as the command, and a timeout
is counted and posted. In each clause no register outside those it names and the event registers changes, nor do the flash, the
fuses or the queue. -/
def Obligations.PmbusWrites : Prop :=
  (∀ (c : Byte) (s : State), s.pathOpen .pmb true = true → writeProtected (s.get MGT_PMB_STAT_WP) 0x00 = false → c.toNat ≤ 23 ∨
    c.toNat = 255 → ∃ u, exec (.page (some c) .good) s = .next u ∧ u.get MGT_PMB_STAT_PAGE = c.toNat ∧ u.mgt = s.mgt ∧ Silent s u ∧
    Frame s u [Fld.off MGT_PMB_STAT_PAGE]) ∧
  (∀ (c : Byte) (s : State), s.pathOpen .pmb true = true → writeProtected (s.get MGT_PMB_STAT_WP) 0x00 = false → 23 < c.toNat →
    c.toNat ≠ 255 → ∃ u, exec (.page (some c) .good) s = .next u ∧ u.get MGT_PMB_STAT_PAGE = s.get MGT_PMB_STAT_PAGE ∧ u.mgt.cmlData
    = true ∧ u.get GLB_IGNORED_CNT_CNT = satNat 32 (s.get GLB_IGNORED_CNT_CNT + 1) ∧ u.get GLB_IGNORED_LAST_S_SOURCE = 4 ∧ Silent s
    u ∧ Frame s u ignoredOffs) ∧
  (∀ (c : Byte) (s : State), s.pathOpen .pmb true = true → ∃ u, exec (.page (some c) .bad) s = .next u ∧ u.get MGT_PMB_STAT_PAGE =
    s.get MGT_PMB_STAT_PAGE ∧ u.mgt.cmlPec = true ∧ u.get MGT_PMB_STAT_PEC_CNT = satNat 8 (s.get MGT_PMB_STAT_PEC_CNT + 1) ∧ u.bit
    MGT_EVT_EVT 2 = true ∧ Posted s u 0x0902 0 ∧ Within s u (spanGlb ++ spanMgt)) ∧
  (∀ (w : BitVec 16) (s : State), s.pathOpen .pmb true = true → s.get MGT_PMB_STAT_WP = 0x80 → ∃ u, exec (.voutCommand (some w)
    .good) s = .next u ∧ u.mgt.cmlCmd = true ∧ u.get GLB_IGNORED_CNT_CNT = satNat 32 (s.get GLB_IGNORED_CNT_CNT + 1) ∧ Silent s u ∧
    Frame s u ignoredOffs) ∧
  (∀ (r : Fin 24) (c : Byte) (s : State), s.pathOpen .pmb true = true → writeProtected (s.get MGT_PMB_STAT_WP) 0x01 = false →
    s.pmbLocked 0x01 = false → pmbPage s = r.val → c = 0x80 → s.takesWrite .pmb (prgReg .PRG_RCTL r) (wordSet (s.word (prgReg
    .PRG_RCTL r)) 0 1 (1)) → ∃ u, exec (.operation (some c) .good) s = .next u ∧ u.get ⟨(prgReg .PRG_RCTL r), 0, 1⟩ = (1) % 2 ^ 1 ∧
    u.mgt.cmlData = s.mgt.cmlData ∧ Silent s u ∧ Within s u (spanMgt ++ spanWork)) ∧
  (∀ (r : Fin 24) (s : State), s.pathOpen .pmb true = true → writeProtected (s.get MGT_PMB_STAT_WP) 0x01 = false → s.pmbLocked
    0x01 = false → pmbPage s = r.val → s.takesWrite .pmb (prgReg .PRG_RCTL r) (wordSet (wordSet (s.word (prgReg .PRG_RCTL r)) 0 1 0)
    1 1 0) → ∃ u, exec (.operation (some 0x40) .good) s = .next u ∧ u.get (PRG_RCTL_EN r) = 0 ∧ bankGet u.mgt.offCode r.val = 0x40 ∧
    Within s u (spanMgt ++ spanWork)) ∧
  (∀ (c : Byte) (s : State), s.pathOpen .pmb true = true → writeProtected (s.get MGT_PMB_STAT_WP) 0x02 = false → s.pmbLocked 0x02
    = false → c = 0x18 → ∃ u, exec (.onOffConfig (some c) .good) s = .next u ∧ u = s) ∧
  (∀ (r : Fin 24) (s : State), s.pathOpen .pmb true = true → writeProtected (s.get MGT_PMB_STAT_WP) 0x03 = false → s.pmbLocked
    0x03 = false → pmbPage s = r.val → s.takesWrite .pmb ⟨.FLT_RSTAT, r, 0, 0⟩ 15 → ∃ u, exec (.clearFaults .good) s = .next u ∧
    (u.get (FLT_RSTAT_LATCH r) = s.get (FLT_RSTAT_LATCH r) &&& s.get (FLT_RSTAT_NOW r)) ∧ u.mgt.cmlCmd = false ∧ u.mgt.cmlData =
    false ∧ u.mgt.cmlPec = false ∧ Within s u (spanMgt ++ spanWork)) ∧
  (∀ (c : Byte) (s : State), s.pathOpen .pmb true = true → writeProtected (s.get MGT_PMB_STAT_WP) 0x10 = false → s.pmbLocked 0x10
    = false → c = 0x80 ∨ c = 0x40 ∨ c = 0x20 ∨ c = 0x00 → ∃ u, exec (.writeProtect (some c) .good) s = .next u ∧ u.get
    MGT_PMB_STAT_WP = c.toNat ∧ u.mgt = s.mgt ∧ Silent s u ∧ Frame s u [Fld.off MGT_PMB_STAT_WP]) ∧
  (∀ (r : Fin 24) (c : BitVec 16) (s : State), s.pathOpen .pmb true = true → writeProtected (s.get MGT_PMB_STAT_WP) 0x21 = false →
    s.pmbLocked 0x21 = false → pmbPage s = r.val → 1024 ≤ c.toNat → 1000 * c.toNat ≤ 3600 * 4096 → s.takesWrite .pmb (prgReg
    .PRG_VID r) (wordSet (s.word (prgReg .PRG_VID r)) 0 12 (roundDiv (25 * c.toNat) 128 - 200)) → ∃ u, exec (.voutCommand (some c)
    .good) s = .next u ∧ u.get ⟨(prgReg .PRG_VID r), 0, 12⟩ = (roundDiv (25 * c.toNat) 128 - 200) % 2 ^ 12 ∧ u.mgt.cmlData =
    s.mgt.cmlData ∧ Silent s u ∧ Within s u (spanMgt ++ spanWork)) ∧
  (∀ (r : Fin 24) (c : BitVec 16) (s : State), s.pathOpen .pmb true = true → writeProtected (s.get MGT_PMB_STAT_WP) 0x27 = false →
    s.pmbLocked 0x27 = false → pmbPage s = r.val → 1 ≤ lin11Times c.toNat 4 → lin11Times c.toNat 4 ≤ 200 → s.takesWrite .pmb (prgReg
    .PRG_SLEW r) (wordSet (s.word (prgReg .PRG_SLEW r)) 0 8 ((lin11Times c.toNat 4).toNat)) → ∃ u, exec (.voutTransitionRate (some
    c) .good) s = .next u ∧ u.get ⟨(prgReg .PRG_SLEW r), 0, 8⟩ = ((lin11Times c.toNat 4).toNat) % 2 ^ 8 ∧ u.mgt.cmlData =
    s.mgt.cmlData ∧ Silent s u ∧ Within s u (spanMgt ++ spanWork)) ∧
  (∀ (r : Fin 24) (c : BitVec 16) (v : Int) (s : State), s.pathOpen .pmb true = true → writeProtected (s.get MGT_PMB_STAT_WP) 0x33
    = false → s.pmbLocked 0x33 = false → pmbPage s = r.val → lin11Under c.toNat 6400000 = some v → 1600 ≤ v → v ≤ 25600 →
    s.takesWrite .pmb (prgReg .PRG_FSW r) (wordSet (s.word (prgReg .PRG_FSW r)) 0 15 v.toNat) → ∃ u, exec (.frequencySwitch (some c)
    .good) s = .next u ∧ u.get (PRG_FSW_PERIOD r) = v.toNat ∧ u.mgt.cmlData = s.mgt.cmlData ∧ Silent s u ∧ Within s u (spanMgt ++
    spanWork)) ∧
  (∀ (r : Fin 24) (c : BitVec 16) (s : State), s.pathOpen .pmb true = true → writeProtected (s.get MGT_PMB_STAT_WP) 0x40 = false →
    s.pmbLocked 0x40 = false → pmbPage s = r.val → 1 ≤ roundDiv (125 * c.toNat) 2048 → roundDiv (125 * c.toNat) 2048 ≤ 1023 →
    s.takesWrite .pmb ⟨.FLT_OV, r, 0, 0⟩ (wordSet (wordSet (s.word ⟨.FLT_OV, r, 0, 0⟩) 0 10 (roundDiv (125 * c.toNat) 2048)) 10 1 0)
    → ∃ u, exec (.voutOvFaultLimit (some c) .good) s = .next u ∧ u.get (FLT_OV_THR r) = roundDiv (125 * c.toNat) 2048 ∧ u.get
    (FLT_OV_MODE r) = 0 ∧ u.mgt.cmlData = s.mgt.cmlData ∧ Silent s u ∧ Within s u (spanMgt ++ spanWork)) ∧
  (∀ (r : Fin 24) (c : BitVec 16) (s : State), s.pathOpen .pmb true = true → writeProtected (s.get MGT_PMB_STAT_WP) 0x44 = false →
    s.pmbLocked 0x44 = false → pmbPage s = r.val → 1 ≤ roundDiv (125 * c.toNat) 2048 → roundDiv (125 * c.toNat) 2048 ≤ 1023 →
    s.takesWrite .pmb ⟨.FLT_UV, r, 0, 0⟩ (wordSet (wordSet (s.word ⟨.FLT_UV, r, 0, 0⟩) 0 10 (roundDiv (125 * c.toNat) 2048)) 10 1 0)
    → ∃ u, exec (.voutUvFaultLimit (some c) .good) s = .next u ∧ u.get (FLT_UV_THR r) = roundDiv (125 * c.toNat) 2048 ∧ u.get
    (FLT_UV_MODE r) = 0 ∧ u.mgt.cmlData = s.mgt.cmlData ∧ Silent s u ∧ Within s u (spanMgt ++ spanWork)) ∧
  (∀ (r : Fin 24) (c : Byte) (s : State), s.pathOpen .pmb true = true → writeProtected (s.get MGT_PMB_STAT_WP) 0x41 = false →
    s.pmbLocked 0x41 = false → pmbPage s = r.val → c.toNat / 64 = 2 → c.toNat % 8 = 0 → c.toNat / 8 % 8 < 7 → s.takesWrite .pmb
    (FLT_OV_ACT r).reg (wordSet (s.word (FLT_OV_ACT r).reg) (FLT_OV_ACT r).lo (FLT_OV_ACT r).w 1) → s.takesWrite .pmb ⟨.FLT_RETRY,
    r, 0, 0⟩ (wordSet (s.word ⟨.FLT_RETRY, r, 0, 0⟩) 0 3 (c.toNat / 8 % 8)) → ∃ u, exec (.voutOvFaultResponse (some c) .good) s =
    .next u ∧ u.get (FLT_OV_ACT r) = 1 ∧ u.get (FLT_RETRY_RETRY r) = c.toNat / 8 % 8 ∧ u.mgt.cmlData = s.mgt.cmlData ∧ Silent s u ∧
    Within s u (spanMgt ++ spanWork)) ∧
  (∀ (r : Fin 24) (c : Byte) (s : State), s.pathOpen .pmb true = true → writeProtected (s.get MGT_PMB_STAT_WP) 0x45 = false →
    s.pmbLocked 0x45 = false → pmbPage s = r.val → c.toNat / 64 = 2 → c.toNat % 8 = 0 → c.toNat / 8 % 8 < 7 → s.takesWrite .pmb
    (FLT_UV_ACT r).reg (wordSet (s.word (FLT_UV_ACT r).reg) (FLT_UV_ACT r).lo (FLT_UV_ACT r).w 1) → s.takesWrite .pmb ⟨.FLT_RETRY,
    r, 0, 0⟩ (wordSet (s.word ⟨.FLT_RETRY, r, 0, 0⟩) 0 3 (c.toNat / 8 % 8)) → ∃ u, exec (.voutUvFaultResponse (some c) .good) s =
    .next u ∧ u.get (FLT_UV_ACT r) = 1 ∧ u.get (FLT_RETRY_RETRY r) = c.toNat / 8 % 8 ∧ u.mgt.cmlData = s.mgt.cmlData ∧ Silent s u ∧
    Within s u (spanMgt ++ spanWork)) ∧
  (∀ (r : Fin 24) (c : Byte) (s : State), s.pathOpen .pmb true = true → writeProtected (s.get MGT_PMB_STAT_WP) 0x47 = false →
    s.pmbLocked 0x47 = false → pmbPage s = r.val → c.toNat / 64 = 2 → c.toNat % 8 = 0 → c.toNat / 8 % 8 < 7 → s.takesWrite .pmb
    (FLT_OC_ACT r).reg (wordSet (s.word (FLT_OC_ACT r).reg) (FLT_OC_ACT r).lo (FLT_OC_ACT r).w 1) → s.takesWrite .pmb ⟨.FLT_RETRY,
    r, 0, 0⟩ (wordSet (s.word ⟨.FLT_RETRY, r, 0, 0⟩) 0 3 (c.toNat / 8 % 8)) → ∃ u, exec (.ioutOcFaultResponse (some c) .good) s =
    .next u ∧ u.get (FLT_OC_ACT r) = 1 ∧ u.get (FLT_RETRY_RETRY r) = c.toNat / 8 % 8 ∧ u.mgt.cmlData = s.mgt.cmlData ∧ Silent s u ∧
    Within s u (spanMgt ++ spanWork)) ∧
  (∀ (r : Fin 24) (c : Byte) (s : State), s.pathOpen .pmb true = true → writeProtected (s.get MGT_PMB_STAT_WP) 0x50 = false →
    s.pmbLocked 0x50 = false → pmbPage s = r.val → c.toNat / 64 = 2 → c.toNat % 8 = 0 → c.toNat / 8 % 8 < 7 → s.takesWrite .pmb
    (FLT_OT_ACT r).reg (wordSet (s.word (FLT_OT_ACT r).reg) (FLT_OT_ACT r).lo (FLT_OT_ACT r).w 1) → s.takesWrite .pmb ⟨.FLT_RETRY,
    r, 0, 0⟩ (wordSet (s.word ⟨.FLT_RETRY, r, 0, 0⟩) 0 3 (c.toNat / 8 % 8)) → ∃ u, exec (.otFaultResponse (some c) .good) s = .next
    u ∧ u.get (FLT_OT_ACT r) = 1 ∧ u.get (FLT_RETRY_RETRY r) = c.toNat / 8 % 8 ∧ u.mgt.cmlData = s.mgt.cmlData ∧ Silent s u ∧ Within
    s u (spanMgt ++ spanWork)) ∧
  (∀ (r : Fin 24) (c : BitVec 16) (s : State), s.pathOpen .pmb true = true → writeProtected (s.get MGT_PMB_STAT_WP) 0x46 = false →
    s.pmbLocked 0x46 = false → pmbPage s = r.val → 1 ≤ lin11Times c.toNat 2 → lin11Times c.toNat 2 ≤ 255 → s.takesWrite .pmb
    (⟨.FLT_OC, r, 0, 0⟩) (wordSet (s.word (⟨.FLT_OC, r, 0, 0⟩)) 0 8 ((lin11Times c.toNat 2).toNat)) → ∃ u, exec (.ioutOcFaultLimit
    (some c) .good) s = .next u ∧ u.get ⟨(⟨.FLT_OC, r, 0, 0⟩), 0, 8⟩ = ((lin11Times c.toNat 2).toNat) % 2 ^ 8 ∧ u.mgt.cmlData =
    s.mgt.cmlData ∧ Silent s u ∧ Within s u (spanMgt ++ spanWork)) ∧
  (∀ (r : Fin 24) (c : BitVec 16) (s : State), s.pathOpen .pmb true = true → writeProtected (s.get MGT_PMB_STAT_WP) 0x4F = false →
    s.pmbLocked 0x4F = false → pmbPage s = r.val → 1 ≤ lin11Times c.toNat 1 → lin11Times c.toNat 1 ≤ 200 → s.takesWrite .pmb
    (⟨.FLT_OT, r, 0, 0⟩) (wordSet (s.word (⟨.FLT_OT, r, 0, 0⟩)) 0 8 ((lin11Times c.toNat 1).toNat)) → ∃ u, exec (.otFaultLimit (some
    c) .good) s = .next u ∧ u.get ⟨(⟨.FLT_OT, r, 0, 0⟩), 0, 8⟩ = ((lin11Times c.toNat 1).toNat) % 2 ^ 8 ∧ u.mgt.cmlData =
    s.mgt.cmlData ∧ Silent s u ∧ Within s u (spanMgt ++ spanWork)) ∧
  (∀ (c : Byte) (s : State), s.pathOpen .pmb true = true → writeProtected (s.get MGT_PMB_STAT_WP) 0x7E = false → s.pmbLocked 0x7E
    = false → ∃ u, exec (.statusCml (some c) .good) s = .next u ∧ u.mgt.cmlCmd = (s.mgt.cmlCmd && !bitOf c.toNat 7) ∧ u.mgt.cmlData
    = (s.mgt.cmlData && !bitOf c.toNat 6) ∧ u.mgt.cmlPec = (s.mgt.cmlPec && !bitOf c.toNat 5) ∧ Silent s u ∧ Frame s u []) ∧
  (∀ (c : Word) (s : State), s.pathOpen .pmb true = true → writeProtected (s.get MGT_PMB_STAT_WP) 0xD0 = false → c.toNat % 4 = 0 →
    ∃ u, exec (.mfrRegAddr (some c) .good) s = .next u ∧ u.mgt.regAddr = c.toNat ∧ Silent s u ∧ Frame s u []) ∧
  (∀ (c : Word) (s : State), s.pathOpen .pmb true = true → writeProtected (s.get MGT_PMB_STAT_WP) 0xD1 = false → ∃ u, exec
    (.mfrRegData (some c) .good) s = .next u ∧ u.regs = (regWrite .pmb s.mgt.regAddr c s).2.regs ∧ u.mgt.regAddr = ((regWrite .pmb
    s.mgt.regAddr c s).2.mgt.regAddr + 4) % 2 ^ 32) ∧
  (∀ (c : Byte) (s : State), s.pathOpen .pmb true = true → writeProtected (s.get MGT_PMB_STAT_WP) 0xD3 = false → s.pmbLocked 0xD3
    = false → s.isolated dieP = false → c.toNat < 8 → (cmdSeqStart c.toNat s).status = stOk → ∃ u, exec (.mfrSeqStart c .good) s =
    .next u ∧ u.regs = (cmdSeqStart c.toNat s).s.regs ∧ u.mgt = s.mgt ∧ u.seq = (cmdSeqStart c.toNat s).s.seq) ∧
  (∀ (code : Byte) (s : State), s.pathOpen .pmb false = true → ∃ u, exec (.pmbTimeout code) s = .next u ∧ u.get
    MGT_PMB_STAT_TMO_CNT = satNat 8 (s.get MGT_PMB_STAT_TMO_CNT + 1) ∧ u.bit MGT_EVT_EVT 1 = true ∧ Posted s u 0x0901 0 ∧ Frame s u
    ([Fld.off MGT_PMB_STAT_TMO_CNT, Fld.off MGT_EVT_EVT] ++ eventOffs)) ∧
  (∀ (c : BitVec 16) (s : State), s.pathOpen .pmb true = true → writeProtected (s.get MGT_PMB_STAT_WP) 0x21 = false → s.pmbLocked
    0x21 = true → ∃ u, exec (.voutCommand (some c) .good) s = .next u ∧ u.mgt.cmlData = true ∧ u.get GLB_IGNORED_CNT_CNT = satNat 32
    (s.get GLB_IGNORED_CNT_CNT + 1) ∧ u.get GLB_IGNORED_LAST_S_SOURCE = 4 ∧ Silent s u ∧ Frame s u ignoredOffs) ∧
  (∀ (c : Byte) (s : State), s.pathOpen .pmb true = true → writeProtected (s.get MGT_PMB_STAT_WP) c.toNat = false → s.pmbLocked
    c.toNat = false → pmbWritable c.toNat = false → ∃ u, exec (.capability (some (c, .good, none))) s = .next u ∧ u.mgt.cmlCmd =
    true ∧ u.get GLB_IGNORED_CNT_CNT = satNat 32 (s.get GLB_IGNORED_CNT_CNT + 1) ∧ u.get GLB_IGNORED_LAST_S_SOURCE = 4 ∧ Silent s u
    ∧ Frame s u ignoredOffs)

/-- With the port open and PAGE naming a rail of a die in contact, each read command puts exactly its bytes on the bus, in the format of
R299 and R300, posts nothing and changes no register, but for the telemetry buffer that MFR_REG_DATA fills by reading its first
word; MFR_REG_DATA also advances the offset by 4, an unsupported command reads ones, and the alert response answers with the address
only while SMBALERT# is asserted. With PAGE 0xFF a read of a rail, of MFR_REG_ADDR and of MFR_REG_DATA answers all ones and is an
ignored action. The places of the status bits and the LINEAR11 exponent are the model's choices (log entries 60 and 63). -/
def Obligations.PmbusReads : Prop :=
  (∀ (r : Fin 24) (s : State), s.pathOpen .pmb false = true → pmbPage s = r.val → s.isolated dieP = false → ∃ u, exec (.page none
    .good) s = .next u ∧ u.sent = s.sent ++ [Emit.pmb (natBytes 1 r.val)] ∧ Silent s u ∧ Frame s u []) ∧
  (∀ (r : Fin 24) (s : State), s.pathOpen .pmb false = true → pmbPage s = r.val → s.isolated dieP = false → ∃ u, exec (.operation
    none .good) s = .next u ∧ u.sent = s.sent ++ [Emit.pmb (natBytes 1 (if s.on (PRG_RCTL_EN r) then 0x80 else bankGet s.mgt.offCode
    r.val))] ∧ Silent s u ∧ Frame s u []) ∧
  (∀ (r : Fin 24) (s : State), s.pathOpen .pmb false = true → pmbPage s = r.val → s.isolated dieP = false → ∃ u, exec
    (.onOffConfig none .good) s = .next u ∧ u.sent = s.sent ++ [Emit.pmb ([0x18])] ∧ Silent s u ∧ Frame s u []) ∧
  (∀ (s : State), s.pathOpen .pmb false = true → ∃ u, exec (.writeProtect none .good) s = .next u ∧ u.sent = s.sent ++ [Emit.pmb
    (natBytes 1 (s.get MGT_PMB_STAT_WP))] ∧ Silent s u ∧ Frame s u []) ∧
  (∀ (s : State), s.pathOpen .pmb false = true → ∃ u, exec (.capability none) s = .next u ∧ u.sent = s.sent ++ [Emit.pmb ([0xD0])]
    ∧ Silent s u ∧ Frame s u []) ∧
  (∀ (c : Byte) (x : Pec) (n : Fin 33) (s : State), s.pathOpen .pmb false = true → pmbReadable c.toNat = false → ∃ u, exec
    (.capability (some (c, x, some n))) s = .next u ∧ u.sent = s.sent ++ [Emit.pmb (List.replicate n.val 0xFF)] ∧ Silent s u ∧ Frame
    s u []) ∧
  (∀ (r : Fin 24) (s : State), s.pathOpen .pmb false = true → pmbPage s = r.val → s.isolated dieP = false → ∃ u, exec (.voutMode)
    s = .next u ∧ u.sent = s.sent ++ [Emit.pmb ([0x14])] ∧ Silent s u ∧ Frame s u []) ∧
  (∀ (r : Fin 24) (s : State), s.pathOpen .pmb false = true → pmbPage s = r.val → s.isolated dieP = false → ∃ u, exec
    (.voutCommand none .good) s = .next u ∧ u.sent = s.sent ++ [Emit.pmb (natBytes 2 (roundDiv ((s.get (PRG_VID_VID r) + 200) * 512)
    100))] ∧ Silent s u ∧ Frame s u []) ∧
  (∀ (r : Fin 24) (s : State), s.pathOpen .pmb false = true → pmbPage s = r.val → s.isolated dieP = false → ∃ u, exec
    (.voutTransitionRate none .good) s = .next u ∧ u.sent = s.sent ++ [Emit.pmb (natBytes 2 (toLin11 (s.get (PRG_SLEW_SLEW r)) 4))]
    ∧ Silent s u ∧ Frame s u []) ∧
  (∀ (r : Fin 24) (s : State), s.pathOpen .pmb false = true → pmbPage s = r.val → s.isolated dieP = false → ∃ u, exec
    (.frequencySwitch none .good) s = .next u ∧ u.sent = s.sent ++ [Emit.pmb (natBytes 2 (toLin11 6400000 (s.get (PRG_FSW_PERIOD
    r))))] ∧ Silent s u ∧ Frame s u []) ∧
  (∀ (r : Fin 24) (s : State), s.pathOpen .pmb false = true → pmbPage s = r.val → s.isolated dieP = false → s.get (FLT_OV_MODE r)
    = 0 → ∃ u, exec (.voutOvFaultLimit none .good) s = .next u ∧ u.sent = s.sent ++ [Emit.pmb (natBytes 2 (roundDiv (s.get
    (FLT_OV_THR r) * 2048) 125))] ∧ Silent s u ∧ Frame s u []) ∧
  (∀ (r : Fin 24) (s : State), s.pathOpen .pmb false = true → pmbPage s = r.val → s.isolated dieP = false → s.get (FLT_UV_MODE r)
    = 0 → ∃ u, exec (.voutUvFaultLimit none .good) s = .next u ∧ u.sent = s.sent ++ [Emit.pmb (natBytes 2 (roundDiv (s.get
    (FLT_UV_THR r) * 2048) 125))] ∧ Silent s u ∧ Frame s u []) ∧
  (∀ (r : Fin 24) (s : State), s.pathOpen .pmb false = true → pmbPage s = r.val → s.isolated dieP = false → s.get (FLT_OV_ACT r) =
    1 → ∃ u, exec (.voutOvFaultResponse none .good) s = .next u ∧ u.sent = s.sent ++ [Emit.pmb (natBytes 1 (0x80 + 8 * s.get
    (FLT_RETRY_RETRY r)))] ∧ Silent s u ∧ Frame s u []) ∧
  (∀ (r : Fin 24) (s : State), s.pathOpen .pmb false = true → pmbPage s = r.val → s.isolated dieP = false → s.get (FLT_UV_ACT r) =
    1 → ∃ u, exec (.voutUvFaultResponse none .good) s = .next u ∧ u.sent = s.sent ++ [Emit.pmb (natBytes 1 (0x80 + 8 * s.get
    (FLT_RETRY_RETRY r)))] ∧ Silent s u ∧ Frame s u []) ∧
  (∀ (r : Fin 24) (s : State), s.pathOpen .pmb false = true → pmbPage s = r.val → s.isolated dieP = false → s.get (FLT_OC_ACT r) =
    1 → ∃ u, exec (.ioutOcFaultResponse none .good) s = .next u ∧ u.sent = s.sent ++ [Emit.pmb (natBytes 1 (0x80 + 8 * s.get
    (FLT_RETRY_RETRY r)))] ∧ Silent s u ∧ Frame s u []) ∧
  (∀ (r : Fin 24) (s : State), s.pathOpen .pmb false = true → pmbPage s = r.val → s.isolated dieP = false → s.get (FLT_OT_ACT r) =
    1 → ∃ u, exec (.otFaultResponse none .good) s = .next u ∧ u.sent = s.sent ++ [Emit.pmb (natBytes 1 (0x80 + 8 * s.get
    (FLT_RETRY_RETRY r)))] ∧ Silent s u ∧ Frame s u []) ∧
  (∀ (r : Fin 24) (s : State), s.pathOpen .pmb false = true → pmbPage s = r.val → s.isolated dieP = false → ∃ u, exec
    (.ioutOcFaultLimit none .good) s = .next u ∧ u.sent = s.sent ++ [Emit.pmb (natBytes 2 (toLin11 (s.get (FLT_OC_OC_THR r)) 2))] ∧
    Silent s u ∧ Frame s u []) ∧
  (∀ (r : Fin 24) (s : State), s.pathOpen .pmb false = true → pmbPage s = r.val → s.isolated dieP = false → ∃ u, exec
    (.otFaultLimit none .good) s = .next u ∧ u.sent = s.sent ++ [Emit.pmb (natBytes 2 (toLin11 (s.get (FLT_OT_OT_THR r)) 1))] ∧
    Silent s u ∧ Frame s u []) ∧
  (∀ (r : Fin 24) (s : State), s.pathOpen .pmb false = true → pmbPage s = r.val → s.isolated dieP = false → ∃ u, exec
    (.statusByte) s = .next u ∧ u.sent = s.sent ++ [Emit.pmb (natBytes 1 (s.statusWord r))] ∧ Silent s u ∧ Frame s u []) ∧
  (∀ (r : Fin 24) (s : State), s.pathOpen .pmb false = true → pmbPage s = r.val → s.isolated dieP = false → ∃ u, exec
    (.statusWord) s = .next u ∧ u.sent = s.sent ++ [Emit.pmb (natBytes 2 (s.statusWord r))] ∧ Silent s u ∧ Frame s u []) ∧
  (∀ (r : Fin 24) (s : State), s.pathOpen .pmb false = true → pmbPage s = r.val → s.isolated dieP = false → ∃ u, exec
    (.statusVout) s = .next u ∧ u.sent = s.sent ++ [Emit.pmb (natBytes 1 ((if s.bit (FLT_RSTAT_LATCH r) 0 then 0x80 else 0) + (if
    s.bit (FLT_RSTAT_LATCH r) 1 then 0x10 else 0)))] ∧ Silent s u ∧ Frame s u []) ∧
  (∀ (r : Fin 24) (s : State), s.pathOpen .pmb false = true → pmbPage s = r.val → s.isolated dieP = false → ∃ u, exec
    (.statusIout) s = .next u ∧ u.sent = s.sent ++ [Emit.pmb (natBytes 1 (if s.bit (FLT_RSTAT_LATCH r) 2 then 0x80 else 0))] ∧
    Silent s u ∧ Frame s u []) ∧
  (∀ (r : Fin 24) (s : State), s.pathOpen .pmb false = true → pmbPage s = r.val → s.isolated dieP = false → ∃ u, exec
    (.statusTemperature) s = .next u ∧ u.sent = s.sent ++ [Emit.pmb (natBytes 1 (if s.bit (FLT_RSTAT_LATCH r) 3 then 0x80 else 0))]
    ∧ Silent s u ∧ Frame s u []) ∧
  (∀ (r : Fin 24) (s : State), s.pathOpen .pmb false = true → pmbPage s = r.val → s.isolated dieP = false → ∃ u, exec (.statusCml
    none .good) s = .next u ∧ u.sent = s.sent ++ [Emit.pmb (natBytes 1 s.cml)] ∧ Silent s u ∧ Frame s u []) ∧
  (∀ (mv : BitVec 16) (s : State), s.pathOpen .pmb false = true → ∃ u, exec (.readVin mv) s = .next u ∧ u.sent = s.sent ++
    [Emit.pmb (natBytes 2 (toLin11 mv.toNat 1000))] ∧ Silent s u ∧ Frame s u []) ∧
  (∀ (r : Fin 24) (s : State), s.pathOpen .pmb false = true → pmbPage s = r.val → s.isolated dieP = false → ∃ u, exec (.readVout)
    s = .next u ∧ u.sent = s.sent ++ [Emit.pmb (natBytes 2 (roundDiv (s.get (PRG_RMEAS_VSENSE r) * 4096) 10000))] ∧ Silent s u ∧
    Frame s u []) ∧
  (∀ (r : Fin 24) (s : State), s.pathOpen .pmb false = true → pmbPage s = r.val → s.isolated dieP = false → ∃ u, exec (.readIout)
    s = .next u ∧ u.sent = s.sent ++ [Emit.pmb (natBytes 2 (toLin11 (s.getS (PRG_RMEAS_ITOT r)) 10))] ∧ Silent s u ∧ Frame s u []) ∧
  (∀ (mv : BitVec 12) (r : Fin 24) (s : State), s.pathOpen .pmb false = true → pmbPage s = r.val → s.isolated dieP = false → ∃ u,
    exec (.readTemperature1 mv) s = .next u ∧ u.sent = s.sent ++ [Emit.pmb (natBytes 2 (toLin11 (((mv.toNat : Int) - s.get
    (PRG_TMON_OFS r)) * 100) (s.get (PRG_TMON_SLOPE r))))] ∧ Silent s u ∧ Frame s u []) ∧
  (∀ (s : State), s.pathOpen .pmb false = true → ∃ u, exec (.pmbusRevision) s = .next u ∧ u.sent = s.sent ++ [Emit.pmb ([0x33])] ∧
    Silent s u ∧ Frame s u []) ∧
  (∀ (s : State), s.pathOpen .pmb false = true → ∃ u, exec (.mfrId) s = .next u ∧ u.sent = s.sent ++ [Emit.pmb ([5, 0x4F, 0x50,
    0x45, 0x56, 0x4F])] ∧ Silent s u ∧ Frame s u []) ∧
  (∀ (s : State), s.pathOpen .pmb false = true → ∃ u, exec (.mfrModel) s = .next u ∧ u.sent = s.sent ++ [Emit.pmb ([6, 0x5A, 0x52,
    0x34, 0x38, 0x39, 0x36])] ∧ Silent s u ∧ Frame s u []) ∧
  (∀ (s : State), s.pathOpen .pmb false = true → ∃ u, exec (.mfrRevision) s = .next u ∧ u.sent = s.sent ++ [Emit.pmb ([2, 0x41,
    0x31])] ∧ Silent s u ∧ Frame s u []) ∧
  (∀ (s : State), s.pathOpen .pmb false = true → pmbPage s ≠ 0xFF → ∃ u, exec (.mfrRegAddr none .good) s = .next u ∧ u.sent =
    s.sent ++ [Emit.pmb (4 :: natBytes 4 s.mgt.regAddr)] ∧ Silent s u ∧ Frame s u []) ∧
  (∀ (s : State), s.pathOpen .pmb false = true → pmbPage s = 0xFF → ∃ u, exec (.mfrRegAddr none .good) s = .next u ∧ u.sent =
    s.sent ++ [Emit.pmb (List.replicate 5 0xFF)] ∧ u.mgt.regAddr = s.mgt.regAddr ∧ u.get GLB_IGNORED_CNT_CNT = satNat 32 (s.get
    GLB_IGNORED_CNT_CNT + 1) ∧ Silent s u ∧ Frame s u ignoredOffs) ∧
  (∀ (s : State), s.pathOpen .pmb false = true → pmbPage s = 0xFF → ∃ u, exec (.mfrRegData none .good) s = .next u ∧ u.sent =
    s.sent ++ [Emit.pmb (List.replicate 5 0xFF)] ∧ u.mgt.regAddr = s.mgt.regAddr ∧ u.get GLB_IGNORED_CNT_CNT = satNat 32 (s.get
    GLB_IGNORED_CNT_CNT + 1) ∧ Silent s u ∧ Frame s u ignoredOffs) ∧
  (∀ (s : State), s.pathOpen .pmb false = true → pmbPage s ≠ 0xFF → ∃ u, exec (.mfrRegData none .good) s = .next u ∧ u.sent =
    s.sent ++ [Emit.pmb (4 :: wordBytes (regRead .pmb s.mgt.regAddr s).1)] ∧ u.mgt.regAddr = (s.mgt.regAddr + 4) % 2 ^ 32 ∧ Silent s
    u ∧ Frame s u tlmBufOffs) ∧
  (∀ (s : State), s.pathOpen .pmb false = true → ∃ u, exec (.mfrHubState) s = .next u ∧ u.sent = s.sent ++ [Emit.pmb (natBytes 2
    (wordGet (s.word ⟨.GLB_STATE, 0, 0, 0⟩) 0 6))] ∧ Silent s u ∧ Frame s u []) ∧
  (∀ (r : Fin 24) (s : State), s.pathOpen .pmb false = true → pmbPage s = r.val → s.isolated dieP = false → ∃ u, exec (.mfrPhases)
    s = .next u ∧ u.sent = s.sent ++ [Emit.pmb (natBytes 2 (s.get (PRG_RSTAT_NACT r) + 2 ^ 8 * s.get (PRG_RSTAT_NASG r)))] ∧ Silent
    s u ∧ Frame s u []) ∧
  (∀ (r : Fin 24) (s : State), s.pathOpen .pmb false = true → pmbPage s = r.val → s.isolated dieP = false → ∃ u, exec
    (.mfrTbStatus) s = .next u ∧ u.sent = s.sent ++ [Emit.pmb (natBytes 2 (wordGet (s.word ⟨.PRG_TBSTAT, r / 6, 0, 0⟩) 0 16))] ∧
    Silent s u ∧ Frame s u []) ∧
  (∀ (s : State), s.pathOpen .pmb false = true → ∃ u, exec (.mfrIgnored) s = .next u ∧ u.sent = s.sent ++ [Emit.pmb (4 :: natBytes
    4 (s.get GLB_IGNORED_CNT_CNT))] ∧ Silent s u ∧ Frame s u []) ∧
  (∀ (s : State), s.pathOpen .pmb false = true → s.alert = true → ∃ u, exec (.alertResponse) s = .next u ∧ u.sent = s.sent ++
    [Emit.pmb (natBytes 1 (2 * s.get MGT_PMB_CFG_ADDR))] ∧ Silent s u ∧ Frame s u []) ∧
  (∀ (s : State), s.pathOpen .pmb false = true → s.alert = false → ∃ u, exec (.alertResponse) s = .next u ∧ u = s) ∧
  (∀ (s : State), s.pathOpen .pmb false = true → pmbPage s = 0xFF → ∃ u, exec (.statusWord) s = .next u ∧ u.sent = s.sent ++
    [Emit.pmb ([0xFF, 0xFF])] ∧ u.get GLB_IGNORED_CNT_CNT = satNat 32 (s.get GLB_IGNORED_CNT_CNT + 1) ∧ u.get
    GLB_IGNORED_LAST_S_SOURCE = 4 ∧ Silent s u ∧ Frame s u ignoredOffs)

/-- With the port open: a write of an aligned offset and up to 16 words makes those register writes in order; a misaligned or overlong
one is an ignored action of source 5; a read answers the bytes of consecutive registers and changes none but a telemetry buffer,
zeros for a misaligned offset; a transfer with an error is discarded, counted and posts I3C_ERROR, as does an unsupported CCC. ENEC
and DISEC switch interrupts, ENTDAA and SETDASA give a port without one its dynamic address and RSTDAA takes it away, SETMWL and
SETMRL store their lengths, the GET codes answer, and an HDR entry is counted. -/
def Obligations.I3cPort : Prop :=
  (∀ (off : Word) (data : List Byte) (s : State), s.i3cOn = true → data ≠ [] → off.toNat % 4 = 0 → data.length % 4 = 0 →
    data.length ≤ 64 → ∃ u, exec (.i3cRegWrite off data false) s = .next u ∧ u.regs = (regWrites .i3c off.toNat 0 (bytesWords data)
    s).2.regs ∧ u.flash = (regWrites .i3c off.toNat 0 (bytesWords data) s).2.flash) ∧
  (∀ (off : Word) (data : List Byte) (s : State), s.i3cOn = true → data ≠ [] → off.toNat % 4 ≠ 0 ∨ data.length % 4 ≠ 0 ∨ 64 <
    data.length → ∃ u, exec (.i3cRegWrite off data false) s = .next u ∧ u.get GLB_IGNORED_CNT_CNT = satNat 32 (s.get
    GLB_IGNORED_CNT_CNT + 1) ∧ u.get GLB_IGNORED_LAST_S_SOURCE = 5 ∧ u.get GLB_IGNORED_LAST_A_ADDR = off.toNat ∧ Silent s u ∧ Frame
    s u ignoredOffs) ∧
  (∀ (off : Word) (data : List Byte) (s : State), s.i3cOn = true → ∃ u, exec (.i3cRegWrite off data true) s = .next u ∧ u.get
    MGT_I3C_STAT_ERR_CNT = satNat 8 (s.get MGT_I3C_STAT_ERR_CNT + 1) ∧ u.bit MGT_EVT_EVT 3 = true ∧ Posted s u 0x0903 0 ∧ Frame s u
    ([Fld.off MGT_I3C_STAT_ERR_CNT, Fld.off MGT_EVT_EVT] ++ eventOffs)) ∧
  (∀ (off : Word) (n : Fin 65) (s : State), s.i3cOn = true → off.toNat % 4 = 0 → ∃ u, exec (.i3cRegRead off n false) s = .next u ∧
    u.sent = s.sent ++ [Emit.i3c ((wordsBytes (regReads .i3c off.toNat ((n.val + 3) / 4) s).1).take n)] ∧ Silent s u ∧ Frame s u
    tlmBufOffs) ∧
  (∀ (off : Word) (n : Fin 65) (s : State), s.i3cOn = true → off.toNat % 4 ≠ 0 → ∃ u, exec (.i3cRegRead off n false) s = .next u ∧
    u.sent = s.sent ++ [Emit.i3c (List.replicate n 0)] ∧ Silent s u ∧ Frame s u []) ∧
  (∀ (off : Word) (n : Fin 65) (s : State), s.i3cOn = true → ∃ u, exec (.i3cRegRead off n true) s = .next u ∧ u.get
    MGT_I3C_STAT_ERR_CNT = satNat 8 (s.get MGT_I3C_STAT_ERR_CNT + 1) ∧ u.bit MGT_EVT_EVT 3 = true ∧ Posted s u 0x0903 0 ∧ Frame s u
    ([Fld.off MGT_I3C_STAT_ERR_CNT, Fld.off MGT_EVT_EVT] ++ eventOffs)) ∧
  (∀ (s : State), s.i3cOn = true → ∃ u, exec (.enec) s = .next u ∧ u.get MGT_I3C_STAT_IBI_EN = 1 ∧ u.get MGT_I3C_STAT_DADDR =
    s.get MGT_I3C_STAT_DADDR ∧ Silent s u ∧ Frame s u [Fld.off MGT_I3C_STAT_DADDR]) ∧
  (∀ (s : State), s.i3cOn = true → ∃ u, exec (.disec) s = .next u ∧ u.get MGT_I3C_STAT_IBI_EN = 0 ∧ u.get MGT_I3C_STAT_DADDR =
    s.get MGT_I3C_STAT_DADDR ∧ Silent s u ∧ Frame s u [Fld.off MGT_I3C_STAT_DADDR]) ∧
  (∀ (s : State), s.i3cOn = true → ∃ u, exec (.rstdaa) s = .next u ∧ u.get MGT_I3C_STAT_DA_VALID = 0 ∧ u.get MGT_I3C_STAT_IBI_EN =
    s.get MGT_I3C_STAT_IBI_EN ∧ Silent s u ∧ Frame s u [Fld.off MGT_I3C_STAT_DADDR]) ∧
  (∀ (a : BitVec 7) (s : State), s.i3cOn = true → s.on MGT_I3C_STAT_DA_VALID = false → ∃ u, exec (.entdaa a) s = .next u ∧ u.get
    MGT_I3C_STAT_DADDR = a.toNat ∧ u.get MGT_I3C_STAT_DA_VALID = 1 ∧ Silent s u ∧ Frame s u [Fld.off MGT_I3C_STAT_DADDR]) ∧
  (∀ (a : BitVec 7) (s : State), s.i3cOn = true → s.on MGT_I3C_STAT_DA_VALID = false → ∃ u, exec (.setdasa a) s = .next u ∧ u.get
    MGT_I3C_STAT_DADDR = a.toNat ∧ u.get MGT_I3C_STAT_DA_VALID = 1 ∧ Silent s u ∧ Frame s u [Fld.off MGT_I3C_STAT_DADDR]) ∧
  (∀ (n : BitVec 16) (s : State), s.i3cOn = true → ∃ u, exec (.setmwl n) s = .next u ∧ u.mgt.mwl = n.toNat ∧ u.mgt.mrl = s.mgt.mrl
    ∧ Silent s u ∧ Frame s u []) ∧
  (∀ (n : BitVec 16) (s : State), s.i3cOn = true → ∃ u, exec (.setmrl n) s = .next u ∧ u.mgt.mrl = n.toNat ∧ u.mgt.mwl = s.mgt.mwl
    ∧ Silent s u ∧ Frame s u []) ∧
  (∀ (s : State), s.i3cOn = true → ∃ u, exec (.getmwl) s = .next u ∧ u.sent = s.sent ++ [Emit.i3c ((natBytes 2
    (s.mgt.mwl)).reverse)] ∧ Silent s u ∧ Frame s u []) ∧
  (∀ (s : State), s.i3cOn = true → ∃ u, exec (.getmrl) s = .next u ∧ u.sent = s.sent ++ [Emit.i3c ((natBytes 2
    (s.mgt.mrl)).reverse)] ∧ Silent s u ∧ Frame s u []) ∧
  (∀ (s : State), s.i3cOn = true → ∃ u, exec (.getpid) s = .next u ∧ u.sent = s.sent ++ [Emit.i3c ((natBytes 6 (s.otpWord 3 + 2 ^
    32 * (s.otpWord 4 % 2 ^ 16))).reverse)] ∧ Silent s u ∧ Frame s u []) ∧
  (∀ (s : State), s.i3cOn = true → ∃ u, exec (.getbcr) s = .next u ∧ u.sent = s.sent ++ [Emit.i3c ((natBytes 1 (6)).reverse)] ∧
    Silent s u ∧ Frame s u []) ∧
  (∀ (s : State), s.i3cOn = true → ∃ u, exec (.getdcr) s = .next u ∧ u.sent = s.sent ++ [Emit.i3c ((natBytes 1 (0)).reverse)] ∧
    Silent s u ∧ Frame s u []) ∧
  (∀ (s : State), s.i3cOn = true → ∃ u, exec (.getstatus) s = .next u ∧ u.sent.length = s.sent.length + 1 ∧ Silent s u ∧ Frame s u
    []) ∧
  (∀ (s : State), s.i3cOn = true → ∃ u, exec (.unsupportedCcc) s = .next u ∧ u.get MGT_I3C_STAT_ERR_CNT = satNat 8 (s.get
    MGT_I3C_STAT_ERR_CNT + 1) ∧ u.bit MGT_EVT_EVT 3 = true ∧ Posted s u 0x0903 0 ∧ Frame s u ([Fld.off MGT_I3C_STAT_ERR_CNT, Fld.off
    MGT_EVT_EVT] ++ eventOffs)) ∧
  (∀ (s : State), s.i3cOn = true → ∃ u, exec (.hdrEntry) s = .next u ∧ u.get MGT_I3C_STAT_HDR_CNT = satNat 8 (s.get
    MGT_I3C_STAT_HDR_CNT + 1) ∧ u.get MGT_I3C_STAT_DADDR = s.get MGT_I3C_STAT_DADDR ∧ Silent s u ∧ Frame s u [Fld.off
    MGT_I3C_STAT_DADDR])

/-- GO of a free mailbox runs its words as a command: a bad CRC ends POISONED, a bad form IGNORED and counted, a NOP OK, each with BUSY
clear, DONE set and MBX_DONE posted. A taken POP moves the oldest record, and from a full FIFO makes room for EVT_OVERFLOW. A taken
SPI_CMD.GO is BUSY until it is done; a read fills the buffer from the flash, a program clears bits of it; a poll timeout ends it.
JTAG instructions are selected, the boundary ones as BYPASS under SCAN_LOCK; SAMPLE_PRELOAD shifts out what the pins show and loads
the cells, IDCODE answers 0x04896A3F, REG_ACCESS makes one access with status 0 or 2, or answers 3 where it is locked. In each
clause no register outside the spans it names and the event registers changes, nor does the queue. -/
def Obligations.MailboxFlashAndJtag : Prop :=
  (∀ (p : Path) (w : Word) (s : State), s.takesWrite p ⟨.MGT_MBX_CTL, 0, 0, 0⟩ (wordSet w 0 1 1) →
    ({ words := (List.range 16).map (fun i => s.word ⟨.MGT_MBX, i, 0, 0⟩) } : Cmd).crcGood = true →
    ({ words := (List.range 16).map (fun i => s.word ⟨.MGT_MBX, i, 0, 0⟩) } : Cmd).formOk (.mbx 3) = true →
    ({ words := (List.range 16).map (fun i => s.word ⟨.MGT_MBX, i, 0, 0⟩) } : Cmd).op = 0 → ∃ u, exec (.mailboxGo p w) s = .next u ∧
    u.get MGT_MBX_CTL_STATUS = stOk ∧ u.get MGT_MBX_CTL_BUSY = 0 ∧ u.get MGT_MBX_CTL_DONE = 1 ∧ u.bit MGT_EVT_EVT 4 = true ∧ Posted
    s u 0x0904 0 ∧ Frame s u ([Fld.off MGT_MBX_CTL_GO, Fld.off MGT_MBX_RES_RESULT, Fld.off MGT_EVT_EVT] ++ eventOffs)) ∧
  (∀ (p : Path) (w : Word) (s : State), s.takesWrite p ⟨.MGT_MBX_CTL, 0, 0, 0⟩ (wordSet w 0 1 1) →
    ({ words := (List.range 16).map (fun i => s.word ⟨.MGT_MBX, i, 0, 0⟩) } : Cmd).crcGood = false → ∃ u, exec (.mailboxGo p w) s =
    .next u ∧ u.get MGT_MBX_CTL_STATUS = stPoisoned ∧ u.get MGT_MBX_CTL_BUSY = 0 ∧ u.get MGT_MBX_CTL_DONE = 1 ∧ u.bit MGT_EVT_EVT 4
    = true ∧ Posted s u 0x0904 0 ∧ Frame s u ([Fld.off MGT_MBX_CTL_GO, Fld.off MGT_MBX_RES_RESULT, Fld.off MGT_EVT_EVT] ++
    eventOffs)) ∧
  (∀ (p : Path) (w : Word) (s : State), s.takesWrite p ⟨.MGT_MBX_CTL, 0, 0, 0⟩ (wordSet w 0 1 1) →
    ({ words := (List.range 16).map (fun i => s.word ⟨.MGT_MBX, i, 0, 0⟩) } : Cmd).crcGood = true →
    ({ words := (List.range 16).map (fun i => s.word ⟨.MGT_MBX, i, 0, 0⟩) } : Cmd).formOk (.mbx 3) = false → ∃ u, exec (.mailboxGo p
    w) s = .next u ∧ u.get MGT_MBX_CTL_STATUS = stIgnored ∧ u.get GLB_IGNORED_CNT_CNT = satNat 32 (s.get GLB_IGNORED_CNT_CNT + 1) ∧
    u.get GLB_IGNORED_LAST_S_SOURCE = 7 ∧ u.get MGT_MBX_CTL_BUSY = 0 ∧ u.get MGT_MBX_CTL_DONE = 1 ∧ u.bit MGT_EVT_EVT 4 = true ∧
    Posted s u 0x0904 0 ∧ Within s u (spanGlb ++ spanMgt)) ∧
  (∀ (p : Path) (w : Word) (e : EvtRec) (l : List EvtRec) (s : State), s.takesWrite p ⟨.MGT_EV, 0, 0, 0⟩ (wordSet w 0 1 1) →
    s.evtFifo = e :: l → s.evtFull = false → ∃ u, exec (.eventPop p w) s = .next u ∧ u.evtFifo = l ∧ u.evtSeq = s.evtSeq ∧ u.get
    MGT_EV_VALID = 1 ∧ u.get (MGT_EV_DATA_WORD 1) = e.seq % 2 ^ 32 ∧ s.rstate ≠ rsRunning ∧ Within s u (spanGlb ++ spanMgt)) ∧
  (∀ (p : Path) (w : Word) (e : EvtRec) (l : List EvtRec) (s : State), s.takesWrite p ⟨.MGT_EV, 0, 0, 0⟩ (wordSet w 0 1 1) →
    s.evtFifo = e :: l → s.evtFull = true → l.length < evtCapacity → ∃ u, exec (.eventPop p w) s = .next u ∧ u.evtFull = false ∧
    (u.evtFifo.getLast?.map (fun r => (r.code, r.seq))) = some (0x0002, s.evtSeq + 1) ∧ u.get MGT_EV_VALID = 1 ∧ u.get
    (MGT_EV_DATA_WORD 1) = e.seq % 2 ^ 32 ∧ Within s u (spanGlb ++ spanMgt)) ∧
  (∀ (p : Path) (w : Word) (s : State), s.takesWrite p ⟨.MGT_EV, 0, 0, 0⟩ (wordSet w 0 1 1) → s.evtFifo = [] → ∃ u, exec
    (.eventPop p w) s = .next u ∧ u.get MGT_EV_VALID = 0 ∧ Silent s u ∧ Within s u (spanGlb ++ spanMgt)) ∧
  (∀ (p : Path) (w : Word) (s : State), s.takesWrite p ⟨.MGT_SPI_CMD, 0, 0, 0⟩ (wordSet w 31 1 1) → ∃ u, exec (.spiCommand p w) s
    = .next u ∧ u.get MGT_SPI_STAT_BUSY = 1 ∧ u.mgt.spi = some (wordGet w 0 8, s.spiAddr (s.get MGT_SPI_ADDR_ADDR), wordGet w 8 9) ∧
    Silent s u ∧ Frame s u [Fld.off MGT_SPI_CMD_OP, Fld.off MGT_SPI_STAT_BUSY]) ∧
  (∀ (status : Byte) (op a len : Nat) (s : State), s.mgt.spi = some (op, a, len) → spiRead op = true → 4 ≤ len → len ≤ 256 → ∃ u,
    exec (.spiCommandDone status) s = .next u ∧ u.get MGT_SPI_STAT_BUSY = 0 ∧ u.get MGT_SPI_STAT_RESULT = 0 ∧ u.get
    (MGT_SPI_BUF_DATA 0) = leNat (s.storeBytes a 4) ∧ u.flash = s.flash ∧ u.mgt.spi = none ∧ Silent s u ∧ Within s u (spanGlb ++
    spanMgt)) ∧
  (∀ (status : Byte) (op a len : Nat) (s : State), s.mgt.spi = some (op, a, len) → spiRead op = false → spiProgram op = true → ∃
    u, exec (.spiCommandDone status) s = .next u ∧ u.get MGT_SPI_STAT_BUSY = 0 ∧ u.get MGT_SPI_STAT_RESULT = 0 ∧ u.flash =
    (flashProgram a (s.bufBytes len) s).flash ∧ u.mgt.spi = none ∧ Silent s u ∧ RegsWithin s u (spanGlb ++ spanMgt) ∧ u.pending =
    s.pending ∧ u.otp.fuse = s.otp.fuse) ∧
  (∀ (status : Byte) (s : State), s.mgt.spi = none → ∃ u, exec (.spiCommandDone status) s = .next u ∧ u = s) ∧
  (∀ (s : State), s.mgt.spi ≠ none → ∃ u, exec (.spiPollTimeout) s = .next u ∧ u.get MGT_SPI_STAT_BUSY = 0 ∧ u.get
    MGT_SPI_STAT_RESULT = 2 ∧ u.mgt.spi = none ∧ Silent s u ∧ Frame s u [Fld.off MGT_SPI_STAT_BUSY]) ∧
  (∀ (s : State), s.mgt.spi = none → ∃ u, exec (.spiPollTimeout) s = .next u ∧ u = s) ∧
  (∀ (s : State), s.jtagOn = true → s.debugLock 2 = false → ∃ u, exec (.extest) s = .next u ∧ u.mgt.ir = 0x00 ∧ u.mgt.cells =
    s.mgt.cells ∧ Silent s u ∧ Frame s u []) ∧
  (∀ (s : State), s.jtagOn = true → s.debugLock 2 = false → ∃ u, exec (.clamp) s = .next u ∧ u.mgt.ir = 0x04 ∧ u.mgt.cells =
    s.mgt.cells ∧ Silent s u ∧ Frame s u []) ∧
  (∀ (s : State), s.jtagOn = true → s.debugLock 2 = false → ∃ u, exec (.highz) s = .next u ∧ u.mgt.ir = 0x05 ∧ u.mgt.cells =
    s.mgt.cells ∧ Silent s u ∧ Frame s u []) ∧
  (∀ (s : State), s.jtagOn = true → ∃ u, exec (.bypass) s = .next u ∧ u.mgt.ir = 0xFF ∧ u.mgt.cells = s.mgt.cells ∧ Silent s u ∧
    Frame s u []) ∧
  (∀ (s : State), s.jtagOn = true → ∃ u, exec (.jtagReset) s = .next u ∧ u.mgt.ir = 0x01 ∧ u.mgt.cells = s.mgt.cells ∧ Silent s u
    ∧ Frame s u []) ∧
  (∀ (s : State), s.jtagOn = true → s.debugLock 2 = true → ∃ u, exec (.extest) s = .next u ∧ u.mgt.ir = 0xFF ∧ u.mgt.cells =
    s.mgt.cells ∧ Silent s u ∧ Frame s u []) ∧
  (∀ (s : State), s.jtagOn = true → ∃ u, exec (.idcode) s = .next u ∧ u.mgt.ir = 0x01 ∧ u.sent = s.sent ++ [Emit.jtag 0x04896A3F]
    ∧ Silent s u ∧ Frame s u []) ∧
  (∀ (v oe : BitVec 68) (ins : BitVec 3) (step : BitVec 48) (zc : BitVec 96) (s : State), s.jtagOn = true → s.debugLock 2 = false
    → ∃ u, exec (.samplePreload v oe ins step zc) s = .next u ∧ u.mgt.ir = 0x02 ∧ u.mgt.cells = v.toNat ∧ u.mgt.cellsOe = oe.toNat ∧
    ((loadIr 0x02 true s).chgGates = false → u.sent = s.sent ++ [Emit.jtag ((loadIr 0x02 true s).boundary ins.toNat 0 step.toNat
    zc.toNat)]) ∧ Silent s u ∧ Frame s u []) ∧
  (∀ (wr : Bool) (off : BitVec 20) (data : Word) (s : State), s.jtagOn = true → s.isolated dieC = false → s.active = true →
    s.debugLock (if wr then 1 else 0) = true → ∃ u, exec (.regAccess wr off data) s = .next u ∧ u.mgt.jtagStatus = 3 ∧ Silent s u ∧
    Frame s u []) ∧
  (∀ (off : BitVec 20) (data : Word) (s : State), s.jtagOn = true → s.isolated dieC = false → s.active = false ∨ s.debugLock 0 =
    false → ∃ u, exec (.regAccess false off data) s = .next u ∧ u.mgt.jtagStatus = 0 ∧ u.mgt.jtagData = (regRead .jtag off.toNat
    s).1.toNat ∧ u.mgt.ir = 0x20 ∧ Silent s u ∧ Frame s u tlmBufOffs) ∧
  (∀ (off : BitVec 20) (data : Word) (s : State), s.jtagOn = true → s.isolated dieC = false → s.active = false ∨ s.debugLock 1 =
    false → ∃ u, exec (.regAccess true off data) s = .next u ∧ u.mgt.jtagStatus = (if (regWrite .jtag off.toNat data s).1 = .ignored
    then 2 else 0) ∧ u.regs = (regWrite .jtag off.toNat data s).2.regs)

/-- On a path that is carried, a write without all four byte enables, one whose offset names no register, one outside the path's reach,
and one that breaks a legal value, an order, state or owner rule are ignored actions: the count goes up, the address and source are
recorded, nothing else changes. A whole write of a register on an isolated die leaves the state as it is. A taken write of a
register that sets nothing off stores its writable fields and changes nothing else. A path that is closed changes nothing (the
model's reading, as NOTES.md says). -/
def Obligations.RegisterWrites : Prop :=
  (∀ (p : Path) (off : BitVec 20) (be : BitVec 4) (val : Word) (s : State), s.pathOpen p true = true → be ≠ 15 → ∃ u, exec
    (.registerWrite p off be val) s = .next u ∧ u.get GLB_IGNORED_CNT_CNT = satNat 32 (s.get GLB_IGNORED_CNT_CNT + 1) ∧ u.get
    GLB_IGNORED_LAST_A_ADDR = off.toNat ∧ u.get GLB_IGNORED_LAST_S_SOURCE = Machine.Path.source p ∧ u.get GLB_IGNORED_LAST_S_DETAIL
    = Machine.Path.detail p ∧ Silent s u ∧ Frame s u ignoredOffs) ∧
  (∀ (p : Path) (off : BitVec 20) (val : Word) (s : State), s.pathOpen p true = true → Reg.ofOff off.toNat = none → ∃ u, exec
    (.registerWrite p off 15 val) s = .next u ∧ u.get GLB_IGNORED_CNT_CNT = satNat 32 (s.get GLB_IGNORED_CNT_CNT + 1) ∧ u.get
    GLB_IGNORED_LAST_A_ADDR = off.toNat ∧ u.get GLB_IGNORED_LAST_S_SOURCE = Machine.Path.source p ∧ u.get GLB_IGNORED_LAST_S_DETAIL
    = Machine.Path.detail p ∧ Silent s u ∧ Frame s u ignoredOffs) ∧
  (∀ (p : Path) (off : BitVec 20) (val : Word) (s : State), s.pathOpen p true = true → s.reaches p off.toNat val = false → ∃ u,
    exec (.registerWrite p off 15 val) s = .next u ∧ u.get GLB_IGNORED_CNT_CNT = satNat 32 (s.get GLB_IGNORED_CNT_CNT + 1) ∧ u.get
    GLB_IGNORED_LAST_A_ADDR = off.toNat ∧ u.get GLB_IGNORED_LAST_S_SOURCE = Machine.Path.source p ∧ u.get GLB_IGNORED_LAST_S_DETAIL
    = Machine.Path.detail p ∧ Silent s u ∧ Frame s u ignoredOffs) ∧
  (∀ (p : Path) (r : Reg) (val : Word) (s : State), s.pathOpen p true = true → s.reaches p r.off val = true → Reg.ofOff r.off =
    some r → s.isolated (dieOfOff r.off) = false → s.accepts p r val = false → r.name ≠ .MGT_SPI_CMD → ∃ u, exec (.registerWrite p
    (BitVec.ofNat 20 r.off) 15 val) s = .next u ∧ u.get GLB_IGNORED_CNT_CNT = satNat 32 (s.get GLB_IGNORED_CNT_CNT + 1) ∧ u.get
    GLB_IGNORED_LAST_A_ADDR = r.off ∧ u.get GLB_IGNORED_LAST_S_SOURCE = Machine.Path.source p ∧ u.get GLB_IGNORED_LAST_S_DETAIL =
    Machine.Path.detail p ∧ Silent s u ∧ Frame s u ignoredOffs) ∧
  (∀ (p : Path) (r : Reg) (val : Word) (s : State), s.pathOpen p true = true → s.reaches p r.off val = true → Reg.ofOff r.off =
    some r → s.isolated (dieOfOff r.off) = true → ∃ u, exec (.registerWrite p (BitVec.ofNat 20 r.off) 15 val) s = .next u ∧ u = s) ∧
  (∀ (p : Path) (r : Reg) (val : Word) (s : State), s.pathOpen p true = true → s.reaches p r.off val = true → Reg.ofOff r.off =
    some r → s.isolated (dieOfOff r.off) = false → s.accepts p r val = true → r.name ∈ [RegName.MON_ACCEPT, .MON_REJECT, .MON_QUAL,
    .TRG_LOCK, .FLT_OC, .FLT_OT, .LNK_PRIO, .LNK_BUDGET, .KLN_SCR] → ∃ u, exec (.registerWrite p (BitVec.ofNat 20 r.off) 15 val) s =
    .next u ∧ u.word r = r.stored val (s.word r) ∧ Silent s u ∧ Frame s u [r.off]) ∧
  (∀ (p : Path) (off : BitVec 20) (be : BitVec 4) (val : Word) (s : State), s.pathOpen p true = false → ∃ u, exec (.registerWrite
    p off be val) s = .next u ∧ u = s)

/-- A write to MON_CFG[m] that leaves EN at 1 and changes FORMAT, TERM, AC, SE_THR or HYST is an ignored action, and so is a write of
either word of the nominal frequency while EN is 1, and one that would make the nominal frequency 0 Hz or more than 1.25 GHz. With
EN 0, a legal write of MON_CFG, with EN set in the same write or not, and a legal write of a nominal word, within the reach of its
path, take effect. In each clause no register outside those it names and the event registers changes, nor do the flash, the fuses or
the queue. -/
def Obligations.MonitorSettingsAreFixedWhileEnabled : Prop :=
  (∀ (p : Path) (m : Fin 16) (w : Word) (s : State), s.pathOpen p true = true → s.isolated (dieOfOff (Reg.off ⟨.MON_CFG, m, 0,
    0⟩)) = false → s.get (MON_CFG_EN m) = 1 → (MON_CFG_EN m).of w = 1 → (MON_CFG_FORMAT m).of w ≠ s.get (MON_CFG_FORMAT m) ∨
    (MON_CFG_TERM m).of w ≠ s.get (MON_CFG_TERM m) ∨ (MON_CFG_AC m).of w ≠ s.get (MON_CFG_AC m) ∨ (MON_CFG_SE_THR m).of w ≠ s.get
    (MON_CFG_SE_THR m) ∨ (MON_CFG_HYST m).of w ≠ s.get (MON_CFG_HYST m) → ∃ u, exec (.registerWrite p (BitVec.ofNat 20 (Reg.off
    ⟨.MON_CFG, m, 0, 0⟩)) 15 w) s = .next u ∧ u.get GLB_IGNORED_CNT_CNT = satNat 32 (s.get GLB_IGNORED_CNT_CNT + 1) ∧ u.get
    GLB_IGNORED_LAST_A_ADDR = (Reg.off ⟨.MON_CFG, m, 0, 0⟩) ∧ u.get GLB_IGNORED_LAST_S_SOURCE = Machine.Path.source p ∧ u.get
    GLB_IGNORED_LAST_S_DETAIL = Machine.Path.detail p ∧ Silent s u ∧ Frame s u ignoredOffs) ∧
  (∀ (p : Path) (m : Fin 16) (w : Word) (s : State), s.pathOpen p true = true → s.isolated (dieOfOff (Reg.off ⟨.MON_FNOM_INT, m,
    0, 0⟩)) = false → s.get (MON_CFG_EN m) = 1 → ∃ u, exec (.registerWrite p (BitVec.ofNat 20 (Reg.off ⟨.MON_FNOM_INT, m, 0, 0⟩)) 15
    w) s = .next u ∧ u.get GLB_IGNORED_CNT_CNT = satNat 32 (s.get GLB_IGNORED_CNT_CNT + 1) ∧ u.get GLB_IGNORED_LAST_A_ADDR =
    (Reg.off ⟨.MON_FNOM_INT, m, 0, 0⟩) ∧ u.get GLB_IGNORED_LAST_S_SOURCE = Machine.Path.source p ∧ u.get GLB_IGNORED_LAST_S_DETAIL =
    Machine.Path.detail p ∧ Silent s u ∧ Frame s u ignoredOffs) ∧
  (∀ (p : Path) (m : Fin 16) (w : Word) (s : State), s.pathOpen p true = true → s.isolated (dieOfOff (Reg.off ⟨.MON_FNOM_FRAC, m,
    0, 0⟩)) = false → s.get (MON_CFG_EN m) = 1 → ∃ u, exec (.registerWrite p (BitVec.ofNat 20 (Reg.off ⟨.MON_FNOM_FRAC, m, 0, 0⟩))
    15 w) s = .next u ∧ u.get GLB_IGNORED_CNT_CNT = satNat 32 (s.get GLB_IGNORED_CNT_CNT + 1) ∧ u.get GLB_IGNORED_LAST_A_ADDR =
    (Reg.off ⟨.MON_FNOM_FRAC, m, 0, 0⟩) ∧ u.get GLB_IGNORED_LAST_S_SOURCE = Machine.Path.source p ∧ u.get GLB_IGNORED_LAST_S_DETAIL
    = Machine.Path.detail p ∧ Silent s u ∧ Frame s u ignoredOffs) ∧
  (∀ (p : Path) (m : Fin 16) (w : Word) (s : State), s.pathOpen p true = true → s.isolated (dieOfOff (Reg.off ⟨.MON_FNOM_INT, m,
    0, 0⟩)) = false → w.toNat * 2 ^ 16 + s.get (MON_FNOM_FRAC_FNOM_FRAC m) = 0 ∨ 1250000000 * 2 ^ 16 < w.toNat * 2 ^ 16 + s.get
    (MON_FNOM_FRAC_FNOM_FRAC m) → ∃ u, exec (.registerWrite p (BitVec.ofNat 20 (Reg.off ⟨.MON_FNOM_INT, m, 0, 0⟩)) 15 w) s = .next u
    ∧ u.get GLB_IGNORED_CNT_CNT = satNat 32 (s.get GLB_IGNORED_CNT_CNT + 1) ∧ u.get GLB_IGNORED_LAST_A_ADDR = (Reg.off
    ⟨.MON_FNOM_INT, m, 0, 0⟩) ∧ u.get GLB_IGNORED_LAST_S_SOURCE = Machine.Path.source p ∧ u.get GLB_IGNORED_LAST_S_DETAIL =
    Machine.Path.detail p ∧ Silent s u ∧ Frame s u ignoredOffs) ∧
  (∀ (p : Path) (m : Fin 16) (w : Word) (s : State), s.pathOpen p true = true → s.isolated (dieOfOff (Reg.off ⟨.MON_FNOM_FRAC, m,
    0, 0⟩)) = false → s.get (MON_FNOM_INT_FNOM_INT m) * 2 ^ 16 + wordGet w 0 16 = 0 ∨ 1250000000 * 2 ^ 16 < s.get
    (MON_FNOM_INT_FNOM_INT m) * 2 ^ 16 + wordGet w 0 16 → ∃ u, exec (.registerWrite p (BitVec.ofNat 20 (Reg.off ⟨.MON_FNOM_FRAC, m,
    0, 0⟩)) 15 w) s = .next u ∧ u.get GLB_IGNORED_CNT_CNT = satNat 32 (s.get GLB_IGNORED_CNT_CNT + 1) ∧ u.get
    GLB_IGNORED_LAST_A_ADDR = (Reg.off ⟨.MON_FNOM_FRAC, m, 0, 0⟩) ∧ u.get GLB_IGNORED_LAST_S_SOURCE = Machine.Path.source p ∧ u.get
    GLB_IGNORED_LAST_S_DETAIL = Machine.Path.detail p ∧ Silent s u ∧ Frame s u ignoredOffs) ∧
  (∀ (p : Path) (m : Fin 16) (w : Word) (s : State), s.pathOpen p true = true → s.isolated (dieOfOff (Reg.off ⟨.MON_CFG, m, 0,
    0⟩)) = false → s.reaches p (Reg.off ⟨.MON_CFG, m, 0, 0⟩) w = true → s.get (MON_CFG_EN m) = 0 → Reg.legalWord ⟨.MON_CFG, m, 0, 0⟩
    w = true → ∃ u, exec (.registerWrite p (BitVec.ofNat 20 (Reg.off ⟨.MON_CFG, m, 0, 0⟩)) 15 w) s = .next u ∧ u.get (MON_CFG_EN m)
    = (MON_CFG_EN m).of w ∧ u.get (MON_CFG_FORMAT m) = (MON_CFG_FORMAT m).of w ∧ u.get (MON_CFG_TERM m) = (MON_CFG_TERM m).of w ∧
    u.get (MON_CFG_AC m) = (MON_CFG_AC m).of w ∧ u.get (MON_CFG_SE_THR m) = (MON_CFG_SE_THR m).of w ∧ u.get (MON_CFG_HYST m) =
    (MON_CFG_HYST m).of w ∧ Within s u spanPlz) ∧
  (∀ (p : Path) (m : Fin 16) (w : Word) (s : State), s.pathOpen p true = true → s.isolated (dieOfOff (Reg.off ⟨.MON_FNOM_INT, m,
    0, 0⟩)) = false → s.reaches p (Reg.off ⟨.MON_FNOM_INT, m, 0, 0⟩) w = true → s.get (MON_CFG_EN m) = 0 → 0 < w.toNat → w.toNat <
    1250000000 → ∃ u, exec (.registerWrite p (BitVec.ofNat 20 (Reg.off ⟨.MON_FNOM_INT, m, 0, 0⟩)) 15 w) s = .next u ∧ u.get
    (MON_FNOM_INT_FNOM_INT m) = w.toNat ∧ Within s u spanPlz) ∧
  (∀ (p : Path) (m : Fin 16) (w : Word) (s : State), s.pathOpen p true = true → s.isolated (dieOfOff (Reg.off ⟨.MON_FNOM_FRAC, m,
    0, 0⟩)) = false → s.reaches p (Reg.off ⟨.MON_FNOM_FRAC, m, 0, 0⟩) w = true → s.get (MON_CFG_EN m) = 0 → w.toNat < 2 ^ 16 → 0 <
    s.get (MON_FNOM_INT_FNOM_INT m) → s.get (MON_FNOM_INT_FNOM_INT m) < 1250000000 → ∃ u, exec (.registerWrite p (BitVec.ofNat 20
    (Reg.off ⟨.MON_FNOM_FRAC, m, 0, 0⟩)) 15 w) s = .next u ∧ u.get (MON_FNOM_FRAC_FNOM_FRAC m) = w.toNat ∧ Within s u spanPlz)

/-- A write of 0x5EED to HOST_RESYNC that is carried, from a port that may resynchronise, and SYNC_STATE from the ring enter STOPPING:
no doorbell is read and no completion waits; any other value is an ignored action. Neither they, nor the end of the drain, nor the
summary change any register outside the HOST and DMA blocks (but for the event FIFO's own), or anything the timing, power, fault,
link and engine functions hold. -/
def Obligations.ResynchronisationStopsOnlyTheHostPort : Prop :=
  (∀ (p : Path) (w : Word) (s : State), s.pathOpen p true = true → s.reaches p (Reg.off ⟨.HOST_RESYNC, 0, 0, 0⟩) w = true →
    s.isolated dieC = false → wordGet w 0 16 = 0x5EED → s.resyncOk = true → Reg.legalWord ⟨.HOST_RESYNC, 0, 0, 0⟩ w = true → ∃ u,
    exec (.hostResync p w) s = .next u ∧ u.rstate = rsStopping ∧ u.host.reading = false ∧ u.host.cplQ = [] ∧ (∀ q : Reg,
    namesHOST.contains q.name = false → namesDMA.contains q.name = false → q.off ∉ eventOffs → u.word q = s.word q) ∧ u.mon = s.mon
    ∧ u.trg = s.trg ∧ u.wheel = s.wheel ∧ u.syn = s.syn ∧ u.out = s.out ∧ u.rail = s.rail ∧ u.prg = s.prg ∧ u.pin = s.pin ∧ u.seq =
    s.seq ∧ u.lnk = s.lnk ∧ u.rxq = s.rxq ∧ u.img = s.img ∧ u.wdg = s.wdg ∧ u.pkg_ = s.pkg_ ∧ u.flash = s.flash) ∧
  (∀ (p : Path) (w : Word) (s : State), s.pathOpen p true = true → s.isolated dieC = false → wordGet w 0 16 ≠ 0x5EED → ∃ u, exec
    (.hostResync p w) s = .next u ∧ u.get GLB_IGNORED_CNT_CNT = satNat 32 (s.get GLB_IGNORED_CNT_CNT + 1) ∧ u.get
    GLB_IGNORED_LAST_A_ADDR = (Reg.off ⟨.HOST_RESYNC, 0, 0, 0⟩) ∧ u.get GLB_IGNORED_LAST_S_SOURCE = Machine.Path.source p ∧ u.get
    GLB_IGNORED_LAST_S_DETAIL = Machine.Path.detail p ∧ Silent s u ∧ Frame s u ignoredOffs) ∧
  (∀ (s : State), s.takesCmd .ring = true → ∃ u, exec (.syncState .ring) s = .next u ∧ u.rstate = rsStopping ∧ u.host.reading =
    false ∧ u.host.cplQ = [] ∧ u.host.lastStatus = stOk ∧ (∀ q : Reg, namesHOST.contains q.name = false → namesDMA.contains q.name =
    false → q.off ∉ eventOffs → u.word q = s.word q) ∧ u.mon = s.mon ∧ u.trg = s.trg ∧ u.wheel = s.wheel ∧ u.syn = s.syn ∧ u.out =
    s.out ∧ u.rail = s.rail ∧ u.prg = s.prg ∧ u.pin = s.pin ∧ u.seq = s.seq ∧ u.lnk = s.lnk ∧ u.rxq = s.rxq ∧ u.img = s.img ∧ u.wdg
    = s.wdg ∧ u.pkg_ = s.pkg_ ∧ u.flash = s.flash) ∧
  (∀ (s : State), ∃ u, exec (.resyncDrained) s = .next u ∧ (∀ q : Reg, namesHOST.contains q.name = false → namesDMA.contains
    q.name = false → q.off ∉ eventOffs → u.word q = s.word q) ∧ u.mon = s.mon ∧ u.trg = s.trg ∧ u.wheel = s.wheel ∧ u.syn = s.syn ∧
    u.out = s.out ∧ u.rail = s.rail ∧ u.prg = s.prg ∧ u.pin = s.pin ∧ u.seq = s.seq ∧ u.lnk = s.lnk ∧ u.rxq = s.rxq ∧ u.img = s.img
    ∧ u.wdg = s.wdg ∧ u.pkg_ = s.pkg_ ∧ u.flash = s.flash) ∧
  (∀ (fault : Option (BitVec 13)) (s : State), ∃ u, exec (.summaryDone fault none) s = .next u ∧ (∀ q : Reg, namesHOST.contains
    q.name = false → namesDMA.contains q.name = false → q.off ∉ eventOffs → u.word q = s.word q) ∧ u.mon = s.mon ∧ u.trg = s.trg ∧
    u.wheel = s.wheel ∧ u.syn = s.syn ∧ u.out = s.out ∧ u.rail = s.rail ∧ u.prg = s.prg ∧ u.pin = s.pin ∧ u.seq = s.seq ∧ u.lnk =
    s.lnk ∧ u.rxq = s.rxq ∧ u.img = s.img ∧ u.wdg = s.wdg ∧ u.pkg_ = s.pkg_ ∧ u.flash = s.flash) ∧
  (∀ (fault : Option (BitVec 13)) (d : BitVec 11) (s : State), ∃ u, exec (.summaryDone fault (some d)) s = .next u ∧ (∀ q : Reg,
    namesHOST.contains q.name = false → namesDMA.contains q.name = false → q.off ∉ eventOffs → u.word q = s.word q) ∧ u.mon = s.mon
    ∧ u.trg = s.trg ∧ u.wheel = s.wheel ∧ u.syn = s.syn ∧ u.out = s.out ∧ u.rail = s.rail ∧ u.prg = s.prg ∧ u.pin = s.pin ∧ u.seq =
    s.seq ∧ u.lnk = s.lnk ∧ u.rxq = s.rxq ∧ u.img = s.img ∧ u.wdg = s.wdg ∧ u.flash = s.flash)

/-- A hub that takes its uplink offer at the end of the listen period, and a port that receives an offer, show ACC_LAT = offer ACC_LAT +
LNK_DLY rounded up to 0.1 ns + 160 ns, ACC_PH = offer ACC_PH + 30 ps + ASYM_UNC and HOPS = offer HOPS + 1, where these fit their
registers. ACC_LAT counts 0.1 ns, so 160 ns is 1,600. In each clause no register outside those it names and the event registers
changes, nor do the flash, the fuses or the queue. -/
def Obligations.ValuesThroughTheUplinkOffer : Prop :=
  (∀ (k : Fin 4) (o : Offer) (s : State), s.sysState = sysListening → s.bestOffer = some (k.val, o) → s.on LNK_SYS_CTL_CAND =
    false → o.lat + (s.get (LNK_DLY_D_IN k) + 99) / 100 + 1600 < 2 ^ 32 → o.ph + 30 + s.get (LNK_ASYM_ASYM_UNC k) * 2 < 2 ^ 16 →
    o.hops + 1 < 2 ^ 16 → ∃ u, exec (.listenEnd) s = .next u ∧ u.get LNK_ACC_LAT_ACC_LAT = o.lat + (s.get (LNK_DLY_D_IN k) + 99) /
    100 + 1600 ∧ u.get LNK_ACC_PH_ACC_PH = o.ph + 30 + s.get (LNK_ASYM_ASYM_UNC k) * 2 ∧ u.get LNK_SYS_STAT_HOPS = o.hops + 1 ∧
    Within s u (spanPlz ++ spanLnk)) ∧
  (∀ (k : Fin 4) (gm : BitVec 64) (prio1 prio2 : Byte) (cls : BitVec 2) (seq hops : BitVec 16) (lat : Word) (ph blat bph : BitVec
    16) (s : State), s.portUp k = true → s.sysState = sysDetached ∨ s.sysState = sysListening → lat.toNat + (s.get (LNK_DLY_D_IN k)
    + 99) / 100 + 1600 < 2 ^ 32 → ph.toNat + 30 + s.get (LNK_ASYM_ASYM_UNC k) * 2 < 2 ^ 16 → hops.toNat + 1 < 2 ^ 16 → ∃ u, exec
    (.announceRx k gm prio1 prio2 cls false false seq hops lat ph blat bph) s = .next u ∧ u.get (LNK_OFR_LAT_ACC_LAT k) = lat.toNat
    + (s.get (LNK_DLY_D_IN k) + 99) / 100 + 1600 ∧ u.get (LNK_OFR_PH_ACC_PH k) = ph.toNat + 30 + s.get (LNK_ASYM_ASYM_UNC k) * 2 ∧
    u.get (LNK_OFR_PH_HOPS k) = hops.toNat + 1 ∧ Within s u (spanPlz ++ spanLnk))

/-- For every register and each of its fields, an applied write stores a read-write field as written, leaves a read-only field as it
was, and clears exactly those bits of a write-one-to-clear field that are written 1. -/
def Obligations.AccessCodesOfFields : Prop :=
  (∀ (r : Reg) (f : FieldSpec) (new old : Word), f ∈ r.fields → (f.acc = .rw ∨ f.acc = .rwl) →
    wordGet (r.stored new old) f.lo f.w = wordGet new f.lo f.w) ∧
  (∀ (r : Reg) (f : FieldSpec) (new old : Word), f ∈ r.fields → (f.acc = .ro ∨ f.acc = .wo) →
    wordGet (r.stored new old) f.lo f.w = wordGet old f.lo f.w) ∧
  (∀ (r : Reg) (f : FieldSpec) (new old : Word) (i : Nat), f ∈ r.fields → f.acc = .w1c → i < f.w →
    bitOf (wordGet (r.stored new old) f.lo f.w) i = (bitOf (wordGet old f.lo f.w) i && !bitOf (wordGet new f.lo f.w) i))

/-- Step of a state whose queue begins with c is exec of c on that state with the queue's rest. On an empty queue a step advances
GLB_TIMER by one microsecond outside OFF and KEEP while the main LO runs, modulo 2^48, and leaves the queue empty; that an idle step
is a microsecond is the model's choice (log entry 9). -/
def Obligations.AStepRunsTheFrontCommand : Prop :=
  (∀ (c : Instr) (rest : List Instr) (s : State), s.pending = c :: rest → step s = exec c { s with pending := rest }) ∧
  (∀ s : State, s.pending = [] → s.pkg ≠ pkgOff → s.pkg ≠ pkgKeep → s.pkg_.loRuns = true → ∃ u, step s = .next u ∧ u.pending = [] ∧
    u.getWide GLB_TIMER_LO_US GLB_TIMER_HI_US = (s.getWide GLB_TIMER_LO_US GLB_TIMER_HI_US + 1) % 2 ^ 48)

/-- State.reset satisfies the invariant, its queue, event FIFO and flash list are empty, it is in BOOT, and registers of every block
hold the reset value their table gives. That the state after reset is in BOOT follows the transition table; the shipped fuses are
the model's choice (log entry 7). -/
def Obligations.ResetLeavesTheStatedValues : Prop :=
  State.reset.Canon ∧ State.reset.pending = [] ∧ State.reset.pkg = pkgBoot ∧ State.reset.evtFifo = [] ∧ State.reset.flash = [] ∧
    (∀ r : Reg, State.reset.word r = r.reset) ∧
    (∀ m : Fin 16, State.reset.get (MON_ACCEPT_ACCEPT m) = 900 ∧ State.reset.get (MON_STAT_STATE m) = monOff) ∧
    (∀ n : Fin 48, State.reset.get (OUT_CTL_EN n) = 0) ∧ (∀ ch : Fin 32, State.reset.word ⟨.DMA_CCTL, ch, 0, 0⟩ = 0x06001006)

/-- For every command and state exec answers a next state whose queue is that of the state: no command faults or refuses, and none adds
to or takes from the commands that wait. -/
def Obligations.EveryCommandAnswers : Prop :=
  ∀ (c : Instr) (s : State), ∃ u, exec c s = .next u ∧ u.pending = s.pending

/-- From every state whose register file lists registers in order, each once and none at its reset value, and whose flash lists
addresses strictly rising and no erased byte, every step leads to such a state: whatever runs, equal contents stay equal data. -/
def Obligations.EveryStepKeepsTheCanonicalForms : Prop :=
  ∀ s t : State, s.Canon → step s = .next t → t.Canon
end

