-- ==== Sys2Proof/Laws/Reg.lean ====
section
/-! SUPPORT. Sys2Proof/Laws/Reg.lean: the register file: a field read after a field written, other registers, and the canonical
form that every store keeps. -/

namespace Sys2Proof.Machine

/-! ### Fields of a word -/

theorem wordGet_lt (w : Word) (lo n : Nat) : wordGet w lo n < 2 ^ n := Nat.mod_lt _ (Nat.two_pow_pos n)

/-- A bit of a field's value is the word's bit that many places above the field's first. -/
theorem wordGet_bit (w : Word) (lo n i : Nat) : (wordGet w lo n).testBit i = (decide (i < n) && w.toNat.testBit (lo + i)) := by
  simp [wordGet, Nat.testBit_mod_two_pow, Nat.testBit_div_two_pow, Nat.add_comm]

/-- A bit of a word with a field replaced: the value's within the field, the old word's on either side. -/
theorem wordSet_bit (w : Word) (lo n v i : Nat) (h : lo + n ≤ 32) :
    (wordSet w lo n v).toNat.testBit i = if lo ≤ i ∧ i < lo + n then v.testBit (i - lo) else w.toNat.testBit i := by
  have parts : w.toNat / 2 ^ (lo + n) * 2 ^ (lo + n) + v % 2 ^ n * 2 ^ lo + w.toNat % 2 ^ lo
      = 2 ^ lo * (2 ^ n * (w.toNat / 2 ^ (lo + n)) + v % 2 ^ n) + w.toNat % 2 ^ lo := by ring
  unfold wordSet
  rw [BitVec.toNat_ofNat, Nat.testBit_mod_two_pow, parts, Nat.testBit_two_pow_mul_add _ (Nat.mod_lt _ (Nat.two_pow_pos lo)),
    Nat.testBit_two_pow_mul_add _ (Nat.mod_lt _ (Nat.two_pow_pos n))]
  simp only [Nat.testBit_mod_two_pow, Nat.testBit_div_two_pow]
  by_cases hb : i < 32
  · by_cases hl : i < lo
    · simp [hb, hl, Nat.not_le.2 hl]
    · by_cases hn : i < lo + n
      · simp [hb, hl, hn, Nat.le_of_not_lt hl, Nat.sub_lt_left_of_lt_add (Nat.le_of_not_lt hl) hn]
      · have e : i - lo - n + (lo + n) = i := by omega
        have hm : ¬ i - lo < n := by omega
        simp [hb, hl, hn, hm, e]
  · have hz : w.toNat.testBit i = false :=
      Nat.testBit_lt_two_pow (Nat.lt_of_lt_of_le w.isLt (Nat.pow_le_pow_right (by decide) (Nat.le_of_not_lt hb)))
    have hn : ¬ i < lo + n := by omega
    simp [hb, hn, hz]

/-- A field reads as it was written, cut to its width. -/
theorem wordGet_wordSet (w : Word) (lo n v : Nat) (h : lo + n ≤ 32) : wordGet (wordSet w lo n v) lo n = v % 2 ^ n := by
  refine Nat.eq_of_testBit_eq fun i => ?_
  rw [wordGet_bit, wordSet_bit _ _ _ _ _ h, Nat.testBit_mod_two_pow]
  by_cases hi : i < n <;> simp [hi]

/-- A field above the written one keeps its value. -/
theorem wordGet_wordSet_above (w : Word) (lo n v a m : Nat) (h : lo + n ≤ 32) (ha : lo + n ≤ a) :
    wordGet (wordSet w lo n v) a m = wordGet w a m := by
  refine Nat.eq_of_testBit_eq fun i => ?_
  have : ¬ (lo ≤ a + i ∧ a + i < lo + n) := by omega
  rw [wordGet_bit, wordGet_bit, wordSet_bit _ _ _ _ _ h, if_neg this]

/-- A field below the written one keeps its value. -/
theorem wordGet_wordSet_below (w : Word) (lo n v a m : Nat) (h : lo + n ≤ 32) (ha : a + m ≤ lo) :
    wordGet (wordSet w lo n v) a m = wordGet w a m := by
  refine Nat.eq_of_testBit_eq fun i => ?_
  rw [wordGet_bit, wordGet_bit, wordSet_bit _ _ _ _ _ h]
  by_cases hi : i < m
  · rw [if_neg (by omega)]
  · simp [hi]

/-! ### The register file -/

theorem regLookup_regErase_same (l : List (Reg × Word)) (r : Reg) : regLookup (regErase l r) r = none := by
  induction l with
  | nil => rfl
  | cons e l ih =>
    obtain ⟨q, w⟩ := e
    by_cases h : q = r
    · simp [regErase, h] at ih ⊢; exact ih
    · simp [regErase, regLookup, h] at ih ⊢; exact ih

theorem regLookup_regErase_ne (l : List (Reg × Word)) {r q : Reg} (h : r ≠ q) : regLookup (regErase l r) q = regLookup l q := by
  induction l with
  | nil => rfl
  | cons e l ih =>
    obtain ⟨p, w⟩ := e
    by_cases h1 : p = r
    · subst h1
      simp [regErase, regLookup, h] at ih ⊢; exact ih
    · simp [regErase, regLookup, h1] at ih ⊢; rw [ih]

theorem regLookup_regInsert_ne (r : Reg) (w : Word) (l : List (Reg × Word)) {q : Reg} (h : r ≠ q) :
    regLookup (regInsert r w l) q = regLookup l q := by
  induction l with
  | nil => simp [regInsert, regLookup, h]
  | cons e l ih =>
    unfold regInsert
    split
    · simp [regLookup, h]
    · obtain ⟨p, v⟩ := e; simp [regLookup, ih]

theorem regLookup_regInsert_same (r : Reg) (w : Word) (l : List (Reg × Word)) (h : regLookup l r = none) :
    regLookup (regInsert r w l) r = some w := by
  induction l with
  | nil => simp [regInsert, regLookup]
  | cons e l ih =>
    obtain ⟨q, v⟩ := e
    by_cases hq : q = r
    · simp [regLookup, hq] at h
    · simp only [regLookup, hq, if_false] at h
      unfold regInsert
      split
      · simp [regLookup]
      · simp [regLookup, hq, ih h]

/-- A register reads as it was written. -/
@[simp] theorem State.word_setWord_same (s : State) (r : Reg) (w : Word) : (s.setWord r w).word r = w := by
  unfold State.setWord State.word regStore
  split
  · next h => simp [regLookup_regErase_same, h]
  · simp [regLookup_regInsert_same, regLookup_regErase_same]

/-- Another register keeps its word. -/
theorem State.word_setWord_ne (s : State) (r : Reg) (w : Word) {q : Reg} (h : r ≠ q) : (s.setWord r w).word q = s.word q := by
  unfold State.setWord State.word regStore
  split
  · simp [regLookup_regErase_ne _ h]
  · simp [regLookup_regInsert_ne _ _ _ h, regLookup_regErase_ne _ h]

/-- A field reads as it was written, cut to its width. -/
theorem State.get_set_same (s : State) (f : Fld) (v : Nat) (h : f.lo + f.w ≤ 32) : (s.set f v).get f = v % 2 ^ f.w := by
  simp [State.get, State.set, wordGet_wordSet _ _ _ _ h]

/-- Another field of the written register keeps its value. -/
theorem State.get_set_field (s : State) (f g : Fld) (v : Nat) (hr : f.reg = g.reg) (h : f.lo + f.w ≤ 32)
    (hd : f.lo + f.w ≤ g.lo ∨ g.lo + g.w ≤ f.lo) : (s.set f v).get g = s.get g := by
  unfold State.get State.set
  rw [hr, State.word_setWord_same]
  rcases hd with hd | hd
  · exact wordGet_wordSet_above _ _ _ _ _ _ h hd
  · exact wordGet_wordSet_below _ _ _ _ _ _ h hd

/-- A field of another register keeps its value. -/
theorem State.get_set_ne (s : State) (f g : Fld) (v : Nat) (h : f.reg ≠ g.reg) : (s.set f v).get g = s.get g := by
  simp [State.get, State.set, State.word_setWord_ne _ _ _ h]

/-- Another register keeps its word when a field is set. -/
theorem State.word_set_ne (s : State) (f : Fld) (v : Nat) {q : Reg} (h : f.reg ≠ q) : (s.set f v).word q = s.word q :=
  State.word_setWord_ne _ _ _ h

/-- A field's value fits its width. -/
theorem State.get_lt (s : State) (f : Fld) : s.get f < 2 ^ f.w := wordGet_lt _ _ _

/-- Registers of two names are two registers. -/
theorem Reg.ne_of_name {r q : Reg} (h : r.name ≠ q.name) : r ≠ q := fun e => h (e ▸ rfl)

/-- Registers at two offsets are two registers. -/
theorem Reg.ne_of_off {r q : Reg} (h : r.off ≠ q.off) : r ≠ q := fun e => h (e ▸ rfl)

/-! ### The order of the register file -/

theorem RegName.ctorIdx_inj {a b : RegName} (h : a.ctorIdx = b.ctorIdx) : a = b := by
  rw [← RegName.ofNat_ctorIdx a, ← RegName.ofNat_ctorIdx b, h]

/-- The order says: by the name's place, then by the three indices. -/
theorem Reg.before_iff {r q : Reg} : r.before q = true ↔
    r.name.ctorIdx < q.name.ctorIdx ∨ (r.name.ctorIdx = q.name.ctorIdx ∧
      (r.i < q.i ∨ (r.i = q.i ∧ (r.j < q.j ∨ (r.j = q.j ∧ r.k < q.k))))) := by
  unfold Reg.before
  by_cases hn : r.name = q.name
  · rw [if_neg (not_not.2 hn), hn]
    by_cases hi : r.i = q.i
    · rw [if_neg (not_not.2 hi)]
      by_cases hj : r.j = q.j
      · rw [if_neg (not_not.2 hj)]; simp [hi, hj]
      · rw [if_pos hj]; simp [hi, hj]
    · rw [if_pos hi]; simp [hi]
  · have : r.name.ctorIdx ≠ q.name.ctorIdx := fun e => hn (RegName.ctorIdx_inj e)
    rw [if_pos hn]; simp [this]

theorem Reg.before_trans {a b c : Reg} (h1 : a.before b = true) (h2 : b.before c = true) : a.before c = true := by
  rw [Reg.before_iff] at *; omega

theorem Reg.not_before_self (a : Reg) : ¬ a.before a = true := by
  rw [Reg.before_iff]; omega

theorem Reg.before_total {a b : Reg} (h : a ≠ b) (hb : ¬ a.before b = true) : b.before a = true := by
  rw [Reg.before_iff] at *
  have : ¬ (a.name.ctorIdx = b.name.ctorIdx ∧ a.i = b.i ∧ a.j = b.j ∧ a.k = b.k) := by
    rintro ⟨hn, hi, hj, hk⟩
    apply h
    obtain ⟨an, ai, aj, ak⟩ := a
    obtain ⟨bn, bi, bj, bk⟩ := b
    simp only at hi hj hk
    subst hi hj hk
    have : an = bn := RegName.ctorIdx_inj hn
    rw [this]
  omega

/-! ### The canonical form -/

theorem RegsWf.nil : RegsWf [] := ⟨List.Pairwise.nil, by simp⟩

theorem RegsWf.erase {l : List (Reg × Word)} (h : RegsWf l) (r : Reg) : RegsWf (regErase l r) :=
  ⟨h.1.filter _, fun e he => h.2 e (List.mem_of_mem_filter he)⟩

theorem mem_regInsert {r : Reg} {w : Word} {l : List (Reg × Word)} {e : Reg × Word} :
    e ∈ regInsert r w l ↔ e = (r, w) ∨ e ∈ l := by
  induction l with
  | nil => simp [regInsert]
  | cons a l ih =>
    unfold regInsert
    split
    · simp
    · simp only [List.mem_cons, ih]
      constructor
      · rintro (h | h | h) <;> simp [h]
      · rintro (h | h | h) <;> simp [h]

theorem RegsWf.insert {l : List (Reg × Word)} (h : RegsWf l) {r : Reg} {w : Word} (hw : w ≠ r.reset)
    (hn : ∀ e ∈ l, e.1 ≠ r) : RegsWf (regInsert r w l) := by
  refine ⟨?_, fun e he => ?_⟩
  · have hp := h.1
    clear h hw
    induction l with
    | nil => simp [regInsert]
    | cons a l ih =>
      unfold regInsert
      rw [List.pairwise_cons] at hp
      split
      · next hlt =>
        refine List.pairwise_cons.2 ⟨fun b hb => ?_, List.pairwise_cons.2 hp⟩
        rcases List.mem_cons.1 hb with rfl | hb
        · exact hlt
        · exact Reg.before_trans hlt (hp.1 b hb)
      · next hge =>
        refine List.pairwise_cons.2 ⟨fun b hb => ?_, ih (fun e he => hn e (List.mem_cons_of_mem _ he)) hp.2⟩
        rcases mem_regInsert.1 hb with rfl | hb
        · exact Reg.before_total (Ne.symm (hn a List.mem_cons_self)) hge
        · exact hp.1 b hb
  · rcases mem_regInsert.1 he with rfl | he
    · exact hw
    · exact h.2 e he

/-- Storing a word keeps the canonical form. -/
theorem RegsWf.store {l : List (Reg × Word)} (h : RegsWf l) (r : Reg) (w : Word) : RegsWf (regStore l r w) := by
  unfold regStore
  split
  · exact h.erase _
  · next hw => exact (h.erase _).insert hw (fun e he => by simpa [regErase] using (List.mem_filter.1 he).2)

/-- In canonical form the listed words are the words read. -/
theorem RegsWf.lookup {l : List (Reg × Word)} (h : RegsWf l) {e : Reg × Word} (he : e ∈ l) : regLookup l e.1 = some e.2 := by
  induction l with
  | nil => cases he
  | cons a l ih =>
    obtain ⟨q, v⟩ := a
    have hp := List.pairwise_cons.1 h.1
    rcases List.mem_cons.1 he with rfl | hm
    · simp [regLookup]
    · have : q ≠ e.1 := fun e2 => Reg.not_before_self q (by have := hp.1 e hm; rwa [← e2] at this)
      simp only [regLookup, this, if_false]
      exact ih ⟨hp.2, fun x hx => h.2 x (List.mem_cons_of_mem _ hx)⟩ hm

/-- Changing or dropping entries, each under its own register, keeps the canonical form. -/
theorem RegsWf.filterMap {l : List (Reg × Word)} (h : RegsWf l) {f : Reg × Word → Option (Reg × Word)}
    (hf : ∀ e e', e ∈ l → f e = some e' → e'.1 = e.1 ∧ e'.2 ≠ e'.1.reset) : RegsWf (l.filterMap f) := by
  refine ⟨?_, fun e he => ?_⟩
  · have hp := h.1
    clear h
    induction l with
    | nil => simp
    | cons a l ih =>
      rw [List.pairwise_cons] at hp
      have ih' := ih (fun e e' he => hf e e' (List.mem_cons_of_mem _ he)) hp.2
      rw [List.filterMap_cons]
      split
      · exact ih'
      · next b hb =>
        refine List.pairwise_cons.2 ⟨fun c hc => ?_, ih'⟩
        obtain ⟨d, hd, hdc⟩ := List.mem_filterMap.1 hc
        rw [(hf a b List.mem_cons_self hb).1, (hf d c (List.mem_cons_of_mem _ hd) hdc).1]
        exact hp.1 d hd
  · obtain ⟨d, hd, hde⟩ := List.mem_filterMap.1 he
    exact (hf d e hd hde).2

/-- The word read after every entry has been changed or dropped under its own register. -/
theorem regLookup_filterMap {l : List (Reg × Word)} (h : RegsWf l) {f : Reg × Word → Option (Reg × Word)}
    (hf : ∀ e e', f e = some e' → e'.1 = e.1) (q : Reg) :
    regLookup (l.filterMap f) q = (regLookup l q).bind (fun w => (f (q, w)).map Prod.snd) := by
  induction l with
  | nil => rfl
  | cons a l ih =>
    obtain ⟨r, v⟩ := a
    have hp := List.pairwise_cons.1 h.1
    have ih' := ih ⟨hp.2, fun x hx => h.2 x (List.mem_cons_of_mem _ hx)⟩
    have miss : ∀ m : List (Reg × Word), (∀ e ∈ m, e.1 ≠ q) → regLookup m q = none := by
      intro m hm
      induction m with
      | nil => rfl
      | cons b m ihm =>
        obtain ⟨b1, b2⟩ := b
        have := hm (b1, b2) List.mem_cons_self
        simp only [regLookup, this, if_false]
        exact ihm (fun e he => hm e (List.mem_cons_of_mem _ he))
    rw [List.filterMap_cons]
    by_cases hr : r = q
    · subst hr
      have hm : regLookup (l.filterMap f) r = none := by
        refine miss _ (fun e he => ?_)
        obtain ⟨d, hd, hde⟩ := List.mem_filterMap.1 he
        rw [hf d e hde]
        intro hdr
        have := hp.1 d hd
        rw [hdr] at this
        exact Reg.not_before_self r this
      cases hfe : f (r, v) with
      | none => simp [regLookup, hfe, hm]
      | some e' =>
        obtain ⟨e1, e2⟩ := e'
        have := hf _ _ hfe
        simp only at this
        subst this
        simp [regLookup, hfe]
    · cases hfe : f (r, v) with
      | none => simp [regLookup, hr, ih']
      | some e' =>
        obtain ⟨e1, e2⟩ := e'
        have := hf _ _ hfe
        simp only at this
        subst this
        simp [regLookup, hr, ih']

end Sys2Proof.Machine
end

