-- ==== Sys2Proof/Laws/State.lean ====
section
/-! SUPPORT. Sys2Proof/Laws/State.lean: which fields of State a register write, a field write and a message sent leave as they are, one lemma
per field, so that no proof unfolds a record update. -/

namespace Sys2Proof.Machine

@[simp] theorem State.setWord_snap (s : State) (r : Reg) (w : Word) : (s.setWord r w).snap = s.snap := (rfl)
@[simp] theorem State.setWord_evtFifo (s : State) (r : Reg) (w : Word) : (s.setWord r w).evtFifo = s.evtFifo := (rfl)
@[simp] theorem State.setWord_evtSeq (s : State) (r : Reg) (w : Word) : (s.setWord r w).evtSeq = s.evtSeq := (rfl)
@[simp] theorem State.setWord_evtDropped (s : State) (r : Reg) (w : Word) : (s.setWord r w).evtDropped = s.evtDropped := (rfl)
@[simp] theorem State.setWord_evtFull (s : State) (r : Reg) (w : Word) : (s.setWord r w).evtFull = s.evtFull := (rfl)
@[simp] theorem State.setWord_mon (s : State) (r : Reg) (w : Word) : (s.setWord r w).mon = s.mon := (rfl)
@[simp] theorem State.setWord_loHz1 (s : State) (r : Reg) (w : Word) : (s.setWord r w).loHz1 = s.loHz1 := (rfl)
@[simp] theorem State.setWord_trg (s : State) (r : Reg) (w : Word) : (s.setWord r w).trg = s.trg := (rfl)
@[simp] theorem State.setWord_stbRuns (s : State) (r : Reg) (w : Word) : (s.setWord r w).stbRuns = s.stbRuns := (rfl)
@[simp] theorem State.setWord_stbOfs (s : State) (r : Reg) (w : Word) : (s.setWord r w).stbOfs = s.stbOfs := (rfl)
@[simp] theorem State.setWord_kilnStale (s : State) (r : Reg) (w : Word) : (s.setWord r w).kilnStale = s.kilnStale := (rfl)
@[simp] theorem State.setWord_wheel (s : State) (r : Reg) (w : Word) : (s.setWord r w).wheel = s.wheel := (rfl)
@[simp] theorem State.setWord_syn (s : State) (r : Reg) (w : Word) : (s.setWord r w).syn = s.syn := (rfl)
@[simp] theorem State.setWord_out (s : State) (r : Reg) (w : Word) : (s.setWord r w).out = s.out := (rfl)
@[simp] theorem State.setWord_rail (s : State) (r : Reg) (w : Word) : (s.setWord r w).rail = s.rail := (rfl)
@[simp] theorem State.setWord_prg (s : State) (r : Reg) (w : Word) : (s.setWord r w).prg = s.prg := (rfl)
@[simp] theorem State.setWord_depArmed (s : State) (r : Reg) (w : Word) : (s.setWord r w).depArmed = s.depArmed := (rfl)
@[simp] theorem State.setWord_depTrig (s : State) (r : Reg) (w : Word) : (s.setWord r w).depTrig = s.depTrig := (rfl)
@[simp] theorem State.setWord_pin (s : State) (r : Reg) (w : Word) : (s.setWord r w).pin = s.pin := (rfl)
@[simp] theorem State.setWord_seq (s : State) (r : Reg) (w : Word) : (s.setWord r w).seq = s.seq := (rfl)
@[simp] theorem State.setWord_dma (s : State) (r : Reg) (w : Word) : (s.setWord r w).dma = s.dma := (rfl)
@[simp] theorem State.setWord_rr (s : State) (r : Reg) (w : Word) : (s.setWord r w).rr = s.rr := (rfl)
@[simp] theorem State.setWord_iotlb (s : State) (r : Reg) (w : Word) : (s.setWord r w).iotlb = s.iotlb := (rfl)
@[simp] theorem State.setWord_walks (s : State) (r : Reg) (w : Word) : (s.setWord r w).walks = s.walks := (rfl)
@[simp] theorem State.setWord_inv (s : State) (r : Reg) (w : Word) : (s.setWord r w).inv = s.inv := (rfl)
@[simp] theorem State.setWord_host (s : State) (r : Reg) (w : Word) : (s.setWord r w).host = s.host := (rfl)
@[simp] theorem State.setWord_mgt (s : State) (r : Reg) (w : Word) : (s.setWord r w).mgt = s.mgt := (rfl)
@[simp] theorem State.setWord_otp (s : State) (r : Reg) (w : Word) : (s.setWord r w).otp = s.otp := (rfl)
@[simp] theorem State.setWord_img (s : State) (r : Reg) (w : Word) : (s.setWord r w).img = s.img := (rfl)
@[simp] theorem State.setWord_stg (s : State) (r : Reg) (w : Word) : (s.setWord r w).stg = s.stg := (rfl)
@[simp] theorem State.setWord_wdg (s : State) (r : Reg) (w : Word) : (s.setWord r w).wdg = s.wdg := (rfl)
@[simp] theorem State.setWord_pkg_ (s : State) (r : Reg) (w : Word) : (s.setWord r w).pkg_ = s.pkg_ := (rfl)
@[simp] theorem State.setWord_flash (s : State) (r : Reg) (w : Word) : (s.setWord r w).flash = s.flash := (rfl)
@[simp] theorem State.setWord_torn (s : State) (r : Reg) (w : Word) : (s.setWord r w).torn = s.torn := (rfl)
@[simp] theorem State.setWord_lnk (s : State) (r : Reg) (w : Word) : (s.setWord r w).lnk = s.lnk := (rfl)
@[simp] theorem State.setWord_sys (s : State) (r : Reg) (w : Word) : (s.setWord r w).sys = s.sys := (rfl)
@[simp] theorem State.setWord_rxq (s : State) (r : Reg) (w : Word) : (s.setWord r w).rxq = s.rxq := (rfl)
@[simp] theorem State.setWord_sent (s : State) (r : Reg) (w : Word) : (s.setWord r w).sent = s.sent := (rfl)
@[simp] theorem State.setWord_engMem (s : State) (r : Reg) (w : Word) : (s.setWord r w).engMem = s.engMem := (rfl)
@[simp] theorem State.setWord_lineWait (s : State) (r : Reg) (w : Word) : (s.setWord r w).lineWait = s.lineWait := (rfl)
@[simp] theorem State.setWord_lineSeq (s : State) (r : Reg) (w : Word) : (s.setWord r w).lineSeq = s.lineSeq := (rfl)
@[simp] theorem State.setWord_freeCount (s : State) (r : Reg) (w : Word) : (s.setWord r w).freeCount = s.freeCount := (rfl)
@[simp] theorem State.setWord_pending (s : State) (r : Reg) (w : Word) : (s.setWord r w).pending = s.pending := (rfl)

/-! A field write is a register write. -/

@[simp] theorem State.set_snap (s : State) (x : Fld) (v : Nat) : (s.set x v).snap = s.snap := State.setWord_snap _ _ _
@[simp] theorem State.set_evtFifo (s : State) (x : Fld) (v : Nat) : (s.set x v).evtFifo = s.evtFifo := State.setWord_evtFifo _ _ _
@[simp] theorem State.set_evtSeq (s : State) (x : Fld) (v : Nat) : (s.set x v).evtSeq = s.evtSeq := State.setWord_evtSeq _ _ _
@[simp] theorem State.set_evtDropped (s : State) (x : Fld) (v : Nat) : (s.set x v).evtDropped = s.evtDropped := State.setWord_evtDropped _ _ _
@[simp] theorem State.set_evtFull (s : State) (x : Fld) (v : Nat) : (s.set x v).evtFull = s.evtFull := State.setWord_evtFull _ _ _
@[simp] theorem State.set_mon (s : State) (x : Fld) (v : Nat) : (s.set x v).mon = s.mon := State.setWord_mon _ _ _
@[simp] theorem State.set_loHz1 (s : State) (x : Fld) (v : Nat) : (s.set x v).loHz1 = s.loHz1 := State.setWord_loHz1 _ _ _
@[simp] theorem State.set_trg (s : State) (x : Fld) (v : Nat) : (s.set x v).trg = s.trg := State.setWord_trg _ _ _
@[simp] theorem State.set_stbRuns (s : State) (x : Fld) (v : Nat) : (s.set x v).stbRuns = s.stbRuns := State.setWord_stbRuns _ _ _
@[simp] theorem State.set_stbOfs (s : State) (x : Fld) (v : Nat) : (s.set x v).stbOfs = s.stbOfs := State.setWord_stbOfs _ _ _
@[simp] theorem State.set_kilnStale (s : State) (x : Fld) (v : Nat) : (s.set x v).kilnStale = s.kilnStale := State.setWord_kilnStale _ _ _
@[simp] theorem State.set_wheel (s : State) (x : Fld) (v : Nat) : (s.set x v).wheel = s.wheel := State.setWord_wheel _ _ _
@[simp] theorem State.set_syn (s : State) (x : Fld) (v : Nat) : (s.set x v).syn = s.syn := State.setWord_syn _ _ _
@[simp] theorem State.set_out (s : State) (x : Fld) (v : Nat) : (s.set x v).out = s.out := State.setWord_out _ _ _
@[simp] theorem State.set_rail (s : State) (x : Fld) (v : Nat) : (s.set x v).rail = s.rail := State.setWord_rail _ _ _
@[simp] theorem State.set_prg (s : State) (x : Fld) (v : Nat) : (s.set x v).prg = s.prg := State.setWord_prg _ _ _
@[simp] theorem State.set_depArmed (s : State) (x : Fld) (v : Nat) : (s.set x v).depArmed = s.depArmed := State.setWord_depArmed _ _ _
@[simp] theorem State.set_depTrig (s : State) (x : Fld) (v : Nat) : (s.set x v).depTrig = s.depTrig := State.setWord_depTrig _ _ _
@[simp] theorem State.set_pin (s : State) (x : Fld) (v : Nat) : (s.set x v).pin = s.pin := State.setWord_pin _ _ _
@[simp] theorem State.set_seq (s : State) (x : Fld) (v : Nat) : (s.set x v).seq = s.seq := State.setWord_seq _ _ _
@[simp] theorem State.set_dma (s : State) (x : Fld) (v : Nat) : (s.set x v).dma = s.dma := State.setWord_dma _ _ _
@[simp] theorem State.set_rr (s : State) (x : Fld) (v : Nat) : (s.set x v).rr = s.rr := State.setWord_rr _ _ _
@[simp] theorem State.set_iotlb (s : State) (x : Fld) (v : Nat) : (s.set x v).iotlb = s.iotlb := State.setWord_iotlb _ _ _
@[simp] theorem State.set_walks (s : State) (x : Fld) (v : Nat) : (s.set x v).walks = s.walks := State.setWord_walks _ _ _
@[simp] theorem State.set_inv (s : State) (x : Fld) (v : Nat) : (s.set x v).inv = s.inv := State.setWord_inv _ _ _
@[simp] theorem State.set_host (s : State) (x : Fld) (v : Nat) : (s.set x v).host = s.host := State.setWord_host _ _ _
@[simp] theorem State.set_mgt (s : State) (x : Fld) (v : Nat) : (s.set x v).mgt = s.mgt := State.setWord_mgt _ _ _
@[simp] theorem State.set_otp (s : State) (x : Fld) (v : Nat) : (s.set x v).otp = s.otp := State.setWord_otp _ _ _
@[simp] theorem State.set_img (s : State) (x : Fld) (v : Nat) : (s.set x v).img = s.img := State.setWord_img _ _ _
@[simp] theorem State.set_stg (s : State) (x : Fld) (v : Nat) : (s.set x v).stg = s.stg := State.setWord_stg _ _ _
@[simp] theorem State.set_wdg (s : State) (x : Fld) (v : Nat) : (s.set x v).wdg = s.wdg := State.setWord_wdg _ _ _
@[simp] theorem State.set_pkg_ (s : State) (x : Fld) (v : Nat) : (s.set x v).pkg_ = s.pkg_ := State.setWord_pkg_ _ _ _
@[simp] theorem State.set_flash (s : State) (x : Fld) (v : Nat) : (s.set x v).flash = s.flash := State.setWord_flash _ _ _
@[simp] theorem State.set_torn (s : State) (x : Fld) (v : Nat) : (s.set x v).torn = s.torn := State.setWord_torn _ _ _
@[simp] theorem State.set_lnk (s : State) (x : Fld) (v : Nat) : (s.set x v).lnk = s.lnk := State.setWord_lnk _ _ _
@[simp] theorem State.set_sys (s : State) (x : Fld) (v : Nat) : (s.set x v).sys = s.sys := State.setWord_sys _ _ _
@[simp] theorem State.set_rxq (s : State) (x : Fld) (v : Nat) : (s.set x v).rxq = s.rxq := State.setWord_rxq _ _ _
@[simp] theorem State.set_sent (s : State) (x : Fld) (v : Nat) : (s.set x v).sent = s.sent := State.setWord_sent _ _ _
@[simp] theorem State.set_engMem (s : State) (x : Fld) (v : Nat) : (s.set x v).engMem = s.engMem := State.setWord_engMem _ _ _
@[simp] theorem State.set_lineWait (s : State) (x : Fld) (v : Nat) : (s.set x v).lineWait = s.lineWait := State.setWord_lineWait _ _ _
@[simp] theorem State.set_lineSeq (s : State) (x : Fld) (v : Nat) : (s.set x v).lineSeq = s.lineSeq := State.setWord_lineSeq _ _ _
@[simp] theorem State.set_freeCount (s : State) (x : Fld) (v : Nat) : (s.set x v).freeCount = s.freeCount := State.setWord_freeCount _ _ _
@[simp] theorem State.set_pending (s : State) (x : Fld) (v : Nat) : (s.set x v).pending = s.pending := State.setWord_pending _ _ _

/-! A message sent changes only what has been sent. -/

@[simp] theorem State.emit_regs (s : State) (e : Emit) : (s.emit e).regs = s.regs := (rfl)
@[simp] theorem State.emit_snap (s : State) (e : Emit) : (s.emit e).snap = s.snap := (rfl)
@[simp] theorem State.emit_evtFifo (s : State) (e : Emit) : (s.emit e).evtFifo = s.evtFifo := (rfl)
@[simp] theorem State.emit_evtSeq (s : State) (e : Emit) : (s.emit e).evtSeq = s.evtSeq := (rfl)
@[simp] theorem State.emit_evtDropped (s : State) (e : Emit) : (s.emit e).evtDropped = s.evtDropped := (rfl)
@[simp] theorem State.emit_evtFull (s : State) (e : Emit) : (s.emit e).evtFull = s.evtFull := (rfl)
@[simp] theorem State.emit_mon (s : State) (e : Emit) : (s.emit e).mon = s.mon := (rfl)
@[simp] theorem State.emit_loHz1 (s : State) (e : Emit) : (s.emit e).loHz1 = s.loHz1 := (rfl)
@[simp] theorem State.emit_trg (s : State) (e : Emit) : (s.emit e).trg = s.trg := (rfl)
@[simp] theorem State.emit_stbRuns (s : State) (e : Emit) : (s.emit e).stbRuns = s.stbRuns := (rfl)
@[simp] theorem State.emit_stbOfs (s : State) (e : Emit) : (s.emit e).stbOfs = s.stbOfs := (rfl)
@[simp] theorem State.emit_kilnStale (s : State) (e : Emit) : (s.emit e).kilnStale = s.kilnStale := (rfl)
@[simp] theorem State.emit_wheel (s : State) (e : Emit) : (s.emit e).wheel = s.wheel := (rfl)
@[simp] theorem State.emit_syn (s : State) (e : Emit) : (s.emit e).syn = s.syn := (rfl)
@[simp] theorem State.emit_out (s : State) (e : Emit) : (s.emit e).out = s.out := (rfl)
@[simp] theorem State.emit_rail (s : State) (e : Emit) : (s.emit e).rail = s.rail := (rfl)
@[simp] theorem State.emit_prg (s : State) (e : Emit) : (s.emit e).prg = s.prg := (rfl)
@[simp] theorem State.emit_depArmed (s : State) (e : Emit) : (s.emit e).depArmed = s.depArmed := (rfl)
@[simp] theorem State.emit_depTrig (s : State) (e : Emit) : (s.emit e).depTrig = s.depTrig := (rfl)
@[simp] theorem State.emit_pin (s : State) (e : Emit) : (s.emit e).pin = s.pin := (rfl)
@[simp] theorem State.emit_seq (s : State) (e : Emit) : (s.emit e).seq = s.seq := (rfl)
@[simp] theorem State.emit_dma (s : State) (e : Emit) : (s.emit e).dma = s.dma := (rfl)
@[simp] theorem State.emit_rr (s : State) (e : Emit) : (s.emit e).rr = s.rr := (rfl)
@[simp] theorem State.emit_iotlb (s : State) (e : Emit) : (s.emit e).iotlb = s.iotlb := (rfl)
@[simp] theorem State.emit_walks (s : State) (e : Emit) : (s.emit e).walks = s.walks := (rfl)
@[simp] theorem State.emit_inv (s : State) (e : Emit) : (s.emit e).inv = s.inv := (rfl)
@[simp] theorem State.emit_host (s : State) (e : Emit) : (s.emit e).host = s.host := (rfl)
@[simp] theorem State.emit_mgt (s : State) (e : Emit) : (s.emit e).mgt = s.mgt := (rfl)
@[simp] theorem State.emit_otp (s : State) (e : Emit) : (s.emit e).otp = s.otp := (rfl)
@[simp] theorem State.emit_img (s : State) (e : Emit) : (s.emit e).img = s.img := (rfl)
@[simp] theorem State.emit_stg (s : State) (e : Emit) : (s.emit e).stg = s.stg := (rfl)
@[simp] theorem State.emit_wdg (s : State) (e : Emit) : (s.emit e).wdg = s.wdg := (rfl)
@[simp] theorem State.emit_pkg_ (s : State) (e : Emit) : (s.emit e).pkg_ = s.pkg_ := (rfl)
@[simp] theorem State.emit_flash (s : State) (e : Emit) : (s.emit e).flash = s.flash := (rfl)
@[simp] theorem State.emit_torn (s : State) (e : Emit) : (s.emit e).torn = s.torn := (rfl)
@[simp] theorem State.emit_lnk (s : State) (e : Emit) : (s.emit e).lnk = s.lnk := (rfl)
@[simp] theorem State.emit_sys (s : State) (e : Emit) : (s.emit e).sys = s.sys := (rfl)
@[simp] theorem State.emit_rxq (s : State) (e : Emit) : (s.emit e).rxq = s.rxq := (rfl)
@[simp] theorem State.emit_engMem (s : State) (e : Emit) : (s.emit e).engMem = s.engMem := (rfl)
@[simp] theorem State.emit_lineWait (s : State) (e : Emit) : (s.emit e).lineWait = s.lineWait := (rfl)
@[simp] theorem State.emit_lineSeq (s : State) (e : Emit) : (s.emit e).lineSeq = s.lineSeq := (rfl)
@[simp] theorem State.emit_freeCount (s : State) (e : Emit) : (s.emit e).freeCount = s.freeCount := (rfl)
@[simp] theorem State.emit_pending (s : State) (e : Emit) : (s.emit e).pending = s.pending := (rfl)

/-! Every other way to write a field is `State.set`. -/

theorem State.put_eq (s : State) (f : Fld) (b : Bool) : s.put f b = s.set f (if b then 1 else 0) := rfl
theorem State.setBit_eq (s : State) (f : Fld) (i : Nat) (b : Bool) : s.setBit f i b = s.set f (bitPut (s.get f) i b) := rfl
theorem State.bump_eq (s : State) (f : Fld) : s.bump f = s.set f (satNat f.w (s.get f + 1)) := rfl
theorem State.setS_eq (s : State) (f : Fld) (v : Int) : s.setS f v = s.set f (ofSigned f.w v) := rfl
theorem State.setWide_eq (s : State) (lo hi : Fld) (v : Nat) : s.setWide lo hi v = (s.set lo v).set hi (v / 2 ^ 32) := rfl
theorem State.setS48_eq (s : State) (lo hi : Fld) (v : Int) :
    s.setS48 lo hi v = (s.set lo (ofSigned 48 v)).set hi (ofSigned 48 v / 2 ^ 32) := rfl
@[simp] theorem State.emit_word (s : State) (e : Emit) (r : Reg) : (s.emit e).word r = s.word r := (rfl)

/-! Raising a request line changes its counters and DMA_REQ_PEND only. -/

@[simp] theorem raiseLine_snap (l : Nat) (s : State) : (raiseLine l s).snap = s.snap := State.set_snap _ _ _
@[simp] theorem raiseLine_evtFifo (l : Nat) (s : State) : (raiseLine l s).evtFifo = s.evtFifo := State.set_evtFifo _ _ _
@[simp] theorem raiseLine_evtSeq (l : Nat) (s : State) : (raiseLine l s).evtSeq = s.evtSeq := State.set_evtSeq _ _ _
@[simp] theorem raiseLine_evtDropped (l : Nat) (s : State) : (raiseLine l s).evtDropped = s.evtDropped := State.set_evtDropped _ _ _
@[simp] theorem raiseLine_evtFull (l : Nat) (s : State) : (raiseLine l s).evtFull = s.evtFull := State.set_evtFull _ _ _
@[simp] theorem raiseLine_mon (l : Nat) (s : State) : (raiseLine l s).mon = s.mon := State.set_mon _ _ _
@[simp] theorem raiseLine_loHz1 (l : Nat) (s : State) : (raiseLine l s).loHz1 = s.loHz1 := State.set_loHz1 _ _ _
@[simp] theorem raiseLine_trg (l : Nat) (s : State) : (raiseLine l s).trg = s.trg := State.set_trg _ _ _
@[simp] theorem raiseLine_stbRuns (l : Nat) (s : State) : (raiseLine l s).stbRuns = s.stbRuns := State.set_stbRuns _ _ _
@[simp] theorem raiseLine_stbOfs (l : Nat) (s : State) : (raiseLine l s).stbOfs = s.stbOfs := State.set_stbOfs _ _ _
@[simp] theorem raiseLine_kilnStale (l : Nat) (s : State) : (raiseLine l s).kilnStale = s.kilnStale := State.set_kilnStale _ _ _
@[simp] theorem raiseLine_wheel (l : Nat) (s : State) : (raiseLine l s).wheel = s.wheel := State.set_wheel _ _ _
@[simp] theorem raiseLine_syn (l : Nat) (s : State) : (raiseLine l s).syn = s.syn := State.set_syn _ _ _
@[simp] theorem raiseLine_out (l : Nat) (s : State) : (raiseLine l s).out = s.out := State.set_out _ _ _
@[simp] theorem raiseLine_rail (l : Nat) (s : State) : (raiseLine l s).rail = s.rail := State.set_rail _ _ _
@[simp] theorem raiseLine_prg (l : Nat) (s : State) : (raiseLine l s).prg = s.prg := State.set_prg _ _ _
@[simp] theorem raiseLine_depArmed (l : Nat) (s : State) : (raiseLine l s).depArmed = s.depArmed := State.set_depArmed _ _ _
@[simp] theorem raiseLine_depTrig (l : Nat) (s : State) : (raiseLine l s).depTrig = s.depTrig := State.set_depTrig _ _ _
@[simp] theorem raiseLine_pin (l : Nat) (s : State) : (raiseLine l s).pin = s.pin := State.set_pin _ _ _
@[simp] theorem raiseLine_seq (l : Nat) (s : State) : (raiseLine l s).seq = s.seq := State.set_seq _ _ _
@[simp] theorem raiseLine_dma (l : Nat) (s : State) : (raiseLine l s).dma = s.dma := State.set_dma _ _ _
@[simp] theorem raiseLine_rr (l : Nat) (s : State) : (raiseLine l s).rr = s.rr := State.set_rr _ _ _
@[simp] theorem raiseLine_iotlb (l : Nat) (s : State) : (raiseLine l s).iotlb = s.iotlb := State.set_iotlb _ _ _
@[simp] theorem raiseLine_walks (l : Nat) (s : State) : (raiseLine l s).walks = s.walks := State.set_walks _ _ _
@[simp] theorem raiseLine_inv (l : Nat) (s : State) : (raiseLine l s).inv = s.inv := State.set_inv _ _ _
@[simp] theorem raiseLine_host (l : Nat) (s : State) : (raiseLine l s).host = s.host := State.set_host _ _ _
@[simp] theorem raiseLine_mgt (l : Nat) (s : State) : (raiseLine l s).mgt = s.mgt := State.set_mgt _ _ _
@[simp] theorem raiseLine_otp (l : Nat) (s : State) : (raiseLine l s).otp = s.otp := State.set_otp _ _ _
@[simp] theorem raiseLine_img (l : Nat) (s : State) : (raiseLine l s).img = s.img := State.set_img _ _ _
@[simp] theorem raiseLine_stg (l : Nat) (s : State) : (raiseLine l s).stg = s.stg := State.set_stg _ _ _
@[simp] theorem raiseLine_wdg (l : Nat) (s : State) : (raiseLine l s).wdg = s.wdg := State.set_wdg _ _ _
@[simp] theorem raiseLine_pkg_ (l : Nat) (s : State) : (raiseLine l s).pkg_ = s.pkg_ := State.set_pkg_ _ _ _
@[simp] theorem raiseLine_flash (l : Nat) (s : State) : (raiseLine l s).flash = s.flash := State.set_flash _ _ _
@[simp] theorem raiseLine_torn (l : Nat) (s : State) : (raiseLine l s).torn = s.torn := State.set_torn _ _ _
@[simp] theorem raiseLine_lnk (l : Nat) (s : State) : (raiseLine l s).lnk = s.lnk := State.set_lnk _ _ _
@[simp] theorem raiseLine_sys (l : Nat) (s : State) : (raiseLine l s).sys = s.sys := State.set_sys _ _ _
@[simp] theorem raiseLine_rxq (l : Nat) (s : State) : (raiseLine l s).rxq = s.rxq := State.set_rxq _ _ _
@[simp] theorem raiseLine_sent (l : Nat) (s : State) : (raiseLine l s).sent = s.sent := State.set_sent _ _ _
@[simp] theorem raiseLine_engMem (l : Nat) (s : State) : (raiseLine l s).engMem = s.engMem := State.set_engMem _ _ _
@[simp] theorem raiseLine_freeCount (l : Nat) (s : State) : (raiseLine l s).freeCount = s.freeCount := State.set_freeCount _ _ _
@[simp] theorem raiseLine_pending (l : Nat) (s : State) : (raiseLine l s).pending = s.pending := State.set_pending _ _ _

end Sys2Proof.Machine
end

