-- ==== Sys2Proof/Laws/Event.lean ====
section
/-! SUPPORT. Sys2Proof/Laws/Event.lean: what counting an ignored action and raising an event can do, said once: the registers they reach
and what they leave. -/

namespace Sys2Proof.Machine

theorem word_raiseLine (l : Nat) (s : State) (q : Reg) (h : (⟨.DMA_REQ_PEND, 0, 0, 0⟩ : Reg) ≠ q) :
    (raiseLine l s).word q = s.word q :=
  (State.word_set_ne _ _ _ h).trans rfl

/-- What a fold of request-line raises keeps. -/
theorem foldl_raiseLine (l : Nat) (es : List EvtRec) (s : State) :
    let t := es.foldl (fun s _ => raiseLine l s) s
    (∀ q : Reg, (⟨.DMA_REQ_PEND, 0, 0, 0⟩ : Reg) ≠ q → t.word q = s.word q) ∧ t.evtFifo = s.evtFifo ∧ t.evtSeq = s.evtSeq := by
  induction es generalizing s with
  | nil => exact ⟨fun _ _ => rfl, rfl, rfl⟩
  | cons e es ih =>
    obtain ⟨h1, h2, h3⟩ := ih (raiseLine l s)
    exact ⟨fun q hq => (h1 q hq).trans (word_raiseLine l s q hq), h2.trans (raiseLine_evtFifo _ _), h3.trans (raiseLine_evtSeq _ _)⟩

theorem word_eventLine (s : State) (q : Reg) (h : (⟨.DMA_REQ_PEND, 0, 0, 0⟩ : Reg) ≠ q) : (eventLine s).word q = s.word q := by
  unfold eventLine
  split
  · exact (foldl_raiseLine lineEvent _ s).1 q h
  · rfl

theorem eventLine_evtSeq (s : State) : (eventLine s).evtSeq = s.evtSeq := by
  unfold eventLine
  split
  · exact (foldl_raiseLine lineEvent _ s).2.2
  · rfl

/-- Numbering the records changes their request numbers alone. -/
theorem askRecords_codes {β : Type} (f : EvtRec → β) (hf : ∀ e q, f { e with req := q } = f e) (q : Nat) (l : List EvtRec) :
    (askRecords q l).map f = l.map f := by
  induction l generalizing q with
  | nil => rfl
  | cons e l ih =>
    unfold askRecords
    split
    · simp [ih]
    · simp [ih, hf]

/-- The records keep their code, source, number, time and body; only the request number may change. -/
theorem eventLine_codes (s : State) :
    (eventLine s).evtFifo.map (fun e => (e.code, e.src, e.seq, e.body)) = s.evtFifo.map (fun e => (e.code, e.src, e.seq, e.body)) := by
  unfold eventLine
  split
  · exact askRecords_codes _ (fun _ _ => rfl) _ _
  · rfl

theorem word_raiseIbi (a b : Nat) (s : State) (q : Reg) : (raiseIbi a b s).word q = s.word q := by
  unfold raiseIbi State.emit
  split <;> rfl

theorem raiseIbi_evtSeq (a b : Nat) (s : State) : (raiseIbi a b s).evtSeq = s.evtSeq := by
  unfold raiseIbi State.emit
  split <;> rfl

theorem raiseIbi_evtFifo (a b : Nat) (s : State) : (raiseIbi a b s).evtFifo = s.evtFifo := by
  unfold raiseIbi State.emit
  split <;> rfl

/-- Posting an event keeps every register outside `eventOffs`. -/
theorem State.word_postEvt (s : State) (code src body : Nat) (q : Reg) (h : q.off ∉ eventOffs) :
    (s.postEvt code src body).word q = s.word q := by
  simp only [eventOffs, List.mem_cons, not_or, List.not_mem_nil] at h
  obtain ⟨h1, h2, h3, h4, -⟩ := h
  unfold State.postEvt
  dsimp only
  split
  · rw [word_raiseIbi]
    unfold showFill
    rw [State.word_set_ne _ _ _ (Reg.ne_of_off (Ne.symm h2)), word_eventLine _ _ (Reg.ne_of_off (Ne.symm h1))]
    rfl
  · unfold State.when State.bump State.bumpBy State.setBit
    split
    · rw [State.word_set_ne _ _ _ (Reg.ne_of_off (Ne.symm h4)), State.word_set_ne _ _ _ (Reg.ne_of_off (Ne.symm h3))]; rfl
    · rw [State.word_set_ne _ _ _ (Reg.ne_of_off (Ne.symm h3))]; rfl

/-- So does sending one, which posts it or, from an isolated die, does nothing. -/
theorem State.word_pushEvt (s : State) (code src body : Nat) (q : Reg) (h : q.off ∉ eventOffs) :
    (s.pushEvt code src body).word q = s.word q := by
  unfold State.pushEvt
  split
  · exact s.word_postEvt _ _ _ q h
  · rfl

theorem State.get_pushEvt (s : State) (code src body : Nat) (f : Fld) (h : f.reg.off ∉ eventOffs) :
    (s.pushEvt code src body).get f = s.get f := by
  unfold State.get; rw [State.word_pushEvt _ _ _ _ _ h]

/-- Every posted event takes a sequence number, in the FIFO or dropped (R280). -/
theorem State.postEvt_evtSeq (s : State) (code src body : Nat) : (s.postEvt code src body).evtSeq = s.evtSeq + 1 := by
  unfold State.postEvt
  dsimp only
  split
  · rw [raiseIbi_evtSeq, showFill, State.set_evtSeq, eventLine_evtSeq]
  · unfold State.when
    split <;> simp [State.setBit_eq, State.bump_eq]

/-- With room, the record is the FIFO's last one (R280). -/
theorem State.postEvt_codes (s : State) (code src body : Nat) (h : s.evtFifo.length < evtCapacity) :
    (s.postEvt code src body).evtFifo.map (fun e => (e.code, e.src, e.seq, e.body))
      = s.evtFifo.map (fun e => (e.code, e.src, e.seq, e.body)) ++ [(code, src, s.evtSeq + 1, body)] := by
  unfold State.postEvt
  dsimp only
  rw [if_pos h, raiseIbi_evtFifo, showFill, State.set_evtFifo, eventLine_codes]
  simp

/-- Counting an ignored action keeps every register outside `ignoredOffs` (R12, R426). -/
theorem State.word_ignored (s : State) (src addr detail : Nat) (q : Reg) (h : q.off ∉ ignoredOffs) :
    (s.ignored src addr detail).word q = s.word q := by
  simp only [ignoredOffs, List.mem_cons, not_or, List.not_mem_nil] at h
  obtain ⟨h1, h2, h3, -⟩ := h
  unfold State.ignored State.bump State.bumpBy
  rw [State.word_set_ne _ _ _ (Reg.ne_of_off (Ne.symm h3)), State.word_set_ne _ _ _ (Reg.ne_of_off (Ne.symm h3)), State.word_set_ne _ _ _ (Reg.ne_of_off (Ne.symm h2)),
    State.word_set_ne _ _ _ (Reg.ne_of_off (Ne.symm h1))]

end Sys2Proof.Machine
end

