-- ==== Sys2Proof/Laws/EventFrame.lean ====
section
/-! SUPPORT. Sys2Proof/Laws/EventFrame.lean: posting an event and counting an ignored action leave every field of State but the register
file, the FIFO and its counters, the request lines and what is sent as it is, one lemma per field. -/

namespace Sys2Proof.Machine

theorem foldl_raiseLine_snap (l : Nat) (es : List EvtRec) (s : State) : (es.foldl (fun s _ => raiseLine l s) s).snap = s.snap := by
  induction es generalizing s with
  | nil => rfl
  | cons e es ih => simp [ih]

@[simp] theorem State.postEvt_snap (s : State) (code src body : Nat) : (s.postEvt code src body).snap = s.snap := by
  have h1 : ∀ s : State, (eventLine s).snap = s.snap := by
    intro s; unfold eventLine; split <;> simp [foldl_raiseLine_snap]
  have h2 : ∀ (n c : Nat) (s : State), (raiseIbi n c s).snap = s.snap := by
    intro n c s; unfold raiseIbi; split <;> simp
  unfold State.postEvt
  split
  · simp [h1, h2, showFill]
  · unfold State.when; split <;> simp [State.setBit_eq, State.bump_eq]

@[simp] theorem State.pushEvt_snap (s : State) (code src body : Nat) : (s.pushEvt code src body).snap = s.snap := by
  unfold State.pushEvt; split <;> simp

@[simp] theorem State.ignored_snap (s : State) (src addr detail : Nat) : (s.ignored src addr detail).snap = s.snap := by
  simp [State.ignored, State.bump_eq]

theorem foldl_raiseLine_mon (l : Nat) (es : List EvtRec) (s : State) : (es.foldl (fun s _ => raiseLine l s) s).mon = s.mon := by
  induction es generalizing s with
  | nil => rfl
  | cons e es ih => simp [ih]

@[simp] theorem State.postEvt_mon (s : State) (code src body : Nat) : (s.postEvt code src body).mon = s.mon := by
  have h1 : ∀ s : State, (eventLine s).mon = s.mon := by
    intro s; unfold eventLine; split <;> simp [foldl_raiseLine_mon]
  have h2 : ∀ (n c : Nat) (s : State), (raiseIbi n c s).mon = s.mon := by
    intro n c s; unfold raiseIbi; split <;> simp
  unfold State.postEvt
  split
  · simp [h1, h2, showFill]
  · unfold State.when; split <;> simp [State.setBit_eq, State.bump_eq]

@[simp] theorem State.pushEvt_mon (s : State) (code src body : Nat) : (s.pushEvt code src body).mon = s.mon := by
  unfold State.pushEvt; split <;> simp

@[simp] theorem State.ignored_mon (s : State) (src addr detail : Nat) : (s.ignored src addr detail).mon = s.mon := by
  simp [State.ignored, State.bump_eq]

theorem foldl_raiseLine_loHz1 (l : Nat) (es : List EvtRec) (s : State) : (es.foldl (fun s _ => raiseLine l s) s).loHz1 = s.loHz1 := by
  induction es generalizing s with
  | nil => rfl
  | cons e es ih => simp [ih]

@[simp] theorem State.postEvt_loHz1 (s : State) (code src body : Nat) : (s.postEvt code src body).loHz1 = s.loHz1 := by
  have h1 : ∀ s : State, (eventLine s).loHz1 = s.loHz1 := by
    intro s; unfold eventLine; split <;> simp [foldl_raiseLine_loHz1]
  have h2 : ∀ (n c : Nat) (s : State), (raiseIbi n c s).loHz1 = s.loHz1 := by
    intro n c s; unfold raiseIbi; split <;> simp
  unfold State.postEvt
  split
  · simp [h1, h2, showFill]
  · unfold State.when; split <;> simp [State.setBit_eq, State.bump_eq]

@[simp] theorem State.pushEvt_loHz1 (s : State) (code src body : Nat) : (s.pushEvt code src body).loHz1 = s.loHz1 := by
  unfold State.pushEvt; split <;> simp

@[simp] theorem State.ignored_loHz1 (s : State) (src addr detail : Nat) : (s.ignored src addr detail).loHz1 = s.loHz1 := by
  simp [State.ignored, State.bump_eq]

theorem foldl_raiseLine_trg (l : Nat) (es : List EvtRec) (s : State) : (es.foldl (fun s _ => raiseLine l s) s).trg = s.trg := by
  induction es generalizing s with
  | nil => rfl
  | cons e es ih => simp [ih]

@[simp] theorem State.postEvt_trg (s : State) (code src body : Nat) : (s.postEvt code src body).trg = s.trg := by
  have h1 : ∀ s : State, (eventLine s).trg = s.trg := by
    intro s; unfold eventLine; split <;> simp [foldl_raiseLine_trg]
  have h2 : ∀ (n c : Nat) (s : State), (raiseIbi n c s).trg = s.trg := by
    intro n c s; unfold raiseIbi; split <;> simp
  unfold State.postEvt
  split
  · simp [h1, h2, showFill]
  · unfold State.when; split <;> simp [State.setBit_eq, State.bump_eq]

@[simp] theorem State.pushEvt_trg (s : State) (code src body : Nat) : (s.pushEvt code src body).trg = s.trg := by
  unfold State.pushEvt; split <;> simp

@[simp] theorem State.ignored_trg (s : State) (src addr detail : Nat) : (s.ignored src addr detail).trg = s.trg := by
  simp [State.ignored, State.bump_eq]

theorem foldl_raiseLine_stbRuns (l : Nat) (es : List EvtRec) (s : State) : (es.foldl (fun s _ => raiseLine l s) s).stbRuns = s.stbRuns := by
  induction es generalizing s with
  | nil => rfl
  | cons e es ih => simp [ih]

@[simp] theorem State.postEvt_stbRuns (s : State) (code src body : Nat) : (s.postEvt code src body).stbRuns = s.stbRuns := by
  have h1 : ∀ s : State, (eventLine s).stbRuns = s.stbRuns := by
    intro s; unfold eventLine; split <;> simp [foldl_raiseLine_stbRuns]
  have h2 : ∀ (n c : Nat) (s : State), (raiseIbi n c s).stbRuns = s.stbRuns := by
    intro n c s; unfold raiseIbi; split <;> simp
  unfold State.postEvt
  split
  · simp [h1, h2, showFill]
  · unfold State.when; split <;> simp [State.setBit_eq, State.bump_eq]

@[simp] theorem State.pushEvt_stbRuns (s : State) (code src body : Nat) : (s.pushEvt code src body).stbRuns = s.stbRuns := by
  unfold State.pushEvt; split <;> simp

@[simp] theorem State.ignored_stbRuns (s : State) (src addr detail : Nat) : (s.ignored src addr detail).stbRuns = s.stbRuns := by
  simp [State.ignored, State.bump_eq]

theorem foldl_raiseLine_stbOfs (l : Nat) (es : List EvtRec) (s : State) : (es.foldl (fun s _ => raiseLine l s) s).stbOfs = s.stbOfs := by
  induction es generalizing s with
  | nil => rfl
  | cons e es ih => simp [ih]

@[simp] theorem State.postEvt_stbOfs (s : State) (code src body : Nat) : (s.postEvt code src body).stbOfs = s.stbOfs := by
  have h1 : ∀ s : State, (eventLine s).stbOfs = s.stbOfs := by
    intro s; unfold eventLine; split <;> simp [foldl_raiseLine_stbOfs]
  have h2 : ∀ (n c : Nat) (s : State), (raiseIbi n c s).stbOfs = s.stbOfs := by
    intro n c s; unfold raiseIbi; split <;> simp
  unfold State.postEvt
  split
  · simp [h1, h2, showFill]
  · unfold State.when; split <;> simp [State.setBit_eq, State.bump_eq]

@[simp] theorem State.pushEvt_stbOfs (s : State) (code src body : Nat) : (s.pushEvt code src body).stbOfs = s.stbOfs := by
  unfold State.pushEvt; split <;> simp

@[simp] theorem State.ignored_stbOfs (s : State) (src addr detail : Nat) : (s.ignored src addr detail).stbOfs = s.stbOfs := by
  simp [State.ignored, State.bump_eq]

theorem foldl_raiseLine_kilnStale (l : Nat) (es : List EvtRec) (s : State) : (es.foldl (fun s _ => raiseLine l s) s).kilnStale = s.kilnStale := by
  induction es generalizing s with
  | nil => rfl
  | cons e es ih => simp [ih]

@[simp] theorem State.postEvt_kilnStale (s : State) (code src body : Nat) : (s.postEvt code src body).kilnStale = s.kilnStale := by
  have h1 : ∀ s : State, (eventLine s).kilnStale = s.kilnStale := by
    intro s; unfold eventLine; split <;> simp [foldl_raiseLine_kilnStale]
  have h2 : ∀ (n c : Nat) (s : State), (raiseIbi n c s).kilnStale = s.kilnStale := by
    intro n c s; unfold raiseIbi; split <;> simp
  unfold State.postEvt
  split
  · simp [h1, h2, showFill]
  · unfold State.when; split <;> simp [State.setBit_eq, State.bump_eq]

@[simp] theorem State.pushEvt_kilnStale (s : State) (code src body : Nat) : (s.pushEvt code src body).kilnStale = s.kilnStale := by
  unfold State.pushEvt; split <;> simp

@[simp] theorem State.ignored_kilnStale (s : State) (src addr detail : Nat) : (s.ignored src addr detail).kilnStale = s.kilnStale := by
  simp [State.ignored, State.bump_eq]

theorem foldl_raiseLine_wheel (l : Nat) (es : List EvtRec) (s : State) : (es.foldl (fun s _ => raiseLine l s) s).wheel = s.wheel := by
  induction es generalizing s with
  | nil => rfl
  | cons e es ih => simp [ih]

@[simp] theorem State.postEvt_wheel (s : State) (code src body : Nat) : (s.postEvt code src body).wheel = s.wheel := by
  have h1 : ∀ s : State, (eventLine s).wheel = s.wheel := by
    intro s; unfold eventLine; split <;> simp [foldl_raiseLine_wheel]
  have h2 : ∀ (n c : Nat) (s : State), (raiseIbi n c s).wheel = s.wheel := by
    intro n c s; unfold raiseIbi; split <;> simp
  unfold State.postEvt
  split
  · simp [h1, h2, showFill]
  · unfold State.when; split <;> simp [State.setBit_eq, State.bump_eq]

@[simp] theorem State.pushEvt_wheel (s : State) (code src body : Nat) : (s.pushEvt code src body).wheel = s.wheel := by
  unfold State.pushEvt; split <;> simp

@[simp] theorem State.ignored_wheel (s : State) (src addr detail : Nat) : (s.ignored src addr detail).wheel = s.wheel := by
  simp [State.ignored, State.bump_eq]

theorem foldl_raiseLine_syn (l : Nat) (es : List EvtRec) (s : State) : (es.foldl (fun s _ => raiseLine l s) s).syn = s.syn := by
  induction es generalizing s with
  | nil => rfl
  | cons e es ih => simp [ih]

@[simp] theorem State.postEvt_syn (s : State) (code src body : Nat) : (s.postEvt code src body).syn = s.syn := by
  have h1 : ∀ s : State, (eventLine s).syn = s.syn := by
    intro s; unfold eventLine; split <;> simp [foldl_raiseLine_syn]
  have h2 : ∀ (n c : Nat) (s : State), (raiseIbi n c s).syn = s.syn := by
    intro n c s; unfold raiseIbi; split <;> simp
  unfold State.postEvt
  split
  · simp [h1, h2, showFill]
  · unfold State.when; split <;> simp [State.setBit_eq, State.bump_eq]

@[simp] theorem State.pushEvt_syn (s : State) (code src body : Nat) : (s.pushEvt code src body).syn = s.syn := by
  unfold State.pushEvt; split <;> simp

@[simp] theorem State.ignored_syn (s : State) (src addr detail : Nat) : (s.ignored src addr detail).syn = s.syn := by
  simp [State.ignored, State.bump_eq]

theorem foldl_raiseLine_out (l : Nat) (es : List EvtRec) (s : State) : (es.foldl (fun s _ => raiseLine l s) s).out = s.out := by
  induction es generalizing s with
  | nil => rfl
  | cons e es ih => simp [ih]

@[simp] theorem State.postEvt_out (s : State) (code src body : Nat) : (s.postEvt code src body).out = s.out := by
  have h1 : ∀ s : State, (eventLine s).out = s.out := by
    intro s; unfold eventLine; split <;> simp [foldl_raiseLine_out]
  have h2 : ∀ (n c : Nat) (s : State), (raiseIbi n c s).out = s.out := by
    intro n c s; unfold raiseIbi; split <;> simp
  unfold State.postEvt
  split
  · simp [h1, h2, showFill]
  · unfold State.when; split <;> simp [State.setBit_eq, State.bump_eq]

@[simp] theorem State.pushEvt_out (s : State) (code src body : Nat) : (s.pushEvt code src body).out = s.out := by
  unfold State.pushEvt; split <;> simp

@[simp] theorem State.ignored_out (s : State) (src addr detail : Nat) : (s.ignored src addr detail).out = s.out := by
  simp [State.ignored, State.bump_eq]

theorem foldl_raiseLine_rail (l : Nat) (es : List EvtRec) (s : State) : (es.foldl (fun s _ => raiseLine l s) s).rail = s.rail := by
  induction es generalizing s with
  | nil => rfl
  | cons e es ih => simp [ih]

@[simp] theorem State.postEvt_rail (s : State) (code src body : Nat) : (s.postEvt code src body).rail = s.rail := by
  have h1 : ∀ s : State, (eventLine s).rail = s.rail := by
    intro s; unfold eventLine; split <;> simp [foldl_raiseLine_rail]
  have h2 : ∀ (n c : Nat) (s : State), (raiseIbi n c s).rail = s.rail := by
    intro n c s; unfold raiseIbi; split <;> simp
  unfold State.postEvt
  split
  · simp [h1, h2, showFill]
  · unfold State.when; split <;> simp [State.setBit_eq, State.bump_eq]

@[simp] theorem State.pushEvt_rail (s : State) (code src body : Nat) : (s.pushEvt code src body).rail = s.rail := by
  unfold State.pushEvt; split <;> simp

@[simp] theorem State.ignored_rail (s : State) (src addr detail : Nat) : (s.ignored src addr detail).rail = s.rail := by
  simp [State.ignored, State.bump_eq]

theorem foldl_raiseLine_prg (l : Nat) (es : List EvtRec) (s : State) : (es.foldl (fun s _ => raiseLine l s) s).prg = s.prg := by
  induction es generalizing s with
  | nil => rfl
  | cons e es ih => simp [ih]

@[simp] theorem State.postEvt_prg (s : State) (code src body : Nat) : (s.postEvt code src body).prg = s.prg := by
  have h1 : ∀ s : State, (eventLine s).prg = s.prg := by
    intro s; unfold eventLine; split <;> simp [foldl_raiseLine_prg]
  have h2 : ∀ (n c : Nat) (s : State), (raiseIbi n c s).prg = s.prg := by
    intro n c s; unfold raiseIbi; split <;> simp
  unfold State.postEvt
  split
  · simp [h1, h2, showFill]
  · unfold State.when; split <;> simp [State.setBit_eq, State.bump_eq]

@[simp] theorem State.pushEvt_prg (s : State) (code src body : Nat) : (s.pushEvt code src body).prg = s.prg := by
  unfold State.pushEvt; split <;> simp

@[simp] theorem State.ignored_prg (s : State) (src addr detail : Nat) : (s.ignored src addr detail).prg = s.prg := by
  simp [State.ignored, State.bump_eq]

theorem foldl_raiseLine_depArmed (l : Nat) (es : List EvtRec) (s : State) : (es.foldl (fun s _ => raiseLine l s) s).depArmed = s.depArmed := by
  induction es generalizing s with
  | nil => rfl
  | cons e es ih => simp [ih]

@[simp] theorem State.postEvt_depArmed (s : State) (code src body : Nat) : (s.postEvt code src body).depArmed = s.depArmed := by
  have h1 : ∀ s : State, (eventLine s).depArmed = s.depArmed := by
    intro s; unfold eventLine; split <;> simp [foldl_raiseLine_depArmed]
  have h2 : ∀ (n c : Nat) (s : State), (raiseIbi n c s).depArmed = s.depArmed := by
    intro n c s; unfold raiseIbi; split <;> simp
  unfold State.postEvt
  split
  · simp [h1, h2, showFill]
  · unfold State.when; split <;> simp [State.setBit_eq, State.bump_eq]

@[simp] theorem State.pushEvt_depArmed (s : State) (code src body : Nat) : (s.pushEvt code src body).depArmed = s.depArmed := by
  unfold State.pushEvt; split <;> simp

@[simp] theorem State.ignored_depArmed (s : State) (src addr detail : Nat) : (s.ignored src addr detail).depArmed = s.depArmed := by
  simp [State.ignored, State.bump_eq]

theorem foldl_raiseLine_depTrig (l : Nat) (es : List EvtRec) (s : State) : (es.foldl (fun s _ => raiseLine l s) s).depTrig = s.depTrig := by
  induction es generalizing s with
  | nil => rfl
  | cons e es ih => simp [ih]

@[simp] theorem State.postEvt_depTrig (s : State) (code src body : Nat) : (s.postEvt code src body).depTrig = s.depTrig := by
  have h1 : ∀ s : State, (eventLine s).depTrig = s.depTrig := by
    intro s; unfold eventLine; split <;> simp [foldl_raiseLine_depTrig]
  have h2 : ∀ (n c : Nat) (s : State), (raiseIbi n c s).depTrig = s.depTrig := by
    intro n c s; unfold raiseIbi; split <;> simp
  unfold State.postEvt
  split
  · simp [h1, h2, showFill]
  · unfold State.when; split <;> simp [State.setBit_eq, State.bump_eq]

@[simp] theorem State.pushEvt_depTrig (s : State) (code src body : Nat) : (s.pushEvt code src body).depTrig = s.depTrig := by
  unfold State.pushEvt; split <;> simp

@[simp] theorem State.ignored_depTrig (s : State) (src addr detail : Nat) : (s.ignored src addr detail).depTrig = s.depTrig := by
  simp [State.ignored, State.bump_eq]

theorem foldl_raiseLine_pin (l : Nat) (es : List EvtRec) (s : State) : (es.foldl (fun s _ => raiseLine l s) s).pin = s.pin := by
  induction es generalizing s with
  | nil => rfl
  | cons e es ih => simp [ih]

@[simp] theorem State.postEvt_pin (s : State) (code src body : Nat) : (s.postEvt code src body).pin = s.pin := by
  have h1 : ∀ s : State, (eventLine s).pin = s.pin := by
    intro s; unfold eventLine; split <;> simp [foldl_raiseLine_pin]
  have h2 : ∀ (n c : Nat) (s : State), (raiseIbi n c s).pin = s.pin := by
    intro n c s; unfold raiseIbi; split <;> simp
  unfold State.postEvt
  split
  · simp [h1, h2, showFill]
  · unfold State.when; split <;> simp [State.setBit_eq, State.bump_eq]

@[simp] theorem State.pushEvt_pin (s : State) (code src body : Nat) : (s.pushEvt code src body).pin = s.pin := by
  unfold State.pushEvt; split <;> simp

@[simp] theorem State.ignored_pin (s : State) (src addr detail : Nat) : (s.ignored src addr detail).pin = s.pin := by
  simp [State.ignored, State.bump_eq]

theorem foldl_raiseLine_seq (l : Nat) (es : List EvtRec) (s : State) : (es.foldl (fun s _ => raiseLine l s) s).seq = s.seq := by
  induction es generalizing s with
  | nil => rfl
  | cons e es ih => simp [ih]

@[simp] theorem State.postEvt_seq (s : State) (code src body : Nat) : (s.postEvt code src body).seq = s.seq := by
  have h1 : ∀ s : State, (eventLine s).seq = s.seq := by
    intro s; unfold eventLine; split <;> simp [foldl_raiseLine_seq]
  have h2 : ∀ (n c : Nat) (s : State), (raiseIbi n c s).seq = s.seq := by
    intro n c s; unfold raiseIbi; split <;> simp
  unfold State.postEvt
  split
  · simp [h1, h2, showFill]
  · unfold State.when; split <;> simp [State.setBit_eq, State.bump_eq]

@[simp] theorem State.pushEvt_seq (s : State) (code src body : Nat) : (s.pushEvt code src body).seq = s.seq := by
  unfold State.pushEvt; split <;> simp

@[simp] theorem State.ignored_seq (s : State) (src addr detail : Nat) : (s.ignored src addr detail).seq = s.seq := by
  simp [State.ignored, State.bump_eq]

theorem foldl_raiseLine_dma (l : Nat) (es : List EvtRec) (s : State) : (es.foldl (fun s _ => raiseLine l s) s).dma = s.dma := by
  induction es generalizing s with
  | nil => rfl
  | cons e es ih => simp [ih]

@[simp] theorem State.postEvt_dma (s : State) (code src body : Nat) : (s.postEvt code src body).dma = s.dma := by
  have h1 : ∀ s : State, (eventLine s).dma = s.dma := by
    intro s; unfold eventLine; split <;> simp [foldl_raiseLine_dma]
  have h2 : ∀ (n c : Nat) (s : State), (raiseIbi n c s).dma = s.dma := by
    intro n c s; unfold raiseIbi; split <;> simp
  unfold State.postEvt
  split
  · simp [h1, h2, showFill]
  · unfold State.when; split <;> simp [State.setBit_eq, State.bump_eq]

@[simp] theorem State.pushEvt_dma (s : State) (code src body : Nat) : (s.pushEvt code src body).dma = s.dma := by
  unfold State.pushEvt; split <;> simp

@[simp] theorem State.ignored_dma (s : State) (src addr detail : Nat) : (s.ignored src addr detail).dma = s.dma := by
  simp [State.ignored, State.bump_eq]

theorem foldl_raiseLine_rr (l : Nat) (es : List EvtRec) (s : State) : (es.foldl (fun s _ => raiseLine l s) s).rr = s.rr := by
  induction es generalizing s with
  | nil => rfl
  | cons e es ih => simp [ih]

@[simp] theorem State.postEvt_rr (s : State) (code src body : Nat) : (s.postEvt code src body).rr = s.rr := by
  have h1 : ∀ s : State, (eventLine s).rr = s.rr := by
    intro s; unfold eventLine; split <;> simp [foldl_raiseLine_rr]
  have h2 : ∀ (n c : Nat) (s : State), (raiseIbi n c s).rr = s.rr := by
    intro n c s; unfold raiseIbi; split <;> simp
  unfold State.postEvt
  split
  · simp [h1, h2, showFill]
  · unfold State.when; split <;> simp [State.setBit_eq, State.bump_eq]

@[simp] theorem State.pushEvt_rr (s : State) (code src body : Nat) : (s.pushEvt code src body).rr = s.rr := by
  unfold State.pushEvt; split <;> simp

@[simp] theorem State.ignored_rr (s : State) (src addr detail : Nat) : (s.ignored src addr detail).rr = s.rr := by
  simp [State.ignored, State.bump_eq]

theorem foldl_raiseLine_iotlb (l : Nat) (es : List EvtRec) (s : State) : (es.foldl (fun s _ => raiseLine l s) s).iotlb = s.iotlb := by
  induction es generalizing s with
  | nil => rfl
  | cons e es ih => simp [ih]

@[simp] theorem State.postEvt_iotlb (s : State) (code src body : Nat) : (s.postEvt code src body).iotlb = s.iotlb := by
  have h1 : ∀ s : State, (eventLine s).iotlb = s.iotlb := by
    intro s; unfold eventLine; split <;> simp [foldl_raiseLine_iotlb]
  have h2 : ∀ (n c : Nat) (s : State), (raiseIbi n c s).iotlb = s.iotlb := by
    intro n c s; unfold raiseIbi; split <;> simp
  unfold State.postEvt
  split
  · simp [h1, h2, showFill]
  · unfold State.when; split <;> simp [State.setBit_eq, State.bump_eq]

@[simp] theorem State.pushEvt_iotlb (s : State) (code src body : Nat) : (s.pushEvt code src body).iotlb = s.iotlb := by
  unfold State.pushEvt; split <;> simp

@[simp] theorem State.ignored_iotlb (s : State) (src addr detail : Nat) : (s.ignored src addr detail).iotlb = s.iotlb := by
  simp [State.ignored, State.bump_eq]

theorem foldl_raiseLine_walks (l : Nat) (es : List EvtRec) (s : State) : (es.foldl (fun s _ => raiseLine l s) s).walks = s.walks := by
  induction es generalizing s with
  | nil => rfl
  | cons e es ih => simp [ih]

@[simp] theorem State.postEvt_walks (s : State) (code src body : Nat) : (s.postEvt code src body).walks = s.walks := by
  have h1 : ∀ s : State, (eventLine s).walks = s.walks := by
    intro s; unfold eventLine; split <;> simp [foldl_raiseLine_walks]
  have h2 : ∀ (n c : Nat) (s : State), (raiseIbi n c s).walks = s.walks := by
    intro n c s; unfold raiseIbi; split <;> simp
  unfold State.postEvt
  split
  · simp [h1, h2, showFill]
  · unfold State.when; split <;> simp [State.setBit_eq, State.bump_eq]

@[simp] theorem State.pushEvt_walks (s : State) (code src body : Nat) : (s.pushEvt code src body).walks = s.walks := by
  unfold State.pushEvt; split <;> simp

@[simp] theorem State.ignored_walks (s : State) (src addr detail : Nat) : (s.ignored src addr detail).walks = s.walks := by
  simp [State.ignored, State.bump_eq]

theorem foldl_raiseLine_inv (l : Nat) (es : List EvtRec) (s : State) : (es.foldl (fun s _ => raiseLine l s) s).inv = s.inv := by
  induction es generalizing s with
  | nil => rfl
  | cons e es ih => simp [ih]

@[simp] theorem State.postEvt_inv (s : State) (code src body : Nat) : (s.postEvt code src body).inv = s.inv := by
  have h1 : ∀ s : State, (eventLine s).inv = s.inv := by
    intro s; unfold eventLine; split <;> simp [foldl_raiseLine_inv]
  have h2 : ∀ (n c : Nat) (s : State), (raiseIbi n c s).inv = s.inv := by
    intro n c s; unfold raiseIbi; split <;> simp
  unfold State.postEvt
  split
  · simp [h1, h2, showFill]
  · unfold State.when; split <;> simp [State.setBit_eq, State.bump_eq]

@[simp] theorem State.pushEvt_inv (s : State) (code src body : Nat) : (s.pushEvt code src body).inv = s.inv := by
  unfold State.pushEvt; split <;> simp

@[simp] theorem State.ignored_inv (s : State) (src addr detail : Nat) : (s.ignored src addr detail).inv = s.inv := by
  simp [State.ignored, State.bump_eq]

theorem foldl_raiseLine_host (l : Nat) (es : List EvtRec) (s : State) : (es.foldl (fun s _ => raiseLine l s) s).host = s.host := by
  induction es generalizing s with
  | nil => rfl
  | cons e es ih => simp [ih]

@[simp] theorem State.postEvt_host (s : State) (code src body : Nat) : (s.postEvt code src body).host = s.host := by
  have h1 : ∀ s : State, (eventLine s).host = s.host := by
    intro s; unfold eventLine; split <;> simp [foldl_raiseLine_host]
  have h2 : ∀ (n c : Nat) (s : State), (raiseIbi n c s).host = s.host := by
    intro n c s; unfold raiseIbi; split <;> simp
  unfold State.postEvt
  split
  · simp [h1, h2, showFill]
  · unfold State.when; split <;> simp [State.setBit_eq, State.bump_eq]

@[simp] theorem State.pushEvt_host (s : State) (code src body : Nat) : (s.pushEvt code src body).host = s.host := by
  unfold State.pushEvt; split <;> simp

@[simp] theorem State.ignored_host (s : State) (src addr detail : Nat) : (s.ignored src addr detail).host = s.host := by
  simp [State.ignored, State.bump_eq]

theorem foldl_raiseLine_mgt (l : Nat) (es : List EvtRec) (s : State) : (es.foldl (fun s _ => raiseLine l s) s).mgt = s.mgt := by
  induction es generalizing s with
  | nil => rfl
  | cons e es ih => simp [ih]

@[simp] theorem State.postEvt_mgt (s : State) (code src body : Nat) : (s.postEvt code src body).mgt = s.mgt := by
  have h1 : ∀ s : State, (eventLine s).mgt = s.mgt := by
    intro s; unfold eventLine; split <;> simp [foldl_raiseLine_mgt]
  have h2 : ∀ (n c : Nat) (s : State), (raiseIbi n c s).mgt = s.mgt := by
    intro n c s; unfold raiseIbi; split <;> simp
  unfold State.postEvt
  split
  · simp [h1, h2, showFill]
  · unfold State.when; split <;> simp [State.setBit_eq, State.bump_eq]

@[simp] theorem State.pushEvt_mgt (s : State) (code src body : Nat) : (s.pushEvt code src body).mgt = s.mgt := by
  unfold State.pushEvt; split <;> simp

@[simp] theorem State.ignored_mgt (s : State) (src addr detail : Nat) : (s.ignored src addr detail).mgt = s.mgt := by
  simp [State.ignored, State.bump_eq]

theorem foldl_raiseLine_otp (l : Nat) (es : List EvtRec) (s : State) : (es.foldl (fun s _ => raiseLine l s) s).otp = s.otp := by
  induction es generalizing s with
  | nil => rfl
  | cons e es ih => simp [ih]

@[simp] theorem State.postEvt_otp (s : State) (code src body : Nat) : (s.postEvt code src body).otp = s.otp := by
  have h1 : ∀ s : State, (eventLine s).otp = s.otp := by
    intro s; unfold eventLine; split <;> simp [foldl_raiseLine_otp]
  have h2 : ∀ (n c : Nat) (s : State), (raiseIbi n c s).otp = s.otp := by
    intro n c s; unfold raiseIbi; split <;> simp
  unfold State.postEvt
  split
  · simp [h1, h2, showFill]
  · unfold State.when; split <;> simp [State.setBit_eq, State.bump_eq]

@[simp] theorem State.pushEvt_otp (s : State) (code src body : Nat) : (s.pushEvt code src body).otp = s.otp := by
  unfold State.pushEvt; split <;> simp

@[simp] theorem State.ignored_otp (s : State) (src addr detail : Nat) : (s.ignored src addr detail).otp = s.otp := by
  simp [State.ignored, State.bump_eq]

theorem foldl_raiseLine_img (l : Nat) (es : List EvtRec) (s : State) : (es.foldl (fun s _ => raiseLine l s) s).img = s.img := by
  induction es generalizing s with
  | nil => rfl
  | cons e es ih => simp [ih]

@[simp] theorem State.postEvt_img (s : State) (code src body : Nat) : (s.postEvt code src body).img = s.img := by
  have h1 : ∀ s : State, (eventLine s).img = s.img := by
    intro s; unfold eventLine; split <;> simp [foldl_raiseLine_img]
  have h2 : ∀ (n c : Nat) (s : State), (raiseIbi n c s).img = s.img := by
    intro n c s; unfold raiseIbi; split <;> simp
  unfold State.postEvt
  split
  · simp [h1, h2, showFill]
  · unfold State.when; split <;> simp [State.setBit_eq, State.bump_eq]

@[simp] theorem State.pushEvt_img (s : State) (code src body : Nat) : (s.pushEvt code src body).img = s.img := by
  unfold State.pushEvt; split <;> simp

@[simp] theorem State.ignored_img (s : State) (src addr detail : Nat) : (s.ignored src addr detail).img = s.img := by
  simp [State.ignored, State.bump_eq]

theorem foldl_raiseLine_stg (l : Nat) (es : List EvtRec) (s : State) : (es.foldl (fun s _ => raiseLine l s) s).stg = s.stg := by
  induction es generalizing s with
  | nil => rfl
  | cons e es ih => simp [ih]

@[simp] theorem State.postEvt_stg (s : State) (code src body : Nat) : (s.postEvt code src body).stg = s.stg := by
  have h1 : ∀ s : State, (eventLine s).stg = s.stg := by
    intro s; unfold eventLine; split <;> simp [foldl_raiseLine_stg]
  have h2 : ∀ (n c : Nat) (s : State), (raiseIbi n c s).stg = s.stg := by
    intro n c s; unfold raiseIbi; split <;> simp
  unfold State.postEvt
  split
  · simp [h1, h2, showFill]
  · unfold State.when; split <;> simp [State.setBit_eq, State.bump_eq]

@[simp] theorem State.pushEvt_stg (s : State) (code src body : Nat) : (s.pushEvt code src body).stg = s.stg := by
  unfold State.pushEvt; split <;> simp

@[simp] theorem State.ignored_stg (s : State) (src addr detail : Nat) : (s.ignored src addr detail).stg = s.stg := by
  simp [State.ignored, State.bump_eq]

theorem foldl_raiseLine_wdg (l : Nat) (es : List EvtRec) (s : State) : (es.foldl (fun s _ => raiseLine l s) s).wdg = s.wdg := by
  induction es generalizing s with
  | nil => rfl
  | cons e es ih => simp [ih]

@[simp] theorem State.postEvt_wdg (s : State) (code src body : Nat) : (s.postEvt code src body).wdg = s.wdg := by
  have h1 : ∀ s : State, (eventLine s).wdg = s.wdg := by
    intro s; unfold eventLine; split <;> simp [foldl_raiseLine_wdg]
  have h2 : ∀ (n c : Nat) (s : State), (raiseIbi n c s).wdg = s.wdg := by
    intro n c s; unfold raiseIbi; split <;> simp
  unfold State.postEvt
  split
  · simp [h1, h2, showFill]
  · unfold State.when; split <;> simp [State.setBit_eq, State.bump_eq]

@[simp] theorem State.pushEvt_wdg (s : State) (code src body : Nat) : (s.pushEvt code src body).wdg = s.wdg := by
  unfold State.pushEvt; split <;> simp

@[simp] theorem State.ignored_wdg (s : State) (src addr detail : Nat) : (s.ignored src addr detail).wdg = s.wdg := by
  simp [State.ignored, State.bump_eq]

theorem foldl_raiseLine_pkg_ (l : Nat) (es : List EvtRec) (s : State) : (es.foldl (fun s _ => raiseLine l s) s).pkg_ = s.pkg_ := by
  induction es generalizing s with
  | nil => rfl
  | cons e es ih => simp [ih]

@[simp] theorem State.postEvt_pkg_ (s : State) (code src body : Nat) : (s.postEvt code src body).pkg_ = s.pkg_ := by
  have h1 : ∀ s : State, (eventLine s).pkg_ = s.pkg_ := by
    intro s; unfold eventLine; split <;> simp [foldl_raiseLine_pkg_]
  have h2 : ∀ (n c : Nat) (s : State), (raiseIbi n c s).pkg_ = s.pkg_ := by
    intro n c s; unfold raiseIbi; split <;> simp
  unfold State.postEvt
  split
  · simp [h1, h2, showFill]
  · unfold State.when; split <;> simp [State.setBit_eq, State.bump_eq]

@[simp] theorem State.pushEvt_pkg_ (s : State) (code src body : Nat) : (s.pushEvt code src body).pkg_ = s.pkg_ := by
  unfold State.pushEvt; split <;> simp

@[simp] theorem State.ignored_pkg_ (s : State) (src addr detail : Nat) : (s.ignored src addr detail).pkg_ = s.pkg_ := by
  simp [State.ignored, State.bump_eq]

theorem foldl_raiseLine_flash (l : Nat) (es : List EvtRec) (s : State) : (es.foldl (fun s _ => raiseLine l s) s).flash = s.flash := by
  induction es generalizing s with
  | nil => rfl
  | cons e es ih => simp [ih]

@[simp] theorem State.postEvt_flash (s : State) (code src body : Nat) : (s.postEvt code src body).flash = s.flash := by
  have h1 : ∀ s : State, (eventLine s).flash = s.flash := by
    intro s; unfold eventLine; split <;> simp [foldl_raiseLine_flash]
  have h2 : ∀ (n c : Nat) (s : State), (raiseIbi n c s).flash = s.flash := by
    intro n c s; unfold raiseIbi; split <;> simp
  unfold State.postEvt
  split
  · simp [h1, h2, showFill]
  · unfold State.when; split <;> simp [State.setBit_eq, State.bump_eq]

@[simp] theorem State.pushEvt_flash (s : State) (code src body : Nat) : (s.pushEvt code src body).flash = s.flash := by
  unfold State.pushEvt; split <;> simp

@[simp] theorem State.ignored_flash (s : State) (src addr detail : Nat) : (s.ignored src addr detail).flash = s.flash := by
  simp [State.ignored, State.bump_eq]

theorem foldl_raiseLine_torn (l : Nat) (es : List EvtRec) (s : State) : (es.foldl (fun s _ => raiseLine l s) s).torn = s.torn := by
  induction es generalizing s with
  | nil => rfl
  | cons e es ih => simp [ih]

@[simp] theorem State.postEvt_torn (s : State) (code src body : Nat) : (s.postEvt code src body).torn = s.torn := by
  have h1 : ∀ s : State, (eventLine s).torn = s.torn := by
    intro s; unfold eventLine; split <;> simp [foldl_raiseLine_torn]
  have h2 : ∀ (n c : Nat) (s : State), (raiseIbi n c s).torn = s.torn := by
    intro n c s; unfold raiseIbi; split <;> simp
  unfold State.postEvt
  split
  · simp [h1, h2, showFill]
  · unfold State.when; split <;> simp [State.setBit_eq, State.bump_eq]

@[simp] theorem State.pushEvt_torn (s : State) (code src body : Nat) : (s.pushEvt code src body).torn = s.torn := by
  unfold State.pushEvt; split <;> simp

@[simp] theorem State.ignored_torn (s : State) (src addr detail : Nat) : (s.ignored src addr detail).torn = s.torn := by
  simp [State.ignored, State.bump_eq]

theorem foldl_raiseLine_lnk (l : Nat) (es : List EvtRec) (s : State) : (es.foldl (fun s _ => raiseLine l s) s).lnk = s.lnk := by
  induction es generalizing s with
  | nil => rfl
  | cons e es ih => simp [ih]

@[simp] theorem State.postEvt_lnk (s : State) (code src body : Nat) : (s.postEvt code src body).lnk = s.lnk := by
  have h1 : ∀ s : State, (eventLine s).lnk = s.lnk := by
    intro s; unfold eventLine; split <;> simp [foldl_raiseLine_lnk]
  have h2 : ∀ (n c : Nat) (s : State), (raiseIbi n c s).lnk = s.lnk := by
    intro n c s; unfold raiseIbi; split <;> simp
  unfold State.postEvt
  split
  · simp [h1, h2, showFill]
  · unfold State.when; split <;> simp [State.setBit_eq, State.bump_eq]

@[simp] theorem State.pushEvt_lnk (s : State) (code src body : Nat) : (s.pushEvt code src body).lnk = s.lnk := by
  unfold State.pushEvt; split <;> simp

@[simp] theorem State.ignored_lnk (s : State) (src addr detail : Nat) : (s.ignored src addr detail).lnk = s.lnk := by
  simp [State.ignored, State.bump_eq]

theorem foldl_raiseLine_sys (l : Nat) (es : List EvtRec) (s : State) : (es.foldl (fun s _ => raiseLine l s) s).sys = s.sys := by
  induction es generalizing s with
  | nil => rfl
  | cons e es ih => simp [ih]

@[simp] theorem State.postEvt_sys (s : State) (code src body : Nat) : (s.postEvt code src body).sys = s.sys := by
  have h1 : ∀ s : State, (eventLine s).sys = s.sys := by
    intro s; unfold eventLine; split <;> simp [foldl_raiseLine_sys]
  have h2 : ∀ (n c : Nat) (s : State), (raiseIbi n c s).sys = s.sys := by
    intro n c s; unfold raiseIbi; split <;> simp
  unfold State.postEvt
  split
  · simp [h1, h2, showFill]
  · unfold State.when; split <;> simp [State.setBit_eq, State.bump_eq]

@[simp] theorem State.pushEvt_sys (s : State) (code src body : Nat) : (s.pushEvt code src body).sys = s.sys := by
  unfold State.pushEvt; split <;> simp

@[simp] theorem State.ignored_sys (s : State) (src addr detail : Nat) : (s.ignored src addr detail).sys = s.sys := by
  simp [State.ignored, State.bump_eq]

theorem foldl_raiseLine_rxq (l : Nat) (es : List EvtRec) (s : State) : (es.foldl (fun s _ => raiseLine l s) s).rxq = s.rxq := by
  induction es generalizing s with
  | nil => rfl
  | cons e es ih => simp [ih]

@[simp] theorem State.postEvt_rxq (s : State) (code src body : Nat) : (s.postEvt code src body).rxq = s.rxq := by
  have h1 : ∀ s : State, (eventLine s).rxq = s.rxq := by
    intro s; unfold eventLine; split <;> simp [foldl_raiseLine_rxq]
  have h2 : ∀ (n c : Nat) (s : State), (raiseIbi n c s).rxq = s.rxq := by
    intro n c s; unfold raiseIbi; split <;> simp
  unfold State.postEvt
  split
  · simp [h1, h2, showFill]
  · unfold State.when; split <;> simp [State.setBit_eq, State.bump_eq]

@[simp] theorem State.pushEvt_rxq (s : State) (code src body : Nat) : (s.pushEvt code src body).rxq = s.rxq := by
  unfold State.pushEvt; split <;> simp

@[simp] theorem State.ignored_rxq (s : State) (src addr detail : Nat) : (s.ignored src addr detail).rxq = s.rxq := by
  simp [State.ignored, State.bump_eq]

theorem foldl_raiseLine_engMem (l : Nat) (es : List EvtRec) (s : State) : (es.foldl (fun s _ => raiseLine l s) s).engMem = s.engMem := by
  induction es generalizing s with
  | nil => rfl
  | cons e es ih => simp [ih]

@[simp] theorem State.postEvt_engMem (s : State) (code src body : Nat) : (s.postEvt code src body).engMem = s.engMem := by
  have h1 : ∀ s : State, (eventLine s).engMem = s.engMem := by
    intro s; unfold eventLine; split <;> simp [foldl_raiseLine_engMem]
  have h2 : ∀ (n c : Nat) (s : State), (raiseIbi n c s).engMem = s.engMem := by
    intro n c s; unfold raiseIbi; split <;> simp
  unfold State.postEvt
  split
  · simp [h1, h2, showFill]
  · unfold State.when; split <;> simp [State.setBit_eq, State.bump_eq]

@[simp] theorem State.pushEvt_engMem (s : State) (code src body : Nat) : (s.pushEvt code src body).engMem = s.engMem := by
  unfold State.pushEvt; split <;> simp

@[simp] theorem State.ignored_engMem (s : State) (src addr detail : Nat) : (s.ignored src addr detail).engMem = s.engMem := by
  simp [State.ignored, State.bump_eq]

theorem foldl_raiseLine_freeCount (l : Nat) (es : List EvtRec) (s : State) : (es.foldl (fun s _ => raiseLine l s) s).freeCount = s.freeCount := by
  induction es generalizing s with
  | nil => rfl
  | cons e es ih => simp [ih]

@[simp] theorem State.postEvt_freeCount (s : State) (code src body : Nat) : (s.postEvt code src body).freeCount = s.freeCount := by
  have h1 : ∀ s : State, (eventLine s).freeCount = s.freeCount := by
    intro s; unfold eventLine; split <;> simp [foldl_raiseLine_freeCount]
  have h2 : ∀ (n c : Nat) (s : State), (raiseIbi n c s).freeCount = s.freeCount := by
    intro n c s; unfold raiseIbi; split <;> simp
  unfold State.postEvt
  split
  · simp [h1, h2, showFill]
  · unfold State.when; split <;> simp [State.setBit_eq, State.bump_eq]

@[simp] theorem State.pushEvt_freeCount (s : State) (code src body : Nat) : (s.pushEvt code src body).freeCount = s.freeCount := by
  unfold State.pushEvt; split <;> simp

@[simp] theorem State.ignored_freeCount (s : State) (src addr detail : Nat) : (s.ignored src addr detail).freeCount = s.freeCount := by
  simp [State.ignored, State.bump_eq]

theorem foldl_raiseLine_pending (l : Nat) (es : List EvtRec) (s : State) : (es.foldl (fun s _ => raiseLine l s) s).pending = s.pending := by
  induction es generalizing s with
  | nil => rfl
  | cons e es ih => simp [ih]

@[simp] theorem State.postEvt_pending (s : State) (code src body : Nat) : (s.postEvt code src body).pending = s.pending := by
  have h1 : ∀ s : State, (eventLine s).pending = s.pending := by
    intro s; unfold eventLine; split <;> simp [foldl_raiseLine_pending]
  have h2 : ∀ (n c : Nat) (s : State), (raiseIbi n c s).pending = s.pending := by
    intro n c s; unfold raiseIbi; split <;> simp
  unfold State.postEvt
  split
  · simp [h1, h2, showFill]
  · unfold State.when; split <;> simp [State.setBit_eq, State.bump_eq]

@[simp] theorem State.pushEvt_pending (s : State) (code src body : Nat) : (s.pushEvt code src body).pending = s.pending := by
  unfold State.pushEvt; split <;> simp

@[simp] theorem State.ignored_pending (s : State) (src addr detail : Nat) : (s.ignored src addr detail).pending = s.pending := by
  simp [State.ignored, State.bump_eq]

@[simp] theorem State.ignored_evtFifo (s : State) (src addr detail : Nat) : (s.ignored src addr detail).evtFifo = s.evtFifo := by
  simp [State.ignored, State.bump_eq]

@[simp] theorem State.ignored_evtSeq (s : State) (src addr detail : Nat) : (s.ignored src addr detail).evtSeq = s.evtSeq := by
  simp [State.ignored, State.bump_eq]

@[simp] theorem State.ignored_evtDropped (s : State) (src addr detail : Nat) : (s.ignored src addr detail).evtDropped = s.evtDropped := by
  simp [State.ignored, State.bump_eq]

@[simp] theorem State.ignored_evtFull (s : State) (src addr detail : Nat) : (s.ignored src addr detail).evtFull = s.evtFull := by
  simp [State.ignored, State.bump_eq]

@[simp] theorem State.ignored_sent (s : State) (src addr detail : Nat) : (s.ignored src addr detail).sent = s.sent := by
  simp [State.ignored, State.bump_eq]

@[simp] theorem State.ignored_lineWait (s : State) (src addr detail : Nat) : (s.ignored src addr detail).lineWait = s.lineWait := by
  simp [State.ignored, State.bump_eq]

@[simp] theorem State.ignored_lineSeq (s : State) (src addr detail : Nat) : (s.ignored src addr detail).lineSeq = s.lineSeq := by
  simp [State.ignored, State.bump_eq]

end Sys2Proof.Machine
end

