-- ==== Sys2Proof/Laws/Frame.lean ====
section
/-! SUPPORT. Sys2Proof/Laws/Frame.lean: what the shared operations can do, said once for every property of states that a write of some
registers keeps and that does not look beyond the registers and the stores; and the properties of that kind:
the canonical forms, the queue, and the frames of Safety.lean. A proof about a command walks its meaning with these lemmas. -/

namespace Sys2Proof.Machine

theorem Stored.refl (s : State) : Stored s s := ⟨rfl, rfl, rfl, rfl, rfl⟩

theorem Stored.trans {s t u : State} (h1 : Stored s t) (h2 : Stored t u) : Stored s u :=
  ⟨h2.1.trans h1.1, h2.2.1.trans h1.2.1, h2.2.2.1.trans h1.2.2.1, h2.2.2.2.1.trans h1.2.2.2.1,
    h2.2.2.2.2.trans h1.2.2.2.2⟩

/-- A property of states that every write of a register `ok` picks keeps, and that only the registers, the flash, the engines' memories, the
fuses and the queue decide. -/
structure Kept (ok : Reg → Prop) (P : State → Prop) : Prop where
  word : ∀ (s : State) (r : Reg) (w : Word), ok r → P s → P (s.setWord r w)
  rest : ∀ s t : State, t.regs = s.regs → Stored s t → P s → P t

namespace Kept

variable {ok : Reg → Prop} {P : State → Prop} {s : State}

theorem set (k : Kept ok P) (f : Fld) (v : Nat) (h : ok f.reg) (hs : P s) : P (s.set f v) := k.word _ _ _ h hs
theorem put (k : Kept ok P) (f : Fld) (b : Bool) (h : ok f.reg) (hs : P s) : P (s.put f b) := k.set _ _ h hs
theorem setBit (k : Kept ok P) (f : Fld) (i : Nat) (b : Bool) (h : ok f.reg) (hs : P s) : P (s.setBit f i b) := k.set _ _ h hs
theorem bumpBy (k : Kept ok P) (f : Fld) (n : Nat) (h : ok f.reg) (hs : P s) : P (s.bumpBy f n) := k.set _ _ h hs
theorem bump (k : Kept ok P) (f : Fld) (h : ok f.reg) (hs : P s) : P (s.bump f) := k.set _ _ h hs
theorem setS (k : Kept ok P) (f : Fld) (v : Int) (h : ok f.reg) (hs : P s) : P (s.setS f v) := k.set _ _ h hs

theorem setWide (k : Kept ok P) (lo hi : Fld) (v : Nat) (hl : ok lo.reg) (hh : ok hi.reg) (hs : P s) : P (s.setWide lo hi v) :=
  k.set _ _ hh (k.set _ _ hl hs)

theorem setS48 (k : Kept ok P) (lo hi : Fld) (v : Int) (hl : ok lo.reg) (hh : ok hi.reg) (hs : P s) : P (s.setS48 lo hi v) :=
  k.setWide _ _ _ hl hh hs

theorem emit (k : Kept ok P) (e : Emit) (hs : P s) : P (s.emit e) := k.rest s _ rfl (.refl s) hs

theorem vector (k : Kept ok P) (v : Nat) (h : ok ⟨.MSIX_PBA, v / 32, 0, 0⟩) (hs : P s) : P (s.vector v) := by
  unfold State.vector
  split
  · exact k.setBit _ _ _ h hs
  · exact k.emit _ hs

theorem raiseLine (k : Kept ok P) (l : Nat) (h : ok ⟨.DMA_REQ_PEND, 0, 0, 0⟩) (hs : P s) : P (raiseLine l s) :=
  k.setBit _ _ _ h (k.rest s _ rfl (.refl s) hs)

end Kept

/-- A list walked through keeps what each of its steps keeps. -/
theorem foldl_keeps {α : Type} {P : State → Prop} (l : List α) (f : State → α → State) (h : ∀ a ∈ l, ∀ s, P s → P (f s a))
    {s : State} (hs : P s) : P (l.foldl f s) := by
  induction l generalizing s with
  | nil => exact hs
  | cons a l ih => exact ih (fun b hb => h b (List.mem_cons_of_mem _ hb)) (h a List.mem_cons_self s hs)

/-- An operation for each number keeps what each of its steps keeps. -/
theorem State.each_keeps {P : State → Prop} (n : Nat) (f : Nat → State → State) (h : ∀ i, i < n → ∀ s, P s → P (f i s)) {s : State}
    (hs : P s) : P (s.each n f) :=
  foldl_keeps _ _ (fun i hi => h i (List.mem_range.1 hi)) hs

/-- An operation under a condition keeps what it keeps. -/
theorem State.when_keeps {P : State → Prop} (b : Bool) (f : State → State) {s : State} (h : b = true → P s → P (f s)) (hs : P s) :
    P (s.when b f) := by
  unfold State.when
  split
  · next hb => exact h hb hs
  · exact hs

namespace Kept

variable {ok : Reg → Prop} {P : State → Prop} {s : State}

theorem eventLine (k : Kept ok P) (h : ok ⟨.DMA_REQ_PEND, 0, 0, 0⟩) (hs : P s) : P (eventLine s) := by
  unfold Machine.eventLine
  split
  · exact k.rest ((s.evtFifo.filter (fun e => e.req.isNone)).foldl (fun s _ => Machine.raiseLine lineEvent s) s) _ rfl (.refl _)
      (foldl_keeps _ _ (fun _ _ _ h2 => k.raiseLine _ h h2) hs)
  · exact hs

theorem raiseIbi (k : Kept ok P) (a b : Nat) (hs : P s) : P (raiseIbi a b s) := by
  unfold Machine.raiseIbi
  split
  · exact k.emit _ hs
  · exact hs

/-- Posting an event writes the event registers alone. -/
theorem postEvt (k : Kept ok P) (code src body : Nat) (h : ∀ r : Reg, r.off ∈ eventOffs → ok r) (hs : P s) :
    P (s.postEvt code src body) := by
  have hl : ok ⟨.DMA_REQ_PEND, 0, 0, 0⟩ := h _ (by simp [eventOffs])
  have hm : ok ⟨.MGT_EV, 0, 0, 0⟩ := h _ (by simp [eventOffs])
  have hc : ok ⟨.GLB_EVCNT, 0, 0, 0⟩ := h _ (by simp [eventOffs])
  have he : ok ⟨.GLB_EVT, 0, 0, 0⟩ := h _ (by simp [eventOffs])
  unfold State.postEvt
  dsimp only
  split
  · exact k.raiseIbi _ _ (k.set _ _ hm (k.eventLine hl (k.rest s _ rfl (.refl s) hs)))
  · exact State.when_keeps _ _ (fun _ => k.setBit _ _ _ he) (k.bump _ hc (k.rest s _ rfl (.refl s) hs))

/-- So does sending one. -/
theorem pushEvt (k : Kept ok P) (code src body : Nat) (h : ∀ r : Reg, r.off ∈ eventOffs → ok r) (hs : P s) :
    P (s.pushEvt code src body) := by
  unfold State.pushEvt
  split
  · exact k.postEvt _ _ _ h hs
  · exact hs

/-- Raising an event writes its sticky bit and the event registers. -/
theorem raise (k : Kept ok P) (f : Fld) (i code src : Nat) (body : List (Nat × Nat)) (hf : ok f.reg)
    (h : ∀ r : Reg, r.off ∈ eventOffs → ok r) (hs : P s) : P (s.raise f i code src body) :=
  k.pushEvt _ _ _ h (k.setBit _ _ _ hf hs)

/-- An ignored action writes its three registers alone. -/
theorem ignored (k : Kept ok P) (source addr detail : Nat) (h : ∀ r : Reg, r.off ∈ ignoredOffs → ok r) (hs : P s) :
    P (s.ignored source addr detail) := by
  have h1 : ok ⟨.GLB_IGNORED_CNT, 0, 0, 0⟩ := h _ (by simp [ignoredOffs])
  have h2 : ok ⟨.GLB_IGNORED_LAST_A, 0, 0, 0⟩ := h _ (by simp [ignoredOffs])
  have h3 : ok ⟨.GLB_IGNORED_LAST_S, 0, 0, 0⟩ := h _ (by simp [ignoredOffs])
  exact k.set _ _ h3 (k.set _ _ h3 (k.set _ _ h2 (k.bump _ h1 hs)))

end Kept

/-! ### The properties -/

/-- Every register write keeps the register file's canonical form. -/
theorem kept_regsWf : Kept (fun _ => True) (fun s => RegsWf s.regs) where
  word _ r w _ h := h.store r w
  rest _ _ hr _ h := by rw [hr]; exact h

/-- Every register write keeps the canonical forms. -/
theorem kept_canon : Kept (fun _ => True) State.Canon where
  word _ r w _ h := ⟨h.1.store r w, h.2⟩
  rest _ _ hr hk h := ⟨by rw [hr]; exact h.1, by rw [hk.1, hk.2.2.1]; exact h.2⟩

/-- No register write reaches the queue. -/
theorem kept_pending (l : List Instr) : Kept (fun _ => True) (fun s => s.pending = l) where
  word _ _ _ _ h := h
  rest _ _ _ hk h := hk.2.2.2.2.trans h

theorem State.word_of_regs {s t : State} (h : t.regs = s.regs) (q : Reg) : t.word q = s.word q := by
  unfold State.word; rw [h]

/-- A word of another register is kept. -/
theorem kept_word (q : Reg) (w : Word) : Kept (fun r => r ≠ q) (fun s => s.word q = w) where
  word _ _ _ h hs := (State.word_setWord_ne _ _ _ h).trans hs
  rest _ _ hr _ h := (State.word_of_regs hr q).trans h

/-- A field of another register is kept. -/
theorem kept_get (f : Fld) (v : Nat) : Kept (fun r => r ≠ f.reg) (fun s => s.get f = v) where
  word _ _ _ h hs := by unfold State.get at *; rw [State.word_setWord_ne _ _ _ h]; exact hs
  rest _ _ hr _ h := by unfold State.get at *; rw [State.word_of_regs hr]; exact h

/-- Writes of the listed offsets keep a frame. -/
theorem kept_frame (s : State) (offs : List Nat) : Kept (fun r => r.off ∈ offs) (fun t => Frame s t offs) where
  word _ _ _ hr h := ⟨fun q hq hn => (State.word_setWord_ne _ _ _ (Reg.ne_of_off (fun e => hn (e ▸ hr)))).trans (h.1 q hq hn), h.2⟩
  rest _ _ hr hk h := ⟨fun q hq hn => (State.word_of_regs hr q).trans (h.1 q hq hn), h.2.trans hk⟩

/-- A register within spans of offsets, or one of the event registers. -/
def Reg.inSpans (spans : List (Nat × Nat)) (r : Reg) : Prop := (∃ a ∈ spans, a.1 ≤ r.off ∧ r.off < a.2) ∨ r.off ∈ eventOffs

theorem Reg.inSpans_of_event {spans : List (Nat × Nat)} {r : Reg} (h : r.off ∈ eventOffs) : r.inSpans spans := .inr h

theorem Reg.inSpans.ne {spans : List (Nat × Nat)} {r q : Reg} (h : r.inSpans spans) (hs : ∀ a ∈ spans, q.off < a.1 ∨ a.2 ≤ q.off)
    (he : q.off ∉ eventOffs) : r ≠ q := by
  rintro rfl
  rcases h with ⟨a, ha, h1, h2⟩ | h
  · rcases hs a ha with h | h <;> omega
  · exact he h

/-- Writes within the spans keep the registers outside them. -/
theorem kept_regsWithin (s : State) (spans : List (Nat × Nat)) : Kept (Reg.inSpans spans) (fun t => RegsWithin s t spans) where
  word _ _ _ hr h q hq hs he := (State.word_setWord_ne _ _ _ (hr.ne hs he)).trans (h q hq hs he)
  rest _ _ hr _ h q hq hs he := (State.word_of_regs hr q).trans (h q hq hs he)

/-- And with them the stores. -/
theorem kept_within (s : State) (spans : List (Nat × Nat)) : Kept (Reg.inSpans spans) (fun t => Within s t spans) where
  word _ _ _ hr h := ⟨(kept_regsWithin s spans).word _ _ _ hr h.1, h.2⟩
  rest _ _ hr hk h := ⟨(kept_regsWithin s spans).rest _ _ hr hk h.1, h.2.trans hk⟩

theorem Frame.refl (s : State) (offs : List Nat) : Frame s s offs := ⟨fun _ _ _ => rfl, .refl s⟩
theorem RegsWithin.refl (s : State) (spans : List (Nat × Nat)) : RegsWithin s s spans := fun _ _ _ _ => rfl
theorem Within.refl (s : State) (spans : List (Nat × Nat)) : Within s s spans := ⟨RegsWithin.refl s spans, .refl s⟩

theorem Frame.trans {s t u : State} {offs : List Nat} (h1 : Frame s t offs) (h2 : Frame t u offs) : Frame s u offs :=
  ⟨fun q hq hn => (h2.1 q hq hn).trans (h1.1 q hq hn), h1.2.trans h2.2⟩

theorem RegsWithin.trans {s t u : State} {spans : List (Nat × Nat)} (h1 : RegsWithin s t spans) (h2 : RegsWithin t u spans) :
    RegsWithin s u spans :=
  fun q hq hs he => (h2 q hq hs he).trans (h1 q hq hs he)

theorem Within.trans {s t u : State} {spans : List (Nat × Nat)} (h1 : Within s t spans) (h2 : Within t u spans) : Within s u spans :=
  ⟨h1.1.trans h2.1, h1.2.trans h2.2⟩

/-- A frame over more spans says less. -/
theorem RegsWithin.mono {s t : State} {a b : List (Nat × Nat)} (h : RegsWithin s t a) (hab : ∀ x ∈ a, x ∈ b) : RegsWithin s t b :=
  fun q hq hs he => h q hq (fun x hx => hs x (hab x hx)) he

theorem Within.mono {s t : State} {a b : List (Nat × Nat)} (h : Within s t a) (hab : ∀ x ∈ a, x ∈ b) : Within s t b :=
  ⟨h.1.mono hab, h.2⟩

/-! ### No event -/

theorem Silent.refl (s : State) : Silent s s := ⟨rfl, rfl⟩

theorem Silent.trans {s t u : State} (h1 : Silent s t) (h2 : Silent t u) : Silent s u := ⟨h2.1.trans h1.1, h2.2.trans h1.2⟩

/-- A register write posts no event. -/
theorem Silent.setWord {s t : State} (h : Silent s t) (r : Reg) (w : Word) : Silent s (t.setWord r w) := h

theorem Silent.set {s t : State} (h : Silent s t) (f : Fld) (v : Nat) : Silent s (t.set f v) := h

/-- Neither does anything that leaves the FIFO and its count as they are. -/
theorem Silent.rest {s t u : State} (h : Silent s t) (hq : u.evtSeq = t.evtSeq) (hf : u.evtFifo = t.evtFifo) : Silent s u :=
  ⟨hq.trans h.1, by rw [hf]; exact h.2⟩

/-- Nor an ignored action. -/
theorem Silent.ignored {s t : State} (h : Silent s t) (source addr detail : Nat) : Silent s (t.ignored source addr detail) :=
  h.rest (State.ignored_evtSeq _ _ _ _) (State.ignored_evtFifo _ _ _ _)

/-- Sending an event after nothing else has been posted: one event more, the FIFO's last with room, unless its die is isolated
(R280, R22). -/
theorem posted_pushEvt {s t : State} (h : Silent s t) (code src body : Nat)
    (hl : t.linked (evtDie code src) dieC = s.linked (evtDie code src) dieC) : Posted s (t.pushEvt code src body) code src := by
  unfold Posted State.pushEvt
  rw [hl]
  split
  · refine ⟨by rw [State.postEvt_evtSeq, h.1], fun hroom => ?_⟩
    have hlen : t.evtFifo.length = s.evtFifo.length := by simpa using congrArg List.length h.2
    have hc := State.postEvt_codes t code src body (by omega)
    have hn : (t.postEvt code src body).evtFifo ≠ [] := by
      intro e; rw [e] at hc; simp at hc
    obtain ⟨l, e, he⟩ := List.eq_nil_or_concat _ |>.resolve_left hn
    rw [he] at hc
    simp only [List.concat_eq_append, List.map_append, List.map_cons, List.map_nil] at hc
    have hc2 := List.append_inj_right' hc rfl
    simp only [List.cons.injEq, Prod.mk.injEq, and_true] at hc2
    refine ⟨e, by rw [he]; simp, hc2.1, hc2.2.1, ?_⟩
    rw [hc2.2.2.1, h.1]
  · exact h

/-- Whether two dies are linked is told by GLB_DIE alone. -/
theorem State.linked_of_word {s t : State} (h : t.word ⟨.GLB_DIE, 0, 0, 0⟩ = s.word ⟨.GLB_DIE, 0, 0, 0⟩) (a b : Nat) :
    t.linked a b = s.linked a b := by
  have hb : ∀ d, t.isolated d = s.isolated d := fun d => by
    unfold State.isolated State.bit State.get; rw [show GLB_DIE_ISOLATED.reg = ⟨.GLB_DIE, 0, 0, 0⟩ from rfl, h]
  unfold State.linked
  rw [hb, hb]

/-- So does raising one whose sticky bit is not in GLB_DIE. -/
theorem posted_raise {s t : State} (h : Silent s t) (f : Fld) (i code src : Nat) (body : List (Nat × Nat))
    (hd : t.word ⟨.GLB_DIE, 0, 0, 0⟩ = s.word ⟨.GLB_DIE, 0, 0, 0⟩) (hf : f.reg ≠ ⟨.GLB_DIE, 0, 0, 0⟩) :
    Posted s (t.raise f i code src body) code src :=
  posted_pushEvt (h.set _ _) _ _ _ (State.linked_of_word ((State.word_set_ne _ _ _ hf).trans hd) _ _)

end Sys2Proof.Machine
end

