-- ==== Sys2Proof/Laws/Memory.lean ====
section
/-! SUPPORT. Sys2Proof/Laws/Memory.lean: the sparse byte memory: a byte read after a byte written, and the canonical form that every
operation on it keeps. -/

namespace Sys2Proof.Machine

/-! ### Reading after writing -/

theorem memGet_filter_same (d : Byte) (l : List Host.Cell) (a : Nat) : memGet d (l.filter (fun e => e.1 ≠ a)) a = d := by
  induction l with
  | nil => rfl
  | cons e l ih =>
    obtain ⟨x, y⟩ := e
    by_cases h : x = a
    · simp [h] at ih ⊢; exact ih
    · simp [h, memGet] at ih ⊢; exact ih

/-- Cells that do not hold the address read may be left out. -/
theorem memGet_filter (d : Byte) (l : List Host.Cell) (p : Host.Cell → Bool) (x : Nat) (hp : ∀ b, p (x, b) = true) :
    memGet d (l.filter p) x = memGet d l x := by
  induction l with
  | nil => rfl
  | cons e l ih =>
    obtain ⟨y, b⟩ := e
    by_cases h : y = x
    · subst h; simp [hp, memGet]
    · by_cases hq : p (y, b) = true
      · simp [hq, memGet, h, ih]
      · simp [hq, memGet, h, ih]

theorem memGet_memInsert_same (d : Byte) (a : Nat) (b : Byte) (l : List Host.Cell) (h : memGet d l a = d → ∀ e ∈ l, e.1 ≠ a)
    (hd : memGet d l a = d) : memGet d (memInsert a b l) a = b := by
  have hn := h hd
  clear h hd
  induction l with
  | nil => simp [memInsert, memGet]
  | cons e l ih =>
    unfold memInsert
    split
    · simp [memGet]
    · obtain ⟨x, y⟩ := e
      have hx : x ≠ a := hn (x, y) List.mem_cons_self
      simp [memGet, hx, ih (fun e he => hn e (List.mem_cons_of_mem _ he))]

theorem memGet_memInsert_ne (d : Byte) (a : Nat) (b : Byte) (l : List Host.Cell) {x : Nat} (h : a ≠ x) :
    memGet d (memInsert a b l) x = memGet d l x := by
  induction l with
  | nil => simp [memInsert, memGet, h]
  | cons e l ih =>
    unfold memInsert
    split
    · simp [memGet, h]
    · obtain ⟨y, c⟩ := e; simp [memGet, ih]

/-- A byte reads as it was written. -/
@[simp] theorem memGet_memPut_same (d : Byte) (l : List Host.Cell) (a : Nat) (b : Byte) : memGet d (memPut d l a b) a = b := by
  unfold memPut
  simp only
  split
  · next h => rw [memGet_filter_same, h]
  · exact memGet_memInsert_same _ _ _ _ (fun _ e he => by simpa using (List.mem_filter.1 he).2) (memGet_filter_same d l a)

/-- A byte at another address is left alone. -/
theorem memGet_memPut_ne (d : Byte) (l : List Host.Cell) (a : Nat) (b : Byte) {x : Nat} (h : a ≠ x) :
    memGet d (memPut d l a b) x = memGet d l x := by
  have hf : memGet d (l.filter (fun e => e.1 ≠ a)) x = memGet d l x :=
    memGet_filter d l _ x (fun _ => by simpa using fun e : x = a => h e.symm)
  unfold memPut
  simp only
  split
  · exact hf
  · rw [memGet_memInsert_ne d a b _ h, hf]

/-- Bytes outside the written ones are left alone. -/
theorem memGet_memPutAll_ne (d : Byte) (bs : List Byte) (l : List Host.Cell) (a : Nat) {x : Nat} (h : x < a ∨ a + bs.length ≤ x) :
    memGet d (memPutAll d l a bs) x = memGet d l x := by
  induction bs generalizing l a with
  | nil => rfl
  | cons b bs ih =>
    simp only [List.length_cons] at h
    rw [memPutAll, ih _ _ (by omega), memGet_memPut_ne d l a b (by omega)]

/-- The written bytes read as they were written. -/
theorem memGet_memPutAll_same (d : Byte) (bs : List Byte) (l : List Host.Cell) (a i : Nat) (h : i < bs.length) :
    memGet d (memPutAll d l a bs) (a + i) = bs[i] := by
  induction bs generalizing l a i with
  | nil => simp at h
  | cons b bs ih =>
    rw [memPutAll]
    cases i with
    | zero => rw [memGet_memPutAll_ne d bs _ _ (by omega)]; simp
    | succ i =>
      have e : a + (i + 1) = a + 1 + i := by omega
      rw [e, ih _ _ i (by simpa using h)]
      rfl

/-! ### The canonical form -/

theorem Memory.wf_nil (d : Byte) : Memory.wf d [] := ⟨List.Pairwise.nil, by simp⟩

theorem Memory.wf_filter {d : Byte} {l : List Host.Cell} (h : Memory.wf d l) (p : Host.Cell → Bool) : Memory.wf d (l.filter p) :=
  ⟨h.1.filter _, fun e he => h.2 e (List.mem_of_mem_filter he)⟩

theorem mem_memInsert {a : Nat} {b : Byte} {l : List Host.Cell} {e : Host.Cell} : e ∈ memInsert a b l ↔ e = (a, b) ∨ e ∈ l := by
  induction l with
  | nil => simp [memInsert]
  | cons c l ih =>
    unfold memInsert
    split
    · simp
    · simp only [List.mem_cons, ih]
      constructor
      · rintro (h | h | h) <;> simp [h]
      · rintro (h | h | h) <;> simp [h]

theorem Memory.wf_memInsert {d : Byte} {l : List Host.Cell} (h : Memory.wf d l) {a : Nat} {b : Byte} (hb : b ≠ d)
    (hn : ∀ e ∈ l, e.1 ≠ a) : Memory.wf d (memInsert a b l) := by
  refine ⟨?_, fun e he => ?_⟩
  · have hp := h.1
    clear h hb
    induction l with
    | nil => simp [memInsert]
    | cons c l ih =>
      unfold memInsert
      rw [List.pairwise_cons] at hp
      split
      · next hlt =>
        refine List.pairwise_cons.2 ⟨fun e he => ?_, List.pairwise_cons.2 hp⟩
        rcases List.mem_cons.1 he with rfl | he
        · exact hlt
        · exact Nat.lt_trans hlt (hp.1 e he)
      · next hge =>
        refine List.pairwise_cons.2 ⟨fun e he => ?_, ih (fun e he => hn e (List.mem_cons_of_mem _ he)) hp.2⟩
        rcases mem_memInsert.1 he with rfl | he
        · exact Nat.lt_of_le_of_ne (Nat.not_lt.1 hge) (hn c List.mem_cons_self)
        · exact hp.1 e he
  · rcases mem_memInsert.1 he with rfl | he
    · exact hb
    · exact h.2 e he

/-- A byte written keeps the canonical form. -/
theorem Memory.wf_memPut {d : Byte} {l : List Host.Cell} (h : Memory.wf d l) (a : Nat) (b : Byte) : Memory.wf d (memPut d l a b) := by
  unfold memPut
  simp only
  split
  · exact Memory.wf_filter h _
  · next hb => exact Memory.wf_memInsert (Memory.wf_filter h _) hb (fun e he => by simpa using (List.mem_filter.1 he).2)

/-- Bytes written keep the canonical form. -/
theorem Memory.wf_memPutAll {d : Byte} (bs : List Byte) {l : List Host.Cell} (h : Memory.wf d l) (a : Nat) :
    Memory.wf d (memPutAll d l a bs) := by
  induction bs generalizing l a with
  | nil => exact h
  | cons b bs ih => exact ih (Memory.wf_memPut h a b) (a + 1)

/-- Bytes loaded from address 0 on keep the canonical form. -/
theorem Memory.wf_memLoad {d : Byte} {l : List Host.Cell} (bs : List Byte) (h : Memory.wf d l) : Memory.wf d (memLoad d l bs) := by
  have hz : ∀ e ∈ ((bs.zipIdx.filter (fun b => b.1 ≠ d)).map (fun b => (b.2, b.1))), e.1 < bs.length ∧ e.2 ≠ d := by
    intro e he
    obtain ⟨⟨b, i⟩, hb, rfl⟩ := List.mem_map.1 he
    have hm := List.mem_filter.1 hb
    exact ⟨(List.mem_zipIdx' hm.1).1, by simpa using hm.2⟩
  have hf := Memory.wf_filter h (fun e => bs.length ≤ e.1)
  refine ⟨List.pairwise_append.2 ⟨?_, hf.1, fun a ha b hb => ?_⟩, fun e he => ?_⟩
  · refine List.Pairwise.map _ (R := fun a b => a.2 < b.2) (fun _ _ h => h) (List.Pairwise.filter _ ?_)
    rw [List.pairwise_iff_getElem]
    intro i j hi hj hij
    simpa using hij
  · have := (hz a ha).1
    have := of_decide_eq_true (List.mem_filter.1 hb).2
    omega
  · rcases List.mem_append.1 he with he | he
    · exact (hz e he).2
    · exact hf.2 e he

/-- A byte above the loaded ones keeps its value. -/
theorem memGet_memLoad_ne (d : Byte) (l : List Host.Cell) (bs : List Byte) {x : Nat} (h : bs.length ≤ x) :
    memGet d (memLoad d l bs) x = memGet d l x := by
  have skip : ∀ (p q : List Host.Cell), (∀ e ∈ p, e.1 ≠ x) → memGet d (p ++ q) x = memGet d q x := by
    intro p q hp
    induction p with
    | nil => rfl
    | cons e p ih =>
      obtain ⟨y, b⟩ := e
      have hy : y ≠ x := hp (y, b) List.mem_cons_self
      simp [memGet, hy, ih (fun e he => hp e (List.mem_cons_of_mem _ he))]
  unfold memLoad
  rw [skip _ _ (fun e he => ?_), memGet_filter _ _ _ _ (fun _ => by simpa using h)]
  obtain ⟨⟨b, i⟩, hb, rfl⟩ := List.mem_map.1 he
  have hi := (List.mem_zipIdx' (List.mem_filter.1 hb).1).1
  simp only; omega

/-- The engines' memories keep the canonical form when one of them changes to one in it. -/
theorem engMem_wf_mod {s : State} (h : ∀ m ∈ s.engMem.toList, Memory.wf 0 m.text ∧ Memory.wf 0 m.data) (e : Nat) (f : EngMem → EngMem)
    (hf : ∀ m, Memory.wf 0 m.text ∧ Memory.wf 0 m.data → Memory.wf 0 (f m).text ∧ Memory.wf 0 (f m).data) :
    ∀ m ∈ (bankMod s.engMem e f).toList, Memory.wf 0 m.text ∧ Memory.wf 0 m.data := by
  intro m hm
  unfold bankMod at hm
  rw [Vector.toList_setIfInBounds] at hm
  rcases List.mem_or_eq_of_mem_set hm with hm | rfl
  · exact h m hm
  · refine hf _ ?_
    unfold bankGet
    by_cases he : e < 12
    · simpa [he] using h s.engMem[e] (by simp)
    · simpa [he] using ⟨Memory.wf_nil 0, Memory.wf_nil 0⟩

/-- A store in an engine's data memory keeps the canonical form (R346). -/
theorem engStore_wf (e a : Nat) (b : List Byte) {s : State}
    (h : ∀ m ∈ s.engMem.toList, Memory.wf 0 m.text ∧ Memory.wf 0 m.data) :
    ∀ m ∈ (engStore e a b s).engMem.toList, Memory.wf 0 m.text ∧ Memory.wf 0 m.data :=
  engMem_wf_mod h e _ (fun _ hm => ⟨hm.1, Memory.wf_memPutAll b hm.2 a⟩)

/-- Loading an engine's section keeps the canonical form (R346, R350). -/
theorem engLoad_wf (e n : Nat) (t b : List Byte) {s : State}
    (h : ∀ m ∈ s.engMem.toList, Memory.wf 0 m.text ∧ Memory.wf 0 m.data) :
    ∀ m ∈ (engLoad e t b n s).engMem.toList, Memory.wf 0 m.text ∧ Memory.wf 0 m.data :=
  engMem_wf_mod h e _ (fun _ hm => ⟨Memory.wf_memLoad t hm.1, Memory.wf_memLoad b hm.2⟩)

/-- Erasing flash keeps the canonical form. -/
theorem Memory.wf_flashErase (a n : Nat) {s : State} (h : Memory.wf 0xFF s.flash) : Memory.wf 0xFF (flashErase a n s).flash :=
  Memory.wf_filter h _

/-- Programming flash keeps the canonical form. -/
theorem Memory.wf_flashProgram (a : Nat) (b : List Byte) {s : State} (h : Memory.wf 0xFF s.flash) :
    Memory.wf 0xFF (flashProgram a b s).flash := Memory.wf_memPutAll _ h _

/-- The flash at reset is in canonical form: nothing is listed. -/
theorem Memory.wf_reset : Memory.wf 0xFF State.reset.flash := Memory.wf_nil _

/-- An erased byte reads as all ones. -/
theorem memGet_flashErase (a n x : Nat) (s : State) (h : a ≤ x ∧ x < a + n) : memGet 0xFF (flashErase a n s).flash x = 0xFF := by
  unfold flashErase
  simp only
  induction s.flash with
  | nil => rfl
  | cons e l ih =>
    obtain ⟨y, b⟩ := e
    by_cases hy : y < a ∨ a + n ≤ y
    · have : y ≠ x := by omega
      simp [hy, memGet, this] at ih ⊢; exact ih
    · simp [hy] at ih ⊢; exact ih

/-- A byte outside the erased ones keeps its value. -/
theorem memGet_flashErase_ne (a n x : Nat) (s : State) (h : x < a ∨ a + n ≤ x) :
    memGet 0xFF (flashErase a n s).flash x = memGet 0xFF s.flash x :=
  memGet_filter _ _ _ _ (fun _ => by simpa using h)

end Sys2Proof.Machine
end

