-- ==== Sys2Proof/Laws/Reset.lean ====
section
/-! SUPPORT. Sys2Proof/Laws/Reset.lean: what a reset of the register file does, register by register, and that it and the clearing of a ring
keep the canonical form. -/

namespace Sys2Proof.Machine

/-- A field written with its own value leaves the word. -/
theorem wordSet_wordGet (w : Word) (lo n : Nat) : wordSet w lo n (wordGet w lo n) = w := by
  have whole : w.toNat / 2 ^ (lo + n) * 2 ^ (lo + n) + w.toNat % 2 ^ (lo + n) = w.toNat := Nat.div_add_mod' _ _
  have split : w.toNat % 2 ^ (lo + n) = w.toNat / 2 ^ lo % 2 ^ n * 2 ^ lo + w.toNat % 2 ^ lo := by
    rw [Nat.pow_add, Nat.mod_mul, Nat.add_comm, Nat.mul_comm]
  unfold wordSet wordGet
  rw [Nat.mod_mod, Nat.add_assoc, ← split, whole, BitVec.ofNat_toNat, BitVec.setWidth_eq]

/-- A register at its reset value stays at it. -/
theorem resetWord_reset (keep : FieldSpec → Bool) (r : Reg) : resetWord keep r r.reset = r.reset := by
  have h : ∀ (l : List FieldSpec), l.foldl (fun a f => if keep f then wordSet a f.lo f.w (wordGet r.reset f.lo f.w) else a) r.reset
      = r.reset := by
    intro l
    induction l with
    | nil => rfl
    | cons f l ih =>
      rw [List.foldl_cons]
      split
      · rw [wordSet_wordGet]; exact ih
      · exact ih
  exact h r.fields

/-- The word of a register after a reset: kept fields over its reset value within the scope, as it was outside. -/
theorem regLookup_resetRegs {scope : Reg → Bool} {keep : Reg → FieldSpec → Bool} {l : List (Reg × Word)} (h : RegsWf l) (q : Reg) :
    (regLookup (resetRegs scope keep l) q).getD q.reset
      = if scope q then resetWord (keep q) q ((regLookup l q).getD q.reset) else (regLookup l q).getD q.reset := by
  unfold resetRegs
  rw [regLookup_filterMap h]
  · cases regLookup l q with
    | none => simp [resetWord_reset]
    | some w =>
      by_cases hs : scope q = true
      · by_cases hw : resetWord (keep q) q w = q.reset <;> simp [hs, hw]
      · simp [hs]
  · intro e e' he
    dsimp only at he
    split at he
    · split at he
      · cases he
      · cases he; rfl
    · cases he; rfl

/-- A reset of the register file keeps its canonical form. -/
theorem RegsWf.resetRegs {scope : Reg → Bool} {keep : Reg → FieldSpec → Bool} {l : List (Reg × Word)} (h : RegsWf l) :
    RegsWf (resetRegs scope keep l) := by
  refine h.filterMap (fun e e' he hf => ?_)
  dsimp only at hf
  split at hf
  · split at hf
    · cases hf
    · next hn => cases hf; exact ⟨rfl, hn⟩
  · cases hf; exact ⟨rfl, h.2 e he⟩

/-- The word of a register after a package reset's clearing of the registers. -/
theorem word_resetFields {s : State} (h : RegsWf s.regs) (k : ResetKind) (q : Reg) :
    (resetFields k s).word q = resetWord (fun f => k.keeps f.keep || k.measured q f.lo) q (s.word q) := by
  have := regLookup_resetRegs (scope := fun _ => true) (keep := fun r f => k.keeps f.keep || k.measured r f.lo) h q
  simpa [State.word, resetFields] using this

theorem regsWf_resetFields {s : State} (h : RegsWf s.regs) (k : ResetKind) : RegsWf (resetFields k s).regs :=
  h.resetRegs (scope := fun _ => true) (keep := fun r f => k.keeps f.keep || k.measured r f.lo)

theorem word_bareState (k : ResetKind) (s : State) (q : Reg) : (bareState k s).word q = (resetFields k s).word q := rfl

/-- Clearing a region's ring keeps the canonical form. -/
theorem regsWf_clearRing {s : State} (h : RegsWf s.regs) (t : Nat) : RegsWf (clearRing t s).regs := by
  refine RegsWf.store (RegsWf.store (h.filterMap (fun e e' he hf => ?_)) _ _) _ _
  dsimp only at hf
  split at hf
  · split at hf
    · cases hf
    · next hn => cases hf; exact ⟨rfl, hn⟩
  · cases hf; exact ⟨rfl, h.2 e he⟩

/-- Clearing a region's ring leaves the registers of other names. -/
theorem word_clearRing {s : State} (h : RegsWf s.regs) (t : Nat) {q : Reg} (h1 : q.name ≠ .TRG_HENT_HI) (h2 : q.name ≠ .TRG_HIST_PTR)
    (h3 : q.name ≠ .TRG_HO_VAL_HI) : (clearRing t s).word q = s.word q := by
  unfold clearRing
  rw [State.word_set_ne _ _ _ (Reg.ne_of_name (fun e => h3 e.symm)), State.word_set_ne _ _ _ (Reg.ne_of_name (fun e => h2 e.symm))]
  unfold State.word
  dsimp only
  rw [regLookup_filterMap h]
  · cases regLookup s.regs q with
    | none => rfl
    | some w => simp [h1]
  · intro e e' he
    split at he
    · split at he
      · cases he
      · cases he; rfl
    · cases he; rfl

end Sys2Proof.Machine
end

