-- ==== Sys2Proof/WellFormed.lean ====
section
/-! DEFINITION. Sys2Proof/WellFormed.lean: what the operand types leave open about a command: lengths of payloads and alignment, as
the rows' rules give them. The meanings answer for ill-formed commands too; they ignore them or cut them as the rules say. -/

namespace Sys2Proof

/-- A sequence load is a header, whole steps and a CRC word, at most 194 words (R198). -/
def seqLengthOk (n : Nat) : Bool := n % 3 = 2 && n ≤ 194

/-- A command's operands fit its row's rule. -/
def Instr.wf : Instr → Bool
  | .registerWrite _ off _ _ => off.toNat % 4 = 0
  | .bandLoad _ _ ws => ws.length = 513
  | .rampLoad _ _ chunks => chunks.length ≤ 8 && chunks.all (fun c => c.length = 66)
  | .seqLoad _ ws => seqLengthOk ws.length
  | .commandDispatch words _ _ => words.length = 16
  | .remoteWr _ _ _ off n data => off.toNat % 4 = 0 && data.length = n.val + 1
  | .remoteRd _ _ _ off _ ptr => off.toNat % 4 = 0 && ptr.toNat % 4 = 0
  | .imageStage _ _ _ ptr _ => ptr.toNat % 4 = 0
  | _ => true

end Sys2Proof
end

