-- ==== Sys2Proof/Tests/Slice0.lean ====
section
/-! SUPPORT. Sys2Proof/Tests/Slice0.lean: ill-formed commands refused, values from the spec's own worked examples, and, for every
statement with hypotheses, a concrete state and operands that meet those of each of its clauses. -/

set_option maxRecDepth 20000

namespace Sys2Proof.Machine
open Sys2Proof

/-- A hub in RUN, HOSTED, its host port RUNNING: the state the tests start from. -/
def runState : State := ((State.reset.set GLB_STATE_STATE pkgRun).set HOST_MODE_MODE 1).set HOST_STAT_RSTATE rsRunning

/-- The outcome is a next state that passes a check. -/
def goesTo (o : Out) (p : State → Bool) : Bool :=
  match o with
  | .next t => p t
  | _ => false

/-! ### Ill-formed commands (each check of Instr.wf refuses one) -/

theorem test_wf_register_offset : (Instr.registerWrite .host 0x11002 15 0).wf = false := by decide
theorem test_wf_band_length : (Instr.bandLoad .ring 0 [0]).wf = false := by decide
theorem test_wf_ramp_chunk : (Instr.rampLoad .ring 0 [[0]]).wf = false := by decide
theorem test_wf_sequence_length : (Instr.seqLoad .ring [0, 0, 0]).wf = false := by decide
theorem test_wf_descriptor_length : (Instr.commandDispatch [0] [] false).wf = false := by decide
theorem test_wf_remote_write_data : (Instr.remoteWr .ring 1 0 0x40 1 [0]).wf = false := by decide
theorem test_wf_remote_read_pointer : (Instr.remoteRd .ring 1 0 0x40 0 2).wf = false := by decide
theorem test_wf_image_pointer : (Instr.imageStage .ring 1 0 1 0).wf = false := by decide
theorem test_wf_register_write : (Instr.registerWrite .host 0x11010 15 0x1388).wf = true := by decide

/-! ### The spec's own examples -/

/-- R37: the CRC32C of "123456789" is 0xE3069283. -/
theorem test_crc32c_check : crc32c [0x31, 0x32, 0x33, 0x34, 0x35, 0x36, 0x37, 0x38, 0x39] = 0xE3069283 := by decide

/-- R230: the CRC-8 of "123456789" is 0xF4. -/
theorem test_crc8_check : crc8 [0x31, 0x32, 0x33, 0x34, 0x35, 0x36, 0x37, 0x38, 0x39] = 0xF4 := by decide

/-- Chapter 02: MON_ACCEPT = 5,000 lies above the reject limit 1,200 of reset: ignored and counted. -/
theorem test_accept_before_reject_ignored :
    goesTo (exec (.registerWrite .host 0x11010 15 0x1388) runState)
      (fun t => t.get (MON_ACCEPT_ACCEPT 0) = 900 && t.get GLB_IGNORED_CNT_CNT = 1) = true := by decide

/-- Chapter 02: MON_REJECT = 10,000 first is taken. -/
theorem test_reject_then_accept :
    goesTo (exec (.registerWrite .host (BitVec.ofNat 20 (Reg.off ⟨.MON_REJECT, 0, 0, 0⟩)) 15 0x2710) runState)
      (fun t => t.get (MON_REJECT_REJECT 0) = 10000 && t.get GLB_IGNORED_CNT_CNT = 0) = true := by decide

/-- Chapter 09: the exchange on hop 2 reads d_in 52,300 ps (0xCC4C) and theta 1,337 ps (0x539). -/
theorem test_exchange_on_hop_two :
    goesTo (exec (.markEchoRx 0 9 125500053637)
        ((((runState.set (LNK_STAT_STATE 0) lnkUp).set LNK_EPOCH_OK0 1).set (LNK_MARK_AVG 0) 0).modLnk 0 (fun x =>
          { x with own := some (9, 125500000000), peerMark := some (125000000000, 125000050963) })))
      (fun t => t.get (LNK_DLY_D_IN 0) = 0xCC4C && t.get (LNK_THETA_THETA 0) = 0x539 && t.on (LNK_STAT_DVALID 0)) = true := by decide

/-- Chapter 09: H5 of the five-hop chain: 21,838.9 ns and 390 ps become 25,048.9 ns and 460 ps, refused for LAT. -/
theorem test_fifth_hop_refused :
    budgetCause { gm := 0, prio1 := 0, prio2 := 0, cls := 0, seq := 0, hops := 4, lat := 218389, ph := 390, blat := 2500, bph := 1000 }
      (((runState.set (LNK_DLY_D_IN 0) 3050000).set (LNK_ASYM_ASYM_UNC 0) 20).afterHop 0
        { gm := 0, prio1 := 0, prio2 := 0, cls := 0, seq := 0, hops := 4, lat := 218389, ph := 390, blat := 2500, bph := 1000 }).1
      460 5 = 1 := by decide

/-- Chapter 11: VOUT_COMMAND 0x0C00 on page 0x0E writes VID 400 of VR14. -/
theorem test_vout_command_on_vr14 :
    goesTo (exec (.voutCommand (some 0x0C00) .good) ((runState.set MGT_PMB_CFG_EN 1).set MGT_PMB_STAT_PAGE 0x0E))
      (fun t => t.get (PRG_VID_VID 14) = 400) = true := by decide

/-- Chapter 10: the REALIGN descriptor of the example names opcode 0x13 and asks for an interrupt; its form is right. -/
theorem test_realign_descriptor :
    ({ words := [0x80010013, 0x42, 0, 0, 0, 0, 0x08000000, 1, 0, 0, 0, 0, 0, 0, 0, 0] } : Cmd).formOk .ring = true := by decide

/-- R299: VOUT_MODE reads 0x14. -/
theorem test_vout_mode : goesTo (exec .voutMode (runState.set MGT_PMB_CFG_EN 1)) (fun t => t.sent = [.pmb [0x14]]) = true := by decide

/-- R310: IDCODE answers 0x04896A3F. -/
theorem test_idcode : goesTo (exec .idcode runState) (fun t => t.sent = [.jtag 0x04896A3F]) = true := by decide

/-- A step takes the front command and leaves the rest. -/
theorem test_step_takes_the_front :
    goesTo (step { runState with pending := [.idcode, .jtagReset] }) (fun t => t.pending = [.jtagReset] && t.mgt.ir = 1) = true := by decide

/-- No word of the table spells a command. -/
theorem test_no_table_word : decodeTableWord 32 0 = none := by decide

/-! ### A state and operands for the hypotheses of every clause -/

theorem test_hypotheses_MonitorActivityAndEnable :
    (let b : State := runState
     let m : Fin 16 := 0
     let s : State := (b.set (MON_STAT_STATE m) monQualified).set (MON_STAT_FROZEN m) 0
     (s.monRuns m = true) ∧ (s.monTrusted m = true)) ∧
    (let b : State := runState
     let m : Fin 16 := 0
     let s : State := (b.set (MON_STAT_STATE m) monFailed).set (MON_STAT_FROZEN m) 0
     (s.monRuns m = true) ∧ (s.monTrusted m = false)) ∧
    (let b : State := runState
     let m : Fin 16 := 0
     let s : State := (b.set (MON_STAT_STATE m) monFailed).set (MON_STAT_FROZEN m) 0
     (s.monRuns m = true)) ∧
    (let b : State := runState
     let p : Path := .host
     let m : Fin 16 := 15
     let w : Word := 2
     let s : State := (b.set (MON_CFG_EN m) 0).set (MON_STAT_STATE m) monOff
     (s.takesWrite p ⟨.MON_CFG, m, 0, 0⟩ (wordSet w 0 1 1)) ∧ (s.get (MON_CFG_EN m) = 0) ∧ (s.get (MON_STAT_STATE m) = monOff)) ∧
    (let b : State := runState
     let p : Path := .host
     let m : Fin 16 := 0
     let w : Word := 2
     let s : State := b
     (s.takesWrite p ⟨.MON_CFG, m, 0, 0⟩ (wordSet w 0 1 0))) :=
  by and_intros <;> decide

theorem test_hypotheses_MonitorGatesJumpsAndQualification :
    (let b : State := runState
     let m : Fin 16 := 3
     let res : BitVec 48 := 12001
     let s : State := (((b.set (MON_STAT_STATE m) monQualifying).set (MON_STAT_FROZEN m) 0).set (MON_STAT_ACT m) 1).modMon m (fun
       _ => { gateVoid := false })
     (s.monRuns m = true) ∧ ((bankGet s.mon m.val).gateVoid = false) ∧ (s.monTrusted m = true) ∧ (withinLimit res.toInt (s.get
       (MON_REJECT_REJECT m)) = false)) ∧
    (let b : State := runState
     let m : Fin 16 := 3
     let res : BitVec 48 := 9000
     let s : State := ((((b.set (MON_STAT_STATE m) monFailed).set (MON_STAT_FROZEN m) 0).set (MON_STAT_ACT m) 1).modMon m (fun _
       => { gateVoid := false })).set (MON_ACCEPT_ACCEPT m) 900
     (s.monRuns m = true) ∧ ((bankGet s.mon m.val).gateVoid = false) ∧ (s.get (MON_STAT_STATE m) = monFailed) ∧ (s.on
       (MON_STAT_ACT m) = true) ∧ (withinLimit res.toInt (s.get (MON_ACCEPT_ACCEPT m)) = true)) ∧
    (let b : State := runState
     let m : Fin 16 := 3
     let s : State := (((b.set (MON_STAT_STATE m) monQualified).set (MON_STAT_FROZEN m) 0).set (MON_STAT_ACT m) 1).modMon m (fun _
       => { gateVoid := true })
     (s.monRuns m = true) ∧ ((bankGet s.mon m.val).gateVoid = true)) ∧
    (let b : State := runState
     let m : Fin 16 := 3
     let dev : Word := 11
     let s : State := ((((((b.set (MON_STAT_STATE m) monQualified).set (MON_STAT_FROZEN m) 0).set (MON_STAT_ACT m) 1).modMon m
       (fun _ => { gateVoid := false })).set (MON_PJ_THR_PJ_THR m) 10).set (MON_CFG_PJ_ACTION m) 0)
     (s.monRuns m = true) ∧ (s.on (MON_STAT_ACT m) = true) ∧ (s.jumpSeen m dev.toInt = true) ∧ (s.get (MON_STAT_STATE m) =
       monQualified) ∧ (s.get (MON_CFG_PJ_ACTION m) = 0)) ∧
    (let b : State := runState
     let m : Fin 16 := 3
     let dev : Word := 11
     let s : State := ((((((b.set (MON_STAT_STATE m) monQualifying).set (MON_STAT_FROZEN m) 0).set (MON_STAT_ACT m) 1).modMon m
       (fun _ => { gateVoid := false })).set (MON_PJ_THR_PJ_THR m) 10).set (MON_CFG_PJ_ACTION m) 0)
     (s.monRuns m = true) ∧ (s.on (MON_STAT_ACT m) = true) ∧ (s.jumpSeen m dev.toInt = true) ∧ (s.get (MON_STAT_STATE m) =
       monQualifying)) ∧
    (let b : State := runState
     let m : Fin 16 := 3
     let s : State := (b.set (MON_STAT_STATE m) monQualifying).set (MON_STAT_FROZEN m) 0
     (s.monRuns m = true) ∧ (s.get (MON_STAT_STATE m) = monQualifying)) :=
  by and_intros <;> decide

theorem test_hypotheses_SelectorPassTakesTheChoice :
    (let b : State := runState
     let t : Fin 4 := 1
     let s : State := (((b.set (PLZ_SEL_STAT_ACTIVE t) 0).set (PLZ_SEL_STAT_CUR_IDX t) 17).set (PLZ_CAND_CAND_EN t) 0xFFFFF).set
       (PLZ_SEL_CTL_MODE t) 1
     (s.get (PLZ_SEL_CTL_MODE t) = 1)) ∧
    (let b : State := runState
     let t : Fin 4 := 2
     let s : State := (((b.set (PLZ_SEL_STAT_ACTIVE t) 1).set (PLZ_SEL_STAT_CUR_IDX t) 17).set (PLZ_CAND_CAND_EN t) 0xFFFFF).set
       (PLZ_SEL_CTL_MODE t) 2
     (s.get (PLZ_SEL_CTL_MODE t) = 2)) ∧
    (let b : State := runState
     let t : Fin 4 := 3
     let s : State := (((b.set (PLZ_SEL_STAT_ACTIVE t) 0).set (PLZ_SEL_STAT_CUR_IDX t) 17).set (PLZ_CAND_CAND_EN t) 0xFFFFF).set
       (LNK_STAT_FLOCK 1) 1
     (s.get (PLZ_SEL_CTL_MODE t) = 0) ∧ ((s.selected t).all (fun x => !s.candUsable t x) = true)) ∧
    (let b : State := runState
     let t : Fin 4 := 0
     let x : Fin 20 := 17
     let s : State := ((((b.set (PLZ_SEL_STAT_ACTIVE t) 1).set (PLZ_SEL_STAT_CUR_IDX t) 17).set (PLZ_CAND_CAND_EN t) 0xFFFFF).set
       (LNK_STAT_FLOCK 1) 1).set (PLZ_SEL_CTL_REVERT t) 0
     (s.get (PLZ_SEL_CTL_MODE t) = 0) ∧ (s.selected t = some x.val) ∧ (s.candUsable t x = true) ∧ (s.get (PLZ_SEL_CTL_REVERT t) =
       0)) ∧
    (let b : State := runState
     let t : Fin 4 := 0
     let x : Fin 20 := 17
     let i : Fin 20 := 17
     let s : State := ((((b.set (PLZ_SEL_STAT_ACTIVE t) 1).set (PLZ_SEL_STAT_CUR_IDX t) 17).set (PLZ_CAND_CAND_EN t) 0xFFFFF).set
       (LNK_STAT_FLOCK 1) 1).set (PLZ_SEL_CTL_REVERT t) 1
     (s.get (PLZ_SEL_CTL_MODE t) = 0) ∧ (s.selected t = some x.val) ∧ (s.candUsable t x = true) ∧ (s.get (PLZ_SEL_CTL_REVERT t) =
       1) ∧ (s.ranksFirst t i = true)) :=
  by and_intros <;> decide

theorem test_hypotheses_SelectorCommands :
    (let b : State := runState
     let v : CmdVia := .ring
     let t : Fin 4 := 2
     let i : BitVec 8 := 19
     let s : State := b.set (PLZ_CAND_CAND_EN t) 0xFFFFF
     (s.takesCmd v = true) ∧ (s.isolated (dieOfRegion t) = false) ∧ (i.toNat < 20) ∧ (s.bit (PLZ_CAND_CAND_EN t) i.toNat = true)) ∧
    (let b : State := runState
     let v : CmdVia := .mbx 3
     let t : Fin 4 := 2
     let i : BitVec 8 := 19
     let s : State := b
     (s.takesCmd v = true) ∧ (s.isolated (dieOfRegion t) = false) ∧ (20 ≤ i.toNat ∨ s.bit (PLZ_CAND_CAND_EN t) i.toNat = false)) ∧
    (let b : State := runState
     let v : CmdVia := .ring
     let t : Fin 4 := 0
     let s : State := b
     (s.takesCmd v = true) ∧ (s.isolated (dieOfRegion t) = false)) :=
  by and_intros <;> decide

theorem test_hypotheses_DpllEnablesAndFollowsTheSelector :
    (let b : State := runState
     let p : Path := .host
     let t : Fin 4 := 1
     let w : Word := 0
     let s : State := (((b.set (TRG_CTL_EN t) 0).set (TRG_STAT_STATE t) dpllDisabled).set (PLZ_SEL_STAT_ACTIVE t) 0).set
       (TRG_CTL_STB_EN t) ((TRG_CTL_STB_EN t).of w)
     (s.takesWrite p ⟨.TRG_CTL, t, 0, 0⟩ (wordSet w 0 1 1)) ∧ (s.get (TRG_CTL_EN t) = 0) ∧ (s.dpll t = dpllDisabled) ∧ (s.get
       (TRG_CTL_STB_EN t) = (TRG_CTL_STB_EN t).of w) ∧ (s.selected t = none) ∧ ((TRG_CTL_WARM_EN t).of w = 0)) ∧
    (let b : State := runState
     let p : Path := .host
     let t : Fin 4 := 1
     let w : Word := 128
     let s : State :=
       { ((((((b.set (TRG_CTL_EN t) 0).set (TRG_STAT_STATE t) dpllDisabled).set (PLZ_SEL_STAT_ACTIVE t) 0).set (TRG_CTL_STB_EN t) ((TRG_CTL_STB_EN t).of w)).set (KLN_HO_HI_VALID t) 1).set (KLN_HO_HI_STB t) ((TRG_CTL_STB_EN t).of w)).set (KLN_HO_SEC_SEC t) 0xFFFFFFFF with kilnStale := 0 }
     (s.takesWrite p ⟨.TRG_CTL, t, 0, 0⟩ (wordSet w 0 1 1)) ∧ (s.get (TRG_CTL_EN t) = 0) ∧ (s.dpll t = dpllDisabled) ∧ (s.get
       (TRG_CTL_STB_EN t) = (TRG_CTL_STB_EN t).of w) ∧ (s.selected t = none) ∧ ((TRG_CTL_WARM_EN t).of w = 1) ∧ (s.kilnUsable t =
       true)) ∧
    (let b : State := runState
     let p : Path := .host
     let t : Fin 4 := 3
     let w : Word := 0
     let s : State := (b.set (TRG_CTL_STB_EN t) ((TRG_CTL_STB_EN t).of w)).set (TRG_STAT_STATE t) dpllLocked
     (s.takesWrite p ⟨.TRG_CTL, t, 0, 0⟩ (wordSet w 0 1 0)) ∧ (s.get (TRG_CTL_STB_EN t) = (TRG_CTL_STB_EN t).of w)) ∧
    (let b : State := runState
     let t : Fin 4 := 2
     let s : State := ((b.set (TRG_STAT_STATE t) dpllLocked).set (TRG_STAT_FORCED t) 0).set (PLZ_SEL_STAT_ACTIVE t) 0
     (s.dpllFollows t = true) ∧ (s.on (TRG_STAT_FORCED t) = false) ∧ (s.selected t = none)) ∧
    (let b : State := runState
     let t : Fin 4 := 2
     let s : State := ((b.set (TRG_STAT_STATE t) dpllHoldover).set (TRG_STAT_FORCED t) 0).set (PLZ_SEL_STAT_ACTIVE t) 1
     (s.dpll t = dpllFreerun ∨ s.dpll t = dpllHoldover) ∧ (s.on (TRG_STAT_FORCED t) = false) ∧ (s.on (PLZ_SEL_STAT_ACTIVE t) =
       true)) ∧
    (let b : State := runState
     let t : Fin 4 := 2
     let s : State := (((b.set (TRG_STAT_STATE t) dpllLocked).set (TRG_STAT_FORCED t) 0).set (PLZ_SEL_STAT_ACTIVE t) 1).modTrg t
       (fun g => { g with held := false })
     (s.dpllFollows t = true) ∧ ((bankGet s.trg t.val).held = false)) ∧
    (let b : State := runState
     let t : Fin 4 := 2
     let s : State := (((b.set (TRG_STAT_STATE t) dpllAcquiring).set (TRG_STAT_FORCED t) 0).set (PLZ_SEL_STAT_ACTIVE t) 1).modTrg
       t (fun g => { g with held := false })
     (s.dpllFollows t = true) ∧ ((bankGet s.trg t.val).held = false)) :=
  by and_intros <;> decide

theorem test_hypotheses_DpllLockPullInAndBuildOut :
    (let b : State := runState
     let t : Fin 4 := 0
     let cv : BitVec 48 := 5
     let ph : Word := 3
     let s : State := ((b.set (TRG_STAT_STATE t) dpllAcquiring).set (TRG_PULLIN_PULLIN t) 1000).modTrg t (fun g =>
       { g with held := false, capture := none })
     (s.dpll t = dpllAcquiring) ∧ ((bankGet s.trg t.val).capture = none) ∧ (s.withinLock t 1 ph.toInt = true) ∧ (if (bankGet s.trg
       t.val).held = true then s.get (TRG_STAT_PULLIN_SAT t) = 0 else cv.toInt.natAbs < s.pullLimit t)) ∧
    (let b : State := runState
     let t : Fin 4 := 0
     let ph : Word := 0x70000000
     let s : State := ((b.set (TRG_STAT_STATE t) dpllLocked).set (TRG_PULLIN_PULLIN t) 1000).modTrg t (fun g =>
       { g with held := false, capture := none })
     (s.dpll t = dpllLocked) ∧ (s.withinLock t 4 ph.toInt = false)) ∧
    (let b : State := runState
     let t : Fin 4 := 0
     let ph : Word := 3
     let s : State := ((b.set (TRG_STAT_STATE t) dpllLocked).set (TRG_PULLIN_PULLIN t) 1000).modTrg t (fun g =>
       { g with held := false, capture := none })
     (s.withinLock t 4 ph.toInt = true)) ∧
    (let b : State := runState
     let t : Fin 4 := 0
     let s : State := (((b.set (TRG_STAT_STATE t) dpllLocked).set (TRG_PULLIN_PULLIN t) 1000).modTrg t (fun g =>
       { g with held := false, capture := none })).set (TRG_STAT_PULLIN_SAT t) 0
     (s.dpllFollows t = true) ∧ ((bankGet s.trg t.val).held = false) ∧ ((bankGet s.trg t.val).capture = none) ∧ (s.get
       (TRG_STAT_PULLIN_SAT t) = 0)) ∧
    (let b : State := runState
     let t : Fin 4 := 0
     let c : Nat := 3
     let slew : Bool := true
     let s : State := b.modTrg t (fun g => { g with capture := some (c, slew) })
     ((bankGet s.trg t.val).capture = some (c, slew))) ∧
    (let b : State := runState
     let t : Fin 4 := 0
     let s : State := b.set (TRG_STAT_SLEWING t) 1
     (s.on (TRG_STAT_SLEWING t) = true)) :=
  by and_intros <;> decide

theorem test_hypotheses_HoldoverHistoryStabilityAndTemperature :
    (let b : State := runState
     let v : CmdVia := .mbx 3
     let t : Fin 4 := 3
     let s : State := b.set (TRG_STAT_STATE t) dpllLocked
     (s.takesCmd v = true) ∧ (s.isolated (dieOfRegion t) = false) ∧ (s.dpllFollows t = true)) ∧
    (let b : State := runState
     let t : Fin 4 := 1
     let s : State := (b.set (TRG_STAT_STATE t) dpllLocked).set (TRG_HIST_PTR_WR_IDX t) 1023
     (s.pkg_.loRuns = true)) ∧
    (let b : State := runState
     let p : Path := .host
     let t : Fin 4 := 1
     let w : Word := 0x10100
     let s : State := b
     (s.takesWrite p ⟨.TRG_HIST, t, 0, 0⟩ w) ∧ ((TRG_HIST_INTERVAL t).of w ≠ s.get (TRG_HIST_INTERVAL t))) ∧
    (let b : State := runState
     let t : Fin 4 := 1
     let v : Int := -5
     let stb : Bool := true
     let s : State := b.modTrg t (fun g => { g with kilnDue := some (v, stb) })
     ((bankGet s.trg t.val).kilnDue = some (v, stb)) ∧ (s.linked (dieOfRegion t) dieC = true)) ∧
    (let b : State := runState
     let p : Path := .host
     let t : Fin 4 := 1
     let w : Word := 16
     let s : State := (((b.set (TRG_CTL_EN t) 0).set (TRG_STAT_STATE t) dpllDisabled).set (TRG_CTL_TC_EN t) ((TRG_CTL_TC_EN t).of
       w)).set (TRG_CTL_STB_EN t) 0
     (s.takesWrite p ⟨.TRG_CTL, t, 0, 0⟩ w) ∧ ((TRG_CTL_EN t).of w = s.get (TRG_CTL_EN t)) ∧ ((TRG_CTL_TC_EN t).of w = s.get
       (TRG_CTL_TC_EN t)) ∧ (s.dpll t = dpllDisabled) ∧ (s.get (TRG_CTL_EN t) = 0) ∧ (s.get (TRG_CTL_STB_EN t) = 0) ∧
       ((TRG_CTL_STB_EN t).of w = 1)) ∧
    (let b : State := runState
     let p : Path := .host
     let t : Fin 4 := 1
     let w : Word := 0
     let s : State := ((((b.set (TRG_CTL_EN t) 0).set (TRG_STAT_STATE t) dpllDisabled).set (TRG_CTL_TC_EN t) ((TRG_CTL_TC_EN t).of
       w)).set (TRG_CTL_STB_EN t) 1).set (TRG_STAT_SAMP_SRC t) 0
     (s.takesWrite p ⟨.TRG_CTL, t, 0, 0⟩ w) ∧ ((TRG_CTL_EN t).of w = s.get (TRG_CTL_EN t)) ∧ ((TRG_CTL_TC_EN t).of w = s.get
       (TRG_CTL_TC_EN t)) ∧ (s.dpll t = dpllDisabled) ∧ (s.get (TRG_CTL_EN t) = 0) ∧ ((TRG_CTL_STB_EN t).of w = 0) ∧ (s.get
       (TRG_STAT_SAMP_SRC t) = 0)) ∧
    (let b : State := runState
     let p : Path := .host
     let t : Fin 4 := 1
     let w : Word := 0
     let s : State := ((((b.set (TRG_CTL_EN t) 0).set (TRG_STAT_STATE t) dpllDisabled).set (TRG_CTL_TC_EN t) ((TRG_CTL_TC_EN t).of
       w)).set (TRG_CTL_STB_EN t) 1).set (TRG_STAT_SAMP_SRC t) 1
     (s.takesWrite p ⟨.TRG_CTL, t, 0, 0⟩ w) ∧ ((TRG_CTL_EN t).of w = s.get (TRG_CTL_EN t)) ∧ ((TRG_CTL_TC_EN t).of w = s.get
       (TRG_CTL_TC_EN t)) ∧ (s.dpll t = dpllDisabled) ∧ (s.get (TRG_CTL_EN t) = 0) ∧ ((TRG_CTL_STB_EN t).of w = 0) ∧ (s.get
       (TRG_STAT_SAMP_SRC t) = 1)) ∧
    (let b : State := runState
     let p : Path := .host
     let t : Fin 4 := 1
     let w : Word := 0x8000
     let s : State := b
     (s.takesWrite p ⟨.TRG_TC_TERM_HI, t, 0, 0⟩ w)) ∧
    (let b : State := runState
     let v : CmdVia := .ring
     let t : Fin 4 := 3
     let mask : BitVec 12 := 2
     let k : BitVec 16 := 1
     let s : State := ((b.set (TRG_STAT_STATE t) dpllLocked).set (OUT_CTL_ROLE (12 * t + 1)) 1).set (OUT_STAT_LOSS_KIND (12 * t +
       1)) 0
     (s.takesCmd v = true) ∧ (s.isolated (dieOfRegion t) = false) ∧ (s.dpll t = dpllLocked) ∧ (mask ≠ 0) ∧ (k ≠ 0) ∧ ((∀ j : Fin
       12, bitOf mask.toNat j = true → s.get (OUT_CTL_ROLE (12 * t + j)) = 1 ∧ s.get (OUT_STAT_LOSS_KIND (12 * t + j)) = 0))) :=
  by and_intros <;> decide

theorem test_hypotheses_ClusterEnableApplyAndHop :
    (let b : State := runState
     let p : Path := .host
     let c : Fin 12 := 11
     let w : Word := 0
     let s : State := ((b.set (SYN_CTL_EN c) 0).set (SYN_STAT_STATE c) synOff)
     (s.takesWrite p ⟨.SYN_CTL, c, 0, 0⟩ (wordSet w 0 1 1)) ∧ (s.get (SYN_CTL_EN c) = 0) ∧ (s.synState c = synOff)) ∧
    (let b : State := runState
     let p : Path := .host
     let c : Fin 12 := 0
     let w : Word := 0
     let s : State := ((b.set (SYN_CTL_EN c) 1).set (SYN_STAT_STATE c) synLocked)
     (s.takesWrite p ⟨.SYN_CTL, c, 0, 0⟩ (wordSet w 0 1 0)) ∧ (s.get (SYN_CTL_EN c) = 1) ∧ (s.synState c ≠ synOff)) ∧
    (let b : State := runState
     let p : Path := .host
     let c : Fin 12 := 5
     let w : Word := 0
     let s : State := ((((((b.set (SYN_N_INT_N_INT c) 80).set (SYN_N_INT_PATH c) 0).set (SYN_N_NUM_NUM c) 0).set (SYN_N_DEN_DEN c)
       1).set (SYN_CTL_EN c) 1).set (SYN_STAT_RETUNE c) 0).set (RMP_STAT_STATE c) whIdle |>.set (SYN_STAT_STATE c) synLocked
     (s.takesWrite p ⟨.SYN_APPLY, c, 0, 0⟩ (wordSet w 0 1 1))) ∧
    (let b : State := runState
     let v : CmdVia := .mbx 3
     let c : Fin 12 := 5
     let i : BitVec 9 := 80
     let h : BitVec 2 := 0
     let a : Word := 0
     let d : Word := 1
     let s : State := ((((((b.set (SYN_N_INT_N_INT c) 80).set (SYN_N_INT_PATH c) 0).set (SYN_N_NUM_NUM c) 0).set (SYN_N_DEN_DEN c)
       1).set (SYN_CTL_EN c) 1).set (SYN_STAT_RETUNE c) 0).set (RMP_STAT_STATE c) whIdle |>.set (SYN_STAT_STATE c) synLocked
     (s.takesCmd v = true) ∧ (s.isolated (dieOfCluster c) = false) ∧ (14 ≤ i.toNat) ∧ (i.toNat ≤ 288) ∧ (a.toNat < d.toNat) ∧
       (s.applyAccepted c (s.plan c i.toNat h.toNat a.toNat d.toNat) = true)) ∧
    (let b : State := runState
     let v : CmdVia := .mbx 3
     let c : Fin 12 := 5
     let i : BitVec 9 := 80
     let h : BitVec 2 := 0
     let a : Word := 0
     let d : Word := 1
     let s : State := b.set (SYN_CTL_EN c) 0
     (s.takesCmd v = true) ∧ (s.isolated (dieOfCluster c) = false) ∧ (s.applyAccepted c (s.plan c i.toNat h.toNat a.toNat d.toNat)
       = false)) :=
  by and_intros <;> decide

theorem test_hypotheses_BandSearches :
    (let b : State := runState
     let c : Fin 12 := 2
     let k : Fin 4 := 1
     let band : Byte := 5
     let s : State := ((b.modSyn c (fun x =>
       { x with entry := some (3, [0, 0, 0x200A0001, 0x80000010]), kind := 2, outOfRange := false })).set (SYN_STAT_STATE c)
       synSearching).modSyn c (fun x => { x with entry := some (3, [0, 0, 0x200A0501, 0x80000010]) })
     (s.synState c = synSearching) ∧ ((s.synOf c).outOfRange = false) ∧ (s.searchAllows c k.val band.toNat = true)) ∧
    (let b : State := runState
     let c : Fin 12 := 2
     let s : State := (b.modSyn c (fun x =>
       { x with entry := some (3, [0, 0, 0x200A0001, 0x80000010]), kind := 3, outOfRange := false })).set (SYN_STAT_STATE c)
       synSearching
     (s.synState c = synSearching) ∧ ((s.synOf c).outOfRange = true ∨ (s.synOf c).kind = 3)) ∧
    (let b : State := runState
     let c : Fin 12 := 2
     let vt : Byte := 9
     let i : Nat := 3
     let e : List Word := [0, 0, 0x200A0001, 0x80000010]
     let s : State := (b.modSyn c (fun x => { x with entry := some (i, e), kind := 0 })).set (SYN_STAT_STATE c) synAcquiring
     ((s.synOf c).entry = some (i, e)) ∧ (s.synState c = synAcquiring) ∧ ((s.synOf c).kind = 0) ∧ (vt.toNat < entVtLo e ∨ entVtHi
       e < vt.toNat)) ∧
    (let b : State := runState
     let c : Fin 12 := 1
     let s : State := (b.modSyn c (fun x =>
       { x with entry := some (3, [0, 0, 0x200A0001, 0x80000010]), kind := 3, outOfRange := false })).set (SYN_STAT_STATE c)
       synAcquiring
     (s.synState c = synAcquiring) ∧ ((s.synOf c).kind = 3)) ∧
    (let b : State := runState
     let c : Fin 12 := 1
     let s : State := (b.modSyn c (fun x =>
       { x with entry := some (3, [0, 0, 0x200A0001, 0x80000010]), kind := 2, outOfRange := false })).set (SYN_STAT_STATE c)
       synAcquiring
     (s.synState c = synAcquiring) ∧ ((s.synOf c).kind ≠ 3)) ∧
    (let b : State := runState
     let c : Fin 12 := 1
     let s : State := (b.modSyn c (fun x =>
       { x with entry := some (3, [0, 0, 0x200A0001, 0x80000010]), kind := 2, outOfRange := false })).set (SYN_STAT_STATE c)
       synUnlocked
     (s.synState c = synUnlocked) ∧ (s.freeRunFollows c = false)) ∧
    (let b : State := runState
     let c : Fin 12 := 1
     let s : State := ((((b.set (SYN_STAT_STATE c) synUnlocked).set (OUT_CTL_EN (4 * c)) 1).set (OUT_STAT_LOSS_KIND (4 * c))
       3).modOut (4 * c) (fun o => { o with src := c % 3 }))
     (s.synState c = synUnlocked) ∧ (s.freeRunFollows c = true)) :=
  by and_intros <;> decide

theorem test_hypotheses_ClusterLockAndLossOfLock :
    (let b : State := runState
     let c : Fin 12 := 2
     let run : Byte := 255
     let err : Word := 0
     let s : State := (b.set (SYN_STAT_STATE c) synUnlocked).set (SYN_STAT_RETUNE c) 0
     (s.synState c = synUnlocked) ∧ (s.get (SYN_STAT_RETUNE c) = 0) ∧ (s.inWindow c err = true) ∧ (s.get (SYN_LD_LK_CNT c) ≤
       run.toNat)) ∧
    (let b : State := runState
     let c : Fin 12 := 2
     let run : Byte := 255
     let err : Word := 0
     let s : State := ((b.modSyn c (fun x =>
       { x with entry := some (3, [0, 0, 0x200A0001, 0x80000010]), kind := 3, outOfRange := false })).set (SYN_STAT_STATE c)
       synAcquiring).set (SYN_STAT_RETUNE c) 1
     (s.synState c = synAcquiring) ∧ (s.get (SYN_STAT_RETUNE c) = 1) ∧ ((s.synOf c).kind = 3) ∧ (s.inWindow c err = true) ∧ (s.get
       (SYN_LD_LK_CNT c) ≤ run.toNat)) ∧
    (let b : State := runState
     let c : Fin 12 := 2
     let run : Byte := 255
     let err : Word := 0x70000000
     let s : State := b
     (s.inWindow c err = false ∨ run.toNat < s.get (SYN_LD_LK_CNT c))) ∧
    (let b : State := runState
     let c : Fin 12 := 9
     let err : Word := 0x7fffffff
     let run : Byte := 255
     let s : State := b.set (SYN_STAT_STATE c) synLocked
     (s.synState c = synLocked) ∧ (s.inWindow c err = false) ∧ (s.get (SYN_LD_UL_CNT c) ≤ run.toNat)) ∧
    (let b : State := runState
     let c : Fin 12 := 9
     let err : Word := 0
     let s : State := b
     (s.inWindow c err = true)) ∧
    (let b : State := runState
     let c : Fin 12 := 9
     let s : State := (b.set (SYN_STAT_STATE c) synLocked).set (SYN_STAT_RET_PEND c) 1
     (s.get (SYN_STAT_RET_PEND c) = 1) ∧ (s.synState c = synLocked) ∧ (s.pkg_.loRuns = true)) ∧
    (let b : State := runState
     let v : CmdVia := .ring
     let c : Fin 12 := 9
     let s : State := b.set (SYN_STAT_STATE c) synLocked
     (s.takesCmd v = true) ∧ (s.isolated (dieOfCluster c) = false) ∧ (s.synState c = synLocked)) ∧
    (let b : State := runState
     let v : CmdVia := .mbx 3
     let c : Fin 12 := 9
     let s : State := b.set (SYN_STAT_STATE c) synUnlocked
     (s.takesCmd v = true) ∧ (s.isolated (dieOfCluster c) = false) ∧ (s.synState c ≠ synLocked)) ∧
    (let b : State := runState
     let p : Path := .host
     let c : Fin 12 := 9
     let w : Word := 0
     let s : State := (b.set (SYN_CTL_EN c) 0).set (SYN_CTL_RET_AUTO c) 1
     (s.takesWrite p ⟨.SYN_CTL, c, 0, 0⟩ w) ∧ ((SYN_CTL_EN c).of w = s.get (SYN_CTL_EN c)) ∧ (s.get (SYN_CTL_RET_AUTO c) = 1) ∧
       ((SYN_CTL_RET_AUTO c).of w = 0)) ∧
    (let b : State := runState
     let p : Path := .host
     let c : Fin 12 := 9
     let w : Word := 2
     let j : Fin 12 := 3
     let s : State := (((((b.set (SYN_CTL_EN c) 0).set (SYN_CTL_RET_AUTO c) 0).set (SYN_STAT_STATE c) synLocked).set
       (OUT_STAT_STATE (12 * (c / 3) + j)) outOnLoss).set (OUT_STAT_LOSS_KIND (12 * (c / 3) + j)) 2).modOut (12 * (c / 3) + j) (fun
       o => { o with lost := 7 })
     (s.takesWrite p ⟨.SYN_CTL, c, 0, 0⟩ w) ∧ ((SYN_CTL_EN c).of w = s.get (SYN_CTL_EN c)) ∧ (s.get (SYN_CTL_RET_AUTO c) = 0) ∧
       ((SYN_CTL_RET_AUTO c).of w = 1) ∧ (s.synState c = synLocked) ∧ (s.onLoss (12 * (c / 3) + j) = true) ∧ (bitOf (s.outOf (12 *
       (c / 3) + j)).lost (c % 3) = true)) :=
  by and_intros <;> decide

theorem test_hypotheses_BandTableLoads :
    (let b : State := runState
     let p : Path := .host
     let c : Fin 12 := 4
     let w : Word := 0
     let s : State := b
     (s.takesWrite p ⟨.SYN_BLOAD_CTL, c, 0, 0⟩ (wordSet w 0 1 1))) ∧
    (let b : State := runState
     let p : Path := .host
     let c : Fin 12 := 4
     let w : Word := 5
     let l : List Word := [1, 2]
     let s : State := b.modSyn c (fun x => { x with load := some l })
     (s.takesWrite p ⟨.SYN_BLOAD_DATA, c, 0, 0⟩ w) ∧ ((s.synOf c).load = some l) ∧ (l.length < 512)) ∧
    (let b : State := runState
     let p : Path := .host
     let c : Fin 12 := 4
     let w : Word := crcWords (List.replicate 512 0)
     let l : List Word := List.replicate 512 0
     let s : State := b.modSyn c (fun x => { x with load := some l, loadBad := false })
     (s.takesWrite p ⟨.SYN_BLOAD_DATA, c, 0, 0⟩ w) ∧ ((s.synOf c).load = some l) ∧ (l.length = 512) ∧ ((s.synOf c).loadBad =
       false) ∧ (crcWords l = w)) ∧
    (let b : State := runState
     let p : Path := .host
     let c : Fin 12 := 4
     let w : Word := 1
     let l : List Word := List.replicate 512 0
     let s : State := b.modSyn c (fun x => { x with load := some l, loadBad := false })
     (s.takesWrite p ⟨.SYN_BLOAD_DATA, c, 0, 0⟩ w) ∧ ((s.synOf c).load = some l) ∧ (l.length = 512) ∧ (crcWords l ≠ w)) ∧
    (let b : State := runState
     let v : CmdVia := .ring
     let c : Fin 12 := 4
     let l : List Word := List.replicate 512 7
     let s : State := b
     (s.takesCmd v = true) ∧ (s.isolated (dieOfCluster c) = false) ∧ (l.length = 512)) ∧
    (let b : State := runState
     let c : Fin 12 := 4
     let l : List Word := [5, 6]
     let s : State := (b.modSyn c (fun x => { x with pend := some l })).set (SYN_STAT_STATE c) synLocked
     ((s.synOf c).pend = some l) ∧ (s.synState c ≠ synSearching) ∧ (s.synState c ≠ synAcquiring)) :=
  by and_intros <;> decide +kernel

theorem test_hypotheses_BypassAndMuxSwitches :
    (let b : State := runState
     let n : Fin 48 := 47
     let l : Nat := 2
     let s : State := b.modOut n (fun o => { o with sw := some (.toLane l) })
     ((s.outOf n).sw = some (.toLane l))) ∧
    (let b : State := runState
     let n : Fin 48 := 47
     let c : Nat := 11
     let s : State := ((b.modOut n (fun o => { o with sw := some (.back c) })).set (OUT_STAT_LOSS_KIND n) 1).set (SYN_STAT_STATE
       (3 * (n / 12) + b.get (OUT_CTL_SRC n))) synLocked
     ((s.outOf n).sw = some (.back c)) ∧ (s.get (OUT_STAT_LOSS_KIND n) ≠ 3) ∧ (s.get (OUT_CTL_SRC n) = 3 ∨ s.synState (3 * (n /
       12) + s.get (OUT_CTL_SRC n)) = synLocked)) ∧
    (let b : State := runState
     let n : Fin 48 := 13
     let s : State := (b.modOut n (fun o => { o with sw := some .mux })).set (OUT_CTL_EN n) 1
     (s.unitOn n = true) ∧ ((s.outOf n).sw = some .mux)) :=
  by and_intros <;> decide

theorem test_hypotheses_WheelStartsAndStops :
    (let b : State := runState
     let v : CmdVia := .ring
     let c : Fin 12 := 11
     let s : State := (((((((b.set (SYN_STAT_STATE c) synLocked).set (SYN_STAT_RETUNE c) 0).set (RMP_STAT_STATE c) whIdle).set
       (RMP_LIM_NEG_LIM c) 0).set (RMP_LIM_POS_LIM c) 0).set (TRG_CTL_RREF_SEL (c / 3)) 0).modSyn c (fun x =>
       { x with num := 100, den := 1 })).modWh c (fun x =>
       { x with bank := [({ seq := 7, idx := 0, last := true, nseg := 1, words := [0x00000003, 5] } : Chunk)] })
     (s.takesCmd v = true) ∧ (s.isolated (dieOfCluster c) = false) ∧ (s.wheelRuns c = false) ∧ (s.synState c = synLocked) ∧ (s.on
       (SYN_STAT_RETUNE c) = false) ∧ (s.rampLimitsOk c = true) ∧ (s.wheelStream c = true ∨ (s.wh c).bank ≠ [])) ∧
    (let b : State := runState
     let p : Path := .host
     let c : Fin 12 := 11
     let w : Word := 0
     let s : State := (((((((b.set (SYN_STAT_STATE c) synLocked).set (SYN_STAT_RETUNE c) 0).set (RMP_STAT_STATE c) whHeld).set
       (RMP_LIM_NEG_LIM c) 0).set (RMP_LIM_POS_LIM c) 0).set (TRG_CTL_RREF_SEL (c / 3)) 0).modSyn c (fun x =>
       { x with num := 100, den := 1 })).modWh c (fun x =>
       { x with bank := [({ seq := 7, idx := 0, last := true, nseg := 1, words := [0x00000003, 5] } : Chunk)] })
     (s.takesWrite p ⟨.RMP_CMD, c, 0, 0⟩ (wordSet w 0 1 1)) ∧ (s.wheelStream c = true ∨ (s.wh c).bank ≠ [])) ∧
    (let b : State := runState
     let v : CmdVia := .ring
     let c : Fin 12 := 11
     let s : State := (((((((b.set (SYN_STAT_STATE c) synLocked).set (SYN_STAT_RETUNE c) 0).set (RMP_STAT_STATE c) whIdle).set
       (RMP_LIM_NEG_LIM c) 0).set (RMP_LIM_POS_LIM c) 0).set (TRG_CTL_RREF_SEL (c / 3)) 0).modSyn c (fun x =>
       { x with num := 100, den := 1 })).set (RMP_CTL_MODE c) 0 |>.modWh c (fun x => { x with bank := [] })
     (s.takesCmd v = true) ∧ (s.isolated (dieOfCluster c) = false) ∧ (s.wheelRuns c = false) ∧ (s.synState c = synLocked) ∧ (s.on
       (SYN_STAT_RETUNE c) = false) ∧ (s.rampLimitsOk c = true) ∧ (s.wheelStream c = false) ∧ ((s.wh c).bank = [])) ∧
    (let b : State := runState
     let v : CmdVia := .mbx 3
     let c : Fin 12 := 0
     let s : State := (((((((b.set (SYN_STAT_STATE c) synLocked).set (SYN_STAT_RETUNE c) 0).set (RMP_STAT_STATE c) whPaused).set
       (RMP_LIM_NEG_LIM c) 0).set (RMP_LIM_POS_LIM c) 0).set (TRG_CTL_RREF_SEL (c / 3)) 0).modSyn c (fun x =>
       { x with num := 100, den := 1 })).modWh c (fun x =>
       { x with bank := [({ seq := 7, idx := 0, last := true, nseg := 1, words := [0x00000003, 5] } : Chunk)] })
     (s.takesCmd v = true) ∧ (s.isolated (dieOfCluster c) = false) ∧ (s.wheelRuns c = true)) ∧
    (let b : State := runState
     let v : CmdVia := .mbx 3
     let c : Fin 12 := 0
     let s : State := (((((((b.set (SYN_STAT_STATE c) synLocked).set (SYN_STAT_RETUNE c) 0).set (RMP_STAT_STATE c) whPaused).set
       (RMP_LIM_NEG_LIM c) 0).set (RMP_LIM_POS_LIM c) 0).set (TRG_CTL_RREF_SEL (c / 3)) 0).modSyn c (fun x =>
       { x with num := 100, den := 1 })).modWh c (fun x =>
       { x with bank := [({ seq := 7, idx := 0, last := true, nseg := 1, words := [0x00000003, 5] } : Chunk)] })
     (s.takesCmd v = true) ∧ (s.isolated (dieOfCluster c) = false) ∧ (s.wheelState c = whPaused)) ∧
    (let b : State := runState
     let v : CmdVia := .mbx 3
     let c : Fin 12 := 0
     let s : State := (((((((((b.set (SYN_STAT_STATE c) synLocked).set (SYN_STAT_RETUNE c) 0).set (RMP_STAT_STATE c)
       whRunning).set (RMP_LIM_NEG_LIM c) 0).set (RMP_LIM_POS_LIM c) 0).set (TRG_CTL_RREF_SEL (c / 3)) 0).modSyn c (fun x =>
       { x with num := 100, den := 1 })).modWh c (fun x =>
       { x with bank := [({ seq := 7, idx := 0, last := true, nseg := 1, words := [0x00000003, 5] } : Chunk)] })).set (RMP_OFS_O c)
       0).modWh c (fun x => { x with homing := false })
     (s.takesCmd v = true) ∧ (s.isolated (dieOfCluster c) = false) ∧ (s.wheelState c = whRunning) ∧ (s.ofs c = 0) ∧ ((s.wh
       c).homing = false)) ∧
    (let b : State := runState
     let v : CmdVia := .mbx 3
     let c : Fin 12 := 0
     let s : State := (((((((((b.set (SYN_STAT_STATE c) synLocked).set (SYN_STAT_RETUNE c) 0).set (RMP_STAT_STATE c)
       whRunning).set (RMP_LIM_NEG_LIM c) 0).set (RMP_LIM_POS_LIM c) 0).set (TRG_CTL_RREF_SEL (c / 3)) 0).modSyn c (fun x =>
       { x with num := 100, den := 1 })).modWh c (fun x =>
       { x with bank := [({ seq := 7, idx := 0, last := true, nseg := 1, words := [0x00000003, 5] } : Chunk)] })).set (RMP_OFS_O c)
       5).modWh c (fun x => { x with homing := false })
     (s.takesCmd v = true) ∧ (s.isolated (dieOfCluster c) = false) ∧ (s.wheelState c = whRunning) ∧ (s.ofs c ≠ 0)) ∧
    (let b : State := runState
     let v : CmdVia := .mbx 3
     let c : Fin 12 := 0
     let s : State := (((((((b.set (SYN_STAT_STATE c) synLocked).set (SYN_STAT_RETUNE c) 0).set (RMP_STAT_STATE c) whIdle).set
       (RMP_LIM_NEG_LIM c) 0).set (RMP_LIM_POS_LIM c) 0).set (TRG_CTL_RREF_SEL (c / 3)) 0).modSyn c (fun x =>
       { x with num := 100, den := 1 })).modWh c (fun x =>
       { x with bank := [({ seq := 7, idx := 0, last := true, nseg := 1, words := [0x00000003, 5] } : Chunk)] })
     (s.takesCmd v = true) ∧ (s.isolated (dieOfCluster c) = false) ∧ (s.wheelRuns c = false)) ∧
    (let b : State := runState
     let p : Path := .host
     let c : Fin 12 := 0
     let w : Word := 0
     let s : State := (((((((b.set (SYN_STAT_STATE c) synLocked).set (SYN_STAT_RETUNE c) 0).set (RMP_STAT_STATE c) whRunning).set
       (RMP_LIM_NEG_LIM c) 0).set (RMP_LIM_POS_LIM c) 0).set (TRG_CTL_RREF_SEL (c / 3)) 0).modSyn c (fun x =>
       { x with num := 100, den := 1 })).modWh c (fun x =>
       { x with bank := [({ seq := 7, idx := 0, last := true, nseg := 1, words := [0x00000003, 5] } : Chunk)] })
     (s.takesWrite p ⟨.RMP_CMD, c, 0, 0⟩ (wordSet w 1 1 1)) ∧ ((RMP_CMD_HOME c).of w = 0)) :=
  by and_intros <;> decide

theorem test_hypotheses_WheelTicks :
    (let b : State := runState
     let c : Fin 12 := 3
     let s : State := ((((((((((((b.set (SYN_STAT_STATE c) synLocked).set (SYN_STAT_RETUNE c) 0).set (RMP_STAT_STATE c)
       whRunning).set (RMP_LIM_NEG_LIM c) 0).set (RMP_LIM_POS_LIM c) 0).set (TRG_CTL_RREF_SEL (c / 3)) 0).modSyn c (fun x =>
       { x with num := 100, den := 1 })).modWh c (fun x =>
       { x with bank := [({ seq := 7, idx := 0, last := true, nseg := 1, words := [0x00000003, 5] } : Chunk)] })).set
       (RMP_STAT_GLIDING c) 1).modWh c (fun x =>
       { x with homing := false, fresh := false, left := 5, slope := 3, atLim := false })).set (RMP_ANCHOR_ANCHOR c) 100).set
       (RMP_OFS_O c) 0).set (RMP_GLIDE_GLIDE c) 7
     (s.wheelState c = whRunning) ∧ (s.on (RMP_STAT_GLIDING c) = true) ∧ ((s.wh c).homing = false) ∧ (glideStep (s.ofs c) (s.getS
       (RMP_ANCHOR_ANCHOR c)) (s.get (RMP_GLIDE_GLIDE c)) ≠ s.getS (RMP_ANCHOR_ANCHOR c))) ∧
    (let b : State := runState
     let c : Fin 12 := 3
     let s : State := (((((((((((b.set (SYN_STAT_STATE c) synLocked).set (SYN_STAT_RETUNE c) 0).set (RMP_STAT_STATE c)
       whRunning).set (RMP_LIM_NEG_LIM c) 0).set (RMP_LIM_POS_LIM c) 0).set (TRG_CTL_RREF_SEL (c / 3)) 0).modSyn c (fun x =>
       { x with num := 100, den := 1 })).modWh c (fun x =>
       { x with bank := [({ seq := 7, idx := 0, last := true, nseg := 1, words := [0x00000003, 5] } : Chunk)] })).set
       (RMP_STAT_GLIDING c) 0).modWh c (fun x =>
       { x with homing := false, fresh := false, left := 5, slope := 3, atLim := false })).set (RMP_OFS_O c) 0).set (RMP_LIM_POS_LIM
       c) 3
     (s.wheelState c = whRunning) ∧ (s.on (RMP_STAT_GLIDING c) = false) ∧ ((s.wh c).homing = false) ∧ ((s.wh c).fresh = false) ∧
       (1 < (s.wh c).left) ∧ ((s.wh c).atLim = false) ∧ (-(s.get (RMP_LIM_NEG_LIM c) : Int) ≤ s.ofs c + (s.wh c).slope) ∧ (s.ofs c +
       (s.wh c).slope ≤ s.get (RMP_LIM_POS_LIM c))) ∧
    (let b : State := runState
     let c : Fin 12 := 3
     let s : State := (((((((((((b.set (SYN_STAT_STATE c) synLocked).set (SYN_STAT_RETUNE c) 0).set (RMP_STAT_STATE c)
       whRunning).set (RMP_LIM_NEG_LIM c) 0).set (RMP_LIM_POS_LIM c) 0).set (TRG_CTL_RREF_SEL (c / 3)) 0).modSyn c (fun x =>
       { x with num := 100, den := 1 })).modWh c (fun x =>
       { x with bank := [({ seq := 7, idx := 0, last := true, nseg := 1, words := [0x00000003, 5] } : Chunk)] })).set
       (RMP_STAT_GLIDING c) 0).modWh c (fun x =>
       { x with homing := false, fresh := false, left := 5, slope := 3, atLim := false })).set (RMP_OFS_O c) 0).set (RMP_LIM_POS_LIM
       c) 2
     (s.wheelState c = whRunning) ∧ (s.on (RMP_STAT_GLIDING c) = false) ∧ ((s.wh c).homing = false) ∧ ((s.wh c).fresh = false) ∧
       (1 < (s.wh c).left) ∧ ((s.wh c).atLim = false) ∧ ((s.get (RMP_LIM_POS_LIM c) : Int) < s.ofs c + (s.wh c).slope)) ∧
    (let b : State := runState
     let c : Fin 12 := 3
     let s : State := (((((((b.set (SYN_STAT_STATE c) synLocked).set (SYN_STAT_RETUNE c) 0).set (RMP_STAT_STATE c) whHeld).set
       (RMP_LIM_NEG_LIM c) 0).set (RMP_LIM_POS_LIM c) 0).set (TRG_CTL_RREF_SEL (c / 3)) 0).modSyn c (fun x =>
       { x with num := 100, den := 1 })).modWh c (fun x =>
       { x with bank := [({ seq := 7, idx := 0, last := true, nseg := 1, words := [0x00000003, 5] } : Chunk)] })
     (s.wheelState c ≠ whRunning)) :=
  by and_intros <;> decide

theorem test_hypotheses_RampChunks :
    (let b : State := runState
     let p : Path := .host
     let c : Fin 12 := 6
     let i : Fin 66 := 1
     let w : Word := 9
     let l : List Word := [4]
     let s : State := b.modWh c (fun x => { x with opened := l })
     (s.takesWrite p ⟨.RMP_CHUNK, c, i, 0⟩ w) ∧ ((s.wh c).opened = l) ∧ (l.length = i.val) ∧ (i.val < 65)) ∧
    (let b : State := runState
     let p : Path := .host
     let c : Fin 12 := 6
     let w : Word := 9
     let l : List Word := List.replicate 65 0
     let s : State := b.modWh c (fun x => { x with opened := l })
     (s.takesWrite p ⟨.RMP_CHUNK, c, 65, 0⟩ w) ∧ ((s.wh c).opened = l) ∧ (l.length = 65) ∧ (chunkOf l w = none)) ∧
    (let b : State := runState
     let p : Path := .host
     let c : Fin 12 := 6
     let w : Word := crcWords (List.replicate 64 0 ++ [0x100005])
     let l : List Word := List.replicate 64 0 ++ [0x100005]
     let k : Chunk := { seq := 5, idx := 0, last := false, nseg := 1, words := List.replicate 64 0 }
     let s : State := ((b.modWh c (fun x => { x with opened := l })).set (RMP_CTL_MODE c) 1).set (RMP_PDONE_NEXT_SEQ c) 5 |>.modWh
       c (fun x => { x with ring := [], skip := false, gap := false, openBad := false })
     (s.takesWrite p ⟨.RMP_CHUNK, c, 65, 0⟩ w) ∧ ((s.wh c).opened = l) ∧ (l.length = 65) ∧ (chunkOf l w = some k) ∧ (s.wheelStream
       c = true) ∧ (k.seq = s.get (RMP_PDONE_NEXT_SEQ c)) ∧ ((s.wh c).hasSlot = true) ∧ ((s.wh c).skip = false) ∧ ((s.wh c).openBad
       = false) ∧ ((s.wh c).gap = false ∨ k.idx = 0)) ∧
    (let b : State := runState
     let v : CmdVia := .ring
     let c : Fin 12 := 6
     let l : List Word := List.replicate 64 0 ++ [0x180005, crcWords (List.replicate 64 0 ++ [0x180005])]
     let k : Chunk := { seq := 5, idx := 0, last := true, nseg := 1, words := List.replicate 64 0 }
     let s : State := ((b.set (RMP_CTL_MODE c) 0).set (RMP_STAT_STATE c) whIdle).modWh c (fun x =>
       { x with opened := [], openBad := false })
     (s.takesCmd v = true) ∧ (s.isolated (dieOfCluster c) = false) ∧ (l.length = 66) ∧ (chunkOf (l.take 65) (l.getD 65 0) = some
       k) ∧ ((s.wh c).opened = []) ∧ ((s.wh c).openBad = false) ∧ (s.wheelStream c = false) ∧ (s.wheelRuns c = false) ∧ (k.idx = 0)
       ∧ (k.last = true)) ∧
    (let b : State := runState
     let v : CmdVia := .ring
     let c : Fin 12 := 6
     let s : State := b
     (s.takesCmd v = true) ∧ (s.isolated (dieOfCluster c) = false)) ∧
    (let b : State := runState
     let v : CmdVia := .mbx 3
     let c : Fin 12 := 6
     let l : List (List Word) := List.replicate 9 []
     let s : State := b
     (s.takesCmd v = true) ∧ (s.isolated (dieOfCluster c) = false) ∧ (8 < l.length)) :=
  by and_intros <;> decide +kernel

theorem test_hypotheses_OutputEnableDividerDelayAndBanks :
    (let b : State := runState
     let p : Path := .host
     let n : Fin 48 := 47
     let w : Word := 0x300
     let s : State := ((((((b.set (OUT_BANK_BANK_OK (n / 6)) 1).set (OUT_BANK_VCLASS (n / 6)) 3).set (OUT_CTL_EN n) 0).set
       (OUT_CTL_ROLE n) 0).set (OUT_STAT_LOSS_KIND n) 0).set (PLZ_LO_HZ_LO_HZ) 25000000).set (SYN_BYP_SRC (3 * (n / 12))) 0 |>.set
       (SYN_STAT_STATE (3 * (n / 12))) synLocked |>.set (SYN_BYP_BN (3 * (n / 12))) 20 |>.set (OUT_DIV_DIV n) 99 |>.modOut n (fun o
       => { o with src := 3, lane := 0 }) |>.set (SEQ_DEP_A_EN 0) 0
     (s.takesWrite p ⟨.OUT_CTL, n, 0, 0⟩ (wordSet w 0 1 1)) ∧ (s.get (OUT_CTL_EN n) = 0) ∧ ((OUT_CTL_SRC n).of w = 3 ∨ s.synState
       (3 * (n / 12) + (OUT_CTL_SRC n).of w) = synLocked) ∧ ((OUT_CTL_ROLE n).of w ≠ 1 ∨ s.on (OUT_STAT_STAGED n) = false)) ∧
    (let b : State := runState
     let p : Path := .host
     let n : Fin 48 := 0
     let w : Word := 0x1000
     let s : State := ((((((b.set (OUT_BANK_BANK_OK (n / 6)) 1).set (OUT_BANK_VCLASS (n / 6)) 3).set (OUT_CTL_EN n) 1).set
       (OUT_CTL_ROLE n) 0).set (OUT_STAT_LOSS_KIND n) 0).set (PLZ_LO_HZ_LO_HZ) 25000000).set (SYN_BYP_SRC (3 * (n / 12))) 0 |>.set
       (SYN_STAT_STATE (3 * (n / 12))) synLocked |>.set (SYN_BYP_BN (3 * (n / 12))) 20 |>.set (OUT_DIV_DIV n) 99 |>.modOut n (fun o
       => { o with src := 3, lane := 0 }) |>.set (SEQ_DEP_A_EN 0) 0
     (s.takesWrite p ⟨.OUT_CTL, n, 0, 0⟩ (wordSet w 0 1 0)) ∧ (s.get (OUT_CTL_EN n) = 1)) ∧
    (let b : State := runState
     let p : Path := .host
     let n : Fin 48 := 23
     let w : Word := 100
     let s : State := ((((((b.set (OUT_BANK_BANK_OK (n / 6)) 1).set (OUT_BANK_VCLASS (n / 6)) 3).set (OUT_CTL_EN n) 1).set
       (OUT_CTL_ROLE n) 0).set (OUT_STAT_LOSS_KIND n) 0).set (PLZ_LO_HZ_LO_HZ) 25000000).set (SYN_BYP_SRC (3 * (n / 12))) 0 |>.set
       (SYN_STAT_STATE (3 * (n / 12))) synLocked |>.set (SYN_BYP_BN (3 * (n / 12))) 20 |>.set (OUT_DIV_DIV n) 99 |>.modOut n (fun o
       => { o with src := 3, lane := 0 }) |>.set (SEQ_DEP_A_EN 0) 0
     (s.takesWrite p ⟨.OUT_DIV, n, 0, 0⟩ w) ∧ (s.unitOn n = true) ∧ (s.get (OUT_CTL_ROLE n) ≠ 1)) ∧
    (let b : State := runState
     let p : Path := .host
     let n : Fin 48 := 23
     let w : Word := 100
     let s : State := ((((((b.set (OUT_BANK_BANK_OK (n / 6)) 1).set (OUT_BANK_VCLASS (n / 6)) 3).set (OUT_CTL_EN n) 1).set
       (OUT_CTL_ROLE n) 1).set (OUT_STAT_LOSS_KIND n) 0).set (PLZ_LO_HZ_LO_HZ) 25000000).set (SYN_BYP_SRC (3 * (n / 12))) 0 |>.set
       (SYN_STAT_STATE (3 * (n / 12))) synLocked |>.set (SYN_BYP_BN (3 * (n / 12))) 20 |>.set (OUT_DIV_DIV n) 99 |>.modOut n (fun o
       => { o with src := 3, lane := 0 }) |>.set (SEQ_DEP_A_EN 0) 0
     (s.takesWrite p ⟨.OUT_DIV, n, 0, 0⟩ w) ∧ (s.unitOn n = true) ∧ (s.get (OUT_CTL_ROLE n) = 1)) ∧
    (let b : State := runState
     let p : Path := .host
     let n : Fin 48 := 23
     let w : Word := 0x10005
     let s : State := (((((((b.set (OUT_BANK_BANK_OK (n / 6)) 1).set (OUT_BANK_VCLASS (n / 6)) 3).set (OUT_CTL_EN n) 1).set
       (OUT_CTL_ROLE n) 0).set (OUT_STAT_LOSS_KIND n) 0).set (PLZ_LO_HZ_LO_HZ) 25000000).set (SYN_BYP_SRC (3 * (n / 12))) 0 |>.set
       (SYN_STAT_STATE (3 * (n / 12))) synLocked |>.set (SYN_BYP_BN (3 * (n / 12))) 20 |>.set (OUT_DIV_DIV n) 99 |>.modOut n (fun o
       => { o with src := 3, lane := 0 }) |>.set (SEQ_DEP_A_EN 0) 0).set (OUT_STAT_WALKING n) 0
     (s.takesWrite p ⟨.OUT_DLY, n, 0, 0⟩ w) ∧ (s.unitOn n = true) ∧ (s.get (OUT_CTL_ROLE n) ≠ 1) ∧ (s.get (OUT_STAT_WALKING n) =
       0)) ∧
    (let b : State := runState
     let n : Fin 48 := 5
     let s : State := b.set (OUT_STAT_WALKING n) 1
     (s.on (OUT_STAT_WALKING n) = true)) ∧
    (let b : State := runState
     let k : Fin 8 := 7
     let x : Byte := 0
     let s : State := (b.set (OUT_BANK_VCLASS k) 3).set (OUT_CTL_EN (6 * k)) 1
     (bankInBand (s.get (OUT_BANK_VCLASS k)) x.toNat = false)) ∧
    (let b : State := runState
     let k : Fin 8 := 7
     let x : Byte := 125
     let s : State := b.set (OUT_BANK_VCLASS k) 3
     (bankInBand (s.get (OUT_BANK_VCLASS k)) x.toNat = true)) :=
  by and_intros <;> decide

theorem test_hypotheses_OutputAlignmentAndEchoes :
    (let b : State := runState
     let p : Path := .host
     let t : Fin 4 := 3
     let w : Word := 0x1001
     let s : State := (((b.set (TRG_STAT_STATE t) dpllLocked).set (OUT_CTL_EN (12 * t)) 1).set (OUT_CTL_ROLE (12 * t)) 0).set
       (OUT_STAT_LOSS_KIND (12 * t)) 0
     (s.takesWrite p ⟨.OUT_RSYNC, t, 0, 0⟩ w)) ∧
    (let b : State := runState
     let t : Fin 4 := 3
     let e : BitVec 16 := 0xffff
     let s : State := ((b.set (OUT_RSYNC_STAT_PEND t) 1).set (PLZ_SEL_STAT_ACTIVE t) 1).set (OUT_RSYNC_STAT_PMASK t) 5
     (s.on (OUT_RSYNC_STAT_PEND t) = true) ∧ (s.on (PLZ_SEL_STAT_ACTIVE t) = true) ∧ ((bankGet s.trg t.val).rsyncK ≤ e.toNat)) ∧
    (let b : State := runState
     let t : Fin 4 := 3
     let m : Nat := 5
     let k : Nat := 1
     let e : BitVec 16 := 1
     let s : State := (b.modTrg t (fun g => { g with realign := some (m, k) })).set (PLZ_SEL_STAT_ACTIVE t) 1
     ((bankGet s.trg t.val).realign = some (m, k)) ∧ (s.on (PLZ_SEL_STAT_ACTIVE t) = true) ∧ (k ≤ e.toNat)) ∧
    (let b : State := runState
     let i : Fin 8 := 7
     let f : Bool := true
     let h : BitVec 48 := 0
     let n : Fin 48 := 47
     let s : State := (((((b.set (PIN_CFG_FN_CUR (34 + i)) 1).set (OUT_CTL_EN n) 1).set (OUT_CTL_ROLE n) 2).set (OUT_ECHO_SEL n)
       i).set (OUT_ECHO_INV n) (if f then 1 else 0)).set (OUT_STAT_LOSS_KIND n) 0
     (s.syncInOn i = true) ∧ (s.unitOn n = true) ∧ (s.get (OUT_CTL_ROLE n) = 2) ∧ (s.get (OUT_ECHO_SEL n) = i.val) ∧ (s.on
       (OUT_ECHO_INV n) = f) ∧ (s.get (OUT_STAT_LOSS_KIND n) ≠ 2) ∧ (s.linked dieC (dieOfOut n) = true) ∧ (bitOf h.toNat n = false)) ∧
    (let b : State := runState
     let i : Fin 8 := 7
     let f : Bool := true
     let h : BitVec 48 := 0x800000000000
     let n : Fin 48 := 47
     let s : State := (((((b.set (PIN_CFG_FN_CUR (34 + i)) 1).set (OUT_CTL_EN n) 1).set (OUT_CTL_ROLE n) 2).set (OUT_ECHO_SEL n)
       i).set (OUT_ECHO_INV n) (if f then 1 else 0)).set (OUT_STAT_LOSS_KIND n) 0
     (s.syncInOn i = true) ∧ (s.unitOn n = true) ∧ (s.get (OUT_CTL_ROLE n) = 2) ∧ (s.get (OUT_ECHO_SEL n) = i.val) ∧ (s.on
       (OUT_ECHO_INV n) = f) ∧ (s.get (OUT_STAT_LOSS_KIND n) ≠ 2) ∧ (s.linked dieC (dieOfOut n) = true) ∧ (bitOf h.toNat n = true)) :=
  by and_intros <;> decide

theorem test_hypotheses_RailStartsAndStops :
    (let b : State := runState
     let p : Path := .host
     let r : Fin 24 := 23
     let w : Word := 0xC
     let s : State := ((((b.set (PRG_PH_RAIL (24 * (r / 6))) (r % 6)).set (PRG_RSTAT_STATE r) railOff).set (PRG_RSTAT_PG r) 0).set
       (PRG_RCTL_EN r) 0)
     (s.takesWrite p (regRctl r) (wordSet w 0 1 1)) ∧ (s.get (PRG_RCTL_EN r) = 0) ∧ (s.railState r = railOff)) ∧
    (let b : State := runState
     let p : Path := .host
     let r : Fin 24 := 23
     let w : Word := 0xC
     let s : State := ((((b.set (PRG_PH_RAIL (24 * (r / 6))) (r % 6)).set (PRG_RSTAT_STATE r) railStop).set (PRG_RSTAT_PG r)
       0).set (PRG_RCTL_EN r) 0)
     (s.takesWrite p (regRctl r) (wordSet w 0 1 1)) ∧ (s.get (PRG_RCTL_EN r) = 0) ∧ (s.railState r = railStop)) ∧
    (let b : State := runState
     let p : Path := .host
     let r : Fin 24 := 0
     let w : Word := 0xC
     let s : State := ((((b.set (PRG_PH_RAIL (24 * (r / 6))) (r % 6)).set (PRG_RSTAT_STATE r) railRegulating).set (PRG_RSTAT_PG r)
       1).set (PRG_RCTL_EN r) 1)
     (s.takesWrite p (regRctl r) (wordSet w 0 1 0)) ∧ ((PRG_RCTL_STOP_MODE r).of w = 0) ∧ (s.railState r = railRegulating)) ∧
    (let b : State := runState
     let p : Path := .host
     let r : Fin 24 := 0
     let w : Word := 0xE
     let s : State := ((((b.set (PRG_PH_RAIL (24 * (r / 6))) (r % 6)).set (PRG_RSTAT_STATE r) railRegulating).set (PRG_RSTAT_PG r)
       1).set (PRG_RCTL_EN r) 1)
     (s.takesWrite p (regRctl r) (wordSet w 0 1 0)) ∧ ((PRG_RCTL_STOP_MODE r).of w = 1) ∧ (s.railState r = railRegulating)) ∧
    (let b : State := runState
     let r : Fin 24 := 5
     let s : State := (((((b.set (PRG_PH_RAIL (24 * (r / 6))) (r % 6)).set (PRG_RSTAT_STATE r) railStart).set (PRG_RSTAT_PG r)
       0).set (PRG_RCTL_EN r) 1)).modRail r (fun y => { y with enWait := true })
     (s.railState r = railStart) ∧ ((s.railOf r).enWait = true)) ∧
    (let b : State := runState
     let r : Fin 24 := 5
     let s : State := (((((b.set (PRG_PH_RAIL (24 * (r / 6))) (r % 6)).set (PRG_RSTAT_STATE r) railStart).set (PRG_RSTAT_PG r)
       0).set (PRG_RCTL_EN r) 1)).modRail r (fun y => { y with enWait := false })
     (s.railState r = railStart) ∧ ((s.railOf r).enWait = false)) ∧
    (let b : State := runState
     let r : Fin 24 := 5
     let s : State := ((((b.set (PRG_PH_RAIL (24 * (r / 6))) (r % 6)).set (PRG_RSTAT_STATE r) railOff).set (PRG_RSTAT_PG r) 0).set
       (PRG_RCTL_EN r) 0)
     (s.railState r ≠ railStart ∨ (s.railOf r).enWait = false)) ∧
    (let b : State := runState
     let r : Fin 24 := 5
     let s : State := ((((b.set (PRG_PH_RAIL (24 * (r / 6))) (r % 6)).set (PRG_RSTAT_STATE r) railOff).set (PRG_RSTAT_PG r) 0).set
       (PRG_RCTL_EN r) 0)
     (s.railState r ≠ railStart)) ∧
    (let b : State := runState
     let r : Fin 24 := 5
     let s : State := ((((b.set (PRG_PH_RAIL (24 * (r / 6))) (r % 6)).set (PRG_RSTAT_STATE r) railStop).set (PRG_RSTAT_PG r)
       0).set (PRG_RCTL_EN r) 0)
     (s.railState r = railStop)) ∧
    (let b : State := runState
     let r : Fin 24 := 5
     let s : State := ((((b.set (PRG_PH_RAIL (24 * (r / 6))) (r % 6)).set (PRG_RSTAT_STATE r) railSafe).set (PRG_RSTAT_PG r)
       0).set (PRG_RCTL_EN r) 0)
     (s.railState r ≠ railStop)) :=
  by and_intros <;> decide

theorem test_hypotheses_RailRegulates :
    (let b : State := runState
     let r : Fin 24 := 7
     let x : BitVec 16 := 8500
     let s : State := ((((((((b.set (PRG_PH_RAIL (24 * (r / 6))) (r % 6)).set (PRG_RSTAT_STATE r) railRegulating).set
       (PRG_RSTAT_PG r) 0).set (PRG_RCTL_EN r) 1)).set (PRG_VID_VID r) 480).set (PRG_LL_RLL r) 0).set (PRG_RSTAT_MOVING r) 0 |>.set
       (PRG_RSTAT_PG r) 0).set (PRG_PG_PG_WIN r) 50
     (s.railState r = railRegulating) ∧ (s.get (PRG_RSTAT_PG r) = 0) ∧ (s.inPgBand r x.toNat = true)) ∧
    (let b : State := runState
     let r : Fin 24 := 7
     let x : BitVec 16 := 500
     let s : State := ((((((((b.set (PRG_PH_RAIL (24 * (r / 6))) (r % 6)).set (PRG_RSTAT_STATE r) railRegulating).set
       (PRG_RSTAT_PG r) 0).set (PRG_RCTL_EN r) 1)).set (PRG_VID_VID r) 480).set (PRG_LL_RLL r) 0).set (PRG_RSTAT_MOVING r) 0 |>.set
       (PRG_RSTAT_PG r) 1).set (PRG_PG_PG_WIN r) 50
     (s.railState r = railRegulating) ∧ (s.get (PRG_RSTAT_PG r) = 1) ∧ (s.inPgBand r x.toNat = false)) ∧
    (let b : State := runState
     let r : Fin 24 := 7
     let x : BitVec 16 := 500
     let s : State := ((((b.set (PRG_PH_RAIL (24 * (r / 6))) (r % 6)).set (PRG_RSTAT_STATE r) railStart).set (PRG_RSTAT_PG r)
       1).set (PRG_RCTL_EN r) 1)
     (s.railState r ≠ railRegulating ∨ s.inPgBand r x.toNat = true)) ∧
    (let b : State := runState
     let p : Path := .host
     let r : Fin 24 := 7
     let w : Word := 600
     let s : State := ((((b.set (PRG_PH_RAIL (24 * (r / 6))) (r % 6)).set (PRG_RSTAT_STATE r) railRegulating).set (PRG_RSTAT_PG r)
       1).set (PRG_RCTL_EN r) 1)
     (s.takesWrite p (regVid r) w) ∧ (s.railState r = railRegulating)) ∧
    (let b : State := runState
     let p : Path := .host
     let r : Fin 24 := 7
     let w : Word := 600
     let s : State := ((((b.set (PRG_PH_RAIL (24 * (r / 6))) (r % 6)).set (PRG_RSTAT_STATE r) railOff).set (PRG_RSTAT_PG r) 0).set
       (PRG_RCTL_EN r) 0)
     (s.takesWrite p (regVid r) w) ∧ (s.railState r ≠ railRegulating)) ∧
    (let b : State := runState
     let r : Fin 24 := 7
     let s : State := (((((b.set (PRG_PH_RAIL (24 * (r / 6))) (r % 6)).set (PRG_RSTAT_STATE r) railRegulating).set (PRG_RSTAT_PG
       r) 1).set (PRG_RCTL_EN r) 1)).set (PRG_RSTAT_MOVING r) 1
     (s.railState r = railRegulating) ∧ (s.on (PRG_RSTAT_MOVING r) = true)) ∧
    (let b : State := runState
     let r : Fin 24 := 7
     let i : BitVec 16 := 30000
     let s : State := (((((b.set (PRG_PH_RAIL (24 * (r / 6))) (r % 6)).set (PRG_RSTAT_STATE r) railRegulating).set (PRG_RSTAT_PG
       r) 1).set (PRG_RCTL_EN r) 1)).set (PRG_RSTAT_NACT r) 0
     (s.maySheds r = true) ∧ (s.get (PRG_RSTAT_NACT r) < s.nasg r) ∧ (itotOver i (s.get (PRG_RSTAT_NACT r) * s.get (PRG_SHED_I_ADD
       r)) = true)) ∧
    (let b : State := runState
     let r : Fin 24 := 7
     let i : BitVec 16 := 0xFFF0
     let s : State := (((((b.set (PRG_PH_RAIL (24 * (r / 6))) (r % 6)).set (PRG_RSTAT_STATE r) railRegulating).set (PRG_RSTAT_PG
       r) 1).set (PRG_RCTL_EN r) 1)).set (PRG_RSTAT_NACT r) 2
     (s.maySheds r = true) ∧ (s.minActive r < s.get (PRG_RSTAT_NACT r)) ∧ (itotBelow i ((s.get (PRG_RSTAT_NACT r) - 1) * s.get
       (PRG_SHED_I_DROP r)) = true)) ∧
    (let b : State := runState
     let r : Fin 24 := 7
     let s : State := ((((b.set (PRG_PH_RAIL (24 * (r / 6))) (r % 6)).set (PRG_RSTAT_STATE r) railStop).set (PRG_RSTAT_PG r)
       0).set (PRG_RCTL_EN r) 0)
     (s.maySheds r = false)) ∧
    (let b : State := runState
     let r : Fin 24 := 7
     let i : BitVec 16 := 0xFFF0
     let s : State := ((((((b.set (PRG_PH_RAIL (24 * (r / 6))) (r % 6)).set (PRG_RSTAT_STATE r) railRegulating).set (PRG_RSTAT_PG
       r) 1).set (PRG_RCTL_EN r) 1)).set (PRG_RCTL_SHED_EN r) 0).set (PRG_RSTAT_NACT r) 1
     (s.railState r = railRegulating) ∧ (s.on (PRG_RCTL_DCM_EN r) = true) ∧ (s.on (PRG_RSTAT_MOVING r) = false) ∧ (s.get
       (PRG_RSTAT_NACT r) = s.minActive r) ∧ (itotBelow i (s.get (PRG_DCM_I_DCM r)) = true)) ∧
    (let b : State := runState
     let r : Fin 24 := 7
     let i : BitVec 16 := 30000
     let s : State := (((((b.set (PRG_PH_RAIL (24 * (r / 6))) (r % 6)).set (PRG_RSTAT_STATE r) railRegulating).set (PRG_RSTAT_PG
       r) 1).set (PRG_RCTL_EN r) 1)).set (PRG_RSTAT_DCM r) 1
     (s.railState r = railRegulating) ∧ (s.on (PRG_RSTAT_DCM r) = true) ∧ (itotOver i (s.get (PRG_DCM_I_CCM r)) = true)) :=
  by and_intros <;> decide

theorem test_hypotheses_RailFaults :
    (let b : State := runState
     let r : Fin 24 := 23
     let x : BitVec 16 := 65000
     let s : State := ((((((b.set (PRG_PH_RAIL (24 * (r / 6))) (r % 6)).set (PRG_RSTAT_STATE r) railRegulating).set (PRG_RSTAT_PG
       r) 1).set (PRG_RCTL_EN r) 1)).set (FLT_OV_ACT r) 1).set (FLT_OV_THR r) 10
     (s.bit (FLT_RSTAT_NOW r) 0 = false) ∧ (s.ovThreshold r < 100 * (x.toNat : Int))) ∧
    (let b : State := runState
     let r : Fin 24 := 23
     let x : BitVec 16 := 65000
     let s : State := (((((((b.set (PRG_PH_RAIL (24 * (r / 6))) (r % 6)).set (PRG_RSTAT_STATE r) railRegulating).set (PRG_RSTAT_PG
       r) 1).set (PRG_RCTL_EN r) 1)).set (FLT_OV_ACT r) 2).set (FLT_OV_THR r) 10).set (PRG_FM_GRP_GRP r) 7
     (s.bit (FLT_RSTAT_NOW r) 0 = false) ∧ (s.ovThreshold r < 100 * (x.toNat : Int)) ∧ (s.get (FLT_OV_ACT r) = 2)) ∧
    (let b : State := runState
     let r : Fin 24 := 23
     let x : BitVec 16 := 65000
     let s : State := ((((((b.set (PRG_PH_RAIL (24 * (r / 6))) (r % 6)).set (PRG_RSTAT_STATE r) railRegulating).set (PRG_RSTAT_PG
       r) 1).set (PRG_RCTL_EN r) 1)).set (FLT_OV_ACT r) 3).set (FLT_OV_THR r) 10
     (s.bit (FLT_RSTAT_NOW r) 0 = false) ∧ (s.ovThreshold r < 100 * (x.toNat : Int)) ∧ (s.get (FLT_OV_ACT r) = 3)) ∧
    (let b : State := runState
     let r : Fin 24 := 23
     let x : BitVec 16 := 0
     let s : State := ((((((b.set (PRG_PH_RAIL (24 * (r / 6))) (r % 6)).set (PRG_RSTAT_STATE r) railRegulating).set (PRG_RSTAT_PG
       r) 1).set (PRG_RCTL_EN r) 1)).set (FLT_OV_THR r) 500).set (FLT_RSTAT_NOW r) 1
     (s.bit (FLT_RSTAT_NOW r) 0 = true) ∧ (100 * (x.toNat : Int) < s.ovThreshold r - hysteresis)) ∧
    (let b : State := runState
     let r : Fin 24 := 23
     let x : BitVec 16 := 65000
     let s : State := ((((((b.set (PRG_PH_RAIL (24 * (r / 6))) (r % 6)).set (PRG_RSTAT_STATE r) railRegulating).set (PRG_RSTAT_PG
       r) 1).set (PRG_RCTL_EN r) 1)).set (FLT_UV_THR r) 50).set (FLT_RSTAT_NOW r) 2
     (s.bit (FLT_RSTAT_NOW r) 1 = true) ∧ (s.uvThreshold r + hysteresis < 100 * (x.toNat : Int))) ∧
    (let b : State := runState
     let r : Fin 24 := 23
     let x : BitVec 16 := 0
     let s : State := (((((((b.set (PRG_PH_RAIL (24 * (r / 6))) (r % 6)).set (PRG_RSTAT_STATE r) railRegulating).set (PRG_RSTAT_PG
       r) 1).set (PRG_RCTL_EN r) 1)).set (FLT_UV_ACT r) 0).set (FLT_UV_MODE r) 0).set (FLT_UV_THR r) 50
     (s.bit (FLT_RSTAT_NOW r) 1 = false) ∧ (100 * (x.toNat : Int) < s.uvThreshold r) ∧ (s.railState r = railRegulating)) ∧
    (let b : State := runState
     let r : Fin 24 := 23
     let s : State := ((((b.set (PRG_PH_RAIL (24 * (r / 6))) (r % 6)).set (PRG_RSTAT_STATE r) railStart).set (PRG_RSTAT_PG r)
       0).set (PRG_RCTL_EN r) 1)
     (s.bit (FLT_RSTAT_NOW r) 1 = false) ∧ (s.railState r ≠ railRegulating)) ∧
    (let b : State := runState
     let k : Fin 96 := 95
     let r : Nat := 18 + k.val / 95
     let a : BitVec 16 := 60000
     let c : BitVec 16 := 0
     let s : State := ((b.set (PRG_PH_RAIL k) 1).set (FLT_OC_CBC 19) 0)
     (s.railOfPhase k = some r) ∧ (s.get (FLT_OC_CBC r) = 0) ∧ (2 * c.toNat + s.get (PRG_LL_IGAIN r) * s.get (FLT_OC_OC_THR r) < 2
       * a.toNat)) ∧
    (let b : State := runState
     let k : Fin 96 := 95
     let x : BitVec 48 := 5000
     let r : Nat := 19
     let q : Nat := ((b.set (PRG_PH_RAIL k) 1).modRail 19 (fun y => { y with period := 400, ofs := 0, spread := 1 })).phasePeriod
       r k x.toNat - 1
     let a : BitVec 16 := 60000
     let c : BitVec 16 := 0
     let s : State := (((((b.set (PRG_PH_RAIL k) 1).modRail 19 (fun y => { y with period := 400, ofs := 0, spread := 1 })).set
       (FLT_OC_CBC 19) 1).set (FLT_OC_OC_CNT 19) 15)).modPrg 3 (fun g =>
       { g with ocLast := Vector.replicate 24 (some q), ocRun := Vector.replicate 24 0, pulse := Vector.replicate 24 (1, 9000) })
     (s.railOfPhase k = some r) ∧ (s.get (FLT_OC_CBC r) = 1) ∧ (2 * c.toNat + s.get (PRG_LL_IGAIN r) * s.get (FLT_OC_OC_THR r) < 2
       * a.toNat) ∧ (s.onTime r k x.toNat = true) ∧ ((s.prgOf (k / 24)).ocLast.toList.getD (k % 24) none = some q) ∧ (q + 1 =
       s.phasePeriod r k x.toNat) ∧ ((s.prgOf (k / 24)).ocRun.toList.getD (k % 24) 0 + 1 < s.get (FLT_OC_OC_CNT r))) ∧
    (let b : State := runState
     let k : Fin 96 := 95
     let x : BitVec 48 := 5000
     let r : Nat := 19
     let q : Nat := ((b.set (PRG_PH_RAIL k) 1).modRail 19 (fun y => { y with period := 400, ofs := 0, spread := 1 })).phasePeriod
       r k x.toNat - 1
     let a : BitVec 16 := 60000
     let c : BitVec 16 := 0
     let s : State := (((((b.set (PRG_PH_RAIL k) 1).modRail 19 (fun y => { y with period := 400, ofs := 0, spread := 1 })).set
       (FLT_OC_CBC 19) 1).set (FLT_OC_OC_CNT 19) 1)).modPrg 3 (fun g =>
       { g with ocLast := Vector.replicate 24 (some q), ocRun := Vector.replicate 24 0, pulse := Vector.replicate 24 (1, 9000) })
     (s.railOfPhase k = some r) ∧ (s.get (FLT_OC_CBC r) = 1) ∧ (2 * c.toNat + s.get (PRG_LL_IGAIN r) * s.get (FLT_OC_OC_THR r) < 2
       * a.toNat) ∧ (s.onTime r k x.toNat = true) ∧ ((s.prgOf (k / 24)).ocLast.toList.getD (k % 24) none = some q) ∧ (q + 1 =
       s.phasePeriod r k x.toNat) ∧ (s.get (FLT_OC_OC_CNT r) ≤ (s.prgOf (k / 24)).ocRun.toList.getD (k % 24) 0 + 1)) ∧
    (let b : State := runState
     let k : Fin 96 := 95
     let x : BitVec 48 := 5000
     let r : Nat := 19
     let a : BitVec 16 := 60000
     let c : BitVec 16 := 0
     let s : State := (((((b.set (PRG_PH_RAIL k) 1).modRail 19 (fun y => { y with period := 400, ofs := 0, spread := 1 })).set
       (FLT_OC_CBC 19) 1).set (FLT_OC_OC_CNT 19) 1)).modPrg 3 (fun g => { g with pulse := Vector.replicate 24 (0, 0) })
     (s.railOfPhase k = some r) ∧ (s.get (FLT_OC_CBC r) = 1) ∧ (2 * c.toNat + s.get (PRG_LL_IGAIN r) * s.get (FLT_OC_OC_THR r) < 2
       * a.toNat) ∧ (s.onTime r k x.toNat = false)) ∧
    (let b : State := runState
     let k : Fin 96 := 95
     let r : Nat := 19
     let a : BitVec 16 := 0
     let c : BitVec 16 := 0
     let s : State := b.set (PRG_PH_RAIL k) 1
     (s.railOfPhase k = some r) ∧ (2 * a.toNat ≤ 2 * c.toNat + s.get (PRG_LL_IGAIN r) * s.get (FLT_OC_OC_THR r))) ∧
    (let b : State := runState
     let r : Fin 24 := 0
     let m : BitVec 12 := 4000
     let s : State := (((((b.set (PRG_PH_RAIL (24 * (r / 6))) (r % 6)).set (PRG_RSTAT_STATE r) railRegulating).set (PRG_RSTAT_PG
       r) 1).set (PRG_RCTL_EN r) 1)).modRail r (fun y => { y with otRun := 3 })
     ((s.get (FLT_OT_OT_THR r) * s.get (PRG_TMON_SLOPE r) : Int) ≤ ((m.toNat : Int) - s.get (PRG_TMON_OFS r)) * 100) ∧ ((s.railOf
       r).otRun = 3)) ∧
    (let b : State := runState
     let r : Fin 24 := 0
     let m : BitVec 12 := 10
     let s : State := ((((b.set (PRG_PH_RAIL (24 * (r / 6))) (r % 6)).set (PRG_RSTAT_STATE r) railRegulating).set (PRG_RSTAT_PG r)
       1).set (PRG_RCTL_EN r) 1)
     (((m.toNat : Int) - s.get (PRG_TMON_OFS r)) * 100 < (s.get (FLT_OT_OT_THR r) * s.get (PRG_TMON_SLOPE r) : Int)) ∧ (m.toNat <
       2600)) :=
  by and_intros <;> decide

theorem test_hypotheses_RailReleaseAndRetry :
    (let b : State := runState
     let r : Fin 24 := 23
     let s : State := ((((b.set (PRG_PH_RAIL (24 * (r / 6))) (r % 6)).set (PRG_RSTAT_STATE r) railSafe).set (PRG_RSTAT_PG r)
       0).set (PRG_RCTL_EN r) 1)
     (s.railState r = railSafe) ∧ (s.get (FLT_RSTAT_LATCH r) = 0) ∧ (s.railBlocked r = false)) ∧
    (let b : State := runState
     let r : Fin 24 := 23
     let s : State := (((((b.set (PRG_PH_RAIL (24 * (r / 6))) (r % 6)).set (PRG_RSTAT_STATE r) railSafe).set (PRG_RSTAT_PG r)
       0).set (PRG_RCTL_EN r) 1)).set (FLT_RSTAT_NOW r) 1
     (s.railState r = railSafe) ∧ (s.railBlocked r = true)) ∧
    (let b : State := runState
     let r : Fin 24 := 23
     let s : State := ((((((b.set (PRG_PH_RAIL (24 * (r / 6))) (r % 6)).set (PRG_RSTAT_STATE r) railSafe).set (PRG_RSTAT_PG r)
       0).set (PRG_RCTL_EN r) 1)).set (FLT_RSTAT_PKG_HELD r) 1).modRail r (fun y => { y with retryDue := true })
     (s.railState r = railSafe) ∧ ((s.railOf r).retryDue = true) ∧ (s.railBlocked r = true)) ∧
    (let b : State := runState
     let r : Fin 24 := 23
     let s : State := ((((((b.set (PRG_PH_RAIL (24 * (r / 6))) (r % 6)).set (PRG_RSTAT_STATE r) railSafe).set (PRG_RSTAT_PG r)
       0).set (PRG_RCTL_EN r) 1)).set (FLT_RETRY_LEFT r) 2).modRail r (fun y => { y with retryDue := true, grpBy := 0, finBy := 0 })
     (s.railState r = railSafe) ∧ ((s.railOf r).retryDue = true) ∧ (s.railBlocked r = false) ∧ ((s.railOf r).grpBy = 0) ∧
       ((s.railOf r).finBy = 0) ∧ (s.phasesOf r ≠ []) ∧ (s.depBlocksRail r = false)) ∧
    (let b : State := runState
     let r : Fin 24 := 23
     let s : State := (((((b.set (PRG_PH_RAIL (24 * (r / 6))) (r % 6)).set (PRG_RSTAT_STATE r) railRegulating).set (PRG_RSTAT_PG
       r) 1).set (PRG_RCTL_EN r) 1)).set (FLT_RETRY_RETRY r) 5
     (s.on (PRG_RSTAT_PG r) = true)) ∧
    (let b : State := runState
     let v : CmdVia := .ring
     let r : Fin 24 := 23
     let s : State := ((((b.set (PRG_PH_RAIL (24 * (r / 6))) (r % 6)).set (PRG_RSTAT_STATE r) railOff).set (PRG_RSTAT_PG r) 0).set
       (PRG_RCTL_EN r) 0)
     (s.takesCmd v = true) ∧ (s.isolated dieP = false) ∧ (s.accepts .host (regRctl r) (wordSet (s.word (regRctl r)) 0 1 1) = true)
       ∧ (s.get (PRG_RCTL_EN r) = 0) ∧ (s.railState r = railOff)) ∧
    (let b : State := runState
     let v : CmdVia := .mbx 3
     let r : Fin 24 := 23
     let x : BitVec 12 := 600
     let s : State := ((((b.set (PRG_PH_RAIL (24 * (r / 6))) (r % 6)).set (PRG_RSTAT_STATE r) railOff).set (PRG_RSTAT_PG r) 0).set
       (PRG_RCTL_EN r) 0)
     (s.takesCmd v = true) ∧ (s.isolated dieP = false) ∧ (s.accepts .host (regVid r) (BitVec.ofNat 32 x.toNat) = true)) ∧
    (let b : State := runState
     let s : State := b
     (s.takesCmd .ring = true) ∧ (s.isolated dieP = false)) :=
  by and_intros <;> decide

theorem test_hypotheses_EdgeSchedulerAndTelemetry :
    (let b : State := runState
     let k : Fin 96 := 50
     let r : Nat := 13
     let x : BitVec 48 := 4096
     let s : State := ((((((b.set (PRG_PH_RAIL k) 1).set (PRG_RSTAT_STATE (6 * (k / 24) + 1)) railRegulating).set (PRG_PH_PSTATE
       k) phActive)).modRail (6 * (k / 24) + 1) (fun y =>
       { y with enWait := false, perStart := some x.toNat, period := 400, ofs := 0, spread := 1 }))).modPrg (k / 24) (fun g =>
       { g with occ := [], edges := [], pulse := Vector.replicate 24 (0, 0) })
     (s.railOfPhase k = some r) ∧ (s.mayPulse r = true) ∧ (s.get (PRG_PH_PSTATE k) = phActive) ∧ ((s.railOf r).perStart = some
       x.toNat) ∧ (s.ordinal r k < (s.railOf r).spread) ∧ ((bankGet (s.prgOf (k / 24)).pulse (k % 24)).1 = (bankGet (s.prgOf (k /
       24)).pulse (k % 24)).2) ∧ ((s.prgOf (k / 24)).occ = []) ∧ ((s.prgOf (k / 24)).edges = [])) ∧
    (let b : State := runState
     let k : Fin 96 := 50
     let r : Nat := 13
     let a : Nat := 4000
     let z : Nat := 9000000
     let x : BitVec 48 := 4096
     let s : State := (((((((b.set (PRG_PH_RAIL k) 1).set (PRG_RSTAT_STATE (6 * (k / 24) + 1)) railRegulating).set (PRG_PH_PSTATE
       k) phActive)).modRail (6 * (k / 24) + 1) (fun y =>
       { y with enWait := false, perStart := some x.toNat, period := 400, ofs := 0, spread := 1 }))).set (PRG_SCHED_SHIFT_LIM (k /
       24)) 0).modPrg (k / 24) (fun g => { g with occ := [(a, z)], edges := [], pulse := Vector.replicate 24 (0, 0) })
     (s.railOfPhase k = some r) ∧ (s.mayPulse r = true) ∧ (s.get (PRG_PH_PSTATE k) = phActive) ∧ ((s.railOf r).perStart = some
       x.toNat) ∧ (s.ordinal r k < (s.railOf r).spread) ∧ ((bankGet (s.prgOf (k / 24)).pulse (k % 24)).1 = (bankGet (s.prgOf (k /
       24)).pulse (k % 24)).2) ∧ ((s.prgOf (k / 24)).occ = [(a, z)]) ∧ (s.get (PRG_SCHED_SHIFT_LIM (k / 24)) = 0) ∧ (a ≤ x.toNat +
       s.riseOfs r (s.ordinal r k)) ∧ (x.toNat + s.riseOfs r (s.ordinal r k) < z)) ∧
    (let b : State := runState
     let k : Fin 96 := 50
     let r : Nat := 13
     let x : BitVec 48 := 4096
     let s : State := (((((b.set (PRG_PH_RAIL k) 1).set (PRG_RSTAT_STATE (6 * (k / 24) + 1)) railRegulating).set (PRG_PH_PSTATE k)
       phActive)).modRail (6 * (k / 24) + 1) (fun y =>
       { y with enWait := false, perStart := none, period := 400, ofs := 0, spread := 1 }))
     (s.railOfPhase k = some r) ∧ (s.railRuns r = true) ∧ ((s.railOf r).enWait = false) ∧ (s.get (PRG_PH_PSTATE k) = phActive) ∧
       ((s.railOf r).perStart ≠ some x.toNat)) ∧
    (let b : State := runState
     let k : Fin 96 := 50
     let s : State := b
     (s.get (PRG_PH_PSTATE k) ≠ phActive)) ∧
    (let b : State := runState
     let p : Fin 4 := 3
     let w : Fin 8 := 7
     let s : State := b.set (PRG_WSTAT_ACTIVE p) 255
     (s.bit (PRG_WSTAT_ACTIVE p) w = true)) ∧
    (let b : State := runState
     let p : Fin 4 := 3
     let w : Fin 8 := 7
     let s : State := b.set (PRG_WSTAT_ACTIVE p) 0
     (s.bit (PRG_WSTAT_ACTIVE p) w = false)) ∧
    (let b : State := runState
     let p : Fin 4 := 1
     let s : State := ((b.set (PRG_TLM_CTL_EN p) 1).set (PRG_TLM_STAT_BUSY p) 0).modPkg (fun x => { x with loRuns := true })
     (s.pkg_.loRuns = true) ∧ (s.on (PRG_TLM_CTL_EN p) = true) ∧ (s.on (PRG_TLM_STAT_BUSY p) = false)) ∧
    (let b : State := runState
     let p : Fin 4 := 1
     let l : List Conv := [⟨[7], false⟩, ⟨[8], true⟩]
     let s : State := (b.set (PRG_TLM_STAT_BUSY p) 1).modPrg p (fun g => { g with scanLen := l.length, scanDue := false })
     (s.on (PRG_TLM_STAT_BUSY p) = true) ∧ ((s.prgOf p).scanDue = false)) ∧
    (let b : State := runState
     let p : Fin 4 := 1
     let l : List Conv := [⟨[7], false⟩]
     let s : State := (b.set (PRG_TLM_STAT_BUSY p) 1).modPrg p (fun g => { g with scanLen := l.length, scanDue := false })
     (s.on (PRG_TLM_STAT_BUSY p) = true) ∧ ((s.prgOf p).scanDue = false)) ∧
    (let b : State := runState
     let p : Fin 4 := 1
     let l : List Conv := [⟨[7], false⟩]
     let s : State := (b.set (PRG_TLM_STAT_BUSY p) 1).modPrg p (fun g => { g with scanLen := l.length, scanDue := true })
     (s.on (PRG_TLM_STAT_BUSY p) = true) ∧ ((s.prgOf p).scanDue = true)) :=
  by and_intros <;> decide

theorem test_hypotheses_FallbackAndReturn :
    (let b : State := runState
     let p : Fin 4 := 2
     let s : State := b.set (PRG_TBSTAT_FALLBACK p) 0
     (s.tbGood (s.get (PRG_TBSEL_TRG p)) = false) ∧ (s.get (PRG_TBSTAT_FALLBACK p) = 0)) ∧
    (let b : State := runState
     let p : Fin 4 := 2
     let s : State := b.set (PRG_TBSTAT_FALLBACK p) 0
     (s.get (PRG_TBSTAT_FALLBACK p) = 0)) ∧
    (let b : State := runState
     let p : Path := .host
     let q : Fin 4 := 2
     let w : Word := 1
     let s : State := b.set (PRG_TBSTAT_FALLBACK q) 0
     (s.takesWrite p ⟨.PRG_TBSEL, q, 0, 0⟩ w) ∧ ((PRG_TBSEL_TRG q).of w ≠ s.get (PRG_TBSEL_TRG q)) ∧ (s.get (PRG_TBSTAT_FALLBACK
       q) = 0)) ∧
    (let b : State := runState
     let p : Fin 4 := 2
     let t : Fin 4 := 1
     let x : Byte := 77
     let s : State := ((((((((b.set (SYN_TB_TB_EN (3 * t)) 1).set (SYN_TB_TBDIV (3 * t)) 24).set (RMP_OFS_O (3 * t)) 0).set
       (TRG_CTL_RREF_SEL t) 0).set (SYN_STAT_STATE (3 * t)) synLocked).set (SYN_STAT_RETUNE (3 * t)) 0).modSyn (3 * t) (fun x =>
       { x with returned := true, num := 96, den := 1 })).set (PRG_TBSEL_TRG p) t).set (PRG_TBSTAT_FALLBACK p) 1
     (s.get (PRG_TBSEL_TRG p) = t.val) ∧ (s.tbGood t = true) ∧ (s.get (PRG_TBSTAT_FALLBACK p) = 1 ∨ laneOff (s.getS
       (PRG_TBSTAT_TRIM p)) x.toInt = false)) ∧
    (let b : State := runState
     let p : Fin 4 := 2
     let t : Fin 4 := 1
     let x : Byte := 127
     let s : State := (((((((((b.set (SYN_TB_TB_EN (3 * t)) 1).set (SYN_TB_TBDIV (3 * t)) 24).set (RMP_OFS_O (3 * t)) 0).set
       (TRG_CTL_RREF_SEL t) 0).set (SYN_STAT_STATE (3 * t)) synLocked).set (SYN_STAT_RETUNE (3 * t)) 0).modSyn (3 * t) (fun x =>
       { x with returned := true, num := 96, den := 1 })).set (PRG_TBSEL_TRG p) t).set (PRG_TBSTAT_FALLBACK p) 0).set
       (PRG_TBSTAT_TRIM p) 0
     (s.get (PRG_TBSEL_TRG p) = t.val) ∧ (s.tbGood t = true) ∧ (s.get (PRG_TBSTAT_FALLBACK p) = 0) ∧ (laneOff (s.getS
       (PRG_TBSTAT_TRIM p)) x.toInt = true)) ∧
    (let b : State := runState
     let p : Fin 4 := 2
     let t : Fin 4 := 1
     let s : State := ((((((((((b.set (SYN_TB_TB_EN (3 * t)) 1).set (SYN_TB_TBDIV (3 * t)) 24).set (RMP_OFS_O (3 * t)) 0).set
       (TRG_CTL_RREF_SEL t) 0).set (SYN_STAT_STATE (3 * t)) synLocked).set (SYN_STAT_RETUNE (3 * t)) 0).modSyn (3 * t) (fun x =>
       { x with returned := true, num := 96, den := 1 })).set (PRG_TBSEL_TRG p) t).set (PRG_TBSTAT_FALLBACK p) 1).set
       (PRG_TBSTAT_RETURNING p) 1).set (PRG_TBSTAT_LANE_OK p) 1
     (s.get (PRG_TBSEL_TRG p) = t.val) ∧ (s.tbGood t = true) ∧ (s.get (PRG_TBSTAT_FALLBACK p) = 1) ∧ (s.get (PRG_TBSTAT_RETURNING
       p) = 1) ∧ (s.get (PRG_TBSTAT_LANE_OK p) = 1)) ∧
    (let b : State := runState
     let p : Fin 4 := 2
     let t : Fin 4 := 1
     let s : State := (b.set (PRG_TBSEL_TRG p) t)
     (s.get (PRG_TBSEL_TRG p) = t.val) ∧ (s.tbGood t = false ∨ s.get (PRG_TBSTAT_RETURNING p) = 0 ∨ s.get (PRG_TBSTAT_LANE_OK p) =
       0)) :=
  by and_intros <;> decide

theorem test_hypotheses_SequencesStartAndStop :
    (let b : State := runState
     let v : CmdVia := .mbx 3
     let q : Fin 8 := 5
     let s : State := (((b.set SEQ_STAT_STATE seqIdle).set (SEQ_NSTEP_NSTEP q) 1).setWord ⟨.SEQ_STEP, q, 0, 0⟩ 0x00000000).modSeq
       (fun x => { x with held := none, restartDue := false, badSteps := [] })|>.setWord ⟨.SEQ_STEP, q, 0, 1⟩ 0 |>.setWord
       ⟨.SEQ_STEP, q, 0, 2⟩ 0
     (s.takesCmd v = true) ∧ (s.isolated dieP = false) ∧ (s.seqState = seqIdle) ∧ (s.get (SEQ_NSTEP_NSTEP q) ≠ 0) ∧ (s.stepPresent
       q 0 = true) ∧ (s.seq.held = none)) ∧
    (let b : State := runState
     let p : Path := .host
     let q : Fin 8 := 5
     let w : Word := 0x50
     let s : State := (((b.set SEQ_STAT_STATE seqIdle).set (SEQ_NSTEP_NSTEP q) 1).setWord ⟨.SEQ_STEP, q, 0, 0⟩ 0x00000000).modSeq
       (fun x => { x with held := none, restartDue := false, badSteps := [] })|>.setWord ⟨.SEQ_STEP, q, 0, 1⟩ 0 |>.setWord
       ⟨.SEQ_STEP, q, 0, 2⟩ 0
     (s.takesWrite p ⟨.SEQ_CMD, 0, 0, 0⟩ (wordSet w 0 1 1)) ∧ (wordGet w 4 3 = q.val) ∧ (s.get (SEQ_NSTEP_NSTEP q) ≠ 0) ∧
       (s.stepPresent q 0 = true) ∧ (s.seq.held = none)) ∧
    (let b : State := runState
     let v : CmdVia := .mbx 3
     let q : Fin 8 := 5
     let s : State := ((b.set SEQ_STAT_STATE seqIdle).set (SEQ_NSTEP_NSTEP q) 0).modSeq (fun x => { x with held := none })
     (s.takesCmd v = true) ∧ (s.isolated dieP = false) ∧ (s.seqState = seqIdle) ∧ (s.get (SEQ_NSTEP_NSTEP q) = 0) ∧ (s.seq.held =
       none)) ∧
    (let b : State := runState
     let v : CmdVia := .mbx 3
     let s : State := b.set SEQ_STAT_STATE seqWaiting
     (s.takesCmd v = true) ∧ (s.isolated dieP = false) ∧ (s.seqState ≠ seqIdle)) ∧
    (let b : State := runState
     let v : CmdVia := .ring
     let s : State := (((b.set SEQ_STAT_STATE seqWaiting).set SEQ_STAT_CUR 2).set SEQ_STAT_STEP 0).modSeq (fun x =>
       { x with held := none, restartDue := false, stopPend := false, badSteps := [] }) |>.setWord ⟨.SEQ_STEP, 2, 0, 1⟩ 0 |>.setWord
       ⟨.SEQ_STEP, 2, 0, 2⟩ 0 |>.setWord ⟨.SEQ_STEP, 2, 0, 0⟩ 0
     (s.takesCmd v = true) ∧ (s.isolated dieP = false) ∧ (s.seqState = seqWaiting) ∧ (s.seq.held = none) ∧ (s.seq.restartDue =
       false)) ∧
    (let b : State := runState
     let p : Path := .host
     let w : Word := 0
     let s : State := (((b.set SEQ_STAT_STATE seqWaiting).set SEQ_STAT_CUR 2).set SEQ_STAT_STEP 0).modSeq (fun x =>
       { x with held := none, restartDue := false, stopPend := false, badSteps := [] }) |>.setWord ⟨.SEQ_STEP, 2, 0, 1⟩ 0 |>.setWord
       ⟨.SEQ_STEP, 2, 0, 2⟩ 0 |>.setWord ⟨.SEQ_STEP, 2, 0, 0⟩ 0
     (s.takesWrite p ⟨.SEQ_CMD, 0, 0, 0⟩ (wordSet w 1 1 1)) ∧ (s.seqState = seqWaiting) ∧ (s.seq.held = none) ∧ (s.seq.restartDue
       = false)) ∧
    (let b : State := runState
     let v : CmdVia := .ring
     let s : State := (((b.set SEQ_STAT_STATE seqActing).set SEQ_STAT_CUR 2).set SEQ_STAT_STEP 0).modSeq (fun x =>
       { x with held := none, restartDue := false, stopPend := false, badSteps := [] }) |>.setWord ⟨.SEQ_STEP, 2, 0, 1⟩ 0 |>.setWord
       ⟨.SEQ_STEP, 2, 0, 2⟩ 0 |>.setWord ⟨.SEQ_STEP, 2, 0, 0⟩ 0
     (s.takesCmd v = true) ∧ (s.isolated dieP = false) ∧ (s.seqState = seqActing)) :=
  by and_intros <;> decide

theorem test_hypotheses_SequenceSteps :
    (let b : State := runState
     let s : State := (((b.set SEQ_STAT_STATE seqWaiting).set SEQ_STAT_CUR 2).set SEQ_STAT_STEP 0).modSeq (fun x =>
       { x with held := none, restartDue := false, stopPend := false, badSteps := [] }) |>.setWord ⟨.SEQ_STEP, 2, 0, 1⟩ 0 |>.setWord
       ⟨.SEQ_STEP, 2, 0, 2⟩ 0 |>.setWord ⟨.SEQ_STEP, 2, 0, 0⟩ 0
     (s.seqState = seqWaiting) ∧ (s.stepLost = false) ∧ (s.waitMet (wordGet (s.stepWord (s.get SEQ_STAT_CUR) (s.get SEQ_STAT_STEP)
       0) 0 4) (s.stepWord (s.get SEQ_STAT_CUR) (s.get SEQ_STAT_STEP) 1) = true) ∧ (s.actDepsMet (wordGet (s.stepWord (s.get
       SEQ_STAT_CUR) (s.get SEQ_STAT_STEP) 0) 4 4) (s.stepWord (s.get SEQ_STAT_CUR) (s.get SEQ_STAT_STEP) 2) = true)) ∧
    (let b : State := runState
     let s : State := ((((b.set SEQ_STAT_STATE seqWaiting).set SEQ_STAT_CUR 2).set SEQ_STAT_STEP 0).modSeq (fun x =>
       { x with held := none, restartDue := false, stopPend := false, badSteps := [] }) |>.setWord ⟨.SEQ_STEP, 2, 0, 1⟩ 0 |>.setWord
       ⟨.SEQ_STEP, 2, 0, 2⟩ 0 |>.setWord ⟨.SEQ_STEP, 2, 0, 0⟩ 2 |>.setWord ⟨.SEQ_STEP, 2, 0, 1⟩ 1 |>.set (PRG_RSTAT_PG 0) 0)
     (s.seqState = seqWaiting) ∧ (s.stepLost = false) ∧ (s.waitMet (wordGet (s.stepWord (s.get SEQ_STAT_CUR) (s.get SEQ_STAT_STEP)
       0) 0 4) (s.stepWord (s.get SEQ_STAT_CUR) (s.get SEQ_STAT_STEP) 1) = false)) ∧
    (let b : State := runState
     let s : State := ((((b.set SEQ_STAT_STATE seqWaiting).set SEQ_STAT_CUR 2).set SEQ_STAT_STEP 0).modSeq (fun x =>
       { x with held := none, restartDue := false, stopPend := false, badSteps := [] }) |>.setWord ⟨.SEQ_STEP, 2, 0, 1⟩ 0 |>.setWord
       ⟨.SEQ_STEP, 2, 0, 2⟩ 0 |>.setWord ⟨.SEQ_STEP, 2, 0, 0⟩ 0).modSeq (fun x => { x with badSteps := [(2, 0)] })
     (s.stepLost = true) ∧ (s.seq.held = none) ∧ (s.seq.restartDue = false)) ∧
    (let b : State := runState
     let s : State := ((((b.set SEQ_STAT_STATE seqActing).set SEQ_STAT_CUR 2).set SEQ_STAT_STEP 0).modSeq (fun x =>
       { x with held := none, restartDue := false, stopPend := false, badSteps := [] }) |>.setWord ⟨.SEQ_STEP, 2, 0, 1⟩ 0 |>.setWord
       ⟨.SEQ_STEP, 2, 0, 2⟩ 0 |>.setWord ⟨.SEQ_STEP, 2, 0, 0⟩ 0 |>.set (SEQ_NSTEP_NSTEP 2) 1)
     (s.seqState = seqActing) ∧ (wordGet (s.stepWord (s.get SEQ_STAT_CUR) (s.get SEQ_STAT_STEP) 0) 4 4 = 0) ∧ (s.get
       (SEQ_NSTEP_NSTEP (s.get SEQ_STAT_CUR)) ≤ s.get SEQ_STAT_STEP + 1) ∧ (s.seq.stopPend = false) ∧ (s.seq.held = none) ∧
       (s.seq.restartDue = false)) ∧
    (let b : State := runState
     let s : State := ((((b.set SEQ_STAT_STATE seqActing).set SEQ_STAT_CUR 2).set SEQ_STAT_STEP 0).modSeq (fun x =>
       { x with held := none, restartDue := false, stopPend := false, badSteps := [] }) |>.setWord ⟨.SEQ_STEP, 2, 0, 1⟩ 0 |>.setWord
       ⟨.SEQ_STEP, 2, 0, 2⟩ 0 |>.setWord ⟨.SEQ_STEP, 2, 0, 0⟩ 0 |>.set (SEQ_NSTEP_NSTEP 2) 2 |>.setWord ⟨.SEQ_STEP, 2, 1, 0⟩ 0
       |>.setWord ⟨.SEQ_STEP, 2, 1, 1⟩ 0 |>.setWord ⟨.SEQ_STEP, 2, 1, 2⟩ 0)
     (s.seqState = seqActing) ∧ (wordGet (s.stepWord (s.get SEQ_STAT_CUR) (s.get SEQ_STAT_STEP) 0) 4 4 = 0) ∧ (s.get SEQ_STAT_STEP
       + 1 < s.get (SEQ_NSTEP_NSTEP (s.get SEQ_STAT_CUR))) ∧ (s.stepPresent (s.get SEQ_STAT_CUR) (s.get SEQ_STAT_STEP + 1) = true) ∧
       (s.seq.stopPend = false)) ∧
    (let b : State := runState
     let s : State := ((((b.set SEQ_STAT_STATE seqWaiting).set SEQ_STAT_CUR 2).set SEQ_STAT_STEP 0).modSeq (fun x =>
       { x with held := none, restartDue := false, stopPend := false, badSteps := [] }) |>.setWord ⟨.SEQ_STEP, 2, 0, 1⟩ 0 |>.setWord
       ⟨.SEQ_STEP, 2, 0, 2⟩ 0 |>.setWord ⟨.SEQ_STEP, 2, 0, 0⟩ 0x100 |>.modPkg (fun x => { x with loRuns := true }))
     (s.pkg_.loRuns = true) ∧ (s.seqState = seqWaiting) ∧ (s.stepLost = false) ∧ (wordGet (s.stepWord (s.get SEQ_STAT_CUR) (s.get
       SEQ_STAT_STEP) 0) 8 16 ≠ 0) ∧ (wordGet (s.stepWord (s.get SEQ_STAT_CUR) (s.get SEQ_STAT_STEP) 0) 24 1 = 0) ∧ (s.seq.held =
       none) ∧ (s.seq.restartDue = false)) ∧
    (let b : State := runState
     let s : State := ((((b.set SEQ_STAT_STATE seqWaiting).set SEQ_STAT_CUR 2).set SEQ_STAT_STEP 0).modSeq (fun x =>
       { x with held := none, restartDue := false, stopPend := false, badSteps := [] }) |>.setWord ⟨.SEQ_STEP, 2, 0, 1⟩ 0 |>.setWord
       ⟨.SEQ_STEP, 2, 0, 2⟩ 0 |>.setWord ⟨.SEQ_STEP, 2, 0, 0⟩ 0x1000100 |>.modPkg (fun x => { x with loRuns := true }))
     (s.pkg_.loRuns = true) ∧ (s.seqState = seqWaiting) ∧ (s.stepLost = false) ∧ (wordGet (s.stepWord (s.get SEQ_STAT_CUR) (s.get
       SEQ_STAT_STEP) 0) 8 16 ≠ 0) ∧ (wordGet (s.stepWord (s.get SEQ_STAT_CUR) (s.get SEQ_STAT_STEP) 0) 24 1 = 1)) ∧
    (let b : State := runState
     let s : State := ((((b.set SEQ_STAT_STATE seqActing).set SEQ_STAT_CUR 2).set SEQ_STAT_STEP 0).modSeq (fun x =>
       { x with held := none, restartDue := false, stopPend := false, badSteps := [] }) |>.setWord ⟨.SEQ_STEP, 2, 0, 1⟩ 0 |>.setWord
       ⟨.SEQ_STEP, 2, 0, 2⟩ 0 |>.setWord ⟨.SEQ_STEP, 2, 0, 0⟩ 0x30 |>.setWord ⟨.SEQ_STEP, 2, 0, 2⟩ 0x02000005)
     (s.seqState = seqActing) ∧ (wordGet (s.stepWord (s.get SEQ_STAT_CUR) (s.get SEQ_STAT_STEP) 0) 4 4 = 3) ∧ (wordGet (s.stepWord
       (s.get SEQ_STAT_CUR) (s.get SEQ_STAT_STEP) 2) 0 5 < 24)) ∧
    (let b : State := runState
     let s : State := b.set SEQ_STAT_STATE seqIdle
     (s.seqState ≠ seqActing)) ∧
    (let b : State := runState
     let d : Fin 16 := 15
     let s : State := { b.set (SEQ_DEP_A_RESP d) 0 with depTrig := 32768 }
     (bitOf s.depTrig d = true) ∧ (s.get (SEQ_DEP_A_RESP d) = 0)) ∧
    (let b : State := runState
     let d : Fin 16 := 15
     let s : State :=
       ({ (((b.set SEQ_STAT_STATE seqIdle).set SEQ_STAT_CUR 2).set SEQ_STAT_STEP 0).modSeq (fun x => { x with held := none, restartDue := false, stopPend := false, badSteps := [] }) |>.setWord ⟨.SEQ_STEP, 2, 0, 1⟩ 0 |>.setWord ⟨.SEQ_STEP, 2, 0, 2⟩ 0 |>.setWord ⟨.SEQ_STEP, 2, 0, 0⟩ 0 with depTrig := 32768 }.set
       (SEQ_DEP_A_RESP d) 2).set (SEQ_DEP_A_RSEQ d) 2 |>.set (SEQ_NSTEP_NSTEP 2) 1
     (bitOf s.depTrig d = true) ∧ (s.get (SEQ_DEP_A_RESP d) = 2) ∧ (s.active = true) ∧ (s.seqState = seqIdle) ∧ (s.get
       (SEQ_NSTEP_NSTEP (s.get (SEQ_DEP_A_RSEQ d))) ≠ 0) ∧ (s.stepPresent (s.get (SEQ_DEP_A_RSEQ d)) 0 = true) ∧ (s.seq.held = none)) ∧
    (let b : State := runState
     let d : Fin 16 := 15
     let s : State := { b with depTrig := 0 }
     (bitOf s.depTrig d = false)) :=
  by and_intros <;> decide

theorem test_hypotheses_SequenceLoads :
    (let b : State := runState
     let p : Path := .host
     let w : Word := 0
     let s : State := b
     (s.takesWrite p ⟨.SEQ_LOAD_CTL, 0, 0, 0⟩ (wordSet w 0 1 1))) ∧
    (let b : State := runState
     let p : Path := .host
     let w : Word := 0x302
     let s : State := b.modSeq (fun x => { x with load := some [] })
     (s.takesWrite p ⟨.SEQ_LOAD_DATA, 0, 0, 0⟩ w) ∧ (s.seq.load = some []) ∧ (seqHeaderOk w = true)) ∧
    (let b : State := runState
     let p : Path := .host
     let w : Word := 0x80000002
     let s : State := b.modSeq (fun x => { x with load := some [] })
     (s.takesWrite p ⟨.SEQ_LOAD_DATA, 0, 0, 0⟩ w) ∧ (s.seq.load = some []) ∧ (seqHeaderOk w = false)) ∧
    (let b : State := runState
     let p : Path := .host
     let h : Word := 0x301
     let l : List Word := [0, 0, 0]
     let w : Word := (crcWords (h :: l))
     let s : State := b.modSeq (fun x => { x with load := some (h :: l), loadBad := false })
     (s.takesWrite p ⟨.SEQ_LOAD_DATA, 0, 0, 0⟩ w) ∧ (s.seq.load = some (h :: l)) ∧ (l.length = 3 * wordGet h 0 7) ∧ (crcWords (h
       :: l) = w) ∧ (s.seq.loadBad = false)) ∧
    (let b : State := runState
     let p : Path := .host
     let h : Word := 0x301
     let l : List Word := [0, 0, 0]
     let w : Word := 0
     let s : State := b.modSeq (fun x => { x with load := some (h :: l), loadBad := false })
     (s.takesWrite p ⟨.SEQ_LOAD_DATA, 0, 0, 0⟩ w) ∧ (s.seq.load = some (h :: l)) ∧ (l.length = 3 * wordGet h 0 7) ∧ (crcWords (h
       :: l) ≠ w)) ∧
    (let b : State := runState
     let v : CmdVia := .ring
     let h : Word := 0x700
     let w : Word := (crcWords [h])
     let s : State := b
     (s.takesCmd v = true) ∧ (s.isolated dieP = false) ∧ (seqHeaderOk h = true) ∧ (wordGet h 0 7 = 0) ∧ (crcWords [h] = w)) ∧
    (let b : State := runState
     let l : List Word := [1, 2]
     let s : State := b
     (s.takesCmd .ring = true) ∧ (s.isolated dieP = false) ∧ (seqHeaderOk (l.getD 0 0) = true) ∧ (l.length ≠ 2 + 3 * wordGet
       (l.getD 0 0) 0 7)) ∧
    (let b : State := runState
     let q : Fin 8 := 7
     let l : List Word := [1, 2, 3, 4]
     let d : List Nat := [5]
     let s : State := (b.set SEQ_STAT_CUR 1).modSeq (fun x => { x with pend := [(q.val, l, d)] })
     (s.seq.pend = [(q.val, l, d)]) ∧ (s.seqRuns q = false)) ∧
    (let b : State := runState
     let q : Fin 8 := 7
     let r : Fin 8 := 2
     let l : List Word := [1, 2, 3, 4]
     let m : List Word := [2]
     let d : List Nat := [5]
     let e : List Nat := []
     let s : State := ((b.set SEQ_STAT_CUR 7).set SEQ_STAT_STATE seqWaiting).modSeq (fun x =>
       { x with pend := [(r.val, m, e), (q.val, l, d)] })
     (s.seq.pend = [(r.val, m, e), (q.val, l, d)]) ∧ (s.seqRuns q = true) ∧ (s.seqRuns r = false)) ∧
    (let b : State := runState
     let q : Fin 8 := 7
     let l : List Word := [1, 2, 3, 4]
     let d : List Nat := []
     let s : State := ((b.set SEQ_STAT_CUR 7).set SEQ_STAT_STATE seqWaiting).modSeq (fun x => { x with pend := [(q.val, l, d)] })
     (s.seq.pend = [(q.val, l, d)]) ∧ (s.seqRuns q = true)) :=
  by and_intros <;> decide

theorem test_hypotheses_ChargerAndStore :
    (let b : State := runState
     let v : CmdVia := .ring
     let a : BitVec 16 := 1000 + 5 * 2048
     let s : State := ((((b.set HUP_STAT_CHG chgOff).set HUP_CHG_CV 1000).set HUP_STORE_READY_V 900).set HUP_STAT_READY 0)
     (s.takesCmd v = true) ∧ (s.isolated dieP = false) ∧ (600 ≤ a.toNat % 2 ^ 11) ∧ (a.toNat % 2 ^ 11 ≤ 1600) ∧ (s.get
       HUP_STORE_READY_V ≤ a.toNat % 2 ^ 11)) ∧
    (let b : State := runState
     let v : CmdVia := .mbx 3
     let a : BitVec 16 := 1601
     let s : State := b
     (s.takesCmd v = true) ∧ (s.isolated dieP = false) ∧ (a.toNat % 2 ^ 11 < 600 ∨ 1600 < a.toNat % 2 ^ 11)) ∧
    (let b : State := runState
     let x : BitVec 16 := 9900
     let s : State := ((((b.set HUP_STAT_CHG chgCc).set HUP_CHG_CV 1000).set HUP_STORE_READY_V 900).set HUP_STAT_READY 0)
     (s.get HUP_STAT_CHG = chgCc) ∧ (990 * s.get HUP_CHG_CV ≤ 100 * x.toNat) ∧ (100 * x.toNat ≤ 1050 * s.get HUP_CHG_CV)) ∧
    (let b : State := runState
     let i : BitVec 16 := 5
     let s : State := ((((b.set HUP_STAT_CHG chgCv).set HUP_CHG_CV 1000).set HUP_STORE_READY_V 900).set HUP_STAT_READY 1).set
       HUP_CHG_ITERM 3
     (s.get HUP_STAT_CHG = chgCv) ∧ (i.toNat < 10 * s.get HUP_CHG_ITERM)) ∧
    (let b : State := runState
     let i : BitVec 16 := 5
     let s : State := ((((b.set HUP_STAT_CHG chgCc).set HUP_CHG_CV 1000).set HUP_STORE_READY_V 900).set HUP_STAT_READY 1)
     (s.get HUP_STAT_CHG ≠ chgCv ∨ 10 * s.get HUP_CHG_ITERM ≤ i.toNat)) ∧
    (let b : State := runState
     let x : BitVec 16 := 9699
     let s : State := ((((b.set HUP_STAT_CHG Machine.chgFull).set HUP_CHG_CV 1000).set HUP_STORE_READY_V 900).set HUP_STAT_READY
       1)
     (s.get HUP_STAT_CHG = Machine.chgFull) ∧ (100 * x.toNat < 970 * s.get HUP_CHG_CV)) ∧
    (let b : State := runState
     let x : BitVec 16 := 10501
     let s : State := ((((b.set HUP_STAT_CHG chgCv).set HUP_CHG_CV 1000).set HUP_STORE_READY_V 900).set HUP_STAT_READY 1)
     (s.get HUP_STAT_CHG = chgCc ∨ s.get HUP_STAT_CHG = chgCv) ∧ (1050 * s.get HUP_CHG_CV < 100 * x.toNat)) ∧
    (let b : State := runState
     let s : State := ((((b.set HUP_STAT_CHG chgCc).set HUP_CHG_CV 1000).set HUP_STORE_READY_V 900).set HUP_STAT_READY 1)
     (s.get HUP_STAT_CHG = chgCc)) ∧
    (let b : State := runState
     let x : BitVec 16 := 9000
     let s : State := ((((b.set HUP_STAT_CHG chgCc).set HUP_CHG_CV 1000).set HUP_STORE_READY_V 900).set HUP_STAT_READY 0)
     (10 * s.get HUP_STORE_READY_V ≤ x.toNat) ∧ (s.get HUP_STAT_READY = 0) ∧ ((s.get HUP_STAT_CHG ≠ chgCc ∧ s.get HUP_STAT_CHG ≠
       chgCv) ∨ 100 * x.toNat ≤ 1050 * s.get HUP_CHG_CV)) ∧
    (let b : State := runState
     let x : BitVec 16 := 8999
     let s : State := ((((b.set HUP_STAT_CHG chgCc).set HUP_CHG_CV 1000).set HUP_STORE_READY_V 900).set HUP_STAT_READY 1)
     (x.toNat < 10 * s.get HUP_STORE_READY_V) ∧ ((s.get HUP_STAT_CHG ≠ chgCc ∧ s.get HUP_STAT_CHG ≠ chgCv) ∨ 100 * x.toNat ≤ 1050
       * s.get HUP_CHG_CV)) :=
  by and_intros <;> decide

theorem test_hypotheses_VinAndHousekeeping :
    (let b : State := runState
     let v : BitVec 16 := 4000
     let s : State := (((b.set HUP_STAT_VIN_OK 1).set HUP_CTL_EN 1).set SEQ_CFG_DOWN_EN 0)
     (s.on HUP_STAT_VIN_OK = true) ∧ (v.toNat < 20 * s.get HUP_VIN_VIN_UV) ∧ (s.on SEQ_CFG_DOWN_EN = false)) ∧
    (let b : State := runState
     let v : BitVec 16 := 4000
     let s : State := ((((b.set SEQ_STAT_STATE seqIdle).set SEQ_STAT_CUR 2).set SEQ_STAT_STEP 0).modSeq (fun x =>
       { x with held := none, restartDue := false, stopPend := false, badSteps := [] }) |>.setWord ⟨.SEQ_STEP, 2, 0, 1⟩ 0 |>.setWord
       ⟨.SEQ_STEP, 2, 0, 2⟩ 0 |>.setWord ⟨.SEQ_STEP, 2, 0, 0⟩ 0 |>.set (SEQ_NSTEP_NSTEP 2) 1 |>.set SEQ_CFG_DOWN_SEQ 2 |>.set
       HUP_STAT_VIN_OK 1 |>.set SEQ_CFG_DOWN_EN 1)
     (s.on HUP_STAT_VIN_OK = true) ∧ (v.toNat < 20 * s.get HUP_VIN_VIN_UV) ∧ (s.on SEQ_CFG_DOWN_EN = true) ∧ (s.active = true) ∧
       (s.seqState = seqIdle) ∧ (s.get (SEQ_NSTEP_NSTEP (s.get SEQ_CFG_DOWN_SEQ)) ≠ 0) ∧ (s.stepPresent (s.get SEQ_CFG_DOWN_SEQ) 0 =
       true) ∧ (s.seq.held = none)) ∧
    (let b : State := runState
     let v : BitVec 16 := 4000
     let s : State := (((b.set HUP_STAT_VIN_OK 0).set HUP_CTL_EN 1).set SEQ_CFG_DOWN_EN 0)
     (s.on HUP_STAT_VIN_OK = false ∨ 20 * s.get HUP_VIN_VIN_UV ≤ v.toNat)) ∧
    (let b : State := runState
     let v : BitVec 16 := 15000
     let s : State := (((((b.set HUP_STAT_VIN_OK 0).set HUP_CTL_EN 1).set SEQ_CFG_DOWN_EN 0)).set HUP_CTL_RESTART 0).modPkg (fun x
       => { x with loRuns := true })
     (s.pkg_.loRuns = true) ∧ (s.on HUP_STAT_VIN_OK = false) ∧ (s.pkg ≠ pkgOff) ∧ (s.pkg ≠ pkgKeep) ∧ (20 * (s.get HUP_VIN_VIN_UV
       + s.get HUP_VIN_HYST) < v.toNat) ∧ (s.on HUP_CTL_RESTART = false ∨ s.seq.downRan = false)) ∧
    (let b : State := runState
     let v : BitVec 16 := 15000
     let s : State := ((((b.set SEQ_STAT_STATE seqIdle).set SEQ_STAT_CUR 2).set SEQ_STAT_STEP 0).modSeq (fun x =>
       { x with held := none, restartDue := false, stopPend := false, badSteps := [] }) |>.setWord ⟨.SEQ_STEP, 2, 0, 1⟩ 0 |>.setWord
       ⟨.SEQ_STEP, 2, 0, 2⟩ 0 |>.setWord ⟨.SEQ_STEP, 2, 0, 0⟩ 0 |>.set (SEQ_NSTEP_NSTEP 2) 1 |>.set SEQ_CFG_BOOT_SEQ 2 |>.set
       HUP_STAT_VIN_OK 0 |>.set HUP_CTL_RESTART 1 |>.modSeq (fun x => { x with downRan := true }) |>.modPkg (fun x =>
       { x with loRuns := true }))
     (s.pkg_.loRuns = true) ∧ (s.on HUP_STAT_VIN_OK = false) ∧ (s.active = true) ∧ (20 * (s.get HUP_VIN_VIN_UV + s.get
       HUP_VIN_HYST) < v.toNat) ∧ (s.on HUP_CTL_RESTART = true) ∧ (s.seq.downRan = true) ∧ (s.seqState = seqIdle) ∧ (s.get
       (SEQ_NSTEP_NSTEP (s.get SEQ_CFG_BOOT_SEQ)) ≠ 0) ∧ (s.stepPresent (s.get SEQ_CFG_BOOT_SEQ) 0 = true) ∧ (s.seq.held = none)) ∧
    (let b : State := runState
     let x : BitVec 16 := 100
     let s : State := ((b.set HUP_STAT_ON_STORE 1).set HUP_STORE_STORE_MIN 500).set SEQ_STAT_STATE seqIdle
     (s.on HUP_STAT_ON_STORE = true) ∧ (x.toNat < 10 * s.get HUP_STORE_STORE_MIN) ∧ (s.seqState = seqIdle)) ∧
    (let b : State := runState
     let i : Fin 8 := 7
     let o : Option (BitVec 16) := some 0
     let s : State := ((b.set (hkField i) 1).set (HK_BUCK_FACT i) 1).set (HK_LDO_FACT (i - 4)) 1
     (s.on (hkField i) = true) ∧ (o.all (fun x => hkOutside (s.hkMv i) x.toNat) = true) ∧ (i.val ≠ 0) ∧ ((if i.val < 4 then s.on
       (HK_BUCK_FACT i) else s.on (HK_LDO_FACT (i - 4))) = true)) ∧
    (let b : State := runState
     let o : Option (BitVec 16) := some 0
     let s : State := (b.set (hkField 0) 1)
     (s.on (hkField 0) = true) ∧ (o.all (fun x => hkOutside (s.hkMv 0) x.toNat) = true)) ∧
    (let b : State := runState
     let i : Fin 8 := 7
     let x : BitVec 16 := 0x8000
     let s : State := (b.set (HK_TD_EN i) 1).set HK_FLT_TD_LATCH 0
     (s.on (HK_TD_EN i) = true) ∧ ((16 * s.get (HK_TD_ALARM i) : Int) ≤ x.toInt ∨ x = 0x8000) ∧ (s.bit HK_FLT_TD_LATCH i = false)) ∧
    (let b : State := runState
     let i : Fin 8 := 7
     let x : BitVec 16 := 16
     let s : State := (b.set (HK_TD_EN i) 1).set (HK_TD_ALARM i) 90
     (s.on (HK_TD_EN i) = true) ∧ (x.toInt < (16 * s.get (HK_TD_ALARM i) : Int)) ∧ (x ≠ 0x8000)) :=
  by and_intros <;> decide

theorem test_hypotheses_PinsAndGpio :
    (let b : State := runState
     let i : Fin 64 := 63
     let f : Fin 8 := 1
     let o : PinOut := .low
     let s : State := { b with pin := { hand := [(i.val, [f.val], o)] } }
     (s.handover i = some ([f.val], o)) ∧ (f.val ≠ 5)) ∧
    (let b : State := runState
     let i : Fin 64 := 63
     let f : Fin 8 := 0
     let g : Fin 8 := 1
     let l : List Nat := [0]
     let o : PinOut := .low
     let s : State := { b with pin := { hand := [(i.val, f.val :: g.val :: l, o)] } }
     (s.handover i = some (f.val :: g.val :: l, o)) ∧ (f.val ≠ 5)) ∧
    (let b : State := runState
     let i : Fin 64 := 63
     let o : PinOut := .low
     let s : State :=
       { { ((((((b.set GLB_DIE_ISOLATED 0).set (PIN_CFG_FN_CUR i) 0).set (PIN_CFG_IRQ i) 0).set (GPIO_IN_IN (i / 16)) 0).set (GPIO_IRQ_PEND (i / 16)) 0).set (PIN_OWN_OWNER i) 12) with pkg_ := { loRuns := true }, pin := {} } with pin := { hand := [(i.val, [5], o)] } }
     (s.handover i = some ([5], o)) ∧ (s.pinSynced i = true) ∧ (s.get (PIN_CFG_IRQ i) = 0)) ∧
    (let b : State := runState
     let i : Fin 64 := 63
     let s : State := { b with pin := {} }
     (s.handover i = none)) ∧
    (let b : State := runState
     let k : Fin 4 := 3
     let s : State := ((((b.set (PIN_CFG_FN_CUR (56 + k)) 1).set (PIN_FIN_RMASK k) 0x800001).set PIN_FIN_STAT_NOW 0).set
       PIN_FIN_STAT_LATCH 0)
     (s.pinCarries (56 + k) .faultIn = true) ∧ (s.bit PIN_FIN_STAT_NOW k = false)) ∧
    (let b : State := runState
     let k : Fin 4 := 3
     let s : State := b.set (PIN_CFG_FN_CUR (56 + k)) 0
     (s.pinCarries (56 + k) .faultIn = false)) ∧
    (let b : State := runState
     let p : Path := .host
     let g : Fin 4 := 2
     let w : Word := 0x00FF1234
     let s : State := (List.range 16).foldl (fun s j => s.set (PIN_OWN_OWNER (16 * g + j)) 12) b
     (s.takesWrite p ⟨.GPIO_MOUT, g, 0, 0⟩ w)) ∧
    (let b : State := runState
     let p : Path := .host
     let g : Fin 4 := 2
     let w : Word := 0x00FF1234
     let s : State := (List.range 16).foldl (fun s j => s.set (PIN_OWN_OWNER (16 * g + j)) 12) b
     (s.takesWrite p ⟨.GPIO_MOE, g, 0, 0⟩ w)) ∧
    (let b : State := runState
     let i : Fin 64 := 63
     let k : Fin 4 := 3
     let s : State :=
       { ((((((b.set GLB_DIE_ISOLATED 0).set (PIN_CFG_FN_CUR i) 0).set (PIN_CFG_IRQ i) 1).set (GPIO_IN_IN (i / 16)) 0).set (GPIO_IRQ_PEND (i / 16)) 0).set (PIN_OWN_OWNER i) 12) with pkg_ := { loRuns := true }, pin := {} }
     (s.get (PIN_CFG_FN_CUR i) ≠ 5) ∧ (s.pinSynced i = true) ∧ (bitOf s.pin.bankLow (i / 16) = false) ∧ (thrBank (s.get
       (PIN_CFG_THR i)) ≤ k.val) ∧ (s.get (PIN_CFG_IRQ i) = 1 ∨ s.get (PIN_CFG_IRQ i) = 3 ∨ s.get (PIN_CFG_IRQ i) = 4) ∧ (s.bit
       (GPIO_IN_IN (i / 16)) (i % 16) = false) ∧ (s.bit (GPIO_IRQ_PEND (i / 16)) (i % 16) = false) ∧ (s.pinOwner i = hostOwner)) ∧
    (let b : State := runState
     let i : Fin 64 := 63
     let k : Fin 4 := 3
     let s : State :=
       { ((((((b.set GLB_DIE_ISOLATED 0).set (PIN_CFG_FN_CUR i) 0).set (PIN_CFG_IRQ i) 1).set (GPIO_IN_IN (i / 16)) 0).set (GPIO_IRQ_PEND (i / 16)) 0).set (PIN_OWN_OWNER i) 4) with pkg_ := { loRuns := true }, pin := {} }
     (s.get (PIN_CFG_FN_CUR i) ≠ 5) ∧ (s.pinSynced i = true) ∧ (bitOf s.pin.bankLow (i / 16) = false) ∧ (thrBank (s.get
       (PIN_CFG_THR i)) ≤ k.val) ∧ (s.get (PIN_CFG_IRQ i) = 1) ∧ (s.bit (GPIO_IN_IN (i / 16)) (i % 16) = false) ∧ (s.bit
       (GPIO_IRQ_PEND (i / 16)) (i % 16) = false) ∧ (s.pinOwner i ≠ hostOwner)) ∧
    (let b : State := runState
     let i : Fin 64 := 63
     let s : State :=
       { ((((((b.set GLB_DIE_ISOLATED 0).set (PIN_CFG_FN_CUR i) 0).set (PIN_CFG_IRQ i) 0).set (GPIO_IN_IN (i / 16)) 0).set (GPIO_IRQ_PEND (i / 16)) 0).set (PIN_OWN_OWNER i) 12) with pkg_ := { loRuns := true }, pin := {} }
     (s.get (PIN_CFG_FN_CUR i) ≠ 5) ∧ (s.pinSynced i = true) ∧ (bitOf s.pin.bankLow (i / 16) = false) ∧ (s.get (PIN_CFG_IRQ i) =
       0)) ∧
    (let b : State := runState
     let i : Fin 64 := 63
     let s : State := b.modPkg (fun x => { x with loRuns := false })
     (s.pinSynced i = false)) ∧
    (let b : State := runState
     let s : State := { b with pkg_ := { loRuns := true }, pin := {} }
     (s.pkg_.loRuns = true)) ∧
    (let b : State := runState
     let s : State :=
       { (((b.set GPIO_CAP_CFG_EN 1).set GPIO_CAP_CFG_WIDTH 1).set GPIO_CAP_CFG_NBLK 2) with pkg_ := { loRuns := true }, pin := {} }
     (s.on GPIO_CAP_CFG_EN = true) ∧ (s.pkg_.loRuns = true) ∧ (s.pin.capFull.length < 2) ∧ (s.pin.capCur.length + s.capWidth / 8 <
       s.capBlock)) ∧
    (let b : State := runState
     let s : State :=
       { (((b.set GPIO_CAP_CFG_EN 1).set GPIO_CAP_CFG_WIDTH 1).set GPIO_CAP_CFG_NBLK 2) with pkg_ := { loRuns := true }, pin := { capCur := List.replicate 30 0 } }
     (s.on GPIO_CAP_CFG_EN = true) ∧ (s.pkg_.loRuns = true) ∧ (s.pin.capFull.length < 2) ∧ (s.capBlock ≤ s.pin.capCur.length +
       s.capWidth / 8)) ∧
    (let b : State := runState
     let s : State :=
       { (((b.set GPIO_CAP_CFG_EN 1).set GPIO_CAP_CFG_WIDTH 1).set GPIO_CAP_CFG_NBLK 2) with pkg_ := { loRuns := true }, pin := { capFull := [{ bytes := [1] }, { bytes := [2] }] } }
     (s.on GPIO_CAP_CFG_EN = true) ∧ (s.pkg_.loRuns = true) ∧ (s.pin.capFull.length = 2) ∧ (s.pin.capDrop = false)) :=
  by and_intros <;> decide

theorem test_hypotheses_WatchdogJudgesFrames :
    (let b : State := runState
     let p : Path := .host
     let i : Fin 16 := 9
     let w : Word := 0x9ABCD
     let x : BitVec 12 := 0
     let s : State := (((((((((b.set (WDG_WIN_WMIN i) 0).set (WDG_WIN_WMAX i) 0xFFFF).set WDG_CTL_EN 1).set (WDG_SLOT_EN i) 1).set
       (WDG_SLOT_OWNER i) 12).set (WDG_SLOT_SCOPE i) 0).set (WDG_SLOT_TOKEN i) 0xABCD).set WDG_STAT_ARMED 0).modPkg (fun x =>
       { x with loRuns := true })).modWdg i (fun _ => { started := true })
     (s.takesWrite p ⟨.WDG_KICK, 0, 0, 0⟩ w) ∧ (wordGet w 16 4 = i.val) ∧ (s.frameOpen i = true) ∧ ((s.wdgOf i).pos + 2000000 <
       s.wdgTicks (s.get (WDG_WIN_WMAX i))) ∧ (s.wdgTicks (s.get (WDG_WIN_WMIN i)) ≤ (s.wdgOf i).pos + 2000000) ∧ (wordGet w 0 16 =
       s.get (WDG_SLOT_TOKEN i)) ∧ ((s.wdgOf i).kicked = false)) ∧
    (let b : State := runState
     let p : Path := .host
     let i : Fin 16 := 9
     let w : Word := 0x9ABCD
     let x : BitVec 12 := 0
     let s : State := ((((((((((b.set (WDG_WIN_WMIN i) 0).set (WDG_WIN_WMAX i) 0xFFFF).set WDG_CTL_EN 1).set (WDG_SLOT_EN i)
       1).set (WDG_SLOT_OWNER i) 12).set (WDG_SLOT_SCOPE i) 0).set (WDG_SLOT_TOKEN i) 0xABCD).set WDG_STAT_ARMED 0).modPkg (fun x =>
       { x with loRuns := true })).modWdg i (fun _ => { started := true })).set (WDG_WIN_WMIN i) 100
     (s.takesWrite p ⟨.WDG_KICK, 0, 0, 0⟩ w) ∧ (wordGet w 16 4 = i.val) ∧ (s.frameOpen i = true) ∧ ((s.wdgOf i).pos + 2000000 <
       s.wdgTicks (s.get (WDG_WIN_WMAX i))) ∧ ((s.wdgOf i).pos + 2000000 < s.wdgTicks (s.get (WDG_WIN_WMIN i))) ∧ ((s.wdgOf
       i).failed = false) ∧ (s.bit WDG_STAT_ARMED i = false)) ∧
    (let b : State := runState
     let p : Path := .host
     let i : Fin 16 := 9
     let w : Word := 0x90000
     let x : BitVec 12 := 0
     let s : State := (((((((((b.set (WDG_WIN_WMIN i) 0).set (WDG_WIN_WMAX i) 0xFFFF).set WDG_CTL_EN 1).set (WDG_SLOT_EN i) 1).set
       (WDG_SLOT_OWNER i) 12).set (WDG_SLOT_SCOPE i) 0).set (WDG_SLOT_TOKEN i) 0xABCD).set WDG_STAT_ARMED 0).modPkg (fun x =>
       { x with loRuns := true })).modWdg i (fun _ => { started := true })
     (s.takesWrite p ⟨.WDG_KICK, 0, 0, 0⟩ w) ∧ (wordGet w 16 4 = i.val) ∧ (s.frameOpen i = true) ∧ ((s.wdgOf i).pos + 2000000 <
       s.wdgTicks (s.get (WDG_WIN_WMAX i))) ∧ (s.wdgTicks (s.get (WDG_WIN_WMIN i)) ≤ (s.wdgOf i).pos + 2000000) ∧ (wordGet w 0 16 ≠
       s.get (WDG_SLOT_TOKEN i)) ∧ ((s.wdgOf i).failed = false) ∧ (s.bit WDG_STAT_ARMED i = false)) ∧
    (let b : State := runState
     let i : Fin 16 := 9
     let x : BitVec 12 := 0
     let s : State := (((((((((b.set (WDG_WIN_WMIN i) 0).set (WDG_WIN_WMAX i) 0xFFFF).set WDG_CTL_EN 1).set (WDG_SLOT_EN i) 1).set
       (WDG_SLOT_OWNER i) 12).set (WDG_SLOT_SCOPE i) 0).set (WDG_SLOT_TOKEN i) 0xABCD).set WDG_STAT_ARMED 512).modPkg (fun x =>
       { x with loRuns := true })).modWdg i (fun _ => { started := true, kicked := true })
     (s.frameOpen i = true) ∧ (s.bisqueSlot i = false) ∧ ((s.wdgOf i).kicked = true) ∧ ((s.wdgOf i).failed = false)) ∧
    (let b : State := runState
     let i : Fin 16 := 9
     let x : BitVec 12 := 0
     let s : State := (((((((((b.set (WDG_WIN_WMIN i) 0).set (WDG_WIN_WMAX i) 0xFFFF).set WDG_CTL_EN 1).set (WDG_SLOT_EN i) 1).set
       (WDG_SLOT_OWNER i) 12).set (WDG_SLOT_SCOPE i) 0).set (WDG_SLOT_TOKEN i) 0xABCD).set WDG_STAT_ARMED 0).modPkg (fun x =>
       { x with loRuns := true })).modWdg i (fun _ => { started := true })
     (s.frameOpen i = true) ∧ (s.bisqueSlot i = false) ∧ ((s.wdgOf i).kicked = false) ∧ ((s.wdgOf i).failed = false) ∧ (s.bit
       WDG_STAT_ARMED i = false)) ∧
    (let b : State := runState
     let i : Fin 16 := 9
     let x : BitVec 12 := 0
     let s : State := (((((((((((b.set (WDG_WIN_WMIN i) 0).set (WDG_WIN_WMAX i) 0xFFFF).set WDG_CTL_EN 1).set (WDG_SLOT_EN i)
       1).set (WDG_SLOT_OWNER i) 12).set (WDG_SLOT_SCOPE i) 1).set (WDG_SLOT_TOKEN i) 0xABCD).set WDG_STAT_ARMED 512).modPkg (fun x
       => { x with loRuns := true })).modWdg i (fun _ => { started := true })).set HUP_STAT_ON_STORE 0)
     (s.frameOpen i = true) ∧ (s.bisqueSlot i = false) ∧ ((s.wdgOf i).kicked = false) ∧ ((s.wdgOf i).failed = false) ∧ (s.bit
       WDG_STAT_ARMED i = true) ∧ (s.get (WDG_SLOT_SCOPE i) = 1) ∧ (s.resettable = true) ∧ (s.resetAlone = true) ∧ (s.otp.burn =
       none) ∧ (s.on HUP_STAT_ON_STORE = false) ∧ (s.dieStarved dieC = false)) ∧
    (let b : State := runState
     let p : Path := .host
     let i : Fin 16 := 9
     let w : Word := 0x9ABCD
     let x : BitVec 12 := 0
     let s : State := (((((((((b.set (WDG_WIN_WMIN i) 0).set (WDG_WIN_WMAX i) 0xFFFF).set WDG_CTL_EN 1).set (WDG_SLOT_EN i) 1).set
       (WDG_SLOT_OWNER i) 12).set (WDG_SLOT_SCOPE i) 0).set (WDG_SLOT_TOKEN i) 0xABCD).set WDG_STAT_ARMED 0).modPkg (fun x =>
       { x with loRuns := true })).modWdg i (fun _ => { started := true, kicked := true })
     (s.takesWrite p ⟨.WDG_KICK, 0, 0, 0⟩ w) ∧ (wordGet w 16 4 = i.val) ∧ (s.frameOpen i = true) ∧ ((s.wdgOf i).pos + 2000000 <
       s.wdgTicks (s.get (WDG_WIN_WMAX i))) ∧ (s.wdgTicks (s.get (WDG_WIN_WMIN i)) ≤ (s.wdgOf i).pos + 2000000) ∧ (wordGet w 0 16 =
       s.get (WDG_SLOT_TOKEN i)) ∧ ((s.wdgOf i).kicked = true) ∧ ((s.wdgOf i).failed = false) ∧ (s.bit WDG_STAT_ARMED i = false)) ∧
    (let b : State := runState
     let i : Fin 16 := 9
     let x : BitVec 12 := 0
     let s : State := ((((((((((((b.set (WDG_WIN_WMIN i) 0).set (WDG_WIN_WMAX i) 0xFFFF).set WDG_CTL_EN 1).set (WDG_SLOT_EN i)
       1).set (WDG_SLOT_OWNER i) 12).set (WDG_SLOT_SCOPE i) 1).set (WDG_SLOT_TOKEN i) 0xABCD).set WDG_STAT_ARMED 512).modPkg (fun x
       => { x with loRuns := true })).modWdg i (fun _ => { started := true })).set (WDG_SLOT_OWNER i) 9).set (ENG_STAT_STATE 9)
       engRunning).set (ENG_STAT_BISQUE 9) 1
     (s.frameOpen i = true) ∧ (s.bisqueSlot i = true) ∧ ((s.wdgOf i).kicked = false) ∧ ((s.wdgOf i).failed = false) ∧ ((s.wdgOf
       i).pos < s.midWindow i) ∧ (s.get (WDG_WIN_WMIN i) ≤ s.get (WDG_WIN_WMAX i))) ∧
    (let b : State := runState
     let i : Fin 16 := 9
     let s : State := b.set WDG_CTL_EN 0
     (s.frameOpen i = false)) ∧
    (let b : State := runState
     let i : Fin 16 := 9
     let k : BitVec 3 := 2
     let s : State := (((((((((((b.set (WDG_WIN_WMIN i) 0).set (WDG_WIN_WMAX i) 0xFFFF).set WDG_CTL_EN 1).set (WDG_SLOT_EN i)
       1).set (WDG_SLOT_OWNER i) 12).set (WDG_SLOT_SCOPE i) 1).set (WDG_SLOT_TOKEN i) 0xABCD).set WDG_STAT_ARMED 512).modPkg (fun x
       => { x with loRuns := true })).modWdg i (fun _ => { started := true, kicked := true })).set HUP_STAT_ON_STORE 0)
     (1 ≤ k.toNat) ∧ (k.toNat ≤ 4) ∧ (s.frameOpen i = true) ∧ (s.failsAs i k.toNat = true) ∧ (s.bit WDG_STAT_ARMED i = true) ∧
       (s.on (WDG_SLOT_SCOPE i) = true) ∧ (s.resettable = true) ∧ (RegsWf s.regs) ∧ (s.resetAlone = true) ∧ (s.otp.burn = none) ∧
       (s.on HUP_STAT_ON_STORE = false) ∧ (s.dieStarved dieC = false)) ∧
    (let b : State := runState
     let p : Path := .host
     let w : Word := 0xD00D
     let s : State := b.set HUP_STAT_ON_STORE 0
     (s.takesWrite p ⟨.WDG_FORCE, 0, 0, 0⟩ w) ∧ (s.resettable = true) ∧ (s.resetAlone = true) ∧ (s.otp.burn = none) ∧ (s.on
       HUP_STAT_ON_STORE = false) ∧ (s.dieStarved dieC = false)) :=
  by and_intros <;> decide

theorem test_hypotheses_DiesSuppliesAndTemperature :
    (let b : State := runState
     let d : Fin 4 := 0
     let s : State := b.modOtp (fun o => { o with due := none })
     (s.pkg ≠ pkgOff) ∧ (s.pkg ≠ pkgBoot) ∧ (s.pkg ≠ pkgKeep) ∧ (s.isolated d = false) ∧ (d.val = dieC) ∧ (s.otp.due = none)) ∧
    (let b : State := runState
     let s : State := b.set (PRG_RSTAT_STATE 5) railRegulating
     (s.pkg ≠ pkgOff) ∧ (s.pkg ≠ pkgBoot) ∧ (s.pkg ≠ pkgKeep) ∧ (s.isolated dieP = false)) ∧
    (let b : State := runState
     let d : Fin 4 := 0
     let s : State := b.set GLB_DIE_ISOLATED 1
     (s.isolated d = true)) ∧
    (let b : State := runState
     let s : State := b
     (s.pkg ≠ pkgOff) ∧ (s.pkg ≠ pkgBoot) ∧ (s.pkg ≠ pkgKeep) ∧ (s.isolated dieT0 = false)) ∧
    (let b : State := runState
     let d : Fin 4 := 0
     let s : State := b.modOtp (fun o => { o with due := none })
     (s.pkg ≠ pkgOff) ∧ (s.pkg ≠ pkgBoot) ∧ (s.pkg ≠ pkgKeep) ∧ (s.isolated d = false) ∧ (d.val = dieC → s.otp.due = none)) ∧
    (let b : State := runState
     let s : State := b
     (s.pkg ≠ pkgOff) ∧ (s.pkg ≠ pkgBoot) ∧ (s.pkg ≠ pkgKeep) ∧ (s.isolated dieP = false)) ∧
    (let b : State := runState
     let p : Fin 4 := 3
     let x : Fin 18 := 12
     let s : State := b
     (x.val = 9 + p.val) ∧ (s.pkg ≠ pkgOff) ∧ (s.pkg ≠ pkgKeep)) ∧
    (let b : State := runState
     let g : Fin 4 := 3
     let x : Fin 18 := 16
     let s : State := ((b.set (GPIO_IN_IN g) 7).each 64 (fun i s => s.set (PIN_CFG_IRQ i) 0)).modPkg (fun x =>
       { x with loRuns := true }) |>.set GLB_DIE_ISOLATED 0
     (x.val = 13 + g.val) ∧ (s.pkg ≠ pkgOff) ∧ (s.pkg ≠ pkgKeep) ∧ (∀ j : Fin 16, s.pinSynced (16 * g + j) = true ∧ s.get
       (PIN_CFG_IRQ (16 * g + j)) = 0)) ∧
    (let e : Fin 64 := 11
     let a : BitVec 16 := 32767
     (e.val < 12) ∧ (a.toNat < 32768)) ∧
    (let b : State := runState
     let e : Fin 64 := 11
     let a : BitVec 16 := 32767
     let s : State := b.set (ENG_STAT_STATE e) engRunning
     (e.val < 12) ∧ (a.toNat < 32768) ∧ (s.classLoading (classOf e) = false) ∧ (s.get (ENG_STAT_STATE e) = engRunning)) ∧
    (let m : Fin 11 := 2
     let e : Fin 64 := 1
     let a : BitVec 16 := 0
     (memUnits m ≤ e.val ∨ memSize m ≤ a.toNat)) :=
  by and_intros <;> decide

theorem test_hypotheses_PackageResets :
    (let b : State := runState
     let s : State := { b with otp := {}, pkg_ := {} }
     (s.otp.burn = none)) ∧
    (let b : State := runState
     let s : State := { b with otp := {} }
     (s.otp.burn = none)) ∧
    (let b : State := runState
     let s : State := { (b.set GLB_STATE_STATE pkgOff).modPkg (fun x => { x with kilnLost := true }) with otp := {} }
     (s.pkg = pkgOff) ∧ (s.pkg_.kilnLost = true) ∧ (s.otp.burn = none)) ∧
    (let b : State := runState
     let s : State := (b.set GLB_STATE_STATE pkgOff).modPkg (fun x => { x with kilnLost := false })
     (s.pkg = pkgOff) ∧ (s.pkg_.kilnLost = false)) ∧
    (let b : State := runState
     let s : State := { b.set KLN_STAT_VAUX_OK 1 with otp := {} }
     (s.pkg ≠ pkgOff) ∧ (s.pkg ≠ pkgKeep) ∧ (s.otp.burn = none) ∧ (s.on KLN_STAT_VAUX_OK = true) ∧ (RegsWf s.regs)) ∧
    (let b : State := runState
     let s : State := { b.set KLN_STAT_VAUX_OK 0 with otp := {} }
     (s.pkg ≠ pkgOff) ∧ (s.pkg ≠ pkgKeep) ∧ (s.otp.burn = none) ∧ (s.on KLN_STAT_VAUX_OK = false)) ∧
    (let b : State := runState
     let s : State := { b.set HUP_STAT_ON_STORE 0 with otp := {} }
     (s.pkg ≠ pkgOff) ∧ (RegsWf s.regs) ∧ (s.resetAlone = true) ∧ (s.otp.burn = none) ∧ (s.on HUP_STAT_ON_STORE = false)) ∧
    (let b : State := runState
     let s : State := b.set GLB_STATE_STATE pkgOff
     (s.pkg = pkgOff)) ∧
    (let b : State := runState
     let s : State := { b.set HUP_STAT_ON_STORE 0 with otp := {} }
     (s.resettable = true) ∧ (RegsWf s.regs) ∧ (s.resetAlone = true) ∧ (s.otp.burn = none) ∧ (s.on HUP_STAT_ON_STORE = false)) ∧
    (let b : State := runState
     let v : CmdVia := .ring
     let s : State := { b.set HUP_STAT_ON_STORE 0 with otp := {}, pkg_ := {} }
     (s.takesCmd v = true) ∧ (s.isolated dieC = false) ∧ (s.resettable = true) ∧ (RegsWf s.regs) ∧ (s.seqState ≠ seqActing) ∧
       (s.pkg_.supplyOut % 32 = 0) ∧ (s.resetAlone = true) ∧ (s.otp.burn = none) ∧ (s.on HUP_STAT_ON_STORE = false)) ∧
    (let b : State := runState
     let p : Path := .host
     let w : Word := 0x5AFE0000
     let s : State := { b.set HUP_STAT_ON_STORE 0 with otp := {}, pkg_ := {} }
     (s.takesWrite p ⟨.GLB_CMD, 0, 0, 0⟩ (wordSet w 0 4 8)) ∧ (s.resettable = true) ∧ (RegsWf s.regs) ∧ (s.seqState ≠ seqActing) ∧
       (s.pkg_.supplyOut % 32 = 0) ∧ (s.resetAlone = true) ∧ (s.otp.burn = none) ∧ (s.on HUP_STAT_ON_STORE = false)) ∧
    (let b : State := runState
     let v : CmdVia := .ring
     let s : State := b.modOtp (fun o => { o with burn := some { word := 5, value := 1 }, due := none })
     (s.takesCmd v = true) ∧ (s.isolated dieC = false) ∧ (s.resettable = true) ∧ (s.otp.burn.isSome = true) ∧ (s.otp.due = none)) :=
  by and_intros <;> decide

theorem test_hypotheses_StandbyAndKeep :
    (let b : State := runState
     let v : CmdVia := .ring
     let s : State := (b.set (OUT_CTL_EN 3) 1)
     (s.takesCmd v = true) ∧ (s.isolated dieC = false) ∧ (s.pkg = pkgRun) ∧ (s.on GLB_STATE_CHANGING = false)) ∧
    (let b : State := runState
     let p : Path := .host
     let w : Word := 0x5AFE0000
     let s : State := (b.set (OUT_CTL_EN 3) 1)
     (s.takesWrite p ⟨.GLB_CMD, 0, 0, 0⟩ (wordSet w 0 4 2))) ∧
    (let b : State := runState
     let v : CmdVia := .mbx 3
     let s : State := ({ b with pkg_ := {} }.set GLB_STATE_STATE pkgStandby).set GLB_STBY_CTL_WAKE_EN 0
     (s.takesCmd v = true) ∧ (s.isolated dieC = false) ∧ (s.pkg = pkgStandby) ∧ (s.on GLB_STATE_CHANGING = false) ∧
       (s.pkg_.stbyEng = 0) ∧ (s.pkg_.stbyLnk = 0) ∧ (s.pkg_.stbySyn = 0) ∧ (s.pkg_.stbyOut = 0) ∧ (s.on GLB_STBY_CTL_WAKE_EN =
       false)) ∧
    (let b : State := runState
     let p : Path := .host
     let w : Word := 0x5AFE0000
     let s : State := ({ b with pkg_ := {} }.set GLB_STATE_STATE pkgStandby).set GLB_STBY_CTL_WAKE_EN 0
     (s.takesWrite p ⟨.GLB_CMD, 0, 0, 0⟩ (wordSet w 0 4 1)) ∧ (s.pkg_.stbyEng = 0) ∧ (s.pkg_.stbyLnk = 0) ∧ (s.pkg_.stbySyn = 0) ∧
       (s.pkg_.stbyOut = 0) ∧ (s.on GLB_STBY_CTL_WAKE_EN = false)) ∧
    (let b : State := runState
     let v : CmdVia := .mbx 3
     let s : State := (((List.range 24).foldl (fun s r => s.set (PRG_RSTAT_STATE r) railOff) b).set SEQ_STAT_STATE seqIdle).set
       KLN_STAT_VAUX_OK 1 |>.modOtp (fun o => { o with burn := none, margin := none }) |>.set (OUT_CTL_EN 3) 1
     (s.takesCmd v = true) ∧ (s.isolated dieC = false) ∧ (s.on GLB_STATE_CHANGING = false) ∧ (s.keepOk = true)) ∧
    (let b : State := runState
     let p : Path := .host
     let w : Word := 0x5AFE0000
     let s : State := (((List.range 24).foldl (fun s r => s.set (PRG_RSTAT_STATE r) railOff) b).set SEQ_STAT_STATE seqIdle).set
       KLN_STAT_VAUX_OK 1 |>.modOtp (fun o => { o with burn := none, margin := none }) |>.set (OUT_CTL_EN 3) 1
     (s.takesWrite p ⟨.GLB_CMD, 0, 0, 0⟩ (wordSet w 0 4 3))) ∧
    (let b : State := runState
     let s : State := b.modPkg (fun x => { x with keeping := true })
     (s.pkg_.keeping = true) ∧ (RegsWf s.regs)) ∧
    (let b : State := runState
     let s : State := { b with pkg_ := {} }
     (s.pkg_.keeping = false)) ∧
    (let b : State := runState
     let v : BitVec 16 := 7500
     let s : State := ({ b with pkg_ := {} }.set GLB_STATE_STATE pkgKeep).set KLN_WAKE_WAKE_SEC 5 |>.set KLN_STAT_KEEPER_OK 1
     (s.pkg = pkgKeep) ∧ (s.get KLN_WAKE_WAKE_SEC ≠ 0) ∧ (s.on KLN_STAT_KEEPER_OK = true) ∧ (s.pkg_.vinLow = false) ∧ (7500 ≤
       v.toNat)) ∧
    (let b : State := runState
     let v : BitVec 16 := 7499
     let s : State := ({ b with pkg_ := {} }.set GLB_STATE_STATE pkgKeep).set KLN_WAKE_WAKE_SEC 5 |>.set KLN_STAT_KEEPER_OK 1
     (s.pkg = pkgKeep) ∧ (s.get KLN_WAKE_WAKE_SEC ≠ 0) ∧ (s.on KLN_STAT_KEEPER_OK = true) ∧ (s.pkg_.vinLow = true ∨ v.toNat <
       7500)) ∧
    (let b : State := runState
     let s : State := b.set GLB_STATE_STATE pkgKeep
     (s.pkg = pkgKeep)) ∧
    (let b : State := runState
     let s : State := ({ b with pkg_ := { vinLow := true } }.set GLB_STATE_STATE pkgKeep).set KLN_WAKE_VIN_WAKE 1
     (s.pkg = pkgKeep) ∧ (s.pkg_.vinLow = true) ∧ (s.pkg_.timerDue = false) ∧ (s.on KLN_WAKE_VIN_WAKE = true)) ∧
    (let b : State := runState
     let s : State := ({ b with pkg_ := { vinLow := true, timerDue := true } }.set GLB_STATE_STATE pkgKeep)
     (s.pkg = pkgKeep) ∧ (s.pkg_.vinLow = true) ∧ (s.pkg_.timerDue = true)) :=
  by and_intros <;> decide

theorem test_hypotheses_BootAndKeeper :
    (let b : State := runState
     let m : BitVec 2 := 2
     let x : BitVec 12 := 0
     let s : State := (b.set GLB_STATE_STATE pkgBoot).modPkg (fun x => { x with supplyOut := 0 })
     (s.pkg = pkgBoot) ∧ (s.pkg_.supplyOut % 2 ^ 9 = 0) ∧ (s.findings = []) ∧ (2 ≤ m.toNat)) ∧
    (let b : State := runState
     let x : BitVec 12 := 0
     let s : State := ((b.set GLB_STATE_STATE pkgBoot).modPkg (fun x => { x with supplyOut := 0 })).modOtp (fun o =>
       { o with fuse := State.reset.otp.fuse ++ [(200, 1, 0, 1)] })
     (s.pkg = pkgBoot) ∧ (s.pkg_.supplyOut % 2 ^ 9 = 0) ∧ (s.findings ≠ [])) ∧
    (let b : State := runState
     let x : BitVec 12 := 0
     let lo : Bool := false
     let s : State := (b.set GLB_STATE_STATE pkgBoot).modPkg (fun x => { x with supplyOut := 0 })
     (s.pkg ≠ pkgBoot ∨ s.pkg_.supplyOut % 2 ^ 9 ≠ 0 ∨ lo = false)) ∧
    (let b : State := runState
     let s : State := (b.set KLN_STAT_KEEPER_OK 1).set KLN_STAT_KEEPER_LOST 0
     (s.on KLN_STAT_KEEPER_OK = true) ∧ (s.on KLN_STAT_KEEPER_LOST = false)) ∧
    (let b : State := runState
     let s : State := (b.set KLN_STAT_KEEPER_OK 1).set KLN_STAT_KEEPER_LOST 1
     (s.on KLN_STAT_KEEPER_OK = true) ∧ (s.on KLN_STAT_KEEPER_LOST = true)) ∧
    (let b : State := runState
     let s : State := b.set KLN_STAT_KEEPER_OK 0
     (s.on KLN_STAT_KEEPER_OK = false)) ∧
    (let b : State := runState
     let s : State := (b.set GLB_STATE_STATE pkgHeld).set KLN_STAT_KEEPER_OK 1
     (s.pkg = pkgHeld) ∧ (s.on KLN_STAT_KEEPER_OK = true)) ∧
    (let b : State := runState
     let s : State := b
     (s.pkg ≠ pkgHeld)) :=
  by and_intros <;> decide

theorem test_hypotheses_OtpShadowsBurnsAndLocks :
    (let b : State := runState
     let v : CmdVia := .ring
     let a : BitVec 9 := 300
     let s : State := b.set OTP_REGION_LOCKED 0
     (s.takesCmd v = true) ∧ (s.shadowOk a.toNat = true)) ∧
    (let b : State := runState
     let p : Path := .host
     let a : BitVec 9 := 300
     let x : Word := 0xDEADBEEF
     let s : State := b.set OTP_REGION_LOCKED 0
     (s.takesWrite p ⟨.OTP_SH, a.toNat, 0, 0⟩ x)) ∧
    (let b : State := runState
     let v : CmdVia := .mbx 3
     let a : BitVec 9 := 127
     let s : State := b
     (s.takesCmd v = true) ∧ (a.toNat < 128)) ∧
    (let b : State := runState
     let p : Path := .host
     let w : Word := 0x10
     let s : State := b.set (OTP_OVR_OVR 5) 3
     (s.takesWrite p ⟨.OTP_CMD, 0, 0, 0⟩ (wordSet w 4 1 1)) ∧ (wordGet w 0 1 = 0) ∧ (wordGet w 1 1 = 0)) ∧
    (let b : State := runState
     let p : Path := .host
     let w : Word := 0x00F05E
     let s : State := b
     (s.takesWrite p ⟨.OTP_ARM, 0, 0, 0⟩ w)) ∧
    (let b : State := runState
     let v : CmdVia := .ring
     let a : BitVec 9 := 300
     let x : Word := 5
     let s : State := (b.modOtp (fun o => { o with arm := some false, burn := none, margin := none, due := none })).set
       HUP_STAT_ON_STORE 0 |>.set OTP_REGION_LOCKED 0 |>.set OTP_REGION_STATE 0 |>.modDefer grpOtp (fun _ => {})
     (s.takesCmd v = true) ∧ (s.isolated dieC = false) ∧ (s.groupBusy grpOtp = false) ∧ (s.burnOk false a.toNat x.toNat = true)) ∧
    (let b : State := runState
     let v : CmdVia := .mbx 3
     let s : State := b.modOtp (fun o => { o with arm := some true })
     (s.takesCmd v = true) ∧ (s.isolated dieC = false) ∧ (s.otp.arm ≠ some false)) ∧
    (let b : State := runState
     let p : Path := .host
     let w : Word := 0
     let s : State := ((b.modOtp (fun o => { o with arm := some false, burn := none, margin := none, due := none })).set
       HUP_STAT_ON_STORE 0 |>.set OTP_REGION_LOCKED 0 |>.set OTP_REGION_STATE 0 |>.modDefer grpOtp (fun _ => {}) |>.set
       OTP_BURN_ADDR_WORD 300)
     (s.takesWrite p ⟨.OTP_CMD, 0, 0, 0⟩ (wordSet w 0 1 1)) ∧ (wordGet w 4 1 = 0)) ∧
    (let b : State := runState
     let v : CmdVia := .ring
     let r : BitVec 2 := 1
     let s : State := (b.modOtp (fun o => { o with arm := some false, burn := none, margin := none, due := none })).set
       HUP_STAT_ON_STORE 0 |>.set OTP_REGION_LOCKED 0 |>.set OTP_REGION_STATE (2 + 4 * 2) |>.modDefer grpOtp (fun _ => {})
     (s.takesCmd v = true) ∧ (s.isolated dieC = false) ∧ (s.groupBusy grpOtp = false) ∧ (s.lockOk false r.toNat = true)) ∧
    (let b : State := runState
     let p : Path := .host
     let w : Word := 0x4
     let s : State := (b.modOtp (fun o => { o with arm := some false, burn := none, margin := none, due := none })).set
       HUP_STAT_ON_STORE 0 |>.set OTP_REGION_LOCKED 0 |>.set OTP_REGION_STATE (2 + 4 * 2) |>.modDefer grpOtp (fun _ => {})
     (s.takesWrite p ⟨.OTP_CMD, 0, 0, 0⟩ (wordSet w 1 1 1)) ∧ (wordGet w 4 1 = 0)) :=
  by and_intros <;> decide

theorem test_hypotheses_OtpPulsesAndMargins :
    (let b : State := runState
     let l : BitVec 39 := BitVec.ofNat 39 (otpRaw 5)
     let h : BitVec 39 := BitVec.ofNat 39 (otpRaw 5)
     let q : Nat := 300
     let x : Nat := 5
     let k : Nat := 2
     let s : State := b.modOtp (fun o => { o with burn := some { word := q, value := x, pulses := k }, due := none })
     (s.otp.burn = some { word := q, value := x, pulses := k }) ∧ (s.otp.due = none) ∧ (q < 512) ∧ (k < 4) ∧ (l.toNat = otpRaw x)
       ∧ (h.toNat = otpRaw x)) ∧
    (let b : State := runState
     let l : BitVec 39 := 5
     let q : Nat := 300
     let x : Nat := 5
     let s : State := b.modOtp (fun o => { o with burn := some { word := q, value := x, pulses := 3 }, due := none })
     (s.otp.burn = some { word := q, value := x, pulses := 3 }) ∧ (s.otp.due = none) ∧ (q < 512) ∧ (l.toNat ≠ otpRaw x)) ∧
    (let b : State := runState
     let l : BitVec 39 := 5
     let q : Nat := 300
     let x : Nat := 5
     let k : Nat := 0
     let s : State := b.modOtp (fun o => { o with burn := some { word := q, value := x, pulses := k }, due := none })
     (s.otp.burn = some { word := q, value := x, pulses := k }) ∧ (s.otp.due = none) ∧ (q < 512) ∧ (k < 3) ∧ (l.toNat ≠ otpRaw x)) ∧
    (let b : State := runState
     let s : State := b.modOtp (fun o => { o with burn := none, due := none })
     (s.otp.burn = none) ∧ (s.otp.due = none)) ∧
    (let b : State := runState
     let r : Fin 4 := 0
     let c : Bool := true
     let e : Nat := 2
     let s : State := b.modOtp (fun o => { o with margin := some (r.val, c, e) })
     (s.otp.margin = some (r.val, c, e)) ∧ (s.otpCrc r 1 = (otpDecode (s.fuse (otpSpan r).2).2.1).data) ∧ (s.otpCrc r 2 =
       (otpDecode (s.fuse (otpSpan r).2).2.2).data)) ∧
    (let b : State := runState
     let r : Fin 4 := 2
     let e : Nat := 2
     let s : State := b.modOtp (fun o => { o with margin := some (r.val, false, e) })
     (s.otp.margin = some (r.val, false, e)) ∧ (s.otpCrc r 1 ≠ (otpDecode (s.fuse (otpSpan r).2).2.1).data)) :=
  by and_intros <;> decide +kernel

theorem test_hypotheses_EnginesRunAndHalt :
    (let b : State := runState
     let p : Path := .host
     let e : Fin 12 := 11
     let s : State := (b.set (ENG_STAT_STATE e) engHalted).modDefer grpImage (fun _ => {})
     (s.takesWrite p ⟨.ENG_CTL, e, 0, 0⟩ 1) ∧ (bankGet s.img (e / 4) = none)) ∧
    (let b : State := runState
     let p : Path := .host
     let e : Fin 12 := 11
     let i : ImgInfo := { slot := 0, version := 1, abi := 1, featLo := 0, featHi := 9, compat := [] }
     let x : Bool := false
     let s : State :=
       ({ b with img := b.img.setIfInBounds (e / 4) (some i), flash := memPutAll 0xFF (memPutAll 0xFF [] (slotBase (e / 4) i.slot + 0x40 + 16 * (e % 4)) (List.replicate 12 0)) (slotBase (e / 4) i.slot + 512) [0, 0, 0, 0] }.set
       (ENG_STAT_BISQUE e) 0).modDefer grpImage (fun _ => {})
     (s.takesWrite p ⟨.ENG_CTL, e, 0, 0⟩ 1) ∧ (bankGet s.img (e / 4) = some i) ∧ (s.get (ENG_STAT_BISQUE e) = 0) ∧ (s.sectionGood
       e i.slot = true) ∧ (x = false) ∧ (bitOf s.pkg_.loadBad e = false)) ∧
    (let b : State := runState
     let p : Path := .host
     let e : Fin 12 := 11
     let i : ImgInfo := { slot := 0, version := 1, abi := 1, featLo := 0, featHi := 9, compat := [] }
     let x : Bool := true
     let s : State :=
       ({ b with img := b.img.setIfInBounds (e / 4) (some i), flash := memPutAll 0xFF [] (slotBase (e / 4) i.slot + 0x40 + 16 * (e % 4)) (List.replicate 12 0) }.set
       (ENG_STAT_BISQUE e) 0).modDefer grpImage (fun _ => {})
     (s.takesWrite p ⟨.ENG_CTL, e, 0, 0⟩ 1) ∧ (bankGet s.img (e / 4) = some i) ∧ (s.get (ENG_STAT_BISQUE e) = 0) ∧ (x = true ∨
       s.sectionGood e i.slot = false)) ∧
    (let b : State := runState
     let p : Path := .host
     let e : Fin 12 := 11
     let s : State := (b.set (ENG_CTL_HOLD e) 0).set (ENG_STAT_STATE e) engRunning
     (s.takesWrite p ⟨.ENG_CTL, e, 0, 0⟩ 2) ∧ (s.get (ENG_CTL_HOLD e) = 0) ∧ (s.get (ENG_STAT_STATE e) = engRunning)) ∧
    (let b : State := runState
     let p : Path := .host
     let e : Fin 12 := 11
     let s : State := b.set (ENG_STAT_STATE e) engHalted
     (s.takesWrite p ⟨.ENG_CTL, e, 0, 0⟩ 2) ∧ (s.get (ENG_STAT_STATE e) = engHalted)) ∧
    (let b : State := runState
     let p : Path := .host
     let e : Fin 12 := 11
     let s : State := ((b.set (ENG_CTL_HOLD e) 1).set (ENG_STAT_STATE e) engInReset).modDefer grpImage (fun _ => {}) |>.modPkg
       (fun x => { x with stbyEng := 0 })
     (s.takesWrite p ⟨.ENG_CTL, e, 0, 0⟩ 0) ∧ (s.get (ENG_CTL_HOLD e) = 1) ∧ (s.get (ENG_STAT_STATE e) = engInReset) ∧
       (s.engSuspended e = false)) ∧
    (let b : State := runState
     let e : Fin 12 := 11
     let c : BitVec 3 := 3
     let s : State := b.set (ENG_STAT_STATE e) engRunning
     (s.get (ENG_STAT_STATE e) = engRunning) ∧ (c = 3 ∨ c = 4)) ∧
    (let b : State := runState
     let e : Fin 12 := 11
     let c : BitVec 3 := 2
     let s : State := b.set (ENG_STAT_STATE e) engRunning
     (s.get (ENG_STAT_STATE e) = engRunning) ∧ (c = 1 ∨ c = 2)) ∧
    (let b : State := runState
     let e : Fin 12 := 11
     let s : State := b.set (ENG_STAT_STATE e) engHalted
     (s.get (ENG_STAT_STATE e) ≠ engRunning)) :=
  by and_intros <;> decide

theorem test_hypotheses_ImagesStagedAndCommitted :
    (let b : State := runState
     let v : CmdVia := .mbx 3
     let c : BitVec 2 := 2
     let a : BitVec 48 := 0x700000
     let l : Word := 512
     let s : State := (({ b with stg := b.stg.setIfInBounds 2 none }.modDefer grpImage (fun _ => {})).set (ENG_IMG_STAT_TRIAL 2)
       0)
     (s.takesCmd v = true) ∧ (c.toNat < 3) ∧ (s.groupBusy grpImage = false) ∧ (a.toNat % 4 = 0) ∧ (0 < l.toNat) ∧ (l.toNat ≤ 2 ^
       20) ∧ (v = .ring ∨ 0x700000 ≤ a.toNat) ∧ (s.get (ENG_IMG_STAT_TRIAL c.toNat) = 0)) ∧
    (let b : State := runState
     let v : CmdVia := .mbx 3
     let c : BitVec 2 := 2
     let a : BitVec 48 := 0x700000
     let s : State := (({ b with stg := b.stg.setIfInBounds 2 none }.modDefer grpImage (fun _ => {})).set (ENG_IMG_STAT_TRIAL 2)
       0)
     (s.takesCmd v = true) ∧ (c.toNat < 3) ∧ (s.groupBusy grpImage = false) ∧ (a.toNat % 4 = 0)) ∧
    (let b : State := runState
     let c : BitVec 2 := 2
     let a : BitVec 48 := 0x700000
     let l : Word := 512
     let s : State := (({ b with stg := b.stg.setIfInBounds 2 none }.modDefer grpImage (fun _ => {})).set (ENG_IMG_STAT_TRIAL 2)
       1)
     (s.takesCmd .ring = true) ∧ (c.toNat < 3) ∧ (a.toNat % 4 = 0) ∧ (0 < l.toNat) ∧ (s.get (ENG_IMG_STAT_TRIAL c.toNat) = 1)) ∧
    (let b : State := runState
     let c : Fin 3 := 2
     let s : State := (({ b with stg := b.stg.setIfInBounds 2 none }.modDefer grpImage (fun _ =>
       { state := 1, opcode := 0x48, cls := 2, mbx := true, ptr := 0x700000, len := 4 })).set (ENG_IMG_STAT_TRIAL 2) 0)
     ((s.deferOf grpImage).state = 1) ∧ ((s.deferOf grpImage).opcode = 0x48) ∧ ((s.deferOf grpImage).mbx = true) ∧ ((s.deferOf
       grpImage).fetched = false) ∧ ((s.deferOf grpImage).cls = c.val)) ∧
    (let b : State := runState
     let c : Nat := 2
     let s : State := (({ b with stg := b.stg.setIfInBounds 2 none }.modDefer grpImage (fun _ =>
       { state := 1, opcode := 0x48, cls := 2, mbx := true, ptr := 0x700000, len := 4 })).set (ENG_IMG_STAT_TRIAL 2) 0)
     (c < 3) ∧ ((s.deferOf grpImage).state = 1) ∧ ((s.deferOf grpImage).opcode = 0x48) ∧ ((s.deferOf grpImage).mbx = true) ∧
       ((s.deferOf grpImage).fetched = false) ∧ ((s.deferOf grpImage).cls = c)) ∧
    (let b : State := runState
     let c : Nat := 2
     let s : State := (({ b with stg := b.stg.setIfInBounds 2 none }.modDefer grpImage (fun _ =>
       { state := 1, opcode := 0x48, cls := 2, mbx := true, ptr := 0x700000, len := 4 })).set (ENG_IMG_STAT_TRIAL 2) 0)
     (c < 3) ∧ ((s.deferOf grpImage).state = 1) ∧ ((s.deferOf grpImage).opcode = 0x48) ∧ ((s.deferOf grpImage).mbx = true) ∧
       ((s.deferOf grpImage).cls = c)) ∧
    (let b : State := runState
     let c : Nat := 2
     let s : State := (({ b with stg := b.stg.setIfInBounds 2 none }.modDefer grpImage (fun _ =>
       { state := 1, opcode := 0x48, cls := 2, mbx := true, ptr := 0x700000, len := 0 })).set (ENG_IMG_STAT_TRIAL 2) 0)
     (c < 3) ∧ ((s.deferOf grpImage).state = 1) ∧ ((s.deferOf grpImage).opcode = 0x48) ∧ ((s.deferOf grpImage).mbx = true) ∧
       ((s.deferOf grpImage).cls = c) ∧ ((s.deferOf grpImage).len = 0)) ∧
    (let b : State := runState
     let v : CmdVia := .ring
     let c : BitVec 2 := 2
     let s : State := (({ b with stg := b.stg.setIfInBounds 2 none }.modDefer grpImage (fun _ => {})).set (ENG_IMG_STAT_TRIAL 2)
       1)
     (s.takesCmd v = true) ∧ (c.toNat < 3) ∧ (s.groupBusy grpImage = false) ∧ (s.get (ENG_IMG_STAT_TRIAL c.toNat) = 1)) ∧
    (let b : State := runState
     let v : CmdVia := .ring
     let c : BitVec 2 := 2
     let i : ImgInfo := { slot := 1, version := 1, abi := 1, featLo := 0, featHi := 65535, compat := [1, 1, 0] }
     let s : State :=
       ({ (({ b with stg := b.stg.setIfInBounds 2 none }.modDefer grpImage (fun _ => {})).set (ENG_IMG_STAT_TRIAL 2) 0) with stg := b.stg.setIfInBounds 2 (some i), img := State.reset.img }.set
       (ENG_IMG_STAT_STAGED 2) 1)
     (s.takesCmd v = true) ∧ (c.toNat < 3) ∧ (s.groupBusy grpImage = false) ∧ (s.get (ENG_IMG_STAT_TRIAL c.toNat) = 0) ∧ (s.get
       (ENG_IMG_STAT_STAGED c.toNat) = 1) ∧ (bankGet s.stg c.toNat = some i) ∧ ((decideClass s c.toNat i).1 = 0)) ∧
    (let b : State := runState
     let v : CmdVia := .mbx 3
     let c : BitVec 2 := 2
     let s : State := (({ b with stg := b.stg.setIfInBounds 2 none }.modDefer grpImage (fun _ => {})).set (ENG_IMG_STAT_TRIAL 2)
       0)
     (s.takesCmd v = true) ∧ (s.get (ENG_IMG_STAT_TRIAL c.toNat) = 0) ∧ (bankGet s.stg c.toNat = none)) ∧
    (let b : State := runState
     let c : Nat := 2
     let s : State := (({ b with stg := b.stg.setIfInBounds 2 none }.modDefer grpImage (fun _ =>
       { state := 1, opcode := 0x49, cls := 2, mbx := true })).set (ENG_IMG_STAT_TRIAL 2) 0)
     (c < 3) ∧ ((s.deferOf grpImage).state = 1) ∧ ((s.deferOf grpImage).opcode = 0x49) ∧ ((s.deferOf grpImage).mbx = true) ∧
       ((s.deferOf grpImage).loading = false) ∧ ((s.deferOf grpImage).cls = c)) ∧
    (let b : State := runState
     let c : Nat := 2
     let s : State := (({ b with stg := b.stg.setIfInBounds 2 none }.modDefer grpImage (fun _ =>
       { state := 1, opcode := 0x49, cls := 2, mbx := true })).set (ENG_IMG_STAT_TRIAL 2) 0)
     (c < 3) ∧ ((s.deferOf grpImage).state = 1) ∧ ((s.deferOf grpImage).opcode = 0x49) ∧ ((s.deferOf grpImage).loading = false) ∧
       ((s.deferOf grpImage).cls = c)) ∧
    (let b : State := runState
     let p : Path := .eng 9
     let c : Fin 3 := 2
     let w : Word := 0x600D
     let s : State := (({ b with stg := b.stg.setIfInBounds 2 none }.modDefer grpImage (fun _ => {})).set (ENG_IMG_STAT_TRIAL 2)
       1).set (ENG_STAT_STATE 9) engRunning
     (s.takesWrite p ⟨.ENG_HEALTH, c, 0, 0⟩ w)) :=
  by and_intros <;> decide

theorem test_hypotheses_DmaChannelsStartAndStop :
    (let b : State := runState
     let p : Path := .host
     let ch : Fin 32 := 31
     let w : Word := 0x06001006
     let s : State := (b.setWord ⟨.DMA_CCTL, ch, 0, 0⟩ 0x06001006)
     (s.takesWrite p ⟨.DMA_CCTL, ch, 0, 0⟩ (wordSet w 0 1 1)) ∧ (s.get (DMA_CCTL_EN ch) = 0)) ∧
    (let b : State := runState
     let p : Path := .host
     let ch : Fin 32 := 31
     let w : Word := 0x06001006
     let s : State := (((b.setWord ⟨.DMA_CCTL, ch, 0, 0⟩ 0x06001007).set (DMA_STAT_STATE ch) chIdle).set (DMA_STAT_CIDX ch)
       0).modDma ch (fun _ => {})
     (s.takesWrite p ⟨.DMA_CCTL, ch, 0, 0⟩ (wordSet w 0 1 0)) ∧ (s.get (DMA_CCTL_EN ch) = 1)) ∧
    (let b : State := runState
     let p : Path := .eng 3
     let ch : Fin 32 := 31
     let w : Word := 5
     let s : State := ((((b.setWord ⟨.DMA_CCTL, ch, 0, 0⟩ 0x06001007).set (DMA_STAT_STATE ch) chIdle).set (DMA_STAT_CIDX ch)
       0).modDma ch (fun _ => {})).set (DMA_CCTL_OWNER ch) 4 |>.set (ENG_STAT_STATE 3) engRunning
     (s.takesWrite p ⟨.DMA_DB, ch, 0, 0⟩ w)) ∧
    (let b : State := runState
     let v : CmdVia := .ring
     let ch : Fin 32 := 31
     let s : State := ((((b.setWord ⟨.DMA_CCTL, ch, 0, 0⟩ 0x06001007).set (DMA_STAT_STATE ch) chHalted).set (DMA_STAT_CIDX ch)
       0).modDma ch (fun _ => {})).set (DMA_CCTL_OWNER ch) (if v = .ring then 0 else 4)
     (s.takesCmd v = true) ∧ (s.hostOwned ch = decide (v = .ring)) ∧ (s.chState ch = chHalted)) ∧
    (let b : State := runState
     let v : CmdVia := .ring
     let ch : Fin 32 := 31
     let s : State := ((((b.setWord ⟨.DMA_CCTL, ch, 0, 0⟩ 0x06001007).set (DMA_STAT_STATE ch) chFaulted).set (DMA_STAT_CIDX ch)
       0).modDma ch (fun _ => {})).set (DMA_CCTL_OWNER ch) (if v = .ring then 0 else 4)
     (s.takesCmd v = true) ∧ (s.hostOwned ch = decide (v = .ring)) ∧ (s.chState ch = chFaulted)) ∧
    (let b : State := runState
     let ch : Fin 32 := 31
     let s : State := (((b.setWord ⟨.DMA_CCTL, ch, 0, 0⟩ 0x06001007).set (DMA_STAT_STATE ch) chIdle).set (DMA_STAT_CIDX ch)
       0).modDma ch (fun _ => {})
     (s.takesCmd .ring = true) ∧ (s.chState ch ≠ chFaulted) ∧ (s.chState ch ≠ chHalted)) ∧
    (let b : State := runState
     let p : Path := .host
     let ch : Fin 32 := 31
     let s : State := (((b.setWord ⟨.DMA_CCTL, ch, 0, 0⟩ 0x06001007).set (DMA_STAT_STATE ch) chHalted).set (DMA_STAT_CIDX ch)
       0).modDma ch (fun _ => {})
     (s.takesWrite p ⟨.DMA_CMD, ch, 0, 0⟩ 1) ∧ (s.chState ch = chHalted)) ∧
    (let b : State := runState
     let v : CmdVia := .ring
     let ch : Fin 32 := 31
     let s : State := ((((b.setWord ⟨.DMA_CCTL, ch, 0, 0⟩ 0x06001007).set (DMA_STAT_STATE ch) chActive).set (DMA_STAT_CIDX ch)
       0).modDma ch (fun _ =>
       { cur := some ({ words := [0x80000000, 64, 0x1000, 0, 0x2000, 0, 0, 0], idx := 0, total := 64, granted := 64 } : Desc) })).set
       (DMA_CCTL_OWNER ch) (if v = .ring then 0 else 4)
     (s.takesCmd v = true) ∧ (s.hostOwned ch = decide (v = .ring)) ∧ (s.chState ch = chActive) ∧ ((s.dmaOf ch).bursts = []) ∧
       ((s.dmaOf ch).abort = none)) ∧
    (let b : State := runState
     let v : CmdVia := .ring
     let ch : Fin 32 := 31
     let s : State := ((((b.setWord ⟨.DMA_CCTL, ch, 0, 0⟩ 0x06001007).set (DMA_STAT_STATE ch) chActive).set (DMA_STAT_CIDX ch)
       0).modDma ch (fun _ =>
       { cur := some ({ words := [0x80000000, 64, 0x1000, 0, 0x2000, 0, 0, 0], idx := 0, total := 64, granted := 64 } : Desc), bursts := [{ len := 64 }] })).set
       (DMA_CCTL_OWNER ch) (if v = .ring then 0 else 4)
     (s.takesCmd v = true) ∧ (s.hostOwned ch = decide (v = .ring)) ∧ (s.chState ch = chActive) ∧ ((s.dmaOf ch).bursts ≠ []) ∧
       ((s.dmaOf ch).abort = none)) ∧
    (let b : State := runState
     let p : Path := .host
     let ch : Fin 32 := 31
     let s : State := (((b.setWord ⟨.DMA_CCTL, ch, 0, 0⟩ 0x06001007).set (DMA_STAT_STATE ch) chFaulted).set (DMA_STAT_CIDX ch)
       0).modDma ch (fun _ =>
       { cur := some ({ words := [0x80000000, 64, 0x1000, 0, 0x2000, 0, 0, 0], idx := 0, total := 64, granted := 64 } : Desc) })
     (s.takesWrite p ⟨.DMA_CMD, ch, 0, 0⟩ 2) ∧ (s.chState ch = chFaulted)) ∧
    (let b : State := runState
     let l : Fin 26 := 25
     let ch : Fin 32 := 31
     let s : State :=
       { ((((b.setWord ⟨.DMA_CCTL, ch, 0, 0⟩ 0x06001007).set (DMA_STAT_STATE ch) chIdle).set (DMA_STAT_CIDX ch) 0).modDma ch (fun _ => { prod := 3 })).set (DMA_CCTL_REQ ch) 26 with lineWait := bankMod b.lineWait 25 (fun _ => 2) }
     (s.lineWait.toList.getD l 0 ≠ 0) ∧ (s.boundTo l = some ch.val) ∧ (s.chState ch = chIdle ∨ s.chState ch = chActive) ∧ (s.get
       (DMA_CCTL_RMODE ch) = 0) ∧ ((s.dmaOf ch).abort = none) ∧ ((s.dmaOf ch).cur = none) ∧ ((s.dmaOf ch).reqs.length < 16) ∧
       (s.offered ch ≠ 0)) ∧
    (let b : State := runState
     let l : Fin 26 := 25
     let ch : Fin 32 := 31
     let s : State :=
       { ((((b.setWord ⟨.DMA_CCTL, ch, 0, 0⟩ 0x06001007).set (DMA_STAT_STATE ch) chDisabled).set (DMA_STAT_CIDX ch) 0).modDma ch (fun _ => { prod := 3 })).set (DMA_CCTL_REQ ch) 26 with lineWait := bankMod b.lineWait 25 (fun _ => 2) }
     (s.lineWait.toList.getD l 0 ≠ 0) ∧ (s.boundTo l = some ch.val) ∧ (s.chState ch ≠ chIdle) ∧ (s.chState ch ≠ chActive)) ∧
    (let b : State := runState
     let l : Fin 26 := 25
     let s : State := { b with lineWait := bankMod b.lineWait 25 (fun _ => 2) }
     (s.lineWait.toList.getD l 0 ≠ 0) ∧ (s.boundTo l = none)) ∧
    (let b : State := runState
     let l : Fin 26 := 25
     let s : State := { b with lineWait := State.reset.lineWait }
     (s.lineWait.toList.getD l 0 = 0)) :=
  by and_intros <;> decide

theorem test_hypotheses_DmaDescriptorsAndBursts :
    (let b : State := runState
     let ch : Fin 32 := 31
     let h : List Word := [64]
     let e : List Word := []
     let t : List Word := []
     let s : State := ((((b.setWord ⟨.DMA_CCTL, ch, 0, 0⟩ 0x06001007).set (DMA_STAT_STATE ch) chIdle).set (DMA_STAT_CIDX ch)
       0).modDma ch (fun _ => { prod := 3 }))
     (s.mayFetch ch = true) ∧ (s.ringFault ch = none) ∧ (s.descInHand ch (s.descAt ch h e t) = true) ∧ (Desc.own (h.getD 0 0) =
       false)) ∧
    (let b : State := runState
     let ch : Fin 32 := 31
     let s : State := ((((b.setWord ⟨.DMA_CCTL, ch, 0, 0⟩ 0x06001007).set (DMA_STAT_STATE ch) chIdle).set (DMA_STAT_CIDX ch)
       0).modDma ch (fun _ => { prod := 3, stalled := true }))
     (s.mayFetch ch = false)) ∧
    (let b : State := runState
     let ch : Fin 32 := 31
     let f : XFault := { off := 0, cause := 2, addr := 0x10010000, isLocal := true }
     let s : State := (((((((b.setWord ⟨.DMA_CCTL, ch, 0, 0⟩ 0x06001007).set (DMA_STAT_STATE ch) chIdle).set (DMA_STAT_CIDX ch)
       0).modDma ch (fun _ => { prod := 3 }))).set (DMA_CCTL_OWNER ch) 1).set (DMA_RBASE_LO_BASE ch) 16 |>.set GLB_DIE_ISOLATED 0)
     (s.mayFetch ch = true) ∧ (s.ringFault ch = some f)) ∧
    (let b : State := runState
     let ch : Fin 32 := 31
     let h : List Word := [0x80000000, 64, 0x1000, 0, 0x2000, 0, 0, 0]
     let e : List Word := []
     let t : List Word := []
     let w : Fin 16 := 3
     let s : State := ((((b.setWord ⟨.DMA_CCTL, ch, 0, 0⟩ 0x06001007).set (DMA_STAT_STATE ch) chIdle).set (DMA_STAT_CIDX ch)
       0).modDma ch (fun _ => { prod := 3 }))
     (s.mayFetch ch = true) ∧ (s.ringFault ch = none) ∧ (s.descInHand ch (s.descAt ch h e t) = true) ∧ (Desc.own ((s.descAt ch h e
       t).w 0) = true) ∧ (extended ((s.descAt ch h e t).w 0) = true → Desc.own ((s.descAt ch h e t).x 0) = true) ∧ ((s.descAt ch h e
       t).irq = false)) ∧
    (let b : State := runState
     let ch : Fin 32 := 31
     let h : List Word := [0x80000003, 64]
     let e : List Word := []
     let t : List Word := []
     let s : State := ((((b.setWord ⟨.DMA_CCTL, ch, 0, 0⟩ 0x06001007).set (DMA_STAT_STATE ch) chIdle).set (DMA_STAT_CIDX ch)
       0).modDma ch (fun _ => { prod := 3 }))
     (s.mayFetch ch = true) ∧ (s.ringFault ch = none) ∧ (s.descInHand ch (s.descAt ch h e t) = true) ∧ (Desc.own ((s.descAt ch h e
       t).w 0) = true) ∧ (extended ((s.descAt ch h e t).w 0) = true → Desc.own ((s.descAt ch h e t).x 0) = true) ∧ (s.descOk ch
       (s.descAt ch h e t) = false) ∧ ((s.descAt ch h e t).irq = false)) ∧
    (let b : State := runState
     let ch : Fin 32 := 31
     let h : List Word := [0x80000000, 0, 0x1000, 0, 0x2000, 0, 0, 0]
     let e : List Word := []
     let t : List Word := []
     let s : State := ((((b.setWord ⟨.DMA_CCTL, ch, 0, 0⟩ 0x06001007).set (DMA_STAT_STATE ch) chIdle).set (DMA_STAT_CIDX ch)
       0).modDma ch (fun _ => { prod := 3 }))
     (s.mayFetch ch = true) ∧ (s.ringFault ch = none) ∧ (s.descInHand ch (s.descAt ch h e t) = true) ∧ (Desc.own ((s.descAt ch h e
       t).w 0) = true) ∧ (extended ((s.descAt ch h e t).w 0) = true → Desc.own ((s.descAt ch h e t).x 0) = true) ∧ (s.descOk ch
       (s.descAt ch h e t) = true) ∧ ((s.descAt ch h e t).total = 0) ∧ ((s.descAt ch h e t).irq = false)) ∧
    (let b : State := runState
     let ch : Fin 32 := 31
     let h : List Word := [0x80000002, 4, 0x1000, 0, 0x2000, 0, 0, 0]
     let e : List Word := [0x80000002, 0xFFFFFFFC, 0xFFFF, 0, 0, 0, 0, 0]
     let t : List Word := [0, 4]
     let f : XFault := { off := 0, cause := 3, addr := 0 }
     let s : State := (((((b.setWord ⟨.DMA_CCTL, ch, 0, 0⟩ 0x06001007).set (DMA_STAT_STATE ch) chIdle).set (DMA_STAT_CIDX ch)
       0).modDma ch (fun _ => { prod := 3 }))).set (DMA_CCTL_XCTX ch) 16
     (s.mayFetch ch = true) ∧ (s.ringFault ch = none) ∧ (s.descInHand ch (s.descAt ch h e t) = true) ∧ (Desc.own ((s.descAt ch h e
       t).w 0) = true) ∧ (extended ((s.descAt ch h e t).w 0) = true → Desc.own ((s.descAt ch h e t).x 0) = true) ∧ (s.descOk ch
       (s.descAt ch h e t) = true) ∧ ((s.descAt ch h e t).total ≠ 0) ∧ (s.tableFault ch (s.descAt ch h e t) = some f)) ∧
    (let b : State := runState
     let ch : Fin 32 := 31
     let h : List Word := [0x80000000, 64, 0x1000, 0, 0x2000, 0, 0, 0]
     let e : List Word := []
     let t : List Word := []
     let s : State := ((((b.setWord ⟨.DMA_CCTL, ch, 0, 0⟩ 0x06001007).set (DMA_STAT_STATE ch) chIdle).set (DMA_STAT_CIDX ch)
       0).modDma ch (fun _ => { prod := 3 }))
     (s.mayFetch ch = true) ∧ (s.ringFault ch = none) ∧ (s.descInHand ch (s.descAt ch h e t) = true) ∧ (Desc.own ((s.descAt ch h e
       t).w 0) = true) ∧ (extended ((s.descAt ch h e t).w 0) = true → Desc.own ((s.descAt ch h e t).x 0) = true) ∧ (s.lineOf ch =
       none) ∧ (s.descOk ch (s.descAt ch h e t) = true) ∧ ((s.descAt ch h e t).total ≠ 0) ∧ (s.tableFault ch (s.descAt ch h e t) =
       none) ∧ ((s.dmaOf ch).reqs = [])) ∧
    (let b : State := runState
     let ch : Fin 32 := 31
     let d : Desc :=
       { ({ words := [0x80000000, 64, 0x1000, 0, 0x2000, 0, 0, 0], idx := 0, total := 64, granted := 64 } : Desc) with granted := 0 }
     let s : State := { b with dma := State.reset.dma } |>.setWord ⟨.DMA_CCTL, ch, 0, 0⟩ 0x06001007 |>.set (DMA_STAT_STATE ch)
       chActive |>.modDma ch (fun _ => { cur := some d })
     (s.arbiter = some ch.val) ∧ (s.inFlight < 32) ∧ ((s.dmaOf ch).cur = some d) ∧ (s.lineOf ch = none)) ∧
    (let b : State := runState
     let s : State := { b with dma := State.reset.dma }
     (s.arbiter = none)) ∧
    (let b : State := runState
     let ch : Fin 32 := 31
     let d : Desc :=
       { ({ words := [0x80000000, 64, 0x1000, 0, 0x2000, 0, 0, 0], idx := 0, total := 64, granted := 64 } : Desc) with total := 100 }
     let k : Burst := { off := 64, len := 32 }
     let s : State := (((b.setWord ⟨.DMA_CCTL, ch, 0, 0⟩ 0x06001007).set (DMA_STAT_STATE ch) chActive).set (DMA_STAT_CIDX ch)
       0).modDma ch (fun _ => { cur := some d, bursts := [k] })
     (s.lineOf ch = none) ∧ (s.hostOwned ch = true) ∧ ((s.dmaOf ch).cur = some d) ∧ ((s.dmaOf ch).abort = none) ∧ (s.chState ch =
       chActive) ∧ (d.pat = 0) ∧ (d.shuf = 0) ∧ (d.base false < 2 ^ 48) ∧ (d.base true < 2 ^ 48) ∧ ((s.dmaOf ch).bursts = [k]) ∧
       (k.need = []) ∧ (k.bad = none) ∧ (k.data = none) ∧ (k.off + k.len < d.total) ∧ (0 < k.len) ∧ (d.base true + d.total ≤ 2 ^ 48)) ∧
    (let b : State := runState
     let ch : Fin 32 := 31
     let d : Desc := ({ words := [0x80000000, 64, 0x1000, 0, 0x2000, 0, 0, 0], idx := 0, total := 64, granted := 64 } : Desc)
     let k : Burst := { off := 32, len := 32 }
     let s : State := (((b.setWord ⟨.DMA_CCTL, ch, 0, 0⟩ 0x06001007).set (DMA_STAT_STATE ch) chActive).set (DMA_STAT_CIDX ch)
       0).modDma ch (fun _ => { cur := some d, bursts := [k] })
     (s.lineOf ch = none) ∧ (s.hostOwned ch = true) ∧ ((s.dmaOf ch).cur = some d) ∧ ((s.dmaOf ch).abort = none) ∧ (s.chState ch =
       chActive) ∧ (d.pat = 0) ∧ (d.shuf = 0) ∧ (d.base false < 2 ^ 48) ∧ (d.base true < 2 ^ 48) ∧ ((s.dmaOf ch).bursts = [k]) ∧
       (k.need = []) ∧ (k.bad = none) ∧ (k.data = none) ∧ (k.off + k.len = d.total) ∧ (0 < k.len) ∧ (d.bad = false) ∧ (extended (d.w
       0) = false)) ∧
    (let b : State := runState
     let ch : Fin 32 := 31
     let d : Desc := ({ words := [0x80000000, 64, 0x1000, 0, 0x2000, 0, 0, 0], idx := 0, total := 64, granted := 64 } : Desc)
     let f : XFault := { off := 32, cause := 4, addr := 7 }
     let k : Burst := { off := 32, len := 32, bad := some f }
     let l : List Burst := []
     let s : State := (((b.setWord ⟨.DMA_CCTL, ch, 0, 0⟩ 0x06001007).set (DMA_STAT_STATE ch) chActive).set (DMA_STAT_CIDX ch)
       0).modDma ch (fun _ => { cur := some d, bursts := k :: l })
     (s.lineOf ch = none) ∧ (s.hostOwned ch = true) ∧ ((s.dmaOf ch).cur = some d) ∧ ((s.dmaOf ch).abort = none) ∧ (s.chState ch =
       chActive) ∧ (d.pat = 0) ∧ (d.shuf = 0) ∧ (d.base false < 2 ^ 48) ∧ (d.base true < 2 ^ 48) ∧ ((s.dmaOf ch).bursts = k :: l) ∧
       (k.need = []) ∧ (k.bad = some f) ∧ (k.data = none) ∧ (f.off = k.off) ∧ (f.cause = 4)) ∧
    (let b : State := runState
     let ch : Fin 32 := 31
     let k : Fin 3 := 0
     let a : BitVec 48 := 0x1000
     let h : List Word := []
     let e : List Word := []
     let s : State := (((((b.setWord ⟨.DMA_CCTL, ch, 0, 0⟩ 0x06001007).set (DMA_STAT_STATE ch) chIdle).set (DMA_STAT_CIDX ch)
       0).modDma ch (fun _ => { prod := 3 }))).set (DMA_CCTL_XCTX ch) 15 |>.set (DMA_RBASE_LO_BASE ch) 1 |>.set (DMA_RBASE_HI_BASE
       ch) 0
     (s.mayFetch ch = true) ∧ (s.hostOwned ch = true) ∧ (s.get (DMA_CCTL_XCTX ch) < 16) ∧ (s.fetchAt ch k a.toNat (s.descAt ch h e
       []) = true) ∧ (s.translate (s.get (DMA_CCTL_XCTX ch)) (a.toNat / 4096) 0 ≠ some none)) :=
  by and_intros <;> decide

theorem test_hypotheses_DatuWalksAndInvalidation :
    (let b : State := runState
     let x : Fin 16 := 15
     let a : BitVec 48 := 0x123456789ABC
     let k : Fin 3 := 1
     let e : BitVec 64 := 0
     let z : BitVec 52 := BitVec.ofNat 52 (4096 * (b.get (DATU_ROOT_LO_ROOT x) + 2 ^ 20 * b.get (DATU_ROOT_HI_ROOT x)) + 8 *
       (a.toNat / 2 ^ 39))
     let s : State := { b with walks := [], iotlb := [] }.set (DATU_CCTL_EN x) 1
     (s.on (DATU_CCTL_EN x) = true) ∧ (s.tlbFind x (a.toNat / 4096) = none) ∧ ((∀ v ∈ s.walks, ¬(v.host = true ∧ v.ctx = x.val ∧
       v.page = a.toNat / 4096 ∧ v.kind = k.val))) ∧
       (({ host := true, ctx := x.val, page := a.toNat / 4096, kind := k.val, level := 4, base := 4096 * (s.get (DATU_ROOT_LO_ROOT x) + 2 ^ 20 * s.get (DATU_ROOT_HI_ROOT x)) }
       : Walk).entry a.toNat = z.toNat) ∧ (bitOf e.toNat 0 = false)) ∧
    (let b : State := runState
     let x : Fin 16 := 15
     let a : BitVec 48 := 0x123456789ABC
     let k : Fin 3 := 1
     let e : BitVec 64 := 0x5001
     let z : BitVec 52 := BitVec.ofNat 52 (4096 * (b.get (DATU_ROOT_LO_ROOT x) + 2 ^ 20 * b.get (DATU_ROOT_HI_ROOT x)) + 8 *
       (a.toNat / 2 ^ 39))
     let s : State := { b with walks := [], iotlb := [] }.set (DATU_CCTL_EN x) 1
     (s.on (DATU_CCTL_EN x) = true) ∧ (s.tlbFind x (a.toNat / 4096) = none) ∧ ((∀ v ∈ s.walks, ¬(v.host = true ∧ v.ctx = x.val ∧
       v.page = a.toNat / 4096 ∧ v.kind = k.val))) ∧
       (({ host := true, ctx := x.val, page := a.toNat / 4096, kind := k.val, level := 4, base := 4096 * (s.get (DATU_ROOT_LO_ROOT x) + 2 ^ 20 * s.get (DATU_ROOT_HI_ROOT x)) }
       : Walk).entry a.toNat = z.toNat) ∧ (bitOf e.toNat 0 = true) ∧ (pteReserved e.toNat 4 = false)) ∧
    (let b : State := runState
     let x : Fin 16 := 15
     let a : BitVec 48 := 0x123456789ABC
     let e : BitVec 64 := 0x5003
     let w : Walk := { host := true, ctx := 15, page := 0x123456789, kind := 0, level := 1, base := 0 }
     let z : BitVec 52 := 0xC48
     let s : State := { b with walks := [w], iotlb := [] }
     (s.walks = [w]) ∧ (w.host = true) ∧ (w.ctx = x.val) ∧ (w.page = a.toNat / 4096) ∧ (w.kind = 0) ∧ (w.level = 1) ∧ (w.entry
       a.toNat = z.toNat) ∧ (bitOf e.toNat 0 = true) ∧ (bitOf e.toNat 1 = true) ∧ (pteReserved e.toNat 1 = false) ∧ (s.iotlb.length
       < 256)) ∧
    (let b : State := runState
     let x : Fin 16 := 15
     let a : BitVec 48 := 0x123456789ABC
     let k : Fin 3 := 1
     let z : BitVec 52 := 4
     let s : State := { b with walks := [], iotlb := [] }.set (DATU_CCTL_EN x) 1
     (s.on (DATU_CCTL_EN x) = true) ∧ (s.tlbFind x (a.toNat / 4096) = none) ∧ ((∀ v ∈ s.walks, ¬(v.host = true ∧ v.ctx = x.val ∧
       v.page = a.toNat / 4096 ∧ v.kind = k.val))) ∧
       (({ host := true, ctx := x.val, page := a.toNat / 4096, kind := k.val, level := 4, base := 4096 * (s.get (DATU_ROOT_LO_ROOT x) + 2 ^ 20 * s.get (DATU_ROOT_HI_ROOT x)) }
       : Walk).entry a.toNat ≠ z.toNat)) ∧
    (let b : State := runState
     let p : Path := .host
     let w : Word := 0x52
     let s : State := b.set DATU_STAT_INV_BUSY 0
     (s.takesWrite p ⟨.DATU_INV, 0, 0, 0⟩ (wordSet w 0 1 1))) ∧
    (let b : State := runState
     let x : Nat := 3
     let g : Nat := 9
     let s : State := { b with inv := some (0, x, g), walks := [] }
     (s.inv = some (0, x, g)) ∧ (s.walks = [])) ∧
    (let b : State := runState
     let x : Nat := 3
     let g : Nat := 9
     let s : State := { b with inv := some (1, x, g), walks := [] }
     (s.inv = some (1, x, g)) ∧ (s.walks = [])) ∧
    (let b : State := runState
     let x : Nat := 3
     let g : Nat := 9
     let s : State := { b with inv := some (0, x, g), walks := [⟨true, 0, 0, 0, 4, 0⟩] }
     (s.inv = some (0, x, g)) ∧ (s.walks ≠ [])) :=
  by and_intros <;> decide

theorem test_hypotheses_LinkPortsTrainRiseAndFall :
    (let b : State := runState
     let p : Path := .host
     let k : Fin 4 := 3
     let w : Word := 0
     let s : State := b
     (s.takesWrite p ⟨.LNK_CTL, k, 0, 0⟩ (wordSet w 0 1 1)) ∧ (s.lnkState k = lnkDisabled)) ∧
    (let b : State := runState
     let p : Path := .host
     let k : Fin 4 := 3
     let w : Word := 0
     let s : State := (((b.setWord ⟨.LNK_CTL, k, 0, 0⟩ 1).set (LNK_STAT_STATE k) lnkTraining).modLnk k (fun _ => { good := 64 }))
     (s.takesWrite p ⟨.LNK_CTL, k, 0, 0⟩ (wordSet w 0 1 0)) ∧ (s.lnkState k = lnkTraining)) ∧
    (let b : State := runState
     let p : Path := .host
     let k : Fin 4 := 3
     let w : Word := 0
     let s : State := (((b.setWord ⟨.LNK_CTL, k, 0, 0⟩ 1).set (LNK_STAT_STATE k) lnkUp).modLnk k (fun _ => { good := 64 }))
     (s.takesWrite p ⟨.LNK_CTL, k, 0, 0⟩ (wordSet w 0 1 0)) ∧ (s.lnkState k = lnkUp)) ∧
    (let b : State := runState
     let k : Fin 4 := 2
     let s : State := (((b.setWord ⟨.LNK_CTL, k, 0, 0⟩ 1).set (LNK_STAT_STATE k) lnkTraining).modLnk k (fun _ => { good := 64 }))
     (s.lnkState k = lnkTraining) ∧ ((s.lnkOf k).good = 64) ∧ (s.portPowered k = true) ∧ ((s.lnkOf k).tx = []) ∧ (s.isolated
       (dieOfPort k) = false)) ∧
    (let b : State := runState
     let k : Fin 4 := 2
     let s : State := (((b.setWord ⟨.LNK_CTL, k, 0, 0⟩ 1).set (LNK_STAT_STATE k) lnkTraining).modLnk k (fun _ => {}))
     (s.lnkState k ≠ lnkTraining ∨ (s.lnkOf k).good ≠ 64 ∨ s.portPowered k = false)) ∧
    (let b : State := runState
     let k : Fin 4 := 2
     let s : State := (((b.setWord ⟨.LNK_CTL, k, 0, 0⟩ 1).set (LNK_STAT_STATE k) lnkTraining).modLnk k (fun _ => { good := 64 }))
     (s.lnkState k = lnkTraining) ∧ ((s.lnkOf k).good = 64) ∧ (s.portPowered k = true) ∧ (s.isolated (dieOfPort k) = false)) ∧
    (let b : State := runState
     let k : Fin 4 := 2
     let s : State := (((b.setWord ⟨.LNK_CTL, k, 0, 0⟩ 1).set (LNK_STAT_STATE k) lnkTraining).modLnk k (fun _ => {}))
     (s.lnkState k ≠ lnkTraining ∨ (s.lnkOf k).good ≠ 64 ∨ s.portPowered k = false)) ∧
    (let b : State := runState
     let k : Fin 4 := 2
     let s : State := (((b.setWord ⟨.LNK_CTL, k, 0, 0⟩ 1).set (LNK_STAT_STATE k) lnkUp).modLnk k (fun _ => { good := 64 }))
     (s.lnkState k = lnkUp) ∧ (s.sysState = sysDetached) ∧ (s.on (LNK_STAT_FLOCK k) = false)) ∧
    (let b : State := runState
     let k : Fin 4 := 2
     let s : State := b
     (s.lnkState k ≠ lnkUp)) ∧
    (let b : State := runState
     let k : Fin 4 := 2
     let fofs : Word := 3
     let s : State := (((b.setWord ⟨.LNK_CTL, k, 0, 0⟩ 1).set (LNK_STAT_STATE k) lnkUp).modLnk k (fun _ =>
       { qualRun := 99 })).setWord ⟨.LNK_FQ, k, 0, 0⟩ 0x00640064
     (s.lnkState k = lnkUp) ∧ (s.isolated (dieOfPort k) = false) ∧ (withinLimit fofs.toInt (s.get (LNK_FQ_FTOL k)) = true) ∧ (s.on
       (LNK_STAT_FLOCK k) = false) ∧ (s.get (LNK_FQ_QUAL k) ≤ (s.lnkOf k).qualRun + 1) ∧ ((s.lnkOf k).qualRun < 65535)) ∧
    (let b : State := runState
     let k : Fin 4 := 2
     let fofs : Word := 1000000
     let s : State := ((((b.setWord ⟨.LNK_CTL, k, 0, 0⟩ 1).set (LNK_STAT_STATE k) lnkUp).modLnk k (fun _ =>
       { good := 64 })).setWord ⟨.LNK_FQ, k, 0, 0⟩ 0x00640001).set (LNK_STAT_FLOCK k) 1
     (s.lnkState k = lnkUp) ∧ (s.isolated (dieOfPort k) = false) ∧ (withinLimit fofs.toInt (s.get (LNK_FQ_FTOL k)) = false) ∧
       (s.on (LNK_STAT_FLOCK k) = true)) ∧
    (let b : State := runState
     let k : Fin 4 := 2
     let s : State := b
     (s.lnkState k = lnkDisabled)) :=
  by and_intros <;> decide

theorem test_hypotheses_LinkMarksTimeAndMessages :
    (let b : State := runState
     let k : Fin 4 := 1
     let ofs : BitVec 40 := 1000
     let s : State := ((((b.setWord ⟨.LNK_CTL, k, 0, 0⟩ 1).set (LNK_STAT_STATE k) lnkUp).modLnk k (fun _ => {})).setWord
       ⟨.LNK_EPOCH, 0, 0, 0⟩ 0x4040)
     (s.portUp k = true) ∧ (s.portEpoch k = true) ∧ (s.markSlot k ofs.toNat < 2 ^ s.get (LNK_MARK_RATE k)) ∧ ((s.lnkOf k).slot ≠
       some (s.markSlot k ofs.toNat))) ∧
    (let b : State := runState
     let k : Fin 4 := 1
     let ofs : BitVec 40 := 1000
     let s : State := ((((b.setWord ⟨.LNK_CTL, k, 0, 0⟩ 1).set (LNK_STAT_STATE k) lnkUp).modLnk k (fun _ =>
       { slot := some 0 })).setWord ⟨.LNK_EPOCH, 0, 0, 0⟩ 0x4040)
     (s.portUp k = true) ∧ (s.portEpoch k = true) ∧ ((s.lnkOf k).slot = some (s.markSlot k ofs.toNat))) ∧
    (let b : State := runState
     let k : Fin 4 := 1
     let s : State := (((b.setWord ⟨.LNK_CTL, k, 0, 0⟩ 1).set (LNK_STAT_STATE k) lnkUp).modLnk k (fun _ => { missing := 2 }))
     (s.portUp k = true) ∧ (s.portEpoch k = false)) ∧
    (let b : State := runState
     let k : Fin 4 := 1
     let s : State := ((((b.setWord ⟨.LNK_CTL, k, 0, 0⟩ 1).set (LNK_STAT_STATE k) lnkUp).modLnk k (fun _ => {})).setWord
       ⟨.LNK_EPOCH, 0, 0, 0⟩ 0x4040)
     (s.portUp k = true) ∧ (s.portEpoch k = true)) ∧
    (let b : State := runState
     let k : Fin 4 := 1
     let s : State := b
     (s.portUp k = false ∨ s.portEpoch k = false)) ∧
    (let b : State := runState
     let k : Fin 4 := 1
     let seq : Byte := 7
     let ofs : Nat := 5000
     let pofs : Nat := 100
     let parr : Nat := 9000
     let s : State := ((((b.setWord ⟨.LNK_CTL, k, 0, 0⟩ 1).set (LNK_STAT_STATE k) lnkUp).modLnk k (fun _ =>
       { own := some (7, 5000), peerMark := some (100, 9000) })).setWord ⟨.LNK_EPOCH, 0, 0, 0⟩ 0x4040).set (LNK_MARK_AVG k) 3
     ((s.lnkOf k).own = some (seq.toNat, ofs)) ∧ ((s.lnkOf k).peerMark = some (pofs, parr)) ∧ (s.portUp k = true) ∧ (s.portEpoch k
       = true) ∧ ((s.lnkOf k).cnt + 1 < 2 ^ s.get (LNK_MARK_AVG k))) ∧
    (let b : State := runState
     let k : Fin 4 := 1
     let seq : Byte := 7
     let ofs : Nat := 5000
     let pofs : Nat := 100
     let parr : Nat := 9000
     let s : State := ((((b.setWord ⟨.LNK_CTL, k, 0, 0⟩ 1).set (LNK_STAT_STATE k) lnkUp).modLnk k (fun _ =>
       { own := some (7, 5000), peerMark := some (100, 9000) })).setWord ⟨.LNK_EPOCH, 0, 0, 0⟩ 0x4040).set (LNK_MARK_AVG k) 0
     ((s.lnkOf k).own = some (seq.toNat, ofs)) ∧ ((s.lnkOf k).peerMark = some (pofs, parr)) ∧ (s.portUp k = true) ∧ (s.portEpoch k
       = true) ∧ (2 ^ s.get (LNK_MARK_AVG k) ≤ (s.lnkOf k).cnt + 1)) ∧
    (let b : State := runState
     let d : Fin 2 := 0
     let s : State := b.setWord ⟨.LNK_EPOCH, 0, 0, 0⟩ 0x4040
     (s.epochOk d = true) ∧ (d.val = s.get LNK_SYS_CTL_TIME_TRG / 2) ∧ (s.sys.todSet = none)) ∧
    (let b : State := runState
     let d : Fin 2 := 0
     let v : Nat := 1800000000
     let s : State := (b.setWord ⟨.LNK_EPOCH, 0, 0, 0⟩ 0x4040).modSys (fun x => { x with todSet := some 1800000000 })
     (s.epochOk d = true) ∧ (d.val = s.get LNK_SYS_CTL_TIME_TRG / 2) ∧ (s.sys.todSet = some v)) ∧
    (let b : State := runState
     let d : Fin 2 := 1
     let s : State := b
     (s.epochOk d = false)) ∧
    (let b : State := runState
     let d : Fin 2 := 1
     let s : State := b.setWord ⟨.LNK_EPOCH, 0, 0, 0⟩ 0x4040
     (s.epochOk d = true) ∧ (d.val ≠ s.get LNK_SYS_CTL_TIME_TRG / 2)) ∧
    (let b : State := runState
     let p : Path := .host
     let w : Word := 1
     let s : State := b.set LNK_SYS_STAT_STATE sysGm
     (s.takesWrite p ⟨.LNK_TOD_SET_HI, 0, 0, 0⟩ w)) ∧
    (let b : State := runState
     let k : Fin 4 := 1
     let s : State := ((((b.setWord ⟨.LNK_CTL, k, 0, 0⟩ 1).set (LNK_STAT_STATE k) lnkUp).modLnk k (fun _ => {})).setWord
       ⟨.LNK_EPOCH, 0, 0, 0⟩ 0x4040)
     (s.portUp k = true) ∧ (s.portEpoch k = true) ∧ ((s.lnkOf k).timeSent = false)) ∧
    (let b : State := runState
     let k : Fin 4 := 1
     let s : State := ((((b.setWord ⟨.LNK_CTL, k, 0, 0⟩ 1).set (LNK_STAT_STATE k) lnkUp).modLnk k (fun _ =>
       { timeSent := true })).setWord ⟨.LNK_EPOCH, 0, 0, 0⟩ 0x4040)
     ((s.lnkOf k).timeSent = true)) ∧
    (let b : State := runState
     let k : Fin 4 := 1
     let s : State := ((((((b.setWord ⟨.LNK_CTL, k, 0, 0⟩ 1).set (LNK_STAT_STATE k) lnkUp).modLnk k (fun _ => {})).setWord
       ⟨.LNK_EPOCH, 0, 0, 0⟩ 0x4040).set LNK_SYS_STAT_STATE sysJoined).set LNK_SYS_STAT_UPLINK 1).set LNK_SYS_STAT_UPL_VALID 1
     (s.portUp k = true) ∧ (s.sysState = sysJoined) ∧ (s.uplink = some k.val)) ∧
    (let b : State := runState
     let k : Fin 4 := 1
     let s : State := b
     (s.sysState ≠ sysJoined ∨ s.uplink ≠ some k.val)) ∧
    (let b : State := runState
     let k : Fin 4 := 1
     let line : BitVec 64 := BitVec.ofNat 64 (scramble 5 0x4D).2
     let s : State := ((((b.setWord ⟨.LNK_CTL, k, 0, 0⟩ 1).set (LNK_STAT_STATE k) lnkUp).modLnk k (fun _ =>
       { good := 3, rxLine := 5 })).setWord ⟨.LNK_EPOCH, 0, 0, 0⟩ 0x4040)
     (s.lnkState k ≠ lnkDisabled) ∧ (s.isolated (dieOfPort k) = false) ∧ (s.lnkState k ≠ lnkUp ∨ badHeaders ((s.lnkOf k).badHdr
       <<< 1) < 8) ∧ (crc8 (bytesAt (natBytes 8 (descramble (s.lnkOf k).rxLine.toNat line.toNat).2) 0 7) ≠ ((natBytes 8 (descramble
       (s.lnkOf k).rxLine.toNat line.toNat).2).getD 7 0).toNat) ∧ (((natBytes 8 (descramble (s.lnkOf k).rxLine.toNat
       line.toNat).2).getD 0 0).toNat = cellMark)) ∧
    (let b : State := runState
     let k : Fin 4 := 1
     let line : BitVec 64 := BitVec.ofNat 64 (scramble 5 (0x51 + 2 ^ 56 * crc8 (natBytes 7 0x51))).2
     let s : State := ((((b.setWord ⟨.LNK_CTL, k, 0, 0⟩ 1).set (LNK_STAT_STATE k) lnkUp).modLnk k (fun _ =>
       { good := 3, rxLine := 5 })).setWord ⟨.LNK_EPOCH, 0, 0, 0⟩ 0x4040)
     (s.lnkState k ≠ lnkDisabled) ∧ (s.isolated (dieOfPort k) = false) ∧ (crc8 (bytesAt (natBytes 8 (descramble (s.lnkOf
       k).rxLine.toNat line.toNat).2) 0 7) = ((natBytes 8 (descramble (s.lnkOf k).rxLine.toNat line.toNat).2).getD 7 0).toNat) ∧
       (((natBytes 8 (descramble (s.lnkOf k).rxLine.toNat line.toNat).2).getD 0 0).toNat = cellFirst) ∧ ((s.lnkOf k).cells = []) ∧
       ((s.lnkOf k).fwd = [])) ∧
    (let b : State := runState
     let k : Fin 4 := 1
     let p : BitVec 64 := BitVec.ofNat 64 (0x51 + 2 ^ 56 * crc8 (natBytes 7 0x51))
     let s : State := ((((b.setWord ⟨.LNK_CTL, k, 0, 0⟩ 1).set (LNK_STAT_STATE k) lnkUp).modLnk k (fun _ =>
       { good := 3, rxLine := 5 })).setWord ⟨.LNK_EPOCH, 0, 0, 0⟩ 0x4040)
     (s.lnkState k ≠ lnkDisabled) ∧ (s.isolated (dieOfPort k) = false) ∧ (crc8 (bytesAt (natBytes 8 p.toNat) 0 7) = ((natBytes 8
       p.toNat).getD 7 0).toNat) ∧ (((natBytes 8 p.toNat).getD 0 0).toNat = cellFirst) ∧ ((s.lnkOf k).cells = []) ∧ ((s.lnkOf k).fwd
       = [])) ∧
    (let b : State := runState
     let k : Fin 4 := 1
     let s : State := ((((b.setWord ⟨.LNK_CTL, k, 0, 0⟩ 1).set (LNK_STAT_STATE k) lnkUp).modLnk k (fun _ =>
       { good := 3 })).setWord ⟨.LNK_EPOCH, 0, 0, 0⟩ 0x4040)
     (s.lnkState k ≠ lnkDisabled) ∧ (s.isolated (dieOfPort k) = false)) ∧
    (let b : State := runState
     let k : Fin 4 := 1
     let h : BitVec 2 := 3
     let s : State := ((((b.setWord ⟨.LNK_CTL, k, 0, 0⟩ 1).set (LNK_STAT_STATE k) lnkUp).modLnk k (fun _ =>
       { good := 3, badHdr := 127 })).setWord ⟨.LNK_EPOCH, 0, 0, 0⟩ 0x4040)
     (s.lnkState k = lnkUp) ∧ (s.isolated (dieOfPort k) = false) ∧ (h = 0 ∨ h = 3) ∧ (8 ≤ badHeaders ((s.lnkOf k).badHdr <<< 1 |||
       1))) ∧
    (let b : State := runState
     let k : Fin 4 := 1
     let s : State := ((((b.setWord ⟨.LNK_CTL, k, 0, 0⟩ 1).set (LNK_STAT_STATE k) lnkUp).modLnk k (fun _ =>
       { whole := true, cells := ((List.range 4).map (fun i => bytesAt (message 0x02 0 allHubs 5 []) (6 * i) 6)) })).setWord
       ⟨.LNK_EPOCH, 0, 0, 0⟩ 0x4040)
     ((s.lnkOf k).whole = true) ∧ (treeKind ((s.lnkOf k).cells.flatten.getD 0 0).toNat = false) ∧ (messageGood (s.lnkOf
       k).cells.flatten = true)) ∧
    (let b : State := runState
     let k : Fin 4 := 1
     let s : State := ((((b.setWord ⟨.LNK_CTL, k, 0, 0⟩ 1).set (LNK_STAT_STATE k) lnkUp).modLnk k (fun _ =>
       { whole := true, cells := [[1, 0, 0, 0, 0, 0]] })).setWord ⟨.LNK_EPOCH, 0, 0, 0⟩ 0x4040)
     ((s.lnkOf k).whole = true) ∧ (treeKind ((s.lnkOf k).cells.flatten.getD 0 0).toNat = false) ∧ (messageGood (s.lnkOf
       k).cells.flatten = false)) ∧
    (let b : State := runState
     let k : Fin 4 := 1
     let s : State := ((((b.setWord ⟨.LNK_CTL, k, 0, 0⟩ 1).set (LNK_STAT_STATE k) lnkUp).modLnk k (fun _ =>
       { cells := [[1, 0, 0, 0, 0, 0]] })).setWord ⟨.LNK_EPOCH, 0, 0, 0⟩ 0x4040)
     ((s.lnkOf k).whole = false) ∧ ((s.lnkOf k).cells ≠ [])) ∧
    (let b : State := runState
     let k : Fin 4 := 1
     let s : State := ((((b.setWord ⟨.LNK_CTL, k, 0, 0⟩ 1).set (LNK_STAT_STATE k) lnkUp).modLnk k (fun _ =>
       { whole := true })).setWord ⟨.LNK_EPOCH, 0, 0, 0⟩ 0x4040)
     ((s.lnkOf k).whole = true)) :=
  by and_intros <;> decide

theorem test_hypotheses_SystemElection :
    (let b : State := runState
     let v : CmdVia := .ring
     let s : State := b
     (s.takesCmd v = true) ∧ (s.isolated dieC = false) ∧ (s.sysState = sysDetached)) ∧
    (let b : State := runState
     let v : CmdVia := .ring
     let s : State := (b.set LNK_SYS_STAT_STATE sysGm)
     (s.takesCmd v = true) ∧ (s.isolated dieC = false) ∧ (s.sysState ≠ sysDetached)) ∧
    (let b : State := runState
     let s : State := (b.set LNK_SYS_STAT_STATE sysListening).set LNK_SYS_CTL_CAND 1
     (s.sysState = sysListening) ∧ (s.bestOffer = none) ∧ (s.on LNK_SYS_CTL_CAND = true)) ∧
    (let b : State := runState
     let k : Nat := 1
     let o : Offer :=
       ({ gm := 1, prio1 := 1, prio2 := 1, cls := 0, seq := 5, hops := 2, lat := 100, ph := 10, blat := 1000, bph := 1000, fresh := true }
       : Offer)
     let s : State := (((b.set LNK_SYS_STAT_STATE sysListening).set (LNK_STAT_STATE 1) lnkUp).set (LNK_STAT_DVALID 1) 1).modLnk 1
       (fun _ =>
       { offer := some ({ gm := 1, prio1 := 1, prio2 := 1, cls := 0, seq := 5, hops := 2, lat := 100, ph := 10, blat := 1000, bph := 1000, fresh := true } : Offer) })
       |>.set LNK_SYS_CTL_CAND 0
     (s.sysState = sysListening) ∧ (s.bestOffer = some (k, o)) ∧ (s.on LNK_SYS_CTL_CAND = false)) ∧
    (let b : State := runState
     let s : State := (b.set LNK_SYS_STAT_STATE sysListening).set LNK_SYS_CTL_CAND 0
     (s.sysState = sysListening) ∧ (s.bestOffer = none) ∧ (s.on LNK_SYS_CTL_CAND = false)) ∧
    (let b : State := runState
     let s : State := ((b.set LNK_SYS_STAT_STATE sysGm)).set (LNK_STAT_STATE 2) lnkUp
     (s.sysState = sysGm)) ∧
    (let b : State := runState
     let s : State := b
     (s.sysState ≠ sysGm)) ∧
    (let b : State := runState
     let k : Fin 4 := 1
     let s : State := ((((b.setWord ⟨.LNK_CTL, k, 0, 0⟩ 1).set (LNK_STAT_STATE k) lnkUp).modLnk k (fun _ => {})).setWord
       ⟨.LNK_EPOCH, 0, 0, 0⟩ 0x4040)
     (s.portUp k = true) ∧ (s.sysState = sysDetached ∨ s.sysState = sysListening)) ∧
    (let b : State := runState
     let k : Fin 4 := 1
     let s : State := ((((b.setWord ⟨.LNK_CTL, k, 0, 0⟩ 1).set (LNK_STAT_STATE k) lnkUp).modLnk k (fun _ => {})).setWord
       ⟨.LNK_EPOCH, 0, 0, 0⟩ 0x4040)
     (s.portUp k = true) ∧ (s.sysState = sysDetached ∨ s.sysState = sysListening)) ∧
    (let b : State := runState
     let k : Fin 4 := 1
     let s : State := ((b.set LNK_SYS_STAT_STATE sysJoined).set (LNK_STAT_STATE 1) lnkUp).modLnk 1 (fun _ =>
       { offer := some ({ gm := 1, prio1 := 1, prio2 := 1, cls := 0, seq := 5, hops := 2, lat := 100, ph := 10, blat := 1000, bph := 1000, fresh := true } : Offer) })
     (s.sysState = sysJoined ∨ s.sysState = sysRefused) ∧ ((s.lnkOf k).offer ≠ none) ∧ ((s.modLnk k (fun x =>
       { x with offer := none })).bestOffer = none)) ∧
    (let b : State := runState
     let k : Fin 4 := 1
     let s : State := b
     ((s.lnkOf k).offer = none)) ∧
    (let b : State := runState
     let v : CmdVia := .mbx 3
     let s : State := (b.set LNK_SYS_STAT_STATE sysGm)
     (s.takesCmd v = true) ∧ (s.isolated dieC = false)) ∧
    (let b : State := runState
     let p : Path := .host
     let w : Word := 0
     let s : State := (b.set LNK_SYS_STAT_STATE sysGm).set LNK_SYS_CTL_JOIN 1
     (s.takesWrite p ⟨.LNK_SYS_CTL, 0, 0, 0⟩ (wordSet w 1 1 1))) :=
  by and_intros <;> decide

theorem test_hypotheses_RemoteAccessAndSystemEvents :
    (let b : State := runState
     let v : CmdVia := .ring
     let tag : BitVec 16 := 7
     let off : BitVec 20 := 0x40
     let s : State := (b.set LNK_SYS_STAT_STATE sysJoined)
     (s.takesCmd v = true) ∧ (s.isolated dieC = false) ∧ (tag ≠ 0) ∧ (s.groupBusy grpRemote = false) ∧ (off.toNat % 4 = 0) ∧
       (s.inTree = true)) ∧
    (let b : State := runState
     let v : CmdVia := .ring
     let tag : BitVec 16 := 0
     let s : State := (b.set LNK_SYS_STAT_STATE sysJoined)
     (s.takesCmd v = true) ∧ (s.isolated dieC = false) ∧ (tag = 0 ∨ s.groupBusy grpRemote = true)) ∧
    (let b : State := runState
     let v : CmdVia := .ring
     let tag : BitVec 16 := 7
     let off : BitVec 20 := 0x40
     let s : State := (b.set LNK_SYS_STAT_STATE sysJoined)
     (s.takesCmd v = true) ∧ (s.isolated dieC = false) ∧ (tag ≠ 0) ∧ (s.groupBusy grpRemote = false) ∧ (off.toNat % 4 = 0) ∧
       (s.inTree = true)) ∧
    (let b : State := runState
     let tag : BitVec 16 := 7
     let off : BitVec 20 := 0x40
     let s : State := b
     (s.takesCmd .ring = true) ∧ (s.isolated dieC = false) ∧ (tag ≠ 0) ∧ (s.groupBusy grpRemote = false) ∧ (off.toNat % 4 = 0) ∧
       (s.inTree = false)) ∧
    (let b : State := runState
     let p : Path := .host
     let w : Word := 0x32
     let s : State := (b.set LNK_SYS_STAT_STATE sysJoined)
     (s.takesWrite p ⟨.LNK_RMT_CTL, 0, 0, 0⟩ (wordSet w 0 1 1)) ∧ (wordGet w 2 1 = 0) ∧ (s.inTree = true)) ∧
    (let b : State := runState
     let k : Fin 4 := 1
     let write : Bool := false
     let tag : BitVec 16 := 7
     let a : RmtAcc := { tag := 7, write := false, n := 1 }
     let s : State := (((((((b.setWord ⟨.LNK_CTL, k, 0, 0⟩ 1).set (LNK_STAT_STATE k) lnkUp).modLnk k (fun _ => {})).setWord
       ⟨.LNK_EPOCH, 0, 0, 0⟩ 0x4040).set LNK_SYS_STAT_STATE sysJoined).set (LNK_STAT_ROLE k) roleUplink)).modSys (fun x =>
       { x with regAcc := some { tag := 7, write := false, n := 1 } })
     (s.treePort k = true) ∧ (s.sys.cmdAcc = none) ∧ (s.sys.regAcc = some a) ∧ (a.tag = tag.toNat) ∧ (a.write = write)) ∧
    (let b : State := runState
     let k : Fin 4 := 1
     let s : State := (((((((b.setWord ⟨.LNK_CTL, k, 0, 0⟩ 1).set (LNK_STAT_STATE k) lnkUp).modLnk k (fun _ => {})).setWord
       ⟨.LNK_EPOCH, 0, 0, 0⟩ 0x4040).set LNK_SYS_STAT_STATE sysJoined).set (LNK_STAT_ROLE k) roleUplink))
     (s.treePort k = true) ∧ (s.sys.cmdAcc = none) ∧ (s.sys.regAcc = none)) ∧
    (let b : State := runState
     let k : Fin 4 := 1
     let tag : BitVec 16 := 7
     let a : RmtAcc := { tag := 7, write := false, n := 1 }
     let s : State := ((((((((b.setWord ⟨.LNK_CTL, k, 0, 0⟩ 1).set (LNK_STAT_STATE k) lnkUp).modLnk k (fun _ => {})).setWord
       ⟨.LNK_EPOCH, 0, 0, 0⟩ 0x4040).set LNK_SYS_STAT_STATE sysJoined).set (LNK_STAT_ROLE k) roleUplink)).modSys (fun x =>
       { x with cmdAcc := some { tag := 7, write := false, n := 1 } })).modDefer grpRemote (fun _ =>
       { state := 1, opcode := 0x52, tag := 7, mbx := true })
     (s.treePort k = true) ∧ (s.sys.cmdAcc = some a) ∧ (a.tag = tag.toNat) ∧ (a.write = false) ∧ (s.groupBusy grpRemote = true) ∧
       ((s.deferOf grpRemote).mbx = true) ∧ ((s.deferOf grpRemote).orphan = false) ∧ ((s.deferOf grpRemote).ptr / 4 + a.n ≤ 16)) ∧
    (let b : State := runState
     let k : Fin 4 := 1
     let tag : BitVec 16 := 7
     let a : RmtAcc := { tag := 7, write := true, n := 1 }
     let s : State := ((((((((b.setWord ⟨.LNK_CTL, k, 0, 0⟩ 1).set (LNK_STAT_STATE k) lnkUp).modLnk k (fun _ => {})).setWord
       ⟨.LNK_EPOCH, 0, 0, 0⟩ 0x4040).set LNK_SYS_STAT_STATE sysJoined).set (LNK_STAT_ROLE k) roleUplink)).modSys (fun x =>
       { x with cmdAcc := some { tag := 7, write := true, n := 1 } })).modDefer grpRemote (fun _ =>
       { state := 1, opcode := 0x53, tag := 7 })
     (s.treePort k = true) ∧ (s.sys.cmdAcc = some a) ∧ (a.tag = tag.toNat) ∧ (a.write = true) ∧ (s.groupBusy grpRemote = true) ∧
       ((s.deferOf grpRemote).mbx = false) ∧ ((s.deferOf grpRemote).orphan = false)) ∧
    (let b : State := runState
     let a : RmtAcc := { tag := 7, write := false, n := 1 }
     let s : State := b.modSys (fun x => { x with regAcc := some { tag := 7, write := false, n := 1 } })
     (s.sys.regAcc = some a)) ∧
    (let b : State := runState
     let a : RmtAcc := { tag := 7, write := false, n := 1 }
     let s : State := (b.modSys (fun x => { x with cmdAcc := some { tag := 7, write := false, n := 1 } })).modDefer grpRemote (fun
       _ => { state := 1, opcode := 0x52, tag := 7 })
     (s.sys.cmdAcc = some a) ∧ (s.groupBusy grpRemote = true) ∧ ((s.deferOf grpRemote).mbx = false) ∧ ((s.deferOf
       grpRemote).orphan = false)) ∧
    (let b : State := runState
     let k : Fin 4 := 1
     let tag : BitVec 16 := 7
     let src : BitVec 64 := 5
     let d : DupEnt := { src := 5, tag := 7, status := 0, na := 0, time := 0 }
     let s : State := (((((((b.setWord ⟨.LNK_CTL, k, 0, 0⟩ 1).set (LNK_STAT_STATE k) lnkUp).modLnk k (fun _ => {})).setWord
       ⟨.LNK_EPOCH, 0, 0, 0⟩ 0x4040).set LNK_SYS_STAT_STATE sysJoined).set (LNK_STAT_ROLE k) roleUplink)).modSys (fun x =>
       { x with dup := [{ src := 5, tag := 7, status := 0, na := 0, time := 0 }] })
     (s.treePort k = true) ∧ (s.active = true) ∧ (s.isolated dieC = false) ∧ (s.kept.find? (fun d => d.src = src.toNat && d.tag =
       tag.toNat) = some d)) ∧
    (let b : State := runState
     let k : Fin 4 := 1
     let s : State := (((((((b.setWord ⟨.LNK_CTL, k, 0, 0⟩ 1).set (LNK_STAT_STATE k) lnkUp).modLnk k (fun _ => {})).setWord
       ⟨.LNK_EPOCH, 0, 0, 0⟩ 0x4040).set LNK_SYS_STAT_STATE sysJoined).set (LNK_STAT_ROLE k) roleUplink)).set
       LNK_SYS_CTL_REMOTE_RD_EN 0
     (s.treePort k = true) ∧ (s.active = true) ∧ (s.isolated dieC = false) ∧ (s.on LNK_SYS_CTL_REMOTE_RD_EN = false)) ∧
    (let b : State := runState
     let k : Fin 4 := 1
     let off : Word := 0x40
     let n : Fin 16 := 0
     let s : State := (((((((b.setWord ⟨.LNK_CTL, k, 0, 0⟩ 1).set (LNK_STAT_STATE k) lnkUp).modLnk k (fun _ => {})).setWord
       ⟨.LNK_EPOCH, 0, 0, 0⟩ 0x4040).set LNK_SYS_STAT_STATE sysJoined).set (LNK_STAT_ROLE k) roleUplink)).set
       LNK_SYS_CTL_REMOTE_RD_EN 1
     (s.treePort k = true) ∧ (s.active = true) ∧ (s.isolated dieC = false) ∧ (s.on LNK_SYS_CTL_REMOTE_RD_EN = true) ∧ (off.toNat +
       4 * (n + 1) ≤ 2 ^ 20)) ∧
    (let b : State := runState
     let k : Fin 4 := 1
     let tag : BitVec 16 := 7
     let src : BitVec 64 := 5
     let off : Word := 0x10000
     let s : State := (((((((b.setWord ⟨.LNK_CTL, k, 0, 0⟩ 1).set (LNK_STAT_STATE k) lnkUp).modLnk k (fun _ => {})).setWord
       ⟨.LNK_EPOCH, 0, 0, 0⟩ 0x4040).set LNK_SYS_STAT_STATE sysJoined).set (LNK_STAT_ROLE k) roleUplink)).set
       LNK_SYS_CTL_REMOTE_WR_EN 1
     (s.treePort k = true) ∧ (s.active = true) ∧ (s.isolated dieC = false) ∧ (s.on LNK_SYS_CTL_REMOTE_WR_EN = true) ∧ (off.toNat +
       4 ≤ 2 ^ 20) ∧ (linkDenied off.toNat = false) ∧ ((s.kept.find? (fun d => d.src = src.toNat && d.tag = tag.toNat)) = none)) ∧
    (let b : State := runState
     let c : Fin 13 := 12
     let s : State := ((((b.set (LNK_STAT_STATE 1) lnkUp).set (LNK_STAT_ROLE 1) roleDownlink).set LNK_EVFWD_MASK 0x1FFF).set
       FLT_PKG_LATCH 0x1000)
     (s.bit LNK_EVFWD_MASK c = true) ∧ (s.bit FLT_PKG_LATCH c = true) ∧ ((∃ k : Fin 4, s.treePort k = true))) ∧
    (let b : State := runState
     let c : Fin 13 := 12
     let s : State := b
     (s.bit LNK_EVFWD_MASK c = false ∨ s.bit FLT_PKG_LATCH c = false)) ∧
    (let b : State := runState
     let p : Path := .host
     let w : Word := 0x80
     let s : State := ((b.set (LNK_STAT_STATE 1) lnkUp).set (LNK_STAT_ROLE 1) roleDownlink)
     (s.takesWrite p ⟨.LNK_SIGNAL, 0, 0, 0⟩ w) ∧ ((∃ k : Fin 4, s.treePort k = true))) ∧
    (let b : State := runState
     let k : Fin 4 := 1
     let code : Byte := 0x80
     let s : State := (((((((b.setWord ⟨.LNK_CTL, k, 0, 0⟩ 1).set (LNK_STAT_STATE k) lnkUp).modLnk k (fun _ => {})).setWord
       ⟨.LNK_EPOCH, 0, 0, 0⟩ 0x4040).set LNK_SYS_STAT_STATE sysJoined).set (LNK_STAT_ROLE k) roleUplink)).set LNK_SYS_CTL_EVRX_EN 1
     (s.treePort k = true) ∧ (128 ≤ code.toNat) ∧ (s.on LNK_SYS_CTL_EVRX_EN = true) ∧ ((bankGet s.rxq k.val).length < 16)) ∧
    (let b : State := runState
     let k : Fin 4 := 1
     let code : Byte := 12
     let s : State :=
       ({ (((((((b.setWord ⟨.LNK_CTL, k, 0, 0⟩ 1).set (LNK_STAT_STATE k) lnkUp).modLnk k (fun _ => {})).setWord ⟨.LNK_EPOCH, 0, 0, 0⟩ 0x4040).set LNK_SYS_STAT_STATE sysJoined).set (LNK_STAT_ROLE k) roleUplink)) with rxq := bankMod b.rxq 1 (fun _ => List.replicate 16 {}) }).set
       LNK_SYS_CTL_EVRX_EN 0
     (s.treePort k = true) ∧ (code.toNat ≤ 12) ∧ (s.on LNK_SYS_CTL_EVRX_EN = false) ∧ (16 ≤ (bankGet s.rxq k.val).length)) :=
  by and_intros <;> decide

theorem test_hypotheses_HostRingsCommandsAndPosts :
    (let b : State := runState
     let p : Path := .host
     let w : Word := 0
     let s : State := b
     (s.takesWrite p ⟨.HOST_WAKE, 0, 0, 0⟩ w) ∧ (s.rstate = rsRunning)) ∧
    (let b : State := runState
     let s : State := (b.set HOST_POLL_POLL_EN 1).modPkg (fun x => { x with loRuns := true })
     (s.rstate = rsRunning) ∧ (s.pkg_.loRuns = true) ∧ (s.on HOST_POLL_POLL_EN = true)) ∧
    (let b : State := runState
     let s : State := b.set HOST_POLL_POLL_EN 0
     (s.rstate ≠ rsRunning ∨ s.on HOST_POLL_POLL_EN = false ∨ s.pkg_.loRuns = false)) ∧
    (let b : State := runState
     let w0 : BitVec 64 := 0x500000003
     let w1 : BitVec 64 := 0
     let w2 : BitVec 64 := 0
     let s : State :=
       { (b.set (HOST_RING_CFG_SIZE 0) 4 |>.set (HOST_RING_CFG_SIZE 1) 4 |>.set (HOST_RING_CFG_SIZE 2) 4) with host := { b.host with reading := true, ring := bankMod (bankMod (bankMod b.host.ring 0 (fun x => { x with tag := some 4 })) 1 (fun x => { x with tag := some 0 })) 2 (fun x => { x with tag := some 0 }) } }
     (s.rstate = rsRunning) ∧ (s.host.reading = true) ∧ ((s.ringOf 1).tag = some (w1.extractLsb' 32 32).toNat) ∧ ((s.ringOf 2).tag
       = some (w2.extractLsb' 32 32).toNat) ∧ ((s.ringOf 0).tag ≠ some (w0.extractLsb' 32 32).toNat) ∧ ((w0.extractLsb' 0 32).toNat
       < s.hostRingSize 0)) ∧
    (let b : State := runState
     let w0 : BitVec 64 := 0x500000010
     let w1 : BitVec 64 := 0
     let w2 : BitVec 64 := 0
     let s : State :=
       { (b.set (HOST_RING_CFG_SIZE 0) 4 |>.set (HOST_RING_CFG_SIZE 1) 4 |>.set (HOST_RING_CFG_SIZE 2) 4) with host := { b.host with reading := true, ring := bankMod (bankMod (bankMod b.host.ring 0 (fun x => { x with tag := some 4 })) 1 (fun x => { x with tag := some 0 })) 2 (fun x => { x with tag := some 0 }) } }
     (s.rstate = rsRunning) ∧ (s.host.reading = true) ∧ ((s.ringOf 1).tag = some (w1.extractLsb' 32 32).toNat) ∧ ((s.ringOf 2).tag
       = some (w2.extractLsb' 32 32).toNat) ∧ ((s.ringOf 0).tag ≠ some (w0.extractLsb' 32 32).toNat) ∧ (s.hostRingSize 0 ≤
       (w0.extractLsb' 0 32).toNat)) ∧
    (let b : State := runState
     let w0 : BitVec 64 := 0x400000000
     let w1 : BitVec 64 := 0
     let w2 : BitVec 64 := 0
     let s : State :=
       ({ (b.set (HOST_RING_CFG_SIZE 0) 4 |>.set (HOST_RING_CFG_SIZE 1) 4 |>.set (HOST_RING_CFG_SIZE 2) 4) with host := { b.host with reading := true, ring := bankMod (bankMod (bankMod b.host.ring 0 (fun x => { x with tag := some 4 })) 1 (fun x => { x with tag := some 0 })) 2 (fun x => { x with tag := some 0 }) } }).set
       HOST_POLL_CUR 64
     (s.rstate = rsRunning) ∧ (s.host.reading = true) ∧ ((s.ringOf 1).tag = some (w1.extractLsb' 32 32).toNat) ∧ ((s.ringOf 2).tag
       = some (w2.extractLsb' 32 32).toNat) ∧ ((s.ringOf 0).tag = some (w0.extractLsb' 32 32).toNat) ∧ (s.portBusy = false) ∧ (1 ≤
       s.get HOST_POLL_CUR) ∧ (s.get HOST_POLL_CUR ≤ 1000)) ∧
    (let b : State := runState
     let ws : List Word := ([0x80000000, 5] ++ List.replicate 13 0 ++ [crcWords ([0, 5] ++ List.replicate 13 0)])
     let s : State :=
       ({ (b.set (HOST_RING_CFG_SIZE 0) 4 |>.set (HOST_RING_CFG_SIZE 1) 4 |>.set (HOST_RING_CFG_SIZE 2) 4) with host := { b.host with stalled := false, ring := bankMod b.host.ring 0 (fun x => { x with idx := 3 }) } })
     (s.rstate = rsRunning) ∧ (s.active = true) ∧ (s.hubIdx 0 ≠ s.pubIdx 0) ∧ (s.cplRoom = true) ∧ (s.host.stalled = false) ∧
       (({ words := padWords 16 ws } : Cmd).own = true) ∧ (({ words := padWords 16 ws } : Cmd).crcGood = true) ∧
       (({ words := padWords 16 ws } : Cmd).formOk .ring = true) ∧ (({ words := padWords 16 ws } : Cmd).op = 0)) ∧
    (let b : State := runState
     let ws : List Word := [0x80000000, 5]
     let s : State :=
       ({ (b.set (HOST_RING_CFG_SIZE 0) 4 |>.set (HOST_RING_CFG_SIZE 1) 4 |>.set (HOST_RING_CFG_SIZE 2) 4) with host := { b.host with stalled := false, ring := bankMod b.host.ring 0 (fun x => { x with idx := 3 }) } })
     (s.rstate = rsRunning) ∧ (s.active = true) ∧ (s.hubIdx 0 ≠ s.pubIdx 0) ∧ (s.cplRoom = true) ∧ (s.host.stalled = false) ∧
       (({ words := padWords 16 ws } : Cmd).own = true) ∧ (({ words := padWords 16 ws } : Cmd).crcGood = false)) ∧
    (let b : State := runState
     let ws : List Word := ([0x80000003, 5] ++ List.replicate 13 0 ++ [crcWords ([3, 5] ++ List.replicate 13 0)])
     let s : State :=
       ({ (b.set (HOST_RING_CFG_SIZE 0) 4 |>.set (HOST_RING_CFG_SIZE 1) 4 |>.set (HOST_RING_CFG_SIZE 2) 4) with host := { b.host with stalled := false, ring := bankMod b.host.ring 0 (fun x => { x with idx := 3 }) } })
     (s.rstate = rsRunning) ∧ (s.active = true) ∧ (s.hubIdx 0 ≠ s.pubIdx 0) ∧ (s.cplRoom = true) ∧ (s.host.stalled = false) ∧
       (({ words := padWords 16 ws } : Cmd).own = true) ∧ (({ words := padWords 16 ws } : Cmd).crcGood = true) ∧
       (({ words := padWords 16 ws } : Cmd).formOk .ring = false)) ∧
    (let b : State := runState
     let s : State :=
       ({ (b.set (HOST_RING_CFG_SIZE 0) 4 |>.set (HOST_RING_CFG_SIZE 1) 4 |>.set (HOST_RING_CFG_SIZE 2) 4) with host := { b.host with stalled := true } })
     (s.hubIdx 0 = s.pubIdx 0 ∨ s.cplRoom = false ∨ s.host.stalled = true)) ∧
    (let b : State := runState
     let ws : List Word := [0, 5]
     let s : State :=
       ({ (b.set (HOST_RING_CFG_SIZE 0) 4 |>.set (HOST_RING_CFG_SIZE 1) 4 |>.set (HOST_RING_CFG_SIZE 2) 4) with host := { b.host with stalled := false, ring := bankMod b.host.ring 0 (fun x => { x with idx := 3 }) } })
     (s.rstate = rsRunning) ∧ (s.active = true) ∧ (s.hubIdx 0 ≠ s.pubIdx 0) ∧ (s.cplRoom = true) ∧ (s.host.stalled = false) ∧
       (({ words := padWords 16 ws } : Cmd).own = false)) ∧
    (let b : State := runState
     let v : CmdVia := .ring
     let s : State := b
     (s.takesCmd v = true)) ∧
    (let b : State := runState
     let k : Fin 4 := 3
     let s : State := b
     (s.takesCmd (.mbx k) = true)) ∧
    (let b : State := runState
     let k : Fin 4 := 3
     let s : State := b.set MGT_MBX_CTL_BUSY 1
     (s.mbxOpen k = true) ∧ (s.on MGT_MBX_CTL_BUSY = true)) ∧
    (let b : State := runState
     let k : Fin 4 := 3
     let s : State := b.set GLB_STATE_STATE pkgBoot
     (s.mbxOpen k = false)) ∧
    (let b : State := runState
     let c : Cpl := ({ idx := 3, status := 0, opcode := 0, tag := 5, result := 0, irq := false } : Cpl)
     let l : List Cpl := []
     let s : State :=
       ({ (b.set (HOST_RING_CFG_SIZE 0) 4 |>.set (HOST_RING_CFG_SIZE 1) 4 |>.set (HOST_RING_CFG_SIZE 2) 4) with host := { b.host with cplQ := [({ idx := 3, status := 0, opcode := 0, tag := 5, result := 0, irq := false } : Cpl)] } })
     (s.rstate = rsRunning) ∧ (s.host.cplQ = c :: l) ∧ (s.ringRoom 1 1 = true) ∧ (c.irq = false)) ∧
    (let b : State := runState
     let s : State := b
     (s.rstate ≠ rsRunning ∨ s.host.cplQ = [] ∨ s.ringRoom 1 1 = false)) ∧
    (let b : State := runState
     let e : EvtRec := ({ code := 0x0904, src := 0, seq := 1, time := 0, body := 0, dropped := 0 } : EvtRec)
     let l : List EvtRec := []
     let s : State :=
       ({ (b.set (HOST_RING_CFG_SIZE 0) 4 |>.set (HOST_RING_CFG_SIZE 1) 4 |>.set (HOST_RING_CFG_SIZE 2) 4) with evtFifo := [({ code := 0x0904, src := 0, seq := 1, time := 0, body := 0, dropped := 0 } : EvtRec)], evtFull := false }).set
       (HOST_RING_CFG_IRQ_EN 2) 0
     (s.rstate = rsRunning) ∧ (s.evtFifo = e :: l) ∧ (s.ringRoom 2 1 = true) ∧ (s.on (HOST_RING_CFG_IRQ_EN 2) = false) ∧
       (s.evtFull = false)) ∧
    (let b : State := runState
     let e : EvtRec := ({ code := 0x0904, src := 0, seq := 1, time := 0, body := 0, dropped := 0 } : EvtRec)
     let l : List EvtRec := []
     let w : Option (BitVec 3) := none
     let s : State :=
       ({ (b.set (HOST_RING_CFG_SIZE 0) 4 |>.set (HOST_RING_CFG_SIZE 1) 4 |>.set (HOST_RING_CFG_SIZE 2) 4) with evtFifo := [({ code := 0x0904, src := 0, seq := 1, time := 0, body := 0, dropped := 0 } : EvtRec)], evtFull := true })
     (s.rstate = rsRunning) ∧ (s.evtFifo = e :: l) ∧ (s.ringRoom 2 1 = true) ∧ (s.evtFull = true) ∧ (l.length < evtCapacity) ∧ (w
       = none)) ∧
    (let b : State := runState
     let e : EvtRec := ({ code := 0x0904, src := 0, seq := 1, time := 0, body := 0, dropped := 0 } : EvtRec)
     let l : List EvtRec := []
     let s : State :=
       ({ (b.set (HOST_RING_CFG_SIZE 0) 4 |>.set (HOST_RING_CFG_SIZE 1) 4 |>.set (HOST_RING_CFG_SIZE 2) 4) with evtFifo := [({ code := 0x0904, src := 0, seq := 1, time := 0, body := 0, dropped := 0 } : EvtRec)] }).set
       (HOST_RING_CFG_IRQ_EN 2) 0
     (s.rstate = rsRunning) ∧ (s.evtFifo = e :: l) ∧ (s.ringRoom 2 1 = true) ∧ (s.on (HOST_RING_CFG_IRQ_EN 2) = false)) ∧
    (let b : State := runState
     let s : State := b
     (s.evtFifo = [] ∨ s.rstate ≠ rsRunning ∨ s.ringRoom 2 1 = false)) :=
  by and_intros <;> decide

theorem test_hypotheses_HostPortStates :
    (let b : State := runState
     let s : State := (b.set (HOST_RING_CFG_SIZE 0) 4 |>.set (HOST_RING_CFG_SIZE 1) 4 |>.set (HOST_RING_CFG_SIZE 2) 4)
     (s.takesCmd .ring = true)) ∧
    (let b : State := runState
     let k : Fin 4 := 3
     let s : State := b
     (s.takesCmd (.mbx k) = true)) ∧
    (let b : State := runState
     let p : Path := .host
     let w : Word := 0x5EED
     let s : State := (b.set (HOST_RING_CFG_SIZE 0) 4 |>.set (HOST_RING_CFG_SIZE 1) 4 |>.set (HOST_RING_CFG_SIZE 2) 4)
     (s.takesWrite p ⟨.HOST_RESYNC, 0, 0, 0⟩ w)) ∧
    (let b : State := runState
     let s : State := b.set HOST_STAT_RSTATE rsStopping
     (s.rstate = rsStopping) ∧ (s.inFlight = 0)) ∧
    (let b : State := runState
     let s : State := b
     (s.rstate ≠ rsStopping ∨ s.inFlight ≠ 0)) ∧
    (let b : State := runState
     let s : State := ((b.set HOST_STAT_RSTATE rsSummary).set HOST_XLAT_XCTX 16)
     (s.rstate = rsSummary) ∧ (s.hostFault (4096 * s.get HOST_SUMMARY_ADDR_LO_ADDR + 2 ^ 32 * s.get HOST_SUMMARY_ADDR_HI_ADDR)
       8192 1 false = false)) ∧
    (let b : State := runState
     let s : State := ({ ((b.set HOST_STAT_RSTATE rsSummary).set HOST_XLAT_XCTX 3).set (DATU_CCTL_EN 3) 1 with iotlb := [] })
     (s.rstate = rsSummary) ∧ (s.hostFault (4096 * s.get HOST_SUMMARY_ADDR_LO_ADDR + 2 ^ 32 * s.get HOST_SUMMARY_ADDR_HI_ADDR)
       8192 1 true = true)) ∧
    (let b : State := runState
     let s : State := b
     (s.rstate ≠ rsSummary)) ∧
    (let b : State := runState
     let p : Path := .host
     let q : Fin 3 := 2
     let w : Word := 0x40
     let s : State := (((((b.set HOST_STAT_RSTATE rsDisarmed).set HOST_MODE_MODE 1).set (HOST_RING_CFG_EN 0) 1).set
       (HOST_RING_CFG_EN 1) 1).set (HOST_RING_CFG_EN 2) 0).set (HOST_RING_CFG_SIZE 2) 4 |>.set (HOST_RING_CFG_SIZE 1) 4 |>.set
       (HOST_RING_CFG_SIZE 0) 4
     (s.takesWrite p ⟨.HOST_RING_CFG, q, 0, 0⟩ (wordSet w 0 1 1)) ∧ ((∀ j : Fin 3, j = q ∨ s.on (HOST_RING_CFG_EN j) = true)) ∧
       (s.rstate = rsWaitArm ∨ s.on HOST_MODE_MODE = true)) ∧
    (let b : State := runState
     let p : Path := .host
     let q : Fin 3 := 2
     let j : Fin 3 := 1
     let w : Word := 0x40
     let s : State := (((((b.set HOST_STAT_RSTATE rsDisarmed).set HOST_MODE_MODE 1).set (HOST_RING_CFG_EN 0) 1).set
       (HOST_RING_CFG_EN 1) 1).set (HOST_RING_CFG_EN 2) 0).set (HOST_RING_CFG_SIZE 2) 4 |>.set (HOST_RING_CFG_SIZE 1) 4 |>.set
       (HOST_RING_CFG_SIZE 0) 4|>.set (HOST_RING_CFG_EN 1) 0
     (s.takesWrite p ⟨.HOST_RING_CFG, q, 0, 0⟩ (wordSet w 0 1 1)) ∧ (j ≠ q) ∧ (s.on (HOST_RING_CFG_EN j) = false)) ∧
    (let b : State := runState
     let p : Path := .host
     let w : Word := 0
     let s : State := (b.set HOST_MODE_MODE 0).set MGT_CFG_PROMOTE_EN 1
     (s.takesWrite p ⟨.HOST_MODE, 0, 0, 0⟩ (wordSet w 8 1 1))) ∧
    (let b : State := runState
     let s : State := { b with host := { link := true } }
     (s.host.link = true) ∧ (RegsWf s.regs)) ∧
    (let b : State := runState
     let s : State := { b with host := {} }
     (s.host.link = false)) ∧
    (let b : State := runState
     let rate : BitVec 3 := 5
     let width : BitVec 3 := 4
     let s : State := ({ b with host := { ids := some (1, 2) }, pkg_ := {} }).set HOST_STAT_LINK_UP 0
     (s.active = true ∨ s.pkg = pkgBoot) ∧ (s.host.ids.isSome = true) ∧ (s.pkg_.supplyOut / 2 ^ 7 % 4 = 0) ∧ (s.on
       HOST_STAT_LINK_UP = false) ∧ (1 ≤ rate.toNat) ∧ (rate.toNat ≤ 5) ∧ (width = 1 ∨ width = 2 ∨ width = 4)) :=
  by and_intros <;> decide

theorem test_hypotheses_PmbusWrites :
    (let b : State := runState
     let c : Byte := 23
     let s : State := (b.set MGT_PMB_CFG_EN 1 |>.set MGT_CFG_WR_LOCK 0)
     (s.pathOpen .pmb true = true) ∧ (writeProtected (s.get MGT_PMB_STAT_WP) 0x00 = false) ∧ (c.toNat ≤ 23 ∨ c.toNat = 255)) ∧
    (let b : State := runState
     let c : Byte := 24
     let s : State := (b.set MGT_PMB_CFG_EN 1 |>.set MGT_CFG_WR_LOCK 0)
     (s.pathOpen .pmb true = true) ∧ (writeProtected (s.get MGT_PMB_STAT_WP) 0x00 = false) ∧ (23 < c.toNat) ∧ (c.toNat ≠ 255)) ∧
    (let b : State := runState
     let s : State := (b.set MGT_PMB_CFG_EN 1 |>.set MGT_CFG_WR_LOCK 0)
     (s.pathOpen .pmb true = true)) ∧
    (let b : State := runState
     let s : State := (b.set MGT_PMB_CFG_EN 1 |>.set MGT_CFG_WR_LOCK 0).set MGT_PMB_STAT_WP 0x80
     (s.pathOpen .pmb true = true) ∧ (s.get MGT_PMB_STAT_WP = 0x80)) ∧
    (let b : State := runState
     let r : Fin 24 := 17
     let c : Byte := 0x80
     let s : State := ((b.set MGT_PMB_CFG_EN 1 |>.set MGT_CFG_WR_LOCK 0) |>.set MGT_PMB_STAT_PAGE 17 |>.set (PRG_PH_RAIL 48) 5
       |>.setWord (prgReg .PRG_RCTL 17) 0xC)
     (s.pathOpen .pmb true = true) ∧ (writeProtected (s.get MGT_PMB_STAT_WP) 0x01 = false) ∧ (s.pmbLocked 0x01 = false) ∧ (pmbPage
       s = r.val) ∧ (c = 0x80) ∧ (s.takesWrite .pmb (prgReg .PRG_RCTL r) (wordSet (s.word (prgReg .PRG_RCTL r)) 0 1 (1)))) ∧
    (let b : State := runState
     let r : Fin 24 := 17
     let s : State := ((b.set MGT_PMB_CFG_EN 1 |>.set MGT_CFG_WR_LOCK 0) |>.set MGT_PMB_STAT_PAGE 17)
     (s.pathOpen .pmb true = true) ∧ (writeProtected (s.get MGT_PMB_STAT_WP) 0x01 = false) ∧ (s.pmbLocked 0x01 = false) ∧ (pmbPage
       s = r.val) ∧ (s.takesWrite .pmb (prgReg .PRG_RCTL r) (wordSet (wordSet (s.word (prgReg .PRG_RCTL r)) 0 1 0) 1 1 0))) ∧
    (let b : State := runState
     let c : Byte := 0x18
     let s : State := (b.set MGT_PMB_CFG_EN 1 |>.set MGT_CFG_WR_LOCK 0)
     (s.pathOpen .pmb true = true) ∧ (writeProtected (s.get MGT_PMB_STAT_WP) 0x02 = false) ∧ (s.pmbLocked 0x02 = false) ∧ (c =
       0x18)) ∧
    (let b : State := runState
     let r : Fin 24 := 17
     let s : State := ((b.set MGT_PMB_CFG_EN 1 |>.set MGT_CFG_WR_LOCK 0) |>.set MGT_PMB_STAT_PAGE 17)
     (s.pathOpen .pmb true = true) ∧ (writeProtected (s.get MGT_PMB_STAT_WP) 0x03 = false) ∧ (s.pmbLocked 0x03 = false) ∧ (pmbPage
       s = r.val) ∧ (s.takesWrite .pmb ⟨.FLT_RSTAT, r, 0, 0⟩ 15)) ∧
    (let b : State := runState
     let c : Byte := 0x40
     let s : State := (b.set MGT_PMB_CFG_EN 1 |>.set MGT_CFG_WR_LOCK 0)
     (s.pathOpen .pmb true = true) ∧ (writeProtected (s.get MGT_PMB_STAT_WP) 0x10 = false) ∧ (s.pmbLocked 0x10 = false) ∧ (c =
       0x80 ∨ c = 0x40 ∨ c = 0x20 ∨ c = 0x00)) ∧
    (let b : State := runState
     let r : Fin 24 := 17
     let c : BitVec 16 := 4096
     let s : State := ((b.set MGT_PMB_CFG_EN 1 |>.set MGT_CFG_WR_LOCK 0) |>.set MGT_PMB_STAT_PAGE 17)
     (s.pathOpen .pmb true = true) ∧ (writeProtected (s.get MGT_PMB_STAT_WP) 0x21 = false) ∧ (s.pmbLocked 0x21 = false) ∧ (pmbPage
       s = r.val) ∧ (1024 ≤ c.toNat) ∧ (1000 * c.toNat ≤ 3600 * 4096) ∧ (s.takesWrite .pmb (prgReg .PRG_VID r) (wordSet (s.word
       (prgReg .PRG_VID r)) 0 12 (roundDiv (25 * c.toNat) 128 - 200)))) ∧
    (let b : State := runState
     let r : Fin 24 := 17
     let c : BitVec 16 := 20
     let s : State := ((b.set MGT_PMB_CFG_EN 1 |>.set MGT_CFG_WR_LOCK 0) |>.set MGT_PMB_STAT_PAGE 17)
     (s.pathOpen .pmb true = true) ∧ (writeProtected (s.get MGT_PMB_STAT_WP) 0x27 = false) ∧ (s.pmbLocked 0x27 = false) ∧ (pmbPage
       s = r.val) ∧ (1 ≤ lin11Times c.toNat 4) ∧ (lin11Times c.toNat 4 ≤ 200) ∧ (s.takesWrite .pmb (prgReg .PRG_SLEW r) (wordSet
       (s.word (prgReg .PRG_SLEW r)) 0 8 ((lin11Times c.toNat 4).toNat)))) ∧
    (let b : State := runState
     let r : Fin 24 := 17
     let c : BitVec 16 := 1000
     let v : Int := 6400
     let s : State := ((b.set MGT_PMB_CFG_EN 1 |>.set MGT_CFG_WR_LOCK 0) |>.set MGT_PMB_STAT_PAGE 17)
     (s.pathOpen .pmb true = true) ∧ (writeProtected (s.get MGT_PMB_STAT_WP) 0x33 = false) ∧ (s.pmbLocked 0x33 = false) ∧ (pmbPage
       s = r.val) ∧ (lin11Under c.toNat 6400000 = some v) ∧ (1600 ≤ v) ∧ (v ≤ 25600) ∧ (s.takesWrite .pmb (prgReg .PRG_FSW r)
       (wordSet (s.word (prgReg .PRG_FSW r)) 0 15 v.toNat))) ∧
    (let b : State := runState
     let r : Fin 24 := 17
     let c : BitVec 16 := 5000
     let s : State := ((b.set MGT_PMB_CFG_EN 1 |>.set MGT_CFG_WR_LOCK 0) |>.set MGT_PMB_STAT_PAGE 17)
     (s.pathOpen .pmb true = true) ∧ (writeProtected (s.get MGT_PMB_STAT_WP) 0x40 = false) ∧ (s.pmbLocked 0x40 = false) ∧ (pmbPage
       s = r.val) ∧ (1 ≤ roundDiv (125 * c.toNat) 2048) ∧ (roundDiv (125 * c.toNat) 2048 ≤ 1023) ∧ (s.takesWrite .pmb ⟨.FLT_OV, r,
       0, 0⟩ (wordSet (wordSet (s.word ⟨.FLT_OV, r, 0, 0⟩) 0 10 (roundDiv (125 * c.toNat) 2048)) 10 1 0))) ∧
    (let b : State := runState
     let r : Fin 24 := 17
     let c : BitVec 16 := 5000
     let s : State := ((b.set MGT_PMB_CFG_EN 1 |>.set MGT_CFG_WR_LOCK 0) |>.set MGT_PMB_STAT_PAGE 17)
     (s.pathOpen .pmb true = true) ∧ (writeProtected (s.get MGT_PMB_STAT_WP) 0x44 = false) ∧ (s.pmbLocked 0x44 = false) ∧ (pmbPage
       s = r.val) ∧ (1 ≤ roundDiv (125 * c.toNat) 2048) ∧ (roundDiv (125 * c.toNat) 2048 ≤ 1023) ∧ (s.takesWrite .pmb ⟨.FLT_UV, r,
       0, 0⟩ (wordSet (wordSet (s.word ⟨.FLT_UV, r, 0, 0⟩) 0 10 (roundDiv (125 * c.toNat) 2048)) 10 1 0))) ∧
    (let b : State := runState
     let r : Fin 24 := 17
     let c : Byte := 0x98
     let s : State := ((b.set MGT_PMB_CFG_EN 1 |>.set MGT_CFG_WR_LOCK 0) |>.set MGT_PMB_STAT_PAGE 17)
     (s.pathOpen .pmb true = true) ∧ (writeProtected (s.get MGT_PMB_STAT_WP) 0x41 = false) ∧ (s.pmbLocked 0x41 = false) ∧ (pmbPage
       s = r.val) ∧ (c.toNat / 64 = 2) ∧ (c.toNat % 8 = 0) ∧ (c.toNat / 8 % 8 < 7) ∧ (s.takesWrite .pmb (FLT_OV_ACT r).reg (wordSet
       (s.word (FLT_OV_ACT r).reg) (FLT_OV_ACT r).lo (FLT_OV_ACT r).w 1)) ∧ (s.takesWrite .pmb ⟨.FLT_RETRY, r, 0, 0⟩ (wordSet
       (s.word ⟨.FLT_RETRY, r, 0, 0⟩) 0 3 (c.toNat / 8 % 8)))) ∧
    (let b : State := runState
     let r : Fin 24 := 17
     let c : Byte := 0x98
     let s : State := ((b.set MGT_PMB_CFG_EN 1 |>.set MGT_CFG_WR_LOCK 0) |>.set MGT_PMB_STAT_PAGE 17)
     (s.pathOpen .pmb true = true) ∧ (writeProtected (s.get MGT_PMB_STAT_WP) 0x45 = false) ∧ (s.pmbLocked 0x45 = false) ∧ (pmbPage
       s = r.val) ∧ (c.toNat / 64 = 2) ∧ (c.toNat % 8 = 0) ∧ (c.toNat / 8 % 8 < 7) ∧ (s.takesWrite .pmb (FLT_UV_ACT r).reg (wordSet
       (s.word (FLT_UV_ACT r).reg) (FLT_UV_ACT r).lo (FLT_UV_ACT r).w 1)) ∧ (s.takesWrite .pmb ⟨.FLT_RETRY, r, 0, 0⟩ (wordSet
       (s.word ⟨.FLT_RETRY, r, 0, 0⟩) 0 3 (c.toNat / 8 % 8)))) ∧
    (let b : State := runState
     let r : Fin 24 := 17
     let c : Byte := 0x98
     let s : State := ((b.set MGT_PMB_CFG_EN 1 |>.set MGT_CFG_WR_LOCK 0) |>.set MGT_PMB_STAT_PAGE 17)
     (s.pathOpen .pmb true = true) ∧ (writeProtected (s.get MGT_PMB_STAT_WP) 0x47 = false) ∧ (s.pmbLocked 0x47 = false) ∧ (pmbPage
       s = r.val) ∧ (c.toNat / 64 = 2) ∧ (c.toNat % 8 = 0) ∧ (c.toNat / 8 % 8 < 7) ∧ (s.takesWrite .pmb (FLT_OC_ACT r).reg (wordSet
       (s.word (FLT_OC_ACT r).reg) (FLT_OC_ACT r).lo (FLT_OC_ACT r).w 1)) ∧ (s.takesWrite .pmb ⟨.FLT_RETRY, r, 0, 0⟩ (wordSet
       (s.word ⟨.FLT_RETRY, r, 0, 0⟩) 0 3 (c.toNat / 8 % 8)))) ∧
    (let b : State := runState
     let r : Fin 24 := 17
     let c : Byte := 0x98
     let s : State := ((b.set MGT_PMB_CFG_EN 1 |>.set MGT_CFG_WR_LOCK 0) |>.set MGT_PMB_STAT_PAGE 17)
     (s.pathOpen .pmb true = true) ∧ (writeProtected (s.get MGT_PMB_STAT_WP) 0x50 = false) ∧ (s.pmbLocked 0x50 = false) ∧ (pmbPage
       s = r.val) ∧ (c.toNat / 64 = 2) ∧ (c.toNat % 8 = 0) ∧ (c.toNat / 8 % 8 < 7) ∧ (s.takesWrite .pmb (FLT_OT_ACT r).reg (wordSet
       (s.word (FLT_OT_ACT r).reg) (FLT_OT_ACT r).lo (FLT_OT_ACT r).w 1)) ∧ (s.takesWrite .pmb ⟨.FLT_RETRY, r, 0, 0⟩ (wordSet
       (s.word ⟨.FLT_RETRY, r, 0, 0⟩) 0 3 (c.toNat / 8 % 8)))) ∧
    (let b : State := runState
     let r : Fin 24 := 17
     let c : BitVec 16 := 40
     let s : State := ((b.set MGT_PMB_CFG_EN 1 |>.set MGT_CFG_WR_LOCK 0) |>.set MGT_PMB_STAT_PAGE 17)
     (s.pathOpen .pmb true = true) ∧ (writeProtected (s.get MGT_PMB_STAT_WP) 0x46 = false) ∧ (s.pmbLocked 0x46 = false) ∧ (pmbPage
       s = r.val) ∧ (1 ≤ lin11Times c.toNat 2) ∧ (lin11Times c.toNat 2 ≤ 255) ∧ (s.takesWrite .pmb (⟨.FLT_OC, r, 0, 0⟩) (wordSet
       (s.word (⟨.FLT_OC, r, 0, 0⟩)) 0 8 ((lin11Times c.toNat 2).toNat)))) ∧
    (let b : State := runState
     let r : Fin 24 := 17
     let c : BitVec 16 := 125
     let s : State := ((b.set MGT_PMB_CFG_EN 1 |>.set MGT_CFG_WR_LOCK 0) |>.set MGT_PMB_STAT_PAGE 17)
     (s.pathOpen .pmb true = true) ∧ (writeProtected (s.get MGT_PMB_STAT_WP) 0x4F = false) ∧ (s.pmbLocked 0x4F = false) ∧ (pmbPage
       s = r.val) ∧ (1 ≤ lin11Times c.toNat 1) ∧ (lin11Times c.toNat 1 ≤ 200) ∧ (s.takesWrite .pmb (⟨.FLT_OT, r, 0, 0⟩) (wordSet
       (s.word (⟨.FLT_OT, r, 0, 0⟩)) 0 8 ((lin11Times c.toNat 1).toNat)))) ∧
    (let b : State := runState
     let s : State := (b.set MGT_PMB_CFG_EN 1 |>.set MGT_CFG_WR_LOCK 0)
     (s.pathOpen .pmb true = true) ∧ (writeProtected (s.get MGT_PMB_STAT_WP) 0x7E = false) ∧ (s.pmbLocked 0x7E = false)) ∧
    (let b : State := runState
     let c : Word := 0x64
     let s : State := (b.set MGT_PMB_CFG_EN 1 |>.set MGT_CFG_WR_LOCK 0)
     (s.pathOpen .pmb true = true) ∧ (writeProtected (s.get MGT_PMB_STAT_WP) 0xD0 = false) ∧ (c.toNat % 4 = 0)) ∧
    (let b : State := runState
     let s : State := (b.set MGT_PMB_CFG_EN 1 |>.set MGT_CFG_WR_LOCK 0).modMgt (fun m => { m with regAddr := 0x64 })
     (s.pathOpen .pmb true = true) ∧ (writeProtected (s.get MGT_PMB_STAT_WP) 0xD1 = false)) ∧
    (let b : State := runState
     let c : Byte := 2
     let s : State := (((b.set MGT_PMB_CFG_EN 1 |>.set MGT_CFG_WR_LOCK 0).set SEQ_STAT_STATE seqIdle).set (SEQ_NSTEP_NSTEP 2)
       1).setWord ⟨.SEQ_STEP, 2, 0, 0⟩ 0 |>.setWord ⟨.SEQ_STEP, 2, 0, 1⟩ 0 |>.setWord ⟨.SEQ_STEP, 2, 0, 2⟩ 0 |>.modSeq (fun x =>
       { x with held := none, restartDue := false, badSteps := [] })
     (s.pathOpen .pmb true = true) ∧ (writeProtected (s.get MGT_PMB_STAT_WP) 0xD3 = false) ∧ (s.pmbLocked 0xD3 = false) ∧
       (s.isolated dieP = false) ∧ (c.toNat < 8) ∧ ((cmdSeqStart c.toNat s).status = stOk)) ∧
    (let b : State := runState
     let s : State := (b.set MGT_PMB_CFG_EN 1 |>.set MGT_CFG_WR_LOCK 0)
     (s.pathOpen .pmb false = true)) ∧
    (let b : State := runState
     let s : State := (((b.set MGT_PMB_CFG_EN 1).set HOST_MODE_MODE 1).set MGT_CFG_WR_LOCK 1).set MGT_PMB_STAT_WP 0
     (s.pathOpen .pmb true = true) ∧ (writeProtected (s.get MGT_PMB_STAT_WP) 0x21 = false) ∧ (s.pmbLocked 0x21 = true)) ∧
    (let b : State := runState
     let c : Byte := 0x19
     let s : State := (b.set MGT_PMB_CFG_EN 1 |>.set MGT_CFG_WR_LOCK 0).set MGT_PMB_STAT_WP 0
     (s.pathOpen .pmb true = true) ∧ (writeProtected (s.get MGT_PMB_STAT_WP) c.toNat = false) ∧ (s.pmbLocked c.toNat = false) ∧
       (pmbWritable c.toNat = false)) :=
  by and_intros <;> decide

theorem test_hypotheses_PmbusReads :
    (let b : State := runState
     let r : Fin 24 := 17
     let s : State := ((b.set MGT_PMB_CFG_EN 1 |>.set MGT_CFG_WR_LOCK 0) |>.set MGT_PMB_STAT_PAGE 17)
     (s.pathOpen .pmb false = true) ∧ (pmbPage s = r.val) ∧ (s.isolated dieP = false)) ∧
    (let b : State := runState
     let r : Fin 24 := 17
     let s : State := ((b.set MGT_PMB_CFG_EN 1 |>.set MGT_CFG_WR_LOCK 0) |>.set MGT_PMB_STAT_PAGE 17)
     (s.pathOpen .pmb false = true) ∧ (pmbPage s = r.val) ∧ (s.isolated dieP = false)) ∧
    (let b : State := runState
     let r : Fin 24 := 17
     let s : State := ((b.set MGT_PMB_CFG_EN 1 |>.set MGT_CFG_WR_LOCK 0) |>.set MGT_PMB_STAT_PAGE 17)
     (s.pathOpen .pmb false = true) ∧ (pmbPage s = r.val) ∧ (s.isolated dieP = false)) ∧
    (let b : State := runState
     let s : State := (b.set MGT_PMB_CFG_EN 1 |>.set MGT_CFG_WR_LOCK 0)
     (s.pathOpen .pmb false = true)) ∧
    (let b : State := runState
     let s : State := (b.set MGT_PMB_CFG_EN 1 |>.set MGT_CFG_WR_LOCK 0)
     (s.pathOpen .pmb false = true)) ∧
    (let b : State := runState
     let c : Byte := 0xA5
     let s : State := (b.set MGT_PMB_CFG_EN 1 |>.set MGT_CFG_WR_LOCK 0)
     (s.pathOpen .pmb false = true) ∧ (pmbReadable c.toNat = false)) ∧
    (let b : State := runState
     let r : Fin 24 := 17
     let s : State := ((b.set MGT_PMB_CFG_EN 1 |>.set MGT_CFG_WR_LOCK 0) |>.set MGT_PMB_STAT_PAGE 17)
     (s.pathOpen .pmb false = true) ∧ (pmbPage s = r.val) ∧ (s.isolated dieP = false)) ∧
    (let b : State := runState
     let r : Fin 24 := 17
     let s : State := ((b.set MGT_PMB_CFG_EN 1 |>.set MGT_CFG_WR_LOCK 0) |>.set MGT_PMB_STAT_PAGE 17)
     (s.pathOpen .pmb false = true) ∧ (pmbPage s = r.val) ∧ (s.isolated dieP = false)) ∧
    (let b : State := runState
     let r : Fin 24 := 17
     let s : State := ((b.set MGT_PMB_CFG_EN 1 |>.set MGT_CFG_WR_LOCK 0) |>.set MGT_PMB_STAT_PAGE 17)
     (s.pathOpen .pmb false = true) ∧ (pmbPage s = r.val) ∧ (s.isolated dieP = false)) ∧
    (let b : State := runState
     let r : Fin 24 := 17
     let s : State := ((b.set MGT_PMB_CFG_EN 1 |>.set MGT_CFG_WR_LOCK 0) |>.set MGT_PMB_STAT_PAGE 17)
     (s.pathOpen .pmb false = true) ∧ (pmbPage s = r.val) ∧ (s.isolated dieP = false)) ∧
    (let b : State := runState
     let r : Fin 24 := 17
     let s : State := ((b.set MGT_PMB_CFG_EN 1 |>.set MGT_CFG_WR_LOCK 0) |>.set MGT_PMB_STAT_PAGE 17 |>.set (FLT_OV_MODE 17) 0)
     (s.pathOpen .pmb false = true) ∧ (pmbPage s = r.val) ∧ (s.isolated dieP = false) ∧ (s.get (FLT_OV_MODE r) = 0)) ∧
    (let b : State := runState
     let r : Fin 24 := 17
     let s : State := ((b.set MGT_PMB_CFG_EN 1 |>.set MGT_CFG_WR_LOCK 0) |>.set MGT_PMB_STAT_PAGE 17 |>.set (FLT_UV_MODE 17) 0)
     (s.pathOpen .pmb false = true) ∧ (pmbPage s = r.val) ∧ (s.isolated dieP = false) ∧ (s.get (FLT_UV_MODE r) = 0)) ∧
    (let b : State := runState
     let r : Fin 24 := 17
     let s : State := ((b.set MGT_PMB_CFG_EN 1 |>.set MGT_CFG_WR_LOCK 0) |>.set MGT_PMB_STAT_PAGE 17 |>.set (FLT_OV_ACT 17) 1)
     (s.pathOpen .pmb false = true) ∧ (pmbPage s = r.val) ∧ (s.isolated dieP = false) ∧ (s.get (FLT_OV_ACT r) = 1)) ∧
    (let b : State := runState
     let r : Fin 24 := 17
     let s : State := ((b.set MGT_PMB_CFG_EN 1 |>.set MGT_CFG_WR_LOCK 0) |>.set MGT_PMB_STAT_PAGE 17 |>.set (FLT_UV_ACT 17) 1)
     (s.pathOpen .pmb false = true) ∧ (pmbPage s = r.val) ∧ (s.isolated dieP = false) ∧ (s.get (FLT_UV_ACT r) = 1)) ∧
    (let b : State := runState
     let r : Fin 24 := 17
     let s : State := ((b.set MGT_PMB_CFG_EN 1 |>.set MGT_CFG_WR_LOCK 0) |>.set MGT_PMB_STAT_PAGE 17 |>.set (FLT_OC_ACT 17) 1)
     (s.pathOpen .pmb false = true) ∧ (pmbPage s = r.val) ∧ (s.isolated dieP = false) ∧ (s.get (FLT_OC_ACT r) = 1)) ∧
    (let b : State := runState
     let r : Fin 24 := 17
     let s : State := ((b.set MGT_PMB_CFG_EN 1 |>.set MGT_CFG_WR_LOCK 0) |>.set MGT_PMB_STAT_PAGE 17 |>.set (FLT_OT_ACT 17) 1)
     (s.pathOpen .pmb false = true) ∧ (pmbPage s = r.val) ∧ (s.isolated dieP = false) ∧ (s.get (FLT_OT_ACT r) = 1)) ∧
    (let b : State := runState
     let r : Fin 24 := 17
     let s : State := ((b.set MGT_PMB_CFG_EN 1 |>.set MGT_CFG_WR_LOCK 0) |>.set MGT_PMB_STAT_PAGE 17)
     (s.pathOpen .pmb false = true) ∧ (pmbPage s = r.val) ∧ (s.isolated dieP = false)) ∧
    (let b : State := runState
     let r : Fin 24 := 17
     let s : State := ((b.set MGT_PMB_CFG_EN 1 |>.set MGT_CFG_WR_LOCK 0) |>.set MGT_PMB_STAT_PAGE 17)
     (s.pathOpen .pmb false = true) ∧ (pmbPage s = r.val) ∧ (s.isolated dieP = false)) ∧
    (let b : State := runState
     let r : Fin 24 := 17
     let s : State := ((b.set MGT_PMB_CFG_EN 1 |>.set MGT_CFG_WR_LOCK 0) |>.set MGT_PMB_STAT_PAGE 17)
     (s.pathOpen .pmb false = true) ∧ (pmbPage s = r.val) ∧ (s.isolated dieP = false)) ∧
    (let b : State := runState
     let r : Fin 24 := 17
     let s : State := ((b.set MGT_PMB_CFG_EN 1 |>.set MGT_CFG_WR_LOCK 0) |>.set MGT_PMB_STAT_PAGE 17)
     (s.pathOpen .pmb false = true) ∧ (pmbPage s = r.val) ∧ (s.isolated dieP = false)) ∧
    (let b : State := runState
     let r : Fin 24 := 17
     let s : State := ((b.set MGT_PMB_CFG_EN 1 |>.set MGT_CFG_WR_LOCK 0) |>.set MGT_PMB_STAT_PAGE 17)
     (s.pathOpen .pmb false = true) ∧ (pmbPage s = r.val) ∧ (s.isolated dieP = false)) ∧
    (let b : State := runState
     let r : Fin 24 := 17
     let s : State := ((b.set MGT_PMB_CFG_EN 1 |>.set MGT_CFG_WR_LOCK 0) |>.set MGT_PMB_STAT_PAGE 17)
     (s.pathOpen .pmb false = true) ∧ (pmbPage s = r.val) ∧ (s.isolated dieP = false)) ∧
    (let b : State := runState
     let r : Fin 24 := 17
     let s : State := ((b.set MGT_PMB_CFG_EN 1 |>.set MGT_CFG_WR_LOCK 0) |>.set MGT_PMB_STAT_PAGE 17)
     (s.pathOpen .pmb false = true) ∧ (pmbPage s = r.val) ∧ (s.isolated dieP = false)) ∧
    (let b : State := runState
     let r : Fin 24 := 17
     let s : State := ((b.set MGT_PMB_CFG_EN 1 |>.set MGT_CFG_WR_LOCK 0) |>.set MGT_PMB_STAT_PAGE 17)
     (s.pathOpen .pmb false = true) ∧ (pmbPage s = r.val) ∧ (s.isolated dieP = false)) ∧
    (let b : State := runState
     let s : State := (b.set MGT_PMB_CFG_EN 1 |>.set MGT_CFG_WR_LOCK 0)
     (s.pathOpen .pmb false = true)) ∧
    (let b : State := runState
     let r : Fin 24 := 17
     let s : State := ((b.set MGT_PMB_CFG_EN 1 |>.set MGT_CFG_WR_LOCK 0) |>.set MGT_PMB_STAT_PAGE 17)
     (s.pathOpen .pmb false = true) ∧ (pmbPage s = r.val) ∧ (s.isolated dieP = false)) ∧
    (let b : State := runState
     let r : Fin 24 := 17
     let s : State := ((b.set MGT_PMB_CFG_EN 1 |>.set MGT_CFG_WR_LOCK 0) |>.set MGT_PMB_STAT_PAGE 17)
     (s.pathOpen .pmb false = true) ∧ (pmbPage s = r.val) ∧ (s.isolated dieP = false)) ∧
    (let b : State := runState
     let r : Fin 24 := 17
     let s : State := ((b.set MGT_PMB_CFG_EN 1 |>.set MGT_CFG_WR_LOCK 0) |>.set MGT_PMB_STAT_PAGE 17)
     (s.pathOpen .pmb false = true) ∧ (pmbPage s = r.val) ∧ (s.isolated dieP = false)) ∧
    (let b : State := runState
     let s : State := (b.set MGT_PMB_CFG_EN 1 |>.set MGT_CFG_WR_LOCK 0)
     (s.pathOpen .pmb false = true)) ∧
    (let b : State := runState
     let s : State := (b.set MGT_PMB_CFG_EN 1 |>.set MGT_CFG_WR_LOCK 0)
     (s.pathOpen .pmb false = true)) ∧
    (let b : State := runState
     let s : State := (b.set MGT_PMB_CFG_EN 1 |>.set MGT_CFG_WR_LOCK 0)
     (s.pathOpen .pmb false = true)) ∧
    (let b : State := runState
     let s : State := (b.set MGT_PMB_CFG_EN 1 |>.set MGT_CFG_WR_LOCK 0)
     (s.pathOpen .pmb false = true)) ∧
    (let b : State := runState
     let s : State := (b.set MGT_PMB_CFG_EN 1 |>.set MGT_CFG_WR_LOCK 0)
     (s.pathOpen .pmb false = true) ∧ (pmbPage s ≠ 0xFF)) ∧
    (let b : State := runState
     let s : State := (b.set MGT_PMB_CFG_EN 1 |>.set MGT_CFG_WR_LOCK 0).set MGT_PMB_STAT_PAGE 0xFF
     (s.pathOpen .pmb false = true) ∧ (pmbPage s = 0xFF)) ∧
    (let b : State := runState
     let s : State := (b.set MGT_PMB_CFG_EN 1 |>.set MGT_CFG_WR_LOCK 0).set MGT_PMB_STAT_PAGE 0xFF
     (s.pathOpen .pmb false = true) ∧ (pmbPage s = 0xFF)) ∧
    (let b : State := runState
     let s : State := (b.set MGT_PMB_CFG_EN 1 |>.set MGT_CFG_WR_LOCK 0)
     (s.pathOpen .pmb false = true) ∧ (pmbPage s ≠ 0xFF)) ∧
    (let b : State := runState
     let s : State := (b.set MGT_PMB_CFG_EN 1 |>.set MGT_CFG_WR_LOCK 0)
     (s.pathOpen .pmb false = true)) ∧
    (let b : State := runState
     let r : Fin 24 := 17
     let s : State := ((b.set MGT_PMB_CFG_EN 1 |>.set MGT_CFG_WR_LOCK 0) |>.set MGT_PMB_STAT_PAGE 17)
     (s.pathOpen .pmb false = true) ∧ (pmbPage s = r.val) ∧ (s.isolated dieP = false)) ∧
    (let b : State := runState
     let r : Fin 24 := 17
     let s : State := ((b.set MGT_PMB_CFG_EN 1 |>.set MGT_CFG_WR_LOCK 0) |>.set MGT_PMB_STAT_PAGE 17)
     (s.pathOpen .pmb false = true) ∧ (pmbPage s = r.val) ∧ (s.isolated dieP = false)) ∧
    (let b : State := runState
     let s : State := (b.set MGT_PMB_CFG_EN 1 |>.set MGT_CFG_WR_LOCK 0)
     (s.pathOpen .pmb false = true)) ∧
    (let b : State := runState
     let s : State :=
       ({ (b.set MGT_PMB_CFG_EN 1 |>.set MGT_CFG_WR_LOCK 0) with evtFifo := [{ code := 0x0901, src := 0, seq := 1, time := 0, body := 0, dropped := 0 }] }.set
       MGT_PMB_CFG_ALERT_EV 1).set HOST_STAT_RSTATE rsDisarmed
     (s.pathOpen .pmb false = true) ∧ (s.alert = true)) ∧
    (let b : State := runState
     let s : State := (b.set MGT_PMB_CFG_EN 1 |>.set MGT_CFG_WR_LOCK 0)
     (s.pathOpen .pmb false = true) ∧ (s.alert = false)) ∧
    (let b : State := runState
     let s : State := (b.set MGT_PMB_CFG_EN 1 |>.set MGT_CFG_WR_LOCK 0).set MGT_PMB_STAT_PAGE 0xFF
     (s.pathOpen .pmb false = true) ∧ (pmbPage s = 0xFF)) :=
  by and_intros <;> decide

theorem test_hypotheses_I3cPort :
    (let b : State := runState
     let off : Word := 0x64
     let data : List Byte := [1, 2, 3, 4]
     let s : State := (b.set MGT_I3C_CFG_EN 1)
     (s.i3cOn = true) ∧ (data ≠ []) ∧ (off.toNat % 4 = 0) ∧ (data.length % 4 = 0) ∧ (data.length ≤ 64)) ∧
    (let b : State := runState
     let off : Word := 0x66
     let data : List Byte := [1, 2, 3, 4]
     let s : State := (b.set MGT_I3C_CFG_EN 1)
     (s.i3cOn = true) ∧ (data ≠ []) ∧ (off.toNat % 4 ≠ 0 ∨ data.length % 4 ≠ 0 ∨ 64 < data.length)) ∧
    (let b : State := runState
     let s : State := (b.set MGT_I3C_CFG_EN 1)
     (s.i3cOn = true)) ∧
    (let b : State := runState
     let off : Word := 0x64
     let s : State := (b.set MGT_I3C_CFG_EN 1)
     (s.i3cOn = true) ∧ (off.toNat % 4 = 0)) ∧
    (let b : State := runState
     let off : Word := 0x65
     let s : State := (b.set MGT_I3C_CFG_EN 1)
     (s.i3cOn = true) ∧ (off.toNat % 4 ≠ 0)) ∧
    (let b : State := runState
     let s : State := (b.set MGT_I3C_CFG_EN 1)
     (s.i3cOn = true)) ∧
    (let b : State := runState
     let s : State := (b.set MGT_I3C_CFG_EN 1)
     (s.i3cOn = true)) ∧
    (let b : State := runState
     let s : State := (b.set MGT_I3C_CFG_EN 1)
     (s.i3cOn = true)) ∧
    (let b : State := runState
     let s : State := (b.set MGT_I3C_CFG_EN 1)
     (s.i3cOn = true)) ∧
    (let b : State := runState
     let s : State := (b.set MGT_I3C_CFG_EN 1)
     (s.i3cOn = true) ∧ (s.on MGT_I3C_STAT_DA_VALID = false)) ∧
    (let b : State := runState
     let s : State := (b.set MGT_I3C_CFG_EN 1)
     (s.i3cOn = true) ∧ (s.on MGT_I3C_STAT_DA_VALID = false)) ∧
    (let b : State := runState
     let s : State := (b.set MGT_I3C_CFG_EN 1)
     (s.i3cOn = true)) ∧
    (let b : State := runState
     let s : State := (b.set MGT_I3C_CFG_EN 1)
     (s.i3cOn = true)) ∧
    (let b : State := runState
     let s : State := (b.set MGT_I3C_CFG_EN 1)
     (s.i3cOn = true)) ∧
    (let b : State := runState
     let s : State := (b.set MGT_I3C_CFG_EN 1)
     (s.i3cOn = true)) ∧
    (let b : State := runState
     let s : State := (b.set MGT_I3C_CFG_EN 1)
     (s.i3cOn = true)) ∧
    (let b : State := runState
     let s : State := (b.set MGT_I3C_CFG_EN 1)
     (s.i3cOn = true)) ∧
    (let b : State := runState
     let s : State := (b.set MGT_I3C_CFG_EN 1)
     (s.i3cOn = true)) ∧
    (let b : State := runState
     let s : State := (b.set MGT_I3C_CFG_EN 1)
     (s.i3cOn = true)) ∧
    (let b : State := runState
     let s : State := (b.set MGT_I3C_CFG_EN 1)
     (s.i3cOn = true)) ∧
    (let b : State := runState
     let s : State := (b.set MGT_I3C_CFG_EN 1)
     (s.i3cOn = true)) :=
  by and_intros <;> decide

theorem test_hypotheses_MailboxFlashAndJtag :
    (let b : State := runState
     let p : Path := .jtag
     let w : Word := 0
     let s : State := (((b.setWord ⟨.MGT_MBX, 0, 0, 0⟩ 0).setWord ⟨.MGT_MBX, 15, 0, 0⟩ (crcWords (List.replicate 15 0))).set
       MGT_MBX_CTL_BUSY 0)
     (s.takesWrite p ⟨.MGT_MBX_CTL, 0, 0, 0⟩ (wordSet w 0 1 1)) ∧
       (({ words := (List.range 16).map (fun i => s.word ⟨.MGT_MBX, i, 0, 0⟩) } : Cmd).crcGood = true) ∧
       (({ words := (List.range 16).map (fun i => s.word ⟨.MGT_MBX, i, 0, 0⟩) } : Cmd).formOk (.mbx 3) = true) ∧
       (({ words := (List.range 16).map (fun i => s.word ⟨.MGT_MBX, i, 0, 0⟩) } : Cmd).op = 0)) ∧
    (let b : State := runState
     let p : Path := .jtag
     let w : Word := 0
     let s : State := (((b.setWord ⟨.MGT_MBX, 0, 0, 0⟩ 0).setWord ⟨.MGT_MBX, 15, 0, 0⟩ 0).set MGT_MBX_CTL_BUSY 0)
     (s.takesWrite p ⟨.MGT_MBX_CTL, 0, 0, 0⟩ (wordSet w 0 1 1)) ∧
       (({ words := (List.range 16).map (fun i => s.word ⟨.MGT_MBX, i, 0, 0⟩) } : Cmd).crcGood = false)) ∧
    (let b : State := runState
     let p : Path := .jtag
     let w : Word := 0
     let s : State := (((b.setWord ⟨.MGT_MBX, 0, 0, 0⟩ 3).setWord ⟨.MGT_MBX, 15, 0, 0⟩ (crcWords (3 :: List.replicate 14 0))).set
       MGT_MBX_CTL_BUSY 0)
     (s.takesWrite p ⟨.MGT_MBX_CTL, 0, 0, 0⟩ (wordSet w 0 1 1)) ∧
       (({ words := (List.range 16).map (fun i => s.word ⟨.MGT_MBX, i, 0, 0⟩) } : Cmd).crcGood = true) ∧
       (({ words := (List.range 16).map (fun i => s.word ⟨.MGT_MBX, i, 0, 0⟩) } : Cmd).formOk (.mbx 3) = false)) ∧
    (let b : State := runState
     let p : Path := .jtag
     let w : Word := 0
     let e : EvtRec := ({ code := 0x0904, src := 0, seq := 1, time := 0, body := 0, dropped := 0 } : EvtRec)
     let l : List EvtRec := []
     let s : State :=
       ({ b with evtFifo := [({ code := 0x0904, src := 0, seq := 1, time := 0, body := 0, dropped := 0 } : EvtRec)], evtFull := false }).set
       HOST_STAT_RSTATE rsDisarmed |>.set DMA_EVREQ_EN 0
     (s.takesWrite p ⟨.MGT_EV, 0, 0, 0⟩ (wordSet w 0 1 1)) ∧ (s.evtFifo = e :: l) ∧ (s.evtFull = false)) ∧
    (let b : State := runState
     let p : Path := .jtag
     let w : Word := 0
     let e : EvtRec := ({ code := 0x0904, src := 0, seq := 1, time := 0, body := 0, dropped := 0 } : EvtRec)
     let l : List EvtRec := []
     let s : State :=
       ({ b with evtFifo := [({ code := 0x0904, src := 0, seq := 1, time := 0, body := 0, dropped := 0 } : EvtRec)], evtFull := true }).set
       HOST_STAT_RSTATE rsDisarmed |>.set DMA_EVREQ_EN 0
     (s.takesWrite p ⟨.MGT_EV, 0, 0, 0⟩ (wordSet w 0 1 1)) ∧ (s.evtFifo = e :: l) ∧ (s.evtFull = true) ∧ (l.length < evtCapacity)) ∧
    (let b : State := runState
     let p : Path := .jtag
     let w : Word := 0
     let s : State := b.set HOST_STAT_RSTATE rsDisarmed |>.set DMA_EVREQ_EN 0
     (s.takesWrite p ⟨.MGT_EV, 0, 0, 0⟩ (wordSet w 0 1 1)) ∧ (s.evtFifo = [])) ∧
    (let b : State := runState
     let p : Path := .jtag
     let w : Word := 0x403
     let s : State := b
     (s.takesWrite p ⟨.MGT_SPI_CMD, 0, 0, 0⟩ (wordSet w 31 1 1))) ∧
    (let b : State := runState
     let op : Nat := 3
     let a : Nat := 0x100
     let len : Nat := 4
     let s : State := b.modMgt (fun m => { m with spi := some (3, 0x100, 4) })
     (s.mgt.spi = some (op, a, len)) ∧ (spiRead op = true) ∧ (4 ≤ len) ∧ (len ≤ 256)) ∧
    (let b : State := runState
     let op : Nat := 2
     let a : Nat := 0x1F00000
     let len : Nat := 4
     let s : State := b.modMgt (fun m => { m with spi := some (2, 0x1F00000, 4) })
     (s.mgt.spi = some (op, a, len)) ∧ (spiRead op = false) ∧ (spiProgram op = true)) ∧
    (let b : State := runState
     let s : State := b
     (s.mgt.spi = none)) ∧
    (let b : State := runState
     let s : State := b.modMgt (fun m => { m with spi := some (2, 0x1F00000, 4) })
     (s.mgt.spi ≠ none)) ∧
    (let b : State := runState
     let s : State := b
     (s.mgt.spi = none)) ∧
    (let b : State := runState
     let s : State := b
     (s.jtagOn = true) ∧ (s.debugLock 2 = false)) ∧
    (let b : State := runState
     let s : State := b
     (s.jtagOn = true) ∧ (s.debugLock 2 = false)) ∧
    (let b : State := runState
     let s : State := b
     (s.jtagOn = true) ∧ (s.debugLock 2 = false)) ∧
    (let b : State := runState
     let s : State := b
     (s.jtagOn = true)) ∧
    (let b : State := runState
     let s : State := b
     (s.jtagOn = true)) ∧
    (let b : State := runState
     let s : State := (b.set (OTP_SH_VALUE 110) 4).set OTP_REGION_STATE 8
     (s.jtagOn = true) ∧ (s.debugLock 2 = true)) ∧
    (let b : State := runState
     let s : State := b
     (s.jtagOn = true)) ∧
    (let b : State := runState
     let s : State := b
     (s.jtagOn = true) ∧ (s.debugLock 2 = false)) ∧
    (let b : State := runState
     let wr : Bool := true
     let s : State := (b.set (OTP_SH_VALUE 110) 3).set OTP_REGION_STATE 8
     (s.jtagOn = true) ∧ (s.isolated dieC = false) ∧ (s.active = true) ∧ (s.debugLock (if wr then 1 else 0) = true)) ∧
    (let b : State := runState
     let s : State := b
     (s.jtagOn = true) ∧ (s.isolated dieC = false) ∧ (s.active = false ∨ s.debugLock 0 = false)) ∧
    (let b : State := runState
     let s : State := b
     (s.jtagOn = true) ∧ (s.isolated dieC = false) ∧ (s.active = false ∨ s.debugLock 1 = false)) :=
  by and_intros <;> decide

theorem test_hypotheses_RegisterWrites :
    (let b : State := runState
     let p : Path := .jtag
     let be : BitVec 4 := 7
     let s : State := b
     (s.pathOpen p true = true) ∧ (be ≠ 15)) ∧
    (let b : State := runState
     let p : Path := .jtag
     let off : BitVec 20 := 0x11002
     let s : State := b
     (s.pathOpen p true = true) ∧ (Reg.ofOff off.toNat = none)) ∧
    (let b : State := runState
     let p : Path := .jtag
     let off : BitVec 20 := 0x1004
     let val : Word := 5
     let s : State := b
     (s.pathOpen p true = true) ∧ (s.reaches p off.toNat val = false)) ∧
    (let b : State := runState
     let p : Path := .host
     let r : Reg := ⟨.MON_ACCEPT, 0, 0, 0⟩
     let val : Word := 0
     let s : State := b
     (s.pathOpen p true = true) ∧ (s.reaches p r.off val = true) ∧ (Reg.ofOff r.off = some r) ∧ (s.isolated (dieOfOff r.off) =
       false) ∧ (s.accepts p r val = false) ∧ (r.name ≠ .MGT_SPI_CMD)) ∧
    (let b : State := runState
     let p : Path := .host
     let r : Reg := ⟨.MON_ACCEPT, 0, 0, 0⟩
     let val : Word := 5
     let s : State := b.set GLB_DIE_ISOLATED 2
     (s.pathOpen p true = true) ∧ (s.reaches p r.off val = true) ∧ (Reg.ofOff r.off = some r) ∧ (s.isolated (dieOfOff r.off) =
       true)) ∧
    (let b : State := runState
     let p : Path := .host
     let r : Reg := ⟨.MON_ACCEPT, 0, 0, 0⟩
     let val : Word := 5
     let s : State := b
     (s.pathOpen p true = true) ∧ (s.reaches p r.off val = true) ∧ (Reg.ofOff r.off = some r) ∧ (s.isolated (dieOfOff r.off) =
       false) ∧ (s.accepts p r val = true) ∧ (r.name ∈ [RegName.MON_ACCEPT, .MON_REJECT, .MON_QUAL, .TRG_LOCK, .FLT_OC, .FLT_OT,
       .LNK_PRIO, .LNK_BUDGET, .KLN_SCR])) ∧
    (let b : State := runState
     let p : Path := .jtag
     let s : State := b.set GLB_STATE_STATE pkgOff
     (s.pathOpen p true = false)) :=
  by and_intros <;> decide

theorem test_hypotheses_MonitorSettingsAreFixedWhileEnabled :
    (let b : State := runState
     let p : Path := .host
     let m : Fin 16 := 15
     let w : Word := 3
     let s : State := (b.set (MON_CFG_EN m) 1)
     (s.pathOpen p true = true) ∧ (s.isolated (dieOfOff (Reg.off ⟨.MON_CFG, m, 0, 0⟩)) = false) ∧ (s.get (MON_CFG_EN m) = 1) ∧
       ((MON_CFG_EN m).of w = 1) ∧ ((MON_CFG_FORMAT m).of w ≠ s.get (MON_CFG_FORMAT m) ∨ (MON_CFG_TERM m).of w ≠ s.get (MON_CFG_TERM
       m) ∨ (MON_CFG_AC m).of w ≠ s.get (MON_CFG_AC m) ∨ (MON_CFG_SE_THR m).of w ≠ s.get (MON_CFG_SE_THR m) ∨ (MON_CFG_HYST m).of w
       ≠ s.get (MON_CFG_HYST m))) ∧
    (let b : State := runState
     let p : Path := .host
     let m : Fin 16 := 15
     let s : State := (b.set (MON_CFG_EN m) 1)
     (s.pathOpen p true = true) ∧ (s.isolated (dieOfOff (Reg.off ⟨.MON_FNOM_INT, m, 0, 0⟩)) = false) ∧ (s.get (MON_CFG_EN m) = 1)) ∧
    (let b : State := runState
     let p : Path := .host
     let m : Fin 16 := 15
     let s : State := (b.set (MON_CFG_EN m) 1)
     (s.pathOpen p true = true) ∧ (s.isolated (dieOfOff (Reg.off ⟨.MON_FNOM_FRAC, m, 0, 0⟩)) = false) ∧ (s.get (MON_CFG_EN m) = 1)) ∧
    (let b : State := runState
     let p : Path := .host
     let m : Fin 16 := 15
     let w : Word := 1250000001
     let s : State := b
     (s.pathOpen p true = true) ∧ (s.isolated (dieOfOff (Reg.off ⟨.MON_FNOM_INT, m, 0, 0⟩)) = false) ∧ (w.toNat * 2 ^ 16 + s.get
       (MON_FNOM_FRAC_FNOM_FRAC m) = 0 ∨ 1250000000 * 2 ^ 16 < w.toNat * 2 ^ 16 + s.get (MON_FNOM_FRAC_FNOM_FRAC m))) ∧
    (let b : State := runState
     let p : Path := .host
     let m : Fin 16 := 15
     let w : Word := 1
     let s : State := (b.set (MON_FNOM_INT_FNOM_INT m) 1250000000)
     (s.pathOpen p true = true) ∧ (s.isolated (dieOfOff (Reg.off ⟨.MON_FNOM_FRAC, m, 0, 0⟩)) = false) ∧ (s.get
       (MON_FNOM_INT_FNOM_INT m) * 2 ^ 16 + wordGet w 0 16 = 0 ∨ 1250000000 * 2 ^ 16 < s.get (MON_FNOM_INT_FNOM_INT m) * 2 ^ 16 +
       wordGet w 0 16)) ∧
    (let b : State := runState
     let p : Path := .host
     let m : Fin 16 := 15
     let w : Word := 3
     let s : State := (b.set (MON_CFG_EN m) 0)
     (s.pathOpen p true = true) ∧ (s.isolated (dieOfOff (Reg.off ⟨.MON_CFG, m, 0, 0⟩)) = false) ∧ (s.reaches p (Reg.off ⟨.MON_CFG,
       m, 0, 0⟩) w = true) ∧ (s.get (MON_CFG_EN m) = 0) ∧ (Reg.legalWord ⟨.MON_CFG, m, 0, 0⟩ w = true)) ∧
    (let b : State := runState
     let p : Path := .host
     let m : Fin 16 := 15
     let w : Word := 10000000
     let s : State := (b.set (MON_CFG_EN m) 0)
     (s.pathOpen p true = true) ∧ (s.isolated (dieOfOff (Reg.off ⟨.MON_FNOM_INT, m, 0, 0⟩)) = false) ∧ (s.reaches p (Reg.off
       ⟨.MON_FNOM_INT, m, 0, 0⟩) w = true) ∧ (s.get (MON_CFG_EN m) = 0) ∧ (0 < w.toNat) ∧ (w.toNat < 1250000000)) ∧
    (let b : State := runState
     let p : Path := .host
     let m : Fin 16 := 15
     let w : Word := 1
     let s : State := (b.set (MON_CFG_EN m) 0)
     (s.pathOpen p true = true) ∧ (s.isolated (dieOfOff (Reg.off ⟨.MON_FNOM_FRAC, m, 0, 0⟩)) = false) ∧ (s.reaches p (Reg.off
       ⟨.MON_FNOM_FRAC, m, 0, 0⟩) w = true) ∧ (s.get (MON_CFG_EN m) = 0) ∧ (w.toNat < 2 ^ 16) ∧ (0 < s.get (MON_FNOM_INT_FNOM_INT
       m)) ∧ (s.get (MON_FNOM_INT_FNOM_INT m) < 1250000000)) :=
  by and_intros <;> decide

theorem test_hypotheses_ResynchronisationStopsOnlyTheHostPort :
    (let b : State := runState
     let p : Path := .host
     let w : Word := 0x5EED
     let s : State := b
     (s.pathOpen p true = true) ∧ (s.reaches p (Reg.off ⟨.HOST_RESYNC, 0, 0, 0⟩) w = true) ∧ (s.isolated dieC = false) ∧ (wordGet
       w 0 16 = 0x5EED) ∧ (s.resyncOk = true) ∧ (Reg.legalWord ⟨.HOST_RESYNC, 0, 0, 0⟩ w = true)) ∧
    (let b : State := runState
     let p : Path := .host
     let w : Word := 0x5EEE
     let s : State := b
     (s.pathOpen p true = true) ∧ (s.isolated dieC = false) ∧ (wordGet w 0 16 ≠ 0x5EED)) ∧
    (let b : State := runState
     let s : State := b
     (s.takesCmd .ring = true)) :=
  by and_intros <;> decide

theorem test_hypotheses_ValuesThroughTheUplinkOffer :
    (let b : State := runState
     let k : Fin 4 := 1
     let o : Offer :=
       ({ gm := 1, prio1 := 1, prio2 := 1, cls := 0, seq := 5, hops := 2, lat := 100, ph := 10, blat := 1000, bph := 1000, fresh := true }
       : Offer)
     let s : State := (((b.set LNK_SYS_STAT_STATE sysListening).set (LNK_STAT_STATE 1) lnkUp).set (LNK_STAT_DVALID 1) 1).modLnk 1
       (fun _ =>
       { offer := some ({ gm := 1, prio1 := 1, prio2 := 1, cls := 0, seq := 5, hops := 2, lat := 100, ph := 10, blat := 1000, bph := 1000, fresh := true } : Offer) })
       |>.set LNK_SYS_CTL_CAND 0
     (s.sysState = sysListening) ∧ (s.bestOffer = some (k.val, o)) ∧ (s.on LNK_SYS_CTL_CAND = false) ∧ (o.lat + (s.get
       (LNK_DLY_D_IN k) + 99) / 100 + 1600 < 2 ^ 32) ∧ (o.ph + 30 + s.get (LNK_ASYM_ASYM_UNC k) * 2 < 2 ^ 16) ∧ (o.hops + 1 < 2 ^
       16)) ∧
    (let b : State := runState
     let k : Fin 4 := 1
     let hops : BitVec 16 := 2
     let lat : Word := 100
     let ph : BitVec 16 := 10
     let s : State := (b.set (LNK_STAT_STATE k) lnkUp)
     (s.portUp k = true) ∧ (s.sysState = sysDetached ∨ s.sysState = sysListening) ∧ (lat.toNat + (s.get (LNK_DLY_D_IN k) + 99) /
       100 + 1600 < 2 ^ 32) ∧ (ph.toNat + 30 + s.get (LNK_ASYM_ASYM_UNC k) * 2 < 2 ^ 16) ∧ (hops.toNat + 1 < 2 ^ 16)) :=
  by and_intros <;> decide

end Sys2Proof.Machine
end

/-! The claims about the model as a whole: two that do not hold, each with the state that refutes it. -/
namespace Sys2Proof.Machine

/-! ### A microsecond in which a watchdog frame fails -/

/-- The hub in RUN, with one watchdog slot: its frame has been checked in once, the check-in of ENG0's Bisque image is due in the next
microsecond, and a failure is remembered already (R351, R402 to R405). -/
def doubleCheckInState : State :=
  ((((((State.reset.set GLB_STATE_STATE pkgRun).set WDG_CTL_EN 1).set WDG_TICK_TICK 99).set (WDG_SLOT_EN 0) 1).set WDG_STAT_ARMED
    1).set (ENG_STAT_BISQUE 0) 1 |>.set (ENG_STAT_STATE 0) engRunning).modWdg 0
    (fun _ => { started := true, pos := 30000000, kicked := true })

set_option maxRecDepth 20000 in
/-- Its second check-in is DOUBLE, the slot's second failure in a row: the package watchdog reset takes place within the tick, and
GLB_TIMER returns to 0 (R405, R412, R426). -/
theorem timer_tick_doubleCheckIn : (tick doubleCheckInState).getWide GLB_TIMER_LO_US GLB_TIMER_HI_US = 0 := by decide

/-- Refutes O57: an idle step may end in a package watchdog reset, which returns GLB_TIMER to 0. -/
theorem not_aStepRunsTheFrontCommand : ¬ Obligations.AStepRunsTheFrontCommand := by
  rintro ⟨-, idle⟩
  obtain ⟨u, hu, -, ht⟩ := idle doubleCheckInState rfl (by decide) (by decide) rfl
  obtain rfl : tick doubleCheckInState = u := by injection hu
  rw [timer_tick_doubleCheckIn] at ht
  exact absurd ht (by decide)

/-! ### A short write of an engine on an isolated die -/

/-- The hub in RUN with T-die 0 isolated, while ENG4 on that die runs on. -/
def isolatedEngineState : State :=
  (((State.reset.set GLB_STATE_STATE pkgRun).setBit GLB_DIE_ISOLATED dieT0 true).set (ENG_STAT_STATE 4) engRunning)

/-- Refutes O52: a write without all byte enables by an engine of an isolated die never reaches the C-die, so it is not counted
(R22, R23), although the path carries it. -/
theorem not_registerWrites : ¬ Obligations.RegisterWrites := by
  rintro ⟨short, -⟩
  obtain ⟨u, hu, hcount, -⟩ := short (.eng 4) 0 0 0 isolatedEngineState (by decide) (by decide)
  obtain rfl : isolatedEngineState = u := by injection hu
  exact absurd hcount (by decide)

end Sys2Proof.Machine

/-! What each access code stores of a write (R9, R35). A register's fields lie one above the other, so each field's bits are decided
by its own access code alone. -/

namespace Sys2Proof.Machine

/-! ### The fields of a register -/

/-- The fields lie within the word, each above those before it, the first at `lo` or above. -/
def Ladder (lo : Nat) : List FieldSpec → Bool
  | [] => lo ≤ 32
  | f :: l => lo ≤ f.lo && Ladder (f.lo + f.w) l

theorem ladder_cons {lo : Nat} {f : FieldSpec} {l : List FieldSpec} :
    Ladder lo (f :: l) = true ↔ lo ≤ f.lo ∧ Ladder (f.lo + f.w) l = true := by
  simp [Ladder]

theorem Ladder.ite {c : Prop} [Decidable c] {lo : Nat} {a b : List FieldSpec} (ha : Ladder lo a = true) (hb : Ladder lo b = true) :
    Ladder lo (if c then a else b) = true := by
  split
  · exact ha
  · exact hb

theorem Ladder.le {lo : Nat} {l : List FieldSpec} (h : Ladder lo l = true) : lo ≤ 32 := by
  induction l generalizing lo with
  | nil => simpa [Ladder] using h
  | cons f l ih =>
    obtain ⟨hlo, hl⟩ := ladder_cons.1 h
    have := ih hl
    omega

theorem Ladder.le_lo {lo : Nat} {l : List FieldSpec} (h : Ladder lo l = true) {f : FieldSpec} (hf : f ∈ l) : lo ≤ f.lo := by
  induction l generalizing lo with
  | nil => cases hf
  | cons g l ih =>
    obtain ⟨hlo, hl⟩ := ladder_cons.1 h
    rcases List.mem_cons.1 hf with rfl | hf
    · exact hlo
    · have := ih hl hf
      omega

set_option maxRecDepth 20000 in
/-- Row by row of the tables; the fields of five names depend on an index. -/
theorem Reg.fields_ladder (r : Reg) : Ladder 0 r.fields = true := by
  obtain ⟨n, i, j, k⟩ := r
  cases n
  case PLZ_PRIO | HK_BUCK | HOST_RING_CFG | MGT_MBX | PIN_CFG => exact Ladder.ite rfl rfl
  all_goals rfl

/-- An operation on one field of a word: it gives each bit of the field as `bit` says and leaves those beside the field. -/
structure FieldWise (op : FieldSpec → Word → Word) (bit : FieldSpec → Nat → Bool → Bool) : Prop where
  within : ∀ (f : FieldSpec) (w : Word) (i : Nat), f.lo + f.w ≤ 32 → f.lo ≤ i → i < f.lo + f.w →
    (op f w).toNat.testBit i = bit f i (w.toNat.testBit i)
  beside : ∀ (f : FieldSpec) (w : Word) (i : Nat), f.lo + f.w ≤ 32 → i < f.lo ∨ f.lo + f.w ≤ i →
    (op f w).toNat.testBit i = w.toNat.testBit i

section
variable {op : FieldSpec → Word → Word} {bit : FieldSpec → Nat → Bool → Bool} {lo : Nat} {l : List FieldSpec} {f : FieldSpec} {i : Nat}

/-- Fields from `lo` on leave the bits below. -/
theorem FieldWise.foldl_below (h : FieldWise op bit) (hl : Ladder lo l = true) (w : Word) (hi : i < lo) :
    (l.foldl (fun a f => op f a) w).toNat.testBit i = w.toNat.testBit i := by
  induction l generalizing lo w with
  | nil => rfl
  | cons f l ih =>
    obtain ⟨hlo, hl⟩ := ladder_cons.1 hl
    rw [List.foldl_cons, ih hl _ (by omega), h.beside f w i (Ladder.le hl) (by omega)]

/-- A field's bits are decided by the operation on that field alone. -/
theorem FieldWise.foldl_within (h : FieldWise op bit) (hl : Ladder lo l = true) (w : Word) (hf : f ∈ l) (hlo : f.lo ≤ i)
    (hhi : i < f.lo + f.w) : (l.foldl (fun a f => op f a) w).toNat.testBit i = bit f i (w.toNat.testBit i) := by
  induction l generalizing lo w with
  | nil => cases hf
  | cons g l ih =>
    obtain ⟨_, hl⟩ := ladder_cons.1 hl
    rw [List.foldl_cons]
    rcases List.mem_cons.1 hf with rfl | hf
    · rw [h.foldl_below hl _ hhi, h.within f w i (Ladder.le hl) hlo hhi]
    · have habove : g.lo + g.w ≤ f.lo := Ladder.le_lo hl hf
      rw [ih hl _ hf, h.beside g w i (Ladder.le hl) (by omega)]

theorem FieldWise.wordGet_bit (h : FieldWise op bit) (r : Reg) (w : Word) (hf : f ∈ r.fields) (hi : i < f.w) :
    (wordGet (r.fields.foldl (fun a f => op f a) w) f.lo f.w).testBit i = bit f (f.lo + i) ((wordGet w f.lo f.w).testBit i) := by
  simp only [Machine.wordGet_bit, hi, decide_true, Bool.true_and]
  exact h.foldl_within r.fields_ladder w hf (Nat.le_add_right f.lo i) (Nat.add_lt_add_left hi _)

end

/-! ### What a write stores, bit by bit -/

/-- What a field of the code stores of one bit, written as `new` over `old`. -/
def Acc.bitStored (a : Acc) (new old : Bool) : Bool :=
  match a with
  | .rw | .rwl => new
  | .w1c => old && !new
  | .ro | .wo => old

theorem bit_and_not (w m : Word) (i : Nat) : (w &&& ~~~m).toNat.testBit i = (w.toNat.testBit i && !m.toNat.testBit i) := by
  simp only [BitVec.testBit_toNat, BitVec.getLsbD_and, BitVec.getLsbD_not]
  by_cases hi : i < 32
  · simp [hi]
  · simp [hi, BitVec.getLsbD_of_ge w i (Nat.le_of_not_lt hi)]

theorem fieldWise_store (new : Word) :
    FieldWise (fun f old => f.store new old) (fun f i old => f.acc.bitStored (new.toNat.testBit i) old) where
  within f w i h hlo hhi := by
    have hw : i - f.lo < f.w := by omega
    unfold FieldSpec.store Acc.bitStored
    cases f.acc <;> simp [bit_and_not, -BitVec.toNat_and, wordSet_bit _ _ _ _ _ h, wordGet_bit, hlo, hhi, hw]
  beside f w i h ho := by
    have hn : ¬ (f.lo ≤ i ∧ i < f.lo + f.w) := by omega
    unfold FieldSpec.store
    cases f.acc <;> simp [bit_and_not, -BitVec.toNat_and, wordSet_bit _ _ _ _ _ h, hn]

/-- A bit of a field after a write is decided by the field's own code. -/
theorem Reg.stored_bit (r : Reg) (new old : Word) {f : FieldSpec} (hf : f ∈ r.fields) (i : Nat) :
    (wordGet (r.stored new old) f.lo f.w).testBit i =
      f.acc.bitStored ((wordGet new f.lo f.w).testBit i) ((wordGet old f.lo f.w).testBit i) := by
  by_cases hi : i < f.w
  · have hnew : (wordGet new f.lo f.w).testBit i = new.toNat.testBit (f.lo + i) := by simp [wordGet_bit, hi]
    rw [hnew]
    exact (fieldWise_store new).wordGet_bit r old hf hi
  · cases f.acc <;> simp [wordGet_bit, hi, Acc.bitStored]

theorem bitOf_eq_testBit (v i : Nat) : bitOf v i = v.testBit i := Nat.testBit_eq_decide_div_mod_eq.symm

/-- Settles O56: each code's rule for one bit, at every bit of the field. -/
theorem accessCodesOfFields : Obligations.AccessCodesOfFields := by
  unfold Obligations.AccessCodesOfFields
  refine ⟨fun r f new old hf hacc => Nat.eq_of_testBit_eq fun i => ?_, fun r f new old hf hacc => Nat.eq_of_testBit_eq fun i => ?_,
    fun r f new old i hf hacc _ => ?_⟩
  · rw [r.stored_bit new old hf]
    rcases hacc with h | h <;> rw [h] <;> rfl
  · rw [r.stored_bit new old hf]
    rcases hacc with h | h <;> rw [h] <;> rfl
  · rw [bitOf_eq_testBit, bitOf_eq_testBit, bitOf_eq_testBit, r.stored_bit new old hf, hacc]
    rfl

end Sys2Proof.Machine

/-! What every command keeps, operation by operation. `Robust` holds of the properties that any register write and any change of what is
held beside the registers and the stores keeps; `Sound` also of those that a change of the stores keeps where it leaves the queue and
the canonical forms. Each operation of the model has one lemma, under its own name. -/

namespace Sys2Proof.Machine

/-- A property that every register write keeps, and that only the registers and the stores decide. -/
structure Robust (P : State → Prop) : Prop extends Kept (fun _ => True) P

/-- The property is also kept where the queue is and no canonical form is lost. -/
structure Sound (P : State → Prop) : Prop extends Robust P where
  sound : ∀ s t : State, t.pending = s.pending → (s.Canon → t.Canon) → P s → P t

/-- The command answers a next state with the property. -/
def Answers (P : State → Prop) (o : Out) : Prop := ∃ u, o = .next u ∧ P u

section
variable {P : State → Prop} {s t : State}

/-- A change of what is held beside the registers and the stores. -/
theorem Kept.beside {ok : Reg → Prop} (K : Kept ok P) (hs : P s)
    (h : (t.regs, t.flash, t.torn, t.engMem, t.otp.fuse, t.pending) = (s.regs, s.flash, s.torn, s.engMem, s.otp.fuse, s.pending)) :
    P t := by
  simp only [Prod.mk.injEq] at h
  obtain ⟨hr, hf, ht, he, hu, hp⟩ := h
  exact K.rest s t hr ⟨hf, ht, he, hu, hp⟩ hs

theorem Robust.beside (K : Robust P) (hs : P s)
    (h : (t.regs, t.flash, t.torn, t.engMem, t.otp.fuse, t.pending) = (s.regs, s.flash, s.torn, s.engMem, s.otp.fuse, s.pending)) :
    P t :=
  K.toKept.beside hs h

theorem Robust.withImg (K : Robust P) {x : Vector (Option ImgInfo) 3} (hs : P s) : P { s with img := x } := K.beside hs rfl
theorem Robust.withKilnStale (K : Robust P) {x : Nat} (hs : P s) : P { s with kilnStale := x } := K.beside hs rfl
theorem Robust.withPin (K : Robust P) {x : PinInt} (hs : P s) : P { s with pin := x } := K.beside hs rfl
theorem Robust.withRr (K : Robust P) {x : Vector Nat 4} (hs : P s) : P { s with rr := x } := K.beside hs rfl
theorem Robust.withStbOfs (K : Robust P) {x : Vector Nat 2} (hs : P s) : P { s with stbOfs := x } := K.beside hs rfl
theorem Robust.withStbRuns (K : Robust P) {x : Bool} (hs : P s) : P { s with stbRuns := x } := K.beside hs rfl
theorem Robust.withStg (K : Robust P) {x : Vector (Option ImgInfo) 3} (hs : P s) : P { s with stg := x } := K.beside hs rfl
theorem Robust.withTrg (K : Robust P) {x : Vector TrgInt 4} (hs : P s) : P { s with trg := x } := K.beside hs rfl
theorem Robust.setWord (K : Robust P) {r : Reg} {w : Word} (hs : P s) : P (s.setWord r w) := K.word _ _ _ trivial hs
theorem Robust.set (K : Robust P) {f : Fld} {v : Nat} (hs : P s) : P (s.set f v) := K.setWord hs
theorem Robust.put (K : Robust P) {f : Fld} {b : Bool} (hs : P s) : P (s.put f b) := K.set hs
theorem Robust.setBit (K : Robust P) {f : Fld} {i : Nat} {b : Bool} (hs : P s) : P (s.setBit f i b) := K.set hs
theorem Robust.bumpBy (K : Robust P) {f : Fld} {n : Nat} (hs : P s) : P (s.bumpBy f n) := K.set hs
theorem Robust.bump (K : Robust P) {f : Fld} (hs : P s) : P (s.bump f) := K.bumpBy hs
theorem Robust.setS (K : Robust P) {f : Fld} {v : Int} (hs : P s) : P (s.setS f v) := K.set hs
theorem Robust.setWide (K : Robust P) {lo hi : Fld} {v : Nat} (hs : P s) : P (s.setWide lo hi v) := K.set (K.set hs)
theorem Robust.setS48 (K : Robust P) {lo hi : Fld} {v : Int} (hs : P s) : P (s.setS48 lo hi v) := K.setWide hs
theorem Robust.emit (K : Robust P) {e : Emit} (hs : P s) : P (s.emit e) := K.beside hs rfl
theorem Robust.vector (K : Robust P) {v : Nat} (hs : P s) : P (s.vector v) := K.toKept.vector v trivial hs
theorem Robust.draw (K : Robust P) (hs : P s) : P s.draw.2 := K.beside hs rfl
theorem Robust.modOtp (K : Robust P) {f : OtpInt → OtpInt} (hf : ∀ o, (f o).fuse = o.fuse) (hs : P s) : P (s.modOtp f) :=
  K.beside hs (by simp only [State.modOtp, hf])
theorem Robust.raiseLine (K : Robust P) {l : Nat} (hs : P s) : P (raiseLine l s) := K.toKept.raiseLine l trivial hs
theorem Robust.eventLine (K : Robust P) (hs : P s) : P (eventLine s) := K.toKept.eventLine trivial hs
theorem Robust.postEvt (K : Robust P) {code src body : Nat} (hs : P s) : P (s.postEvt code src body) :=
  K.toKept.postEvt _ _ _ (fun _ _ => trivial) hs
theorem Robust.pushEvt (K : Robust P) {code src body : Nat} (hs : P s) : P (s.pushEvt code src body) :=
  K.toKept.pushEvt _ _ _ (fun _ _ => trivial) hs
theorem Robust.raise (K : Robust P) {f : Fld} {i code src : Nat} {body : List (Nat × Nat)} (hs : P s) :
    P (s.raise f i code src body) :=
  K.pushEvt (K.setBit hs)
theorem Robust.ignored (K : Robust P) {source addr detail : Nat} (hs : P s) : P (s.ignored source addr detail) :=
  K.toKept.ignored _ _ _ (fun _ _ => trivial) hs

theorem Robust.each (_ : Robust P) {n : Nat} {f : Nat → State → State} (hf : ∀ i s, P s → P (f i s)) (hs : P s) : P (s.each n f) :=
  s.each_keeps n f (fun i _ => hf i) hs
theorem Robust.foldl (_ : Robust P) {α : Type} {l : List α} {f : State → α → State} (hf : ∀ s a, P s → P (f s a)) (hs : P s) :
    P (l.foldl f s) :=
  foldl_keeps l f (fun a _ s => hf s a) hs
theorem Robust.when (_ : Robust P) {b : Bool} {f : State → State} (hf : ∀ s, P s → P (f s)) (hs : P s) : P (s.when b f) :=
  s.when_keeps b f (fun _ => hf s) hs
theorem Robust.ite (_ : Robust P) {c : Prop} [Decidable c] (hs : P s) (ht : P t) : P (if c then s else t) := by
  split
  · exact hs
  · exact ht
theorem Robust.iteRes (_ : Robust P) {c : Prop} [Decidable c] {a b : CmdRes} (ha : P a.s) (hb : P b.s) :
    P (if c then a else b).s := by
  split
  · exact ha
  · exact hb
theorem Robust.iteSnd (_ : Robust P) {c : Prop} [Decidable c] {α : Type} {a b : α × State} (ha : P a.2) (hb : P b.2) :
    P (if c then a else b).2 := by
  split
  · exact ha
  · exact hb
theorem Robust.iteFun (_ : Robust P) {c : Prop} [Decidable c] {f g : State → State} (hf : P (f s)) (hg : P (g s)) :
    P ((if c then f else g) s) := by
  split
  · exact hf
  · exact hg
theorem Sound.withRegs (K : Sound P) {l : List (Reg × Word)} (hl : RegsWf s.regs → RegsWf l) (hs : P s) : P { s with regs := l } :=
  K.sound s _ rfl (fun h => ⟨hl h.1, h.2⟩) hs
theorem Robust.snd (_ : Robust P) {α : Type} {a : α} (hs : P s) : P (a, s).2 := hs
theorem Robust.next (_ : Robust P) (hs : P s) : Answers P (.next s) := ⟨s, rfl, hs⟩
end

end Sys2Proof.Machine

namespace Sys2Proof.Machine

section
variable {P : State → Prop} {s : State}

/-! ### Shared operations -/

theorem Robust.raiseLineFrom (K : Robust P) {d l : Nat} (hs : P s) : P (raiseLineFrom d l s) := K.ite (K.raiseLine hs) hs
theorem Robust.raiseLineFor (K : Robust P) {d l : Nat} {mark : Nat → State → State} (hmark : ∀ a0 s, P s → P (mark a0 s)) (hs : P s) :
    P (raiseLineFor d l mark s) :=
  K.ite (hmark _ _ <| K.raiseLine hs) hs
theorem Robust.showFill (K : Robust P) (hs : P s) : P (showFill s) := K.set hs
theorem Robust.dropOldest (K : Robust P) (hs : P s) : P (s.dropOldest) :=
  K.ite (K.postEvt <| K.showFill <| K.beside hs rfl) <| K.showFill <| K.beside hs rfl
theorem Robust.dropAt (K : Robust P) {i : Nat} (hs : P s) : P (s.dropAt i) :=
  K.ite (K.dropOldest hs) <| K.ite (K.postEvt <| K.showFill <| K.beside hs rfl) <| K.showFill <| K.beside hs rfl
theorem Sound.engStore (K : Sound P) {e a : Nat} {b : List Byte} (hs : P s) : P (engStore e a b s) :=
  K.sound s _ rfl (fun h => ⟨h.1, h.2.1, engStore_wf e a b h.2.2⟩) hs
theorem Sound.engLoad (K : Sound P) {e entry : Nat} {text data : List Byte} (hs : P s) : P (engLoad e text data entry s) :=
  K.sound s _ rfl (fun h => ⟨h.1, h.2.1, engLoad_wf e entry text data h.2.2⟩) hs
theorem Sound.engWrite (K : Sound P) {e a : Nat} {b : List Byte} (hs : P s) : P (engWrite e a b s) := K.ite (K.engStore hs) hs
theorem Robust.engInterrupt (K : Robust P) {e : Nat} {pin : Bool} (hs : P s) : P (engInterrupt e pin s) := K.ite (K.emit hs) hs
theorem Robust.poisoned (K : Robust P) {die mem addr : Nat} (hs : P s) : P (poisoned die mem addr s) :=
  K.ite (K.raise <| K.beside hs rfl) <| K.beside hs rfl

/-! ### Frequencies and output units -/

theorem Robust.modSyn (K : Robust P) {c : Nat} {f : SynInt → SynInt} (hs : P s) : P (s.modSyn c f) := K.beside hs rfl
theorem Robust.modOut (K : Robust P) {n : Nat} {f : OutInt → OutInt} (hs : P s) : P (s.modOut n f) := K.beside hs rfl

/-! ### Monitors and selectors -/

theorem Robust.cmdIgnored (_ : Robust P) (hs : P s) : P (cmdIgnored s).s := hs
theorem Robust.cmdOk (_ : Robust P) (hs : P s) : P (cmdOk s).s := hs
theorem Robust.modMon (K : Robust P) {m : Nat} {f : MonInt → MonInt} (hs : P s) : P (s.modMon m f) := K.beside hs rfl
theorem Robust.voidGate (K : Robust P) {m : Nat} (hs : P s) : P (s.voidGate m) := K.modMon hs
theorem Robust.showQrem (K : Robust P) {m : Nat} (hs : P s) : P (showQrem m s) := K.set hs
theorem Robust.loadQual (K : Robust P) {m : Nat} (hs : P s) : P (s.loadQual m) := K.showQrem <| K.modMon hs
theorem Robust.reloadQual (K : Robust P) {m : Nat} (hs : P s) : P (s.reloadQual m) := K.showQrem <| K.modMon hs
theorem Robust.qualTick (K : Robust P) {m : Nat} (hs : P s) : P (qualTick m s) := K.ite (K.showQrem <| K.modMon hs) hs
theorem Robust.monFail (K : Robust P) {m : Nat} (hs : P s) : P (s.monFail m) := K.set <| K.set hs
theorem Robust.monDisable (K : Robust P) {m : Nat} (hs : P s) : P (monDisable m s) := K.voidGate <| K.set <| K.set <| K.set hs
theorem Robust.monEnable (K : Robust P) {m : Nat} (hs : P s) : P (monEnable m s) := K.ite (K.voidGate <| K.set <| K.set hs) hs
theorem Robust.execActivityLost (K : Robust P) {m : Fin 16} (hs : P s) : Answers P (execActivityLost m s) :=
  K.next <| K.ite (K.ite (K.raise <| K.bump <| K.monFail <| K.voidGate <| K.set hs) <| K.voidGate <| K.set hs) hs
theorem Robust.execActivityRegained (K : Robust P) {m : Fin 16} (hs : P s) : Answers P (execActivityRegained m s) :=
  K.next <| K.ite (K.modMon <| K.set hs) hs
theorem Robust.execFreqGateDone (K : Robust P) {m : Fin 16} {res : BitVec 48} (hs : P s) : Answers P (execFreqGateDone m res s) :=
  K.next <| K.ite (K.ite (K.modMon hs) <| K.ite (K.raise <| K.monFail <| K.put <| K.put <| K.set <| K.set <| K.modMon hs) <|
      K.ite (K.loadQual <| K.set <| K.put <| K.put <| K.set <| K.set <| K.modMon hs) <| K.put <| K.put <| K.set <| K.set <|
      K.modMon hs) hs
theorem Robust.execPhaseJump (K : Robust P) {m : Fin 16} {dev : Word} (hs : P s) : Answers P (execPhaseJump m dev s) :=
  K.next <| K.ite (K.ite (K.ite (K.reloadQual <| K.withTrg <| K.raise <| K.set <| K.bump <| K.voidGate hs) <| K.ite (K.monFail
      <| K.withTrg <| K.raise <| K.set <| K.bump <| K.voidGate hs) <| K.withTrg <| K.raise <| K.set <| K.bump <| K.voidGate hs)
      <| K.voidGate hs) hs
theorem Robust.execQualTimerExpire (K : Robust P) {m : Fin 16} (hs : P s) : Answers P (execQualTimerExpire m s) :=
  K.next <| K.ite (K.raise <| K.set <| K.set hs) hs
theorem Robust.freezeMonitors (K : Robust P) (hs : P s) : P (freezeMonitors s) := K.each (fun _ _ h => K.set h) hs
theorem Robust.execLaneCalDone (K : Robust P) {r01 r10 : Byte} (hs : P s) : Answers P (execLaneCalDone r01 r10 s) :=
  K.next <| K.set <| K.set <| K.set hs
theorem Robust.execSelectorPass (K : Robust P) {t : Fin 4} (hs : P s) : Answers P (execSelectorPass t s) := by
  refine K.next ?_
  refine K.ite hs ?_
  refine K.pushEvt ?_
  split
  · refine K.bump ?_
    refine K.set ?_
    refine K.set ?_
    split
    · exact K.set <| K.set hs
    · exact K.set hs
  · refine K.set ?_
    split
    · exact K.set <| K.set hs
    · exact K.set hs
theorem Robust.cmdRefForce (K : Robust P) {t idx : Nat} (hs : P s) : P (cmdRefForce t idx s).s :=
  K.iteRes (K.cmdOk <| K.set <| K.set hs) <| K.cmdIgnored hs
theorem Robust.cmdRefAuto (K : Robust P) {t : Nat} (hs : P s) : P (cmdRefAuto t s).s := K.cmdOk <| K.set hs
theorem Robust.plzAfter (K : Robust P) {r : Reg} {old new : Word} (hs : P s) : P (plzAfter r old new s) := by
  unfold Machine.plzAfter
  split
  · exact K.ite (K.beside hs rfl) hs
  · exact K.ite (K.monEnable hs) <| K.ite (K.monDisable hs) hs
  · exact hs

/-! ### Region DPLLs -/

theorem Robust.modTrg (K : Robust P) {t : Nat} {f : TrgInt → TrgInt} (hs : P s) : P (s.modTrg t f) := K.beside hs rfl
theorem Robust.clearAlignPend (K : Robust P) {t mask other : Nat} (hs : P s) : P (clearAlignPend t mask other s) :=
  K.each (fun _ _ h => K.ite (K.set h) h) hs
theorem Robust.dropRealign (K : Robust P) {t cause : Nat} (hs : P s) : P (dropRealign t cause s) := by
  unfold Machine.dropRealign
  split
  · exact K.raise <| K.set <| K.clearAlignPend <| K.modTrg hs
  · exact hs
theorem Robust.dropRsync (K : Robust P) {t cause : Nat} (hs : P s) : P (dropRsync t cause s) :=
  K.ite (K.each (fun _ _ h => K.ite (K.raise h) h) <| K.set <| K.set <| K.clearAlignPend hs) hs
theorem Robust.setCv (K : Robust P) {t : Nat} {v : Int} (hs : P s) : P (setCv t v s) :=
  K.ite (K.raise <| K.modTrg <| K.put <| K.setS48 hs) <| K.ite (K.modTrg <| K.put <| K.setS48 hs) <| K.put <| K.setS48 hs
theorem Robust.applyHoldover (K : Robust P) {t : Nat} (hs : P s) : P (applyHoldover t s) := K.setCv hs
theorem Robust.trackCv (K : Robust P) {t : Nat} {v : Int} (hs : P s) : P (trackCv t v s) := K.ite (K.setCv hs) hs
theorem Robust.updateBw (K : Robust P) {t : Nat} (hs : P s) : P (updateBw t s) := K.set hs
theorem Robust.samplePhase (K : Robust P) {t : Nat} {ph : Word} (hs : P s) : P (samplePhase t ph s) :=
  K.ite (K.updateBw <| K.modTrg <| K.set hs) <| K.set hs
theorem Robust.writeHoldover (K : Robust P) {t : Nat} {h : Int × Nat × Nat × Int} (hs : P s) : P (writeHoldover t h s) :=
  K.ite (K.setS <| K.set <| K.set <| K.set <| K.setS48 hs) <| K.set <| K.set <| K.set <| K.setS48 hs
theorem Robust.enterHoldover (K : Robust P) {t : Nat} {value : Int} {src nvalid : Nat} (hs : P s) :
    P (enterHoldover t value src nvalid s) :=
  K.raise <| K.when (fun _ h => K.beside h rfl) <| K.applyHoldover <| K.set <| K.bump <| K.setWord <| K.setWord <| K.set <|
      K.set <| K.set <| K.modTrg hs
theorem Robust.loseCandidate (K : Robust P) {t : Nat} (hs : P s) : P (loseCandidate t s) :=
  K.enterHoldover <| K.writeHoldover <| K.ite (K.dropRsync <| K.dropRealign hs) hs
theorem Robust.startCapture (K : Robust P) {t cand : Nat} {slew : Bool} (hs : P s) : P (startCapture t cand slew s) :=
  K.updateBw <| K.set <| K.modTrg <| K.dropRsync <| K.dropRealign hs
theorem Robust.dpllFollowSelector (K : Robust P) {t : Nat} (hs : P s) : P (dpllFollowSelector t s) := by
  refine K.ite hs ?_
  split
  · exact K.ite (K.loseCandidate hs) hs
  · exact K.ite (K.ite hs <| K.startCapture hs) <| K.startCapture <| K.modTrg <| K.set <| K.ite (K.raise hs) hs
theorem Robust.execDpllSelect (K : Robust P) {t : Fin 4} (hs : P s) : Answers P (execDpllSelect t s) :=
  K.next <| K.dpllFollowSelector hs
theorem Sound.clearRing (K : Sound P) {t : Nat} (hs : P s) : P (clearRing t s) :=
  K.sound s _ (by simp [Machine.clearRing]) (fun h => ⟨regsWf_clearRing h.1 t, by simpa [Machine.clearRing] using h.2⟩) hs
theorem Sound.dpllDisable (K : Sound P) {t : Nat} (hs : P s) : P (dpllDisable t s) :=
  K.clearRing <| K.setCv <| K.modTrg <| K.set <| K.set <| K.set <| K.ite (K.dropRsync <| K.dropRealign hs) <| K.dropRealign hs
theorem Robust.dpllEnable (K : Robust P) {t : Nat} (hs : P s) : P (dpllEnable t s) :=
  K.ite hs <| K.ite (K.dpllFollowSelector <| K.enterHoldover hs) <| K.dpllFollowSelector <| K.setCv <| K.set hs
theorem Robust.holdDpll (K : Robust P) {t : Nat} {cv : Int} (hs : P s) : P (holdDpll t cv s) :=
  K.ite (K.dropRsync <| K.dropRealign <| K.set <| K.modTrg <| K.trackCv hs) hs
theorem Robust.execDpllHold (K : Robust P) {t : Fin 4} {cv : BitVec 48} (hs : P s) : Answers P (execDpllHold t cv s) :=
  K.next <| K.holdDpll hs
theorem Robust.execSampleLate (K : Robust P) {t : Fin 4} {cv : BitVec 48} (hs : P s) : Answers P (execSampleLate t cv s) :=
  K.next <| K.holdDpll hs
theorem Robust.execDpllLock (K : Robust P) {t : Fin 4} {cv : BitVec 48} {phErr : Word} (hs : P s) :
    Answers P (execDpllLock t cv phErr s) :=
  K.next <| K.ite (K.raise <| K.updateBw <| K.modTrg <| K.set <| K.samplePhase <| K.trackCv hs) hs
theorem Robust.execDpllUnlock (K : Robust P) {t : Fin 4} {cv : BitVec 48} {phErr : Word} (hs : P s) :
    Answers P (execDpllUnlock t cv phErr s) :=
  K.next <| K.ite (K.raise <| K.updateBw <| K.modTrg <| K.set <| K.dropRsync <| K.dropRealign <| K.samplePhase <| K.trackCv hs) hs
theorem Robust.execPullinSat (K : Robust P) {t : Fin 4} {neg : Bool} (hs : P s) : Answers P (execPullinSat t neg s) :=
  K.next <| K.trackCv hs
theorem Robust.execBuildout (K : Robust P) {t : Fin 4} {phase : BitVec 64} (hs : P s) : Answers P (execBuildout t phase s) := by
  refine K.next ?_
  split
  · exact K.raise <| K.put <| K.updateBw <| K.modTrg <| K.setS48 hs
  · exact hs
theorem Robust.slewEnd (K : Robust P) {t : Nat} (hs : P s) : P (slewEnd t s) := K.set <| K.setS48 hs
theorem Robust.slewTick (K : Robust P) {t : Nat} (hs : P s) : P (slewTick t s) :=
  K.ite (K.ite (K.slewEnd hs) <| K.modTrg <| K.setS48 hs) hs
theorem Robust.execSlewDone (K : Robust P) {t : Fin 4} (hs : P s) : Answers P (execSlewDone t s) :=
  K.next <| K.ite (K.slewEnd hs) hs
theorem Robust.cmdHoldoverForce (K : Robust P) {t : Nat} {force : Bool} (hs : P s) : P (cmdHoldoverForce t force s).s :=
  K.iteRes (K.cmdIgnored hs) <| K.iteRes (K.cmdOk <| K.set <| K.ite (K.loseCandidate hs) hs) <| K.iteRes (K.cmdOk hs) <| K.cmdOk
      <| K.dpllFollowSelector <| K.set hs
theorem Robust.applyTerm (K : Robust P) {t : Nat} (hs : P s) : P (applyTerm t s) :=
  K.ite (K.applyHoldover <| K.modTrg hs) <| K.modTrg hs
theorem Robust.engineTerm (K : Robust P) {t : Nat} {now : Int} (hs : P s) : P (engineTerm t now s) :=
  K.ite (K.applyTerm <| K.setS48 hs) hs
theorem Robust.execHistoryInterval (K : Robust P) {t : Fin 4} {mean cv : BitVec 48} {temp : BitVec 12} {phErr : Word} (hs : P s) :
    Answers P (execHistoryInterval t mean cv temp phErr s) :=
  K.next <| K.ite hs <| K.when (fun _ h => K.raiseLineFor (fun _ _ h1 => K.modTrg h1) h) <| K.ite (K.engineTerm <| K.bump <|
      K.modTrg <| K.when (fun _ h => K.writeHoldover h) <| K.set <| K.set <| K.put <| K.set <| K.setWide <| K.trackCv <| K.ite
      (K.samplePhase hs) hs) <| K.modTrg <| K.when (fun _ h => K.writeHoldover h) <| K.set <| K.set <| K.put <| K.set <|
      K.setWide <| K.trackCv <| K.ite (K.samplePhase hs) hs
theorem Robust.writeKilnRecord (K : Robust P) {t : Nat} {v : Int} {stb : Bool} (hs : P s) : P (writeKilnRecord t v stb s) := by
  unfold Machine.writeKilnRecord
  dsimp only
  exact K.ite (K.withKilnStale <| K.set <| K.set <| K.put <| K.setS48 hs) hs
theorem Robust.execKilnHoWrite (K : Robust P) {t : Fin 4} (hs : P s) : Answers P (execKilnHoWrite t s) := by
  refine K.next ?_
  split
  · exact K.modTrg <| K.writeKilnRecord hs
  · exact hs
theorem Robust.moveSampling (K : Robust P) {t : Nat} {toStb : Bool} (hs : P s) : P (moveSampling t toStb s) :=
  K.ite hs <| K.ite (K.ite (K.applyHoldover <| K.modTrg <| K.put hs) <| K.setCv <| K.modTrg <| K.put hs) <| K.raise <| K.ite
      (K.applyHoldover <| K.modTrg <| K.put hs) <| K.setCv <| K.modTrg <| K.put hs
theorem Robust.showLoStb (K : Robust P) (hs : P s) : P (showLoStb s) := K.each (fun _ _ h => K.set h) hs
theorem Robust.measureLoStb (K : Robust P) {o0 o1 : Word} (hs : P s) : P (measureLoStb o0 o1 s) :=
  K.withStbOfs <| K.each (fun _ _ h => K.set h) hs
theorem Robust.execStbLoss (K : Robust P) {o0 o1 : Word} (hs : P s) : Answers P (execStbLoss o0 o1 s) :=
  K.next <| K.showLoStb <| K.withStbRuns <| K.each (fun _ _ h => K.modTrg h) <| K.each (fun _ _ h => K.moveSampling h) <|
      K.measureLoStb hs
theorem Robust.execStbStart (K : Robust P) {o0 o1 : Word} (hs : P s) : Answers P (execStbStart o0 o1 s) :=
  K.next <| K.withStbRuns <| K.each (fun _ _ h => K.ite (K.moveSampling h) h) <| K.measureLoStb hs
theorem Robust.stbEnWritten (K : Robust P) {t : Nat} {old new : Bool} (hs : P s) : P (stbEnWritten t old new s) :=
  K.ite (K.ite (K.moveSampling <| K.modTrg hs) <| K.modTrg hs) <| K.ite hs <| K.moveSampling <| K.modTrg hs
theorem Robust.cmdRealign (K : Robust P) {t mask k : Nat} (hs : P s) : P (cmdRealign t mask k s).s :=
  K.iteRes (K.cmdOk <| K.set <| K.each (fun _ _ h => K.ite (K.set h) h) <| K.modTrg <| K.dropRealign hs) <| K.cmdIgnored hs
theorem Sound.trgAfter (K : Sound P) {r : Reg} {old new : Word} (hs : P s) : P (trgAfter r old new s) := by
  unfold Machine.trgAfter
  dsimp only
  split
  · exact K.ite (K.applyHoldover <| K.ite (K.dpllDisable <| K.stbEnWritten hs) <| K.ite (K.dpllEnable <| K.stbEnWritten hs) <|
      K.stbEnWritten hs) <| K.ite (K.dpllDisable <| K.stbEnWritten hs) <| K.ite (K.dpllEnable <| K.stbEnWritten hs) <|
      K.stbEnWritten hs
  · exact K.ite (K.updateBw hs) hs
  · exact K.ite (K.applyHoldover hs) <| K.setCv hs
  · exact K.ite (K.modTrg <| K.clearRing hs) hs
  · exact K.applyTerm hs
  · exact hs

/-! ### The fault fabric -/

theorem Robust.latchClass (K : Robust P) {c : Nat} (hs : P s) : P (latchClass c s) := K.setBit hs
theorem Robust.latchFrom (K : Robust P) {d c : Nat} (hs : P s) : P (latchFrom d c s) := K.ite (K.latchClass hs) hs
theorem Robust.rearmDeps (K : Robust P) (hs : P s) : P (rearmDeps s) := K.beside hs rfl
theorem Robust.triggerDeps (K : Robust P) {p : State → Nat → Bool} (hs : P s) : P (triggerDeps p s) := K.beside hs rfl
theorem Robust.clockLoss (K : Robust P) {c mask : Nat} (hs : P s) : P (clockLoss c mask s) := by
  unfold Machine.clockLoss
  exact K.triggerDeps <| K.latchFrom <| K.pushEvt hs
theorem Robust.railTrigger (K : Robust P) {r : Nat} (hs : P s) : P (railTrigger r s) := K.triggerDeps hs
theorem Robust.modRail (K : Robust P) {r : Nat} {f : RailInt → RailInt} (hs : P s) : P (s.modRail r f) := K.beside hs rfl
theorem Robust.setPhases (K : Robust P) {r st : Nat} (hs : P s) : P (setPhases r st s) := K.foldl (fun _ _ h => K.set h) hs
theorem Robust.setActive (K : Robust P) {r n : Nat} (hs : P s) : P (setActive r n s) := K.set <| K.foldl (fun _ _ h => K.set h) hs
theorem Robust.railUnregulated (K : Robust P) {r : Nat} (hs : P s) : P (railUnregulated r s) :=
  K.setBit <| K.set <| K.set <| K.set hs
theorem Robust.modPrg (K : Robust P) {p : Nat} {f : PrgInt → PrgInt} (hs : P s) : P (s.modPrg p f) := K.beside hs rfl
theorem Robust.railIdle (K : Robust P) {r ph : Nat} (hs : P s) : P (railIdle r ph s) :=
  K.setPhases <| K.set <| K.railUnregulated <| K.modRail <| K.modPrg hs
theorem Robust.railToSafe (K : Robust P) {r : Nat} (hs : P s) : P (railToSafe r s) :=
  K.ite hs <| K.railTrigger <| K.modRail <| K.bump <| K.setBit <| K.railIdle <| K.set hs
theorem Robust.showHold (K : Robust P) {r : Nat} (hs : P s) : P (showHold r s) := K.setBit <| K.put hs
theorem Robust.groupShutdown (K : Robust P) {r : Nat} (hs : P s) : P (groupShutdown r s) :=
  K.foldl (fun _ _ h => K.ite (K.railToSafe h) <| K.showHold <| K.modRail <| K.railToSafe h) hs
theorem Robust.packageShutdown (K : Robust P) (hs : P s) : P (packageShutdown s) :=
  K.each (fun _ _ h => K.railToSafe <| K.set h) <| K.set hs
theorem Robust.leaveSafe (K : Robust P) {r : Nat} (hs : P s) : P (leaveSafe r s) :=
  K.pushEvt <| K.each (fun _ _ h => K.showHold <| K.modRail h) <| K.modRail <| K.set <| K.setBit <| K.railIdle <| K.set <| K.set
      hs
theorem Robust.refreshWindow (K : Robust P) {p w : Nat} (hs : P s) : P (refreshWindow p w s) :=
  K.ite (K.raise <| K.setBit <| K.setBit hs) <| K.setBit <| K.setBit hs
theorem Robust.refreshWindows (K : Robust P) {p : Nat} (hs : P s) : P (refreshWindows p s) :=
  K.each (fun _ _ h => K.refreshWindow h) hs
theorem Robust.modLnk (K : Robust P) {k : Nat} {f : LnkInt → LnkInt} (hs : P s) : P (s.modLnk k f) := K.beside hs rfl
theorem Robust.dropAverage (K : Robust P) {k : Nat} (hs : P s) : P (dropAverage k s) := K.modLnk hs
theorem Robust.epochRealigned (K : Robust P) {n : Nat} (hs : P s) : P (epochRealigned n s) :=
  K.ite (K.dropAverage <| K.dropAverage hs) hs

/-! ### Links -/

theorem Robust.modSys (K : Robust P) {f : SysInt → SysInt} (hs : P s) : P (s.modSys f) := K.beside hs rfl
theorem Robust.portEvt (K : Robust P) {k bit : Nat} {body : List (Nat × Nat)} (hs : P s) : P (portEvt k bit body s) := K.raise hs
theorem Robust.sysEvt (K : Robust P) {bit : Nat} {body : List (Nat × Nat)} (hs : P s) : P (sysEvt bit body s) := K.raise hs
theorem Robust.noteLink (K : Robust P) {code : Nat} (hs : P s) : P (noteLink code s) := K.ite (K.beside hs rfl) hs
theorem Robust.sendCell (K : Robust P) {k type : Nat} {body : List Byte} (hs : P s) : P (sendCell k type body s) := K.emit hs
theorem Robust.sendMessage (K : Robust P) {k : Nat} {m : List Byte} (hs : P s) : P (sendMessage k m s) :=
  K.ite (K.each (fun _ _ h => K.sendCell h) hs) <| K.modLnk hs
theorem Robust.forwardCell (K : Robust P) {k src type : Nat} {body : List Byte} (hs : P s) : P (forwardCell k src type body s) :=
  K.foldl (fun _ _ h => K.sendCell h) <| K.modLnk hs
theorem Robust.sendTree (K : Robust P) {m : List Byte} (hs : P s) : P (sendTree m s) :=
  K.each (fun _ _ h => K.when (fun _ h1 => K.sendMessage h1) h) hs
theorem Robust.sendUp (K : Robust P) {m : Nat → List Byte} (hs : P s) : P (sendUp m s) :=
  K.each (fun _ _ h => K.when (fun _ h1 => K.sendMessage h1) h) hs
theorem Robust.showPorts (K : Robust P) (hs : P s) : P (showPorts s) := by
  refine K.each ?_ hs
  intro _ _ h
  dsimp only
  split
  · exact K.set <| K.set <| K.set <| K.put <| K.set h
  · exact K.put <| K.set h
theorem Robust.showSys (K : Robust P) (hs : P s) : P (showSys s) := by
  refine K.each ?_ hs
  intro _ _ h
  refine K.ite ?_ h
  refine K.ite ?_ (K.ite (K.set <| K.set h) <| K.set h)
  split
  · exact K.ite (K.set <| K.set h) <| K.set h
  · exact K.set h
theorem Robust.clearSysValid (K : Robust P) (hs : P s) : P (clearSysValid s) := K.each (fun _ _ h => K.set h) hs
theorem Robust.relay (K : Robust P) (hs : P s) : P (relay s) := K.sendUp hs
theorem Robust.withdraw (K : Robust P) (hs : P s) : P (withdraw s) := K.sendUp hs
theorem Robust.setGm (K : Robust P) {gm prio1 prio2 cls lat ph hops : Nat} (hs : P s) : P (setGm gm prio1 prio2 cls lat ph hops s) :=
  K.set <| K.set <| K.set <| K.set <| K.set <| K.set <| K.setWide hs
theorem Robust.gmChange (K : Robust P) {old : Nat} (hs : P s) : P (gmChange old s) := K.noteLink <| K.sysEvt <| K.bump hs
theorem Robust.adopt (K : Robust P) {k : Nat} {o : Offer} (hs : P s) : P (adopt k o s) :=
  K.ite (K.when (fun _ h => K.gmChange h) <| K.when (fun _ h => K.noteLink <| K.sysEvt <| K.bump h) <| K.showSys <| K.showPorts
      <| K.set <| K.set <| K.setGm <| K.set <| K.set hs) <| K.ite (K.noteLink <| K.sysEvt <| K.when (fun _ h => K.gmChange h) <|
      K.when (fun _ h => K.noteLink <| K.sysEvt <| K.bump h) <| K.showSys <| K.showPorts <| K.set <| K.set <| K.setGm <| K.set
      <| K.set hs) <| K.noteLink <| K.sysEvt <| K.when (fun _ h => K.gmChange h) <| K.when (fun _ h => K.noteLink <| K.sysEvt <|
      K.bump h) <| K.showSys <| K.showPorts <| K.set <| K.set <| K.setGm <| K.set <| K.set hs
theorem Robust.noUplink (K : Robust P) {st : Nat} (hs : P s) : P (noUplink st s) := K.showPorts <| K.set <| K.set hs
theorem Robust.reelect (K : Robust P) {from_ : Option Nat} (hs : P s) : P (reelect from_ s) := by
  refine K.ite ?_ ?_
  · split
    · exact K.when (fun _ h => K.relay h) <| K.adopt hs
    · exact K.noUplink <| K.clearSysValid <| K.withdraw <| K.showPorts hs
  · refine K.ite ?_ (K.showPorts hs)
    split
    · exact K.ite (K.relay <| K.adopt hs) <| K.showPorts hs
    · exact K.showPorts hs
theorem Robust.showEpoch (K : Robust P) {d : Nat} (hs : P s) : P (showEpoch d s) :=
  K.ite (K.ite (K.put hs) <| K.reelect <| K.foldl (fun _ _ h => K.dropAverage <| K.set h) <| K.put hs) <| K.put hs
theorem Robust.showEpochs (K : Robust P) (hs : P s) : P (showEpochs s) := K.showEpoch <| K.showEpoch hs
theorem Robust.refreshAllWindows (K : Robust P) (hs : P s) : P (refreshAllWindows s) :=
  K.showEpochs <| K.each (fun _ _ h => K.refreshWindows h) hs
theorem Robust.portDrop (K : Robust P) {k : Nat} (hs : P s) : P (portDrop k s) :=
  K.modLnk <| K.each (fun _ _ h => K.modLnk h) <| K.when (fun _ h => K.bump h) <| K.set <| K.set hs
theorem Robust.endCopiesOn (K : Robust P) {l : List Nat} {k : Nat} (hs : P s) : P (endCopiesOn l k s) :=
  K.foldl (fun _ _ h => K.when (fun _ h1 => K.forwardCell h1) h) hs
theorem Robust.endCopies (K : Robust P) {k : Nat} (hs : P s) : P (endCopies k s) := K.endCopiesOn hs
theorem Robust.portDown (K : Robust P) {k st : Nat} {loss : Bool} (hs : P s) : P (portDown k st loss s) :=
  K.ite (K.reelect <| K.portEvt <| K.when (fun _ h => K.portEvt h) <| K.when (fun _ h => K.bump h) <| K.set <| K.portDrop <|
      K.endCopies hs) <| K.portDrop <| K.set hs
theorem Robust.portEnable (K : Robust P) {k : Nat} (hs : P s) : P (portEnable k s) := K.ite (K.set hs) hs
theorem Robust.portDisable (K : Robust P) {k : Nat} (hs : P s) : P (portDisable k s) := K.ite hs <| K.portDown hs
theorem Robust.execHelloSend (K : Robust P) {k : Fin 4} (hs : P s) : Answers P (execHelloSend k s) :=
  K.next <| K.ite (K.sendMessage hs) hs
theorem Robust.execLinkUp (K : Robust P) {k : Fin 4} {peer : BitVec 64} {port : Byte} (hs : P s) : Answers P
    (execLinkUp k peer port s) :=
  K.next <| K.ite (K.showPorts <| K.portEvt <| K.modLnk <| K.setWide <| K.set hs) hs
theorem Robust.execLinkDown (K : Robust P) {k : Fin 4} (hs : P s) : Answers P (execLinkDown k s) :=
  K.next <| K.ite (K.portDown hs) hs
theorem Robust.execLinkFreqGate (K : Robust P) {k : Fin 4} {fofs : Word} (hs : P s) : Answers P (execLinkFreqGate k fofs s) :=
  K.next <| K.ite hs <| K.ite (K.set hs) <| K.ite (K.ite (K.modLnk <| K.set hs) <| K.portEvt <| K.set <| K.modLnk <| K.set hs)
      <| K.ite (K.portEvt <| K.set <| K.modLnk <| K.set hs) <| K.modLnk <| K.set hs
theorem Robust.execMarkSend (K : Robust P) {k : Fin 4} {ofs : BitVec 40} (hs : P s) : Answers P (execMarkSend k ofs s) :=
  K.next <| K.ite hs <| K.ite (K.ite hs <| K.sendCell <| K.modLnk hs) <| K.ite (K.reelect <| K.set <| K.modLnk hs) <| K.modLnk hs
theorem Robust.execMarkRx (K : Robust P) {k : Fin 4} {seq : Byte} {ofs arr : BitVec 40} (hs : P s) :
    Answers P (execMarkRx k seq ofs arr s) :=
  K.next <| K.ite (K.sendCell <| K.modLnk hs) hs
theorem Robust.showAverage (K : Robust P) {k : Nat} (hs : P s) : P (showAverage k s) :=
  K.reelect <| K.dropAverage <| K.set <| K.setS <| K.setS hs
theorem Robust.execMarkEchoRx (K : Robust P) {k : Fin 4} {seq : Byte} {arr : BitVec 40} (hs : P s) :
    Answers P (execMarkEchoRx k seq arr s) := by
  refine K.next ?_
  dsimp only
  split
  · exact K.ite (K.ite (K.modLnk hs) <| K.showAverage <| K.modLnk hs) hs
  · exact hs
theorem Robust.execEpoch (K : Robust P) {d : Fin 2} (hs : P s) : Answers P (execEpoch d s) :=
  K.next <| K.ite (K.ite (K.ite (K.noteLink <| K.sysEvt <| K.modSys <| K.setWide <| K.modLnk <| K.modLnk hs) <| K.modSys <|
      K.setWide <| K.modLnk <| K.modLnk hs) <| K.modLnk <| K.modLnk hs) hs
theorem Robust.execTimeCellSend (K : Robust P) {k : Fin 4} (hs : P s) : Answers P (execTimeCellSend k s) :=
  K.next <| K.ite (K.sendCell <| K.modLnk hs) hs
theorem Robust.execTimeCellRx (K : Robust P) {k : Fin 4} {sec : BitVec 48} (hs : P s) : Answers P (execTimeCellRx k sec s) :=
  K.next <| K.ite (K.each (fun _ _ h => K.when (fun _ h1 => K.sendCell h1) h) <| K.modSys hs) hs
theorem Robust.dropMessage (K : Robust P) {k : Nat} (hs : P s) : P (dropMessage k s) :=
  K.ite hs <| K.bump <| K.modLnk <| K.endCopies hs
theorem Robust.messageCell (K : Robust P) {k type : Nat} {body : List Byte} (hs : P s) : P (messageCell k type body s) :=
  K.ite (K.ite (K.dropMessage hs) hs) <| K.foldl (fun _ _ h => K.forwardCell <| K.when (fun _ h1 => K.forwardCell h1) h) <|
      K.modLnk <| K.endCopiesOn <| K.ite (K.dropMessage hs) hs
theorem Robust.execCellRx (K : Robust P) {k : Fin 4} {hdr : BitVec 2} {line : BitVec 64} (hs : P s) :
    Answers P (execCellRx k hdr line s) :=
  K.next <| K.ite hs <| K.ite (K.modLnk hs) <| K.ite (K.ite (K.messageCell <| K.modLnk hs) <| K.modLnk hs) <| K.ite (K.portDown
      <| K.bump <| K.modLnk hs) <| K.ite (K.dropMessage <| K.bump <| K.modLnk hs) <| K.bump <| K.modLnk hs
theorem Robust.execMessageRx (K : Robust P) {k : Fin 4} (hs : P s) : Answers P (execMessageRx k s) :=
  K.next <| K.ite hs <| K.ite (K.bump <| K.modLnk hs) <| K.modLnk hs
theorem Robust.execMessageTimeout (K : Robust P) {k : Fin 4} (hs : P s) : Answers P (execMessageTimeout k s) :=
  K.next <| K.ite hs <| K.dropMessage hs
theorem Robust.originate (K : Robust P) (hs : P s) : P (originate s) := K.relay <| K.setGm <| K.modSys hs
theorem Robust.execAnnounceOriginate (K : Robust P) (hs : P s) : Answers P (execAnnounceOriginate s) :=
  K.next <| K.ite (K.originate hs) hs
theorem Robust.noteSeq (K : Robust P) {gm seq : Nat} (hs : P s) : P (noteSeq gm seq s) := K.ite (K.modSys hs) hs
theorem Robust.execAnnounceRx
    (K : Robust P) {k : Fin 4} {gm : BitVec 64} {prio1 prio2 : Byte} {cls : BitVec 2} {reverse withdraw : Bool}
    {seq hops : BitVec 16} {lat : Word} {ph blat bph : BitVec 16} (hs : P s) :
    Answers P (execAnnounceRx k gm prio1 prio2 cls reverse withdraw seq hops lat ph blat bph s) :=
  K.next <| K.ite hs <| K.reelect <| K.modLnk <| K.noteSeq <| K.when (fun _ h => K.set h) hs
theorem Robust.execOfferExpire (K : Robust P) {k : Fin 4} (hs : P s) : Answers P (execOfferExpire k s) :=
  K.next <| K.ite (K.reelect <| K.modLnk hs) hs
theorem Robust.becomeGm (K : Robust P) (hs : P s) : P (execListenEnd.becomeGm s) :=
  K.noteLink <| K.sysEvt <| K.gmChange <| K.showSys <| K.showPorts <| K.set <| K.originate <| K.set hs
theorem Robust.execListenEnd (K : Robust P) (hs : P s) : Answers P (execListenEnd s) := by
  refine K.next ?_
  refine K.ite hs ?_
  split
  · exact K.ite (K.becomeGm hs) <| K.relay <| K.adopt hs
  · exact K.becomeGm hs
  · exact hs
theorem Robust.cmdLinkJoin (K : Robust P) (hs : P s) : P (cmdLinkJoin s).s :=
  K.iteRes (K.cmdOk <| K.showPorts <| K.set <| K.set hs) <| K.cmdIgnored hs
theorem Robust.autoJoin (K : Robust P) (hs : P s) : P (autoJoin s) := K.ite (K.cmdLinkJoin hs) hs
theorem Robust.linkLeave (K : Robust P) (hs : P s) : P (linkLeave s) :=
  K.sysEvt <| K.noUplink <| K.set <| K.clearSysValid <| K.withdraw hs
theorem Robust.cmdLinkLeave (K : Robust P) (hs : P s) : P (cmdLinkLeave s).s := K.cmdOk <| K.linkLeave hs
theorem Robust.showRx (K : Robust P) {k : Nat} (hs : P s) : P (showRx k s) :=
  K.ite (K.each (fun _ _ h => K.when (fun _ h1 => K.raiseLineFor (fun _ _ h2 => K.beside h2 rfl) h1) h) <| K.set hs) <| K.set hs
theorem Robust.queueRx (K : Robust P) {k : Nat} {m : List Byte} (hs : P s) : P (queueRx k m s) :=
  K.ite (K.showRx <| K.beside hs rfl) <| K.bump hs
theorem Robust.execEventSend (K : Robust P) {c : Fin 13} (hs : P s) : Answers P (execEventSend c s) :=
  K.next <| K.ite (K.sendTree hs) hs
theorem Robust.sendSignal (K : Robust P) {code : Nat} (hs : P s) : P (sendSignal code s) := K.sendTree hs
theorem Robust.execRemoteEventRx (K : Robust P) {k : Fin 4} {src : BitVec 64} {signal : Bool} {code : Byte} (hs : P s) :
    Answers P (execRemoteEventRx k src signal code s) :=
  K.next <| K.ite hs <| K.ite (K.sysEvt <| K.noteLink <| K.queueRx hs) <| K.noteLink <| K.queueRx hs
theorem Robust.lnkAfter (K : Robust P) {r : Reg} {_old new : Word} (hs : P s) : P (lnkAfter r _old new s) := by
  unfold Machine.lnkAfter
  split
  · exact K.ite (K.portEnable hs) <| K.portDisable hs
  · exact K.showEpochs hs
  · exact K.ite (K.linkLeave hs) <| K.showSys hs
  · exact K.modSys hs
  · exact K.sendSignal hs
  · exact K.showRx hs
  · exact hs

/-! ### Rails -/

theorem Robust.railGoesOff (K : Robust P) {r : Nat} (hs : P s) : P (railGoesOff r s) := K.raise <| K.railIdle <| K.set hs
theorem Robust.railEnable (K : Robust P) {r : Nat} (hs : P s) : P (railEnable r s) :=
  K.ite (K.setActive <| K.set <| K.modRail <| K.set hs) hs
theorem Robust.railDisable (K : Robust P) {r : Nat} (hs : P s) : P (railDisable r s) :=
  K.ite (K.ite (K.railGoesOff <| K.modRail hs) <| K.setActive <| K.set <| K.railUnregulated <| K.modRail hs) <| K.ite
      (K.railGoesOff hs) hs
theorem Robust.execSoftStartBegin (K : Robust P) {r : Fin 24} {v : BitVec 16} (hs : P s) : Answers P (execSoftStartBegin r v s) :=
  K.next <| K.ite (K.modRail <| K.set hs) hs
theorem Robust.execRampTargetReached (K : Robust P) {r : Fin 24} (hs : P s) : Answers P (execRampTargetReached r s) :=
  K.next <| K.ite (K.modRail <| K.set <| K.set hs) hs
theorem Robust.execRailOff (K : Robust P) {r : Fin 24} (hs : P s) : Answers P (execRailOff r s) :=
  K.next <| K.ite (K.modRail <| K.railGoesOff hs) hs
theorem Robust.execRailPg (K : Robust P) {r : Fin 24} {v : BitVec 16} (hs : P s) : Answers P (execRailPg r v s) :=
  K.next <| K.ite (K.rearmDeps <| K.raise <| K.set <| K.set hs) hs
theorem Robust.execRailPgLost (K : Robust P) {r : Fin 24} {v : BitVec 16} (hs : P s) : Answers P (execRailPgLost r v s) :=
  K.next <| K.ite (K.railTrigger <| K.raise <| K.set <| K.set hs) hs
theorem Robust.vidWritten (K : Robust P) {r : Nat} (hs : P s) : P (vidWritten r s) :=
  K.ite (K.setActive <| K.set <| K.set <| K.modRail hs) hs
theorem Robust.execVidDone (K : Robust P) {r : Fin 24} (hs : P s) : Answers P (execVidDone r s) :=
  K.next <| K.ite (K.raise <| K.modRail <| K.set hs) hs
theorem Robust.railTick (K : Robust P) {r : Nat} (hs : P s) : P (railTick r s) :=
  K.ite (K.modRail hs) <| K.ite (K.modRail hs) <| K.ite (K.modRail hs) hs
theorem Robust.execShedAdd (K : Robust P) {r : Fin 24} {itot : BitVec 16} (hs : P s) : Answers P (execShedAdd r itot s) :=
  K.next <| K.ite (K.setActive <| K.set hs) hs
theorem Robust.execShedDrop (K : Robust P) {r : Fin 24} {itot : BitVec 16} (hs : P s) : Answers P (execShedDrop r itot s) :=
  K.next <| K.ite (K.setActive <| K.set hs) hs
theorem Robust.execDcmEnter (K : Robust P) {r : Fin 24} {itot : BitVec 16} (hs : P s) : Answers P (execDcmEnter r itot s) :=
  K.next <| K.ite (K.set <| K.set hs) hs
theorem Robust.execDcmExit (K : Robust P) {r : Fin 24} {itot : BitVec 16} (hs : P s) : Answers P (execDcmExit r itot s) :=
  K.next <| K.ite (K.set <| K.set hs) hs
theorem Robust.armRetry (K : Robust P) {r : Nat} (hs : P s) : P (armRetry r s) := K.ite hs <| K.ite (K.pushEvt hs) <| K.modRail hs
theorem Robust.railFault (K : Robust P) {r kind : Nat} (hs : P s) : P (railFault r kind s) := by
  unfold Machine.railFault
  extract_lets +onlyGivenNames _ _ s2 s3
  have hs2 : P s2 := K.latchClass <| K.pushEvt <| K.bump <| K.setBit hs
  have hs3 : P s3 := by
    unfold s3
    split
    · exact hs2
    · exact K.railToSafe hs2
    · exact K.groupShutdown hs2
    · exact K.packageShutdown hs2
  exact K.refreshAllWindows <| K.ite (K.armRetry hs3) hs3
theorem Robust.execOv (K : Robust P) {r : Fin 24} {v : BitVec 16} (hs : P s) : Answers P (execOv r v s) :=
  K.next <| K.ite (K.ite (K.setBit hs) hs) <| K.ite (K.railFault <| K.setBit hs) hs
theorem Robust.execUv (K : Robust P) {r : Fin 24} {v : BitVec 16} (hs : P s) : Answers P (execUv r v s) :=
  K.next <| K.ite (K.ite (K.setBit hs) hs) <| K.ite (K.railFault <| K.setBit hs) hs
theorem Robust.showOc (K : Robust P) {r : Nat} (hs : P s) : P (showOc r s) := K.setBit hs
theorem Robust.cutPulse (K : Robust P) {r k step : Nat} (hs : P s) : P (cutPulse r k step s) := K.modPrg hs
theorem Robust.countLimited (K : Robust P) {p j per : Nat} (hs : P s) : P (countLimited p j per s) := K.modPrg hs
theorem Robust.forgetLimited (K : Robust P) {p j : Nat} (hs : P s) : P (forgetLimited p j s) := K.modPrg hs
theorem Robust.execOc (K : Robust P) {k : Fin 96} {imon iref : BitVec 16} {step : BitVec 48} (hs : P s) :
    Answers P (execOc k imon iref step s) := by
  refine K.next ?_
  split
  · exact hs
  · exact K.ite (K.showOc <| K.modPrg hs) <| K.ite (K.ite (K.showOc <| K.set <| K.modPrg hs) <| K.ite (K.railFault <|
      K.forgetLimited <| K.countLimited <| K.cutPulse <| K.showOc <| K.set <| K.modPrg hs) <| K.countLimited <| K.cutPulse <|
      K.showOc <| K.set <| K.modPrg hs) <| K.railFault <| K.showOc <| K.set <| K.modPrg hs
theorem Robust.execTmonSample (K : Robust P) {r : Fin 24} {mv : BitVec 12} (hs : P s) : Answers P (execTmonSample r mv s) :=
  K.next <| K.ite (K.railFault <| K.setBit <| K.modRail hs) <| K.setBit <| K.modRail hs
theorem Robust.execRailRelease (K : Robust P) {r : Fin 24} (hs : P s) : Answers P (execRailRelease r s) :=
  K.next <| K.ite (K.leaveSafe hs) hs
theorem Robust.execRetryDue (K : Robust P) {r : Fin 24} (hs : P s) : Answers P (execRetryDue r s) :=
  K.next <| K.ite (K.ite (K.set hs) <| K.ite (K.railEnable <| K.set <| K.set <| K.leaveSafe <| K.set hs) <| K.leaveSafe <| K.set
      hs) hs
theorem Robust.execRetryReload (K : Robust P) {r : Fin 24} (hs : P s) : Answers P (execRetryReload r s) :=
  K.next <| K.ite (K.set hs) hs
theorem Robust.compensate (K : Robust P) {r vs vin : Nat} {s0 : State} (hs : P s0) : P (compensate r vs vin s0) :=
  K.modRail <| K.put <| K.setS <| K.set hs
theorem Robust.winSkip (K : Robust P) {p r : Nat} (hs : P s) : P (winSkip p r s) :=
  K.ite (K.bump <| K.bump hs) <| K.raise <| K.modPrg <| K.bump <| K.bump hs
theorem Robust.coincLeft (K : Robust P) {p r : Nat} (hs : P s) : P (coincLeft p r s) :=
  K.ite (K.bump hs) <| K.raise <| K.modPrg <| K.bump hs
theorem Robust.periodStarts (K : Robust P) {r start : Nat} (hs : P s) : P (periodStarts r start s) := K.ite hs <| K.modRail hs
theorem Robust.placeOne (K : Robust P) {r k start ton : Nat} (hs : P s) : P (placeOne r k start ton s) :=
  K.ite (K.winSkip <| K.ite (K.bump <| K.modPrg hs) <| K.modPrg hs) <| K.ite (K.coincLeft <| K.ite (K.bump <| K.modPrg hs) <|
      K.modPrg hs) <| K.ite (K.bump <| K.modPrg hs) <| K.modPrg hs
theorem Robust.execPulsePlan (K : Robust P) {k : Fin 96} {start : BitVec 48} {imon iref : BitVec 16} {comp : Option
    (BitVec 16 × BitVec 16)} {ready : Bool} (hs : P s) :
    Answers P (execPulsePlan k start imon iref comp ready s) := by
  refine K.next ?_
  split
  · exact hs
  · refine K.ite hs ?_
    extract_lets +onlyGivenNames _ s1 s2
    have hs1 : P s1 := K.periodStarts <| K.modPrg hs
    have hs2 : P s2 := by
      unfold s2
      split
      · exact K.ite (K.set hs1) <| K.compensate hs1
      · exact hs1
    exact K.ite (K.placeOne hs2) hs2
theorem Robust.execWindowAnnounce (K : Robust P) {p : Fin 4} {w : Fin 8} {edge : BitVec 48} (hs : P s) :
    Answers P (execWindowAnnounce p w edge s) :=
  K.next <| K.ite (K.modPrg hs) hs
theorem Robust.toFallback (K : Robust P) {p cause : Nat} (hs : P s) : P (toFallback p cause s) :=
  K.ite (K.set <| K.modPrg hs) <| K.refreshWindows <| K.raise <| K.modPrg <| K.bump <| K.set <| K.set <| K.modPrg hs
theorem Robust.execTbLossNotice (K : Robust P) {p : Fin 4} (hs : P s) : Answers P (execTbLossNotice p s) :=
  K.next <| K.ite (K.toFallback hs) hs
theorem Robust.execLaneMonitorExpire (K : Robust P) {p : Fin 4} (hs : P s) : Answers P (execLaneMonitorExpire p s) :=
  K.next <| K.toFallback <| K.set hs
theorem Robust.execFallbackTrim (K : Robust P) {p : Fin 4} {trim : Byte} (hs : P s) : Answers P (execFallbackTrim p trim s) :=
  K.next <| K.ite hs <| K.ite (K.toFallback <| K.set hs) <| K.put <| K.set <| K.set hs
theorem Robust.execTbReturn (K : Robust P) {p : Fin 4} (hs : P s) : Answers P (execTbReturn p s) :=
  K.next <| K.ite (K.refreshWindows <| K.raise <| K.set <| K.set hs) hs
theorem Robust.scanBegin (K : Robust P) {p : Nat} (hs : P s) : P (scanBegin p s) := K.modPrg <| K.set hs
theorem Robust.execTlmScanStart (K : Robust P) {p : Fin 4} (hs : P s) : Answers P (execTlmScanStart p s) :=
  K.next <| K.ite hs <| K.ite (K.modPrg hs) <| K.scanBegin hs
theorem Robust.scanSample (K : Robust P) {p i : Nat} {c : Conv} (hs : P s) : P (scanSample p i c s).2 :=
  K.iteSnd hs <| K.iteSnd hs <| K.iteSnd (K.draw hs) hs
theorem Robust.scanSamples (K : Robust P) {p n : Nat} {cs : List Conv} (hs : P s) : P (scanSamples p cs n s).2 := by
  induction n with
  | zero => exact hs
  | succ n ih => exact K.scanSample ih
theorem Robust.execTlmFrame (K : Robust P) {p : Fin 4} {cs : List Conv} {damaged : Option (BitVec 6)} (hs : P s) :
    Answers P (execTlmFrame p cs damaged s) := by
  refine K.next <| K.ite ?_ hs
  extract_lets g xs f ask s1 s2 s3 s4
  have hs2 : P s2 := K.set <| K.set <| K.set <| K.modPrg <| K.scanSamples hs
  have hs3 : P s3 := by
    unfold s3
    split
    · exact K.poisoned hs2
    · exact hs2
  have hs4 : P s4 := K.when (fun _ h => K.raiseLineFor (fun _ _ h1 => K.modPrg h1) h) hs3
  exact K.ite (K.scanBegin hs4) hs4
theorem Robust.tlmSnapshot (K : Robust P) {p : Nat} (hs : P s) : P (tlmSnapshot p s) := K.foldl (fun _ _ h => K.setWord h) hs
theorem Robust.execTlmBufSnapshot (K : Robust P) {p : Fin 4} (hs : P s) : Answers P (execTlmBufSnapshot p s) :=
  K.next <| K.tlmSnapshot hs
theorem Robust.showAssigned (K : Robust P) {p : Nat} (hs : P s) : P (showAssigned p s) := K.each (fun _ _ h => K.set h) hs
theorem Robust.prgAfter (K : Robust P) {r : Reg} {old new : Word} (hs : P s) : P (prgAfter r old new s) := by
  unfold Machine.prgAfter
  dsimp only
  split
  · exact K.ite (K.ite (K.set <| K.ite (K.setActive <| K.ite (K.railEnable hs) <| K.ite (K.railDisable hs) hs) <| K.ite
      (K.railEnable hs) <| K.ite (K.railDisable hs) hs) <| K.ite (K.setActive <| K.ite (K.railEnable hs) <| K.ite (K.railDisable
      hs) hs) <| K.ite (K.railEnable hs) <| K.ite (K.railDisable hs) hs) <| K.ite (K.railEnable hs) <| K.ite (K.railDisable hs)
      hs
  · exact K.vidWritten hs
  · exact K.ite (K.setActive hs) hs
  · exact K.showAssigned <| K.ite (K.set hs) hs
  · exact K.ite (K.toFallback hs) hs
  · exact K.refreshWindow hs
  · exact K.ite (K.modPrg <| K.ite (K.modPrg <| K.set hs) hs) <| K.ite (K.modPrg <| K.set hs) hs
  · exact hs
theorem Robust.fltAfter (K : Robust P) {r : Reg} {old new : Word} (hs : P s) : P (fltAfter r old new s) := by
  unfold Machine.fltAfter
  split
  · exact K.set hs
  · exact K.ite (K.each (fun _ _ h => K.set h) <| K.each (fun _ _ h => K.ite (K.latchClass h) h) hs) <| K.each (fun _ _ h =>
      K.ite (K.latchClass h) h) hs
  · exact K.set hs
  · exact hs

/-! ### DMA -/

theorem Robust.modDma (K : Robust P) {ch : Nat} {f : DmaInt → DmaInt} (hs : P s) : P (s.modDma ch f) := K.beside hs rfl
theorem Robust.showDma (K : Robust P) (hs : P s) : P (showDma s) := K.set <| K.set <| K.set hs
theorem Robust.chInterrupt (K : Robust P) {ch : Nat} (hs : P s) : P (chInterrupt ch s) := by
  unfold Machine.chInterrupt
  split
  · exact K.vector hs
  · exact K.engInterrupt hs
theorem Robust.showNext (K : Robust P) {ch : Nat} {a : Nat × Bool} (hs : P s) : P (showNext ch a s) := K.put <| K.setWide hs
theorem Robust.recordXlate (K : Robust P) {x iova kind why level ch : Nat} {host : Bool} (hs : P s) :
    P (recordXlate x iova kind why level ch host s) :=
  K.bump <| K.bump <| K.put <| K.set <| K.set <| K.set <| K.set <| K.set <| K.setWide hs
theorem Sound.ringWrite (K : Sound P) {ch i : Nat} {b : List Byte} (hs : P s) : P (ringWrite ch i b s) := by
  unfold Machine.ringWrite
  split
  · exact K.emit <| K.when (fun _ h => K.bump h) hs
  · exact K.engWrite hs
theorem Robust.showProgress (K : Robust P) {ch : Nat} {d : Desc} (hs : P s) : P (showProgress ch d s) := K.showNext <| K.set hs
theorem Sound.finishDesc (K : Sound P) {ch : Nat} {d : Desc} {status residue : Nat} (hs : P s) : P (finishDesc ch d status residue s) :=
  K.ite (K.chInterrupt <| K.modDma <| K.when (fun _ h => K.bump h) <| K.set <| K.set <| K.set <| K.ringWrite <| K.ite
      (K.ringWrite hs) hs) <| K.modDma <| K.when (fun _ h => K.bump h) <| K.set <| K.set <| K.set <| K.ringWrite <| K.ite
      (K.ringWrite hs) hs
theorem Robust.settle (K : Robust P) {ch : Nat} (hs : P s) : P (settle ch s) := K.ite (K.set hs) <| K.ite (K.set hs) hs
theorem Sound.fitUnit (K : Sound P) {ch : Nat} (hs : P s) : P (fitUnit ch s) := by
  unfold Machine.fitUnit
  split
  · exact K.ite (K.finishDesc hs) hs
  · exact hs
theorem Robust.loseUnit (K : Robust P) {l q : Nat} (hs : P s) : P (loseUnit l q s) :=
  K.ite hs <| K.ite (K.modTrg hs) <| K.ite hs <| K.ite (K.set <| K.beside hs rfl) <| K.ite hs <| K.beside hs rfl
theorem Robust.unitMissed (K : Robust P) {ch l q : Nat} (hs : P s) : P (unitMissed ch l q s) := K.ite hs <| K.loseUnit hs
theorem Robust.dropRequests (K : Robust P) {ch : Nat} (hs : P s) : P (dropRequests ch s) := by
  unfold Machine.dropRequests
  split
  · exact K.modDma <| K.foldl (fun _ _ h => K.unitMissed h) hs
  · exact K.modDma hs
theorem Sound.haltChannel (K : Sound P) {ch status : Nat} (hs : P s) : P (haltChannel ch status s) := by
  refine K.chInterrupt ?_
  refine K.raise ?_
  refine K.modDma ?_
  refine K.dropRequests ?_
  refine K.set ?_
  split
  · exact K.finishDesc hs
  · exact hs
theorem Sound.faultChannel (K : Sound P) {ch : Nat} {f : XFault} (hs : P s) : P (faultChannel ch f s) := by
  unfold Machine.faultChannel
  dsimp only
  split
  · exact K.haltChannel <| K.set <| K.raise <| K.bump <| K.showNext <| K.set <| K.when (fun _ h => K.recordXlate h) hs
  · exact K.chInterrupt <| K.set <| K.raise <| K.bump <| K.showNext <| K.set <| K.when (fun _ h => K.recordXlate h) hs
theorem Robust.takeUp (K : Robust P) {ch : Nat} {d : Desc} (hs : P s) : P (takeUp ch d s) := K.showProgress <| K.modDma hs
theorem Sound.takeDesc (K : Sound P) {ch : Nat} {dbe : Option Nat} {d : Desc} (hs : P s) : P (takeDesc ch dbe d s) := by
  unfold Machine.takeDesc
  split
  · exact K.finishDesc <| K.poisoned hs
  · refine K.ite (K.finishDesc <| K.ignored hs) ?_
    refine K.ite (K.finishDesc hs) ?_
    split
    · exact K.faultChannel <| K.takeUp hs
    · split
      · exact K.finishDesc <| K.modDma hs
      · exact K.fitUnit <| K.takeUp hs
theorem Sound.engDescLands (K : Sound P) {ch : Nat} {d : Desc} (hs : P s) : P (engDescLands ch d s) := by
  unfold Machine.engDescLands
  split
  · exact hs
  · dsimp only
    split
    · exact K.when (fun _ h => K.engStore h) <| K.when (fun _ h => K.engStore h) <| K.engStore hs
    · exact K.when (fun _ h => K.engStore h) <| K.engStore hs
theorem Sound.execDescriptorFetch (K : Sound P) {ch : Fin 32} {dbe : Option (Fin 16)} {head ext table : List Word} (hs : P s) :
    Answers P (execDescriptorFetch ch dbe head ext table s) := by
  refine K.next ?_
  refine K.ite hs ?_
  split
  · exact K.showDma <| K.faultChannel hs
  · exact K.ite hs <| K.ite (K.showDma <| K.settle <| K.takeDesc <| K.engDescLands hs) <| K.showDma <| K.modDma <| K.set <|
      K.engDescLands hs
theorem Robust.missRequest (K : Robust P) {ch l q : Nat} (hs : P s) : P (missRequest ch l q s) :=
  K.ite (K.bump <| K.unitMissed hs) <| K.raise <| K.modDma <| K.bump <| K.unitMissed hs
theorem Robust.lateEvent (K : Robust P) {ch q : Nat} (hs : P s) : P (lateEvent ch q s) :=
  K.ite (K.bump hs) <| K.raise <| K.modDma <| K.bump hs
theorem Sound.dropLate (K : Sound P) {ch l : Nat} (hs : P s) : P (dropLate ch l s) := by
  unfold Machine.dropLate
  split
  · exact K.lateEvent <| K.finishDesc <| K.modDma <| K.loseUnit hs
  · exact K.lateEvent <| K.modDma <| K.loseUnit hs
  · exact hs
theorem Sound.takeRequest (K : Sound P) {ch l q : Nat} (hs : P s) : P (takeRequest ch l q s) :=
  K.ite (K.fitUnit <| K.set <| K.modDma <| K.ite (K.dropLate <| K.set hs) <| K.set hs) <| K.missRequest <| K.ite (K.dropLate <|
      K.set hs) <| K.set hs
theorem Sound.execDmaRequest (K : Sound P) {l : Fin 26} (hs : P s) : Answers P (execDmaRequest l s) := by
  refine K.next ?_
  refine K.ite hs ?_
  dsimp only
  split
  · exact K.showDma <| K.loseUnit <| K.beside hs rfl
  · exact K.showDma <| K.takeRequest <| K.beside hs rfl
theorem Robust.takeUnit (K : Robust P) {l q : Nat} (hs : P s) : P (takeUnit l q s).2 := by
  refine K.iteSnd hs ?_
  refine K.iteSnd hs ?_
  refine K.iteSnd ?_ (K.loseUnit hs)
  dsimp only
  split
  · exact K.dropAt hs
  · exact hs
theorem Robust.grantBurst (K : Robust P) {ch : Nat} {d : Desc} (hs : P s) : P (grantBurst ch d s) := by
  refine K.bumpBy ?_
  refine K.withRr ?_
  refine K.modDma ?_
  split
  · exact K.takeUnit hs
  · exact hs
theorem Robust.execBurstGrant (K : Robust P) (hs : P s) : Answers P (execBurstGrant s) := by
  refine K.next ?_
  split
  · refine K.ite ?_ hs
    split
    · exact K.showDma <| K.grantBurst hs
    · exact hs
  · exact hs
theorem Robust.tlbFill (K : Robust P) {e : TlbEnt} (hs : P s) : P (tlbFill e s) := K.set <| K.beside hs rfl
theorem Robust.modBursts (K : Robust P) {x : Nat} {f : Nat → Desc → Burst → Burst} (hs : P s) : P (s.modBursts x f) := by
  refine K.each ?_ hs
  intro _ _ h
  split
  · exact K.ite (K.modDma h) h
  · exact h
theorem Robust.tellBursts (K : Robust P) {x page kind : Nat} {fault : Option (Nat × Nat)} (hs : P s) :
    P (tellBursts x page kind fault s) :=
  K.ite (K.modBursts hs) hs
theorem Robust.lookAgain (K : Robust P) {x : Nat} (hs : P s) : P (lookAgain x s) := K.modBursts hs
theorem Robust.hostXlateFault (K : Robust P) {x iova kind why level : Nat} (hs : P s) : P (hostXlateFault x iova kind why level s) :=
  K.pushEvt <| K.recordXlate hs
theorem Robust.hostDeny (K : Robust P) {a len kind : Nat} (hs : P s) : P (hostDeny a len kind s) := by
  unfold Machine.hostDeny
  split
  · exact K.hostXlateFault hs
  · exact hs
theorem Robust.walkEnds (K : Robust P) {w : Walk} {iova : Nat} {fault : Option (Nat × Nat)} (hs : P s) : P
    (walkEnds w iova fault s) := by
  unfold Machine.walkEnds
  dsimp only
  split
  · exact K.hostXlateFault <| K.beside hs rfl
  · exact K.lookAgain <| K.beside hs rfl
  · exact K.lookAgain <| K.tellBursts <| K.beside hs rfl
theorem Robust.walkStep (K : Robust P) {w : Walk} {iova pte : Nat} (hs : P s) : P (walkStep w iova pte s) :=
  K.ite (K.walkEnds hs) <| K.ite (K.walkEnds hs) <| K.ite (K.ite (K.walkEnds <| K.tlbFill hs) <| K.walkEnds hs) <| K.beside hs rfl
theorem Robust.execWalkReadDone
    (K : Robust P) {host : Bool} {x : Fin 16} {iova : BitVec 48} {kind : Fin 3} {addr : BitVec 52} {pte : BitVec 64} {err : Bool}
    (hs : P s) :
    Answers P (execWalkReadDone host x iova kind addr pte err s) := by
  refine K.next ?_
  dsimp only
  split
  · exact K.ite hs <| K.ite (K.walkEnds hs) <| K.walkStep hs
  · exact K.ite (K.ite (K.when (fun _ h => K.bump h) <| K.beside hs rfl) <| K.ite (K.walkEnds <| K.when (fun _ h => K.bump h) <|
      K.beside hs rfl) <| K.walkStep <| K.when (fun _ h => K.bump h) <| K.beside hs rfl) hs
theorem Robust.execDatuInvDone (K : Robust P) (hs : P s) : Answers P (execDatuInvDone s) := by
  refine K.next ?_
  split
  · exact hs
  · exact K.ite hs <| K.set <| K.set <| K.beside hs rfl
theorem Sound.abortChannel (K : Sound P) {ch status : Nat} (hs : P s) : P (abortChannel ch status s) :=
  K.ite (K.haltChannel hs) <| K.modDma hs
theorem Sound.cmdDmaAbort (K : Sound P) {ch : Nat} (hs : P s) : P (cmdDmaAbort ch s).s :=
  K.iteRes (K.showDma <| K.abortChannel hs) <| K.iteRes (K.showDma <| K.abortChannel hs) <| K.cmdIgnored hs
theorem Robust.retryRest (K : Robust P) {ch : Nat} (hs : P s) : P (retryRest ch s) := by
  unfold Machine.retryRest
  split
  · exact K.bumpBy <| K.modDma hs
  · exact hs
theorem Robust.resumeFaulted (K : Robust P) {ch cause : Nat} (hs : P s) : P (resumeFaulted ch cause s) := by
  refine K.ite (K.modDma hs) ?_
  split
  · exact K.retryRest <| K.showProgress hs
  · exact hs
theorem Robust.cmdDmaResume (K : Robust P) {ch : Nat} (hs : P s) : P (cmdDmaResume ch s).s :=
  K.iteRes (K.cmdOk <| K.resumeFaulted <| K.showDma <| K.ite (K.withPin <| K.set <| K.set hs) <| K.set <| K.set hs) <| K.iteRes
      (K.cmdOk <| K.showDma <| K.ite (K.withPin <| K.set <| K.set hs) <| K.set <| K.set hs) <| K.cmdIgnored hs
theorem Robust.disableChannel (K : Robust P) {ch : Nat} (hs : P s) : P (disableChannel ch s) :=
  K.modDma <| K.dropRequests <| K.set <| K.set hs
theorem Robust.disableHostChannels (K : Robust P) (hs : P s) : P (disableHostChannels s) :=
  K.showDma <| K.each (fun _ _ h => K.ite (K.disableChannel h) h) hs
theorem Robust.stopChannels (K : Robust P) (hs : P s) : P (stopChannels s) :=
  K.showDma <| K.each (fun _ _ h => K.ite h <| K.modDma <| K.set h) hs
theorem Robust.unstopChannels (K : Robust P) (hs : P s) : P (unstopChannels s) :=
  K.showDma <| K.each (fun _ _ h => K.ite h <| K.ite (K.disableChannel h) <| K.settle <| K.set h) hs
theorem Sound.haltEngineChannels (K : Sound P) {e : Nat} (hs : P s) : P (haltEngineChannels e s) :=
  K.showDma <| K.each (fun _ _ h => K.ite (K.abortChannel h) h) hs
theorem Robust.enableChannel (K : Robust P) {ch : Nat} (hs : P s) : P (enableChannel ch s) := K.modDma <| K.set <| K.set hs
theorem Robust.channelDoorbell (K : Robust P) {ch tag idx : Nat} (hs : P s) : P (channelDoorbell ch tag idx s) :=
  K.ite hs <| K.ite (K.modDma <| K.modDma hs) <| K.ignored <| K.modDma hs
theorem Sound.dmaAfter (K : Sound P) {r : Reg} {old new : Word} (hs : P s) : P (dmaAfter r old new s) := by
  unfold Machine.dmaAfter
  dsimp only
  split
  · exact K.ite (K.showDma <| K.enableChannel hs) <| K.ite (K.showDma <| K.disableChannel hs) <| K.showDma hs
  · exact K.modDma hs
  · exact K.ite (K.cmdDmaResume hs) <| K.ite (K.cmdDmaAbort hs) hs
  · exact K.eventLine hs
  · exact K.ite (K.set <| K.beside hs rfl) hs
  · exact K.when (fun _ h => K.lookAgain h) hs
  · exact hs

/-! ### How commands end -/

theorem Robust.modHost (K : Robust P) {f : HostInt → HostInt} (hs : P s) : P (s.modHost f) := K.beside hs rfl
theorem Robust.modDefer (K : Robust P) {g : Nat} {f : Defer → Defer} (hs : P s) : P (s.modDefer g f) := K.modHost hs
theorem Robust.emitHost (K : Robust P) {a : Nat} {bytes : List Byte} (hs : P s) : P (emitHost a bytes s) := K.emit hs
theorem Robust.writeBack (K : Robust P) {idx status result : Nat} {words : List Word} (hs : P s) :
    P (writeBack idx status result words s) :=
  K.ite hs <| K.emitHost hs
theorem Robust.countCpl (K : Robust P) {c : Cpl} (hs : P s) : P (countCpl c s) := K.modHost hs
theorem Robust.queueCpl (K : Robust P) {c : Cpl} (hs : P s) : P (queueCpl c s) := K.modHost <| K.countCpl hs
theorem Robust.holdOrphan (K : Robust P) {c : Cpl} (hs : P s) : P (holdOrphan c s) := K.modHost <| K.countCpl hs
theorem Robust.holdLate (K : Robust P) (hs : P s) : P (holdLate s) :=
  K.foldl (fun _ _ h => K.ite (K.modDefer h) h) <| K.modHost hs
theorem Robust.mbxDone (K : Robust P) {opcode status result : Nat} (hs : P s) : P (mbxDone opcode status result s) :=
  K.raise <| K.set <| K.set <| K.set <| K.set hs
theorem Robust.countIgnored (K : Robust P) {v : CmdVia} (hs : P s) : P (countIgnored v s) := by
  unfold Machine.countIgnored
  split <;> exact K.ignored hs
theorem Robust.mbxTake (K : Robust P) {owner : Nat} (hs : P s) : P (mbxTake owner s) := K.set <| K.set <| K.set hs
theorem Robust.deferStart (K : Robust P) {g : Nat} {d : Defer} (hs : P s) : P (deferStart g d s).s := K.modDefer hs
theorem Robust.deferEnd (K : Robust P) {g status result : Nat} (hs : P s) : P (deferEnd g status result s) := by
  unfold Machine.deferEnd
  dsimp only
  have counted : P (if status ≠ stIgnored then s else if (s.deferOf g).mbx then s.ignored 0x07 0x2440 else
      s.ignored 0x02 (s.deferOf g).idx) := K.ite hs <| K.ite (K.ignored hs) <| K.ignored hs
  exact K.ite hs <| K.ite (K.mbxDone <| K.modDefer counted) <| K.ite (K.queueCpl <| K.modDefer counted) <|
    K.ite (K.holdOrphan <| K.modDefer counted) <| K.queueCpl <| K.writeBack <| K.modDefer counted
theorem Robust.imgEvt (K : Robust P) {c bit : Nat} {body : List (Nat × Nat)} (hs : P s) : P (imgEvt c bit body s) := K.raise hs
theorem Robust.stagedEvt (K : Robust P) {c status cause : Nat} (hs : P s) : P (stagedEvt c status cause s) := K.imgEvt hs
theorem Robust.deferAbort (K : Robust P) {g : Nat} (hs : P s) : P (deferAbort g s) :=
  K.when (fun _ h => K.stagedEvt h) <| K.holdOrphan <| K.modDefer hs
theorem Robust.orphanDeferred (K : Robust P) (hs : P s) : P (orphanDeferred s) :=
  K.each (fun _ _ h => K.ite h <| K.ite (K.deferAbort h) <| K.ite (K.deferAbort <| K.modSys h) <| K.modDefer h) hs

/-! ### Remote access -/

theorem Robust.rmtDone (K : Robust P) {tag status : Nat} (hs : P s) : P (rmtDone tag status s) := K.sysEvt hs
theorem Robust.cmdAccEnd (K : Robust P) {acc : RmtAcc} {status na : Nat} {data : List Word} {bad : Bool} (hs : P s) :
    P (cmdAccEnd acc status na data bad s) := by
  unfold Machine.cmdAccEnd
  extract_lets +onlyGivenNames _ _ _ _ s1' s2
  have hs1' : P s1' := K.ite (K.hostDeny <| K.modSys hs) <| K.modSys hs
  have hs2 : P s2 := K.ite hs1' <| K.ite (K.each (fun _ _ h => K.set h) hs1') <| K.ite hs1' <| K.emitHost hs1'
  exact K.ite (K.deferEnd <| K.rmtDone hs2) <| K.ite (K.deferEnd <| K.rmtDone hs2) <| K.deferEnd <| K.rmtDone hs2
theorem Robust.regAccEnd (K : Robust P) {acc : RmtAcc} {status na : Nat} {data : List Word} (hs : P s) :
    P (regAccEnd acc status na data s) :=
  K.rmtDone <| K.when (fun _ h => K.each (fun _ _ h1 => K.set h1) h) <| K.set <| K.set <| K.set <| K.modSys hs
theorem Robust.cmdRemote (K : Robust P) {write : Bool} {d : Defer} {dst off n : Nat} {data : List Word} (hs : P s) :
    P (cmdRemote write d dst off n data s).s :=
  K.iteRes (K.cmdIgnored hs) <| K.iteRes (K.sendTree <| K.modSys <| K.deferStart hs) <| K.cmdAccEnd <| K.deferStart hs
theorem Robust.remoteGo (K : Robust P) {w : Word} (hs : P s) : P (remoteGo w s) :=
  K.ite (K.sendTree <| K.set <| K.set <| K.set <| K.modSys hs) <| K.regAccEnd <| K.modSys hs
theorem Robust.execRemoteResponseRx
    (K : Robust P) {k : Fin 4} {write : Bool} {tag : BitVec 16} {status : Fin 5} {na : BitVec 16} {data : List Word}
    {good fault : Bool} (hs : P s) :
    Answers P (execRemoteResponseRx k write tag status na data good fault s) := by
  refine K.next ?_
  refine K.ite hs ?_
  refine K.ite ?_ ?_
  · split
    · exact K.cmdAccEnd hs
    · exact hs
  · refine K.ite ?_ (K.bump hs)
    split
    · exact K.regAccEnd hs
    · exact hs
theorem Robust.execRemoteTimeout (K : Robust P) {cmd : Bool} (hs : P s) : Answers P (execRemoteTimeout cmd s) := by
  refine K.next ?_
  refine K.ite ?_ ?_
  · split
    · exact K.cmdAccEnd hs
    · exact hs
  · split
    · exact K.regAccEnd hs
    · exact hs

/-! ### OTP -/

theorem Sound.setFuse (K : Sound P) {w : Nat} {r : Nat × Nat × Nat} (hs : P s) : P (setFuse w r s) :=
  K.sound s _ rfl (fun h => h) hs
theorem Robust.showOver (K : Robust P) (hs : P s) : P (showOver s) := K.set hs
theorem Robust.setShadow (K : Robust P) {w v : Nat} (hs : P s) : P (setShadow w v s) := K.showOver <| K.setBit <| K.set hs
theorem Robust.cmdOtpShadow (K : Robust P) {w v : Nat} (hs : P s) : P (cmdOtpShadow w v s).s :=
  K.iteRes (K.cmdOk <| K.setShadow hs) <| K.cmdIgnored hs
theorem Robust.loadShadows (K : Robust P) (hs : P s) : P (loadShadows s) :=
  K.each (fun _ _ h => K.ite h <| K.set h) <| K.modOtp (fun _ => rfl) hs
theorem Robust.clearShadows (K : Robust P) (hs : P s) : P (clearShadows s) :=
  K.showOver <| K.loadShadows <| K.each (fun _ _ h => K.set h) hs
theorem Robust.burnStart (K : Robust P) {w v : Nat} {cmd : Bool} (hs : P s) : P (burnStart w v cmd s) :=
  K.set <| K.set <| K.modOtp (fun _ => rfl) hs
theorem Robust.lockStart (K : Robust P) {r : Nat} {cmd : Bool} {src : Nat} (hs : P s) : P (lockStart r cmd src s) :=
  K.set <| K.set <| K.modOtp (fun _ => rfl) hs
theorem Robust.cmdOtpBurn (K : Robust P) {d : Defer} {w v : Nat} (hs : P s) : P (cmdOtpBurn d w v s).s :=
  K.iteRes (K.cmdIgnored hs) <| K.deferStart <| K.burnStart <| K.set <| K.set hs
theorem Robust.cmdCommitLock (K : Robust P) {d : Defer} {r : Nat} (hs : P s) : P (cmdCommitLock d r s).s :=
  K.iteRes (K.cmdIgnored hs) <| K.deferStart <| K.lockStart hs
theorem Robust.burnEnd (K : Robust P) {j : BurnJob} {ok : Bool} {lo hi : Nat} (hs : P s) : P (burnEnd j ok lo hi s) := by
  unfold Machine.burnEnd
  extract_lets s1 s3 s2
  have hs1 : P s1 := K.set <| K.set <| K.modOtp (fun _ => rfl) hs
  have hs3 : P s3 := K.bump <| K.set <| K.set hs1
  have hs2 : P s2 := by
    unfold s2
    split
    · exact K.ite (K.pushEvt <| K.setBit hs1) <| K.pushEvt hs1
    · exact K.ite (K.pushEvt hs3) <| K.pushEvt hs3
  exact K.ite (K.deferEnd hs2) hs2
theorem Sound.burnPulse (K : Sound P) {n lo hi : Nat} (hs : P s) : P (burnPulse n lo hi s) := by
  unfold Machine.burnPulse
  split
  · exact hs
  · exact K.ite (K.burnEnd <| K.modOtp (fun _ => rfl) <| K.setFuse hs) <| K.ite (K.burnEnd <| K.modOtp (fun _ => rfl) <|
      K.setFuse hs) <| K.modOtp (fun _ => rfl) <| K.setFuse hs
theorem Robust.execLockMarginReadDone (K : Robust P) (hs : P s) : Answers P (execLockMarginReadDone s) := by
  refine K.next ?_
  split
  · exact hs
  · exact K.ite (K.modOtp (fun _ => rfl) <| K.modOtp (fun _ => rfl) hs) <| K.ite (K.deferEnd <| K.set <| K.set <| K.modOtp
      (fun _ => rfl) hs) <| K.ignored <| K.set <| K.set <| K.modOtp (fun _ => rfl) hs
theorem Robust.otpAfter (K : Robust P) {p : Sys2Proof.Path} {r : Reg} {new : Word} (hs : P s) : P (otpAfter p r new s) := by
  unfold Machine.otpAfter
  split
  · exact K.set <| K.modOtp (fun _ => rfl) hs
  · exact K.showOver <| K.setBit hs
  · exact K.showOver hs
  · exact K.ite (K.burnStart <| K.ite (K.clearShadows hs) hs) <| K.ite (K.lockStart <| K.ite (K.clearShadows hs) hs) <| K.ite
      (K.clearShadows hs) hs
  · exact hs

/-! ### Engines and images -/

theorem Robust.haltEngine (K : Robust P) {e cause addr : Nat} (hs : P s) : P (haltEngine e cause addr s) :=
  K.ite (K.pushEvt <| K.set <| K.set <| K.set <| K.set hs) hs
theorem Robust.execEngHalt (K : Robust P) {e : Fin 12} {cause : BitVec 3} {addr : BitVec 17} (hs : P s) :
    Answers P (execEngHalt e cause addr s) :=
  K.next <| K.ite (K.poisoned <| K.haltEngine hs) <| K.haltEngine hs
theorem Sound.flashErase (K : Sound P) {a n : Nat} (hs : P s) : P (flashErase a n s) :=
  K.sound s _ rfl (fun h => ⟨h.1, Memory.wf_flashErase a n h.2.1, h.2.2⟩) hs
theorem Sound.flashProgram (K : Sound P) {a : Nat} {b : List Byte} (hs : P s) : P (flashProgram a b s) :=
  K.sound s _ rfl (fun h => ⟨h.1, Memory.wf_flashProgram a b h.2.1, h.2.2⟩) hs
theorem Sound.writeSelector (K : Sound P) {c slot : Nat} {trial commit : Bool} (hs : P s) : P (writeSelector c slot trial commit s) :=
  K.each (fun _ _ h => K.set h) <| K.flashProgram <| K.flashErase hs
theorem Robust.recordMixed (K : Robust P) {first : Option Refused} (hs : P s) : P (recordMixed first s) := by
  unfold Machine.recordMixed
  split
  · exact K.set <| K.set <| K.set <| K.set hs
  · exact K.set <| K.set hs
theorem Robust.startBisque (K : Robust P) {e : Nat} (hs : P s) : P (startBisque e s) :=
  K.when (fun _ h => K.emit h) <| K.set <| K.set hs
theorem Robust.runBisque (K : Robust P) {e why : Nat} (hs : P s) : P (runBisque e why s) :=
  K.ite (K.set <| K.startBisque hs) <| K.imgEvt <| K.set <| K.startBisque hs
theorem Sound.runSection (K : Sound P) {e slot : Nat} (hs : P s) : P (runSection e slot s) :=
  K.set <| K.set <| K.set <| K.engLoad hs
theorem Sound.startSection (K : Sound P) {e slot : Nat} (hs : P s) : P (startSection e slot s) :=
  K.ite (K.runBisque <| K.poisoned hs) <| K.ite (K.runSection hs) <| K.runBisque hs
theorem Robust.markLoads (K : Robust P) {n : Nat} (hs : P s) : P (markLoads n s) := K.beside hs rfl
theorem Robust.withLoads (K : Robust P) {bad : Nat} {f : State → State} (hf : ∀ s, P s → P (f s)) (hs : P s) : P (withLoads bad f s) :=
  K.markLoads <| hf _ <| K.markLoads hs
theorem Robust.restartFrames (K : Robust P) {e : Nat} (hs : P s) : P (restartFrames e s) :=
  K.each (fun _ _ h => K.ite (K.beside h rfl) h) hs
theorem Robust.showBisque (K : Robust P) {c : Nat} (hs : P s) : P (showBisque c s) :=
  K.ite (K.set <| K.set <| K.set <| K.beside hs rfl) <| K.set hs
theorem Sound.releaseClass (K : Sound P) {c slot : Nat} {run : ClassRun} (hs : P s) : P (releaseClass c slot run s) := by
  unfold Machine.releaseClass
  dsimp only
  split
  · exact K.when (fun _ h => K.imgEvt h) <| K.showBisque <| K.foldl (fun _ _ h => K.startSection h) <| K.set <| K.set <| K.set
      <| K.withImg <| K.foldl (fun _ _ h => K.restartFrames h) <| K.set hs
  · exact K.showBisque <| K.foldl (fun _ _ h => K.runBisque h) <| K.put <| K.foldl (fun _ _ h => K.restartFrames h) <| K.set hs
theorem Sound.holdClass (K : Sound P) {c : Nat} (hs : P s) : P (holdClass c s) :=
  K.foldl (fun _ _ h => K.restartFrames <| K.haltEngineChannels <| K.set <| K.set h) hs
/-- The definition is unfolded as a function: at its arguments the kernel would evaluate its match. -/
theorem Sound.loadClass (K : Sound P) {c slot commit : Nat} (hs : P s) : P (loadClass c slot commit s) := by
  generalize hf : Machine.loadClass = f
  delta Machine.loadClass at hf
  subst hf
  beta_reduce
  extract_lets s1
  have hs1 : P s1 := K.holdClass hs
  clear_value s1
  split
  · exact K.recordMixed <| K.releaseClass hs1
  · extract_lets
    split
    · exact K.imgEvt <| K.recordMixed <| K.releaseClass hs1
    · exact K.recordMixed <| K.releaseClass hs1
theorem Robust.setTries (K : Robust P) {c n : Nat} (hs : P s) : P (setTries c n s) := K.set <| K.set hs
theorem Sound.rollbackRecord (K : Sound P) {c : Nat} (hs : P s) : P (rollbackRecord c s) := by
  unfold Machine.rollbackRecord
  split
  · exact hs
  · exact K.set <| K.setTries <| K.writeSelector hs
theorem Robust.rollbackEvt (K : Robust P) {c slot : Nat} (hs : P s) : P (rollbackEvt c slot s) := K.imgEvt hs
theorem Sound.engineReset (K : Sound P) {who e : Nat} (hs : P s) : P (engineReset who e s) := by
  refine K.pushEvt ?_
  split
  · exact K.showBisque <| K.startSection <| K.restartFrames <| K.set <| K.haltEngineChannels hs
  · exact K.startBisque <| K.restartFrames <| K.set <| K.haltEngineChannels hs
theorem Sound.engineWatchdog (K : Sound P) {e : Nat} (hs : P s) : P (engineWatchdog e s) := by
  refine K.ite hs ?_
  refine K.ite ?_ (K.engineReset hs)
  refine K.ite (K.engineReset <| K.setTries hs) ?_
  dsimp only
  split
  · exact K.pushEvt <| K.rollbackEvt <| K.loadClass <| K.rollbackRecord hs
  · exact K.rollbackRecord hs
theorem Robust.engineHold (K : Robust P) {e : Nat} {hold : Bool} (hs : P s) : P (engineHold e hold s) :=
  K.ite (K.ite (K.set hs) hs) <| K.ite (K.set hs) hs
theorem Robust.cmdImageStage (K : Robust P) {d : Defer} {c ptr len : Nat} (hs : P s) : P (cmdImageStage d c ptr len s).s :=
  K.iteRes (K.cmdIgnored hs) <| K.iteRes (K.cmdIgnored <| K.stagedEvt hs) <| K.iteRes (K.stagedEvt hs) <| K.iteRes (K.cmdIgnored
      <| K.stagedEvt hs) <| K.deferStart <| K.set <| K.set <| K.beside hs rfl
theorem Sound.slotProgrammed (K : Sound P) {c : Nat} {bytes : List Byte} (hs : P s) : P (slotProgrammed c bytes s) :=
  K.flashProgram <| K.flashErase hs
theorem Robust.stageEnd (K : Robust P) {c status cause : Nat} (hs : P s) : P (stageEnd c status cause s) :=
  K.deferEnd <| K.stagedEvt hs
theorem Sound.execImageStaged (K : Sound P) {data : List Byte} {fault flashBad part : Bool} (hs : P s) :
    Answers P (execImageStaged data fault flashBad part s) := by
  refine K.next ?_
  refine K.ite hs ?_
  refine K.ite (K.stageEnd <| K.hostDeny hs) ?_
  refine K.ite (K.modDefer hs) ?_
  refine K.ite (K.stageEnd <| K.flashErase hs) ?_
  dsimp only
  split
  · exact K.stageEnd <| K.slotProgrammed hs
  · exact K.ite (K.stageEnd <| K.slotProgrammed hs) <| K.stageEnd <| K.set <| K.set <| K.withStg <| K.slotProgrammed hs
theorem Robust.cmdImageCommit (K : Robust P) {d : Defer} {c : Nat} (hs : P s) : P (cmdImageCommit d c s).s := by
  refine K.iteRes (K.cmdIgnored hs) ?_
  refine K.iteRes (K.deferStart hs) ?_
  split
  · exact K.iteRes (K.deferStart hs) <| K.cmdIgnored hs
  · exact K.cmdIgnored hs
theorem Sound.commitWrite (K : Sound P) {d : Defer} (hs : P s) : P (commitWrite d s) :=
  K.modDefer <| K.holdClass <| K.put <| K.setTries <| K.writeSelector hs
theorem Sound.execImageCommitted (K : Sound P) {bad : BitVec 12} {part : Bool} (hs : P s) : Answers P (execImageCommitted bad part s) :=
  K.next <| K.ite hs <| K.ite (K.ite hs <| K.commitWrite hs) <| K.deferEnd <| K.imgEvt <| K.markLoads <| K.withLoads (fun _ h =>
      K.loadClass h) <| K.ite hs <| K.commitWrite hs
theorem Sound.imageHealthy (K : Sound P) {c : Nat} (hs : P s) : P (imageHealthy c s) :=
  K.imgEvt <| K.set <| K.setTries <| K.writeSelector hs
theorem Sound.engAfter (K : Sound P) {p : Sys2Proof.Path} {r : Reg} {old new : Word} (hs : P s) : P (engAfter p r old new s) := by
  unfold Machine.engAfter
  split
  · exact K.imageHealthy hs
  · exact K.ite (K.engineReset hs) <| K.ite (K.engineHold hs) hs
  · exact hs

/-! ### Wheels -/

theorem Robust.modWh (K : Robust P) {c : Nat} {f : WheelInt → WheelInt} (hs : P s) : P (s.modWh c f) := K.beside hs rfl
theorem Robust.wheelEvt (K : Robust P) {c bit : Nat} {body : List (Nat × Nat)} (hs : P s) : P (wheelEvt c bit body s) :=
  K.ite (K.raise hs) <| K.raise hs
theorem Robust.countChunks (K : Robust P) {c : Nat} (hs : P s) : P (countChunks c s) := K.set hs
theorem Robust.lowWater (K : Robust P) {c : Nat} (hs : P s) : P (lowWater c s) := K.ite (K.raiseLineFrom hs) hs
theorem Robust.profileReady (K : Robust P) {c : Nat} {p : List Chunk} (hs : P s) : P (profileReady c p s) :=
  K.ite (K.set <| K.modWh hs) <| K.set <| K.modWh hs
theorem Robust.swapProfile (K : Robust P) {c : Nat} (hs : P s) : P (swapProfile c s) := by
  unfold Machine.swapProfile
  split
  · exact K.set <| K.modWh hs
  · exact hs
theorem Robust.chunkPoisoned (K : Robust P) {c : Nat} (hs : P s) : P (chunkPoisoned c s) := K.modWh <| K.bump hs
theorem Robust.residentChunk (K : Robust P) {c : Nat} {ch : Chunk} (hs : P s) : P (residentChunk c ch s) :=
  K.ite (K.modWh hs) <| K.ite (K.profileReady <| K.modWh hs) <| K.modWh hs
theorem Robust.streamChunk (K : Robust P) {c : Nat} {ch : Chunk} (hs : P s) : P (streamChunk c ch s) :=
  K.ite (K.modWh <| K.bump hs) <| K.ite (K.modWh hs) <| K.ite (K.set hs) <| K.countChunks <| K.modWh <| K.set hs
theorem Robust.chunkWord (K : Robust P) {c w : Nat} {v : Word} (hs : P s) : P (chunkWord c w v s) := by
  refine K.ite (K.ite (K.chunkPoisoned hs) hs) ?_
  refine K.ite (K.modWh <| K.ite (K.chunkPoisoned hs) hs) ?_
  dsimp only
  split
  · exact K.lowWater <| K.ite (K.streamChunk <| K.modWh <| K.ite (K.chunkPoisoned hs) hs) <| K.residentChunk <| K.modWh <| K.ite
      (K.chunkPoisoned hs) hs
  · exact K.lowWater <| K.chunkPoisoned <| K.modWh <| K.ite (K.chunkPoisoned hs) hs
theorem Robust.cmdRampLoad (K : Robust P) {c : Nat} {chunks : List (List Word)} (hs : P s) : P (cmdRampLoad c chunks s).s :=
  K.iteRes hs <| K.iteRes (K.cmdIgnored hs) <| K.iteRes (K.foldl (fun _ _ h => K.foldl (fun _ _ h1 => K.chunkWord h1) h) hs) <|
      K.cmdOk <| K.foldl (fun _ _ h => K.foldl (fun _ _ h1 => K.chunkWord h1) h) hs
theorem Robust.stopPlay (K : Robust P) {c : Nat} (hs : P s) : P (stopPlay c s) := K.set <| K.set <| K.set <| K.modWh hs
theorem Robust.toIdle (K : Robust P) {c : Nat} (hs : P s) : P (toIdle c s) :=
  K.swapProfile <| K.set <| K.set <| K.set <| K.stopPlay hs
theorem Robust.toHeld (K : Robust P) {c : Nat} (hs : P s) : P (toHeld c s) := K.swapProfile <| K.set <| K.stopPlay hs
theorem Robust.rampDone (K : Robust P) {c : Nat} (hs : P s) : P (rampDone c s) := K.wheelEvt hs
theorem Robust.wheelAbort (K : Robust P) {c : Nat} (hs : P s) : P (wheelAbort c s) :=
  K.ite hs <| K.lowWater <| K.wheelEvt <| K.countChunks <| K.modWh <| K.toIdle hs
theorem Robust.wheelRetune (K : Robust P) {c : Nat} (hs : P s) : P (wheelRetune c s) := K.ite (K.toIdle hs) hs
theorem Robust.wheelLol (K : Robust P) {c : Nat} (hs : P s) : P (wheelLol c s) := K.ite (K.wheelEvt <| K.set hs) hs
theorem Robust.dropPeriod (K : Robust P) {c : Nat} (hs : P s) : P (dropPeriod c s) := K.countChunks <| K.modWh hs
theorem Robust.wheelHome (K : Robust P) {c : Nat} (hs : P s) : P (wheelHome c s) :=
  K.lowWater <| K.ite (K.rampDone <| K.toIdle <| K.set <| K.set <| K.set <| K.dropPeriod hs) <| K.modWh <| K.set <| K.set <|
      K.set <| K.dropPeriod hs
theorem Robust.wheelLock (K : Robust P) {c : Nat} (hs : P s) : P (wheelLock c s) :=
  K.ite (K.ite (K.wheelHome <| K.set hs) <| K.wheelEvt <| K.ite (K.lowWater <| K.modWh <| K.dropPeriod <| K.set <| K.set hs) <|
      K.set hs) hs
theorem Robust.cmdRampStart (K : Robust P) {c : Nat} (hs : P s) : P (cmdRampStart c s).s :=
  K.iteRes (K.cmdIgnored hs) <| K.iteRes hs <| K.cmdOk <| K.lowWater <| K.modWh <| K.set <| K.set <| K.stopPlay hs
theorem Robust.cmdRampStop (K : Robust P) {c : Nat} {home : Bool} (hs : P s) : P (cmdRampStop c home s).s :=
  K.iteRes (K.cmdIgnored hs) <| K.iteRes (K.cmdOk <| K.rampDone <| K.toHeld hs) <| K.iteRes (K.cmdOk <| K.set hs) <| K.iteRes
      (K.cmdOk hs) <| K.cmdOk <| K.wheelHome hs
theorem Robust.periodDone (K : Robust P) {c : Nat} (hs : P s) : P (periodDone c s) :=
  K.ite (K.rampDone <| K.toHeld <| K.bump hs) <| K.swapProfile <| K.countChunks <| K.modWh <| K.bump hs
theorem Robust.underrun (K : Robust P) {c idx : Nat} (hs : P s) : P (underrun c idx s) :=
  K.periodDone <| K.modWh <| K.dropPeriod <| K.wheelEvt <| K.set <| K.bump hs
theorem Robust.emptyPeriod (K : Robust P) {c : Nat} (hs : P s) : P (emptyPeriod c s) :=
  K.ite (K.periodDone <| K.set <| K.wheelEvt <| K.bump hs) <| K.rampDone <| K.toHeld <| K.wheelEvt <| K.bump hs
theorem Robust.periodStart (K : Robust P) {c : Nat} (hs : P s) : P (periodStart c s) := K.modWh <| K.swapProfile hs
theorem Robust.glideTick (K : Robust P) {c : Nat} (hs : P s) : P (glideTick c s) :=
  K.ite (K.ite (K.rampDone <| K.toIdle <| K.setS hs) <| K.periodStart <| K.set <| K.setS hs) <| K.setS hs
theorem Robust.glideBegin (K : Robust P) {c : Nat} (hs : P s) : P (glideBegin c s) := K.glideTick <| K.wheelEvt <| K.set hs
theorem Robust.segTick (K : Robust P) {c : Nat} (hs : P s) : P (segTick c s) := by
  unfold Machine.segTick
  extract_lets +onlyGivenNames _ _ _ _ s1
  have hs1 : P s1 := K.ite hs <| K.ite (K.wheelEvt <| K.modWh <| K.bump <| K.setS hs) <| K.setS hs
  refine K.ite ?_ (K.modWh hs1)
  split
  · exact K.periodDone <| K.modWh <| K.modWh hs1
  · exact K.countChunks <| K.modWh <| K.modWh hs1
theorem Robust.freshTick (K : Robust P) {c : Nat} {play : State → State} (hplay : ∀ s, P s → P (play s)) (hs : P s) :
    P (freshTick c play s) :=
  K.ite (K.ite (K.countChunks <| K.modWh hs) hs) <| K.ite (K.glideBegin <| K.set <| K.swapProfile <| K.ite (K.countChunks <|
      K.modWh hs) hs) <| hplay _ <| K.periodStart <| K.set <| K.swapProfile <| K.ite (K.countChunks <| K.modWh hs) hs
theorem Robust.playTick (K : Robust P) {c fuel : Nat} (hs : P s) : P (playTick c fuel s) := by
  induction fuel generalizing s with
  | zero => exact hs
  | succ fuel ih =>
    unfold Machine.playTick
    dsimp only
    split
    · exact K.segTick hs
    · split
      · exact K.segTick <| K.set <| K.countChunks <| K.modWh hs
      · exact K.underrun <| K.countChunks <| K.modWh hs
      · next w' _ =>
        have h1 : P (s.modWh c (fun _ => w')) := K.modWh hs
        refine K.ite (K.freshTick (fun _ h => ih h) ?_) ?_ <;> exact K.ite (K.emptyPeriod h1) (K.periodDone h1)
theorem Robust.wheelTick (K : Robust P) {c : Nat} (hs : P s) : P (wheelTick c s) :=
  K.ite (K.lowWater <| K.ite (K.glideTick hs) <| K.ite (K.glideBegin hs) <| K.ite (K.freshTick (fun _ h => K.playTick h) hs) <|
      K.playTick hs) hs
theorem Robust.poisonRamp (K : Robust P) {c k a : Nat} (hs : P s) : P (poisonRamp c k a s) := K.modWh hs
theorem Robust.clampOfs (K : Robust P) {c : Nat} (hs : P s) : P (clampOfs c s) := K.setS hs
theorem Robust.rmpAfter (K : Robust P) {r : Reg} {new : Word} (hs : P s) : P (rmpAfter r new s) := by
  unfold Machine.rmpAfter
  dsimp only
  split
  · exact K.clampOfs hs
  · exact K.clampOfs hs
  · exact K.lowWater hs
  · exact K.ite (K.cmdRampStart hs) <| K.ite (K.cmdRampStop hs) hs
  · exact K.chunkWord hs
  · exact hs

/-! ### Clusters -/

theorem Robust.applyPlan (K : Robust P) {c : Nat} {p : Plan} (hs : P s) : P (applyPlan c p s) :=
  K.put <| K.each (fun _ _ h => K.set <| K.set h) <| K.set <| K.modSyn hs
theorem Robust.swapBands (K : Robust P) {c : Nat} (hs : P s) : P (swapBands c s) := by
  unfold Machine.swapBands
  split
  · exact K.ite hs <| K.set <| K.modSyn <| K.each (fun _ _ h => K.each (fun _ _ h1 => K.set h1) h) <| K.foldl (fun _ _ h =>
      K.setWord h) hs
  · exact hs
theorem Robust.execBandSwap (K : Robust P) {c : Fin 12} (hs : P s) : Answers P (execBandSwap c s) := K.next <| K.swapBands hs
theorem Robust.bandLoadStart (K : Robust P) {c : Nat} (hs : P s) : P (bandLoadStart c s) := K.set <| K.set <| K.modSyn hs
theorem Robust.bandLoadData (K : Robust P) {c : Nat} {w : Word} (hs : P s) : P (bandLoadData c w s) := by
  unfold Machine.bandLoadData
  split
  · exact hs
  · exact K.ite (K.modSyn <| K.set hs) <| K.ite (K.set <| K.set <| K.modSyn <| K.set hs) <| K.set <| K.modSyn <| K.set hs
theorem Robust.bandLoadError (K : Robust P) {c a : Nat} (hs : P s) : P (bandLoadError c a s) := by
  unfold Machine.bandLoadError
  split
  · exact K.ite (K.modSyn hs) hs
  · exact K.modSyn hs
theorem Robust.cmdBandLoad (K : Robust P) {c : Nat} {ws : List Word} (hs : P s) : P (cmdBandLoad c ws s).s := by
  unfold Machine.cmdBandLoad
  dsimp only
  exact K.foldl (fun _ _ h => K.bandLoadData h) <| K.bandLoadStart hs
theorem Robust.showRegion (K : Robust P) {t : Nat} (hs : P s) : P (showRegion t s) :=
  K.refreshAllWindows <| K.rearmDeps <| K.each (fun _ _ h => K.set <| K.set <| K.set <| K.set <| K.set <| K.put <| K.put <|
      K.put h) <| K.each (fun _ _ h => K.put h) hs
theorem Robust.dropAlignOnLoss (K : Robust P) {n : Nat} (hs : P s) : P (dropAlignOnLoss n s) :=
  K.ite (K.dropRsync <| K.ite (K.dropRealign hs) hs) <| K.ite (K.dropRealign hs) hs
theorem Robust.enterLoss (K : Robust P) {n c : Nat} (hs : P s) : P (enterLoss n c s) := by
  refine K.ite (K.modOut hs) ?_
  dsimp only
  split
  · exact K.raise <| K.modOut <| K.set <| K.dropAlignOnLoss <| K.set hs
  · exact K.modOut <| K.set <| K.dropAlignOnLoss <| K.set hs
theorem Robust.bypassEnter (K : Robust P) {c : Nat} {old new : State} (hs1 : P new) : P (bypassEnter c old new) :=
  K.ite hs1 <| K.raise hs1
theorem Robust.muxToCtl (K : Robust P) {n : Nat} (hs : P s) : P (muxToCtl n s) := K.modOut hs
theorem Robust.unitBack (K : Robust P) {n : Nat} (hs : P s) : P (unitBack n s) :=
  K.ite (K.set <| K.set hs) <| K.ite (K.set <| K.set <| K.set <| K.modOut <| K.muxToCtl <| K.set <| K.set hs) <| K.set <| K.set
      <| K.modOut <| K.muxToCtl <| K.set <| K.set hs
theorem Robust.lossAtStart (K : Robust P) {n : Nat} (hs : P s) : P (lossAtStart n s) := K.ite (K.bypassEnter <| K.enterLoss hs) hs
theorem Robust.returnEnds (K : Robust P) {c : Nat} (hs : P s) : P (returnEnds c s) :=
  K.ite hs <| K.ite (K.modSyn hs) <| K.raise <| K.modSyn hs
theorem Robust.countBack (K : Robust P) {n c : Nat} (hs : P s) : P (countBack n c s) := K.lossAtStart <| K.modSyn <| K.unitBack hs
theorem Robust.finishSwitch (K : Robust P) {n : Nat} (hs : P s) : P (finishSwitch n s) := by
  unfold Machine.finishSwitch
  split
  · exact K.set <| K.set <| K.modOut hs
  · exact K.returnEnds <| K.countBack hs
  · exact hs
theorem Robust.endReturns (K : Robust P) {c : Nat} {old new : State} (hs1 : P new) : P (endReturns c old new) :=
  K.each (fun _ _ h => K.ite (K.returnEnds h) h) hs1
theorem Robust.loseUnits (K : Robust P) {c : Nat} {p : Nat → Bool} (hs : P s) : P (loseUnits c p s) :=
  K.endReturns <| K.modSyn <| K.each (fun _ _ h => K.ite (K.enterLoss h) h) hs
theorem Robust.clusterLost (K : Robust P) {c : Nat} (hs : P s) : P (clusterLost c s) :=
  K.bypassEnter <| K.ite (K.clockLoss <| K.loseUnits <| K.set hs) <| K.loseUnits <| K.set hs
theorem Robust.clusterReturn (K : Robust P) {c : Nat} (hs : P s) : P (clusterReturn c s) :=
  K.returnEnds <| K.each (fun _ _ h => K.ite (K.ite (K.modOut h) <| K.ite (K.modOut <| K.modOut h) <| K.countBack <| K.modOut h)
      h) <| K.set hs
theorem Robust.execBypassSwitch (K : Robust P) {n : Fin 48} (hs : P s) : Answers P (execBypassSwitch n s) :=
  K.next <| K.showRegion <| K.finishSwitch hs
theorem Robust.fullSearch (K : Robust P) {c : Nat} (hs : P s) : P (fullSearch c s) :=
  K.wheelAbort <| K.modSyn <| K.bump <| K.set hs
theorem Robust.startRetune (K : Robust P) {c : Nat} {p : Plan} (hs : P s) : P (startRetune c p s) :=
  K.wheelAbort <| K.pushEvt <| K.ite (K.bump <| K.set <| K.set <| K.set <| K.modSyn <| K.applyPlan hs) <| K.set <| K.set <|
      K.set <| K.modSyn <| K.applyPlan hs
theorem Robust.synFail (K : Robust P) {c : Nat} (hs : P s) : P (synFail c s) := K.raise <| K.set <| K.set hs
theorem Robust.synEnable (K : Robust P) {c : Nat} (hs : P s) : P (synEnable c s) := K.ite hs <| K.showRegion <| K.startRetune hs
theorem Robust.synDisable (K : Robust P) {c : Nat} (hs : P s) : P (synDisable c s) :=
  K.ite hs <| K.showRegion <| K.wheelAbort <| K.clusterLost <| K.modSyn <| K.set <| K.set <| K.each (fun _ _ h => K.ite
      (K.finishSwitch h) h) hs
theorem Robust.synApply (K : Robust P) {c : Nat} {p : Plan} (hs : P s) : P (synApply c p s) :=
  K.showRegion <| K.bypassEnter <| K.loseUnits <| K.startRetune <| K.wheelRetune hs
theorem Robust.cmdHop (K : Robust P) {c nInt path num den : Nat} (hs : P s) : P (cmdHop c nInt path num den s).s :=
  K.iteRes (K.cmdOk <| K.synApply <| K.set <| K.set <| K.set <| K.set hs) <| K.cmdIgnored hs
theorem Robust.execBandSearchDone (K : Robust P) {c : Fin 12} {found : Bool} {core : Fin 4} {band vt : Byte} (hs : P s) :
    Answers P (execBandSearchDone c found core band vt s) :=
  K.next <| K.ite hs <| K.ite (K.showRegion <| K.synFail hs) <| K.ite (K.ite (K.showRegion <| K.synFail hs) hs) <| K.ite (K.set
      <| K.set <| K.set <| K.set hs) hs
theorem Robust.execHopMiss (K : Robust P) {c : Fin 12} {vt : Byte} (hs : P s) : Answers P (execHopMiss c vt s) := by
  refine K.next ?_
  split
  · exact K.ite (K.raise <| K.modSyn <| K.set <| K.set <| K.set hs) hs
  · exact hs
theorem Robust.execAcquireTimeout (K : Robust P) {c : Fin 12} (hs : P s) : Answers P (execAcquireTimeout c s) :=
  K.next <| K.ite (K.showRegion <| K.ite (K.synFail hs) <| K.fullSearch hs) hs
theorem Robust.execResearchTimeout (K : Robust P) {c : Fin 12} (hs : P s) : Answers P (execResearchTimeout c s) :=
  K.next <| K.ite hs <| K.ite (K.modSyn hs) <| K.showRegion <| K.fullSearch <| K.modSyn hs
theorem Robust.followCheck (K : Robust P) {t : Nat} (hs : P s) : P (followCheck t s) :=
  K.each (fun _ _ h => K.ite (K.fullSearch <| K.modSyn h) h) hs
theorem Robust.storeSlot (K : Robust P) {c : Nat} (hs : P s) : P (storeSlot c s) := by
  unfold Machine.storeSlot
  dsimp only
  split
  · exact K.ite (K.set <| K.set <| K.set <| K.set hs) hs
  · exact hs
theorem Robust.dropAlignDisabled (K : Robust P) {n : Nat} (hs : P s) : P (dropAlignDisabled n s) :=
  K.ite (K.dropRsync <| K.ite (K.ite (K.set <| K.set <| K.modTrg hs) <| K.set <| K.modTrg hs) hs) <| K.ite (K.ite (K.set <|
      K.set <| K.modTrg hs) <| K.set <| K.modTrg hs) hs
theorem Robust.unitStop (K : Robust P) {n : Nat} {hiZ : Bool} (hs : P s) : P (unitStop n hiZ s) :=
  K.followCheck <| K.set <| K.set <| K.set <| K.set <| K.modOut <| K.dropAlignDisabled <| K.finishSwitch hs
theorem Robust.retuneRange (K : Robust P) {c : Nat} (hs : P s) : P (retuneRange c s) :=
  K.each (fun _ _ h => K.ite (K.raise <| K.unitStop h) h) hs
theorem Robust.startHold (K : Robust P) {c : Nat} (hs : P s) : P (startHold c s) := K.ite (K.set hs) hs
theorem Robust.execSynLock (K : Robust P) {c : Fin 12} {vt : Byte} {err : Word} {run : Byte} (hs : P s) :
    Answers P (execSynLock c vt err run s) :=
  K.next <| K.ite hs <| K.ite hs <| K.ite hs <| K.showRegion <| K.wheelLock <| K.ite (K.clusterReturn <| K.retuneRange <|
      K.raise <| K.set <| K.storeSlot <| K.raise <| K.modSyn <| K.set <| K.set hs) <| K.startHold <| K.raise <| K.modSyn <|
      K.set <| K.set hs
theorem Robust.execLol (K : Robust P) {c : Fin 12} {err : Word} {run : Byte} (hs : P s) : Answers P (execLol c err run s) :=
  K.next <| K.ite hs <| K.showRegion <| K.wheelLol <| K.clusterLost <| K.raise <| K.bump <| K.set hs
theorem Robust.execReturnHoldExpire (K : Robust P) {c : Fin 12} (hs : P s) : Answers P (execReturnHoldExpire c s) :=
  K.next <| K.ite (K.showRegion <| K.clusterReturn hs) hs
theorem Robust.cmdBypassReturn (K : Robust P) {c : Nat} (hs : P s) : P (cmdBypassReturn c s).s :=
  K.iteRes (K.cmdOk <| K.showRegion <| K.clusterReturn hs) <| K.cmdIgnored hs
theorem Robust.retAutoWritten (K : Robust P) {c : Nat} {new : Bool} (hs : P s) : P (retAutoWritten c new s) :=
  K.ite (K.showRegion <| K.set hs) <| K.ite (K.showRegion <| K.set hs) hs
theorem Robust.passFallback (K : Robust P) {t : Nat} (hs : P s) : P (passFallback t s) :=
  K.each (fun _ _ h => K.ite (K.modPrg h) h) hs
theorem Robust.wheelMoved (K : Robust P) {c : Nat} {old new : State} (hs1 : P new) : P (wheelMoved c old new) :=
  K.ite hs1 <| K.showRegion hs1
theorem Robust.execRampTick (K : Robust P) {c : Fin 12} (hs : P s) : Answers P (execRampTick c s) :=
  K.next <| K.wheelMoved <| K.wheelTick hs
theorem Robust.rmpMoved (K : Robust P) {r : Reg} {new : Word} (hs : P s) : P (rmpMoved r new s) := K.wheelMoved <| K.rmpAfter hs
theorem Robust.synAfter (K : Robust P) {r : Reg} {old new : Word} (hs : P s) : P (synAfter r old new s) := by
  unfold Machine.synAfter
  dsimp only
  split
  · exact K.ite (K.ite (K.synEnable hs) <| K.synDisable hs) <| K.ite (K.retAutoWritten hs) hs
  · exact K.ite (K.synApply hs) hs
  · exact K.showRegion hs
  · exact K.showRegion <| K.ite (K.passFallback hs) hs
  · exact K.ite (K.bandLoadStart hs) hs
  · exact K.bandLoadData hs
  · exact hs

/-! ### Output units -/

theorem Robust.execBankLoss (K : Robust P) {b : Fin 8} {v : Byte} (hs : P s) : Answers P (execBankLoss b v s) :=
  K.next <| K.ite hs <| K.showRegion <| K.each (fun _ _ h => K.ite (K.raise <| K.unitStop h) <| K.modOut h) <| K.set <| K.set hs
theorem Robust.execBankSupplyReturn (K : Robust P) {b : Fin 8} {v : Byte} (hs : P s) : Answers P (execBankSupplyReturn b v s) :=
  K.next <| K.ite (K.set <| K.set hs) hs
theorem Robust.applyUnit (K : Robust P) {n : Nat} (hs : P s) : P (applyUnit n s) := K.modOut hs
theorem Robust.showStaged (K : Robust P) {n : Nat} (hs : P s) : P (showStaged n s) := K.put hs
theorem Robust.applyUnstaged (K : Robust P) {n : Nat} (hs : P s) : P (applyUnstaged n s) :=
  K.ite hs <| K.showStaged <| K.applyUnit hs
theorem Robust.applySource (K : Robust P) {n : Nat} (hs : P s) : P (applySource n s) :=
  K.set <| K.set <| K.modOut <| K.muxToCtl hs
theorem Robust.unitStart (K : Robust P) {n : Nat} (hs : P s) : P (unitStart n s) :=
  K.showRegion <| K.lossAtStart <| K.set <| K.set <| K.modOut <| K.applySource <| K.applyUnstaged hs
theorem Robust.unitDisable (K : Robust P) {n : Nat} (hs : P s) : P (unitDisable n s) := K.showRegion <| K.unitStop hs
theorem Robust.leaveLosses (K : Robust P) {n : Nat} (hs : P s) : P (leaveLosses n s) :=
  K.ite (K.set <| K.set <| K.modOut hs) <| K.modOut hs
theorem Robust.execAvenueMuxSwitch (K : Robust P) {n : Fin 48} (hs : P s) : Answers P (execAvenueMuxSwitch n s) :=
  K.next <| K.ite (K.showRegion <| K.followCheck <| K.lossAtStart <| K.leaveLosses <| K.applySource hs) hs
theorem Robust.execRealignDone (K : Robust P) {t : Fin 4} {edges : BitVec 16} (hs : P s) : Answers P (execRealignDone t edges s) := by
  refine K.next ?_
  split
  · exact K.ite hs <| K.showRegion <| K.raise <| K.each (fun _ _ h => K.ite (K.raise <| K.epochRealigned <| K.showStaged <|
      K.applyUnit <| K.set h) h) <| K.set <| K.clearAlignPend <| K.modTrg hs
  · exact hs
theorem Robust.rsyncArm (K : Robust P) {t mask k : Nat} (hs : P s) : P (rsyncArm t mask k s) :=
  K.set <| K.set <| K.modTrg <| K.each (fun _ _ h => K.ite (K.set h) h) <| K.clearAlignPend hs
theorem Robust.execAligned (K : Robust P) {t : Fin 4} {edges : BitVec 16} (hs : P s) : Answers P (execAligned t edges s) :=
  K.next <| K.ite (K.each (fun _ _ h => K.ite (K.raise h) h) <| K.set <| K.set <| K.clearAlignPend hs) hs
theorem Robust.execFineWalkDone (K : Robust P) {n : Fin 48} (hs : P s) : Answers P (execFineWalkDone n s) :=
  K.next <| K.ite (K.set <| K.modOut hs) hs
theorem Robust.execSyncInEdge (K : Robust P) {i : Fin 8} {falling : Bool} {high : BitVec 48} (hs : P s) :
    Answers P (execSyncInEdge i falling high s) :=
  K.next <| K.ite (K.each (fun _ _ h => K.ite (K.ite (K.raise <| K.bump h) <| K.bump h) h) hs) hs
theorem Robust.unitConfigured (K : Robust P) {n : Nat} (hs : P s) : P (unitConfigured n s) :=
  K.modOut <| K.applyUnstaged <| K.muxToCtl hs
theorem Robust.outAfter (K : Robust P) {r : Reg} {old new : Word} (hs : P s) : P (outAfter r old new s) := by
  unfold Machine.outAfter
  dsimp only
  split
  · exact K.ite (K.unitStart hs) <| K.ite (K.unitDisable hs) <| K.ite (K.showRegion <| K.unitConfigured hs) <| K.ite (K.modOut
      hs) hs
  · exact K.showRegion <| K.showStaged <| K.ite hs <| K.modOut hs
  · exact K.ite (K.put <| K.modOut hs) <| K.showStaged <| K.ite hs <| K.modOut hs
  · exact K.showRegion <| K.showStaged <| K.ite hs <| K.modOut hs
  · exact K.showStaged <| K.ite hs <| K.modOut hs
  · exact K.put hs
  · exact K.rsyncArm hs
  · exact hs

/-! ### Pins -/

theorem Robust.heldLevel (K : Robust P) {o : PinOut} (hs : P s) : P (heldLevel o s).2 := by
  unfold Machine.heldLevel
  dsimp only
  split
  · exact K.draw hs
  · exact K.draw hs
  · exact K.iteSnd hs <| K.iteSnd hs <| K.draw hs
  · exact hs
theorem Robust.startHandover (K : Robust P) {i : Nat} {l : List Nat} {old : PinOut} (hs : P s) : P (startHandover i l old s) :=
  K.withPin <| K.heldLevel hs
theorem Robust.pinsMoved (K : Robust P) {a : Alarms} {old : State} (hs1 : P s) : P (pinsMoved a old s) :=
  K.each (fun _ _ h => K.ite (K.ite h <| K.beside h rfl) <| K.ite h <| K.startHandover h) hs1
theorem Robust.pinsSettle (K : Robust P) (hs : P s) : P (pinsSettle s) := K.each (fun _ _ h => K.set h) hs
theorem Robust.finRelease (K : Robust P) {k : Nat} (hs : P s) : P (finRelease k s) :=
  K.ite hs <| K.each (fun _ _ h => K.showHold <| K.modRail h) hs
theorem Robust.execFaultIn (K : Robust P) {k : Fin 4} {on : Bool} (hs : P s) : Answers P (execFaultIn k on s) :=
  K.next <| K.ite hs <| K.ite (K.when (fun _ h => K.raise h) <| K.foldl (fun _ _ h => K.showHold <| K.modRail <| K.railToSafe h)
      <| K.setBit <| K.setBit hs) <| K.ite (K.finRelease <| K.setBit hs) hs
theorem Robust.pinSampled (K : Robust P) {n : Nat} {lv : Bool} (hs : P s) : P (pinSampled n lv s) := K.setBit <| K.beside hs rfl
theorem Robust.pinPend (K : Robust P) {n : Nat} {lv : Bool} (hs : P s) : P (pinPend n lv s) :=
  K.ite hs <| K.ite (K.raise <| K.setBit hs) <| K.engInterrupt <| K.setBit hs
theorem Robust.pinSample (K : Robust P) {i : Nat} {level : Bool} (hs : P s) : P (pinSample i level s) :=
  K.ite hs <| K.ite (K.pinPend <| K.pinSampled hs) <| K.pinSampled hs
theorem Robust.execPinIrq (K : Robust P) {i : Fin 64} {level : Bool} {bank : Fin 4} (hs : P s) : Answers P
    (execPinIrq i level bank s) :=
  K.next <| K.pinSample hs
theorem Robust.levelAgain (K : Robust P) {g : Nat} (hs : P s) : P (levelAgain g s) :=
  K.each (fun _ _ h => K.ite (K.pinPend h) h) hs
theorem Robust.execPwmxPeriod (K : Robust P) {k : Fin 4} (hs : P s) : Answers P (execPwmxPeriod k s) :=
  K.next <| K.ite hs <| K.beside hs rfl
theorem Robust.execCaptureSample (K : Robust P) (hs : P s) : Answers P (execCaptureSample s) :=
  K.next <| K.ite hs <| K.ite (K.ite hs <| K.raise <| K.bump <| K.beside hs rfl) <| K.ite (K.when (fun _ h => K.raiseLineFor
      (fun _ _ h1 => K.beside h1 rfl) h) <| K.bump <| K.beside hs rfl) <| K.beside hs rfl
theorem Robust.pinAfter (K : Robust P) {r : Reg} {old new : Word} (hs : P s) : P (pinAfter r old new s) := by
  unfold Machine.pinAfter
  split
  · exact K.set hs
  · exact K.set hs
  · exact K.levelAgain hs
  · exact K.each (fun _ _ h => K.finRelease h) <| K.set hs
  · exact K.ite (K.beside hs rfl) hs
  · exact hs

/-! ### Sequences and the hold-up block -/

theorem Robust.modSeq (K : Robust P) {f : SeqInt → SeqInt} (hs : P s) : P (s.modSeq f) := K.beside hs rfl
theorem Robust.part (K : Robust P) {ok : Bool} {f : State → State} (hf : ∀ s, P s → P (f s)) (hs : P s) : P (part ok f s) :=
  K.ite (hf _ hs) <| K.bump hs
theorem Robust.railOnPart (K : Robust P) {r : Nat} (hs : P s) : P (railOnPart r s) :=
  K.ite hs <| K.part (fun _ h => K.railEnable <| K.set h) hs
theorem Robust.railWriteOff (K : Robust P) {r : Nat} (hs : P s) : P (railWriteOff r s) := K.railDisable <| K.set hs
theorem Robust.unitWriteOn (K : Robust P) {n : Nat} (hs : P s) : P (unitWriteOn n s) :=
  K.ite hs <| K.part (fun _ h => K.ite h <| K.unitStart <| K.set h) hs
theorem Robust.unitWriteOff (K : Robust P) {n : Nat} (hs : P s) : P (unitWriteOff n s) := K.ite (K.unitDisable <| K.set hs) hs
theorem Robust.hkPg (K : Robust P) {b : Nat} {on : Bool} (hs : P s) : P (hkPg b on s) := K.ite (K.setBit hs) <| K.setBit hs
theorem Robust.hkWrite (K : Robust P) {b : Nat} {on : Bool} (hs : P s) : P (hkWrite b on s) := K.ite hs <| K.hkPg <| K.put hs
theorem Robust.applyAction (K : Robust P) (hs : P s) : P (applyAction s) := by
  unfold Machine.applyAction
  dsimp only
  split
  · exact K.foldl (fun _ _ h => K.railOnPart h) hs
  · exact K.foldl (fun _ _ h => K.railWriteOff h) hs
  · exact K.vidWritten <| K.set hs
  · exact K.foldl (fun _ _ h => K.unitWriteOn h) hs
  · exact K.foldl (fun _ _ h => K.unitWriteOff h) hs
  · exact K.ite hs <| K.part (fun _ h => K.beside h rfl) hs
  · exact K.foldl (fun _ _ h => K.hkWrite h) hs
  · exact K.foldl (fun _ _ h => K.hkWrite h) hs
  · exact hs
theorem Robust.seqEvt (K : Robust P) {bit : Nat} (hs : P s) : P (seqEvt bit s) := K.raise hs
theorem Robust.seqEnded (K : Robust P) {last cause : Nat} (hs : P s) : P (seqEnded last cause s) := by
  unfold Machine.seqEnded
  dsimp only
  split
  · exact K.latchClass <| K.seqEvt <| K.modSeq <| K.set <| K.set <| K.set hs
  · exact K.setBit <| K.modSeq <| K.set <| K.set <| K.set hs
  · exact K.seqEvt <| K.modSeq <| K.set <| K.set <| K.set hs
theorem Robust.beginStep (K : Robust P) {i : Nat} (hs : P s) : P (beginStep i s) :=
  K.ite (K.modSeq <| K.set <| K.set hs) <| K.seqEnded <| K.modSeq <| K.set <| K.set hs
theorem Robust.startCore (K : Robust P) {rank q : Nat} (hs : P s) : P (startCore rank q s) :=
  K.ite (K.seqEnded <| K.set <| K.set <| K.set hs) <| K.beginStep <| K.set <| K.set <| K.set hs
theorem Robust.startHeld (K : Robust P) (hs : P s) : P (startHeld s) := by
  unfold Machine.startHeld
  split
  · exact K.ite (K.startCore <| K.set <| K.set <| K.modSeq hs) hs
  · exact hs
theorem Robust.startNow (K : Robust P) {rank q : Nat} (hs : P s) : P (startNow rank q s) := K.startHeld <| K.startCore hs
theorem Robust.holdRequest (K : Robust P) {rank q : Nat} (hs : P s) : P (holdRequest rank q s) := K.set <| K.set <| K.modSeq hs
theorem Robust.seqRequest (K : Robust P) {rank q : Nat} (hs : P s) : P (seqRequest rank q s) :=
  K.ite hs <| K.ite (K.startNow hs) <| K.ite (K.startNow <| K.seqEnded <| K.ite (K.applyAction hs) hs) <| K.ite (K.seqEvt hs) <|
      K.holdRequest hs
theorem Robust.tryRestart (K : Robust P) (hs : P s) : P (tryRestart s) := K.ite (K.seqRequest <| K.modSeq hs) hs
theorem Robust.seqEnd (K : Robust P) {last cause : Nat} (hs : P s) : P (seqEnd last cause s) :=
  K.tryRestart <| K.startHeld <| K.seqEnded hs
theorem Robust.cmdSeqStart (K : Robust P) {q : Nat} (hs : P s) : P (cmdSeqStart q s).s :=
  K.iteRes (K.startNow hs) <| K.cmdIgnored hs
theorem Robust.cmdSeqStop (K : Robust P) (hs : P s) : P (cmdSeqStop s).s :=
  K.iteRes (K.cmdOk <| K.seqEnd hs) <| K.iteRes (K.cmdOk <| K.seqEnd hs) <| K.iteRes (K.cmdOk <| K.modSeq hs) <| K.cmdIgnored hs
theorem Robust.execStepWaitSatisfied (K : Robust P) (hs : P s) : Answers P (execStepWaitSatisfied s) :=
  K.next <| K.ite (K.seqEnd hs) <| K.ite (K.set hs) hs
theorem Robust.execStepActionDone (K : Robust P) (hs : P s) : Answers P (execStepActionDone s) :=
  K.next <| K.ite (K.ite (K.seqEnd <| K.applyAction hs) <| K.ite (K.ite (K.tryRestart <| K.startHeld <| K.beginStep <|
      K.applyAction hs) <| K.beginStep <| K.applyAction hs) <| K.seqEnd <| K.applyAction hs) hs
theorem Robust.execStepTimeout (K : Robust P) (hs : P s) : Answers P (execStepTimeout s) :=
  K.next <| K.ite (K.seqEnd hs) <| K.ite (K.ite (K.seqEvt <| K.set <| K.bump hs) <| K.seqEnd <| K.bump hs) hs
theorem Robust.seqLoadStart (K : Robust P) (hs : P s) : P (seqLoadStart s) := K.set <| K.set <| K.modSeq hs
theorem Robust.seqLoadData (K : Robust P) {w : Word} (hs : P s) : P (seqLoadData w s) := by
  unfold Machine.seqLoadData
  split
  · exact hs
  · dsimp only
    split
    · exact K.ite (K.modSeq <| K.set <| K.set hs) <| K.set <| K.modSeq <| K.set <| K.set hs
    · exact K.ite (K.modSeq <| K.set hs) <| K.ite (K.set <| K.set <| K.modSeq <| K.set hs) <| K.set <| K.modSeq <| K.set hs
theorem Robust.seqLoadError (K : Robust P) {a : Nat} (hs : P s) : P (seqLoadError a s) := by
  unfold Machine.seqLoadError
  split
  · exact K.ite (K.modSeq hs) hs
  · exact K.modSeq hs
theorem Robust.cmdSeqLoad (K : Robust P) {ws : List Word} (hs : P s) : P (cmdSeqLoad ws s).s :=
  K.iteRes (K.cmdIgnored hs) <| K.iteRes (K.cmdOk <| K.foldl (fun _ _ h => K.seqLoadData h) <| K.seqLoadStart hs) <| K.foldl
      (fun _ _ h => K.seqLoadData h) <| K.seqLoadStart hs
theorem Robust.seqReplace (K : Robust P) {q : Nat} {ws : List Word} {bad : List Nat} (hs : P s) : P (seqReplace q ws bad s) :=
  K.each (fun _ _ h => K.setWord h) <| K.set <| K.modSeq hs
theorem Robust.seqSwap (K : Robust P) (hs : P s) : P (seqSwap s) := K.put <| K.foldl (fun _ _ h => K.seqReplace h) hs
theorem Robust.execSeqSwap (K : Robust P) (hs : P s) : Answers P (execSeqSwap s) := K.next <| K.seqSwap hs
theorem Robust.execDepTrip (K : Robust P) {d : Fin 16} (hs : P s) : Answers P (execDepTrip d s) := by
  refine K.next ?_
  refine K.ite ?_ hs
  extract_lets +onlyGivenNames s1
  have hs1 : P s1 := K.pushEvt <| K.setBit <| K.beside hs rfl
  split
  · exact K.ite (K.foldl (fun _ _ h => K.unitWriteOff h) hs1) <| K.foldl (fun _ _ h => K.railWriteOff h) hs1
  · exact K.seqRequest hs1
  · exact hs1
theorem Robust.hupEvt (K : Robust P) {bit code : Nat} (hs : P s) : P (hupEvt bit code s) := K.raise hs
theorem Robust.chargerFollow (K : Robust P) (hs : P s) : P (chargerFollow s) := K.ite (K.set hs) <| K.ite (K.set hs) hs
theorem Robust.showReady (K : Robust P) (hs : P s) : P (showReady s) := K.ite (K.hupEvt <| K.put hs) <| K.put hs
theorem Robust.storeMeasured (K : Robust P) {v : BitVec 16} (hs : P s) : P (storeMeasured v s) := K.showReady <| K.set hs
theorem Robust.chargerFault (K : Robust P) (hs : P s) : P (chargerFault s) := K.latchClass <| K.hupEvt <| K.set hs
theorem Robust.chargeMeasured (K : Robust P) {v : BitVec 16} (hs : P s) : P (chargeMeasured v s) :=
  K.ite (K.chargerFault <| K.storeMeasured hs) <| K.storeMeasured hs
theorem Robust.execChgCv (K : Robust P) {v : BitVec 16} (hs : P s) : Answers P (execChgCv v s) :=
  K.next <| K.ite (K.set <| K.chargeMeasured hs) <| K.chargeMeasured hs
theorem Robust.execChgFull (K : Robust P) {i : BitVec 16} (hs : P s) : Answers P (execChgFull i s) :=
  K.next <| K.ite (K.set hs) hs
theorem Robust.execChgRecharge (K : Robust P) {v : BitVec 16} (hs : P s) : Answers P (execChgRecharge v s) :=
  K.next <| K.ite (K.set <| K.storeMeasured hs) <| K.storeMeasured hs
theorem Robust.execChgFault (K : Robust P) {v : Option (BitVec 16)} (hs : P s) : Answers P (execChgFault v s) := by
  refine K.next ?_
  split
  · exact K.chargeMeasured hs
  · exact K.ite (K.chargerFault hs) hs
theorem Robust.execStoreReady (K : Robust P) {v : BitVec 16} (hs : P s) : Answers P (execStoreReady v s) :=
  K.next <| K.chargeMeasured hs
theorem Robust.cmdStoreCharge (K : Robust P) {arg : Nat} (hs : P s) : P (cmdStoreCharge arg s).s :=
  K.iteRes (K.cmdOk <| K.chargerFollow <| K.set <| K.set <| K.set hs) <| K.cmdIgnored hs
theorem Robust.execVinLoss (K : Robust P) {v : BitVec 16} (hs : P s) : Answers P (execVinLoss v s) := by
  refine K.next ?_
  refine K.ite ?_ hs
  extract_lets +onlyGivenNames _ s2 s3
  have hs2 : P s2 := K.latchClass <| K.hupEvt <| K.chargerFollow <| K.set hs
  have hs3 : P s3 := K.ite (K.set hs2) hs2
  exact K.ite (K.seqRequest <| K.modSeq hs3) <| K.modSeq hs3
theorem Robust.execStoreLow (K : Robust P) {v : BitVec 16} (hs : P s) : Answers P (execStoreLow v s) :=
  K.next <| K.ite (K.ite (K.packageShutdown <| K.ite (K.applyAction <| K.latchClass <| K.hupEvt <| K.storeMeasured hs) <|
      K.latchClass <| K.hupEvt <| K.storeMeasured hs) <| K.seqEnd <| K.packageShutdown <| K.ite (K.applyAction <| K.latchClass
      <| K.hupEvt <| K.storeMeasured hs) <| K.latchClass <| K.hupEvt <| K.storeMeasured hs) <| K.storeMeasured hs
theorem Robust.execVinGood (K : Robust P) {v : BitVec 16} (hs : P s) : Answers P (execVinGood v s) :=
  K.next <| K.ite hs <| K.tryRestart <| K.modSeq <| K.hupEvt <| K.chargerFollow <| K.set <| K.set hs
theorem Robust.execHkFault (K : Robust P) {i : Fin 8} {mv : Option (BitVec 16)} (hs : P s) : Answers P (execHkFault i mv s) :=
  K.next <| K.ite (K.ite (K.hkWrite <| K.latchClass <| K.pushEvt <| K.setBit hs) <| K.ite (K.hkPg <| K.latchClass <| K.pushEvt
      <| K.setBit hs) <| K.latchClass <| K.pushEvt <| K.setBit hs) <| K.ite (K.hkPg hs) hs
theorem Robust.execTdMeasure (K : Robust P) {i : Fin 8} {temp : BitVec 16} (hs : P s) : Answers P (execTdMeasure i temp s) :=
  K.next <| K.ite (K.ite (K.ite (K.latchClass <| K.set hs) <| K.latchClass <| K.pushEvt <| K.setBit <| K.set hs) <| K.set hs) hs
theorem Robust.seqAfter (K : Robust P) {r : Reg} {old new : Word} (hs : P s) : P (seqAfter r old new s) := by
  unfold Machine.seqAfter
  split
  · exact K.ite (K.cmdSeqStart hs) <| K.ite (K.cmdSeqStop hs) hs
  · exact K.ite (K.seqLoadStart hs) hs
  · exact K.seqLoadData hs
  · exact K.rearmDeps <| K.ite hs <| K.beside hs rfl
  · exact K.rearmDeps <| K.ite hs <| K.beside hs rfl
  · exact K.chargerFollow hs
  · exact K.showReady hs
  · exact K.ite (K.hkPg hs) hs
  · exact K.ite (K.hkPg hs) hs
  · exact hs

/-! ### Pads -/

theorem Robust.keepLevels (K : Robust P) {l : List Nat} {old : State} (hs1 : P s) : P (keepLevels l old s) :=
  K.foldl (fun _ _ h => K.withPin <| K.heldLevel h) hs1
theorem Robust.keepPins (K : Robust P) {old : State} (hs1 : P s) : P (keepPins old s) := K.keepLevels hs1
theorem Robust.keepPads (K : Robust P) {old : State} (hs1 : P s) : P (keepPads old s) := K.keepLevels hs1
theorem Robust.execPinHandover (K : Robust P) {i : Fin 64} (hs : P s) : Answers P (execPinHandover i s) := by
  refine K.next ?_
  split
  · exact hs
  · exact K.beside hs rfl
  · exact K.ite (K.ite (K.pinSample <| K.withPin <| K.bump <| K.set hs) <| K.withPin <| K.bump <| K.set hs) <| K.startHandover
      <| K.ite (K.pinSample <| K.withPin <| K.bump <| K.set hs) <| K.withPin <| K.bump <| K.set hs

/-! ### The package -/

theorem Robust.modPkg (K : Robust P) {f : PkgInt → PkgInt} (hs : P s) : P (s.modPkg f) := K.beside hs rfl
theorem Robust.recordReset (K : Robust P) {cause : Nat} {watchdog : Bool} (hs : P s) : P (recordReset cause watchdog s) :=
  K.when (fun _ h => K.bump h) <| K.bump <| K.set <| K.set <| K.set <| K.each (fun _ _ h => K.setWord h) hs
theorem Sound.resetFields (K : Sound P) {r : ResetKind} (hs : P s) : P (resetFields r s) :=
  K.sound s _ rfl (fun h => ⟨regsWf_resetFields h.1 r, h.2⟩) hs
/-- The engines' memories after reset are blank. -/
theorem engMem_wf_reset : ∀ m ∈ State.reset.engMem.toList, Memory.wf 0 m.text ∧ Memory.wf 0 m.data := by decide

theorem Sound.bareState (K : Sound P) {r : ResetKind} (hs : P s) : P (bareState r s) :=
  K.sound s _ rfl (fun h => ⟨regsWf_resetFields h.1 r, h.2.1, by
    unfold Machine.bareState
    dsimp only
    split
    · exact engMem_wf_reset
    · exact h.2.2⟩) hs
theorem Sound.softState (K : Sound P) (hs : P s) : P (softState s) := by
  unfold Machine.softState
  extract_lets s0 s1 s3
  have hs0 : P s0 := K.ite hs <| K.seqEnded <| K.when (fun _ h => K.applyAction h) hs
  have hs3 : P s3 := K.resetFields <| K.disableHostChannels <| K.set <| K.set <| K.modSeq hs0
  clear_value s3
  exact K.showFill <| K.each (fun _ _ h => K.prgAfter h) <| K.sound s3 _ rfl (fun h => h) hs3
theorem Robust.remeasure (K : Robust P) (hs : P s) : P (remeasure s) := K.showReady <| K.each (fun _ _ h => K.put h) <| K.set hs
theorem Sound.flashTear (K : Sound P) {a n : Nat} (hs : P s) : P (flashTear a n s) := K.sound s _ rfl (fun h => h) hs
theorem Sound.tearFlash (K : Sound P) (hs : P s) : P (tearFlash s) := by
  refine K.ite ?_ ?_
  · refine K.flashTear ?_
    split
    · split
      · exact K.flashTear hs
      · exact hs
    · exact hs
  · split
    · split
      · exact K.flashTear hs
      · exact hs
    · exact hs
theorem Sound.tearBurn (K : Sound P) (hs : P s) : P (tearBurn s) := by
  unfold Machine.tearBurn
  split
  · exact K.setFuse <| K.draw <| K.draw <| K.draw <| K.draw hs
  · exact hs
theorem Sound.loseAll (K : Sound P) (hs : P s) : P (loseAll s) :=
  K.sound (Machine.tearFlash (Machine.tearBurn s)) _ rfl (fun h => ⟨RegsWf.nil, h.2.1, engMem_wf_reset⟩) (K.tearFlash <| K.tearBurn hs)
theorem Robust.showSupply (K : Robust P) (hs : P s) : P (showSupply s) := K.set hs
theorem Sound.holdDie (K : Sound P) {d : Nat} (hs : P s) : P (holdDie d s) := by
  unfold Machine.holdDie
  extract_lets z kept s1
  have hs1 : P s1 := K.withRegs (fun h => h.resetRegs) hs
  exact K.ite (K.rearmDeps <| K.beside hs1 rfl) (K.beside hs1 rfl)
theorem Sound.holdDies (K : Sound P) (hs : P s) : P (holdDies s) :=
  K.ite (K.showSupply <| K.set <| K.bareState hs) <| K.foldl (fun _ _ h => K.ite (K.holdDie h) h) hs
theorem Sound.bootSupplies (K : Sound P) (hs : P s) : P (bootSupplies s) :=
  K.each (fun _ _ h => K.set h) <| K.holdDies <| K.showSupply hs
theorem Robust.countTries (K : Robust P) (hs : P s) : P (countTries s) := K.each (fun _ _ h => K.ite (K.setTries h) h) hs
theorem Sound.hk0Lost (K : Sound P) (hs : P s) : P (hk0Lost s) :=
  K.ite (K.set <| K.bareState hs) <| K.modPkg <| K.set <| K.loseAll hs
theorem Sound.resetScope (K : Sound P) {k : ResetKind} (hs : P s) : P (resetScope k s) :=
  K.bootSupplies <| K.remeasure <| K.modPkg <| K.set <| K.ite (K.softState hs) <| K.bareState hs
theorem Sound.doReset (K : Sound P) {k : ResetKind} {cause : Nat} (hs : P s) : P (doReset k cause s) :=
  K.ite (K.hk0Lost <| K.resetScope <| K.when (fun _ h => K.countTries h) <| K.recordReset <| K.tearFlash hs) <| K.resetScope <|
      K.when (fun _ h => K.countTries h) <| K.recordReset <| K.tearFlash hs
theorem Sound.packageReset (K : Sound P) {k : ResetKind} {cause : Nat} (hs : P s) : P (packageReset k cause s) :=
  K.ite (K.modOtp (fun _ => rfl) hs) <| K.ite (K.ite hs <| K.resetScope hs) <| K.doReset hs
theorem Sound.dueReset (K : Sound P) (hs : P s) : P (dueReset s) := by
  unfold Machine.dueReset
  split
  · exact K.ite (K.doReset hs) hs
  · exact hs
theorem Sound.powerOn (K : Sound P) (hs : P s) : P (powerOn s) := K.bootSupplies <| K.set <| K.loseAll hs
theorem Sound.execPowerOnReset (K : Sound P) (hs : P s) : Answers P (execPowerOnReset s) := K.next <| K.powerOn hs
theorem Sound.execKilnSupplyLoss (K : Sound P) (hs : P s) : Answers P (execKilnSupplyLoss s) :=
  K.next <| K.modPkg <| K.set <| K.loseAll hs
theorem Sound.execSupplyLoss (K : Sound P) (hs : P s) : Answers P (execSupplyLoss s) :=
  K.next <| K.ite hs <| K.hk0Lost <| K.tearFlash <| K.tearBurn hs
theorem Sound.execHk0InRegulation (K : Sound P) (hs : P s) : Answers P (execHk0InRegulation s) :=
  K.next <| K.ite hs <| K.ite (K.powerOn hs) <| K.bootSupplies <| K.modPkg <| K.set <| K.recordReset hs
theorem Sound.execPinReset (K : Sound P) (hs : P s) : Answers P (execPinReset s) := K.next <| K.ite hs <| K.packageReset hs
theorem Sound.execLoLossReset (K : Sound P) (hs : P s) : Answers P (execLoLossReset s) :=
  K.next <| K.ite hs <| K.ite (K.packageReset <| K.freezeMonitors <| K.modPkg hs) <| K.freezeMonitors <| K.modPkg hs
theorem Sound.watchdogReset (K : Sound P) {slot kind : Nat} (hs : P s) : P (watchdogReset slot kind s) :=
  K.ite (K.packageReset <| K.when (fun _ h => K.set <| K.set <| K.set h) hs) hs
theorem Sound.forcedReset (K : Sound P) (hs : P s) : P (forcedReset s) :=
  K.ite (K.packageReset <| K.when (fun _ h => K.set <| K.set <| K.set h) <| K.draw hs) hs
theorem Sound.hostPortReset (K : Sound P) {cause : Nat} (hs : P s) : P (hostPortReset cause s) := by
  unfold Machine.hostPortReset
  refine K.ite hs ?_
  extract_lets s1 s2 scope page regs s3
  have hs2 : P s2 := K.modHost <| K.disableHostChannels <| K.orphanDeferred <| K.holdLate hs
  have hs3 : P s3 := K.showFill <| K.beside (K.withRegs (l := regs) (fun h => h.resetRegs.resetRegs) hs2) rfl
  exact K.eventLine <| K.raise <| K.bump hs3
theorem Sound.execHostPortReset (K : Sound P) {cause : Fin 3} (hs : P s) : Answers P (execHostPortReset cause s) :=
  K.next <| K.hostPortReset hs
theorem Sound.dieIsolate (K : Sound P) {d : Nat} (hs : P s) : P (dieIsolate d s) :=
  K.ite hs <| K.ite (K.ite (K.holdDies hs) <| K.holdDie hs) <| K.ite (K.reelect <| K.showEpoch <| K.showRegion <| K.showRegion
      <| K.raise <| K.latchClass <| K.setBit hs) <| K.ite (K.dueReset <| K.modOtp (fun _ => rfl) <| K.keepPins <| K.tearBurn
      <| K.raise <| K.latchClass <| K.setBit hs) <| K.ite (K.set <| K.set <| K.each (fun _ _ h => K.railToSafe h) <| K.keepPads
      <| K.raise <| K.latchClass <| K.setBit hs) <| K.raise <| K.latchClass <| K.setBit hs
theorem Sound.execDieIsolated (K : Sound P) {d : Fin 4} (hs : P s) : Answers P (execDieIsolated d s) := K.next <| K.dieIsolate hs
theorem Robust.supplyHold (K : Robust P) {p : Nat} (hs : P s) : P (supplyHold p s) :=
  K.latchClass <| K.each (fun _ _ h => K.railToSafe <| K.set h) hs
theorem Robust.bankLow (K : Robust P) {b : Nat} (hs : P s) : P (bankLow b s) :=
  K.each (fun _ _ h => K.pinSample h) <| K.beside hs rfl
theorem Sound.execSupplyOutOfBand (K : Sound P) {x : Fin 18} {on : Bool} (hs : P s) : Answers P (execSupplyOutOfBand x on s) := by
  refine K.next ?_
  extract_lets +onlyGivenNames _ s'
  have hs' : P s' := K.ite (K.modPkg hs) hs
  refine K.ite (K.put hs') ?_
  refine K.ite hs' ?_
  refine K.ite ?_ (K.ite (K.ite (K.beside hs' rfl) hs') <| K.ite (K.ite (K.portDown <| K.ite (K.portDown hs') hs') <| K.ite
      (K.portDown hs') hs') <| K.ite (K.hostPortReset hs') <| K.ite (K.supplyHold hs') <| K.bankLow hs')
  extract_lets +onlyGivenNames s1
  have hs1 : P s1 := K.showSupply hs'
  exact K.ite (K.foldl (fun _ _ h => K.dieIsolate h) <| K.foldl (fun _ _ h => K.latchFrom h) hs1) hs1
theorem Robust.execSupplyHoldEnd (K : Robust P) {p : Fin 4} (hs : P s) : Answers P (execSupplyHoldEnd p s) :=
  K.next <| K.each (fun _ _ h => K.set h) <| K.modPkg hs
theorem Robust.execThermalAlarm (K : Robust P) {d : Fin 4} {hot : Bool} (hs : P s) : Answers P (execThermalAlarm d hot s) :=
  K.next <| K.ite (K.latchFrom <| K.setBit hs) <| K.setBit hs
theorem Sound.execThermalTrip (K : Sound P) {d : Fin 4} (hs : P s) : Answers P (execThermalTrip d s) := K.next <| K.dieIsolate hs
theorem Robust.execKeeperLost (K : Robust P) (hs : P s) : Answers P (execKeeperLost s) :=
  K.next <| K.ite (K.ite (K.withKilnStale <| K.set <| K.set hs) <| K.raise <| K.withKilnStale <| K.set <| K.set hs) hs
theorem Robust.execKeeperReturn (K : Robust P) (hs : P s) : Answers P (execKeeperReturn s) := K.next <| K.modPkg <| K.set hs
theorem Robust.execHeldBlink (K : Robust P) (hs : P s) : Answers P (execHeldBlink s) := K.next <| K.ite (K.modPkg hs) hs
theorem Robust.enterState (K : Robust P) {new : Nat} (hs : P s) : P (enterState new s) := K.raise <| K.set hs
theorem Robust.standbyEnter (K : Robust P) (hs : P s) : P (standbyEnter s) :=
  K.enterState <| K.modPkg <| K.foldl (fun _ _ h => K.set h) <| K.foldl (fun _ _ h => K.portDisable <| K.set h) <| K.foldl (fun
      _ _ h => K.synDisable <| K.set h) <| K.each (fun _ _ h => K.ite (K.railWriteOff h) h) <| K.foldl (fun _ _ h =>
      K.unitDisable <| K.set h) hs
theorem Robust.hubEnable (K : Robust P) {r : Reg} {die : Nat} {ok : State → Bool} {f : State → State} (hf : ∀ s, P s → P (f s))
    (hs : P s) :
    P (hubEnable r die ok f s) :=
  K.ite hs <| K.ite (hf _ hs) <| K.ignored hs
theorem Robust.standbyExit (K : Robust P) (hs : P s) : P (standbyExit s) := by
  unfold Machine.standbyExit
  extract_lets +onlyGivenNames _ _ _ _ _ s5
  have hs5 : P s5 := K.autoJoin <| K.enterState <| K.modPkg <| K.foldl (fun _ _ h => K.hubEnable (fun _ h1 => K.ite h1 <|
      K.unitStart <| K.set h1) h) <| K.foldl (fun _ _ h => K.hubEnable (fun _ h1 => K.synEnable <| K.set h1) h) <| K.foldl (fun
      _ _ h => K.hubEnable (fun _ h1 => K.portEnable <| K.set h1) h) <| K.put hs
  exact K.ite (K.seqRequest hs5) hs5
theorem Sound.releaseTick (K : Sound P) (hs : P s) : P (releaseTick s) := by
  unfold Machine.releaseTick
  split
  · exact hs
  · exact K.put <| K.modPkg <| K.engineReset hs
theorem Robust.servicesOff (K : Robust P) (hs : P s) : P (servicesOff s) :=
  K.each (fun _ _ h => K.hkWrite h) <| K.chargerFollow <| K.set <| K.each (fun _ _ h => K.portDisable <| K.set h) <| K.each (fun
      _ _ h => K.modOut h) <| K.each (fun _ _ h => K.ite (K.unitDisable <| K.set h) h) hs
theorem Robust.heldOff (K : Robust P) (hs : P s) : P (heldOff s) :=
  K.servicesOff <| K.each (fun _ _ h => K.ite (K.set h) <| K.railGoesOff <| K.set h) hs
theorem Robust.keepEnter (K : Robust P) (hs : P s) : P (keepEnter s) := by
  unfold Machine.keepEnter
  exact K.modPkg <| K.set <| K.modHost <| K.set <| K.set <| K.set <| K.servicesOff <| K.each (fun _ _ h => K.ite (K.when (fun _
      h1 => K.writeKilnRecord h1) <| K.writeHoldover h) h) hs
theorem Sound.execKeepHk0Stop (K : Sound P) (hs : P s) : Answers P (execKeepHk0Stop s) :=
  K.next <| K.ite (K.modPkg <| K.set <| K.bareState <| K.tearFlash hs) hs
theorem Sound.keepWake (K : Sound P) {cause : Nat} (hs : P s) : P (keepWake cause s) :=
  K.bootSupplies <| K.modPkg <| K.set <| K.bareState <| K.recordReset hs
theorem Sound.execKeepTimerWake (K : Sound P) {vin : BitVec 16} (hs : P s) : Answers P (execKeepTimerWake vin s) :=
  K.next <| K.ite (K.ite (K.modPkg <| K.set hs) <| K.keepWake <| K.set hs) hs
theorem Robust.execKeepVinLow (K : Robust P) (hs : P s) : Answers P (execKeepVinLow s) := K.next <| K.ite (K.modPkg hs) hs
theorem Sound.execVinWake (K : Sound P) (hs : P s) : Answers P (execVinWake s) :=
  K.next <| K.ite (K.keepWake hs) <| K.ite (K.ite (K.keepWake hs) <| K.modPkg hs) hs
theorem Sound.stateChange (K : Sound P) {code cause : Nat} (hs : P s) : P (stateChange code cause s) := by
  unfold Machine.stateChange
  split
  · exact K.standbyExit hs
  · exact K.standbyEnter hs
  · exact K.keepEnter hs
  · exact K.packageReset hs
  · exact hs
theorem Robust.kilnDefault (K : Robust P) {a : Nat} (hs : P s) : P (kilnDefault a s) := by
  unfold Machine.kilnDefault
  split
  · exact K.setWord hs
  · exact hs
theorem Sound.doubleBit (K : Sound P) {mem unit addr : Nat} (hs : P s) : P (doubleBit mem unit addr s) := by
  refine K.ite (K.markLoads hs) ?_
  refine K.ite (K.haltEngine hs) ?_
  refine K.ite (K.haltEngine hs) ?_
  refine K.ite (K.kilnDefault hs) ?_
  refine K.ite ?_ (K.ite (K.modSyn hs) <| K.ite (K.modSeq hs) <| K.ite (K.poisonRamp hs) <| K.ite (K.set hs) <| K.ite
      (K.bandLoadError hs) <| K.ite (K.seqLoadError hs) <| K.set hs)
  split
  · exact K.showDma <| K.settle <| K.finishDesc hs
  · exact hs
theorem Sound.execScrubWord (K : Sound P) {mem : Fin 11} {unit : Fin 64} {addr : BitVec 16} {double : Bool} (hs : P s) :
    Answers P (execScrubWord mem unit addr double s) :=
  K.next <| K.ite hs <| K.ite (K.poisoned <| K.doubleBit hs) <| K.ite (K.bump <| K.modPkg hs) <| K.ite (K.bump <| K.modPkg hs)
      <| K.modPkg hs

/-! ### The watchdog -/

theorem Robust.modWdg (K : Robust P) {i : Nat} {f : WdgInt → WdgInt} (hs : P s) : P (s.modWdg i f) := K.beside hs rfl
theorem Robust.recordFail (K : Robust P) {i kind : Nat} (hs : P s) : P (recordFail i kind s) :=
  K.pushEvt <| K.when (fun _ h => K.bump h) <| K.bump <| K.set <| K.set hs
theorem Sound.wdgScope (K : Sound P) {i kind : Nat} (hs : P s) : P (wdgScope i kind s) :=
  K.ite (K.watchdogReset hs) <| K.ite (K.pushEvt <| K.engineWatchdog hs) hs
theorem Sound.wdgFail (K : Sound P) {i kind : Nat} (hs : P s) : P (wdgFail i kind s) :=
  K.ite (K.wdgScope <| K.setBit <| K.recordFail hs) <| K.setBit <| K.recordFail hs
theorem Sound.frameFails (K : Sound P) {i kind : Nat} (hs : P s) : P (frameFails i kind s) := K.ite hs <| K.wdgFail <| K.modWdg hs
theorem Sound.kickAt (K : Sound P) {w : Word} {at_ : Nat} (hs : P s) : P (kickAt w at_ s) :=
  K.ite hs <| K.ite (K.frameFails hs) <| K.ite (K.frameFails hs) <| K.ite (K.frameFails hs) <| K.modWdg hs
theorem Sound.bisqueKick (K : Sound P) {i upTo : Nat} (hs : P s) : P (bisqueKick i upTo s) := K.ite (K.kickAt hs) hs
theorem Sound.frameEnd (K : Sound P) {i : Nat} (hs : P s) : P (frameEnd i s) :=
  K.ite (K.wdgFail <| K.setBit <| K.modWdg <| K.bisqueKick hs) <| K.ite (K.setBit <| K.modWdg <| K.bisqueKick hs) <| K.set <|
      K.set <| K.setBit <| K.setBit <| K.modWdg <| K.bisqueKick hs
theorem Sound.wdgKick (K : Sound P) {w : Word} (hs : P s) : P (wdgKick w s) :=
  K.ite (K.kickAt <| K.modWdg <| K.frameEnd hs) <| K.kickAt hs
theorem Sound.execWdgFrameEnd (K : Sound P) {i : Fin 16} {bad : BitVec 12} (hs : P s) : Answers P (execWdgFrameEnd i bad s) :=
  K.next <| K.ite (K.withLoads (fun _ h => K.frameEnd h) hs) hs
theorem Sound.execWatchdogReset (K : Sound P) {slot : Fin 16} {kind : BitVec 3} (hs : P s) : Answers P
    (execWatchdogReset slot kind s) :=
  K.next <| K.ite (K.ite (K.forcedReset hs) hs) <| K.ite (K.ite (K.frameEnd hs) <| K.frameFails hs) hs
theorem Sound.frameTick (K : Sound P) (hs : P s) : P (frameTick s) := by
  unfold Machine.frameTick
  exact K.modPkg <| K.each (fun _ _ h => K.ite (K.ite h <| K.modWdg h) <| K.ite (K.modWdg <| K.bisqueKick h) <| K.ite (K.modWdg
      h) h) hs
theorem Sound.wdgAfter (K : Sound P) {r : Reg} {old new : Word} (hs : P s) : P (wdgAfter r old new s) := by
  unfold Machine.wdgAfter
  split
  · exact K.ite (K.modPkg <| K.each (fun _ _ h => K.modWdg h) hs) hs
  · exact K.modPkg hs
  · exact K.modWdg hs
  · exact K.wdgKick hs
  · exact K.forcedReset hs
  · exact hs
theorem Sound.execBurnPulseDone (K : Sound P) {n lo hi : BitVec 39} (hs : P s) : Answers P (execBurnPulseDone n lo hi s) :=
  K.next <| K.dueReset <| K.burnPulse hs

/-! ### The host port -/

theorem Robust.modRing (K : Robust P) {q : Nat} {f : RingInt → RingInt} (hs : P s) : P (s.modRing q f) := K.modHost hs
theorem Robust.ringAdvance (K : Robust P) {q : Nat} (hs : P s) : P (ringAdvance q s) := K.ite (K.put <| K.set hs) <| K.set hs
theorem Robust.ringVector (K : Robust P) {q v : Nat} (hs : P s) : P (ringVector q v s) := K.ite hs <| K.modRing <| K.vector hs
theorem Robust.postCpl (K : Robust P) (hs : P s) : P (postCpl s) := by
  unfold Machine.postCpl
  split
  · exact hs
  · exact K.ite (K.ite (K.ringVector <| K.ringAdvance <| K.modHost <| K.emitHost hs) <| K.ringAdvance <| K.modHost <| K.emitHost
      hs) hs
theorem Robust.postCpls (K : Robust P) (hs : P s) : P (postCpls s) := K.each (fun _ _ h => K.postCpl h) hs
theorem Robust.execCompletionPost (K : Robust P) (hs : P s) : Answers P (execCompletionPost s) :=
  K.next <| K.ite (K.postCpl hs) hs
theorem Robust.execEventPost (K : Robust P) {damaged : Option (BitVec 3)} (hs : P s) : Answers P (execEventPost damaged s) := by
  refine K.next ?_
  split
  · exact hs
  · refine K.ite ?_ hs
    extract_lets +onlyGivenNames _ s2 _ s3'
    have hs2 : P s2 := K.ringAdvance <| K.dropOldest <| K.emitHost hs
    have hs3' : P s3' := by
      unfold s3'
      split
      · exact K.poisoned <| K.modHost hs2
      · exact K.modHost hs2
    exact K.ite (K.ringVector hs3') hs3'
theorem Robust.hostWake (K : Robust P) (hs : P s) : P (hostWake s) := K.ite (K.set <| K.modHost hs) hs
theorem Robust.execDoorbellPoll (K : Robust P) (hs : P s) : Answers P (execDoorbellPoll s) := K.next <| K.ite (K.modHost hs) hs
theorem Robust.hostDoorbell (K : Robust P) {q : Nat} {w : BitVec 64} (hs : P s) : P (hostDoorbell q w s) :=
  K.ite hs <| K.ite (K.modRing <| K.modRing hs) <| K.ignored <| K.modRing hs
theorem Robust.execDoorbellReadDone (K : Robust P) {w0 w1 w2 : BitVec 64} {dma : List (Fin 32 × BitVec 64)} (hs : P s) :
    Answers P (execDoorbellReadDone w0 w1 w2 dma s) :=
  K.next <| K.ite (K.set <| K.showDma <| K.foldl (fun _ _ h => K.channelDoorbell <| K.modDma h) <| K.hostDoorbell <|
      K.hostDoorbell <| K.hostDoorbell <| K.modHost hs) hs
theorem Robust.armPort (K : Robust P) (hs : P s) : P (armPort s) :=
  K.postCpls <| K.set <| K.set <| K.each (fun _ _ h => K.ite (K.modDefer h) h) <| K.modHost <| K.each (fun _ _ h => K.put <|
      K.set h) hs
theorem Robust.tryArm (K : Robust P) (hs : P s) : P (tryArm s) := K.ite (K.armPort hs) hs
theorem Robust.startResync (K : Robust P) {cause : Nat} (hs : P s) : P (startResync cause s) :=
  K.eventLine <| K.stopChannels <| K.orphanDeferred <| K.set <| K.modHost <| K.holdLate <| K.ite (K.postCpls hs) hs
theorem Robust.execResyncDrained (K : Robust P) (hs : P s) : Answers P (execResyncDrained s) := K.next <| K.ite (K.set hs) hs
theorem Robust.dieTemps (K : Robust P) (hs : P s) : P (dieTemps s).2 := K.draw <| K.draw <| K.draw <| K.draw hs
theorem Robust.execSummaryDone (K : Robust P) {fault : Option (BitVec 13)} {damaged : Option (BitVec 11)} (hs : P s) :
    Answers P (execSummaryDone fault damaged s) := by
  refine K.next ?_
  refine K.ite hs ?_
  refine K.unstopChannels ?_
  refine K.set ?_
  refine K.vector ?_
  refine K.raise ?_
  refine K.ite ?_ ?_
  · refine K.set ?_
    refine K.each (fun _ _ h => K.set h) ?_
    refine K.emitHost ?_
    refine K.hostDeny ?_
    split
    · exact K.poisoned <| K.dieTemps hs
    · exact K.dieTemps hs
  · refine K.bump ?_
    refine K.set ?_
    refine K.each (fun _ _ h => K.set h) ?_
    refine K.emitHost ?_
    refine K.hostDeny ?_
    split
    · exact K.poisoned <| K.dieTemps hs
    · exact K.dieTemps hs
theorem Robust.cmdSyncState (K : Robust P) {v : CmdVia} (hs : P s) : P (cmdSyncState v s).s :=
  K.iteRes (K.cmdOk hs) <| K.cmdIgnored hs
theorem Robust.execPcieLinkUp (K : Robust P) {rate width : BitVec 3} (hs : P s) : Answers P (execPcieLinkUp rate width s) :=
  K.next <| K.ite (K.modHost <| K.set <| K.set <| K.set hs) hs
theorem Robust.promote (K : Robust P) (hs : P s) : P (promote s) := K.tryArm <| K.raise <| K.set <| K.set hs
theorem Robust.hostAfter (K : Robust P) {r : Reg} {new : Word} (hs : P s) : P (hostAfter r new s) := by
  unfold Machine.hostAfter
  split
  · exact K.ite (K.promote hs) hs
  · exact K.hostWake hs
  · exact K.startResync hs
  · exact K.tryArm hs
  · exact K.ite (K.emit <| K.setBit hs) hs
  · exact hs

/-! ### Register writes, applied -/

theorem Robust.modMgt (K : Robust P) {f : MgtInt → MgtInt} (hs : P s) : P (s.modMgt f) := K.beside hs rfl
theorem Robust.spiStart (K : Robust P) {w : Word} (hs : P s) : P (spiStart w s) := K.set <| K.modMgt hs
theorem Robust.eventPop (K : Robust P) (hs : P s) : P (eventPop s) := by
  unfold Machine.eventPop
  split
  · exact K.set hs
  · exact K.set <| K.dropOldest <| K.each (fun _ _ h => K.set h) hs
theorem Robust.pinsAfter (K : Robust P) {r : Reg} {old : Word} (hs : P s) : P (pinsAfter r old s) := K.pinsMoved hs
theorem Sound.pkgAfter (K : Sound P) {r : Reg} {old new : Word} (hs : P s) : P (pkgAfter r old new s) := by
  unfold Machine.pkgAfter
  split
  · exact K.pinsAfter hs
  · exact K.pinsAfter hs
  · exact K.stateChange hs
  · exact K.ite (K.spiStart hs) hs
  · exact K.ite (K.eventPop hs) hs
  · exact hs
theorem Sound.blockAfter (K : Sound P) {p : Path} {r : Reg} {old new : Word} (hs : P s) : P (blockAfter p r old new s) :=
  K.iteFun (K.when (fun _ h => K.refreshAllWindows h) <| K.plzAfter hs) <|
  K.iteFun (K.when (fun _ h => K.refreshAllWindows h) <| K.trgAfter hs) <|
  K.iteFun (K.synAfter hs) <| K.iteFun (K.rmpMoved hs) <| K.iteFun (K.outAfter hs) <| K.iteFun (K.prgAfter hs) <|
  K.iteFun (K.fltAfter <| K.seqAfter hs) <| K.iteFun (K.ite (K.remoteGo hs) hs) <| K.iteFun (K.lnkAfter hs) <|
  K.iteFun (K.dmaAfter hs) <| K.iteFun (K.ite (K.pinsAfter <| K.pinAfter hs) (K.pinAfter hs)) <| K.iteFun (K.otpAfter hs) <|
  K.iteFun (K.engAfter hs) <| K.iteFun (K.wdgAfter hs) <| K.iteFun (K.hostAfter hs) <| K.pkgAfter hs
theorem Sound.applyWrite (K : Sound P) {p : Sys2Proof.Path} {r : Reg} {new : Word} (hs : P s) : P (applyWrite p r new s) :=
  K.blockAfter <| K.setWord hs
theorem Sound.cmdRailSet (K : Sound P) {rail : Nat} {wen en wvid : Bool} {vid : Nat} (hs : P s) :
    P (cmdRailSet rail wen en wvid vid s).s :=
  K.iteRes (K.cmdOk <| K.ite (K.applyWrite <| K.ite (K.applyWrite hs) hs) <| K.ite (K.applyWrite hs) hs) <| K.cmdIgnored hs

/-! ### Commands by descriptor -/

theorem Robust.onDie (K : Robust P) {d : Nat} {f : State → CmdRes} (hf : ∀ s, P s → P (f s).s) (hs : P s) : P (onDie d f s).s :=
  K.iteRes (K.cmdOk hs) <| hf _ hs
theorem Robust.channelCmd (K : Robust P) {v : CmdVia} {ch : Nat} {f : Nat → State → CmdRes} (hf : ∀ a0 s, P s → P (f a0 s).s)
    (hs : P s) :
    P (channelCmd v ch f s).s :=
  K.iteRes (hf _ _ hs) <| K.cmdIgnored hs
theorem Sound.runOp (K : Sound P) {c : Cmd} {v : CmdVia} {idx : Nat} {payload : List Word} (hs : P s) :
    P (runOp c v idx payload s).s := by
  unfold Machine.runOp
  dsimp only
  split
  · exact K.cmdOk hs
  · exact K.cmdSyncState hs
  · exact K.iteRes (K.cmdOk hs) <| K.cmdIgnored hs
  · exact K.cmdRefForce hs
  · exact K.cmdRefAuto hs
  · exact K.cmdHoldoverForce hs
  · exact K.cmdRealign hs
  · exact K.cmdBandLoad hs
  · exact K.cmdHop hs
  · exact K.cmdBypassReturn hs
  · exact K.cmdRampLoad hs
  · exact K.cmdRampStart hs
  · exact K.cmdRampStop hs
  · exact K.cmdRailSet hs
  · exact K.cmdSeqLoad hs
  · exact K.cmdSeqStart hs
  · exact K.cmdSeqStop hs
  · exact K.cmdStoreCharge hs
  · exact K.cmdOtpShadow hs
  · exact K.cmdOtpBurn hs
  · exact K.cmdCommitLock hs
  · exact K.cmdImageStage hs
  · exact K.cmdImageCommit hs
  · exact K.cmdLinkJoin hs
  · exact K.cmdLinkLeave hs
  · exact K.cmdRemote hs
  · exact K.cmdRemote hs
  · exact K.channelCmd (fun _ _ h => K.cmdDmaResume h) hs
  · exact K.channelCmd (fun _ _ h => K.cmdDmaAbort h) hs
  · exact K.cmdIgnored hs
theorem Sound.runCommand (K : Sound P) {c : Cmd} {v : CmdVia} {idx : Nat} {payload : List Byte} {fault : Bool} (hs : P s) :
    P (runCommand c v idx payload fault s).s :=
  K.iteRes hs <| K.iteRes (K.cmdIgnored hs) <| K.iteRes (K.cmdIgnored hs) <| K.iteRes (K.hostDeny hs) <| K.onDie (fun _ h =>
      K.runOp h) hs
theorem Sound.afterCommand (K : Sound P) {c : Cmd} (hs : P s) : P (afterCommand c s) :=
  K.ite (K.startResync hs) <| K.ite (K.stateChange hs) hs
theorem Sound.execCommandDispatch (K : Sound P) {words : List Word} {payload : List Byte} {fault : Bool} (hs : P s) :
    Answers P (execCommandDispatch words payload fault s) :=
  K.next <| K.ite hs <| K.ite (K.modHost hs) <| K.ite (K.runCommand <| K.ringAdvance <| K.modHost hs) <| K.ite (K.afterCommand
      <| K.postCpls <| K.queueCpl <| K.writeBack <| K.ite (K.ignored <| K.runCommand <| K.ringAdvance <| K.modHost hs) <|
      K.runCommand <| K.ringAdvance <| K.modHost hs) <| K.queueCpl <| K.writeBack <| K.ite (K.ignored <| K.runCommand <|
      K.ringAdvance <| K.modHost hs) <| K.runCommand <| K.ringAdvance <| K.modHost hs
theorem Sound.mbxGo (K : Sound P) {owner : Fin 4} (hs : P s) : P (mbxGo owner s) :=
  K.ite (K.runCommand <| K.mbxTake hs) <| K.ite (K.afterCommand <| K.mbxDone <| K.ite (K.countIgnored <| K.runCommand <|
      K.mbxTake hs) <| K.runCommand <| K.mbxTake hs) <| K.mbxDone <| K.ite (K.countIgnored <| K.runCommand <| K.mbxTake hs) <|
      K.runCommand <| K.mbxTake hs

/-! ### Register accesses -/

theorem Sound.regWriteBe (K : Sound P) {p : Sys2Proof.Path} {off be : Nat} {new : Word} (hs : P s) : P
    (regWriteBe p off be new s).2 := by
  refine K.iteSnd hs ?_
  refine K.iteSnd (K.iteSnd hs <| K.ignored hs) ?_
  split
  · exact K.iteSnd hs <| K.ignored hs
  · exact K.iteSnd hs <| K.iteSnd (K.ite (K.mbxGo <| K.applyWrite hs) <| K.applyWrite hs) <| K.iteSnd (K.set <| K.iteSnd hs <|
      K.ignored hs) <| K.iteSnd hs <| K.ignored hs
theorem Sound.regWrite (K : Sound P) {p : Sys2Proof.Path} {off : Nat} {new : Word} (hs : P s) : P (regWrite p off new s).2 :=
  K.regWriteBe hs
theorem Sound.writeReg (K : Sound P) {p : Sys2Proof.Path} {r : Reg} {new : Word} (hs : P s) : P (writeReg p r new s) :=
  K.regWrite hs
theorem Sound.writeRow (K : Sound P) {p : Sys2Proof.Path} {r : Reg} {w : Word} {lo n v : Nat} (hs : P s) :
    Answers P (writeRow p r w lo n v s) :=
  K.next <| K.writeReg hs
theorem Sound.execRegisterWrite (K : Sound P) {p : Sys2Proof.Path} {off : BitVec 20} {be : BitVec 4} {val : Word} (hs : P s) :
    Answers P (execRegisterWrite p off be val s) :=
  K.next <| K.regWriteBe hs
theorem Robust.takeSnap (K : Robust P) {r : Reg} (hs : P s) : P (s.takeSnap r) := by
  unfold Machine.State.takeSnap
  split
  · exact K.beside hs rfl
  · exact hs
theorem Robust.regRead (K : Robust P) {p : Sys2Proof.Path} {off : Nat} (hs : P s) : P (regRead p off s).2 := by
  refine K.iteSnd hs ?_
  refine K.iteSnd hs ?_
  split
  · exact hs
  · exact K.iteSnd hs <| K.ite (K.tlmSnapshot hs) <| K.takeSnap hs
theorem Robust.regReads (K : Robust P) {p : Path} {off n : Nat} (hs : P s) : P (regReads p off n s).2 := by
  induction n generalizing off s with
  | zero => exact hs
  | succ n ih => exact ih (K.regRead hs)
theorem Sound.regWrites (K : Sound P) {p : Path} {off i : Nat} {l : List Word} (hs : P s) : P (regWrites p off i l s).2 := by
  induction l generalizing i s with
  | nil => exact hs
  | cons w l ih => exact ih (K.regWrite hs)
theorem Robust.respond (K : Robust P) {write : Bool} {tag src status na : Nat} {data : List Word} (hs : P s) :
    P (respond write tag src status na data s) :=
  K.sendTree hs
theorem Sound.perform (K : Sound P) {write : Bool} {off n : Nat} {data : List Word} (hs : P s) :
    P (perform write off n data s).2.2.2 := by
  unfold Machine.perform
  generalize s.on (if write then LNK_SYS_CTL_REMOTE_WR_EN else LNK_SYS_CTL_REMOTE_RD_EN) = en
  split
  · exact hs
  · split
    · exact K.ignored hs
    · split
      · split
        · exact K.ignored hs
        · exact K.regWrites (p := .link) (off := off) (i := 0) (l := data.take n) hs
      · exact K.regReads (p := .link) (off := off) (n := n) hs
theorem Sound.execRemoteRequestRx
    (K : Sound P) {k : Fin 4} {write : Bool} {tag : BitVec 16} {src : BitVec 64} {off : Word} {n : Fin 16} {data : List Word}
    (hs : P s) :
    Answers P (execRemoteRequestRx k write tag src off n data s) := by
  refine K.next (K.ite hs ?_)
  split
  · exact K.respond hs
  · exact K.respond <| K.ite (K.modSys (K.perform hs)) (K.perform hs)

/-! ### BOOT -/

theorem Robust.showReads (K : Robust P) (hs : P s) : P (showReads s) :=
  K.foldl (fun _ _ h => K.pushEvt h) <| K.set <| K.set <| K.set hs
theorem Robust.recordFinding (K : Robust P) {f : Finding} {n : Nat} (hs : P s) : P (recordFinding f n s) :=
  K.set <| K.set <| K.set <| K.set <| K.set <| K.set <| K.set <| K.set <| K.set hs
theorem Sound.profileValue (K : Sound P) {soft : Bool} {off : Nat} {v : Word} (hs : P s) : P (profileValue soft off v s) := by
  unfold Machine.profileValue
  split
  · exact K.ite (K.writeReg hs) <| K.ite (K.writeReg hs) hs
  · exact K.regWrite hs
theorem Sound.profileWrite (K : Sound P) {soft : Bool} {off : Nat} {vs : List Word} (hs : P s) : P (profileWrite soft off vs s) :=
  K.ite (K.ignored hs) <| K.foldl (fun _ _ h => K.profileValue h) hs
theorem Sound.profileSeq (K : Sound P) {ws : List Word} (hs : P s) : P (profileSeq ws s) :=
  K.seqSwap <| K.foldl (fun _ _ h => K.writeReg h) <| K.writeReg hs
theorem Robust.profileStop (K : Robust P) {src idx : Nat} (hs : P s) : P (profileStop src idx s) :=
  K.pushEvt <| K.set <| K.set <| K.set hs
theorem Sound.applyRecords (K : Sound P) {soft : Bool} {src base n i : Nat} {ws : List Word} {e : Option Ext} (hs : P s) :
    P (applyRecords soft src base n i ws e s).2 := by
  induction n generalizing i ws e s with
  | zero => exact hs
  | succ n ih =>
    unfold Machine.applyRecords
    dsimp only
    split
    · exact hs
    · exact K.profileStop hs
    · exact ih <| K.profileWrite hs
    · exact ih <| K.ite hs (K.profileSeq hs)
    · exact ih hs
theorem Sound.otpProfile (K : Sound P) {soft : Bool} (hs : P s) : P (otpProfile soft s).2 := K.set <| K.applyRecords hs
theorem Robust.readHeader (K : Robust P) (hs : P s) : P (readHeader s) := K.ite (K.put <| K.put hs) <| K.set hs
theorem Robust.extBad (K : Robust P) {e : Machine.Ext} {cause : Nat} (hs : P s) : P (extBad e cause s) := K.pushEvt <| K.set hs
theorem Sound.applyExt (K : Sound P) {soft : Bool} {e : Option Machine.Ext} (hs : P s) : P (applyExt soft e s) := by
  unfold Machine.applyExt
  split
  · exact hs
  · exact K.ite (K.extBad hs) <| K.ite (K.extBad hs) <| K.set <| K.applyRecords hs
theorem Sound.bisqueAll (K : Sound P) {why : Nat} (hs : P s) : P (bisqueAll why s) :=
  K.recordMixed <| K.each (fun _ _ h => K.releaseClass <| K.when (fun _ h1 => K.set h1) <| K.set h) hs
theorem Sound.releaseBoot (K : Sound P) {w : List Word} {l : List (Option ImgInfo)} {refs : List Refused} {c : Nat} (hs : P s) :
    P (releaseBoot w l refs c s) := by
  unfold Machine.releaseBoot
  dsimp only
  split
  · exact K.releaseClass <| K.put hs
  · exact K.releaseClass <| K.put hs
  · exact K.imgEvt <| K.releaseClass <| K.put hs
  · exact K.releaseClass <| K.put hs
theorem Sound.releaseAll (K : Sound P) {w : List Word} {rolled : List Nat} (hs : P s) : P (releaseAll w rolled s) :=
  K.recordMixed <| K.set <| K.set <| K.each (fun _ _ h => K.when (fun _ h1 => K.rollbackEvt h1) <| K.releaseBoot h) hs
theorem Sound.bootImages (K : Sound P) {mode : Nat} (hs : P s) : P (bootImages mode s) := by
  refine K.ite (K.bisqueAll hs) ?_
  dsimp only
  split
  · exact K.bisqueAll <| K.each (fun _ _ h => K.set h) <| K.foldl (fun _ _ h => K.rollbackRecord h) hs
  · exact K.releaseAll <| K.each (fun _ _ h => K.set h) <| K.each (fun _ _ h => K.set h) <| K.foldl (fun _ _ h =>
      K.rollbackRecord h) hs
theorem Robust.bootEnds (K : Robust P) {new : Nat} (hs : P s) : P (bootEnds new s) :=
  K.ite (K.modPkg <| K.raise <| K.enterState hs) <| K.enterState hs
theorem Robust.bootShadows (K : Robust P) {soft : Bool} (hs : P s) : P (bootShadows soft s) :=
  K.ite (K.modHost <| K.set <| K.set <| K.set <| K.set <| K.showOver <| K.loadShadows hs) <| K.pinsSettle <| K.modHost <| K.set
      <| K.set <| K.set <| K.set <| K.showOver <| K.loadShadows hs
theorem Robust.bootRun (K : Robust P) {soft : Bool} (hs : P s) : P (bootRun soft s) :=
  K.ite (K.seqRequest <| K.autoJoin <| K.bootEnds hs) <| K.autoJoin <| K.bootEnds hs
theorem Sound.execBootBegin (K : Sound P) {mode : BitVec 2} {jedec : BitVec 24} {bad : BitVec 12} {lo : Bool} (hs : P s) :
    Answers P (execBootBegin mode jedec bad lo s) := by
  refine K.next <| K.ite hs ?_
  extract_lets s0 soft m s1 s2
  have hs2 : P s2 := K.showOver <| K.showReads <| K.hkPg <| K.set <| K.set <| K.showLoStb <| K.modPkg hs
  clear_value s2
  split
  · exact K.modPkg <| K.bootEnds <| K.recordFinding <| K.when (fun _ h => K.heldOff h) hs2
  · have profile : ∀ j, P (Machine.otpProfile soft ((Machine.bootShadows soft s2).set MGT_SPI_STAT_JEDEC j)).2 :=
      fun _ => K.otpProfile <| K.set <| K.bootShadows hs2
    exact K.bootRun <| K.withLoads (fun _ h => K.bootImages h) <| K.ite (K.applyExt <| K.readHeader <| profile _) (profile _)

/-! ### Bursts -/

theorem Sound.emitRun (K : Sound P) {ch : Nat} {r : Space × List Byte} (hs : P s) : P (emitRun ch r s) := by
  unfold Machine.emitRun
  split
  · exact K.emit hs
  · exact K.engWrite hs
  · exact hs
theorem Sound.memory (K : Sound P) {ch : Nat} {d : Desc} {off : Nat} {b : List Byte} (hs : P s) : P (deliver.memory ch d off b s) :=
  K.foldl (fun _ _ h => K.emitRun h) <| K.foldl (fun _ _ h => K.regWriteBe h) hs
theorem Sound.deliver (K : Sound P) {ch : Nat} {d : Desc} {off pos : Nat} {b : List Byte} (hs : P s) : P
    (deliver ch d off pos b s) := by
  unfold Machine.deliver
  split
  · exact K.ite (K.regWrites hs) <| K.memory hs
  · exact K.memory hs
theorem Robust.regFetch (K : Robust P) {ch : Nat} {l : List Nat} (hs : P s) : P (regFetch ch l s).2 := by
  induction l generalizing s with
  | nil => exact hs
  | cons a l ih => exact ih (K.regRead hs)
theorem Sound.engSourceLands (K : Sound P) {ch : Nat} {d : Desc} {off : Nat} {src : List Byte} (hs : P s) :
    P (engSourceLands ch d off src s) := by
  refine K.foldl ?_ hs
  intro _ _ h
  split
  · exact K.engStore h
  · exact h
theorem Sound.sourceBytes (K : Sound P) {ch : Nat} {d : Desc} {b : Burst} {n : Nat} {src : List Byte} (hs : P s) :
    P (sourceBytes ch d b n src s).2 := by
  unfold Machine.sourceBytes
  split
  · exact hs
  · split
    · exact K.regFetch hs
    · exact K.engSourceLands hs
    · exact hs
theorem Sound.wordBad (K : Sound P) {mem unit addr : Nat} (hs : P s) : P (wordBad mem unit addr s) := K.poisoned <| K.doubleBit hs
theorem Sound.poisonWord (K : Sound P) {ch : Nat} {d : Desc} {b : Burst} {dbe : Option (BitVec 9)} {x : List Byte × State}
    (hx : P x.2) :
    P (poisonWord ch d b dbe x).2.1 := by
  unfold Machine.poisonWord
  split
  · exact hx
  · dsimp only
    split
    · exact K.ite (K.wordBad hx) (K.poisoned hx)
    · split
      · exact K.wordBad hx
      · split
        · split
          · exact K.poisoned hx
          · split
            · exact K.wordBad hx
            · exact hx
        · exact hx
      · exact hx
theorem Sound.unitDone (K : Sound P) {ch : Nat} {d : Desc} (hs : P s) : P (unitDone ch d s) :=
  K.ite (K.finishDesc <| K.modDma hs) <| K.ite (K.finishDesc <| K.modDma hs) <| K.fitUnit <| K.modDma hs
theorem Sound.burstDone (K : Sound P) {ch : Nat} {d : Desc} (hs : P s) : P (burstDone ch d s) := by
  unfold Machine.burstDone
  extract_lets +onlyGivenNames s1 s2
  have hs1 : P s1 := K.showProgress <| K.modDma hs
  have hs2 : P s2 := K.ite (K.unitDone hs1) <| K.ite (K.finishDesc hs1) hs1
  split
  · exact K.ite (K.haltChannel hs2) hs2
  · exact K.settle hs2
theorem Sound.execBurstComplete (K : Sound P) {ch : Fin 32} {src : List Byte} {dbe : Option (BitVec 9)} (hs : P s) :
    Answers P (execBurstComplete ch src dbe s) := by
  refine K.next ?_
  dsimp only
  split
  · exact K.ite (K.showDma <| K.burstDone <| K.deliver <| K.poisonWord <| K.sourceBytes hs) hs
  · exact hs
theorem Sound.truncateBurst (K : Sound P) {ch : Nat} {d : Desc} {b : Burst} {f : XFault} {src : List Byte} (hs : P s) :
    P (truncateBurst ch d b f src s) :=
  K.faultChannel <| K.showProgress <| K.modDma <| K.deliver <| K.sourceBytes hs
theorem Sound.execDmaFault (K : Sound P) {ch : Fin 32} {src : List Byte} {fetch : Option
    (Fin 3 × BitVec 48 × Fin 5 × Fin 4)} {head ext : List Word} (hs : P s) :
    Answers P (execDmaFault ch src fetch head ext s) := by
  refine K.next ?_
  dsimp only
  split
  · exact K.ite (K.showDma <| K.faultChannel <| K.when (fun _ h => K.takeUp h) hs) hs
  · split
    · split
      · exact K.ite (K.showDma <| K.truncateBurst hs) hs
      · exact hs
    · exact hs

/-! ### PMBus -/

theorem Robust.pmbRefuse (K : Robust P) {code : Nat} (hs : P s) : P (pmbRefuse code s).2 := K.ignored hs
theorem Robust.pmbWrite (K : Robust P) {code : Nat} {pec : Pec} {f : State → WRes × State} (hf : ∀ s, P s → P (f s).2) (hs : P s) :
    P (pmbWrite code pec f s) :=
  K.ite hs <| K.ite (K.raise <| K.bump <| K.modMgt hs) <| K.ite hs <| K.ite (K.modMgt <| K.pmbRefuse hs) <| K.ite (K.modMgt <|
      K.iteSnd (K.pmbRefuse hs) <| hf _ hs) <| K.iteSnd (K.pmbRefuse hs) <| hf _ hs
theorem Robust.onRails (_ : Robust P) {f : Nat → State → WRes × State} (hf : ∀ r s, P s → P (f r s).2) (hs : P s) :
    P (onRails f s).2 := by
  have rails : ∀ (l : List Nat) (a : WRes × State), P a.2 →
      P (l.foldl (fun a r => let b := f r a.2; (if a.1 = .ignored then a.1 else b.1, b.2)) a).2 := by
    intro l
    induction l with
    | nil => exact fun _ h => h
    | cons r l ih => exact fun a h => ih _ (hf r _ h)
  exact rails _ _ hs
theorem Robust.answer (K : Robust P) {b : List Byte} (hs : P s) : P (answer b s) := K.emit hs
theorem Robust.pmbRead (K : Robust P) {f : State → List Byte} (hs : P s) : P (pmbRead f s) := K.ite (K.answer hs) hs
theorem Robust.pagedRead (K : Robust P) {code n : Nat} {f : State → State} (hf : ∀ s, P s → P (f s)) (hs : P s) :
    P (pagedRead code n f s) :=
  K.ite hs <| K.ite (K.answer <| K.pmbRefuse hs) <| hf _ hs
theorem Robust.railRead (K : Robust P) {code n : Nat} {f : Nat → State → List Byte} (hs : P s) : P (railRead code n f s) :=
  K.pagedRead (fun _ h => K.answer h) hs
theorem Robust.railReadFree (K : Robust P) {code n : Nat} {known : Nat → State → Option (List Byte)} (hs : P s) :
    P (railReadFree code n known s) :=
  K.ite (K.answer <| K.draw hs) <| K.railRead hs
theorem Sound.pmbField (K : Sound P) {r : Reg} {lo n v : Nat} (hs : P s) : P (pmbField r lo n v s).2 := K.regWrite hs
theorem Robust.onRailsIf (K : Robust P) {ok : Bool} {code : Nat} {f : Nat → State → WRes × State} (hf : ∀ a0 s, P s → P
    (f a0 s).2) (hs : P s) :
    P (onRailsIf ok code f s).2 :=
  K.iteSnd (K.onRails hf hs) <| K.pmbRefuse hs
theorem Sound.pmbBounded (K : Sound P) {code : Nat} {reg : Nat → Reg} {lo n : Nat} {v : Int} {a b : Nat} (hs : P s) :
    P (pmbBounded code reg lo n v a b s).2 :=
  K.onRailsIf (fun _ _ h => K.pmbField h) hs
theorem Robust.execPage (K : Robust P) {wr : Option Byte} {pec : Pec} (hs : P s) : Answers P (execPage wr pec s) := by
  refine K.next ?_
  split
  · exact K.pmbWrite (fun _ h => K.iteSnd (K.set h) <| K.pmbRefuse h) hs
  · exact K.pagedRead (fun _ h => K.answer h) hs
theorem Sound.operation (K : Sound P) {code r : Nat} (hs : P s) : P (operation code r s).2 :=
  K.iteSnd (K.pmbField hs) <| K.ite (K.modMgt <| K.regWrite hs) <| K.regWrite hs
theorem Sound.execOperation (K : Sound P) {wr : Option Byte} {pec : Pec} (hs : P s) : Answers P (execOperation wr pec s) := by
  refine K.next ?_
  split
  · exact K.pmbWrite (fun _ h => K.onRailsIf (fun _ _ h1 => K.operation h1) h) hs
  · exact K.railRead hs
theorem Robust.execOnOffConfig (K : Robust P) {wr : Option Byte} {pec : Pec} (hs : P s) : Answers P (execOnOffConfig wr pec s) := by
  refine K.next ?_
  split
  · exact K.pmbWrite (fun _ h => K.iteSnd h <| K.pmbRefuse h) hs
  · exact K.pagedRead (fun _ h => K.answer h) hs
theorem Sound.execClearFaults (K : Sound P) {pec : Pec} (hs : P s) : Answers P (execClearFaults pec s) :=
  K.next <| K.pmbWrite (fun _ h => K.snd <| K.modMgt <| K.onRails (fun _ _ h1 => K.regWrite h1) h) hs
theorem Robust.execWriteProtect (K : Robust P) {wr : Option Byte} {pec : Pec} (hs : P s) : Answers P (execWriteProtect wr pec s) := by
  refine K.next ?_
  split
  · exact K.pmbWrite (fun _ h => K.iteSnd (K.set h) <| K.pmbRefuse h) hs
  · exact K.pmbRead hs
theorem Robust.pmbUnsupported (K : Robust P) {code : Nat} {pec : Pec} (hs : P s) : P (pmbUnsupported code pec s) :=
  K.pmbWrite (fun _ h => K.snd <| K.modMgt <| K.pmbRefuse h) hs
theorem Robust.execCapability (K : Robust P) {other : Option (Byte × Pec × Option (Fin 33))} (hs : P s) :
    Answers P (execCapability other s) := by
  refine K.next ?_
  split
  · exact K.pmbRead hs
  · exact K.ite hs <| K.pmbUnsupported hs
  · exact K.ite hs <| K.pmbRead hs
theorem Robust.execVoutMode (K : Robust P) (hs : P s) : Answers P (execVoutMode s) :=
  K.next <| K.pagedRead (fun _ h => K.answer h) hs
theorem Sound.execVoutCommand (K : Sound P) {wr : Option (BitVec 16)} {pec : Pec} (hs : P s) : Answers P
    (execVoutCommand wr pec s) := by
  refine K.next ?_
  split
  · exact K.pmbWrite (fun _ h => K.onRailsIf (fun _ _ h1 => K.pmbField h1) h) hs
  · exact K.railRead hs
theorem Sound.execVoutTransitionRate (K : Sound P) {wr : Option (BitVec 16)} {pec : Pec} (hs : P s) :
    Answers P (execVoutTransitionRate wr pec s) := by
  refine K.next ?_
  split
  · exact K.pmbWrite (fun _ h => K.pmbBounded h) hs
  · exact K.railRead hs
theorem Sound.execFrequencySwitch (K : Sound P) {wr : Option (BitVec 16)} {pec : Pec} (hs : P s) :
    Answers P (execFrequencySwitch wr pec s) := by
  refine K.next ?_
  split
  · exact K.pmbWrite (fun _ h => K.pmbBounded h) hs
  · exact K.railRead hs
theorem Sound.voltageLimit (K : Sound P) {code : Nat} {n : RegName} {w : BitVec 16} (hs : P s) : P (voltageLimit code n w s).2 :=
  K.onRailsIf (fun _ _ h => K.regWrite h) hs
theorem Sound.execVoutOvFaultLimit (K : Sound P) {wr : Option (BitVec 16)} {pec : Pec} (hs : P s) :
    Answers P (execVoutOvFaultLimit wr pec s) := by
  refine K.next ?_
  split
  · exact K.pmbWrite (fun _ h => K.voltageLimit h) hs
  · exact K.railReadFree hs
theorem Sound.execVoutUvFaultLimit (K : Sound P) {wr : Option (BitVec 16)} {pec : Pec} (hs : P s) :
    Answers P (execVoutUvFaultLimit wr pec s) := by
  refine K.next ?_
  split
  · exact K.pmbWrite (fun _ h => K.voltageLimit h) hs
  · exact K.railReadFree hs
theorem Sound.faultResponse (K : Sound P) {code : Nat} {act : Nat → Fld} {ov : Bool} {b : Byte} (hs : P s) :
    P (faultResponse code act ov b s).2 :=
  K.onRailsIf (fun _ _ h => K.iteSnd (K.pmbField <| K.pmbField h) <| K.pmbField h) hs
theorem Sound.execVoutOvFaultResponse (K : Sound P) {wr : Option Byte} {pec : Pec} (hs : P s) :
    Answers P (execVoutOvFaultResponse wr pec s) := by
  refine K.next ?_
  split
  · exact K.pmbWrite (fun _ h => K.faultResponse h) hs
  · exact K.railReadFree hs
theorem Sound.execVoutUvFaultResponse (K : Sound P) {wr : Option Byte} {pec : Pec} (hs : P s) :
    Answers P (execVoutUvFaultResponse wr pec s) := by
  refine K.next ?_
  split
  · exact K.pmbWrite (fun _ h => K.faultResponse h) hs
  · exact K.railReadFree hs
theorem Sound.execIoutOcFaultResponse (K : Sound P) {wr : Option Byte} {pec : Pec} (hs : P s) :
    Answers P (execIoutOcFaultResponse wr pec s) := by
  refine K.next ?_
  split
  · exact K.pmbWrite (fun _ h => K.faultResponse h) hs
  · exact K.railReadFree hs
theorem Sound.execOtFaultResponse (K : Sound P) {wr : Option Byte} {pec : Pec} (hs : P s) : Answers P
    (execOtFaultResponse wr pec s) := by
  refine K.next ?_
  split
  · exact K.pmbWrite (fun _ h => K.faultResponse h) hs
  · exact K.railReadFree hs
theorem Sound.execIoutOcFaultLimit (K : Sound P) {wr : Option (BitVec 16)} {pec : Pec} (hs : P s) :
    Answers P (execIoutOcFaultLimit wr pec s) := by
  refine K.next ?_
  split
  · exact K.pmbWrite (fun _ h => K.pmbBounded h) hs
  · exact K.railRead hs
theorem Sound.execOtFaultLimit (K : Sound P) {wr : Option (BitVec 16)} {pec : Pec} (hs : P s) :
    Answers P (execOtFaultLimit wr pec s) := by
  refine K.next ?_
  split
  · exact K.pmbWrite (fun _ h => K.pmbBounded h) hs
  · exact K.railRead hs
theorem Robust.execStatusByte (K : Robust P) (hs : P s) : Answers P (execStatusByte s) := K.next <| K.railRead hs
theorem Robust.execStatusWord (K : Robust P) (hs : P s) : Answers P (execStatusWord s) := K.next <| K.railRead hs
theorem Robust.execStatusVout (K : Robust P) (hs : P s) : Answers P (execStatusVout s) := K.next <| K.railRead hs
theorem Robust.execStatusIout (K : Robust P) (hs : P s) : Answers P (execStatusIout s) := K.next <| K.railRead hs
theorem Robust.execStatusTemperature (K : Robust P) (hs : P s) : Answers P (execStatusTemperature s) := K.next <| K.railRead hs
theorem Robust.execStatusCml (K : Robust P) {wr : Option Byte} {pec : Pec} (hs : P s) : Answers P (execStatusCml wr pec s) := by
  refine K.next ?_
  split
  · exact K.pmbWrite (fun _ h => K.snd <| K.modMgt h) hs
  · exact K.pagedRead (fun _ h => K.answer h) hs
theorem Robust.execReadVin (K : Robust P) {mv : BitVec 16} (hs : P s) : Answers P (execReadVin mv s) := K.next <| K.pmbRead hs
theorem Robust.execReadVout (K : Robust P) (hs : P s) : Answers P (execReadVout s) := K.next <| K.railRead hs
theorem Robust.execReadIout (K : Robust P) (hs : P s) : Answers P (execReadIout s) := K.next <| K.railRead hs
theorem Robust.execReadTemperature1 (K : Robust P) {mv : BitVec 12} (hs : P s) : Answers P (execReadTemperature1 mv s) :=
  K.next <| K.railRead hs
theorem Robust.execPmbusRevision (K : Robust P) (hs : P s) : Answers P (execPmbusRevision s) := K.next <| K.pmbRead hs
theorem Robust.execMfrId (K : Robust P) (hs : P s) : Answers P (execMfrId s) := K.next <| K.pmbRead hs
theorem Robust.execMfrModel (K : Robust P) (hs : P s) : Answers P (execMfrModel s) := K.next <| K.pmbRead hs
theorem Robust.execMfrRevision (K : Robust P) (hs : P s) : Answers P (execMfrRevision s) := K.next <| K.pmbRead hs
theorem Robust.execMfrRegAddr (K : Robust P) {wr : Option Word} {pec : Pec} (hs : P s) : Answers P (execMfrRegAddr wr pec s) := by
  refine K.next ?_
  split
  · exact K.pmbWrite (fun _ h => K.iteSnd (K.snd <| K.modMgt h) <| K.pmbRefuse h) hs
  · exact K.pagedRead (fun _ h => K.answer h) hs
theorem Robust.regAdvance (K : Robust P) (hs : P s) : P (regAdvance s) := K.modMgt hs
theorem Sound.execMfrRegData (K : Sound P) {wr : Option Word} {pec : Pec} (hs : P s) : Answers P (execMfrRegData wr pec s) := by
  refine K.next ?_
  split
  · exact K.pmbWrite (fun _ h => K.snd <| K.regAdvance <| K.regWrite h) hs
  · exact K.pagedRead (fun _ h => K.answer <| K.regAdvance <| K.regRead h) hs
theorem Robust.execMfrHubState (K : Robust P) (hs : P s) : Answers P (execMfrHubState s) := K.next <| K.pmbRead hs
theorem Robust.execMfrSeqStart (K : Robust P) {b : Byte} {pec : Pec} (hs : P s) : Answers P (execMfrSeqStart b pec s) :=
  K.next <| K.pmbWrite (fun _ h => K.iteSnd (K.pmbRefuse h) <| K.iteSnd h <| K.iteSnd (K.pmbRefuse <| K.cmdSeqStart h) <|
      K.cmdSeqStart h) hs
theorem Robust.execMfrPhases (K : Robust P) (hs : P s) : Answers P (execMfrPhases s) := K.next <| K.railRead hs
theorem Robust.execMfrTbStatus (K : Robust P) (hs : P s) : Answers P (execMfrTbStatus s) := K.next <| K.railRead hs
theorem Robust.execMfrIgnored (K : Robust P) (hs : P s) : Answers P (execMfrIgnored s) := K.next <| K.pmbRead hs
theorem Robust.execAlertResponse (K : Robust P) (hs : P s) : Answers P (execAlertResponse s) := K.next <| K.ite (K.answer hs) hs
theorem Robust.execPmbTimeout (K : Robust P) {code : Byte} (hs : P s) : Answers P (execPmbTimeout code s) :=
  K.next <| K.ite (K.raise <| K.bump hs) hs

/-! ### I3C, the flash master and JTAG -/

theorem Robust.i3cError (K : Robust P) (hs : P s) : P (i3cError s) := K.raise <| K.bump <| K.draw hs
theorem Sound.execI3cRegWrite (K : Sound P) {off : Word} {data : List Byte} {err : Bool} (hs : P s) :
    Answers P (execI3cRegWrite off data err s) :=
  K.next <| K.ite hs <| K.ite (K.i3cError hs) <| K.ite hs <| K.ite (K.ignored hs) <| K.regWrites hs
theorem Robust.execI3cRegRead (K : Robust P) {off : Word} {n : Fin 65} {err : Bool} (hs : P s) : Answers P
    (execI3cRegRead off n err s) :=
  K.next <| K.ite hs <| K.ite (K.i3cError hs) <| K.ite (K.emit hs) <| K.emit <| K.regReads hs
theorem Robust.ccc (K : Robust P) {f : State → State} (hf : ∀ s, P s → P (f s)) (hs : P s) : Answers P (ccc f s) :=
  K.next <| K.ite (hf _ hs) hs
theorem Robust.execEnec (K : Robust P) (hs : P s) : Answers P (execEnec s) := K.ccc (fun _ h => K.set h) hs
theorem Robust.execDisec (K : Robust P) (hs : P s) : Answers P (execDisec s) := K.ccc (fun _ h => K.set h) hs
theorem Robust.execRstdaa (K : Robust P) (hs : P s) : Answers P (execRstdaa s) := K.ccc (fun _ h => K.set <| K.set h) hs
theorem Robust.assignAddr (K : Robust P) {a : Nat} (hs : P s) : P (assignAddr a s) := K.ite hs <| K.set <| K.set hs
theorem Robust.execEntdaa (K : Robust P) {a : BitVec 7} (hs : P s) : Answers P (execEntdaa a s) :=
  K.ccc (fun _ h => K.assignAddr h) hs
theorem Robust.execSetdasa (K : Robust P) {a : BitVec 7} (hs : P s) : Answers P (execSetdasa a s) :=
  K.ccc (fun _ h => K.assignAddr h) hs
theorem Robust.execSetmwl (K : Robust P) {n : BitVec 16} (hs : P s) : Answers P (execSetmwl n s) :=
  K.ccc (fun _ h => K.modMgt h) hs
theorem Robust.execSetmrl (K : Robust P) {n : BitVec 16} (hs : P s) : Answers P (execSetmrl n s) :=
  K.ccc (fun _ h => K.modMgt h) hs
theorem Robust.i3cAnswer (K : Robust P) {n v : Nat} (hs : P s) : P (i3cAnswer n v s) := K.emit hs
theorem Robust.execGetmwl (K : Robust P) (hs : P s) : Answers P (execGetmwl s) := K.ccc (fun _ h => K.i3cAnswer h) hs
theorem Robust.execGetmrl (K : Robust P) (hs : P s) : Answers P (execGetmrl s) := K.ccc (fun _ h => K.i3cAnswer h) hs
theorem Robust.execGetpid (K : Robust P) (hs : P s) : Answers P (execGetpid s) := K.ccc (fun _ h => K.i3cAnswer h) hs
theorem Robust.execGetbcr (K : Robust P) (hs : P s) : Answers P (execGetbcr s) := K.ccc (fun _ h => K.i3cAnswer h) hs
theorem Robust.execGetdcr (K : Robust P) (hs : P s) : Answers P (execGetdcr s) := K.ccc (fun _ h => K.i3cAnswer h) hs
theorem Robust.execGetstatus (K : Robust P) (hs : P s) : Answers P (execGetstatus s) :=
  K.ccc (fun _ h => K.i3cAnswer <| K.draw h) hs
theorem Robust.execUnsupportedCcc (K : Robust P) (hs : P s) : Answers P (execUnsupportedCcc s) :=
  K.ccc (fun _ h => K.i3cError h) hs
theorem Robust.execHdrEntry (K : Robust P) (hs : P s) : Answers P (execHdrEntry s) := K.ccc (fun _ h => K.bump h) hs
theorem Robust.fillBuf (K : Robust P) {b : List Byte} (hs : P s) : P (fillBuf b s) := K.each (fun _ _ h => K.set h) hs
theorem Sound.spiEffect (K : Sound P) {op a len : Nat} {status : Byte} (hs : P s) : P (spiEffect op a len status s) := by
  refine K.ite (K.fillBuf hs) ?_
  refine K.ite (K.flashProgram hs) ?_
  split
  · exact K.flashErase hs
  · exact K.ite (K.fillBuf hs) <| K.ite (K.fillBuf hs) hs
theorem Sound.execSpiCommandDone (K : Sound P) {status : Byte} (hs : P s) : Answers P (execSpiCommandDone status s) := by
  refine K.next ?_
  split
  · exact K.spiEffect <| K.set <| K.set <| K.modMgt hs
  · exact hs
theorem Robust.execSpiPollTimeout (K : Robust P) (hs : P s) : Answers P (execSpiPollTimeout s) :=
  K.next <| K.ite (K.set <| K.set <| K.modMgt hs) hs
theorem Robust.loadIr (K : Robust P) {code : Nat} {scan : Bool} (hs : P s) : P (loadIr code scan s) := K.ite (K.modMgt hs) hs
theorem Robust.execExtest (K : Robust P) (hs : P s) : Answers P (execExtest s) := K.next <| K.loadIr hs
theorem Robust.execIdcode (K : Robust P) (hs : P s) : Answers P (execIdcode s) := K.next <| K.ite (K.emit <| K.loadIr hs) hs
theorem Robust.execSamplePreload (K : Robust P) {v oe : BitVec 68} {ins : BitVec 3} {step : BitVec 48} {zc : BitVec 96} (hs : P s) :
    Answers P (execSamplePreload v oe ins step zc s) :=
  K.next <| K.ite (K.emit <| K.modMgt <| K.iteSnd (K.draw <| K.loadIr hs) (K.loadIr hs)) (K.loadIr hs)
theorem Robust.execClamp (K : Robust P) (hs : P s) : Answers P (execClamp s) := K.next <| K.loadIr hs
theorem Robust.execHighz (K : Robust P) (hs : P s) : Answers P (execHighz s) := K.next <| K.loadIr hs
theorem Robust.execBypass (K : Robust P) (hs : P s) : Answers P (execBypass s) := K.next <| K.loadIr hs
theorem Robust.execJtagReset (K : Robust P) (hs : P s) : Answers P (execJtagReset s) := K.next <| K.loadIr hs
theorem Robust.jtagAnswer (K : Robust P) {status : Nat} {data : Word} (hs : P s) : P (jtagAnswer status data s) :=
  K.emit <| K.modMgt hs
theorem Sound.execRegAccess (K : Sound P) {wr : Bool} {off : BitVec 20} {data : Word} (hs : P s) :
    Answers P (execRegAccess wr off data s) :=
  K.next <| K.ite hs <| K.ite (K.jtagAnswer hs) <| K.ite (K.jtagAnswer hs) <| K.ite (K.jtagAnswer <| K.regWrite hs) <|
      K.jtagAnswer <| K.regRead hs

/-! ### Rows that are writes or commands -/

theorem Robust.directThen (K : Robust P) {v : CmdVia} {op : Nat} {f : State → CmdRes} {after : State → State} (hf : ∀ s, P s → P
    (f s).s) (hafter : ∀ s, P s → P (after s)) (hs : P s) :
    P (directThen v op f after s) := by
  refine K.ite ?_ ?_
  · extract_lets +onlyGivenNames _ s1 s2 s3
    have hs1 : P s1 := by
      unfold s1
      refine K.modHost ?_
      refine hf _ ?_
      split
      · exact hs
      · exact K.mbxTake hs
    have hs2 : P s2 := K.ite (K.countIgnored hs1) hs1
    have hs3 : P s3 := K.ite hs2 <| K.mbxDone hs2
    exact K.ite (hafter _ hs3) hs3
  · split
    · exact hs
    · exact K.ite (K.ignored hs) hs
theorem Robust.directCmd (K : Robust P) {v : CmdVia} {op : Nat} {f : State → CmdRes} (hf : ∀ s, P s → P (f s).s) (hs : P s) :
    P (directCmd v op f s) :=
  K.directThen hf (fun _ h => h) hs
theorem Sound.rowVia (K : Sound P) {via : Via} {op die : Nat} {f : State → CmdRes} {r : Reg} {lo n v : Nat} (hf : ∀ s, P s → P
    (f s).s) (hs : P s) :
    Answers P (rowVia via op die f r lo n v s) := by
  unfold Machine.rowVia
  split
  · exact K.next <| K.directCmd (fun _ h => K.onDie hf h) hs
  · exact K.writeRow hs
theorem Robust.execNop (K : Robust P) {v : CmdVia} (hs : P s) : Answers P (execNop v s) :=
  K.next <| K.directCmd (fun _ h => K.cmdOk h) hs
theorem Robust.execSyncState (K : Robust P) {v : CmdVia} (hs : P s) : Answers P (execSyncState v s) :=
  K.next <| K.directThen (fun _ h => K.cmdSyncState h) (fun _ h => K.startResync h) hs
theorem Sound.execMonEnable (K : Sound P) {p : Sys2Proof.Path} {m : Fin 16} {w : Word} (hs : P s) : Answers P (execMonEnable p m w s) :=
  K.writeRow hs
theorem Sound.execMonDisable (K : Sound P) {p : Sys2Proof.Path} {m : Fin 16} {w : Word} (hs : P s) : Answers P
    (execMonDisable p m w s) :=
  K.writeRow hs
theorem Robust.execRefForce (K : Robust P) {via : CmdVia} {t : Fin 4} {idx : BitVec 8} (hs : P s) :
    Answers P (execRefForce via t idx s) :=
  K.next <| K.directCmd (fun _ h => K.onDie (fun _ h1 => K.iteRes (K.cmdRefForce h1) <| K.cmdIgnored h1) h) hs
theorem Robust.execRefAuto (K : Robust P) {via : CmdVia} {t : Fin 4} (hs : P s) : Answers P (execRefAuto via t s) :=
  K.next <| K.directCmd (fun _ h => K.onDie (fun _ h1 => K.cmdRefAuto h1) h) hs
theorem Sound.execDpllEnable (K : Sound P) {p : Sys2Proof.Path} {t : Fin 4} {w : Word} (hs : P s) : Answers P
    (execDpllEnable p t w s) :=
  K.writeRow hs
theorem Sound.execDpllDisable (K : Sound P) {p : Sys2Proof.Path} {t : Fin 4} {w : Word} (hs : P s) :
    Answers P (execDpllDisable p t w s) :=
  K.writeRow hs
theorem Robust.execHoldoverForce (K : Robust P) {via : CmdVia} {t : Fin 4} {force : Bool} (hs : P s) :
    Answers P (execHoldoverForce via t force s) :=
  K.next <| K.directCmd (fun _ h => K.onDie (fun _ h1 => K.cmdHoldoverForce h1) h) hs
theorem Sound.execHistIntervalWrite (K : Sound P) {p : Sys2Proof.Path} {t : Fin 4} {w : Word} (hs : P s) :
    Answers P (execHistIntervalWrite p t w s) :=
  K.next <| K.writeReg hs
theorem Sound.execTcTermWrite (K : Sound P) {p : Sys2Proof.Path} {t : Fin 4} {w : Word} (hs : P s) :
    Answers P (execTcTermWrite p t w s) :=
  K.next <| K.writeReg hs
theorem Sound.execStbEnWrite (K : Sound P) {p : Sys2Proof.Path} {t : Fin 4} {w : Word} (hs : P s) : Answers P
    (execStbEnWrite p t w s) :=
  K.next <| K.writeReg hs
theorem Robust.execRealign (K : Robust P) {via : CmdVia} {t : Fin 4} {mask : BitVec 12} {k : BitVec 16} (hs : P s) :
    Answers P (execRealign via t mask k s) :=
  K.next <| K.directCmd (fun _ h => K.onDie (fun _ h1 => K.cmdRealign h1) h) hs
theorem Sound.execSynEnable (K : Sound P) {p : Sys2Proof.Path} {c : Fin 12} {w : Word} (hs : P s) : Answers P (execSynEnable p c w s) :=
  K.writeRow hs
theorem Sound.execSynDisable (K : Sound P) {p : Sys2Proof.Path} {c : Fin 12} {w : Word} (hs : P s) : Answers P
    (execSynDisable p c w s) :=
  K.writeRow hs
theorem Sound.execSynApply (K : Sound P) {p : Sys2Proof.Path} {c : Fin 12} {w : Word} (hs : P s) : Answers P (execSynApply p c w s) :=
  K.writeRow hs
theorem Robust.execHop (K : Robust P) {v : CmdVia} {c : Fin 12} {nInt : BitVec 9} {path : BitVec 2} {num den : Word} (hs : P s) :
    Answers P (execHop v c nInt path num den s) :=
  K.next <| K.directCmd (fun _ h => K.onDie (fun _ h1 => K.cmdHop h1) h) hs
theorem Robust.execBypassReturn (K : Robust P) {v : CmdVia} {c : Fin 12} (hs : P s) : Answers P (execBypassReturn v c s) :=
  K.next <| K.directCmd (fun _ h => K.onDie (fun _ h1 => K.cmdBypassReturn h1) h) hs
theorem Sound.execRetAutoWrite (K : Sound P) {p : Sys2Proof.Path} {c : Fin 12} {w : Word} (hs : P s) :
    Answers P (execRetAutoWrite p c w s) :=
  K.next <| K.writeReg hs
theorem Sound.execBandLoadStart (K : Sound P) {p : Sys2Proof.Path} {c : Fin 12} {w : Word} (hs : P s) :
    Answers P (execBandLoadStart p c w s) :=
  K.writeRow hs
theorem Sound.execBandLoadData (K : Sound P) {p : Sys2Proof.Path} {c : Fin 12} {w : Word} (hs : P s) :
    Answers P (execBandLoadData p c w s) :=
  K.next <| K.writeReg hs
theorem Robust.execBandLoad (K : Robust P) {v : CmdVia} {c : Fin 12} {ws : List Word} (hs : P s) : Answers P (execBandLoad v c ws s) :=
  K.next <| K.directCmd (fun _ h => K.onDie (fun _ h1 => K.iteRes (K.cmdBandLoad h1) <| K.cmdIgnored h1) h) hs
theorem Sound.execRampStart (K : Sound P) {via : Via} {c : Fin 12} (hs : P s) : Answers P (execRampStart via c s) :=
  K.rowVia (fun _ h => K.cmdRampStart h) hs
theorem Sound.execRampStop (K : Sound P) {via : Via} {c : Fin 12} {home : Bool} (hs : P s) : Answers P (execRampStop via c home s) :=
  K.rowVia (fun _ h => K.cmdRampStop h) hs
theorem Sound.execRampChunkWrite (K : Sound P) {p : Sys2Proof.Path} {c : Fin 12} {i : Fin 66} {w : Word} (hs : P s) :
    Answers P (execRampChunkWrite p c i w s) :=
  K.next <| K.writeReg hs
theorem Robust.execRampLoad (K : Robust P) {v : CmdVia} {c : Fin 12} {chunks : List (List Word)} (hs : P s) :
    Answers P (execRampLoad v c chunks s) :=
  K.next <| K.directCmd (fun _ h => K.onDie (fun _ h1 => K.cmdRampLoad h1) h) hs
theorem Sound.execOutEnable (K : Sound P) {p : Sys2Proof.Path} {n : Fin 48} {w : Word} (hs : P s) : Answers P (execOutEnable p n w s) :=
  K.writeRow hs
theorem Sound.execOutDisable (K : Sound P) {p : Sys2Proof.Path} {n : Fin 48} {w : Word} (hs : P s) : Answers P
    (execOutDisable p n w s) :=
  K.writeRow hs
theorem Sound.execOutDivWrite (K : Sound P) {p : Sys2Proof.Path} {n : Fin 48} {delay : Bool} {w : Word} (hs : P s) :
    Answers P (execOutDivWrite p n delay w s) :=
  K.next <| K.writeReg hs
theorem Sound.execOutRsync (K : Sound P) {p : Sys2Proof.Path} {t : Fin 4} {w : Word} (hs : P s) : Answers P (execOutRsync p t w s) :=
  K.next <| K.writeReg hs
theorem Sound.execRailEnable (K : Sound P) {p : Sys2Proof.Path} {r : Fin 24} {w : Word} (hs : P s) : Answers P
    (execRailEnable p r w s) :=
  K.writeRow hs
theorem Sound.execRailDisable (K : Sound P) {p : Sys2Proof.Path} {r : Fin 24} {w : Word} (hs : P s) :
    Answers P (execRailDisable p r w s) :=
  K.writeRow hs
theorem Sound.execRailSet (K : Sound P) {v : CmdVia} {rail : BitVec 5} {wen en wvid : Bool} {vid : BitVec 12} (hs : P s) :
    Answers P (execRailSet v rail wen en wvid vid s) :=
  K.next <| K.directCmd (fun _ h => K.onDie (fun _ h1 => K.cmdRailSet h1) h) hs
theorem Sound.execVidWrite (K : Sound P) {p : Sys2Proof.Path} {r : Fin 24} {w : Word} (hs : P s) : Answers P (execVidWrite p r w s) :=
  K.next <| K.writeReg hs
theorem Sound.execTbPairingWrite (K : Sound P) {p : Sys2Proof.Path} {q : Fin 4} {w : Word} (hs : P s) :
    Answers P (execTbPairingWrite p q w s) :=
  K.next <| K.writeReg hs
theorem Sound.execSeqStart (K : Sound P) {via : Via} {q : Fin 8} (hs : P s) : Answers P (execSeqStart via q s) :=
  K.rowVia (fun _ h => K.cmdSeqStart h) hs
theorem Sound.execSeqStop (K : Sound P) {via : Via} (hs : P s) : Answers P (execSeqStop via s) :=
  K.rowVia (fun _ h => K.cmdSeqStop h) hs
theorem Robust.execSeqLoad (K : Robust P) {v : CmdVia} {ws : List Word} (hs : P s) : Answers P (execSeqLoad v ws s) :=
  K.next <| K.directCmd (fun _ h => K.onDie (fun _ h1 => K.iteRes (K.cmdSeqLoad h1) <| K.cmdIgnored h1) h) hs
theorem Sound.execSeqLoadStart (K : Sound P) {p : Sys2Proof.Path} {w : Word} (hs : P s) : Answers P (execSeqLoadStart p w s) :=
  K.writeRow hs
theorem Sound.execSeqLoadData (K : Sound P) {p : Sys2Proof.Path} {w : Word} (hs : P s) : Answers P (execSeqLoadData p w s) :=
  K.next <| K.writeReg hs
theorem Robust.execStoreCharge (K : Robust P) {v : CmdVia} {arg : BitVec 16} (hs : P s) : Answers P (execStoreCharge v arg s) :=
  K.next <| K.directCmd (fun _ h => K.onDie (fun _ h1 => K.cmdStoreCharge h1) h) hs
theorem Sound.execLinkEnable (K : Sound P) {p : Sys2Proof.Path} {k : Fin 4} {w : Word} (hs : P s) : Answers P
    (execLinkEnable p k w s) :=
  K.writeRow hs
theorem Sound.execLinkDisable (K : Sound P) {p : Sys2Proof.Path} {k : Fin 4} {w : Word} (hs : P s) :
    Answers P (execLinkDisable p k w s) :=
  K.writeRow hs
theorem Sound.execTodSet (K : Sound P) {p : Sys2Proof.Path} {w : Word} (hs : P s) : Answers P (execTodSet p w s) :=
  K.next <| K.writeReg hs
theorem Robust.execLinkJoin (K : Robust P) {v : CmdVia} (hs : P s) : Answers P (execLinkJoin v s) :=
  K.next <| K.directCmd (fun _ h => K.onDie (fun _ h1 => K.cmdLinkJoin h1) h) hs
theorem Robust.execRemoteRd
    (K : Robust P) {v : CmdVia} {tag : BitVec 16} {dst : BitVec 64} {off : BitVec 20} {n : Fin 16} {ptr : BitVec 48} (hs : P s) :
    Answers P (execRemoteRd v tag dst off n ptr s) :=
  K.next <| K.directCmd (fun _ h => K.onDie (fun _ h1 => K.cmdRemote h1) h) hs
theorem Robust.execRemoteWr
    (K : Robust P) {v : CmdVia} {tag : BitVec 16} {dst : BitVec 64} {off : BitVec 20} {n : Fin 16} {data : List Word} (hs : P s) :
    Answers P (execRemoteWr v tag dst off n data s) :=
  K.next <| K.directCmd (fun _ h => K.onDie (fun _ h1 => K.cmdRemote h1) h) hs
theorem Sound.execLinkLeave (K : Sound P) {via : Via} (hs : P s) : Answers P (execLinkLeave via s) :=
  K.rowVia (fun _ h => K.cmdLinkLeave h) hs
theorem Sound.execRemoteAccessGo (K : Sound P) {p : Sys2Proof.Path} {w : Word} (hs : P s) : Answers P (execRemoteAccessGo p w s) :=
  K.writeRow hs
theorem Sound.execSignalSend (K : Sound P) {p : Sys2Proof.Path} {w : Word} (hs : P s) : Answers P (execSignalSend p w s) :=
  K.next <| K.writeReg hs
theorem Sound.execHostWake (K : Sound P) {p : Sys2Proof.Path} {w : Word} (hs : P s) : Answers P (execHostWake p w s) :=
  K.next <| K.writeReg hs
theorem Sound.execHostResync (K : Sound P) {p : Sys2Proof.Path} {w : Word} (hs : P s) : Answers P (execHostResync p w s) :=
  K.next <| K.writeReg hs
theorem Sound.execRingArm (K : Sound P) {p : Sys2Proof.Path} {q : Fin 3} {w : Word} (hs : P s) : Answers P (execRingArm p q w s) :=
  K.writeRow hs
theorem Sound.execPromote (K : Sound P) {p : Sys2Proof.Path} {w : Word} (hs : P s) : Answers P (execPromote p w s) :=
  K.writeRow hs
theorem Sound.stateRow (K : Sound P) {via : Via} {code : Nat} (hs : P s) : Answers P (stateRow via code s) := by
  unfold Machine.stateRow
  split
  · exact K.next <| K.directThen (fun _ h => K.onDie (fun _ h1 => K.iteRes (K.cmdOk h1) <| K.cmdIgnored h1) h) (fun _ h => K.ite
      h <| K.stateChange h) hs
  · exact K.writeRow hs
theorem Sound.execStandbyEnter (K : Sound P) {via : Via} (hs : P s) : Answers P (execStandbyEnter via s) := K.stateRow hs
theorem Sound.execStandbyExit (K : Sound P) {via : Via} (hs : P s) : Answers P (execStandbyExit via s) := K.stateRow hs
theorem Sound.execKeepEnter (K : Sound P) {via : Via} (hs : P s) : Answers P (execKeepEnter via s) := K.stateRow hs
theorem Sound.execSoftReset (K : Sound P) {via : Via} (hs : P s) : Answers P (execSoftReset via s) := K.stateRow hs
theorem Sound.execEventPop (K : Sound P) {p : Sys2Proof.Path} {w : Word} (hs : P s) : Answers P (execEventPop p w s) :=
  K.writeRow hs
theorem Sound.execMailboxGo (K : Sound P) {p : Sys2Proof.Path} {w : Word} (hs : P s) : Answers P (execMailboxGo p w s) :=
  K.writeRow hs
theorem Sound.execSpiCommand (K : Sound P) {p : Sys2Proof.Path} {w : Word} (hs : P s) : Answers P (execSpiCommand p w s) :=
  K.writeRow hs
theorem Sound.execDmaEnable (K : Sound P) {p : Sys2Proof.Path} {ch : Fin 32} {w : Word} (hs : P s) : Answers P
    (execDmaEnable p ch w s) :=
  K.writeRow hs
theorem Sound.execDmaDisable (K : Sound P) {p : Sys2Proof.Path} {ch : Fin 32} {w : Word} (hs : P s) :
    Answers P (execDmaDisable p ch w s) :=
  K.writeRow hs
theorem Sound.execDmaDoorbell (K : Sound P) {p : Sys2Proof.Path} {ch : Fin 32} {w : Word} (hs : P s) :
    Answers P (execDmaDoorbell p ch w s) :=
  K.next <| K.writeReg hs
theorem Sound.execDatuInv (K : Sound P) {p : Sys2Proof.Path} {w : Word} (hs : P s) : Answers P (execDatuInv p w s) :=
  K.writeRow hs
theorem Sound.channelRow (K : Sound P) {by_ : By} {ch : Fin 32} {op : Nat} {f : Nat → State → CmdRes} {bit : Nat}
    (hf : ∀ a0 s, P s → P (f a0 s).s) (hs : P s) :
    Answers P (channelRow by_ ch op f bit s) := by
  unfold Machine.channelRow
  split
  · exact K.next <| K.directCmd (fun _ h => K.channelCmd hf h) hs
  · exact K.next <| K.writeReg hs
theorem Sound.execDmaResume (K : Sound P) {by_ : By} {ch : Fin 32} (hs : P s) : Answers P (execDmaResume by_ ch s) :=
  K.channelRow (fun _ _ h => K.cmdDmaResume h) hs
theorem Sound.execDmaAbort (K : Sound P) {by_ : By} {ch : Fin 32} (hs : P s) : Answers P (execDmaAbort by_ ch s) :=
  K.channelRow (fun _ _ h => K.cmdDmaAbort h) hs
theorem Sound.execOtpShadow (K : Sound P) {by_ : By} {word : BitVec 9} {value : Word} (hs : P s) :
    Answers P (execOtpShadow by_ word value s) := by
  unfold Machine.execOtpShadow
  split
  · exact K.next <| K.directCmd (fun _ h => K.cmdOtpShadow h) hs
  · exact K.next <| K.writeReg hs
theorem Sound.execOtpShadowClear (K : Sound P) {p : Sys2Proof.Path} {w : Word} (hs : P s) : Answers P (execOtpShadowClear p w s) :=
  K.writeRow hs
theorem Sound.execOtpArm (K : Sound P) {p : Sys2Proof.Path} {w : Word} (hs : P s) : Answers P (execOtpArm p w s) :=
  K.next <| K.writeReg hs
theorem Sound.execOtpBurn (K : Sound P) {via : Via} {tag : BitVec 16} {word : BitVec 9} {value : Word} (hs : P s) :
    Answers P (execOtpBurn via tag word value s) := by
  refine K.rowVia ?_ hs
  intro _ h
  split
  · exact K.cmdOtpBurn h
  · exact K.cmdIgnored h
theorem Sound.execCommitLock (K : Sound P) {via : Via} {tag : BitVec 16} {region : BitVec 2} (hs : P s) :
    Answers P (execCommitLock via tag region s) := by
  refine K.rowVia ?_ hs
  intro _ h
  split
  · exact K.cmdCommitLock h
  · exact K.cmdIgnored h
theorem Robust.execImageStage (K : Robust P) {v : CmdVia} {tag : BitVec 16} {cls : BitVec 2} {ptr : BitVec 48} {len : Word} (hs : P s) :
    Answers P (execImageStage v tag cls ptr len s) :=
  K.next <| K.directCmd (fun _ h => K.iteRes (K.cmdImageStage h) <| K.cmdIgnored h) hs
theorem Robust.execImageCommit (K : Robust P) {v : CmdVia} {tag : BitVec 16} {cls : BitVec 2} (hs : P s) :
    Answers P (execImageCommit v tag cls s) :=
  K.next <| K.directCmd (fun _ h => K.cmdImageCommit h) hs
theorem Sound.execImageHealthy (K : Sound P) {p : Sys2Proof.Path} {cls : Fin 3} {w : Word} (hs : P s) :
    Answers P (execImageHealthy p cls w s) :=
  K.next <| K.writeReg hs
theorem Sound.execEngineReset (K : Sound P) {p : Sys2Proof.Path} {e : Fin 12} {bad : Bool} (hs : P s) :
    Answers P (execEngineReset p e bad s) :=
  K.next <| K.withLoads (fun _ h => K.writeReg h) hs
theorem Sound.execEngineHold (K : Sound P) {p : Sys2Proof.Path} {e : Fin 12} (hs : P s) : Answers P (execEngineHold p e s) :=
  K.next <| K.writeReg hs
theorem Sound.execEngineRelease (K : Sound P) {p : Sys2Proof.Path} {e : Fin 12} (hs : P s) : Answers P (execEngineRelease p e s) :=
  K.next <| K.writeReg hs
theorem Sound.execGpioMoutWrite (K : Sound P) {p : Sys2Proof.Path} {g : Fin 4} {w : Word} (hs : P s) :
    Answers P (execGpioMoutWrite p g w s) :=
  K.next <| K.writeReg hs
theorem Sound.execGpioMoeWrite (K : Sound P) {p : Sys2Proof.Path} {g : Fin 4} {w : Word} (hs : P s) :
    Answers P (execGpioMoeWrite p g w s) :=
  K.next <| K.writeReg hs
theorem Sound.execWdgKick (K : Sound P) {p : Sys2Proof.Path} {w : Word} {bad : BitVec 12} (hs : P s) :
    Answers P (execWdgKick p w bad s) :=
  K.next <| K.withLoads (fun _ h => K.writeReg h) hs
theorem Sound.execWdgForce (K : Sound P) {p : Sys2Proof.Path} {w : Word} (hs : P s) : Answers P (execWdgForce p w s) :=
  K.next <| K.writeReg hs

/-! ### An idle microsecond -/

theorem Robust.timerTick (K : Robust P) (hs : P s) : P (timerTick s) := K.ite hs <| K.setWide hs
theorem Robust.keeperTick (K : Robust P) (hs : P s) : P (keeperTick s) :=
  K.ite hs <| K.ite (K.beside hs rfl) <| K.set <| K.beside hs rfl
theorem Robust.wheelTickLow (K : Robust P) {c : Nat} (hs : P s) : P (wheelTickLow c s) := by
  unfold Machine.wheelTickLow
  split
  · exact K.ite (K.lowWater hs) hs
  · exact K.lowWater hs
theorem Robust.clocksTick (K : Robust P) (hs : P s) : P (clocksTick s) :=
  K.refreshAllWindows <| K.each (fun _ _ h => K.wheelTickLow h) <| K.each (fun _ _ h => K.railTick h) <| K.each (fun _ _ h =>
      K.slewTick h) <| K.each (fun _ _ h => K.qualTick h) hs
theorem Robust.remoteTick (K : Robust P) (hs : P s) : P (remoteTick s) := by
  unfold Machine.remoteTick
  exact K.modSys hs
theorem Sound.tick (K : Sound P) (hs : P s) : P (tick s) :=
  K.ite (K.modPkg <| K.keeperTick <| K.timerTick hs) <| K.releaseTick <| K.frameTick <| K.remoteTick <| K.clocksTick <| K.modPkg
      <| K.keeperTick <| K.timerTick hs

end

end Sys2Proof.Machine

namespace Sys2Proof.Machine

section
variable {P : State → Prop} {s : State}
/-! ### Every command and every step -/

set_option maxRecDepth 20000 in
/-- Every command answers, and keeps what it is sound to keep. -/
theorem Sound.exec (K : Sound P) {c : Instr} (hs : P s) : Answers P (exec c s) :=
  match c with
  | .watchdogReset .. => K.execWatchdogReset hs
  | .softReset .. => K.execSoftReset hs
  | .hostPortReset .. => K.execHostPortReset hs
  | .engineReset .. => K.execEngineReset hs
  | .engineHold .. => K.execEngineHold hs
  | .engineRelease .. => K.execEngineRelease hs
  | .engHalt .. => K.execEngHalt hs
  | .bootBegin .. => K.execBootBegin hs
  | .supplyOutOfBand .. => K.execSupplyOutOfBand hs
  | .dieIsolated .. => K.execDieIsolated hs
  | .supplyHoldEnd .. => K.execSupplyHoldEnd hs
  | .thermalAlarm .. => K.execThermalAlarm hs
  | .thermalTrip .. => K.execThermalTrip hs
  | .stbLoss .. => K.execStbLoss hs
  | .stbStart .. => K.execStbStart hs
  | .scrubWord .. => K.execScrubWord hs
  | .registerWrite .. => K.execRegisterWrite hs
  | .monEnable .. => K.execMonEnable hs
  | .monDisable .. => K.execMonDisable hs
  | .activityLost .. => K.execActivityLost hs
  | .activityRegained .. => K.execActivityRegained hs
  | .freqGateDone .. => K.execFreqGateDone hs
  | .phaseJump .. => K.execPhaseJump hs
  | .qualTimerExpire .. => K.execQualTimerExpire hs
  | .laneCalDone .. => K.execLaneCalDone hs
  | .selectorPass .. => K.execSelectorPass hs
  | .refForce .. => K.execRefForce hs
  | .refAuto .. => K.execRefAuto hs
  | .dpllEnable .. => K.execDpllEnable hs
  | .dpllDisable .. => K.execDpllDisable hs
  | .dpllSelect .. => K.execDpllSelect hs
  | .dpllHold .. => K.execDpllHold hs
  | .sampleLate .. => K.execSampleLate hs
  | .dpllLock .. => K.execDpllLock hs
  | .dpllUnlock .. => K.execDpllUnlock hs
  | .pullinSat .. => K.execPullinSat hs
  | .buildout .. => K.execBuildout hs
  | .slewDone .. => K.execSlewDone hs
  | .holdoverForce .. => K.execHoldoverForce hs
  | .historyInterval .. => K.execHistoryInterval hs
  | .histIntervalWrite .. => K.execHistIntervalWrite hs
  | .kilnHoWrite .. => K.execKilnHoWrite hs
  | .tcTermWrite .. => K.execTcTermWrite hs
  | .stbEnWrite .. => K.execStbEnWrite hs
  | .realign .. => K.execRealign hs
  | .realignDone .. => K.execRealignDone hs
  | .synEnable .. => K.execSynEnable hs
  | .synDisable .. => K.execSynDisable hs
  | .synApply .. => K.execSynApply hs
  | .hop .. => K.execHop hs
  | .bandSearchDone .. => K.execBandSearchDone hs
  | .hopMiss .. => K.execHopMiss hs
  | .acquireTimeout .. => K.execAcquireTimeout hs
  | .synLock .. => K.execSynLock hs
  | .lol .. => K.execLol hs
  | .researchTimeout .. => K.execResearchTimeout hs
  | .returnHoldExpire .. => K.execReturnHoldExpire hs
  | .bypassReturn .. => K.execBypassReturn hs
  | .retAutoWrite .. => K.execRetAutoWrite hs
  | .bypassSwitch .. => K.execBypassSwitch hs
  | .avenueMuxSwitch .. => K.execAvenueMuxSwitch hs
  | .bandLoadStart .. => K.execBandLoadStart hs
  | .bandLoadData .. => K.execBandLoadData hs
  | .bandLoad .. => K.execBandLoad hs
  | .bandSwap .. => K.execBandSwap hs
  | .rampStart .. => K.execRampStart hs
  | .rampStop .. => K.execRampStop hs
  | .rampTick .. => K.execRampTick hs
  | .rampChunkWrite .. => K.execRampChunkWrite hs
  | .rampLoad .. => K.execRampLoad hs
  | .outEnable .. => K.execOutEnable hs
  | .outDisable .. => K.execOutDisable hs
  | .outDivWrite .. => K.execOutDivWrite hs
  | .bankLoss .. => K.execBankLoss hs
  | .outRsync .. => K.execOutRsync hs
  | .aligned .. => K.execAligned hs
  | .syncInEdge .. => K.execSyncInEdge hs
  | .railEnable .. => K.execRailEnable hs
  | .railDisable .. => K.execRailDisable hs
  | .softStartBegin .. => K.execSoftStartBegin hs
  | .rampTargetReached .. => K.execRampTargetReached hs
  | .railOff .. => K.execRailOff hs
  | .railPg .. => K.execRailPg hs
  | .railPgLost .. => K.execRailPgLost hs
  | .vidWrite .. => K.execVidWrite hs
  | .vidDone .. => K.execVidDone hs
  | .shedAdd .. => K.execShedAdd hs
  | .shedDrop .. => K.execShedDrop hs
  | .dcmEnter .. => K.execDcmEnter hs
  | .dcmExit .. => K.execDcmExit hs
  | .pulsePlan .. => K.execPulsePlan hs
  | .windowAnnounce .. => K.execWindowAnnounce hs
  | .tbLossNotice .. => K.execTbLossNotice hs
  | .laneMonitorExpire .. => K.execLaneMonitorExpire hs
  | .tbPairingWrite .. => K.execTbPairingWrite hs
  | .fallbackTrim .. => K.execFallbackTrim hs
  | .tbReturn .. => K.execTbReturn hs
  | .tlmScanStart .. => K.execTlmScanStart hs
  | .tlmFrame .. => K.execTlmFrame hs
  | .tlmBufSnapshot .. => K.execTlmBufSnapshot hs
  | .seqStart .. => K.execSeqStart hs
  | .seqStop .. => K.execSeqStop hs
  | .seqLoad .. => K.execSeqLoad hs
  | .seqLoadStart .. => K.execSeqLoadStart hs
  | .seqLoadData .. => K.execSeqLoadData hs
  | .depTrip .. => K.execDepTrip hs
  | .ov .. => K.execOv hs
  | .uv .. => K.execUv hs
  | .oc .. => K.execOc hs
  | .tmonSample .. => K.execTmonSample hs
  | .railRelease .. => K.execRailRelease hs
  | .retryDue .. => K.execRetryDue hs
  | .retryReload .. => K.execRetryReload hs
  | .storeCharge .. => K.execStoreCharge hs
  | .chgCv .. => K.execChgCv hs
  | .chgFull .. => K.execChgFull hs
  | .chgRecharge .. => K.execChgRecharge hs
  | .chgFault .. => K.execChgFault hs
  | .storeReady .. => K.execStoreReady hs
  | .vinLoss .. => K.execVinLoss hs
  | .storeLow .. => K.execStoreLow hs
  | .vinGood .. => K.execVinGood hs
  | .hkFault .. => K.execHkFault hs
  | .tdMeasure .. => K.execTdMeasure hs
  | .linkEnable .. => K.execLinkEnable hs
  | .linkDisable .. => K.execLinkDisable hs
  | .helloSend .. => K.execHelloSend hs
  | .linkUp .. => K.execLinkUp hs
  | .linkDown .. => K.execLinkDown hs
  | .linkFreqGate .. => K.execLinkFreqGate hs
  | .markSend .. => K.execMarkSend hs
  | .markRx .. => K.execMarkRx hs
  | .markEchoRx .. => K.execMarkEchoRx hs
  | .epoch .. => K.execEpoch hs
  | .todSet .. => K.execTodSet hs
  | .timeCellSend .. => K.execTimeCellSend hs
  | .timeCellRx .. => K.execTimeCellRx hs
  | .cellRx .. => K.execCellRx hs
  | .messageRx .. => K.execMessageRx hs
  | .messageTimeout .. => K.execMessageTimeout hs
  | .announceRx .. => K.execAnnounceRx hs
  | .offerExpire .. => K.execOfferExpire hs
  | .linkJoin .. => K.execLinkJoin hs
  | .linkLeave .. => K.execLinkLeave hs
  | .remoteRd .. => K.execRemoteRd hs
  | .remoteWr .. => K.execRemoteWr hs
  | .remoteAccessGo .. => K.execRemoteAccessGo hs
  | .remoteRequestRx .. => K.execRemoteRequestRx hs
  | .remoteResponseRx .. => K.execRemoteResponseRx hs
  | .remoteTimeout .. => K.execRemoteTimeout hs
  | .eventSend .. => K.execEventSend hs
  | .signalSend .. => K.execSignalSend hs
  | .remoteEventRx .. => K.execRemoteEventRx hs
  | .hostWake .. => K.execHostWake hs
  | .doorbellReadDone .. => K.execDoorbellReadDone hs
  | .commandDispatch .. => K.execCommandDispatch hs
  | .nop .. => K.execNop hs
  | .syncState .. => K.execSyncState hs
  | .standbyEnter .. => K.execStandbyEnter hs
  | .standbyExit .. => K.execStandbyExit hs
  | .keepEnter .. => K.execKeepEnter hs
  | .keepTimerWake .. => K.execKeepTimerWake hs
  | .railSet .. => K.execRailSet hs
  | .eventPost .. => K.execEventPost hs
  | .hostResync .. => K.execHostResync hs
  | .summaryDone .. => K.execSummaryDone hs
  | .ringArm .. => K.execRingArm hs
  | .promote .. => K.execPromote hs
  | .page .. => K.execPage hs
  | .operation .. => K.execOperation hs
  | .onOffConfig .. => K.execOnOffConfig hs
  | .clearFaults .. => K.execClearFaults hs
  | .writeProtect .. => K.execWriteProtect hs
  | .capability .. => K.execCapability hs
  | .voutCommand .. => K.execVoutCommand hs
  | .voutTransitionRate .. => K.execVoutTransitionRate hs
  | .frequencySwitch .. => K.execFrequencySwitch hs
  | .voutOvFaultLimit .. => K.execVoutOvFaultLimit hs
  | .voutUvFaultLimit .. => K.execVoutUvFaultLimit hs
  | .voutOvFaultResponse .. => K.execVoutOvFaultResponse hs
  | .voutUvFaultResponse .. => K.execVoutUvFaultResponse hs
  | .ioutOcFaultResponse .. => K.execIoutOcFaultResponse hs
  | .otFaultResponse .. => K.execOtFaultResponse hs
  | .ioutOcFaultLimit .. => K.execIoutOcFaultLimit hs
  | .otFaultLimit .. => K.execOtFaultLimit hs
  | .statusCml .. => K.execStatusCml hs
  | .readVin .. => K.execReadVin hs
  | .readTemperature1 .. => K.execReadTemperature1 hs
  | .mfrRegAddr .. => K.execMfrRegAddr hs
  | .mfrRegData .. => K.execMfrRegData hs
  | .mfrSeqStart .. => K.execMfrSeqStart hs
  | .pmbTimeout .. => K.execPmbTimeout hs
  | .i3cRegWrite .. => K.execI3cRegWrite hs
  | .i3cRegRead .. => K.execI3cRegRead hs
  | .entdaa .. => K.execEntdaa hs
  | .setdasa .. => K.execSetdasa hs
  | .setmwl .. => K.execSetmwl hs
  | .setmrl .. => K.execSetmrl hs
  | .eventPop .. => K.execEventPop hs
  | .mailboxGo .. => K.execMailboxGo hs
  | .spiCommand .. => K.execSpiCommand hs
  | .spiCommandDone .. => K.execSpiCommandDone hs
  | .samplePreload .. => K.execSamplePreload hs
  | .regAccess .. => K.execRegAccess hs
  | .dmaEnable .. => K.execDmaEnable hs
  | .dmaDisable .. => K.execDmaDisable hs
  | .dmaDoorbell .. => K.execDmaDoorbell hs
  | .descriptorFetch .. => K.execDescriptorFetch hs
  | .dmaRequest .. => K.execDmaRequest hs
  | .burstComplete .. => K.execBurstComplete hs
  | .walkReadDone .. => K.execWalkReadDone hs
  | .dmaFault .. => K.execDmaFault hs
  | .dmaResume .. => K.execDmaResume hs
  | .dmaAbort .. => K.execDmaAbort hs
  | .datuInv .. => K.execDatuInv hs
  | .otpShadow .. => K.execOtpShadow hs
  | .otpShadowClear .. => K.execOtpShadowClear hs
  | .otpArm .. => K.execOtpArm hs
  | .otpBurn .. => K.execOtpBurn hs
  | .commitLock .. => K.execCommitLock hs
  | .burnPulseDone .. => K.execBurnPulseDone hs
  | .imageStage .. => K.execImageStage hs
  | .imageStaged .. => K.execImageStaged hs
  | .imageCommit .. => K.execImageCommit hs
  | .imageCommitted .. => K.execImageCommitted hs
  | .imageHealthy .. => K.execImageHealthy hs
  | .pinHandover .. => K.execPinHandover hs
  | .faultIn .. => K.execFaultIn hs
  | .gpioMoutWrite .. => K.execGpioMoutWrite hs
  | .gpioMoeWrite .. => K.execGpioMoeWrite hs
  | .pinIrq .. => K.execPinIrq hs
  | .pwmxPeriod .. => K.execPwmxPeriod hs
  | .wdgKick .. => K.execWdgKick hs
  | .wdgFrameEnd .. => K.execWdgFrameEnd hs
  | .wdgForce .. => K.execWdgForce hs
  | .pcieLinkUp .. => K.execPcieLinkUp hs
  | .bankSupplyReturn .. => K.execBankSupplyReturn hs
  | .fineWalkDone .. => K.execFineWalkDone hs
  | .powerOnReset .. => K.execPowerOnReset hs
  | .supplyLoss .. => K.execSupplyLoss hs
  | .pinReset .. => K.execPinReset hs
  | .loLossReset .. => K.execLoLossReset hs
  | .heldBlink .. => K.execHeldBlink hs
  | .keeperLost .. => K.execKeeperLost hs
  | .keeperReturn .. => K.execKeeperReturn hs
  | .seqSwap .. => K.execSeqSwap hs
  | .stepWaitSatisfied .. => K.execStepWaitSatisfied hs
  | .stepActionDone .. => K.execStepActionDone hs
  | .stepTimeout .. => K.execStepTimeout hs
  | .announceOriginate .. => K.execAnnounceOriginate hs
  | .listenEnd .. => K.execListenEnd hs
  | .doorbellPoll .. => K.execDoorbellPoll hs
  | .keepHk0Stop .. => K.execKeepHk0Stop hs
  | .vinWake .. => K.execVinWake hs
  | .completionPost .. => K.execCompletionPost hs
  | .resyncDrained .. => K.execResyncDrained hs
  | .voutMode .. => K.execVoutMode hs
  | .statusByte .. => K.execStatusByte hs
  | .statusWord .. => K.execStatusWord hs
  | .statusVout .. => K.execStatusVout hs
  | .statusIout .. => K.execStatusIout hs
  | .statusTemperature .. => K.execStatusTemperature hs
  | .readVout .. => K.execReadVout hs
  | .readIout .. => K.execReadIout hs
  | .pmbusRevision .. => K.execPmbusRevision hs
  | .mfrId .. => K.execMfrId hs
  | .mfrModel .. => K.execMfrModel hs
  | .mfrRevision .. => K.execMfrRevision hs
  | .mfrHubState .. => K.execMfrHubState hs
  | .mfrPhases .. => K.execMfrPhases hs
  | .mfrTbStatus .. => K.execMfrTbStatus hs
  | .mfrIgnored .. => K.execMfrIgnored hs
  | .alertResponse .. => K.execAlertResponse hs
  | .enec .. => K.execEnec hs
  | .disec .. => K.execDisec hs
  | .rstdaa .. => K.execRstdaa hs
  | .getmwl .. => K.execGetmwl hs
  | .getmrl .. => K.execGetmrl hs
  | .getpid .. => K.execGetpid hs
  | .getbcr .. => K.execGetbcr hs
  | .getdcr .. => K.execGetdcr hs
  | .getstatus .. => K.execGetstatus hs
  | .unsupportedCcc .. => K.execUnsupportedCcc hs
  | .hdrEntry .. => K.execHdrEntry hs
  | .spiPollTimeout .. => K.execSpiPollTimeout hs
  | .extest .. => K.execExtest hs
  | .idcode .. => K.execIdcode hs
  | .clamp .. => K.execClamp hs
  | .highz .. => K.execHighz hs
  | .bypass .. => K.execBypass hs
  | .jtagReset .. => K.execJtagReset hs
  | .burstGrant .. => K.execBurstGrant hs
  | .datuInvDone .. => K.execDatuInvDone hs
  | .lockMarginReadDone .. => K.execLockMarginReadDone hs
  | .captureSample .. => K.execCaptureSample hs
  | .hk0InRegulation .. => K.execHk0InRegulation hs
  | .kilnSupplyLoss .. => K.execKilnSupplyLoss hs
  | .keepVinLow .. => K.execKeepVinLow hs
/-- A microsecond answers, and a command runs with the queue's rest in place. -/
theorem Sound.step (K : Sound P) (hs : P { s with pending := s.pending.tail }) : Answers P (step s) := by
  unfold Machine.step
  split
  · next h => exact K.next <| K.tick <| K.sound { s with pending := s.pending.tail } s (by rw [h]; rfl) (fun h => h) hs
  · next h => 
    rw [h] at hs
    exact K.exec hs
end

theorem sound_pending (l : List Instr) : Sound (fun s => s.pending = l) where
  toKept := kept_pending l
  sound _ _ hp _ h := hp.trans h

theorem sound_canon : Sound State.Canon where
  toKept := kept_canon
  sound _ _ _ h := h

/-- Settles O59: no arm of the dispatch faults or refuses, and none touches the queue. -/
theorem everyCommandAnswers : Obligations.EveryCommandAnswers :=
  fun _ s => (sound_pending s.pending).exec rfl

/-- Settles O60: the queue is no part of the canonical forms, so each command starts from them. -/
theorem everyStepKeepsTheCanonicalForms : Obligations.EveryStepKeepsTheCanonicalForms := by
  unfold Obligations.EveryStepKeepsTheCanonicalForms
  intro s t hs ht
  obtain ⟨u, hu, hcanon⟩ : Answers State.Canon (step s) := sound_canon.step hs
  rw [hu] at ht
  exact Host.Outcome.next.inj ht ▸ hcanon

end Sys2Proof.Machine

/-! What a reset of the register file leaves of one field (R10, R412). -/

namespace Sys2Proof.Machine

/-! ### One word for a register -/

/-- The list gives the register one word at most. -/
def OneWord (q : Reg) (l : List (Reg × Word)) : Prop := ∀ v w : Word, (q, v) ∈ l → (q, w) ∈ l → v = w

theorem OneWord.tail {q : Reg} {e : Reg × Word} {l : List (Reg × Word)} (h : OneWord q (e :: l)) : OneWord q l :=
  fun v w hv hw => h v w (List.mem_cons_of_mem _ hv) (List.mem_cons_of_mem _ hw)

theorem oneWord_regErase_same (q : Reg) (l : List (Reg × Word)) : OneWord q (regErase l q) :=
  fun _ _ hv _ => absurd rfl (of_decide_eq_true (List.mem_filter.1 hv).2)

theorem OneWord.regStore {q r : Reg} {l : List (Reg × Word)} (h : q = r ∨ OneWord q l) (w : Word) : OneWord q (regStore l r w) := by
  have herase : OneWord q (regErase l r) := by
    rcases h with rfl | h
    · exact oneWord_regErase_same q l
    · exact fun u v hu hv => h u v (List.mem_filter.1 hu).1 (List.mem_filter.1 hv).1
  unfold Machine.regStore
  split
  · exact herase
  · intro u v hu hv
    rcases mem_regInsert.1 hu with hu | hu <;> rcases mem_regInsert.1 hv with hv | hv
    · rw [Prod.mk.injEq] at hu hv
      exact hu.2.trans hv.2.symm
    · rw [Prod.mk.injEq] at hu
      exact absurd hu.1 (of_decide_eq_true (List.mem_filter.1 hv).2)
    · rw [Prod.mk.injEq] at hv
      exact absurd hv.1 (of_decide_eq_true (List.mem_filter.1 hu).2)
    · exact herase u v hu hv

theorem RegsWf.oneWord {l : List (Reg × Word)} (h : RegsWf l) (q : Reg) : OneWord q l := by
  induction l with
  | nil => exact fun _ _ hv => absurd hv List.not_mem_nil
  | cons e l ih =>
    obtain ⟨he, hl⟩ := List.pairwise_cons.1 h.1
    intro v w hv hw
    rcases List.mem_cons.1 hv with hv | hv <;> rcases List.mem_cons.1 hw with hw | hw
    · exact (Prod.mk.inj (hv.trans hw.symm)).2
    · exact absurd (he _ hw) (hv ▸ Reg.not_before_self q)
    · exact absurd (he _ hv) (hw ▸ Reg.not_before_self q)
    · exact ih ⟨hl, fun e he => h.2 e (List.mem_cons_of_mem _ he)⟩ v w hv hw

theorem regLookup_eq_none {q : Reg} {l : List (Reg × Word)} (h : ∀ w, (q, w) ∉ l) : regLookup l q = none := by
  induction l with
  | nil => rfl
  | cons e l ih =>
    obtain ⟨r, v⟩ := e
    have hr : r ≠ q := fun hr => h v (hr ▸ List.mem_cons_self)
    rw [regLookup, if_neg hr]
    exact ih fun w hw => h w (List.mem_cons_of_mem _ hw)

/-- An entry of a register file that was reset comes from an entry of the file before. -/
theorem mem_resetRegs {scope : Reg → Bool} {keep : Reg → FieldSpec → Bool} {l : List (Reg × Word)} {q : Reg} {v : Word}
    (h : (q, v) ∈ resetRegs scope keep l) :
    ∃ w, (q, w) ∈ l ∧ v = (if scope q then resetWord (keep q) q w else w) ∧ (scope q = true → v ≠ q.reset) := by
  obtain ⟨⟨r, w⟩, hw, he⟩ := List.mem_filterMap.1 h
  dsimp only at he
  split at he
  · split at he
    · cases he
    · cases he
      exact ⟨w, hw, by simp [*]⟩
  · cases he
    exact ⟨v, hw, by simp [*]⟩

theorem OneWord.resetRegs {scope : Reg → Bool} {keep : Reg → FieldSpec → Bool} {l : List (Reg × Word)} {q : Reg} (h : OneWord q l) :
    OneWord q (resetRegs scope keep l) := by
  intro v w hv hw
  obtain ⟨v', hv', rfl, _⟩ := mem_resetRegs hv
  obtain ⟨w', hw', rfl, _⟩ := mem_resetRegs hw
  rw [h v' w' hv' hw']

theorem regLookup_cons (r q : Reg) (w : Word) (l : List (Reg × Word)) :
    regLookup ((r, w) :: l) q = if r = q then some w else regLookup l q := rfl

/-- A reset of the register file treats the one word by itself. -/
theorem regLookup_resetRegs_oneWord {scope : Reg → Bool} {keep : Reg → FieldSpec → Bool} {l : List (Reg × Word)} {q : Reg}
    (h : OneWord q l) :
    (regLookup (resetRegs scope keep l) q).getD q.reset
      = if scope q then resetWord (keep q) q ((regLookup l q).getD q.reset) else (regLookup l q).getD q.reset := by
  induction l with
  | nil => simp [resetRegs, regLookup, resetWord_reset]
  | cons e l ih =>
    obtain ⟨r, w⟩ := e
    have ih := ih h.tail
    by_cases hr : r = q
    · subst hr
      have hone : ∀ v, (r, v) ∈ l → v = w := fun v hv => h v w (List.mem_cons_of_mem _ hv) List.mem_cons_self
      by_cases hs : scope r = true
      · by_cases hw : resetWord (keep r) r w = r.reset
        · have hnone : regLookup (resetRegs scope keep l) r = none := regLookup_eq_none fun v hv => by
            obtain ⟨v', hv', hv, hne⟩ := mem_resetRegs hv
            rw [hone v' hv', if_pos hs] at hv
            exact hne hs (hv.trans hw)
          simp [resetRegs, regLookup_cons, hs, hw] at hnone ⊢
          simp [hnone]
        · simp [resetRegs, regLookup_cons, hs, hw]
      · simp [resetRegs, regLookup_cons, hs]
    · unfold resetRegs at ih ⊢
      rw [List.filterMap_cons]
      by_cases hs : scope r = true
      · by_cases hw : resetWord (keep r) r w = r.reset
        · simpa [regLookup_cons, hs, hw, hr] using ih
        · simpa [regLookup_cons, hs, hw, hr] using ih
      · simpa [regLookup_cons, hs, hr] using ih

/-! ### One field -/

theorem fieldWise_reset (keep : FieldSpec → Bool) (w : Word) :
    FieldWise (fun f a => if keep f then wordSet a f.lo f.w (wordGet w f.lo f.w) else a)
      (fun f i b => if keep f then w.toNat.testBit i else b) where
  within f a i h hlo hhi := by
    have hi : i - f.lo < f.w := by omega
    split
    · rw [wordSet_bit _ _ _ _ _ h, if_pos ⟨hlo, hhi⟩, wordGet_bit]
      simp [hi, hlo]
    · rfl
  beside f a i h ho := by
    split
    · rw [wordSet_bit _ _ _ _ _ h, if_neg (by omega)]
    · rfl

/-- A field of a register after a reset: as it was where the reset keeps it, at its reset value otherwise. -/
theorem wordGet_resetWord (keep : FieldSpec → Bool) (r : Reg) (w : Word) {g : FieldSpec} (hg : g ∈ r.fields) :
    wordGet (resetWord keep r w) g.lo g.w = if keep g then wordGet w g.lo g.w else wordGet r.reset g.lo g.w := by
  refine Nat.eq_of_testBit_eq fun i => ?_
  by_cases hi : i < g.w
  · refine ((fieldWise_reset keep w).wordGet_bit r r.reset hg hi).trans ?_
    split <;> simp [wordGet_bit, hi]
  · split <;> simp [wordGet_bit, hi]

/-- The field stands in its register's table row. -/
def Fld.Row (f : Fld) (g : FieldSpec) : Prop := g ∈ f.reg.fields ∧ g.lo = f.lo ∧ g.w = f.w

/-- The value of a field after a package reset. -/
def Fld.resetValue (f : Fld) : Nat := wordGet f.reg.reset f.lo f.w

/-- The field reads so, from the one word that the register file has for its register. -/
structure State.Reads (s : State) (f : Fld) (v : Nat) : Prop where
  once : OneWord f.reg s.regs
  value : s.get f = v

variable {s t : State} {f : Fld} {v : Nat} {g : FieldSpec}

theorem RegsWf.reads (h : RegsWf s.regs) (f : Fld) : s.Reads f (s.get f) := ⟨h.oneWord _, rfl⟩

/-- The field after a reset of the registers of a scope. -/
theorem State.Reads.resetRegs (h : s.Reads f v) (hg : f.Row g) {scope : Reg → Bool} {keep : Reg → FieldSpec → Bool}
    (ht : t.regs = Machine.resetRegs scope keep s.regs) :
    t.Reads f (if scope f.reg && !keep f.reg g then f.resetValue else v) := by
  obtain ⟨hmem, hlo, hw⟩ := hg
  refine ⟨ht ▸ h.once.resetRegs, ?_⟩
  have hword : t.word f.reg = if scope f.reg then resetWord (keep f.reg) f.reg (s.word f.reg) else s.word f.reg := by
    unfold State.word
    rw [ht]
    exact regLookup_resetRegs_oneWord h.once
  have hv : wordGet (s.word f.reg) g.lo g.w = v := by rw [hlo, hw]; exact h.value
  unfold State.get Fld.resetValue
  rw [hword, ← hlo, ← hw]
  by_cases hs : scope f.reg = true <;> by_cases hk : keep f.reg g = true <;> simp [hs, hk, wordGet_resetWord _ _ _ hmem, hv]

/-- A reset keeps the field: all kinds but power-on keep a P field, and none changes a field at its reset value (R10). -/
def Fld.Lasts (f : Fld) (v : Nat) : Prop := ∃ g, f.Row g ∧ (g.keep = .p ∨ v = f.resetValue)

theorem State.Reads.lasts (h : s.Reads f v) (hf : f.Lasts v) {scope : Reg → Bool} {keep : Reg → FieldSpec → Bool}
    (hkeep : ∀ (r : Reg) (g : FieldSpec), g.keep = .p → keep r g = true) (ht : t.regs = Machine.resetRegs scope keep s.regs) :
    t.Reads f v := by
  obtain ⟨g, hg, hp | rfl⟩ := hf
  · simpa [hkeep _ _ hp] using h.resetRegs hg ht
  · simpa using h.resetRegs hg ht

theorem State.get_of_regs (ht : t.regs = s.regs) (f : Fld) : t.get f = s.get f := by
  unfold State.get
  rw [State.word_of_regs ht]

theorem State.Reads.of_regs (h : s.Reads f v) (ht : t.regs = s.regs) : t.Reads f v :=
  ⟨ht ▸ h.once, (State.get_of_regs ht f).trans h.value⟩

theorem kept_reads (f : Fld) (v : Nat) : Kept (fun r => r ≠ f.reg) (fun s => s.Reads f v) where
  word s r w hr h := ⟨OneWord.regStore (.inr h.once) w, (kept_get f v).word s r w hr h.value⟩
  rest s t hr hst h := ⟨hr ▸ h.once, (kept_get f v).rest s t hr hst h.value⟩

theorem State.reads_set (s : State) (f : Fld) (v : Nat) (h : f.lo + f.w ≤ 32) : (s.set f v).Reads f (v % 2 ^ f.w) :=
  ⟨OneWord.regStore (.inl rfl) _, State.get_set_same s f v h⟩

/-- Another field of the register keeps its value. -/
theorem State.Reads.set_field (h : s.Reads f v) {e : Fld} (w : Nat) (hr : e.reg = f.reg) (hw : e.lo + e.w ≤ 32)
    (hd : e.lo + e.w ≤ f.lo ∨ f.lo + f.w ≤ e.lo) : (s.set e w).Reads f v :=
  ⟨OneWord.regStore (.inr h.once) _, (State.get_set_field s e f w hr hw hd).trans h.value⟩

end Sys2Proof.Machine

/-! The way into BOOT (R10, R412, R414, R422, R430): what the resets of the package leave of a field, of the event FIFO and of the stores. -/

namespace Sys2Proof.Machine

/-! ### The registers that entering BOOT writes, beside resetting them -/

/-- The names of those registers, but for GLB_STATE and the Kiln's record of the reset. -/
def bootNames : List RegName :=
  [.SEQ_STAT, .SEQ_EVT, .DMA_STAT, .DMA_CCTL, .DMA_ACTIVE, .DMA_REQ_BIND, .DMA_REQ_PEND, .LNK_RXQ, .PRG_TBSTAT, .PRG_EVT, .PRG_WSTAT,
    .MGT_EV, .HUP_STAT, .HUP_EVT, .OUT_BANK, .GLB_DIE, .FLT_RSTAT]

/-- The register is one of those, or one that an event writes. -/
def Reg.Boots (r : Reg) : Prop := bootNames.contains r.name = true ∨ r.off ∈ eventOffs

/-- The field's register is none of those. -/
def Fld.Aside (f : Fld) : Prop := bootNames.contains f.reg.name = false ∧ f.reg.off ∉ eventOffs

theorem Fld.Aside.ne {f : Fld} (h : f.Aside) {r : Reg} (hr : r.Boots) : r ≠ f.reg := by
  rintro rfl
  exact hr.elim (Bool.eq_false_iff.1 h.1) h.2

theorem Kept.mono {ok ok' : Reg → Prop} {P : State → Prop} (K : Kept ok' P) (h : ∀ r, ok r → ok' r) : Kept ok P where
  word s r w hr := K.word s r w (h r hr)
  rest := K.rest

theorem Fld.Aside.kept {f : Fld} (h : f.Aside) (v : Nat) : Kept Reg.Boots (fun s => s.Reads f v) :=
  (kept_reads f v).mono fun _ => h.ne

section
variable {P : State → Prop} {s : State}

theorem boots_of_name {r : Reg} (h : bootNames.contains r.name = true) : r.Boots := .inl h
theorem boots_of_event (r : Reg) (h : r.off ∈ eventOffs) : r.Boots := .inr h

theorem Kept.bootSet (K : Kept Reg.Boots P) {f : Fld} {v : Nat} (hf : bootNames.contains f.reg.name = true) (hs : P s) : P (s.set f v) :=
  K.set f v (boots_of_name hf) hs

theorem Kept.bootRaise (K : Kept Reg.Boots P) {f : Fld} {i code src : Nat} {body : List (Nat × Nat)}
    (hf : bootNames.contains f.reg.name = true) (hs : P s) : P (s.raise f i code src body) :=
  K.raise f i code src body (boots_of_name hf) boots_of_event hs

theorem Kept.iteState {ok : Reg → Prop} (_ : Kept ok P) {c : Prop} [Decidable c] {t : State} (hs : P s) (ht : P t) :
    P (if c then s else t) := by
  split
  · exact hs
  · exact ht

theorem Kept.modSeq {ok : Reg → Prop} (K : Kept ok P) {f : SeqInt → SeqInt} (hs : P s) : P (s.modSeq f) := K.beside hs rfl
theorem Kept.modDma {ok : Reg → Prop} (K : Kept ok P) {ch : Nat} {f : DmaInt → DmaInt} (hs : P s) : P (s.modDma ch f) := K.beside hs rfl
theorem Kept.modTrg {ok : Reg → Prop} (K : Kept ok P) {t : Nat} {f : TrgInt → TrgInt} (hs : P s) : P (s.modTrg t f) := K.beside hs rfl
theorem Kept.modPrg {ok : Reg → Prop} (K : Kept ok P) {p : Nat} {f : PrgInt → PrgInt} (hs : P s) : P (s.modPrg p f) := K.beside hs rfl

/-! ### What those operations keep -/

theorem Kept.bootShowFill (K : Kept Reg.Boots P) (hs : P s) : P (showFill s) := K.bootSet rfl hs

theorem Kept.bootSeqEnded (K : Kept Reg.Boots P) {cause : Nat} (hs : P s) : P (seqEnded 4 cause s) :=
  K.bootSet rfl <| K.modSeq <| K.bootSet rfl <| K.bootSet rfl <| K.bootSet rfl hs

theorem Kept.bootLoseUnit (K : Kept Reg.Boots P) {l q : Nat} (hs : P s) : P (loseUnit l q s) :=
  K.iteState hs <| K.iteState (K.modTrg hs) <| K.iteState hs <| K.iteState (K.bootSet rfl <| K.beside hs rfl) <| K.iteState hs <|
    K.beside hs rfl

theorem Kept.bootDropRequests (K : Kept Reg.Boots P) {ch : Nat} (hs : P s) : P (dropRequests ch s) := by
  unfold dropRequests
  split
  · exact K.modDma <| foldl_keeps _ _ (fun r _ s h => K.iteState h (K.bootLoseUnit h)) hs
  · exact K.modDma hs

theorem Kept.bootDisableChannel (K : Kept Reg.Boots P) {ch : Nat} (hs : P s) : P (disableChannel ch s) :=
  K.modDma <| K.bootDropRequests <| K.bootSet rfl <| K.bootSet rfl hs

theorem Kept.bootDisableHostChannels (K : Kept Reg.Boots P) (hs : P s) : P (disableHostChannels s) :=
  K.bootSet rfl <| K.bootSet rfl <| K.bootSet rfl <|
    State.each_keeps 32 _ (fun _ _ _ h => K.iteState (K.bootDisableChannel h) h) hs

theorem Kept.bootRefreshWindow (K : Kept Reg.Boots P) {p w : Nat} (hs : P s) : P (refreshWindow p w s) := by
  have hset : ∀ {x y : Bool}, P ((s.setBit (PRG_WSTAT_ACTIVE p) w x).setBit (PRG_WSTAT_SUSP p) w y) :=
    K.bootSet rfl <| K.bootSet rfl hs
  exact K.iteState (K.bootRaise rfl hset) hset

theorem Kept.bootToFallback (K : Kept Reg.Boots P) {p cause : Nat} (hs : P s) : P (toFallback p cause s) := by
  unfold toFallback
  extract_lets s0 s1 s2
  have hs0 : P s0 := K.bootSet rfl <| K.modPrg hs
  have hs2 : P s2 := K.modPrg <| K.bootSet rfl <| K.bootSet rfl hs0
  exact K.iteState hs0 <| State.each_keeps 8 _ (fun _ _ _ h => K.bootRefreshWindow h) <| K.bootRaise rfl hs2

/-- A reset that returns a power region's TBSEL to its reset value acts as that write. -/
theorem Kept.bootTbsel (K : Kept Reg.Boots P) {p : Nat} {old new : Word} (hs : P s) : P (prgAfter ⟨.PRG_TBSEL, p, 0, 0⟩ old new s) :=
  K.iteState (K.bootToFallback hs) hs

theorem Kept.bootRemeasure (K : Kept Reg.Boots P) (hs : P s) : P (remeasure s) := by
  have h1 : P ((s.set HUP_STAT_ON_STORE 0).each 8 (fun b s =>
      s.put (OUT_BANK_BANK_OK b) (bankInBand (s.get (OUT_BANK_VCLASS b)) (s.get (OUT_BANK_VMEAS b))))) :=
    State.each_keeps 8 _ (fun _ _ _ h => K.bootSet rfl h) <| K.bootSet rfl hs
  exact K.iteState (K.bootRaise rfl <| K.bootSet rfl h1) (K.bootSet rfl h1)

end

/-! ### The stores -/

/-- The flash, the fuses and the queue. -/
def State.stores (s : State) : List Host.Cell × List (Nat × Nat × Nat × Nat) × List Instr := (s.flash, s.otp.fuse, s.pending)

theorem robust_stores (x : List Host.Cell × List (Nat × Nat × Nat × Nat) × List Instr) : Robust (fun s => s.stores = x) where
  word _ _ _ _ h := h
  rest s t _ hst h := by
    obtain ⟨hf, _, _, hu, hp⟩ := hst
    unfold State.stores at h ⊢
    rw [hf, hu, hp, h]

theorem tearFlash_keeps {Q : State → Prop} (htear : ∀ a n s, Q s → Q (flashTear a n s)) {s : State} (hs : Q s) : Q (tearFlash s) := by
  unfold tearFlash
  extract_lets s1 d
  have hs1 : Q s1 := by
    unfold s1
    split
    · split
      · exact htear _ _ _ hs
      · exact hs
    · exact hs
  split
  · exact htear _ _ _ hs1
  · exact hs1

theorem tearBurn_none {s : State} (h : s.otp.burn = none) : tearBurn s = s := by
  unfold tearBurn
  rw [h]

/-- Tearing the flash notes what is torn, and nothing else. -/
theorem tearFlash_regs (s : State) : (tearFlash s).regs = s.regs := tearFlash_keeps (Q := fun t => t.regs = s.regs) (fun _ _ _ h => h) rfl
theorem tearFlash_pkg_ (s : State) : (tearFlash s).pkg_ = s.pkg_ := tearFlash_keeps (Q := fun t => t.pkg_ = s.pkg_) (fun _ _ _ h => h) rfl
theorem tearFlash_stores (s : State) : (tearFlash s).stores = s.stores :=
  tearFlash_keeps (Q := fun t => t.stores = s.stores) (fun _ _ _ h => h) rfl

theorem resetFields_stores (k : ResetKind) (s : State) : (resetFields k s).stores = s.stores := rfl

theorem bareState_stores (k : ResetKind) (s : State) : (bareState k s).stores = s.stores := rfl

theorem loseAll_stores {s : State} (h : s.otp.burn = none) : (loseAll s).stores = s.stores := by
  unfold loseAll
  rw [tearBurn_none h]
  exact tearFlash_stores s

theorem resetFields_regs (k : ResetKind) (s : State) : (resetFields k s).regs =
    resetRegs (fun _ => true) (fun r f => k.keeps f.keep || k.measured r f.lo) s.regs := rfl

/-! ### A die held in reset -/

section
variable (d : Nat) (s : State)

theorem holdDie_regs : (holdDie d s).regs =
    resetRegs (fun r => dieOfOff r.off = d) (fun r f => ResetKind.pin.keeps f.keep || ResetKind.pin.measured r f.lo) s.regs := by
  unfold holdDie
  extract_lets z kept s1
  split <;> rfl

theorem holdDie_stores : (holdDie d s).stores = s.stores := by
  unfold holdDie
  extract_lets z kept s1
  split <;> rfl

theorem holdDie_evtFifo : (holdDie d s).evtFifo = s.evtFifo := by
  unfold holdDie
  extract_lets z kept s1
  split <;> rfl

theorem holdDie_pkg_ : (holdDie d s).pkg_ = s.pkg_ := by
  unfold holdDie
  extract_lets z kept s1
  split <;> rfl

end

section
variable {s : State} {f : Fld} {v : Nat}

theorem State.Reads.holdDie (h : s.Reads f v) (hf : f.Lasts v) (d : Nat) : (holdDie d s).Reads f v :=
  h.lasts hf (fun _ g hg => by simp [hg, ResetKind.keeps]) (holdDie_regs d s)

/-- A field of another die's register keeps its value. -/
theorem State.Reads.holdDie_ne (h : s.Reads f v) {d : Nat} (hd : dieOfOff f.reg.off ≠ d) : (Machine.holdDie d s).Reads f v := by
  refine ⟨holdDie_regs d s ▸ h.once.resetRegs, ?_⟩
  have hword : (Machine.holdDie d s).word f.reg = s.word f.reg := by
    unfold State.word
    rw [holdDie_regs, regLookup_resetRegs_oneWord h.once, if_neg (by simpa using hd)]
  unfold State.get
  rw [hword]
  exact h.value

/-- Every kind of reset but power-on keeps the P fields. -/
theorem ResetKind.keeps_p {k : ResetKind} (hk : k ≠ .power) : k.keeps .p = true := by
  revert hk
  cases k <;> decide

theorem State.Reads.resetFields (h : s.Reads f v) (hf : f.Lasts v) {k : ResetKind} (hk : k ≠ .power) : (resetFields k s).Reads f v :=
  h.lasts hf (fun _ g hg => by simp [hg, ResetKind.keeps_p hk]) (resetFields_regs k s)

theorem State.Reads.bareState (h : s.Reads f v) (hf : f.Lasts v) {k : ResetKind} (hk : k ≠ .power) : (bareState k s).Reads f v :=
  (h.resetFields hf hk).of_regs rfl

/-- A field that the reset does not keep is at its reset value after it. -/
theorem State.Reads.bareState_cleared (h : s.Reads f v) {g : FieldSpec} (hg : f.Row g) {k : ResetKind}
    (hk : (k.keeps g.keep || k.measured f.reg g.lo) = false) : (Machine.bareState k s).Reads f f.resetValue := by
  have hr := h.resetRegs hg (resetFields_regs k s)
  rw [hk] at hr
  exact hr.of_regs rfl

end

/-! ### The supplies at the entry to BOOT (R430) -/

section
variable {Q : State → Prop} {s : State}

/-- What the dies' waiting in reset keeps. -/
theorem holdDies_keeps (hbare : Q s → Q (showSupply ((bareState .supply s).set GLB_STATE_STATE pkgBoot)))
    (hdie : ∀ d ∈ [dieT0, dieT1, dieP], ∀ s, Q s → Q (holdDie d s)) (hs : Q s) : Q (holdDies s) := by
  unfold holdDies
  split
  · exact hbare hs
  · refine foldl_keeps _ _ (fun d hd s h => ?_) hs
    split
    · exact hdie d hd s h
    · exact h

theorem bootSupplies_keeps
    (hset : ∀ (f : Fld) (v : Nat) (s : State), f.reg.name = .GLB_DIE ∨ f.reg.name = .FLT_RSTAT → Q s → Q (s.set f v))
    (hbare : ∀ s, Q s → Q ((bareState .supply s).set GLB_STATE_STATE pkgBoot))
    (hdie : ∀ d ∈ [dieT0, dieT1, dieP], ∀ s, Q s → Q (holdDie d s)) (hs : Q s) : Q (bootSupplies s) :=
  State.each_keeps 24 _ (fun _ _ s h => hset _ _ s (.inr rfl) h) <|
    holdDies_keeps (fun h => hset _ _ _ (.inl rfl) (hbare _ h)) hdie <| hset _ _ s (.inl rfl) hs

theorem bootSupplies_stores (s : State) : (bootSupplies s).stores = s.stores :=
  bootSupplies_keeps (Q := fun t => t.stores = s.stores) (fun _ _ _ _ h => h) (fun _ h => h)
    (fun d _ t h => (holdDie_stores d t).trans h) rfl

/-- No event arises; where the C-die waits, those that had arisen are lost. -/
theorem bootSupplies_evtFifo {p : List EvtRec → Prop} (hnil : p []) (hs : p s.evtFifo) : p (bootSupplies s).evtFifo :=
  bootSupplies_keeps (Q := fun t => p t.evtFifo) (fun f v t _ h => by rw [State.set_evtFifo]; exact h)
    (fun _ _ => by rw [State.set_evtFifo]; exact hnil) (fun d _ t h => by rw [holdDie_evtFifo]; exact h) hs

/-- The Kiln is not lost by it. -/
theorem bootSupplies_kilnLost (h : s.pkg_.kilnLost = false) : (bootSupplies s).pkg_.kilnLost = false :=
  bootSupplies_keeps (Q := fun t => t.pkg_.kilnLost = false) (fun f v t _ h => by rw [State.set_pkg_]; exact h)
    (fun _ _ => by rw [State.set_pkg_]; rfl) (fun d _ t h => by rw [holdDie_pkg_]; exact h) h

theorem State.Reads.set_name {f e : Fld} {v w : Nat} (h : s.Reads f v) (hn : e.reg.name ≠ f.reg.name) : (s.set e w).Reads f v :=
  (kept_reads f v).set e w (Reg.ne_of_name hn) h

theorem State.Reads.bootSupplies {f : Fld} {v : Nat} (h : s.Reads f v) (hf : f.Lasts v)
    (hn : [RegName.GLB_DIE, .FLT_RSTAT, .GLB_STATE].contains f.reg.name = false) : (bootSupplies s).Reads f v := by
  have hdie : RegName.GLB_DIE ≠ f.reg.name := fun e => by rw [← e] at hn; cases hn
  have hrail : RegName.FLT_RSTAT ≠ f.reg.name := fun e => by rw [← e] at hn; cases hn
  have hstate : RegName.GLB_STATE ≠ f.reg.name := fun e => by rw [← e] at hn; cases hn
  refine bootSupplies_keeps (Q := fun t => t.Reads f v) (fun e w t he h => h.set_name ?_)
    (fun t h => (h.bareState hf (by decide)).set_name hstate) (fun d _ t h => h.holdDie hf d) h
  rcases he with he | he <;> rw [he]
  · exact hdie
  · exact hrail

theorem bootSupplies_pkg (h : s.Reads GLB_STATE_STATE pkgBoot) : (bootSupplies s).pkg = pkgBoot := by
  have hstate : ∀ d ∈ [dieT0, dieT1, dieP], dieOfOff GLB_STATE_STATE.reg.off ≠ d := by decide
  refine State.Reads.value (f := GLB_STATE_STATE) <| bootSupplies_keeps (Q := fun t => t.Reads GLB_STATE_STATE pkgBoot)
    (fun e w t he h => h.set_name ?_) (fun t _ => State.reads_set _ GLB_STATE_STATE pkgBoot (by decide))
    (fun d hd t h => h.holdDie_ne (hstate d hd)) h
  rcases he with he | he <;> rw [he] <;> decide

end

/-! ### Every die supplied -/

theorem dieStarved_fed {s : State} (h : s.pkg_.supplyOut % 32 = 0) (d : Nat) : s.dieStarved d = false := by
  have hbit : ∀ x < 5, bitOf s.pkg_.supplyOut x = false := by
    intro x hx
    rw [bitOf_eq_testBit, ← Nat.mod_add_div s.pkg_.supplyOut 32, h, Nat.zero_add, show 32 = 2 ^ 5 from rfl,
      Nat.testBit_two_pow_mul]
    simp [hx]
  unfold State.dieStarved
  rw [List.any_eq_false]
  intro x hx
  simp [hbit x (List.mem_range.1 hx)]

theorem holdDies_fed {s : State} (h : s.pkg_.supplyOut % 32 = 0) : holdDies s = s := by
  simp [holdDies, dieStarved_fed h]

/-- With every die supplied, BOOT's supplies are two status registers. -/
theorem bootSupplies_fed_keeps {Q : State → Prop} {s : State} (h : s.pkg_.supplyOut % 32 = 0)
    (hset : ∀ (f : Fld) (v : Nat) (s : State), f.reg.name = .GLB_DIE ∨ f.reg.name = .FLT_RSTAT → Q s → Q (s.set f v)) (hs : Q s) :
    Q (bootSupplies s) := by
  unfold bootSupplies
  rw [holdDies_fed (s := showSupply s) (by unfold showSupply; rw [State.set_pkg_]; exact h)]
  exact State.each_keeps 24 _ (fun _ _ s h => hset _ _ s (.inr rfl) h) (hset _ _ s (.inl rfl) hs)

theorem Kept.bootSupplies_fed {P : State → Prop} (K : Kept Reg.Boots P) {s : State} (h : s.pkg_.supplyOut % 32 = 0) (hs : P s) :
    P (bootSupplies s) := by
  refine bootSupplies_fed_keeps h (fun f v t hf ht => K.bootSet ?_ ht) hs
  rcases hf with hf | hf <;> rw [hf] <;> rfl

/-! ### The record of a reset (R414) -/

section
variable {s : State} {f : Fld} {v cause : Nat}

theorem State.each_succ (s : State) (n : Nat) (g : Nat → State → State) : s.each (n + 1) g = g n (s.each n g) := by
  unfold State.each
  rw [List.range_succ, List.foldl_append]
  rfl

/-- The history moves up by one. -/
def shiftHistory (s : State) : State :=
  s.each 7 (fun i s => s.setWord ⟨.KLN_HIST, 7 - i, 0, 0⟩ (s.word ⟨.KLN_HIST, 6 - i, 0, 0⟩))

/-- The new record: its cause and time, and the count. -/
def recordCause (cause sec : Nat) (s : State) : State :=
  (((s.set (KLN_HIST_CAUSE 0) cause).set (KLN_HIST_SEC 0) sec).set GLB_RESET_CAUSE cause).bump GLB_RESET_RST_CNT

theorem recordReset_eq (cause : Nat) (s : State) :
    recordReset cause false s = recordCause cause (s.get KLN_TIME_SEC) (shiftHistory s) := rfl

theorem State.Reads.shiftHistory (h : s.Reads f v) (hn : RegName.KLN_HIST ≠ f.reg.name) : (shiftHistory s).Reads f v :=
  State.each_keeps 7 _ (fun _ _ t ht => (kept_reads f v).word t _ _ (Reg.ne_of_name hn) ht) h

theorem reads_setWord (s : State) (f : Fld) (w : Word) : (s.setWord f.reg w).Reads f (wordGet w f.lo f.w) :=
  ⟨OneWord.regStore (.inl rfl) w, by unfold State.get; rw [State.word_setWord_same]⟩

/-- The last cause but one. -/
theorem shiftHistory_reads (s : State) : (shiftHistory s).Reads (KLN_HIST_CAUSE 1) (s.get (KLN_HIST_CAUSE 0)) := by
  have hfirst : (s.each 6 (fun i s => s.setWord ⟨.KLN_HIST, 7 - i, 0, 0⟩ (s.word ⟨.KLN_HIST, 6 - i, 0, 0⟩))).word ⟨.KLN_HIST, 0, 0, 0⟩
      = s.word ⟨.KLN_HIST, 0, 0, 0⟩ := by
    refine State.each_keeps 6 _ (fun i hi t ht => (kept_word _ _).word t _ _ ?_ ht) rfl
    intro he
    have := congrArg Reg.i he
    dsimp only at this
    omega
  unfold Machine.shiftHistory
  rw [State.each_succ]
  generalize State.each s 6 _ = t at hfirst ⊢
  have hcopy := reads_setWord t (KLN_HIST_CAUSE 1) (t.word ⟨.KLN_HIST, 0, 0, 0⟩)
  rw [hfirst] at hcopy ⊢
  exact hcopy

theorem State.Reads.recordCause (h : s.Reads f v) (hk : RegName.KLN_HIST ≠ f.reg.name) (hg : RegName.GLB_RESET ≠ f.reg.name)
    (cause sec : Nat) : (recordCause cause sec s).Reads f v :=
  (((h.set_name hk).set_name hk).set_name hg).set_name hg

theorem recordCause_cause (hc : cause < 256) (sec : Nat) (s : State) : (recordCause cause sec s).Reads GLB_RESET_CAUSE cause := by
  have hset := State.reads_set ((s.set (KLN_HIST_CAUSE 0) cause).set (KLN_HIST_SEC 0) sec) GLB_RESET_CAUSE cause (by decide)
  rw [show cause % 2 ^ GLB_RESET_CAUSE.w = cause from Nat.mod_eq_of_lt hc] at hset
  exact hset.set_field _ rfl (by decide) (.inr (by decide))

theorem recordCause_history (hc : cause < 256) (sec : Nat) (s : State) : (recordCause cause sec s).Reads (KLN_HIST_CAUSE 0) cause := by
  have hset := State.reads_set s (KLN_HIST_CAUSE 0) cause (by decide)
  rw [show cause % 2 ^ (KLN_HIST_CAUSE 0).w = cause from Nat.mod_eq_of_lt hc] at hset
  exact ((hset.set_field (e := KLN_HIST_SEC 0) sec rfl (by decide) (.inr (by decide))).set_name (by decide)).set_name (by decide)

theorem recordCause_history_one (h : s.Reads (KLN_HIST_CAUSE 1) v) (cause sec : Nat) :
    (recordCause cause sec s).Reads (KLN_HIST_CAUSE 1) v := by
  have hreg : ∀ e : Fld, e.reg = ⟨.KLN_HIST, 0, 0, 0⟩ → e.reg ≠ (KLN_HIST_CAUSE 1).reg := by
    rintro e he
    rw [he]
    decide
  have hset := (kept_reads (KLN_HIST_CAUSE 1) v).set (KLN_HIST_SEC 0) sec (hreg _ rfl)
    ((kept_reads (KLN_HIST_CAUSE 1) v).set (KLN_HIST_CAUSE 0) cause (hreg _ rfl) h)
  exact (hset.set_name (by decide)).set_name (by decide)

theorem recordCause_count (cause sec : Nat) (s : State) :
    (recordCause cause sec s).Reads GLB_RESET_RST_CNT (satNat 16 (s.get GLB_RESET_RST_CNT + 1)) := by
  have hget : (((s.set (KLN_HIST_CAUSE 0) cause).set (KLN_HIST_SEC 0) sec).set GLB_RESET_CAUSE cause).get GLB_RESET_RST_CNT
      = s.get GLB_RESET_RST_CNT := by
    rw [State.get_set_field _ GLB_RESET_CAUSE GLB_RESET_RST_CNT cause rfl (by decide) (.inl (by decide)),
      State.get_set_ne _ (KLN_HIST_SEC 0) GLB_RESET_RST_CNT sec (by decide),
      State.get_set_ne _ (KLN_HIST_CAUSE 0) GLB_RESET_RST_CNT cause (by decide)]
  have hfit : ∀ n, satNat 16 n % 2 ^ GLB_RESET_RST_CNT.w = satNat 16 n := fun n =>
    Nat.mod_eq_of_lt (Nat.lt_of_le_of_lt (Nat.min_le_right _ _) (by decide))
  unfold recordCause State.bump State.bumpBy
  rw [hget]
  have hset := State.reads_set (((s.set (KLN_HIST_CAUSE 0) cause).set (KLN_HIST_SEC 0) sec).set GLB_RESET_CAUSE cause)
    GLB_RESET_RST_CNT (satNat 16 (s.get GLB_RESET_RST_CNT + 1)) (by decide)
  rw [hfit] at hset
  exact hset

theorem State.Reads.recordReset (h : s.Reads f v) (hk : RegName.KLN_HIST ≠ f.reg.name) (hg : RegName.GLB_RESET ≠ f.reg.name)
    (cause : Nat) : (recordReset cause false s).Reads f v :=
  recordReset_eq cause s ▸ (h.shiftHistory hk).recordCause hk hg _ _

theorem recordReset_cause (h : cause < 256) (s : State) : (recordReset cause false s).Reads GLB_RESET_CAUSE cause :=
  recordReset_eq cause s ▸ recordCause_cause h _ _

theorem recordReset_history (h : cause < 256) (s : State) : (recordReset cause false s).Reads (KLN_HIST_CAUSE 0) cause :=
  recordReset_eq cause s ▸ recordCause_history h _ _

theorem recordReset_history_one (cause : Nat) (s : State) :
    (recordReset cause false s).Reads (KLN_HIST_CAUSE 1) (s.get (KLN_HIST_CAUSE 0)) :=
  recordReset_eq cause s ▸ recordCause_history_one (shiftHistory_reads s) _ _

theorem recordReset_count (cause : Nat) (s : State) :
    (recordReset cause false s).Reads GLB_RESET_RST_CNT (satNat 16 (s.get GLB_RESET_RST_CNT + 1)) := by
  have hn : RegName.KLN_HIST ≠ GLB_RESET_RST_CNT.reg.name := by decide
  have hget : (shiftHistory s).get GLB_RESET_RST_CNT = s.get GLB_RESET_RST_CNT :=
    State.each_keeps 7 _ (fun _ _ t ht => (kept_get _ _).word t _ _ (Reg.ne_of_name hn) ht) rfl
  rw [recordReset_eq, ← hget]
  exact recordCause_count _ _ _

end

section
variable {s : State} {f : Fld} {v : Nat}

/-! ### What measuring again leaves (R145, R219, R422) -/

/-- What an event raised leaves beside the registers and the queue of events. -/
def State.SameSide (s t : State) : Prop := t.pkg_ = s.pkg_ ∧ t.host = s.host

theorem State.SameSide.set {s t : State} (h : s.SameSide t) (f : Fld) (v : Nat) : s.SameSide (t.set f v) :=
  ⟨(State.set_pkg_ ..).trans h.1, (State.set_host ..).trans h.2⟩

theorem State.SameSide.modPrg {s t : State} (h : s.SameSide t) (p : Nat) (g : PrgInt → PrgInt) : s.SameSide (t.modPrg p g) := h

theorem State.SameSide.raise {s t : State} (h : s.SameSide t) (f : Fld) (i code src : Nat) (body : List (Nat × Nat)) :
    s.SameSide (t.raise f i code src body) := by
  unfold State.raise State.setBit
  exact ⟨(State.pushEvt_pkg_ ..).trans (h.set _ _).1, (State.pushEvt_host ..).trans (h.set _ _).2⟩

theorem State.SameSide.ite {s t u : State} {c : Prop} [Decidable c] (ht : s.SameSide t) (hu : s.SameSide u) :
    s.SameSide (if c then t else u) := by
  split
  · exact ht
  · exact hu

theorem sameSide_remeasure (s : State) : s.SameSide (remeasure s) := by
  have h1 : s.SameSide ((s.set HUP_STAT_ON_STORE 0).each 8 (fun b s =>
      s.put (OUT_BANK_BANK_OK b) (bankInBand (s.get (OUT_BANK_VCLASS b)) (s.get (OUT_BANK_VMEAS b))))) :=
    State.each_keeps 8 _ (fun _ _ _ h => h.set _ _) (State.SameSide.set ⟨rfl, rfl⟩ _ _)
  exact .ite ((h1.set _ _).raise ..) (h1.set _ _)

theorem State.SameSide.refreshWindow {t : State} (h : s.SameSide t) (p w : Nat) : s.SameSide (refreshWindow p w t) :=
  .ite (((h.set _ _).set _ _).raise ..) ((h.set _ _).set _ _)

theorem State.SameSide.toFallback {t : State} (h : s.SameSide t) (p cause : Nat) : s.SameSide (toFallback p cause t) := by
  unfold Machine.toFallback
  extract_lets s0 s1 s2
  have hs0 : s.SameSide s0 := (h.modPrg ..).set ..
  have hs2 : s.SameSide s2 := ((hs0.set ..).set ..).modPrg ..
  exact .ite hs0 <| State.each_keeps 8 _ (fun _ _ _ h => h.refreshWindow ..) (hs2.raise ..)

theorem State.SameSide.tbsel {t : State} (h : s.SameSide t) (p : Nat) (old new : Word) :
    s.SameSide (prgAfter ⟨.PRG_TBSEL, p, 0, 0⟩ old new t) := .ite (h.toFallback ..) h

/-- An empty FIFO holds the event raised at most. -/
theorem raise_evtFifo_of_nil (h : s.evtFifo = []) (f : Fld) (i code src : Nat) (body : List (Nat × Nat)) :
    (s.raise f i code src body).evtFifo.length ≤ 1 ∧ ∀ e ∈ (s.raise f i code src body).evtFifo, e.code = code := by
  unfold State.raise State.pushEvt
  split
  · have hcodes := State.postEvt_codes (s.setBit f i true) code src (packBody body) (by simp [State.setBit_eq, h, evtCapacity])
    rw [show (s.setBit f i true).evtFifo = [] from h] at hcodes
    constructor
    · simpa using (congrArg List.length hcodes).le
    · intro e he
      have := List.mem_map_of_mem (f := fun e : EvtRec => (e.code, e.src, e.seq, e.body)) he
      rw [hcodes] at this
      simp at this
      exact this.1
  · simp [State.setBit_eq, h]

theorem remeasure_evtFifo (h : s.evtFifo = []) : (remeasure s).evtFifo.length ≤ 1 ∧ ∀ e ∈ (remeasure s).evtFifo, e.code = 0x070F := by
  have h1 : ((s.set HUP_STAT_ON_STORE 0).each 8 (fun b s =>
      s.put (OUT_BANK_BANK_OK b) (bankInBand (s.get (OUT_BANK_VCLASS b)) (s.get (OUT_BANK_VMEAS b))))).evtFifo = [] :=
    State.each_keeps (P := fun t => t.evtFifo = []) 8 _ (fun _ _ _ h => (State.set_evtFifo ..).trans h) ((State.set_evtFifo ..).trans h)
  unfold remeasure showReady
  generalize State.each _ 8 _ = t at h1 ⊢
  extract_lets ready s1
  have h2 : s1.evtFifo = [] := (State.set_evtFifo ..).trans h1
  split
  · exact raise_evtFifo_of_nil h2 ..
  · simp [h2]

/-! ### BOOT entered -/

/-- The package's state at the entry, before it measures. -/
def enterBoot (k : ResetKind) (s : State) : State :=
  (s.set GLB_STATE_STATE pkgBoot).modPkg (fun x => { x with resetDue := true, resetHold := true, bootSoft := decide (k = .soft) })

theorem enterBoot_evtFifo (k : ResetKind) (s : State) : (enterBoot k s).evtFifo = s.evtFifo :=
  State.set_evtFifo s GLB_STATE_STATE pkgBoot

theorem bareState_evtFifo (k : ResetKind) (s : State) : (bareState k s).evtFifo = [] := rfl

theorem resetScope_eq (k : ResetKind) (s : State) :
    resetScope k s = bootSupplies (remeasure (enterBoot k (if k = .soft then softState s else bareState k s))) := rfl

theorem State.Reads.modPkg (h : s.Reads f v) (g : PkgInt → PkgInt) : (s.modPkg g).Reads f v := h.of_regs rfl

theorem State.Reads.enterBoot (h : s.Reads f v) (hn : RegName.GLB_STATE ≠ f.reg.name) (k : ResetKind) : (enterBoot k s).Reads f v :=
  (h.set_name hn).modPkg _

theorem aside_state : GLB_STATE_STATE.Aside := by unfold Fld.Aside; decide

theorem resetScope_pkg (k : ResetKind) (s : State) : (resetScope k s).pkg = pkgBoot := by
  rw [resetScope_eq]
  exact bootSupplies_pkg <| (aside_state.kept _).bootRemeasure <|
    (State.reads_set _ GLB_STATE_STATE pkgBoot (by decide)).modPkg _

/-- What a reset other than a soft one leaves of the fields that last. -/
theorem resetScope_reads {k : ResetKind} (hk : k ≠ .soft) (hb : (bareState k s).Reads f v) (hf : f.Lasts v) (ha : f.Aside)
    (hn : RegName.GLB_STATE ≠ f.reg.name) : (resetScope k s).Reads f v := by
  have hnames : [RegName.GLB_DIE, .FLT_RSTAT, .GLB_STATE].contains f.reg.name = false := by
    rw [← Bool.not_eq_true, List.contains_iff_mem]
    intro hmem
    have hin : f.reg.name ∈ bootNames ∨ f.reg.name = .GLB_STATE := by
      simp only [List.mem_cons, List.not_mem_nil, or_false] at hmem
      rcases hmem with h | h | h <;> simp [h, bootNames]
    rcases hin with h | h
    · exact Bool.eq_false_iff.1 ha.1 (List.contains_iff_mem.2 h)
    · exact hn h.symm
  rw [resetScope_eq, if_neg hk]
  exact State.Reads.bootSupplies ((ha.kept v).bootRemeasure <| hb.enterBoot hn k) hf hnames

theorem resetScope_evtFifo {k : ResetKind} (hk : k ≠ .soft) (s : State) :
    (resetScope k s).evtFifo.length ≤ 1 ∧ ∀ e ∈ (resetScope k s).evtFifo, e.code = 0x070F := by
  rw [resetScope_eq, if_neg hk]
  have hempty : (enterBoot k (bareState k s)).evtFifo = [] := (enterBoot_evtFifo k _).trans (bareState_evtFifo k s)
  generalize enterBoot k (bareState k s) = t at hempty ⊢
  exact bootSupplies_evtFifo (p := fun l => l.length ≤ 1 ∧ ∀ e ∈ l, e.code = 0x070F) (by simp) (remeasure_evtFifo hempty)

theorem softState_stores (s : State) : (softState s).stores = s.stores := by
  have K := robust_stores s.stores
  unfold softState
  extract_lets s0 s1 s3 _ _ s4
  have hs0 : s0.stores = s.stores := K.ite rfl <| K.seqEnded <| K.when (fun _ h => K.applyAction h) rfl
  have hs1 : (disableHostChannels s1).stores = s.stores := K.disableHostChannels <| K.set <| K.set <| K.modSeq hs0
  have hs3 : s3.stores = s.stores := (resetFields_stores .soft _).trans hs1
  clear_value s3
  have hflash : s3.flash = s.flash := congrArg Prod.fst hs3
  have hqueue : s3.pending = s.pending := congrArg (·.2.2) hs3
  have hs4 : s4.stores = s.stores := Prod.ext hflash (Prod.ext rfl hqueue)
  exact K.showFill <| K.each (fun _ _ h => K.prgAfter h) hs4

theorem resetScope_stores (k : ResetKind) (s : State) : (resetScope k s).stores = s.stores := by
  have hscope : (if k = .soft then softState s else bareState k s).stores = s.stores := by
    split
    · exact softState_stores s
    · rfl
  rw [resetScope_eq, bootSupplies_stores]
  have K := robust_stores s.stores
  exact K.remeasure <| K.modPkg <| K.set hscope

/-! ### A soft reset -/

theorem State.when_false (s : State) (g : State → State) : s.when false g = s := if_neg Bool.false_ne_true

/-- A field that a soft reset keeps, in a register that entering BOOT leaves aside. -/
theorem softState_reads (h : s.Reads f v) {g : FieldSpec} (hg : f.Row g)
    (hk : (ResetKind.soft.keeps g.keep || ResetKind.soft.measured f.reg g.lo) = true) (ha : f.Aside) (hseq : s.seqState ≠ seqActing) :
    (softState s).Reads f v := by
  have K := ha.kept v
  unfold softState
  extract_lets s0 s1 s3 _ _ s4
  have hs0 : s0.Reads f v := by
    unfold s0
    split
    · exact h
    · rw [decide_eq_false hseq, State.when_false]
      exact K.bootSeqEnded h
  have hs1 : (disableHostChannels s1).Reads f v := K.bootDisableHostChannels <| K.bootSet rfl <| K.bootSet rfl <| K.modSeq hs0
  have hs3 : s3.Reads f v := by
    have hr := hs1.resetRegs hg (resetFields_regs .soft _)
    rw [hk] at hr
    exact hr
  clear_value s3
  have hs4 : s4.Reads f v := hs3.of_regs rfl
  exact K.bootShowFill <| State.each_keeps (P := fun t => t.Reads f v) 4 _ (fun _ _ _ h => K.bootTbsel h) hs4

theorem softState_side (s : State) : (softState s).host.lastStatus = stOk ∧ (softState s).pkg_.supplyOut = s.pkg_.supplyOut := by
  unfold softState
  extract_lets s0 s1 s3 _ _ s4
  clear_value s3
  have hs4 : s4.host.lastStatus = stOk ∧ s4.pkg_.supplyOut = s.pkg_.supplyOut := ⟨rfl, rfl⟩
  have hside : s4.SameSide (showFill (s4.each 4 (fun p s5 =>
      let r : Reg := ⟨.PRG_TBSEL, p, 0, 0⟩
      prgAfter r (s.word r) (s5.word r) s5))) :=
    State.SameSide.set (State.each_keeps 4 _ (fun _ _ _ h => h.tbsel ..) ⟨rfl, rfl⟩) ..
  obtain ⟨hpkg, hhost⟩ := hside
  rw [hhost, hpkg]
  exact hs4

end

section
variable {s : State} {f : Fld} {v : Nat}

/-! ### A soft reset with every die supplied -/

theorem enterBoot_fed {k : ResetKind} (h : s.pkg_.supplyOut % 32 = 0) : (remeasure (enterBoot k s)).pkg_.supplyOut % 32 = 0 := by
  obtain ⟨hpkg, _⟩ := sameSide_remeasure (enterBoot k s)
  rw [hpkg]
  unfold enterBoot State.modPkg
  rw [State.set_pkg_]
  exact h

theorem resetScope_soft_reads (h : s.Reads f v) {g : FieldSpec} (hg : f.Row g)
    (hk : (ResetKind.soft.keeps g.keep || ResetKind.soft.measured f.reg g.lo) = true) (ha : f.Aside)
    (hn : RegName.GLB_STATE ≠ f.reg.name) (hseq : s.seqState ≠ seqActing) (hfed : s.pkg_.supplyOut % 32 = 0) :
    (resetScope .soft s).Reads f v := by
  have hsoft : (softState s).Reads f v := softState_reads h hg hk ha hseq
  rw [resetScope_eq, if_pos rfl]
  obtain ⟨_, hout⟩ := softState_side s
  exact (ha.kept v).bootSupplies_fed (enterBoot_fed (by rw [hout]; exact hfed)) <|
    (ha.kept v).bootRemeasure <| hsoft.enterBoot hn _

/-- The host port's own state is not measured. -/
theorem boot_host (k : ResetKind) (hfed : s.pkg_.supplyOut % 32 = 0) : (bootSupplies (remeasure (enterBoot k s))).host = s.host := by
  have henter : (enterBoot k s).host = s.host := State.set_host s GLB_STATE_STATE pkgBoot
  obtain ⟨_, hhost⟩ := sameSide_remeasure (enterBoot k s)
  exact bootSupplies_fed_keeps (Q := fun t => t.host = s.host) (enterBoot_fed hfed) (fun e w t _ ht => (State.set_host ..).trans ht)
    (hhost.trans henter)

theorem resetScope_soft_status (hfed : s.pkg_.supplyOut % 32 = 0) : (resetScope .soft s).host.lastStatus = stOk := by
  obtain ⟨hstatus, hout⟩ := softState_side s
  rw [resetScope_eq, if_pos rfl, boot_host .soft (by rw [hout]; exact hfed)]
  exact hstatus

/-! ### A package reset that takes place now -/

/-- The state that a package reset of that cause clears: torn and recorded. -/
def recorded (cause : Nat) (s : State) : State := recordReset cause false (tearFlash s)

theorem doReset_eq {k : ResetKind} {cause : Nat} (hstore : s.on HUP_STAT_ON_STORE = false) (hc : watchdogCause cause = false) :
    doReset k cause s = resetScope k (recorded cause s) := by
  unfold doReset
  dsimp only
  rw [hstore, hc, State.when_false, Bool.false_and, if_neg Bool.false_ne_true]
  rfl

theorem packageReset_eq {k : ResetKind} {cause : Nat} (hburn : s.otp.burn = none) (halone : s.resetAlone = true)
    (hstore : s.on HUP_STAT_ON_STORE = false) (hc : watchdogCause cause = false) :
    packageReset k cause s = resetScope k (recorded cause s) := by
  have hhold : s.pkg_.resetHold = false := by
    unfold State.resetAlone at halone
    simp at halone
    exact halone.2
  unfold packageReset
  rw [hburn, hhold, if_neg (by simp), if_neg (by simp)]
  exact doReset_eq hstore hc

theorem recorded_stores (cause : Nat) (s : State) : (recorded cause s).stores = s.stores :=
  (robust_stores s.stores).recordReset (tearFlash_stores s)

theorem recordReset_pkg_ (cause : Nat) (s : State) : (recordReset cause false s).pkg_ = s.pkg_ := by
  have hshift : (shiftHistory s).pkg_ = s.pkg_ := State.each_keeps (P := fun t => t.pkg_ = s.pkg_) 7 _
    (fun _ _ _ h => (State.setWord_pkg_ ..).trans h) rfl
  rw [recordReset_eq]
  unfold recordCause State.bump State.bumpBy
  simp only [State.set_pkg_]
  exact hshift

theorem recorded_pkg_ (cause : Nat) (s : State) : (recorded cause s).pkg_ = s.pkg_ :=
  (recordReset_pkg_ cause _).trans (tearFlash_pkg_ s)

theorem State.Reads.recorded (h : s.Reads f v) (hk : RegName.KLN_HIST ≠ f.reg.name) (hg : RegName.GLB_RESET ≠ f.reg.name)
    (cause : Nat) : (recorded cause s).Reads f v :=
  (h.of_regs (tearFlash_regs s)).recordReset hk hg cause

theorem recorded_count (cause : Nat) (s : State) :
    (recorded cause s).Reads GLB_RESET_RST_CNT (satNat 16 (s.get GLB_RESET_RST_CNT + 1)) := by
  rw [← State.get_of_regs (tearFlash_regs s)]
  exact recordReset_count cause _

/-! ### The fields the reset statements name -/

theorem row_cause : GLB_RESET_CAUSE.Row ⟨0, 8, .ro, .p, []⟩ := ⟨List.mem_cons_self, rfl, rfl⟩
theorem row_count : GLB_RESET_RST_CNT.Row ⟨16, 16, .ro, .p, []⟩ := ⟨List.mem_cons_of_mem _ List.mem_cons_self, rfl, rfl⟩
theorem row_history (i : Nat) : (KLN_HIST_CAUSE i).Row ⟨0, 8, .ro, .p, []⟩ := ⟨List.mem_cons_self, rfl, rfl⟩
theorem row_scratch (i : Nat) : (KLN_SCR_DATA i).Row ⟨0, 32, .rw, .p, []⟩ := ⟨List.mem_cons_self, rfl, rfl⟩
theorem row_outEn (n : Nat) : (OUT_CTL_EN n).Row ⟨0, 1, .rw, .sh, []⟩ := ⟨List.mem_cons_self, rfl, rfl⟩
theorem row_railState (r : Nat) : (PRG_RSTAT_STATE r).Row ⟨0, 3, .ro, .sh, []⟩ := ⟨List.mem_cons_self, rfl, rfl⟩

theorem outEn_resetValue (n : Nat) : (OUT_CTL_EN n).resetValue = 0 := show wordGet 0x1000 0 1 = 0 by decide

theorem Fld.Row.lasts {g : FieldSpec} (hg : f.Row g) (hp : g.keep = .p) (v : Nat) : f.Lasts v := ⟨g, hg, .inl hp⟩

theorem eventOffs_eq : eventOffs = [532484, 8960, 56, 52] := by decide

theorem aside_cause : GLB_RESET_CAUSE.Aside := ⟨rfl, by decide⟩
theorem aside_count : GLB_RESET_RST_CNT.Aside := ⟨rfl, by decide⟩
theorem not_event {n : Nat} (h : n ≠ 532484 ∧ n ≠ 8960 ∧ n ≠ 56 ∧ n ≠ 52) : n ∉ eventOffs := by
  rw [eventOffs_eq]
  simpa using h

/-! A register of the Kiln's history, of its scratch, of an output or of a rail is none that an event writes. -/

theorem aside_history (i : Nat) (hi : i < 8) : (KLN_HIST_CAUSE i).Aside := by
  have hoff : (KLN_HIST_CAUSE i).reg.off = 0x4010 + 4 * i + 0 * 0 + 0 * 0 := rfl
  exact ⟨rfl, not_event (by omega)⟩

theorem aside_scratch (i : Fin 256) : (KLN_SCR_DATA i).Aside := by
  have hoff : (KLN_SCR_DATA i).reg.off = 0x4400 + 4 * i.val + 0 * 0 + 0 * 0 := rfl
  exact ⟨rfl, not_event (by omega)⟩

theorem aside_outEn (n : Fin 48) : (OUT_CTL_EN n).Aside := by
  have hoff : (OUT_CTL_EN n).reg.off = 0x40000 + 0x200 * n.val + 0 * 0 + 0 * 0 := rfl
  exact ⟨rfl, not_event (by omega)⟩

theorem aside_railState (r : Fin 24) : (PRG_RSTAT_STATE r).Aside := by
  have hoff : (PRG_RSTAT_STATE r).reg.off = 0x5002c + 0x4000 * (r.val / 6) + 0x400 * (r.val % 6) + 0 * 0 := rfl
  exact ⟨rfl, not_event (by omega)⟩

/-! ### What the resets leave -/

/-- A package reset has taken place: in BOOT, with its cause and the count, the stores as they were. -/
structure Restarted (s u : State) (cause : Nat) : Prop where
  boot : u.pkg = pkgBoot
  cause : u.get GLB_RESET_CAUSE = cause
  count : u.get GLB_RESET_RST_CNT = satNat 16 (s.get GLB_RESET_RST_CNT + 1)
  stores : u.stores = s.stores

theorem State.stores_flash {s t : State} (h : t.stores = s.stores) : t.flash = s.flash := congrArg Prod.fst h
theorem State.stores_fuse {s t : State} (h : t.stores = s.stores) : t.otp.fuse = s.otp.fuse := congrArg (·.2.1) h
theorem State.stores_pending {s t : State} (h : t.stores = s.stores) : t.pending = s.pending := congrArg (·.2.2) h

theorem resetScope_recorded_stores (k : ResetKind) (cause : Nat) (s : State) : (resetScope k (recorded cause s)).stores = s.stores :=
  (resetScope_stores k _).trans (recorded_stores cause s)

section
variable {k : ResetKind} {cause : Nat}

/-- A P field of the C-die's registers, recorded or not, through a reset other than a soft one. -/
theorem resetScope_kept (hk : k ≠ .soft) (hp : k ≠ .power) (h : s.Reads f v) {g : FieldSpec} (hg : f.Row g) (hgp : g.keep = .p)
    (ha : f.Aside) (hn : RegName.GLB_STATE ≠ f.reg.name) : (resetScope k s).Reads f v :=
  resetScope_reads hk (h.bareState (hg.lasts hgp v) hp) (hg.lasts hgp v) ha hn

theorem restarted_bare (hk : k ≠ .soft) (hp : k ≠ .power) (hc : cause < 256) (s : State) :
    Restarted s (resetScope k (recorded cause s)) cause where
  boot := resetScope_pkg k _
  cause := (resetScope_kept hk hp (recordReset_cause hc _) row_cause rfl aside_cause (by decide)).value
  count := (resetScope_kept hk hp (recorded_count cause s) row_count rfl aside_count (by decide)).value
  stores := resetScope_recorded_stores k cause s

theorem restarted_history (hk : k ≠ .soft) (hp : k ≠ .power) (hc : cause < 256) (s : State) :
    (resetScope k (recorded cause s)).get (KLN_HIST_CAUSE 0) = cause :=
  (resetScope_kept hk hp (recordReset_history hc _) (row_history 0) rfl (aside_history 0 (by decide)) (by decide)).value

theorem restarted_scratch (hk : k ≠ .soft) (hp : k ≠ .power) (h : RegsWf s.regs) (j : Fin 256) :
    (resetScope k (recorded cause s)).get (KLN_SCR_DATA j) = s.get (KLN_SCR_DATA j) := by
  have hn : RegName.KLN_SCR = (KLN_SCR_DATA j).reg.name := rfl
  have hrec : (recorded cause s).Reads (KLN_SCR_DATA j) (s.get (KLN_SCR_DATA j)) :=
    (h.reads _).recorded (by rw [← hn]; decide) (by rw [← hn]; decide) cause
  exact (resetScope_kept hk hp hrec (row_scratch j) rfl (aside_scratch j) (by rw [← hn]; decide)).value

theorem restarted_outEn (h : RegsWf s.regs) (n : Fin 48) : (resetScope .pin (recorded cause s)).get (OUT_CTL_EN n) = 0 := by
  have hn : RegName.OUT_CTL = (OUT_CTL_EN n).reg.name := rfl
  have hrec : (recorded cause s).Reads (OUT_CTL_EN n) (s.get (OUT_CTL_EN n)) :=
    (h.reads _).recorded (by rw [← hn]; decide) (by rw [← hn]; decide) cause
  have hbare := hrec.bareState_cleared (row_outEn n) (k := .pin) rfl
  rw [← outEn_resetValue n]
  exact (resetScope_reads (by decide) hbare ⟨_, row_outEn n, .inr rfl⟩ (aside_outEn n) (by rw [← hn]; decide)).value

/-- What a soft reset keeps, where no action is under way and every die is supplied. -/
theorem restarted_soft_reads (h : RegsWf s.regs) (hseq : s.seqState ≠ seqActing) (hfed : s.pkg_.supplyOut % 32 = 0)
    (hr : (recorded cause s).Reads f v) {g : FieldSpec} (hg : f.Row g) (hk : ResetKind.soft.keeps g.keep = true) (ha : f.Aside)
    (hn : RegName.GLB_STATE ≠ f.reg.name) : (resetScope .soft (recorded cause s)).Reads f v := by
  have hstate : (recorded cause s).seqState = s.seqState := ((h.reads SEQ_STAT_STATE).recorded (by decide) (by decide) cause).value
  exact resetScope_soft_reads hr hg (by rw [hk]; rfl) ha hn (by rw [hstate]; exact hseq) (by rw [recorded_pkg_]; exact hfed)

theorem restarted_soft (hc : cause < 256) (h : RegsWf s.regs) (hseq : s.seqState ≠ seqActing) (hfed : s.pkg_.supplyOut % 32 = 0) :
    Restarted s (resetScope .soft (recorded cause s)) cause where
  boot := resetScope_pkg .soft _
  cause := (restarted_soft_reads h hseq hfed (recordReset_cause hc _) row_cause rfl aside_cause (by decide)).value
  count := (restarted_soft_reads h hseq hfed (recorded_count cause s) row_count rfl aside_count (by decide)).value
  stores := resetScope_recorded_stores .soft cause s

theorem restarted_soft_railState (h : RegsWf s.regs) (hseq : s.seqState ≠ seqActing) (hfed : s.pkg_.supplyOut % 32 = 0) (r : Fin 24) :
    (resetScope .soft (recorded cause s)).railState r = s.railState r := by
  have hn : RegName.PRG_RSTAT = (PRG_RSTAT_STATE r).reg.name := rfl
  have hrec : (recorded cause s).Reads (PRG_RSTAT_STATE r) (s.get (PRG_RSTAT_STATE r)) :=
    (h.reads _).recorded (by rw [← hn]; decide) (by rw [← hn]; decide) cause
  exact (restarted_soft_reads h hseq hfed hrec (row_railState r) rfl (aside_railState r) (by rw [← hn]; decide)).value

theorem restarted_soft_outEn (h : RegsWf s.regs) (hseq : s.seqState ≠ seqActing) (hfed : s.pkg_.supplyOut % 32 = 0) (n : Fin 48) :
    (resetScope .soft (recorded cause s)).get (OUT_CTL_EN n) = s.get (OUT_CTL_EN n) := by
  have hn : RegName.OUT_CTL = (OUT_CTL_EN n).reg.name := rfl
  have hrec : (recorded cause s).Reads (OUT_CTL_EN n) (s.get (OUT_CTL_EN n)) :=
    (h.reads _).recorded (by rw [← hn]; decide) (by rw [← hn]; decide) cause
  exact (restarted_soft_reads h hseq hfed hrec (row_outEn n) rfl (aside_outEn n) (by rw [← hn]; decide)).value

theorem restarted_soft_status (hfed : s.pkg_.supplyOut % 32 = 0) : (resetScope .soft (recorded cause s)).host.lastStatus = stOk :=
  resetScope_soft_status (by rw [recorded_pkg_]; exact hfed)

end

end

section
variable {s : State} {f : Fld} {v : Nat}

/-! ### Everything lost -/

theorem tearFlash_otp (s : State) : (tearFlash s).otp = s.otp := tearFlash_keeps (Q := fun t => t.otp = s.otp) (fun _ _ _ h => h) rfl

theorem loseAll_regs (s : State) : (loseAll s).regs = [] := rfl
theorem loseAll_evtFifo (s : State) : (loseAll s).evtFifo = [] := rfl

theorem loseAll_supplyOut (h : s.otp.burn = none) : (loseAll s).pkg_.supplyOut = s.pkg_.supplyOut := by
  have hlost : (loseAll s).pkg_.supplyOut = (tearFlash (tearBurn s)).pkg_.supplyOut := rfl
  rw [hlost, tearBurn_none h, tearFlash_pkg_]

theorem State.word_of_nil (h : s.regs = []) (q : Reg) : s.word q = q.reset := by
  unfold State.word
  rw [h]
  rfl

theorem loseAll_reads (s : State) (f : Fld) : (loseAll s).Reads f f.resetValue :=
  ⟨fun _ _ h => absurd h List.not_mem_nil, congrArg (wordGet · f.lo f.w) (State.word_of_nil (loseAll_regs s) f.reg)⟩

/-- The hub OFF, with nothing kept. -/
def kilnLost (s : State) : State := ((loseAll s).set GLB_STATE_STATE pkgOff).modPkg (fun x => { x with kilnLost := true })

theorem kilnLost_pkg (s : State) : (kilnLost s).pkg = pkgOff :=
  ((State.reads_set (loseAll s) GLB_STATE_STATE pkgOff (by decide)).modPkg _).value

theorem kilnLost_stores (h : s.otp.burn = none) : (kilnLost s).stores = s.stores :=
  (robust_stores _).modPkg <| (robust_stores _).set (loseAll_stores h)

theorem kilnLost_word (s : State) (q : Reg) (hq : q.off ≠ Fld.off GLB_STATE_STATE) : (kilnLost s).word q = q.reset :=
  (State.word_set_ne _ GLB_STATE_STATE pkgOff (fun h => hq (congrArg Reg.off h.symm))).trans (State.word_of_nil (loseAll_regs s) q)

/-! ### Power-on -/

theorem powerOn_entry_reads (s : State) (hn : RegName.KLN_HIST ≠ f.reg.name) :
    ((loseAll s).set (KLN_HIST_CAUSE 0) 0x10).Reads f f.resetValue :=
  (loseAll_reads s f).set_name hn

theorem powerOn_pkg (s : State) : (powerOn s).pkg = pkgBoot :=
  bootSupplies_pkg (powerOn_entry_reads (f := GLB_STATE_STATE) s (by decide))

theorem powerOn_history (s : State) : (powerOn s).get (KLN_HIST_CAUSE 0) = 0x10 :=
  (State.Reads.bootSupplies (State.reads_set _ (KLN_HIST_CAUSE 0) 0x10 (by decide)) ((row_history 0).lasts rfl _) rfl).value

theorem powerOn_cause (s : State) : (powerOn s).get GLB_RESET_CAUSE = 0x10 :=
  (State.Reads.bootSupplies (powerOn_entry_reads (f := GLB_RESET_CAUSE) s (by decide)) (row_cause.lasts rfl _) rfl).value

theorem powerOn_stores (h : s.otp.burn = none) : (powerOn s).stores = s.stores :=
  (bootSupplies_stores _).trans <| (robust_stores _).set (loseAll_stores h)

theorem powerOn_evtFifo (s : State) : (powerOn s).evtFifo = [] :=
  bootSupplies_evtFifo (p := fun l => l = []) rfl ((State.set_evtFifo ..).trans (loseAll_evtFifo s))

theorem powerOn_kilnLost (s : State) : (powerOn s).pkg_.kilnLost = false :=
  bootSupplies_kilnLost (by rw [State.set_pkg_]; rfl)

/-- A field written with the value it has leaves every word. -/
theorem word_set_of_get {f : Fld} {v : Nat} (h : s.get f = v) (q : Reg) : (s.set f v).word q = s.word q := by
  have hword : wordSet (s.word f.reg) f.lo f.w v = s.word f.reg := by
    rw [← h]
    exact wordSet_wordGet _ _ _
  unfold State.set
  rw [hword]
  by_cases hq : f.reg = q
  · rw [← hq, State.word_setWord_same]
  · exact State.word_setWord_ne _ _ _ hq

/-- Every supply is in its band, and every register but the last cause's is at its reset value. -/
structure State.AtReset (s : State) : Prop where
  out : s.pkg_.supplyOut = 0
  word : ∀ q : Reg, q.off ≠ Fld.off (KLN_HIST_CAUSE 0) → s.word q = q.reset

theorem State.AtReset.set (h : s.AtReset) (hf : f.off ≠ Fld.off (KLN_HIST_CAUSE 0)) (hv : v = f.resetValue) : (s.set f v).AtReset := by
  have hget : s.get f = v := hv ▸ congrArg (wordGet · f.lo f.w) (h.word f.reg hf)
  exact ⟨(State.set_pkg_ s f v) ▸ h.out, fun q hq => (word_set_of_get hget q).trans (h.word q hq)⟩

theorem State.AtReset.fed (h : s.AtReset) : s.pkg_.supplyOut % 32 = 0 := by rw [h.out]

theorem State.AtReset.showSupply (h : s.AtReset) : (showSupply s).AtReset := by
  have hnone : maskOf 4 s.dieStarved = 0 := by simp [maskOf, dieStarved_fed h.fed]
  unfold Machine.showSupply
  rw [hnone]
  exact h.set (by decide) (by decide)

theorem State.AtReset.bootSupplies (h : s.AtReset) : (bootSupplies s).AtReset := by
  unfold Machine.bootSupplies
  rw [holdDies_fed h.showSupply.fed]
  refine State.each_keeps 24 _ (fun r _ t ht => ht.set ?_ ?_) h.showSupply
  · have hoff : Fld.off (FLT_RSTAT_SUP_HELD r) = 0x64014 + 0x40 * r + 0 * 0 + 0 * 0 := rfl
    rw [hoff, show Fld.off (KLN_HIST_CAUSE 0) = 0x4010 from rfl]
    omega
  · rw [ht.out, Nat.zero_div]
    show 0 = wordGet 0 6 1
    decide

/-- With every supply in its band, the registers that BOOT's supplies write stay at their reset values. -/
theorem powerOn_word (hburn : s.otp.burn = none) (hout : s.pkg_.supplyOut = 0) (q : Reg) (hq : q.off ≠ Fld.off (KLN_HIST_CAUSE 0)) :
    (powerOn s).word q = q.reset := by
  have hentry : ((loseAll s).set (KLN_HIST_CAUSE 0) 0x10).AtReset := by
    refine ⟨by rw [State.set_pkg_, loseAll_supplyOut hburn, hout], fun q hq => ?_⟩
    rw [State.word_set_ne _ (KLN_HIST_CAUSE 0) _ fun h => hq (congrArg Reg.off h.symm)]
    exact State.word_of_nil (loseAll_regs s) q
  exact hentry.bootSupplies.word q hq

/-! ### HK0's output -/

/-- BOOT entered from an OFF that kept the Kiln. -/
def hk0Entry (s : State) : State :=
  ((recordReset 0x11 false s).set GLB_STATE_STATE pkgBoot).modPkg (fun x => { x with resetDue := true })

theorem hk0Entry_reads (h : (recordReset 0x11 false s).Reads f v) (hn : RegName.GLB_STATE ≠ f.reg.name) : (hk0Entry s).Reads f v :=
  (h.set_name hn).modPkg _

theorem hk0Boot_reads (h : (recordReset 0x11 false s).Reads f v) {g : FieldSpec} (hg : f.Row g) (hp : g.keep = .p)
    (hn : [RegName.GLB_DIE, .FLT_RSTAT, .GLB_STATE].contains f.reg.name = false) : (bootSupplies (hk0Entry s)).get f = v := by
  have hstate : RegName.GLB_STATE ≠ f.reg.name := fun e => by rw [← e] at hn; cases hn
  exact ((hk0Entry_reads h hstate).bootSupplies (hg.lasts hp v) hn).value

theorem hk0Boot_pkg (s : State) : (bootSupplies (hk0Entry s)).pkg = pkgBoot :=
  bootSupplies_pkg ((State.reads_set _ GLB_STATE_STATE pkgBoot (by decide)).modPkg _)

theorem hk0Boot_stores (s : State) : (bootSupplies (hk0Entry s)).stores = s.stores := by
  have K := robust_stores s.stores
  exact (bootSupplies_stores _).trans <| K.modPkg <| K.set <| K.recordReset rfl

/-- The hub OFF, the Kiln kept. -/
def kilnKept (s : State) : State := (bareState .supply s).set GLB_STATE_STATE pkgOff

theorem kilnKept_pkg (s : State) : (kilnKept s).pkg = pkgOff := (State.reads_set _ GLB_STATE_STATE pkgOff (by decide)).value

theorem kilnKept_stores (s : State) : (kilnKept s).stores = s.stores := (robust_stores _).set (bareState_stores .supply s)

theorem kilnKept_evtFifo (s : State) : (kilnKept s).evtFifo = [] := (State.set_evtFifo ..).trans (bareState_evtFifo .supply s)

theorem kilnKept_scratch (h : RegsWf s.regs) (j : Fin 256) : (kilnKept s).get (KLN_SCR_DATA j) = s.get (KLN_SCR_DATA j) := by
  have hn : RegName.GLB_STATE ≠ (KLN_SCR_DATA j).reg.name := show RegName.GLB_STATE ≠ .KLN_SCR by decide
  exact (((h.reads _).bareState ((row_scratch j).lasts rfl _) (by decide)).set_name hn).value

theorem kilnKept_outEn (h : RegsWf s.regs) (n : Fin 48) : (kilnKept s).get (OUT_CTL_EN n) = 0 := by
  have hn : RegName.GLB_STATE ≠ (OUT_CTL_EN n).reg.name := show RegName.GLB_STATE ≠ .OUT_CTL by decide
  have hbare := (h.reads (OUT_CTL_EN n)).bareState_cleared (row_outEn n) (k := .supply) rfl
  rw [outEn_resetValue] at hbare
  exact (hbare.set_name hn).value

theorem hk0Lost_kept {s : State} (h : s.on KLN_STAT_VAUX_OK = true) : hk0Lost s = kilnKept s := if_pos h
theorem hk0Lost_lost {s : State} (h : s.on KLN_STAT_VAUX_OK = false) : hk0Lost s = kilnLost s := if_neg (Bool.eq_false_iff.1 h)

end

section
variable {s t : State} {f : Fld} {v : Nat}

/-! ### The soft reset's two ways in (R278, R426) -/

/-- The state is the other but for the registers that a command's completion or the write of GLB_CMD writes. -/
structure Prelude (s t : State) : Prop where
  wf : RegsWf s.regs → RegsWf t.regs
  otp : t.otp = s.otp
  pkg : t.pkg_ = s.pkg_
  stores : t.stores = s.stores
  get : ∀ f : Fld, f.off ∉ Reg.off ⟨.GLB_CMD, 0, 0, 0⟩ :: viaOffs (.mbx 0) → t.get f = s.get f

/-- The command taken and completed, its change not yet made. -/
def softTaken (v : CmdVia) (s : State) : State :=
  match v with
  | .ring => s.modHost (fun h => { h with lastStatus := stOk, lastResult := 0 })
  | .mbx k => mbxDone 0x02 stOk 0 ((mbxTake k s).modHost (fun h => { h with lastStatus := stOk, lastResult := 0 }))

theorem Kept.modHost {ok : Reg → Prop} {P : State → Prop} (K : Kept ok P) {g : HostInt → HostInt} (hs : P s) : P (s.modHost g) :=
  K.beside hs rfl

theorem mbxTake_keeps {ok : Reg → Prop} {P : State → Prop} {k : Nat} (K : Kept ok P) (hok : ok ⟨.MGT_MBX_CTL, 0, 0, 0⟩) (hs : P s) :
    P (mbxTake k s) :=
  K.set MGT_MBX_CTL_OWNER k hok <| K.set MGT_MBX_CTL_DONE 0 hok <| K.set MGT_MBX_CTL_BUSY 1 hok hs

theorem softTaken_keeps {P : State → Prop} {v : CmdVia} (K : Kept (fun r => r.off ∈ viaOffs v) P) (hs : P s) : P (softTaken v s) := by
  cases v with
  | ring =>
    unfold softTaken
    exact K.modHost hs
  | mbx k =>
    have hctl : Reg.off ⟨.MGT_MBX_CTL, 0, 0, 0⟩ ∈ viaOffs (.mbx k) := List.mem_cons_self
    have hres : Reg.off ⟨.MGT_MBX_RES, 0, 0, 0⟩ ∈ viaOffs (.mbx k) := List.mem_cons_of_mem _ List.mem_cons_self
    have hevt : Reg.off ⟨.MGT_EVT, 0, 0, 0⟩ ∈ viaOffs (.mbx k) := List.mem_cons_of_mem _ (List.mem_cons_of_mem _ List.mem_cons_self)
    have htake : P (mbxTake k s) := mbxTake_keeps K hctl hs
    unfold softTaken mbxDone
    exact K.raise MGT_EVT_EVT _ _ _ _ hevt (fun r hr => List.mem_append_right _ hr) <| K.set MGT_MBX_RES_RESULT _ hres <|
      K.set MGT_MBX_CTL_STATUS _ hctl <| K.set MGT_MBX_CTL_DONE _ hctl <| K.set MGT_MBX_CTL_BUSY _ hctl <| K.modHost htake

theorem softTaken_otp (v : CmdVia) (s : State) : (softTaken v s).otp = s.otp := by
  cases v with
  | ring => rfl
  | mbx k => simp [softTaken, mbxDone, mbxTake, State.raise, State.setBit_eq, State.modHost]

theorem softTaken_pkg_ (v : CmdVia) (s : State) : (softTaken v s).pkg_ = s.pkg_ := by
  cases v with
  | ring => rfl
  | mbx k => simp [softTaken, mbxDone, mbxTake, State.raise, State.setBit_eq, State.modHost]

theorem softTaken_status (v : CmdVia) (s : State) : (softTaken v s).host.lastStatus = stOk := by
  cases v with
  | ring => rfl
  | mbx k => simp [softTaken, mbxDone, mbxTake, State.raise, State.setBit_eq, State.modHost]

theorem prelude_softTaken (v : CmdVia) (s : State) : Prelude s (softTaken v s) where
  wf h := softTaken_keeps (kept_regsWf.mono fun _ _ => trivial) h
  otp := softTaken_otp v s
  pkg := softTaken_pkg_ v s
  stores := softTaken_keeps ((robust_stores s.stores).toKept.mono fun _ _ => trivial) rfl
  get f hf := by
    refine softTaken_keeps ((kept_get f _).mono fun r hr he => hf ?_) rfl
    rw [show f.off = r.off from congrArg Reg.off he.symm]
    cases v with
    | ring => cases hr
    | mbx k => exact List.mem_cons_of_mem _ hr

/-- The state in which a command's effect begins. -/
def cmdEntry (v : CmdVia) (s : State) : State :=
  match v with
  | .ring => s
  | .mbx k => mbxTake k s

theorem cmdEntry_get {v : CmdVia} (hf : f.off ≠ Reg.off ⟨.MGT_MBX_CTL, 0, 0, 0⟩) : (cmdEntry v s).get f = s.get f := by
  cases v with
  | ring => rw [show cmdEntry .ring s = s from rfl]
  | mbx k =>
    rw [show cmdEntry (.mbx k) s = mbxTake k s from rfl]
    exact mbxTake_keeps (kept_get f _) (fun he => hf (congrArg Reg.off he.symm)) rfl

/-- A command that takes effect and leaves the state is completed, and its change follows. -/
theorem directThen_ok {v : CmdVia} {g : State → CmdRes} {after : State → State} (htake : s.takesCmd v = true)
    (hg : g (cmdEntry v s) = cmdOk (cmdEntry v s)) : directThen v 0x02 g after s = after (softTaken v s) := by
  unfold directThen
  rw [if_pos htake]
  cases v with
  | ring =>
    rw [show g s = cmdOk s from hg]
    simp [cmdOk, softTaken, stOk, stIgnored, stDeferred]
  | mbx k =>
    rw [show g (mbxTake k s) = cmdOk (mbxTake k s) from hg]
    simp [cmdOk, softTaken, stOk, stIgnored, stDeferred]

theorem active_of_takesCmd {v : CmdVia} (h : s.takesCmd v = true) : s.active = true := by
  cases v with
  | ring =>
    unfold State.takesCmd at h
    simp only [Bool.and_eq_true] at h
    exact h.1
  | mbx k =>
    unfold State.takesCmd State.mbxOpen at h
    simp only [Bool.and_eq_true] at h
    exact h.1.1.1

theorem isolated_of_get (h : t.get GLB_DIE_ISOLATED = s.get GLB_DIE_ISOLATED) (d : Nat) : t.isolated d = s.isolated d := by
  unfold State.isolated State.bit
  rw [h]

theorem stateOk_soft_of_get (hs : t.get GLB_STATE_STATE = s.get GLB_STATE_STATE) (hd : t.get GLB_DIE_ISOLATED = s.get GLB_DIE_ISOLATED)
    (hactive : s.active = true) (hres : s.resettable = true) : t.stateOk 8 = true := by
  have hok : t.stateOk 8 = (t.active && t.resettable) := rfl
  have hpkg : t.pkg = s.pkg := hs
  have hiso : t.isolated dieC = s.isolated dieC := isolated_of_get hd dieC
  unfold State.active at hactive
  unfold State.resettable at hres
  rw [hok]
  unfold State.active State.resettable
  rw [hpkg, hiso, hactive, hres]
  rfl

/-- A taken state command is completed before its change is made. -/
theorem exec_softReset_cmd {v : CmdVia} (htake : s.takesCmd v = true) (hiso : s.isolated dieC = false) (hres : s.resettable = true) :
    exec (.softReset (.cmd v)) s = .next (packageReset .soft 0x60 (softTaken v s)) := by
  have hentry : ∀ f : Fld, f.off ≠ Reg.off ⟨.MGT_MBX_CTL, 0, 0, 0⟩ → (cmdEntry v s).get f = s.get f := fun _ hf => cmdEntry_get hf
  have hok : (cmdEntry v s).stateOk 8 = true :=
    stateOk_soft_of_get (hentry _ (by decide)) (hentry _ (by decide)) (active_of_takesCmd htake) hres
  have hdie : (cmdEntry v s).isolated dieC = false := (isolated_of_get (hentry _ (by decide)) dieC).trans hiso
  have hafter : (softTaken v s).isolated dieC = false :=
    (isolated_of_get ((prelude_softTaken v s).get _ (by decide)) dieC).trans hiso
  have hjudged : onDie dieC (fun s => if s.stateOk 8 then cmdOk s else cmdIgnored s) (cmdEntry v s) = cmdOk (cmdEntry v s) := by
    unfold onDie
    rw [hdie, if_neg Bool.false_ne_true]
    exact if_pos hok
  have hthen := directThen_ok (after := fun s => if s.isolated dieC then s else stateChange 8 0x60 s) htake hjudged
  have hexec : exec (.softReset (.cmd v)) s = .next (directThen v 0x02 (onDie dieC (fun s => if s.stateOk 8 then cmdOk s else cmdIgnored s))
      (fun s => if s.isolated dieC then s else stateChange 8 0x60 s) s) := rfl
  rw [hexec, hthen, hafter, if_neg Bool.false_ne_true]
  rfl

/-! ### The write of GLB_CMD -/

/-- The word stored, its change not yet made. -/
def softWritten (w : Word) (s : State) : State :=
  s.setWord ⟨.GLB_CMD, 0, 0, 0⟩ (Reg.stored ⟨.GLB_CMD, 0, 0, 0⟩ w (s.word ⟨.GLB_CMD, 0, 0, 0⟩))

theorem prelude_softWritten (w : Word) (s : State) : Prelude s (softWritten w s) where
  wf h := h.store _ _
  otp := rfl
  pkg := rfl
  stores := rfl
  get f hf := by
    refine (kept_get f _).word s _ _ (fun he => hf ?_) rfl
    rw [show f.off = Reg.off ⟨.GLB_CMD, 0, 0, 0⟩ from congrArg Reg.off he.symm]
    exact List.mem_cons_self

/-- The C-die's paths write GLB_CMD, and ENG0, which is on that die too. -/
theorem die_of_accepts {p : Path} {new : Word} (h : s.accepts p ⟨.GLB_CMD, 0, 0, 0⟩ new = true) : Path.die p = dieC := by
  have hrule : pkgRule p ⟨.GLB_CMD, 0, 0, 0⟩ (s.word ⟨.GLB_CMD, 0, 0, 0⟩) new s = true := by
    unfold State.accepts blockRule at h
    simp only [Bool.and_eq_true] at h
    tauto
  have hmine : (p = .boot || s.secure p) = true := by
    have hcmd : pkgRule p ⟨.GLB_CMD, 0, 0, 0⟩ (s.word ⟨.GLB_CMD, 0, 0, 0⟩) new s
        = ((p = .boot || s.secure p) && s.stateOk (wordGet new 0 4)) := rfl
    rw [hcmd, Bool.and_eq_true] at hrule
    exact hrule.1
  cases p with
  | eng e =>
    have hzero : e.val = 0 := by
      simp [State.secure, State.writer] at hmine
      omega
    show dieOfEngine e.val = dieC
    rw [hzero]
    rfl
  | _ => rfl

theorem exec_softReset_write {p : Path} {w : Word} (h : s.takesWrite p ⟨.GLB_CMD, 0, 0, 0⟩ (wordSet w 0 4 8)) :
    exec (.softReset (.write p w)) s = .next (packageReset .soft 0x61 (softWritten (wordSet w 0 4 8) s)) := by
  obtain ⟨hopen, hreach, _, haccept⟩ := h
  have hexec : exec (.softReset (.write p w)) s = .next (regWriteBe p (Reg.off ⟨.GLB_CMD, 0, 0, 0⟩) 15 (wordSet w 0 4 8) s).2 := rfl
  have hlink : s.linked (Path.die p) (dieOfOff (Reg.off ⟨.GLB_CMD, 0, 0, 0⟩)) = true := by
    rw [die_of_accepts haccept]
    rfl
  have hreg : Reg.ofOff (Reg.off ⟨.GLB_CMD, 0, 0, 0⟩) = some ⟨.GLB_CMD, 0, 0, 0⟩ := by decide
  have hcode : wordGet (wordSet w 0 4 8) 0 4 = 8 := wordGet_wordSet w 0 4 8 (by decide)
  have happly : applyWrite p ⟨.GLB_CMD, 0, 0, 0⟩ (wordSet w 0 4 8) s
      = stateChange (wordGet (wordSet w 0 4 8) 0 4) 0x61 (softWritten (wordSet w 0 4 8) s) := rfl
  rw [hexec]
  unfold regWriteBe
  dsimp only
  rw [hopen, hreach, hreg]
  dsimp only
  rw [hlink, haccept, happly, hcode]
  rfl

end

section
variable {s t : State} {f : Fld} {v : CmdVia} {cause : Nat}

/-- A soft reset, from where its command's completion or its write leaves the hub. -/
structure SoftRestarted (s u : State) (cause : Nat) : Prop extends Restarted s u cause where
  rail : ∀ r : Fin 24, u.railState r = s.railState r
  unit : ∀ n : Fin 48, u.get (OUT_CTL_EN n) = s.get (OUT_CTL_EN n)
  status : u.host.lastStatus = stOk

theorem aside_of_event {n : Nat} (h : 0x10000 ≤ n ∧ n < 0x60000) : n ∉ Reg.off ⟨.GLB_CMD, 0, 0, 0⟩ :: viaOffs (.mbx 0) := by
  have hlist : Reg.off ⟨.GLB_CMD, 0, 0, 0⟩ :: viaOffs (.mbx 0) = [12, 9280, 9284, 9344, 532484, 8960, 56, 52] := by decide
  rw [hlist]
  simp only [List.mem_cons, List.not_mem_nil, or_false, not_or]
  omega

theorem Prelude.softReset (hp : Prelude s t) (hc : watchdogCause cause = false) (hcause : cause < 256) (hwf : RegsWf s.regs)
    (hseq : s.seqState ≠ seqActing) (hfed : s.pkg_.supplyOut % 32 = 0) (halone : s.resetAlone = true) (hburn : s.otp.burn = none)
    (hstore : s.on HUP_STAT_ON_STORE = false) : SoftRestarted s (packageReset .soft cause t) cause := by
  have hwf' := hp.wf hwf
  have hseq' : t.seqState ≠ seqActing := (hp.get SEQ_STAT_STATE (by decide)).trans_ne hseq
  have hfed' : t.pkg_.supplyOut % 32 = 0 := by rw [hp.pkg]; exact hfed
  have halone' : t.resetAlone = true := by
    unfold State.resetAlone at halone ⊢
    rw [hp.otp, hp.pkg]
    exact halone
  have hstore' : t.on HUP_STAT_ON_STORE = false := by
    unfold State.on at hstore ⊢
    rw [hp.get HUP_STAT_ON_STORE (by decide)]
    exact hstore
  rw [packageReset_eq (by rw [hp.otp]; exact hburn) halone' hstore' hc]
  have hr := restarted_soft hcause hwf' hseq' hfed'
  have hrail : ∀ r : Fin 24, t.railState r = s.railState r := fun r => hp.get (PRG_RSTAT_STATE r) <| aside_of_event <| by
    have hoff : (PRG_RSTAT_STATE r).off = 0x5002c + 0x4000 * (r.val / 6) + 0x400 * (r.val % 6) + 0 * 0 := rfl
    omega
  have hunit : ∀ n : Fin 48, t.get (OUT_CTL_EN n) = s.get (OUT_CTL_EN n) := fun n => hp.get (OUT_CTL_EN n) <| aside_of_event <| by
    have hoff : (OUT_CTL_EN n).off = 0x40000 + 0x200 * n.val + 0 * 0 + 0 * 0 := rfl
    omega
  exact {
    boot := hr.boot
    cause := hr.cause
    count := hr.count.trans (by rw [hp.get GLB_RESET_RST_CNT (by decide)])
    stores := hr.stores.trans hp.stores
    rail := fun r => (restarted_soft_railState hwf' hseq' hfed' r).trans (hrail r)
    unit := fun n => (restarted_soft_outEn hwf' hseq' hfed' n).trans (hunit n)
    status := restarted_soft_status hfed' }

/-! ### A soft reset that waits for a burn -/

theorem softTaken_frame (v : CmdVia) (s : State) : Frame s (softTaken v s) ([] ++ viaOffs v) :=
  softTaken_keeps (kept_frame s _) (Frame.refl s _)

/-- An event of the C-die raised where none has been posted since: it is the one posted. -/
theorem posts_raise (hseq : t.evtSeq = s.evtSeq) (hfifo : t.evtFifo = s.evtFifo) {code src : Nat} (hdie : evtDie code src = dieC)
    (f : Fld) (i : Nat) (body : List (Nat × Nat)) : Posts s (t.raise f i code src body) [(code, src)] := by
  have hlink : ∀ x : State, x.linked (evtDie code src) dieC = true := fun x => by
    rw [hdie]
    rfl
  have hm : [(code, src)].filter (fun e => s.linked (evtDie e.1 e.2) dieC) = [(code, src)] := by
    simp [hlink]
  unfold Posts
  rw [hm]
  unfold State.raise State.pushEvt
  rw [if_pos (hlink _), State.setBit_eq]
  refine ⟨(State.postEvt_evtSeq ..).trans (congrArg (· + 1) hseq), fun hroom => ?_⟩
  have hcodes := State.postEvt_codes (t.set f (bitPut (t.get f) i true)) code src (packBody body) (by
    rw [State.set_evtFifo, hfifo]
    simpa using hroom)
  have hthree := congrArg (List.map fun e => (e.1, e.2.1, e.2.2.1)) hcodes
  rw [State.set_evtFifo, State.set_evtSeq, hfifo, hseq] at hthree
  simpa [Function.comp_def] using hthree

theorem softTaken_posts (v : CmdVia) (s : State) : Posts s (softTaken v s) (viaEvt v) := by
  cases v with
  | ring => exact ⟨rfl, fun _ => (List.append_nil _).symm⟩
  | mbx k =>
    unfold softTaken mbxDone
    exact posts_raise (by simp [mbxTake, State.modHost]) (by simp [mbxTake, State.modHost]) rfl ..

/-- The reset noted, to follow the burn. -/
theorem packageReset_waits {k : ResetKind} (hburn : t.otp.burn.isSome = true) (hdue : t.otp.due = none) :
    packageReset k cause t = t.modOtp (fun o => { o with due := some (k.code, cause) }) := by
  unfold packageReset State.modOtp
  rw [if_pos hburn]
  simp only [hdue]

theorem frame_modOtp {offs : List Nat} (h : Frame s t offs) {g : OtpInt → OtpInt} (hg : (g t.otp).fuse = t.otp.fuse) :
    Frame s (t.modOtp g) offs :=
  (kept_frame s offs).beside h (by simp only [State.modOtp, hg])

/-! ### The statement's clauses -/

theorem exec_powerOnReset (s : State) : exec .powerOnReset s = .next (powerOn s) := rfl
theorem exec_kilnSupplyLoss (s : State) : exec .kilnSupplyLoss s = .next (kilnLost s) := rfl

theorem exec_hk0InRegulation_lost (hoff : s.pkg = pkgOff) (hlost : s.pkg_.kilnLost = true) :
    exec .hk0InRegulation s = .next (powerOn s) := by
  show execHk0InRegulation s = _
  unfold execHk0InRegulation
  rw [if_neg (not_not.2 hoff), if_pos hlost]

theorem exec_hk0InRegulation_kept (hoff : s.pkg = pkgOff) (hkept : s.pkg_.kilnLost = false) :
    exec .hk0InRegulation s = .next (bootSupplies (hk0Entry s)) := by
  show execHk0InRegulation s = _
  unfold execHk0InRegulation hk0Entry
  rw [if_neg (not_not.2 hoff), hkept, if_neg Bool.false_ne_true]

theorem exec_supplyLoss (hoff : s.pkg ≠ pkgOff) (hkeep : s.pkg ≠ pkgKeep) (hburn : s.otp.burn = none) :
    exec .supplyLoss s = .next (hk0Lost (tearFlash s)) := by
  show execSupplyLoss s = _
  unfold execSupplyLoss
  rw [if_neg (not_or.2 ⟨hoff, hkeep⟩), tearBurn_none hburn]

theorem tearFlash_on (f : Fld) (s : State) : (tearFlash s).on f = s.on f := by
  unfold State.on
  rw [State.get_of_regs (tearFlash_regs s)]

theorem exec_pinReset (hoff : s.pkg ≠ pkgOff) (halone : s.resetAlone = true) (hburn : s.otp.burn = none)
    (hstore : s.on HUP_STAT_ON_STORE = false) : exec .pinReset s = .next (resetScope .pin (recorded 0x20 s)) := by
  show execPinReset s = _
  unfold execPinReset
  rw [if_neg hoff, packageReset_eq hburn halone hstore rfl]

theorem exec_pinReset_off (hoff : s.pkg = pkgOff) : exec .pinReset s = .next s := by
  show execPinReset s = _
  unfold execPinReset
  rw [if_pos hoff]

/-- The monitors frozen as the main LO stops. -/
def loStopped (s : State) : State := freezeMonitors (s.modPkg (fun x => { x with loRuns := false }))

theorem loStopped_keeps {P : State → Prop} (K : Kept (fun r => r.name = .MON_STAT) P) (hs : P s) : P (loStopped s) := by
  unfold loStopped freezeMonitors
  exact State.each_keeps 16 _ (fun m _ _ h => K.set (MON_STAT_FROZEN m) 1 rfl h) (K.beside hs rfl)

theorem loStopped_get (f : Fld) (hf : RegName.MON_STAT ≠ f.reg.name) : (loStopped s).get f = s.get f :=
  loStopped_keeps ((kept_get f _).mono fun r hr => Reg.ne_of_name (by rw [hr]; exact hf)) rfl

theorem loStopped_otp (s : State) : (loStopped s).otp = s.otp := by
  unfold loStopped freezeMonitors
  exact State.each_keeps (P := fun t => t.otp = s.otp) 16 _ (fun _ _ _ h => (State.set_otp ..).trans h) rfl

theorem loStopped_resetHold (s : State) : (loStopped s).pkg_.resetHold = s.pkg_.resetHold := by
  unfold loStopped freezeMonitors
  exact State.each_keeps (P := fun t => t.pkg_.resetHold = s.pkg_.resetHold) 16 _ (fun _ _ _ h => by rw [State.set_pkg_]; exact h) rfl

theorem exec_loLossReset (hres : s.resettable = true) (halone : s.resetAlone = true) (hburn : s.otp.burn = none)
    (hstore : s.on HUP_STAT_ON_STORE = false) : exec .loLossReset s = .next (resetScope .lo (recorded 0x50 (loStopped s))) := by
  have hpkg : ¬ (s.pkg = pkgOff ∨ s.pkg = pkgKeep) := by
    unfold State.resettable at hres
    simp only [Bool.and_eq_true, decide_eq_true_eq] at hres
    exact not_or.2 hres.1
  have halone' : (loStopped s).resetAlone = true := by
    unfold State.resetAlone at halone ⊢
    rw [loStopped_otp, loStopped_resetHold]
    exact halone
  have hstore' : (loStopped s).on HUP_STAT_ON_STORE = false := by
    unfold State.on at hstore ⊢
    rw [loStopped_get _ (by decide)]
    exact hstore
  rw [← packageReset_eq (by rw [loStopped_otp]; exact hburn) halone' hstore' rfl]
  show execLoLossReset s = _
  unfold execLoLossReset
  rw [if_neg hpkg, hres, if_pos rfl]
  rfl

/-- Settles O32: each reset by what its record, its clearing of the fields and BOOT's supplies leave of the fields that the statement
names, and of the event FIFO and the stores. -/
theorem packageResets : Obligations.PackageResets := by
  unfold Obligations.PackageResets
  refine ⟨fun s hburn => ?_, fun s hburn => ?_, fun s hoff hlost hburn => ?_, fun s hoff hkept => ?_,
    fun s hoff hkeep hburn haux hwf => ?_, fun s hoff hkeep hburn haux => ?_, fun s hoff hwf halone hburn hstore => ?_,
    fun s hoff => ⟨s, exec_pinReset_off hoff, rfl⟩, fun s hres hwf halone hburn hstore => ?_,
    fun v s htake hiso hres hwf hseq hfed halone hburn hstore => ?_, fun p w s htake hres hwf hseq hfed halone hburn hstore => ?_,
    fun v s htake hiso hres hburn hdue => ?_⟩
  · have hst := powerOn_stores hburn
    exact ⟨_, exec_powerOnReset s, powerOn_pkg s, powerOn_history s, powerOn_cause s, State.stores_flash hst, State.stores_fuse hst,
      State.stores_pending hst, powerOn_evtFifo s, powerOn_word hburn⟩
  · have hst := kilnLost_stores hburn
    exact ⟨_, exec_kilnSupplyLoss s, kilnLost_pkg s, rfl, State.stores_flash hst, State.stores_fuse hst, kilnLost_word s⟩
  · have hst := powerOn_stores hburn
    exact ⟨_, exec_hk0InRegulation_lost hoff hlost, powerOn_pkg s, powerOn_history s, powerOn_kilnLost s, State.stores_flash hst,
      State.stores_fuse hst, State.stores_pending hst⟩
  · have hst := hk0Boot_stores s
    exact ⟨_, exec_hk0InRegulation_kept hoff hkept, hk0Boot_pkg s, hk0Boot_reads (recordReset_cause (by decide) s) row_cause rfl rfl,
      hk0Boot_reads (recordReset_history (by decide) s) (row_history 0) rfl rfl,
      hk0Boot_reads (recordReset_history_one _ s) (row_history 1) rfl rfl,
      hk0Boot_reads (recordReset_count _ s) row_count rfl rfl, State.stores_flash hst, State.stores_fuse hst, State.stores_pending hst⟩
  · have hst := (kilnKept_stores (tearFlash s)).trans (tearFlash_stores s)
    have hwf' : RegsWf (tearFlash s).regs := by rw [tearFlash_regs]; exact hwf
    refine ⟨_, exec_supplyLoss hoff hkeep hburn, ?_⟩
    rw [hk0Lost_kept (by rw [tearFlash_on]; exact haux)]
    exact ⟨kilnKept_pkg _, State.stores_fuse hst, State.stores_flash hst, kilnKept_evtFifo _,
      fun j => (kilnKept_scratch hwf' j).trans (State.get_of_regs (tearFlash_regs s) _), kilnKept_outEn hwf', State.stores_pending hst⟩
  · have hst := (kilnLost_stores (s := tearFlash s) (by rw [tearFlash_otp]; exact hburn)).trans (tearFlash_stores s)
    refine ⟨_, exec_supplyLoss hoff hkeep hburn, ?_⟩
    rw [hk0Lost_lost (by rw [tearFlash_on]; exact haux)]
    exact ⟨kilnLost_pkg _, rfl, State.stores_flash hst, State.stores_fuse hst, kilnLost_word _⟩
  · have hr := restarted_bare (k := .pin) (cause := 0x20) (by decide) (by decide) (by decide) s
    obtain ⟨hone, hcode⟩ := resetScope_evtFifo (k := .pin) (by decide) (recorded 0x20 s)
    exact ⟨_, exec_pinReset hoff halone hburn hstore, hr.boot, hr.cause, hr.count,
      restarted_history (by decide) (by decide) (by decide) s, hone, hcode, restarted_scratch (by decide) (by decide) hwf,
      restarted_outEn hwf, State.stores_flash hr.stores, State.stores_fuse hr.stores, State.stores_pending hr.stores⟩
  · have hr := restarted_bare (k := .lo) (cause := 0x50) (by decide) (by decide) (by decide) (loStopped s)
    have hst := hr.stores.trans (loStopped_keeps ((robust_stores s.stores).toKept.mono fun _ _ => trivial) rfl)
    obtain ⟨hone, hcode⟩ := resetScope_evtFifo (k := .lo) (by decide) (recorded 0x50 (loStopped s))
    have hwf' : RegsWf (loStopped s).regs := loStopped_keeps (P := fun t => RegsWf t.regs) (kept_regsWf.mono fun _ _ => trivial) hwf
    refine ⟨_, exec_loLossReset hres halone hburn hstore, hr.boot, hr.cause, ?_, hone, hcode, fun j => ?_, State.stores_flash hst,
      State.stores_fuse hst, State.stores_pending hst⟩
    · rw [hr.count, loStopped_get _ (by decide)]
    · have hn : RegName.MON_STAT ≠ (KLN_SCR_DATA j).reg.name := show RegName.MON_STAT ≠ .KLN_SCR by decide
      exact (restarted_scratch (by decide) (by decide) hwf' j).trans (loStopped_get _ hn)
  · have hr := (prelude_softTaken v s).softReset (cause := 0x60) rfl (by decide) hwf hseq hfed halone hburn hstore
    exact ⟨_, exec_softReset_cmd htake hiso hres, hr.boot, hr.cause, hr.count, hr.rail, hr.unit, hr.status,
      State.stores_flash hr.stores, State.stores_fuse hr.stores, State.stores_pending hr.stores⟩
  · have hr := (prelude_softWritten (wordSet w 0 4 8) s).softReset (cause := 0x61) rfl (by decide) hwf hseq hfed halone hburn hstore
    exact ⟨_, exec_softReset_write htake, hr.boot, hr.cause, hr.rail, hr.unit, State.stores_flash hr.stores, State.stores_fuse hr.stores,
      State.stores_pending hr.stores⟩
  · have hotp := softTaken_otp v s
    have hwait := packageReset_waits (t := softTaken v s) (k := .soft) (cause := 0x60) (by rw [hotp]; exact hburn)
      (by rw [hotp]; exact hdue)
    refine ⟨_, exec_softReset_cmd htake hiso hres, ?_⟩
    rw [hwait]
    have hpkg : (softTaken v s).pkg = s.pkg := (prelude_softTaken v s).get GLB_STATE_STATE (by decide)
    exact ⟨rfl, hpkg, softTaken_status v s, softTaken_posts v s, frame_modOtp (softTaken_frame v s) rfl⟩

end

end Sys2Proof.Machine

/-! What an engine of an isolated die writes on another die is dropped (R22, R23): four claims about taken writes by every path
that do not hold for it. -/

namespace Sys2Proof.Machine

/-- The path of an isolated die carries its writes to the registers of that die only. -/
theorem writeReg_of_unlinked {p : Path} {r : Reg} {w : Word} {s : State} (hdie : s.isolated (Path.die p) = true)
    (hlink : s.linked (Path.die p) (dieOfOff r.off) = false) : writeReg p r w s = s := by
  unfold writeReg regWrite regWriteBe
  rw [hdie, hlink]
  cases s.pathOpen p true
  · rfl
  cases s.reaches p r.off w
  · rfl
  cases Reg.ofOff r.off <;> rfl

/-- ENG4 on the isolated T-die 0 reaches no register of another die. -/
theorem writeReg_isolatedEngine {r : Reg} (w : Word) (hr : isolatedEngineState.linked dieT0 (dieOfOff r.off) = false) :
    writeReg (.eng 4) r w isolatedEngineState = isolatedEngineState :=
  writeReg_of_unlinked (by decide) hr

/-- Refutes O7: the region stands on T-die 1 and its interval is written by ENG4 on the isolated T-die 0, which is dropped. -/
theorem not_holdoverHistoryStabilityAndTemperature : ¬ Obligations.HoldoverHistoryStabilityAndTemperature := by
  rintro ⟨-, -, interval, -⟩
  obtain ⟨u, hu, hnew, -⟩ := interval (.eng 4) 2 0x107d0 isolatedEngineState (by decide) (by decide)
  obtain rfl : isolatedEngineState = u := by
    rw [← writeReg_isolatedEngine (r := ⟨.TRG_HIST, 2, 0, 0⟩) 0x107d0 (by decide)]
    injection hu
  exact absurd hnew (by decide)

/-- Refutes O11: the cluster stands on T-die 1 and START is written by ENG4 on the isolated T-die 0, which is dropped. -/
theorem not_bandTableLoads : ¬ Obligations.BandTableLoads := by
  rintro ⟨start, -⟩
  obtain ⟨u, hu, hload, -⟩ := start (.eng 4) 6 0 isolatedEngineState (by decide)
  obtain rfl : isolatedEngineState = u := by
    rw [← writeReg_isolatedEngine (r := ⟨.SYN_BLOAD_CTL, 6, 0, 0⟩) (wordSet 0 0 1 1) (by decide)]
    injection hu
  exact absurd hload (by decide)

/-- Refutes O23: the pairing of a power region is written by ENG4 on the isolated T-die 0, which is dropped. -/
theorem not_fallbackAndReturn : ¬ Obligations.FallbackAndReturn := by
  rintro ⟨-, -, pairing, -⟩
  obtain ⟨u, hu, hnew, -⟩ := pairing (.eng 4) 1 3 isolatedEngineState (by decide) (by decide) (by decide)
  obtain rfl : isolatedEngineState = u := by
    rw [← writeReg_isolatedEngine (r := ⟨.PRG_TBSEL, 1, 0, 0⟩) 3 (by decide)]
    injection hu
  exact absurd hnew (by decide)

/-- Refutes O26: the START of a sequence's load is written by ENG4 on the isolated T-die 0, which is dropped. -/
theorem not_sequenceLoads : ¬ Obligations.SequenceLoads := by
  rintro ⟨start, -⟩
  obtain ⟨u, hu, hload, -⟩ := start (.eng 4) 0 isolatedEngineState (by decide)
  obtain rfl : isolatedEngineState = u := by
    rw [← writeReg_isolatedEngine (r := ⟨.SEQ_LOAD_CTL, 0, 0, 0⟩) (wordSet 0 0 1 1) (by decide)]
    injection hu
  exact absurd hload (by decide)

end Sys2Proof.Machine

/-! BOOT_BEGIN with a board profile that resets the package: BOOT writes with every right (R391), so the profile may write the token of
WDG_FORCE (R406), and what BOOT has learnt until then is lost. -/

namespace Sys2Proof.Machine

/-! ### BOOT_BEGIN without images -/

/-- BOOT has found the main LO and its supplies (R31, R431). -/
def loFound (s : State) : State := showLoStb (s.modPkg (fun x => { x with loRuns := true, resetHold := false }))

/-- BOOT has sampled MODE and read the fuses (R398, R400). -/
def fusesRead (m : Nat) (s : State) : State :=
  showOver (showReads (hkPg 0 true ((s.set HOST_MODE_MODE (m % 2)).set GLB_STATE_MODE (m % 2))))

/-- BOOT has loaded its shadows and the flash has answered: the board profile comes next. -/
def profileDue (m : BitVec 2) (j : BitVec 24) (s : State) : State :=
  (bootShadows s.pkg_.bootSoft (fusesRead m.toNat s)).set MGT_SPI_STAT_JEDEC j.toNat

/-- Where MODE asks for the Bisque images, BOOT without a finding goes from the profile to them and to RUN. -/
theorem exec_bootBegin_bisque {m : BitVec 2} {j : BitVec 24} {x : BitVec 12} {s : State} (hboot : s.pkg = pkgBoot)
    (hsup : s.pkg_.supplyOut % 2 ^ 9 = 0) (hm : 2 ≤ m.toNat) (hlow : bitOf (loFound s).pin.bankLow 0 = false)
    (hfind : (fusesRead m.toNat (loFound s)).findings = []) :
    exec (.bootBegin m j x true) s = .next (bootRun (loFound s).pkg_.bootSoft (withLoads x.toNat (bootImages m.toNat)
      (otpProfile (loFound s).pkg_.bootSoft (profileDue m j (loFound s))).2)) := by
  change execBootBegin m j x true s = _
  unfold execBootBegin
  have hgo : ¬ (s.pkg ≠ pkgBoot ∨ s.pkg_.supplyOut % 2 ^ 9 ≠ 0 ∨ (!true) = true) := by
    rintro (h | h | h)
    exacts [h hboot, h hsup, Bool.false_ne_true h]
  rw [if_neg hgo]
  extract_lets s0 soft m1 s1 s2
  have hs0 : s0 = loFound s := rfl
  have hsoft : soft = s0.pkg_.bootSoft := rfl
  have hm1 : m1 = m.toNat := if_neg (Bool.eq_false_iff.1 hlow)
  have hs2 : s2 = fusesRead m.toNat (loFound s) := by
    unfold s2 s1
    rw [hm1]
    rfl
  clear_value s2 m1 soft s0
  subst hs2 hm1 hsoft hs0
  split
  · next f l h =>
    rw [hfind] at h
    cases h
  · rw [profileDue]
    rcases otpProfile (loFound s).pkg_.bootSoft _ with ⟨e, s4⟩
    dsimp only
    rw [if_neg (Nat.not_lt.2 hm)]

/-! ### A profile that forces a reset -/

theorem applyRecords_write {soft : Bool} {src base n i : Nat} {ws : List Word} {e : Option Ext} {off : Nat} {vs : List Word} {s : State}
    (h : parseRec (src = 0 && e.isNone) ws = .write off vs) : applyRecords soft src base (n + 1) i ws e s =
      applyRecords soft src base n (i + (1 + vs.length)) (ws.drop (1 + vs.length)) e (profileWrite soft off vs s) := by
  simp only [applyRecords, h, Rec.size]

theorem applyRecords_done {soft : Bool} {src base n i : Nat} {ws : List Word} {e : Option Ext} {s : State}
    (h : parseRec (src = 0 && e.isNone) ws = .done) : applyRecords soft src base (n + 1) i ws e s = (e, s) := by
  simp only [applyRecords, h]

/-- A WRITE of WDG_FORCE's token, as its head, its value and the END behind them. -/
theorem parseRec_force (ws : List Word) : parseRec true (0x1000500c :: 0xd00d :: 0 :: ws) = .write 0x500c [0xd00d] := by
  have hkind : wordGet 0x1000500c 28 4 = 1 := by decide
  have hlen : ¬ (0xd00d :: 0 :: ws : List Word).length < wordGet 0x1000500c 20 8 + 1 := by
    have hone : wordGet 0x1000500c 20 8 = 0 := by decide
    rw [hone, List.length_cons]
    omega
  have hlow : ¬ wordGet 0x1000500c 0 2 ≠ 0 := by decide
  unfold parseRec
  simp only [hkind, hlow, hlen, or_self, if_false]
  rfl

theorem applyRecords_force (soft : Bool) (base n : Nat) (ws : List Word) (s : State) :
    applyRecords soft 0 base (n + 2) 0 (0x1000500c :: 0xd00d :: 0 :: ws) none s = (none, profileWrite soft 0x500c [0xd00d] s) := by
  have hend : parseRec true (0 :: ws) = .done := rfl
  exact (applyRecords_write (src := 0) (e := none) (parseRec_force ws)).trans (applyRecords_done (src := 0) (e := none) hend)

/-- An OTP profile of that record alone. -/
theorem otpProfile_force {soft : Bool} {s : State} (hhead : s.otpWord 128 = 0x1000500c) (hval : s.otpWord 129 = 0xd00d)
    (hend : s.otpWord 130 = 0) :
    (otpProfile soft s).2 = (profileWrite soft 0x500c [0xd00d] s).set OTP_PROF_OTP_DONE 1 := by
  have hrange : List.range 255 = 0 :: 1 :: 2 :: List.range' 3 252 := by decide +kernel
  have hwords : (List.range 255).map (fun i => BitVec.ofNat 32 (s.otpWord (128 + i))) =
      0x1000500c :: 0xd00d :: 0 :: (List.range' 3 252).map (fun i => BitVec.ofNat 32 (s.otpWord (128 + i))) := by
    rw [hrange]
    simp only [List.map_cons, Nat.add_zero, hhead, hval, hend, Nat.reduceAdd]
    rfl
  unfold otpProfile
  dsimp only
  rw [hwords, applyRecords_force soft 128 253]

/-- BOOT writes with every right (R391), so it takes the token. -/
theorem writeReg_force {s : State} (hboot : s.pkg = pkgBoot) (hiso : s.isolated dieC = false) :
    writeReg .boot ⟨.WDG_FORCE, 0, 0, 0⟩ 0xd00d s =
      forcedReset (s.setWord ⟨.WDG_FORCE, 0, 0, 0⟩ (s.word ⟨.WDG_FORCE, 0, 0, 0⟩)) := by
  have hreg : Reg.ofOff 0x500c = some ⟨.WDG_FORCE, 0, 0, 0⟩ := by decide
  have hopen : s.pathOpen .boot true = true := by
    unfold State.pathOpen
    rw [hiso, hboot]
    rfl
  have hreach : s.reaches .boot 0x500c 0xd00d = true := rfl
  have hlink : s.linked (Path.die .boot) (dieOfOff 0x500c) = true := rfl
  have hacc : s.accepts .boot ⟨.WDG_FORCE, 0, 0, 0⟩ 0xd00d = true := rfl
  have hwrite : (regWriteBe .boot 0x500c 15 0xd00d s).2 = applyWrite .boot ⟨.WDG_FORCE, 0, 0, 0⟩ 0xd00d s := by
    unfold regWriteBe
    dsimp only
    rw [hopen, hreach, hreg]
    dsimp only
    rw [hlink, hacc]
    rfl
  exact hwrite

theorem profileWrite_force {s : State} (hboot : s.pkg = pkgBoot) (hiso : s.isolated dieC = false) :
    profileWrite true 0x500c [0xd00d] s = forcedReset (s.setWord ⟨.WDG_FORCE, 0, 0, 0⟩ (s.word ⟨.WDG_FORCE, 0, 0, 0⟩)) := by
  have hreg : Reg.ofOff 0x500c = some ⟨.WDG_FORCE, 0, 0, 0⟩ := by decide
  have hvalue : profileValue true 0x500c 0xd00d s = writeReg .boot ⟨.WDG_FORCE, 0, 0, 0⟩ 0xd00d s := by
    unfold profileValue
    rw [hreg]
    rfl
  have hreach : ¬ (List.range [(0xd00d : Word)].length).any (fun i => !s.reaches .boot (0x500c + 4 * i) 0) = true := Bool.false_ne_true
  unfold profileWrite
  rw [if_neg hreach, ← writeReg_force hboot hiso, ← hvalue]
  rfl

/-! ### What the forced reset leaves -/

section
variable {s : State} {f : Fld} {g : FieldSpec} {cause : Nat}

theorem robust_regsWf : Robust (fun s => RegsWf s.regs) := ⟨kept_regsWf⟩

/-- A package watchdog reset that takes place now returns what it does not keep to its reset value (R10, R412). -/
theorem doReset_watchdog_cleared (hwf : RegsWf s.regs) (hstore : s.on HUP_STAT_ON_STORE = false) (hg : f.Row g)
    (hk : (ResetKind.watchdog.keeps g.keep || ResetKind.watchdog.measured f.reg g.lo) = false) (ha : f.Aside)
    (hn : RegName.GLB_STATE ≠ f.reg.name) : (doReset .watchdog cause s).Reads f f.resetValue := by
  have hrec : RegsWf ((recordReset cause (watchdogCause cause) (tearFlash s)).when (watchdogCause cause) countTries).regs :=
    robust_regsWf.when (fun _ h => robust_regsWf.countTries h) (robust_regsWf.recordReset (by rw [tearFlash_regs]; exact hwf))
  unfold doReset
  dsimp only
  rw [hstore, Bool.false_and, if_neg Bool.false_ne_true]
  exact resetScope_reads (by decide) ((hrec.reads f).bareState_cleared hg hk) ⟨g, hg, .inr rfl⟩ ha hn

/-- The forced reset as the watchdog's last failure, before it takes place (R406). -/
def forceRecorded (s : State) : State :=
  s.draw.2.when s.draw.2.resetAlone (fun t =>
    ((t.set WDG_LASTFAIL_KIND 5).set WDG_LASTFAIL_SLOT (s.draw.1 % 16)).set WDG_LASTFAIL_VALID 1)

theorem forceRecorded_keeps {P : State → Prop} (K : Kept (fun r => r.name = .WDG_LASTFAIL) P) (hs : P s) : P (forceRecorded s) :=
  State.when_keeps _ _ (fun _ h => K.set _ _ rfl <| K.set _ _ rfl <| K.set _ _ rfl h) (K.beside hs rfl)

theorem forceRecorded_otp (s : State) : (forceRecorded s).otp = s.otp := by
  unfold forceRecorded State.when
  split
  · simp only [State.set_otp]
    rfl
  · rfl

theorem forceRecorded_pkg_ (s : State) : (forceRecorded s).pkg_ = s.pkg_ := by
  unfold forceRecorded State.when
  split
  · simp only [State.set_pkg_]
    rfl
  · rfl

/-- So does the reset of WDG_FORCE, where none waits (R406). -/
theorem forcedReset_cleared (hres : s.resettable = true) (hburn : s.otp.burn = none) (hhold : s.pkg_.resetHold = false)
    (hwf : RegsWf s.regs) (hstore : s.on HUP_STAT_ON_STORE = false) (hg : f.Row g)
    (hk : (ResetKind.watchdog.keeps g.keep || ResetKind.watchdog.measured f.reg g.lo) = false) (ha : f.Aside)
    (hn : RegName.GLB_STATE ≠ f.reg.name) : (forcedReset s).Reads f f.resetValue := by
  have hwf' : RegsWf (forceRecorded s).regs :=
    forceRecorded_keeps (P := fun t => RegsWf t.regs) (kept_regsWf.mono fun _ _ => trivial) hwf
  have hget : (forceRecorded s).get HUP_STAT_ON_STORE = s.get HUP_STAT_ON_STORE :=
    forceRecorded_keeps (P := fun t => t.get HUP_STAT_ON_STORE = s.get HUP_STAT_ON_STORE)
      ((kept_get _ _).mono fun _ h => Reg.ne_of_name (by rw [h]; decide)) rfl
  have hstore' : (forceRecorded s).on HUP_STAT_ON_STORE = false := by
    unfold State.on at hstore ⊢
    rw [hget]
    exact hstore
  have hnow : forcedReset s = doReset .watchdog 0x40 (forceRecorded s) := by
    have hpkg : forcedReset s = packageReset .watchdog 0x40 (forceRecorded s) := if_pos hres
    rw [hpkg]
    unfold packageReset
    rw [forceRecorded_otp, forceRecorded_pkg_, hburn, hhold, if_neg (by simp), if_neg (by simp)]
  rw [hnow]
  exact doReset_watchdog_cleared hwf' hstore' hg hk ha hn
end

/-! ### From the profile to RUN -/

/-- The registers that BOOT writes after its profile are none of the flash's status and of the system's joining. -/
def Reg.LateInBoot (r : Reg) : Prop := r ≠ MGT_SPI_STAT_JEDEC.reg ∧ r ≠ LNK_SYS_CTL_AUTO_JOIN.reg

theorem lateInBoot_of_name {r : Reg} (hn : [RegName.MGT_SPI_STAT, .LNK_SYS_CTL].contains r.name = false) : r.LateInBoot := by
  constructor <;> rintro rfl <;> exact absurd hn (by decide)

theorem lateInBoot_of_event (r : Reg) (h : r.off ∈ eventOffs) : r.LateInBoot := by
  constructor <;> rintro rfl <;> exact absurd h (by decide)

section
variable {P : State → Prop} {s : State}

theorem Kept.lateSet (K : Kept Reg.LateInBoot P) {f : Fld} {v : Nat}
    (hn : [RegName.MGT_SPI_STAT, .LNK_SYS_CTL].contains f.reg.name = false) (hs : P s) : P (s.set f v) :=
  K.set f v (lateInBoot_of_name hn) hs

theorem Kept.lateRaise (K : Kept Reg.LateInBoot P) {f : Fld} {i code src : Nat} {body : List (Nat × Nat)}
    (hn : [RegName.MGT_SPI_STAT, .LNK_SYS_CTL].contains f.reg.name = false) (hs : P s) : P (s.raise f i code src body) :=
  K.raise f i code src body (lateInBoot_of_name hn) lateInBoot_of_event hs

theorem Kept.lateRunBisque (K : Kept Reg.LateInBoot P) {e why : Nat} (hs : P s) : P (runBisque e why s) := by
  have hstart : P (startBisque e s) := by
    unfold startBisque
    exact State.when_keeps _ _ (fun _ h => K.emit _ h) <| K.lateSet rfl <| K.lateSet rfl hs
  exact K.iteState (K.lateSet rfl hstart) (K.lateRaise rfl <| K.lateSet rfl hstart)

theorem Kept.lateRestartFrames (K : Kept Reg.LateInBoot P) {e : Nat} (hs : P s) : P (restartFrames e s) := by
  refine State.each_keeps 16 _ (fun _ _ _ h => K.iteState ?_ h) hs
  exact K.beside h rfl

theorem Kept.lateShowBisque (K : Kept Reg.LateInBoot P) {c : Nat} (hs : P s) : P (showBisque c s) :=
  K.iteState (K.lateSet rfl <| K.lateSet rfl <| K.lateSet rfl <| K.beside hs rfl) (K.lateSet rfl hs)

theorem Kept.lateReleaseBisque (K : Kept Reg.LateInBoot P) {c slot why : Nat} (hs : P s) : P (releaseClass c slot (.bisque why) s) :=
  K.lateShowBisque <| foldl_keeps _ _ (fun _ _ _ h => K.lateRunBisque h) <| K.lateSet rfl <|
    foldl_keeps _ _ (fun _ _ _ h => K.lateRestartFrames h) <| K.lateSet rfl hs

theorem Kept.lateBisqueAll (K : Kept Reg.LateInBoot P) {why : Nat} (hs : P s) : P (bisqueAll why s) :=
  K.lateSet rfl <| K.lateSet rfl <| State.each_keeps 3 _ (fun _ _ _ h => K.lateReleaseBisque <|
    State.when_keeps _ _ (fun _ h => K.lateSet rfl h) <| K.lateSet rfl h) hs

theorem Kept.lateMarkLoads (K : Kept Reg.LateInBoot P) {n : Nat} (hs : P s) : P (markLoads n s) := K.beside hs rfl

theorem Kept.lateWithLoads (K : Kept Reg.LateInBoot P) {bad : Nat} {f : State → State} (hf : ∀ t, P t → P (f t)) (hs : P s) :
    P (withLoads bad f s) :=
  K.lateMarkLoads <| hf _ <| K.lateMarkLoads hs

theorem Kept.lateBootEnds (K : Kept Reg.LateInBoot P) {new : Nat} (hs : P s) : P (bootEnds new s) := by
  have henter : P (enterState new s) := K.lateRaise rfl <| K.lateSet rfl hs
  exact K.iteState (K.beside (K.lateRaise rfl henter) rfl) henter

end

/-- No identity of the flash, and no join asked for: as a reset leaves them. -/
def State.Unlearnt (s : State) : Prop := s.Reads MGT_SPI_STAT_JEDEC 0 ∧ s.Reads LNK_SYS_CTL_AUTO_JOIN 0

theorem kept_unlearnt : Kept Reg.LateInBoot State.Unlearnt where
  word s r w hr h := ⟨(kept_reads _ _).word s r w hr.1 h.1, (kept_reads _ _).word s r w hr.2 h.2⟩
  rest s t hr hst h := ⟨(kept_reads _ _).rest s t hr hst h.1, (kept_reads _ _).rest s t hr hst h.2⟩

/-- The end of BOOT after a soft reset, without a join to make. -/
theorem unlearnt_bootRun {s : State} (hs : s.Unlearnt) : (bootRun true s).Unlearnt := by
  have hends : (bootEnds pkgRun s).Unlearnt := kept_unlearnt.lateBootEnds hs
  have hjoin : autoJoin (bootEnds pkgRun s) = bootEnds pkgRun s := by
    refine if_neg ?_
    unfold State.on
    rw [hends.2.value]
    decide
  unfold bootRun
  dsimp only
  rw [hjoin, Bool.not_true, Bool.and_false, if_neg Bool.false_ne_true]
  exact hends

/-! ### The state that refutes the claim -/

/-- BOOT after a soft reset: the board profile, whose first two words a host has overridden (R392), writes the token of WDG_FORCE. -/
def forcingProfileState : State :=
  ((((State.reset.set GLB_STATE_STATE pkgBoot).set (OTP_OVR_OVR 4) 3).set (OTP_SH_VALUE 128) 0x1000500c).set (OTP_SH_VALUE 129)
    0xd00d).modPkg (fun x => { x with bootSoft := true })

/-- Its boot up to the profile. -/
def forcingProfileDue : State := profileDue 2 1 (loFound forcingProfileState)

set_option maxRecDepth 20000 in
theorem forcingProfileDue_words : forcingProfileDue.otpWord 128 = 0x1000500c ∧ forcingProfileDue.otpWord 129 = 0xd00d ∧
    forcingProfileDue.otpWord 130 = 0 := by
  decide +kernel

/-- The token stored, which WDG_FORCE does not keep: the reset comes next. -/
def forcingProfileForced : State := forcingProfileDue.setWord ⟨.WDG_FORCE, 0, 0, 0⟩ (forcingProfileDue.word ⟨.WDG_FORCE, 0, 0, 0⟩)

set_option maxRecDepth 20000 in
theorem forcingProfileDue_state : forcingProfileDue.pkg = pkgBoot ∧ forcingProfileDue.isolated dieC = false := by
  decide +kernel

set_option maxRecDepth 20000 in
theorem forcingProfileForced_state : forcingProfileForced.resettable = true ∧ forcingProfileForced.on HUP_STAT_ON_STORE = false ∧
    forcingProfileForced.otp.burn = none ∧ forcingProfileForced.pkg_.resetHold = false := by
  decide +kernel

set_option maxRecDepth 20000 in
theorem forcingProfileState_clean : forcingProfileState.findings = [] := by decide +kernel

set_option maxRecDepth 20000 in
theorem forcingProfileState_findings : (fusesRead 2 (loFound forcingProfileState)).findings = [] := by decide +kernel

theorem regsWf_forcingProfileForced : RegsWf forcingProfileForced.regs := by
  have K := robust_regsWf
  have hinit : RegsWf forcingProfileState.regs := K.modPkg <| K.set <| K.set <| K.set <| K.set (by decide)
  exact K.setWord <| K.set <| K.bootShadows <| K.showOver <| K.showReads <| K.hkPg <| K.set <| K.set <| K.showLoStb <| K.modPkg hinit

/-- The token resets the package in the middle of BOOT, and what it has learnt of the flash. -/
theorem unlearnt_forced : (profileWrite true 0x500c [0xd00d] forcingProfileDue).Unlearnt := by
  obtain ⟨hboot, hiso⟩ := forcingProfileDue_state
  obtain ⟨hres, hstore, hburn, hhold⟩ := forcingProfileForced_state
  have hforce : profileWrite true 0x500c [0xd00d] forcingProfileDue = forcedReset forcingProfileForced := profileWrite_force hboot hiso
  rw [hforce]
  have hjedec : MGT_SPI_STAT_JEDEC.Row ⟨8, 24, .ro, .dash, []⟩ := by unfold Fld.Row; decide
  have hjoin : LNK_SYS_CTL_AUTO_JOIN.Row ⟨0, 1, .rw, .sh, []⟩ := by unfold Fld.Row; decide
  exact ⟨forcedReset_cleared hres hburn hhold regsWf_forcingProfileForced hstore hjedec rfl (by unfold Fld.Aside; decide) (by decide),
    forcedReset_cleared hres hburn hhold regsWf_forcingProfileForced hstore hjoin rfl (by unfold Fld.Aside; decide) (by decide)⟩

/-- Refutes O34: a board profile that writes WDG_FORCE resets the package within BOOT, and the JEDEC identity is gone in RUN. -/
theorem not_bootAndKeeper : ¬ Obligations.BootAndKeeper := by
  rintro ⟨boots, -⟩
  have hread : (otpProfile true forcingProfileDue).2.Unlearnt := by
    obtain ⟨hhead, hval, hend⟩ := forcingProfileDue_words
    rw [otpProfile_force hhead hval hend]
    exact kept_unlearnt.lateSet rfl unlearnt_forced
  obtain ⟨u, hu, -, hjedec, -⟩ := boots 2 1 0 forcingProfileState (by decide) (by decide) forcingProfileState_clean (by decide)
  have hexec := exec_bootBegin_bisque (m := 2) (j := 1) (x := 0) (s := forcingProfileState) (by decide) (by decide) (by decide)
    rfl forcingProfileState_findings
  have hrun : u.Unlearnt := by
    have himages : ∀ t : State, t.Unlearnt → (bootImages 2 t).Unlearnt := fun _ h => kept_unlearnt.lateBisqueAll h
    obtain rfl : bootRun true (withLoads 0 (bootImages 2) (otpProfile true forcingProfileDue).2) = u := by
      rw [hexec] at hu
      injection hu
    exact unlearnt_bootRun <| kept_unlearnt.lateWithLoads himages hread
  rw [hrun.1.value] at hjedec
  exact absurd hjedec (by decide)

end Sys2Proof.Machine

/-! Bits of fields, the span a register's name lies in, and what entering SAFE leaves of a rail and of the others: the rules that
the faults of O31 share. -/

namespace Sys2Proof.Machine

/-! ### Bits of fields -/

/-- A bit put in changes the quotient by that bit's place in its parity alone. -/
theorem bitPut_eq (v i : Nat) (b : Bool) :
    ∃ q, bitPut v i b = 2 ^ i * q + v % 2 ^ i ∧ q / 2 = v / 2 ^ i / 2 ∧ decide (q % 2 = 1) = b := by
  have hv : 2 ^ i * (v / 2 ^ i) + v % 2 ^ i = v := Nat.div_add_mod v (2 ^ i)
  unfold bitPut bitOf
  generalize v / 2 ^ i = q at hv ⊢
  generalize v % 2 ^ i = r at hv ⊢
  split
  · next h => exact ⟨q, hv.symm, rfl, h⟩
  · next h =>
    cases b with
    | true =>
      refine ⟨q + 1, ?_, by simp at h; omega, by simp at h ⊢; omega⟩
      rw [if_pos rfl, Nat.mul_succ]
      omega
    | false =>
      have hodd : q % 2 = 1 := by simpa using h
      obtain ⟨p, rfl⟩ : ∃ p, q = p + 1 := ⟨q - 1, by omega⟩
      refine ⟨p, ?_, by omega, by simp; omega⟩
      rw [if_neg Bool.false_ne_true, ← hv, Nat.mul_succ]
      omega

theorem testBit_bitPut (v i : Nat) (b : Bool) (j : Nat) : (bitPut v i b).testBit j = if j = i then b else v.testBit j := by
  obtain ⟨q, hput, hhalf, hpar⟩ := bitPut_eq v i b
  have hr : v % 2 ^ i < 2 ^ i := Nat.mod_lt _ (Nat.two_pow_pos i)
  rw [hput, Nat.testBit_two_pow_mul_add _ hr]
  conv_rhs => rw [← Nat.div_add_mod v (2 ^ i), Nat.testBit_two_pow_mul_add _ hr]
  by_cases hlt : j < i
  · simp [hlt, Nat.ne_of_lt hlt]
  · obtain ⟨k, rfl⟩ : ∃ k, j = i + k := ⟨j - i, by omega⟩
    cases k with
    | zero => simp [hpar]
    | succ k => simp [Nat.testBit_succ, hhalf]

theorem bitOf_bitPut (v i : Nat) (b : Bool) (j : Nat) : bitOf (bitPut v i b) j = if j = i then b else bitOf v j := by
  rw [bitOf_eq_testBit, bitOf_eq_testBit, testBit_bitPut]

section
variable {s : State} {f : Fld} {i j : Nat} {b : Bool}

/-- A bit of a field, read after one of its bits has been put. -/
theorem State.bit_setBit (s : State) (b : Bool) (i : Nat) (hf : f.lo + f.w ≤ 32) (hj : j < f.w) :
    (s.setBit f i b).bit f j = if j = i then b else s.bit f j := by
  unfold State.bit
  rw [State.setBit_eq, State.get_set_same _ _ _ hf, ← bitOf_bitPut, bitOf_eq_testBit, bitOf_eq_testBit, Nat.testBit_mod_two_pow,
    decide_eq_true hj, Bool.true_and]

theorem State.bit_setBit_same (s : State) (b : Bool) (hf : f.lo + f.w ≤ 32) (hi : i < f.w) : (s.setBit f i b).bit f i = b := by
  rw [State.bit_setBit s b i hf hi, if_pos rfl]

theorem State.bit_of_get {t : State} (h : t.get f = s.get f) (i : Nat) : t.bit f i = s.bit f i := by
  unfold State.bit
  rw [h]

end

/-! ### The span a register's name lies in -/

/-- The offset of the last register of a name. -/
def RegName.top (n : RegName) : Nat :=
  n.row.base + n.row.s1 * (n.row.n1 - 1) + n.row.s2 * (n.row.n2 - 1) + n.row.s3 * (n.row.n3 - 1)

/-- Every register of the name lies within one of the spans. -/
def RegName.within (spans : List (Nat × Nat)) (n : RegName) : Bool := spans.any (fun a => a.1 ≤ n.row.base && n.top < a.2)

theorem Reg.off_bounds {q : Reg} (h : q.real = true) : q.name.row.base ≤ q.off ∧ q.off ≤ q.name.top := by
  unfold Reg.real at h
  simp only [Bool.and_eq_true, decide_eq_true_eq] at h
  obtain ⟨⟨hi, hj⟩, hk⟩ := h
  have h1 : q.name.row.s1 * q.i ≤ q.name.row.s1 * (q.name.row.n1 - 1) := Nat.mul_le_mul_left _ (by omega)
  have h2 : q.name.row.s2 * q.j ≤ q.name.row.s2 * (q.name.row.n2 - 1) := Nat.mul_le_mul_left _ (by omega)
  have h3 : q.name.row.s3 * q.k ≤ q.name.row.s3 * (q.name.row.n3 - 1) := Nat.mul_le_mul_left _ (by omega)
  unfold Reg.off RegName.top
  dsimp only
  omega

/-- A register that exists outside the spans is none of a name within them. -/
theorem Reg.ne_of_within {spans : List (Nat × Nat)} {r q : Reg} (h : r.name.within spans = true ∨ r.off ∈ eventOffs)
    (hreal : q.real = true) (hs : ∀ a ∈ spans, q.off < a.1 ∨ a.2 ≤ q.off) (he : q.off ∉ eventOffs) : r ≠ q := by
  rintro rfl
  rcases h with h | h
  · obtain ⟨a, ha, hin⟩ := List.any_eq_true.1 h
    simp only [Bool.and_eq_true, decide_eq_true_eq] at hin
    have := Reg.off_bounds hreal
    have := hs a ha
    omega
  · exact he h

/-- Writes of registers whose names lie within the spans keep the registers outside them, and the stores. -/
theorem kept_within_names (s : State) (spans : List (Nat × Nat)) :
    Kept (fun r => r.name.within spans = true ∨ r.off ∈ eventOffs) (fun t => Within s t spans) where
  word _ _ _ hr h := ⟨fun q hq hs he => (State.word_setWord_ne _ _ _ (Reg.ne_of_within hr hq hs he)).trans (h.1 q hq hs he), h.2⟩
  rest _ _ hr hk h := ⟨fun q hq hs he => (State.word_of_regs hr q).trans (h.1 q hq hs he), h.2.trans hk⟩

/-! ### Operations that post no event -/

/-- A property that writes of the fields `ok` picks keep, and changes of what lies beside the registers, the stores and the events. -/
structure Calm (ok : Fld → Prop) (P : State → Prop) : Prop where
  set : ∀ {s : State} {f : Fld} {v : Nat}, ok f → P s → P (s.set f v)
  rest : ∀ {s t : State}, t.regs = s.regs → Stored s t → t.evtSeq = s.evtSeq ∧ t.evtFifo = s.evtFifo → P s → P t

theorem Kept.calm {okr : Reg → Prop} {ok : Fld → Prop} {P : State → Prop} (K : Kept okr P) (h : ∀ f, ok f → okr f.reg) : Calm ok P where
  set hf hs := K.set _ _ (h _ hf) hs
  rest hr hk _ hs := K.rest _ _ hr hk hs

/-- No event arises and none leaves. -/
theorem calm_events (ok : Fld → Prop) (n : Nat) (l : List EvtRec) : Calm ok (fun s => s.evtSeq = n ∧ s.evtFifo = l) where
  set _ hs := by rwa [State.set_evtSeq, State.set_evtFifo]
  rest _ _ he hs := by rwa [he.1, he.2]

/-- A field lies in another register than `g`, or beside it in its own. -/
def Fld.Apart (f g : Fld) : Prop := f.reg ≠ g.reg ∨ f.lo + f.w ≤ 32 ∧ (f.lo + f.w ≤ g.lo ∨ g.lo + g.w ≤ f.lo)

theorem Fld.apart_of_name {f g : Fld} (h : f.reg.name ≠ g.reg.name) : f.Apart g := .inl (Reg.ne_of_name h)

theorem Fld.apart_above {f g : Fld} (h : (Nat.ble (f.lo + f.w) 32 && Nat.ble (g.lo + g.w) f.lo) = true) : f.Apart g := by
  rw [Bool.and_eq_true] at h
  exact .inr ⟨Nat.le_of_ble_eq_true h.1, .inr (Nat.le_of_ble_eq_true h.2)⟩

/-- A field keeps its value where the fields written are apart from it. -/
theorem calm_get {ok : Fld → Prop} (g : Fld) (v : Nat) (h : ∀ f, ok f → f.Apart g) : Calm ok (fun s => s.get g = v) where
  set := by
    intro s f v hf hs
    rcases h f hf with hne | ⟨hw, hd⟩
    · exact (State.get_set_ne s f g v hne).trans hs
    · by_cases he : f.reg = g.reg
      · exact (State.get_set_field s f g v he hw hd).trans hs
      · exact (State.get_set_ne s f g v he).trans hs
  rest hr _ _ hs := (State.get_of_regs hr g).trans hs

section
variable {ok : Fld → Prop} {P : State → Prop} {s t : State}

theorem Calm.mono {ok' : Fld → Prop} (K : Calm ok' P) (h : ∀ f, ok f → ok' f) : Calm ok P where
  set hf hs := K.set (h _ hf) hs
  rest := K.rest

theorem Calm.beside (K : Calm ok P) (hs : P s)
    (h : (t.regs, t.flash, t.torn, t.engMem, t.otp.fuse, t.pending, t.evtSeq, t.evtFifo) =
      (s.regs, s.flash, s.torn, s.engMem, s.otp.fuse, s.pending, s.evtSeq, s.evtFifo)) : P t := by
  simp only [Prod.mk.injEq] at h
  obtain ⟨hr, hf, ht, he, hu, hp, hq, hl⟩ := h
  exact K.rest hr ⟨hf, ht, he, hu, hp⟩ ⟨hq, hl⟩ hs

theorem Calm.ite (_ : Calm ok P) {c : Prop} [Decidable c] (hs : P s) (ht : P t) : P (if c then s else t) := by
  split
  · exact hs
  · exact ht

end

/-- What one step of a walk over numbers establishes, and the others leave. -/
theorem State.each_at {n q : Nat} (f : Nat → State → State) {A B : State → Prop} (hq : q < n) (hA : ∀ i s, i ≠ q → A s → A (f i s))
    (hAB : ∀ s, A s → B (f q s)) (hB : ∀ i s, i ≠ q → B s → B (f i s)) {s : State} (hs : A s) : B (s.each n f) := by
  induction n with
  | zero => exact absurd hq (Nat.not_lt_zero q)
  | succ n ih =>
    rw [State.each_succ]
    by_cases hn : n = q
    · subst hn
      exact hAB _ (State.each_keeps n f (fun i hi s h => hA i s (Nat.ne_of_lt hi) h) hs)
    · exact hB n _ hn (ih (by omega))

/-! ### Rails into SAFE (R172) -/

/-- The registers of a rail that enters SAFE, and of its phases and its region's counters. -/
def safeNames : List RegName := [.PRG_RSTAT, .FLT_RSTAT, .PRG_PH, .PRG_FM_STAT]

/-- The fields of a rail's own registers written as it comes to rest. -/
def restFlds (r : Nat) : List Fld := [PRG_RSTAT_PG r, PRG_RSTAT_MOVING r, PRG_RSTAT_DCM r, PRG_RSTAT_NACT r, FLT_RSTAT_NOW r]

/-- The fields written as a rail comes to rest: its phases and its region's counters, and what is beside its state. -/
def RestFld (r : Nat) (f : Fld) : Prop := f ∈ restFlds r ∨ [RegName.PRG_PH, .PRG_FM_STAT].contains f.reg.name = true

/-- With its state, those written as it enters SAFE. -/
def SafeFld (r : Nat) (f : Fld) : Prop := f = PRG_RSTAT_STATE r ∨ RestFld r f

/-- A rail that has entered SAFE comes to rest. -/
def railRests (r : Nat) (s : State) : State :=
  railTrigger r ((((railIdle r phSafe s).setBit (PRG_FM_STAT_SAFE (r / 6)) (r % 6) true).bump (PRG_FM_STAT_SD_CNT (r / 6))).modRail r
    (fun x => { x with enWait := false }))

theorem railToSafe_eq (r : Nat) (s : State) : railToSafe r s =
    if s.railState r = railOff ∨ s.railState r = railSafe then s else railRests r (s.set (PRG_RSTAT_STATE r) railSafe) := rfl

section
variable {P : State → Prop} {s : State} {r : Nat}

theorem restFld_listed {f : Fld} (h : f ∈ restFlds r) : RestFld r f := .inl h

theorem restFld_named {f : Fld} (h : [RegName.PRG_PH, .PRG_FM_STAT].contains f.reg.name = true) : RestFld r f := .inr h

theorem Calm.setPhases (K : Calm (RestFld r) P) {st : Nat} (hs : P s) : P (setPhases r st s) :=
  foldl_keeps _ _ (fun _ _ _ h => K.set (restFld_named rfl) h) hs

theorem Calm.modRail (K : Calm (RestFld r) P) {q : Nat} {f : RailInt → RailInt} (hs : P s) : P (s.modRail q f) := K.beside hs rfl

theorem Calm.modPrg (K : Calm (RestFld r) P) {p : Nat} {f : PrgInt → PrgInt} (hs : P s) : P (s.modPrg p f) := K.beside hs rfl

theorem Calm.railTrigger (K : Calm (RestFld r) P) {q : Nat} (hs : P s) : P (railTrigger q s) := K.beside hs rfl

theorem Calm.railUnregulated (K : Calm (RestFld r) P) (hs : P s) : P (railUnregulated r s) :=
  K.set (restFld_listed (by simp [restFlds])) <| K.set (restFld_listed (by simp [restFlds])) <|
    K.set (restFld_listed (by simp [restFlds])) <| K.set (restFld_listed (by simp [restFlds])) hs

theorem Calm.railIdle (K : Calm (RestFld r) P) {ph : Nat} (hs : P s) : P (railIdle r ph s) :=
  K.setPhases <| K.set (restFld_listed (by simp [restFlds])) <| K.railUnregulated <| K.modRail <| K.modPrg hs

theorem Calm.railRests (K : Calm (RestFld r) P) (hs : P s) : P (railRests r s) :=
  K.railTrigger <| K.modRail <| K.set (restFld_named rfl) <| K.set (restFld_named rfl) <| K.railIdle hs

theorem Calm.railToSafe (K : Calm (SafeFld r) P) (hs : P s) : P (railToSafe r s) := by
  rw [railToSafe_eq]
  exact K.ite hs <| (K.mono fun _ => .inr).railRests <| K.set (.inl rfl) hs

end

theorem RestFld.apart {r : Nat} {f g : Fld} (h : RestFld r f) (hlist : ∀ e ∈ restFlds r, e.Apart g)
    (hname : [RegName.PRG_PH, .PRG_FM_STAT].contains g.reg.name = false) :
    f.Apart g := by
  rcases h with h | h
  · exact hlist f h
  · refine .inl (Reg.ne_of_name fun e => ?_)
    rw [e, hname] at h
    exact absurd h Bool.false_ne_true

theorem railRests_state (r v : Nat) : Calm (RestFld r) (fun s => s.railState r = v) := by
  refine calm_get (PRG_RSTAT_STATE r) v fun f hf => hf.apart (fun e he => ?_) rfl
  simp only [restFlds, List.mem_cons, List.not_mem_nil, or_false] at he
  rcases he with rfl | rfl | rfl | rfl | rfl
  iterate 4 exact Fld.apart_above rfl
  · exact Fld.apart_of_name (show RegName.FLT_RSTAT ≠ .PRG_RSTAT by decide)

/-- A rail that is not OFF enters SAFE; one that is stays so. -/
theorem railToSafe_self (r : Nat) (s : State) :
    (railToSafe r s).railState r = if s.railState r = railOff then railOff else railSafe := by
  rw [railToSafe_eq]
  by_cases hoff : s.railState r = railOff
  · rw [if_pos (.inl hoff), if_pos hoff, hoff]
  · rw [if_neg hoff]
    split
    · next h => exact h.resolve_left hoff
    · exact (railRests_state r railSafe).railRests (State.get_set_same s (PRG_RSTAT_STATE r) railSafe (show 0 + 3 ≤ 32 by decide))

/-- A rail of another number keeps its state. -/
theorem railToSafe_other {q r : Nat} (h : r ≠ q) (v : Nat) : Calm (SafeFld r) (fun s => s.railState q = v) := by
  have hreg : (PRG_RSTAT_STATE r).reg ≠ (PRG_RSTAT_STATE q).reg := by
    intro e
    injection e with _ hi hj
    omega
  refine calm_get (PRG_RSTAT_STATE q) v fun f hf => ?_
  rcases hf with rfl | hf
  · exact .inl hreg
  · refine hf.apart (fun e he => .inl ?_) rfl
    simp only [restFlds, List.mem_cons, List.not_mem_nil, or_false] at he
    rcases he with rfl | rfl | rfl | rfl | rfl
    iterate 4 exact hreg
    · exact Reg.ne_of_name (show RegName.FLT_RSTAT ≠ .PRG_RSTAT by decide)

/-- The hold of a supply is none of what entering SAFE writes. -/
theorem railToSafe_supHeld (q r v : Nat) : Calm (SafeFld r) (fun s => s.get (FLT_RSTAT_SUP_HELD q) = v) := by
  have hreg : (PRG_RSTAT_STATE r).reg ≠ (FLT_RSTAT_SUP_HELD q).reg := Reg.ne_of_name (show RegName.PRG_RSTAT ≠ .FLT_RSTAT by decide)
  refine calm_get (FLT_RSTAT_SUP_HELD q) v fun f hf => ?_
  rcases hf with rfl | hf
  · exact .inl hreg
  · refine hf.apart (fun e he => ?_) rfl
    simp only [restFlds, List.mem_cons, List.not_mem_nil, or_false] at he
    rcases he with rfl | rfl | rfl | rfl | rfl
    iterate 4 exact .inl hreg
    · exact Fld.apart_above rfl

/-- Neither is a register outside the fault fabric and the power regions. -/
theorem SafeFld.name {r : Nat} {f : Fld} (h : SafeFld r f) : safeNames.contains f.reg.name = true := by
  rcases h with rfl | h | h
  · rfl
  · simp only [restFlds, List.mem_cons, List.not_mem_nil, or_false] at h
    rcases h with rfl | rfl | rfl | rfl | rfl <;> rfl
  · simp only [safeNames, List.contains_cons, List.contains_nil, Bool.or_false, Bool.or_eq_true] at h ⊢
    exact .inr (.inr h)

end Sys2Proof.Machine

/-! A supply hold (R430): clauses of O31 on VDDPWM. -/

namespace Sys2Proof.Machine

/-! ### A supply hold (R430) -/

/-- The spans the statement allows its faults. -/
abbrev faultSpans : List (Nat × Nat) := spanGlb ++ spanHost ++ spanPlz ++ spanWork ++ spanDma ++ spanEng

/-- The fields of registers within them. -/
def FaultFld (f : Fld) : Prop := f.reg.name.within faultSpans = true

theorem calm_faultSpans (s : State) : Calm FaultFld (fun t => Within s t faultSpans) :=
  (kept_within_names s faultSpans).calm fun _ => .inl

theorem supHeld_fault (r : Nat) : FaultFld (FLT_RSTAT_SUP_HELD r) := (by decide : RegName.FLT_RSTAT.within faultSpans = true)

theorem latch_fault : FaultFld FLT_PKG_LATCH := (by decide : RegName.FLT_PKG.within faultSpans = true)

theorem SafeFld.fault {r : Nat} {f : Fld} (h : SafeFld r f) : FaultFld f := by
  have hall : ∀ n ∈ safeNames, n.within faultSpans = true := by decide
  exact hall _ (List.contains_iff_mem.1 h.name)

/-- A rail of a region without its drivers' supply is held, and enters SAFE. -/
def railUnfed (r : Nat) (s : State) : State := railToSafe r (s.set (FLT_RSTAT_SUP_HELD r) 1)

/-- The fields that this writes. -/
def UnfedFld (r : Nat) (f : Fld) : Prop := f = FLT_RSTAT_SUP_HELD r ∨ SafeFld r f

section
variable {P : State → Prop} {s : State} {r q : Nat}

theorem Calm.railUnfed (K : Calm (UnfedFld r) P) (hs : P s) : P (railUnfed r s) :=
  (K.mono fun _ => .inr).railToSafe <| K.set (.inl rfl) hs

theorem UnfedFld.fault {f : Fld} (h : UnfedFld r f) : FaultFld f := by
  rcases h with rfl | h
  · exact (by decide : RegName.FLT_RSTAT.within faultSpans = true)
  · exact h.fault

theorem railUnfed_state (r : Nat) (s : State) :
    (railUnfed r s).railState r = if s.railState r = railOff then railOff else railSafe := by
  have hset : (s.set (FLT_RSTAT_SUP_HELD r) 1).railState r = s.railState r :=
    State.get_set_ne s _ _ 1 (Reg.ne_of_name (show RegName.FLT_RSTAT ≠ .PRG_RSTAT by decide))
  unfold railUnfed
  rw [railToSafe_self, hset]

theorem railUnfed_state_other (h : r ≠ q) {v : Nat} (hs : s.railState q = v) : (railUnfed r s).railState q = v := by
  refine (railToSafe_other h v).railToSafe ?_
  exact (State.get_set_ne s _ _ 1 (Reg.ne_of_name (show RegName.FLT_RSTAT ≠ .PRG_RSTAT by decide))).trans hs

theorem railUnfed_held (r : Nat) (s : State) : (railUnfed r s).get (FLT_RSTAT_SUP_HELD r) = 1 :=
  (railToSafe_supHeld r r 1).railToSafe (State.get_set_same s (FLT_RSTAT_SUP_HELD r) 1 (show 6 + 1 ≤ 32 by decide))

theorem railUnfed_held_other (h : r ≠ q) {v : Nat} (hs : s.get (FLT_RSTAT_SUP_HELD q) = v) :
    (railUnfed r s).get (FLT_RSTAT_SUP_HELD q) = v := by
  have hreg : (FLT_RSTAT_SUP_HELD r).reg ≠ (FLT_RSTAT_SUP_HELD q).reg := by
    intro e
    injection e with _ hi
    exact h hi
  exact (railToSafe_supHeld q r v).railToSafe ((State.get_set_ne s _ _ 1 hreg).trans hs)

end

theorem supplyHold_eq (p : Nat) (s : State) :
    supplyHold p s = latchClass clsDieAlarm (s.each 6 (fun j s => railUnfed (6 * p + j) s)) := rfl

section
variable {ok : Fld → Prop} {P : State → Prop} {s : State} {f : Fld}

theorem latchClass_get (hn : RegName.FLT_PKG ≠ f.reg.name) (c : Nat) (s : State) : (latchClass c s).get f = s.get f :=
  State.get_set_ne s _ _ _ (Reg.ne_of_name hn)

theorem latchClass_latch {c : Nat} (hc : c < 13) (s : State) : (latchClass c s).bit FLT_PKG_LATCH c = true :=
  State.bit_setBit_same s true (by decide) hc

theorem supplyHold_held (p : Fin 4) (j : Fin 6) (s : State) : (supplyHold p s).get (FLT_RSTAT_SUP_HELD (6 * p + j)) = 1 := by
  rw [supplyHold_eq, latchClass_get (show RegName.FLT_PKG ≠ .FLT_RSTAT by decide)]
  exact State.each_at _ (A := fun _ => True) (B := fun t => t.get (FLT_RSTAT_SUP_HELD (6 * p + j)) = 1) j.isLt (fun _ _ _ _ => trivial)
    (fun t _ => railUnfed_held _ t) (fun i t hi h => railUnfed_held_other (by omega) h) trivial

theorem supplyHold_state (p : Fin 4) (j : Fin 6) (s : State) : (supplyHold p s).railState (6 * p + j) =
    if s.railState (6 * p + j) = railOff then railOff else railSafe := by
  have hlatch : (supplyHold p s).railState (6 * p + j) = (s.each 6 (fun j s => railUnfed (6 * p + j) s)).railState (6 * p + j) :=
    latchClass_get (f := PRG_RSTAT_STATE _) (show RegName.FLT_PKG ≠ .PRG_RSTAT by decide) _ _
  rw [hlatch]
  exact State.each_at _ (A := fun t => t.railState (6 * p + j) = s.railState (6 * p + j))
    (B := fun t => t.railState (6 * p + j) = if s.railState (6 * p + j) = railOff then railOff else railSafe) j.isLt
    (fun i t hi h => railUnfed_state_other (by omega) h) (fun t h => by rw [railUnfed_state, h])
    (fun i t hi h => railUnfed_state_other (by omega) h) rfl

theorem Calm.supplyHold (K : Calm FaultFld P) {p : Nat} (hs : P s) : P (supplyHold p s) :=
  K.set latch_fault <|
    State.each_keeps 6 _ (fun _ _ _ h => (K.mono fun _ hf => UnfedFld.fault hf).railUnfed h) hs

/-- Two states between which a calm operation has run post the same. -/
theorem Silent.of_events {s t : State} (h : t.evtSeq = s.evtSeq ∧ t.evtFifo = s.evtFifo) : Silent s t :=
  (Silent.refl s).rest h.1 h.2

end

/-- The supply's state at the hub's monitors changes. -/
def supplyMoved (x : Nat) (on : Bool) (s : State) : State := s.modPkg (fun p => { p with supplyOut := bitPut p.supplyOut x on })

theorem exec_supplyOutOfBand_vddpwm {p : Fin 4} {x : Fin 18} {s : State} (hx : x.val = 9 + p.val) (hoff : s.pkg ≠ pkgOff)
    (hkeep : s.pkg ≠ pkgKeep) : exec (.supplyOutOfBand x true) s = .next (supplyHold p (supplyMoved x true s)) := by
  change execSupplyOutOfBand x true s = _
  have hi : x.val - 9 = p.val := by omega
  have hmove : x.val < 9 ∨ x.val < 13 ∧ true = true := .inr ⟨by omega, rfl⟩
  have hpkg : ¬((supplyMoved x true s).pkg = pkgOff ∨ (supplyMoved x true s).pkg = pkgKeep) := not_or.2 ⟨hoff, hkeep⟩
  unfold execSupplyOutOfBand
  dsimp only
  rw [if_pos hmove, if_neg (by omega : ¬x.val = 17)]
  refine congrArg Host.Outcome.next ((if_neg hpkg).trans ?_)
  rw [if_neg (by omega : ¬x.val < 5), if_neg (by decide : ¬(!true) = true), if_neg (by omega : ¬x.val < 7),
    if_neg (by omega : ¬x.val < 9), if_pos (by omega : x.val < 13), hi]
  rfl

/-- VDDPWM_p out of its band holds the region's rails (R430). -/
theorem supplyOutOfBand_vddpwm {p : Fin 4} {x : Fin 18} {s : State} (hx : x.val = 9 + p.val) (hoff : s.pkg ≠ pkgOff)
    (hkeep : s.pkg ≠ pkgKeep) : ∃ u, exec (.supplyOutOfBand x true) s = .next u ∧ (∀ j : Fin 6,
      u.get (FLT_RSTAT_SUP_HELD (6 * p + j)) = 1 ∧ u.railState (6 * p + j) = if s.railState (6 * p + j) = railOff then railOff
      else railSafe) ∧ u.bit FLT_PKG_LATCH 6 = true ∧ Silent s u ∧ Within s u faultSpans := by
  have hmoved : Within s (supplyMoved x true s) faultSpans := (calm_faultSpans s).beside (Within.refl s _) rfl
  exact ⟨_, exec_supplyOutOfBand_vddpwm hx hoff hkeep, fun j => ⟨supplyHold_held p j _, supplyHold_state p j _⟩,
    latchClass_latch (by decide) _, .of_events ((calm_events FaultFld _ _).supplyHold ⟨rfl, rfl⟩),
    (calm_faultSpans s).supplyHold hmoved⟩

/-! ### The end of a supply hold -/

theorem Calm.supplyHoldEnd {P : State → Prop} {p : Nat} {s : State} (K : Calm FaultFld P) (hs : P s) :
    P (s.each 6 (fun j s => s.set (FLT_RSTAT_SUP_HELD (6 * p + j)) 0)) :=
  State.each_keeps 6 _ (fun _ _ _ h => K.set (supHeld_fault _) h) hs

/-- VDDPWM_p back in its band ends the holds and moves no rail (R430). -/
theorem supplyHoldEnd_ends (p : Fin 4) (s : State) : ∃ u, exec (.supplyHoldEnd p) s = .next u ∧
    (∀ j : Fin 6, u.get (FLT_RSTAT_SUP_HELD (6 * p + j)) = 0) ∧ (∀ r : Fin 24, u.railState r = s.railState r) ∧ Silent s u ∧
    Within s u faultSpans := by
  have hmoved : Within s (supplyMoved (9 + p.val) false s) faultSpans := (calm_faultSpans s).beside (Within.refl s _) rfl
  refine ⟨_, rfl, fun j => ?_, fun r => ?_, .of_events ((calm_events FaultFld _ _).supplyHoldEnd ⟨rfl, rfl⟩),
    (calm_faultSpans s).supplyHoldEnd hmoved⟩
  · have hset : ∀ (i : Nat) (t : State), (t.set (FLT_RSTAT_SUP_HELD i) 0).get (FLT_RSTAT_SUP_HELD i) = 0 := fun i t =>
      State.get_set_same t (FLT_RSTAT_SUP_HELD i) 0 (show 6 + 1 ≤ 32 by decide)
    refine State.each_at _ (A := fun _ => True) (B := fun t => t.get (FLT_RSTAT_SUP_HELD (6 * p + j)) = 0) j.isLt
      (fun _ _ _ _ => trivial) (fun t _ => hset _ t) (fun i t hi h => ?_) trivial
    refine (State.get_set_ne t _ _ 0 fun e => ?_).trans h
    injection e with _ he
    omega
  · exact State.each_keeps (P := fun t => t.railState r = s.railState r) 6 _ (fun _ _ t h =>
      (State.get_set_ne t _ _ 0 (Reg.ne_of_name (show RegName.FLT_RSTAT ≠ .PRG_RSTAT by decide))).trans h) rfl

end Sys2Proof.Machine

/-! A die's isolation (R24): it is latched and recorded, and what the die carried falls away by writes of no register that shows the
isolation. -/

namespace Sys2Proof.Machine

/-! ### A die's isolation is latched and recorded (R24) -/

/-- A record that enters or is dropped sets no sticky bit but the overflow's. -/
theorem State.sticky_postEvt {i : Nat} (hi : i ≠ 2) (hw : i < 8) (s : State) (code src body : Nat) :
    (s.postEvt code src body).bit GLB_EVT_EVT i = s.bit GLB_EVT_EVT i := by
  have K := kept_get GLB_EVT_EVT (s.get GLB_EVT_EVT)
  unfold State.postEvt
  dsimp only
  split
  · have hline := K.eventLine (s := { s with
      evtSeq := s.evtSeq + 1, evtFull := false, evtDropped := 0
      evtFifo := s.evtFifo ++ [{ code := code, src := src, seq := s.evtSeq + 1, time := s.getWide GLB_TIMER_LO_US GLB_TIMER_HI_US
                                 body := body, dropped := satNat 16 s.evtDropped }] })
      (Reg.ne_of_name (show RegName.DMA_REQ_PEND ≠ .GLB_EVT by decide)) (K.rest s _ rfl (.refl s) rfl)
    exact State.bit_of_get (K.raiseIbi _ _ (K.set _ _ (Reg.ne_of_name (show RegName.MGT_EV ≠ .GLB_EVT by decide)) hline)) i
  · have hcount := K.bump GLB_EVCNT_OVF_CNT (Reg.ne_of_name (show RegName.GLB_EVCNT ≠ .GLB_EVT by decide)) <|
      K.rest s { s with evtSeq := s.evtSeq + 1, evtDropped := s.evtDropped + 1, evtFull := true } rfl (.refl s) rfl
    unfold State.when
    split
    · rw [State.bit_setBit _ _ _ (by decide) hw, if_neg hi]
      exact State.bit_of_get hcount i
    · exact State.bit_of_get hcount i

theorem State.sticky_pushEvt {i : Nat} (hi : i ≠ 2) (hw : i < 8) (s : State) (code src body : Nat) :
    (s.pushEvt code src body).bit GLB_EVT_EVT i = s.bit GLB_EVT_EVT i := by
  unfold State.pushEvt
  split
  · exact State.sticky_postEvt hi hw ..
  · rfl

/-- The sticky bit of an event raised stands, unless the field is without the bit. -/
theorem State.sticky_raise {i : Nat} (hi : i ≠ 2) (hw : i < 8) (s : State) (code src : Nat) (body : List (Nat × Nat)) :
    (s.raise GLB_EVT_EVT i code src body).bit GLB_EVT_EVT i = true :=
  (State.sticky_pushEvt hi hw ..).trans (State.bit_setBit_same s true (by decide) hw)

/-- The isolation of a die is latched and recorded. -/
def detected (d : Nat) (t : State) : State :=
  (latchClass clsDieIsolated (t.setBit GLB_DIE_ISOLATED d true)).raise GLB_EVT_EVT 1 0x0001 d [(2, d)]

/-- A die is shown isolated: in GLB_DIE, by its fault class and by the sticky bit of its event. -/
structure ShownIsolated (d : Nat) (u : State) : Prop where
  isolated : u.isolated d = true
  latched : u.bit FLT_PKG_LATCH clsDieIsolated = true
  sticky : u.bit GLB_EVT_EVT 1 = true

theorem detected_shown {d : Nat} (hd : d < 4) (t : State) : ShownIsolated d (detected d t) where
  isolated := by
    refine (State.bit_of_get ?_ d).trans (State.bit_setBit_same t true (by decide) hd)
    exact (State.get_pushEvt _ _ _ _ _ (show GLB_DIE_ISOLATED.reg.off ∉ eventOffs by decide)).trans <|
      (State.get_set_ne _ _ _ _ (Reg.ne_of_name (show RegName.GLB_EVT ≠ .GLB_DIE by decide))).trans <|
      latchClass_get (show RegName.FLT_PKG ≠ .GLB_DIE by decide) _ _
  latched := by
    refine (State.bit_of_get ?_ clsDieIsolated).trans (latchClass_latch (by decide) (t.setBit GLB_DIE_ISOLATED d true))
    exact (State.get_pushEvt _ _ _ _ _ (show FLT_PKG_LATCH.reg.off ∉ eventOffs by decide)).trans <|
      State.get_set_ne _ _ _ _ (Reg.ne_of_name (show RegName.GLB_EVT ≠ .FLT_PKG by decide))
  sticky := State.sticky_raise (by decide) (by decide) ..

/-- The record comes from the C-die, where the FIFO is. -/
theorem detected_posted {s t : State} (h : Silent s t) (d : Nat) : Posted s (detected d t) 0x0001 d :=
  posted_pushEvt (((h.set _ _).set _ _).set _ _) _ _ _ rfl

theorem detected_within {s t : State} (h : Within s t faultSpans) (d : Nat) : Within s (detected d t) faultSpans := by
  have K := kept_within_names s faultSpans
  have hall : ∀ n ∈ [RegName.GLB_DIE, .FLT_PKG, .GLB_EVT], n.within faultSpans = true := by decide
  exact K.raise _ _ _ _ _ (.inl (hall .GLB_EVT (by decide))) (fun _ => .inr) <| K.setBit _ _ _ (.inl (hall .FLT_PKG (by decide))) <|
    K.setBit _ _ _ (.inl (hall .GLB_DIE (by decide))) h

/-- What an isolation does in a state in which the dies run. -/
theorem dieIsolate_eq {d : Nat} {s : State} (hoff : s.pkg ≠ pkgOff) (hboot : s.pkg ≠ pkgBoot) (hkeep : s.pkg ≠ pkgKeep)
    (hiso : s.isolated d = false) : dieIsolate d s =
      if d = dieT0 ∨ d = dieT1 then
        reelect none (showEpoch ((if d = dieT0 then 0 else 2) / 2) (showRegion ((if d = dieT0 then 0 else 2) + 1)
          (showRegion (if d = dieT0 then 0 else 2) (detected d s))))
      else if d = dieC then
        dueReset ((keepPins s (tearBurn (detected d s))).modOtp
          (fun o => { o with burn := none, due := o.due.filter (fun e => e.1 = ResetKind.pin.code) }))
      else if d = dieP then (((keepPads s (detected d s)).each 24 railToSafe).set HUP_STAT_CHG chgOff).set HUP_STAT_ON_STORE 0
      else detected d s := by
  unfold dieIsolate
  rw [if_neg (by simp [hiso, hoff, hkeep]), if_neg hboot]
  rfl

/-- Of a die that is isolated nothing more falls away. -/
theorem dieIsolate_isolated {d : Nat} {s : State} (h : s.isolated d = true) : dieIsolate d s = s := if_pos (.inl h)

/-! ### What a T-die carried falls away -/

/-- The names of the registers that show it. -/
def tileNames : List RegName :=
  [.OUT_STAT, .SYN_STAT, .SYN_BYP_STAT, .PRG_WSTAT, .PRG_EVT, .LNK_EPOCH, .LNK_STAT, .LNK_OFR_LAT, .LNK_OFR_PH, .LNK_SYS_STAT,
    .LNK_GM_LO, .LNK_GM_HI, .LNK_GM_INFO, .LNK_ACC_LAT, .LNK_ACC_PH, .LNK_SYS_CNT, .LNK_SYS_EVT, .PLZ_SEL_SYS]

/-- A property that writes of those registers, changes beside the registers and the stores, and events keep. -/
structure Tile (P : State → Prop) : Prop where
  set : ∀ {s : State} {f : Fld} {v : Nat}, tileNames.contains f.reg.name = true → P s → P (s.set f v)
  rest : ∀ {s t : State}, t.regs = s.regs → Stored s t → P s → P t
  pushEvt : ∀ {s : State} {code src body : Nat}, P s → P (s.pushEvt code src body)

theorem Kept.tile {ok : Reg → Prop} {P : State → Prop} (K : Kept ok P) (hname : ∀ r : Reg, tileNames.contains r.name = true → ok r)
    (hevt : ∀ r : Reg, r.off ∈ eventOffs → ok r) : Tile P where
  set hf hs := K.set _ _ (hname _ hf) hs
  rest := K.rest _ _
  pushEvt hs := K.pushEvt _ _ _ hevt hs

/-- A register of another name, that no event writes, keeps its value through that fall. -/
theorem tile_get (f : Fld) (v : Nat) (hname : tileNames.contains f.reg.name = false) (hevt : f.reg.off ∉ eventOffs) :
    Tile (fun s => s.get f = v) :=
  (kept_get f v).tile (fun r hr => by rintro rfl; exact absurd hr (Bool.eq_false_iff.1 hname)) (fun r hr => by rintro rfl; exact hevt hr)

theorem tile_sticky : Tile (fun s => s.bit GLB_EVT_EVT 1 = true) where
  set hf hs := (State.bit_of_get (State.get_set_ne _ _ _ _ (by rintro e; rw [e] at hf; exact absurd hf (by decide))) 1).trans hs
  rest hr _ hs := (State.bit_of_get (State.get_of_regs hr _) 1).trans hs
  pushEvt hs := (State.sticky_pushEvt (by decide) (by decide) ..).trans hs

theorem tile_shown (d : Nat) : Tile (ShownIsolated d) := by
  have hdie := fun v => tile_get GLB_DIE_ISOLATED v rfl (by decide)
  have hlatch := fun v => tile_get FLT_PKG_LATCH v rfl (by decide)
  exact {
    set := fun hf hs => ⟨(State.bit_of_get ((hdie _).set hf rfl) d).trans hs.isolated,
      (State.bit_of_get ((hlatch _).set hf rfl) _).trans hs.latched, tile_sticky.set hf hs.sticky⟩
    rest := fun hr hk hs => ⟨(State.bit_of_get ((hdie _).rest hr hk rfl) d).trans hs.isolated,
      (State.bit_of_get ((hlatch _).rest hr hk rfl) _).trans hs.latched, tile_sticky.rest hr hk hs.sticky⟩
    pushEvt := fun hs => ⟨(State.bit_of_get ((hdie _).pushEvt rfl) d).trans hs.isolated,
      (State.bit_of_get ((hlatch _).pushEvt rfl) _).trans hs.latched, tile_sticky.pushEvt hs.sticky⟩ }

theorem tile_within (s : State) : Tile (fun t => Within s t faultSpans) := by
  have hall : ∀ n ∈ tileNames, n.within faultSpans = true := by decide
  exact (kept_within_names s faultSpans).tile (fun r hr => .inl (hall _ (List.contains_iff_mem.1 hr))) fun _ => .inr

section
variable {P : State → Prop} {s t : State}

theorem Tile.beside (K : Tile P) (hs : P s)
    (h : (t.regs, t.flash, t.torn, t.engMem, t.otp.fuse, t.pending) = (s.regs, s.flash, s.torn, s.engMem, s.otp.fuse, s.pending)) :
    P t := by
  simp only [Prod.mk.injEq] at h
  obtain ⟨hr, hf, ht, he, hu, hp⟩ := h
  exact K.rest hr ⟨hf, ht, he, hu, hp⟩ hs

theorem Tile.put (K : Tile P) {f : Fld} {b : Bool} (hf : tileNames.contains f.reg.name = true) (hs : P s) : P (s.put f b) :=
  K.set hf hs

theorem Tile.raise (K : Tile P) {f : Fld} {i code src : Nat} {body : List (Nat × Nat)} (hf : tileNames.contains f.reg.name = true)
    (hs : P s) : P (s.raise f i code src body) :=
  K.pushEvt (K.set hf hs)

theorem Tile.ite (_ : Tile P) {c : Prop} [Decidable c] (hs : P s) (ht : P t) : P (if c then s else t) := by
  split
  · exact hs
  · exact ht

theorem Tile.each (_ : Tile P) {n : Nat} {f : Nat → State → State} (hf : ∀ i s, P s → P (f i s)) (hs : P s) : P (s.each n f) :=
  s.each_keeps n f (fun i _ => hf i) hs

theorem Tile.foldl (_ : Tile P) {α : Type} {l : List α} {f : State → α → State} (hf : ∀ s a, P s → P (f s a)) (hs : P s) :
    P (l.foldl f s) :=
  foldl_keeps l f (fun a _ s => hf s a) hs

theorem Tile.when (_ : Tile P) {b : Bool} {f : State → State} (hf : ∀ s, P s → P (f s)) (hs : P s) : P (s.when b f) :=
  s.when_keeps b f (fun _ => hf s) hs

theorem Tile.sysEvt (K : Tile P) {bit : Nat} {body : List (Nat × Nat)} (hs : P s) : P (sysEvt bit body s) := K.raise rfl hs

theorem Tile.noteLink (K : Tile P) {code : Nat} (hs : P s) : P (noteLink code s) := K.ite (K.beside hs rfl) hs

theorem Tile.sendMessage (K : Tile P) {k : Nat} {m : List Byte} (hs : P s) : P (sendMessage k m s) :=
  K.ite (K.each (fun _ _ h => K.beside h rfl) hs) (K.beside hs rfl)

theorem Tile.sendUp (K : Tile P) {m : Nat → List Byte} (hs : P s) : P (sendUp m s) :=
  K.each (fun _ _ h => K.when (fun _ h1 => K.sendMessage h1) h) hs

theorem Tile.showPorts (K : Tile P) (hs : P s) : P (showPorts s) := by
  refine K.each (fun k s h => ?_) hs
  have hport : ∀ {x y : Nat}, P ((s.set (LNK_STAT_ROLE k) x).set (LNK_STAT_OFFER k) y) := K.set rfl <| K.set rfl h
  dsimp only
  split
  · exact K.set rfl <| K.set rfl <| K.set rfl hport
  · exact hport

theorem Tile.showSys (K : Tile P) (hs : P s) : P (showSys s) := by
  refine K.each (fun t s h => ?_) hs
  have hnone : P (s.set (PLZ_SEL_SYS_SYS_VALID t) 0) := K.set rfl h
  have hshown : ∀ {x : Nat}, P ((s.set (PLZ_SEL_SYS_SYS_IDX t) x).set (PLZ_SEL_SYS_SYS_VALID t) 1) := K.set rfl <| K.set rfl h
  refine K.ite (K.ite ?_ (K.ite hshown hnone)) h
  split
  · exact K.ite hshown hnone
  · exact hnone

theorem Tile.clearSysValid (K : Tile P) (hs : P s) : P (clearSysValid s) := K.each (fun _ _ h => K.set rfl h) hs

theorem Tile.setGm (K : Tile P) {gm prio1 prio2 cls lat ph hops : Nat} (hs : P s) : P (setGm gm prio1 prio2 cls lat ph hops s) :=
  K.set rfl <| K.set rfl <| K.set rfl <| K.set rfl <| K.set rfl <| K.set rfl <| K.set rfl <| K.set rfl hs

theorem Tile.gmChange (K : Tile P) {old : Nat} (hs : P s) : P (gmChange old s) := K.noteLink <| K.sysEvt <| K.set rfl hs

theorem Tile.adopt (K : Tile P) {k : Nat} {o : Offer} (hs : P s) : P (adopt k o s) := by
  have hs2 : ∀ {gm prio1 prio2 cls lat ph hops cause now : Nat}, P (Machine.showSys (Machine.showPorts
      (((Machine.setGm gm prio1 prio2 cls lat ph hops
        ((s.set LNK_SYS_STAT_UPLINK k).set LNK_SYS_STAT_UPL_VALID 1)).set LNK_SYS_STAT_CAUSE cause).set LNK_SYS_STAT_STATE now))) :=
    K.showSys <| K.showPorts <| K.set rfl <| K.set rfl <| K.setGm <| K.set rfl <| K.set rfl hs
  have hs4 : ∀ {heal moved : Bool} {old : Nat} {t : State}, P t → P ((t.when heal (fun s =>
      Machine.noteLink 0x04 (Machine.sysEvt 4 [(2, k)] (s.bump LNK_SYS_CNT_HEAL_CNT)))).when moved (Machine.gmChange old)) := fun ht =>
    K.when (fun _ h => K.gmChange h) <| K.when (fun _ h => K.noteLink <| K.sysEvt <| K.set rfl h) ht
  exact K.ite (hs4 hs2) <| K.ite (K.noteLink <| K.sysEvt (hs4 hs2)) <| K.noteLink <| K.sysEvt (hs4 hs2)

theorem Tile.reelect (K : Tile P) {from_ : Option Nat} (hs : P s) : P (reelect from_ s) := by
  refine K.ite ?_ (K.ite ?_ (K.showPorts hs))
  · split
    · exact K.when (fun _ h => K.sendUp h) <| K.adopt hs
    · exact K.showPorts <| K.set rfl <| K.set rfl <| K.clearSysValid <| K.sendUp <| K.showPorts hs
  · split
    · exact K.ite (K.sendUp <| K.adopt hs) <| K.showPorts hs
    · exact K.showPorts hs

theorem Tile.showEpoch (K : Tile P) {d : Nat} (hs : P s) : P (showEpoch d s) := by
  have hput : P (s.put (if d = 0 then LNK_EPOCH_OK0 else LNK_EPOCH_OK1) (s.epochMet d)) := by
    refine K.set ?_ hs
    split <;> rfl
  exact K.ite (K.ite hput <| K.reelect <| K.foldl (fun _ _ h => K.beside (K.set rfl h) rfl) hput) hput

theorem Tile.refreshWindow (K : Tile P) {p w : Nat} (hs : P s) : P (refreshWindow p w s) := by
  have hset : ∀ {x y : Bool}, P ((s.setBit (PRG_WSTAT_ACTIVE p) w x).setBit (PRG_WSTAT_SUSP p) w y) := K.set rfl <| K.set rfl hs
  exact K.ite (K.raise rfl hset) hset

theorem Tile.refreshAllWindows (K : Tile P) (hs : P s) : P (refreshAllWindows s) :=
  K.showEpoch <| K.showEpoch <| K.each (fun _ _ h => K.each (fun _ _ h1 => K.refreshWindow h1) h) hs

theorem Tile.rearmDeps (K : Tile P) (hs : P s) : P (rearmDeps s) := K.beside hs rfl

theorem Tile.showRegion (K : Tile P) {t : Nat} (hs : P s) : P (showRegion t s) := by
  have hclk : P (s.each 12 (fun j s => s.put (OUT_STAT_CLKQ (12 * t + j)) (s.clockQualified (12 * t + j)))) :=
    K.each (fun _ _ h => K.put rfl h) hs
  refine K.refreshAllWindows <| K.rearmDeps <| K.each (fun _ _ h => ?_) hclk
  iterate 5 refine K.set rfl ?_
  iterate 3 refine K.put rfl ?_
  exact h

/-- What a T-die's isolation shows of its two regions and its epoch, and the election that follows, write those registers alone. -/
theorem Tile.tileFalls (K : Tile P) {d : Nat} (hd : d = dieT0 ∨ d = dieT1) (hoff : s.pkg ≠ pkgOff) (hboot : s.pkg ≠ pkgBoot)
    (hkeep : s.pkg ≠ pkgKeep) (hiso : s.isolated d = false) (hs : P (detected d s)) : P (dieIsolate d s) := by
  rw [dieIsolate_eq hoff hboot hkeep hiso, if_pos hd]
  exact K.reelect <| K.showEpoch <| K.showRegion <| K.showRegion hs

end

/-! ### Pins keep their levels, a burn is torn -/

theorem heldLevel_state (o : PinOut) (s : State) : ∃ n, (heldLevel o s).2 = { s with freeCount := n } := by
  unfold heldLevel
  cases o with
  | pwm per duty od =>
    dsimp only
    split
    · exact ⟨_, rfl⟩
    · split
      · exact ⟨_, rfl⟩
      · exact ⟨_, rfl⟩
  | _ => exact ⟨_, rfl⟩

/-- One pin keeps its level. -/
def keepLevel (old s : State) (i : Nat) : State :=
  let (o, s) := heldLevel (old.pinOut old.alarms i) s
  { s with pin := { s.pin with kept := (i, o) :: s.pin.kept } }

theorem keepLevels_eq (l : List Nat) (old s : State) : keepLevels l old s = l.foldl (keepLevel old) s := rfl

theorem keepLevel_state (old s : State) (i : Nat) : ∃ p n, keepLevel old s i = { s with pin := p, freeCount := n } := by
  obtain ⟨n, hn⟩ := heldLevel_state (old.pinOut old.alarms i) s
  refine ⟨{ s.pin with kept := (i, (heldLevel (old.pinOut old.alarms i) s).1) :: s.pin.kept }, n, ?_⟩
  unfold keepLevel
  dsimp only
  rw [hn]

/-- Pins that keep their levels change the pins and draw free words. -/
theorem keepLevels_state (l : List Nat) (old s : State) : ∃ p n, keepLevels l old s = { s with pin := p, freeCount := n } := by
  rw [keepLevels_eq]
  induction l generalizing s with
  | nil => exact ⟨_, _, rfl⟩
  | cons i l ih =>
    obtain ⟨p, n, hstep⟩ := keepLevel_state old s i
    obtain ⟨q, m, hrest⟩ := ih { s with pin := p, freeCount := n }
    exact ⟨q, m, by rw [List.foldl_cons, hstep, hrest]⟩

theorem tearBurn_state (s : State) : ∃ f n, tearBurn s = { s with otp := { s.otp with fuse := f }, freeCount := n } := by
  unfold tearBurn
  split <;> exact ⟨_, _, rfl⟩

/-! ### What the C-die and the P-die carried falls away -/

theorem ShownIsolated.of_gets {d : Nat} {s t : State} (h : ShownIsolated d s) (hdie : t.get GLB_DIE_ISOLATED = s.get GLB_DIE_ISOLATED)
    (hlatch : t.get FLT_PKG_LATCH = s.get FLT_PKG_LATCH) (hevt : t.get GLB_EVT_EVT = s.get GLB_EVT_EVT) : ShownIsolated d t :=
  ⟨(State.bit_of_get hdie d).trans h.isolated, (State.bit_of_get hlatch _).trans h.latched, (State.bit_of_get hevt 1).trans h.sticky⟩

theorem ShownIsolated.of_regs {d : Nat} {s t : State} (h : ShownIsolated d s) (hr : t.regs = s.regs) : ShownIsolated d t :=
  h.of_gets (State.get_of_regs hr _) (State.get_of_regs hr _) (State.get_of_regs hr _)

theorem Posted.of_events {s t u : State} {code src : Nat} (h : Posted s t code src) (he : u.evtSeq = t.evtSeq ∧ u.evtFifo = t.evtFifo) :
    Posted s u code src := by
  unfold Posted Silent at *
  rwa [he.1, he.2]

theorem detected_otp (d : Nat) (s : State) : (detected d s).otp = s.otp := by
  unfold detected latchClass State.raise
  simp [State.setBit_eq]

theorem detected_get {d : Nat} {f : Fld} (hn : [RegName.GLB_DIE, .FLT_PKG, .GLB_EVT].contains f.reg.name = false)
    (he : f.reg.off ∉ eventOffs) (s : State) : (detected d s).get f = s.get f := by
  have hne : ∀ g : Fld, [RegName.GLB_DIE, .FLT_PKG, .GLB_EVT].contains g.reg.name = true → g.reg ≠ f.reg := by
    rintro g hg e
    rw [e, hn] at hg
    exact absurd hg Bool.false_ne_true
  exact (State.get_pushEvt _ _ _ _ _ he).trans <| (State.get_set_ne _ _ _ _ (hne _ rfl)).trans <|
    (State.get_set_ne _ _ _ _ (hne _ rfl)).trans <| State.get_set_ne _ _ _ _ (hne _ rfl)

/-- With no reset waiting, a C-die's isolation tears a burn and lets the pins keep their levels. -/
theorem dieIsolate_controller {s : State} (hoff : s.pkg ≠ pkgOff) (hboot : s.pkg ≠ pkgBoot) (hkeep : s.pkg ≠ pkgKeep)
    (hiso : s.isolated dieC = false) (hdue : s.otp.due = none) : ∃ p n f, dieIsolate dieC s =
      { detected dieC s with pin := p, freeCount := n, otp := { (detected dieC s).otp with fuse := f, burn := none } } := by
  have hdue' : (detected dieC s).otp.due = none := by rw [detected_otp, hdue]
  obtain ⟨f, n, htear⟩ := tearBurn_state (detected dieC s)
  obtain ⟨p, m, hpins⟩ := keepLevels_state (List.range 64) s (tearBurn (detected dieC s))
  refine ⟨p, m, f, ?_⟩
  rw [dieIsolate_eq hoff hboot hkeep hiso, if_neg (by decide), if_pos rfl]
  unfold keepPins
  rw [hpins, htear]
  unfold State.modOtp
  dsimp only
  rw [hdue']
  unfold dueReset
  rw [Option.filter_none]

/-- Those registers and the charger's. -/
def powerNames : List RegName := [.PRG_RSTAT, .FLT_RSTAT, .PRG_PH, .PRG_FM_STAT, .HUP_STAT]

/-- The fields that a P-die's isolation writes: those of rails as they enter SAFE, and the charger's. -/
def PowerFld (f : Fld) : Prop := powerNames.contains f.reg.name = true

theorem SafeFld.power {r : Nat} {f : Fld} (h : SafeFld r f) : PowerFld f := by
  have hall : ∀ n ∈ safeNames, powerNames.contains n = true := by decide
  exact hall _ (List.contains_iff_mem.1 h.name)

theorem PowerFld.fault {f : Fld} (h : PowerFld f) : FaultFld f := by
  have hall : ∀ n ∈ powerNames, n.within faultSpans = true := by decide
  exact hall _ (List.contains_iff_mem.1 h)

theorem PowerFld.apart {f g : Fld} (h : PowerFld f)
    (hg : powerNames.contains g.reg.name = false) : f.Apart g := by
  refine Fld.apart_of_name fun e => ?_
  unfold PowerFld at h
  rw [e, hg] at h
  exact absurd h Bool.false_ne_true

theorem Calm.keepPads {ok : Fld → Prop} {P : State → Prop} (K : Calm ok P) {old s : State} (hs : P s) : P (keepPads old s) := by
  obtain ⟨p, n, h⟩ := keepLevels_state ((List.range 8).map (56 + ·)) old s
  unfold Machine.keepPads
  rw [h]
  exact K.beside hs rfl

section
variable {s : State} (hoff : s.pkg ≠ pkgOff) (hboot : s.pkg ≠ pkgBoot) (hkeep : s.pkg ≠ pkgKeep) (hiso : s.isolated dieP = false)
include hoff hboot hkeep hiso

theorem dieIsolate_power : dieIsolate dieP s =
    (((keepPads s (detected dieP s)).each 24 railToSafe).set HUP_STAT_CHG chgOff).set HUP_STAT_ON_STORE 0 := by
  rw [dieIsolate_eq hoff hboot hkeep hiso, if_neg (by decide), if_neg (by decide), if_pos rfl]

theorem Calm.powerFalls {P : State → Prop} (K : Calm PowerFld P) (hs : P (detected dieP s)) : P (dieIsolate dieP s) := by
  rw [dieIsolate_power hoff hboot hkeep hiso]
  exact K.set rfl <| K.set rfl <|
    State.each_keeps 24 _ (fun r _ _ h => (K.mono fun _ => SafeFld.power (r := r)).railToSafe h) <| K.keepPads hs

/-- A register of another name keeps what the record of the isolation left. -/
theorem dieIsolate_power_get (g : Fld)
    (hg : powerNames.contains g.reg.name = false) :
    (dieIsolate dieP s).get g = (detected dieP s).get g :=
  (calm_get (ok := PowerFld) g _ fun _ hf => hf.apart hg).powerFalls hoff hboot hkeep hiso rfl

theorem dieIsolate_power_shown : ShownIsolated dieP (dieIsolate dieP s) :=
  have keeps := dieIsolate_power_get hoff hboot hkeep hiso
  (detected_shown (by decide) s).of_gets (keeps _ rfl) (keeps _ rfl) (keeps _ rfl)

theorem dieIsolate_power_posted {z : State} (hz : Silent z s) : Posted z (dieIsolate dieP s) 0x0001 dieP :=
  (detected_posted hz dieP).of_events <| (calm_events PowerFld _ _).powerFalls hoff hboot hkeep hiso ⟨rfl, rfl⟩

theorem dieIsolate_power_within {z : State} (hz : Within z s faultSpans) : Within z (dieIsolate dieP s) faultSpans :=
  ((calm_faultSpans z).mono fun _ => PowerFld.fault).powerFalls hoff hboot hkeep hiso (detected_within hz dieP)

/-- Every rail that was not OFF is in SAFE. -/
theorem dieIsolate_power_rails (r : Fin 24) :
    (dieIsolate dieP s).railState r = if s.railState r = railOff then railOff else railSafe := by
  have hne : ∀ f : Fld, f.reg.name = .HUP_STAT → f.reg ≠ (PRG_RSTAT_STATE r).reg := fun f hf => Reg.ne_of_name (by
    rw [hf]
    exact show RegName.HUP_STAT ≠ .PRG_RSTAT by decide)
  have hset : ∀ t : State, ((t.set HUP_STAT_CHG chgOff).set HUP_STAT_ON_STORE 0).railState r = t.railState r := fun t =>
    (State.get_set_ne _ HUP_STAT_ON_STORE (PRG_RSTAT_STATE r) 0 (hne _ rfl)).trans
      (State.get_set_ne t HUP_STAT_CHG (PRG_RSTAT_STATE r) chgOff (hne _ rfl))
  have hbefore : (keepPads s (detected dieP s)).railState r = s.railState r :=
    ((calm_get (ok := fun _ => False) (PRG_RSTAT_STATE r) _ fun _ => False.elim).keepPads rfl).trans
      (detected_get rfl (aside_railState r).2 s)
  rw [dieIsolate_power hoff hboot hkeep hiso, hset]
  exact State.each_at railToSafe (A := fun t => t.railState r = s.railState r)
    (B := fun t => t.railState r = if s.railState r = railOff then railOff else railSafe) r.isLt
    (fun i t hi h => (railToSafe_other hi _).railToSafe h) (fun t h => by rw [railToSafe_self, h])
    (fun i t hi h => (railToSafe_other hi _).railToSafe h) hbefore

/-- The charger is off and the gates of the store too (R214). -/
theorem dieIsolate_power_charger :
    (dieIsolate dieP s).get HUP_STAT_CHG = chgOff ∧ (dieIsolate dieP s).on HUP_STAT_ON_STORE = false := by
  rw [dieIsolate_power hoff hboot hkeep hiso]
  generalize (keepPads s (detected dieP s)).each 24 railToSafe = t
  constructor
  · exact (State.get_set_field _ HUP_STAT_ON_STORE HUP_STAT_CHG 0 rfl (by decide) (by decide)).trans
      (State.get_set_same t HUP_STAT_CHG chgOff (by decide))
  · have hgates : ((t.set HUP_STAT_CHG chgOff).set HUP_STAT_ON_STORE 0).get HUP_STAT_ON_STORE = 0 :=
      State.get_set_same _ HUP_STAT_ON_STORE 0 (by decide)
    unfold State.on
    rw [hgates]
    rfl

end

end Sys2Proof.Machine

/-! O31: dies, supplies and temperatures, a low bank, and the scrubbers. -/

namespace Sys2Proof.Machine

/-! ### Dies found isolated, or tripped (R24, R442) -/

section
variable {s : State} (hoff : s.pkg ≠ pkgOff) (hboot : s.pkg ≠ pkgBoot) (hkeep : s.pkg ≠ pkgKeep)
include hoff hboot hkeep

theorem dieIsolate_tile_shown {d : Nat} (hd : d = dieT0 ∨ d = dieT1) (hiso : s.isolated d = false) : ShownIsolated d (dieIsolate d s) :=
  have hlt : d < 4 := by rcases hd with rfl | rfl <;> decide
  (tile_shown d).tileFalls hd hoff hboot hkeep hiso (detected_shown hlt s)

theorem dieIsolate_tile_within {d : Nat} (hd : d = dieT0 ∨ d = dieT1) (hiso : s.isolated d = false) :
    Within s (dieIsolate d s) faultSpans :=
  (tile_within s).tileFalls hd hoff hboot hkeep hiso (detected_within (Within.refl s _) d)

/-- The fuses apart, a C-die's isolation reaches no store. -/
theorem dieIsolate_controller_stores (hiso : s.isolated dieC = false) (hdue : s.otp.due = none) :
    (dieIsolate dieC s).pending = s.pending ∧ (dieIsolate dieC s).flash = s.flash ∧ RegsWithin s (dieIsolate dieC s) faultSpans := by
  obtain ⟨p, n, f, h⟩ := dieIsolate_controller hoff hboot hkeep hiso hdue
  obtain ⟨hregs, hflash, -, -, -, hpending⟩ := detected_within (Within.refl s faultSpans) dieC
  rw [h]
  exact ⟨hpending, hflash, hregs⟩

theorem dieIsolate_controller_shown (hiso : s.isolated dieC = false) (hdue : s.otp.due = none) :
    ShownIsolated dieC (dieIsolate dieC s) ∧ Posted s (dieIsolate dieC s) 0x0001 dieC ∧ (dieIsolate dieC s).otp.burn = none := by
  obtain ⟨p, n, f, h⟩ := dieIsolate_controller hoff hboot hkeep hiso hdue
  rw [h]
  exact ⟨(detected_shown (by decide) s).of_regs rfl, (detected_posted (Silent.refl s) dieC).of_events ⟨rfl, rfl⟩, rfl⟩

/-- Whichever die it is, its isolation is shown, and no register outside the spans changes. -/
theorem dieIsolate_shown (d : Fin 4) (hiso : s.isolated d = false) (hdue : d.val = dieC → s.otp.due = none) :
    ShownIsolated d (dieIsolate d s) ∧ (dieIsolate d s).pending = s.pending ∧ (dieIsolate d s).flash = s.flash ∧
      RegsWithin s (dieIsolate d s) faultSpans := by
  have hstores : ∀ {u : State}, Within s u faultSpans → u.pending = s.pending ∧ u.flash = s.flash ∧ RegsWithin s u faultSpans := by
    rintro u ⟨hregs, hflash, -, -, -, hpending⟩
    exact ⟨hpending, hflash, hregs⟩
  have tile : d.val = dieT0 ∨ d.val = dieT1 → ShownIsolated d (dieIsolate d s) ∧ (dieIsolate d s).pending = s.pending ∧
      (dieIsolate d s).flash = s.flash ∧ RegsWithin s (dieIsolate d s) faultSpans := fun hd =>
    ⟨dieIsolate_tile_shown hoff hboot hkeep hd hiso, hstores (dieIsolate_tile_within hoff hboot hkeep hd hiso)⟩
  match d with
  | 0 => exact ⟨(dieIsolate_controller_shown hoff hboot hkeep hiso (hdue rfl)).1,
      dieIsolate_controller_stores hoff hboot hkeep hiso (hdue rfl)⟩
  | 1 => exact tile (.inl rfl)
  | 2 => exact tile (.inr rfl)
  | 3 => exact ⟨dieIsolate_power_shown hoff hboot hkeep hiso,
      hstores (dieIsolate_power_within hoff hboot hkeep hiso (Within.refl s _))⟩

end

/-! ### The thermal alarm (R442) -/

theorem State.linked_of_get {s t : State} (h : t.get GLB_DIE_ISOLATED = s.get GLB_DIE_ISOLATED) (a b : Nat) :
    t.linked a b = s.linked a b := by
  have hb : ∀ d, t.isolated d = s.isolated d := fun d => State.bit_of_get h d
  unfold State.linked
  rw [hb, hb]

theorem latchFrom_get {f : Fld} (hn : RegName.FLT_PKG ≠ f.reg.name) (d c : Nat) (s : State) : (latchFrom d c s).get f = s.get f := by
  unfold latchFrom
  split
  · exact latchClass_get hn c s
  · rfl

theorem latchFrom_latch {d c : Nat} {s : State} (hc : c < 13) (h : s.linked d dieP = true) :
    (latchFrom d c s).bit FLT_PKG_LATCH c = true := by
  unfold latchFrom
  rw [if_pos h]
  exact latchClass_latch hc s

theorem latchFrom_silent (d c : Nat) (s : State) : Silent s (latchFrom d c s) := by
  unfold latchFrom
  split <;> exact ⟨rfl, rfl⟩

theorem thermalAlarm_hot (d : Fin 4) (s : State) : ∃ u, exec (.thermalAlarm d true) s = .next u ∧ u.bit GLB_DIE_THERM d = true ∧
    (s.linked d dieP = true → u.bit FLT_PKG_LATCH 6 = true) ∧ Silent s u ∧ Frame s u [Fld.off GLB_DIE_THERM, Fld.off FLT_PKG_LATCH] := by
  have K := kept_frame s [Fld.off GLB_DIE_THERM, Fld.off FLT_PKG_LATCH]
  have hdie : Frame s (s.setBit GLB_DIE_THERM d true) [Fld.off GLB_DIE_THERM, Fld.off FLT_PKG_LATCH] :=
    K.setBit _ _ _ List.mem_cons_self (Frame.refl s _)
  have hlinked : (s.setBit GLB_DIE_THERM d true).linked d dieP = s.linked d dieP :=
    State.linked_of_get (State.get_set_field s GLB_DIE_THERM GLB_DIE_ISOLATED _ rfl (by decide) (by decide)) d dieP
  refine ⟨_, rfl, ?_, fun h => ?_, latchFrom_silent d clsDieAlarm (s.setBit GLB_DIE_THERM d true), ?_⟩
  · exact (State.bit_of_get (latchFrom_get (show RegName.FLT_PKG ≠ .GLB_DIE by decide) _ _ _) d).trans
      (State.bit_setBit_same s true (by decide) d.isLt)
  · exact latchFrom_latch (by decide) (hlinked.trans h)
  · change Frame s (latchFrom d clsDieAlarm (s.setBit GLB_DIE_THERM d true)) _
    unfold latchFrom
    exact K.iteState (K.setBit FLT_PKG_LATCH clsDieAlarm true (List.mem_cons_of_mem _ List.mem_cons_self) hdie) hdie

theorem thermalAlarm_cool (d : Fin 4) (s : State) : ∃ u, exec (.thermalAlarm d false) s = .next u ∧ u.bit GLB_DIE_THERM d = false ∧
    Silent s u ∧ Frame s u [Fld.off GLB_DIE_THERM] :=
  ⟨_, rfl, State.bit_setBit_same s false (by decide) d.isLt, Silent.refl s,
    (kept_frame s [Fld.off GLB_DIE_THERM]).setBit _ _ _ List.mem_cons_self (Frame.refl s _)⟩

/-! ### VDDA_P out of its band (R430) -/

theorem maskOf_succ (n : Nat) (p : Nat → Bool) : maskOf (n + 1) p = if p n then maskOf n p + 2 ^ n else maskOf n p := by
  unfold maskOf
  rw [List.range_succ, List.foldl_append]
  rfl

theorem maskOf_lt (n : Nat) (p : Nat → Bool) : maskOf n p < 2 ^ n := by
  induction n with
  | zero => exact Nat.zero_lt_one
  | succ n ih =>
    rw [maskOf_succ, Nat.pow_succ]
    split <;> omega

/-- The last bit of a mask. -/
theorem bitOf_maskOf_last (n : Nat) (p : Nat → Bool) : bitOf (maskOf (n + 1) p) n = p n := by
  have hlt := maskOf_lt n p
  rw [bitOf_eq_testBit, maskOf_succ]
  split
  · next h => rw [Nat.add_comm, Nat.testBit_two_pow_add_eq, Nat.testBit_lt_two_pow hlt, h]; rfl
  · next h => rw [Nat.testBit_lt_two_pow hlt, Bool.eq_false_iff.2 h]

theorem supplyMoved_starved (s : State) : (supplyMoved 4 true s).dieStarved dieP = true := by
  unfold State.dieStarved supplyMoved State.modPkg
  exact List.any_eq_true.2 ⟨4, by decide, by rw [bitOf_bitPut, if_pos rfl, Bool.true_and]; decide⟩

/-- The P-die's supply is marked, and its alarm latched. -/
def powerStarved (s : State) : State := latchClass clsDieAlarm (showSupply (supplyMoved 4 true s))

theorem exec_supplyOutOfBand_power {s : State} (hoff : s.pkg ≠ pkgOff) (hkeep : s.pkg ≠ pkgKeep) :
    exec (.supplyOutOfBand 4 true) s = .next (dieIsolate dieP (powerStarved s)) := by
  change execSupplyOutOfBand 4 true s = _
  have hx : ((4 : Fin 18) : Nat) = 4 := rfl
  have hmove : (4 : Nat) < 9 ∨ (4 : Nat) < 13 ∧ true = true := .inl (by decide)
  have hpkg : ¬((supplyMoved 4 true s).pkg = pkgOff ∨ (supplyMoved 4 true s).pkg = pkgKeep) := not_or.2 ⟨hoff, hkeep⟩
  unfold execSupplyOutOfBand
  dsimp only
  rw [hx, if_pos hmove, if_neg (by decide : ¬(4 : Nat) = 17)]
  refine congrArg Host.Outcome.next ((if_neg hpkg).trans ?_)
  rw [if_pos (by decide : (4 : Nat) < 5), if_pos rfl]
  rfl

theorem powerStarved_get {f : Fld} (hn : RegName.FLT_PKG ≠ f.reg.name) (hd : GLB_DIE_SUPPLY.Apart f) (s : State) :
    (powerStarved s).get f = s.get f := by
  have hcalm := calm_get (ok := fun g => g = GLB_DIE_SUPPLY) f (s.get f) (by rintro _ rfl; exact hd)
  exact (latchClass_get hn _ _).trans (hcalm.set rfl (hcalm.beside rfl rfl))

theorem powerStarved_supply (s : State) : (powerStarved s).bit GLB_DIE_SUPPLY 3 = true := by
  have hmask := supplyMoved_starved s
  have hlt := maskOf_lt 4 (supplyMoved 4 true s).dieStarved
  have hget : (powerStarved s).get GLB_DIE_SUPPLY = maskOf 4 (supplyMoved 4 true s).dieStarved :=
    (latchClass_get (show RegName.FLT_PKG ≠ .GLB_DIE by decide) _ _).trans <|
      (State.get_set_same (supplyMoved 4 true s) GLB_DIE_SUPPLY _ (by decide)).trans (Nat.mod_eq_of_lt hlt)
  unfold State.bit
  rw [hget, bitOf_maskOf_last]
  exact hmask

theorem powerStarved_within (s : State) : Within s (powerStarved s) faultSpans :=
  have K := calm_faultSpans s
  K.set latch_fault <| K.set (by decide : RegName.GLB_DIE.within faultSpans = true) <| K.beside (Within.refl s _) rfl

/-- Another class of the square, and a die's supply bit, keep what they were as an isolation is recorded. -/
theorem detected_latch {c : Nat} (hc : c < 13 ∧ c ≠ clsDieIsolated) (d : Nat) (s : State) :
    (detected d s).bit FLT_PKG_LATCH c = s.bit FLT_PKG_LATCH c := by
  have hrecord : (detected d s).get FLT_PKG_LATCH = (latchClass clsDieIsolated (s.setBit GLB_DIE_ISOLATED d true)).get FLT_PKG_LATCH :=
    (State.get_pushEvt _ _ _ _ _ (show FLT_PKG_LATCH.reg.off ∉ eventOffs by decide)).trans <|
      State.get_set_ne _ GLB_EVT_EVT FLT_PKG_LATCH _ (Reg.ne_of_name (show RegName.GLB_EVT ≠ .FLT_PKG by decide))
  refine (State.bit_of_get hrecord c).trans ((State.bit_setBit _ true clsDieIsolated (by decide) hc.1).trans ?_)
  rw [if_neg hc.2]
  exact State.bit_of_get (State.get_set_ne s GLB_DIE_ISOLATED FLT_PKG_LATCH _
    (Reg.ne_of_name (show RegName.GLB_DIE ≠ .FLT_PKG by decide))) c

theorem detected_supply (d : Nat) (s : State) : (detected d s).get GLB_DIE_SUPPLY = s.get GLB_DIE_SUPPLY :=
  (State.get_pushEvt _ _ _ _ _ (show GLB_DIE_SUPPLY.reg.off ∉ eventOffs by decide)).trans <|
    (State.get_set_ne _ GLB_EVT_EVT GLB_DIE_SUPPLY _ (Reg.ne_of_name (show RegName.GLB_EVT ≠ .GLB_DIE by decide))).trans <|
    (latchClass_get (show RegName.FLT_PKG ≠ .GLB_DIE by decide) _ _).trans <|
    State.get_set_field s GLB_DIE_ISOLATED GLB_DIE_SUPPLY _ rfl (by decide) (by decide)

theorem supplyOutOfBand_power {s : State} (hoff : s.pkg ≠ pkgOff) (hboot : s.pkg ≠ pkgBoot) (hkeep : s.pkg ≠ pkgKeep)
    (hiso : s.isolated dieP = false) : ∃ u, exec (.supplyOutOfBand 4 true) s = .next u ∧ u.bit GLB_DIE_SUPPLY 3 = true ∧
      u.isolated dieP = true ∧ u.bit FLT_PKG_LATCH 6 = true ∧ Posted s u 0x0001 3 ∧ Within s u faultSpans := by
  have hpkg : (powerStarved s).pkg = s.pkg := powerStarved_get (f := GLB_STATE_STATE) (by decide) (Fld.apart_of_name (by decide)) s
  have hoff' : (powerStarved s).pkg ≠ pkgOff := by rwa [hpkg]
  have hboot' : (powerStarved s).pkg ≠ pkgBoot := by rwa [hpkg]
  have hkeep' : (powerStarved s).pkg ≠ pkgKeep := by rwa [hpkg]
  have hiso' : (powerStarved s).isolated dieP = false :=
    (State.bit_of_get (powerStarved_get (by decide) (Fld.apart_above (by decide)) s) dieP).trans hiso
  have keeps := dieIsolate_power_get hoff' hboot' hkeep' hiso'
  refine ⟨_, exec_supplyOutOfBand_power hoff hkeep, ?_, (dieIsolate_power_shown hoff' hboot' hkeep' hiso').isolated, ?_,
    dieIsolate_power_posted hoff' hboot' hkeep' hiso' ⟨rfl, rfl⟩,
    dieIsolate_power_within hoff' hboot' hkeep' hiso' (powerStarved_within s)⟩
  · exact (State.bit_of_get ((keeps GLB_DIE_SUPPLY rfl).trans (detected_supply dieP _)) 3).trans (powerStarved_supply s)
  · exact (State.bit_of_get (keeps FLT_PKG_LATCH rfl) 6).trans <|
      (detected_latch (by decide) dieP _).trans (latchClass_latch (by decide) (showSupply (supplyMoved 4 true s)))

/-! ### The statement's clauses on isolation -/

theorem dieIsolated_controller (d : Fin 4) (s : State) (hoff : s.pkg ≠ pkgOff) (hboot : s.pkg ≠ pkgBoot) (hkeep : s.pkg ≠ pkgKeep)
    (hiso : s.isolated d = false) (hd : d.val = dieC) (hdue : s.otp.due = none) : ∃ u, exec (.dieIsolated d) s = .next u ∧
      u.isolated d = true ∧ u.otp.burn = none ∧ u.bit FLT_PKG_LATCH 5 = true ∧ u.bit GLB_EVT_EVT 1 = true ∧ Posted s u 0x0001 d ∧
      RegsWithin s u faultSpans ∧ u.pending = s.pending ∧ u.flash = s.flash := by
  have hexec : exec (.dieIsolated d) s = .next (dieIsolate d s) := rfl
  rw [hd] at hiso hexec ⊢
  obtain ⟨hshown, hposted, hburn⟩ := dieIsolate_controller_shown hoff hboot hkeep hiso hdue
  obtain ⟨hpending, hflash, hregs⟩ := dieIsolate_controller_stores hoff hboot hkeep hiso hdue
  exact ⟨_, hexec, hshown.isolated, hburn, hshown.latched, hshown.sticky, hposted, hregs, hpending, hflash⟩

theorem dieIsolated_power (s : State) (hoff : s.pkg ≠ pkgOff) (hboot : s.pkg ≠ pkgBoot) (hkeep : s.pkg ≠ pkgKeep)
    (hiso : s.isolated dieP = false) : ∃ u, exec (.dieIsolated 3) s = .next u ∧ u.isolated dieP = true ∧ u.bit FLT_PKG_LATCH 5 = true ∧
      (∀ r : Fin 24, u.railState r = if s.railState r = railOff then railOff else railSafe) ∧ u.get HUP_STAT_CHG = chgOff ∧
      u.on HUP_STAT_ON_STORE = false ∧ Posted s u 0x0001 3 ∧ Within s u faultSpans := by
  have hshown := dieIsolate_power_shown hoff hboot hkeep hiso
  obtain ⟨hchg, hgates⟩ := dieIsolate_power_charger hoff hboot hkeep hiso
  exact ⟨dieIsolate dieP s, rfl, hshown.isolated, hshown.latched, dieIsolate_power_rails hoff hboot hkeep hiso, hchg, hgates,
    dieIsolate_power_posted hoff hboot hkeep hiso (Silent.refl s), dieIsolate_power_within hoff hboot hkeep hiso (Within.refl s _)⟩

theorem thermalTrip_tile (s : State) (hoff : s.pkg ≠ pkgOff) (hboot : s.pkg ≠ pkgBoot) (hkeep : s.pkg ≠ pkgKeep)
    (hiso : s.isolated dieT0 = false) : ∃ u, exec (.thermalTrip 1) s = .next u ∧ u.isolated dieT0 = true ∧
      u.bit FLT_PKG_LATCH 5 = true ∧ (∀ n : Fin 24, u.outZ n = true) ∧ Within s u faultSpans := by
  have hshown := dieIsolate_tile_shown hoff hboot hkeep (.inl rfl) hiso
  refine ⟨dieIsolate dieT0 s, rfl, hshown.isolated, hshown.latched, fun n => ?_,
    dieIsolate_tile_within hoff hboot hkeep (.inl rfl) hiso⟩
  unfold State.outZ dieOfOut
  rw [if_pos n.isLt, hshown.isolated, Bool.or_true]

/-! ### A bank below 1.0 V (R375, R430) -/

/-- Two walks over numbers agree where each of their steps does. -/
theorem State.each_congr {n : Nat} {f g : Nat → State → State} {Q : State → Prop} {s : State}
    (h : ∀ i, i < n → ∀ t, Q t → f i t = g i t ∧ Q (g i t)) (hs : Q s) : s.each n f = s.each n g ∧ Q (s.each n g) := by
  induction n with
  | zero => exact ⟨rfl, hs⟩
  | succ n ih =>
    obtain ⟨heq, hq⟩ := ih fun i hi => h i (by omega)
    rw [State.each_succ, State.each_succ, heq]
    exact h n (Nat.lt_succ_self n) _ hq

/-- The pins of a bank are synchronised, and none of them has an interrupt. -/
def QuietBank (g : Nat) (s : State) : Prop := ∀ j < 16, s.pinSynced (16 * g + j) = true ∧ s.get (PIN_CFG_IRQ (16 * g + j)) = 0

theorem pinSampled_eq (n : Nat) (lv : Bool) (s : State) : ∃ x : SeqInt,
    pinSampled n lv s = { s with seq := x }.setBit (GPIO_IN_IN (n / 16)) (n % 16) lv := ⟨_, rfl⟩

section
variable {s : State} {g j : Nat}

theorem pinSampled_quiet (h : QuietBank g s) (n : Nat) (lv : Bool) : QuietBank g (pinSampled n lv s) := by
  obtain ⟨x, hx⟩ := pinSampled_eq n lv s
  intro j hj
  have hne : ∀ f : Fld, f.reg.name ≠ .GPIO_IN → (pinSampled n lv s).get f = s.get f := fun f hf => by
    rw [hx]
    exact (State.get_set_ne _ _ _ _ (Reg.ne_of_name hf.symm)).trans (State.get_of_regs rfl f)
  have hpkg : (pinSampled n lv s).pkg_ = s.pkg_ := by rw [hx, State.setBit_eq, State.set_pkg_]
  obtain ⟨hsync, hirq⟩ := h j hj
  refine ⟨?_, (hne _ (show RegName.PIN_CFG ≠ .GPIO_IN by decide)).trans hirq⟩
  unfold State.pinSynced at *
  rw [hpkg, State.linked_of_get (hne GLB_DIE_ISOLATED (by decide))]
  exact hsync

theorem pinSample_quiet (h : QuietBank g s) (hj : j < 16) : pinSample (16 * g + j) false s = pinSampled (16 * g + j) false s := by
  obtain ⟨hsync, hirq⟩ := h j hj
  unfold pinSample
  rw [hsync, hirq]
  rfl

/-- The bank's supply has left its band. -/
def bankFell (g : Nat) (s : State) : State := { s with pin := { s.pin with bankLow := bitPut s.pin.bankLow g true } }

/-- The pins of a bank are sampled low. -/
def samplesLow (g : Nat) (s : State) : State := s.each 16 (fun j s => pinSampled (16 * g + j) false s)

/-- A bank that goes low, where no pin of it has an interrupt: its pins are sampled low. -/
theorem bankLow_quiet (h : QuietBank g s) : bankLow g s = samplesLow g (bankFell g s) := by
  have hfell : QuietBank g (bankFell g s) := h
  unfold samplesLow
  rw [← (State.each_congr (f := fun j s => pinSample (16 * g + j) false s)
    (fun _ hi _ ht => ⟨pinSample_quiet ht hi, pinSampled_quiet ht _ _⟩) hfell).1]
  rfl

theorem pinSampled_bit_same (lv : Bool) (hj : j < 16) (s : State) : (pinSampled (16 * g + j) lv s).bit (GPIO_IN_IN g) j = lv := by
  obtain ⟨x, hx⟩ := pinSampled_eq (16 * g + j) lv s
  rw [hx, show (16 * g + j) / 16 = g by omega, show (16 * g + j) % 16 = j by omega]
  exact State.bit_setBit_same _ lv (show 0 + 16 ≤ 32 by decide) hj

theorem pinSampled_bit_other {n : Nat} (hn : n ≠ 16 * g + j) (lv : Bool) (hj : j < 16) (s : State) :
    (pinSampled n lv s).bit (GPIO_IN_IN g) j = s.bit (GPIO_IN_IN g) j := by
  obtain ⟨x, hx⟩ := pinSampled_eq n lv s
  rw [hx]
  by_cases hg : n / 16 = g
  · rw [hg, State.bit_setBit _ lv _ (show 0 + 16 ≤ 32 by decide) hj, if_neg (by omega)]
    exact State.bit_of_get (State.get_of_regs rfl _) j
  · refine State.bit_of_get ((State.get_set_ne _ _ _ _ fun e => ?_).trans (State.get_of_regs rfl _)) j
    injection e with _ hi
    exact hg hi

/-- Each pin of the bank reads low after the walk. -/
theorem samplesLow_bit (hj : j < 16) (s : State) : (samplesLow g s).bit (GPIO_IN_IN g) j = false :=
  State.each_at (n := 16) (fun j s => pinSampled (16 * g + j) false s) (A := fun _ => True)
    (B := fun t => t.bit (GPIO_IN_IN g) j = false) hj (fun _ _ _ _ => trivial)
    (fun t _ => pinSampled_bit_same false hj t) (fun _ t hi h => (pinSampled_bit_other (by omega) false hj t).trans h) trivial

theorem samplesLow_in (s : State) : (samplesLow g s).get (GPIO_IN_IN g) = 0 := by
  refine Nat.eq_of_testBit_eq fun j => ?_
  rw [Nat.zero_testBit]
  by_cases hj : j < 16
  · exact (bitOf_eq_testBit _ _).symm.trans (samplesLow_bit hj s)
  · exact Nat.testBit_lt_two_pow (Nat.lt_of_lt_of_le (State.get_lt _ (GPIO_IN_IN g)) (Nat.pow_le_pow_right (by decide) (by
      have : (GPIO_IN_IN g).w = 16 := rfl
      omega)))

theorem samplesLow_keeps {P : State → Prop} (h : ∀ j, j < 16 → ∀ t, P t → P (pinSampled (16 * g + j) false t)) (hs : P s) :
    P (samplesLow g s) :=
  State.each_keeps 16 _ h hs

theorem samplesLow_pin (s : State) : (samplesLow g s).pin = s.pin :=
  samplesLow_keeps (P := fun t => t.pin = s.pin) (fun j _ t h => by
    obtain ⟨x, hx⟩ := pinSampled_eq (16 * g + j) false t
    rw [hx, State.setBit_eq, State.set_pin]
    exact h) rfl

theorem samplesLow_events (s : State) : (samplesLow g s).evtSeq = s.evtSeq ∧ (samplesLow g s).evtFifo = s.evtFifo :=
  samplesLow_keeps (P := fun t => t.evtSeq = s.evtSeq ∧ t.evtFifo = s.evtFifo) (fun j _ t h => by
    obtain ⟨x, hx⟩ := pinSampled_eq (16 * g + j) false t
    rw [hx, State.setBit_eq, State.set_evtSeq, State.set_evtFifo]
    exact h) ⟨rfl, rfl⟩

theorem samplesLow_frame {z s : State} (h : Frame z s [Fld.off (GPIO_IN_IN g)]) : Frame z (samplesLow g s) [Fld.off (GPIO_IN_IN g)] :=
  samplesLow_keeps (fun j hj t ht => by
    obtain ⟨x, hx⟩ := pinSampled_eq (16 * g + j) false t
    have K := kept_frame z [Fld.off (GPIO_IN_IN g)]
    rw [hx, show (16 * g + j) / 16 = g by omega]
    exact K.setBit _ _ _ List.mem_cons_self (K.rest t _ rfl (.refl t) ht)) h

end

theorem exec_supplyOutOfBand_bank {g : Fin 4} {x : Fin 18} {s : State} (hx : x.val = 13 + g.val) (hoff : s.pkg ≠ pkgOff)
    (hkeep : s.pkg ≠ pkgKeep) : exec (.supplyOutOfBand x true) s = .next (bankLow g s) := by
  change execSupplyOutOfBand x true s = _
  have hg : x.val - 13 = g.val := by omega
  have hmove : ¬(x.val < 9 ∨ x.val < 13 ∧ true = true) := by omega
  unfold execSupplyOutOfBand
  dsimp only
  rw [if_neg hmove, if_neg (by omega : ¬x.val = 17)]
  refine congrArg Host.Outcome.next ((if_neg (not_or.2 ⟨hoff, hkeep⟩)).trans ?_)
  rw [if_neg (by omega : ¬x.val < 5), if_neg (by decide : ¬(!true) = true), if_neg (by omega : ¬x.val < 7),
    if_neg (by omega : ¬x.val < 9), if_neg (by omega : ¬x.val < 13), hg]

theorem supplyOutOfBand_bank (g : Fin 4) (x : Fin 18) (s : State) (hx : x.val = 13 + g.val) (hoff : s.pkg ≠ pkgOff)
    (hkeep : s.pkg ≠ pkgKeep) (hquiet : ∀ j : Fin 16, s.pinSynced (16 * g + j) = true ∧ s.get (PIN_CFG_IRQ (16 * g + j)) = 0) :
    ∃ u, exec (.supplyOutOfBand x true) s = .next u ∧ u.get (GPIO_IN_IN g) = 0 ∧ bitOf u.pin.bankLow g = true ∧
      (∀ j : Fin 16, u.mfpOut (16 * g + j) = .released) ∧ Silent s u ∧ Frame s u [Fld.off (GPIO_IN_IN g)] := by
  have hlow : bitOf (samplesLow g (bankFell g s)).pin.bankLow g = true := by
    rw [samplesLow_pin]
    exact (bitOf_bitPut _ _ _ _).trans (if_pos rfl)
  have hframe : Frame s (bankFell g s) [Fld.off (GPIO_IN_IN g)] := (kept_frame s _).rest s _ rfl (.refl s) (Frame.refl s _)
  refine ⟨_, (exec_supplyOutOfBand_bank hx hoff hkeep).trans (congrArg _ (bankLow_quiet fun j hj => hquiet ⟨j, hj⟩)),
    samplesLow_in _, hlow,
    fun j => ?_, .of_events (samplesLow_events (bankFell g s)), samplesLow_frame hframe⟩
  unfold State.mfpOut
  rw [show (16 * g.val + j.val) / 16 = g.val by omega]
  exact if_pos (.inr (.inr hlow))

/-! ### VAUX_KEEP (R430) -/

theorem supplyOutOfBand_vaux (o : Bool) (s : State) : ∃ u, exec (.supplyOutOfBand 17 o) s = .next u ∧ u.on KLN_STAT_VAUX_OK = !o ∧
    Silent s u ∧ Frame s u [Fld.off KLN_STAT_VAUX_OK] := by
  have hx : ((17 : Fin 18) : Nat) = 17 := rfl
  have hmove : ¬((17 : Nat) < 9 ∨ (17 : Nat) < 13 ∧ o = true) := by omega
  have hexec : exec (.supplyOutOfBand 17 o) s = .next (s.put KLN_STAT_VAUX_OK (!o)) := by
    change execSupplyOutOfBand 17 o s = _
    unfold execSupplyOutOfBand
    dsimp only
    rw [hx, if_neg hmove, if_pos rfl]
  refine ⟨_, hexec, ?_, Silent.refl s, (kept_frame s _).put _ _ List.mem_cons_self (Frame.refl s _)⟩
  unfold State.on State.put
  rw [State.get_set_same _ _ _ (by decide)]
  cases o <;> rfl

/-! ### The scrubbers (R42, R43) -/

/-- A single-bit error in an engine's instruction memory is counted for its die and for the engine. -/
def corrected (e : Nat) (s : State) : State :=
  (s.modPkg (fun x => { x with dieCe := bankMod x.dieCe (dieOfEngine e) (· + 1) })).bump (ENG_CNT_CE_CNT e)

theorem exec_scrubWord_engine {e : Fin 64} {a : BitVec 16} (double : Bool) (s : State) (he : e.val < 12) (ha : a.toNat < 32768) :
    exec (.scrubWord 0 e a double) s = .next
      (if double then poisoned (dieOfEngine e) memInstr a.toNat (doubleBit memInstr e a.toNat s) else corrected e s) := by
  have hout : ¬(memUnits 0 ≤ e.val ∨ memSize 0 ≤ a.toNat ∨ (0 = memKiln ∧ (!s.on KLN_STAT_KEEPER_OK) = true)) := by
    rintro (h | h | h)
    · exact absurd (show 12 ≤ e.val from h) (by omega)
    · exact absurd (show 32768 ≤ a.toNat from h) (by omega)
    · exact absurd h.1 (by decide)
  exact congrArg Host.Outcome.next (if_neg hout)

theorem scrubWord_corrects (e : Fin 64) (a : BitVec 16) (s : State) (he : e.val < 12) (ha : a.toNat < 32768) :
    ∃ u, exec (.scrubWord 0 e a false) s = .next u ∧ u.get (ENG_CNT_CE_CNT e) = satNat 16 (s.get (ENG_CNT_CE_CNT e) + 1) ∧
      Silent s u ∧ Frame s u [Fld.off (ENG_CNT_CE_CNT e)] := by
  have K := kept_frame s [Fld.off (ENG_CNT_CE_CNT e)]
  refine ⟨corrected e s, exec_scrubWord_engine false s he ha, ?_, ⟨rfl, rfl⟩,
    K.bump _ List.mem_cons_self (K.rest s _ rfl (.refl s) (Frame.refl s _))⟩
  have hsat : satNat 16 (s.get (ENG_CNT_CE_CNT e) + 1) < 2 ^ 16 := by
    unfold satNat
    omega
  exact (State.get_set_same _ (ENG_CNT_CE_CNT e) _ (show 0 + 16 ≤ 32 by decide)).trans (Nat.mod_eq_of_lt hsat)

/-- The spans the statement allows a halt. -/
abbrev haltSpans : List (Nat × Nat) := spanGlb ++ spanDma ++ spanEng

/-- A running engine that halts for its instruction memory. -/
def halted (e addr : Nat) (s : State) : State :=
  ((((s.set (ENG_STAT_STATE e) engHalted).set (ENG_STAT_HALT_CAUSE e) 1).set (ENG_HALT_ADDR_ADDR e) (addr / 4 * 4)).set
    (ENG_HALT_ADDR_MEM e) 0).pushEvt 0x0B00 e (packBody [(32, e), (3, 1), (17, addr / 4 * 4), (1, 0)])

theorem doubleBit_halts {e : Nat} (a : Nat) {s : State} (hload : s.classLoading (classOf e) = false)
    (hrun : s.get (ENG_STAT_STATE e) = engRunning) : doubleBit memInstr e a s = halted e (4 * a) s := by
  unfold doubleBit haltEngine
  rw [if_neg (by rw [hload]; simp), if_pos rfl, if_pos ⟨hrun, by decide, by decide⟩]
  rfl

/-- Writes of the registers of these spans keep what lies outside them. -/
theorem kept_halt (s : State) :
    Kept (fun r => r.name.within haltSpans = true ∨ r.off ∈ eventOffs)
      (fun t => Within s t haltSpans) :=
  kept_within_names s _

section
variable {s t : State} {e : Nat}

theorem halted_within (e addr : Nat) (s : State) : Within s (halted e addr s) haltSpans := by
  have K := kept_halt s
  have hstat : RegName.ENG_STAT.within haltSpans = true := by decide
  have haddr : RegName.ENG_HALT_ADDR.within haltSpans = true := by decide
  exact K.pushEvt _ _ _ (fun _ => .inr) <| K.set _ _ (.inl haddr) <| K.set _ _ (.inl haddr) <| K.set _ _ (.inl hstat) <|
    K.set _ _ (.inl hstat) (Within.refl s _)

theorem halted_linked (e addr : Nat) (s : State) (a b : Nat) : (halted e addr s).linked a b = s.linked a b := by
  have hne : ∀ f : Fld, f.reg.name ≠ .GLB_DIE → f.reg ≠ GLB_DIE_ISOLATED.reg := fun f h => Reg.ne_of_name h
  have hstat := hne (ENG_STAT_STATE e) (show RegName.ENG_STAT ≠ .GLB_DIE by decide)
  have haddr := hne (ENG_HALT_ADDR_ADDR e) (show RegName.ENG_HALT_ADDR ≠ .GLB_DIE by decide)
  refine State.linked_of_get ?_ a b
  exact (State.get_pushEvt _ _ _ _ _ (show GLB_DIE_ISOLATED.reg.off ∉ eventOffs by decide)).trans <|
    (State.get_set_ne _ (ENG_HALT_ADDR_MEM e) _ _ haddr).trans <| (State.get_set_ne _ (ENG_HALT_ADDR_ADDR e) _ _ haddr).trans <|
    (State.get_set_ne _ (ENG_STAT_HALT_CAUSE e) _ _ hstat).trans <| State.get_set_ne _ (ENG_STAT_STATE e) _ _ hstat

theorem State.pushEvt_evtSeq {code src : Nat} (h : s.linked (evtDie code src) dieC = true) (body : Nat) :
    (s.pushEvt code src body).evtSeq = s.evtSeq + 1 := by
  unfold State.pushEvt
  rw [if_pos h, State.postEvt_evtSeq]

theorem State.pushEvt_evtSeq_le (s : State) (code src body : Nat) : s.evtSeq ≤ (s.pushEvt code src body).evtSeq := by
  unfold State.pushEvt
  split
  · rw [State.postEvt_evtSeq]
    omega
  · exact Nat.le_refl _

theorem halted_evtSeq (e addr : Nat) (s : State) : s.evtSeq ≤ (halted e addr s).evtSeq := by
  unfold halted
  refine Nat.le_trans ?_ (State.pushEvt_evtSeq_le ..)
  simp only [State.set_evtSeq, Nat.le_refl]

theorem poisoned_within (h : Within s t haltSpans) (die mem addr : Nat) :
    Within s (poisoned die mem addr t) haltSpans := by
  have K := kept_halt s
  have hevt : RegName.GLB_EVT.within haltSpans = true := by decide
  exact K.iteState (K.raise _ _ _ _ _ (.inl hevt) (fun _ => .inr) (K.rest t _ rfl (.refl t) h)) (K.rest t _ rfl (.refl t) h)

/-- The sticky bit and the record of an error whose die reaches the C-die. -/
theorem poisoned_linked {die : Nat} (h : s.linked die dieC = true) (mem addr : Nat) :
    (poisoned die mem addr s).bit GLB_EVT_EVT 0 = true ∧ (poisoned die mem addr s).evtSeq = s.evtSeq + 1 := by
  unfold poisoned
  rw [if_pos h]
  refine ⟨State.sticky_raise (by decide) (by decide) .., State.pushEvt_evtSeq (Eq.trans ?_ h) _⟩
  exact State.linked_of_get ((State.get_set_ne _ GLB_EVT_EVT GLB_DIE_ISOLATED _
    (Reg.ne_of_name (show RegName.GLB_EVT ≠ .GLB_DIE by decide))).trans (State.get_of_regs rfl _)) die dieC

theorem poisoned_get {f : Fld} (hn : RegName.GLB_EVT ≠ f.reg.name) (he : f.reg.off ∉ eventOffs) (die mem addr : Nat) (s : State) :
    (poisoned die mem addr s).get f = s.get f := by
  unfold poisoned
  split
  · exact (State.get_pushEvt _ _ _ _ _ he).trans ((State.get_set_ne _ GLB_EVT_EVT f _ (Reg.ne_of_name hn)).trans
      (State.get_of_regs rfl f))
  · exact State.get_of_regs rfl f

/-- The engine shows the halt and its cause. -/
theorem poisoned_halted {e : Fin 64} (he : e.val < 12) (die mem addr at_ : Nat) (s : State) :
    (poisoned die mem addr (halted e at_ s)).get (ENG_STAT_STATE e) = engHalted ∧
      (poisoned die mem addr (halted e at_ s)).get (ENG_STAT_HALT_CAUSE e) = 1 := by
  have hoff : (⟨.ENG_STAT, e, 0, 0⟩ : Reg).off = 0x90004 + 0x400 * e.val + 0 * 0 + 0 * 0 := rfl
  have hevent : (⟨.ENG_STAT, e, 0, 0⟩ : Reg).off ∉ eventOffs := not_event (by omega)
  have haddr : ∀ f g : Fld, f.reg.name = .ENG_HALT_ADDR → g.reg.name = .ENG_STAT → f.reg ≠ g.reg := fun f g hf hg =>
    Reg.ne_of_name (by rw [hf, hg]; decide)
  have hstat : ∀ f : Fld, f.reg = ⟨.ENG_STAT, e, 0, 0⟩ → (poisoned die mem addr (halted e at_ s)).get f =
      ((s.set (ENG_STAT_STATE e) engHalted).set (ENG_STAT_HALT_CAUSE e) 1).get f := fun f hf => by
    have hname : f.reg.name = .ENG_STAT := by rw [hf]
    have hne : RegName.GLB_EVT ≠ f.reg.name := by rw [hname]; decide
    rw [← hf] at hevent
    exact (poisoned_get hne hevent die mem addr _).trans <| (State.get_pushEvt _ _ _ _ _ hevent).trans <|
      (State.get_set_ne _ (ENG_HALT_ADDR_MEM e) f _ (haddr _ _ rfl hname)).trans <|
      State.get_set_ne _ (ENG_HALT_ADDR_ADDR e) f _ (haddr _ _ rfl hname)
  rw [hstat (ENG_STAT_STATE e) rfl, hstat (ENG_STAT_HALT_CAUSE e) rfl]
  have hcause : (ENG_STAT_HALT_CAUSE e).lo + (ENG_STAT_HALT_CAUSE e).w ≤ 32 := show 8 + 3 ≤ 32 by decide
  have hstate : (ENG_STAT_STATE e).lo + (ENG_STAT_STATE e).w ≤ 32 := show 0 + 2 ≤ 32 by decide
  constructor
  · exact (State.get_set_field _ (ENG_STAT_HALT_CAUSE e) (ENG_STAT_STATE e) 1 rfl hcause (.inr (show 0 + 2 ≤ 8 by decide))).trans
      (State.get_set_same s (ENG_STAT_STATE e) engHalted hstate)
  · exact State.get_set_same _ (ENG_STAT_HALT_CAUSE e) 1 hcause

end

theorem scrubWord_halts (e : Fin 64) (a : BitVec 16) (s : State) (he : e.val < 12) (ha : a.toNat < 32768)
    (hload : s.classLoading (classOf e) = false) (hrun : s.get (ENG_STAT_STATE e) = engRunning) :
    ∃ u, exec (.scrubWord 0 e a true) s = .next u ∧ u.get (ENG_STAT_STATE e) = engHalted ∧ u.get (ENG_STAT_HALT_CAUSE e) = 1 ∧
      (s.linked (dieOfEngine e) dieC = true → u.bit GLB_EVT_EVT 0 = true) ∧
      (s.linked (dieOfEngine e) dieC = true → s.evtSeq < u.evtSeq) ∧ Within s u haltSpans := by
  have hexec := exec_scrubWord_engine true s he ha
  rw [if_pos rfl, doubleBit_halts _ hload hrun] at hexec
  obtain ⟨hstate, hcause⟩ := poisoned_halted he (dieOfEngine e) memInstr a.toNat (4 * a.toNat) s
  have hlinked : s.linked (dieOfEngine e) dieC = true → (halted e (4 * a.toNat) s).linked (dieOfEngine e) dieC = true :=
    (halted_linked ..).trans
  refine ⟨_, hexec, hstate, hcause, fun h => (poisoned_linked (hlinked h) _ _).1, fun h => ?_, poisoned_within (halted_within ..) _ _ _⟩
  rw [(poisoned_linked (hlinked h) _ _).2]
  exact Nat.lt_succ_of_le (halted_evtSeq ..)

/-- A word that no memory has is never scrubbed. -/
theorem scrubWord_beyond (m : Fin 11) (e : Fin 64) (a : BitVec 16) (d : Bool) (s : State)
    (h : memUnits m ≤ e.val ∨ memSize m ≤ a.toNat) : ∃ u, exec (.scrubWord m e a d) s = .next u ∧ u = s :=
  ⟨s, congrArg Host.Outcome.next (if_pos (h.imp id .inl)), rfl⟩

/-- Settles O31: each fault by the operation that answers it. A rail enters SAFE by writes that touch no other rail's state; what a die's
isolation lets fall away writes none of the registers that show the isolation. -/
theorem diesSuppliesAndTemperature : Obligations.DiesSuppliesAndTemperature := by
  unfold Obligations.DiesSuppliesAndTemperature
  refine ⟨dieIsolated_controller, dieIsolated_power, fun d s h => ⟨s, congrArg Host.Outcome.next (dieIsolate_isolated h), rfl⟩,
    thermalTrip_tile, fun d s hoff hboot hkeep hiso hdue => ?_, thermalAlarm_hot, thermalAlarm_cool,
    fun s hoff hboot hkeep hiso => supplyOutOfBand_power hoff hboot hkeep hiso,
    fun p x s hx hoff hkeep => supplyOutOfBand_vddpwm hx hoff hkeep,
    supplyHoldEnd_ends, supplyOutOfBand_bank, supplyOutOfBand_vaux, scrubWord_corrects, scrubWord_halts, scrubWord_beyond⟩
  obtain ⟨hshown, hpending, hflash, hregs⟩ := dieIsolate_shown hoff hboot hkeep d hiso hdue
  exact ⟨dieIsolate d s, rfl, hshown.isolated, fun _ => hshown.latched, hshown.sticky, hpending, hflash, hregs⟩

end Sys2Proof.Machine

/-! Writes by an engine of an isolated die to another die's registers are dropped (R22, R23): three claims about the writes of the
reference plaza and of the region DPLLs that do not hold for it. -/

namespace Sys2Proof.Machine

/-- Refutes O1: reference 8 is monitored on T-die 1 and EN is raised by ENG4 on the isolated T-die 0, which is dropped. -/
theorem not_monitorActivityAndEnable : ¬ Obligations.MonitorActivityAndEnable := by
  rintro ⟨-, -, -, enable, -⟩
  obtain ⟨u, hu, hnew, -⟩ := enable (.eng 4) 8 0 isolatedEngineState (by decide) (by decide) (by decide)
  obtain rfl : isolatedEngineState = u := by
    rw [← writeReg_isolatedEngine (r := ⟨.MON_CFG, 8, 0, 0⟩) (wordSet 0 0 1 1) (by decide)]
    injection hu
  exact absurd hnew (by decide)

/-- Refutes O5: region 2 stands on T-die 1 and its EN is raised by ENG4 on the isolated T-die 0, which is dropped. -/
theorem not_dpllEnablesAndFollowsTheSelector : ¬ Obligations.DpllEnablesAndFollowsTheSelector := by
  rintro ⟨enable, -⟩
  obtain ⟨u, hu, hnew, -⟩ := enable (.eng 4) 2 0 isolatedEngineState (by decide) (by decide) (by decide) (by decide) (by decide)
    (by decide)
  obtain rfl : isolatedEngineState = u := by
    rw [← writeReg_isolatedEngine (r := ⟨.TRG_CTL, 2, 0, 0⟩) (wordSet 0 0 1 1) (by decide)]
    injection hu
  exact absurd hnew (by decide)

/-- Refutes O53: a legal write that sets EN of reference 8's monitor, on T-die 1, by ENG4 on the isolated T-die 0 is dropped. -/
theorem not_monitorSettingsAreFixedWhileEnabled : ¬ Obligations.MonitorSettingsAreFixedWhileEnabled := by
  rintro ⟨-, -, -, -, -, taken, -⟩
  obtain ⟨u, hu, hnew, -⟩ := taken (.eng 4) 8 1 isolatedEngineState (by decide) (by decide) (by decide) (by decide) (by decide)
  obtain rfl : isolatedEngineState = u := by
    rw [← writeReg_isolatedEngine (r := ⟨.MON_CFG, 8, 0, 0⟩) 1 (by decide)]
    injection hu
  exact absurd hnew (by decide)

end Sys2Proof.Machine

/-! A field read after a field written elsewhere, and a frame over listed registers read as one over spans. -/

namespace Sys2Proof.Machine

/-! ### Reading beside what was written -/

/-- Two fields lie in registers of two names, or one above the other in a word. -/
def Fld.apartFrom (f g : Fld) : Bool :=
  !(f.reg.name == g.reg.name) || (Nat.ble (f.lo + f.w) 32 && (Nat.ble (f.lo + f.w) g.lo || Nat.ble (g.lo + g.w) f.lo))

theorem Fld.apart_of_apartFrom {f g : Fld} (h : f.apartFrom g = true) : f.Apart g := by
  unfold Fld.apartFrom at h
  simp only [Bool.or_eq_true, Bool.and_eq_true, Nat.ble_eq, Bool.not_eq_true', beq_eq_false_iff_ne] at h
  exact h.imp Reg.ne_of_name id

section
variable {s t u : State} {f g : Fld} {v : Nat}

/-- Conditions are computed, so that `rfl` discharges them. -/
theorem State.get_set_apart (h : f.apartFrom g = true) : (s.set f v).get g = s.get g :=
  (calm_get (ok := fun e => e = f) g (s.get g) (by rintro _ rfl; exact Fld.apart_of_apartFrom h)).set rfl rfl

theorem State.get_set_own (h : Nat.ble (f.lo + f.w) 32 = true) (hv : Nat.blt v (2 ^ f.w) = true) : (s.set f v).get f = v :=
  (State.get_set_same s f v (Nat.le_of_ble_eq_true h)).trans (Nat.mod_eq_of_lt (by simpa [Nat.blt] using hv))

theorem State.get_put_own (b : Bool) (h : Nat.ble (f.lo + f.w) 32 = true) (hw : f.w = 1) : (s.put f b).get f = if b then 1 else 0 := by
  rw [State.put_eq, State.get_set_same s f _ (Nat.le_of_ble_eq_true h), hw]
  cases b <;> rfl

theorem State.get_bump_own (h : Nat.ble (f.lo + f.w) 32 = true) : (s.bump f).get f = satNat f.w (s.get f + 1) := by
  have hsat : satNat f.w (s.get f + 1) < 2 ^ f.w := by
    have := Nat.two_pow_pos f.w
    unfold satNat
    omega
  exact (State.get_set_same s f _ (Nat.le_of_ble_eq_true h)).trans (Nat.mod_eq_of_lt hsat)

theorem State.get_raise_apart {i code src : Nat} {body : List (Nat × Nat)} (h : f.apartFrom g = true) (he : g.reg.off ∉ eventOffs) :
    (s.raise f i code src body).get g = s.get g :=
  (State.get_pushEvt _ _ _ _ _ he).trans (State.get_set_apart h)

/-- The one-bit sticky field of an event raised. -/
theorem State.get_raise_own {code src : Nat} {body : List (Nat × Nat)} (h : Nat.ble (f.lo + f.w) 32 = true) (hw : f.w = 1)
    (he : f.reg.off ∉ eventOffs) : (s.raise f 0 code src body).get f = 1 := by
  have hbit : (s.setBit f 0 true).bit f 0 = true := State.bit_setBit_same s true (Nat.le_of_ble_eq_true h) (by omega)
  have hlt : (s.setBit f 0 true).get f < 2 := by simpa [hw] using State.get_lt (s.setBit f 0 true) f
  unfold State.bit bitOf at hbit
  simp only [pow_zero, Nat.div_one, decide_eq_true_eq] at hbit
  exact (State.get_pushEvt _ _ _ _ _ he).trans (by omega)

/-! ### Events and frames -/

theorem Posted.beside {code src : Nat} (h : Posted s t code src) (hq : u.evtSeq = t.evtSeq) (hf : u.evtFifo = t.evtFifo) :
    Posted s u code src := by
  unfold Posted Silent at *
  rwa [hq, hf]

/-- A frame over listed registers, each within the spans or an event's, is one over the spans. -/
theorem Frame.within {offs : List Nat} {spans : List (Nat × Nat)} (h : Frame s t offs)
    (ho : ∀ o ∈ offs, o ∈ eventOffs ∨ ∃ a ∈ spans, a.1 ≤ o ∧ o < a.2) : Within s t spans := by
  refine ⟨fun q hq hs he => h.1 q hq fun hmem => ?_, h.2⟩
  obtain hev | ⟨a, ha, hlo, hhi⟩ := ho _ hmem
  · exact he hev
  · have := hs a ha
    omega

end

end Sys2Proof.Machine

/-! The selectors (R56 to R64): the candidate that ranks first, the choice of each mode, and the pass that makes it the selection. -/

namespace Sys2Proof.Machine

section
variable {s : State} {t i n : Nat} {best : Option Nat}

/-! ### The candidate that ranks first (R59) -/

theorem State.candUsable_lt (h : s.candUsable t i = true) : i < 20 := by
  unfold State.candUsable at h
  simp only [Bool.and_eq_true, decide_eq_true_eq] at h
  exact h.1.1.1

/-- Candidate `i` ranks before or with candidate `j`: the lower priority value, then the lower index. -/
def State.RanksUpTo (s : State) (t i j : Nat) : Prop := s.candPrio t i < s.candPrio t j ∨ (s.candPrio t i = s.candPrio t j ∧ i ≤ j)

theorem State.ranksFirst_iff : s.ranksFirst t i = true ↔
    s.candUsable t i = true ∧ ∀ j < 20, s.candUsable t j = true → s.RanksUpTo t i j := by
  unfold State.ranksFirst State.RanksUpTo
  simp only [Bool.and_eq_true, List.all_eq_true, List.mem_range, Bool.or_eq_true, Bool.not_eq_true', decide_eq_true_eq, or_assoc]
  refine and_congr_right fun _ => forall₂_congr fun j _ => ?_
  rw [← Bool.not_eq_true, ← imp_iff_not_or]

/-- The outcome of a search among the candidates below `n`: none is usable, or the one found ranks first among the usable ones. -/
def State.BestBelow (s : State) (t n : Nat) : Option Nat → Prop
  | none => ∀ j < n, s.candUsable t j = false
  | some b => b < n ∧ s.candUsable t b = true ∧ ∀ j < n, s.candUsable t j = true → s.RanksUpTo t b j

/-- The search goes on to the next candidate. -/
theorem State.BestBelow.step (h : s.BestBelow t n best) : s.BestBelow t (n + 1) (s.betterCand t best n) := by
  unfold State.betterCand
  by_cases hn : s.candUsable t n = true
  · rw [if_pos hn]
    cases best with
    | none =>
      refine ⟨Nat.lt_succ_self n, hn, fun j hj hu => ?_⟩
      obtain hj | rfl := Nat.lt_succ_iff_lt_or_eq.1 hj
      · rw [h j hj] at hu
        cases hu
      · exact .inr ⟨rfl, Nat.le_refl j⟩
    | some b =>
      obtain ⟨hb, hub, hall⟩ := h
      dsimp only
      split
      · next hlt =>
        refine ⟨Nat.lt_succ_self n, hn, fun j hj hu => ?_⟩
        obtain hj | rfl := Nat.lt_succ_iff_lt_or_eq.1 hj
        · have := hall j hj hu
          unfold State.RanksUpTo at this ⊢
          omega
        · exact .inr ⟨rfl, Nat.le_refl j⟩
      · next hge =>
        refine ⟨Nat.lt_succ_of_lt hb, hub, fun j hj hu => ?_⟩
        obtain hj | rfl := Nat.lt_succ_iff_lt_or_eq.1 hj
        · exact hall j hj hu
        · unfold State.RanksUpTo
          omega
  · rw [if_neg hn]
    have hskip : ∀ j < n + 1, s.candUsable t j = true → j < n := fun j hj hu => by
      obtain hj | rfl := Nat.lt_succ_iff_lt_or_eq.1 hj
      · exact hj
      · exact absurd hu hn
    cases best with
    | none =>
      intro j hj
      by_contra hu
      exact hu (h j (hskip j hj (by simpa using hu)))
    | some b =>
      obtain ⟨hb, hub, hall⟩ := h
      exact ⟨Nat.lt_succ_of_lt hb, hub, fun j hj hu => hall j (hskip j hj hu) hu⟩

theorem State.bestBelow_foldl (s : State) (t n : Nat) : s.BestBelow t n ((List.range n).foldl (s.betterCand t) none) := by
  induction n with
  | zero => exact fun j hj => absurd hj (Nat.not_lt_zero j)
  | succ n ih =>
    rw [List.range_succ, List.foldl_append]
    exact ih.step

theorem State.bestBelow_bestCand (s : State) (t : Nat) : s.BestBelow t 20 (s.bestCand t) := s.bestBelow_foldl t 20

/-- Where a candidate is usable, the search finds one. -/
theorem State.exists_bestCand {x : Nat} (hx : s.candUsable t x = true) : ∃ b, s.bestCand t = some b := by
  have hbest := s.bestBelow_bestCand t
  cases hb : s.bestCand t with
  | some b => exact ⟨b, rfl⟩
  | none =>
    rw [hb] at hbest
    rw [hbest x (State.candUsable_lt hx)] at hx
    cases hx

/-- The search finds the candidate that ranks first. -/
theorem State.bestCand_eq_some_iff : s.bestCand t = some i ↔ s.ranksFirst t i = true := by
  have hbest := s.bestBelow_bestCand t
  rw [State.ranksFirst_iff]
  constructor
  · intro h
    rw [h] at hbest
    obtain ⟨-, hu, hall⟩ := hbest
    exact ⟨hu, hall⟩
  · rintro ⟨hu, hall⟩
    obtain ⟨b, hb⟩ := State.exists_bestCand hu
    rw [hb] at hbest ⊢
    obtain ⟨hlt, hub, hrank⟩ := hbest
    have hbi := hrank i (State.candUsable_lt hu) hu
    have hib := hall b hlt hub
    unfold State.RanksUpTo at hbi hib
    rw [Option.some.injEq]
    omega

theorem State.bestCand_lt (h : s.bestCand t = some i) : i < 20 :=
  State.candUsable_lt (State.ranksFirst_iff.1 (State.bestCand_eq_some_iff.1 h)).1

/-! ### The choice of each mode (R60 to R62) -/

/-- The choice is a candidate that is usable, or what AUTO finds. -/
theorem State.selectorChoice_lt (h : s.selectorChoice t = some i) : i < 20 := by
  have hnamed : ∀ j, (if s.candUsable t j then some j else none) = some i → i < 20 := fun j hj => by
    split at hj
    · next hu =>
      cases hj
      exact State.candUsable_lt hu
    · cases hj
  unfold State.selectorChoice at h
  dsimp only at h
  split at h
  · exact hnamed _ h
  · split at h
    · exact hnamed _ h
    · cases h
  · split at h
    · exact State.bestCand_lt h
    · split at h
      · next hu =>
        split at h
        · next hb =>
          split at h
          · cases h
            exact State.bestCand_lt hb
          · cases h
            exact State.candUsable_lt hu
        · cases h
          exact State.candUsable_lt hu
      · exact State.bestCand_lt h

theorem State.selectorChoice_forced (h : s.get (PLZ_SEL_CTL_MODE t) = 1) : s.selectorChoice t =
    if s.candUsable t (s.get (PLZ_SEL_CTL_FORCE_IDX t)) = true then some (s.get (PLZ_SEL_CTL_FORCE_IDX t)) else none := by
  unfold State.selectorChoice
  rw [h]
  rfl

theorem State.selectorChoice_system (h : s.get (PLZ_SEL_CTL_MODE t) = 2) : s.selectorChoice t =
    if s.on (PLZ_SEL_SYS_SYS_VALID t) = true ∧ s.candUsable t (s.get (PLZ_SEL_SYS_SYS_IDX t)) = true then
      some (s.get (PLZ_SEL_SYS_SYS_IDX t)) else none := by
  unfold State.selectorChoice
  rw [h]
  exact (ite_and ..).symm

/-- AUTO without a usable selection. -/
theorem State.selectorChoice_auto_none (h : s.get (PLZ_SEL_CTL_MODE t) = 0)
    (hsel : (s.selected t).all (fun x => !s.candUsable t x) = true) : s.selectorChoice t = s.bestCand t := by
  unfold State.selectorChoice
  rw [h]
  cases hx : s.selected t with
  | none => rfl
  | some x =>
    rw [hx] at hsel
    exact if_neg (by simpa using hsel)

/-- AUTO with a usable selection. -/
theorem State.selectorChoice_auto_some {x b : Nat} (h : s.get (PLZ_SEL_CTL_MODE t) = 0) (hsel : s.selected t = some x)
    (hx : s.candUsable t x = true) (hb : s.bestCand t = some b) : s.selectorChoice t =
      if s.on (PLZ_SEL_CTL_REVERT t) = true ∧ s.candPrio t b < s.candPrio t x then some b else some x := by
  unfold State.selectorChoice
  rw [h]
  dsimp only
  rw [hsel, hb]
  exact if_pos hx

end

/-! ### The pass (R63, R64) -/

section
variable {s : State} {t : Nat}

/-- The selection that was becomes the previous one. -/
def selectionLeft (t : Nat) (old : Option Nat) (s : State) : State :=
  match old with
  | some x => (s.set (PLZ_SEL_STAT_PREV_IDX t) x).set (PLZ_SEL_STAT_PREV_VALID t) 1
  | none => s.set (PLZ_SEL_STAT_PREV_VALID t) 0

/-- The new one is shown and counted. -/
def selectionShown (t : Nat) (new : Option Nat) (s : State) : State :=
  match new with
  | some x => ((s.set (PLZ_SEL_STAT_CUR_IDX t) x).set (PLZ_SEL_STAT_ACTIVE t) 1).bump (PLZ_SEL_STAT_SWITCH_CNT t)
  | none => s.set (PLZ_SEL_STAT_ACTIVE t) 0

/-- The state after a pass. -/
def selectorPassed (t : Nat) (s : State) : State :=
  if s.selectorChoice t = s.selected t then s
  else (selectionShown t (s.selectorChoice t) (selectionLeft t (s.selected t) s)).pushEvt 0x0104 t
    (packBody [(5, selCode (s.selected t)), (5, selCode (s.selectorChoice t))])

theorem exec_selectorPass (t : Fin 4) (s : State) : exec (.selectorPass t) s = .next (selectorPassed t s) := rfl

theorem selectorPassed_stays (h : s.selectorChoice t = s.selected t) : selectorPassed t s = s := if_pos h

/-- A switch writes PLZ_SEL_STAT alone. -/
theorem selectionShown_keeps {P : State → Prop} (K : Calm (fun f => f.reg = ⟨.PLZ_SEL_STAT, t, 0, 0⟩) P) (old new : Option Nat)
    (hs : P s) : P (selectionShown t new (selectionLeft t old s)) := by
  have hleft : P (selectionLeft t old s) := by
    cases old with
    | none => exact K.set rfl hs
    | some x => exact K.set rfl <| K.set rfl hs
  cases new with
  | none => exact K.set rfl hleft
  | some x => exact K.set rfl <| K.set rfl <| K.set rfl hleft

theorem selStat_not_event (t : Fin 4) : Reg.off ⟨.PLZ_SEL_STAT, t, 0, 0⟩ ∉ eventOffs := by
  have hoff : Reg.off ⟨.PLZ_SEL_STAT, t, 0, 0⟩ = 0x10114 + 0x40 * t.val + 0 * 0 + 0 * 0 := rfl
  exact not_event (by omega)

theorem State.selected_of_get {u : State} (hact : u.get (PLZ_SEL_STAT_ACTIVE t) = s.get (PLZ_SEL_STAT_ACTIVE t))
    (hidx : u.get (PLZ_SEL_STAT_CUR_IDX t) = s.get (PLZ_SEL_STAT_CUR_IDX t)) : u.selected t = s.selected t := by
  unfold State.selected State.on
  rw [hact, hidx]

theorem State.selected_pushEvt (t : Fin 4) (s : State) (code src body : Nat) : (s.pushEvt code src body).selected t = s.selected t :=
  State.selected_of_get (State.get_pushEvt _ _ _ _ _ (selStat_not_event t)) (State.get_pushEvt _ _ _ _ _ (selStat_not_event t))

theorem selectionShown_selected {new : Option Nat} (hnew : ∀ x, new = some x → x < 20) : (selectionShown t new s).selected t = new := by
  cases new with
  | none =>
    have hact : (selectionShown t none s).get (PLZ_SEL_STAT_ACTIVE t) = 0 := State.get_set_own rfl rfl
    unfold State.selected State.on
    rw [hact]
    rfl
  | some x =>
    have hact : (selectionShown t (some x) s).get (PLZ_SEL_STAT_ACTIVE t) = 1 :=
      (State.get_set_apart rfl).trans (State.get_set_own rfl rfl)
    have hidx : (selectionShown t (some x) s).get (PLZ_SEL_STAT_CUR_IDX t) = x :=
      (State.get_set_apart rfl).trans <| (State.get_set_apart rfl).trans <|
        (State.get_set_same s (PLZ_SEL_STAT_CUR_IDX t) x (show 0 + 5 ≤ 32 by decide)).trans
          (Nat.mod_eq_of_lt (Nat.lt_trans (hnew x rfl) (show 20 < 2 ^ 5 by decide)))
    unfold State.selected State.on
    rw [hact, hidx]
    rfl

theorem selectorPassed_selected (t : Fin 4) (s : State) : (selectorPassed t s).selected t = s.selectorChoice t := by
  unfold selectorPassed
  split
  · next h => exact h.symm
  · rw [State.selected_pushEvt]
    exact selectionShown_selected fun _ => State.selectorChoice_lt

theorem selectorPassed_frame (t : Fin 4) (s : State) :
    Frame s (selectorPassed t s) (Fld.off (PLZ_SEL_STAT_CUR_IDX t) :: eventOffs) := by
  have K := kept_frame s (Fld.off (PLZ_SEL_STAT_CUR_IDX t) :: eventOffs)
  have hstat : ∀ f : Fld, f.reg = ⟨.PLZ_SEL_STAT, t, 0, 0⟩ → f.reg.off ∈ Fld.off (PLZ_SEL_STAT_CUR_IDX t) :: eventOffs := fun f hf => by
    rw [hf]
    exact List.mem_cons_self
  exact K.iteState (Frame.refl s _) <| K.pushEvt _ _ _ (fun _ => List.mem_cons_of_mem _) <|
    selectionShown_keeps (K.calm hstat) _ _ (Frame.refl s _)

theorem selectorPassed_posted {t : Fin 4} (h : s.selectorChoice t ≠ s.selected t) : Posted s (selectorPassed t s) 0x0104 t := by
  have hdie : ∀ f : Fld, f.reg = ⟨.PLZ_SEL_STAT, t, 0, 0⟩ → f.Apart GLB_DIE_ISOLATED := fun f hf =>
    Fld.apart_of_name (by rw [hf]; exact (by decide : RegName.PLZ_SEL_STAT ≠ .GLB_DIE))
  unfold selectorPassed
  rw [if_neg h]
  refine posted_pushEvt (.of_events (selectionShown_keeps (calm_events _ s.evtSeq s.evtFifo) _ _ ⟨rfl, rfl⟩)) _ _ _ ?_
  exact State.linked_of_get (selectionShown_keeps (calm_get GLB_DIE_ISOLATED _ hdie) _ _ rfl) _ _

theorem selectorPassed_within (t : Fin 4) (s : State) : Within s (selectorPassed t s) (spanPlz ++ spanWork) := by
  refine (selectorPassed_frame t s).within fun o ho => ?_
  obtain rfl | ho := List.mem_cons.1 ho
  · have hoff : Fld.off (PLZ_SEL_STAT_CUR_IDX t) = 0x10114 + 0x40 * t.val + 0 * 0 + 0 * 0 := rfl
    exact .inr ⟨(0x10000, 0x12000), List.mem_cons_self, by omega, by omega⟩
  · exact .inl ho

end

/-- Settles O3: a pass makes the choice of its mode the selection, and AUTO's search finds the candidate that ranks first. -/
theorem selectorPassTakesTheChoice : Obligations.SelectorPassTakesTheChoice := by
  unfold Obligations.SelectorPassTakesTheChoice
  refine ⟨fun t s => ⟨_, exec_selectorPass t s, selectorPassed_selected t s, selectorPassed_stays, fun h => ⟨selectorPassed_posted h,
    selectorPassed_frame t s⟩⟩, fun t s hmode => ⟨_, exec_selectorPass t s, ?_, selectorPassed_within t s⟩,
    fun t s hmode => ⟨_, exec_selectorPass t s, ?_, selectorPassed_within t s⟩,
    fun t s hmode hsel => ⟨_, exec_selectorPass t s, fun i => ?_, ?_, selectorPassed_within t s⟩,
    fun t x s hmode hsel hx hstay => ⟨_, exec_selectorPass t s, ?_, selectorPassed_within t s⟩,
    fun t x i s hmode hsel hx hrevert hfirst => ⟨_, exec_selectorPass t s, ?_, selectorPassed_within t s⟩⟩
  all_goals rw [selectorPassed_selected]
  · exact State.selectorChoice_forced hmode
  · exact State.selectorChoice_system hmode
  · rw [State.selectorChoice_auto_none hmode hsel]
    exact State.bestCand_eq_some_iff
  · cases hc : s.selectorChoice t with
    | none => rfl
    | some x => exact decide_eq_true (State.selectorChoice_lt hc)
  · have hoff : s.on (PLZ_SEL_CTL_REVERT t) = false := by
      unfold State.on
      rw [hstay]
      rfl
    obtain ⟨b, hb⟩ := State.exists_bestCand hx
    rw [State.selectorChoice_auto_some hmode hsel hx hb]
    exact if_neg fun h => by simp [hoff] at h
  · have hon : s.on (PLZ_SEL_CTL_REVERT t) = true := decide_eq_true hrevert
    rw [State.selectorChoice_auto_some hmode hsel hx (State.bestCand_eq_some_iff.2 hfirst), hon, apply_ite some]
    simp only [true_and]

end Sys2Proof.Machine

/-! A command that ends at once, by the ring or the mailbox (R277, R285, R305), and the commands of the selectors. -/

namespace Sys2Proof.Machine

section
variable {P : State → Prop} {s : State} {v : CmdVia} {r : CmdRes} {op : Nat}

/-! ### A command that ends at once -/

/-- The status and the result are held, and an ignored command is counted. -/
def cmdHeld (v : CmdVia) (r : CmdRes) : State :=
  let s1 := r.s.modHost (fun h => { h with lastStatus := r.status, lastResult := r.result.toNat })
  if r.status = stIgnored then countIgnored v s1 else s1

/-- A mailbox command is then DONE. -/
def cmdEnded (v : CmdVia) (op : Nat) (r : CmdRes) : State :=
  match v with
  | .ring => cmdHeld v r
  | .mbx _ => mbxDone op r.status r.result.toNat (cmdHeld v r)

theorem directCmd_eq {f : State → CmdRes} (htake : s.takesCmd v = true) (hdefer : (f (cmdEntry v s)).status ≠ stDeferred) :
    directCmd v op f s = cmdEnded v op (f (cmdEntry v s)) := by
  unfold directCmd directThen
  rw [if_pos htake]
  cases v with
  | ring =>
    simp only [true_or, if_true, id_eq, ite_self]
    rfl
  | mbx k =>
    have hdefer : (f (mbxTake k s)).status ≠ stDeferred := hdefer
    simp only [reduceCtorEq, hdefer, or_self, if_false, id_eq, ite_self]
    rfl

/-- What the command's effect keeps, its end keeps where the registers of its way, and those of an ignored command, may be written. -/
theorem cmdHeld_keeps {ok : Reg → Prop} (K : Kept ok P) (hign : r.status = stIgnored → ∀ q : Reg, q.off ∈ ignoredOffs → ok q)
    (hs : P r.s) : P (cmdHeld v r) := by
  unfold cmdHeld
  split
  · next hst =>
    cases v with
    | ring => exact K.ignored _ _ _ (hign hst) (K.modHost hs)
    | mbx k => exact K.ignored _ _ _ (hign hst) (K.modHost hs)
  · exact K.modHost hs

theorem mbxDone_keeps {ok : Reg → Prop} (K : Kept ok P) {k : Fin 4} (hvia : ∀ q : Reg, q.off ∈ viaOffs (.mbx k) → ok q)
    (op status result : Nat) (hs : P s) : P (mbxDone op status result s) := by
  have hctl : ok ⟨.MGT_MBX_CTL, 0, 0, 0⟩ := hvia _ List.mem_cons_self
  have hres : ok ⟨.MGT_MBX_RES, 0, 0, 0⟩ := hvia _ (List.mem_cons_of_mem _ List.mem_cons_self)
  have hevt : ok ⟨.MGT_EVT, 0, 0, 0⟩ := hvia _ (List.mem_cons_of_mem _ (List.mem_cons_of_mem _ List.mem_cons_self))
  exact K.raise MGT_EVT_EVT _ _ _ _ hevt (fun q hq => hvia q (List.mem_append_right _ hq)) <| K.set MGT_MBX_RES_RESULT _ hres <|
    K.set MGT_MBX_CTL_STATUS _ hctl <| K.set MGT_MBX_CTL_DONE _ hctl <| K.set MGT_MBX_CTL_BUSY _ hctl hs

theorem cmdEntry_keeps {ok : Reg → Prop} (K : Kept ok P) (hvia : ∀ q : Reg, q.off ∈ viaOffs v → ok q) (hs : P s) :
    P (cmdEntry v s) := by
  cases v with
  | ring => exact hs
  | mbx k => exact mbxTake_keeps K (hvia _ List.mem_cons_self) hs

theorem cmdEnded_keeps {ok : Reg → Prop} (K : Kept ok P) (hvia : ∀ q : Reg, q.off ∈ viaOffs v → ok q)
    (hign : r.status = stIgnored → ∀ q : Reg, q.off ∈ ignoredOffs → ok q) (hs : P r.s) : P (cmdEnded v op r) := by
  have hheld : P (cmdHeld v r) := cmdHeld_keeps K hign hs
  cases v with
  | ring => exact hheld
  | mbx k => exact mbxDone_keeps K hvia _ _ _ hheld

theorem cmdHeld_status (v : CmdVia) (r : CmdRes) : (cmdHeld v r).host.lastStatus = r.status := by
  unfold cmdHeld
  split
  · cases v <;> exact congrArg HostInt.lastStatus (State.ignored_host ..)
  · rfl

theorem cmdEnded_status (v : CmdVia) (op : Nat) (r : CmdRes) : (cmdEnded v op r).host.lastStatus = r.status := by
  cases v with
  | ring => exact cmdHeld_status _ r
  | mbx k =>
    have hhost : (mbxDone op r.status r.result.toNat (cmdHeld (.mbx k) r)).host = (cmdHeld (.mbx k) r).host := by
      simp [mbxDone, State.raise, State.setBit_eq]
    exact (congrArg HostInt.lastStatus hhost).trans (cmdHeld_status _ r)

theorem cmdHeld_events (v : CmdVia) (r : CmdRes) :
    (cmdHeld v r).evtSeq = r.s.evtSeq ∧ (cmdHeld v r).evtFifo = r.s.evtFifo := by
  unfold cmdHeld
  split
  · cases v <;> exact ⟨State.ignored_evtSeq .., State.ignored_evtFifo ..⟩
  · exact ⟨rfl, rfl⟩

theorem cmdEntry_events (v : CmdVia) (s : State) : (cmdEntry v s).evtSeq = s.evtSeq ∧ (cmdEntry v s).evtFifo = s.evtFifo := by
  cases v with
  | ring => exact ⟨rfl, rfl⟩
  | mbx k => simp [cmdEntry, mbxTake]

/-- The end posts MBX_DONE by the mailbox and nothing by the ring, where the effect posts nothing. -/
theorem cmdEnded_posts (hq : r.s.evtSeq = s.evtSeq ∧ r.s.evtFifo = s.evtFifo) : Posts s (cmdEnded v op r) (viaEvt v) := by
  obtain ⟨hseq, hfifo⟩ := cmdHeld_events v r
  rw [hq.1] at hseq
  rw [hq.2] at hfifo
  cases v with
  | ring => exact ⟨hseq, fun _ => (congrArg _ hfifo).trans (List.append_nil _).symm⟩
  | mbx k =>
    unfold cmdEnded mbxDone
    exact posts_raise (by simpa using hseq) (by simpa using hfifo) rfl ..

/-- An ignored command is counted with the source of its way. -/
theorem cmdHeld_counted (h : r.status = stIgnored) :
    (cmdHeld v r).get GLB_IGNORED_CNT_CNT = satNat 32 (r.s.get GLB_IGNORED_CNT_CNT + 1) ∧
      (cmdHeld v r).get GLB_IGNORED_LAST_S_SOURCE = viaSource v := by
  have hcounted : ∀ (t : State) (src addr : Nat), src < 256 →
      (t.ignored src addr).get GLB_IGNORED_CNT_CNT = satNat 32 (t.get GLB_IGNORED_CNT_CNT + 1) ∧
        (t.ignored src addr).get GLB_IGNORED_LAST_S_SOURCE = src := by
    intro t src addr hsrc
    unfold State.ignored
    constructor
    · exact (State.get_set_apart rfl).trans <| (State.get_set_apart rfl).trans <| (State.get_set_apart rfl).trans <|
        State.get_bump_own rfl
    · exact (State.get_set_apart rfl).trans <| (State.get_set_same _ _ _ (by decide)).trans (Nat.mod_eq_of_lt hsrc)
  unfold cmdHeld
  rw [if_pos h]
  cases v with
  | ring => exact hcounted _ 2 _ (by decide)
  | mbx k => exact hcounted _ 7 _ (by decide)

/-- The way of a command leaves the fields of other registers. -/
theorem kept_via_get {f : Fld} (x : Nat) (hf : f.off ∉ viaOffs v) : Kept (fun q => q.off ∈ viaOffs v) (fun u => u.get f = x) :=
  (kept_get f x).mono fun q hq he => hf (by rw [show f.off = q.off from congrArg Reg.off he.symm]; exact hq)

theorem cmdEnded_counted (h : r.status = stIgnored) :
    (cmdEnded v op r).get GLB_IGNORED_CNT_CNT = satNat 32 (r.s.get GLB_IGNORED_CNT_CNT + 1) ∧
      (cmdEnded v op r).get GLB_IGNORED_LAST_S_SOURCE = viaSource v := by
  obtain ⟨hcnt, hsrc⟩ := cmdHeld_counted (v := v) h
  cases v with
  | ring => exact ⟨hcnt, hsrc⟩
  | mbx k =>
    have hkept : ∀ f : Fld, f.off ∉ viaOffs (.mbx k) → ∀ t : State, (mbxDone op r.status r.result.toNat t).get f = t.get f :=
      fun f hf t => mbxDone_keeps (kept_via_get _ hf) (fun _ => id) _ _ _ rfl
    exact ⟨(hkept _ (by decide : GLB_IGNORED_CNT_CNT.off ∉ viaOffs (.mbx 0)) _).trans hcnt,
      (hkept _ (by decide : GLB_IGNORED_LAST_S_SOURCE.off ∉ viaOffs (.mbx 0)) _).trans hsrc⟩

end

/-! ### The commands of the selectors (R61) -/

section
variable {s : State} {v : CmdVia} {t : Fin 4} {i : Nat}

theorem selCtl_not_via (v : CmdVia) (t : Fin 4) : Reg.off ⟨.PLZ_SEL_CTL, t, 0, 0⟩ ∉ viaOffs v := by
  have hoff : Reg.off ⟨.PLZ_SEL_CTL, t, 0, 0⟩ = 0x10100 + 0x40 * t.val + 0 * 0 + 0 * 0 := rfl
  cases v with
  | ring => exact List.not_mem_nil
  | mbx k =>
    have hlist : viaOffs (.mbx k) = [9280, 9284, 9344, 532484, 8960, 56, 52] := (by decide : viaOffs (.mbx 0) = _)
    rw [hlist]
    simp only [List.mem_cons, List.not_mem_nil, or_false, not_or]
    omega

/-- Taking the mailbox reaches no register of the plaza. -/
theorem cmdEntry_get_plaza {f : Fld} (hf : 0x10000 ≤ f.off) : (cmdEntry v s).get f = s.get f := by
  have hctl : Reg.off ⟨.MGT_MBX_CTL, 0, 0, 0⟩ = 0x2440 := by decide
  exact cmdEntry_get (by omega)

theorem onDie_run {d : Nat} {g : State → CmdRes} (h : s.isolated d = false) : onDie d g s = g s :=
  if_neg (by rw [h]; exact Bool.false_ne_true)

theorem cmdEntry_isolated (v : CmdVia) (s : State) (d : Nat) : (cmdEntry v s).isolated d = s.isolated d :=
  isolated_of_get (cmdEntry_get (by decide)) d

/-- A selector command whose effect is written in PLZ_SEL_CTL completes OK and posts nothing of its own. -/
theorem selCommand_ok {op : Nat} {g : State → CmdRes} {z : State} (htake : s.takesCmd v = true)
    (hg : g (cmdEntry v s) = cmdOk z)
    (hz : ∀ {P : State → Prop}, Calm (fun f => f.reg = ⟨.PLZ_SEL_CTL, t, 0, 0⟩) P → P (cmdEntry v s) → P z) :
    ∃ u, directCmd v op g s = u ∧ u.get (PLZ_SEL_CTL_MODE t) = z.get (PLZ_SEL_CTL_MODE t) ∧
      u.get (PLZ_SEL_CTL_FORCE_IDX t) = z.get (PLZ_SEL_CTL_FORCE_IDX t) ∧ u.host.lastStatus = stOk ∧ Posts s u (viaEvt v) ∧
      Frame s u ([Fld.off (PLZ_SEL_CTL_MODE t)] ++ viaOffs v) := by
  have hst : (g (cmdEntry v s)).status = stOk := congrArg CmdRes.status hg
  have hzs : (g (cmdEntry v s)).s = z := congrArg CmdRes.s hg
  have hign : (g (cmdEntry v s)).status = stIgnored → ∀ q : Reg, q.off ∈ ignoredOffs → q.off ∈ viaOffs v := fun h => by
    rw [hst] at h
    exact absurd h (by decide)
  have hget : ∀ f : Fld, f.reg = ⟨.PLZ_SEL_CTL, t, 0, 0⟩ → (cmdEnded v op (g (cmdEntry v s))).get f = z.get f := fun f hf =>
    cmdEnded_keeps (kept_via_get _ (by rw [Fld.off, hf]; exact selCtl_not_via v t)) (fun _ => id) hign
      (congrArg (State.get · f) hzs)
  refine ⟨_, directCmd_eq htake (by rw [hst]; decide), hget _ rfl, hget _ rfl, (cmdEnded_status ..).trans hst, cmdEnded_posts ?_, ?_⟩
  · rw [hzs]
    exact hz (calm_events _ _ _) (cmdEntry_events v s)
  · have K := kept_frame s ([Fld.off (PLZ_SEL_CTL_MODE t)] ++ viaOffs v)
    have hvia : ∀ q : Reg, q.off ∈ viaOffs v → q.off ∈ [Fld.off (PLZ_SEL_CTL_MODE t)] ++ viaOffs v := fun _ => List.mem_append_right _
    refine cmdEnded_keeps K hvia (fun h q hq => hvia q (hign h q hq)) ?_
    rw [hzs]
    refine hz (K.calm fun f hf => ?_) (cmdEntry_keeps K hvia (Frame.refl s _))
    rw [hf]
    exact List.mem_append_left _ List.mem_cons_self

/-- A command that is refused before it writes is counted and changes nothing else. -/
theorem refusedCommand {op : Nat} {g : State → CmdRes} (htake : s.takesCmd v = true)
    (hg : g (cmdEntry v s) = cmdIgnored (cmdEntry v s)) :
    ∃ u, directCmd v op g s = u ∧ u.host.lastStatus = stIgnored ∧
      u.get GLB_IGNORED_CNT_CNT = satNat 32 (s.get GLB_IGNORED_CNT_CNT + 1) ∧ u.get GLB_IGNORED_LAST_S_SOURCE = viaSource v ∧
      Posts s u (viaEvt v) ∧ Frame s u (ignoredOffs ++ viaOffs v) := by
  have hst : (g (cmdEntry v s)).status = stIgnored := congrArg CmdRes.status hg
  have hes : (g (cmdEntry v s)).s = cmdEntry v s := congrArg CmdRes.s hg
  obtain ⟨hcnt, hsrc⟩ := cmdEnded_counted (v := v) (op := op) hst
  rw [hes, cmdEntry_get (by decide)] at hcnt
  refine ⟨_, directCmd_eq htake (by rw [hst]; decide), (cmdEnded_status ..).trans hst, hcnt, hsrc, cmdEnded_posts ?_, ?_⟩
  · rw [hes]
    exact cmdEntry_events v s
  · have K := kept_frame s (ignoredOffs ++ viaOffs v)
    have hvia : ∀ q : Reg, q.off ∈ viaOffs v → q.off ∈ ignoredOffs ++ viaOffs v := fun _ => List.mem_append_right _
    refine cmdEnded_keeps K hvia (fun _ _ => List.mem_append_left _) ?_
    rw [hes]
    exact cmdEntry_keeps K hvia (Frame.refl s _)

/-- The effect of REF_FORCE's command. -/
def refForced (t i : Nat) (s : State) : CmdRes := onDie (dieOfRegion t) (fun s => if i < 32 then cmdRefForce t i s else cmdIgnored s) s

theorem exec_refForce (v : CmdVia) (t : Fin 4) (i : BitVec 8) (s : State) :
    exec (.refForce v t i) s = .next (directCmd v 0x10 (refForced t i.toNat) s) := rfl

theorem exec_refAuto (v : CmdVia) (t : Fin 4) (s : State) :
    exec (.refAuto v t) s = .next (directCmd v 0x11 (onDie (dieOfRegion t) (cmdRefAuto t)) s) := rfl

theorem candEn_cmdEntry (v : CmdVia) (t : Fin 4) (s : State) (i : Nat) :
    (cmdEntry v s).bit (PLZ_CAND_CAND_EN t) i = s.bit (PLZ_CAND_CAND_EN t) i := by
  have hoff : (PLZ_CAND_CAND_EN t).off = 0x10104 + 0x40 * t.val + 0 * 0 + 0 * 0 := rfl
  exact State.bit_of_get (cmdEntry_get_plaza (by omega)) i

/-- REF_FORCE of an enabled candidate. -/
theorem refForced_ok (hiso : s.isolated (dieOfRegion t) = false) (hi : i < 20) (hen : s.bit (PLZ_CAND_CAND_EN t) i = true) :
    refForced t i s = cmdOk ((s.set (PLZ_SEL_CTL_MODE t) 1).set (PLZ_SEL_CTL_FORCE_IDX t) i) := by
  unfold refForced
  rw [onDie_run hiso, if_pos (Nat.lt_trans hi (by decide))]
  exact if_pos ⟨hi, hen⟩

/-- REF_FORCE of any other. -/
theorem refForced_ignored (hiso : s.isolated (dieOfRegion t) = false) (h : 20 ≤ i ∨ s.bit (PLZ_CAND_CAND_EN t) i = false) :
    refForced t i s = cmdIgnored s := by
  unfold refForced
  rw [onDie_run hiso]
  split
  · refine if_neg fun hok => ?_
    obtain ⟨hi, hen⟩ := hok
    rcases h with h | h
    · omega
    · rw [h] at hen
      cases hen
  · rfl

end

/-- The lanes' residuals are stored (R57, R66). -/
def laneCalibrated (a c : Byte) (s : State) : State :=
  ((s.set PLZ_LANE_CAL_RES_01 a.toNat).set PLZ_LANE_CAL_RES_10 c.toNat).set PLZ_LANE_CAL_CAL_DONE 1

theorem exec_laneCalDone (a c : Byte) (s : State) : exec (.laneCalDone a c) s = .next (laneCalibrated a c s) := rfl

section
variable (a c : Byte) (s : State)

theorem State.get_set_byte {f : Fld} (h : Nat.ble (f.lo + f.w) 32 = true) (hw : f.w = 8) : (s.set f a.toNat).get f = a.toNat := by
  rw [State.get_set_same s f _ (Nat.le_of_ble_eq_true h), hw]
  exact Nat.mod_eq_of_lt a.isLt

theorem laneCalibrated_res01 : (laneCalibrated a c s).get PLZ_LANE_CAL_RES_01 = a.toNat := by
  unfold laneCalibrated
  rw [State.get_set_apart rfl, State.get_set_apart rfl, State.get_set_byte _ _ rfl rfl]

theorem laneCalibrated_res10 : (laneCalibrated a c s).get PLZ_LANE_CAL_RES_10 = c.toNat := by
  unfold laneCalibrated
  rw [State.get_set_apart rfl, State.get_set_byte _ _ rfl rfl]

theorem laneCalibrated_done : (laneCalibrated a c s).get PLZ_LANE_CAL_CAL_DONE = 1 := by
  unfold laneCalibrated
  rw [State.get_set_own rfl rfl]

/-- Its three fields stand in one register. -/
theorem laneCalibrated_keeps {P : State → Prop} (K : Calm (fun f => f.reg = ⟨.PLZ_LANE_CAL, 0, 0, 0⟩) P) (hs : P s) :
    P (laneCalibrated a c s) :=
  K.set rfl <| K.set rfl <| K.set rfl hs

theorem laneCalibrated_frame : Frame s (laneCalibrated a c s) [Fld.off PLZ_LANE_CAL_RES_01] := by
  refine laneCalibrated_keeps a c s ((kept_frame s _).calm fun f hf => ?_) (Frame.refl s _)
  rw [hf]
  exact List.mem_cons_self

end

/-- Settles O4: REF_FORCE and REF_AUTO by what a command that ends at once adds to its effect, and LANE_CAL_DONE field by field. -/
theorem selectorCommands : Obligations.SelectorCommands := by
  unfold Obligations.SelectorCommands
  refine ⟨fun v t i s htake hiso hi hen => ?_, fun v t i s htake hiso h => ?_, fun v t s htake hiso => ?_,
    fun a c s => ⟨_, exec_laneCalDone a c s, laneCalibrated_res01 a c s, laneCalibrated_res10 a c s, laneCalibrated_done a c s,
      .of_events (laneCalibrated_keeps a c s (calm_events _ _ _) ⟨rfl, rfl⟩), laneCalibrated_frame a c s⟩⟩
  all_goals rw [← cmdEntry_isolated v s] at hiso
  · rw [← candEn_cmdEntry v t s] at hen
    obtain ⟨u, hu, hmode, hidx, hrest⟩ := selCommand_ok (op := 0x10) htake (refForced_ok hiso hi hen)
      fun K h => K.set rfl (K.set rfl h)
    refine ⟨u, (exec_refForce v t i s).trans (congrArg _ hu), hmode.trans ?_, hidx.trans ?_, hrest⟩
    · exact (State.get_set_apart rfl).trans (State.get_set_own rfl rfl)
    · exact (State.get_set_same _ (PLZ_SEL_CTL_FORCE_IDX t) _ (show 8 + 5 ≤ 32 by decide)).trans
        (Nat.mod_eq_of_lt (Nat.lt_trans hi (show 20 < 2 ^ 5 by decide)))
  · rw [← candEn_cmdEntry v t s] at h
    obtain ⟨u, hu, hrest⟩ := refusedCommand (op := 0x10) htake (refForced_ignored hiso h)
    exact ⟨u, (exec_refForce v t i s).trans (congrArg _ hu), hrest⟩
  · obtain ⟨u, hu, hmode, hidx, hrest⟩ := selCommand_ok (op := 0x11) htake (onDie_run hiso (g := cmdRefAuto t))
      fun K h => K.set rfl h
    have hoff : (PLZ_SEL_CTL_FORCE_IDX t).off = 0x10100 + 0x40 * t.val + 0 * 0 + 0 * 0 := rfl
    refine ⟨u, (exec_refAuto v t s).trans (congrArg _ hu), hmode.trans (State.get_set_own rfl rfl), hidx.trans ?_, hrest⟩
    exact (State.get_set_apart rfl).trans (cmdEntry_get_plaza (by omega))

end Sys2Proof.Machine

/-! The reference monitors (R49 to R54): what a gate, a jump of phase and the end of the qualification timer write. -/

namespace Sys2Proof.Machine

/-! ### The registers of a monitor -/

/-- The names of the registers that a monitor's operations write. -/
def monNames : List RegName := [.MON_STAT, .MON_FOFS, .MON_QREM, .MON_EVT, .MON_CNT, .MON_PJ_LAST]

/-- A register of monitor `m` with one of the names. -/
def MonReg (names : List RegName) (m : Nat) (r : Reg) : Prop := ∃ n, names.contains n = true ∧ r = ⟨n, m, 0, 0⟩

/-- The offsets of those registers. -/
def monOffs (names : List RegName) (m : Nat) : List Nat := names.map (fun n => Reg.off ⟨n, m, 0, 0⟩)

section
variable {names : List RegName} {s t : State} {m : Fin 16} {n : RegName} {f g : Fld} {r : Reg}

theorem MonReg.mem_monOffs (h : MonReg names m r) : r.off ∈ monOffs names m := by
  obtain ⟨n, hn, rfl⟩ := h
  exact List.mem_map_of_mem (List.contains_iff_mem.1 hn)

theorem MonReg.apart (h : MonReg names m f.reg) (hg : names.contains g.reg.name = false) : f.Apart g := by
  obtain ⟨n, hn, hf⟩ := h
  refine Fld.apart_of_name fun e => ?_
  rw [← e, hf, hn] at hg
  cases hg

/-- They lie in the plaza. -/
theorem mon_off_bounds (m : Fin 16) (hn : monNames.contains n = true) :
    0x10000 ≤ Reg.off ⟨n, m, 0, 0⟩ ∧ Reg.off ⟨n, m, 0, 0⟩ < 0x12000 := by
  have hrows : ∀ n ∈ monNames, (n.row.n1 = 16 ∧ n.row.n2 = 1 ∧ n.row.n3 = 1) ∧ 0x10000 ≤ n.row.base ∧ n.top < 0x12000 := by decide
  obtain ⟨⟨h1, h2, h3⟩, hlo, hhi⟩ := hrows n (List.contains_iff_mem.1 hn)
  obtain ⟨hbase, htop⟩ := Reg.off_bounds (q := ⟨n, m, 0, 0⟩) (by simp [Reg.real, h1, h2, h3])
  exact ⟨Nat.le_trans hlo hbase, Nat.lt_of_le_of_lt htop hhi⟩

/-- An event writes none of them. -/
theorem mon_not_event (m : Fin 16) (hn : monNames.contains n = true) : Reg.off ⟨n, m, 0, 0⟩ ∉ eventOffs := by
  obtain ⟨hlo, hhi⟩ := mon_off_bounds m hn
  exact not_event (by omega)

/-- Writes of the named registers and events keep the frame over them. -/
theorem kept_monEvent (s : State) (names : List RegName) (m : Fin 16) :
    Kept (fun r => MonReg names m r ∨ r.off ∈ eventOffs) (fun t => Frame s t (monOffs names m ++ eventOffs)) :=
  (kept_frame s _).mono fun _ hr => hr.elim (fun h => List.mem_append_left _ h.mem_monOffs) (List.mem_append_right _)

theorem calm_monEvent (s : State) (names : List RegName) (m : Fin 16) :
    Calm (fun f => MonReg names m f.reg) (fun t => Frame s t (monOffs names m ++ eventOffs)) :=
  (kept_monEvent s names m).calm fun _ => .inl

theorem calm_mon (s : State) (names : List RegName) (m : Fin 16) :
    Calm (fun f => MonReg names m f.reg) (fun t => Frame s t (monOffs names m)) :=
  (kept_frame s _).calm fun _ h => h.mem_monOffs

theorem frame_monEvent_raise (h : Frame s t (monOffs names m ++ eventOffs)) (hf : MonReg names m f.reg) (i code src : Nat)
    (body : List (Nat × Nat)) : Frame s (t.raise f i code src body) (monOffs names m ++ eventOffs) :=
  (kept_monEvent s names m).raise f i code src body (.inl hf) (fun _ => .inr) h

/-- A frame over registers of a monitor lies in the plaza. -/
theorem within_of_monFrame (h : Frame s t (monOffs names m ++ eventOffs)) (hnames : ∀ n ∈ names, monNames.contains n = true) :
    Within s t spanPlz := by
  refine h.within fun o ho => ?_
  rcases List.mem_append.1 ho with ho | ho
  · obtain ⟨n, hn, rfl⟩ := List.mem_map.1 ho
    obtain ⟨hlo, hhi⟩ := mon_off_bounds m (hnames n hn)
    exact .inr ⟨_, List.mem_cons_self, hlo, hhi⟩
  · exact .inl ho

/-- An operation of a monitor that raises an event posts it. -/
theorem posted_monRaise (hseq : t.evtSeq = s.evtSeq ∧ t.evtFifo = s.evtFifo)
    (hdie : t.get GLB_DIE_ISOLATED = s.get GLB_DIE_ISOLATED) (hf : f.Apart GLB_DIE_ISOLATED) (code src : Nat) (body : List (Nat × Nat)) :
    Posted s (t.raise f 0 code src body) code src := by
  refine posted_pushEvt ((Silent.of_events hseq).set _ _) _ _ _ (State.linked_of_get (Eq.trans ?_ hdie) _ _)
  exact (calm_get (ok := fun e => e = f) GLB_DIE_ISOLATED _ (by rintro _ rfl; exact hf)).set rfl rfl

end

/-! ### What a monitor holds beside its registers -/

theorem bankGet_bankMod_same {α : Type} {n i : Nat} [Inhabited α] (v : Vector α n) (f : α → α) (h : i < n) :
    bankGet (bankMod v i f) i = f (bankGet v i) := by
  simp [bankGet, bankMod, h]

section
variable {P : State → Prop} {ok : Fld → Prop} {s : State} {m : Fin 16} {f : Fld}

theorem State.mon_modMon (s : State) (m : Fin 16) (g : MonInt → MonInt) : bankGet (s.modMon m g).mon m = g (bankGet s.mon m) :=
  bankGet_bankMod_same _ _ m.isLt

theorem Calm.modMon (K : Calm ok P) {g : MonInt → MonInt} (hs : P s) : P (s.modMon m g) := K.beside hs rfl

theorem Calm.monFail (K : Calm ok P) (hstat : ok (MON_STAT_STATE m)) (hrem : ok (MON_QREM_QREM m)) (hs : P s) : P (s.monFail m) :=
  K.set hrem <| K.set hstat hs

theorem State.monFail_state (s : State) (m : Fin 16) : (s.monFail m).get (MON_STAT_STATE m) = monFailed :=
  (State.get_set_apart rfl).trans (State.get_set_own rfl rfl)

theorem State.monFail_qrem (s : State) (m : Fin 16) : (s.monFail m).get (MON_QREM_QREM m) = 0 := State.get_set_own rfl rfl

theorem State.get_monFail (hstat : (MON_STAT_STATE m).apartFrom f = true) (hrem : (MON_QREM_QREM m).apartFrom f = true) :
    (s.monFail m).get f = s.get f :=
  (State.get_set_apart hrem).trans (State.get_set_apart hstat)

/-! ### A gate's result (R49, R50) -/

/-- The result of a gate is stored. -/
def gateStored (m : Fin 16) (r : Int) (s : State) : State :=
  ((((s.modMon m (fun x => { x with gateVoid := !s.on (MON_STAT_ACT m) })).set (MON_FOFS_FOFS m) (satS32 r)).set
    (MON_STAT_FVALID m) 1).put (MON_STAT_IN_ACCEPT m) (withinLimit r (s.get (MON_ACCEPT_ACCEPT m)))).put (MON_STAT_IN_REJECT m)
    (withinLimit r (s.get (MON_REJECT_REJECT m)))

theorem exec_freqGateDone_void {res : BitVec 48} (hrun : s.monRuns m = true) (hvoid : (bankGet s.mon m.val).gateVoid = true) :
    exec (.freqGateDone m res) s = .next (s.modMon m (fun x => { x with gateVoid := !s.on (MON_STAT_ACT m) })) := by
  change execFreqGateDone m res s = _
  unfold execFreqGateDone
  rw [if_pos hrun, hvoid]
  rfl

theorem exec_freqGateDone_reject {res : BitVec 48} (hrun : s.monRuns m = true) (hvoid : (bankGet s.mon m.val).gateVoid = false)
    (htrust : s.monTrusted m = true) (hrej : withinLimit res.toInt (s.get (MON_REJECT_REJECT m)) = false) :
    exec (.freqGateDone m res) s = .next (((gateStored m res.toInt s).monFail m).raise (MON_EVT_FREQ_REJECT m) 0 0x0101 m) := by
  change execFreqGateDone m res s = _
  unfold execFreqGateDone gateStored
  simp only [hrun, hvoid, htrust, hrej, if_true, Bool.false_eq_true, if_false, Bool.not_false, Bool.and_self]

theorem State.not_monTrusted (h : s.get (MON_STAT_STATE m) = monFailed) : s.monTrusted m = false := by
  unfold State.monTrusted
  rw [h]
  rfl

theorem exec_freqGateDone_accept {res : BitVec 48} (hrun : s.monRuns m = true) (hvoid : (bankGet s.mon m.val).gateVoid = false)
    (hfail : s.get (MON_STAT_STATE m) = monFailed) (hact : s.on (MON_STAT_ACT m) = true)
    (hacc : withinLimit res.toInt (s.get (MON_ACCEPT_ACCEPT m)) = true) :
    exec (.freqGateDone m res) s = .next (((gateStored m res.toInt s).set (MON_STAT_STATE m) monQualifying).loadQual m) := by
  change execFreqGateDone m res s = _
  unfold execFreqGateDone gateStored
  simp only [hrun, hvoid, State.not_monTrusted hfail, hfail, hact, hacc, if_true, Bool.false_eq_true, if_false, Bool.false_and, and_self]

theorem Calm.gateStored (K : Calm ok P) {x : Int} (hfofs : ok (MON_FOFS_FOFS m)) (hvalid : ok (MON_STAT_FVALID m))
    (hacc : ok (MON_STAT_IN_ACCEPT m)) (hrej : ok (MON_STAT_IN_REJECT m)) (hs : P s) : P (gateStored m x s) :=
  K.set hrej <| K.set hacc <| K.set hvalid <| K.set hfofs <| K.modMon hs

section
variable (m : Fin 16) (x : Int) (s : State)

theorem gateStored_fofs : (gateStored m x s).get (MON_FOFS_FOFS m) = satS32 x % 2 ^ 32 :=
  (State.get_set_apart rfl).trans <| (State.get_set_apart rfl).trans <| (State.get_set_apart rfl).trans <|
    State.get_set_same _ (MON_FOFS_FOFS m) _ (show 0 + 32 ≤ 32 by decide)

theorem gateStored_fvalid : (gateStored m x s).get (MON_STAT_FVALID m) = 1 :=
  (State.get_set_apart rfl).trans <| (State.get_set_apart rfl).trans <| State.get_set_own rfl rfl

theorem gateStored_inAccept : (gateStored m x s).get (MON_STAT_IN_ACCEPT m) =
    if withinLimit x (s.get (MON_ACCEPT_ACCEPT m)) then 1 else 0 :=
  (State.get_set_apart rfl).trans <| State.get_put_own _ rfl rfl

theorem gateStored_inReject : (gateStored m x s).get (MON_STAT_IN_REJECT m) =
    if withinLimit x (s.get (MON_REJECT_REJECT m)) then 1 else 0 := State.get_put_own _ rfl rfl

theorem gateStored_qual : (gateStored m x s).get (MON_QUAL_QUAL m) = s.get (MON_QUAL_QUAL m) :=
  (calm_get (ok := fun f => MonReg [.MON_STAT, .MON_FOFS] m f.reg) (MON_QUAL_QUAL m) _ fun _ h => h.apart rfl).gateStored
    ⟨_, rfl, rfl⟩ ⟨_, rfl, rfl⟩ ⟨_, rfl, rfl⟩ ⟨_, rfl, rfl⟩ rfl

end

/-! ### The qualification timer (R53) -/

theorem Calm.loadQual (K : Calm ok P) (hrem : ok (MON_QREM_QREM m)) (hs : P s) : P (s.loadQual m) := K.set hrem <| K.modMon hs

theorem Calm.reloadQual (K : Calm ok P) (hrem : ok (MON_QREM_QREM m)) (hs : P s) : P (s.reloadQual m) := K.set hrem <| K.modMon hs

theorem State.get_modMon (s : State) (m : Nat) (g : MonInt → MonInt) (f : Fld) : (s.modMon m g).get f = s.get f := rfl

theorem State.get_loadQual (h : (MON_QREM_QREM m).apartFrom f = true) : (s.loadQual m).get f = s.get f :=
  (State.get_set_apart h).trans (State.get_modMon ..)

theorem State.get_reloadQual (h : (MON_QREM_QREM m).apartFrom f = true) : (s.reloadQual m).get f = s.get f :=
  (State.get_set_apart h).trans (State.get_modMon ..)

/-- A timer just loaded shows the whole of its length. -/
theorem State.loadQual_qrem (s : State) (m : Fin 16) : (s.loadQual m).get (MON_QREM_QREM m) = s.get (MON_QUAL_QUAL m) := by
  have hqual : s.get (MON_QUAL_QUAL m) < 2 ^ 14 := State.get_lt s _
  have hshown : (qualUnit * s.get (MON_QUAL_QUAL m) + (qualUnit - 1)) / qualUnit = s.get (MON_QUAL_QUAL m) := by
    unfold qualUnit
    omega
  unfold State.loadQual showQrem
  dsimp only
  rw [State.mon_modMon, State.get_set_same _ _ _ (show 0 + 14 ≤ 32 by decide), hshown]
  exact Nat.mod_eq_of_lt hqual

theorem State.reloadQual_mon (s : State) (m : Fin 16) :
    bankGet (s.reloadQual m).mon m.val = { bankGet s.mon m.val with qual := (bankGet s.mon m.val).qualLen } := by
  unfold State.reloadQual showQrem
  rw [State.set_mon, State.mon_modMon]

theorem exec_qualTimerExpire (hrun : s.monRuns m = true) (hq : s.get (MON_STAT_STATE m) = monQualifying) :
    exec (.qualTimerExpire m) s =
      .next (((s.set (MON_STAT_STATE m) monQualified).set (MON_QREM_QREM m) 0).raise (MON_EVT_QUALIFIED m) 0 0x0103 m) :=
  congrArg Host.Outcome.next (if_pos ⟨hrun, hq⟩)

/-! ### A jump of phase (R52) -/

/-- The jump is counted and recorded. -/
def jumpRecorded (m : Fin 16) (dev : Int) (s : State) : State :=
  ((s.voidGate m).bump (MON_CNT_PJ_CNT m)).set (MON_PJ_LAST_PJ_LAST m) (ofSigned 32 (roundDivInt (s.jumpDev m dev) (s.refUnits m)))

/-- It is posted, and the regions that follow the reference mark their interval. -/
def jumpPosted (m : Fin 16) (dev : Int) (s : State) : State :=
  let u := (jumpRecorded m dev s).raise (MON_EVT_PHASE_JUMP m) 0 0x0102 m
  { u with trg := u.trg.map (fun g => if g.cand = some m.val then { g with clean := false } else g) }

theorem exec_phaseJump {dev : Word} (hrun : s.monRuns m = true) (hact : s.on (MON_STAT_ACT m) = true)
    (hseen : s.jumpSeen m dev.toInt = true) (htrust : s.monTrusted m = true) :
    exec (.phaseJump m dev) s = .next (if s.get (MON_STAT_STATE m) = monQualifying then (jumpPosted m dev.toInt s).reloadQual m
      else if s.get (MON_CFG_PJ_ACTION m) = 0 then (jumpPosted m dev.toInt s).monFail m else jumpPosted m dev.toInt s) := by
  change execPhaseJump m dev s = _
  unfold execPhaseJump jumpPosted jumpRecorded
  simp only [hrun, hact, hseen, htrust, Bool.and_self, if_true]

theorem Calm.jumpRecorded (K : Calm ok P) {dev : Int} (hcnt : ok (MON_CNT_PJ_CNT m)) (hlast : ok (MON_PJ_LAST_PJ_LAST m)) (hs : P s) :
    P (jumpRecorded m dev s) :=
  K.set hlast <| K.set hcnt <| K.modMon hs

section
variable (m : Fin 16) (dev : Int) (s : State)

theorem jumpRecorded_last :
    (jumpRecorded m dev s).get (MON_PJ_LAST_PJ_LAST m) = ofSigned 32 (roundDivInt (s.jumpDev m dev) (s.refUnits m)) := by
  have hfit : ∀ v : Int, ofSigned 32 v < 2 ^ 32 := fun v => by
    unfold ofSigned
    omega
  exact (State.get_set_same _ (MON_PJ_LAST_PJ_LAST m) _ (show 0 + 32 ≤ 32 by decide)).trans (Nat.mod_eq_of_lt (hfit _))

theorem jumpRecorded_count : (jumpRecorded m dev s).get (MON_CNT_PJ_CNT m) = satNat 16 (s.get (MON_CNT_PJ_CNT m) + 1) :=
  (State.get_set_apart rfl).trans <| (State.get_bump_own rfl).trans <| congrArg (fun x => satNat 16 (x + 1)) (State.get_modMon ..)

theorem jumpPosted_get (h : (MON_EVT_PHASE_JUMP m).apartFrom f = true) (he : f.reg.off ∉ eventOffs) :
    (jumpPosted m dev s).get f = (jumpRecorded m dev s).get f := State.get_raise_apart h he

theorem jumpPosted_event : (jumpPosted m dev s).get (MON_EVT_PHASE_JUMP m) = 1 := State.get_raise_own rfl rfl (mon_not_event m rfl)

theorem jumpPosted_mon : bankGet (jumpPosted m dev s).mon m.val = { bankGet s.mon m.val with gateVoid := true } := by
  have hraise : (jumpPosted m dev s).mon = (s.voidGate m).mon := by
    simp [jumpPosted, jumpRecorded, State.raise, State.setBit_eq, State.bump_eq]
  rw [hraise]
  exact State.mon_modMon s m _

theorem jumpPosted_posted : Posted s (jumpPosted m dev s) 0x0102 m := by
  have hdie := calm_get (ok := fun f => MonReg monNames m f.reg) GLB_DIE_ISOLATED (s.get GLB_DIE_ISOLATED) fun _ h => h.apart rfl
  refine Posted.beside (t := (jumpRecorded m dev s).raise (MON_EVT_PHASE_JUMP m) 0 0x0102 m) ?_ rfl rfl
  exact posted_monRaise ((calm_events (fun f => MonReg monNames m f.reg) _ _).jumpRecorded ⟨_, rfl, rfl⟩ ⟨_, rfl, rfl⟩ ⟨rfl, rfl⟩)
    (hdie.jumpRecorded ⟨_, rfl, rfl⟩ ⟨_, rfl, rfl⟩ rfl) (MonReg.apart (names := monNames) ⟨_, rfl, rfl⟩ rfl) _ _ _

theorem jumpPosted_frame {names : List RegName} (hcnt : names.contains .MON_CNT = true) (hlast : names.contains .MON_PJ_LAST = true)
    (hevt : names.contains .MON_EVT = true) : Frame s (jumpPosted m dev s) (monOffs names m ++ eventOffs) :=
  (calm_monEvent s names m).beside (t := jumpPosted m dev s) (s := (jumpRecorded m dev s).raise (MON_EVT_PHASE_JUMP m) 0 0x0102 m)
    (frame_monEvent_raise ((calm_monEvent s names m).jumpRecorded ⟨_, hcnt, rfl⟩ ⟨_, hlast, rfl⟩ (Frame.refl s _)) ⟨_, hevt, rfl⟩ ..) rfl

end

/-! ### The statement's clauses -/

/-- Beyond the reject limit a trusted monitor fails. -/
theorem freqGateDone_rejects {res : BitVec 48} (hrun : s.monRuns m = true) (hvoid : (bankGet s.mon m.val).gateVoid = false)
    (htrust : s.monTrusted m = true) (hrej : withinLimit res.toInt (s.get (MON_REJECT_REJECT m)) = false) :
    ∃ u, exec (.freqGateDone m res) s = .next u ∧ u.get (MON_STAT_STATE m) = monFailed ∧ u.get (MON_QREM_QREM m) = 0 ∧
      u.get (MON_FOFS_FOFS m) = satS32 res.toInt % 2 ^ 32 ∧ u.get (MON_STAT_FVALID m) = 1 ∧ u.get (MON_STAT_IN_REJECT m) = 0 ∧
      u.get (MON_EVT_FREQ_REJECT m) = 1 ∧ Posted s u 0x0101 m ∧
      Frame s u (monOffs [.MON_STAT, .MON_FOFS, .MON_QREM, .MON_EVT] m ++ eventOffs) := by
  have hkeeps : ∀ {P : State → Prop}, Calm (fun f => MonReg [.MON_STAT, .MON_FOFS, .MON_QREM, .MON_EVT] m f.reg) P → P s →
      P ((gateStored m res.toInt s).monFail m) := fun K hs =>
    K.monFail ⟨_, rfl, rfl⟩ ⟨_, rfl, rfl⟩ <| K.gateStored ⟨_, rfl, rfl⟩ ⟨_, rfl, rfl⟩ ⟨_, rfl, rfl⟩ ⟨_, rfl, rfl⟩ hs
  refine ⟨_, exec_freqGateDone_reject hrun hvoid htrust hrej, ?_, ?_, ?_, ?_, ?_, State.get_raise_own rfl rfl (mon_not_event m rfl),
    posted_monRaise (hkeeps (calm_events _ _ _) ⟨rfl, rfl⟩) (hkeeps (calm_get GLB_DIE_ISOLATED _ fun _ h => h.apart rfl) rfl)
      (MonReg.apart (names := monNames) ⟨_, rfl, rfl⟩ rfl) _ _ _,
    frame_monEvent_raise (hkeeps (calm_monEvent s _ m) (Frame.refl s _)) ⟨_, rfl, rfl⟩ ..⟩
  · exact (State.get_raise_apart rfl (mon_not_event m rfl)).trans (State.monFail_state ..)
  · exact (State.get_raise_apart rfl (mon_not_event m rfl)).trans (State.monFail_qrem ..)
  · exact (State.get_raise_apart rfl (mon_not_event m rfl)).trans <| (State.get_monFail rfl rfl).trans (gateStored_fofs ..)
  · exact (State.get_raise_apart rfl (mon_not_event m rfl)).trans <| (State.get_monFail rfl rfl).trans (gateStored_fvalid ..)
  · refine (State.get_raise_apart rfl (mon_not_event m rfl)).trans <| (State.get_monFail rfl rfl).trans <|
      (gateStored_inReject ..).trans ?_
    rw [hrej]
    rfl

/-- Within the accept limit a failed monitor qualifies. -/
theorem freqGateDone_accepts {res : BitVec 48} (hrun : s.monRuns m = true) (hvoid : (bankGet s.mon m.val).gateVoid = false)
    (hfail : s.get (MON_STAT_STATE m) = monFailed) (hact : s.on (MON_STAT_ACT m) = true)
    (hacc : withinLimit res.toInt (s.get (MON_ACCEPT_ACCEPT m)) = true) :
    ∃ u, exec (.freqGateDone m res) s = .next u ∧ u.get (MON_STAT_STATE m) = monQualifying ∧
      u.get (MON_QREM_QREM m) = s.get (MON_QUAL_QUAL m) ∧ u.get (MON_STAT_IN_ACCEPT m) = 1 ∧ Silent s u ∧
      Frame s u (monOffs [.MON_STAT, .MON_FOFS, .MON_QREM] m) := by
  have hkeeps : ∀ {P : State → Prop}, Calm (fun f => MonReg [.MON_STAT, .MON_FOFS, .MON_QREM] m f.reg) P → P s →
      P (((gateStored m res.toInt s).set (MON_STAT_STATE m) monQualifying).loadQual m) := fun K hs =>
    K.loadQual ⟨_, rfl, rfl⟩ <| K.set ⟨_, rfl, rfl⟩ <|
      K.gateStored ⟨_, rfl, rfl⟩ ⟨_, rfl, rfl⟩ ⟨_, rfl, rfl⟩ ⟨_, rfl, rfl⟩ hs
  refine ⟨_, exec_freqGateDone_accept hrun hvoid hfail hact hacc, (State.get_loadQual rfl).trans (State.get_set_own rfl rfl),
    (State.loadQual_qrem ..).trans <| (State.get_set_apart rfl).trans (gateStored_qual ..), ?_,
    .of_events (hkeeps (calm_events _ _ _) ⟨rfl, rfl⟩), hkeeps (calm_mon s _ m) (Frame.refl s _)⟩
  refine (State.get_loadQual rfl).trans <| (State.get_set_apart rfl).trans <| (gateStored_inAccept ..).trans ?_
  rw [hacc]
  rfl

/-- A voided gate is followed by one that is void where no activity is seen. -/
theorem freqGateDone_voided {res : BitVec 48} (hrun : s.monRuns m = true) (hvoid : (bankGet s.mon m.val).gateVoid = true) :
    ∃ u, exec (.freqGateDone m res) s = .next u ∧ (bankGet u.mon m.val).gateVoid = !s.on (MON_STAT_ACT m) ∧ Silent s u ∧
      Frame s u [] :=
  ⟨_, exec_freqGateDone_void hrun hvoid, congrArg MonInt.gateVoid (State.mon_modMon ..), ⟨rfl, rfl⟩,
    (calm_mon s [] m).modMon (Frame.refl s _)⟩

/-- A jump fails a qualified monitor whose PJ_ACTION is 0. -/
theorem phaseJump_fails {dev : Word} (hrun : s.monRuns m = true) (hact : s.on (MON_STAT_ACT m) = true)
    (hseen : s.jumpSeen m dev.toInt = true) (hq : s.get (MON_STAT_STATE m) = monQualified)
    (haction : s.get (MON_CFG_PJ_ACTION m) = 0) :
    ∃ u, exec (.phaseJump m dev) s = .next u ∧ u.get (MON_STAT_STATE m) = monFailed ∧ u.get (MON_QREM_QREM m) = 0 ∧
      u.get (MON_PJ_LAST_PJ_LAST m) = ofSigned 32 (roundDivInt (s.jumpDev m dev.toInt) (s.refUnits m)) ∧
      u.get (MON_CNT_PJ_CNT m) = satNat 16 (s.get (MON_CNT_PJ_CNT m) + 1) ∧ u.get (MON_EVT_PHASE_JUMP m) = 1 ∧
      Posted s u 0x0102 m ∧ Frame s u (monOffs [.MON_STAT, .MON_QREM, .MON_PJ_LAST, .MON_CNT, .MON_EVT] m ++ eventOffs) := by
  have hexec := exec_phaseJump hrun hact hseen (decide_eq_true (.inr hq))
  rw [if_neg (by rw [hq]; decide), if_pos haction] at hexec
  refine ⟨_, hexec, State.monFail_state .., State.monFail_qrem .., ?_, ?_, (State.get_monFail rfl rfl).trans (jumpPosted_event ..),
    (jumpPosted_posted ..).beside rfl rfl, (calm_monEvent s _ m).monFail ⟨_, rfl, rfl⟩ ⟨_, rfl, rfl⟩ (jumpPosted_frame m _ s rfl rfl rfl)⟩
  · exact (State.get_monFail rfl rfl).trans <| (jumpPosted_get _ _ _ rfl (mon_not_event m rfl)).trans (jumpRecorded_last ..)
  · exact (State.get_monFail rfl rfl).trans <| (jumpPosted_get _ _ _ rfl (mon_not_event m rfl)).trans (jumpRecorded_count ..)

/-- A jump restarts the timer of a qualifying monitor. -/
theorem phaseJump_restarts {dev : Word} (hrun : s.monRuns m = true) (hact : s.on (MON_STAT_ACT m) = true)
    (hseen : s.jumpSeen m dev.toInt = true) (hq : s.get (MON_STAT_STATE m) = monQualifying) :
    ∃ u, exec (.phaseJump m dev) s = .next u ∧ u.get (MON_STAT_STATE m) = monQualifying ∧
      (bankGet u.mon m.val).qual = (bankGet s.mon m.val).qualLen ∧ (bankGet u.mon m.val).qualLen = (bankGet s.mon m.val).qualLen ∧
      u.get (MON_EVT_PHASE_JUMP m) = 1 ∧ Posted s u 0x0102 m ∧ Within s u spanPlz := by
  have hexec := exec_phaseJump hrun hact hseen (decide_eq_true (.inl hq))
  rw [if_pos hq] at hexec
  refine ⟨_, hexec, ?_, by rw [State.reloadQual_mon, jumpPosted_mon], by rw [State.reloadQual_mon, jumpPosted_mon],
    (State.get_reloadQual rfl).trans (jumpPosted_event ..),
    (jumpPosted_posted ..).beside rfl rfl, within_of_monFrame (names := monNames) (m := m)
      ((calm_monEvent s _ m).reloadQual ⟨_, rfl, rfl⟩ (jumpPosted_frame m _ s rfl rfl rfl)) fun _ => List.contains_iff_mem.2⟩
  have hrec : (jumpRecorded m dev.toInt s).get (MON_STAT_STATE m) = s.get (MON_STAT_STATE m) :=
    (State.get_set_apart rfl).trans <| (State.get_set_apart rfl).trans (State.get_modMon ..)
  exact (State.get_reloadQual rfl).trans <| (jumpPosted_get _ _ _ rfl (mon_not_event m rfl)).trans <| hrec.trans hq

/-- The end of the timer qualifies. -/
theorem qualTimerExpire_qualifies (hrun : s.monRuns m = true) (hq : s.get (MON_STAT_STATE m) = monQualifying) :
    ∃ u, exec (.qualTimerExpire m) s = .next u ∧ u.get (MON_STAT_STATE m) = monQualified ∧ u.get (MON_QREM_QREM m) = 0 ∧
      u.get (MON_EVT_QUALIFIED m) = 1 ∧ Posted s u 0x0103 m ∧ Frame s u (monOffs [.MON_STAT, .MON_QREM, .MON_EVT] m ++ eventOffs) := by
  have hkeeps : ∀ {P : State → Prop}, Calm (fun f => MonReg [.MON_STAT, .MON_QREM, .MON_EVT] m f.reg) P → P s →
      P ((s.set (MON_STAT_STATE m) monQualified).set (MON_QREM_QREM m) 0) := fun K hs =>
    K.set ⟨_, rfl, rfl⟩ <| K.set ⟨_, rfl, rfl⟩ hs
  refine ⟨_, exec_qualTimerExpire hrun hq, ?_, ?_, State.get_raise_own rfl rfl (mon_not_event m rfl),
    posted_monRaise (hkeeps (calm_events _ _ _) ⟨rfl, rfl⟩) (hkeeps (calm_get GLB_DIE_ISOLATED _ fun _ h => h.apart rfl) rfl)
      (MonReg.apart (names := monNames) ⟨_, rfl, rfl⟩ rfl) _ _ _,
    frame_monEvent_raise (hkeeps (calm_monEvent s _ m) (Frame.refl s _)) ⟨_, rfl, rfl⟩ ..⟩
  · exact (State.get_raise_apart rfl (mon_not_event m rfl)).trans <| (State.get_set_apart rfl).trans (State.get_set_own rfl rfl)
  · exact (State.get_raise_apart rfl (mon_not_event m rfl)).trans (State.get_set_own rfl rfl)

end

/-- Settles O2: each clause by the branch of its command that its hypotheses name, and by what that branch writes. -/
theorem monitorGatesJumpsAndQualification : Obligations.MonitorGatesJumpsAndQualification := by
  unfold Obligations.MonitorGatesJumpsAndQualification
  exact ⟨fun _ _ _ => freqGateDone_rejects, fun _ _ _ => freqGateDone_accepts, fun _ _ _ => freqGateDone_voided,
    fun _ _ _ => phaseJump_fails, fun _ _ _ => phaseJump_restarts, fun _ _ => qualTimerExpire_qualifies⟩

end Sys2Proof.Machine

/-! A write of OUT_RSYNC by an engine of an isolated die to another die's region is dropped (R22, R23). -/

namespace Sys2Proof.Machine

/-- T-die 0 is isolated while ENG4 on it runs on; on T-die 1 region 2 is LOCKED and the first of its outputs is an enabled CLOCK unit. -/
def isolatedEngineLockedState : State := (isolatedEngineState.set (TRG_STAT_STATE 2) dpllLocked).set (OUT_CTL_EN 24) 1

/-- Refutes O17: the outputs of region 2 stand on T-die 1 and the legal OUT_RSYNC that names one of them is written by ENG4 on the
isolated T-die 0, which is dropped. -/
theorem not_outputAlignmentAndEchoes : ¬ Obligations.OutputAlignmentAndEchoes := by
  rintro ⟨request, -⟩
  obtain ⟨u, hu, hpend, -⟩ := request (.eng 4) 2 0x1001 isolatedEngineLockedState (by decide)
  obtain rfl : isolatedEngineLockedState = u := by
    have hdrop : writeReg (.eng 4) ⟨.OUT_RSYNC, 2, 0, 0⟩ 0x1001 isolatedEngineLockedState = isolatedEngineLockedState :=
      writeReg_of_unlinked (by decide) (by decide)
    rw [← hdrop]
    injection hu
  exact absurd hpend (by decide)

end Sys2Proof.Machine

/-! The loop of a region DPLL (R73 to R78, R89): what its operations write, and how it locks, unlocks, saturates and ends a build-out. -/

namespace Sys2Proof.Machine

/-! ### The registers of a region -/

/-- A register of region `t` with one of the names. -/
def RegionReg (names : List RegName) (t : Nat) (r : Reg) : Prop := names.contains r.name = true ∧ r = ⟨r.name, t, 0, 0⟩

/-- The offsets of those registers. -/
def regionOffs (names : List RegName) (t : Nat) : List Nat := names.map (fun n => Reg.off ⟨n, t, 0, 0⟩)

/-- The names of the registers that the loop writes. -/
def loopNames : List RegName := [.TRG_STAT, .TRG_CV_LO, .TRG_CV_HI, .TRG_BO_LO, .TRG_BO_HI, .TRG_PHERR, .TRG_EVT]

section
variable {names : List RegName} {s u : State} {t : Fin 4} {n : RegName} {f g : Fld} {r : Reg}

theorem RegionReg.mem_regionOffs (h : RegionReg names t r) : r.off ∈ regionOffs names t := by
  obtain ⟨hn, hr⟩ := h
  rw [hr]
  exact List.mem_map_of_mem (List.contains_iff_mem.1 hn)

theorem RegionReg.apart (h : RegionReg names t f.reg) (hg : names.contains g.reg.name = false) : f.Apart g :=
  Fld.apart_of_name fun e => by rw [← e, h.1] at hg; cases hg

/-- An event writes none of them. -/
theorem loop_not_event (t : Fin 4) (hn : loopNames.contains n = true) : Reg.off ⟨n, t, 0, 0⟩ ∉ eventOffs := by
  have hrows : ∀ n ∈ loopNames, (n.row.n1 = 4 ∧ n.row.n2 = 1 ∧ n.row.n3 = 1) ∧ 0x20000 ≤ n.row.base ∧ n.top < 0x30000 := by
    decide
  obtain ⟨⟨h1, h2, h3⟩, hlo, hhi⟩ := hrows n (List.contains_iff_mem.1 hn)
  obtain ⟨hbase, htop⟩ := Reg.off_bounds (q := ⟨n, t, 0, 0⟩) (by simp [Reg.real, h1, h2, h3])
  dsimp only at hbase htop
  exact not_event (by omega)

/-- Writes of the named registers and events keep the frame over them. -/
theorem kept_region (s : State) (names : List RegName) (t : Fin 4) :
    Kept (fun r => RegionReg names t r ∨ r.off ∈ eventOffs) (fun u => Frame s u (regionOffs names t ++ eventOffs)) :=
  (kept_frame s _).mono fun _ hr => hr.elim (fun h => List.mem_append_left _ h.mem_regionOffs) (List.mem_append_right _)

/-- A register with one of the names, whatever its indices, or an event's. -/
def Reg.NamedIn (names : List RegName) (r : Reg) : Prop := names.contains r.name = true ∨ r.off ∈ eventOffs

theorem kept_within_namedIn (s : State) {names : List RegName} {spans : List (Nat × Nat)}
    (h : ∀ n ∈ names, n.within spans = true) : Kept (Reg.NamedIn names) (fun u => Within s u spans) :=
  (kept_within_names s spans).mono fun _ hr => hr.imp_left fun hn => h _ (List.contains_iff_mem.1 hn)

theorem kept_get_namedIn (g : Fld) (v : Nat) (hg : names.contains g.reg.name = false) (he : g.reg.off ∉ eventOffs) :
    Kept (Reg.NamedIn names) (fun u => u.get g = v) :=
  (kept_get g v).mono fun _ hr => by
    rintro rfl
    obtain hn | hevt := hr
    · rw [hn] at hg
      cases hg
    · exact he hevt

end

/-! ### A region's internal state and its wide values -/

section
variable {P : State → Prop} {ok : Fld → Prop} {s : State} {t : Fin 4} {v : Int} {ph : Word}

theorem Calm.modTrg (K : Calm ok P) {t : Nat} {g : TrgInt → TrgInt} (hs : P s) : P (s.modTrg t g) := K.beside hs rfl

theorem Calm.setS48 (K : Calm ok P) {lo hi : Fld} (hlo : ok lo) (hhi : ok hi) (hs : P s) : P (s.setS48 lo hi v) :=
  K.set hhi <| K.set hlo hs

theorem State.trg_modTrg (s : State) (t : Fin 4) (g : TrgInt → TrgInt) : bankGet (s.modTrg t g).trg t = g (bankGet s.trg t) :=
  bankGet_bankMod_same _ _ t.isLt

theorem State.get_modTrg (s : State) (t : Nat) (g : TrgInt → TrgInt) (f : Fld) : (s.modTrg t g).get f = s.get f := rfl

theorem State.trg_raise (s : State) (f : Fld) (i code src : Nat) (body : List (Nat × Nat)) :
    (s.raise f i code src body).trg = s.trg :=
  (State.pushEvt_trg ..).trans (State.set_trg ..)

/-- A signed value of 48 bits reads as it was stored, in 32 bits and 16 of a region. -/
theorem State.getWide_setS48 {lo hi : Reg} (h : hi.name ≠ lo.name) (s : State) (v : Int) :
    (s.setS48 ⟨lo, 0, 32⟩ ⟨hi, 0, 16⟩ v).getWide ⟨lo, 0, 32⟩ ⟨hi, 0, 16⟩ = ofSigned 48 v := by
  have hfit : ofSigned 48 v < 2 ^ 48 := by
    unfold ofSigned
    omega
  have hlo : (s.setS48 ⟨lo, 0, 32⟩ ⟨hi, 0, 16⟩ v).get ⟨lo, 0, 32⟩ = ofSigned 48 v % 2 ^ 32 :=
    (State.get_set_ne _ _ _ _ (Reg.ne_of_name h)).trans (State.get_set_same _ ⟨lo, 0, 32⟩ _ (show 0 + 32 ≤ 32 by decide))
  have hhi : (s.setS48 ⟨lo, 0, 32⟩ ⟨hi, 0, 16⟩ v).get ⟨hi, 0, 16⟩ = ofSigned 48 v / 2 ^ 32 % 2 ^ 16 :=
    State.get_set_same _ ⟨hi, 0, 16⟩ _ (show 0 + 16 ≤ 32 by decide)
  unfold State.getWide
  rw [hlo, hhi]
  omega

/-! ### The control value (R74) -/

/-- A control value inside the limit is taken as it is. -/
def cvInside (t : Nat) (v : Int) (s : State) : State :=
  (s.setS48 (TRG_CV_LO_CV t) (TRG_CV_HI_CV t) v).set (TRG_STAT_PULLIN_SAT t) 0

/-- One beyond it is held at the limit, and the history interval is spoilt. -/
def cvAtLimit (t : Nat) (v : Int) (s : State) : State :=
  ((s.setS48 (TRG_CV_LO_CV t) (TRG_CV_HI_CV t) (clampInt (-s.pullLimit t) (s.pullLimit t) v)).set (TRG_STAT_PULLIN_SAT t) 1).modTrg t
    (fun g => { g with clean := false })

theorem setCv_inside (h : v.natAbs < s.pullLimit t) : setCv t v s = cvInside t v s := by
  have hsat : ¬ (s.pullLimit t : Int) ≤ v.natAbs := by omega
  have hclamp : clampInt (-s.pullLimit t) (s.pullLimit t) v = v := by
    unfold clampInt
    rw [if_neg (by omega), if_neg (by omega)]
  unfold setCv cvInside
  simp only [hsat, hclamp, false_and, if_false, decide_false, State.put_eq, Bool.false_eq_true]

/-- An entry to the limit posts PULLIN_SAT. -/
theorem setCv_enters (h : s.pullLimit t ≤ v.natAbs) (hnot : s.get (TRG_STAT_PULLIN_SAT t) = 0) :
    setCv t v s = (cvAtLimit t v s).raise (TRG_EVT_PULLIN_SAT t) 0 0x0208 t [(1, if v < 0 then 1 else 0)] := by
  have hsat : (s.pullLimit t : Int) ≤ v.natAbs := by omega
  unfold setCv cvAtLimit
  simp only [hsat, hnot, and_self, if_true, decide_true, State.put_eq]

/-- The loop integrates: the region follows, is not held and captures nothing. -/
theorem trackCv_integrates (hfollows : s.dpllFollows t = true) (hheld : (bankGet s.trg t.val).held = false)
    (hcap : (bankGet s.trg t.val).capture = none) : trackCv t v s = setCv t v s := by
  unfold trackCv
  simp only [hfollows, hheld, hcap, Bool.not_false, Option.isNone_none, Bool.and_self, if_true]

theorem trackCv_held (hheld : (bankGet s.trg t.val).held = true) : trackCv t v s = s := by
  unfold trackCv
  simp only [hheld, Bool.not_true, Bool.and_false, Bool.false_and, Bool.false_eq_true, if_false]

theorem Calm.cvInside (K : Calm ok P) (hlo : ok (TRG_CV_LO_CV t)) (hhi : ok (TRG_CV_HI_CV t)) (hsat : ok (TRG_STAT_PULLIN_SAT t))
    (hs : P s) : P (cvInside t v s) := K.set hsat <| K.setS48 hlo hhi hs

theorem Calm.cvAtLimit (K : Calm ok P) (hlo : ok (TRG_CV_LO_CV t)) (hhi : ok (TRG_CV_HI_CV t)) (hsat : ok (TRG_STAT_PULLIN_SAT t))
    (hs : P s) : P (cvAtLimit t v s) := K.modTrg <| K.set hsat <| K.setS48 hlo hhi hs

/-- The control value leaves the region off its limit: it is held and was off it, or it integrates to a value inside. -/
def State.OffLimit (s : State) (t : Fin 4) (v : Int) : Prop :=
  if (bankGet s.trg t.val).held = true then s.get (TRG_STAT_PULLIN_SAT t) = 0 else v.natAbs < s.pullLimit t

theorem trackCv_offLimit (hfollows : s.dpllFollows t = true) (hcap : (bankGet s.trg t.val).capture = none) (h : s.OffLimit t v) :
    trackCv t v s = s ∧ s.get (TRG_STAT_PULLIN_SAT t) = 0 ∨ trackCv t v s = cvInside t v s := by
  unfold State.OffLimit at h
  split at h
  · next hheld => exact .inl ⟨trackCv_held hheld, h⟩
  · next hheld =>
    exact .inr ((trackCv_integrates hfollows (Bool.eq_false_iff.2 hheld) hcap).trans (setCv_inside h))

/-! ### A detector sample (R73, R95) -/

theorem Calm.samplePhase (K : Calm ok P) (hph : ok (TRG_PHERR_PHERR t)) (hbw : ok (TRG_STAT_BW_EFF t)) (hs : P s) :
    P (samplePhase t ph s) := K.ite (K.set hbw <| K.modTrg <| K.set hph hs) (K.set hph hs)

theorem samplePhase_pherr (t : Fin 4) (ph : Word) (s : State) : (samplePhase t ph s).get (TRG_PHERR_PHERR t) = ph.toNat := by
  have hown : (s.set (TRG_PHERR_PHERR t) ph.toNat).get (TRG_PHERR_PHERR t) = ph.toNat :=
    (State.get_set_same s (TRG_PHERR_PHERR t) _ (show 0 + 32 ≤ 32 by decide)).trans (Nat.mod_eq_of_lt ph.isLt)
  unfold samplePhase
  dsimp only
  split
  · exact (State.get_set_apart rfl).trans <| (State.get_modTrg ..).trans hown
  · exact hown

/-! ### Lock (R75, R77) -/

/-- A region that locks, before the event. -/
def lockEntered (t : Fin 4) (cv : Int) (ph : Word) (s : State) : State :=
  updateBw t (((samplePhase t ph (trackCv t cv s)).set (TRG_STAT_STATE t) dpllLocked).modTrg t
    (fun g => { g with sinceLock := 0, acqBw := false, held := false }))

theorem exec_dpllLock {cv : BitVec 48} (hst : s.dpll t = dpllAcquiring) (hcap : (bankGet s.trg t.val).capture = none)
    (hlock : s.withinLock t 1 ph.toInt = true)
    (hsat : (samplePhase t ph (trackCv t cv.toInt s)).get (TRG_STAT_PULLIN_SAT t) = 0) :
    exec (.dpllLock t cv ph) s = .next ((lockEntered t cv.toInt ph s).raise (TRG_EVT_DPLL_LOCK t) 0 0x0202 t
      [(5, (bankGet s.trg t.val).cand.getD 0)]) :=
  congrArg Host.Outcome.next (if_pos ⟨hst, hcap, hlock, hsat⟩)

theorem lockEntered_trg (t : Fin 4) (cv : Int) (ph : Word) (s : State) : bankGet (lockEntered t cv ph s).trg t.val =
    { bankGet (samplePhase t ph (trackCv t cv s)).trg t.val with sinceLock := 0, acqBw := false, held := false } :=
  (congrArg (fun g => bankGet g t.val) (State.set_trg ..)).trans (State.trg_modTrg ..)

theorem lockEntered_state (t : Fin 4) (cv : Int) (ph : Word) (s : State) :
    (lockEntered t cv ph s).get (TRG_STAT_STATE t) = dpllLocked :=
  (State.get_set_apart rfl).trans <| (State.get_modTrg ..).trans (State.get_set_own rfl rfl)

theorem lockEntered_pherr (t : Fin 4) (cv : Int) (ph : Word) (s : State) :
    (lockEntered t cv ph s).get (TRG_PHERR_PHERR t) = ph.toNat :=
  (State.get_set_apart rfl).trans <| (State.get_modTrg ..).trans <| (State.get_set_apart rfl).trans (samplePhase_pherr ..)

/-- The names of the registers that a region that locks writes. -/
def lockNames : List RegName := [.TRG_STAT, .TRG_CV_LO, .TRG_CV_HI, .TRG_PHERR, .TRG_EVT]

/-- Off the limit, the control value, the phase error and the status of the region are all that is written before the event. -/
theorem lockEntered_keeps {cv : Int} (hfollows : s.dpllFollows t = true) (hcap : (bankGet s.trg t.val).capture = none)
    (hoff : s.OffLimit t cv) (K : Calm (fun f => RegionReg lockNames t f.reg) P) (hs : P s) : P (lockEntered t cv ph s) := by
  have htrack : P (trackCv t cv s) := by
    obtain ⟨h, -⟩ | h := trackCv_offLimit hfollows hcap hoff
    · rwa [h]
    · rw [h]
      exact K.cvInside ⟨rfl, rfl⟩ ⟨rfl, rfl⟩ ⟨rfl, rfl⟩ hs
  exact K.set ⟨rfl, rfl⟩ <| K.modTrg <| K.set ⟨rfl, rfl⟩ <| K.samplePhase ⟨rfl, rfl⟩ ⟨rfl, rfl⟩ htrack

/-- Off the limit, the status shows it after the sample too. -/
theorem samplePhase_trackCv_sat {cv : Int} (hfollows : s.dpllFollows t = true) (hcap : (bankGet s.trg t.val).capture = none)
    (hoff : s.OffLimit t cv) : (samplePhase t ph (trackCv t cv s)).get (TRG_STAT_PULLIN_SAT t) = 0 := by
  have htrack : (trackCv t cv s).get (TRG_STAT_PULLIN_SAT t) = 0 := by
    obtain ⟨h, hnot⟩ | h := trackCv_offLimit hfollows hcap hoff
    · rwa [h]
    · rw [h]
      exact State.get_set_own rfl rfl
  have K : Calm (fun f => f = TRG_PHERR_PHERR t ∨ f = TRG_STAT_BW_EFF t) (fun u => u.get (TRG_STAT_PULLIN_SAT t) = 0) :=
    calm_get _ _ fun f hf => by
      obtain rfl | rfl := hf
      · exact Fld.apart_of_apartFrom rfl
      · exact Fld.apart_of_apartFrom rfl
  exact K.samplePhase (.inl rfl) (.inr rfl) htrack

/-- A region's operation that raises an event after calm writes posts it. -/
theorem posted_regionRaise {names : List RegName} {u : State} {f : Fld}
    (hkeeps : ∀ {P : State → Prop}, Calm (fun f => RegionReg names t f.reg) P → P s → P u) (hf : RegionReg names t f.reg)
    (hdie : names.contains .GLB_DIE = false) (code src : Nat) (body : List (Nat × Nat)) :
    Posted s (u.raise f 0 code src body) code src :=
  posted_monRaise (hkeeps (calm_events _ _ _) ⟨rfl, rfl⟩) (hkeeps (calm_get GLB_DIE_ISOLATED _ fun _ h => h.apart hdie) rfl)
    (hf.apart hdie) _ _ _

/-- And stays within the region's registers and those of the event. -/
theorem frame_regionRaise {names : List RegName} {u : State} {f : Fld}
    (hkeeps : ∀ {P : State → Prop}, Calm (fun f => RegionReg names t f.reg) P → P s → P u) (hf : RegionReg names t f.reg)
    (code src : Nat) (body : List (Nat × Nat)) : Frame s (u.raise f 0 code src body) (regionOffs names t ++ eventOffs) :=
  (kept_region s names t).raise f 0 code src body (.inl hf) (fun _ => .inr) <|
    hkeeps ((kept_region s names t).calm fun _ => .inl) (Frame.refl s _)

/-- An ACQUIRING region off its limit locks. -/
theorem dpllLock_locks {cv : BitVec 48} (hst : s.dpll t = dpllAcquiring) (hcap : (bankGet s.trg t.val).capture = none)
    (hlock : s.withinLock t 1 ph.toInt = true) (hoff : s.OffLimit t cv.toInt) :
    ∃ u, exec (.dpllLock t cv ph) s = .next u ∧ u.dpll t = dpllLocked ∧ u.get (TRG_PHERR_PHERR t) = ph.toNat ∧
      (bankGet u.trg t.val).held = false ∧ (bankGet u.trg t.val).acqBw = false ∧ (bankGet u.trg t.val).sinceLock = 0 ∧
      u.get (TRG_EVT_DPLL_LOCK t) = 1 ∧ Posted s u 0x0202 t ∧ Frame s u (regionOffs lockNames t ++ eventOffs) := by
  have hfollows : s.dpllFollows t = true := decide_eq_true (.inl hst)
  have hkeeps : ∀ {P : State → Prop}, Calm (fun f => RegionReg lockNames t f.reg) P → P s → P (lockEntered t cv.toInt ph s) :=
    lockEntered_keeps hfollows hcap hoff
  refine ⟨_, exec_dpllLock hst hcap hlock (samplePhase_trackCv_sat hfollows hcap hoff),
    (State.get_raise_apart rfl (loop_not_event t rfl)).trans (lockEntered_state ..),
    (State.get_raise_apart rfl (loop_not_event t rfl)).trans (lockEntered_pherr ..), ?_, ?_, ?_,
    State.get_raise_own rfl rfl (loop_not_event t rfl), posted_regionRaise hkeeps ⟨rfl, rfl⟩ rfl _ _ _,
    frame_regionRaise hkeeps ⟨rfl, rfl⟩ _ _ _⟩
  all_goals rw [State.trg_raise, lockEntered_trg]

/-! ### Loss of lock (R75, R77, R92, R158) -/

/-- The names of the registers that a drop of the pending alignments writes. -/
def dropNames : List RegName := [.TRG_STAT, .TRG_EVT, .OUT_STAT, .OUT_RSYNC_STAT, .OUT_EVT]

/-- The names of those that the loop and such a drop write. -/
def unlockNames : List RegName := dropNames ++ [.TRG_CV_LO, .TRG_CV_HI, .TRG_PHERR]

section
variable {names : List RegName} (K : Kept (Reg.NamedIn names) P)
include K

theorem Kept.namedSet {f : Fld} {x : Nat} (hf : names.contains f.reg.name = true) (hs : P s) : P (s.set f x) := K.set _ _ (.inl hf) hs

theorem Kept.namedRaise {f : Fld} {i code src : Nat} {body : List (Nat × Nat)} (hf : names.contains f.reg.name = true) (hs : P s) :
    P (s.raise f i code src body) := K.raise _ _ _ _ _ (.inl hf) (fun _ => .inr) hs

end

theorem Kept.clearAlignPend (K : Kept (Reg.NamedIn dropNames) P) {t mask other : Nat} (hs : P s) : P (clearAlignPend t mask other s) :=
  State.each_keeps 12 _ (fun _ _ _ h => K.iteState (K.namedSet rfl h) h) hs

theorem Kept.dropRealign (K : Kept (Reg.NamedIn dropNames) P) {t cause : Nat} (hs : P s) : P (dropRealign t cause s) := by
  unfold Machine.dropRealign
  split
  · exact K.namedRaise rfl <| K.namedSet rfl <| K.clearAlignPend <| K.modTrg hs
  · exact hs

theorem Kept.dropRsync (K : Kept (Reg.NamedIn dropNames) P) {t cause : Nat} (hs : P s) : P (dropRsync t cause s) :=
  K.iteState (State.each_keeps 12 _ (fun _ _ _ h => K.iteState (K.namedRaise rfl h) h) <| K.namedSet rfl <| K.namedSet rfl <|
    K.clearAlignPend hs) hs

theorem Kept.setCv (K : Kept (Reg.NamedIn unlockNames) P) {t : Nat} (hs : P s) : P (setCv t v s) := by
  have hput : ∀ b : Bool, P ((s.setS48 (TRG_CV_LO_CV t) (TRG_CV_HI_CV t) (clampInt (-s.pullLimit t) (s.pullLimit t) v)).put
      (TRG_STAT_PULLIN_SAT t) b) := fun _ => K.namedSet rfl <| K.namedSet rfl <| K.namedSet rfl hs
  exact K.iteState (K.namedRaise rfl <| K.modTrg (hput _)) <| K.iteState (K.modTrg (hput _)) (hput _)

theorem Kept.trackCv (K : Kept (Reg.NamedIn unlockNames) P) {t : Nat} (hs : P s) : P (trackCv t v s) := K.iteState (K.setCv hs) hs

/-- The region's alignments fall away with its lock, after the sample that loses it. -/
def unlockDropped (t : Fin 4) (cv : Int) (ph : Word) (s : State) : State :=
  dropRsync t 1 (dropRealign t 1 (samplePhase t ph (trackCv t cv s)))

/-- A region that loses its lock, before the event. -/
def unlockEntered (t : Fin 4) (cv : Int) (ph : Word) (s : State) : State :=
  updateBw t (((unlockDropped t cv ph s).set (TRG_STAT_STATE t) dpllAcquiring).modTrg t
    (fun g => { g with clean := false, sinceLock := 0, acqBw := true, held := false }))

theorem exec_dpllUnlock {cv : BitVec 48} (hst : s.dpll t = dpllLocked) (hlost : s.withinLock t 4 ph.toInt = false) :
    exec (.dpllUnlock t cv ph) s =
      .next ((unlockEntered t cv.toInt ph s).raise (TRG_EVT_DPLL_UNLOCK t) 0 0x0203 t [(32, ph.toNat)]) :=
  congrArg Host.Outcome.next (if_pos ⟨hst, by rw [hlost]; rfl⟩)

theorem exec_dpllUnlock_within {cv : BitVec 48} (hlock : s.withinLock t 4 ph.toInt = true) : exec (.dpllUnlock t cv ph) s = .next s :=
  congrArg Host.Outcome.next (if_neg fun h => by rw [hlock] at h; cases h.2)

theorem unlockEntered_trg (t : Fin 4) (cv : Int) (ph : Word) (s : State) : bankGet (unlockEntered t cv ph s).trg t.val =
    { bankGet (unlockDropped t cv ph s).trg t.val with clean := false, sinceLock := 0, acqBw := true, held := false } :=
  (congrArg (fun g => bankGet g t.val) (State.set_trg ..)).trans (State.trg_modTrg ..)

theorem unlockDropped_pherr (t : Fin 4) (cv : Int) (ph : Word) (s : State) :
    (unlockDropped t cv ph s).get (TRG_PHERR_PHERR t) = ph.toNat := by
  have K : Kept (Reg.NamedIn dropNames) (fun u => u.get (TRG_PHERR_PHERR t) = ph.toNat) :=
    kept_get_namedIn _ _ rfl (loop_not_event t rfl)
  exact K.dropRsync <| K.dropRealign (samplePhase_pherr ..)

theorem unlockEntered_pherr (t : Fin 4) (cv : Int) (ph : Word) (s : State) :
    (unlockEntered t cv ph s).get (TRG_PHERR_PHERR t) = ph.toNat :=
  (State.get_set_apart rfl).trans <| (State.get_modTrg ..).trans <| (State.get_set_apart rfl).trans (unlockDropped_pherr ..)

theorem unlockEntered_within (t : Fin 4) (cv : Int) (ph : Word) (s : State) : Within s (unlockEntered t cv ph s) spanWork := by
  have K : Kept (Reg.NamedIn unlockNames) (fun u => Within s u spanWork) := kept_within_namedIn s (by decide)
  have D : Kept (Reg.NamedIn dropNames) (fun u => Within s u spanWork) := kept_within_namedIn s (by decide)
  have hsample : Within s (samplePhase t ph (trackCv t cv s)) spanWork :=
    (K.calm (ok := fun f => unlockNames.contains f.reg.name = true) fun _ => .inl).samplePhase rfl rfl (K.trackCv (Within.refl s _))
  exact K.namedSet rfl <| K.modTrg <| K.namedSet rfl <| D.dropRsync <| D.dropRealign hsample

/-- A LOCKED region with the error beyond four times the threshold loses its lock. -/
theorem dpllUnlock_unlocks {cv : BitVec 48} (hst : s.dpll t = dpllLocked) (hlost : s.withinLock t 4 ph.toInt = false) :
    ∃ u, exec (.dpllUnlock t cv ph) s = .next u ∧ u.dpll t = dpllAcquiring ∧ u.get (TRG_PHERR_PHERR t) = ph.toNat ∧
      (bankGet u.trg t.val).acqBw = true ∧ (bankGet u.trg t.val).held = false ∧ u.get (TRG_EVT_DPLL_UNLOCK t) = 1 ∧
      Within s u spanWork := by
  have K : Kept (Reg.NamedIn unlockNames) (fun u => Within s u spanWork) := kept_within_namedIn s (by decide)
  have hstate : (unlockEntered t cv.toInt ph s).get (TRG_STAT_STATE t) = dpllAcquiring :=
    (State.get_set_apart rfl).trans <| (State.get_modTrg ..).trans (State.get_set_own rfl rfl)
  refine ⟨_, exec_dpllUnlock hst hlost, (State.get_raise_apart rfl (loop_not_event t rfl)).trans hstate,
    (State.get_raise_apart rfl (loop_not_event t rfl)).trans (unlockEntered_pherr ..), ?_, ?_,
    State.get_raise_own rfl rfl (loop_not_event t rfl), K.namedRaise rfl (unlockEntered_within ..)⟩
  all_goals rw [State.trg_raise, unlockEntered_trg]

/-! ### The pull-in limit (R74) -/

/-- The control value that PULLIN_SAT names. -/
def limitOf (s : State) (t : Fin 4) (neg : Bool) : Int := if neg then -(s.pullLimit t : Int) else s.pullLimit t

theorem natAbs_limitOf (s : State) (t : Fin 4) (neg : Bool) : (limitOf s t neg).natAbs = s.pullLimit t := by
  unfold limitOf
  split
  · rw [Int.natAbs_neg, Int.natAbs_natCast]
  · rw [Int.natAbs_natCast]

/-- The names of the registers that an entry to the limit writes. -/
def limitNames : List RegName := [.TRG_STAT, .TRG_CV_LO, .TRG_CV_HI, .TRG_EVT]

/-- A region that integrates enters its limit. -/
theorem pullinSat_saturates {neg : Bool} (hfollows : s.dpllFollows t = true) (hheld : (bankGet s.trg t.val).held = false)
    (hcap : (bankGet s.trg t.val).capture = none) (hnot : s.get (TRG_STAT_PULLIN_SAT t) = 0) :
    ∃ u, exec (.pullinSat t neg) s = .next u ∧ u.get (TRG_STAT_PULLIN_SAT t) = 1 ∧ u.get (TRG_EVT_PULLIN_SAT t) = 1 ∧
      Posted s u 0x0208 t ∧ u.dpll t = s.dpll t ∧ Frame s u (regionOffs limitNames t ++ eventOffs) := by
  have hkeeps : ∀ {P : State → Prop}, Calm (fun f => RegionReg limitNames t f.reg) P → P s → P (cvAtLimit t (limitOf s t neg) s) :=
    fun K hs => K.cvAtLimit ⟨rfl, rfl⟩ ⟨rfl, rfl⟩ ⟨rfl, rfl⟩ hs
  have hexec : exec (.pullinSat t neg) s = .next ((cvAtLimit t (limitOf s t neg) s).raise (TRG_EVT_PULLIN_SAT t) 0 0x0208 t
      [(1, if limitOf s t neg < 0 then 1 else 0)]) :=
    congrArg Host.Outcome.next <| (trackCv_integrates hfollows hheld hcap).trans (setCv_enters (natAbs_limitOf s t neg).ge hnot)
  refine ⟨_, hexec, (State.get_raise_apart rfl (loop_not_event t rfl)).trans ?_, State.get_raise_own rfl rfl (loop_not_event t rfl),
    posted_regionRaise hkeeps ⟨rfl, rfl⟩ rfl _ _ _, (State.get_raise_apart rfl (loop_not_event t rfl)).trans ?_,
    frame_regionRaise hkeeps ⟨rfl, rfl⟩ _ _ _⟩
  · exact (State.get_modTrg ..).trans (State.get_set_own rfl rfl)
  · exact (State.get_modTrg ..).trans <| (State.get_set_apart rfl).trans <| (State.get_set_apart rfl).trans (State.get_set_apart rfl)

/-! ### The end of a build-out and of a slew (R78, R89) -/

/-- A build-out captured, before the event. -/
def buildoutStored (t : Fin 4) (bo : Int) (slew : Bool) (s : State) : State :=
  (updateBw t ((s.setS48 (TRG_BO_LO_BO t) (TRG_BO_HI_BO t) bo).modTrg t
    (fun g => { g with capture := none, acqBw := false, slewAcc := 0 }))).put (TRG_STAT_SLEWING t) (slew && bo ≠ 0)

theorem exec_buildout {phase : BitVec 64} {c : Nat} {slew : Bool} (hcap : (bankGet s.trg t.val).capture = some (c, slew)) :
    exec (.buildout t phase) s = .next ((buildoutStored t (reducePhase (s.candFnom c) phase.toInt) slew s).raise (TRG_EVT_BUILDOUT t)
      0 0x0204 t [(48, ofSigned 48 (reducePhase (s.candFnom c) phase.toInt))]) := by
  change execBuildout t phase s = _
  unfold execBuildout
  rw [hcap]
  rfl

/-- The names of the registers that the end of a capture writes. -/
def buildoutNames : List RegName := [.TRG_STAT, .TRG_BO_LO, .TRG_BO_HI, .TRG_EVT]

section
variable (t : Fin 4) (bo : Int) (slew : Bool) (s : State)

theorem buildoutStored_trg : bankGet (buildoutStored t bo slew s).trg t.val =
    { bankGet s.trg t.val with capture := none, acqBw := false, slewAcc := 0 } := by
  unfold buildoutStored updateBw
  simp only [State.put_eq, State.setS48_eq, State.set_trg, State.trg_modTrg]

theorem buildoutStored_slewing : (buildoutStored t bo slew s).on (TRG_STAT_SLEWING t) = (slew && bo != 0) := by
  have hput : (buildoutStored t bo slew s).get (TRG_STAT_SLEWING t) = if (slew && bo ≠ 0) then 1 else 0 := State.get_put_own _ rfl rfl
  unfold State.on
  rw [hput]
  cases slew <;> by_cases h : bo = 0 <;> simp [h]

theorem get_buildoutStored {f : Fld} (hslew : (TRG_STAT_SLEWING t).apartFrom f = true) (hbw : (TRG_STAT_BW_EFF t).apartFrom f = true) :
    (buildoutStored t bo slew s).get f = (s.setS48 (TRG_BO_LO_BO t) (TRG_BO_HI_BO t) bo).get f :=
  (State.get_set_apart hslew).trans <| (State.get_set_apart hbw).trans (State.get_modTrg ..)

end

/-- A build-out capture ends. -/
theorem buildout_stores {phase : BitVec 64} {c : Nat} {slew : Bool} (hcap : (bankGet s.trg t.val).capture = some (c, slew)) :
    ∃ u, exec (.buildout t phase) s = .next u ∧ (bankGet u.trg t.val).capture = none ∧
      (bankGet u.trg t.val).held = (bankGet s.trg t.val).held ∧
      u.getWide (TRG_BO_LO_BO t) (TRG_BO_HI_BO t) = ofSigned 48 (reducePhase (s.candFnom c) phase.toInt) ∧
      u.on (TRG_STAT_SLEWING t) = (slew && reducePhase (s.candFnom c) phase.toInt != 0) ∧ u.get (TRG_EVT_BUILDOUT t) = 1 ∧
      Posted s u 0x0204 t ∧ Within s u spanWork := by
  have hkeeps : ∀ {P : State → Prop}, Calm (fun f => RegionReg buildoutNames t f.reg) P → P s →
      P (buildoutStored t (reducePhase (s.candFnom c) phase.toInt) slew s) := fun K hs =>
    K.set ⟨rfl, rfl⟩ <| K.set ⟨rfl, rfl⟩ <| K.modTrg <| K.setS48 ⟨rfl, rfl⟩ ⟨rfl, rfl⟩ hs
  have W : Kept (Reg.NamedIn buildoutNames) (fun u => Within s u spanWork) := kept_within_namedIn s (by decide)
  refine ⟨_, exec_buildout hcap, ?_, ?_, ?_, ?_, State.get_raise_own rfl rfl (loop_not_event t rfl),
    posted_regionRaise hkeeps ⟨rfl, rfl⟩ rfl _ _ _, W.namedRaise rfl <| hkeeps (W.calm fun _ h => .inl h.1) (Within.refl s _)⟩
  · rw [State.trg_raise, buildoutStored_trg]
  · rw [State.trg_raise, buildoutStored_trg]
  · refine Eq.trans ?_ (State.getWide_setS48 (lo := ⟨.TRG_BO_LO, t, 0, 0⟩) (hi := ⟨.TRG_BO_HI, t, 0, 0⟩)
      (show RegName.TRG_BO_HI ≠ .TRG_BO_LO by decide) s _)
    exact congrArg₂ (fun a b => a + 2 ^ 32 * b)
      ((State.get_raise_apart rfl (loop_not_event t rfl)).trans (get_buildoutStored _ _ _ _ rfl rfl))
      ((State.get_raise_apart rfl (loop_not_event t rfl)).trans (get_buildoutStored _ _ _ _ rfl rfl))
  · have hslew := buildoutStored_slewing t (reducePhase (s.candFnom c) phase.toInt) slew s
    unfold State.on at hslew ⊢
    rwa [State.get_raise_apart rfl (loop_not_event t rfl)]

/-- The offset has slewed out. -/
theorem slewDone_ends (hslew : s.on (TRG_STAT_SLEWING t) = true) :
    ∃ u, exec (.slewDone t) s = .next u ∧ u.get (TRG_BO_LO_BO t) = 0 ∧ u.get (TRG_BO_HI_BO t) = 0 ∧
      u.get (TRG_STAT_SLEWING t) = 0 ∧ Silent s u ∧ Frame s u (regionOffs [.TRG_BO_LO, .TRG_BO_HI, .TRG_STAT] t) := by
  have hkeeps : ∀ {P : State → Prop}, Calm (fun f => RegionReg [.TRG_BO_LO, .TRG_BO_HI, .TRG_STAT] t f.reg) P → P s →
      P (slewEnd t s) := fun K hs => K.set ⟨rfl, rfl⟩ <| K.setS48 ⟨rfl, rfl⟩ ⟨rfl, rfl⟩ hs
  exact ⟨_, congrArg Host.Outcome.next (if_pos hslew),
    (State.get_set_apart rfl).trans <| (State.get_set_apart rfl).trans (State.get_set_own rfl rfl),
    (State.get_set_apart rfl).trans (State.get_set_own rfl rfl), State.get_set_own rfl rfl,
    .of_events (hkeeps (calm_events _ _ _) ⟨rfl, rfl⟩),
    hkeeps ((kept_frame s _).calm fun _ h => h.mem_regionOffs) (Frame.refl s _)⟩

end

/-- Settles O6: each clause by the branch of its command that its hypotheses name, and by what that branch writes. -/
theorem dpllLockPullInAndBuildOut : Obligations.DpllLockPullInAndBuildOut := by
  unfold Obligations.DpllLockPullInAndBuildOut
  exact ⟨fun _ _ _ _ => dpllLock_locks, fun _ _ _ _ => dpllUnlock_unlocks, fun _ _ _ s h => ⟨s, exec_dpllUnlock_within h, rfl⟩,
    fun _ _ _ => pullinSat_saturates, fun _ _ _ _ _ => buildout_stores, fun _ _ => slewDone_ends⟩

end Sys2Proof.Machine

/-! Writes of SYN_CTL by an engine of an isolated die to a cluster of another die are dropped (R22, R23): two claims about the
clusters that do not hold for it. -/

namespace Sys2Proof.Machine

/-- Refutes O8: cluster 6 stands on T-die 1 and its EN is raised by ENG4 on the isolated T-die 0, which is dropped. -/
theorem not_clusterEnableApplyAndHop : ¬ Obligations.ClusterEnableApplyAndHop := by
  rintro ⟨enable, -⟩
  obtain ⟨u, hu, hnew, -⟩ := enable (.eng 4) 6 0 isolatedEngineState (by decide) (by decide) (by decide)
  obtain rfl : isolatedEngineState = u := by
    rw [← writeReg_isolatedEngine (r := ⟨.SYN_CTL, 6, 0, 0⟩) (wordSet 0 0 1 1) (by decide)]
    injection hu
  exact absurd hnew (by decide)

/-- Refutes O10: cluster 6 stands on T-die 1 and its RET_AUTO, 1 at reset, is cleared by ENG4 on the isolated T-die 0, which is
dropped. -/
theorem not_clusterLockAndLossOfLock : ¬ Obligations.ClusterLockAndLossOfLock := by
  rintro ⟨-, -, -, -, -, -, -, -, cancel, -⟩
  obtain ⟨u, hu, hnew, -⟩ := cancel (.eng 4) 6 0 isolatedEngineState (by decide) (by decide) (by decide) (by decide)
  obtain rfl : isolatedEngineState = u := by
    rw [← writeReg_isolatedEngine (r := ⟨.SYN_CTL, 6, 0, 0⟩) 0 (by decide)]
    injection hu
  exact absurd hnew (by decide)

end Sys2Proof.Machine

/-! A command that shows a region anew also judges the epochs (R235). Where EPOCH_OK falls, the delay results of the die's ports fall
with it, and a hub that is JOINED through one of them returns to LISTENING with SYS_VALID = 0 in every region (R246). PLZ_SEL_SYS is a
register of the reference plaza, outside the spans of the frames of two claims, which do not hold for that reason. -/

namespace Sys2Proof.Machine

/-! ### A hub that is JOINED -/

/-- The hub in RUN, JOINED through port 0 on the one offer there is, with that port as region 0's system choice (R246, R247). OUT00 is
named as T-die 0's epoch unit, and EPOCH_OK reads 1 (R235). -/
def joinedState : State :=
  ((((((((((((State.reset.set GLB_STATE_STATE pkgRun).set (LNK_STAT_STATE 0) lnkUp).set (LNK_STAT_DVALID 0) 1).set
    (LNK_STAT_ROLE 0) roleUplink).set LNK_EPOCH_EN0 1).set LNK_EPOCH_OK0 1).set LNK_SYS_STAT_STATE sysJoined).set
    LNK_SYS_STAT_UPLINK 0).set LNK_SYS_STAT_UPL_VALID 1).set LNK_SYS_CTL_SYS_MASK 1).set (PLZ_SEL_SYS_SYS_IDX 0) 16).set
    (PLZ_SEL_SYS_SYS_VALID 0) 1).modLnk 0 (fun x => { x with
      offer := some { gm := 5, prio1 := 128, prio2 := 128, cls := 0, seq := 7, hops := 0, lat := 0, ph := 0, blat := 100
                      bph := 100 } })

/-- A command after which a region's system choice has another SYS_VALID has changed more than the clocks and the power. -/
theorem not_within_of_sysValid {s u : State} (h : u.get (PLZ_SEL_SYS_SYS_VALID 0) ≠ s.get (PLZ_SEL_SYS_SYS_VALID 0)) :
    ¬ Within s u spanWork := by
  rintro ⟨hregs, -⟩
  have hword : u.word ⟨.PLZ_SEL_SYS, 0, 0, 0⟩ = s.word ⟨.PLZ_SEL_SYS, 0, 0, 0⟩ := hregs _ (by decide) (by decide) (by decide)
  exact h (congrArg (fun w => wordGet w 7 1) hword)

/-! ### A change of source that ends the epoch -/

/-- OUT00 is a FRAME unit on cluster 0, at 10 GHz / (100 × 10^8) = 1 Hz, and its mux is to move to cluster 1, at 9 GHz; both clusters
are LOCKED. -/
def epochUnitMovesState : State :=
  ((((((((joinedState.set (SYN_STAT_STATE 0) synLocked).set (SYN_STAT_STATE 1) synLocked).set (OUT_CTL_EN 0) 1).set
    (OUT_CTL_ROLE 0) 1).set (OUT_CTL_SRC 0) 1).set (OUT_STAT_STATE 0) outRunning).set (OUT_FRAME_FCNT 0) 99999999).modSyn 0
    (fun x => { x with num := 80 })).modSyn 1 (fun x => { x with num := 72 }) |>.modOut 0 (fun o =>
    { o with fcnt := 99999999, hiZ := false, sw := some .mux })

set_option maxRecDepth 20000 in
/-- EPOCH_OK reads 1 rightly: OUT00 meets every condition of R235. On cluster 1 it no longer runs at 1 Hz, and region 0 loses its
system choice. -/
theorem avenueMuxSwitch_endsEpoch {u : State} (hu : exec (.avenueMuxSwitch 0) epochUnitMovesState = .next u) :
    epochUnitMovesState.epochMet 0 = true ∧ u.epochMet 0 = false ∧ u.get (PLZ_SEL_SYS_SYS_VALID 0) = 0 := by
  injection hu with hu
  rw [← hu]
  decide

set_option maxRecDepth 20000 in
/-- Refutes O12: the unit whose mux moves is the epoch unit of the hub's uplink, so PLZ_SEL_SYS changes too. -/
theorem not_bypassAndMuxSwitches : ¬ Obligations.BypassAndMuxSwitches := by
  rintro ⟨-, -, mux⟩
  obtain ⟨u, hu, -, -, -, hwithin⟩ := mux 0 epochUnitMovesState (by decide) (by decide)
  obtain ⟨-, -, hlost⟩ := avenueMuxSwitch_endsEpoch hu
  refine not_within_of_sysValid ?_ hwithin
  rw [hlost]
  decide

/-! ### A search that finds the epoch lapsed -/

/-- Cluster 6 is UNLOCKED, and no FREE-RUN unit follows it. OUT00 is disabled, which EPOCH_OK does not show yet: the claim is made for
every state, this one included. -/
def epochLapsedState : State := joinedState.set (SYN_STAT_STATE 6) synUnlocked

set_option maxRecDepth 20000 in
/-- The search shows region 2 anew; EPOCH_OK falls, and region 0 loses its system choice. -/
theorem researchTimeout_losesSysValid {u : State} (hu : exec (.researchTimeout 6) epochLapsedState = .next u) :
    u.get (PLZ_SEL_SYS_SYS_VALID 0) = 0 := by
  injection hu with hu
  rw [← hu]
  decide

set_option maxRecDepth 20000 in
/-- Refutes O9: RESEARCH_TIMEOUT finds an EPOCH_OK that is to fall, so PLZ_SEL_SYS changes too. -/
theorem not_bandSearches : ¬ Obligations.BandSearches := by
  rintro ⟨-, -, -, -, -, research, -⟩
  obtain ⟨u, hu, -, -, -, hwithin⟩ := research 6 epochLapsedState (by decide) (by decide)
  refine not_within_of_sysValid ?_ hwithin
  rw [researchTimeout_losesSysValid hu]
  decide

end Sys2Proof.Machine

/-! Writes of the RMP registers by an engine of an isolated die to a Wheel of another die are dropped (R22, R23): two claims about the
Wheels that do not hold for it. -/

namespace Sys2Proof.Machine

/-- T-die 0 is isolated while ENG4 on it runs on; cluster 6, on T-die 1, is LOCKED and its Wheel RUNNING. -/
def isolatedEngineWheelState : State := (isolatedEngineState.set (SYN_STAT_STATE 6) synLocked).set (RMP_STAT_STATE 6) whRunning

/-- Refutes O13: a RAMP_STOP with HOLD, written to a RUNNING Wheel on T-die 1 by ENG4 on the isolated T-die 0, is dropped, and the Wheel
runs on. -/
theorem not_wheelStartsAndStops : ¬ Obligations.WheelStartsAndStops := by
  rintro ⟨-, -, -, -, -, -, -, -, hold⟩
  obtain ⟨u, hu, hheld, -⟩ := hold (.eng 4) 6 0 isolatedEngineWheelState (by decide) (by decide)
  obtain rfl : isolatedEngineWheelState = u := by
    have hdrop : writeReg (.eng 4) ⟨.RMP_CMD, 6, 0, 0⟩ (wordSet 0 1 1 1) isolatedEngineWheelState = isolatedEngineWheelState :=
      writeReg_of_unlinked (by decide) (by decide)
    rw [← hdrop]
    injection hu
  exact absurd hheld (by decide)

/-- Refutes O15: the first word of a chunk for the Wheel of cluster 6, on T-die 1, is written by ENG4 on the isolated T-die 0 and is
dropped, so no chunk opens. -/
theorem not_rampChunks : ¬ Obligations.RampChunks := by
  rintro ⟨extend, -⟩
  obtain ⟨u, hu, hopened, -⟩ := extend (.eng 4) 6 0 0 [] isolatedEngineState (by decide) rfl rfl (by decide)
  obtain rfl : isolatedEngineState = u := by
    rw [← writeReg_isolatedEngine (r := ⟨.RMP_CHUNK, 6, 0, 0⟩) 0 (by decide)]
    injection hu
  exact absurd hopened (by decide)

end Sys2Proof.Machine

/-! A tick that moves a Wheel's offset shows its cluster's region anew (R124, R139), and with it the epochs (R235). Where EPOCH_OK is to
fall, region 0 loses its system choice (R246), and PLZ_SEL_SYS lies outside the span of the frame. -/

namespace Sys2Proof.Machine

/-- The hub is JOINED with an EPOCH_OK that is to fall: OUT00 is disabled, which EPOCH_OK does not show yet. Cluster 0 is LOCKED, and
its RUNNING Wheel glides from O = 0 to ANCHOR = 100 in steps of 7. The claim is made for every state, this one included. -/
def glidingLapsedState : State :=
  ((((joinedState.set (SYN_STAT_STATE 0) synLocked).set (RMP_STAT_STATE 0) whRunning).set (RMP_STAT_GLIDING 0) 1).set
    (RMP_ANCHOR_ANCHOR 0) 100).set (RMP_GLIDE_GLIDE 0) 7

set_option maxRecDepth 20000 in
/-- The glide takes its step, and SYS_VALID of region 0 falls in the same tick. -/
theorem rampTick_losesSysValid {u : State} (hu : exec (.rampTick 0) glidingLapsedState = .next u) :
    u.ofs 0 = 7 ∧ u.get (PLZ_SEL_SYS_SYS_VALID 0) = 0 := by
  injection hu with hu
  rw [← hu]
  decide

set_option maxRecDepth 20000 in
/-- Refutes O14: a tick of a glide that has further to go finds an EPOCH_OK that is to fall, so PLZ_SEL_SYS changes too. -/
theorem not_wheelTicks : ¬ Obligations.WheelTicks := by
  rintro ⟨glide, -⟩
  obtain ⟨u, hu, -, -, -, -, hwithin⟩ := glide 0 glidingLapsedState (by decide) (by decide) (by decide) (by decide)
  obtain ⟨-, hlost⟩ := rampTick_losesSysValid hu
  refine not_within_of_sysValid ?_ hwithin
  rw [hlost]
  decide

end Sys2Proof.Machine

/-! The loss of a bank disables the die's epoch unit where that unit is one of the six (R145), and with it the epoch ends (R235): region 0
loses its system choice (R246), and PLZ_SEL_SYS lies outside the span of the frame. -/

namespace Sys2Proof.Machine

/-- Bank 0, declared as 3.3 V, is good, and its OUT00 runs as the epoch unit of the hub's uplink. -/
def epochUnitBankState : State := epochUnitMovesState.set (OUT_BANK_BANK_OK 0) 1

set_option maxRecDepth 20000 in
/-- EPOCH_OK reads 1 rightly until VDDO falls to 0 V. OUT00 is disabled, so the epoch ends, and region 0 loses its system choice. -/
theorem bankLoss_endsEpoch {u : State} (hu : exec (.bankLoss 0 0) epochUnitBankState = .next u) :
    epochUnitBankState.epochMet 0 = true ∧ u.get (OUT_CTL_EN 0) = 0 ∧ u.epochMet 0 = false ∧ u.get (PLZ_SEL_SYS_SYS_VALID 0) = 0 := by
  injection hu with hu
  rw [← hu]
  decide

set_option maxRecDepth 20000 in
/-- Refutes O16: the bank that is lost holds the epoch unit of the hub's uplink, so PLZ_SEL_SYS changes too. -/
theorem not_outputEnableDividerDelayAndBanks : ¬ Obligations.OutputEnableDividerDelayAndBanks := by
  rintro ⟨-, -, -, -, -, -, bank, -⟩
  obtain ⟨u, hu, -, -, -, hwithin⟩ := bank 0 0 epochUnitBankState (by decide)
  obtain ⟨-, -, -, hlost⟩ := bankLoss_endsEpoch hu
  refine not_within_of_sysValid ?_ hwithin
  rw [hlost]
  decide

end Sys2Proof.Machine

/-! Writes of the PRG registers by an engine of an isolated T-die to a rail of the P-die are dropped (R22, R23): two claims about the
rails that do not hold for it. -/

namespace Sys2Proof.Machine

/-- T-die 0 is isolated while ENG4 on it runs on; VR00, on the P-die, has PH00 assigned and stands in state `st`. -/
def isolatedEngineRailState (st : Nat) : State := (isolatedEngineState.set (PRG_PH_RAIL 0) 0).set (PRG_RSTAT_STATE 0) st

/-- ENG4 on the isolated T-die 0 reaches no register of the P-die, whatever the state of the rail. -/
theorem writeReg_isolatedEngineRail {st : Nat} {r : Reg} (w : Word) (hr : dieOfOff r.off = dieP) :
    writeReg (.eng 4) r w (isolatedEngineRailState st) = isolatedEngineRailState st := by
  have hdie : (isolatedEngineRailState st).isolated dieT0 = true :=
    congrArg (bitOf · dieT0) ((State.get_set_apart (g := GLB_DIE_ISOLATED) rfl).trans (State.get_set_apart rfl))
  have hlink : (isolatedEngineRailState st).linked dieT0 dieP = false := by
    simp [State.linked, hdie, show dieT0 ≠ dieP by decide]
  exact writeReg_of_unlinked hdie (by rwa [hr])

/-- Refutes O18: EN of the OFF rail VR00, which may be enabled, is raised by ENG4 on the isolated T-die 0; the write is dropped, and EN
stays 0. -/
theorem not_railStartsAndStops : ¬ Obligations.RailStartsAndStops := by
  rintro ⟨enable, -⟩
  obtain ⟨u, hu, hen, -⟩ := enable (.eng 4) 0 0xC (isolatedEngineRailState railOff) (by decide) (by decide) (by decide)
  obtain rfl : isolatedEngineRailState railOff = u := by
    rw [← writeReg_isolatedEngineRail (r := regRctl 0) (wordSet 0xC 0 1 1) rfl]
    injection hu
  exact absurd hen (by decide)

/-- Refutes O19: a VID write to the REGULATING rail VR00 by ENG4 on the isolated T-die 0 is dropped, and no move starts. -/
theorem not_railRegulates : ¬ Obligations.RailRegulates := by
  rintro ⟨-, -, -, move, -⟩
  obtain ⟨u, hu, -, hmoving, -⟩ := move (.eng 4) 0 600 (isolatedEngineRailState railRegulating) (by decide) (by decide)
  obtain rfl : isolatedEngineRailState railRegulating = u := by
    rw [← writeReg_isolatedEngineRail (r := regVid 0) 600 rfl]
    injection hu
  exact absurd hmoving (by decide)

end Sys2Proof.Machine

/-! A rail's fault shows the windows anew (R182), and with them the epochs (R235). Where EPOCH_OK is to fall, region 0 loses its system
choice (R246), and PLZ_SEL_SYS lies outside the span of the frame. -/

namespace Sys2Proof.Machine

set_option maxRecDepth 20000 in
/-- OV of VR00 at 6.5535 V finds an EPOCH_OK that is to fall, and region 0 loses its system choice. -/
theorem ov_losesSysValid {u : State} (hu : exec (.ov 0 0xFFFF) epochLapsedState = .next u) : u.get (PLZ_SEL_SYS_SYS_VALID 0) = 0 := by
  injection hu with hu
  rw [← hu]
  decide

set_option maxRecDepth 20000 in
/-- Refutes O20: an OV fault meets an EPOCH_OK that is to fall, so PLZ_SEL_SYS changes too. -/
theorem not_railFaults : ¬ Obligations.RailFaults := by
  rintro ⟨ov, -⟩
  obtain ⟨u, hu, -, -, -, -, -, -, hwithin⟩ := ov 0 0xFFFF epochLapsedState (by decide) (by decide)
  refine not_within_of_sysValid ?_ hwithin
  rw [ov_losesSysValid hu]
  decide

end Sys2Proof.Machine

/-! A write of SEQ_CMD by an engine of an isolated T-die is dropped on its way to the P-die (R22, R23). -/

namespace Sys2Proof.Machine

/-- T-die 0 is isolated while ENG4 on it runs on; sequence 0 has one step, of no condition and no action. -/
def isolatedEngineSeqState : State := isolatedEngineState.set (SEQ_NSTEP_NSTEP 0) 1

/-- Refutes O24: the START of sequence 0, written by ENG4 on the isolated T-die 0, is dropped, and the sequencer stays IDLE. -/
theorem not_sequencesStartAndStop : ¬ Obligations.SequencesStartAndStop := by
  rintro ⟨-, start, -⟩
  obtain ⟨u, hu, hwaits, -⟩ := start (.eng 4) 0 0 isolatedEngineSeqState (by decide) (by decide) (by decide) (by decide) rfl
  obtain rfl : isolatedEngineSeqState = u := by
    have hdrop : writeReg (.eng 4) ⟨.SEQ_CMD, 0, 0, 0⟩ (wordSet 0 0 1 1) isolatedEngineSeqState = isolatedEngineSeqState :=
      writeReg_of_unlinked (by decide) (by decide)
    rw [← hdrop]
    injection hu
  exact absurd hwaits (by decide)

end Sys2Proof.Machine

/-! Writes of the registers of listed names with events among them, and a command whose effect is written in such registers. -/

namespace Sys2Proof.Machine

/-! ### Operations on listed registers that may post events -/

/-- The names of the registers that an event writes. -/
def eventNames : List RegName := [.DMA_REQ_PEND, .MGT_EV, .GLB_EVCNT, .GLB_EVT]

/-- A field of a register with one of the names. -/
def Listed (names : List RegName) (f : Fld) : Prop := names.contains f.reg.name = true

/-- A property that writes of listed registers keep, changes of what lies beside the registers and the stores, and events. -/
structure Noted (names : List RegName) (P : State → Prop) : Prop extends Calm (Listed names) P where
  push : ∀ {s : State} {code src body : Nat}, P s → P (s.pushEvt code src body)

section
variable {names : List RegName} {P : State → Prop} {s t u : State} {f g : Fld} {i code src : Nat} {body : List (Nat × Nat)}

theorem Listed.apart (h : Listed names f) (hg : names.contains g.reg.name = false) : f.Apart g :=
  Fld.apart_of_name fun e => by
    unfold Listed at h
    rw [e, hg] at h
    cases h

theorem Listed.mono {more : List RegName} (hsub : ∀ n ∈ names, n ∈ more) (h : Listed names f) : Listed more f :=
  List.contains_iff_mem.2 (hsub _ (List.contains_iff_mem.1 h))

/-- An event leaves every register of another name as it was. -/
theorem State.get_pushEvt_named (s : State) (code src body : Nat) (hf : eventNames.contains f.reg.name = false) :
    (s.pushEvt code src body).get f = s.get f := by
  have hne : ∀ r : Reg, r.name ∈ eventNames → r ≠ f.reg := fun r hr => Reg.ne_of_name fun e => by
    rw [e] at hr
    rw [List.contains_iff_mem.2 hr] at hf
    cases hf
  have K := kept_get f (s.get f)
  have hreq := hne ⟨.DMA_REQ_PEND, 0, 0, 0⟩ (by decide)
  have hfill := hne ⟨.MGT_EV, 0, 0, 0⟩ (by decide)
  have hcount := hne ⟨.GLB_EVCNT, 0, 0, 0⟩ (by decide)
  have hflag := hne ⟨.GLB_EVT, 0, 0, 0⟩ (by decide)
  unfold State.pushEvt State.postEvt
  dsimp only
  split
  · split
    · exact K.raiseIbi _ _ (K.set _ _ hfill (K.eventLine hreq (K.rest s _ rfl (.refl s) rfl)))
    · exact State.when_keeps (P := fun u => u.get f = s.get f) _ _ (fun _ => K.setBit _ _ _ hflag)
        (K.bump _ hcount (K.rest s _ rfl (.refl s) rfl))
  · rfl

theorem State.get_raise_named (h : f.apartFrom g = true) (hg : eventNames.contains g.reg.name = false) :
    (s.raise f i code src body).get g = s.get g :=
  (State.get_pushEvt_named _ _ _ _ hg).trans (State.get_set_apart h)

/-- The sticky bit of an event raised is set. -/
theorem State.bit_raise_own (h : Nat.ble (f.lo + f.w) 32 = true) (hi : i < f.w) (hf : eventNames.contains f.reg.name = false) :
    (s.raise f i code src body).bit f i = true :=
  (State.bit_of_get (State.get_pushEvt_named _ _ _ _ hf) i).trans (State.bit_setBit_same s true (Nat.le_of_ble_eq_true h) hi)

theorem Noted.raise (K : Noted names P) (hf : Listed names f) (hs : P s) : P (s.raise f i code src body) := K.push (K.set hf hs)

theorem Calm.latchClass (K : Calm (Listed names) P) {c : Nat} (hf : Listed names FLT_PKG_LATCH) (hs : P s) : P (latchClass c s) :=
  K.set hf hs

theorem Noted.mono {more : List RegName} (K : Noted more P) (hsub : ∀ n ∈ names, n ∈ more) : Noted names P where
  toCalm := K.toCalm.mono fun _ h => h.mono hsub
  push := K.push

theorem noted_get (g : Fld) (v : Nat) (hg : (names ++ eventNames).contains g.reg.name = false) :
    Noted names (fun s => s.get g = v) := by
  simp only [List.contains_append, Bool.or_eq_false_iff] at hg
  exact { toCalm := calm_get g v fun f hf => hf.apart hg.1, push := fun hs => (State.get_pushEvt_named _ _ _ _ hg.2).trans hs }

theorem noted_within (s : State) {spans : List (Nat × Nat)} (h : ∀ n ∈ names, n.within spans = true) :
    Noted names (fun u => Within s u spans) where
  toCalm := (kept_within_names s spans).calm fun _ hf => .inl (h _ (List.contains_iff_mem.1 hf))
  push := (kept_within_names s spans).pushEvt _ _ _ fun _ => .inr

/-- No event is taken back. -/
theorem noted_evtSeq (n : Nat) : Noted names (fun s => n ≤ s.evtSeq) where
  set hs h := by rwa [State.set_evtSeq]
  rest _ _ he h := by rwa [he.1]
  push h := h.trans (State.pushEvt_evtSeq_le ..)

/-- An event sent after calm writes of listed registers, none of them GLB_DIE, is the one posted. -/
theorem posted_listedPush (hkeeps : ∀ {P : State → Prop}, Calm (Listed names) P → P s → P u) (hdie : names.contains .GLB_DIE = false)
    (code src body : Nat) : Posted s (u.pushEvt code src body) code src := by
  refine posted_pushEvt (.of_events (hkeeps (calm_events _ _ _) ⟨rfl, rfl⟩)) _ _ _ (State.linked_of_get ?_ _ _)
  exact hkeeps (calm_get GLB_DIE_ISOLATED _ fun f hf => hf.apart hdie) rfl

theorem posted_listedRaise (hkeeps : ∀ {P : State → Prop}, Calm (Listed names) P → P s → P u) (hf : Listed names f)
    (hdie : names.contains .GLB_DIE = false) : Posted s (u.raise f i code src body) code src :=
  posted_listedPush (fun K hs => K.set hf (hkeeps K hs)) hdie _ _ _

/-- An event of a die in contact takes a sequence number, whatever was posted before. -/
theorem evtSeq_lt_raise (hle : s.evtSeq ≤ u.evtSeq) (hdie : u.get GLB_DIE_ISOLATED = s.get GLB_DIE_ISOLATED)
    (hf : f.reg.name ≠ .GLB_DIE) (h : s.linked (evtDie code src) dieC = true) :
    s.evtSeq < (u.raise f i code src body).evtSeq := by
  have hlink : (u.setBit f i true).linked (evtDie code src) dieC = true := by
    rw [← h]
    exact State.linked_of_get ((State.get_set_ne _ _ _ _ (Reg.ne_of_name hf)).trans hdie) _ _
  unfold State.raise
  rw [State.pushEvt_evtSeq hlink, State.setBit_eq, State.set_evtSeq]
  omega

end

/-! ### A command whose effect is written in listed registers -/

section
variable {names : List RegName} {s z : State} {v : CmdVia} {op : Nat} {g : State → CmdRes}

/-- The registers of a command's way lie below the plaza and in the DMA. -/
theorem not_via {n : Nat} (v : CmdVia) (h : 0x10000 ≤ n ∧ n < 0x80000) : n ∉ viaOffs v := by
  cases v with
  | ring => exact List.not_mem_nil
  | mbx k =>
    have hlist : viaOffs (.mbx k) = [9280, 9284, 9344, 532484, 8960, 56, 52] := (by decide : viaOffs (.mbx 0) = _)
    rw [hlist]
    simp only [List.mem_cons, List.not_mem_nil, or_false, not_or]
    omega

theorem via_within (v : CmdVia) (spans : List (Nat × Nat)) {q : Reg} (h : q.off ∈ viaOffs v) : Reg.inSpans (spanMgt ++ spans) q := by
  cases v with
  | ring => exact absurd h List.not_mem_nil
  | mbx k =>
    rcases List.mem_append.1 h with h | h
    · have hlist : ∀ o ∈ [MGT_MBX_CTL_BUSY.off, MGT_MBX_RES_RESULT.off, MGT_EVT_EVT.off], 0x2000 ≤ o ∧ o < 0x4000 := by decide
      exact .inl ⟨_, List.mem_cons_self, hlist _ h⟩
    · exact .inr h

/-- What a command that completes OK adds to its effect is written in the registers of its way. -/
theorem okCommand_keeps {P : State → Prop} (K : Kept (fun q => q.off ∈ viaOffs v) P) (hg : g (cmdEntry v s) = cmdOk z) (hz : P z) :
    P (cmdEnded v op (g (cmdEntry v s))) := by
  rw [hg]
  exact cmdEnded_keeps K (fun _ => id) (fun h => absurd h (by decide : stOk ≠ stIgnored)) hz

/-- A command that completes OK: its effect's fields, its status and what its way posts. -/
theorem okCommand (htake : s.takesCmd v = true) (hg : g (cmdEntry v s) = cmdOk z)
    (hz : z.evtSeq = s.evtSeq ∧ z.evtFifo = s.evtFifo) :
    ∃ u, directCmd v op g s = u ∧ (∀ f : Fld, 0x10000 ≤ f.off ∧ f.off < 0x80000 → u.get f = z.get f) ∧ u.host.lastStatus = stOk ∧
      Posts s u (viaEvt v) ∧ ∀ spans, Within s z (spanMgt ++ spans) → Within s u (spanMgt ++ spans) := by
  have hst : (g (cmdEntry v s)).status = stOk := congrArg CmdRes.status hg
  refine ⟨_, directCmd_eq htake (by rw [hst]; decide), fun f hf => ?_, (cmdEnded_status ..).trans hst, cmdEnded_posts ?_,
    fun spans hwithin => okCommand_keeps ((kept_within s _).mono fun _ h => via_within v spans h) hg hwithin⟩
  · exact okCommand_keeps (kept_via_get _ (not_via v hf)) hg rfl
  · rw [hg]
    exact hz

/-- The way into a command is within the management registers. -/
theorem cmdEntry_within (v : CmdVia) (s : State) (spans : List (Nat × Nat)) : Within s (cmdEntry v s) (spanMgt ++ spans) :=
  cmdEntry_keeps ((kept_within s _).mono fun _ h => via_within v spans h) (fun _ => id) (Within.refl s _)

end

end Sys2Proof.Machine

/-! The charger and the store (R215): a measurement, the charger's states, and STORE_CHARGE. -/

namespace Sys2Proof.Machine

/-! ### A measurement of the store -/

/-- The registers of the hold-up supply that a measurement writes, and the faults'. -/
def hupNames : List RegName := [.HUP_STAT, .HUP_EVT, .FLT_PKG]

/-- The store's voltage and READY as a measurement of `v` mV shows them. -/
def readyShown (v : Nat) (s : State) : State :=
  (s.set HUP_STAT_VSTORE v).put HUP_STAT_READY (decide (10 * s.get HUP_STORE_READY_V ≤ v))

section
variable {P : State → Prop} {s : State} {x : BitVec 16} {f : Fld}

theorem Calm.readyShown (K : Calm (Listed hupNames) P) {v : Nat} (hs : P s) : P (readyShown v s) := K.set rfl <| K.set rfl hs

theorem Noted.hupEvt (K : Noted hupNames P) {bit code : Nat} (hs : P s) : P (hupEvt bit code s) := K.raise rfl hs

theorem storeMeasured_eq (x : BitVec 16) (s : State) : storeMeasured x s =
    if (decide (10 * s.get HUP_STORE_READY_V ≤ x.toNat) && !s.on HUP_STAT_READY) = true then hupEvt 2 0x070F (readyShown x.toNat s)
    else readyShown x.toNat s := by
  have hv : (s.set HUP_STAT_VSTORE x.toNat).get HUP_STAT_VSTORE = x.toNat :=
    (State.get_set_same s HUP_STAT_VSTORE x.toNat (by decide)).trans (Nat.mod_eq_of_lt x.isLt)
  have hlevel : (s.set HUP_STAT_VSTORE x.toNat).get HUP_STORE_READY_V = s.get HUP_STORE_READY_V := State.get_set_apart rfl
  have hready : (s.set HUP_STAT_VSTORE x.toNat).get HUP_STAT_READY = s.get HUP_STAT_READY := State.get_set_apart rfl
  unfold storeMeasured showReady State.on readyShown
  rw [hv, hlevel, hready]

theorem storeMeasured_rises (hx : 10 * s.get HUP_STORE_READY_V ≤ x.toNat) (hready : s.get HUP_STAT_READY = 0) :
    storeMeasured x s = hupEvt 2 0x070F (readyShown x.toNat s) := by
  have hoff : s.on HUP_STAT_READY = false := by
    unfold State.on
    rw [hready]
    rfl
  rw [storeMeasured_eq, decide_eq_true hx, hoff]
  exact if_pos rfl

theorem storeMeasured_low (hx : x.toNat < 10 * s.get HUP_STORE_READY_V) : storeMeasured x s = readyShown x.toNat s := by
  rw [storeMeasured_eq, decide_eq_false (Nat.not_le.2 hx), Bool.false_and]
  exact if_neg Bool.false_ne_true

theorem Noted.storeMeasured (K : Noted hupNames P) (hs : P s) : P (storeMeasured x s) := by
  rw [storeMeasured_eq]
  exact K.ite (K.hupEvt (K.readyShown hs)) (K.readyShown hs)

theorem readyShown_vstore (x : BitVec 16) (s : State) : (readyShown x.toNat s).get HUP_STAT_VSTORE = x.toNat :=
  (State.get_set_apart rfl).trans <|
    (State.get_set_same s HUP_STAT_VSTORE x.toNat (by decide)).trans (Nat.mod_eq_of_lt x.isLt)

theorem readyShown_ready (v : Nat) (s : State) :
    (readyShown v s).get HUP_STAT_READY = if 10 * s.get HUP_STORE_READY_V ≤ v then 1 else 0 :=
  (State.get_put_own _ rfl rfl).trans (if_congr decide_eq_true_iff rfl rfl)

/-- A measurement decides VSTORE and READY, and what else it does is an event. -/
theorem get_storeMeasured (hevt : HUP_EVT_EVT.apartFrom f = true) (hf : eventNames.contains f.reg.name = false) :
    (storeMeasured x s).get f = (readyShown x.toNat s).get f := by
  rw [storeMeasured_eq]
  split
  · exact State.get_raise_named hevt hf
  · rfl

theorem storeMeasured_vstore (x : BitVec 16) (s : State) : (storeMeasured x s).get HUP_STAT_VSTORE = x.toNat :=
  (get_storeMeasured rfl rfl).trans (readyShown_vstore x s)

theorem storeMeasured_chg (x : BitVec 16) (s : State) : (storeMeasured x s).get HUP_STAT_CHG = s.get HUP_STAT_CHG :=
  (get_storeMeasured rfl rfl).trans <| (State.get_set_apart rfl).trans (State.get_set_apart rfl)

/-! ### The charger's fault -/

theorem Noted.chargerFault (K : Noted hupNames P) (hs : P s) : P (chargerFault s) :=
  K.latchClass rfl <| K.hupEvt (K.set (f := HUP_STAT_CHG) rfl hs)

theorem chargerFault_chg (s : State) : (chargerFault s).get HUP_STAT_CHG = Machine.chgFault :=
  (State.get_set_apart rfl).trans <| (State.get_raise_named rfl rfl).trans (State.get_set_own rfl rfl)

theorem chargerFault_sticky (s : State) : (chargerFault s).bit HUP_EVT_EVT 4 = true :=
  (State.bit_of_get (State.get_set_apart rfl) 4).trans (State.bit_raise_own rfl (by decide) rfl)

theorem chargerFault_latch (s : State) : (chargerFault s).bit FLT_PKG_LATCH 9 = true := latchClass_latch (by decide) _

theorem chargerFault_posted (s : State) : Posted s (chargerFault s) 0x070D 0 :=
  (posted_listedRaise (names := hupNames) (f := HUP_EVT_EVT) (fun K hs => K.set (f := HUP_STAT_CHG) rfl hs) rfl rfl).of_events
    ⟨rfl, rfl⟩

/-- The store is not above CV + 5 %, or the charger neither charges nor holds CV. -/
def State.chargeHolds (s : State) (x : BitVec 16) : Prop :=
  (s.get HUP_STAT_CHG ≠ chgCc ∧ s.get HUP_STAT_CHG ≠ chgCv) ∨ 100 * x.toNat ≤ 1050 * s.get HUP_CHG_CV

theorem chargeMeasured_holds (h : s.chargeHolds x) : chargeMeasured x s = storeMeasured x s := by
  refine if_neg fun hover => ?_
  obtain ⟨hchg, hcv⟩ := hover
  rcases h with ⟨hcc, hcv'⟩ | h
  · exact hchg.elim hcc hcv'
  · omega

theorem chargeMeasured_faults (hchg : s.get HUP_STAT_CHG = chgCc ∨ s.get HUP_STAT_CHG = chgCv)
    (hover : 1050 * s.get HUP_CHG_CV < 100 * x.toNat) : chargeMeasured x s = chargerFault (storeMeasured x s) :=
  if_pos ⟨hchg, hover⟩

theorem hup_within (s : State) : Noted hupNames (fun u => Within s u spanWork) := noted_within s (by decide)

/-! ### The rows of the charger -/

theorem exec_chgFault_some (x : BitVec 16) (s : State) : exec (.chgFault (some x)) s = .next (chargeMeasured x s) := rfl

theorem exec_storeReady (x : BitVec 16) (s : State) : exec (.storeReady x) s = .next (chargeMeasured x s) := rfl

/-- CC ends at 99 % of CV. -/
theorem chgCv_enters (hchg : s.get HUP_STAT_CHG = chgCc) (hlow : 990 * s.get HUP_CHG_CV ≤ 100 * x.toNat)
    (hover : 100 * x.toNat ≤ 1050 * s.get HUP_CHG_CV) : ∃ u, exec (.chgCv x) s = .next u ∧ u.get HUP_STAT_CHG = chgCv ∧
      u.get HUP_STAT_VSTORE = x.toNat ∧ Within s u spanWork := by
  have hexec : exec (.chgCv x) s = .next ((storeMeasured x s).set HUP_STAT_CHG chgCv) := by
    change Machine.execChgCv x s = _
    unfold execChgCv
    rw [chargeMeasured_holds (.inr hover)]
    exact congrArg Host.Outcome.next (if_pos ⟨(storeMeasured_chg x s).trans hchg, hlow⟩)
  exact ⟨_, hexec, State.get_set_own rfl rfl, (State.get_set_apart rfl).trans (storeMeasured_vstore x s),
    (hup_within s).set rfl ((hup_within s).storeMeasured (Within.refl s _))⟩

/-- CV ends with the current below ITERM. -/
theorem chgFull_enters {i : BitVec 16} (hchg : s.get HUP_STAT_CHG = chgCv) (hi : i.toNat < 10 * s.get HUP_CHG_ITERM) :
    ∃ u, exec (.chgFull i) s = .next u ∧ u.get HUP_STAT_CHG = Machine.chgFull ∧ Silent s u ∧ Frame s u [Fld.off HUP_STAT_CHG] :=
  ⟨_, congrArg Host.Outcome.next (if_pos ⟨hchg, hi⟩), State.get_set_own rfl rfl, (Silent.refl s).set _ _,
    (kept_frame s _).set _ _ List.mem_cons_self (Frame.refl s _)⟩

theorem chgFull_stays {i : BitVec 16} (h : s.get HUP_STAT_CHG ≠ chgCv ∨ 10 * s.get HUP_CHG_ITERM ≤ i.toNat) :
    ∃ u, exec (.chgFull i) s = .next u ∧ u = s := by
  refine ⟨_, congrArg Host.Outcome.next (if_neg fun hfull => ?_), rfl⟩
  obtain ⟨hchg, hi⟩ := hfull
  exact h.elim (fun h => h hchg) (fun h => by omega)

/-- FULL ends below 97 % of CV. -/
theorem chgRecharge_enters (hchg : s.get HUP_STAT_CHG = Machine.chgFull) (hlow : 100 * x.toNat < 970 * s.get HUP_CHG_CV) :
    ∃ u, exec (.chgRecharge x) s = .next u ∧ u.get HUP_STAT_CHG = chgCc ∧ u.get HUP_STAT_VSTORE = x.toNat ∧ Within s u spanWork :=
  ⟨_, congrArg Host.Outcome.next (if_pos ⟨hchg, hlow⟩), State.get_set_own rfl rfl,
    (State.get_set_apart rfl).trans (storeMeasured_vstore x s),
    (hup_within s).set rfl ((hup_within s).storeMeasured (Within.refl s _))⟩

/-- The store above CV + 5 %. -/
theorem chgFault_over (hchg : s.get HUP_STAT_CHG = chgCc ∨ s.get HUP_STAT_CHG = chgCv)
    (hover : 1050 * s.get HUP_CHG_CV < 100 * x.toNat) : ∃ u, exec (.chgFault (some x)) s = .next u ∧
      u.get HUP_STAT_CHG = Machine.chgFault ∧ u.bit HUP_EVT_EVT 4 = true ∧ u.bit FLT_PKG_LATCH 9 = true ∧
      (s.linked dieP dieC = true → s.evtSeq < u.evtSeq) ∧ Within s u spanWork := by
  refine ⟨_, (exec_chgFault_some x s).trans (congrArg _ (chargeMeasured_faults hchg hover)), chargerFault_chg _, chargerFault_sticky _,
    chargerFault_latch _, fun hlink => ?_, (hup_within s).chargerFault ((hup_within s).storeMeasured (Within.refl s _))⟩
  have hle : s.evtSeq ≤ (storeMeasured x s).evtSeq := (noted_evtSeq s.evtSeq).storeMeasured (Nat.le_refl _)
  have hdie : (storeMeasured x s).get GLB_DIE_ISOLATED = s.get GLB_DIE_ISOLATED :=
    (noted_get GLB_DIE_ISOLATED _ (by decide)).storeMeasured rfl
  unfold chargerFault latchClass
  rw [State.setBit_eq, State.set_evtSeq]
  exact evtSeq_lt_raise (by rwa [State.set_evtSeq]) ((State.get_set_apart rfl).trans hdie) (by decide) hlink

/-- CC held for CC_TMO. -/
theorem chgFault_timeout (hchg : s.get HUP_STAT_CHG = chgCc) : ∃ u, exec (.chgFault none) s = .next u ∧
    u.get HUP_STAT_CHG = Machine.chgFault ∧ u.bit FLT_PKG_LATCH 9 = true ∧ Posted s u 0x070D 0 ∧ Within s u spanWork :=
  ⟨_, congrArg Host.Outcome.next (if_pos hchg), chargerFault_chg s, chargerFault_latch s, chargerFault_posted s,
    (hup_within s).chargerFault (Within.refl s _)⟩

/-- READY rises with its event. -/
theorem storeReady_rises (hx : 10 * s.get HUP_STORE_READY_V ≤ x.toNat) (hready : s.get HUP_STAT_READY = 0) (hhold : s.chargeHolds x) :
    ∃ u, exec (.storeReady x) s = .next u ∧ u.get HUP_STAT_READY = 1 ∧ u.get HUP_STAT_VSTORE = x.toNat ∧ u.bit HUP_EVT_EVT 2 = true ∧
      Posted s u 0x070F 0 ∧ Within s u spanWork := by
  have hexec : exec (.storeReady x) s = .next (hupEvt 2 0x070F (readyShown x.toNat s)) :=
    (exec_storeReady x s).trans (congrArg _ ((chargeMeasured_holds hhold).trans (storeMeasured_rises hx hready)))
  refine ⟨_, hexec, (State.get_raise_named rfl rfl).trans ((readyShown_ready _ s).trans (if_pos hx)),
    (State.get_raise_named rfl rfl).trans (readyShown_vstore x s), State.bit_raise_own rfl (by decide) rfl,
    posted_listedRaise (names := hupNames) (fun K hs => K.readyShown hs) rfl rfl,
    (hup_within s).hupEvt ((hup_within s).readyShown (Within.refl s _))⟩

/-- READY is 0 below its level. -/
theorem storeReady_low (hx : x.toNat < 10 * s.get HUP_STORE_READY_V) (hhold : s.chargeHolds x) :
    ∃ u, exec (.storeReady x) s = .next u ∧ u.get HUP_STAT_READY = 0 ∧ u.get HUP_STAT_VSTORE = x.toNat ∧ Silent s u ∧
      Frame s u [Fld.off HUP_STAT_READY] := by
  have hexec : exec (.storeReady x) s = .next (readyShown x.toNat s) :=
    (exec_storeReady x s).trans (congrArg _ ((chargeMeasured_holds hhold).trans (storeMeasured_low hx)))
  have K := kept_frame s [Fld.off HUP_STAT_READY]
  exact ⟨_, hexec, (readyShown_ready _ s).trans (if_neg (Nat.not_le.2 hx)), readyShown_vstore x s,
    ((Silent.refl s).set _ _).set _ _, K.put _ _ List.mem_cons_self (K.set HUP_STAT_VSTORE _ List.mem_cons_self (Frame.refl s _))⟩

end

/-! ### STORE_CHARGE (R215, R278) -/

/-- The settings of the charger as STORE_CHARGE writes them. -/
def chargeSet (arg : Nat) (s : State) : State :=
  ((s.set HUP_CHG_CV (arg % 2 ^ 11)).set HUP_CHG_CC (arg / 2 ^ 11)).set HUP_CTL_EN 1

section
variable {P : State → Prop} {s : State} {v : CmdVia} {a : BitVec 16}

theorem Calm.chargerFollow {ok : Fld → Prop} (K : Calm ok P) (hf : ok HUP_STAT_CHG) (hs : P s) : P (chargerFollow s) :=
  K.ite (K.set hf hs) <| K.ite (K.set hf hs) hs

/-- The registers of STORE_CHARGE. -/
def chargeNames : List RegName := [.HUP_CHG, .HUP_CTL, .HUP_STAT]

theorem Calm.storeCharged (K : Calm (Listed chargeNames) P) {arg : Nat} (hs : P s) : P (Machine.chargerFollow (chargeSet arg s)) :=
  K.chargerFollow rfl <| K.set (f := HUP_CTL_EN) rfl <| K.set (f := HUP_CHG_CC) rfl <| K.set (f := HUP_CHG_CV) rfl hs

/-- The charger's following writes CHG alone. -/
theorem get_chargerFollow {f : Fld} (hf : HUP_STAT_CHG.apartFrom f = true) (s : State) : (chargerFollow s).get f = s.get f :=
  (calm_get (ok := fun e => e = HUP_STAT_CHG) f _ (by rintro _ rfl; exact Fld.apart_of_apartFrom hf)).chargerFollow rfl rfl

theorem exec_storeCharge (v : CmdVia) (a : BitVec 16) (s : State) :
    exec (.storeCharge v a) s = .next (directCmd v 0x34 (onDie dieP (cmdStoreCharge a.toNat)) s) := rfl

/-- STORE_CHARGE in range. -/
theorem storeCharge_ok (htake : s.takesCmd v = true) (hiso : s.isolated dieP = false) (hlo : 600 ≤ a.toNat % 2 ^ 11)
    (hhi : a.toNat % 2 ^ 11 ≤ 1600) (hready : s.get HUP_STORE_READY_V ≤ a.toNat % 2 ^ 11) :
    ∃ u, exec (.storeCharge v a) s = .next u ∧ u.get HUP_CHG_CV = a.toNat % 2 ^ 11 ∧ u.get HUP_CHG_CC = a.toNat / 2 ^ 11 ∧
      u.get HUP_CTL_EN = 1 ∧ u.host.lastStatus = stOk ∧ Posts s u (viaEvt v) ∧ Within s u (spanMgt ++ spanSeq) := by
  rw [← cmdEntry_isolated v s] at hiso
  have hlevel : (cmdEntry v s).get HUP_STORE_READY_V = s.get HUP_STORE_READY_V := cmdEntry_get_plaza (by decide)
  have hg : onDie dieP (cmdStoreCharge a.toNat) (cmdEntry v s) = cmdOk (chargerFollow (chargeSet a.toNat (cmdEntry v s))) :=
    (onDie_run hiso).trans (if_pos ⟨hlo, hhi, by rwa [hlevel]⟩)
  obtain ⟨u, hu, hget, hst, hposts, hwithin⟩ := okCommand (op := 0x34) htake hg
    ((calm_events _ _ _).storeCharged (cmdEntry_events v s))
  have hset : ∀ f : Fld, 0x10000 ≤ f.off ∧ f.off < 0x80000 → HUP_STAT_CHG.apartFrom f = true →
      u.get f = (chargeSet a.toNat (cmdEntry v s)).get f := fun f hf hchg => (hget f hf).trans (get_chargerFollow hchg _)
  have ha := a.isLt
  refine ⟨u, (exec_storeCharge v a s).trans (congrArg _ hu), (hset _ (by decide) rfl).trans ?_, (hset _ (by decide) rfl).trans ?_,
    (hset _ (by decide) rfl).trans ?_, hst, hposts, hwithin _ ?_⟩
  · exact (State.get_set_apart rfl).trans <| (State.get_set_apart rfl).trans <|
      (State.get_set_same _ HUP_CHG_CV _ (by decide)).trans (Nat.mod_mod _ _)
  · exact (State.get_set_apart rfl).trans <| (State.get_set_same _ HUP_CHG_CC _ (by decide)).trans
      (Nat.mod_eq_of_lt (show a.toNat / 2 ^ 11 < 2 ^ 5 by omega))
  · exact State.get_set_own rfl rfl
  · exact (noted_within (names := chargeNames) s (by decide)).storeCharged (cmdEntry_within v s spanSeq)

/-- STORE_CHARGE out of range. -/
theorem storeCharge_ignored (htake : s.takesCmd v = true) (hiso : s.isolated dieP = false)
    (h : a.toNat % 2 ^ 11 < 600 ∨ 1600 < a.toNat % 2 ^ 11) :
    ∃ u, exec (.storeCharge v a) s = .next u ∧ u.host.lastStatus = stIgnored ∧
      u.get GLB_IGNORED_CNT_CNT = satNat 32 (s.get GLB_IGNORED_CNT_CNT + 1) ∧ Posts s u (viaEvt v) ∧
      Frame s u (ignoredOffs ++ viaOffs v) := by
  rw [← cmdEntry_isolated v s] at hiso
  have hg : onDie dieP (cmdStoreCharge a.toNat) (cmdEntry v s) = cmdIgnored (cmdEntry v s) :=
    (onDie_run hiso).trans <| if_neg fun hrange => by
      obtain ⟨hlo, hhi, -⟩ := hrange
      omega
  obtain ⟨u, hu, hst, hcnt, -, hposts, hframe⟩ := refusedCommand (op := 0x34) htake hg
  exact ⟨u, (exec_storeCharge v a s).trans (congrArg _ hu), hst, hcnt, hposts, hframe⟩

end

/-- Settles O27: STORE_CHARGE as a command that ends at once, and the charger's rows by a measurement of the store and its fault. -/
theorem chargerAndStore : Obligations.ChargerAndStore := by
  unfold Obligations.ChargerAndStore
  exact ⟨fun _ _ _ => storeCharge_ok, fun _ _ _ => storeCharge_ignored, fun _ _ => chgCv_enters, fun _ _ => chgFull_enters,
    fun _ _ => chgFull_stays, fun _ _ => chgRecharge_enters, fun _ _ => chgFault_over, fun _ => chgFault_timeout,
    fun _ _ => storeReady_rises, fun _ _ => storeReady_low⟩

end Sys2Proof.Machine

/-! The sequencer's own steps (R199, R200): the start of a sequence, the beginning of a step, and the end. -/

namespace Sys2Proof.Machine

/-! ### The beginning of a step -/

theorem State.word_of_get {s t : State} {r : Reg} (h : t.get ⟨r, 0, 32⟩ = s.get ⟨r, 0, 32⟩) : t.word r = s.word r := by
  have hread : ∀ u : State, u.get ⟨r, 0, 32⟩ = (u.word r).toNat := fun u => by
    have := (u.word r).isLt
    simp only [State.get, wordGet, pow_zero, Nat.div_one]
    omega
  rw [hread, hread] at h
  exact BitVec.eq_of_toNat_eq h

/-- Step `i` waits, with nothing yet seen of what its wait may need. -/
def stepBegun (i : Nat) (s : State) : State :=
  ((s.set SEQ_STAT_STATE seqWaiting).set SEQ_STAT_STEP i).modSeq (fun x => { x with links := [], hoSeen := 0, rose := 0, fell := 0 })

section
variable {P : State → Prop} {s t : State} {i q rank : Nat}

theorem State.stepPresent_of_words (hword : ∀ w, t.word ⟨.SEQ_STEP, q, i, w⟩ = s.word ⟨.SEQ_STEP, q, i, w⟩)
    (hbad : t.seq.badSteps = s.seq.badSteps) : t.stepPresent q i = s.stepPresent q i := by
  unfold State.stepPresent State.stepWord
  rw [hword, hword, hword, hbad]

theorem Calm.modSeq {ok : Fld → Prop} (K : Calm ok P) {g : SeqInt → SeqInt} (hs : P s) : P (s.modSeq g) := K.beside hs rfl

theorem Calm.stepBegun (K : Calm (Listed [.SEQ_STAT]) P) (hs : P s) : P (stepBegun i s) :=
  K.modSeq <| K.set (f := SEQ_STAT_STEP) rfl <| K.set (f := SEQ_STAT_STATE) rfl hs

theorem stepBegun_seq (i : Nat) (s : State) :
    (stepBegun i s).seq = { s.seq with links := [], hoSeen := 0, rose := 0, fell := 0 } := by
  unfold stepBegun State.modSeq
  simp only [State.set_seq]

theorem stepBegun_state (i : Nat) (s : State) : (stepBegun i s).seqState = seqWaiting :=
  (State.get_set_apart (f := SEQ_STAT_STEP) (g := SEQ_STAT_STATE) rfl).trans (State.get_set_own rfl rfl)

theorem stepBegun_step (i : Nat) (s : State) : (stepBegun i s).get SEQ_STAT_STEP = i % 64 :=
  State.get_set_same (s.set SEQ_STAT_STATE seqWaiting) SEQ_STAT_STEP i (by decide)

theorem get_stepBegun {f : Fld} (hstate : SEQ_STAT_STATE.apartFrom f = true) (hstep : SEQ_STAT_STEP.apartFrom f = true) :
    (stepBegun i s).get f = s.get f :=
  (State.get_set_apart hstep).trans (State.get_set_apart hstate)

/-- A step that is present begins its wait. -/
theorem beginStep_present (h : s.stepPresent (s.get SEQ_STAT_CUR) i = true) : beginStep i s = stepBegun i s := by
  have hcur : (stepBegun i s).get SEQ_STAT_CUR = s.get SEQ_STAT_CUR := get_stepBegun rfl rfl
  have hpresent : (stepBegun i s).stepPresent (s.get SEQ_STAT_CUR) i = true := by
    rw [← h]
    refine State.stepPresent_of_words (fun w => State.word_of_get ?_) (by rw [stepBegun_seq])
    exact get_stepBegun rfl rfl
  have hbegin : beginStep i s =
      if (stepBegun i s).stepPresent ((stepBegun i s).get SEQ_STAT_CUR) i then stepBegun i s else seqEnded 3 2 (stepBegun i s) := rfl
  rw [hbegin, hcur, if_pos hpresent]

/-! ### A request that starts its sequence -/

/-- An IDLE sequencer with no request held, in a package that is active, and a sequence of it whose first step is present. -/
structure State.Starts (s : State) (q : Nat) : Prop where
  active : s.active = true
  idle : s.seqState = seqIdle
  steps : s.get (SEQ_NSTEP_NSTEP q) ≠ 0
  present : s.stepPresent q 0 = true
  held : s.seq.held = none
  slot : q < 8

/-- The registers that decide it. -/
def startNames : List RegName := [.GLB_STATE, .SEQ_STAT, .SEQ_NSTEP, .SEQ_STEP]

theorem State.Starts.of_gets (h : s.Starts q) (hget : ∀ f : Fld, Listed startNames f → t.get f = s.get f)
    (hseq : t.seq.held = s.seq.held ∧ t.seq.badSteps = s.seq.badSteps) : t.Starts q where
  active := by
    rw [← h.active]
    unfold State.active State.pkg
    rw [hget GLB_STATE_STATE rfl]
  idle := (hget SEQ_STAT_STATE rfl).trans h.idle
  steps := by
    rw [hget (SEQ_NSTEP_NSTEP q) rfl]
    exact h.steps
  present := (State.stepPresent_of_words (fun w => State.word_of_get (hget _ rfl)) hseq.2).trans h.present
  held := hseq.1.trans h.held
  slot := h.slot

/-- Operations on other registers leave it. -/
theorem State.Starts.of_noted {names : List RegName} (h : s.Starts q)
    (hkeeps : ∀ {P : State → Prop}, Noted names P → P s → P t) (hnames : ∀ n ∈ startNames, (names ++ eventNames).contains n = false)
    (hseq : t.seq.held = s.seq.held ∧ t.seq.badSteps = s.seq.badSteps) : t.Starts q :=
  h.of_gets (fun f hf => hkeeps (noted_get f _ (hnames _ (List.contains_iff_mem.1 hf))) rfl) hseq

/-- Sequence `q` waits in its first step at a rank. -/
def seqStarted (rank q : Nat) (s : State) : State :=
  stepBegun 0 (((s.set SEQ_STAT_CUR q).set SEQ_STAT_RANK rank).set SEQ_STAT_STEP 0)

theorem Calm.seqStarted (K : Calm (Listed [.SEQ_STAT]) P) (hs : P s) : P (seqStarted rank q s) :=
  K.stepBegun <| K.set (f := SEQ_STAT_STEP) rfl <| K.set (f := SEQ_STAT_RANK) rfl <| K.set (f := SEQ_STAT_CUR) rfl hs

theorem seqStarted_seq (rank q : Nat) (s : State) :
    (seqStarted rank q s).seq = { s.seq with links := [], hoSeen := 0, rose := 0, fell := 0 } := by
  unfold seqStarted
  rw [stepBegun_seq]
  simp only [State.set_seq]

theorem seqStarted_state (rank q : Nat) (s : State) : (seqStarted rank q s).seqState = seqWaiting := stepBegun_state 0 _

theorem seqStarted_cur (hq : q < 8) (rank : Nat) (s : State) : (seqStarted rank q s).get SEQ_STAT_CUR = q :=
  (get_stepBegun rfl rfl).trans <| (State.get_set_apart rfl).trans <| (State.get_set_apart rfl).trans <|
    (State.get_set_same s SEQ_STAT_CUR q (by decide)).trans (Nat.mod_eq_of_lt hq)

theorem seqStarted_rank (hrank : rank < 4) (q : Nat) (s : State) : (seqStarted rank q s).get SEQ_STAT_RANK = rank :=
  (get_stepBegun rfl rfl).trans <| (State.get_set_apart rfl).trans <|
    (State.get_set_same _ SEQ_STAT_RANK rank (by decide)).trans (Nat.mod_eq_of_lt hrank)

theorem startHeld_none (h : s.seq.held = none) : startHeld s = s := by
  unfold startHeld
  rw [h]

theorem startNow_starts (h : s.Starts q) (rank : Nat) : startNow rank q s = seqStarted rank q s := by
  have hcur : (((s.set SEQ_STAT_CUR q).set SEQ_STAT_RANK rank).set SEQ_STAT_STEP 0).get SEQ_STAT_CUR = q :=
    (State.get_set_apart rfl).trans <| (State.get_set_apart rfl).trans <|
      (State.get_set_same s SEQ_STAT_CUR q (by decide)).trans (Nat.mod_eq_of_lt h.slot)
  have hpresent : (((s.set SEQ_STAT_CUR q).set SEQ_STAT_RANK rank).set SEQ_STAT_STEP 0).stepPresent q 0 = true := by
    rw [← h.present]
    refine State.stepPresent_of_words (fun w => State.word_of_get ?_) (by simp only [State.set_seq])
    exact (State.get_set_apart rfl).trans <| (State.get_set_apart rfl).trans (State.get_set_apart rfl)
  have hcore : startCore rank q s = seqStarted rank q s :=
    (if_neg h.steps).trans (beginStep_present (by rwa [hcur]))
  unfold startNow
  rw [hcore, startHeld_none (by rw [seqStarted_seq]; exact h.held)]

/-- A request of a lower rank than 3 starts its sequence. -/
theorem seqRequest_starts (h : s.Starts q) (rank : Nat) : seqRequest rank q s = seqStarted rank q s := by
  unfold seqRequest
  rw [h.active, Bool.not_true, if_neg Bool.false_ne_true, if_pos h.idle, startNow_starts h]

end

end Sys2Proof.Machine

/-! VIN and the ride-through (R216 to R218), the housekeeping regulators and the remote diodes (R219 to R221). -/

namespace Sys2Proof.Machine

section
variable {P : State → Prop} {s t : State} {x : BitVec 16} {f : Fld}

theorem State.on_of_get (h : t.get f = s.get f) : t.on f = s.on f := by
  unfold State.on
  rw [h]

theorem State.on_eq_false (h : s.get f = 0) : s.on f = false := by
  unfold State.on
  rw [h]
  rfl

/-! ### The loss of VIN (R216) -/

/-- VIN_OK falls: the charger is off, and the event and its class follow. -/
def vinLost (s : State) : State := latchClass clsVinLoss (hupEvt 0 0x070B ((s.set HUP_STAT_VIN_OK 0).set HUP_STAT_CHG chgOff))

/-- With the store to ride on, the bias moves to it, and the orderly down is noted. -/
def vinLossShown (s : State) : State :=
  (if (s.on HUP_CTL_RIDE_EN && s.on HUP_CTL_STORE_PRESENT && !s.isolated dieP) = true then (vinLost s).set HUP_STAT_ON_STORE 1
    else vinLost s).modSeq (fun x => { x with restartDue := false, downRan := s.on SEQ_CFG_DOWN_EN })

theorem chargerFollow_unfed (h : s.get HUP_STAT_VIN_OK = 0) : chargerFollow s = s.set HUP_STAT_CHG chgOff := by
  unfold chargerFollow
  rw [State.on_eq_false h]
  simp only [Bool.not_false, Bool.or_true, Bool.true_or, if_true]

theorem exec_vinLoss (hok : s.on HUP_STAT_VIN_OK = true) (hlow : x.toNat < 20 * s.get HUP_VIN_VIN_UV) :
    exec (.vinLoss x) s = .next (if s.on SEQ_CFG_DOWN_EN = true then seqRequest 0 (s.get SEQ_CFG_DOWN_SEQ) (vinLossShown s)
      else vinLossShown s) := by
  change execVinLoss x s = _
  unfold execVinLoss
  rw [if_pos ⟨hok, hlow⟩, chargerFollow_unfed (State.get_set_own rfl rfl)]
  rfl

theorem Noted.vinLost (K : Noted hupNames P) (hs : P s) : P (vinLost s) :=
  K.latchClass rfl <| K.hupEvt <| K.set (f := HUP_STAT_CHG) rfl <| K.set (f := HUP_STAT_VIN_OK) rfl hs

theorem Noted.vinLossShown (K : Noted hupNames P) (hs : P s) : P (vinLossShown s) :=
  K.modSeq <| K.ite (K.set (f := HUP_STAT_ON_STORE) rfl (K.vinLost hs)) (K.vinLost hs)

theorem vinLossShown_seq (s : State) :
    (vinLossShown s).seq = { s.seq with restartDue := false, downRan := s.on SEQ_CFG_DOWN_EN } := by
  have hlost : (vinLost s).seq = s.seq := by
    unfold vinLost latchClass hupEvt State.raise
    simp only [State.setBit_eq, State.set_seq, State.pushEvt_seq]
  unfold vinLossShown State.modSeq
  dsimp only
  split
  · rw [State.set_seq, hlost]
  · rw [hlost]

/-- The bias aside, the loss is shown as it was entered. -/
theorem get_vinLossShown (hf : HUP_STAT_ON_STORE.apartFrom f = true) : (vinLossShown s).get f = (vinLost s).get f := by
  unfold vinLossShown
  change State.get (ite _ _ _) f = _
  split
  · exact State.get_set_apart hf
  · rfl

theorem get_vinLost (hpkg : FLT_PKG_LATCH.apartFrom f = true) (hevt : HUP_EVT_EVT.apartFrom f = true)
    (hf : eventNames.contains f.reg.name = false) :
    (vinLost s).get f = ((s.set HUP_STAT_VIN_OK 0).set HUP_STAT_CHG chgOff).get f :=
  (State.get_set_apart hpkg).trans (State.get_raise_named hevt hf)

theorem vinLossShown_vinOk (s : State) : (vinLossShown s).get HUP_STAT_VIN_OK = 0 :=
  (get_vinLossShown rfl).trans <| (get_vinLost rfl rfl rfl).trans <| (State.get_set_apart rfl).trans (State.get_set_own rfl rfl)

theorem vinLossShown_chg (s : State) : (vinLossShown s).get HUP_STAT_CHG = chgOff :=
  (get_vinLossShown rfl).trans <| (get_vinLost rfl rfl rfl).trans (State.get_set_own rfl rfl)

theorem vinLossShown_sticky (s : State) : (vinLossShown s).bit HUP_EVT_EVT 0 = true :=
  (State.bit_of_get (get_vinLossShown rfl) 0).trans <| (State.bit_of_get (State.get_set_apart rfl) 0).trans <|
    State.bit_raise_own rfl (by decide) rfl

theorem vinLossShown_latch (s : State) : (vinLossShown s).bit FLT_PKG_LATCH 7 = true :=
  (State.bit_of_get (get_vinLossShown rfl) 7).trans (latchClass_latch (by decide) _)

theorem vinLossShown_onStore (hride : s.on HUP_CTL_RIDE_EN = true) (hstore : s.on HUP_CTL_STORE_PRESENT = true)
    (hiso : s.isolated dieP = false) : (vinLossShown s).get HUP_STAT_ON_STORE = 1 := by
  have hrides : (s.on HUP_CTL_RIDE_EN && s.on HUP_CTL_STORE_PRESENT && !s.isolated dieP) = true := by
    rw [hride, hstore, hiso]
    rfl
  unfold vinLossShown
  rw [if_pos hrides]
  exact State.get_set_own rfl rfl

theorem vinLossShown_posted (s : State) : Posted s (vinLossShown s) 0x070B 0 := by
  have hlost : Posted s (vinLost s) 0x070B 0 :=
    (posted_listedRaise (names := hupNames) (f := HUP_EVT_EVT)
      (fun K hs => K.set (f := HUP_STAT_CHG) rfl <| K.set (f := HUP_STAT_VIN_OK) rfl hs) rfl rfl).of_events ⟨rfl, rfl⟩
  refine hlost.of_events ?_
  unfold vinLossShown
  change State.evtSeq (ite _ _ _) = _ ∧ State.evtFifo (ite _ _ _) = _
  split <;> exact ⟨rfl, rfl⟩

/-- VIN_LOSS with no orderly down asked for. -/
theorem vinLoss_rides (hok : s.on HUP_STAT_VIN_OK = true) (hlow : x.toNat < 20 * s.get HUP_VIN_VIN_UV)
    (hdown : s.on SEQ_CFG_DOWN_EN = false) : ∃ u, exec (.vinLoss x) s = .next u ∧ u.get HUP_STAT_VIN_OK = 0 ∧
      u.get HUP_STAT_CHG = chgOff ∧ u.bit HUP_EVT_EVT 0 = true ∧ u.bit FLT_PKG_LATCH 7 = true ∧
      (s.on HUP_CTL_RIDE_EN = true → s.on HUP_CTL_STORE_PRESENT = true → s.isolated dieP = false → u.get HUP_STAT_ON_STORE = 1) ∧
      Posted s u 0x070B 0 ∧ Within s u spanWork := by
  refine ⟨_, (exec_vinLoss hok hlow).trans (congrArg _ (if_neg (by rw [hdown]; exact Bool.false_ne_true))), vinLossShown_vinOk s,
    vinLossShown_chg s, vinLossShown_sticky s, vinLossShown_latch s, vinLossShown_onStore, vinLossShown_posted s,
    (hup_within s).vinLossShown (Within.refl s _)⟩

theorem seqStat_within (s : State) : Noted [.SEQ_STAT] (fun u => Within s u spanWork) := noted_within s (by decide)

/-- VIN_LOSS with the orderly down: its sequence starts at rank 0. -/
theorem vinLoss_down (hok : s.on HUP_STAT_VIN_OK = true) (hlow : x.toNat < 20 * s.get HUP_VIN_VIN_UV)
    (hdown : s.on SEQ_CFG_DOWN_EN = true) (hstarts : s.Starts (s.get SEQ_CFG_DOWN_SEQ)) : ∃ u, exec (.vinLoss x) s = .next u ∧
      u.get HUP_STAT_VIN_OK = 0 ∧ u.seqState = seqWaiting ∧ u.get SEQ_STAT_CUR = s.get SEQ_CFG_DOWN_SEQ ∧ u.get SEQ_STAT_RANK = 0 ∧
      u.seq.downRan = true ∧ Within s u spanWork := by
  have hstarts' : (vinLossShown s).Starts (s.get SEQ_CFG_DOWN_SEQ) :=
    hstarts.of_noted (fun K hs => K.vinLossShown hs) (by decide) (by rw [vinLossShown_seq]; exact ⟨rfl, rfl⟩)
  refine ⟨_, (exec_vinLoss hok hlow).trans (congrArg _ ((if_pos hdown).trans (seqRequest_starts hstarts' 0))), ?_,
    seqStarted_state .., seqStarted_cur hstarts.slot .., seqStarted_rank (by decide) .., ?_,
    (seqStat_within s).seqStarted ((hup_within s).vinLossShown (Within.refl s _))⟩
  · exact (noted_get HUP_STAT_VIN_OK _ (by decide)).seqStarted (vinLossShown_vinOk s)
  · rw [seqStarted_seq, vinLossShown_seq]
    exact hdown

theorem vinLoss_stays (h : s.on HUP_STAT_VIN_OK = false ∨ 20 * s.get HUP_VIN_VIN_UV ≤ x.toNat) :
    ∃ u, exec (.vinLoss x) s = .next u ∧ u = s := by
  refine ⟨_, congrArg Host.Outcome.next (if_neg fun hloss => ?_), rfl⟩
  obtain ⟨hok, hlow⟩ := hloss
  rcases h with h | h
  · rw [h] at hok
    cases hok
  · omega

/-! ### VIN good again (R218) -/

/-- VIN_OK rises: the bias leaves the store, and the charger follows. -/
def vinBack (s : State) : State := hupEvt 1 0x070E (chargerFollow ((s.set HUP_STAT_VIN_OK 1).set HUP_STAT_ON_STORE 0))

/-- A restart may be due after an orderly down. -/
def vinGoodShown (s : State) : State :=
  (vinBack s).modSeq (fun x => { x with restartDue := s.on HUP_CTL_RESTART && x.downRan, downRan := false })

theorem exec_vinGood (hlo : s.pkg_.loRuns = true) (hbad : s.on HUP_STAT_VIN_OK = false) (hoff : s.pkg ≠ pkgOff)
    (hkeep : s.pkg ≠ pkgKeep) (hhigh : 20 * (s.get HUP_VIN_VIN_UV + s.get HUP_VIN_HYST) < x.toNat) :
    exec (.vinGood x) s = .next (tryRestart (vinGoodShown s)) := by
  refine congrArg Host.Outcome.next (if_neg fun h => ?_)
  simp only [hbad, hoff, hkeep, hlo, decide_false, Bool.not_true, Bool.or_false, Bool.false_or, decide_eq_true_eq] at h
  omega

theorem Calm.vinBackEntered (K : Calm (Listed hupNames) P) (hs : P s) :
    P (Machine.chargerFollow ((s.set HUP_STAT_VIN_OK 1).set HUP_STAT_ON_STORE 0)) :=
  K.chargerFollow rfl <| K.set (f := HUP_STAT_ON_STORE) rfl <| K.set (f := HUP_STAT_VIN_OK) rfl hs

theorem Noted.vinGoodShown (K : Noted hupNames P) (hs : P s) : P (vinGoodShown s) := K.modSeq <| K.hupEvt <| K.vinBackEntered hs

theorem get_vinGoodShown (hchg : HUP_STAT_CHG.apartFrom f = true) (hevt : HUP_EVT_EVT.apartFrom f = true)
    (hf : eventNames.contains f.reg.name = false) :
    (vinGoodShown s).get f = ((s.set HUP_STAT_VIN_OK 1).set HUP_STAT_ON_STORE 0).get f :=
  (State.get_raise_named hevt hf).trans (get_chargerFollow hchg _)

theorem vinGoodShown_vinOk (s : State) : (vinGoodShown s).get HUP_STAT_VIN_OK = 1 :=
  (get_vinGoodShown rfl rfl rfl).trans <| (State.get_set_apart rfl).trans (State.get_set_own rfl rfl)

theorem vinGoodShown_onStore (s : State) : (vinGoodShown s).get HUP_STAT_ON_STORE = 0 :=
  (get_vinGoodShown rfl rfl rfl).trans (State.get_set_own rfl rfl)

theorem chargerFollow_seq (s : State) : (chargerFollow s).seq = s.seq := by
  unfold chargerFollow
  split
  · exact State.set_seq ..
  · split
    · exact State.set_seq ..
    · rfl

theorem vinGoodShown_seq (s : State) :
    (vinGoodShown s).seq = { s.seq with restartDue := s.on HUP_CTL_RESTART && s.seq.downRan, downRan := false } := by
  unfold vinGoodShown vinBack hupEvt State.raise State.modSeq
  simp only [State.setBit_eq, State.set_seq, State.pushEvt_seq, chargerFollow_seq]

/-- VIN_GOOD with no restart due. -/
theorem vinGood_resumes (hlo : s.pkg_.loRuns = true) (hbad : s.on HUP_STAT_VIN_OK = false) (hoff : s.pkg ≠ pkgOff)
    (hkeep : s.pkg ≠ pkgKeep) (hhigh : 20 * (s.get HUP_VIN_VIN_UV + s.get HUP_VIN_HYST) < x.toNat)
    (hnone : s.on HUP_CTL_RESTART = false ∨ s.seq.downRan = false) : ∃ u, exec (.vinGood x) s = .next u ∧
      u.get HUP_STAT_VIN_OK = 1 ∧ u.get HUP_STAT_ON_STORE = 0 ∧ u.bit HUP_EVT_EVT 1 = true ∧ Posted s u 0x070E 0 ∧
      Within s u spanWork := by
  have hdue : (vinGoodShown s).seq.restartDue = false := by
    rw [vinGoodShown_seq]
    exact Bool.and_eq_false_iff.2 hnone
  have hstay : tryRestart (vinGoodShown s) = vinGoodShown s := by
    unfold tryRestart
    rw [hdue, Bool.false_and, if_neg Bool.false_ne_true]
  have hposted : Posted s (vinGoodShown s) 0x070E 0 :=
    (posted_listedRaise (names := hupNames) (f := HUP_EVT_EVT) (fun K hs => K.vinBackEntered hs) rfl rfl).of_events ⟨rfl, rfl⟩
  exact ⟨_, (exec_vinGood hlo hbad hoff hkeep hhigh).trans (congrArg _ hstay), vinGoodShown_vinOk s, vinGoodShown_onStore s,
    (State.bit_raise_own rfl (by decide) rfl : (vinBack s).bit HUP_EVT_EVT 1 = true), hposted,
    (hup_within s).vinGoodShown (Within.refl s _)⟩

/-- VIN_GOOD after an orderly down: the boot sequence starts at rank 2. -/
theorem vinGood_restarts (hlo : s.pkg_.loRuns = true) (hbad : s.on HUP_STAT_VIN_OK = false)
    (hhigh : 20 * (s.get HUP_VIN_VIN_UV + s.get HUP_VIN_HYST) < x.toNat) (hrestart : s.on HUP_CTL_RESTART = true)
    (hdown : s.seq.downRan = true) (hstarts : s.Starts (s.get SEQ_CFG_BOOT_SEQ)) : ∃ u, exec (.vinGood x) s = .next u ∧
      u.get HUP_STAT_VIN_OK = 1 ∧ u.seqState = seqWaiting ∧ u.get SEQ_STAT_CUR = s.get SEQ_CFG_BOOT_SEQ ∧ u.get SEQ_STAT_RANK = 2 ∧
      Within s u spanWork := by
  have hpkg : ∀ p, p ≠ pkgRun → p ≠ pkgStandby → s.pkg ≠ p := fun p hrun hstandby he => by
    have hactive := hstarts.active
    unfold State.active at hactive
    simp [he, hrun, hstandby] at hactive
  have hdue : (vinGoodShown s).seq.restartDue = true := by
    rw [vinGoodShown_seq, hrestart, hdown]
    rfl
  have hidle : (vinGoodShown s).seqState = seqIdle :=
    ((noted_get SEQ_STAT_STATE _ (by decide)).vinGoodShown rfl : _ = s.seqState).trans hstarts.idle
  have hboot : (vinGoodShown s).get SEQ_CFG_BOOT_SEQ = s.get SEQ_CFG_BOOT_SEQ := (noted_get _ _ (by decide)).vinGoodShown rfl
  have hstarts' : ((vinGoodShown s).modSeq (fun x => { x with restartDue := false })).Starts (s.get SEQ_CFG_BOOT_SEQ) := by
    refine hstarts.of_noted (names := hupNames) (fun K hs => K.modSeq (K.vinGoodShown hs)) (by decide) ?_
    unfold State.modSeq
    dsimp only
    rw [vinGoodShown_seq]
    exact ⟨rfl, rfl⟩
  have hgo : tryRestart (vinGoodShown s) = seqStarted 2 (s.get SEQ_CFG_BOOT_SEQ)
      ((vinGoodShown s).modSeq (fun x => { x with restartDue := false })) := by
    unfold tryRestart
    rw [hdue, hidle, hboot, seqRequest_starts hstarts']
    exact if_pos rfl
  refine ⟨_, (exec_vinGood hlo hbad (hpkg _ (by decide) (by decide)) (hpkg _ (by decide) (by decide)) hhigh).trans (congrArg _ hgo), ?_,
    seqStarted_state .., seqStarted_cur hstarts.slot .., seqStarted_rank (by decide) .., ?_⟩
  · exact (noted_get HUP_STAT_VIN_OK _ (by decide)).seqStarted (vinGoodShown_vinOk s)
  · exact (seqStat_within s).seqStarted ((hup_within s).modSeq ((hup_within s).vinGoodShown (Within.refl s _)))

end

end Sys2Proof.Machine

/-! The package's shutdown by STORE_LOW (R208, R217), and the rest of O28. -/

namespace Sys2Proof.Machine

/-! ### A PACKAGE action (R208) -/

/-- A rail is held for the package and enters SAFE. -/
def railShut (r : Nat) (s : State) : State := railToSafe r (s.set (FLT_RSTAT_PKG_HELD r) 1)

theorem packageShutdown_eq (s : State) : packageShutdown s = (s.set FLT_PKG_PKG_SD 1).each 24 railShut := rfl

section
variable {P : State → Prop} {s : State} {r q v : Nat} {f : Fld}

/-- The registers of a package shutdown. -/
def shutNames : List RegName := safeNames ++ [.FLT_PKG]

theorem Calm.railShut (K : Calm (Listed safeNames) P) (hs : P s) : P (railShut r s) :=
  (K.mono fun _ => SafeFld.name).railToSafe <| K.set (f := FLT_RSTAT_PKG_HELD r) rfl hs

theorem Calm.railsShut (K : Calm (Listed safeNames) P) (hs : P s) : P (s.each 24 Machine.railShut) :=
  State.each_keeps 24 _ (fun _ _ _ h => K.railShut h) hs

theorem Calm.packageShutdown (K : Calm (Listed shutNames) P) (hs : P s) : P (packageShutdown s) := by
  rw [packageShutdown_eq]
  exact Calm.railsShut (K.mono fun _ h => h.mono (by decide)) (K.set (f := FLT_PKG_PKG_SD) rfl hs)

/-- The hold of the package is none of what entering SAFE writes. -/
theorem railToSafe_pkgHeld (q r v : Nat) : Calm (SafeFld r) (fun s => s.get (FLT_RSTAT_PKG_HELD q) = v) := by
  have hreg : (PRG_RSTAT_STATE r).reg ≠ (FLT_RSTAT_PKG_HELD q).reg := Reg.ne_of_name (show RegName.PRG_RSTAT ≠ .FLT_RSTAT by decide)
  refine calm_get (FLT_RSTAT_PKG_HELD q) v fun f hf => ?_
  rcases hf with rfl | hf
  · exact .inl hreg
  · refine hf.apart (fun e he => ?_) rfl
    simp only [restFlds, List.mem_cons, List.not_mem_nil, or_false] at he
    rcases he with rfl | rfl | rfl | rfl | rfl
    iterate 4 exact .inl hreg
    · exact Fld.apart_above rfl

theorem railShut_held (r : Nat) (s : State) : (railShut r s).get (FLT_RSTAT_PKG_HELD r) = 1 :=
  (railToSafe_pkgHeld r r 1).railToSafe (State.get_set_own rfl rfl)

theorem railShut_held_other (h : r ≠ q) (hs : s.get (FLT_RSTAT_PKG_HELD q) = v) : (railShut r s).get (FLT_RSTAT_PKG_HELD q) = v := by
  refine (railToSafe_pkgHeld q r v).railToSafe ((State.get_set_ne s _ _ 1 fun e => ?_).trans hs)
  injection e with _ hi
  exact h hi

theorem railShut_state (r : Nat) (s : State) : (railShut r s).railState r = if s.railState r = railOff then railOff else railSafe := by
  have hset : (s.set (FLT_RSTAT_PKG_HELD r) 1).railState r = s.railState r := State.get_set_apart rfl
  unfold railShut
  rw [railToSafe_self, hset]

theorem railShut_state_other (h : r ≠ q) (hs : s.railState q = v) : (railShut r s).railState q = v :=
  (railToSafe_other h v).railToSafe ((State.get_set_apart rfl : _ = s.railState q).trans hs)

theorem packageShutdown_held (hr : r < 24) (s : State) : (packageShutdown s).get (FLT_RSTAT_PKG_HELD r) = 1 :=
  State.each_at railShut (A := fun _ => True) (B := fun t => t.get (FLT_RSTAT_PKG_HELD r) = 1) hr (fun _ _ _ _ => trivial)
    (fun t _ => railShut_held r t) (fun _ _ hi h => railShut_held_other hi h) trivial

theorem packageShutdown_state (hr : r < 24) (s : State) :
    (packageShutdown s).railState r = if s.railState r = railOff then railOff else railSafe := by
  have hset : (s.set FLT_PKG_PKG_SD 1).railState r = s.railState r := State.get_set_apart rfl
  exact State.each_at railShut (A := fun t => t.railState r = s.railState r)
    (B := fun t => t.railState r = if s.railState r = railOff then railOff else railSafe) hr
    (fun _ _ hi h => railShut_state_other hi h) (fun t h => by rw [railShut_state, h]) (fun _ _ hi h => railShut_state_other hi h) hset

theorem packageShutdown_sd (s : State) : (packageShutdown s).get FLT_PKG_PKG_SD = 1 := by
  rw [packageShutdown_eq]
  exact (calm_get (ok := Listed safeNames) FLT_PKG_PKG_SD 1 fun _ h => h.apart rfl).railsShut (State.get_set_own rfl rfl)

theorem packageShutdown_latch (s : State) : (packageShutdown s).get FLT_PKG_LATCH = s.get FLT_PKG_LATCH := by
  rw [packageShutdown_eq]
  exact (calm_get (ok := Listed safeNames) FLT_PKG_LATCH _ fun _ h => h.apart rfl).railsShut (State.get_set_apart rfl)

end

section
variable {P : State → Prop} {s : State} {x : BitVec 16} {f : Fld}

/-! ### The end of the store (R217) -/

/-- The store is below STORE_MIN: the event and its class. -/
def storeSpent (x : BitVec 16) (s : State) : State := latchClass clsStoreLow (hupEvt 3 0x070C (storeMeasured x s))

theorem Noted.storeSpent (K : Noted hupNames P) (hs : P s) : P (storeSpent x s) := K.latchClass rfl <| K.hupEvt <| K.storeMeasured hs

theorem get_packageShutdown (hf : shutNames.contains f.reg.name = false) : (packageShutdown s).get f = s.get f :=
  (calm_get (ok := Listed shutNames) f _ fun _ h => h.apart hf).packageShutdown rfl

theorem exec_storeLow (hstore : s.on HUP_STAT_ON_STORE = true) (hlow : x.toNat < 10 * s.get HUP_STORE_STORE_MIN)
    (hidle : s.seqState = seqIdle) : exec (.storeLow x) s = .next (packageShutdown (storeSpent x s)) := by
  have hacting : ¬s.seqState = seqActing := by
    rw [hidle]
    decide
  have hidle' : (packageShutdown (storeSpent x s)).seqState = seqIdle :=
    (get_packageShutdown (f := SEQ_STAT_STATE) rfl).trans <| ((noted_get SEQ_STAT_STATE _ (by decide)).storeSpent rfl).trans hidle
  change execStoreLow x s = _
  unfold execStoreLow
  rw [if_pos ⟨hstore, hlow⟩]
  dsimp only
  rw [if_neg hacting]
  exact congrArg Host.Outcome.next (if_pos hidle')

theorem storeSpent_latch (x : BitVec 16) (s : State) : (storeSpent x s).bit FLT_PKG_LATCH 8 = true := latchClass_latch (by decide) _

theorem storeSpent_sticky (x : BitVec 16) (s : State) : (storeSpent x s).bit HUP_EVT_EVT 3 = true :=
  (State.bit_of_get (State.get_set_apart rfl) 3).trans (State.bit_raise_own rfl (by decide) rfl)

theorem storeSpent_evtSeq (h : s.linked dieP dieC = true) : s.evtSeq < (storeSpent x s).evtSeq := by
  have hle : s.evtSeq ≤ (storeMeasured x s).evtSeq := (noted_evtSeq s.evtSeq).storeMeasured (Nat.le_refl _)
  have hdie : (storeMeasured x s).get GLB_DIE_ISOLATED = s.get GLB_DIE_ISOLATED := (noted_get _ _ (by decide)).storeMeasured rfl
  unfold storeSpent latchClass
  rw [State.setBit_eq, State.set_evtSeq]
  exact evtSeq_lt_raise hle hdie (by decide) h

theorem storeSpent_vstore (x : BitVec 16) (s : State) : (storeSpent x s).get HUP_STAT_VSTORE = x.toNat :=
  (State.get_set_apart rfl).trans <| (State.get_raise_named rfl rfl).trans (storeMeasured_vstore x s)

/-- STORE_LOW while no sequence runs. -/
theorem storeLow_shuts (hstore : s.on HUP_STAT_ON_STORE = true) (hlow : x.toNat < 10 * s.get HUP_STORE_STORE_MIN)
    (hidle : s.seqState = seqIdle) : ∃ u, exec (.storeLow x) s = .next u ∧ u.get HUP_STAT_VSTORE = x.toNat ∧
      u.get FLT_PKG_PKG_SD = 1 ∧ u.bit FLT_PKG_LATCH 8 = true ∧ u.bit HUP_EVT_EVT 3 = true ∧
      (∀ r : Fin 24, u.railState r = if s.railState r = railOff then railOff else railSafe) ∧
      (∀ r : Fin 24, u.get (FLT_RSTAT_PKG_HELD r) = 1) ∧ (s.linked dieP dieC = true → s.evtSeq < u.evtSeq) ∧ Within s u spanWork := by
  have hrail : ∀ r : Fin 24, (storeSpent x s).railState r = s.railState r := fun r =>
    (noted_get (PRG_RSTAT_STATE r) _ rfl).storeSpent rfl
  refine ⟨_, exec_storeLow hstore hlow hidle, (get_packageShutdown rfl).trans (storeSpent_vstore x s), packageShutdown_sd _,
    (State.bit_of_get (packageShutdown_latch _) 8).trans (storeSpent_latch x s),
    (State.bit_of_get (get_packageShutdown rfl) 3).trans (storeSpent_sticky x s),
    fun r => by rw [packageShutdown_state r.isLt, hrail], fun r => packageShutdown_held r.isLt _, fun h => ?_,
    (noted_within (names := shutNames) s (by decide)).packageShutdown ((hup_within s).storeSpent (Within.refl s _))⟩
  rw [((calm_events _ _ _).packageShutdown ⟨rfl, rfl⟩).1]
  exact storeSpent_evtSeq h

/-! ### The housekeeping regulators (R219, R220) -/

/-- The registers of the regulators' faults. -/
def hkNames : List RegName := [.HK_FLT, .FLT_PKG, .HK_STAT, .HK_BUCK, .HK_LDO]

/-- A regulator's fault is latched, with its event and its class. -/
def hkLatched (i : Nat) (s : State) : State := latchClass clsHkFault ((s.setBit HK_FLT_LATCH i true).pushEvt 0x0710 i 0)

theorem hkField_listed (i : Nat) : Listed [.HK_BUCK, .HK_LDO] (hkField i) := by
  unfold hkField
  split <;> rfl

/-- The regulators' power-good bits stand in a register of their own. -/
theorem Calm.hkPg {ok : Fld → Prop} (K : Calm ok P) {i : Nat} {b : Bool} (hbuck : ok HK_STAT_BUCK_PG) (hldo : ok HK_STAT_LDO_PG)
    (hs : P s) : P (hkPg i b s) := K.ite (K.set hbuck hs) (K.set hldo hs)

theorem get_hkPg {i : Nat} {b : Bool} (hf : f.reg.name ≠ .HK_STAT) (s : State) : (hkPg i b s).get f = s.get f := by
  have K : Calm (Listed [.HK_STAT]) (fun u => u.get f = s.get f) := calm_get f _ fun e he => he.apart (by simpa using hf)
  exact K.hkPg rfl rfl rfl

theorem get_hkLatched {i : Nat} (hf : ([RegName.HK_FLT, .FLT_PKG] ++ eventNames).contains f.reg.name = false) (s : State) :
    (hkLatched i s).get f = s.get f := by
  have K : Noted [.HK_FLT, .FLT_PKG] (fun u => u.get f = s.get f) := noted_get f _ hf
  exact K.latchClass rfl <| K.push <| K.set (f := HK_FLT_LATCH) rfl rfl

theorem hkLatched_latch {i : Nat} (hi : i < 8) (s : State) : (hkLatched i s).bit HK_FLT_LATCH i = true :=
  (State.bit_of_get (State.get_set_apart rfl) i).trans <| (State.bit_of_get (State.get_pushEvt_named _ _ _ _ rfl) i).trans <|
    State.bit_setBit_same s true (by decide) hi

theorem hkLatched_class (i : Nat) (s : State) : (hkLatched i s).bit FLT_PKG_LATCH 10 = true := latchClass_latch (by decide) _

theorem hkLatched_posted (i : Nat) (s : State) : Posted s (hkLatched i s) 0x0710 i :=
  (posted_listedPush (names := hkNames) (fun K hs => K.set (f := HK_FLT_LATCH) rfl hs) rfl _ _ _).of_events ⟨rfl, rfl⟩

theorem hk_within (s : State) : Noted hkNames (fun u => Within s u spanWork) := noted_within s (by decide)

theorem hkLatched_within (i : Nat) (s : State) : Within s (hkLatched i s) spanWork :=
  (hk_within s).latchClass rfl <| (hk_within s).push <| (hk_within s).set (f := HK_FLT_LATCH) rfl (Within.refl s _)

theorem hkLatched_on (i : Nat) (s : State) : (hkLatched i s).on (hkField i) = s.on (hkField i) := by
  refine State.on_of_get (get_hkLatched ?_ s)
  unfold hkField
  split <;> rfl

/-- The reading lies outside its band; held in current limit there is none. -/
def State.hkOut (s : State) (i : Nat) (o : Option (BitVec 16)) : Bool := o.any (fun x => hkOutside (s.hkMv i) x.toNat)

/-- FACT of a regulator. -/
def State.hkFact (s : State) (i : Nat) : Bool := if i < 4 then s.on (HK_BUCK_FACT i) else s.on (HK_LDO_FACT (i - 4))

theorem exec_hkFault {i : Fin 8} {o : Option (BitVec 16)} (hon : s.on (hkField i) = true)
    (hout : o.all (fun x => hkOutside (s.hkMv i) x.toNat) = true) : exec (.hkFault i o) s =
      .next (if i.val ≠ 0 ∧ s.hkFact i = true then hkWrite i false (hkLatched i s)
        else if s.hkOut i o = true then hkPg i false (hkLatched i s) else hkLatched i s) := by
  cases o with
  | none => exact congrArg Host.Outcome.next (if_pos ⟨hon, .inl rfl⟩)
  | some x => exact congrArg Host.Outcome.next (if_pos ⟨hon, .inr hout⟩)

theorem hkWrite_off {i : Nat} (h : s.on (hkField i) = true) : hkWrite i false s = hkPg i false (s.put (hkField i) false) := by
  refine if_neg ?_
  rw [h]
  decide

theorem hkField_width (i : Nat) : (hkField i).lo = 0 ∧ (hkField i).w = 1 := by
  unfold hkField
  split <;> exact ⟨rfl, rfl⟩

/-- A regulator with FACT 1 is turned off. -/
theorem hkFault_turnsOff {i : Fin 8} {o : Option (BitVec 16)} (hon : s.on (hkField i) = true)
    (hout : o.all (fun x => hkOutside (s.hkMv i) x.toNat) = true) (hi : i.val ≠ 0) (hfact : s.hkFact i = true) :
    ∃ u, exec (.hkFault i o) s = .next u ∧ u.bit HK_FLT_LATCH i = true ∧ u.on (hkField i) = false ∧ u.bit FLT_PKG_LATCH 10 = true ∧
      Posted s u 0x0710 i ∧ Within s u spanWork := by
  have hoff : hkWrite i false (hkLatched i s) = hkPg i false ((hkLatched i s).put (hkField i) false) :=
    hkWrite_off ((hkLatched_on i s).trans hon)
  have hlisted : ∀ {P : State → Prop} {t : State}, Calm (Listed [.HK_BUCK, .HK_LDO, .HK_STAT]) P → P t →
      P (hkPg i false (t.put (hkField i) false)) := fun K h => K.hkPg rfl rfl <| K.set ((hkField_listed i).mono (by decide)) h
  have hget : ∀ f : Fld, [RegName.HK_BUCK, .HK_LDO, .HK_STAT].contains f.reg.name = false →
      (hkPg i false ((hkLatched i s).put (hkField i) false)).get f = (hkLatched i s).get f := fun f hf =>
    hlisted (calm_get f _ fun _ h => h.apart hf) rfl
  obtain ⟨hlo, hw⟩ := hkField_width i
  refine ⟨_, (exec_hkFault hon hout).trans (congrArg _ ((if_pos ⟨hi, hfact⟩).trans hoff)),
    (State.bit_of_get (hget _ rfl) i).trans (hkLatched_latch i.isLt s), State.on_eq_false ?_,
    (State.bit_of_get (hget _ rfl) 10).trans (hkLatched_class i s),
    (hkLatched_posted i s).of_events (hlisted (calm_events _ _ _) ⟨rfl, rfl⟩),
    hlisted ((hk_within s).toCalm.mono fun _ h => h.mono (by decide)) (hkLatched_within i s)⟩
  refine (get_hkPg ?_ _).trans (State.get_put_own false (by rw [hlo, hw]; rfl) hw)
  exact fun e => absurd (hkField_listed i) (by rw [Listed, e]; decide)

/-- HK0 stays on. -/
theorem hkFault_hk0 {o : Option (BitVec 16)} (hon : s.on (hkField 0) = true)
    (hout : o.all (fun x => hkOutside (s.hkMv 0) x.toNat) = true) : ∃ u, exec (.hkFault 0 o) s = .next u ∧
      u.bit HK_FLT_LATCH 0 = true ∧ u.on (hkField 0) = true ∧ u.bit FLT_PKG_LATCH 10 = true ∧ Posted s u 0x0710 0 ∧
      Within s u spanWork := by
  have hkeeps : ∀ {P : State → Prop}, Calm (Listed [.HK_STAT]) P → P (hkLatched 0 s) →
      P (if s.hkOut 0 o = true then hkPg 0 false (hkLatched 0 s) else hkLatched 0 s) := fun K h => K.ite (K.hkPg rfl rfl h) h
  have hget : ∀ f : Fld, [RegName.HK_STAT].contains f.reg.name = false →
      (if s.hkOut 0 o = true then hkPg 0 false (hkLatched 0 s) else hkLatched 0 s).get f = (hkLatched 0 s).get f := fun f hf =>
    hkeeps (calm_get f _ fun _ h => h.apart hf) rfl
  exact ⟨_, (exec_hkFault (i := 0) hon hout).trans (congrArg _ (if_neg fun h => h.1 rfl)),
    (State.bit_of_get (hget _ rfl) 0).trans (hkLatched_latch (by decide) s),
    (State.on_of_get (hget _ rfl)).trans ((hkLatched_on 0 s).trans hon),
    (State.bit_of_get (hget _ rfl) 10).trans (hkLatched_class 0 s),
    (hkLatched_posted 0 s).of_events (hkeeps (calm_events _ _ _) ⟨rfl, rfl⟩),
    hkeeps ((hk_within s).toCalm.mono fun _ h => h.mono (by decide)) (hkLatched_within 0 s)⟩

/-! ### The remote diodes (R221) -/

/-- The registers of a diode's alarm. -/
def tdNames : List RegName := [.HK_TDVAL, .HK_FLT, .FLT_PKG]

/-- A diode's alarm. -/
def tdAlarmed (i : Nat) (x : BitVec 16) (s : State) : State :=
  latchClass clsTdAlarm (((s.set (HK_TDVAL_TEMP i) x.toNat).setBit HK_FLT_TD_LATCH i true).pushEvt 0x0711 i 0)

theorem exec_tdMeasure_alarm {i : Fin 8} (hen : s.on (HK_TD_EN i) = true)
    (hx : (16 * s.get (HK_TD_ALARM i) : Int) ≤ x.toInt ∨ x = 0x8000) (hnot : s.bit HK_FLT_TD_LATCH i = false) :
    exec (.tdMeasure i x) s = .next (tdAlarmed i x s) := by
  refine congrArg Host.Outcome.next ((if_pos hen).trans ((if_pos hx.symm).trans (if_neg ?_)))
  rw [hnot]
  exact Bool.false_ne_true

theorem tdTemp_set (i : Nat) (x : BitVec 16) (s : State) : (s.set (HK_TDVAL_TEMP i) x.toNat).get (HK_TDVAL_TEMP i) = x.toNat :=
  (State.get_set_same s (HK_TDVAL_TEMP i) x.toNat (show 0 + 16 ≤ 32 by decide)).trans (Nat.mod_eq_of_lt x.isLt)

/-- A reading at or above ALARM, or of an open diode. -/
theorem tdMeasure_alarms {i : Fin 8} (hen : s.on (HK_TD_EN i) = true)
    (hx : (16 * s.get (HK_TD_ALARM i) : Int) ≤ x.toInt ∨ x = 0x8000) (hnot : s.bit HK_FLT_TD_LATCH i = false) :
    ∃ u, exec (.tdMeasure i x) s = .next u ∧ u.get (HK_TDVAL_TEMP i) = x.toNat ∧ u.bit HK_FLT_TD_LATCH i = true ∧
      u.bit FLT_PKG_LATCH 11 = true ∧ Posted s u 0x0711 i ∧ Within s u spanWork := by
  have hkeeps : ∀ {P : State → Prop}, Calm (Listed tdNames) P → P s →
      P ((s.set (HK_TDVAL_TEMP i) x.toNat).setBit HK_FLT_TD_LATCH i true) := fun K hs =>
    K.set (f := HK_FLT_TD_LATCH) rfl <| K.set (f := HK_TDVAL_TEMP i) rfl hs
  have W : Noted tdNames (fun u => Within s u spanWork) := noted_within s (by decide)
  have hget : ∀ f : Fld, ([RegName.FLT_PKG] ++ eventNames).contains f.reg.name = false →
      (tdAlarmed i x s).get f = ((s.set (HK_TDVAL_TEMP i) x.toNat).setBit HK_FLT_TD_LATCH i true).get f := fun f hf => by
    have K : Noted [.FLT_PKG] (fun u => u.get f = ((s.set (HK_TDVAL_TEMP i) x.toNat).setBit HK_FLT_TD_LATCH i true).get f) :=
      noted_get f _ hf
    exact K.latchClass rfl (K.push rfl)
  refine ⟨_, exec_tdMeasure_alarm hen hx hnot, (hget _ rfl).trans ?_, (State.bit_of_get (hget _ rfl) i).trans ?_,
    latchClass_latch (by decide) _, (posted_listedPush hkeeps rfl _ _ _).of_events ⟨rfl, rfl⟩,
    W.latchClass rfl (W.push (hkeeps W.toCalm (Within.refl s _)))⟩
  · exact (State.get_set_apart rfl).trans (tdTemp_set i x s)
  · exact State.bit_setBit_same _ true (by decide) i.isLt

/-- A reading below ALARM. -/
theorem tdMeasure_shows {i : Fin 8} (hen : s.on (HK_TD_EN i) = true) (hx : x.toInt < (16 * s.get (HK_TD_ALARM i) : Int))
    (hopen : x ≠ 0x8000) : ∃ u, exec (.tdMeasure i x) s = .next u ∧ u.get (HK_TDVAL_TEMP i) = x.toNat ∧ Silent s u ∧
      Frame s u [Fld.off (HK_TDVAL_TEMP i)] := by
  have hlow : ¬(x = 0x8000 ∨ (16 * s.get (HK_TD_ALARM i) : Int) ≤ x.toInt) := not_or.2 ⟨hopen, by omega⟩
  exact ⟨_, congrArg Host.Outcome.next ((if_pos hen).trans (if_neg hlow)), tdTemp_set i x s, (Silent.refl s).set _ _,
    (kept_frame s _).set _ _ List.mem_cons_self (Frame.refl s _)⟩

end

/-- Settles O28: each row by its own lemma; the loss and the return of VIN start their sequences from an IDLE sequencer. -/
theorem vinAndHousekeeping : Obligations.VinAndHousekeeping := by
  unfold Obligations.VinAndHousekeeping
  refine ⟨fun _ _ => vinLoss_rides, fun _ s hok hlow hdown hact hidle hsteps hpresent hheld => ?_, fun _ _ => vinLoss_stays,
    fun _ _ => vinGood_resumes, fun _ s hlo hbad hact hhigh hrestart hdown hidle hsteps hpresent hheld => ?_,
    fun _ _ => storeLow_shuts, fun _ _ _ => hkFault_turnsOff, fun _ _ => hkFault_hk0, fun _ _ _ => tdMeasure_alarms,
    fun _ _ _ => tdMeasure_shows⟩
  · exact vinLoss_down hok hlow hdown ⟨hact, hidle, hsteps, hpresent, hheld, s.get_lt SEQ_CFG_DOWN_SEQ⟩
  · exact vinGood_restarts hlo hbad hhigh hrestart hdown ⟨hact, hidle, hsteps, hpresent, hheld, s.get_lt SEQ_CFG_BOOT_SEQ⟩

end Sys2Proof.Machine

/-! How a sequence ends (R199, R200, R213, R218). -/

namespace Sys2Proof.Machine

/-- The registers that the end of a sequence writes. -/
def endNames : List RegName := [.SEQ_STAT, .SEQ_EVT, .FLT_PKG]

/-- SEQ_STAT as the end of a sequence leaves it. -/
def seqEndShown (last cause : Nat) (s : State) : State :=
  (((s.set SEQ_STAT_STATE seqIdle).set SEQ_STAT_LAST last).set SEQ_STAT_CAUSE cause).modSeq (fun x => { x with stopPend := false })

section
variable {P : State → Prop} {s t : State} {last cause i q rank : Nat} {f : Fld}

theorem Calm.seqEndShown (K : Calm (Listed endNames) P) (hs : P s) : P (seqEndShown last cause s) :=
  K.modSeq <| K.set (f := SEQ_STAT_CAUSE) rfl <| K.set (f := SEQ_STAT_LAST) rfl <| K.set (f := SEQ_STAT_STATE) rfl hs

theorem State.get_modSeq (s : State) (g : SeqInt → SeqInt) (f : Fld) : (s.modSeq g).get f = s.get f := rfl

theorem get_seqEndShown (f : Fld) : (seqEndShown last cause s).get f =
    (((s.set SEQ_STAT_STATE seqIdle).set SEQ_STAT_LAST last).set SEQ_STAT_CAUSE cause).get f := by
  unfold seqEndShown
  rw [State.get_modSeq]

theorem seqEnded_failed (cause : Nat) (s : State) : seqEnded 3 cause s = latchClass clsSeqFail (seqEvt 1 (seqEndShown 3 cause s)) := by
  simp only [seqEnded, seqEndShown]

theorem seqEnded_done (s : State) : seqEnded 1 0 s = seqEvt 0 (seqEndShown 1 0 s) := by
  simp only [seqEnded, seqEndShown]

/-- Beside SEQ_STAT an end writes its event and its class. -/
theorem seqEnded_marks (K : Noted [.SEQ_EVT, .FLT_PKG] P) (hs : P (seqEndShown last cause s)) : P (seqEnded last cause s) := by
  unfold seqEnded
  split
  · exact K.latchClass rfl (K.raise (f := SEQ_EVT_EVT) rfl hs)
  · exact K.set (f := SEQ_EVT_EVT) rfl hs
  · exact K.raise (f := SEQ_EVT_EVT) rfl hs

theorem Noted.seqEnded (K : Noted endNames P) (hs : P s) : P (seqEnded last cause s) :=
  seqEnded_marks (K.mono (by decide)) (K.seqEndShown hs)

theorem get_seqEnded (hf : ([RegName.SEQ_EVT, .FLT_PKG] ++ eventNames).contains f.reg.name = false) :
    (seqEnded last cause s).get f =
      (((s.set SEQ_STAT_STATE seqIdle).set SEQ_STAT_LAST last).set SEQ_STAT_CAUSE cause).get f :=
  (seqEnded_marks (noted_get f _ hf) rfl).trans (get_seqEndShown f)

theorem seqEnded_state (last cause : Nat) (s : State) : (seqEnded last cause s).seqState = seqIdle :=
  (get_seqEnded (f := SEQ_STAT_STATE) rfl).trans <| (State.get_set_apart rfl).trans <| (State.get_set_apart rfl).trans <|
    State.get_set_own rfl rfl

theorem seqEnded_last (h : last < 8) (cause : Nat) (s : State) : (seqEnded last cause s).get SEQ_STAT_LAST = last :=
  (get_seqEnded rfl).trans <| (State.get_set_apart rfl).trans <|
    (State.get_set_same _ SEQ_STAT_LAST last (by decide)).trans (Nat.mod_eq_of_lt h)

theorem seqEnded_cause (h : cause < 8) (last : Nat) (s : State) : (seqEnded last cause s).get SEQ_STAT_CAUSE = cause :=
  (get_seqEnded rfl).trans <| (State.get_set_same _ SEQ_STAT_CAUSE cause (by decide)).trans (Nat.mod_eq_of_lt h)

theorem seqEnded_seq (last cause : Nat) (s : State) : (seqEnded last cause s).seq = { s.seq with stopPend := false } := by
  unfold seqEnded
  dsimp only
  split <;> simp [latchClass, seqEvt, State.raise, State.setBit_eq, State.modSeq]

/-- With no request held and no restart due, the end is all that happens. -/
theorem seqEnd_alone (hheld : s.seq.held = none) (hdue : s.seq.restartDue = false) : seqEnd last cause s = seqEnded last cause s := by
  have hheld' : (seqEnded last cause s).seq.held = none := by rw [seqEnded_seq, hheld]
  have hdue' : (seqEnded last cause s).seq.restartDue = false := by rw [seqEnded_seq, hdue]
  unfold seqEnd tryRestart
  rw [startHeld_none hheld', hdue', Bool.false_and, if_neg Bool.false_ne_true]

theorem seqEnd_within (s : State) : Noted (endNames ++ [RegName.SEQ_CNT]) (fun u => Within s u spanSeq) := noted_within s (by decide)

theorem latchClass_events (c : Nat) (s : State) :
    (latchClass c s).evtSeq = s.evtSeq ∧ (latchClass c s).evtFifo = s.evtFifo := ⟨State.set_evtSeq .., State.set_evtFifo ..⟩

theorem seqFailed_sticky (cause : Nat) (s : State) : (seqEnded 3 cause s).bit SEQ_EVT_EVT 1 = true := by
  rw [seqEnded_failed]
  exact (State.bit_of_get (latchClass_get (by decide) _ _) 1).trans (State.bit_raise_own rfl (by decide) rfl)

theorem seqFailed_latch (cause : Nat) (s : State) : (seqEnded 3 cause s).bit FLT_PKG_LATCH 12 = true := by
  rw [seqEnded_failed]
  exact latchClass_latch (by decide) _

theorem seqFailed_posted (hkeeps : ∀ {P : State → Prop}, Calm (Listed (endNames ++ [RegName.SEQ_CNT])) P → P s → P t)
    (cause : Nat) : Posted s (seqEnded 3 cause t) 0x0701 0 := by
  rw [seqEnded_failed]
  refine Posted.of_events (t := seqEvt 1 (seqEndShown 3 cause t)) ?_ (latchClass_events _ _)
  exact posted_listedRaise (names := endNames ++ [RegName.SEQ_CNT]) (f := SEQ_EVT_EVT)
    (fun K hs => Calm.seqEndShown (K.mono fun _ h => h.mono (by decide)) (hkeeps K hs)) rfl rfl

/-- A failure after calm writes of the sequencer's registers. -/
theorem seqEnd_fails (hkeeps : ∀ {P : State → Prop}, Calm (Listed (endNames ++ [RegName.SEQ_CNT])) P → P s → P t)
    (hheld : t.seq.held = none) (hdue : t.seq.restartDue = false) (hcause : cause < 8) :
    (seqEnd 3 cause t).seqState = seqIdle ∧ (seqEnd 3 cause t).get SEQ_STAT_LAST = 3 ∧ (seqEnd 3 cause t).get SEQ_STAT_CAUSE = cause ∧
      (seqEnd 3 cause t).bit SEQ_EVT_EVT 1 = true ∧ (seqEnd 3 cause t).bit FLT_PKG_LATCH 12 = true ∧
      Posted s (seqEnd 3 cause t) 0x0701 0 ∧ Within s (seqEnd 3 cause t) spanSeq := by
  rw [seqEnd_alone hheld hdue]
  exact ⟨seqEnded_state .., seqEnded_last (by decide) .., seqEnded_cause hcause .., seqFailed_sticky .., seqFailed_latch ..,
    seqFailed_posted hkeeps cause,
    ((seqEnd_within s).mono (by decide)).seqEnded (hkeeps (seqEnd_within s).toCalm (Within.refl s _))⟩

/-- The end of the last step. -/
theorem seqEnd_done (hheld : s.seq.held = none) (hdue : s.seq.restartDue = false) :
    (seqEnd 1 0 s).seqState = seqIdle ∧ (seqEnd 1 0 s).get SEQ_STAT_LAST = 1 ∧ (seqEnd 1 0 s).get SEQ_STAT_CAUSE = 0 ∧
      (seqEnd 1 0 s).bit SEQ_EVT_EVT 0 = true ∧ Posted s (seqEnd 1 0 s) 0x0700 0 ∧ Within s (seqEnd 1 0 s) spanSeq := by
  rw [seqEnd_alone hheld hdue]
  refine ⟨seqEnded_state .., seqEnded_last (by decide) .., seqEnded_cause (by decide) .., ?_, ?_,
    ((seqEnd_within s).mono (by decide)).seqEnded (Within.refl s _)⟩
  · rw [seqEnded_done]
    exact State.bit_raise_own rfl (by decide) rfl
  · rw [seqEnded_done]
    exact posted_listedRaise (names := endNames) (f := SEQ_EVT_EVT) (fun K hs => K.seqEndShown hs) rfl rfl

theorem Within.seq_work (h : Within s t spanSeq) : Within s t spanWork := h.mono (by decide)

/-! ### What may follow an end -/

theorem Noted.beginStep (K : Noted endNames P) (hs : P s) : P (beginStep i s) := by
  have hbegun : P (Machine.stepBegun i s) := Calm.stepBegun (K.toCalm.mono fun _ h => h.mono (by decide)) hs
  exact K.ite hbegun (K.seqEnded hbegun)

theorem Noted.startCore (K : Noted endNames P) (hs : P s) : P (startCore rank q s) := by
  have hshown : P (((s.set SEQ_STAT_CUR q).set SEQ_STAT_RANK rank).set SEQ_STAT_STEP 0) :=
    K.set (f := SEQ_STAT_STEP) rfl <| K.set (f := SEQ_STAT_RANK) rfl <| K.set (f := SEQ_STAT_CUR) rfl hs
  exact K.ite (K.seqEnded hshown) (K.beginStep hshown)

theorem Noted.startHeld (K : Noted endNames P) (hs : P s) : P (startHeld s) := by
  unfold Machine.startHeld
  split
  · exact K.ite (K.startCore <| K.set (f := SEQ_STAT_PEND_SEQ) rfl <| K.set (f := SEQ_STAT_PEND) rfl <| K.modSeq hs) hs
  · exact hs

/-- A step that begins waits, or ends its sequence. -/
theorem beginStep_notActing (i : Nat) (s : State) : (beginStep i s).seqState ≠ seqActing := by
  have hbegin : beginStep i s =
      if (stepBegun i s).stepPresent ((stepBegun i s).get SEQ_STAT_CUR) i then stepBegun i s else seqEnded 3 2 (stepBegun i s) := rfl
  rw [hbegin]
  split
  · rw [stepBegun_state]
    decide
  · rw [seqEnded_state]
    decide

theorem startCore_notActing (rank q : Nat) (s : State) : (startCore rank q s).seqState ≠ seqActing := by
  unfold startCore
  dsimp only
  split
  · rw [seqEnded_state]
    decide
  · exact beginStep_notActing _ _

theorem startHeld_notActing (h : s.seqState ≠ seqActing) : (startHeld s).seqState ≠ seqActing := by
  unfold startHeld
  split
  · split
    · exact startCore_notActing _ _ _
    · exact h
  · exact h

/-- A request that finds no action under way writes what the end of a sequence does. -/
theorem Noted.seqRequest (K : Noted endNames P) (hidle : s.seqState ≠ seqActing) (hs : P s) : P (seqRequest rank q s) := by
  unfold Machine.seqRequest
  rw [if_neg hidle]
  refine K.ite hs <| K.ite (K.startHeld (K.startCore hs)) <| K.ite (K.startHeld (K.startCore (K.seqEnded hs))) <|
    K.ite (K.raise (f := SEQ_EVT_EVT) rfl hs) ?_
  exact K.set (f := SEQ_STAT_PEND_SEQ) rfl <| K.set (f := SEQ_STAT_PEND) rfl <| K.modSeq hs

theorem Noted.tryRestart (K : Noted endNames P) (hidle : s.seqState ≠ seqActing) (hs : P s) : P (tryRestart s) :=
  K.ite (K.seqRequest (s := s.modSeq _) hidle (K.modSeq hs)) hs

theorem Noted.seqEnd (K : Noted endNames P) (hs : P s) : P (seqEnd last cause s) := by
  refine K.tryRestart (startHeld_notActing ?_) (K.startHeld (K.seqEnded hs))
  rw [seqEnded_state]
  decide

end

end Sys2Proof.Machine

/-! Steps and dependencies (R196, R197, R199, R203): O25. -/

namespace Sys2Proof.Machine

section
variable {P : State → Prop} {s t : State}

/-! ### The rows of a step -/

/-- Word `w` of the running step. -/
def State.runWord (s : State) (w : Nat) : Word := s.stepWord (s.get SEQ_STAT_CUR) (s.get SEQ_STAT_STEP) w

/-- Nothing is failed for a step that is still present. -/
theorem State.if_present (h : s.stepLost = false) (a b : State) : (if s.stepLost = true then a else b) = b :=
  if_neg (by rw [h]; exact Bool.false_ne_true)

theorem stepWait_acts (hstate : s.seqState = seqWaiting) (hlost : s.stepLost = false)
    (hmet : s.waitMet (wordGet (s.runWord 0) 0 4) (s.runWord 1) = true)
    (hdeps : s.actDepsMet (wordGet (s.runWord 0) 4 4) (s.runWord 2) = true) :
    ∃ u, exec (.stepWaitSatisfied) s = .next u ∧ u.seqState = seqActing ∧ Silent s u ∧ Frame s u [Fld.off SEQ_STAT_STATE] :=
  ⟨_, congrArg Host.Outcome.next ((s.if_present hlost _ _).trans (if_pos ⟨hstate, hmet, hdeps⟩)),
    State.get_set_own (f := SEQ_STAT_STATE) rfl rfl, (Silent.refl s).set _ _,
    (kept_frame s _).set _ _ List.mem_cons_self (Frame.refl s _)⟩

theorem stepWait_stays (hlost : s.stepLost = false) (hmet : s.waitMet (wordGet (s.runWord 0) 0 4) (s.runWord 1) = false) :
    ∃ u, exec (.stepWaitSatisfied) s = .next u ∧ u = s := by
  refine ⟨_, congrArg Host.Outcome.next ((s.if_present hlost _ _).trans (if_neg fun h => ?_)), rfl⟩
  obtain ⟨-, hyes, -⟩ := h
  exact absurd (hmet.symm.trans hyes) Bool.false_ne_true

/-- A step that has gone absent fails its sequence. -/
theorem stepWait_lost (hlost : s.stepLost = true) (hheld : s.seq.held = none) (hdue : s.seq.restartDue = false) :
    ∃ u, exec (.stepWaitSatisfied) s = .next u ∧ u.seqState = seqIdle ∧ u.get SEQ_STAT_LAST = 3 ∧ u.get SEQ_STAT_CAUSE = 2 ∧
      u.bit SEQ_EVT_EVT 1 = true ∧ u.bit FLT_PKG_LATCH 12 = true ∧ Posted s u 0x0701 0 ∧ Within s u spanSeq :=
  ⟨_, congrArg Host.Outcome.next (if_pos hlost), seqEnd_fails (fun _ hs => hs) hheld hdue (by decide)⟩

/-! ### The end of an action (R197, R199) -/

theorem applyAction_none (h : wordGet (s.runWord 0) 4 4 = 0) : applyAction s = s := by
  unfold applyAction
  dsimp only
  rw [show wordGet (s.stepWord (s.get SEQ_STAT_CUR) (s.get SEQ_STAT_STEP) 0) 4 4 = 0 from h]
  rfl

/-- What follows an action. -/
def actionEnded (s : State) : State :=
  if s.seq.stopPend then seqEnd 4 4 s
  else if s.get SEQ_STAT_STEP + 1 < s.get (SEQ_NSTEP_NSTEP (s.get SEQ_STAT_CUR)) then
    if (beginStep (s.get SEQ_STAT_STEP + 1) s).seqState = seqIdle then tryRestart (startHeld (beginStep (s.get SEQ_STAT_STEP + 1) s))
    else beginStep (s.get SEQ_STAT_STEP + 1) s
  else seqEnd 1 0 s

theorem exec_stepActionDone (h : s.seqState = seqActing) : exec (.stepActionDone) s = .next (actionEnded (applyAction s)) :=
  congrArg Host.Outcome.next (if_pos h)

theorem stepAction_ends (hstate : s.seqState = seqActing) (hkind : wordGet (s.runWord 0) 4 4 = 0)
    (hlast : s.get (SEQ_NSTEP_NSTEP (s.get SEQ_STAT_CUR)) ≤ s.get SEQ_STAT_STEP + 1) (hstop : s.seq.stopPend = false)
    (hheld : s.seq.held = none) (hdue : s.seq.restartDue = false) : ∃ u, exec (.stepActionDone) s = .next u ∧ u.seqState = seqIdle ∧
      u.get SEQ_STAT_LAST = 1 ∧ u.get SEQ_STAT_CAUSE = 0 ∧ u.bit SEQ_EVT_EVT 0 = true ∧ Posted s u 0x0700 0 ∧ Within s u spanSeq := by
  have hend : actionEnded s = seqEnd 1 0 s := by
    unfold actionEnded
    rw [hstop, if_neg Bool.false_ne_true, if_neg (Nat.not_lt.2 hlast)]
  exact ⟨_, (exec_stepActionDone hstate).trans (congrArg _ ((congrArg _ (applyAction_none hkind)).trans hend)), seqEnd_done hheld hdue⟩

theorem stepAction_continues (hstate : s.seqState = seqActing) (hkind : wordGet (s.runWord 0) 4 4 = 0)
    (hmore : s.get SEQ_STAT_STEP + 1 < s.get (SEQ_NSTEP_NSTEP (s.get SEQ_STAT_CUR)))
    (hpresent : s.stepPresent (s.get SEQ_STAT_CUR) (s.get SEQ_STAT_STEP + 1) = true) (hstop : s.seq.stopPend = false) :
    ∃ u, exec (.stepActionDone) s = .next u ∧ u.seqState = seqWaiting ∧ u.get SEQ_STAT_STEP = (s.get SEQ_STAT_STEP + 1) % 64 ∧
      u.seq.links = [] ∧ Silent s u ∧ Within s u spanWork := by
  have hwaits : ¬(stepBegun (s.get SEQ_STAT_STEP + 1) s).seqState = seqIdle := by
    rw [stepBegun_state]
    decide
  have hnext : actionEnded s = stepBegun (s.get SEQ_STAT_STEP + 1) s := by
    unfold actionEnded
    rw [hstop, if_neg Bool.false_ne_true, if_pos hmore, beginStep_present hpresent, if_neg hwaits]
  refine ⟨_, (exec_stepActionDone hstate).trans (congrArg _ ((congrArg _ (applyAction_none hkind)).trans hnext)),
    stepBegun_state .., stepBegun_step .., by rw [stepBegun_seq], .of_events ((calm_events _ _ _).stepBegun ⟨rfl, rfl⟩),
    (seqStat_within s).stepBegun (Within.refl s _)⟩

theorem stepAction_none (h : s.seqState ≠ seqActing) : ∃ u, exec (.stepActionDone) s = .next u ∧ u = s :=
  ⟨_, congrArg Host.Outcome.next (if_neg h), rfl⟩

/-- What follows an action writes what the end of a sequence does. -/
theorem Noted.actionEnded (K : Noted endNames P) (hs : P s) : P (actionEnded s) :=
  K.ite (K.seqEnd hs) <| K.ite
    (K.ite (K.tryRestart (startHeld_notActing (beginStep_notActing _ _)) (K.startHeld (K.beginStep hs))) (K.beginStep hs)) (K.seqEnd hs)

/-- The registers that a VID write sets moving. -/
def vidNames : List RegName := [.PRG_VID, .PRG_RSTAT, .PRG_PH]

theorem Calm.setActive {ok : Fld → Prop} (K : Calm ok P) {r n : Nat} (hph : ∀ k, ok (PRG_PH_PSTATE k)) (hn : ok (PRG_RSTAT_NACT r))
    (hs : P s) : P (setActive r n s) :=
  K.set hn <| foldl_keeps _ _ (fun _ _ _ h => K.set (hph _) h) hs

theorem Calm.vidWritten (K : Calm (Listed [.PRG_RSTAT, .PRG_PH]) P) {r : Nat} (hs : P s) : P (vidWritten r s) :=
  K.ite (K.setActive (fun _ => rfl) rfl <| K.set (f := PRG_RSTAT_DCM r) rfl <| K.set (f := PRG_RSTAT_MOVING r) rfl <|
    K.beside (t := s.modRail r _) hs rfl) hs

theorem applyAction_vid (h : wordGet (s.runWord 0) 4 4 = 3) : applyAction s =
    vidWritten (wordGet (s.runWord 2) 0 5) (s.set (PRG_VID_VID (wordGet (s.runWord 2) 0 5)) (wordGet (s.runWord 2) 16 12)) := by
  unfold applyAction
  dsimp only
  rw [show wordGet (s.stepWord (s.get SEQ_STAT_CUR) (s.get SEQ_STAT_STEP) 0) 4 4 = 3 from h]
  rfl

/-- A VID action writes its rail's VID. -/
theorem stepAction_vid (hstate : s.seqState = seqActing) (hkind : wordGet (s.runWord 0) 4 4 = 3) :
    ∃ u, exec (.stepActionDone) s = .next u ∧ u.get (PRG_VID_VID (wordGet (s.runWord 2) 0 5)) = wordGet (s.runWord 2) 16 12 ∧
      Within s u spanWork := by
  refine ⟨_, (exec_stepActionDone hstate).trans (congrArg _ (congrArg _ (applyAction_vid hkind))), ?_, ?_⟩
  · refine (noted_get _ _ rfl).actionEnded <| (calm_get _ _ fun _ h => h.apart rfl).vidWritten ?_
    exact (State.get_set_same s (PRG_VID_VID _) _ (show 0 + 12 ≤ 32 by decide)).trans (Nat.mod_mod _ _)
  · have W : Noted (endNames ++ vidNames) (fun u => Within s u spanWork) := noted_within s (by decide)
    exact (W.mono (by decide)).actionEnded <| Calm.vidWritten (W.toCalm.mono fun _ h => h.mono (by decide)) <|
      W.set (f := PRG_VID_VID _) rfl (Within.refl s _)

/-! ### The timeout of a step (R199) -/

/-- A timeout is counted and acts anyway. -/
def timeoutActs (s : State) : State := (s.bump SEQ_CNT_TMO_CNT).set SEQ_STAT_STATE seqActing

theorem exec_stepTimeout (hlo : s.pkg_.loRuns = true) (hstate : s.seqState = seqWaiting) (hlost : s.stepLost = false)
    (htmo : wordGet (s.runWord 0) 8 16 ≠ 0) : exec (.stepTimeout) s =
      .next (if wordGet (s.runWord 0) 24 1 = 1 then seqEvt 2 (timeoutActs s) else seqEnd 3 1 (s.bump SEQ_CNT_TMO_CNT)) :=
  congrArg Host.Outcome.next ((s.if_present hlost _ _).trans (if_pos ⟨hstate, htmo, hlo⟩))

theorem stepTimeout_fails (hlo : s.pkg_.loRuns = true) (hstate : s.seqState = seqWaiting) (hlost : s.stepLost = false)
    (htmo : wordGet (s.runWord 0) 8 16 ≠ 0) (hontmo : wordGet (s.runWord 0) 24 1 = 0) (hheld : s.seq.held = none)
    (hdue : s.seq.restartDue = false) : ∃ u, exec (.stepTimeout) s = .next u ∧ u.seqState = seqIdle ∧ u.get SEQ_STAT_LAST = 3 ∧
      u.get SEQ_STAT_CAUSE = 1 ∧ u.get SEQ_CNT_TMO_CNT = satNat SEQ_CNT_TMO_CNT.w (s.get SEQ_CNT_TMO_CNT + 1) ∧
      u.bit SEQ_EVT_EVT 1 = true ∧ u.bit FLT_PKG_LATCH 12 = true ∧ Posted s u 0x0701 0 ∧ Within s u spanWork := by
  have hseq : (s.bump SEQ_CNT_TMO_CNT).seq = s.seq := by rw [State.bump_eq, State.set_seq]
  obtain ⟨hidle, hlast, hcause, hsticky, hlatch, hposted, hwithin⟩ := seqEnd_fails (s := s) (t := s.bump SEQ_CNT_TMO_CNT) (cause := 1)
    (fun K hs => K.set (f := SEQ_CNT_TMO_CNT) rfl hs) (by rw [hseq, hheld]) (by rw [hseq, hdue]) (by decide)
  exact ⟨_, (exec_stepTimeout hlo hstate hlost htmo).trans (congrArg _ (if_neg (by omega))), hidle, hlast, hcause,
    (noted_get SEQ_CNT_TMO_CNT _ rfl).seqEnd (State.get_bump_own rfl), hsticky, hlatch, hposted, hwithin.seq_work⟩

theorem stepTimeout_acts (hlo : s.pkg_.loRuns = true) (hstate : s.seqState = seqWaiting) (hlost : s.stepLost = false)
    (htmo : wordGet (s.runWord 0) 8 16 ≠ 0) (hontmo : wordGet (s.runWord 0) 24 1 = 1) : ∃ u, exec (.stepTimeout) s = .next u ∧
      u.seqState = seqActing ∧ u.get SEQ_CNT_TMO_CNT = satNat SEQ_CNT_TMO_CNT.w (s.get SEQ_CNT_TMO_CNT + 1) ∧
      u.bit SEQ_EVT_EVT 2 = true ∧ Posted s u 0x0702 0 ∧ Within s u spanWork := by
  have hkeeps : ∀ {P : State → Prop}, Calm (Listed (endNames ++ [RegName.SEQ_CNT])) P → P s → P (timeoutActs s) := fun K hs =>
    K.set (f := SEQ_STAT_STATE) rfl <| K.set (f := SEQ_CNT_TMO_CNT) rfl hs
  refine ⟨_, (exec_stepTimeout hlo hstate hlost htmo).trans (congrArg _ (if_pos hontmo)), ?_, ?_, State.bit_raise_own rfl (by decide) rfl,
    posted_listedRaise hkeeps rfl rfl,
    Within.seq_work ((seqEnd_within s).raise (f := SEQ_EVT_EVT) rfl (hkeeps (seqEnd_within s).toCalm (Within.refl s _)))⟩
  · exact (State.get_raise_named (g := SEQ_STAT_STATE) rfl rfl).trans (State.get_set_own rfl rfl)
  · exact (State.get_raise_named rfl rfl).trans <| (State.get_set_apart rfl).trans (State.get_bump_own rfl)

/-! ### The trip of a dependency (R203) -/

/-- A triggered entry trips: its trigger ends, before its response. -/
def depTripped (d : Nat) (s : State) : State :=
  ({ s with depTrig := bitPut s.depTrig d false }.setBit SEQ_EVT_EVT 4 true).pushEvt 0x0704 d 0

theorem exec_depTrip_plain {d : Fin 16} (htrig : bitOf s.depTrig d = true) (hresp : s.get (SEQ_DEP_A_RESP d) = 0) :
    exec (.depTrip d) s = .next (depTripped d s) := by
  refine congrArg Host.Outcome.next ((if_pos htrig).trans ?_)
  rw [hresp]
  rfl

theorem exec_depTrip_starts {d : Fin 16} (htrig : bitOf s.depTrig d = true) (hresp : s.get (SEQ_DEP_A_RESP d) = 2) :
    exec (.depTrip d) s = .next (seqRequest 1 (s.get (SEQ_DEP_A_RSEQ d)) (depTripped d s)) := by
  refine congrArg Host.Outcome.next ((if_pos htrig).trans ?_)
  rw [hresp]
  rfl

theorem Calm.depTripEntered (K : Calm (Listed [.SEQ_EVT]) P) {d : Nat} (hs : P s) :
    P ({ s with depTrig := bitPut s.depTrig d false }.setBit SEQ_EVT_EVT 4 true) :=
  K.set (f := SEQ_EVT_EVT) rfl (K.beside (t := { s with depTrig := bitPut s.depTrig d false }) hs rfl)

theorem Noted.depTripped (K : Noted [.SEQ_EVT] P) {d : Nat} (hs : P s) : P (depTripped d s) :=
  K.push (K.depTripEntered hs)

theorem depTripped_trig (d : Nat) (s : State) : bitOf (depTripped d s).depTrig d = false := by
  unfold depTripped
  rw [State.pushEvt_depTrig, State.setBit_eq, State.set_depTrig, bitOf_bitPut, if_pos rfl]

theorem depTripped_sticky (d : Nat) (s : State) : (depTripped d s).bit SEQ_EVT_EVT 4 = true :=
  (State.bit_of_get (State.get_pushEvt_named _ _ _ _ rfl) 4).trans (State.bit_setBit_same _ true (by decide) (by decide))

theorem seqEvt_within (s : State) : Noted [.SEQ_EVT] (fun u => Within s u spanWork) := noted_within s (by decide)

theorem depTrip_trips {d : Fin 16} (htrig : bitOf s.depTrig d = true) (hresp : s.get (SEQ_DEP_A_RESP d) = 0) :
    ∃ u, exec (.depTrip d) s = .next u ∧ bitOf u.depTrig d = false ∧ u.bit SEQ_EVT_EVT 4 = true ∧ Posted s u 0x0704 d ∧
      Within s u spanWork :=
  ⟨_, exec_depTrip_plain htrig hresp, depTripped_trig d s, depTripped_sticky d s,
    posted_listedPush (names := [.SEQ_EVT]) (fun K hs => K.depTripEntered hs) rfl _ _ _,
    (seqEvt_within s).depTripped (Within.refl s _)⟩

/-- The response of an entry starts its sequence at rank 1. -/
theorem depTrip_starts {d : Fin 16} (htrig : bitOf s.depTrig d = true) (hresp : s.get (SEQ_DEP_A_RESP d) = 2)
    (hstarts : s.Starts (s.get (SEQ_DEP_A_RSEQ d))) : ∃ u, exec (.depTrip d) s = .next u ∧ bitOf u.depTrig d = false ∧
      u.seqState = seqWaiting ∧ u.get SEQ_STAT_CUR = s.get (SEQ_DEP_A_RSEQ d) ∧ u.get SEQ_STAT_RANK = 1 ∧ Within s u spanWork := by
  have hseq : (depTripped d s).seq = s.seq := by
    unfold depTripped
    rw [State.pushEvt_seq, State.setBit_eq, State.set_seq]
  have hstarts' : (depTripped d s).Starts (s.get (SEQ_DEP_A_RSEQ d)) :=
    hstarts.of_noted (fun K hs => K.depTripped hs) (by decide) (by rw [hseq]; exact ⟨rfl, rfl⟩)
  have htrig' : (seqStarted 1 (s.get (SEQ_DEP_A_RSEQ d)) (depTripped d s)).depTrig = (depTripped d s).depTrig := by
    unfold seqStarted stepBegun State.modSeq
    simp only [State.set_depTrig]
  refine ⟨_, (exec_depTrip_starts htrig hresp).trans (congrArg _ (seqRequest_starts hstarts' 1)), ?_, seqStarted_state ..,
    seqStarted_cur hstarts.slot .., seqStarted_rank (by decide) ..,
    (seqStat_within s).seqStarted ((seqEvt_within s).depTripped (Within.refl s _))⟩
  rw [htrig']
  exact depTripped_trig d s

theorem depTrip_rests {d : Fin 16} (h : bitOf s.depTrig d = false) : ∃ u, exec (.depTrip d) s = .next u ∧ u = s :=
  ⟨_, congrArg Host.Outcome.next (if_neg (by rw [h]; exact Bool.false_ne_true)), rfl⟩

end

/-- Settles O25: each row by its own lemma, the ends of a sequence by `seqEnd_fails` and `seqEnd_done`. -/
theorem sequenceSteps : Obligations.SequenceSteps := by
  unfold Obligations.SequenceSteps
  refine ⟨fun _ => stepWait_acts, fun _ _ => stepWait_stays, fun _ => stepWait_lost, fun _ => stepAction_ends,
    fun _ => stepAction_continues, fun _ => stepTimeout_fails, fun _ => stepTimeout_acts,
    fun _ hstate hkind _ => stepAction_vid hstate hkind, fun _ => stepAction_none, fun _ _ => depTrip_trips,
    fun d s htrig hresp hact hidle hsteps hpresent hheld => ?_, fun _ _ => depTrip_rests⟩
  exact depTrip_starts htrig hresp ⟨hact, hidle, hsteps, hpresent, hheld, s.get_lt (SEQ_DEP_A_RSEQ d)⟩

end Sys2Proof.Machine

/-! A rail leaves SAFE (R209), and is enabled again (R172, R222). -/

namespace Sys2Proof.Machine

/-! ### What a rail holds beside its registers -/

section
variable {s t : State} {r q : Nat} {g : RailInt → RailInt}

theorem bankGet_bankMod_other {α : Type} {n i j : Nat} [Inhabited α] (v : Vector α n) (f : α → α) (hj : j < n) (h : i ≠ j) :
    bankGet (bankMod v i f) j = bankGet v j := by
  unfold bankGet bankMod
  simp [hj, h]

theorem State.railOf_modRail (hr : r < 24) (g : RailInt → RailInt) (s : State) : (s.modRail r g).railOf r = g (s.railOf r) :=
  bankGet_bankMod_same _ _ hr

theorem State.railOf_modRail_other (hr : r < 24) (h : q ≠ r) (g : RailInt → RailInt) (s : State) :
    (s.modRail q g).railOf r = s.railOf r := bankGet_bankMod_other _ _ hr h

theorem State.railOf_of_rail (h : t.rail = s.rail) (r : Nat) : t.railOf r = s.railOf r := congrArg (bankGet · r) h

theorem State.get_modRail (s : State) (r : Nat) (g : RailInt → RailInt) (f : Fld) : (s.modRail r g).get f = s.get f := rfl

end

/-! ### A rail without a running phase -/

/-- The fields written as a rail runs no phase: its own, and the states of its phases. -/
def IdleFld (r : Nat) (f : Fld) : Prop := f ∈ restFlds r ∨ ∃ k, f = PRG_PH_PSTATE k

/-- The fields that show a rail's holds. -/
def HoldFld (f : Fld) : Prop := f.reg.name = .PRG_FM_STAT ∨ ∃ q, f = FLT_RSTAT_GRP_HELD q

/-- The fields written as a rail that has left SAFE comes to rest. -/
def SettleFld (r : Nat) (f : Fld) : Prop := IdleFld r f ∨ f = FLT_RETRY_WAIT r ∨ HoldFld f

section
variable {P : State → Prop} {s t : State} {r q : Nat} {f g : Fld} {ph : Nat}

theorem IdleFld.apart (h : IdleFld r f) (hlist : ∀ e ∈ restFlds r, e.Apart g) (hphase : ∀ k, (PRG_PH_PSTATE k).Apart g) :
    f.Apart g := by
  rcases h with h | ⟨k, rfl⟩
  · exact hlist f h
  · exact hphase k

theorem HoldFld.apart (h : HoldFld f) (hname : g.reg.name ≠ .PRG_FM_STAT) (hgrp : ∀ q, (FLT_RSTAT_GRP_HELD q).Apart g) :
    f.Apart g := by
  rcases h with h | ⟨q, rfl⟩
  · exact Fld.apart_of_name fun e => hname (e ▸ h)
  · exact hgrp q

theorem SettleFld.apart (h : SettleFld r f) (hidle : IdleFld r f → f.Apart g) (hwait : (FLT_RETRY_WAIT r).Apart g)
    (hhold : HoldFld f → f.Apart g) : f.Apart g := by
  rcases h with h | rfl | h
  · exact hidle h
  · exact hwait
  · exact hhold h

/-- The registers they stand in. -/
def settleNames : List RegName := [.PRG_RSTAT, .FLT_RSTAT, .PRG_PH, .FLT_RETRY, .PRG_FM_STAT]

theorem SettleFld.name (h : SettleFld r f) : Listed settleNames f := by
  rcases h with (h | ⟨k, rfl⟩) | rfl | h | ⟨q, rfl⟩
  · simp only [restFlds, List.mem_cons, List.not_mem_nil, or_false] at h
    rcases h with rfl | rfl | rfl | rfl | rfl <;> rfl
  · rfl
  · rfl
  · unfold Listed
    rw [h]
    rfl
  · rfl

theorem Calm.railInternal {ok : Fld → Prop} (K : Calm ok P) {g : RailInt → RailInt} (hs : P s) : P (s.modRail q g) := K.beside hs rfl

theorem Calm.regionInternal {ok : Fld → Prop} (K : Calm ok P) {p : Nat} {g : PrgInt → PrgInt} (hs : P s) : P (s.modPrg p g) :=
  K.beside hs rfl

theorem Calm.phaseStates (K : Calm (IdleFld r) P) (hs : P s) : P (Machine.setPhases r ph s) :=
  foldl_keeps _ _ (fun _ _ _ h => K.set (.inr ⟨_, rfl⟩) h) hs

theorem Calm.restWrite (K : Calm (IdleFld r) P) {v : Nat} (hf : f ∈ restFlds r) (hs : P s) : P (s.set f v) := K.set (.inl hf) hs

/-- The writes of `railIdle`, those of its phases' states among them. -/
theorem Calm.railIdles (K : Calm (IdleFld r) P) (hs : P s) : P (Machine.railIdle r ph s) := by
  unfold Machine.railIdle Machine.railUnregulated
  exact K.phaseStates <| K.restWrite (by simp [restFlds]) <| K.restWrite (by simp [restFlds]) <| K.restWrite (by simp [restFlds]) <|
    K.restWrite (by simp [restFlds]) <| K.restWrite (by simp [restFlds]) <| K.railInternal <| K.regionInternal hs

theorem setPhases_rail (r ph : Nat) (s : State) : (setPhases r ph s).rail = s.rail :=
  foldl_keeps (P := fun t => t.rail = s.rail) _ _ (fun _ _ _ h => (State.set_rail ..).trans h) rfl

theorem railIdle_railOf (hr : r < 24) (ph : Nat) (s : State) : (railIdle r ph s).railOf r = { s.railOf r with perStart := none } := by
  have hrail : (railIdle r ph s).rail = (s.modRail r (fun x => { x with perStart := none })).rail := by
    unfold railIdle railUnregulated
    rw [setPhases_rail]
    simp only [State.set_rail, State.setBit_eq]
    rfl
  exact (State.railOf_of_rail hrail r).trans (State.railOf_modRail hr _ s)

/-! ### A rail leaves SAFE -/

/-- A rail's state and EN as it leaves SAFE. -/
def safeLeft (r : Nat) (s : State) : State := (s.set (PRG_RSTAT_STATE r) railOff).set (PRG_RCTL_EN r) 0

/-- The GROUP holds of a rail on the others of its region end. -/
def holdsEnded (r : Nat) (s : State) : State :=
  s.each 6 (fun j s => showHold (6 * (r / 6) + j) (s.modRail (6 * (r / 6) + j) (fun x => { x with grpBy := bitPut x.grpBy (r % 6) false })))

/-- Its phases are idle and its retry is over. -/
def safeSettled (r : Nat) (s : State) : State :=
  ((((railIdle r phIdle s).setBit (PRG_FM_STAT_SAFE (r / 6)) (r % 6) false).set (FLT_RETRY_WAIT r) 0).modRail r
    (fun x => { x with retryDue := false }))

theorem leaveSafe_eq (r : Nat) (s : State) : leaveSafe r s = (holdsEnded r (safeSettled r (safeLeft r s))).pushEvt 0x0709 r 0 := rfl

theorem Calm.showHold (K : Calm HoldFld P) (hs : P s) : P (Machine.showHold q s) :=
  K.set (f := PRG_FM_STAT_GRP_HELD (q / 6)) (.inl rfl) <| K.set (f := FLT_RSTAT_GRP_HELD q) (.inr ⟨q, rfl⟩) hs

theorem Calm.holdsEnded (K : Calm HoldFld P) (hs : P s) : P (Machine.holdsEnded r s) :=
  State.each_keeps 6 _ (fun _ _ _ h => K.showHold (K.railInternal h)) hs

theorem Calm.safeSettled (K : Calm (SettleFld r) P) (hs : P s) : P (Machine.safeSettled r s) :=
  K.railInternal <| K.set (f := FLT_RETRY_WAIT r) (.inr (.inl rfl)) <|
    K.set (f := PRG_FM_STAT_SAFE (r / 6)) (.inr (.inr (.inl rfl))) <| Calm.railIdles (K.mono fun _ => .inl) hs

theorem Calm.settled (K : Calm (SettleFld r) P) (hs : P s) : P (Machine.holdsEnded r (Machine.safeSettled r s)) :=
  Calm.holdsEnded (K.mono fun _ h => .inr (.inr h)) (K.safeSettled hs)

/-- The registers of a rail that leaves SAFE. -/
def leaveNames : List RegName := settleNames ++ [.PRG_RCTL]

theorem SettleFld.listed (h : SettleFld r f) : Listed leaveNames f := h.name.mono (by decide)

theorem Calm.safeEntered (K : Calm (Listed leaveNames) P) (hs : P s) :
    P (Machine.holdsEnded r (Machine.safeSettled r (Machine.safeLeft r s))) :=
  Calm.settled (K.mono fun _ => SettleFld.listed) <| K.set (f := PRG_RCTL_EN r) rfl <| K.set (f := PRG_RSTAT_STATE r) rfl hs

theorem Noted.leaveSafe (K : Noted leaveNames P) (hs : P s) : P (leaveSafe r s) := K.push (K.toCalm.safeEntered hs)

/-- A field apart from what settles is as it was entered. -/
theorem get_leaveSafe (hg : ∀ f, SettleFld r f → f.Apart g) (hevt : eventNames.contains g.reg.name = false) :
    (leaveSafe r s).get g = (safeLeft r s).get g :=
  (State.get_pushEvt_named _ _ _ _ hevt).trans ((calm_get g _ hg).settled rfl)

theorem settle_apart_of_name (hg : settleNames.contains g.reg.name = false) : ∀ f, SettleFld r f → f.Apart g := fun _ hf =>
  hf.name.apart hg

/-- The fields that settle, one of each kind. -/
def settleFlds (r k q : Nat) : List Fld := restFlds r ++ [PRG_PH_PSTATE k, FLT_RETRY_WAIT r, FLT_RSTAT_GRP_HELD q]

/-- A field apart from each of them, by computation. -/
theorem settle_apart (hflds : ∀ k q, (settleFlds r k q).all (Fld.apartFrom · g) = true) (hname : g.reg.name ≠ .PRG_FM_STAT) :
    ∀ f, SettleFld r f → f.Apart g := by
  have happart : ∀ k q, ∀ e ∈ settleFlds r k q, e.Apart g := fun k q e he =>
    Fld.apart_of_apartFrom (List.all_eq_true.1 (hflds k q) e he)
  intro f hf
  refine hf.apart (fun h => h.apart (fun e he => ?_) fun k => ?_) ?_ fun h => h.apart hname fun q => ?_
  · exact happart 0 0 e (List.mem_append_left _ he)
  · exact happart k 0 _ (by simp [settleFlds])
  · exact happart 0 0 _ (by simp [settleFlds])
  · exact happart 0 q _ (by simp [settleFlds])

end

end Sys2Proof.Machine

/-! Release, retry and RAIL_SET (R209, R222, R278): O21. -/

namespace Sys2Proof.Machine

section
variable {P : State → Prop} {s t : State} {r q : Nat} {f g : Fld}

/-! ### A rail that has left SAFE -/

theorem leaveSafe_state (r : Nat) (s : State) : (leaveSafe r s).railState r = railOff :=
  (get_leaveSafe (g := PRG_RSTAT_STATE r) (settle_apart (fun _ _ => rfl) (show RegName.PRG_RSTAT ≠ .PRG_FM_STAT by decide)) rfl).trans <|
    (State.get_set_apart rfl).trans (State.get_set_own rfl rfl)

theorem leaveSafe_en (r : Nat) (s : State) : (leaveSafe r s).get (PRG_RCTL_EN r) = 0 :=
  (get_leaveSafe (settle_apart_of_name rfl) rfl).trans (State.get_set_own rfl rfl)

theorem leaveSafe_wait (r : Nat) (s : State) : (leaveSafe r s).get (FLT_RETRY_WAIT r) = 0 := by
  have hholds : Calm HoldFld (fun t => t.get (FLT_RETRY_WAIT r) = 0) := calm_get _ _ fun f hf =>
    hf.apart (show RegName.FLT_RETRY ≠ .PRG_FM_STAT by decide) fun _ => Fld.apart_of_apartFrom rfl
  rw [leaveSafe_eq, State.get_pushEvt_named _ _ _ _ rfl]
  exact hholds.holdsEnded ((State.get_modRail ..).trans (State.get_set_own rfl rfl))

theorem get_safeLeft (hstate : (PRG_RSTAT_STATE r).apartFrom g = true) (hen : (PRG_RCTL_EN r).apartFrom g = true) :
    (safeLeft r s).get g = s.get g := (State.get_set_apart hen).trans (State.get_set_apart hstate)

/-- Another field of the rail, apart from all that is written. -/
theorem leaveSafe_other (hflds : ∀ k q, (settleFlds r k q).all (Fld.apartFrom · g) = true) (hname : g.reg.name ≠ .PRG_FM_STAT)
    (hstate : (PRG_RSTAT_STATE r).apartFrom g = true) (hen : (PRG_RCTL_EN r).apartFrom g = true)
    (hevt : eventNames.contains g.reg.name = false) : (leaveSafe r s).get g = s.get g :=
  (get_leaveSafe (settle_apart hflds hname) hevt).trans (get_safeLeft hstate hen)

theorem showHold_rail (q : Nat) (s : State) : (showHold q s).rail = s.rail := by
  unfold showHold
  simp only [State.setBit_eq, State.put_eq, State.set_rail]

/-- What the end of its holds on others leaves a rail of its own. -/
theorem holdsEnded_railOf (hr : r < 24) {A : RailInt → Prop} (hA : ∀ (x : RailInt) i, A x → A { x with grpBy := bitPut x.grpBy i false })
    (hs : A (s.railOf r)) : A ((holdsEnded r s).railOf r) := by
  refine State.each_keeps (P := fun t => A (t.railOf r)) 6 _ (fun j _ t ht => ?_) hs
  rw [State.railOf_of_rail (showHold_rail ..)]
  by_cases hq : 6 * (r / 6) + j = r
  · rw [hq, State.railOf_modRail hr]
    exact hA _ _ ht
  · rwa [State.railOf_modRail_other hr hq]

theorem safeSettled_railOf (hr : r < 24) (s : State) :
    (safeSettled r s).railOf r = { s.railOf r with perStart := none, retryDue := false } := by
  have hrail : ((((railIdle r phIdle s).setBit (PRG_FM_STAT_SAFE (r / 6)) (r % 6) false).set (FLT_RETRY_WAIT r) 0)).rail =
      (railIdle r phIdle s).rail := by simp only [State.setBit_eq, State.set_rail]
  unfold safeSettled
  rw [State.railOf_modRail hr, State.railOf_of_rail hrail, railIdle_railOf hr]

theorem safeLeft_railOf (r : Nat) (s : State) : (safeLeft r s).railOf r = s.railOf r :=
  State.railOf_of_rail (by unfold safeLeft; simp only [State.set_rail]) r

theorem leaveSafe_railOf (r : Nat) (s : State) :
    (leaveSafe r s).railOf r = (holdsEnded r (safeSettled r (safeLeft r s))).railOf r := State.railOf_of_rail (State.pushEvt_rail ..) r

theorem leaveSafe_retryDue (hr : r < 24) (s : State) : ((leaveSafe r s).railOf r).retryDue = false := by
  rw [leaveSafe_railOf]
  refine holdsEnded_railOf (A := fun x => x.retryDue = false) hr (fun _ _ h => h) ?_
  rw [safeSettled_railOf hr]

theorem leaveSafe_posted (r : Nat) (s : State) : Posted s (leaveSafe r s) 0x0709 r := by
  rw [leaveSafe_eq]
  exact posted_listedPush (names := leaveNames) (fun K hs => K.safeEntered hs) rfl _ _ _

theorem leave_within (s : State) : Noted leaveNames (fun u => Within s u spanWork) := noted_within s (by decide)

/-! ### RAIL_RELEASE -/

theorem railRelease_leaves {r : Fin 24} (hsafe : s.railState r = railSafe) (hlatch : s.get (FLT_RSTAT_LATCH r) = 0)
    (hfree : s.railBlocked r = false) : ∃ u, exec (.railRelease r) s = .next u ∧ u.railState r = railOff ∧
      u.get (PRG_RCTL_EN r) = 0 ∧ u.get (FLT_RETRY_WAIT r) = 0 ∧ (u.railOf r).retryDue = false ∧ Posted s u 0x0709 r ∧
      Within s u spanWork :=
  ⟨_, congrArg Host.Outcome.next (if_pos ⟨hsafe, hlatch, by rw [hfree]; rfl⟩), leaveSafe_state .., leaveSafe_en .., leaveSafe_wait ..,
    leaveSafe_retryDue r.isLt s, leaveSafe_posted r s, (leave_within s).leaveSafe (Within.refl s _)⟩

theorem railRelease_blocked {r : Fin 24} (hblock : s.railBlocked r = true) : ∃ u, exec (.railRelease r) s = .next u ∧ u = s := by
  refine ⟨_, congrArg Host.Outcome.next (if_neg fun h => ?_), rfl⟩
  obtain ⟨-, -, hfree⟩ := h
  rw [hblock] at hfree
  cases hfree

/-! ### The retry (R209, R222) -/

theorem retryDue_waits {r : Fin 24} (hsafe : s.railState r = railSafe) (hdue : (s.railOf r).retryDue = true)
    (hblock : s.railBlocked r = true) : ∃ u, exec (.retryDue r) s = .next u ∧ u.get (FLT_RETRY_WAIT r) = 1 ∧
      u.railState r = railSafe ∧ (u.railOf r).retryDue = true ∧ Silent s u ∧ Frame s u [Fld.off (FLT_RETRY_WAIT r)] := by
  have hexec : exec (.retryDue r) s = .next (s.set (FLT_RETRY_WAIT r) 1) :=
    congrArg Host.Outcome.next ((if_pos ⟨hsafe, hdue⟩).trans (if_pos hblock))
  refine ⟨_, hexec, State.get_set_own rfl rfl, (State.get_set_apart (g := PRG_RSTAT_STATE r) rfl).trans hsafe, ?_,
    (Silent.refl s).set _ _, (kept_frame s _).set _ _ List.mem_cons_self (Frame.refl s _)⟩
  rwa [State.railOf_of_rail (State.set_rail ..)]

/-- With no hold by a GROUP or a FAULT_IN, a rail that leaves SAFE shows none. -/
theorem holdsEnded_grpHeld (hr : r < 24) (hgrp : (s.railOf r).grpBy = 0) (hfin : (s.railOf r).finBy = 0) :
    (holdsEnded r s).get (FLT_RSTAT_GRP_HELD r) = 0 := by
  have hput : bitPut 0 (r % 6) false = 0 := if_pos (by simp [bitOf])
  have hq : 6 * (r / 6) + r % 6 = r := by omega
  have hother : ∀ {j : Nat}, j ≠ r % 6 → 6 * (r / 6) + j ≠ r := by omega
  have hshown : ∀ t : State, (t.railOf r).grpBy = 0 → (t.railOf r).finBy = 0 → (showHold r t).get (FLT_RSTAT_GRP_HELD r) = 0 := by
    intro t h1 h2
    unfold showHold
    dsimp only
    rw [h1, h2]
    exact (State.get_set_apart rfl).trans (State.get_put_own _ rfl rfl)
  refine State.each_at _ (A := fun t => (t.railOf r).grpBy = 0 ∧ (t.railOf r).finBy = 0) (B := fun t => t.get (FLT_RSTAT_GRP_HELD r) = 0)
    (Nat.mod_lt r (by decide)) (fun j t hj ht => ?_) (fun t ht => ?_) (fun j t hj ht => ?_) ⟨hgrp, hfin⟩
  · rwa [State.railOf_of_rail (showHold_rail ..), State.railOf_modRail_other hr (hother hj)]
  · rw [hq]
    refine hshown _ ?_ ?_
    · rw [State.railOf_modRail hr, ht.1, hput]
    · rw [State.railOf_modRail hr]
      exact ht.2
  · have hne : (FLT_RSTAT_GRP_HELD (6 * (r / 6) + j)).reg ≠ (FLT_RSTAT_GRP_HELD r).reg := by
      intro e
      injection e with _ hi
      exact hother hj hi
    exact (State.get_set_apart rfl).trans <| (State.get_set_ne _ _ _ _ hne).trans <| (State.get_modRail ..).trans ht

theorem leaveSafe_grpHeld (hr : r < 24) (hgrp : (s.railOf r).grpBy = 0) (hfin : (s.railOf r).finBy = 0) :
    (leaveSafe r s).get (FLT_RSTAT_GRP_HELD r) = 0 := by
  rw [leaveSafe_eq, State.get_pushEvt_named _ _ _ _ rfl]
  refine holdsEnded_grpHeld hr ?_ ?_
  · rw [safeSettled_railOf hr, safeLeft_railOf]
    exact hgrp
  · rw [safeSettled_railOf hr, safeLeft_railOf]
    exact hfin

theorem State.phasesOf_of_gets (h : ∀ k, t.get (PRG_PH_RAIL k) = s.get (PRG_PH_RAIL k)) (r : Nat) : t.phasesOf r = s.phasesOf r := by
  unfold State.phasesOf
  simp only [h]

/-- The registers that decide whether a CBP entry holds a rail back. -/
def depNames : List RegName := [.SEQ_DEP_A, .SEQ_DEP_B, .OUT_STAT, .GLB_DIE]

theorem State.clkqAtP_of_gets (h : ∀ f, Listed depNames f → t.get f = s.get f) (n : Nat) : t.clkqAtP n = s.clkqAtP n := by
  unfold State.clkqAtP
  rw [State.on_of_get (h (OUT_STAT_CLKQ n) rfl), State.linked_of_get (h GLB_DIE_ISOLATED rfl)]

theorem State.depBlocksRail_of_gets (h : ∀ f, Listed depNames f → t.get f = s.get f) (r : Nat) :
    t.depBlocksRail r = s.depBlocksRail r := by
  have hclkq : t.clkqAtP = s.clkqAtP := funext (State.clkqAtP_of_gets h)
  refine List.any_congr rfl fun d => ?_
  unfold State.depSatisfied State.depUnits
  rw [State.on_of_get (h (SEQ_DEP_A_EN d) rfl), State.on_of_get (h (SEQ_DEP_A_KIND d) rfl), State.bit_of_get (h (SEQ_DEP_B_RMASK d) rfl),
    h (SEQ_DEP_A_UMASK d) rfl, h (SEQ_DEP_A_T d) rfl, hclkq]
  cases s.on (SEQ_DEP_A_KIND d)
  · rfl
  · simp only [Bool.not_true, Bool.and_false, Bool.false_and]

/-! ### The enable of a rail that is OFF (R172) -/

/-- An OFF rail is in START, with its phases active and in DCM. -/
def railStarted (r : Nat) (s : State) : State :=
  setActive r (s.nasg r) (((s.set (PRG_RSTAT_STATE r) railStart).modRail r (fun x => { x with enWait := true, target := 0 })).set
    (PRG_RSTAT_DCM r) 1)

theorem railEnable_off (h : s.railState r = railOff) : railEnable r s = railStarted r s := by
  unfold railEnable railStarted
  dsimp only
  rw [h, if_pos (.inl rfl)]
  simp only [if_true]

theorem Calm.railStarted (K : Calm (Listed [.PRG_RSTAT, .PRG_PH]) P) (hs : P s) : P (railStarted r s) :=
  K.setActive (fun _ => rfl) rfl <| K.set (f := PRG_RSTAT_DCM r) rfl <| K.railInternal <| K.set (f := PRG_RSTAT_STATE r) rfl hs

theorem get_railStarted (hf : [RegName.PRG_RSTAT, .PRG_PH].contains f.reg.name = false) : (railStarted r s).get f = s.get f :=
  (calm_get f _ fun _ h => h.apart hf).railStarted rfl

theorem railStarted_state (r : Nat) (s : State) : (railStarted r s).railState r = railStart := by
  have K : Calm (fun f => f.reg.name = .PRG_PH ∨ f = PRG_RSTAT_NACT r) (fun t => t.railState r = railStart) :=
    calm_get (PRG_RSTAT_STATE r) railStart fun f hf => by
      rcases hf with hf | rfl
      · exact Fld.apart_of_name (by rw [hf]; exact (by decide : RegName.PRG_PH ≠ .PRG_RSTAT))
      · exact Fld.apart_of_apartFrom rfl
  refine K.setActive (fun _ => .inl rfl) (.inr rfl) ?_
  exact (State.get_set_apart (g := PRG_RSTAT_STATE r) rfl).trans <| (State.get_modRail ..).trans (State.get_set_own rfl rfl)

theorem setActive_rail (r n : Nat) (s : State) : (setActive r n s).rail = s.rail := by
  unfold setActive
  rw [State.set_rail]
  exact foldl_keeps (P := fun t => t.rail = s.rail) _ _ (fun _ _ _ h => (State.set_rail ..).trans h) rfl

theorem railStarted_railOf (hr : r < 24) (s : State) :
    (railStarted r s).railOf r = { s.railOf r with enWait := true, target := 0 } := by
  have hset : (s.set (PRG_RSTAT_STATE r) railStart).railOf r = s.railOf r := State.railOf_of_rail (State.set_rail ..) r
  unfold railStarted
  rw [State.railOf_of_rail ((setActive_rail ..).trans (State.set_rail ..)), State.railOf_modRail hr, hset]

/-- The rail of a due retry, released. -/
def retryLeft (r : Nat) (s : State) : State := leaveSafe r (s.set (FLT_RSTAT_LATCH r) 0)

/-- EN and LEFT as a retry writes them. -/
def retrySet (r : Nat) (s : State) : State :=
  ((retryLeft r s).set (PRG_RCTL_EN r) 1).set (FLT_RETRY_LEFT r) (s.get (FLT_RETRY_LEFT r) - 1)

theorem get_retryLeft (hflds : ∀ k q, (settleFlds r k q).all (Fld.apartFrom · g) = true) (hname : g.reg.name ≠ .PRG_FM_STAT)
    (hstate : (PRG_RSTAT_STATE r).apartFrom g = true) (hen : (PRG_RCTL_EN r).apartFrom g = true)
    (hlatch : (FLT_RSTAT_LATCH r).apartFrom g = true) (hevt : eventNames.contains g.reg.name = false) :
    (retryLeft r s).get g = s.get g :=
  (leaveSafe_other hflds hname hstate hen hevt).trans (State.get_set_apart hlatch)

theorem retryLeft_mayEnable (hr : r < 24) (hfree : s.railBlocked r = false) (hgrp : (s.railOf r).grpBy = 0)
    (hfin : (s.railOf r).finBy = 0) (hph : s.phasesOf r ≠ []) (hdep : s.depBlocksRail r = false) :
    (retryLeft r s).railMayEnable r = true := by
  unfold State.railBlocked State.railHeld at hfree
  simp only [Bool.or_eq_false_iff] at hfree
  obtain ⟨-, ⟨-, hpkg⟩, hsup⟩ := hfree
  have hphases : (retryLeft r s).phasesOf r = s.phasesOf r :=
    State.phasesOf_of_gets (fun k => get_retryLeft (fun _ _ => rfl) (by decide : RegName.PRG_PH ≠ .PRG_FM_STAT) rfl rfl rfl rfl) r
  have hstate : (retryLeft r s).railState r = railOff := leaveSafe_state ..
  have hgrpHeld : (retryLeft r s).on (FLT_RSTAT_GRP_HELD r) = false := by
    have hrail : (s.set (FLT_RSTAT_LATCH r) 0).railOf r = s.railOf r := State.railOf_of_rail (State.set_rail ..) r
    exact State.on_eq_false (leaveSafe_grpHeld hr (by rwa [hrail]) (by rwa [hrail]))
  have hpkgHeld : (retryLeft r s).on (FLT_RSTAT_PKG_HELD r) = false := (State.on_of_get (get_retryLeft (fun _ _ => rfl)
    (by decide : RegName.FLT_RSTAT ≠ .PRG_FM_STAT) rfl rfl rfl rfl)).trans hpkg
  have hsupHeld : (retryLeft r s).on (FLT_RSTAT_SUP_HELD r) = false := (State.on_of_get (get_retryLeft (fun _ _ => rfl)
    (by decide : RegName.FLT_RSTAT ≠ .PRG_FM_STAT) rfl rfl rfl rfl)).trans hsup
  have hdepNames : ∀ n ∈ depNames, (leaveNames ++ eventNames).contains n = false := by decide
  have hblocks : (retryLeft r s).depBlocksRail r = false :=
    (State.depBlocksRail_of_gets (fun f hf => (noted_get f _ (hdepNames _ (List.contains_iff_mem.1 hf))).leaveSafe
      (State.get_set_ne _ _ _ _ (Reg.ne_of_name fun e => by
        unfold Listed at hf
        rw [← e] at hf
        exact absurd hf (by decide : ¬depNames.contains .FLT_RSTAT = true)))) r).trans hdep
  unfold State.railMayEnable State.railHeld State.nasg
  rw [hphases, hstate, hgrpHeld, hpkgHeld, hsupHeld, hblocks]
  simpa using ⟨hph, (by decide : ¬railOff = railSafe)⟩

theorem retryDue_enables {r : Fin 24} (hsafe : s.railState r = railSafe) (hdue : (s.railOf r).retryDue = true)
    (hfree : s.railBlocked r = false) (hgrp : (s.railOf r).grpBy = 0) (hfin : (s.railOf r).finBy = 0) (hph : s.phasesOf r ≠ [])
    (hdep : s.depBlocksRail r = false) : ∃ u, exec (.retryDue r) s = .next u ∧ u.railState r = railStart ∧
      u.get (PRG_RCTL_EN r) = 1 ∧ u.get (FLT_RETRY_LEFT r) = s.get (FLT_RETRY_LEFT r) - 1 ∧ u.get (FLT_RSTAT_LATCH r) = 0 ∧
      (u.railOf r).retryDue = false ∧ Within s u spanWork := by
  have hoff : (retrySet r s).railState r = railOff :=
    (State.get_set_apart (g := PRG_RSTAT_STATE r) rfl).trans <|
      (State.get_set_apart (f := PRG_RCTL_EN r) rfl).trans (leaveSafe_state r (s.set (FLT_RSTAT_LATCH r) 0))
  have hexec : exec (.retryDue r) s = .next (railStarted r (retrySet r s)) :=
    congrArg Host.Outcome.next <| (if_pos ⟨hsafe, hdue⟩).trans <| (if_neg (by rw [hfree]; exact Bool.false_ne_true)).trans <|
      (if_pos (retryLeft_mayEnable r.isLt hfree hgrp hfin hph hdep)).trans (railEnable_off hoff)
  have hlatch : (retryLeft r s).get (FLT_RSTAT_LATCH r) = 0 :=
    (leaveSafe_other (fun _ _ => rfl) (by decide : RegName.FLT_RSTAT ≠ .PRG_FM_STAT) rfl rfl rfl).trans (State.get_set_own rfl rfl)
  have hlatch' : (railStarted r (retrySet r s)).get (FLT_RSTAT_LATCH r) = 0 :=
    (get_railStarted rfl).trans <| (State.get_set_apart rfl).trans <| (State.get_set_apart rfl).trans hlatch
  have hleft := s.get_lt (FLT_RETRY_LEFT r)
  have hset : (retrySet r s).railOf r = (retryLeft r s).railOf r :=
    State.railOf_of_rail (by unfold retrySet; simp only [State.set_rail]) r
  refine ⟨_, hexec, railStarted_state .., (get_railStarted rfl).trans ?_, (get_railStarted rfl).trans ?_, hlatch', ?_, ?_⟩
  · exact (State.get_set_apart rfl).trans (State.get_set_own rfl rfl)
  · exact (State.get_set_same _ (FLT_RETRY_LEFT r) _ (show 16 + 3 ≤ 32 by decide)).trans (Nat.mod_eq_of_lt (by omega))
  · rw [railStarted_railOf r.isLt, hset]
    exact leaveSafe_retryDue r.isLt _
  · have W := leave_within s
    exact Calm.railStarted (W.toCalm.mono fun _ h => h.mono (by decide)) <| W.set (f := FLT_RETRY_LEFT r) rfl <|
      W.set (f := PRG_RCTL_EN r) rfl <| W.leaveSafe <| W.set (f := FLT_RSTAT_LATCH r) rfl (Within.refl s _)

theorem retryReload_loads {r : Fin 24} (hpg : s.on (PRG_RSTAT_PG r) = true) : ∃ u, exec (.retryReload r) s = .next u ∧
    u.get (FLT_RETRY_LEFT r) = s.get (FLT_RETRY_RETRY r) ∧ Silent s u ∧ Frame s u [Fld.off (FLT_RETRY_LEFT r)] :=
  ⟨_, congrArg Host.Outcome.next (if_pos hpg),
    (State.get_set_same s (FLT_RETRY_LEFT r) _ (show 16 + 3 ≤ 32 by decide)).trans (Nat.mod_eq_of_lt (s.get_lt (FLT_RETRY_RETRY r))),
    (Silent.refl s).set _ _, (kept_frame s _).set _ _ List.mem_cons_self (Frame.refl s _)⟩

end

end Sys2Proof.Machine

/-! RAIL_SET (R278) and the settlement of O21. -/

namespace Sys2Proof.Machine

section
variable {P : State → Prop} {s t : State} {v : CmdVia} {r : Nat} {f : Fld} {old new : Word}

/-! ### The writes of EN and VID by the host -/

theorem rail_regRctl (r : Nat) : (regRctl r).rail = r := Nat.div_add_mod r 6

theorem rail_regVid (r : Nat) : (regVid r).rail = r := Nat.div_add_mod r 6

/-- No rule but the legal values judges a write of VID by the host. -/
theorem accepts_regVid (s : State) (r : Nat) (new : Word) : s.accepts .host (regVid r) new = (regVid r).legalWord new := by
  have hrule : blockRule .host (regVid r) (s.word (regVid r)) new s = true := by rfl
  unfold State.accepts
  rw [hrule, Bool.and_true]

/-- Beside them, the rule of the rails judges one of EN. -/
theorem accepts_regRctl (s : State) (r : Nat) (new : Word) : s.accepts .host (regRctl r) new =
    ((regRctl r).legalWord new && prgRule (regRctl r) (s.word (regRctl r)) new s) := by
  have hrule : blockRule .host (regRctl r) (s.word (regRctl r)) new s = (prgRule (regRctl r) (s.word (regRctl r)) new s && true && true &&
      true && true && true && true && true && true) := by rfl
  unfold State.accepts
  rw [hrule]
  simp only [Bool.and_true]

theorem applyWrite_regVid (r : Nat) (new : Word) (s : State) : applyWrite .host (regVid r) new s =
    vidWritten (regVid r).rail (s.setWord (regVid r) ((regVid r).stored new (s.word (regVid r)))) := by rfl

theorem applyWrite_regRctl (r : Nat) (new : Word) (s : State) : applyWrite .host (regRctl r) new s =
    prgAfter (regRctl r) (s.word (regRctl r)) new (s.setWord (regRctl r) ((regRctl r).stored new (s.word (regRctl r)))) := by rfl

/-- A field that is read and written holds what was written. -/
theorem State.get_stored {q : Reg} (hf : f.reg = q) {g : FieldSpec} (hg : g ∈ q.fields) (hacc : g.acc = .rw) (hlo : g.lo = f.lo)
    (hw : g.w = f.w) (s : State) (new old : Word) : (s.setWord q (q.stored new old)).get f = wordGet new f.lo f.w := by
  unfold State.get
  rw [hf, State.word_setWord_same, ← hlo, ← hw]
  exact accessCodesOfFields.1 q g new old hg (.inl hacc)

/-- A rail that is OFF is started by the write that raises its EN. -/
theorem prgAfter_starts (hold : wordGet old 0 1 = 0) (hnew : wordGet new 0 1 = 1) (hoff : s.railState r = railOff) :
    prgAfter (regRctl r) old new s = railStarted r s := by
  have hstart : ¬(railStarted r s).railState r = railRegulating := by
    rw [railStarted_state]
    decide
  have henable : (if wordGet old 0 1 = 0 ∧ wordGet new 0 1 = 1 then railEnable r s else if wordGet new 0 1 = 0 then railDisable r s else s)
      = railStarted r s := (if_pos ⟨hold, hnew⟩).trans (railEnable_off hoff)
  unfold prgAfter
  rw [rail_regRctl, show (regRctl r).name = .PRG_RCTL from rfl]
  dsimp only
  rw [henable, if_neg hstart]

/-! ### What the command sees on its way in -/

theorem cmdEntry_get_named (hf : f.reg.name ≠ .MGT_MBX_CTL) : (cmdEntry v s).get f = s.get f := by
  cases v with
  | ring => rfl
  | mbx k => exact mbxTake_keeps (kept_get f _) (Reg.ne_of_name (Ne.symm hf)) rfl

theorem cmdEntry_word {q : Reg} (hq : q.name ≠ .MGT_MBX_CTL) : (cmdEntry v s).word q = s.word q :=
  State.word_of_get (cmdEntry_get_named hq)

theorem railMayEnable_of_gets (hph : ∀ k, t.get (PRG_PH_RAIL k) = s.get (PRG_PH_RAIL k)) (hstate : t.railState r = s.railState r)
    (hheld : ∀ f : Fld, f.reg.name = .FLT_RSTAT → t.get f = s.get f) (hdep : t.depBlocksRail r = s.depBlocksRail r) :
    t.railMayEnable r = s.railMayEnable r := by
  unfold State.railMayEnable State.railHeld State.nasg
  rw [State.phasesOf_of_gets hph, hstate, hdep, State.on_of_get (hheld (FLT_RSTAT_GRP_HELD r) rfl),
    State.on_of_get (hheld (FLT_RSTAT_PKG_HELD r) rfl), State.on_of_get (hheld (FLT_RSTAT_SUP_HELD r) rfl)]

theorem cmdEntry_accepts_regRctl (v : CmdVia) (s : State) (r : Nat) (new : Word) :
    (cmdEntry v s).accepts .host (regRctl r) new = s.accepts .host (regRctl r) new := by
  have hname : ∀ n ∈ depNames, n ≠ .MGT_MBX_CTL := by decide
  have hdep : (cmdEntry v s).depBlocksRail r = s.depBlocksRail r :=
    State.depBlocksRail_of_gets (fun f hf => cmdEntry_get_named (hname _ (List.contains_iff_mem.1 hf))) r
  have hmay : (cmdEntry v s).railMayEnable r = s.railMayEnable r :=
    railMayEnable_of_gets (fun k => cmdEntry_get_named (show RegName.PRG_PH ≠ .MGT_MBX_CTL by decide))
      (cmdEntry_get_named (f := PRG_RSTAT_STATE r) (show RegName.PRG_RSTAT ≠ .MGT_MBX_CTL by decide))
      (fun f hf => cmdEntry_get_named (by rw [hf]; decide)) hdep
  have hrule : ∀ t : State, prgRule (regRctl r) (t.word (regRctl r)) new t =
      (decide (wordGet new 0 1 = 0) || (!t.depBlocksRail (regRctl r).rail &&
        (decide (wordGet (t.word (regRctl r)) 0 1 = 1) || t.railMayEnable (regRctl r).rail))) := fun _ => rfl
  rw [accepts_regRctl, accepts_regRctl, hrule, hrule, rail_regRctl, hdep, hmay,
    cmdEntry_word (show RegName.PRG_RCTL ≠ .MGT_MBX_CTL by decide)]

/-! ### The command -/

theorem exec_railSet (v : CmdVia) (q : BitVec 5) (wen en wvid : Bool) (x : BitVec 12) (s : State) : exec (.railSet v q wen en wvid x) s =
    .next (directCmd v 0x30 (onDie dieP (cmdRailSet q.toNat wen en wvid x.toNat)) s) := rfl

theorem toNat_rail (r : Fin 24) : (BitVec.ofNat 5 r.val).toNat = r.val := by
  rw [BitVec.toNat_ofNat]
  omega

/-- RAIL_SET with EN alone. -/
theorem cmdRailSet_en (hr : r < 24) (hacc : s.accepts .host (regRctl r) (wordSet (s.word (regRctl r)) 0 1 1) = true) (vid : Nat) :
    cmdRailSet r true true false vid s = cmdOk (applyWrite .host (regRctl r) (wordSet (s.word (regRctl r)) 0 1 1) s) := by
  unfold regRctl at *
  unfold cmdRailSet
  simp only [hr, hacc, decide_true, Bool.true_or, Bool.not_false, Bool.not_true, Bool.false_or, Bool.and_self, if_true,
    Bool.false_eq_true, if_false]

/-- RAIL_SET with VID alone. -/
theorem cmdRailSet_vid (hr : r < 24) {vid : Nat} (hacc : s.accepts .host (regVid r) (BitVec.ofNat 32 vid) = true) :
    cmdRailSet r false true true vid s = cmdOk (applyWrite .host (regVid r) (BitVec.ofNat 32 vid) s) := by
  unfold regVid at *
  unfold cmdRailSet
  simp only [hr, hacc, decide_true, Bool.false_or, Bool.true_or, Bool.not_false, Bool.not_true, Bool.and_self, if_true,
    Bool.false_eq_true, if_false]

theorem cmdRailSet_nothing (rail : Nat) (en : Bool) (vid : Nat) (s : State) :
    cmdRailSet rail false en false vid s = cmdIgnored s := by
  refine if_neg ?_
  simp only [Bool.or_false, Bool.and_false, Bool.false_and]
  exact Bool.false_ne_true

/-- A rail's registers lie in the span of the power regions. -/
theorem prg_off_bounds (f : Fld) (hr : r < 24) (hf : f.reg = ⟨f.reg.name, r / 6, r % 6, 0⟩)
    (hn : [RegName.PRG_RCTL, .PRG_VID, .PRG_RSTAT].contains f.reg.name = true) : 0x10000 ≤ f.off ∧ f.off < 0x80000 := by
  have hrows : ∀ n ∈ [RegName.PRG_RCTL, .PRG_VID, .PRG_RSTAT], (n.row.n1 = 4 ∧ n.row.n2 = 6 ∧ n.row.n3 = 1) ∧
      0x10000 ≤ n.row.base ∧ n.top < 0x80000 := by decide
  obtain ⟨⟨h1, h2, h3⟩, hlo, hhi⟩ := hrows _ (List.contains_iff_mem.1 hn)
  have hreal : f.reg.real = true := by
    rw [hf]
    simp only [Reg.real, h1, h2, h3, Bool.and_eq_true, decide_eq_true_eq]
    omega
  obtain ⟨hbase, htop⟩ := Reg.off_bounds hreal
  exact ⟨Nat.le_trans hlo hbase, Nat.lt_of_le_of_lt htop hhi⟩

/-- The registers that RAIL_SET writes. -/
def railSetNames : List RegName := [.PRG_RCTL, .PRG_VID, .PRG_RSTAT, .PRG_PH]

theorem within_setWord (h : Within s t (spanMgt ++ spanWork)) {q : Reg} (hq : railSetNames.contains q.name = true) (w : Word) :
    Within s (t.setWord q w) (spanMgt ++ spanWork) := by
  have hnames : ∀ n ∈ railSetNames, n.within (spanMgt ++ spanWork) = true := by decide
  exact (kept_within_names s _).word _ _ _ (.inl (hnames _ (List.contains_iff_mem.1 hq))) h

theorem railSet_within (s : State) : Calm (Listed [.PRG_RSTAT, .PRG_PH]) (fun u => Within s u (spanMgt ++ spanWork)) :=
  (noted_within s (by decide)).toCalm

/-- The word that raises EN. -/
def enWord (r : Nat) (s : State) : Word := wordSet (s.word (regRctl r)) 0 1 1

/-- EN of a rail as the command stores it. -/
def enStored (v : CmdVia) (r : Nat) (s : State) : State :=
  (cmdEntry v s).setWord (regRctl r) ((regRctl r).stored (enWord r s) (s.word (regRctl r)))

/-- VID of a rail as the command stores it. -/
def vidStored (v : CmdVia) (r x : Nat) (s : State) : State :=
  (cmdEntry v s).setWord (regVid r) ((regVid r).stored (BitVec.ofNat 32 x) ((cmdEntry v s).word (regVid r)))

theorem enWord_en (r : Nat) (s : State) : wordGet (enWord r s) 0 1 = 1 := wordGet_wordSet _ 0 1 1 (by decide)

theorem enStored_en (v : CmdVia) (r : Nat) (s : State) : (enStored v r s).get (PRG_RCTL_EN r) = 1 :=
  (State.get_stored (f := PRG_RCTL_EN r) rfl (g := ⟨0, 1, .rw, .sh, []⟩) (by exact List.mem_cons_self) rfl rfl rfl _ _ _).trans
    (enWord_en r s)

theorem enStored_state (v : CmdVia) (r : Nat) (s : State) : (enStored v r s).railState r = s.railState r :=
  ((kept_get (PRG_RSTAT_STATE r) _).word _ _ _ (Reg.ne_of_name (show RegName.PRG_RCTL ≠ .PRG_RSTAT by decide)) rfl).trans <|
    cmdEntry_get_named (show RegName.PRG_RSTAT ≠ .MGT_MBX_CTL by decide)

theorem vidStored_vid (v : CmdVia) (r : Nat) (x : BitVec 12) (s : State) : (vidStored v r x.toNat s).get (PRG_VID_VID r) = x.toNat := by
  have hx := x.isLt
  have hlow : wordGet (BitVec.ofNat 32 x.toNat) 0 12 = x.toNat := by
    unfold wordGet
    rw [BitVec.toNat_ofNat]
    omega
  exact (State.get_stored (f := PRG_VID_VID r) rfl (g := ⟨0, 12, .rw, .sh, [(0, 0xa78)]⟩) (by exact List.mem_cons_self) rfl rfl rfl
    _ _ _).trans hlow

theorem vidStored_en (v : CmdVia) (r x : Nat) (s : State) : (vidStored v r x s).get (PRG_RCTL_EN r) = s.get (PRG_RCTL_EN r) :=
  ((kept_get (PRG_RCTL_EN r) _).word _ _ _ (Reg.ne_of_name (show RegName.PRG_VID ≠ .PRG_RCTL by decide)) rfl).trans
    (cmdEntry_get_named (show RegName.PRG_RCTL ≠ .MGT_MBX_CTL by decide))

/-- RAIL_SET raises EN of a rail that is OFF. -/
theorem railSet_enables {r : Fin 24} (htake : s.takesCmd v = true) (hiso : s.isolated dieP = false)
    (hacc : s.accepts .host (regRctl r) (wordSet (s.word (regRctl r)) 0 1 1) = true) (hen : s.get (PRG_RCTL_EN r) = 0)
    (hoff : s.railState r = railOff) : ∃ u, exec (.railSet v (BitVec.ofNat 5 r) true true false 0) s = .next u ∧
      u.get (PRG_RCTL_EN r) = 1 ∧ u.railState r = railStart ∧ u.host.lastStatus = stOk ∧ Posts s u (viaEvt v) ∧
      Within s u (spanMgt ++ spanWork) := by
  have hword : (cmdEntry v s).word (regRctl r) = s.word (regRctl r) := cmdEntry_word (show RegName.PRG_RCTL ≠ .MGT_MBX_CTL by decide)
  have hstart : prgAfter (regRctl r) (s.word (regRctl r)) (enWord r s) (enStored v r s) = railStarted r (enStored v r s) :=
    prgAfter_starts hen (enWord_en r s) ((enStored_state v r s).trans hoff)
  have hg : onDie dieP (cmdRailSet (BitVec.ofNat 5 r.val).toNat true true false (0 : BitVec 12).toNat) (cmdEntry v s) =
      cmdOk (railStarted r (enStored v r s)) := by
    rw [onDie_run ((cmdEntry_isolated v s dieP).trans hiso), toNat_rail,
      cmdRailSet_en r.isLt (by rwa [hword, cmdEntry_accepts_regRctl]), applyWrite_regRctl, hword]
    exact congrArg cmdOk hstart
  obtain ⟨u, hu, hget, hst, hposts, hwithin⟩ := okCommand (op := 0x30) htake hg
    ((calm_events _ _ _).railStarted (s := enStored v r s) (cmdEntry_events v s))
  exact ⟨u, (exec_railSet ..).trans (congrArg _ hu),
    (hget _ (prg_off_bounds (PRG_RCTL_EN r) r.isLt rfl rfl)).trans <| (get_railStarted rfl).trans (enStored_en v r s),
    (hget _ (prg_off_bounds (PRG_RSTAT_STATE r) r.isLt rfl rfl)).trans (railStarted_state ..), hst, hposts,
    hwithin _ ((railSet_within s).railStarted (within_setWord (cmdEntry_within v s spanWork) rfl _))⟩

/-- RAIL_SET writes VID. -/
theorem railSet_writesVid {r : Fin 24} {x : BitVec 12} (htake : s.takesCmd v = true) (hiso : s.isolated dieP = false)
    (hacc : s.accepts .host (regVid r) (BitVec.ofNat 32 x.toNat) = true) :
    ∃ u, exec (.railSet v (BitVec.ofNat 5 r) false true true x) s = .next u ∧ u.get (PRG_VID_VID r) = x.toNat ∧
      u.get (PRG_RCTL_EN r) = s.get (PRG_RCTL_EN r) ∧ u.host.lastStatus = stOk ∧ Posts s u (viaEvt v) ∧
      Within s u (spanMgt ++ spanWork) := by
  have hg : onDie dieP (cmdRailSet (BitVec.ofNat 5 r.val).toNat false true true x.toNat) (cmdEntry v s) =
      cmdOk (vidWritten r (vidStored v r x.toNat s)) := by
    rw [onDie_run ((cmdEntry_isolated v s dieP).trans hiso), toNat_rail,
      cmdRailSet_vid r.isLt (by rwa [accepts_regVid] at hacc ⊢), applyWrite_regVid, rail_regVid]
    rfl
  obtain ⟨u, hu, hget, hst, hposts, hwithin⟩ := okCommand (op := 0x30) htake hg
    ((calm_events _ _ _).vidWritten (s := vidStored v r x.toNat s) (cmdEntry_events v s))
  have hvid : ∀ f : Fld, [RegName.PRG_RSTAT, .PRG_PH].contains f.reg.name = false →
      (vidWritten r (vidStored v r x.toNat s)).get f = (vidStored v r x.toNat s).get f := fun f hf =>
    (calm_get f _ fun _ h => h.apart hf).vidWritten rfl
  exact ⟨u, (exec_railSet ..).trans (congrArg _ hu),
    (hget _ (prg_off_bounds (PRG_VID_VID r) r.isLt rfl rfl)).trans <| (hvid _ rfl).trans (vidStored_vid v r x s),
    (hget _ (prg_off_bounds (PRG_RCTL_EN r) r.isLt rfl rfl)).trans <| (hvid _ rfl).trans (vidStored_en ..), hst, hposts,
    hwithin _ ((railSet_within s).vidWritten (within_setWord (cmdEntry_within v s spanWork) rfl _))⟩

/-- RAIL_SET with neither asked for. -/
theorem railSet_nothing {q : BitVec 5} {x : BitVec 12} (htake : s.takesCmd .ring = true) (hiso : s.isolated dieP = false) :
    ∃ u, exec (.railSet .ring q false true false x) s = .next u ∧ u.host.lastStatus = stIgnored ∧
      u.get GLB_IGNORED_CNT_CNT = satNat 32 (s.get GLB_IGNORED_CNT_CNT + 1) ∧ u.get GLB_IGNORED_LAST_S_SOURCE = 2 ∧ Silent s u ∧
      Frame s u ignoredOffs := by
  have hg : onDie dieP (cmdRailSet q.toNat false true false x.toNat) (cmdEntry .ring s) = cmdIgnored (cmdEntry .ring s) :=
    (onDie_run hiso).trans (cmdRailSet_nothing ..)
  obtain ⟨u, hu, hst, hcnt, hsrc, -, hframe⟩ := refusedCommand (op := 0x30) htake hg
  refine ⟨u, (exec_railSet ..).trans (congrArg _ hu), hst, hcnt, hsrc, ?_, by simpa only [viaOffs, List.append_nil] using hframe⟩
  rw [← hu, directCmd_eq htake (by rw [hg]; exact (by decide : stIgnored ≠ stDeferred)), hg]
  exact .of_events (cmdHeld_events .ring (cmdIgnored s))

end

/-- Settles O21: the release and the retry by what leaving SAFE writes, and RAIL_SET by the writes of EN and VID. -/
theorem railReleaseAndRetry : Obligations.RailReleaseAndRetry := by
  unfold Obligations.RailReleaseAndRetry
  exact ⟨fun _ _ => railRelease_leaves, fun _ _ _ hblock => railRelease_blocked hblock, fun _ _ => retryDue_waits,
    fun _ _ => retryDue_enables, fun _ _ => retryReload_loads, fun _ _ _ => railSet_enables, fun _ _ _ _ => railSet_writesVid,
    fun _ _ _ => railSet_nothing⟩

end Sys2Proof.Machine

/-! Writes of the LNK registers by an engine of an isolated T-die to another die's port, or to the system agent on the C-die, are dropped
(R22, R23): four claims about the links that do not hold for it. -/

namespace Sys2Proof.Machine

/-- The hub is its system's grandmaster, and so of the tree, when T-die 0 is isolated while ENG4 on it runs on. -/
def isolatedEngineGmState : State := isolatedEngineState.set LNK_SYS_STAT_STATE sysGm

/-- ENG4 on the isolated T-die 0 reaches no register of the system agent. -/
theorem writeReg_isolatedEngineGm {r : Reg} (w : Word) (hr : dieOfOff r.off = dieC) :
    writeReg (.eng 4) r w isolatedEngineGmState = isolatedEngineGmState :=
  writeReg_of_unlinked (by decide) (by rw [hr]; decide)

/-- Refutes O42: EN of port 2, on T-die 1, is raised by ENG4 on the isolated T-die 0, and the port stays DISABLED. -/
theorem not_linkPortsTrainRiseAndFall : ¬ Obligations.LinkPortsTrainRiseAndFall := by
  rintro ⟨enable, -⟩
  obtain ⟨u, hu, hen, -⟩ := enable (.eng 4) 2 0 isolatedEngineState (by decide) (by decide)
  obtain rfl : isolatedEngineState = u := by
    rw [← writeReg_isolatedEngine (r := ⟨.LNK_CTL, 2, 0, 0⟩) (wordSet 0 0 1 1) (by decide)]
    injection hu
  exact absurd hen (by decide)

/-- Refutes O43: the time of day that ENG4 on the isolated T-die 0 writes on the grandmaster is never held for the next epoch. -/
theorem not_linkMarksTimeAndMessages : ¬ Obligations.LinkMarksTimeAndMessages := by
  rintro ⟨-, -, -, -, -, -, -, -, -, -, -, todSet, -⟩
  obtain ⟨u, hu, hheld, -⟩ := todSet (.eng 4) 0 isolatedEngineGmState (by decide)
  obtain rfl : isolatedEngineGmState = u := by
    rw [← writeReg_isolatedEngineGm (r := ⟨.LNK_TOD_SET_HI, 0, 0, 0⟩) 0 rfl]
    injection hu
  exact absurd hheld (by decide)

/-- Refutes O44: the JOIN by which ENG4 on the isolated T-die 0 is to make the grandmaster leave is dropped, and the hub stays GM. -/
theorem not_systemElection : ¬ Obligations.SystemElection := by
  rintro ⟨-, -, -, -, -, -, -, -, -, -, -, -, leave⟩
  obtain ⟨u, hu, hleft, -⟩ := leave (.eng 4) 0 isolatedEngineGmState (by decide)
  obtain rfl : isolatedEngineGmState = u := by
    rw [← writeReg_isolatedEngineGm (r := ⟨.LNK_SYS_CTL, 0, 0, 0⟩) (wordSet 0 1 1 1) rfl]
    injection hu
  exact absurd hleft (by decide)

/-- Refutes O45: GO written by ENG4 on the isolated T-die 0 starts no remote access, and BUSY stays 0. -/
theorem not_remoteAccessAndSystemEvents : ¬ Obligations.RemoteAccessAndSystemEvents := by
  rintro ⟨-, -, -, -, go, -⟩
  obtain ⟨u, hu, hbusy, -⟩ := go (.eng 4) 0 isolatedEngineGmState (by decide) (by decide) (by decide)
  obtain rfl : isolatedEngineGmState = u := by
    rw [← writeReg_isolatedEngineGm (r := ⟨.LNK_RMT_CTL, 0, 0, 0⟩) (wordSet 0 0 1 1) rfl]
    injection hu
  exact absurd hbusy (by decide)

end Sys2Proof.Machine

/-! The values of an offer after the hop (R248): in the offer registers of the port that receives it, and in those of the hub that takes it
as its uplink offer. What follows the taking writes other registers, which the two lists of names tell apart. -/

namespace Sys2Proof.Machine

/-! ### What shows a port, the system choice and an answer -/

/-- The registers that show a port's role and offer (R260). -/
def portNames : List RegName := [.LNK_STAT, .LNK_OFR_LAT, .LNK_OFR_PH]

/-- They, the system choices of the regions and the sticky bits of the system events (R247, R259). -/
def treeNames : List RegName := portNames ++ [.PLZ_SEL_SYS, .LNK_SYS_EVT]

/-- They, and the registers that show the hub's place in the tree and its grandmaster (R260, R261). -/
def uplinkNames : List RegName := treeNames ++ [.LNK_SYS_STAT, .LNK_GM_LO, .LNK_GM_HI, .LNK_GM_INFO, .LNK_ACC_LAT, .LNK_ACC_PH]

/-- The fields that show port `k`. -/
def PortFld (k : Nat) (f : Fld) : Prop := Listed portNames f ∧ f.reg.i = k

/-- The role of a port and whether it has an offer that counts are shown. -/
def roleShown (k : Nat) (s : State) : State := (s.set (LNK_STAT_ROLE k) (s.portRole k)).put (LNK_STAT_OFFER k) (s.countingOffer k).isSome

/-- The values after the hop are shown for a port. -/
def offerShown (k : Nat) (v : Nat × Nat × Nat) (s : State) : State :=
  ((s.set (LNK_OFR_LAT_ACC_LAT k) (satNat 32 v.1)).set (LNK_OFR_PH_ACC_PH k) (satNat 16 v.2.1)).set (LNK_OFR_PH_HOPS k) (satNat 16 v.2.2)

/-- One port is shown. -/
def portShown (k : Nat) (s : State) : State :=
  match (s.lnkOf k).offer with
  | some o => offerShown k (s.afterHop k o) (roleShown k s)
  | none => roleShown k s

theorem showPorts_eq (s : State) : showPorts s = s.each 4 portShown := rfl

section
variable {ok : Fld → Prop} {P : State → Prop} {s : State} {k : Nat}

theorem Calm.roleShown (K : Calm (PortFld k) P) (hs : P s) : P (roleShown k s) := K.set ⟨rfl, rfl⟩ <| K.set ⟨rfl, rfl⟩ hs

theorem Calm.offerShown (K : Calm (PortFld k) P) {v : Nat × Nat × Nat} (hs : P s) : P (offerShown k v s) :=
  K.set ⟨rfl, rfl⟩ <| K.set ⟨rfl, rfl⟩ <| K.set ⟨rfl, rfl⟩ hs

theorem Calm.portShown (K : Calm (PortFld k) P) (hs : P s) : P (portShown k s) := by
  unfold Machine.portShown
  split
  · exact K.offerShown <| K.roleShown hs
  · exact K.roleShown hs

theorem Calm.showPorts (K : Calm (Listed portNames) P) (hs : P s) : P (showPorts s) := by
  refine s.each_keeps 4 Machine.portShown (fun k _ t h => ?_) hs
  have hport : Calm (PortFld k) P := K.mono fun _ => And.left
  exact hport.portShown h

theorem Calm.showSys (K : Calm (Listed [.PLZ_SEL_SYS]) P) (hs : P s) : P (showSys s) := by
  refine s.each_keeps 4 _ (fun t _ u h => ?_) hs
  have hnone : P (u.set (PLZ_SEL_SYS_SYS_VALID t) 0) := K.set rfl h
  have hshown : ∀ {x : Nat}, P ((u.set (PLZ_SEL_SYS_SYS_IDX t) x).set (PLZ_SEL_SYS_SYS_VALID t) 1) := K.set rfl <| K.set rfl h
  refine K.ite (K.ite ?_ (K.ite hshown hnone)) h
  split
  · exact K.ite hshown hnone
  · exact hnone

/-- A message only leaves, or waits to leave. -/
theorem Calm.sendMessage (K : Calm ok P) {m : List Byte} (hs : P s) : P (sendMessage k m s) := by
  refine K.ite (State.each_keeps _ _ (fun _ _ t h => ?_) hs) (K.beside hs rfl)
  exact K.beside h rfl

theorem Calm.sendUp (K : Calm ok P) {m : Nat → List Byte} (hs : P s) : P (sendUp m s) := by
  refine State.each_keeps 4 _ (fun _ _ t h => ?_) hs
  exact t.when_keeps _ _ (fun _ h1 => K.sendMessage h1) h

theorem Calm.noteLink (K : Calm ok P) {code : Nat} (hs : P s) : P (noteLink code s) := K.ite (K.beside hs rfl) hs

end

/-! ### An offer is received -/

section
variable {s : State}

theorem State.get_set_sat {f : Fld} {v : Nat} (h : Nat.ble (f.lo + f.w) 32 = true) (hv : v < 2 ^ f.w) :
    (s.set f (satNat f.w v)).get f = v := by
  have hsat : satNat f.w v = v := by
    unfold satNat
    omega
  rw [hsat, State.get_set_same _ _ _ (Nat.le_of_ble_eq_true h), Nat.mod_eq_of_lt hv]

theorem PortFld.apart {i : Nat} {f g : Fld} (h : PortFld i f) (hne : i ≠ g.reg.i) : f.Apart g :=
  .inl fun e => hne (h.2 ▸ congrArg Reg.i e)

theorem portShown_lnk (k : Nat) (s : State) : (portShown k s).lnk = s.lnk := by
  unfold portShown offerShown roleShown
  split <;> simp only [State.put_eq, State.set_lnk]

/-- A port that is shown leaves the values after the hop of every port as they are. -/
theorem portShown_afterHop (i k : Nat) (o : Offer) (s : State) : (portShown i s).afterHop k o = s.afterHop k o := by
  have hkept : ∀ f : Fld, portNames.contains f.reg.name = false → (portShown i s).get f = s.get f := fun f hf =>
    (calm_get f _ fun _ h => h.1.apart hf).portShown rfl
  unfold State.afterHop
  rw [hkept _ rfl, hkept _ rfl]

/-- Port `k` shows the values `v`. -/
def State.ShowsOffer (s : State) (k : Nat) (v : Nat × Nat × Nat) : Prop :=
  s.get (LNK_OFR_LAT_ACC_LAT k) = v.1 ∧ s.get (LNK_OFR_PH_ACC_PH k) = v.2.1 ∧ s.get (LNK_OFR_PH_HOPS k) = v.2.2

theorem offerShown_shows {k : Nat} {v : Nat × Nat × Nat} (hlat : v.1 < 2 ^ 32) (hph : v.2.1 < 2 ^ 16) (hhops : v.2.2 < 2 ^ 16) :
    (offerShown k v s).ShowsOffer k v :=
  ⟨((State.get_set_apart rfl).trans (State.get_set_apart rfl)).trans (State.get_set_sat rfl hlat),
    (State.get_set_apart rfl).trans (State.get_set_sat rfl hph), State.get_set_sat rfl hhops⟩

/-- Every port shows the values after the hop of its offer, where they fit. -/
theorem showPorts_shows {k : Nat} {o : Offer} (hk : k < 4) (hoffer : (s.lnkOf k).offer = some o) (hlat : (s.afterHop k o).1 < 2 ^ 32)
    (hph : (s.afterHop k o).2.1 < 2 ^ 16) (hhops : (s.afterHop k o).2.2 < 2 ^ 16) :
    (showPorts s).ShowsOffer k (s.afterHop k o) := by
  rw [showPorts_eq]
  refine State.each_at portShown (A := fun t => t.lnk = s.lnk ∧ t.afterHop k o = s.afterHop k o)
    (B := fun t => t.ShowsOffer k (s.afterHop k o)) hk (fun i t _ h => ?_) (fun t h => ?_) (fun i t hi h => ?_) ⟨rfl, rfl⟩
  · exact ⟨(portShown_lnk i t).trans h.1, (portShown_afterHop i k o t).trans h.2⟩
  · have ht : (t.lnkOf k).offer = some o := by
      unfold State.lnkOf at hoffer ⊢
      rwa [h.1]
    unfold portShown
    rw [ht, ← h.2]
    rw [← h.2] at hlat hph hhops
    exact offerShown_shows hlat hph hhops
  · have hkept : ∀ f : Fld, f.reg.i = k → (portShown i t).get f = t.get f := fun f hf =>
      (calm_get f _ fun _ hport => hport.apart (hf ▸ hi)).portShown rfl
    unfold State.ShowsOffer
    rw [hkept _ rfl, hkept _ rfl, hkept _ rfl]
    exact h

/-- The offer of an ANNOUNCE is held for its port, and its GM_SEQ noted. -/
def offerHeld (k : Nat) (o : Offer) (s : State) : State :=
  (noteSeq o.gm o.seq s).modLnk k (fun x => { x with reverse := false, offer := some o })

theorem offerHeld_regs (k : Nat) (o : Offer) (s : State) : (offerHeld k o s).regs = s.regs := by
  unfold offerHeld noteSeq
  split <;> rfl

theorem offerHeld_offer {k : Nat} (hk : k < 4) (o : Offer) (s : State) : ((offerHeld k o s).lnkOf k).offer = some o :=
  congrArg LnkInt.offer (bankGet_bankMod_same _ _ hk)

theorem offerHeld_within (k : Nat) (o : Offer) (s : State) (spans : List (Nat × Nat)) : Within s (offerHeld k o s) spans := by
  refine (kept_within s spans).rest s _ (offerHeld_regs ..) ?_ (Within.refl s spans)
  unfold offerHeld noteSeq
  split <;> exact .refl s

/-- A hub outside the tree holds an ANNOUNCE's offer and shows it. -/
theorem exec_announceRx_waiting {k : Fin 4} {gm : BitVec 64} {prio1 prio2 : Byte} {cls : BitVec 2} {seq hops : BitVec 16} {lat : Word}
    {ph blat bph : BitVec 16} (hup : s.portUp k = true) (hstate : s.sysState = sysDetached ∨ s.sysState = sysListening) :
    ∃ o : Offer, exec (.announceRx k gm prio1 prio2 cls false false seq hops lat ph blat bph) s = .next (showPorts (offerHeld k o s)) ∧
      o.lat = lat.toNat ∧ o.ph = ph.toNat ∧ o.hops = hops.toNat := by
  refine ⟨{ gm := gm.toNat, prio1 := prio1.toNat, prio2 := prio2.toNat, cls := cls.toNat, seq := seq.toNat, hops := hops.toNat
            lat := lat.toNat, ph := ph.toNat, blat := blat.toNat, bph := bph.toNat, fresh := s.seqFresh gm.toNat seq.toNat }, ?_,
    rfl, rfl, rfl⟩
  have hgm : s.sysState ≠ sysGm := by rcases hstate with h | h <;> rw [h] <;> decide
  have htree : ¬ (s.sysState = sysJoined ∨ s.sysState = sysRefused) := by rcases hstate with h | h <;> rw [h] <;> decide
  have hreelect : ∀ {from_ : Option Nat} {t : State}, t.regs = s.regs → reelect from_ t = showPorts t := fun {from_ t} ht => by
    have hsys : t.sysState = s.sysState := State.get_of_regs ht _
    unfold reelect
    rw [hsys, if_neg htree, if_neg hgm]
  rw [← hreelect (from_ := some k.val) (offerHeld_regs k _ s)]
  change execAnnounceRx k gm prio1 prio2 cls false false seq hops lat ph blat bph s = _
  unfold execAnnounceRx
  rw [hup, decide_eq_false hgm]
  rfl

/-- A port that receives an offer shows its values after the hop. -/
theorem announceRx_shows {k : Fin 4} {gm : BitVec 64} {prio1 prio2 : Byte} {cls : BitVec 2} {seq hops : BitVec 16} {lat : Word}
    {ph blat bph : BitVec 16} (hup : s.portUp k = true) (hstate : s.sysState = sysDetached ∨ s.sysState = sysListening)
    (hlat : lat.toNat + (s.get (LNK_DLY_D_IN k) + 99) / 100 + 1600 < 2 ^ 32)
    (hph : ph.toNat + 30 + s.get (LNK_ASYM_ASYM_UNC k) * 2 < 2 ^ 16) (hhops : hops.toNat + 1 < 2 ^ 16) :
    ∃ u, exec (.announceRx k gm prio1 prio2 cls false false seq hops lat ph blat bph) s = .next u ∧
      u.get (LNK_OFR_LAT_ACC_LAT k) = lat.toNat + (s.get (LNK_DLY_D_IN k) + 99) / 100 + 1600 ∧
      u.get (LNK_OFR_PH_ACC_PH k) = ph.toNat + 30 + s.get (LNK_ASYM_ASYM_UNC k) * 2 ∧
      u.get (LNK_OFR_PH_HOPS k) = hops.toNat + 1 ∧ Within s u (spanPlz ++ spanLnk) := by
  obtain ⟨o, hexec, holat, hoph, hohops⟩ := exec_announceRx_waiting (gm := gm) (prio1 := prio1) (prio2 := prio2) (cls := cls)
    (seq := seq) (hops := hops) (lat := lat) (ph := ph) (blat := blat) (bph := bph) hup hstate
  have hhop : (offerHeld k o s).afterHop k o = (lat.toNat + (s.get (LNK_DLY_D_IN k) + 99) / 100 + 1600,
      ph.toNat + 30 + s.get (LNK_ASYM_ASYM_UNC k) * 2, hops.toNat + 1) := by
    unfold State.afterHop
    rw [State.get_of_regs (offerHeld_regs ..), State.get_of_regs (offerHeld_regs ..), holat, hoph, hohops, Nat.mul_comm 2]
  obtain ⟨h1, h2, h3⟩ := hhop ▸ showPorts_shows k.isLt (offerHeld_offer k.isLt o s) (by rwa [hhop]) (by rwa [hhop]) (by rwa [hhop])
  exact ⟨_, hexec, h1, h2, h3, (noted_within s (names := portNames) (by decide)).toCalm.showPorts (offerHeld_within ..)⟩

end

/-! ### The uplink offer is taken -/

section
variable {P : State → Prop} {s : State} {k : Nat} {o : Offer}

/-- The budget check of an offer after the hop (R249). -/
def State.offerCause (s : State) (k : Nat) (o : Offer) : Nat :=
  budgetCause o (s.afterHop k o).1 (s.afterHop k o).2.1 (s.afterHop k o).2.2

/-- What the hub shows of an uplink offer it takes (R246, R248, R249), before its ports and regions follow. -/
def uplinkTaken (k : Nat) (o : Offer) (s : State) : State :=
  ((setGm o.gm o.prio1 o.prio2 o.cls (s.afterHop k o).1 (s.afterHop k o).2.1 (s.afterHop k o).2.2
    ((s.set LNK_SYS_STAT_UPLINK k).set LNK_SYS_STAT_UPL_VALID 1)).set LNK_SYS_STAT_CAUSE (s.offerCause k o)).set LNK_SYS_STAT_STATE
    (if s.offerCause k o = 0 then sysJoined else sysRefused)

/-- By the budget check, JOINED or JOIN_REFUSED is posted and counted (R246, R256). -/
def uplinkAnswered (cause : Nat) (s : State) : State :=
  if cause = 0 then noteLink 0x01 (sysEvt 0 s.joinBody s) else noteLink 0x02 (sysEvt 1 s.joinBody s)

/-- A LISTENING hub heals no break and has no grandmaster to change. -/
theorem adopt_listening (h : s.sysState = sysListening) :
    adopt k o s = uplinkAnswered (s.offerCause k o) (showSys (showPorts (uplinkTaken k o s))) := by
  have hnow : ∀ t : State, (if sysListening = (if s.offerCause k o = 0 then sysJoined else sysRefused) then t
      else if (if s.offerCause k o = 0 then sysJoined else sysRefused) = sysJoined then noteLink 0x01 (sysEvt 0 t.joinBody t)
      else noteLink 0x02 (sysEvt 1 t.joinBody t)) = uplinkAnswered (s.offerCause k o) t := fun t => by
    unfold uplinkAnswered
    split <;> rfl
  refine Eq.trans ?_ (hnow _)
  unfold adopt
  rw [h]
  rfl

/-- What follows writes the ports' registers, the regions' system choices and the sticky bit, beside the event. -/
theorem Noted.uplinkFollowed (K : Noted treeNames P) (hlisten : s.sysState = sysListening) (hs : P (uplinkTaken k o s)) :
    P (relay (adopt k o s)) := by
  have hports : Calm (Listed portNames) P := K.toCalm.mono fun _ h => h.mono (by decide)
  have hregions : Calm (Listed [.PLZ_SEL_SYS]) P := K.toCalm.mono fun _ h => h.mono (by decide)
  have hshown : P (Machine.showSys (Machine.showPorts (uplinkTaken k o s))) := hregions.showSys <| hports.showPorts hs
  rw [adopt_listening hlisten]
  exact K.sendUp <| K.ite (K.noteLink <| K.raise rfl hshown) <| K.noteLink <| K.raise rfl hshown

theorem Calm.uplinkTaken (K : Calm (Listed uplinkNames) P) (hs : P s) : P (uplinkTaken k o s) := by
  refine K.set rfl <| K.set rfl ?_
  iterate 8 refine K.set rfl ?_
  exact K.set rfl <| K.set rfl hs

/-- A register of no event, port or region is read at the end as it was written with the offer. -/
theorem get_uplinkFollowed {f : Fld} (hlisten : s.sysState = sysListening)
    (hf : (treeNames ++ eventNames).contains f.reg.name = false) : (relay (adopt k o s)).get f = (uplinkTaken k o s).get f :=
  (noted_get f _ hf).uplinkFollowed hlisten rfl

theorem uplinkFollowed_within (hlisten : s.sysState = sysListening) : Within s (relay (adopt k o s)) (spanPlz ++ spanLnk) := by
  have K : Noted uplinkNames (fun u => Within s u (spanPlz ++ spanLnk)) := noted_within s (by decide)
  exact (K.mono (by decide)).uplinkFollowed hlisten (K.uplinkTaken (Within.refl s _))

theorem uplinkTaken_lat (h : (s.afterHop k o).1 < 2 ^ 32) : (uplinkTaken k o s).get LNK_ACC_LAT_ACC_LAT = (s.afterHop k o).1 := by
  unfold uplinkTaken setGm
  iterate 4 refine (State.get_set_apart rfl).trans ?_
  exact State.get_set_sat rfl h

theorem uplinkTaken_ph (h : (s.afterHop k o).2.1 < 2 ^ 16) : (uplinkTaken k o s).get LNK_ACC_PH_ACC_PH = (s.afterHop k o).2.1 := by
  unfold uplinkTaken setGm
  iterate 3 refine (State.get_set_apart rfl).trans ?_
  exact State.get_set_sat rfl h

theorem uplinkTaken_hops (h : (s.afterHop k o).2.2 < 2 ^ 16) : (uplinkTaken k o s).get LNK_SYS_STAT_HOPS = (s.afterHop k o).2.2 := by
  unfold uplinkTaken setGm
  iterate 2 refine (State.get_set_apart rfl).trans ?_
  exact State.get_set_sat rfl h

/-- A hub that is no candidate takes its best offer at the end of the listen period. -/
theorem exec_listenEnd_takes (hlisten : s.sysState = sysListening) (hbest : s.bestOffer = some (k, o))
    (hcand : s.on LNK_SYS_CTL_CAND = false) : exec (.listenEnd) s = .next (relay (adopt k o s)) := by
  change execListenEnd s = _
  unfold execListenEnd
  rw [hbest, hcand, if_neg (not_not.2 hlisten)]
  rfl

/-- A hub that takes its uplink offer shows its values after the hop. -/
theorem listenEnd_shows {k : Fin 4} (hlisten : s.sysState = sysListening) (hbest : s.bestOffer = some (k.val, o))
    (hcand : s.on LNK_SYS_CTL_CAND = false) (hlat : o.lat + (s.get (LNK_DLY_D_IN k) + 99) / 100 + 1600 < 2 ^ 32)
    (hph : o.ph + 30 + s.get (LNK_ASYM_ASYM_UNC k) * 2 < 2 ^ 16) (hhops : o.hops + 1 < 2 ^ 16) :
    ∃ u, exec (.listenEnd) s = .next u ∧
      u.get LNK_ACC_LAT_ACC_LAT = o.lat + (s.get (LNK_DLY_D_IN k) + 99) / 100 + 1600 ∧
      u.get LNK_ACC_PH_ACC_PH = o.ph + 30 + s.get (LNK_ASYM_ASYM_UNC k) * 2 ∧ u.get LNK_SYS_STAT_HOPS = o.hops + 1 ∧
      Within s u (spanPlz ++ spanLnk) := by
  rw [Nat.mul_comm] at hph ⊢
  exact ⟨_, exec_listenEnd_takes hlisten hbest hcand, (get_uplinkFollowed hlisten rfl).trans (uplinkTaken_lat hlat),
    (get_uplinkFollowed hlisten rfl).trans (uplinkTaken_ph hph), (get_uplinkFollowed hlisten rfl).trans (uplinkTaken_hops hhops),
    uplinkFollowed_within hlisten⟩

end

/-- Settles O55: both clauses by the values after the hop, which the offer's registers and the hub's take where they fit. -/
theorem valuesThroughTheUplinkOffer : Obligations.ValuesThroughTheUplinkOffer := by
  unfold Obligations.ValuesThroughTheUplinkOffer
  exact ⟨fun _ _ _ => listenEnd_shows, fun _ _ _ _ _ _ _ _ _ _ _ _ => announceRx_shows⟩

end Sys2Proof.Machine

/-! HOST_WAKE and HOST_RESYNC accept any path that may write, an engine's too; what an engine of an isolated T-die writes there is dropped on
its way to the C-die (R22, R23): three claims about the host port that do not hold for it. -/

namespace Sys2Proof.Machine

/-- T-die 0 is isolated while ENG4 on it runs on, and the host port is RUNNING. -/
def isolatedEngineHostState : State := isolatedEngineState.set HOST_STAT_RSTATE rsRunning

/-- Refutes O46: the HOST_WAKE of ENG4 on the isolated T-die 0 starts no doorbell read. -/
theorem not_hostRingsCommandsAndPosts : ¬ Obligations.HostRingsCommandsAndPosts := by
  rintro ⟨wake, -⟩
  obtain ⟨u, hu, hreading, -⟩ := wake (.eng 4) 1 isolatedEngineHostState (by decide) (by decide)
  obtain rfl : isolatedEngineHostState = u := by
    have hdrop : writeReg (.eng 4) ⟨.HOST_WAKE, 0, 0, 0⟩ 1 isolatedEngineHostState = isolatedEngineHostState :=
      writeReg_of_unlinked (by decide) (by decide)
    rw [← hdrop]
    injection hu
  exact absurd hreading (by decide)

/-- The HOST_RESYNC that ENG4 on the isolated T-die 0 writes leaves the port DISARMED. -/
theorem hostResync_isolatedEngine {u : State} (hu : exec (.hostResync (.eng 4) 0x5EED) isolatedEngineState = .next u) :
    u.rstate ≠ rsStopping := by
  obtain rfl : isolatedEngineState = u := by
    rw [← writeReg_isolatedEngine (r := ⟨.HOST_RESYNC, 0, 0, 0⟩) 0x5EED (by decide)]
    injection hu
  decide

/-- Refutes O47: the taken HOST_RESYNC of ENG4 on the isolated T-die 0 does not enter STOPPING. -/
theorem not_hostPortStates : ¬ Obligations.HostPortStates := by
  rintro ⟨-, -, resync, -⟩
  obtain ⟨u, hu, -, hstopping, -⟩ := resync (.eng 4) 0x5EED isolatedEngineState (by decide)
  exact hostResync_isolatedEngine hu hstopping

/-- Refutes O54: 0x5EED written to HOST_RESYNC by ENG4 on the isolated T-die 0 does not enter STOPPING. -/
theorem not_resynchronisationStopsOnlyTheHostPort : ¬ Obligations.ResynchronisationStopsOnlyTheHostPort := by
  rintro ⟨resync, -⟩
  obtain ⟨u, hu, hstopping, -⟩ := resync (.eng 4) 0x5EED isolatedEngineState (by decide) (by decide) (by decide) (by decide) (by decide)
    (by decide)
  exact hostResync_isolatedEngine hu hstopping

end Sys2Proof.Machine

/-! What STANDBY, KEEP and the wakes switch off (R416 to R419): outputs, clusters, Wheels, links, rails and regulators, walked once for
every property that the writes of their registers and their events keep. -/

namespace Sys2Proof.Machine

/-! ### Operations that leave the host port and the drivers alone -/

/-- The names of the registers written as outputs, clusters, Wheels, links, rails and regulators go off. -/
def downNames : List RegName :=
  [.OUT_STAT, .OUT_RSYNC_STAT, .OUT_EVT, .TRG_STAT, .TRG_EVT, .SYN_CTL, .SYN_STAT, .SYN_BYP_STAT, .SYN_EVT, .SYN_CNT, .RMP_STAT, .RMP_OFS,
    .RMP_PDONE, .RMP_EVT, .DMA_REQ_PEND, .FLT_PKG, .FLT_RSTAT, .PRG_RCTL, .PRG_RSTAT, .PRG_PH, .PRG_REVT, .PRG_WSTAT, .PRG_EVT, .LNK_EPOCH,
    .LNK_STAT, .LNK_EVT, .LNK_CNT, .LNK_OFR_LAT, .LNK_OFR_PH, .LNK_SYS_CTL, .LNK_SYS_STAT, .LNK_SYS_CNT, .LNK_SYS_EVT, .LNK_GM_LO,
    .LNK_GM_HI, .LNK_GM_INFO, .LNK_ACC_LAT, .LNK_ACC_PH, .PLZ_SEL_SYS, .HK_STAT, .HK_BUCK, .HK_LDO]

/-- A property that writes of the named registers keep, events, and changes beside the registers, the stores, the host port and the
drivers. -/
structure Steady (names : List RegName) (P : State → Prop) : Prop where
  set : ∀ {s : State} {f : Fld} {v : Nat}, Listed names f → P s → P (s.set f v)
  rest : ∀ {s t : State}, t.regs = s.regs → Stored s t →
    (t.evtSeq, t.evtFifo, t.host, t.out) = (s.evtSeq, s.evtFifo, s.host, s.out) → P s → P t
  push : ∀ {s : State} {code src body : Nat}, P s → P (s.pushEvt code src body)

section
variable {names : List RegName} {P : State → Prop}

theorem Noted.steady (K : Noted names P) : Steady names P where
  set := K.set
  rest hr hk he hs := by
    simp only [Prod.mk.injEq] at he
    exact K.rest hr hk ⟨he.1, he.2.1⟩ hs
  push := K.push

theorem Steady.mono {more : List RegName} (K : Steady more P) (hsub : ∀ n ∈ names, n ∈ more) : Steady names P where
  set hf hs := K.set (hf.mono hsub) hs
  rest := K.rest
  push := K.push

/-- The host port stays as it is. -/
theorem steady_host (h : HostInt) : Steady names (fun s => s.host = h) where
  set _ hs := by rwa [State.set_host]
  rest _ _ he hs := by
    simp only [Prod.mk.injEq] at he
    exact he.2.2.1.trans hs
  push hs := by rwa [State.pushEvt_host]

/-- So do the drivers. -/
theorem steady_out (o : Vector OutInt 48) : Steady names (fun s => s.out = o) where
  set _ hs := by rwa [State.set_out]
  rest _ _ he hs := by
    simp only [Prod.mk.injEq] at he
    exact he.2.2.2.trans hs
  push hs := by rwa [State.pushEvt_out]

/-- The package state's event stays flagged. -/
theorem steady_stateEntered (h : names.contains .GLB_EVT = false) : Steady names (fun s => s.bit GLB_EVT_EVT 5 = true) where
  set hf hs := (State.bit_of_get (State.get_set_ne _ _ _ _ (Reg.ne_of_name (by
    rintro e
    unfold Listed at hf
    rw [e] at hf
    exact absurd (hf.symm.trans h) (by decide)))) 5).trans hs
  rest hr _ _ hs := (State.bit_of_get (State.get_of_regs hr _) 5).trans hs
  push hs := (State.sticky_pushEvt (by decide) (by decide) ..).trans hs

end

section
variable {names : List RegName} {P : State → Prop} {s t : State}

theorem Steady.beside (K : Steady names P) (hs : P s)
    (h : (t.regs, t.flash, t.torn, t.engMem, t.otp.fuse, t.pending, t.evtSeq, t.evtFifo, t.host, t.out) =
      (s.regs, s.flash, s.torn, s.engMem, s.otp.fuse, s.pending, s.evtSeq, s.evtFifo, s.host, s.out)) : P t := by
  simp only [Prod.mk.injEq] at h
  obtain ⟨hr, hf, ht, he, hu, hp, hown⟩ := h
  exact K.rest hr ⟨hf, ht, he, hu, hp⟩ (by simpa only [Prod.mk.injEq] using hown) hs

theorem Steady.ite (_ : Steady names P) {c : Prop} [Decidable c] (hs : P s) (ht : P t) : P (if c then s else t) := by
  split
  · exact hs
  · exact ht

theorem Steady.each (_ : Steady names P) {n : Nat} {f : Nat → State → State} (hf : ∀ i s, P s → P (f i s)) (hs : P s) :
    P (s.each n f) :=
  s.each_keeps n f (fun i _ => hf i) hs

theorem Steady.foldl (_ : Steady names P) {α : Type} {l : List α} {f : State → α → State} (hf : ∀ s a, P s → P (f s a))
    (hs : P s) : P (l.foldl f s) :=
  foldl_keeps l f (fun a _ s => hf s a) hs

theorem Steady.when (_ : Steady names P) {b : Bool} {f : State → State} (hf : ∀ s, P s → P (f s)) (hs : P s) : P (s.when b f) :=
  s.when_keeps b f (fun _ => hf s) hs

theorem Steady.put (K : Steady names P) {f : Fld} {b : Bool} (hf : Listed names f) (hs : P s) : P (s.put f b) := K.set hf hs

theorem Steady.bump (K : Steady names P) {f : Fld} (hf : Listed names f) (hs : P s) : P (s.bump f) := K.set hf hs

theorem Steady.raise (K : Steady names P) {f : Fld} {i code src : Nat} {body : List (Nat × Nat)} (hf : Listed names f) (hs : P s) :
    P (s.raise f i code src body) :=
  K.push (K.set hf hs)

end

section
variable {P : State → Prop} {s t : State}

/-! ### Links -/

theorem Steady.modLnk (K : Steady downNames P) {k : Nat} {f : LnkInt → LnkInt} (hs : P s) : P (s.modLnk k f) := K.beside hs rfl

theorem Steady.sendCell (K : Steady downNames P) {k type : Nat} {body : List Byte} (hs : P s) : P (sendCell k type body s) :=
  K.beside hs rfl

theorem Steady.sendMessage (K : Steady downNames P) {k : Nat} {m : List Byte} (hs : P s) : P (sendMessage k m s) :=
  K.ite (K.each (fun _ _ h => K.sendCell h) hs) (K.modLnk hs)

theorem Steady.sendUp (K : Steady downNames P) {m : Nat → List Byte} (hs : P s) : P (sendUp m s) :=
  K.each (fun _ _ h => K.when (fun _ h1 => K.sendMessage h1) h) hs

theorem Steady.forwardCell (K : Steady downNames P) {k src type : Nat} {body : List Byte} (hs : P s) : P (forwardCell k src type body s) :=
  K.foldl (fun _ _ h => K.sendCell h) <| K.modLnk hs

theorem Steady.sysEvt (K : Steady downNames P) {bit : Nat} {body : List (Nat × Nat)} (hs : P s) : P (sysEvt bit body s) :=
  K.raise rfl hs

theorem Steady.portEvt (K : Steady downNames P) {k bit : Nat} {body : List (Nat × Nat)} (hs : P s) : P (portEvt k bit body s) :=
  K.raise rfl hs

theorem Steady.noteLink (K : Steady downNames P) {code : Nat} (hs : P s) : P (noteLink code s) := K.ite (K.beside hs rfl) hs

theorem Steady.portShown (K : Steady downNames P) {k x y : Nat} (hs : P s) :
    P ((s.set (LNK_STAT_ROLE k) x).set (LNK_STAT_OFFER k) y) :=
  K.set rfl <| K.set rfl hs

theorem Steady.showPorts (K : Steady downNames P) (hs : P s) : P (showPorts s) := by
  refine K.each (fun k s h => ?_) hs
  dsimp only
  split
  · exact K.set rfl <| K.set rfl <| K.set rfl <| K.portShown h
  · exact K.portShown h

theorem Steady.showSys (K : Steady downNames P) (hs : P s) : P (showSys s) := by
  refine K.each (fun t s h => ?_) hs
  have hnone : P (s.set (PLZ_SEL_SYS_SYS_VALID t) 0) := K.set rfl h
  have hshown : ∀ x, P ((s.set (PLZ_SEL_SYS_SYS_IDX t) x).set (PLZ_SEL_SYS_SYS_VALID t) 1) := fun _ => K.set rfl <| K.set rfl h
  refine K.ite (K.ite ?_ (K.ite (hshown _) hnone)) h
  split
  · exact K.ite (hshown _) hnone
  · exact hnone

theorem Steady.clearSysValid (K : Steady downNames P) (hs : P s) : P (clearSysValid s) := K.each (fun _ _ h => K.set rfl h) hs

theorem Steady.setGm (K : Steady downNames P) {gm prio1 prio2 cls lat ph hops : Nat} (hs : P s) :
    P (setGm gm prio1 prio2 cls lat ph hops s) :=
  K.set rfl <| K.set rfl <| K.set rfl <| K.set rfl <| K.set rfl <| K.set rfl <| K.set rfl <| K.set rfl hs

theorem Steady.gmChange (K : Steady downNames P) {old : Nat} (hs : P s) : P (gmChange old s) := K.noteLink <| K.sysEvt <| K.set rfl hs

/-- The uplink and the grandmaster an adopted offer shows. -/
theorem Steady.uplinkShown (K : Steady downNames P) {k gm prio1 prio2 cls lat ph hops cause now : Nat} (hs : P s) :
    P (Machine.showSys (Machine.showPorts (((Machine.setGm gm prio1 prio2 cls lat ph hops
      ((s.set LNK_SYS_STAT_UPLINK k).set LNK_SYS_STAT_UPL_VALID 1)).set LNK_SYS_STAT_CAUSE cause).set LNK_SYS_STAT_STATE now))) :=
  K.showSys <| K.showPorts <| K.set rfl <| K.set rfl <| K.setGm <| K.set rfl <| K.set rfl hs

theorem Steady.adopt (K : Steady downNames P) {k : Nat} {o : Offer} (hs : P s) : P (adopt k o s) := by
  have hevents : ∀ {heal moved : Bool} {old : Nat} {t : State}, P t → P ((t.when heal (fun s =>
      Machine.noteLink 0x04 (Machine.sysEvt 4 [(2, k)] (s.bump LNK_SYS_CNT_HEAL_CNT)))).when moved (Machine.gmChange old)) := fun ht =>
    K.when (fun _ h => K.gmChange h) <| K.when (fun _ h => K.noteLink <| K.sysEvt <| K.set rfl h) ht
  exact K.ite (hevents (K.uplinkShown hs)) <| K.ite (K.noteLink <| K.sysEvt <| hevents (K.uplinkShown hs)) <|
    K.noteLink <| K.sysEvt <| hevents (K.uplinkShown hs)

theorem Steady.noUplink (K : Steady downNames P) {st : Nat} (hs : P s) : P (noUplink st s) := K.showPorts <| K.set rfl <| K.set rfl hs

theorem Steady.reelect (K : Steady downNames P) {from_ : Option Nat} (hs : P s) : P (reelect from_ s) := by
  have hshown : P (Machine.showPorts s) := K.showPorts hs
  refine K.ite ?_ (K.ite ?_ hshown)
  · split
    · exact K.when (fun _ h => K.sendUp h) <| K.adopt hs
    · exact K.noUplink <| K.clearSysValid <| K.sendUp hshown
  · split
    · exact K.ite (K.sendUp <| K.adopt hs) hshown
    · exact hshown

theorem Steady.showEpoch (K : Steady downNames P) {d : Nat} (hs : P s) : P (showEpoch d s) := by
  have hput : P (s.put (if d = 0 then LNK_EPOCH_OK0 else LNK_EPOCH_OK1) (s.epochMet d)) := by
    refine K.put ?_ hs
    split <;> rfl
  exact K.ite (K.ite hput <| K.reelect <| K.foldl (fun _ _ h => K.modLnk <| K.set rfl h) hput) hput

theorem Steady.portDrop (K : Steady downNames P) {k : Nat} (hs : P s) : P (portDrop k s) :=
  K.modLnk <| K.each (fun _ _ h => K.modLnk h) <| K.when (fun _ h => K.bump rfl h) <| K.set rfl <| K.set rfl hs

theorem Steady.endCopies (K : Steady downNames P) {k : Nat} (hs : P s) : P (endCopies k s) :=
  K.foldl (fun _ _ h => K.when (fun _ h1 => K.forwardCell h1) h) hs

theorem Steady.portDown (K : Steady downNames P) {k st : Nat} {loss : Bool} (hs : P s) : P (portDown k st loss s) := by
  have hdrop : P ((Machine.portDrop k (Machine.endCopies k s)).set (LNK_STAT_STATE k) st) := K.set rfl <| K.portDrop <| K.endCopies hs
  exact K.ite (K.reelect <| K.portEvt <| K.when (fun _ h => K.portEvt h) <| K.when (fun _ h => K.bump rfl h) hdrop)
    (K.portDrop <| K.set rfl hs)

theorem Steady.portDisable (K : Steady downNames P) {k : Nat} (hs : P s) : P (portDisable k s) := K.ite hs <| K.portDown hs

/-! ### Windows and regions -/

theorem Steady.refreshWindow (K : Steady downNames P) {p w : Nat} (hs : P s) : P (refreshWindow p w s) := by
  have hset : ∀ {x y : Bool}, P ((s.setBit (PRG_WSTAT_ACTIVE p) w x).setBit (PRG_WSTAT_SUSP p) w y) := K.set rfl <| K.set rfl hs
  exact K.ite (K.raise rfl hset) hset

theorem Steady.refreshAllWindows (K : Steady downNames P) (hs : P s) : P (refreshAllWindows s) :=
  K.showEpoch <| K.showEpoch <| K.each (fun _ _ h => K.each (fun _ _ h1 => K.refreshWindow h1) h) hs

theorem Steady.rearmDeps (K : Steady downNames P) (hs : P s) : P (rearmDeps s) := K.beside hs rfl

theorem Steady.showRegion (K : Steady downNames P) {t : Nat} (hs : P s) : P (showRegion t s) := by
  have hclk : P (s.each 12 (fun j s => s.put (OUT_STAT_CLKQ (12 * t + j)) (s.clockQualified (12 * t + j)))) :=
    K.each (fun _ _ h => K.put rfl h) hs
  refine K.refreshAllWindows <| K.rearmDeps <| K.each (fun _ _ h => ?_) hclk
  iterate 8 refine K.set rfl ?_
  exact h

/-! ### Pending alignments -/

theorem Steady.modTrg (K : Steady downNames P) {t : Nat} {f : TrgInt → TrgInt} (hs : P s) : P (s.modTrg t f) := K.beside hs rfl

theorem Steady.clearAlignPend (K : Steady downNames P) {t mask other : Nat} (hs : P s) : P (clearAlignPend t mask other s) :=
  K.each (fun _ _ h => K.ite (K.set rfl h) h) hs

theorem Steady.dropRealign (K : Steady downNames P) {t cause : Nat} (hs : P s) : P (dropRealign t cause s) := by
  unfold Machine.dropRealign
  split
  · exact K.raise rfl <| K.set rfl <| K.clearAlignPend <| K.modTrg hs
  · exact hs

theorem Steady.dropRsync (K : Steady downNames P) {t cause : Nat} (hs : P s) : P (dropRsync t cause s) :=
  K.ite (K.each (fun _ _ h => K.ite (K.raise rfl h) h) <| K.set rfl <| K.set rfl <| K.clearAlignPend hs) hs

theorem Steady.leaveRsync (K : Steady downNames P) {n cause : Nat} (hs : P s) :
    P (if bitOf (s.rsyncMask (n / 12)) (n % 12) then Machine.dropRsync (n / 12) cause s else s) :=
  K.ite (K.dropRsync hs) hs

theorem Steady.dropAlignOnLoss (K : Steady downNames P) {n : Nat} (hs : P s) : P (dropAlignOnLoss n s) :=
  K.leaveRsync <| K.ite (K.dropRealign hs) hs

theorem Steady.dropAlignDisabled (K : Steady downNames P) {n : Nat} (hs : P s) : P (dropAlignDisabled n s) := by
  have hleft : ∀ {f : TrgInt → TrgInt}, P ((s.modTrg (n / 12) f).set (OUT_STAT_ALIGN_PEND n) 0) := K.set rfl <| K.modTrg hs
  exact K.leaveRsync <| K.ite (K.ite (K.set rfl hleft) hleft) hs

/-! ### Wheels -/

theorem Steady.modWh (K : Steady downNames P) {c : Nat} {f : WheelInt → WheelInt} (hs : P s) : P (s.modWh c f) := K.beside hs rfl

theorem Steady.lowWater (K : Steady downNames P) {c : Nat} (hs : P s) : P (lowWater c s) :=
  K.ite (K.ite (K.set rfl <| K.beside hs rfl) hs) hs

theorem Steady.wheelEvt (K : Steady downNames P) {c bit : Nat} {body : List (Nat × Nat)} (hs : P s) : P (wheelEvt c bit body s) :=
  K.ite (K.raise rfl hs) (K.raise rfl hs)

theorem Steady.swapProfile (K : Steady downNames P) {c : Nat} (hs : P s) : P (swapProfile c s) := by
  unfold Machine.swapProfile
  split
  · exact K.set rfl <| K.modWh hs
  · exact hs

theorem Steady.stopPlay (K : Steady downNames P) {c : Nat} (hs : P s) : P (stopPlay c s) :=
  K.set rfl <| K.set rfl <| K.set rfl <| K.modWh hs

theorem Steady.toIdle (K : Steady downNames P) {c : Nat} (hs : P s) : P (toIdle c s) :=
  K.swapProfile <| K.set rfl <| K.set rfl <| K.set rfl <| K.stopPlay hs

theorem Steady.wheelAbort (K : Steady downNames P) {c : Nat} (hs : P s) : P (wheelAbort c s) :=
  K.ite hs <| K.lowWater <| K.wheelEvt <| K.set (f := RMP_STAT_CHUNKS c) rfl <| K.modWh <| K.toIdle hs

/-! ### Searches and losses of a cluster -/

theorem Steady.modSyn (K : Steady downNames P) {c : Nat} {f : SynInt → SynInt} (hs : P s) : P (s.modSyn c f) := K.beside hs rfl

theorem Steady.fullSearch (K : Steady downNames P) {c : Nat} (hs : P s) : P (fullSearch c s) :=
  K.wheelAbort <| K.modSyn <| K.bump rfl <| K.set rfl hs

theorem Steady.followCheck (K : Steady downNames P) {t : Nat} (hs : P s) : P (followCheck t s) :=
  K.each (fun _ _ h => K.ite (K.fullSearch <| K.modSyn h) h) hs

theorem Steady.triggerDeps (K : Steady downNames P) {p : State → Nat → Bool} (hs : P s) : P (triggerDeps p s) := K.beside hs rfl

theorem Steady.clockLoss (K : Steady downNames P) {c mask : Nat} (hs : P s) : P (clockLoss c mask s) := by
  have hpush : P (s.pushEvt 0x0301 c mask) := K.push hs
  unfold Machine.clockLoss
  exact K.triggerDeps <| K.ite (K.set (f := FLT_PKG_LATCH) rfl hpush) hpush

theorem Steady.bypassEnter (K : Steady downNames P) {c : Nat} {old new : State} (hs : P new) : P (bypassEnter c old new) :=
  K.ite hs <| K.raise rfl hs

theorem Steady.returnEnds (K : Steady downNames P) {c : Nat} (hs : P s) : P (returnEnds c s) :=
  K.ite hs <| K.ite (K.modSyn hs) <| K.raise rfl <| K.modSyn hs

theorem Steady.endReturns (K : Steady downNames P) {c : Nat} {old new : State} (hs : P new) : P (endReturns c old new) :=
  K.each (fun _ _ h => K.ite (K.returnEnds h) h) hs

/-! ### Rails and regulators -/

theorem Steady.railUnregulated (K : Steady downNames P) {r : Nat} (hs : P s) : P (railUnregulated r s) :=
  K.set rfl <| K.set rfl <| K.set rfl <| K.set rfl hs

theorem Steady.modRail (K : Steady downNames P) {r : Nat} {f : RailInt → RailInt} (hs : P s) : P (s.modRail r f) := K.beside hs rfl

theorem Steady.railIdle (K : Steady downNames P) {r ph : Nat} (hs : P s) : P (railIdle r ph s) :=
  K.foldl (fun _ _ h => K.set rfl h) <| K.set rfl <| K.railUnregulated <| K.modRail <| K.beside hs rfl

theorem Steady.railGoesOff (K : Steady downNames P) {r : Nat} (hs : P s) : P (railGoesOff r s) := K.raise rfl <| K.railIdle <| K.set rfl hs

theorem Steady.setActive (K : Steady downNames P) {r n : Nat} (hs : P s) : P (setActive r n s) :=
  K.set rfl <| K.foldl (fun _ _ h => K.set rfl h) hs

theorem Steady.railDisable (K : Steady downNames P) {r : Nat} (hs : P s) : P (railDisable r s) :=
  K.ite (K.ite (K.railGoesOff <| K.modRail hs) <| K.setActive <| K.set rfl <| K.railUnregulated <| K.modRail hs) <|
    K.ite (K.railGoesOff hs) hs

theorem Steady.railWriteOff (K : Steady downNames P) {r : Nat} (hs : P s) : P (railWriteOff r s) :=
  K.railDisable <| K.set (f := PRG_RCTL_EN r) rfl hs

theorem Steady.hkWrite (K : Steady downNames P) {b : Nat} {on : Bool} (hs : P s) : P (hkWrite b on s) := by
  have hput : P (s.put (hkField b) on) := by
    refine K.put ?_ hs
    unfold hkField
    split <;> rfl
  exact K.ite hs <| K.ite (K.set rfl hput) (K.set rfl hput)

end

/-! ### Operations that disable outputs -/

/-- With the writes that disable an output, and changes of what a driver holds. -/
structure Shutting (names : List RegName) (P : State → Prop) : Prop extends Steady names P where
  modOut : ∀ {s : State} {n : Nat} {f : OutInt → OutInt}, P s → P (s.modOut n f)
  unitOff : ∀ {s : State} {n : Nat}, P s → P (s.set (OUT_CTL_EN n) 0)

section
variable {names : List RegName} {P : State → Prop}

theorem Shutting.mono {more : List RegName} (K : Shutting more P) (hsub : ∀ n ∈ names, n ∈ more) : Shutting names P where
  toSteady := K.toSteady.mono hsub
  modOut := K.modOut
  unitOff := K.unitOff

theorem Noted.shutting (K : Noted (.OUT_CTL :: names) P) : Shutting names P where
  toSteady := K.steady.mono fun _ h => List.mem_cons_of_mem _ h
  modOut hs := K.beside hs rfl
  unitOff hs := K.set (List.contains_iff_mem.2 List.mem_cons_self) hs

theorem shutting_host (h : HostInt) : Shutting names (fun s => s.host = h) where
  toSteady := steady_host h
  modOut hs := hs
  unitOff hs := by rwa [State.set_host]

/-- A disabled output is enabled by none of them. -/
theorem shutting_disabled (n : Nat) (h : (names ++ eventNames).contains .OUT_CTL = false) :
    Shutting names (fun s => s.get (OUT_CTL_EN n) = 0) where
  toSteady := (noted_get (OUT_CTL_EN n) 0 h).steady
  modOut hs := hs
  unitOff {s m} hs := by
    by_cases hm : m = n
    · subst hm
      exact State.get_set_own rfl rfl
    · exact (State.get_set_ne _ _ _ _ (by simp [OUT_CTL_EN, hm])).trans hs

end

section
variable {P : State → Prop} {s t : State}

theorem Shutting.enterLoss (K : Shutting downNames P) {n c : Nat} (hs : P s) : P (enterLoss n c s) := by
  refine K.ite (K.modOut hs) ?_
  have hlost : ∀ {f : OutInt → OutInt} {kind : Nat},
      P (((Machine.dropAlignOnLoss n (s.set (OUT_STAT_STATE n) outOnLoss)).set (OUT_STAT_LOSS_KIND n) kind).modOut n f) :=
    K.modOut <| K.set rfl <| K.dropAlignOnLoss <| K.set rfl hs
  dsimp only
  split
  · exact K.raise rfl hlost
  · exact hlost

theorem Shutting.unitBack (K : Shutting downNames P) {n : Nat} (hs : P s) : P (unitBack n s) := by
  have hback : P ((s.set (OUT_STAT_LOSS_KIND n) 0).set (OUT_STAT_STATE n) outRunning) := K.set rfl <| K.set rfl hs
  have hmux : ∀ {f g : OutInt → OutInt} {x y : Nat}, P ((((((s.set (OUT_STAT_LOSS_KIND n) 0).set (OUT_STAT_STATE n)
      outRunning).modOut n f).modOut n g).set (OUT_STAT_CUR_SRC n) x).set (OUT_STAT_CUR_LANE n) y) :=
    K.set rfl <| K.set rfl <| K.modOut <| K.modOut hback
  exact K.ite hback <| K.ite (K.set rfl hmux) hmux

theorem Shutting.lossAtStart (K : Shutting downNames P) {n : Nat} (hs : P s) : P (lossAtStart n s) :=
  K.ite (K.bypassEnter <| K.enterLoss hs) hs

theorem Shutting.finishSwitch (K : Shutting downNames P) {n : Nat} (hs : P s) : P (finishSwitch n s) := by
  unfold Machine.finishSwitch
  split
  · exact K.set rfl <| K.set rfl <| K.modOut hs
  · exact K.returnEnds <| K.lossAtStart <| K.modSyn <| K.unitBack hs
  · exact hs

theorem Shutting.loseUnits (K : Shutting downNames P) {c : Nat} {p : Nat → Bool} (hs : P s) : P (loseUnits c p s) :=
  K.endReturns <| K.modSyn <| K.each (fun _ _ h => K.ite (K.enterLoss h) h) hs

theorem Shutting.clusterLost (K : Shutting downNames P) {c : Nat} (hs : P s) : P (clusterLost c s) := by
  have hlost : ∀ {p : Nat → Bool}, P (Machine.loseUnits c p (s.set (SYN_STAT_RET_PEND c) 0)) := K.loseUnits <| K.set rfl hs
  exact K.bypassEnter <| K.ite (K.clockLoss hlost) hlost

theorem Shutting.unitStop (K : Shutting downNames P) {n : Nat} {hiZ : Bool} (hs : P s) : P (unitStop n hiZ s) :=
  K.followCheck <| K.set rfl <| K.set rfl <| K.set rfl <| K.unitOff <| K.modOut <| K.dropAlignDisabled <| K.finishSwitch hs

theorem Shutting.unitDisable (K : Shutting downNames P) {n : Nat} (hs : P s) : P (unitDisable n s) := K.showRegion <| K.unitStop hs

theorem Shutting.synDisable (K : Shutting downNames P) {c : Nat} (hs : P s) : P (synDisable c s) :=
  K.ite hs <| K.showRegion <| K.wheelAbort <| K.clusterLost <| K.modSyn <| K.set rfl <| K.set rfl <|
    K.each (fun _ _ h => K.ite (K.finishSwitch h) h) hs

end

/-! ### Entry to STANDBY (R416) -/

/-- The outputs that STANDBY disables. -/
def State.unkeptUnits (s : State) : List Nat := (List.range 48).filter (fun n => s.unitOn n && !s.keptUnit n)

/-- The engines that STANDBY puts in reset. -/
def State.runningEngines (s : State) : List Nat :=
  ((List.range 10).map (· + 2)).filter (fun e => s.get (ENG_STAT_STATE e) ≠ engInReset)

/-- Listed outputs are disabled. -/
def unitsOff (l : List Nat) (s : State) : State := l.foldl (fun s n => unitDisable n (s.set (OUT_CTL_EN n) 0)) s

/-- The rails that STANDBY does not keep are disabled. -/
def railsOff (s : State) : State :=
  s.each 24 (fun r s => if s.on (PRG_RCTL_EN r) && !s.bit GLB_STBY_RAIL_MASK r then railWriteOff r s else s)

/-- Listed clusters are disabled. -/
def clustersOff (l : List Nat) (s : State) : State := l.foldl (fun s c => synDisable c (s.set (SYN_CTL_EN c) 0)) s

/-- Listed ports are disabled. -/
def portsOff (l : List Nat) (s : State) : State := l.foldl (fun s k => portDisable k (s.set (LNK_CTL_EN k) 0)) s

/-- Listed engines are put in reset. -/
def enginesHeld (l : List Nat) (s : State) : State := l.foldl (fun s e => s.set (ENG_STAT_STATE e) engInReset) s

/-- The rails, clusters and ports go off after the outputs. -/
def suppliersOff (clusters ports : List Nat) (s : State) : State := portsOff ports (clustersOff clusters (railsOff s))

theorem standbyEnter_shape (s : State) : ∃ clusters ports g, standbyEnter s = enterState pkgStandby
    ((enginesHeld s.runningEngines (suppliersOff clusters ports (unitsOff s.unkeptUnits s))).modPkg g) :=
  ⟨_, _, _, rfl⟩

/-- The registers written as they go off. -/
def supplierNames : List RegName := .LNK_CTL :: downNames

/-- With the engines' states, those written before STATE_ENTER. -/
def standbyNames : List RegName := .ENG_STAT :: supplierNames

/-- A walk over a list establishes what the step of one of its members does and no step undoes. -/
theorem foldl_establishes {α : Type} {B : State → Prop} {l : List α} {f : State → α → State} {a : α} (ha : a ∈ l)
    (hown : ∀ s, B (f s a)) (hkeep : ∀ s b, B s → B (f s b)) (s : State) : B (l.foldl f s) := by
  induction l generalizing s with
  | nil => cases ha
  | cons b l ih =>
    rcases List.mem_cons.1 ha with rfl | hl
    · exact foldl_keeps l f (fun b _ s => hkeep s b) (hown s)
    · exact ih hl _

section
variable {P : State → Prop} {s : State}

theorem Shutting.unitsOff (K : Shutting downNames P) {l : List Nat} (hs : P s) : P (unitsOff l s) :=
  K.foldl (fun _ _ h => K.unitDisable <| K.unitOff h) hs

theorem Shutting.suppliersOff (K : Shutting supplierNames P) {clusters ports : List Nat} (hs : P s) :
    P (suppliersOff clusters ports s) := by
  have D : Shutting downNames P := K.mono fun _ h => List.mem_cons_of_mem _ h
  refine K.foldl (fun _ _ h => D.portDisable <| K.set rfl h) <| D.foldl (fun _ _ h => D.synDisable <| D.set rfl h) ?_
  exact D.each (fun _ _ h => D.ite (D.railWriteOff h) h) hs

theorem Shutting.enginesHeld (K : Shutting standbyNames P) {l : List Nat} (hs : P s) : P (enginesHeld l s) :=
  K.foldl (fun _ _ h => K.set rfl h) hs

theorem Shutting.servedOff (K : Shutting supplierNames P) {clusters ports units : List Nat} (hs : P s) :
    P (Machine.suppliersOff clusters ports (Machine.unitsOff units s)) :=
  K.suppliersOff <| (K.mono fun _ h => List.mem_cons_of_mem _ h).unitsOff hs

theorem Shutting.standbyShut (K : Shutting standbyNames P) {engines clusters ports units : List Nat} (hs : P s) :
    P (Machine.enginesHeld engines (Machine.suppliersOff clusters ports (Machine.unitsOff units s))) :=
  K.enginesHeld <| (K.mono fun _ h => List.mem_cons_of_mem _ h).servedOff hs

/-- Every output disabled is off. -/
theorem unitsOff_disabled {l : List Nat} {n : Nat} (hn : n ∈ l) (s : State) : (unitsOff l s).get (OUT_CTL_EN n) = 0 := by
  have K : Shutting downNames (fun s => s.get (OUT_CTL_EN n) = 0) := shutting_disabled n rfl
  refine foldl_establishes (B := fun s => s.get (OUT_CTL_EN n) = 0) hn (fun u => ?_) (fun u q hu => ?_) s
  · exact K.unitDisable (s := u.set (OUT_CTL_EN n) 0) (State.get_set_own rfl rfl)
  · exact K.unitDisable (K.unitOff hu)

/-- Every engine but ENG0 and ENG1 is in reset. -/
theorem enginesHeld_inReset {z : State} {e : Nat} (he : e < 10) (hz : z.get (ENG_STAT_STATE (e + 2)) = s.get (ENG_STAT_STATE (e + 2))) :
    (enginesHeld s.runningEngines z).get (ENG_STAT_STATE (e + 2)) = engInReset := by
  have hkeep : ∀ (u : State) (q : Nat), u.get (ENG_STAT_STATE (e + 2)) = engInReset →
      (u.set (ENG_STAT_STATE q) engInReset).get (ENG_STAT_STATE (e + 2)) = engInReset := by
    intro u q hu
    by_cases hq : q = e + 2
    · subst hq
      exact State.get_set_own rfl rfl
    · exact (State.get_set_ne _ _ _ _ (by simp [ENG_STAT_STATE, hq])).trans hu
  by_cases hrun : s.get (ENG_STAT_STATE (e + 2)) = engInReset
  · exact foldl_keeps (P := fun u => u.get (ENG_STAT_STATE (e + 2)) = engInReset) _ _ (fun q _ u => hkeep u q) (hz.trans hrun)
  · refine foldl_establishes (B := fun u => u.get (ENG_STAT_STATE (e + 2)) = engInReset) (a := e + 2) ?_
      (fun u => (State.get_set_own rfl rfl : (u.set (ENG_STAT_STATE (e + 2)) engInReset).get (ENG_STAT_STATE (e + 2)) = _)) hkeep z
    simp only [State.runningEngines, List.mem_filter, List.mem_map, List.mem_range, decide_eq_true_eq]
    exact ⟨⟨e, he, rfl⟩, hrun⟩

end

/-- STATE_ENTER and the state's register are written beside them. -/
def enterNames : List RegName := .GLB_STATE :: .GLB_EVT :: standbyNames

/-- Where a change of the package's state may write. -/
abbrev stateSpans : List (Nat × Nat) := spanGlb ++ spanHost ++ spanMgt ++ spanPlz ++ spanWork ++ spanDma ++ spanEng

section
variable {P : State → Prop} {z : State}

theorem Steady.enterState {names : List RegName} (K : Steady names P) (hstate : names.contains .GLB_STATE = true)
    (hevt : names.contains .GLB_EVT = true) {new : Nat} (hs : P z) : P (enterState new z) :=
  K.raise hevt (K.set (f := GLB_STATE_STATE) hstate hs)

theorem Shutting.standbyEnter (K : Shutting enterNames P) (hs : P z) : P (standbyEnter z) := by
  have D : Shutting standbyNames P := K.mono fun _ h => List.mem_cons_of_mem _ (List.mem_cons_of_mem _ h)
  obtain ⟨clusters, ports, g, hshape⟩ := standbyEnter_shape z
  rw [hshape]
  exact K.enterState rfl rfl <| K.beside (D.standbyShut hs) rfl

theorem enterState_pkg {new : Nat} (h : Nat.blt new (2 ^ GLB_STATE_STATE.w) = true) (u : State) : (enterState new u).pkg = new :=
  (State.get_raise_named rfl rfl).trans (State.get_set_own rfl h)

theorem enterState_get {f : Fld} (h : GLB_STATE_STATE.apartFrom f = true) (he : eventNames.contains f.reg.name = false) (new : Nat)
    (u : State) (hg : GLB_EVT_EVT.apartFrom f = true) : (enterState new u).get f = u.get f :=
  (State.get_raise_named hg he).trans (State.get_set_apart h)

theorem enterState_evtSeq {new : Nat} {u : State} (hle : z.evtSeq ≤ u.evtSeq) (hdie : u.get GLB_DIE_ISOLATED = z.get GLB_DIE_ISOLATED) :
    z.evtSeq < (enterState new u).evtSeq :=
  evtSeq_lt_raise (by rwa [State.set_evtSeq]) ((State.get_set_apart rfl).trans hdie) (by decide) rfl

/-- A register that neither the entry to STANDBY nor an event names keeps its value up to STATE_ENTER. -/
theorem standbyShut_get {engines clusters ports units : List Nat} (f : Fld)
    (hf : ((.OUT_CTL :: standbyNames) ++ eventNames).contains f.reg.name = false) :
    (enginesHeld engines (suppliersOff clusters ports (unitsOff units z))).get f = z.get f :=
  (noted_get f (z.get f) hf).shutting.standbyShut rfl

/-- What entry to STANDBY shows. -/
structure StandbyEntered (z u : State) : Prop where
  pkg : u.pkg = pkgStandby
  changing : u.get GLB_STATE_CHANGING = z.get GLB_STATE_CHANGING
  unit : ∀ n ∈ z.unkeptUnits, u.get (OUT_CTL_EN n) = 0
  engine : ∀ e < 10, u.get (ENG_STAT_STATE (e + 2)) = engInReset
  flag : u.bit GLB_EVT_EVT 5 = true
  event : z.evtSeq < u.evtSeq
  host : u.host = z.host
  within : Within z u stateSpans

theorem standbyEntered (z : State) : StandbyEntered z (standbyEnter z) := by
  have hhost : (standbyEnter z).host = z.host := (shutting_host z.host).standbyEnter rfl
  have hwithin : Within z (standbyEnter z) stateSpans :=
    (noted_within z (by decide) : Noted (.OUT_CTL :: enterNames) _).shutting.standbyEnter (Within.refl z _)
  obtain ⟨clusters, ports, g, hshape⟩ := standbyEnter_shape z
  have hold : ∀ units f, ((.OUT_CTL :: standbyNames) ++ eventNames).contains f.reg.name = false →
      (enginesHeld z.runningEngines (suppliersOff clusters ports (unitsOff units z))).get f = z.get f := fun _ f => standbyShut_get f
  have hdisabled : ∀ n, Shutting standbyNames (fun u => u.get (OUT_CTL_EN n) = 0) := fun n => shutting_disabled n rfl
  have hserved : ∀ e, (suppliersOff clusters ports (unitsOff z.unkeptUnits z)).get (ENG_STAT_STATE (e + 2)) =
      z.get (ENG_STAT_STATE (e + 2)) := fun e =>
    (noted_get (ENG_STAT_STATE (e + 2)) (z.get (ENG_STAT_STATE (e + 2))) rfl).shutting.servedOff rfl
  rw [hshape] at hhost hwithin ⊢
  exact {
    pkg := enterState_pkg rfl _
    changing := (enterState_get rfl rfl _ _ rfl).trans (hold _ _ rfl)
    unit := fun n hn => (enterState_get rfl rfl _ _ rfl).trans <|
      (hdisabled n).enginesHeld <| ((hdisabled n).mono fun _ h => List.mem_cons_of_mem _ h).suppliersOff (unitsOff_disabled hn z)
    engine := fun e he => (enterState_get rfl rfl _ _ rfl).trans (enginesHeld_inReset he (hserved e))
    flag := State.sticky_raise (by decide) (by decide) ..
    event := enterState_evtSeq ((noted_evtSeq z.evtSeq).shutting.standbyShut le_rfl) (hold _ _ rfl)
    host := hhost
    within := hwithin }

end

/-! ### The state commands' two ways in (R278, R415, R426) -/

section
variable {s z : State} {v : CmdVia} {p : Path} {w : Word} {code : Nat}

theorem stateRow_cmd (htake : s.takesCmd v = true) (hiso : s.isolated dieC = false) (hok : (cmdEntry v s).stateOk code = true) :
    stateRow (.cmd v) code s = .next (stateChange code 0x60 (softTaken v s)) := by
  have hjudged : onDie dieC (fun s => if s.stateOk code then cmdOk s else cmdIgnored s) (cmdEntry v s) = cmdOk (cmdEntry v s) :=
    (onDie_run ((cmdEntry_isolated v s dieC).trans hiso)).trans (if_pos hok)
  have hafter : (softTaken v s).isolated dieC = false :=
    (isolated_of_get ((prelude_softTaken v s).get _ (by decide)) dieC).trans hiso
  have hthen := directThen_ok (after := fun s => if s.isolated dieC then s else stateChange code 0x60 s) htake hjudged
  unfold stateRow
  dsimp only
  rw [hthen, hafter, if_neg Bool.false_ne_true]

theorem stateRow_write (hcode : code < 2 ^ 4) (h : s.takesWrite p ⟨.GLB_CMD, 0, 0, 0⟩ (wordSet w 0 4 code)) :
    stateRow (.write p w) code s = .next (stateChange code 0x61 (softWritten (wordSet w 0 4 code) s)) := by
  obtain ⟨hopen, hreach, _, haccept⟩ := h
  have hrow : stateRow (.write p w) code s = .next (regWriteBe p (Reg.off ⟨.GLB_CMD, 0, 0, 0⟩) 15 (wordSet w 0 4 code) s).2 := rfl
  have hlink : s.linked (Path.die p) (dieOfOff (Reg.off ⟨.GLB_CMD, 0, 0, 0⟩)) = true := by
    rw [die_of_accepts haccept]
    rfl
  have hreg : Reg.ofOff (Reg.off ⟨.GLB_CMD, 0, 0, 0⟩) = some ⟨.GLB_CMD, 0, 0, 0⟩ := by decide
  have happly : applyWrite p ⟨.GLB_CMD, 0, 0, 0⟩ (wordSet w 0 4 code) s
      = stateChange (wordGet (wordSet w 0 4 code) 0 4) 0x61 (softWritten (wordSet w 0 4 code) s) := rfl
  have hget : wordGet (wordSet w 0 4 code) 0 4 = code := (wordGet_wordSet w 0 4 code (by decide)).trans (Nat.mod_eq_of_lt hcode)
  rw [hrow]
  unfold regWriteBe
  dsimp only
  rw [hopen, hreach, hreg]
  dsimp only
  rw [hlink, haccept, happly, hget]
  rfl

/-- Where a state command's change begins. -/
structure StateEntry (s z : State) : Prop extends Prelude s z where
  within : Within s z (spanMgt ++ spanGlb)
  event : s.evtSeq ≤ z.evtSeq

theorem stateEntry_taken (v : CmdVia) (s : State) : StateEntry s (softTaken v s) where
  toPrelude := prelude_softTaken v s
  within := softTaken_keeps ((kept_within s _).mono fun _ h => via_within v spanGlb h) (Within.refl s _)
  event := by rw [(softTaken_posts v s).1]; omega

theorem stateEntry_written (w : Word) (s : State) : StateEntry s (softWritten w s) where
  toPrelude := prelude_softWritten w s
  within := (kept_within_names s _).word s _ _ (.inl (by decide)) (Within.refl s _)
  event := le_rfl

theorem StateEntry.changed (he : StateEntry s z) {spans : List (Nat × Nat)} (hsub : ∀ a ∈ spanMgt ++ spanGlb, a ∈ spans) {u : State}
    (h : Within z u spans) : Within s u spans :=
  (he.within.mono hsub).trans h

theorem cmdEntry_stateOk_run (hpkg : s.pkg = pkgRun) (hchg : s.on GLB_STATE_CHANGING = false) : (cmdEntry v s).stateOk 2 = true := by
  have h1 : (cmdEntry v s).pkg = s.pkg := cmdEntry_get (by decide)
  have h2 : (cmdEntry v s).on GLB_STATE_CHANGING = s.on GLB_STATE_CHANGING := State.on_of_get (cmdEntry_get (by decide))
  unfold State.stateOk
  rw [h1, h2, hpkg, hchg]
  rfl

theorem cmdEntry_stateOk_standby (hpkg : s.pkg = pkgStandby) (hchg : s.on GLB_STATE_CHANGING = false) :
    (cmdEntry v s).stateOk 1 = true := by
  have h1 : (cmdEntry v s).pkg = s.pkg := cmdEntry_get (by decide)
  have h2 : (cmdEntry v s).on GLB_STATE_CHANGING = s.on GLB_STATE_CHANGING := State.on_of_get (cmdEntry_get (by decide))
  unfold State.stateOk
  rw [h1, h2, hpkg, hchg]
  rfl

/-- The outputs disabled are those of the state before the command. -/
theorem StateEntry.unkept (he : StateEntry s z) (n : Fin 48) (hon : s.unitOn n = true) (hkept : s.keptUnit n = false) :
    n.val ∈ z.unkeptUnits := by
  have hunit : z.unitOn n = s.unitOn n := State.on_of_get <| he.get (OUT_CTL_EN n) <| aside_of_event <| by
    have hoff : (OUT_CTL_EN n).off = 0x40000 + 0x200 * n.val + 0 * 0 + 0 * 0 := rfl
    omega
  have hlo : z.bit GLB_STBY_OUT_LO_MASK n = s.bit GLB_STBY_OUT_LO_MASK n := State.bit_of_get (he.get _ (by decide)) _
  have hhi : z.bit GLB_STBY_OUT_HI_MASK (n - 32) = s.bit GLB_STBY_OUT_HI_MASK (n - 32) := State.bit_of_get (he.get _ (by decide)) _
  have hkeeps : z.keptUnit n = s.keptUnit n := by
    unfold State.keptUnit
    rw [hlo, hhi]
  simp only [State.unkeptUnits, List.mem_filter, List.mem_range, hunit, hkeeps, hon, hkept]
  exact ⟨n.isLt, rfl⟩

end

/-! ### Leaving STANDBY with nothing to restore (R417) -/

section
variable {P : State → Prop} {s z : State}

/-- The registers written as STANDBY is left. -/
def exitNames : List RegName := .GLB_STATE :: .GLB_EVT :: downNames

/-- RUN is entered with no enable restored and no sequence started. -/
theorem standbyExit_plain (heng : z.pkg_.stbyEng = 0) (hlnk : z.pkg_.stbyLnk = 0) (hsyn : z.pkg_.stbySyn = 0) (hout : z.pkg_.stbyOut = 0)
    (hwake : z.on GLB_STBY_CTL_WAKE_EN = false) : standbyExit z = autoJoin (enterState pkgRun ((z.put GLB_STATE_CHANGING false).modPkg
      (fun x => { x with stbyOut := 0, stbySyn := 0, stbyLnk := 0 }))) := by
  unfold standbyExit
  dsimp only
  rw [heng, hlnk, hsyn, hout, hwake]
  rfl

theorem Steady.autoJoin (K : Steady downNames P) (hs : P z) : P (autoJoin z) := by
  unfold Machine.autoJoin Machine.cmdLinkJoin
  split
  · split
    · exact K.showPorts <| K.set rfl <| K.set rfl hs
    · exact hs
  · exact hs

/-- What leaving STANDBY shows. -/
structure StandbyLeft (z u : State) : Prop where
  pkg : u.pkg = pkgRun
  flag : u.bit GLB_EVT_EVT 5 = true
  event : z.evtSeq < u.evtSeq
  host : u.host = z.host
  within : Within z u stateSpans

theorem standbyLeft (heng : z.pkg_.stbyEng = 0) (hlnk : z.pkg_.stbyLnk = 0) (hsyn : z.pkg_.stbySyn = 0) (hout : z.pkg_.stbyOut = 0)
    (hwake : z.on GLB_STBY_CTL_WAKE_EN = false) : StandbyLeft z (standbyExit z) := by
  rw [standbyExit_plain heng hlnk hsyn hout hwake]
  have hall : ∀ {P : State → Prop}, Steady exitNames P → P z → P (autoJoin (enterState pkgRun
      ((z.put GLB_STATE_CHANGING false).modPkg (fun x => { x with stbyOut := 0, stbySyn := 0, stbyLnk := 0 })))) := fun K hs =>
    (K.mono fun _ h => List.mem_cons_of_mem _ (List.mem_cons_of_mem _ h)).autoJoin <| K.enterState rfl rfl <|
      K.beside (K.put (f := GLB_STATE_CHANGING) rfl hs) rfl
  have hseq : ((z.put GLB_STATE_CHANGING false).modPkg
      (fun x => { x with stbyOut := 0, stbySyn := 0, stbyLnk := 0 })).evtSeq = z.evtSeq := by
    change (z.put GLB_STATE_CHANGING false).evtSeq = _
    rw [State.put_eq, State.set_evtSeq]
  exact {
    pkg := (noted_get GLB_STATE_STATE pkgRun rfl).steady.autoJoin (enterState_pkg rfl _)
    flag := (steady_stateEntered rfl).autoJoin (State.sticky_raise (by decide) (by decide) ..)
    event := (noted_evtSeq (z.evtSeq + 1)).steady.autoJoin (enterState_evtSeq hseq.ge (State.get_set_apart rfl))
    host := hall (steady_host z.host) rfl
    within := hall (noted_within z (by decide)).steady (Within.refl z _) }

end

/-! ### Entry to KEEP (R418) -/

/-- The Kiln records of the locked regions, refreshed. -/
def recordsRefreshed (s : State) : State :=
  s.each 4 (fun t s =>
    let h := s.holdoverValue t
    if s.dpll t = dpllLocked then
      (writeHoldover t h s).when (h.2.1 = hoWindow) (writeKilnRecord t h.1 (s.on (TRG_STAT_SAMP_SRC t)))
    else s)

/-- Every enabled output is disabled. -/
def outputsOff (s : State) : State := s.each 48 (fun n s => if s.unitOn n then unitDisable n (s.set (OUT_CTL_EN n) 0) else s)

/-- Every driver is at high impedance. -/
def driversOff (s : State) : State := s.each 48 (fun n s => s.modOut n (fun o => { o with hiZ := true }))

/-- Every port is disabled. -/
def linksOff (s : State) : State := s.each 4 (fun k s => portDisable k (s.set (LNK_CTL_EN k) 0))

/-- The charger and the regulators but HK0 are off. -/
def supplyOff (s : State) : State := (chargerFollow (s.set HUP_CTL_EN 0)).each 7 (fun b s => hkWrite (b + 1) false s)

/-- The link of the host port is down and the entry under way. -/
def keepShown (s : State) : State :=
  (((((s.set HOST_STAT_LINK_UP 0).set HOST_STAT_RATE 0).set HOST_STAT_WIDTH 0).modHost (fun h => { h with link := false })).set
    GLB_STATE_CHANGING 1).modPkg (fun x => { x with keeping := true })

theorem keepEnter_eq (s : State) : keepEnter s = keepShown (supplyOff (linksOff (driversOff (outputsOff (recordsRefreshed s))))) := rfl

/-- The registers of the holdover values and of their Kiln records. -/
def recordNames : List RegName := [.TRG_STAT, .TRG_HO_VAL_LO, .TRG_HO_VAL_HI, .TRG_HO_INFO, .KLN_HO_LO, .KLN_HO_HI, .KLN_HO_SEC]

/-- The registers written as the charger and the regulators go off. -/
def supplyNames : List RegName := .HUP_CTL :: .HUP_STAT :: downNames

/-- All the registers written before the host port's. -/
def keepNames : List RegName := .HUP_CTL :: .HUP_STAT :: .LNK_CTL :: (recordNames ++ downNames)

section
variable {P : State → Prop} {s z : State}

theorem Steady.setS48 {names : List RegName} (K : Steady names P) {lo hi : Fld} {v : Int} (hlo : Listed names lo) (hhi : Listed names hi)
    (hs : P s) : P (s.setS48 lo hi v) :=
  K.set hhi (K.set hlo hs)

theorem Steady.writeHoldover (K : Steady recordNames P) {t : Nat} {h : Int × Nat × Nat × Int} (hs : P s) : P (writeHoldover t h s) := by
  have hvalue : P ((((s.setS48 (TRG_HO_VAL_LO_HO t) (TRG_HO_VAL_HI_HO t) h.1).set (TRG_HO_VAL_HI_VALID t) 1).set (TRG_HO_INFO_NVALID t)
      h.2.2.1).set (TRG_STAT_HO_SRC t) h.2.1) := K.set rfl <| K.set rfl <| K.set rfl <| K.setS48 rfl rfl hs
  unfold Machine.writeHoldover
  dsimp only
  split
  · exact K.set rfl hvalue
  · exact hvalue

theorem Steady.withKilnStale {names : List RegName} (K : Steady names P) {x : Nat} (hs : P s) : P { s with kilnStale := x } :=
  K.beside hs rfl

theorem Steady.writeKilnRecord (K : Steady recordNames P) {t : Nat} {v : Int} {stb : Bool} (hs : P s) : P (writeKilnRecord t v stb s) := by
  unfold Machine.writeKilnRecord
  split
  · exact K.withKilnStale <| K.set rfl <| K.set rfl <| K.put rfl <| K.setS48 rfl rfl hs
  · exact hs

theorem Steady.recordsRefreshed (K : Steady recordNames P) (hs : P s) : P (recordsRefreshed s) :=
  K.each (fun _ _ h => K.ite (K.when (fun _ h1 => K.writeKilnRecord h1) <| K.writeHoldover h) h) hs

theorem Shutting.outputsOff (K : Shutting downNames P) (hs : P s) : P (outputsOff s) :=
  K.each (fun _ _ h => K.ite (K.unitDisable <| K.unitOff h) h) hs

theorem Shutting.driversOff (K : Shutting downNames P) (hs : P s) : P (driversOff s) := K.each (fun _ _ h => K.modOut h) hs

theorem Steady.linksOff (K : Steady supplierNames P) (hs : P s) : P (linksOff s) := by
  have D : Steady downNames P := K.mono fun _ h => List.mem_cons_of_mem _ h
  exact K.each (fun _ _ h => D.portDisable <| K.set rfl h) hs

theorem Steady.chargerFollow (K : Steady supplyNames P) (hs : P s) : P (chargerFollow s) :=
  K.ite (K.set rfl hs) <| K.ite (K.set rfl hs) hs

theorem Steady.supplyOff (K : Steady supplyNames P) (hs : P s) : P (supplyOff s) := by
  have D : Steady downNames P := K.mono fun _ h => List.mem_cons_of_mem _ (List.mem_cons_of_mem _ h)
  exact D.each (fun _ _ h => D.hkWrite h) <| K.chargerFollow <| K.set rfl hs

theorem Shutting.keepShut (K : Shutting keepNames P) (hs : P s) :
    P (Machine.supplyOff (Machine.linksOff (Machine.driversOff (Machine.outputsOff (Machine.recordsRefreshed s))))) := by
  have D : Shutting downNames P := K.mono (by decide)
  refine (K.toSteady.mono (by decide)).supplyOff <| (K.toSteady.mono (by decide)).linksOff <| D.driversOff <| D.outputsOff ?_
  exact (K.toSteady.mono (by decide)).recordsRefreshed hs

/-! ### What is off then -/

theorem outputsOff_disabled {n : Nat} (hn : n < 48) (s : State) : (outputsOff s).get (OUT_CTL_EN n) = 0 := by
  have K : Shutting downNames (fun s => s.get (OUT_CTL_EN n) = 0) := shutting_disabled n rfl
  refine foldl_establishes (B := fun s => s.get (OUT_CTL_EN n) = 0) (List.mem_range.2 hn) (fun u => ?_) (fun u q hu => ?_) s
  · dsimp only
    split
    · exact K.unitDisable (s := u.set (OUT_CTL_EN n) 0) (State.get_set_own rfl rfl)
    · next hoff =>
      unfold State.unitOn State.on at hoff
      have := u.get_lt (OUT_CTL_EN n)
      simp only [decide_eq_true_eq] at hoff
      change u.get (OUT_CTL_EN n) < 2 at this
      omega
  · exact K.ite (K.unitDisable (K.unitOff hu)) hu

theorem driversOff_hiZ {n : Nat} (hn : n < 48) (s : State) : ((driversOff s).outOf n).hiZ = true := by
  have hown : ∀ u : State, ((u.modOut n (fun o => { o with hiZ := true })).outOf n).hiZ = true := fun u => by
    unfold State.outOf State.modOut
    rw [bankGet_bankMod_same u.out _ hn]
  unfold driversOff
  refine foldl_establishes (B := fun s => (s.outOf n).hiZ = true) (List.mem_range.2 hn) hown (fun u q hu => ?_) s
  by_cases hq : q = n
  · subst hq
    exact hown u
  · unfold State.outOf State.modOut at *
    rw [bankGet_bankMod_other u.out _ hn hq]
    exact hu

theorem linksOff_disabled {k : Nat} (hk : k < 4) (s : State) : (linksOff s).get (LNK_CTL_EN k) = 0 := by
  have K : Steady downNames (fun s => s.get (LNK_CTL_EN k) = 0) := (noted_get (LNK_CTL_EN k) 0 rfl).steady
  refine foldl_establishes (B := fun s => s.get (LNK_CTL_EN k) = 0) (List.mem_range.2 hk) (fun u => ?_) (fun u q hu => ?_) s
  · exact K.portDisable (s := u.set (LNK_CTL_EN k) 0) (State.get_set_own rfl rfl)
  · refine K.portDisable (s := u.set (LNK_CTL_EN q) 0) ?_
    by_cases hq : q = k
    · subst hq
      exact State.get_set_own rfl rfl
    · exact (State.get_set_ne _ _ _ _ (by simp [LNK_CTL_EN, hq])).trans hu

theorem supplyOff_charger (s : State) : (supplyOff s).get HUP_STAT_CHG = chgOff := by
  have K : Steady downNames (fun s => s.get HUP_STAT_CHG = chgOff) := (noted_get HUP_STAT_CHG chgOff rfl).steady
  refine K.each (fun _ _ h => K.hkWrite h) ?_
  have hen : (s.set HUP_CTL_EN 0).on HUP_CTL_EN = false := State.on_eq_false (State.get_set_own rfl rfl)
  unfold chargerFollow
  rw [hen]
  exact State.get_set_own rfl rfl

end

/-- Where entry to KEEP may write. -/
abbrev keepSpans : List (Nat × Nat) :=
  spanGlb ++ spanHost ++ spanMgt ++ spanKln ++ spanPlz ++ spanWork ++ spanDma ++ spanEng

section
variable {P : State → Prop} {s z : State} {v : CmdVia}

theorem State.get_modPkg (s : State) (g : PkgInt → PkgInt) (f : Fld) : (s.modPkg g).get f = s.get f := rfl

theorem State.get_modHost (s : State) (g : HostInt → HostInt) (f : Fld) : (s.modHost g).get f = s.get f := rfl

theorem keepShown_get {f : Fld} (h : f.reg.name ≠ .HOST_STAT) (hg : GLB_STATE_CHANGING.apartFrom f = true) (s : State) :
    (keepShown s).get f = s.get f := by
  have hhost : ∀ (x : State) (q : Fld) (n : Nat), q.reg.name = .HOST_STAT → (x.set q n).get f = x.get f := fun x q n hq =>
    State.get_set_ne _ _ _ _ (Reg.ne_of_name (by rw [hq]; exact h.symm))
  unfold keepShown
  rw [State.get_modPkg, State.get_set_apart hg, State.get_modHost, hhost _ HOST_STAT_WIDTH _ rfl, hhost _ HOST_STAT_RATE _ rfl,
    hhost _ HOST_STAT_LINK_UP _ rfl]

theorem keepShown_changing (s : State) : (keepShown s).get GLB_STATE_CHANGING = 1 := by
  unfold keepShown
  rw [State.get_modPkg]
  exact State.get_set_own rfl rfl

theorem keepShown_link (s : State) : (keepShown s).get HOST_STAT_LINK_UP = 0 := by
  unfold keepShown
  rw [State.get_modPkg, State.get_set_apart rfl, State.get_modHost, State.get_set_apart rfl, State.get_set_apart rfl]
  exact State.get_set_own rfl rfl

theorem keepShown_status (s : State) : (keepShown s).host.lastStatus = s.host.lastStatus := by
  simp [keepShown, State.modHost, State.modPkg]

theorem keepShown_outOf (s : State) (n : Nat) : (keepShown s).outOf n = s.outOf n := by
  simp [keepShown, State.modHost, State.modPkg, State.outOf]

theorem Kept.modPkg {ok : Reg → Prop} (K : Kept ok P) {g : PkgInt → PkgInt} (hs : P s) : P (s.modPkg g) := K.beside hs rfl

theorem keepShown_within {spans : List (Nat × Nat)} (h : ∀ n ∈ [RegName.HOST_STAT, .GLB_STATE], n.within spans = true)
    (hs : Within z s spans) : Within z (keepShown s) spans := by
  have K := kept_within_names z spans
  have hhost := h _ List.mem_cons_self
  have hglb := h _ (List.mem_cons_of_mem _ List.mem_cons_self)
  have hdown : Within z (((s.set HOST_STAT_LINK_UP 0).set HOST_STAT_RATE 0).set HOST_STAT_WIDTH 0) spans :=
    K.set _ _ (.inl hhost) <| K.set _ _ (.inl hhost) <| K.set _ _ (.inl hhost) hs
  unfold keepShown
  exact K.modPkg <| K.set GLB_STATE_CHANGING 1 (.inl hglb) (K.modHost hdown)

/-- What entry to KEEP shows. -/
structure KeepEntered (z u : State) : Prop where
  changing : u.get GLB_STATE_CHANGING = 1
  pkg : u.pkg = z.pkg
  link : u.get HOST_STAT_LINK_UP = 0
  charger : u.get HUP_STAT_CHG = chgOff
  unit : ∀ n < 48, u.get (OUT_CTL_EN n) = 0
  driver : ∀ n < 48, (u.outOf n).hiZ = true
  port : ∀ k < 4, u.get (LNK_CTL_EN k) = 0
  status : u.host.lastStatus = z.host.lastStatus
  within : Within z u keepSpans

theorem keepEntered (z : State) : KeepEntered z (keepEnter z) := by
  rw [keepEnter_eq]
  have hhost : (supplyOff (linksOff (driversOff (outputsOff (recordsRefreshed z))))).host = z.host := (shutting_host z.host).keepShut rfl
  have hpkg : (supplyOff (linksOff (driversOff (outputsOff (recordsRefreshed z))))).get GLB_STATE_STATE = z.get GLB_STATE_STATE :=
    (noted_get GLB_STATE_STATE _ rfl).shutting.keepShut rfl
  have hlater : ∀ (f : Fld) (x : State), ((.LNK_CTL :: supplyNames) ++ eventNames).contains f.reg.name = false →
      (supplyOff (linksOff x)).get f = x.get f := fun f x hf =>
    have K : Steady (.LNK_CTL :: supplyNames) (fun u => u.get f = x.get f) := (noted_get f _ hf).steady
    (K.mono (by decide)).supplyOff <| (K.mono (by decide)).linksOff rfl
  exact {
    changing := keepShown_changing _
    pkg := (keepShown_get (by decide) rfl _).trans hpkg
    link := keepShown_link _
    charger := (keepShown_get (by decide) rfl _).trans (supplyOff_charger _)
    unit := fun n hn => (keepShown_get (show RegName.OUT_CTL ≠ .HOST_STAT by decide) rfl _).trans <| (hlater _ _ rfl).trans <|
      (shutting_disabled n rfl : Shutting downNames _).driversOff (outputsOff_disabled hn _)
    driver := fun n hn => by
      have hout : ∀ x : State, (supplyOff (linksOff x)).out = x.out := fun x =>
        have K : ∀ names, Steady names (fun u => u.out = x.out) := fun _ => steady_out x.out
        (K _).supplyOff <| (K _).linksOff rfl
      rw [keepShown_outOf]
      unfold State.outOf
      rw [hout]
      exact driversOff_hiZ hn _
    port := fun k hk => (keepShown_get (show RegName.LNK_CTL ≠ .HOST_STAT by decide) rfl _).trans <|
      (noted_get (LNK_CTL_EN k) 0 rfl).steady.supplyOff (linksOff_disabled hk _)
    status := (keepShown_status _).trans (congrArg HostInt.lastStatus hhost)
    within := keepShown_within (by decide) <|
      (noted_within z (by decide) : Noted (.OUT_CTL :: keepNames) (fun u => Within z u keepSpans)).shutting.keepShut (Within.refl z _) }

theorem cmdEntry_stateOk_keep (hactive : s.active = true) (hchg : s.on GLB_STATE_CHANGING = false) (hkeep : s.keepOk = true) :
    (cmdEntry v s).stateOk 3 = true := by
  have hget : ∀ f : Fld, f.reg.name ≠ .MGT_MBX_CTL → (cmdEntry v s).get f = s.get f := fun _ => cmdEntry_get_named
  have hpkg : (cmdEntry v s).pkg = s.pkg := hget _ (by decide)
  have hotp : (cmdEntry v s).otp = s.otp := by
    cases v with
    | ring => rfl
    | mbx k => simp [cmdEntry, mbxTake]
  have h2 : (cmdEntry v s).on GLB_STATE_CHANGING = s.on GLB_STATE_CHANGING := State.on_of_get (hget _ (by decide))
  have hvaux : (cmdEntry v s).on KLN_STAT_VAUX_OK = s.on KLN_STAT_VAUX_OK := State.on_of_get (hget _ (by decide))
  have hseq : (cmdEntry v s).seqState = s.seqState := hget _ (by decide)
  have hrail : ∀ r, (cmdEntry v s).railState r = s.railState r := fun r => hget _ (show RegName.PRG_RSTAT ≠ .MGT_MBX_CTL by decide)
  have hok : (cmdEntry v s).keepOk = true := by
    unfold State.keepOk at hkeep ⊢
    simp only [hrail, hvaux, hseq, hotp]
    exact hkeep
  have hact : (cmdEntry v s).active = true := by
    unfold State.active at hactive ⊢
    rwa [hpkg]
  unfold State.stateOk
  rw [hact, h2, hchg, hok]
  rfl

end

/-! ### HK0's stop and the wakes (R418, R419) -/

section
variable {s : State} {f : Fld} {v cause : Nat} {g : FieldSpec}

/-- A field that the reset keeps reads as before. -/
theorem State.Reads.bareState_kept (h : s.Reads f v) (hg : f.Row g) {k : ResetKind} (hk : k.keeps g.keep = true) :
    (Machine.bareState k s).Reads f v := by
  have hr := h.resetRegs hg (resetFields_regs k s)
  rw [hk] at hr
  exact hr.of_regs rfl

theorem row_wakeSec : KLN_WAKE_WAKE_SEC.Row ⟨0, 24, .rw, .kwsh, []⟩ := ⟨List.mem_cons_self, rfl, rfl⟩

/-- The hub in KEEP, the Kiln supplied. -/
def hk0Stopped (s : State) : State :=
  ((bareState .keep (tearFlash s)).set GLB_STATE_STATE pkgKeep).modPkg (fun x => { x with keepSec := s.get KLN_TIME_SEC })

theorem execKeepHk0Stop_keeping (h : s.pkg_.keeping = true) : execKeepHk0Stop s = .next (hk0Stopped s) := by
  unfold execKeepHk0Stop
  rw [if_pos h]
  rfl

theorem execKeepHk0Stop_idle (h : s.pkg_.keeping = false) : execKeepHk0Stop s = .next s := by
  unfold execKeepHk0Stop
  rw [h, if_neg Bool.false_ne_true]

theorem hk0Stopped_pkg (s : State) : (hk0Stopped s).pkg = pkgKeep :=
  ((State.reads_set _ GLB_STATE_STATE pkgKeep (by decide)).modPkg _).value

theorem hk0Stopped_evtFifo (s : State) : (hk0Stopped s).evtFifo = [] := by
  unfold hk0Stopped
  change ((bareState .keep (tearFlash s)).set GLB_STATE_STATE pkgKeep).evtFifo = []
  rw [State.set_evtFifo, bareState_evtFifo]

theorem hk0Stopped_stores (s : State) : (hk0Stopped s).stores = s.stores :=
  (robust_stores s.stores).modPkg <| (robust_stores s.stores).set <| (bareState_stores .keep _).trans (tearFlash_stores s)

/-- What the Kiln keeps reads as before. -/
theorem hk0Stopped_kept (hwf : RegsWf s.regs) (hg : f.Row g) (hk : ResetKind.keep.keeps g.keep = true)
    (hn : RegName.GLB_STATE ≠ f.reg.name) : (hk0Stopped s).get f = s.get f :=
  (((((hwf.reads f).of_regs (tearFlash_regs s)).bareState_kept hg hk).set_name hn).modPkg _).value

theorem keepWake_pkg (cause : Nat) (s : State) : (keepWake cause s).pkg = pkgBoot :=
  bootSupplies_pkg ((State.reads_set _ GLB_STATE_STATE pkgBoot (by decide)).modPkg _)

theorem keepWake_stores (cause : Nat) (s : State) : (keepWake cause s).stores = s.stores :=
  (bootSupplies_stores _).trans <| (robust_stores s.stores).modPkg <| (robust_stores s.stores).set <|
    (bareState_stores .keep _).trans <| (robust_stores s.stores).recordReset rfl

/-- A field that power-on alone resets reads as the record of the wake leaves it. -/
theorem keepWake_get (h : (recordReset cause false s).Reads f v) (hg : f.Row g) (hp : g.keep = .p)
    (hn : [RegName.GLB_DIE, .FLT_RSTAT, .GLB_STATE].contains f.reg.name = false) : (keepWake cause s).get f = v := by
  have hstate : RegName.GLB_STATE ≠ f.reg.name := fun e => by rw [← e] at hn; cases hn
  exact ((((h.bareState (hg.lasts hp v) (by decide)).set_name hstate).modPkg _).bootSupplies (hg.lasts hp v) hn).value

/-- What a wake shows. -/
structure Woken (s u : State) (cause : Nat) : Prop where
  pkg : u.pkg = pkgBoot
  recorded : u.get GLB_RESET_CAUSE = cause
  history : u.get (KLN_HIST_CAUSE 0) = cause
  count : u.get GLB_RESET_RST_CNT = satNat 16 (s.get GLB_RESET_RST_CNT + 1)
  flash : u.flash = s.flash
  fuse : u.otp.fuse = s.otp.fuse
  pending : u.pending = s.pending

theorem woken (hc : cause < 256) (s : State) : Woken s (keepWake cause s) cause where
  pkg := keepWake_pkg cause s
  recorded := keepWake_get (recordReset_cause hc s) row_cause rfl rfl
  history := keepWake_get (recordReset_history hc s) (row_history 0) rfl rfl
  count := keepWake_get (recordReset_count cause s) row_count rfl rfl
  flash := State.stores_flash (keepWake_stores cause s)
  fuse := State.stores_fuse (keepWake_stores cause s)
  pending := State.stores_pending (keepWake_stores cause s)

/-- The keeper time shown as a timer wake falls due. -/
def wakeShown (s : State) : State := s.set KLN_TIME_SEC s.wakeTime

theorem wakeShown_count (s : State) : (wakeShown s).get GLB_RESET_RST_CNT = s.get GLB_RESET_RST_CNT := State.get_set_apart rfl

theorem wakeShown_stores (s : State) : (wakeShown s).stores = s.stores := (robust_stores s.stores).set rfl

theorem wakeShown_woken (s : State) : Woken s (keepWake 0x71 (wakeShown s)) 0x71 := by
  obtain ⟨hpkg, hcause, hhist, hcount, -, -, -⟩ := woken (cause := 0x71) (by decide) (wakeShown s)
  rw [wakeShown_count] at hcount
  have hstores := (keepWake_stores 0x71 (wakeShown s)).trans (wakeShown_stores s)
  exact ⟨hpkg, hcause, hhist, hcount, State.stores_flash hstores, State.stores_fuse hstores, State.stores_pending hstores⟩

theorem execKeepTimerWake_due {x : BitVec 16} (hpkg : s.pkg = pkgKeep) (hsec : s.get KLN_WAKE_WAKE_SEC ≠ 0)
    (hok : s.on KLN_STAT_KEEPER_OK = true) : execKeepTimerWake x s = .next (if s.pkg_.vinLow ∨ x.toNat < 7500 then
      (wakeShown s).modPkg (fun y => { y with timerDue := true }) else keepWake 0x71 (wakeShown s)) := by
  unfold execKeepTimerWake
  rw [if_pos ⟨hpkg, hsec, hok⟩]
  rfl

theorem State.wakeTime_lt (s : State) : s.wakeTime < 2 ^ 32 :=
  Nat.max_lt.2 ⟨s.get_lt KLN_TIME_SEC, Nat.mod_lt _ (by decide)⟩

theorem wakeShown_time (s : State) : (wakeShown s).get KLN_TIME_SEC = s.wakeTime :=
  (State.get_set_same s KLN_TIME_SEC s.wakeTime (by decide)).trans (Nat.mod_eq_of_lt s.wakeTime_lt)

end

/-! ### STANDBY, KEEP and the wakes, as the statement has them -/

section
variable {s z : State} {v : CmdVia} {p : Path} {w : Word}

/-- A bit that is not set reads 0. -/
theorem State.get_of_off {f : Fld} (hw : f.w = 1) (h : s.on f = false) : s.get f = 0 := by
  have hlt := s.get_lt f
  rw [hw] at hlt
  unfold State.on at h
  simp only [decide_eq_false_iff_not] at h
  omega

theorem StateEntry.standby_unit (he : StateEntry s z) (n : Fin 48) (hon : s.unitOn n = true) (hkept : s.keptUnit n = false) :
    (standbyEnter z).get (OUT_CTL_EN n) = 0 :=
  (standbyEntered z).unit n (he.unkept n hon hkept)

theorem StateEntry.standbyLeft (he : StateEntry s z) (heng : s.pkg_.stbyEng = 0) (hlnk : s.pkg_.stbyLnk = 0) (hsyn : s.pkg_.stbySyn = 0)
    (hout : s.pkg_.stbyOut = 0) (hwake : s.on GLB_STBY_CTL_WAKE_EN = false) : StandbyLeft z (standbyExit z) := by
  have hwake' : z.on GLB_STBY_CTL_WAKE_EN = false := (State.on_of_get (he.get _ (by decide))).trans hwake
  rw [← he.pkg] at heng hlnk hsyn hout
  exact Machine.standbyLeft heng hlnk hsyn hout hwake'

theorem exec_standbyEnter_cmd (htake : s.takesCmd v = true) (hiso : s.isolated dieC = false) (hpkg : s.pkg = pkgRun)
    (hchg : s.on GLB_STATE_CHANGING = false) : exec (.standbyEnter (.cmd v)) s = .next (standbyEnter (softTaken v s)) :=
  stateRow_cmd htake hiso (cmdEntry_stateOk_run hpkg hchg)

theorem exec_standbyEnter_write (h : s.takesWrite p ⟨.GLB_CMD, 0, 0, 0⟩ (wordSet w 0 4 2)) :
    exec (.standbyEnter (.write p w)) s = .next (standbyEnter (softWritten (wordSet w 0 4 2) s)) :=
  stateRow_write (by decide) h

theorem exec_standbyExit_cmd (htake : s.takesCmd v = true) (hiso : s.isolated dieC = false) (hpkg : s.pkg = pkgStandby)
    (hchg : s.on GLB_STATE_CHANGING = false) : exec (.standbyExit (.cmd v)) s = .next (standbyExit (softTaken v s)) :=
  stateRow_cmd htake hiso (cmdEntry_stateOk_standby hpkg hchg)

theorem exec_standbyExit_write (h : s.takesWrite p ⟨.GLB_CMD, 0, 0, 0⟩ (wordSet w 0 4 1)) :
    exec (.standbyExit (.write p w)) s = .next (standbyExit (softWritten (wordSet w 0 4 1) s)) :=
  stateRow_write (by decide) h

theorem exec_keepEnter_cmd (htake : s.takesCmd v = true) (hiso : s.isolated dieC = false) (hchg : s.on GLB_STATE_CHANGING = false)
    (hkeep : s.keepOk = true) : exec (.keepEnter (.cmd v)) s = .next (keepEnter (softTaken v s)) :=
  stateRow_cmd htake hiso (cmdEntry_stateOk_keep (active_of_takesCmd htake) hchg hkeep)

theorem exec_keepEnter_write (h : s.takesWrite p ⟨.GLB_CMD, 0, 0, 0⟩ (wordSet w 0 4 3)) :
    exec (.keepEnter (.write p w)) s = .next (keepEnter (softWritten (wordSet w 0 4 3) s)) :=
  stateRow_write (by decide) h

theorem execVinWake_due (hpkg : s.pkg = pkgKeep) (hdue : s.pkg_.timerDue = true) : execVinWake s = .next (keepWake 0x71 s) := by
  unfold execVinWake
  rw [if_pos ⟨hpkg, hdue⟩]

theorem execVinWake_rise (hpkg : s.pkg = pkgKeep) (hlow : s.pkg_.vinLow = true) (hdue : s.pkg_.timerDue = false)
    (hwake : s.on KLN_WAKE_VIN_WAKE = true) : execVinWake s = .next (keepWake 0x72 s) := by
  unfold execVinWake
  rw [if_neg (by rw [hdue]; simp), if_pos ⟨hpkg, hlow⟩, if_pos hwake]

theorem Silent.modPkg {t : State} (h : Silent s t) (g : PkgInt → PkgInt) : Silent s (t.modPkg g) := h

/-- The wake falls due while VIN is low, and waits. -/
def wakeWaits (s : State) : State := (wakeShown s).modPkg (fun y => { y with timerDue := true })

theorem exec_keepTimerWake_wakes {x : BitVec 16} (hpkg : s.pkg = pkgKeep) (hsec : s.get KLN_WAKE_WAKE_SEC ≠ 0)
    (hok : s.on KLN_STAT_KEEPER_OK = true) (hlow : s.pkg_.vinLow = false) (hvin : 7500 ≤ x.toNat) :
    exec (.keepTimerWake x) s = .next (keepWake 0x71 (wakeShown s)) :=
  (execKeepTimerWake_due hpkg hsec hok).trans (congrArg _ (if_neg (by rw [hlow]; simp; omega)))

theorem exec_keepTimerWake_waits {x : BitVec 16} (hpkg : s.pkg = pkgKeep) (hsec : s.get KLN_WAKE_WAKE_SEC ≠ 0)
    (hok : s.on KLN_STAT_KEEPER_OK = true) (hlow : s.pkg_.vinLow = true ∨ x.toNat < 7500) :
    exec (.keepTimerWake x) s = .next (wakeWaits s) :=
  (execKeepTimerWake_due hpkg hsec hok).trans (congrArg _ (if_pos hlow))

theorem wakeWaits_get (s : State) (f : Fld) : (wakeWaits s).get f = (wakeShown s).get f := State.get_modPkg _ _ f

theorem wakeWaits_pkg (s : State) : (wakeWaits s).pkg = s.pkg := (wakeWaits_get s GLB_STATE_STATE).trans (State.get_set_apart rfl)

theorem wakeWaits_silent (s : State) : Silent s (wakeWaits s) := ((Silent.refl s).set _ _).modPkg _

theorem wakeWaits_frame (s : State) : Frame s (wakeWaits s) [Fld.off KLN_TIME_SEC] :=
  (kept_frame s _).modPkg <| (kept_frame s _).set KLN_TIME_SEC _ List.mem_cons_self (Frame.refl s _)

/-- VIN has been seen low. -/
def vinSeenLow (s : State) : State := s.modPkg (fun y => { y with vinLow := true })

theorem exec_keepVinLow (hpkg : s.pkg = pkgKeep) : exec .keepVinLow s = .next (vinSeenLow s) := congrArg Host.Outcome.next (if_pos hpkg)

end

/-- Settles O33: each unit that goes off is walked once for what it writes, and a wake's reset keeps what the Kiln holds. -/
theorem standbyAndKeep : Obligations.StandbyAndKeep := by
  unfold Obligations.StandbyAndKeep
  refine ⟨?_, ?_, ?_, ?_, ?_, ?_, ?_, ?_, ?_, ?_, ?_, ?_, ?_⟩
  · intro v s htake hiso hpkg hchg
    have he := stateEntry_taken v s
    have hs := standbyEntered (softTaken v s)
    have hzero : (softTaken v s).get GLB_STATE_CHANGING = 0 := (he.get _ (by decide)).trans (State.get_of_off rfl hchg)
    exact ⟨_, exec_standbyEnter_cmd htake hiso hpkg hchg, hs.pkg, hs.changing.trans hzero, he.standby_unit,
      fun e => hs.engine e e.isLt, hs.flag, he.event.trans_lt hs.event,
      (congrArg HostInt.lastStatus hs.host).trans (softTaken_status v s), he.changed (by decide) hs.within⟩
  · intro p w s hwrite
    have he := stateEntry_written (wordSet w 0 4 2) s
    have hs := standbyEntered (softWritten (wordSet w 0 4 2) s)
    exact ⟨_, exec_standbyEnter_write hwrite, hs.pkg, he.standby_unit, fun e => hs.engine e e.isLt, he.changed (by decide) hs.within⟩
  · intro v s htake hiso hpkg hchg heng hlnk hsyn hout hwake
    have he := stateEntry_taken v s
    have hs := he.standbyLeft heng hlnk hsyn hout hwake
    exact ⟨_, exec_standbyExit_cmd htake hiso hpkg hchg, hs.pkg, hs.flag, he.event.trans_lt hs.event,
      (congrArg HostInt.lastStatus hs.host).trans (softTaken_status v s), he.changed (by decide) hs.within⟩
  · intro p w s hwrite heng hlnk hsyn hout hwake
    have he := stateEntry_written (wordSet w 0 4 1) s
    have hs := he.standbyLeft heng hlnk hsyn hout hwake
    exact ⟨_, exec_standbyExit_write hwrite, hs.pkg, hs.flag, he.event.trans_lt hs.event, he.changed (by decide) hs.within⟩
  · intro v s htake hiso hchg hkeep
    have he := stateEntry_taken v s
    have hs := keepEntered (softTaken v s)
    exact ⟨_, exec_keepEnter_cmd htake hiso hchg hkeep, hs.changing, hs.pkg.trans (he.get GLB_STATE_STATE (by decide)), hs.link,
      hs.charger, fun n => ⟨hs.unit n n.isLt, hs.driver n n.isLt⟩, fun k => hs.port k k.isLt, hs.status.trans (softTaken_status v s),
      he.changed (by decide) hs.within⟩
  · intro p w s hwrite
    have he := stateEntry_written (wordSet w 0 4 3) s
    have hs := keepEntered (softWritten (wordSet w 0 4 3) s)
    exact ⟨_, exec_keepEnter_write hwrite, hs.changing, hs.pkg.trans (he.get GLB_STATE_STATE (by decide)),
      fun n => ⟨hs.unit n n.isLt, hs.driver n n.isLt⟩, he.changed (by decide) hs.within⟩
  · intro s hkeeping hwf
    have hstores := hk0Stopped_stores s
    exact ⟨_, execKeepHk0Stop_keeping hkeeping, hk0Stopped_pkg s, hk0Stopped_evtFifo s, State.stores_flash hstores,
      State.stores_fuse hstores, State.stores_pending hstores,
      fun j => hk0Stopped_kept hwf (row_scratch j) rfl (show RegName.GLB_STATE ≠ .KLN_SCR by decide),
      hk0Stopped_kept hwf row_wakeSec rfl (by decide)⟩
  · intro s hkeeping
    exact ⟨s, execKeepHk0Stop_idle hkeeping, rfl⟩
  · intro x s hpkg hsec hok hlow hvin
    have hs := wakeShown_woken s
    exact ⟨_, exec_keepTimerWake_wakes hpkg hsec hok hlow hvin, hs.pkg, hs.recorded, hs.history, hs.count, hs.flash,
      hs.fuse, hs.pending⟩
  · intro x s hpkg hsec hok hlow
    exact ⟨_, exec_keepTimerWake_waits hpkg hsec hok hlow, (wakeWaits_pkg s).trans hpkg, rfl,
      (wakeWaits_get s _).trans (wakeShown_time s), wakeWaits_silent s, wakeWaits_frame s⟩
  · intro s hpkg
    exact ⟨_, exec_keepVinLow hpkg, rfl, Silent.refl s, Frame.refl s []⟩
  · intro s hpkg hlow hdue hwake
    have hs := woken (cause := 0x72) (by decide) s
    exact ⟨_, execVinWake_rise hpkg hlow hdue hwake, hs.pkg, hs.recorded, hs.flash, hs.fuse, hs.pending⟩
  · intro s hpkg _ hdue
    have hs := woken (cause := 0x71) (by decide) s
    exact ⟨_, execVinWake_due hpkg hdue, hs.pkg, hs.recorded, hs.flash, hs.fuse, hs.pending⟩

end Sys2Proof.Machine

/-! An engine of an isolated T-die reaches no register of the C-die (R22, R23): four claims about pins, the watchdog, DMA channels and
the management ports that do not hold for what such an engine writes there, and one about the images of a class whose engines stand on
two dies. -/

namespace Sys2Proof.Machine

/-- T-die 0 is isolated while ENG4 on it runs on; ENG4 owns pin 0, as `PIN_OWN` says. -/
def isolatedEnginePinState : State := isolatedEngineState.set (PIN_OWN_OWNER 0) 4

/-- Refutes O29: a masked write of GPIO_MOUT by ENG4, the owner of pin 0, on the isolated T-die 0 is dropped, and the pin's latch stays
clear. -/
theorem not_pinsAndGpio : ¬ Obligations.PinsAndGpio := by
  rintro ⟨-, -, -, -, -, -, -, mout, -⟩
  obtain ⟨u, hu, hlatch, -⟩ := mout (.eng 4) 0 0x10001 isolatedEnginePinState (by decide)
  obtain rfl : isolatedEnginePinState = u := by
    have hdrop : writeReg (.eng 4) ⟨.GPIO_MOUT, 0, 0, 0⟩ 0x10001 isolatedEnginePinState = isolatedEnginePinState :=
      writeReg_of_unlinked (by decide) (by decide)
    rw [← hdrop]
    injection hu
  exact absurd (hlatch 0) (by decide)

/-- T-die 0 is isolated while ENG4 on it runs on; watchdog slot 0 is ENG4's, and the window of its open frame has no lower bound. -/
def isolatedEngineWdgState : State :=
  (((((isolatedEngineState.set WDG_CTL_EN 1).set (WDG_SLOT_EN 0) 1).set (WDG_SLOT_OWNER 0) 4).set (WDG_WIN_WMIN 0) 0).set
    (WDG_WIN_WMAX 0) 1000).modWdg 0 (fun _ => { started := true })

/-- The check-in that ENG4 on the isolated T-die 0 writes leaves its slot as it was. -/
theorem wdgKick_isolatedEngine {u : State} (hu : exec (.wdgKick (.eng 4) 0 0) isolatedEngineWdgState = .next u) :
    (u.wdgOf 0).kicked = false := by
  injection hu with hu
  rw [← hu]
  decide

/-- Refutes O30: the check-in of ENG4 on the isolated T-die 0, with the token in the open window, is dropped and marks no frame. -/
theorem not_watchdogJudgesFrames : ¬ Obligations.WatchdogJudgesFrames := by
  rintro ⟨kick, -⟩
  obtain ⟨u, hu, hkicked, -⟩ := kick (.eng 4) 0 0 0 isolatedEngineWdgState (by decide) (by decide) (by decide) (by decide) (by decide)
    (by decide) (by decide)
  exact Bool.noConfusion ((wdgKick_isolatedEngine hu).symm.trans hkicked)

/-- T-die 0 is isolated while ENG4 on it runs on; channel 0, which is DISABLED, is ENG4's. -/
def isolatedEngineDmaState : State := isolatedEngineState.set (DMA_CCTL_OWNER 0) 5

/-- Refutes O39: ENG4 on the isolated T-die 0 raises EN of its channel 0 on the C-die; the write is dropped, and EN stays 0. -/
theorem not_dmaChannelsStartAndStop : ¬ Obligations.DmaChannelsStartAndStop := by
  rintro ⟨enable, -⟩
  obtain ⟨u, hu, hen, -⟩ := enable (.eng 4) 0 (isolatedEngineDmaState.word ⟨.DMA_CCTL, 0, 0, 0⟩) isolatedEngineDmaState (by decide)
    (by decide)
  obtain rfl : isolatedEngineDmaState = u := by
    have hdrop : ∀ w, writeReg (.eng 4) ⟨.DMA_CCTL, 0, 0, 0⟩ w isolatedEngineDmaState = isolatedEngineDmaState :=
      fun _ => writeReg_of_unlinked (by decide) (by decide)
    rw [← hdrop]
    injection hu
  exact absurd hen (by decide)

/-- T-die 0 is isolated while ENG4 on it runs on, and one record waits in the event FIFO. -/
def isolatedEngineEventState : State :=
  { isolatedEngineState with evtFifo := [{ code := 0x0904, src := 0, seq := 1, time := 0, body := 0, dropped := 0 }], evtSeq := 1 }

/-- Refutes O51: the POP that ENG4 on the isolated T-die 0 writes is dropped, and the record stays in the FIFO. -/
theorem not_mailboxFlashAndJtag : ¬ Obligations.MailboxFlashAndJtag := by
  rintro ⟨-, -, -, pop, -⟩
  obtain ⟨u, hu, hfifo, -⟩ := pop (.eng 4) 0 _ _ isolatedEngineEventState (by decide) rfl rfl
  obtain rfl : isolatedEngineEventState = u := by
    have hdrop : ∀ w, writeReg (.eng 4) ⟨.MGT_EV, 0, 0, 0⟩ w isolatedEngineEventState = isolatedEngineEventState :=
      fun _ => writeReg_of_unlinked (by decide) (by decide)
    rw [← hdrop]
    injection hu
  exact absurd hfifo (by decide)

/-- T-die 1 is isolated while ENG6 on it runs on; class T, of engines on both T-dies, is in TRIAL. -/
def isolatedTrialState : State :=
  (((State.reset.set GLB_STATE_STATE pkgRun).setBit GLB_DIE_ISOLATED dieT1 true).set (ENG_STAT_STATE 6) engRunning).set
    (ENG_IMG_STAT_TRIAL 1) 1

/-- Refutes O38: class T's health register stands on T-die 0; the report of ENG6 on the isolated T-die 1 is dropped on its way there, and
the class stays in TRIAL. -/
theorem not_imagesStagedAndCommitted : ¬ Obligations.ImagesStagedAndCommitted := by
  rintro ⟨-, -, -, -, -, -, -, -, -, -, -, -, healthy⟩
  obtain ⟨u, hu, htrial, -⟩ := healthy (.eng 6) 1 0x600D isolatedTrialState (by decide)
  obtain rfl : isolatedTrialState = u := by
    have hdrop : writeReg (.eng 6) ⟨.ENG_HEALTH, 1, 0, 0⟩ 0x600D isolatedTrialState = isolatedTrialState :=
      writeReg_of_unlinked (by decide) (by decide)
    rw [← hdrop]
    injection hu
  exact absurd htrial (by decide)

/-! ### The received record of an engine's channel -/

/-- The hub in RUN. Channel 0, ENG1's, is ACTIVE and bound to the receive queue of link port 0, which holds one record; the request for
it waits at the channel. -/
def receiveRequestedState : State :=
  { ((((((State.reset.set GLB_STATE_STATE pkgRun).set (ENG_STAT_STATE 0) engRunning).set (DMA_CCTL_OWNER 0) 2).set (DMA_CCTL_REQ 0)
      21).set (DMA_STAT_STATE 0) chActive).set (LNK_RXQ_FILL 0) 1).modDma 0 (fun x => { x with reqs := [(1, false)] }) with
    rxq := Vector.replicate 4 [] |>.set 0 [{ req := some 1 }] }

set_option maxRecDepth 20000 in
/-- The reset of ENG1 halts its channel, which drops the request with its record (R326, R336): the port's queue shows no record. -/
theorem engineReset_dropsRecord {u : State} (hu : exec (.engineReset (.eng 0) 1 false) receiveRequestedState = .next u) :
    u.word ⟨.LNK_RXQ, 0, 0, 0⟩ ≠ receiveRequestedState.word ⟨.LNK_RXQ, 0, 0, 0⟩ := by
  injection hu with hu
  rw [← hu]
  decide

/-- Refutes O37: an engine reset halts the engine's channels, and the record that one of them was to fetch leaves the receive queue of a
link port, whose LNK_RXQ lies outside the span of the frame. -/
theorem not_enginesRunAndHalt : ¬ Obligations.EnginesRunAndHalt := by
  rintro ⟨reset, -⟩
  obtain ⟨u, hu, -, -, -, -, hregs, -⟩ := reset (.eng 0) 1 false receiveRequestedState (by decide) (by decide)
  exact engineReset_dropsRecord hu (hregs _ (by decide) (by decide) (by decide))

end Sys2Proof.Machine


namespace Sys2Proof.Machine

/-- Settles O58: the register file of the reset state lists nothing, so every register reads as its table gives it. -/
theorem resetLeavesTheStatedValues : Obligations.ResetLeavesTheStatedValues := by
  unfold Obligations.ResetLeavesTheStatedValues
  have hword : ∀ r : Reg, State.reset.word r = r.reset := State.word_of_nil rfl
  have hget : ∀ f : Fld, State.reset.get f = f.resetValue := fun f => congrArg (wordGet · f.lo f.w) (hword f.reg)
  refine ⟨⟨.nil, Memory.wf_reset, engMem_wf_reset⟩, rfl, rfl, rfl, rfl, hword, fun m => ⟨?_, ?_⟩, fun n => ?_, fun ch => hword _⟩
  · exact (hget _).trans (show wordGet 0x384 0 20 = 900 by decide)
  · exact (hget _).trans (show wordGet 0 0 2 = 0 by decide)
  · exact (hget _).trans (outEn_resetValue n)

end Sys2Proof.Machine

/-! What an ignored action shows, and a field of a register write that fits. -/

namespace Sys2Proof.Machine

section
variable {s : State} {src addr detail : Nat}

theorem State.get_ignored {f : Fld} (h : f.reg.off ∉ ignoredOffs) : (s.ignored src addr detail).get f = s.get f := by
  unfold State.get
  rw [State.word_ignored _ _ _ _ _ h]

theorem State.ignored_count : (s.ignored src addr detail).get GLB_IGNORED_CNT_CNT = satNat 32 (s.get GLB_IGNORED_CNT_CNT + 1) := by
  unfold State.ignored
  exact (State.get_set_apart rfl).trans <| (State.get_set_apart rfl).trans <| (State.get_set_apart rfl).trans <|
    State.get_bump_own rfl

theorem State.get_set_fits {f : Fld} {v : Nat} (h : Nat.ble (f.lo + f.w) 32 = true) (hv : v < 2 ^ f.w) : (s.set f v).get f = v :=
  (State.get_set_same s f v (Nat.le_of_ble_eq_true h)).trans (Nat.mod_eq_of_lt hv)

theorem ignored_within {t : State} {spans : List (Nat × Nat)} (h : Within s t (spanGlb ++ spans)) :
    Within s (t.ignored src addr detail) (spanGlb ++ spans) := by
  have hglb : ∀ o ∈ ignoredOffs, 0 ≤ o ∧ o < 0x1000 := by decide
  exact (kept_within s _).ignored _ _ _ (fun _ hr => .inl ⟨(0, 0x1000), List.mem_cons_self, hglb _ hr⟩) h

end

end Sys2Proof.Machine

/-! A burn pulse and a lock's margin reads (R394, R396, R409), and the settlement of O36. -/

namespace Sys2Proof.Machine

section
variable {s : State} {q x k result lo hi : Nat}

/-! ### The row's fuses -/

theorem State.fuse_of_otp {t : State} (h : t.otp.fuse = s.otp.fuse) (a : Nat) : t.fuse a = s.fuse a := by
  unfold State.fuse
  rw [h]

theorem State.fuse_setFuse_same (w : Nat) (r : Nat × Nat × Nat) (s : State) : (setFuse w r s).fuse w = r := by
  have hnone : ∀ l ⊆ s.otp.fuse.filter (fun e => e.1 ≠ w), l.find? (fun e => e.1 = w) = none := fun l hl => by
    refine List.find?_eq_none.2 fun e he => ?_
    simpa using (List.mem_filter.1 (hl he)).2
  unfold State.fuse setFuse
  dsimp only
  by_cases hr : r = (0, 0, 0)
  · rw [if_pos hr, hnone _ (List.Subset.refl _), hr]
  · rw [if_neg hr, List.find?_append, hnone _ (List.takeWhile_sublist _).subset]
    simp

theorem State.fuse_setFuse_ne {w a : Nat} (h : a ≠ w) (r : Nat × Nat × Nat) (s : State) : (setFuse w r s).fuse a = s.fuse a := by
  have hfind : ((setFuse w r s).otp.fuse).find? (fun e => e.1 = a) = s.otp.fuse.find? (fun e => e.1 = a) := by
    have hkept : (s.otp.fuse.filter (fun e => e.1 ≠ w)).find? (fun e => e.1 = a) = s.otp.fuse.find? (fun e => e.1 = a) := by
      rw [List.find?_filter]
      congr 1
      funext e
      by_cases he : e.1 = a
      · simp [he, h]
      · simp [he]
    unfold setFuse
    dsimp only
    split
    · exact hkept
    · have hsplit := List.prefix_iff_eq_append.1 (List.takeWhile_prefix (l := s.otp.fuse.filter (fun e => e.1 ≠ w)) (fun e => e.1 < w))
      rw [← hkept]
      conv_rhs => rw [← hsplit]
      rw [List.find?_append, List.find?_append, List.find?_cons_of_neg (by simpa using Ne.symm h)]
  unfold State.fuse
  rw [hfind]

/-! ### A pulse -/

/-- The row as its reads after a pulse show it, the burn going on. -/
def pulsed (j : BurnJob) (reads : Nat × Nat × Nat) (s : State) : State :=
  (setFuse j.word reads s).modOtp (fun o => { o with burn := some j })

/-- A word's burn has ended with a RESULT. -/
def burnShown (q k result : Nat) (s : State) : State :=
  (((((s.modOtp (fun o => { o with burn := none })).set OTP_STAT_BUSY 0).set OTP_STAT_RESULT result).set OTP_STAT_LAST_WORD q).set
    OTP_STAT_PULSES k).bump OTP_CNT_BURN_CNT

theorem burnEnd_good (q x k lo hi : Nat) (s : State) : burnEnd { word := q, value := x, pulses := k } true lo hi s =
    (burnShown q k 1 s).pushEvt 0x0D00 0 (packBody [(9, q), (3, k)]) := by
  unfold burnEnd burnShown
  rw [if_neg Bool.false_ne_true]
  dsimp only
  rw [if_pos rfl, if_pos rfl]

theorem burnEnd_failed (q x k lo hi : Nat) (s : State) : burnEnd { word := q, value := x, pulses := k } false lo hi s =
    (burnShown q k 3 s).pushEvt 0x0D01 0 (packBody [(9, q), (32, lo), (32, hi)]) := by
  unfold burnEnd burnShown
  rw [if_neg Bool.false_ne_true]
  dsimp only
  rw [if_neg Bool.false_ne_true, if_neg Bool.false_ne_true]

theorem met_iff (hq : q < 512) (raw : Nat) : BurnJob.met { word := q, value := x, pulses := k } raw = true ↔ raw = otpRaw x := by
  have hrow : q ≠ lockRow := Nat.ne_of_lt hq
  unfold BurnJob.met
  rw [if_neg hrow, decide_eq_true_iff]

/-- The registers a burn's end writes. -/
def burnNames : List RegName := [.OTP_STAT, .OTP_CNT]

theorem Calm.burnShown {P : State → Prop} (K : Calm (Listed burnNames) P) (hs : P s) : P (Machine.burnShown q k result s) :=
  K.set rfl <| K.set rfl <| K.set rfl <| K.set rfl <| K.set rfl <| K.beside hs rfl

theorem burnShown_otp : (burnShown q k result s).otp = { s.otp with burn := none } := by
  simp [burnShown, State.bump_eq, State.modOtp]

theorem burnShown_busy : (burnShown q k result s).get OTP_STAT_BUSY = 0 :=
  (State.get_set_apart rfl).trans <| (State.get_set_apart rfl).trans <| (State.get_set_apart rfl).trans <|
    (State.get_set_apart rfl).trans <| State.get_set_own rfl rfl

theorem burnShown_result (h : result < 4) : (burnShown q k result s).get OTP_STAT_RESULT = result :=
  (State.get_set_apart rfl).trans <| (State.get_set_apart rfl).trans <| (State.get_set_apart rfl).trans <| State.get_set_fits rfl h

theorem burnShown_pulses (h : k < 8) : (burnShown q k result s).get OTP_STAT_PULSES = k :=
  (State.get_set_apart rfl).trans <| State.get_set_fits rfl h

theorem burnShown_count : (burnShown q k result s).get OTP_CNT_BURN_CNT = satNat OTP_CNT_BURN_CNT.w (s.get OTP_CNT_BURN_CNT + 1) := by
  refine (State.get_bump_own rfl).trans (congrArg (fun n => satNat OTP_CNT_BURN_CNT.w (n + 1)) ?_)
  exact (State.get_set_apart rfl).trans <| (State.get_set_apart rfl).trans <| (State.get_set_apart rfl).trans <| State.get_set_apart rfl

/-- Where a burn ends after a pulse: what it shows, whatever its event says. -/
structure BurnEnded (s u : State) (j : BurnJob) (reads : Nat × Nat × Nat) (result code : Nat) : Prop where
  burn : u.otp.burn = none
  fuse : u.fuse j.word = reads
  busy : u.get OTP_STAT_BUSY = 0
  result : u.get OTP_STAT_RESULT = result
  pulses : u.get OTP_STAT_PULSES = j.pulses
  count : u.get OTP_CNT_BURN_CNT = satNat OTP_CNT_BURN_CNT.w (s.get OTP_CNT_BURN_CNT + 1)
  posted : Posted s u code 0
  regs : RegsWithin s u (spanGlb ++ spanHost ++ spanMgt ++ spanOtp ++ spanDma)
  pending : u.pending = s.pending
  flash : u.flash = s.flash

theorem burnEnded (j : BurnJob) (reads : Nat × Nat × Nat) (hk : j.pulses < 8) (hresult : result < 4) (code body : Nat) :
    BurnEnded s ((burnShown j.word j.pulses result (pulsed j reads s)).pushEvt code 0 body) j reads result code := by
  let t := pulsed j reads s
  have hevt : ∀ f : Fld, eventNames.contains f.reg.name = false →
      ((burnShown j.word j.pulses result t).pushEvt code 0 body).get f = (burnShown j.word j.pulses result t).get f :=
    fun f hf => State.get_pushEvt_named _ _ _ _ hf
  have hwithin : Within t ((burnShown j.word j.pulses result t).pushEvt code 0 body) (spanGlb ++ spanHost ++ spanMgt ++ spanOtp ++ spanDma) :=
    have K : Noted burnNames (fun u => Within t u (spanGlb ++ spanHost ++ spanMgt ++ spanOtp ++ spanDma)) := noted_within t (by decide)
    K.push (K.burnShown (Within.refl t _))
  obtain ⟨hregs, hflash, -, -, hfuse, hpend⟩ := hwithin
  exact {
    burn := by rw [State.pushEvt_otp, burnShown_otp]
    fuse := (State.fuse_of_otp hfuse _).trans (State.fuse_setFuse_same j.word reads s)
    busy := (hevt _ rfl).trans burnShown_busy
    result := (hevt _ rfl).trans (burnShown_result hresult)
    pulses := (hevt _ rfl).trans (burnShown_pulses hk)
    count := (hevt _ rfl).trans burnShown_count
    posted := posted_listedPush (s := t) (names := burnNames) (fun K hs => K.burnShown hs) rfl _ _ _
    regs := hregs
    pending := hpend
    flash := hflash }

theorem dueReset_none (h : s.otp.due = none) : dueReset s = s := by
  unfold dueReset
  rw [h]

/-- A pulse of a burn that ends or goes on as the margins say. -/
theorem burnPulse_eq (hburn : s.otp.burn = some { word := q, value := x, pulses := k }) (n lo hi : Nat) :
    burnPulse n lo hi s =
      if BurnJob.met { word := q, value := x, pulses := k } lo && BurnJob.met { word := q, value := x, pulses := k } hi then
        burnEnd { word := q, value := x, pulses := k + 1 } true lo hi (pulsed { word := q, value := x, pulses := k + 1 } (n, lo, hi) s)
      else if k + 1 = 4 then
        burnEnd { word := q, value := x, pulses := k + 1 } false lo hi (pulsed { word := q, value := x, pulses := k + 1 } (n, lo, hi) s)
      else pulsed { word := q, value := x, pulses := k + 1 } (n, lo, hi) s := by
  unfold burnPulse
  rw [hburn]
  rfl

theorem exec_burnPulseDone (n l h : BitVec 39) (hdue : (burnPulse n.toNat l.toNat h.toNat s).otp.due = none) :
    exec (.burnPulseDone n l h) s = .next (burnPulse n.toNat l.toNat h.toNat s) := by
  have hexec : exec (.burnPulseDone n l h) s = .next (dueReset (burnPulse n.toNat l.toNat h.toNat s)) := rfl
  rw [hexec, dueReset_none hdue]

theorem burnPulse_good {n l h : BitVec 39} (hburn : s.otp.burn = some { word := q, value := x, pulses := k }) (hdue : s.otp.due = none)
    (hq : q < 512) (hk : k < 4) (hl : l.toNat = otpRaw x) (hh : h.toNat = otpRaw x) :
    ∃ u, exec (.burnPulseDone n l h) s = .next u ∧
      BurnEnded s u { word := q, value := x, pulses := k + 1 } (n.toNat, l.toNat, h.toNat) 1 0x0D00 := by
  have hpulse := burnPulse_eq hburn n.toNat l.toNat h.toNat
  rw [if_pos (by rw [Bool.and_eq_true, met_iff hq, met_iff hq]; exact ⟨hl, hh⟩), burnEnd_good] at hpulse
  refine ⟨_, exec_burnPulseDone n l h ?_, ?_⟩
  · rw [hpulse, State.pushEvt_otp, burnShown_otp]
    exact hdue
  · rw [hpulse]
    exact burnEnded { word := q, value := x, pulses := k + 1 } _ (show k + 1 < 8 by omega) (by decide) _ _

theorem not_met (hq : q < 512) (hl : lo ≠ otpRaw x) (hi : Nat) :
    ¬ (BurnJob.met { word := q, value := x, pulses := k } lo && BurnJob.met { word := q, value := x, pulses := k } hi) = true := by
  rw [Bool.and_eq_true, met_iff hq]
  exact fun h => hl h.1

theorem burnPulse_failed {n l h : BitVec 39} (hburn : s.otp.burn = some { word := q, value := x, pulses := 3 })
    (hdue : s.otp.due = none) (hq : q < 512) (hl : l.toNat ≠ otpRaw x) :
    ∃ u, exec (.burnPulseDone n l h) s = .next u ∧
      BurnEnded s u { word := q, value := x, pulses := 4 } (n.toNat, l.toNat, h.toNat) 3 0x0D01 := by
  have hpulse := burnPulse_eq hburn n.toNat l.toNat h.toNat
  rw [if_neg (not_met hq hl _), if_pos rfl, burnEnd_failed] at hpulse
  refine ⟨_, exec_burnPulseDone n l h ?_, ?_⟩
  · rw [hpulse, State.pushEvt_otp, burnShown_otp]
    exact hdue
  · rw [hpulse]
    exact burnEnded { word := q, value := x, pulses := 4 } _ (show 4 < 8 by decide) (by decide) _ _

theorem burnPulse_continues {n l h : BitVec 39} (hburn : s.otp.burn = some { word := q, value := x, pulses := k })
    (hdue : s.otp.due = none) (hq : q < 512) (hk : k < 3) (hl : l.toNat ≠ otpRaw x) :
    exec (.burnPulseDone n l h) s = .next (pulsed { word := q, value := x, pulses := k + 1 } (n.toNat, l.toNat, h.toNat) s) := by
  have hpulse := burnPulse_eq hburn n.toNat l.toNat h.toNat
  rw [if_neg (not_met hq hl _), if_neg (by omega)] at hpulse
  rw [← hpulse]
  exact exec_burnPulseDone n l h (by rw [hpulse]; exact hdue)

/-! ### The margin reads of a lock -/

/-- The margin reads have ended. -/
def marginDone (s : State) : State := s.modOtp (fun o => { o with margin := none })

theorem lockMarginReadDone_burns {r : Fin 4} {c : Bool} {e : Nat} (hmargin : s.otp.margin = some (r.val, c, e))
    (hlow : s.otpCrc r 1 = (otpDecode (s.fuse (otpSpan r).2).2.1).data)
    (hhigh : s.otpCrc r 2 = (otpDecode (s.fuse (otpSpan r).2).2.2).data) :
    exec .lockMarginReadDone s = .next ((marginDone s).modOtp (fun o => { o with
      burn := some { word := lockRow, value := bitPut ((s.fuse lockRow).1 % 16) r true, region := some r.val, cmd := c } })) := by
  show execLockMarginReadDone s = _
  unfold execLockMarginReadDone
  rw [hmargin]
  exact congrArg Host.Outcome.next (if_pos (by simp [hlow, hhigh]))

/-- The request is ignored. -/
def lockRefused (src : Nat) (s : State) : State := (((marginDone s).set OTP_STAT_BUSY 0).set OTP_STAT_RESULT 2).ignored src 0x600C

theorem lockMarginReadDone_refuses {r : Fin 4} {e : Nat} (hmargin : s.otp.margin = some (r.val, false, e))
    (hlow : s.otpCrc r 1 ≠ (otpDecode (s.fuse (otpSpan r).2).2.1).data) : exec .lockMarginReadDone s = .next (lockRefused e s) := by
  show execLockMarginReadDone s = _
  unfold execLockMarginReadDone
  rw [hmargin]
  exact congrArg Host.Outcome.next (if_neg (by simp [hlow]))

theorem lockRefused_within (src : Nat) (s : State) : Within s (lockRefused src s) (spanGlb ++ (spanHost ++ spanMgt ++ spanOtp ++ spanDma)) :=
  have K : Noted burnNames (fun u => Within s u (spanGlb ++ (spanHost ++ spanMgt ++ spanOtp ++ spanDma))) := noted_within s (by decide)
  ignored_within (K.set rfl <| K.set rfl <| K.beside (Within.refl s _) rfl)

end

/-- Settles O36: a pulse's margins decide among its three ends, and the CRCs at both margins whether the lock bit burns. -/
theorem otpPulsesAndMargins : Obligations.OtpPulsesAndMargins := by
  unfold Obligations.OtpPulsesAndMargins
  refine ⟨fun n l h q x k s hburn hdue hq hk hl hh => ?_, fun n l h q x s hburn hdue hq hl => ?_,
    fun n l h q x k s hburn hdue hq hk hl => ?_, fun n l h s hburn hdue => ?_, fun r c e s hmargin hlow hhigh => ?_,
    fun r e s hmargin hlow => ?_⟩
  · obtain ⟨u, hu, e⟩ := burnPulse_good hburn hdue hq hk hl hh
    exact ⟨u, hu, e.burn, e.fuse, e.busy, e.result, e.pulses, e.count, e.posted, e.regs, e.pending, e.flash⟩
  · obtain ⟨u, hu, e⟩ := burnPulse_failed hburn hdue hq hl
    exact ⟨u, hu, e.burn, e.fuse, e.busy, e.result, e.pulses, e.posted, e.regs, e.pending, e.flash⟩
  · exact ⟨_, burnPulse_continues hburn hdue hq hk hl, rfl, State.fuse_setFuse_same q _ s, fun a ha => State.fuse_setFuse_ne ha _ s,
      .refl s, RegsWithin.refl s _, rfl, rfl⟩
  · have hpulse : burnPulse n.toNat l.toNat h.toNat s = s := by
      unfold burnPulse
      rw [hburn]
    exact ⟨_, exec_burnPulseDone n l h (by rw [hpulse]; exact hdue), hpulse⟩
  · exact ⟨_, lockMarginReadDone_burns hmargin hlow hhigh, rfl, rfl, rfl, .refl s, frame_modOtp (frame_modOtp (Frame.refl s _) rfl) rfl⟩
  · obtain ⟨hregs, hflash, -, -, -, hpend⟩ := lockRefused_within e s
    refine ⟨_, lockMarginReadDone_refuses hmargin hlow, ?_, ?_, ?_, ?_, ?_, ?_, hregs, hpend, hflash⟩
    · unfold lockRefused
      rw [State.ignored_otp]
      rfl
    · unfold lockRefused
      rw [State.ignored_otp]
      rfl
    · exact (State.get_ignored (by decide)).trans <| (State.get_set_apart rfl).trans <| State.get_set_own rfl rfl
    · exact (State.get_ignored (by decide)).trans <| State.get_set_own rfl rfl
    · refine State.ignored_count.trans (congrArg (fun n => satNat 32 (n + 1)) ?_)
      exact (State.get_set_apart rfl).trans <| State.get_set_apart rfl
    · exact Silent.ignored (t := ((marginDone s).set OTP_STAT_BUSY 0).set OTP_STAT_RESULT 2) (Silent.refl s) _ _ _

end Sys2Proof.Machine

/-! A taken register write of the C-die's own paths, and a command that completes or is deferred. -/

namespace Sys2Proof.Machine

section
variable {s t : State} {p : Path} {r : Reg} {w : Word}

/-! ### Whole words -/

theorem State.setWord_eq_set (s : State) (r : Reg) (w : Word) : s.setWord r w = s.set ⟨r, 0, 32⟩ w.toNat := by
  have hword : wordSet (s.word r) 0 32 w.toNat = w := by
    refine BitVec.eq_of_getLsbD_eq fun i hi => ?_
    have hbit := wordSet_bit (s.word r) 0 32 w.toNat i (by decide)
    rw [BitVec.testBit_toNat] at hbit
    rw [hbit]
    simp [hi, BitVec.testBit_toNat, BitVec.getLsbD_eq_getElem]
  exact congrArg (s.setWord r) hword.symm

theorem wordGet_whole (w : Word) : wordGet w 0 32 = w.toNat := by
  unfold wordGet
  rw [Nat.pow_zero, Nat.div_one, Nat.mod_eq_of_lt w.isLt]

/-- A whole word written is a write of its register. -/
theorem Calm.setWord {ok : Fld → Prop} {P : State → Prop} (K : Calm ok P) (h : ok ⟨r, 0, 32⟩) (hs : P s) : P (s.setWord r w) := by
  rw [State.setWord_eq_set]
  exact K.set h hs

theorem State.get_setWord_apart {f : Fld} (h : (⟨r, 0, 32⟩ : Fld).apartFrom f = true) : (s.setWord r w).get f = s.get f := by
  rw [State.setWord_eq_set]
  exact State.get_set_apart h

theorem State.word_setWord_self (s : State) (r q : Reg) : (s.setWord r (s.word r)).word q = s.word q := by
  by_cases h : r = q
  · subst h
    exact State.word_setWord_same s r _
  · exact State.word_setWord_ne s r _ h

/-! ### A write that is taken (R12, R36) -/

/-- What a write stores, before what it sets off. -/
def stored (r : Reg) (w : Word) (s : State) : State := s.setWord r (r.stored w (s.word r))

theorem State.pathOpen_contact (h : s.pathOpen p true = true) : s.isolated dieC = false := by
  unfold State.pathOpen at h
  rw [Bool.and_eq_true, Bool.not_eq_true'] at h
  exact h.1

theorem regWrite_taken (h : s.takesWrite p r w) (hreg : Reg.ofOff r.off = some r) (hdie : Path.die p = dieC)
    (hname : r.name ≠ .MGT_MBX_CTL) : regWrite p r.off w s = (.applied, blockAfter p r (s.word r) w (stored r w s)) := by
  obtain ⟨hopen, hreach, hiso, haccept⟩ := h
  have hlink : s.linked (Path.die p) (dieOfOff r.off) = true := by
    unfold State.linked
    rw [hdie, State.pathOpen_contact hopen, hiso]
    simp
  unfold regWrite regWriteBe
  dsimp only
  rw [hopen, hreach, hreg]
  dsimp only
  simp only [hlink, haccept, hname, ne_eq, not_true_eq_false, Bool.not_true, Bool.false_eq_true, or_self, false_and, if_false, if_true]
  rfl

theorem writeReg_taken (h : s.takesWrite p r w) (hreg : Reg.ofOff r.off = some r) (hdie : Path.die p = dieC)
    (hname : r.name ≠ .MGT_MBX_CTL) : writeReg p r w s = blockAfter p r (s.word r) w (stored r w s) :=
  congrArg Prod.snd (regWrite_taken h hreg hdie hname)

end

/-! ### Commands -/

section
variable {s z : State} {v : CmdVia} {op : Nat} {g : State → CmdRes}

theorem cmdHeld_otp (v : CmdVia) (r : CmdRes) : (cmdHeld v r).otp = r.s.otp := by
  unfold cmdHeld
  split
  · cases v <;> exact State.ignored_otp ..
  · rfl

theorem cmdEnded_otp (v : CmdVia) (op : Nat) (r : CmdRes) : (cmdEnded v op r).otp = r.s.otp := by
  cases v with
  | ring => exact cmdHeld_otp _ r
  | mbx k =>
    refine Eq.trans ?_ (cmdHeld_otp (.mbx k) r)
    simp [cmdEnded, mbxDone, State.raise, State.setBit_eq]

theorem cmdEntry_otp (v : CmdVia) (s : State) : (cmdEntry v s).otp = s.otp := by
  cases v with
  | ring => rfl
  | mbx k => simp [cmdEntry, mbxTake]

theorem cmdEntry_host (v : CmdVia) (s : State) : (cmdEntry v s).host = s.host := by
  cases v with
  | ring => rfl
  | mbx k => simp [cmdEntry, mbxTake]

/-- A deferred command holds its status and is not yet DONE (R276). -/
theorem directCmd_deferred (htake : s.takesCmd v = true) (hdefer : (g (cmdEntry v s)).status = stDeferred) :
    directCmd v op g s = (g (cmdEntry v s)).s.modHost (fun h => { h with
      lastStatus := stDeferred, lastResult := (g (cmdEntry v s)).result.toNat }) := by
  have hign : stDeferred ≠ stIgnored := by decide
  have hok : stDeferred ≠ stOk := by decide
  unfold directCmd directThen
  rw [if_pos htake]
  cases v with
  | ring =>
    have hdefer : (g s).status = stDeferred := hdefer
    simp only [hdefer, hign, if_false, true_or, if_true, id_eq, ite_self]
    rfl
  | mbx k =>
    have hdefer : (g (mbxTake k s)).status = stDeferred := hdefer
    simp only [hdefer, hign, if_false, or_true, if_true, id_eq, ite_self]
    rfl

end

end Sys2Proof.Machine

/-! The OTP's shadows, burns and locks (R392 to R397, R410), and the settlement of O35. -/

namespace Sys2Proof.Machine

section
variable {P : State → Prop} {s t z : State} {v : CmdVia} {p : Path} {a x : Nat} {w : Word}

/-- The spans the statement names. -/
abbrev otpSpans : List (Nat × Nat) := spanGlb ++ spanHost ++ spanMgt ++ spanOtp ++ spanDma

/-- The registers that shadows, burns and locks write. -/
def otpNames : List RegName := [.OTP_ARM, .OTP_CMD, .OTP_STAT, .OTP_REGION, .OTP_SH, .OTP_OVR, .OTP_BURN_ADDR, .OTP_BURN_DATA]

theorem otp_within (s : State) : Calm (Listed otpNames) (fun u => Within s u otpSpans) := (noted_within s (by decide)).toCalm

/-! ### The path of a taken write (R410) -/

theorem die_of_otpWriter (h : (otpWriter p).isSome = true) : Path.die p = dieC := by
  cases p with
  | eng e =>
    have he : e = 0 := by
      by_contra hne
      rw [show otpWriter (.eng e) = none from if_neg hne] at h
      cases h
    rw [he]
    rfl
  | _ => rfl

theorem otpRule_of_accepts {r : Reg} (hr : namesOTP.contains r.name = true) (h : s.accepts p r w = true) : otpRule p r w s = true := by
  unfold State.accepts blockRule at h
  simp only [Bool.and_eq_true, decide_eq_true_eq] at h
  exact h.2.1.2 hr

theorem otpWriter_of_rule {r : Reg} (h : otpRule p r w s = true) : (otpWriter p).isSome = true := by
  unfold otpRule at h
  cases hw : otpWriter p with
  | none => rw [hw] at h; cases h
  | some who => rfl

theorem blockAfter_otp {r : Reg} (hr : namesOTP.contains r.name = true) (old new : Word) (s : State) :
    blockAfter p r old new s = otpAfter p r new s := by
  obtain ⟨n, i, j, k⟩ := r
  have hn : n ∈ namesOTP := List.contains_iff_mem.1 hr
  simp only [namesOTP, List.mem_cons, List.not_mem_nil, or_false] at hn
  rcases hn with rfl | rfl | rfl | rfl | rfl | rfl | rfl | rfl | rfl | rfl | rfl | rfl | rfl <;> rfl

theorem otpWrite_taken {r : Reg} (hr : namesOTP.contains r.name = true) (h : s.takesWrite p r w) (hreg : Reg.ofOff r.off = some r) :
    writeReg p r w s = otpAfter p r w (stored r w s) := by
  have hdie := die_of_otpWriter (otpWriter_of_rule (otpRule_of_accepts hr h.2.2.2))
  refine (writeReg_taken h hreg hdie fun e => ?_).trans (blockAfter_otp hr _ _ _)
  rw [e] at hr
  exact absurd hr (by decide)

/-! ### One shadow (R392) -/

theorem Calm.setShadow (K : Calm (Listed otpNames) P) (hs : P s) : P (Machine.setShadow a x s) :=
  K.set rfl <| K.set rfl <| K.set rfl hs

theorem setShadow_value (hx : x < 2 ^ 32) : (setShadow a x s).get (OTP_SH_VALUE a) = x :=
  (State.get_set_apart rfl).trans <| (State.get_set_apart rfl).trans <| State.get_set_fits rfl hx

theorem overridden_over (t : State) : (showOver (t.setBit (OTP_OVR_OVR (a / 32)) (a % 32) true)).otpOver a = true :=
  (State.bit_of_get (State.get_set_apart rfl) _).trans (State.bit_setBit_same t true (show 0 + 32 ≤ 32 by decide) (Nat.mod_lt _ (by decide)))

theorem setShadow_over : (setShadow a x s).otpOver a = true := overridden_over _

theorem setShadow_otp : (setShadow a x s).otp = s.otp := by
  simp [setShadow, showOver, State.setBit_eq]

theorem State.shadowOk_cmdEntry (v : CmdVia) (s : State) (a : Nat) : (cmdEntry v s).shadowOk a = s.shadowOk a := by
  have hpkg : (cmdEntry v s).pkg = s.pkg := cmdEntry_get_named (by decide)
  have hlock : ∀ r, (cmdEntry v s).otpLocked r = s.otpLocked r := fun r => State.bit_of_get (cmdEntry_get_named (by decide)) r
  unfold State.shadowOk State.active
  rw [hpkg, hlock]

theorem exec_otpShadow_cmd (v : CmdVia) (a : BitVec 9) (x : Word) (s : State) :
    exec (.otpShadow (.cmd v) a x) s = .next (directCmd v 0x40 (cmdOtpShadow a.toNat x.toNat) s) := rfl

theorem otp_not_via (v : CmdVia) {n : Nat} (h : 0x6000 ≤ n ∧ n < 0x8000) : n ∉ viaOffs v := by
  cases v with
  | ring => exact List.not_mem_nil
  | mbx k =>
    have hlist : viaOffs (.mbx k) = [9280, 9284, 9344, 532484, 8960, 56, 52] := (by decide : viaOffs (.mbx 0) = _)
    rw [hlist]
    simp only [List.mem_cons, List.not_mem_nil, or_false, not_or]
    omega

theorem otp_via_within (v : CmdVia) {q : Reg} (h : q.off ∈ viaOffs v) : Reg.inSpans otpSpans q := by
  have hsub : ∀ b ∈ spanMgt ++ [], b ∈ otpSpans := by decide
  obtain ⟨b, hb, hin⟩ | he := via_within v [] h
  · exact .inl ⟨b, hsub b hb, hin⟩
  · exact .inr he

theorem otpShadow_sets {a : BitVec 9} {x : Word} (htake : s.takesCmd v = true) (hok : s.shadowOk a.toNat = true) :
    ∃ u, exec (.otpShadow (.cmd v) a x) s = .next u ∧ u.get (OTP_SH_VALUE a.toNat) = x.toNat ∧ u.otpOver a.toNat = true ∧
      u.host.lastStatus = stOk ∧ Posts s u (viaEvt v) ∧ u.otp = s.otp ∧ Within s u otpSpans := by
  have hg : cmdOtpShadow a.toNat x.toNat (cmdEntry v s) = cmdOk (setShadow a.toNat x.toNat (cmdEntry v s)) :=
    if_pos ((State.shadowOk_cmdEntry v s _).trans hok)
  have hst : (cmdOtpShadow a.toNat x.toNat (cmdEntry v s)).status = stOk := congrArg CmdRes.status hg
  have hget : ∀ f : Fld, 0x6000 ≤ f.off ∧ f.off < 0x8000 →
      (cmdEnded v 0x40 (cmdOtpShadow a.toNat x.toNat (cmdEntry v s))).get f = (setShadow a.toNat x.toNat (cmdEntry v s)).get f :=
    fun f hf => okCommand_keeps (kept_via_get _ (otp_not_via v hf)) hg rfl
  have hsh : (OTP_SH_VALUE a.toNat).off = 0x6800 + 4 * a.toNat + 0 * 0 + 0 * 0 := rfl
  have hov : (OTP_OVR_OVR (a.toNat / 32)).off = 0x7000 + 4 * (a.toNat / 32) + 0 * 0 + 0 * 0 := rfl
  have ha := a.isLt
  refine ⟨_, (exec_otpShadow_cmd v a x s).trans (congrArg Host.Outcome.next (directCmd_eq htake (by rw [hst]; decide))),
    (hget _ (by omega)).trans (setShadow_value x.isLt), (State.bit_of_get (hget _ (by omega)) _).trans setShadow_over,
    (cmdEnded_status ..).trans hst, cmdEnded_posts ?_, ?_, ?_⟩
  · rw [hg]
    exact (calm_events _ _ _).setShadow (cmdEntry_events v s)
  · rw [cmdEnded_otp, hg]
    exact setShadow_otp.trans (cmdEntry_otp v s)
  · have K := (kept_within s otpSpans).mono fun _ h => otp_via_within v h
    exact okCommand_keeps K hg ((otp_within s).setShadow (cmdEntry_keeps K (fun _ => id) (Within.refl s _)))

theorem otpShadow_refused {a : BitVec 9} {x : Word} (htake : s.takesCmd v = true) (ha : a.toNat < 128) :
    ∃ u, exec (.otpShadow (.cmd v) a x) s = .next u ∧ u.host.lastStatus = stIgnored ∧ Posts s u (viaEvt v) ∧
      Frame s u (ignoredOffs ++ viaOffs v) := by
  have hno : (cmdEntry v s).shadowOk a.toNat = false := by
    unfold State.shadowOk
    simp [Nat.not_le.2 ha]
  obtain ⟨u, hu, hst, -, -, hposts, hframe⟩ := refusedCommand (op := 0x40) (g := cmdOtpShadow a.toNat x.toNat) htake
    (if_neg (by rw [hno]; exact Bool.false_ne_true))
  exact ⟨u, (exec_otpShadow_cmd v a x s).trans (congrArg Host.Outcome.next hu), hst, hposts, hframe⟩

theorem ofOff_otpSh (ha : a < 512) : Reg.ofOff (Reg.off ⟨.OTP_SH, a, 0, 0⟩) = some ⟨.OTP_SH, a, 0, 0⟩ := by
  have hall : ∀ i : Fin 512, Reg.ofOff (Reg.off ⟨.OTP_SH, i, 0, 0⟩) = some ⟨.OTP_SH, i, 0, 0⟩ := by decide +kernel
  exact hall ⟨a, ha⟩

theorem shadowField (a : Nat) : (⟨0, 32, .rw, .wsh, []⟩ : FieldSpec) ∈ Reg.fields ⟨.OTP_SH, a, 0, 0⟩ := List.mem_cons_self

theorem storedShadow_of : (stored ⟨.OTP_SH, a, 0, 0⟩ w s).get (OTP_SH_VALUE a) = wordGet w 0 32 :=
  State.get_stored (f := OTP_SH_VALUE a) rfl (shadowField a) rfl rfl rfl s w _

theorem storedShadow_value : (stored ⟨.OTP_SH, a, 0, 0⟩ w s).get (OTP_SH_VALUE a) = w.toNat :=
  storedShadow_of.trans (wordGet_whole w)

theorem exec_otpShadow_path (p : Path) (a : BitVec 9) (x : Word) (s : State) :
    exec (.otpShadow (.path p) a x) s = .next (writeReg p ⟨.OTP_SH, a.toNat, 0, 0⟩ x s) := rfl

theorem otpAfter_shadow (t : State) :
    otpAfter p ⟨.OTP_SH, a, 0, 0⟩ w t = showOver (t.setBit (OTP_OVR_OVR (a / 32)) (a % 32) true) := rfl

/-- A write of a shadow sets its override (R392). -/
theorem otpShadow_written {a : BitVec 9} {x : Word} (h : s.takesWrite p ⟨.OTP_SH, a.toNat, 0, 0⟩ x) :
    ∃ u, exec (.otpShadow (.path p) a x) s = .next u ∧ u.get (OTP_SH_VALUE a.toNat) = x.toNat ∧ u.otpOver a.toNat = true ∧
      Silent s u ∧ u.otp = s.otp ∧ Within s u otpSpans := by
  let t := stored ⟨.OTP_SH, a.toNat, 0, 0⟩ x s
  have hexec : exec (.otpShadow (.path p) a x) s = .next (showOver (t.setBit (OTP_OVR_OVR (a.toNat / 32)) (a.toNat % 32) true)) :=
    by rw [exec_otpShadow_path, otpWrite_taken rfl h (ofOff_otpSh a.isLt), otpAfter_shadow]
  have hsilent : Silent s (showOver (t.setBit (OTP_OVR_OVR (a.toNat / 32)) (a.toNat % 32) true)) :=
    (((Silent.refl s).setWord _ _).set _ _).set _ _
  refine ⟨_, hexec, (State.get_set_apart rfl).trans <| (State.get_set_apart rfl).trans storedShadow_value, overridden_over t, hsilent, ?_, ?_⟩
  · simp [showOver, State.setBit_eq, t, stored]
  · exact (otp_within s).set rfl <| (otp_within s).set rfl <| (otp_within s).setWord rfl (Within.refl s _)

/-! ### The shadows cleared (R393) -/

theorem bitPut_lt {n i : Nat} {b : Bool} {d : Nat} (hd : d < 2 ^ n) (hi : i < n) : bitPut d i b < 2 ^ n := by
  refine Nat.lt_pow_two_of_testBit _ fun j hj => ?_
  rw [testBit_bitPut, if_neg (by omega)]
  exact Nat.testBit_lt_two_pow (Nat.lt_of_lt_of_le hd (Nat.pow_le_pow_right (by decide) hj))

/-- The data of a row read is a word: what a correction turns over is a data bit (R386). -/
theorem otpDecode_data_lt (raw : Nat) : (otpDecode raw).data < 2 ^ 32 := by
  have hword : raw % 2 ^ 32 < 2 ^ 32 := Nat.mod_lt _ (by decide)
  have hbit : ∀ pj ∈ dataPos.zipIdx, pj.2 < 32 := by decide
  unfold otpDecode
  dsimp only
  split
  · decide
  split
  · exact hword
  split
  · exact hword
  split
  · show OtpRead.data (.fixed _) < _
    unfold OtpRead.data
    dsimp only
    split
    · next pj hfind => exact bitPut_lt hword (hbit _ (List.mem_of_find?_eq_some hfind))
    · exact hword
  · decide

/-- The overrides cleared, one word of them after the other. -/
def overCleared (s : State) : State := s.each 16 (fun j s => s.set (OTP_OVR_OVR j) 0)

/-- A word's shadow reloaded. -/
def shadowLoaded (w : Nat) (s : State) : State := if s.otpOver w then s else s.set (OTP_SH_VALUE w) (otpDecode (s.fuse w).1).data

/-- The words that are burned, as the array now reads. -/
def burntSeen (s : State) : State := s.modOtp (fun o => { o with burnt := maskOf 512 (fun w => s.fuse w ≠ (0, 0, 0)) })

theorem loadShadows_eq (s : State) : loadShadows s = (burntSeen s).each 512 shadowLoaded := rfl

theorem Calm.modOtp {ok : Fld → Prop} (K : Calm ok P) {f : OtpInt → OtpInt} (hf : ∀ o, (f o).fuse = o.fuse) (hs : P s) :
    P (s.modOtp f) :=
  K.beside hs (by simp only [State.modOtp, hf])

theorem Calm.burntSeen {ok : Fld → Prop} (K : Calm ok P) (hs : P s) : P (Machine.burntSeen s) := K.modOtp (fun _ => rfl) hs

theorem burntSeen_fuse (s : State) : (burntSeen s).otp.fuse = s.otp.fuse := by
  unfold burntSeen State.modOtp
  rfl

theorem Calm.shadowLoaded (K : Calm (Listed [.OTP_SH]) P) (hs : P s) : P (Machine.shadowLoaded a s) := K.ite hs (K.set rfl hs)

theorem Calm.loadShadows (K : Calm (Listed [.OTP_SH]) P) (hs : P s) : P (Machine.loadShadows s) := by
  rw [loadShadows_eq]
  exact State.each_keeps _ _ (fun _ _ _ h => K.shadowLoaded h) (K.burntSeen hs)

theorem Calm.overCleared (K : Calm (Listed [.OTP_OVR]) P) (hs : P s) : P (Machine.overCleared s) :=
  State.each_keeps _ _ (fun _ _ _ h => K.set (f := OTP_OVR_OVR _) rfl h) hs

theorem Calm.clearShadows (K : Calm (Listed otpNames) P) (hs : P s) : P (Machine.clearShadows s) :=
  K.set rfl <| (K.mono fun _ h => h.mono (by decide)).loadShadows <| (K.mono fun _ h => h.mono (by decide)).overCleared hs

theorem OVR_apart {i j : Nat} (h : i ≠ j) : (OTP_OVR_OVR i).Apart (OTP_OVR_OVR j) := .inl fun e => h (congrArg Reg.i e)

theorem SH_apart {i j : Nat} (h : i ≠ j) : (OTP_SH_VALUE i).Apart (OTP_SH_VALUE j) := .inl fun e => h (congrArg Reg.i e)

theorem State.get_set_apart' {f g : Fld} {n : Nat} (h : f.Apart g) : (s.set f n).get g = s.get g :=
  (calm_get (ok := fun e => e = f) g (s.get g) (by rintro _ rfl; exact h)).set rfl rfl

theorem overCleared_over {j : Nat} (hj : j < 16) (s : State) : (overCleared s).get (OTP_OVR_OVR j) = 0 := by
  unfold overCleared
  refine State.each_at (A := fun _ => True) (B := fun u => u.get (OTP_OVR_OVR j) = 0) _ hj (fun _ _ _ _ => trivial) ?_ ?_ trivial
  · intro t _
    exact State.get_set_fits rfl (Nat.two_pow_pos 32)
  · intro i t hi h
    exact (State.get_set_apart' (OVR_apart hi)).trans h

/-- A word that is not overridden is reloaded from its fuses. -/
theorem loadShadows_value (ha : a < 512) (h : s.get (OTP_OVR_OVR (a / 32)) = 0) :
    (loadShadows s).get (OTP_SH_VALUE a) = (otpDecode (s.fuse a).1).data := by
  rw [loadShadows_eq]
  refine State.each_at (A := fun u => u.get (OTP_OVR_OVR (a / 32)) = 0 ∧ u.otp.fuse = s.otp.fuse)
    (B := fun u => u.get (OTP_SH_VALUE a) = (otpDecode (s.fuse a).1).data) _ ha ?_ ?_ ?_
    ⟨(calm_get (ok := fun _ => False) _ _ (fun _ hf => hf.elim)).burntSeen h, burntSeen_fuse s⟩
  · rintro i t - ⟨hover, hfuse⟩
    exact ⟨(calm_get _ _ fun _ hf => hf.apart rfl).shadowLoaded hover, by unfold shadowLoaded; split <;> simp [hfuse]⟩
  · rintro t ⟨hover, hfuse⟩
    have hnot : t.otpOver a = false := by
      unfold State.otpOver State.bit
      rw [hover]
      simp [bitOf]
    unfold shadowLoaded
    rw [hnot, if_neg Bool.false_ne_true, State.fuse_of_otp hfuse]
    exact State.get_set_fits rfl (otpDecode_data_lt _)
  · intro i t hi hB
    unfold shadowLoaded
    split
    · exact hB
    · exact (State.get_set_apart' (SH_apart hi)).trans hB

theorem clearShadows_over {j : Nat} (hj : j < 16) (s : State) : (clearShadows s).get (OTP_OVR_OVR j) = 0 :=
  (State.get_set_apart rfl).trans <| (calm_get _ _ fun _ hf => hf.apart rfl).loadShadows <| overCleared_over hj s

theorem overCleared_otp (s : State) : (overCleared s).otp = s.otp :=
  State.each_keeps (P := fun u => u.otp = s.otp) _ _ (fun _ _ _ h => (State.set_otp ..).trans h) rfl

theorem clearShadows_value (ha : a < 512) (s : State) : (clearShadows s).get (OTP_SH_VALUE a) = (otpDecode (s.fuse a).1).data := by
  rw [← State.fuse_of_otp (congrArg OtpInt.fuse (overCleared_otp s))]
  exact (State.get_set_apart rfl).trans (loadShadows_value ha (overCleared_over (Nat.div_lt_of_lt_mul ha) s))

/-! ### The writes of OTP_CMD and OTP_ARM (R393, R394, R396, R410) -/

theorem exec_otpShadowClear (p : Path) (w : Word) (s : State) :
    exec (.otpShadowClear p w) s = .next (writeReg p ⟨.OTP_CMD, 0, 0, 0⟩ (wordSet w 4 1 1) s) := rfl

theorem exec_otpArm (p : Path) (w : Word) (s : State) : exec (.otpArm p w) s = .next (writeReg p ⟨.OTP_ARM, 0, 0, 0⟩ w s) := rfl

theorem exec_otpBurn_write (p : Path) (t : BitVec 16) (a : BitVec 9) (x w : Word) (s : State) :
    exec (.otpBurn (.write p w) t a x) s = .next (writeReg p ⟨.OTP_CMD, 0, 0, 0⟩ (wordSet w 0 1 1) s) := rfl

theorem exec_commitLock_write (p : Path) (t : BitVec 16) (r : BitVec 2) (w : Word) (s : State) :
    exec (.commitLock (.write p w) t r) s = .next (writeReg p ⟨.OTP_CMD, 0, 0, 0⟩ (wordSet w 1 1 1) s) := rfl

theorem otpCmd_taken (h : s.takesWrite p ⟨.OTP_CMD, 0, 0, 0⟩ w) :
    writeReg p ⟨.OTP_CMD, 0, 0, 0⟩ w s = otpAfter p ⟨.OTP_CMD, 0, 0, 0⟩ w (stored ⟨.OTP_CMD, 0, 0, 0⟩ w s) :=
  otpWrite_taken rfl h (by decide)

theorem otpAfter_clear (hburn : wordGet w 0 1 = 0) (hlock : wordGet w 1 1 = 0) (hclear : wordGet w 4 1 = 1) (t : State) :
    otpAfter p ⟨.OTP_CMD, 0, 0, 0⟩ w t = clearShadows t := by
  unfold otpAfter
  dsimp only
  rw [hburn, hlock, if_pos hclear]
  rfl

theorem otpAfter_burn (hburn : wordGet w 0 1 = 1) (hclear : wordGet w 4 1 = 0) (t : State) :
    otpAfter p ⟨.OTP_CMD, 0, 0, 0⟩ w t = burnStart (t.get OTP_BURN_ADDR_WORD) (t.get OTP_BURN_DATA_VALUE) false t := by
  unfold otpAfter
  dsimp only
  rw [if_pos hburn, hclear]
  rfl

theorem otpAfter_lock (hburn : wordGet w 0 1 = 0) (hlock : wordGet w 1 1 = 1) (hclear : wordGet w 4 1 = 0) (t : State) :
    otpAfter p ⟨.OTP_CMD, 0, 0, 0⟩ w t = lockStart (wordGet w 2 2) false (Path.source p) t := by
  unfold otpAfter
  dsimp only
  rw [hburn, if_pos hlock, hclear]
  rfl

/-- BURN and LOCK are not set together (R410). -/
theorem otpCmd_exclusive (h : s.accepts p ⟨.OTP_CMD, 0, 0, 0⟩ w = true) (hlock : wordGet w 1 1 = 1) : wordGet w 0 1 = 0 := by
  have hrule := otpRule_of_accepts rfl h
  have hone : wordGet w 0 1 < 2 ^ 1 := wordGet_lt w 0 1
  unfold otpRule at hrule
  by_contra hne
  have hburn : wordGet w 0 1 = 1 := by omega
  split at hrule
  · cases hrule
  · simp [hburn, hlock] at hrule

theorem stored_within (r : Reg) (w : Word) (s : State) (hr : otpNames.contains r.name = true) : Within s (stored r w s) otpSpans :=
  (otp_within s).setWord hr (Within.refl s _)

theorem stored_events (r : Reg) (w : Word) (s : State) : (stored r w s).evtSeq = s.evtSeq ∧ (stored r w s).evtFifo = s.evtFifo :=
  ⟨rfl, rfl⟩

theorem clearShadows_fuse (s : State) : (clearShadows s).otp.fuse = s.otp.fuse := by
  obtain ⟨-, -, -, -, hfuse, -⟩ := (otp_within s).clearShadows (Within.refl s otpSpans)
  exact hfuse

theorem otpShadowClear_clears (h : s.takesWrite p ⟨.OTP_CMD, 0, 0, 0⟩ (wordSet w 4 1 1)) (hburn : wordGet w 0 1 = 0)
    (hlock : wordGet w 1 1 = 0) : ∃ u, exec (.otpShadowClear p w) s = .next u ∧ (∀ j : Fin 16, u.get (OTP_OVR_OVR j) = 0) ∧
      (∀ a : Fin 512, u.get (OTP_SH_VALUE a) = (otpDecode (s.fuse a).1).data) ∧ Silent s u ∧ u.otp.fuse = s.otp.fuse ∧
      Within s u otpSpans := by
  let t := stored ⟨.OTP_CMD, 0, 0, 0⟩ (wordSet w 4 1 1) s
  have hburn' : wordGet (wordSet w 4 1 1) 0 1 = 0 := (wordGet_wordSet_below w 4 1 1 0 1 (by decide) (by decide)).trans hburn
  have hlock' : wordGet (wordSet w 4 1 1) 1 1 = 0 := (wordGet_wordSet_below w 4 1 1 1 1 (by decide) (by decide)).trans hlock
  have hexec : exec (.otpShadowClear p w) s = .next (clearShadows t) := by
    rw [exec_otpShadowClear, otpCmd_taken h, otpAfter_clear hburn' hlock' (wordGet_wordSet w 4 1 1 (by decide))]
  exact ⟨_, hexec, fun j => clearShadows_over j.isLt t, fun a => clearShadows_value a.isLt t,
    .of_events ((calm_events _ _ _).clearShadows (stored_events _ _ s)), clearShadows_fuse t,
    (otp_within s).clearShadows (stored_within _ _ s rfl)⟩

/-! ### A burn and a lock begin -/

theorem Calm.burnStart {q : Nat} {cmd : Bool} (K : Calm (Listed otpNames) P) (hs : P s) : P (Machine.burnStart q x cmd s) :=
  K.set rfl <| K.set rfl <| K.modOtp (fun _ => rfl) hs

theorem burnStart_otp (q x : Nat) (cmd : Bool) (s : State) :
    (burnStart q x cmd s).otp = { s.otp with arm := none, burn := some { word := q, value := x, cmd := cmd } } := by
  simp [burnStart, State.modOtp]

theorem burnStart_busy (q x : Nat) (cmd : Bool) (s : State) : (burnStart q x cmd s).get OTP_STAT_BUSY = 1 :=
  (State.get_set_apart rfl).trans <| State.get_set_own rfl rfl

theorem Calm.lockStart {r src : Nat} {cmd : Bool} (K : Calm (Listed otpNames) P) (hs : P s) : P (Machine.lockStart r cmd src s) :=
  K.set rfl <| K.set rfl <| K.modOtp (fun _ => rfl) hs

theorem lockStart_otp (r : Nat) (cmd : Bool) (src : Nat) (s : State) :
    (lockStart r cmd src s).otp = { s.otp with arm := none, margin := some (r, cmd, src) } := by
  simp [lockStart, State.modOtp]

theorem lockStart_busy (r : Nat) (cmd : Bool) (src : Nat) (s : State) : (lockStart r cmd src s).get OTP_STAT_BUSY = 1 :=
  (State.get_set_apart rfl).trans <| State.get_set_own rfl rfl

theorem otpBurn_written {b : BitVec 16} {a : BitVec 9} {x : Word} (h : s.takesWrite p ⟨.OTP_CMD, 0, 0, 0⟩ (wordSet w 0 1 1))
    (hclear : wordGet w 4 1 = 0) : ∃ u, exec (.otpBurn (.write p w) b a x) s = .next u ∧ u.otp.burn = some
      { word := s.get OTP_BURN_ADDR_WORD, value := s.get OTP_BURN_DATA_VALUE } ∧ u.otp.arm = none ∧ u.get OTP_STAT_BUSY = 1 ∧
      u.otp.fuse = s.otp.fuse ∧ Silent s u ∧ Within s u otpSpans := by
  let t := stored ⟨.OTP_CMD, 0, 0, 0⟩ (wordSet w 0 1 1) s
  have hclear' : wordGet (wordSet w 0 1 1) 4 1 = 0 := (wordGet_wordSet_above w 0 1 1 4 1 (by decide) (by decide)).trans hclear
  have haddr : t.get OTP_BURN_ADDR_WORD = s.get OTP_BURN_ADDR_WORD := State.get_setWord_apart rfl
  have hdata : t.get OTP_BURN_DATA_VALUE = s.get OTP_BURN_DATA_VALUE := State.get_setWord_apart rfl
  have hexec : exec (.otpBurn (.write p w) b a x) s =
      .next (burnStart (s.get OTP_BURN_ADDR_WORD) (s.get OTP_BURN_DATA_VALUE) false t) := by
    rw [exec_otpBurn_write, otpCmd_taken h, otpAfter_burn (wordGet_wordSet w 0 1 1 (by decide)) hclear', haddr, hdata]
  exact ⟨_, hexec, by rw [burnStart_otp], by rw [burnStart_otp], burnStart_busy .., by rw [burnStart_otp]; rfl,
    .of_events ((calm_events _ _ _).burnStart (stored_events _ _ s)), (otp_within s).burnStart (stored_within _ _ s rfl)⟩

theorem commitLock_written {b : BitVec 16} {r : BitVec 2} (h : s.takesWrite p ⟨.OTP_CMD, 0, 0, 0⟩ (wordSet w 1 1 1))
    (hclear : wordGet w 4 1 = 0) : ∃ u, exec (.commitLock (.write p w) b r) s = .next u ∧ u.otp.margin = some
      (wordGet w 2 2, false, Machine.Path.source p) ∧ u.otp.arm = none ∧ u.get OTP_STAT_BUSY = 1 ∧
      u.otp.fuse = s.otp.fuse ∧ Silent s u ∧ Within s u otpSpans := by
  let t := stored ⟨.OTP_CMD, 0, 0, 0⟩ (wordSet w 1 1 1) s
  have hlock : wordGet (wordSet w 1 1 1) 1 1 = 1 := wordGet_wordSet w 1 1 1 (by decide)
  have hclear' : wordGet (wordSet w 1 1 1) 4 1 = 0 := (wordGet_wordSet_above w 1 1 1 4 1 (by decide) (by decide)).trans hclear
  have hregion : wordGet (wordSet w 1 1 1) 2 2 = wordGet w 2 2 := wordGet_wordSet_above w 1 1 1 2 2 (by decide) (by decide)
  have hexec : exec (.commitLock (.write p w) b r) s = .next (lockStart (wordGet w 2 2) false (Machine.Path.source p) t) := by
    rw [exec_commitLock_write, otpCmd_taken h, otpAfter_lock (otpCmd_exclusive h.2.2.2 hlock) hlock hclear', hregion]
  exact ⟨_, hexec, by rw [lockStart_otp], by rw [lockStart_otp], lockStart_busy .., by rw [lockStart_otp]; rfl,
    .of_events ((calm_events _ _ _).lockStart (stored_events _ _ s)), (otp_within s).lockStart (stored_within _ _ s rfl)⟩

/-- OTP_ARM holds no field that a write stores. -/
theorem stored_otpArm (w : Word) (s : State) (q : Reg) : (stored ⟨.OTP_ARM, 0, 0, 0⟩ w s).word q = s.word q :=
  State.word_setWord_self s ⟨.OTP_ARM, 0, 0, 0⟩ q

theorem otpAfter_arm (t : State) : otpAfter p ⟨.OTP_ARM, 0, 0, 0⟩ w t =
    (t.modOtp (fun o => { o with arm := otpWriter p })).set OTP_STAT_ARMED 1 := rfl

theorem otpArm_arms (h : s.takesWrite p ⟨.OTP_ARM, 0, 0, 0⟩ w) : ∃ u, exec (.otpArm p w) s = .next u ∧ u.otp.arm = otpWriter p ∧
    u.get OTP_STAT_ARMED = 1 ∧ u.otp.burn = s.otp.burn ∧ Silent s u ∧ Frame s u [Fld.off OTP_STAT_ARMED] := by
  let t := stored ⟨.OTP_ARM, 0, 0, 0⟩ w s
  have hexec : exec (.otpArm p w) s = .next ((t.modOtp (fun o => { o with arm := otpWriter p })).set OTP_STAT_ARMED 1) := by
    rw [exec_otpArm, otpWrite_taken rfl h (by decide), otpAfter_arm]
  have hframe : Frame s t [Fld.off OTP_STAT_ARMED] := ⟨fun q _ _ => stored_otpArm w s q, .refl s⟩
  refine ⟨_, hexec, by rw [State.set_otp]; rfl, State.get_set_own rfl rfl, by rw [State.set_otp]; rfl,
    .of_events ((calm_events (Listed otpNames) _ _).set rfl ((calm_events (Listed otpNames) _ _).modOtp (fun _ => rfl) (stored_events _ _ s))), ?_⟩
  exact (kept_frame s _).set _ _ List.mem_cons_self (frame_modOtp hframe rfl)

/-! ### OTP_BURN and COMMIT_LOCK as commands -/

/-- The effect of OTP_BURN's command. -/
def burnCommanded (v : CmdVia) (b : BitVec 16) (a : BitVec 9) (x : Word) (s : State) : CmdRes :=
  onDie dieC (fun s => cmdOtpBurn (s.bareDefer v b.toNat) a.toNat x.toNat s) s

/-- The effect of COMMIT_LOCK's command. -/
def lockCommanded (v : CmdVia) (b : BitVec 16) (r : BitVec 2) (s : State) : CmdRes :=
  onDie dieC (fun s => cmdCommitLock (s.bareDefer v b.toNat) r.toNat s) s

theorem exec_otpBurn_cmd (v : CmdVia) (b : BitVec 16) (a : BitVec 9) (x : Word) (s : State) :
    exec (.otpBurn (.cmd v) b a x) s = .next (directCmd v 0x41 (burnCommanded v b a x) s) := rfl

theorem exec_commitLock_cmd (v : CmdVia) (b : BitVec 16) (r : BitVec 2) (s : State) :
    exec (.commitLock (.cmd v) b r) s = .next (directCmd v 0x42 (lockCommanded v b r) s) := rfl

theorem burnReady_cmdEntry (v : CmdVia) (s : State) (who : Bool) : (cmdEntry v s).burnReady who = s.burnReady who := by
  have hpkg : (cmdEntry v s).pkg = s.pkg := cmdEntry_get_named (by decide)
  have hstore : (cmdEntry v s).on HUP_STAT_ON_STORE = s.on HUP_STAT_ON_STORE := State.on_of_get (cmdEntry_get_named (by decide))
  unfold State.burnReady
  rw [cmdEntry_otp, hpkg, hstore]

theorem otpState_cmdEntry (v : CmdVia) (s : State) (r : Nat) : (cmdEntry v s).otpState r = s.otpState r := by
  unfold State.otpState
  rw [cmdEntry_word (by decide)]

theorem otpLocked_cmdEntry (v : CmdVia) (s : State) (r : Nat) : (cmdEntry v s).otpLocked r = s.otpLocked r :=
  State.bit_of_get (cmdEntry_get_named (by decide)) r

theorem lockOk_cmdEntry (v : CmdVia) (s : State) (who : Bool) (r : Nat) : (cmdEntry v s).lockOk who r = s.lockOk who r := by
  unfold State.lockOk
  rw [burnReady_cmdEntry, otpState_cmdEntry, otpLocked_cmdEntry]

theorem burnOk_cmdEntry (v : CmdVia) (s : State) (who : Bool) (q x : Nat) : (cmdEntry v s).burnOk who q x = s.burnOk who q x := by
  have hfuse : (cmdEntry v s).fuse = s.fuse := funext fun i => State.fuse_of_otp (congrArg OtpInt.fuse (cmdEntry_otp v s)) i
  have hsame : (cmdEntry v s).marginSame = s.marginSame := by
    unfold State.marginSame
    rw [hfuse]
  have hcrc : (cmdEntry v s).otpCrc = s.otpCrc := by
    unfold State.otpCrc
    rw [hfuse]
  unfold State.burnOk
  dsimp only
  rw [burnReady_cmdEntry, hfuse, otpState_cmdEntry, otpLocked_cmdEntry, hsame, hcrc]

theorem groupBusy_cmdEntry (v : CmdVia) (s : State) (grp : Nat) : (cmdEntry v s).groupBusy grp = s.groupBusy grp := by
  unfold State.groupBusy State.deferOf
  rw [cmdEntry_host]

/-- A command deferred in the group of the OTP: its status, its group's state, and what it has written (R276). -/
theorem otpDeferred {g : State → CmdRes} {d : Defer} {op : Nat} (htake : s.takesCmd v = true)
    (hg : g (cmdEntry v s) = deferStart grpOtp d z)
    (hz : ∀ {P : State → Prop}, Calm (Listed otpNames) P → P (cmdEntry v s) → P z) :
    ∃ u, directCmd v op g s = u ∧ u.otp = z.otp ∧ u.get OTP_STAT_BUSY = z.get OTP_STAT_BUSY ∧ u.host.lastStatus = stDeferred ∧
      (u.deferOf grpOtp).state = 1 ∧ Silent s u ∧ Within s u otpSpans := by
  have hst : (g (cmdEntry v s)).status = stDeferred := congrArg CmdRes.status hg
  have hgroup : ((z.modDefer grpOtp (fun _ => { d with state := 1, orphan := false, done := 0 })).deferOf grpOtp).state = 1 :=
    congrArg Defer.state (bankGet_bankMod_same z.host.defer _ (by decide))
  refine ⟨_, directCmd_deferred htake hst, ?_⟩
  rw [hg]
  refine ⟨rfl, rfl, rfl, hgroup, .of_events (hz (calm_events _ _ _) (cmdEntry_events v s)), ?_⟩
  have K := (kept_within s otpSpans).mono fun _ h => otp_via_within v h
  have hwithin : Within s z otpSpans := hz (otp_within s) (cmdEntry_keeps K (fun _ => id) (Within.refl s _))
  exact (kept_within s otpSpans).modHost ((kept_within s otpSpans).modHost hwithin)

/-- The command's word and data, and its burn begun. -/
def burnTaken (q x : Nat) (s : State) : State := burnStart q x true ((s.set OTP_BURN_ADDR_WORD q).set OTP_BURN_DATA_VALUE x)

theorem Calm.burnTaken {q : Nat} (K : Calm (Listed otpNames) P) (hs : P s) : P (Machine.burnTaken q x s) :=
  K.burnStart <| K.set rfl <| K.set rfl hs

theorem burnTaken_otp (q x : Nat) (s : State) :
    (burnTaken q x s).otp = { s.otp with arm := none, burn := some { word := q, value := x, cmd := true } } := by
  unfold burnTaken
  rw [burnStart_otp, State.set_otp, State.set_otp]

theorem otpBurn_begins {b : BitVec 16} {a : BitVec 9} {x : Word} (htake : s.takesCmd v = true) (hiso : s.isolated dieC = false)
    (hfree : s.groupBusy grpOtp = false) (hok : s.burnOk false a.toNat x.toNat = true) :
    ∃ u, exec (.otpBurn (.cmd v) b a x) s = .next u ∧ u.otp.burn = some { word := a.toNat, value := x.toNat, cmd := true } ∧
      u.otp.arm = none ∧ u.get OTP_STAT_BUSY = 1 ∧ u.otp.fuse = s.otp.fuse ∧ u.host.lastStatus = stDeferred ∧
      (u.deferOf grpOtp).state = 1 ∧ Silent s u ∧ Within s u otpSpans := by
  have hg : burnCommanded v b a x (cmdEntry v s) = deferStart grpOtp { (cmdEntry v s).bareDefer v b.toNat with opcode := 0x41 }
      (burnTaken a.toNat x.toNat (cmdEntry v s)) := by
    unfold burnCommanded
    rw [onDie_run (by rw [cmdEntry_isolated]; exact hiso)]
    refine if_neg ?_
    rw [groupBusy_cmdEntry, burnOk_cmdEntry, hfree, hok]
    decide
  obtain ⟨u, hu, hotp, hbusy, hrest⟩ := otpDeferred (op := 0x41) htake hg (fun K h => K.burnTaken h)
  rw [burnTaken_otp, cmdEntry_otp] at hotp
  exact ⟨u, (exec_otpBurn_cmd v b a x s).trans (congrArg Host.Outcome.next hu), by rw [hotp], by rw [hotp],
    hbusy.trans (burnStart_busy ..), by rw [hotp], hrest⟩

theorem commitLock_begins {b : BitVec 16} {r : BitVec 2} (htake : s.takesCmd v = true) (hiso : s.isolated dieC = false)
    (hfree : s.groupBusy grpOtp = false) (hok : s.lockOk false r.toNat = true) :
    ∃ u, exec (.commitLock (.cmd v) b r) s = .next u ∧ u.otp.margin = some (r.toNat, true, 2) ∧
      u.otp.arm = none ∧ u.get OTP_STAT_BUSY = 1 ∧ u.otp.fuse = s.otp.fuse ∧ u.host.lastStatus = stDeferred ∧
      Silent s u ∧ Within s u otpSpans := by
  have hg : lockCommanded v b r (cmdEntry v s) = deferStart grpOtp { (cmdEntry v s).bareDefer v b.toNat with opcode := 0x42 }
      (lockStart r.toNat true 2 (cmdEntry v s)) := by
    unfold lockCommanded
    rw [onDie_run (by rw [cmdEntry_isolated]; exact hiso)]
    refine if_neg ?_
    rw [groupBusy_cmdEntry, lockOk_cmdEntry, hfree, hok]
    decide
  obtain ⟨u, hu, hotp, hbusy, hst, -, hrest⟩ := otpDeferred (op := 0x42) htake hg (fun K h => K.lockStart h)
  rw [lockStart_otp, cmdEntry_otp] at hotp
  exact ⟨u, (exec_commitLock_cmd v b r s).trans (congrArg Host.Outcome.next hu), by rw [hotp], by rw [hotp],
    hbusy.trans (lockStart_busy ..), by rw [hotp], hst, hrest⟩

/-- A burn that its writer has not armed (R394). -/
theorem otpBurn_unarmed {b : BitVec 16} {a : BitVec 9} {x : Word} (htake : s.takesCmd v = true) (hiso : s.isolated dieC = false)
    (harm : s.otp.arm ≠ some false) : ∃ u, exec (.otpBurn (.cmd v) b a x) s = .next u ∧ u.otp = s.otp ∧
      u.host.lastStatus = stIgnored ∧ Posts s u (viaEvt v) ∧ Frame s u (ignoredOffs ++ viaOffs v) := by
  have hnot : s.burnOk false a.toNat x.toNat = false := by
    unfold State.burnOk State.burnReady
    simp [harm]
  have hg : burnCommanded v b a x (cmdEntry v s) = cmdIgnored (cmdEntry v s) := by
    unfold burnCommanded
    rw [onDie_run (by rw [cmdEntry_isolated]; exact hiso)]
    refine if_pos ?_
    rw [burnOk_cmdEntry, hnot]
    simp
  have hst : (burnCommanded v b a x (cmdEntry v s)).status = stIgnored := congrArg CmdRes.status hg
  have hend := directCmd_eq (op := 0x41) (f := burnCommanded v b a x) htake (by rw [hst]; decide)
  have hotp : (directCmd v 0x41 (burnCommanded v b a x) s).otp = s.otp := by
    rw [hend, cmdEnded_otp, hg]
    exact cmdEntry_otp v s
  obtain ⟨u, hu, hignored, -, -, hposts, hframe⟩ := refusedCommand (op := 0x41) htake hg
  rw [hu] at hotp
  exact ⟨u, (exec_otpBurn_cmd v b a x s).trans (congrArg Host.Outcome.next hu), hotp, hignored, hposts, hframe⟩

end

/-- Settles O35: each way to set, clear, arm, burn and lock begins what R392 to R396 say, and none changes a fuse. -/
theorem otpShadowsBurnsAndLocks : Obligations.OtpShadowsBurnsAndLocks := by
  unfold Obligations.OtpShadowsBurnsAndLocks
  exact ⟨fun v a x s htake hok => otpShadow_sets htake hok, fun p a x s h => otpShadow_written h,
    fun v a x s htake ha => otpShadow_refused htake ha, fun p w s h hburn hlock => otpShadowClear_clears h hburn hlock,
    fun p w s h => otpArm_arms h, fun v b a x s htake hiso hfree hok => otpBurn_begins htake hiso hfree hok,
    fun v b a x s htake hiso harm => otpBurn_unarmed htake hiso harm, fun p b a x w s h hclear => otpBurn_written h hclear,
    fun v b r s htake hiso hfree hok => commitLock_begins htake hiso hfree hok, fun p b r w s h hclear => commitLock_written h hclear⟩

end Sys2Proof.Machine

/-! Register reads (R35, R36, R95, R193): what a read may change. -/

namespace Sys2Proof.Machine

/-- A property that a register read keeps: it may fill a telemetry buffer and take a snapshot of a high word. -/
structure ReadKept (P : State → Prop) : Prop where
  buf : ∀ (s : State) (r : Reg) (w : Word), r.off ∈ tlmBufOffs → P s → P (s.setWord r w)
  snap : ∀ (s : State) (l : List (Nat × Nat)), P s → P { s with snap := l }

section
variable {P : State → Prop} {s : State} {p : Path} {off : Nat}

theorem Reg.real_of_ofOff {r : Reg} (h : Reg.ofOff off = some r) : r.real = true := by
  obtain ⟨n, -, hn⟩ := List.exists_of_findSome?_eq_some h
  unfold RegName.find at hn
  dsimp only at hn
  split at hn
  · cases hn
  split at hn
  · next hin =>
    cases hn
    simp [Reg.real, hin.1, hin.2.1, hin.2.2.1]
  · cases hn

theorem tlmBuf_mem {i j : Nat} (hi : i < 4) (hj : j < 64) : Reg.off ⟨.PRG_TLM_BUF, i, j, 0⟩ ∈ tlmBufOffs :=
  List.mem_flatMap.2 ⟨i, List.mem_range.2 hi, List.mem_map.2 ⟨j, List.mem_range.2 hj, rfl⟩⟩

theorem ReadKept.tlmSnapshot (K : ReadKept P) {q : Nat} (hq : q < 4) (hs : P s) : P (tlmSnapshot q s) :=
  foldl_keeps _ _ (fun _ hj _ h => K.buf _ _ _ (tlmBuf_mem hq (List.mem_range.1 hj)) h) hs

theorem ReadKept.takeSnap (K : ReadKept P) (r : Reg) (hs : P s) : P (s.takeSnap r) := by
  unfold State.takeSnap
  split
  · exact K.snap _ _ hs
  · exact hs

theorem ReadKept.regRead (K : ReadKept P) (hs : P s) : P (regRead p off s).2 := by
  unfold Machine.regRead
  split
  · exact hs
  split
  · exact hs
  split
  · exact hs
  next r hr =>
  split
  · exact hs
  · dsimp only
    split
    · next hbuf =>
      have hreal := Reg.real_of_ofOff hr
      unfold Reg.real at hreal
      rw [hbuf.1] at hreal
      simp only [Bool.and_eq_true, decide_eq_true_eq] at hreal
      exact K.tlmSnapshot hreal.1.1 hs
    · exact K.takeSnap r hs

theorem ReadKept.regReads (K : ReadKept P) (n : Nat) (hs : P s) : P (regReads p off n s).2 := by
  induction n generalizing off s with
  | zero => exact hs
  | succ n ih => exact ih (K.regRead hs)

theorem readKept_sent (l : List Emit) : ReadKept (fun u => u.sent = l) where
  buf _ _ _ _ h := (State.setWord_sent ..).trans h
  snap _ _ h := h

theorem readKept_mgt (m : MgtInt) : ReadKept (fun u => u.mgt = m) where
  buf _ _ _ _ h := (State.setWord_mgt ..).trans h
  snap _ _ h := h

theorem readKept_silent (s : State) : ReadKept (Silent s) where
  buf _ _ _ _ h := h.setWord _ _
  snap _ _ h := h

theorem readKept_frame (s : State) : ReadKept (fun u => Frame s u tlmBufOffs) where
  buf _ _ _ hr h := (kept_frame s _).word _ _ _ hr h
  snap _ _ h := (kept_frame s _).beside h rfl

end

end Sys2Proof.Machine

/-! The I3C port (R301 to R303), and the settlement of O50. -/

namespace Sys2Proof.Machine

section
variable {s : State}

theorem exec_i3cRegWrite (off : Word) (data : List Byte) (err : Bool) (hon : s.i3cOn = true) :
    exec (.i3cRegWrite off data err) s = .next (if err then i3cError s else if data = [] then s
      else if off.toNat % 4 ≠ 0 ∨ data.length % 4 ≠ 0 ∨ 64 < data.length then s.ignored 0x05 off.toNat
      else (regWrites .i3c off.toNat 0 (bytesWords data) s).2) := by
  have hexec : exec (.i3cRegWrite off data err) s = execI3cRegWrite off data err s := rfl
  rw [hexec]
  unfold execI3cRegWrite
  rw [hon]
  rfl

theorem exec_i3cRegRead (off : Word) (n : Fin 65) (err : Bool) (hon : s.i3cOn = true) :
    exec (.i3cRegRead off n err) s = .next (if err then i3cError s
      else if off.toNat % 4 ≠ 0 then s.emit (.i3c (List.replicate n 0))
      else (regReads .i3c off.toNat ((n + 3) / 4) s).2.emit
        (.i3c ((wordsBytes (regReads .i3c off.toNat ((n + 3) / 4) s).1).take n))) := by
  have hexec : exec (.i3cRegRead off n err) s = execI3cRegRead off n err s := rfl
  rw [hexec]
  unfold execI3cRegRead
  rw [hon]
  rfl

/-- The error is counted, and its event raised. -/
def errorCounted (s : State) : State := s.draw.2.bump MGT_I3C_STAT_ERR_CNT

theorem i3cError_eq (s : State) : i3cError s = (errorCounted s).raise MGT_EVT_EVT 3 0x0903 0 [(32, s.draw.1)] := rfl

theorem Calm.errorCounted {P : State → Prop} (K : Calm (Listed [.MGT_I3C_STAT, .MGT_EVT]) P) (hs : P s) : P (Machine.errorCounted s) :=
  K.set rfl <| K.beside hs rfl

theorem i3cError_count (s : State) : (i3cError s).get MGT_I3C_STAT_ERR_CNT = satNat 8 (s.get MGT_I3C_STAT_ERR_CNT + 1) := by
  rw [i3cError_eq]
  exact (State.get_raise_named rfl rfl).trans (State.get_bump_own rfl)

theorem i3cError_sticky (s : State) : (i3cError s).bit MGT_EVT_EVT 3 = true := by
  rw [i3cError_eq]
  exact State.bit_raise_own rfl (by decide) rfl

theorem i3cError_posted (s : State) : Posted s (i3cError s) 0x0903 0 := by
  rw [i3cError_eq]
  exact posted_listedRaise (names := [.MGT_I3C_STAT, .MGT_EVT]) (fun K h => K.errorCounted h) rfl rfl

theorem i3cError_frame (s : State) :
    Frame s (i3cError s) ([Fld.off MGT_I3C_STAT_ERR_CNT, Fld.off MGT_EVT_EVT] ++ eventOffs) := by
  have K := kept_frame s ([Fld.off MGT_I3C_STAT_ERR_CNT, Fld.off MGT_EVT_EVT] ++ eventOffs)
  rw [i3cError_eq]
  refine K.raise _ _ _ _ _ (List.mem_append_left _ (List.mem_cons_of_mem _ List.mem_cons_self)) (fun _ => List.mem_append_right _) ?_
  exact K.set _ _ (List.mem_append_left _ List.mem_cons_self) (K.beside (Frame.refl s _) rfl)

theorem i3cError_shows (s : State) : (i3cError s).get MGT_I3C_STAT_ERR_CNT = satNat 8 (s.get MGT_I3C_STAT_ERR_CNT + 1) ∧
    (i3cError s).bit MGT_EVT_EVT 3 = true ∧ Posted s (i3cError s) 0x0903 0 ∧
    Frame s (i3cError s) ([Fld.off MGT_I3C_STAT_ERR_CNT, Fld.off MGT_EVT_EVT] ++ eventOffs) :=
  ⟨i3cError_count s, i3cError_sticky s, i3cError_posted s, i3cError_frame s⟩

/-- An ignored action's three registers. -/
theorem ignored_shows {src addr : Nat} (hsrc : src < 256) (haddr : addr < 2 ^ 32) (s : State) :
    (s.ignored src addr).get GLB_IGNORED_CNT_CNT = satNat 32 (s.get GLB_IGNORED_CNT_CNT + 1) ∧
      (s.ignored src addr).get GLB_IGNORED_LAST_S_SOURCE = src ∧ (s.ignored src addr).get GLB_IGNORED_LAST_A_ADDR = addr ∧
      Silent s (s.ignored src addr) ∧ Frame s (s.ignored src addr) ignoredOffs :=
  ⟨State.ignored_count, (State.get_set_apart rfl).trans (State.get_set_fits rfl hsrc),
    (State.get_set_apart rfl).trans <| (State.get_set_apart rfl).trans (State.get_set_fits rfl haddr),
    (Silent.refl s).ignored _ _ _, (kept_frame s _).ignored _ _ _ (fun _ => id) (Frame.refl s _)⟩

theorem i3cRegRead_reads (off : Word) (n : Fin 65) (hon : s.i3cOn = true) (halign : off.toNat % 4 = 0) :
    ∃ u, exec (.i3cRegRead off n false) s = .next u ∧
      u.sent = s.sent ++ [Emit.i3c ((wordsBytes (regReads .i3c off.toNat ((n.val + 3) / 4) s).1).take n)] ∧ Silent s u ∧
      Frame s u tlmBufOffs := by
  let t := (regReads .i3c off.toNat ((n.val + 3) / 4) s).2
  have hsent : t.sent = s.sent := (readKept_sent s.sent).regReads _ rfl
  have hsilent : Silent s t := (readKept_silent s).regReads _ (.refl s)
  have hframe : Frame s t tlmBufOffs := (readKept_frame s).regReads _ (.refl s _)
  refine ⟨_, exec_i3cRegRead off n false hon, ?_⟩
  rw [if_neg Bool.false_ne_true, if_neg (fun h => h halign)]
  exact ⟨congrArg (· ++ _) hsent, hsilent, (kept_frame s _).emit _ hframe⟩

/-! ### Common command codes (R303) -/

/-- What an answer adds is the answer alone. -/
theorem answered (n x : Nat) (s : State) : (i3cAnswer n x s).sent = s.sent ++ [Emit.i3c (natBytes n x).reverse] ∧
    Silent s (i3cAnswer n x s) ∧ Frame s (i3cAnswer n x s) [] :=
  ⟨rfl, .refl s, (kept_frame s _).emit _ (.refl s _)⟩

theorem modMgt_frame (s : State) (f : MgtInt → MgtInt) : Silent s (s.modMgt f) ∧ Frame s (s.modMgt f) [] :=
  ⟨.refl s, (kept_frame s _).beside (.refl s _) rfl⟩

/-- A common command code to a port that is on takes effect. -/
theorem ccc_on {c : Instr} (f : State → State) (hc : exec c s = ccc f s) (hon : s.i3cOn = true) : exec c s = .next (f s) := by
  rw [hc]
  unfold ccc
  rw [hon]
  rfl

/-- A write of two fields of MGT_I3C_STAT. -/
theorem i3cStat_frame (f g : Fld) (x y : Nat) (hf : f.off = Fld.off MGT_I3C_STAT_DADDR) (hg : g.off = Fld.off MGT_I3C_STAT_DADDR) (s : State) :
    Silent s ((s.set f x).set g y) ∧ Frame s ((s.set f x).set g y) [Fld.off MGT_I3C_STAT_DADDR] :=
  have K := kept_frame s [Fld.off MGT_I3C_STAT_DADDR]
  ⟨((Silent.refl s).set _ _).set _ _, K.set _ _ (List.mem_singleton.2 hg) (K.set _ _ (List.mem_singleton.2 hf) (.refl s _))⟩

theorem i3cStat_frame_one (f : Fld) (x : Nat) (hf : f.off = Fld.off MGT_I3C_STAT_DADDR) (s : State) :
    Silent s (s.set f x) ∧ Frame s (s.set f x) [Fld.off MGT_I3C_STAT_DADDR] :=
  ⟨(Silent.refl s).set _ _, (kept_frame s _).set _ _ (List.mem_singleton.2 hf) (.refl s _)⟩

theorem assignAddr_assigns (a : BitVec 7) (hfree : s.on MGT_I3C_STAT_DA_VALID = false) :
    (assignAddr a.toNat s).get MGT_I3C_STAT_DADDR = a.toNat ∧ (assignAddr a.toNat s).get MGT_I3C_STAT_DA_VALID = 1 ∧
      Silent s (assignAddr a.toNat s) ∧ Frame s (assignAddr a.toNat s) [Fld.off MGT_I3C_STAT_DADDR] := by
  have heq : assignAddr a.toNat s = (s.set MGT_I3C_STAT_DADDR a.toNat).set MGT_I3C_STAT_DA_VALID 1 := by
    unfold assignAddr
    rw [hfree]
    rfl
  rw [heq]
  exact ⟨(State.get_set_apart rfl).trans (State.get_set_fits rfl a.isLt), State.get_set_own rfl rfl, i3cStat_frame MGT_I3C_STAT_DADDR MGT_I3C_STAT_DA_VALID _ _ rfl rfl s⟩

end

/-- Settles O50: each transfer and each common command code of a port that is on. -/
theorem i3cPort : Obligations.I3cPort := by
  unfold Obligations.I3cPort
  refine ⟨fun off data s hon hdata ho hl hlen => ?_, fun off data s hon hdata hbad => ?_, fun off data s hon => ?_,
    fun off n s hon halign => i3cRegRead_reads off n hon halign, fun off n s hon hbad => ?_, fun off n s hon => ?_, fun s hon => ?_,
    fun s hon => ?_, fun s hon => ?_, fun a s hon hfree => ?_, fun a s hon hfree => ?_, fun n s hon => ?_, fun n s hon => ?_,
    fun s hon => ?_, fun s hon => ?_, fun s hon => ?_, fun s hon => ?_, fun s hon => ?_, fun s hon => ?_, fun s hon => ?_,
    fun s hon => ?_⟩
  · refine ⟨_, exec_i3cRegWrite off data false hon, ?_⟩
    rw [if_neg Bool.false_ne_true, if_neg hdata, if_neg (by omega)]
    exact ⟨rfl, rfl⟩
  · refine ⟨_, exec_i3cRegWrite off data false hon, ?_⟩
    rw [if_neg Bool.false_ne_true, if_neg hdata, if_pos hbad]
    exact ignored_shows (by decide) off.isLt s
  · refine ⟨_, exec_i3cRegWrite off data true hon, ?_⟩
    rw [if_pos rfl]
    exact i3cError_shows s
  · refine ⟨_, exec_i3cRegRead off n false hon, ?_⟩
    rw [if_neg Bool.false_ne_true, if_pos hbad]
    exact ⟨rfl, .refl s, (kept_frame s _).emit _ (.refl s _)⟩
  · refine ⟨_, exec_i3cRegRead off n true hon, ?_⟩
    rw [if_pos rfl]
    exact i3cError_shows s
  · exact ⟨_, ccc_on (fun s => s.set MGT_I3C_STAT_IBI_EN 1) rfl hon, State.get_set_own rfl rfl, State.get_set_apart rfl, i3cStat_frame_one MGT_I3C_STAT_IBI_EN 1 rfl s⟩
  · exact ⟨_, ccc_on (fun s => s.set MGT_I3C_STAT_IBI_EN 0) rfl hon, State.get_set_own rfl rfl, State.get_set_apart rfl, i3cStat_frame_one MGT_I3C_STAT_IBI_EN 0 rfl s⟩
  · exact ⟨_, ccc_on (fun s => (s.set MGT_I3C_STAT_DA_VALID 0).set MGT_I3C_STAT_DADDR 0) rfl hon, (State.get_set_apart rfl).trans (State.get_set_own rfl rfl),
      (State.get_set_apart rfl).trans (State.get_set_apart rfl), i3cStat_frame MGT_I3C_STAT_DA_VALID MGT_I3C_STAT_DADDR 0 0 rfl rfl s⟩
  · exact ⟨_, ccc_on (assignAddr a.toNat) rfl hon, assignAddr_assigns a hfree⟩
  · exact ⟨_, ccc_on (assignAddr a.toNat) rfl hon, assignAddr_assigns a hfree⟩
  · exact ⟨_, ccc_on (fun s => s.modMgt (fun m => { m with mwl := n.toNat })) rfl hon, rfl, rfl, modMgt_frame s _⟩
  · exact ⟨_, ccc_on (fun s => s.modMgt (fun m => { m with mrl := n.toNat })) rfl hon, rfl, rfl, modMgt_frame s _⟩
  · exact ⟨_, ccc_on (fun s => i3cAnswer 2 s.mgt.mwl s) rfl hon, answered 2 _ s⟩
  · exact ⟨_, ccc_on (fun s => i3cAnswer 2 s.mgt.mrl s) rfl hon, answered 2 _ s⟩
  · exact ⟨_, ccc_on (fun s => i3cAnswer 6 (s.otpWord 3 + 2 ^ 32 * (s.otpWord 4 % 2 ^ 16)) s) rfl hon, answered 6 _ s⟩
  · exact ⟨_, ccc_on (i3cAnswer 1 0x06) rfl hon, answered 1 _ s⟩
  · exact ⟨_, ccc_on (i3cAnswer 1 0x00) rfl hon, answered 1 _ s⟩
  · exact ⟨_, ccc_on (fun s => i3cAnswer 2 s.draw.1 s.draw.2) rfl hon, List.length_append, .refl s, (kept_frame s _).beside (.refl s _) rfl⟩
  · exact ⟨_, ccc_on i3cError rfl hon, i3cError_shows s⟩
  · exact ⟨_, ccc_on (fun s => s.bump MGT_I3C_STAT_HDR_CNT) rfl hon, State.get_bump_own rfl, State.get_set_apart rfl, i3cStat_frame_one MGT_I3C_STAT_HDR_CNT _ rfl s⟩

end Sys2Proof.Machine

/-! What PMBus reads answer (R296, R298, R299, R300), and the settlement of O49. -/

namespace Sys2Proof.Machine

section
variable {s u : State} {c : Instr} {code n r : Nat} {b : List Byte}

/-- The port answers the bytes, and nothing else changes. -/
def AnswersPmb (c : Instr) (s : State) (b : List Byte) : Prop :=
  ∃ u, exec c s = .next u ∧ u.sent = s.sent ++ [Emit.pmb b] ∧ Silent s u ∧ Frame s u []

theorem answersPmb (hc : exec c s = .next (answer b s)) : AnswersPmb c s b :=
  ⟨_, hc, rfl, .refl s, (kept_frame s _).emit _ (.refl s _)⟩

theorem pmbRead_answers {f : State → List Byte} (hc : exec c s = .next (pmbRead f s)) (hopen : s.pathOpen .pmb false = true)
    (hb : f s = b) : AnswersPmb c s b := by
  refine answersPmb (hc.trans ?_)
  unfold pmbRead
  rw [if_pos hopen, hb]

theorem pagedRead_page {f : State → State} (hopen : s.pathOpen .pmb false = true) (hpage : pmbPage s ≠ 0xFF) :
    pagedRead code n f s = f s := by
  unfold pagedRead
  rw [hopen, if_neg hpage]
  rfl

/-- A read of one rail's page. -/
theorem rail_page {r : Fin 24} (hpage : pmbPage s = r.val) : pmbPage s ≠ 0xFF := by
  have := r.isLt
  omega

theorem pagedRead_answers {f : State → State} (hc : exec c s = .next (pagedRead code n f s)) (hopen : s.pathOpen .pmb false = true)
    (hpage : pmbPage s ≠ 0xFF) (hb : f s = answer b s) : AnswersPmb c s b :=
  answersPmb (by rw [hc, pagedRead_page hopen hpage, hb])

theorem railRead_page {f : Nat → State → List Byte} {r : Fin 24} (hopen : s.pathOpen .pmb false = true) (hpage : pmbPage s = r.val)
    (hdie : s.isolated dieP = false) : railRead code n f s = answer (f r s) s := by
  unfold railRead
  rw [pagedRead_page hopen (rail_page hpage), hdie, hpage]
  rfl

theorem railRead_answers {f : Nat → State → List Byte} {r : Fin 24} (hc : exec c s = .next (railRead code n f s))
    (hopen : s.pathOpen .pmb false = true) (hpage : pmbPage s = r.val) (hdie : s.isolated dieP = false) (hb : f r s = b) :
    AnswersPmb c s b :=
  answersPmb (by rw [hc, railRead_page hopen hpage hdie, hb])

/-- A read of what the spec gives an encoding for. -/
theorem railReadFree_answers {known : Nat → State → Option (List Byte)} {r : Fin 24}
    (hc : exec c s = .next (railReadFree code n known s)) (hopen : s.pathOpen .pmb false = true) (hpage : pmbPage s = r.val)
    (hdie : s.isolated dieP = false) (hb : known r s = some b) : AnswersPmb c s b := by
  refine answersPmb (hc.trans ?_)
  unfold railReadFree
  rw [hpage, hb, if_neg (by simp), railRead_page hopen hpage hdie, hb]
  rfl

theorem limitRead_abs {mode thr : Nat → Fld} (h : s.get (mode r) = 0) :
    limitRead mode thr r s = some (natBytes 2 (roundDiv (s.get (thr r) * 2048) 125)) := if_pos h

theorem responseRead_rail {act : Nat → Fld} (h : s.get (act r) = 1) :
    responseRead act r s = some (natBytes 1 (0x80 + 8 * s.get (FLT_RETRY_RETRY r))) := by
  unfold responseRead
  rw [h]
  rfl

/-- PAGE 0xFF: ones, and an ignored action (R298). -/
theorem pagedRead_all {f : State → State} (hopen : s.pathOpen .pmb false = true) (hpage : pmbPage s = 0xFF) :
    pagedRead code n f s = answer (List.replicate n 0xFF) (s.ignored 0x04 (s.pmbAddr code)) := by
  unfold pagedRead
  rw [hopen, if_pos hpage]
  rfl

theorem answer_sent (b : List Byte) (s : State) : (answer b s).sent = s.sent ++ [Emit.pmb b] := rfl

theorem State.ignored_source {src addr detail : Nat} (hsrc : src < 256) :
    (s.ignored src addr detail).get GLB_IGNORED_LAST_S_SOURCE = src := by
  unfold State.ignored
  exact (State.get_set_apart rfl).trans (State.get_set_fits rfl hsrc)

theorem answerIgnored_counts (addr : Nat) (b : List Byte) (s : State) :
    (answer b (s.ignored 0x04 addr)).get GLB_IGNORED_CNT_CNT = satNat 32 (s.get GLB_IGNORED_CNT_CNT + 1) :=
  (State.get_of_regs (State.emit_regs ..) _).trans State.ignored_count

theorem answerIgnored_mgt (addr : Nat) (b : List Byte) (s : State) : (answer b (s.ignored 0x04 addr)).mgt = s.mgt :=
  (State.emit_mgt ..).trans (State.ignored_mgt ..)

theorem answerIgnored_sent (addr : Nat) (b : List Byte) (s : State) :
    (answer b (s.ignored 0x04 addr)).sent = s.sent ++ [Emit.pmb b] :=
  (answer_sent b _).trans (congrArg (· ++ [Emit.pmb b]) (State.ignored_sent s 0x04 addr 0))

theorem answerIgnored_source (addr : Nat) (b : List Byte) (s : State) :
    (answer b (s.ignored 0x04 addr)).get GLB_IGNORED_LAST_S_SOURCE = 4 :=
  (State.get_of_regs (State.emit_regs ..) _).trans (State.ignored_source (by decide))

theorem answerIgnored_silent (addr : Nat) (b : List Byte) (s : State) : Silent s (answer b (s.ignored 0x04 addr)) :=
  ((Silent.refl s).ignored _ _ _).rest (State.emit_evtSeq ..) (State.emit_evtFifo ..)

theorem answerIgnored_frame (addr : Nat) (b : List Byte) (s : State) : Frame s (answer b (s.ignored 0x04 addr)) ignoredOffs :=
  (kept_frame s _).emit _ ((kept_frame s _).ignored _ _ _ (fun _ => id) (.refl s _))

/-- A read that PAGE 0xFF refuses. -/
theorem pagedRead_refused {f : State → State} (hc : exec c s = .next (pagedRead code n f s)) (hopen : s.pathOpen .pmb false = true)
    (hpage : pmbPage s = 0xFF) : ∃ u, exec c s = .next u ∧ u.sent = s.sent ++ [Emit.pmb (List.replicate n 0xFF)] ∧
      u.mgt.regAddr = s.mgt.regAddr ∧ u.get GLB_IGNORED_CNT_CNT = satNat 32 (s.get GLB_IGNORED_CNT_CNT + 1) ∧
      u.get GLB_IGNORED_LAST_S_SOURCE = 4 ∧ Silent s u ∧ Frame s u ignoredOffs := by
  rw [pagedRead_all hopen hpage] at hc
  exact ⟨_, hc, answerIgnored_sent .., congrArg MgtInt.regAddr (answerIgnored_mgt ..), answerIgnored_counts .., answerIgnored_source ..,
    answerIgnored_silent .., answerIgnored_frame ..⟩

theorem mfrRegData_reads (hopen : s.pathOpen .pmb false = true) (hpage : pmbPage s ≠ 0xFF) :
    ∃ u, exec (.mfrRegData none .good) s = .next u ∧ u.sent = s.sent ++ [Emit.pmb (4 :: wordBytes (regRead .pmb s.mgt.regAddr s).1)] ∧
      u.mgt.regAddr = (s.mgt.regAddr + 4) % 2 ^ 32 ∧ Silent s u ∧ Frame s u tlmBufOffs := by
  let t := (regRead .pmb s.mgt.regAddr s).2
  have hsent : t.sent = s.sent := (readKept_sent s.sent).regRead rfl
  have hmgt : t.mgt = s.mgt := (readKept_mgt s.mgt).regRead rfl
  have hsilent : Silent s t := (readKept_silent s).regRead (.refl s)
  have hframe : Frame s t tlmBufOffs := (readKept_frame s).regRead (.refl s _)
  have hexec : exec (.mfrRegData none .good) s = .next (answer (4 :: wordBytes (regRead .pmb s.mgt.regAddr s).1) (regAdvance t)) := by
    have hread : exec (.mfrRegData none .good) s = .next (pagedRead 0xD1 5 (fun s =>
      answer (block (wordBytes (regRead .pmb s.mgt.regAddr s).1)) (regAdvance (regRead .pmb s.mgt.regAddr s).2)) s) := rfl
    rw [hread, pagedRead_page hopen hpage]
    rfl
  refine ⟨_, hexec, congrArg (· ++ _) hsent, ?_, hsilent.rest rfl rfl, (kept_frame s _).emit _ ((kept_frame s _).beside hframe rfl)⟩
  show (t.mgt.regAddr + 4) % 2 ^ 32 = _
  rw [hmgt]

theorem capability_unreadable {c : Byte} {x : Pec} {n : Fin 33} (hopen : s.pathOpen .pmb false = true)
    (hread : pmbReadable c.toNat = false) :
    AnswersPmb (.capability (some (c, x, some n))) s (List.replicate n.val 0xFF) := by
  refine pmbRead_answers (f := fun _ => List.replicate n.val 0xFF) ?_ hopen rfl
  have hexec : exec (.capability (some (c, x, some n))) s =
      .next (if pmbReadable c.toNat then s else pmbRead (fun _ => List.replicate n 0xFF) s) := rfl
  rw [hexec, hread]
  rfl

theorem alertResponse_answers (hopen : s.pathOpen .pmb false = true) (halert : s.alert = true) :
    AnswersPmb .alertResponse s (natBytes 1 (2 * s.get MGT_PMB_CFG_ADDR)) := by
  refine answersPmb ?_
  have hexec : exec .alertResponse s =
      .next (if s.pathOpen .pmb false && s.alert then answer (natBytes 1 (2 * s.get MGT_PMB_CFG_ADDR)) s else s) := rfl
  rw [hexec, hopen, halert]
  rfl

theorem alertResponse_silent (halert : s.alert = false) : exec .alertResponse s = .next s := by
  have hexec : exec .alertResponse s =
      .next (if s.pathOpen .pmb false && s.alert then answer (natBytes 1 (2 * s.get MGT_PMB_CFG_ADDR)) s else s) := rfl
  rw [hexec, halert, Bool.and_false]
  rfl

end

/-- Settles O49: each command's read by the kind it is: of the package, of the page, or of the paged rail. -/
theorem pmbusReads : Obligations.PmbusReads := by
  unfold Obligations.PmbusReads
  refine ⟨fun r s ho hp hd => ?_, fun r s ho hp hd => railRead_answers rfl ho hp hd rfl,
    fun r s ho hp hd => pagedRead_answers rfl ho (rail_page hp) rfl, fun s ho => pmbRead_answers rfl ho rfl,
    fun s ho => pmbRead_answers rfl ho rfl, fun c x n s ho hr => capability_unreadable ho hr,
    fun r s ho hp hd => pagedRead_answers rfl ho (rail_page hp) rfl,
    fun r s ho hp hd => railRead_answers rfl ho hp hd rfl, fun r s ho hp hd => railRead_answers rfl ho hp hd rfl,
    fun r s ho hp hd => railRead_answers rfl ho hp hd rfl,
    fun r s ho hp hd hm => railReadFree_answers rfl ho hp hd (limitRead_abs hm),
    fun r s ho hp hd hm => railReadFree_answers rfl ho hp hd (limitRead_abs hm),
    fun r s ho hp hd ha => railReadFree_answers rfl ho hp hd (responseRead_rail ha),
    fun r s ho hp hd ha => railReadFree_answers rfl ho hp hd (responseRead_rail ha),
    fun r s ho hp hd ha => railReadFree_answers rfl ho hp hd (responseRead_rail ha),
    fun r s ho hp hd ha => railReadFree_answers rfl ho hp hd (responseRead_rail ha),
    fun r s ho hp hd => railRead_answers rfl ho hp hd rfl, fun r s ho hp hd => railRead_answers rfl ho hp hd rfl,
    fun r s ho hp hd => railRead_answers rfl ho hp hd rfl, fun r s ho hp hd => railRead_answers rfl ho hp hd rfl,
    fun r s ho hp hd => railRead_answers rfl ho hp hd rfl, fun r s ho hp hd => railRead_answers rfl ho hp hd rfl,
    fun r s ho hp hd => railRead_answers rfl ho hp hd rfl,
    fun r s ho hp hd => pagedRead_answers rfl ho (rail_page hp) rfl, fun mv s ho => pmbRead_answers rfl ho rfl,
    fun r s ho hp hd => railRead_answers rfl ho hp hd rfl, fun r s ho hp hd => railRead_answers rfl ho hp hd rfl,
    fun mv r s ho hp hd => railRead_answers rfl ho hp hd rfl, fun s ho => pmbRead_answers rfl ho rfl,
    fun s ho => pmbRead_answers rfl ho rfl, fun s ho => pmbRead_answers rfl ho rfl, fun s ho => pmbRead_answers rfl ho rfl,
    fun s ho hp => pagedRead_answers rfl ho hp rfl, fun s ho hp => ?_, fun s ho hp => ?_, fun s ho hp => mfrRegData_reads ho hp,
    fun s ho => pmbRead_answers rfl ho rfl, fun r s ho hp hd => railRead_answers rfl ho hp hd rfl,
    fun r s ho hp hd => railRead_answers rfl ho hp hd rfl, fun s ho => pmbRead_answers rfl ho rfl,
    fun s ho ha => alertResponse_answers ho ha, fun s ho ha => ⟨s, alertResponse_silent ha, rfl⟩, fun s ho hp => ?_⟩
  · refine pagedRead_answers rfl ho (rail_page hp) ?_
    show answer (natBytes 1 (pmbPage s)) s = _
    rw [hp]
  · obtain ⟨u, hu, hsent, haddr, hcnt, -, hrest⟩ := pagedRead_refused (c := (.mfrRegAddr none .good)) rfl ho hp
    exact ⟨u, hu, hsent, haddr, hcnt, hrest⟩
  · obtain ⟨u, hu, hsent, haddr, hcnt, -, hrest⟩ := pagedRead_refused (c := (.mfrRegData none .good)) rfl ho hp
    exact ⟨u, hu, hsent, haddr, hcnt, hrest⟩
  · obtain ⟨u, hu, hsent, -, hcnt, hsrc, hrest⟩ := pagedRead_refused (c := .statusWord) rfl ho hp
    exact ⟨u, hu, hsent, hcnt, hsrc, hrest⟩

end Sys2Proof.Machine

/-! Page-table walks and invalidations of the DATU (R338 to R340, R345), and the settlement of O41. -/

namespace Sys2Proof.Machine

section
variable {s t : State} {x page kind level base iova pte why : Nat} {w : Walk} {e : TlbEnt} {ok : Fld → Prop} {P : State → Prop}

/-! ### What a walk changes -/

/-- The walk that starts for a host-port access. -/
def State.hostWalk (s : State) (x page kind : Nat) : Walk :=
  { host := true, ctx := x, page := page, kind := kind, level := 4
    base := 4096 * (s.get (DATU_ROOT_LO_ROOT x) + 2 ^ 20 * s.get (DATU_ROOT_HI_ROOT x)) }

/-- The walks in progress are changed. -/
def State.setWalks (s : State) (l : List Walk) : State := { s with walks := l }

/-- A walk that has started, its miss counted. -/
def walkStarted (w : Walk) (s : State) : State := (s.setWalks (s.walks ++ [w])).bump DATU_CNT_MISS_CNT

/-- The registers a recorded translation fault writes. -/
def xlateNames : List RegName := [.DATU_FADDR_LO, .DATU_FADDR_HI, .DATU_FINFO, .DATU_CCTL, .DATU_CNT]

theorem Calm.recordXlate {ch : Nat} {host : Bool} (K : Calm (Listed xlateNames) P) (hs : P s) :
    P (recordXlate x iova kind why level ch host s) :=
  K.set rfl <| K.set rfl <| K.set rfl <| K.set rfl <| K.set rfl <| K.set rfl <| K.set rfl <| K.set rfl <| K.set rfl <| K.set rfl hs

theorem Calm.walkStarted (K : Calm ok P) (hcnt : ok DATU_CNT_MISS_CNT) (hs : P s) : P (walkStarted w s) := K.set hcnt <| K.beside hs rfl

theorem Calm.modBursts (K : Calm ok P) {f : Nat → Desc → Burst → Burst} (hs : P s) : P (s.modBursts x f) := by
  refine State.each_keeps 32 _ (fun ch _ u hu => ?_) hs
  split
  · exact K.ite (K.beside hu rfl) hu
  · exact hu

theorem Calm.lookAgain (K : Calm ok P) (hs : P s) : P (lookAgain x s) := K.modBursts hs

/-- Bursts learn without a change of the walks or of the IOTLB. -/
theorem State.modBursts_xlate (f : Nat → Desc → Burst → Burst) (s : State) :
    (s.modBursts x f).walks = s.walks ∧ (s.modBursts x f).iotlb = s.iotlb := by
  refine State.each_keeps (P := fun u => u.walks = s.walks ∧ u.iotlb = s.iotlb) 32 _ (fun ch _ u hu => ?_) ⟨rfl, rfl⟩
  split
  · split
    · exact hu
    · exact hu
  · exact hu

theorem lookAgain_xlate (x : Nat) (s : State) : (lookAgain x s).walks = s.walks ∧ (lookAgain x s).iotlb = s.iotlb :=
  State.modBursts_xlate _ s

/-! ### A recorded fault -/

theorem recordXlate_pend {ch : Nat} {host : Bool} : (recordXlate x iova kind why level ch host s).get (DATU_FINFO_PEND x) = 1 :=
  (State.get_set_apart rfl).trans <| (State.get_set_apart rfl).trans <| (State.get_set_apart rfl).trans <|
    (State.get_set_apart rfl).trans <| (State.get_set_apart rfl).trans <| (State.get_set_apart rfl).trans <|
    (State.get_set_apart rfl).trans <| State.get_set_own rfl rfl

theorem recordXlate_cause {ch : Nat} {host : Bool} (h : why < 8) :
    (recordXlate x iova kind why level ch host s).get (DATU_FINFO_CAUSE x) = why :=
  (State.get_set_apart rfl).trans <| (State.get_set_apart rfl).trans <| (State.get_set_apart rfl).trans <|
    (State.get_set_apart rfl).trans <| (State.get_set_apart rfl).trans <| (State.get_set_apart rfl).trans <| State.get_set_fits rfl h

theorem recordXlate_level {ch : Nat} {host : Bool} (h : level - 1 < 4) :
    (recordXlate x iova kind why level ch host s).get (DATU_FINFO_LEVEL x) = level - 1 :=
  (State.get_set_apart rfl).trans <| (State.get_set_apart rfl).trans <| (State.get_set_apart rfl).trans <|
    (State.get_set_apart rfl).trans <| State.get_set_fits rfl h

theorem recordXlate_low {ch : Nat} {host : Bool} :
    (recordXlate x iova kind why level ch host s).get (DATU_FADDR_LO_IOVA x) = iova % 2 ^ 32 :=
  (State.get_set_apart rfl).trans <| (State.get_set_apart rfl).trans <| (State.get_set_apart rfl).trans <|
    (State.get_set_apart rfl).trans <| (State.get_set_apart rfl).trans <| (State.get_set_apart rfl).trans <|
    (State.get_set_apart rfl).trans <| (State.get_set_apart rfl).trans <| (State.get_set_apart rfl).trans <|
    State.get_set_same _ _ _ (show 0 + 32 ≤ 32 by decide)

theorem recordXlate_count {ch : Nat} {host : Bool} :
    (recordXlate x iova kind why level ch host s).get (DATU_CCTL_FCNT x) = satNat 16 (s.get (DATU_CCTL_FCNT x) + 1) := by
  refine (State.get_set_apart rfl).trans <| (State.get_bump_own rfl).trans (congrArg (fun n => satNat 16 (n + 1)) ?_)
  exact (State.get_set_apart rfl).trans <| (State.get_set_apart rfl).trans <| (State.get_set_apart rfl).trans <|
    (State.get_set_apart rfl).trans <| (State.get_set_apart rfl).trans <| (State.get_set_apart rfl).trans <|
    (State.get_set_apart rfl).trans <| State.get_set_apart rfl

theorem recordXlate_xlate {ch : Nat} {host : Bool} : (recordXlate x iova kind why level ch host s).walks = s.walks ∧
    (recordXlate x iova kind why level ch host s).iotlb = s.iotlb := by
  simp [recordXlate, State.setWide_eq, State.put_eq, State.bump_eq]

/-! ### The steps of a walk -/

theorem walkStep_absent (h : bitOf pte 0 = false) : walkStep w iova pte s = walkEnds w iova (some (xNotPresent, w.level)) s := by
  unfold walkStep
  rw [h]
  rfl

/-- A present entry without reserved bits above level 2 names a table. -/
theorem walkStep_table (h : bitOf pte 0 = true) (hrsvd : pteReserved pte w.level = false) (hlevel : 2 < w.level) :
    walkStep w iova pte s = s.setWalks (s.walks.map (fun v =>
      if v = w then { w with level := w.level - 1, base := pte / 2 ^ 12 % 2 ^ 40 * 2 ^ 12 } else v)) := by
  have hend : ¬(w.level = 1 ∨ (w.level = 2 ∧ bitOf pte 7)) := by omega
  unfold walkStep
  rw [h, hrsvd]
  exact if_neg hend

/-- The leaf an entry at level 1 is. -/
def Walk.leaf (w : Walk) (pte : Nat) : TlbEnt :=
  { ctx := w.ctx, page := w.page, big := false, frame := pte / 2 ^ 12 % 2 ^ 40, r := bitOf pte 1, w := bitOf pte 2, xn := bitOf pte 3 }

theorem walkStep_leaf (h : bitOf pte 0 = true) (hrsvd : pteReserved pte 1 = false) (hlevel : w.level = 1)
    (hperm : (w.leaf pte).permits w.kind = true) : walkStep w iova pte s = walkEnds w iova none (tlbFill (w.leaf pte) s) := by
  unfold walkStep
  rw [h, hlevel, hrsvd]
  exact if_pos hperm

theorem walkEnds_hostFault (hw : w.host = true) (level : Nat) : walkEnds w iova (some (why, level)) s =
    hostXlateFault w.ctx iova w.kind why level (s.setWalks (s.walks.filter (fun v => v ≠ w))) := by
  unfold walkEnds
  rw [hw]
  rfl

theorem walkEnds_host (hw : w.host = true) : walkEnds w iova none s =
    lookAgain w.ctx (s.setWalks (s.walks.filter (fun v => v ≠ w))) := by
  unfold walkEnds
  rw [hw]
  rfl

/-- A leaf enters the IOTLB where it has room. -/
theorem tlbFill_room (h : s.iotlb.length < 256) :
    tlbFill e s = { s with iotlb := s.iotlb ++ [e] }.set DATU_STAT_VALID (s.iotlb.length + 1) := by
  have hlen : (s.iotlb ++ [e]).length = s.iotlb.length + 1 := List.length_append
  unfold tlbFill
  dsimp only
  rw [if_neg (by omega), hlen]

/-- Another walk than the one that ends stays. -/
theorem filter_started {l : List Walk} (h : w ∉ l) : (l ++ [w]).filter (fun v => v ≠ w) = l := by
  rw [List.filter_append, List.filter_eq_self.2 (fun v hv => decide_eq_true (ne_of_mem_of_not_mem hv h))]
  simp

theorem map_started {l : List Walk} (h : w ∉ l) (v : Walk) : (l ++ [w]).map (fun z => if z = w then v else z) = l ++ [v] := by
  have hid : l.map (fun z => if z = w then v else z) = l.map id :=
    List.map_congr_left fun z hz => if_neg (ne_of_mem_of_not_mem hz h)
  rw [List.map_append, hid, List.map_id]
  simp

end

/-! ### Reads of a walk -/

section
variable {s : State} {x : Fin 16} {a : BitVec 48} {k : Fin 3} {e : BitVec 64} {z : BitVec 52}

/-- No host-port walk for a page and an access of a context is in progress. -/
def State.NoHostWalk (s : State) (x page kind : Nat) : Prop :=
  ∀ v ∈ s.walks, ¬(v.host = true ∧ v.ctx = x ∧ v.page = page ∧ v.kind = kind)

theorem hostWalk_not_mem (h : s.NoHostWalk x (a.toNat / 4096) k) : s.hostWalk x (a.toNat / 4096) k ∉ s.walks :=
  fun hm => h _ hm ⟨rfl, rfl, rfl, rfl⟩

theorem find_noHostWalk (h : s.NoHostWalk x (a.toNat / 4096) k) :
    s.walks.find? (fun w => w.host = true && w.ctx = x.val && w.page = a.toNat / 4096 && w.kind = k.val) = none := by
  refine List.find?_eq_none.2 fun v hv hfit => h v hv ?_
  simpa [and_assoc] using hfit

/-- What the read of an entry does to its walk. -/
def walkRead (w : Walk) (iova addr pte : Nat) (err : Bool) (s : State) : State :=
  if w.entry iova ≠ addr then s else if err then walkEnds w iova (some (xWalkErr, w.level)) s else walkStep w iova pte s

/-- A walk for a host-port access starts where the page is to be translated and the read is of its first entry. -/
def State.hostWalkDue (s : State) (x page : Nat) (w : Walk) (iova addr : Nat) : Bool :=
  s.on (DATU_CCTL_EN x) && (s.tlbFind x page).isNone && decide (w.entry iova = addr)

theorem execWalkReadDone_host (err : Bool) : exec (.walkReadDone true x a k z e err) s = .next (
    match s.walks.find? (fun w => w.host = true && w.ctx = x.val && w.page = a.toNat / 4096 && w.kind = k.val) with
    | some w => walkRead w a.toNat z.toNat e.toNat err s
    | none =>
      if s.hostWalkDue x (a.toNat / 4096) (s.hostWalk x (a.toNat / 4096) k) a.toNat z.toNat then
        walkRead (s.hostWalk x (a.toNat / 4096) k) a.toNat z.toNat e.toNat err (walkStarted (s.hostWalk x (a.toNat / 4096) k) s)
      else s) := by
  change execWalkReadDone true x a k z e err s = _
  unfold execWalkReadDone walkRead State.hostWalkDue
  simp only [Bool.not_true, Bool.false_and, Bool.true_or, Bool.and_true, Bool.not_false]
  rfl

theorem walkRead_good {w : Walk} {iova addr pte : Nat} (h : w.entry iova = addr) :
    walkRead w iova addr pte false s = walkStep w iova pte s := if_neg (not_not_intro h)

/-- A read of the first entry starts the walk. -/
theorem walkReadDone_starts (hen : s.on (DATU_CCTL_EN x) = true) (hmiss : s.tlbFind x (a.toNat / 4096) = none)
    (h : s.NoHostWalk x (a.toNat / 4096) k) (haddr : (s.hostWalk x (a.toNat / 4096) k).entry a.toNat = z.toNat) :
    exec (.walkReadDone true x a k z e false) s =
      .next (walkStep (s.hostWalk x (a.toNat / 4096) k) a.toNat e.toNat (walkStarted (s.hostWalk x (a.toNat / 4096) k) s)) := by
  have hdue : s.hostWalkDue x (a.toNat / 4096) (s.hostWalk x (a.toNat / 4096) k) a.toNat z.toNat = true := by
    unfold State.hostWalkDue
    rw [hen, hmiss, decide_eq_true haddr]
    rfl
  rw [execWalkReadDone_host, find_noHostWalk h]
  dsimp only
  rw [if_pos hdue, walkRead_good haddr]

/-- A read elsewhere than at the first entry starts none. -/
theorem walkReadDone_elsewhere (h : s.NoHostWalk x (a.toNat / 4096) k) {err : Bool}
    (haddr : (s.hostWalk x (a.toNat / 4096) k).entry a.toNat ≠ z.toNat) : exec (.walkReadDone true x a k z e err) s = .next s := by
  have hdue : ¬s.hostWalkDue x (a.toNat / 4096) (s.hostWalk x (a.toNat / 4096) k) a.toNat z.toNat = true := by
    unfold State.hostWalkDue
    rw [decide_eq_false haddr, Bool.and_false]
    exact Bool.false_ne_true
  rw [execWalkReadDone_host, find_noHostWalk h]
  dsimp only
  rw [if_neg hdue]

/-- A read for the one walk in progress. -/
theorem walkReadDone_one {w : Walk} (hw : s.walks = [w]) (hhost : w.host = true) (hctx : w.ctx = x.val) (hpage : w.page = a.toNat / 4096)
    (hkind : w.kind = k.val) (haddr : w.entry a.toNat = z.toNat) :
    exec (.walkReadDone true x a k z e false) s = .next (walkStep w a.toNat e.toNat s) := by
  have hfind : s.walks.find? (fun w => w.host = true && w.ctx = x.val && w.page = a.toNat / 4096 && w.kind = k.val) = some w := by
    rw [hw]
    exact List.find?_cons_of_pos (by rw [hhost, hctx, hpage, hkind]; simp)
  rw [execWalkReadDone_host, hfind]
  dsimp only
  rw [walkRead_good haddr]

/-! ### The outcomes of a walk's read -/

theorem walkStarted_walks (w : Walk) (s : State) : (walkStarted w s).walks = s.walks ++ [w] := by
  simp [walkStarted, State.bump_eq, State.setWalks]

theorem walkStarted_iotlb (w : Walk) (s : State) : (walkStarted w s).iotlb = s.iotlb := by
  simp [walkStarted, State.bump_eq, State.setWalks]

/-- A host-port walk whose first entry is not present. -/
def walkMissed (x iova kind : Nat) (w : Walk) (s : State) : State :=
  recordXlate x iova kind xNotPresent 4 0 true ((walkStarted w s).setWalks ((walkStarted w s).walks.filter (fun v => v ≠ w)))

theorem Calm.walkMissed {P : State → Prop} (K : Calm (Listed xlateNames) P) {c iova kind : Nat} {w : Walk} (hs : P s) :
    P (walkMissed c iova kind w s) := K.recordXlate <| K.beside (K.walkStarted rfl hs) rfl

theorem walkMissed_count {c iova kind : Nat} {w : Walk} :
    (walkMissed c iova kind w s).get (DATU_CCTL_FCNT c) = satNat 16 (s.get (DATU_CCTL_FCNT c) + 1) := by
  refine recordXlate_count.trans (congrArg (fun n => satNat 16 (n + 1)) ?_)
  exact State.get_set_apart (s := s.setWalks (s.walks ++ [w])) rfl

theorem datu_absent (hen : s.on (DATU_CCTL_EN x) = true) (hmiss : s.tlbFind x (a.toNat / 4096) = none)
    (h : s.NoHostWalk x (a.toNat / 4096) k) (haddr : (s.hostWalk x (a.toNat / 4096) k).entry a.toNat = z.toNat)
    (hpte : bitOf e.toNat 0 = false) : ∃ u, exec (.walkReadDone true x a k z e false) s = .next u ∧ u.walks = s.walks ∧
      u.iotlb = s.iotlb ∧ u.get (DATU_FINFO_PEND x) = 1 ∧ u.get (DATU_FINFO_CAUSE x) = xNotPresent ∧ u.get (DATU_FINFO_LEVEL x) = 3 ∧
      u.get (DATU_FADDR_LO_IOVA x) = a.toNat % 2 ^ 32 ∧ u.get (DATU_CCTL_FCNT x) = satNat 16 (s.get (DATU_CCTL_FCNT x) + 1) ∧
      Posted s u 0x0A00 0 ∧ Within s u spanDma := by
  have hname : ∀ n ∈ xlateNames, n.within spanDma = true := by decide
  have hexec := walkReadDone_starts (e := e) hen hmiss h haddr
  rw [walkStep_absent hpte, walkEnds_hostFault rfl] at hexec
  have hget : ∀ {f : Fld} {body v : Nat}, eventNames.contains f.reg.name = false →
      (walkMissed x a.toNat k (s.hostWalk x (a.toNat / 4096) k) s).get f = v →
      ((walkMissed x a.toNat k (s.hostWalk x (a.toNat / 4096) k) s).pushEvt 0x0A00 0 body).get f = v :=
    fun hf hv => (State.get_pushEvt_named _ _ _ _ hf).trans hv
  refine ⟨_, hexec, ?_, ?_, hget rfl recordXlate_pend, hget rfl (recordXlate_cause (by decide)), hget rfl (recordXlate_level (by decide)),
    hget rfl recordXlate_low, hget rfl walkMissed_count, posted_listedPush (fun K hs => K.walkMissed hs) rfl _ _ _,
    (noted_within s hname).push ((noted_within s hname).walkMissed (.refl s _))⟩
  · exact (State.pushEvt_walks ..).trans <| recordXlate_xlate.1.trans <|
      (congrArg _ (walkStarted_walks ..)).trans (filter_started (hostWalk_not_mem h))
  · exact (State.pushEvt_iotlb ..).trans <| recordXlate_xlate.2.trans (walkStarted_iotlb (s.hostWalk x (a.toNat / 4096) k) s)

/-- A calm change of one register keeps a frame of it. -/
theorem calm_frame (s : State) (g : Fld) : Calm (fun f => f.reg = g.reg) (fun u => Frame s u [g.off]) :=
  (kept_frame s [g.off]).calm fun _ hf => List.mem_singleton.2 (congrArg Reg.off hf)

theorem datu_table (hen : s.on (DATU_CCTL_EN x) = true) (hmiss : s.tlbFind x (a.toNat / 4096) = none)
    (h : s.NoHostWalk x (a.toNat / 4096) k) (haddr : (s.hostWalk x (a.toNat / 4096) k).entry a.toNat = z.toNat)
    (hpte : bitOf e.toNat 0 = true) (hrsvd : pteReserved e.toNat 4 = false) :
    ∃ u, exec (.walkReadDone true x a k z e false) s = .next u ∧ u.walks = s.walks ++
      [{ host := true, ctx := x.val, page := a.toNat / 4096, kind := k.val, level := 3, base := e.toNat / 2 ^ 12 % 2 ^ 40 * 2 ^ 12 }] ∧
      u.iotlb = s.iotlb ∧ u.get DATU_CNT_MISS_CNT = satNat DATU_CNT_MISS_CNT.w (s.get DATU_CNT_MISS_CNT + 1) ∧ Silent s u ∧
      Frame s u [Fld.off DATU_CNT_MISS_CNT] := by
  have hexec := walkReadDone_starts (e := e) hen hmiss h haddr
  rw [walkStep_table hpte hrsvd (by decide : 2 < 4)] at hexec
  have hkeeps : ∀ {ok : Fld → Prop} {P : State → Prop} {l : List Walk}, Calm ok P → ok DATU_CNT_MISS_CNT → P s →
      P ((walkStarted (s.hostWalk x (a.toNat / 4096) k) s).setWalks l) :=
    fun K hok hs => K.beside (K.walkStarted hok hs) rfl
  refine ⟨_, hexec, ?_, walkStarted_iotlb (s.hostWalk x (a.toNat / 4096) k) s, ?_,
    .of_events (hkeeps (calm_events (fun _ => True) _ _) trivial ⟨rfl, rfl⟩), hkeeps (calm_frame s _) rfl (.refl s _)⟩
  · exact (congrArg _ (walkStarted_walks ..)).trans (map_started (hostWalk_not_mem h) _)
  · exact State.get_bump_own (s := s.setWalks (s.walks ++ [_])) rfl

/-- A leaf has entered the IOTLB, its walk ended, and the bursts have learnt of it. -/
def walkFilled (w : Walk) (e : TlbEnt) (s : State) : State :=
  lookAgain w.ctx (({ s with iotlb := s.iotlb ++ [e] }.set DATU_STAT_VALID (s.iotlb.length + 1)).setWalks
    (s.walks.filter (fun v => v ≠ w)))

theorem Calm.walkFilled {ok : Fld → Prop} {P : State → Prop} {w : Walk} {l : TlbEnt} (K : Calm ok P) (hvalid : ok DATU_STAT_VALID)
    (hs : P s) : P (walkFilled w l s) :=
  K.lookAgain <| K.beside (K.set hvalid <| K.beside hs rfl) rfl

theorem walkFilled_walks {w : Walk} {l : TlbEnt} (hw : s.walks = [w]) : (walkFilled w l s).walks = [] := by
  refine (lookAgain_xlate ..).1.trans ?_
  unfold State.setWalks
  rw [hw]
  simp

theorem walkFilled_iotlb {w : Walk} {l : TlbEnt} : (walkFilled w l s).iotlb = s.iotlb ++ [l] :=
  (lookAgain_xlate ..).2.trans <| State.set_iotlb { s with iotlb := s.iotlb ++ [l] } DATU_STAT_VALID (s.iotlb.length + 1)

theorem walkFilled_valid {w : Walk} {l : TlbEnt} (hroom : s.iotlb.length < 256) :
    (walkFilled w l s).get DATU_STAT_VALID = s.iotlb.length + 1 :=
  (calm_get (ok := fun _ => False) _ _ (fun _ hf => hf.elim)).lookAgain <|
    State.get_set_fits rfl (show s.iotlb.length + 1 < 512 by omega)

theorem datu_leaf {w : Walk} (hw : s.walks = [w]) (hhost : w.host = true) (hctx : w.ctx = x.val) (hpage : w.page = a.toNat / 4096)
    (hkind : w.kind = 0) (hlevel : w.level = 1) (haddr : w.entry a.toNat = z.toNat) (hpte : bitOf e.toNat 0 = true)
    (hread : bitOf e.toNat 1 = true) (hrsvd : pteReserved e.toNat 1 = false) (hroom : s.iotlb.length < 256) :
    ∃ u, exec (.walkReadDone true x a 0 z e false) s = .next u ∧ u.walks = [] ∧ u.iotlb = s.iotlb ++
      [{ ctx := x.val, page := a.toNat / 4096, big := false, frame := e.toNat / 2 ^ 12 % 2 ^ 40, r := true, w := bitOf e.toNat 2
         xn := bitOf e.toNat 3 }] ∧
      u.get DATU_STAT_VALID = s.iotlb.length + 1 ∧ Silent s u ∧ Frame s u [Fld.off DATU_STAT_VALID] := by
  have hperm : (w.leaf e.toNat).permits w.kind = true := by rw [hkind]; exact hread
  have hexec := walkReadDone_one (k := 0) (e := e) hw hhost hctx hpage hkind haddr
  rw [walkStep_leaf hpte hrsvd hlevel hperm, walkEnds_host hhost, tlbFill_room hroom] at hexec
  refine ⟨walkFilled w (w.leaf e.toNat) s, hexec, walkFilled_walks hw, ?_, walkFilled_valid hroom,
    .of_events ((calm_events (fun _ => True) _ _).walkFilled trivial ⟨rfl, rfl⟩), (calm_frame s _).walkFilled rfl (.refl s _)⟩
  rw [walkFilled_iotlb, Walk.leaf, hctx, hpage, hread]

end

/-! ### Invalidations -/

section
variable {s : State} {x g : Nat}

/-- The leaves that an invalidation leaves have entered the IOTLB's place. -/
def invalidated (l : List TlbEnt) (s : State) : State :=
  ({ s with iotlb := l, inv := none }.set DATU_STAT_VALID l.length).set DATU_STAT_INV_BUSY 0

theorem Calm.invalidated {P : State → Prop} {l : List TlbEnt} (K : Calm (fun f => f.reg = DATU_STAT_VALID.reg) P) (hs : P s) :
    P (invalidated l s) := K.set rfl <| K.set rfl <| K.beside hs rfl

theorem invalidated_iotlb (l : List TlbEnt) (s : State) : (invalidated l s).iotlb = l := by simp [invalidated]

theorem invalidated_inv (l : List TlbEnt) (s : State) : (invalidated l s).inv = none := by simp [invalidated]

theorem invalidated_busy (l : List TlbEnt) (s : State) : (invalidated l s).get DATU_STAT_INV_BUSY = 0 := State.get_set_own rfl rfl

theorem invalidated_valid (s : State) : (invalidated [] s).get DATU_STAT_VALID = 0 :=
  (State.get_set_apart rfl).trans <| State.get_set_own rfl rfl

theorem invalidated_silent (l : List TlbEnt) (s : State) : Silent s (invalidated l s) :=
  .of_events ((calm_events _ _ _).invalidated ⟨rfl, rfl⟩)

theorem invalidated_frame (l : List TlbEnt) (s : State) : Frame s (invalidated l s) [Fld.off DATU_STAT_VALID] :=
  (calm_frame s _).invalidated (.refl s _)

theorem no_walk_named (i : Nat × Nat × Nat) (hw : s.walks = []) : ¬s.walks.any (fun w => invNames i w.ctx) = true := by
  rw [hw]
  exact Bool.false_ne_true

theorem datuInvDone_all (h : s.inv = some (0, x, g)) (hw : s.walks = []) : exec .datuInvDone s = .next (invalidated [] s) := by
  have hnone : s.iotlb.filter (fun _ => !true) = [] := by simp
  change execDatuInvDone s = _
  unfold execDatuInvDone
  rw [h]
  dsimp only
  rw [if_neg (no_walk_named _ hw)]
  exact congrArg (fun l => Host.Outcome.next (invalidated l s)) hnone

theorem datuInvDone_context (h : s.inv = some (1, x, g)) (hw : s.walks = []) :
    exec .datuInvDone s = .next (invalidated (s.iotlb.filter (fun e => e.ctx ≠ x)) s) := by
  have hrest : (fun e : TlbEnt => !decide (e.ctx = x)) = fun e => decide (e.ctx ≠ x) := funext fun e => decide_not.symm
  change execDatuInvDone s = _
  unfold execDatuInvDone
  rw [h]
  dsimp only
  rw [if_neg (no_walk_named _ hw)]
  exact congrArg (fun f => Host.Outcome.next (invalidated (s.iotlb.filter f) s)) hrest

theorem datuInvDone_waits (h : s.inv = some (0, x, g)) (hw : s.walks ≠ []) : exec .datuInvDone s = .next s := by
  obtain ⟨w, l, hwl⟩ := List.exists_cons_of_ne_nil hw
  have hnamed : s.walks.any (fun w => invNames (0, x, g) w.ctx) = true := by
    rw [hwl]
    rfl
  change execDatuInvDone s = _
  unfold execDatuInvDone
  rw [h]
  dsimp only
  rw [if_pos hnamed]

/-! ### The register write that starts one -/

variable {p : Path} {w : Word}

/-- The rule of the register lets the host's window alone write it, and the writes of the C-die's own. -/
theorem datuInv_die (h : s.takesWrite p ⟨.DATU_INV, 0, 0, 0⟩ w) : Path.die p = dieC := by
  obtain ⟨-, -, -, haccept⟩ := h
  cases p with
  | eng e =>
    have hrule : ∀ who, dmaRule who false ⟨.DATU_INV, 0, 0, 0⟩ (s.word ⟨.DATU_INV, 0, 0, 0⟩) w s = false := fun _ => rfl
    simp [State.accepts, blockRule, hrule] at haccept
  | _ => rfl

/-- The register holds nothing: each of its fields is written only. -/
theorem stored_datuInv (old : Word) : Reg.stored ⟨.DATU_INV, 0, 0, 0⟩ w old = old := rfl

/-- An invalidation in progress. -/
def invStarted (i : Nat × Nat × Nat) (s : State) : State := { s with inv := some i }.set DATU_STAT_INV_BUSY 1

theorem writeReg_datuInv (h : s.takesWrite p ⟨.DATU_INV, 0, 0, 0⟩ (wordSet w 0 1 1)) :
    writeReg p ⟨.DATU_INV, 0, 0, 0⟩ (wordSet w 0 1 1) s =
      invStarted (wordGet w 1 2, wordGet w 4 4, s.get DATU_INV_ADDR_LO_IOVA + 2 ^ 20 * s.get DATU_INV_ADDR_HI_IOVA)
        (stored ⟨.DATU_INV, 0, 0, 0⟩ (wordSet w 0 1 1) s) := by
  have hgo : wordGet (wordSet w 0 1 1) 0 1 = 1 := wordGet_wordSet w 0 1 1 (by decide)
  have hkind : wordGet (wordSet w 0 1 1) 1 2 = wordGet w 1 2 := wordGet_wordSet_above w 0 1 1 1 2 (by decide) (by decide)
  have hctx : wordGet (wordSet w 0 1 1) 4 4 = wordGet w 4 4 := wordGet_wordSet_above w 0 1 1 4 4 (by decide) (by decide)
  have hlo : (stored ⟨.DATU_INV, 0, 0, 0⟩ (wordSet w 0 1 1) s).get DATU_INV_ADDR_LO_IOVA = s.get DATU_INV_ADDR_LO_IOVA :=
    State.get_setWord_apart rfl
  have hhi : (stored ⟨.DATU_INV, 0, 0, 0⟩ (wordSet w 0 1 1) s).get DATU_INV_ADDR_HI_IOVA = s.get DATU_INV_ADDR_HI_IOVA :=
    State.get_setWord_apart rfl
  refine (writeReg_taken h rfl (datuInv_die h) (by decide)).trans ?_
  rw [← hkind, ← hctx, ← hlo, ← hhi]
  exact if_pos hgo

theorem datu_invalidates (h : s.takesWrite p ⟨.DATU_INV, 0, 0, 0⟩ (wordSet w 0 1 1)) : ∃ u, exec (.datuInv p w) s = .next u ∧
    u.inv = some (wordGet w 1 2, wordGet w 4 4, s.get DATU_INV_ADDR_LO_IOVA + 2 ^ 20 * s.get DATU_INV_ADDR_HI_IOVA) ∧
    u.get DATU_STAT_INV_BUSY = 1 ∧ u.iotlb = s.iotlb ∧ Silent s u ∧ Frame s u [Fld.off DATU_STAT_INV_BUSY] := by
  have hkeeps : ∀ {P : State → Prop} {i : Nat × Nat × Nat} {t : State}, Calm (fun f => f.reg = DATU_STAT_INV_BUSY.reg) P → P t →
      P (invStarted i t) := fun K ht => K.set rfl <| K.beside ht rfl
  have hframe : Frame s (stored ⟨.DATU_INV, 0, 0, 0⟩ (wordSet w 0 1 1) s) [Fld.off DATU_STAT_INV_BUSY] :=
    ⟨fun q _ _ => (congrArg (fun x => (s.setWord ⟨.DATU_INV, 0, 0, 0⟩ x).word q) (stored_datuInv _)).trans (State.word_setWord_self ..),
      .refl s⟩
  refine ⟨_, congrArg Host.Outcome.next (writeReg_datuInv h), State.set_inv .., State.get_set_own rfl rfl, State.set_iotlb .., ?_,
    hframe.trans (hkeeps (calm_frame _ _) (.refl _ _))⟩
  exact .of_events (hkeeps (calm_events _ _ _) (stored_events ..))

end

/-- Settles O41: a walk's read ends it with a fault, takes it a level down or fills the IOTLB, and an invalidation waits for the walks. -/
theorem datuWalksAndInvalidation : Obligations.DatuWalksAndInvalidation := by
  unfold Obligations.DatuWalksAndInvalidation
  refine ⟨fun x a k e z s hen hmiss hnone haddr hpte => datu_absent hen hmiss hnone haddr hpte,
    fun x a k e z s hen hmiss hnone haddr hpte hrsvd => datu_table hen hmiss hnone haddr hpte hrsvd,
    fun x a e w z s hw hhost hctx hpage hkind hlevel haddr hpte hread hrsvd hroom =>
      datu_leaf hw hhost hctx hpage hkind hlevel haddr hpte hread hrsvd hroom,
    fun x a k e z f s _ _ hnone haddr => ⟨s, walkReadDone_elsewhere hnone haddr, rfl⟩,
    fun p w s h => datu_invalidates h,
    fun x g s h hw => ⟨_, datuInvDone_all h hw, invalidated_iotlb .., invalidated_inv .., invalidated_valid s, invalidated_busy ..,
      invalidated_silent .., invalidated_frame ..⟩,
    fun x g s h hw => ⟨_, datuInvDone_context h hw, invalidated_iotlb .., invalidated_inv .., invalidated_busy .., invalidated_silent ..,
      invalidated_frame ..⟩,
    fun x g s h hw => ⟨s, datuInvDone_waits h hw, rfl⟩⟩

end Sys2Proof.Machine

/-! What PMBus writes do (R296 to R300), and the settlement of O48. -/

namespace Sys2Proof.Machine

section
variable {s t u : State} {c : Instr} {code : Nat} {F : State → WRes × State}

/-! ### A write transaction -/

theorem pmbWrite_taken (hopen : s.pathOpen .pmb true = true) (hwp : writeProtected (s.get MGT_PMB_STAT_WP) code = false)
    (hlock : s.pmbLocked code = false) : pmbWrite code .good F s =
      if (F s).1 = .ignored then (F s).2.modMgt (fun m => { m with cmlData := true }) else (F s).2 := by
  unfold pmbWrite
  simp only [hopen, hwp, hlock, Bool.not_true, Bool.false_eq_true, if_false, reduceCtorEq, false_and]

theorem pmbWrite_applied (hopen : s.pathOpen .pmb true = true) (hwp : writeProtected (s.get MGT_PMB_STAT_WP) code = false)
    (hlock : s.pmbLocked code = false) (hF : F s = (.applied, u)) : pmbWrite code .good F s = u := by
  rw [pmbWrite_taken hopen hwp hlock, hF]
  rfl

/-- A command refused as a whole, with the bits of STATUS_CML it sets. -/
def pmbRefused (code : Nat) (g : MgtInt → MgtInt) (s : State) : State := (s.ignored 0x04 (s.pmbAddr code)).modMgt g

theorem modMgt_regs (f : MgtInt → MgtInt) (s : State) : (s.modMgt f).regs = s.regs := rfl

/-- What a refused command shows. -/
theorem pmbRefused_shows (g : MgtInt → MgtInt) : (pmbRefused code g s).mgt = g s.mgt ∧
    (pmbRefused code g s).get GLB_IGNORED_CNT_CNT = satNat 32 (s.get GLB_IGNORED_CNT_CNT + 1) ∧
    (pmbRefused code g s).get GLB_IGNORED_LAST_S_SOURCE = 4 ∧ Silent s (pmbRefused code g s) ∧ Frame s (pmbRefused code g s) ignoredOffs := by
  obtain ⟨hsilent, hframe⟩ := modMgt_frame (s.ignored 0x04 (s.pmbAddr code)) g
  have hmgt : (pmbRefused code g s).mgt = g (s.ignored 0x04 (s.pmbAddr code)).mgt := rfl
  have hget : ∀ f, (pmbRefused code g s).get f = (s.ignored 0x04 (s.pmbAddr code)).get f := State.get_of_regs (modMgt_regs ..)
  have hignored : Frame s (s.ignored 0x04 (s.pmbAddr code)) ignoredOffs := (kept_frame s _).ignored _ _ _ (fun _ => id) (.refl s _)
  refine ⟨?_, ?_, ?_, ((Silent.refl s).ignored 0x04 (s.pmbAddr code) 0).trans hsilent,
    hignored.trans ⟨fun q hq _ => hframe.1 q hq List.not_mem_nil, hframe.2⟩⟩
  · rw [hmgt, State.ignored_mgt]
  · rw [hget, State.ignored_count]
  · rw [hget, State.ignored_source (by decide)]

theorem pmbWrite_refused (hopen : s.pathOpen .pmb true = true) (hwp : writeProtected (s.get MGT_PMB_STAT_WP) code = false)
    (hlock : s.pmbLocked code = false) (hF : F s = pmbRefuse code s) :
    pmbWrite code .good F s = pmbRefused code (fun m => { m with cmlData := true }) s := by
  rw [pmbWrite_taken hopen hwp hlock, hF]
  rfl

theorem pmbWrite_locked (hopen : s.pathOpen .pmb true = true) (hwp : writeProtected (s.get MGT_PMB_STAT_WP) code = false)
    (hlock : s.pmbLocked code = true) : pmbWrite code .good F s = pmbRefused code (fun m => { m with cmlData := true }) s := by
  unfold pmbWrite
  simp only [hopen, hwp, hlock, Bool.not_true, Bool.false_eq_true, if_false, reduceCtorEq, false_and, if_true]
  rfl

theorem pmbWrite_protected (hopen : s.pathOpen .pmb true = true) (hwp : writeProtected (s.get MGT_PMB_STAT_WP) code = true) :
    pmbWrite code .good F s = pmbRefused code (fun m => { m with cmlCmd := true }) s := by
  unfold pmbWrite
  simp only [hopen, hwp, Bool.not_true, Bool.false_eq_true, if_false, reduceCtorEq, false_and, if_true]
  rfl

/-- PAGE, MFR_REG_ADDR and MFR_REG_DATA are never locked (R294). -/
theorem pmbLocked_free (h : [0x00, 0xD0, 0xD1].contains code = true) : s.pmbLocked code = false := by
  unfold State.pmbLocked
  rw [h, Bool.not_true, Bool.and_false]

theorem onRails_page {f : Nat → State → WRes × State} {r : Fin 24} (hpage : pmbPage s = r.val) : onRails f s = f r s := by
  unfold onRails pmbRails
  rw [if_neg (rail_page hpage), hpage]
  rfl

theorem onRailsIf_page {ok : Bool} {f : Nat → State → WRes × State} {r : Fin 24} (hok : ok = true) (hpage : pmbPage s = r.val) :
    onRailsIf ok code f s = f r s := by
  unfold onRailsIf
  rw [if_pos hok, onRails_page hpage]

/-! ### The register write of a rail -/

/-- The registers a command of a rail writes (R299). -/
def pmbNames : List RegName :=
  [.PRG_RCTL, .PRG_VID, .PRG_SLEW, .PRG_FSW, .FLT_OV, .FLT_UV, .FLT_OC, .FLT_OT, .FLT_RETRY, .FLT_RSTAT]

/-- A command's write has left a value in a field, the port and the events as they were, and no register outside the blocks changed. -/
structure Mapped (s : State) (f : Fld) (v : Nat) (u : State) : Prop where
  shown : u.get f = v
  port : u.mgt = s.mgt
  events : u.evtSeq = s.evtSeq ∧ u.evtFifo = s.evtFifo
  within : Within s u (spanMgt ++ spanWork)

theorem mapped_stored {r : Reg} {w : Word} {f : Fld} {g : FieldSpec} (hname : pmbNames.contains r.name = true) (hf : f.reg = r)
    (hg : g ∈ r.fields) (hacc : g.acc = .rw) (hlo : g.lo = f.lo) (hw : g.w = f.w) : Mapped s f (wordGet w f.lo f.w) (stored r w s) where
  shown := State.get_stored hf hg hacc hlo hw s w _
  port := State.setWord_mgt ..
  events := stored_events ..
  within := by
    have hnames : ∀ n ∈ pmbNames, n.within (spanMgt ++ spanWork) = true := by decide
    exact (kept_within_names s _).word _ _ _ (.inl (hnames _ (List.contains_iff_mem.1 hname))) (.refl s _)

/-- The registers that show a rail at work. -/
def railNames : List RegName := [.PRG_RSTAT, .PRG_PH]

/-- What the write sets off on its rail changes none of it. -/
theorem Mapped.after {f : Fld} {v : Nat} {g : State → State} (h : Mapped s f v t)
    (hg : ∀ {P : State → Prop} {z : State}, Calm (Listed railNames) P → P z → P (g z)) (hmgt : (g t).mgt = t.mgt)
    (hf : railNames.contains f.reg.name = false) : Mapped s f v (g t) where
  shown := hg (calm_get f v fun _ hl => hl.apart hf) h.shown
  port := hmgt.trans h.port
  events := hg (calm_events _ _ _) h.events
  within := hg ((kept_within_names s _).calm fun f hl => .inl
    ((by decide : ∀ n ∈ railNames, n.within (spanMgt ++ spanWork) = true) _ (List.contains_iff_mem.1 hl))) h.within

theorem Mapped.set {f e : Fld} {v x : Nat} (h : Mapped s f v t) (hname : pmbNames.contains e.reg.name = true)
    (hapart : e.apartFrom f = true) : Mapped s f v (t.set e x) where
  shown := (State.get_set_apart hapart).trans h.shown
  port := (State.set_mgt ..).trans h.port
  events := h.events
  within := by
    have hnames : ∀ n ∈ pmbNames, n.within (spanMgt ++ spanWork) = true := by decide
    exact (kept_within_names s _).set _ _ (.inl (hnames _ (List.contains_iff_mem.1 hname))) h.within

/-- A command that ends with its write. -/
theorem pmb_maps {f : Fld} {v : Nat} (hc : exec c s = .next (pmbWrite code .good F s)) (hopen : s.pathOpen .pmb true = true)
    (hwp : writeProtected (s.get MGT_PMB_STAT_WP) code = false) (hlock : s.pmbLocked code = false) (hF : F s = (.applied, u))
    (h : Mapped s f v u) : ∃ u, exec c s = .next u ∧ u.get f = v ∧ u.mgt.cmlData = s.mgt.cmlData ∧ Silent s u ∧
      Within s u (spanMgt ++ spanWork) :=
  ⟨u, hc.trans (congrArg _ (pmbWrite_applied hopen hwp hlock hF)), h.shown, congrArg MgtInt.cmlData h.port, .of_events h.events, h.within⟩

theorem pmbWrite_reg {r : Reg} {w : Word} (htake : s.takesWrite .pmb r w) (hreg : Reg.ofOff r.off = some r)
    (hname : pmbNames.contains r.name = true) :
    regWrite .pmb r.off w s = (.applied, blockAfter .pmb r (s.word r) w (stored r w s)) := by
  refine regWrite_taken htake hreg rfl fun e => ?_
  rw [e] at hname
  exact absurd hname (by decide)

theorem ofOff_prgReg {n : RegName} (hn : n ∈ [RegName.PRG_RCTL, .PRG_VID, .PRG_SLEW, .PRG_FSW]) (r : Fin 24) :
    Reg.ofOff (prgReg n r).off = some (prgReg n r) := by
  have hall : ∀ n ∈ [RegName.PRG_RCTL, .PRG_VID, .PRG_SLEW, .PRG_FSW], ∀ r : Fin 24,
      Reg.ofOff (prgReg n r).off = some (prgReg n r) := by decide
  exact hall n hn r

theorem ofOff_flt {n : RegName} (hn : n ∈ [RegName.FLT_OV, .FLT_UV, .FLT_OC, .FLT_OT, .FLT_RETRY, .FLT_RSTAT]) (r : Fin 24) :
    Reg.ofOff (Reg.off ⟨n, r, 0, 0⟩) = some ⟨n, r, 0, 0⟩ := by
  have hall : ∀ n ∈ [RegName.FLT_OV, .FLT_UV, .FLT_OC, .FLT_OT, .FLT_RETRY, .FLT_RSTAT], ∀ r : Fin 24,
      Reg.ofOff (Reg.off ⟨n, r, 0, 0⟩) = some ⟨n, r, 0, 0⟩ := by decide
  exact hall n hn r

/-- A field of a rail's register is written, and what the write sets off leaves it. -/
theorem pmbField_after {r : Reg} {lo n v : Nat} {g : FieldSpec} {after : State → State}
    (htake : s.takesWrite .pmb r (wordSet (s.word r) lo n v)) (hreg : Reg.ofOff r.off = some r)
    (hname : pmbNames.contains r.name = true) (hg : g ∈ r.fields) (hacc : g.acc = .rw) (hlo : g.lo = lo) (hw : g.w = n)
    (hfit : lo + n ≤ 32) (hafter : ∀ t, blockAfter .pmb r (s.word r) (wordSet (s.word r) lo n v) t = after t)
    (hkeeps : ∀ {P : State → Prop} {z : State}, Calm (Listed railNames) P → P z → P (after z)) (hmgt : ∀ t, (after t).mgt = t.mgt)
    (hf : railNames.contains r.name = false) : ∃ u, pmbField r lo n v s = (.applied, u) ∧ Mapped s ⟨r, lo, n⟩ (v % 2 ^ n) u := by
  have h : Mapped s ⟨r, lo, n⟩ (wordGet (wordSet (s.word r) lo n v) lo n) (stored r (wordSet (s.word r) lo n v) s) :=
    mapped_stored hname rfl hg hacc hlo hw
  rw [wordGet_wordSet _ _ _ _ hfit] at h
  exact ⟨_, (pmbWrite_reg htake hreg hname).trans (congrArg _ (hafter _)), h.after hkeeps (hmgt _) hf⟩

/-- A field whose write sets nothing off. -/
theorem pmbField_maps {r : Reg} {lo n v : Nat} {g : FieldSpec} (htake : s.takesWrite .pmb r (wordSet (s.word r) lo n v))
    (hreg : Reg.ofOff r.off = some r) (hname : pmbNames.contains r.name = true) (hg : g ∈ r.fields) (hacc : g.acc = .rw)
    (hlo : g.lo = lo) (hw : g.w = n) (hfit : lo + n ≤ 32)
    (hafter : ∀ t, blockAfter .pmb r (s.word r) (wordSet (s.word r) lo n v) t = t) :
    ∃ u, pmbField r lo n v s = (.applied, u) ∧ Mapped s ⟨r, lo, n⟩ (v % 2 ^ n) u := by
  have hnames : ∀ n ∈ pmbNames, railNames.contains n = false := by decide
  exact pmbField_after (after := id) htake hreg hname hg hacc hlo hw hfit hafter (fun _ hz => hz) (fun _ => rfl)
    (hnames _ (List.contains_iff_mem.1 hname))

/-! ### Rails started and moved -/

theorem Calm.railEnable {P : State → Prop} {r : Nat} (K : Calm (Listed railNames) P) (hs : P s) : P (railEnable r s) :=
  K.ite (K.setActive (fun _ => rfl) rfl <| K.set (f := PRG_RSTAT_DCM r) rfl <| K.beside (K.set (f := PRG_RSTAT_STATE r) rfl hs) rfl) hs

theorem setActive_mgt (r n : Nat) (s : State) : (setActive r n s).mgt = s.mgt :=
  (State.set_mgt ..).trans (foldl_keeps (P := fun u => u.mgt = s.mgt) _ _ (fun _ _ _ h => (State.set_mgt ..).trans h) rfl)

theorem modRail_mgt (r : Nat) (f : RailInt → RailInt) (s : State) : (s.modRail r f).mgt = s.mgt := rfl

theorem vidWritten_mgt (r : Nat) (s : State) : (vidWritten r s).mgt = s.mgt := by
  unfold vidWritten
  split
  · rw [setActive_mgt, State.set_mgt, State.set_mgt, modRail_mgt]
  · rfl

theorem railEnable_mgt (r : Nat) (s : State) : (railEnable r s).mgt = s.mgt := by
  unfold railEnable
  dsimp only
  split
  · rw [setActive_mgt, State.set_mgt, modRail_mgt, State.set_mgt]
  · rfl

/-- What follows a rail's own switching on a write of PRG_RCTL (R173). -/
def railFollows (r : Nat) (new : Word) (s : State) : State :=
  if s.railState r = railRegulating then
    let s2 := if wordGet new 3 1 = 0 then setActive r (s.nasg r) s else s
    if wordGet new 2 1 = 0 then s2.set (PRG_RSTAT_DCM r) 0 else s2
  else s

theorem Calm.railFollows {P : State → Prop} {r : Nat} {new : Word} (K : Calm (Listed railNames) P) (hs : P s) : P (railFollows r new s) := by
  have hphases : P (if wordGet new 3 1 = 0 then Machine.setActive r (s.nasg r) s else s) := K.ite (K.setActive (fun _ => rfl) rfl hs) hs
  exact K.ite (K.ite (K.set rfl hphases) hphases) hs

theorem railFollows_mgt (r : Nat) (new : Word) (s : State) : (railFollows r new s).mgt = s.mgt := by
  have hphases : (if wordGet new 3 1 = 0 then setActive r (s.nasg r) s else s).mgt = s.mgt := by
    split
    · exact setActive_mgt ..
    · rfl
  unfold railFollows
  dsimp only
  split
  · split
    · exact (State.set_mgt ..).trans hphases
    · exact hphases
  · rfl

theorem prgReg_rail (n : RegName) (r : Nat) : (prgReg n r).rail = r := Nat.div_add_mod r 6

theorem blockAfter_rctl (r : Nat) (old new : Word) (s : State) : blockAfter .pmb (prgReg .PRG_RCTL r) old new s =
    railFollows r new (if wordGet old 0 1 = 0 ∧ wordGet new 0 1 = 1 then railEnable r s
      else if wordGet new 0 1 = 0 then railDisable r s else s) := by
  have h : blockAfter .pmb (prgReg .PRG_RCTL r) old new s = railFollows (prgReg .PRG_RCTL r).rail new
      (if wordGet old 0 1 = 0 ∧ wordGet new 0 1 = 1 then railEnable (prgReg .PRG_RCTL r).rail s
        else if wordGet new 0 1 = 0 then railDisable (prgReg .PRG_RCTL r).rail s else s) := rfl
  rw [h, prgReg_rail]

/-- A write that leaves EN at 1 starts its rail or leaves it. -/
def railRaised (r : Nat) (old new : Word) (s : State) : State :=
  railFollows r new (if wordGet old 0 1 = 0 then railEnable r s else s)

theorem blockAfter_raises {r : Nat} {old new : Word} (hen : wordGet new 0 1 = 1) (s : State) :
    blockAfter .pmb (prgReg .PRG_RCTL r) old new s = railRaised r old new s := by
  rw [blockAfter_rctl, hen]
  simp only [and_true, one_ne_zero, if_false]
  rfl

theorem Calm.railRaised {P : State → Prop} {r : Nat} {old new : Word} (K : Calm (Listed railNames) P) (hs : P s) :
    P (railRaised r old new s) := K.railFollows <| K.ite (K.railEnable hs) hs

theorem railRaised_mgt (r : Nat) (old new : Word) (s : State) : (railRaised r old new s).mgt = s.mgt := by
  refine (railFollows_mgt ..).trans ?_
  split
  · exact railEnable_mgt ..
  · rfl

/-! ### A rail switched off -/

/-- The registers that a rail switched off writes. -/
def railOffNames : List RegName := [.PRG_RSTAT, .PRG_PH, .FLT_RSTAT, .PRG_REVT]

theorem Noted.railUnregulated {P : State → Prop} {r : Nat} (K : Noted railOffNames P) (hs : P s) : P (railUnregulated r s) :=
  K.set rfl <| K.set rfl <| K.set rfl <| K.set rfl hs

theorem Noted.railGoesOff {P : State → Prop} {r : Nat} (K : Noted railOffNames P) (hs : P s) : P (railGoesOff r s) :=
  K.raise rfl <| foldl_keeps _ _ (fun k _ _ h => K.set (f := PRG_PH_PSTATE k) rfl h) <| K.set (f := PRG_RSTAT_NACT r) rfl <|
    K.railUnregulated <| K.toCalm.beside (K.set (f := PRG_RSTAT_STATE r) rfl hs) rfl

theorem Noted.railDisable {P : State → Prop} {r : Nat} (K : Noted railOffNames P) (hs : P s) : P (railDisable r s) := by
  have hmod : ∀ f, P (s.modRail r f) := fun f => K.toCalm.beside hs rfl
  exact K.toCalm.ite (K.toCalm.ite (K.railGoesOff (hmod _)) <| K.toCalm.setActive (fun _ => rfl) rfl <| K.set (f := PRG_RSTAT_STATE r) rfl <|
    K.railUnregulated (hmod _)) <| K.toCalm.ite (K.railGoesOff hs) hs

theorem Noted.railLowered {P : State → Prop} {r : Nat} {old new : Word} (K : Noted railOffNames P) (hs : P s) (hen : wordGet new 0 1 = 0) :
    P (blockAfter .pmb (prgReg .PRG_RCTL r) old new s) := by
  have hname : ∀ n ∈ railNames, n ∈ railOffNames := by decide
  rw [blockAfter_rctl, hen]
  simp only [zero_ne_one, and_false, if_false, if_true]
  exact (K.toCalm.mono fun _ h => h.mono hname).railFollows (K.railDisable hs)

end

end Sys2Proof.Machine


namespace Sys2Proof.Machine

section
variable {s t u : State} {r : Fin 24}

/-! ### The package's commands -/

theorem exec_page (c : Byte) (x : Pec) (s : State) : exec (.page (some c) x) s = .next (pmbWrite 0x00 x (fun s =>
    if c.toNat ≤ 0x17 ∨ c.toNat = 0xFF then (.applied, s.set MGT_PMB_STAT_PAGE c.toNat) else pmbRefuse 0x00 s) s) := rfl

theorem calm_pmbStat (s : State) (f : Fld) (hf : f.off = Fld.off MGT_PMB_STAT_PAGE) (v : Nat) :
    Silent s (s.set f v) ∧ Frame s (s.set f v) [Fld.off MGT_PMB_STAT_PAGE] :=
  ⟨(Silent.refl s).set _ _, (kept_frame s _).set _ _ (List.mem_singleton.2 hf) (.refl s _)⟩

theorem page_set {c : Byte} (hopen : s.pathOpen .pmb true = true) (hwp : writeProtected (s.get MGT_PMB_STAT_WP) 0x00 = false)
    (hpage : c.toNat ≤ 23 ∨ c.toNat = 255) : ∃ u, exec (.page (some c) .good) s = .next u ∧ u.get MGT_PMB_STAT_PAGE = c.toNat ∧
      u.mgt = s.mgt ∧ Silent s u ∧ Frame s u [Fld.off MGT_PMB_STAT_PAGE] := by
  have hwrite := (exec_page c .good s).trans (congrArg _ (pmbWrite_applied hopen hwp (pmbLocked_free rfl) (if_pos hpage)))
  exact ⟨_, hwrite, State.get_set_fits rfl c.isLt, State.set_mgt .., calm_pmbStat s MGT_PMB_STAT_PAGE rfl _⟩

theorem page_refused {c : Byte} (hopen : s.pathOpen .pmb true = true) (hwp : writeProtected (s.get MGT_PMB_STAT_WP) 0x00 = false)
    (hlow : 23 < c.toNat) (hall : c.toNat ≠ 255) : ∃ u, exec (.page (some c) .good) s = .next u ∧
      u.get MGT_PMB_STAT_PAGE = s.get MGT_PMB_STAT_PAGE ∧ u.mgt.cmlData = true ∧
      u.get GLB_IGNORED_CNT_CNT = satNat 32 (s.get GLB_IGNORED_CNT_CNT + 1) ∧ u.get GLB_IGNORED_LAST_S_SOURCE = 4 ∧ Silent s u ∧
      Frame s u ignoredOffs := by
  have hno : ¬(c.toNat ≤ 0x17 ∨ c.toNat = 0xFF) := by omega
  have hwrite := (exec_page c .good s).trans (congrArg _ (pmbWrite_refused hopen hwp (pmbLocked_free rfl) (if_neg hno)))
  obtain ⟨hmgt, hcount, hsource, hsilent, hframe⟩ := pmbRefused_shows (s := s) (code := 0x00) (fun m => { m with cmlData := true })
  have hpage : MGT_PMB_STAT_PAGE.reg.off ∉ ignoredOffs := by decide
  refine ⟨_, hwrite, ?_, ?_, hcount, hsource, hsilent, hframe⟩
  · exact (State.get_of_regs (modMgt_regs ..) _).trans (State.get_ignored hpage)
  · rw [hmgt]

/-- A transaction with a wrong PEC, before its event (R297). -/
def pecFailed (s : State) : State := (s.modMgt (fun m => { m with cmlPec := true })).bump MGT_PMB_STAT_PEC_CNT

theorem pmbWrite_bad {code : Nat} {F : State → WRes × State} (hopen : s.pathOpen .pmb true = true) :
    pmbWrite code .bad F s = (pecFailed s).raise MGT_EVT_EVT 2 0x0902 0 [(8, code)] := by
  unfold pmbWrite pecFailed
  simp only [hopen, Bool.not_true, Bool.false_eq_true, if_false, if_true]

theorem Calm.pecFailed {P : State → Prop} (K : Calm (Listed [.MGT_PMB_STAT]) P) (hs : P s) : P (pecFailed s) :=
  K.set (f := MGT_PMB_STAT_PEC_CNT) rfl <| K.beside hs rfl

theorem pecFailed_mgt (s : State) : (pecFailed s).mgt = { s.mgt with cmlPec := true } := State.set_mgt ..

theorem page_badPec (c : Byte) (hopen : s.pathOpen .pmb true = true) : ∃ u, exec (.page (some c) .bad) s = .next u ∧
    u.get MGT_PMB_STAT_PAGE = s.get MGT_PMB_STAT_PAGE ∧ u.mgt.cmlPec = true ∧
    u.get MGT_PMB_STAT_PEC_CNT = satNat 8 (s.get MGT_PMB_STAT_PEC_CNT + 1) ∧ u.bit MGT_EVT_EVT 2 = true ∧ Posted s u 0x0902 0 ∧
    Within s u (spanGlb ++ spanMgt) := by
  have hraise : ∀ {f : Fld}, MGT_EVT_EVT.apartFrom f = true → eventNames.contains f.reg.name = false →
      ((pecFailed s).raise MGT_EVT_EVT 2 0x0902 0 [(8, 0x00)]).get f = (pecFailed s).get f := fun h hg => State.get_raise_named h hg
  have K : Noted [.MGT_PMB_STAT, .MGT_EVT] (fun u => Within s u (spanGlb ++ spanMgt)) := noted_within s (by decide)
  refine ⟨_, (exec_page c .bad s).trans (congrArg _ (pmbWrite_bad hopen)), ?_, ?_, ?_, State.bit_raise_own rfl (by decide) rfl,
    posted_listedRaise (names := [.MGT_PMB_STAT, .MGT_EVT]) (fun K hs => (K.mono fun _ h => h.mono (by simp)).pecFailed hs) rfl rfl,
    K.raise rfl ((K.toCalm.mono fun _ h => h.mono (by simp)).pecFailed (.refl s _))⟩
  · exact (hraise rfl rfl).trans <| State.get_set_apart (s := s.modMgt _) rfl
  · unfold State.raise
    rw [State.pushEvt_mgt, State.setBit_eq, State.set_mgt, pecFailed_mgt]
  · exact (hraise rfl rfl).trans <| State.get_bump_own (s := s.modMgt _) rfl

theorem exec_voutCommand (c : BitVec 16) (s : State) : exec (.voutCommand (some c) .good) s = .next (pmbWrite 0x21 .good (fun s =>
    onRailsIf (1024 ≤ c.toNat && 1000 * c.toNat ≤ 3600 * 4096) 0x21
      (fun r => pmbField (prgReg .PRG_VID r) 0 12 (roundDiv (25 * c.toNat) 128 - 200)) s) s) := rfl

theorem voutCommand_protected (c : BitVec 16) (hopen : s.pathOpen .pmb true = true) (hwp : s.get MGT_PMB_STAT_WP = 0x80) :
    ∃ u, exec (.voutCommand (some c) .good) s = .next u ∧ u.mgt.cmlCmd = true ∧
      u.get GLB_IGNORED_CNT_CNT = satNat 32 (s.get GLB_IGNORED_CNT_CNT + 1) ∧ Silent s u ∧ Frame s u ignoredOffs := by
  have hprot : writeProtected (s.get MGT_PMB_STAT_WP) 0x21 = true := by
    rw [hwp]
    rfl
  obtain ⟨hmgt, hcount, -, hsilent, hframe⟩ := pmbRefused_shows (s := s) (code := 0x21) (fun m => { m with cmlCmd := true })
  exact ⟨_, (exec_voutCommand c s).trans (congrArg _ (pmbWrite_protected hopen hprot)), by rw [hmgt], hcount, hsilent, hframe⟩

theorem voutCommand_locked (c : BitVec 16) (hopen : s.pathOpen .pmb true = true)
    (hwp : writeProtected (s.get MGT_PMB_STAT_WP) 0x21 = false) (hlock : s.pmbLocked 0x21 = true) :
    ∃ u, exec (.voutCommand (some c) .good) s = .next u ∧ u.mgt.cmlData = true ∧
      u.get GLB_IGNORED_CNT_CNT = satNat 32 (s.get GLB_IGNORED_CNT_CNT + 1) ∧ u.get GLB_IGNORED_LAST_S_SOURCE = 4 ∧ Silent s u ∧
      Frame s u ignoredOffs := by
  obtain ⟨hmgt, hcount, hsource, hsilent, hframe⟩ := pmbRefused_shows (s := s) (code := 0x21) (fun m => { m with cmlData := true })
  exact ⟨_, (exec_voutCommand c s).trans (congrArg _ (pmbWrite_locked hopen hwp hlock)), by rw [hmgt], hcount, hsource, hsilent, hframe⟩

theorem unsupported_refused {c : Byte} (hopen : s.pathOpen .pmb true = true)
    (hwp : writeProtected (s.get MGT_PMB_STAT_WP) c.toNat = false) (hlock : s.pmbLocked c.toNat = false)
    (hno : pmbWritable c.toNat = false) : ∃ u, exec (.capability (some (c, .good, none))) s = .next u ∧ u.mgt.cmlCmd = true ∧
      u.get GLB_IGNORED_CNT_CNT = satNat 32 (s.get GLB_IGNORED_CNT_CNT + 1) ∧ u.get GLB_IGNORED_LAST_S_SOURCE = 4 ∧ Silent s u ∧
      Frame s u ignoredOffs := by
  have hexec : exec (.capability (some (c, .good, none))) s = .next (if pmbWritable c.toNat then s else pmbUnsupported c.toNat .good s) := rfl
  have hend : pmbUnsupported c.toNat .good s = pmbRefused c.toNat (fun m => { m with cmlCmd := true }) s := by
    unfold pmbUnsupported
    rw [pmbWrite_taken hopen hwp hlock]
    rfl
  rw [hno, if_neg Bool.false_ne_true, hend] at hexec
  obtain ⟨hmgt, hcount, hsource, hsilent, hframe⟩ := pmbRefused_shows (s := s) (code := c.toNat) (fun m => { m with cmlCmd := true })
  exact ⟨_, hexec, by rw [hmgt], hcount, hsource, hsilent, hframe⟩

theorem onOffConfig_keeps (hopen : s.pathOpen .pmb true = true) (hwp : writeProtected (s.get MGT_PMB_STAT_WP) 0x02 = false)
    (hlock : s.pmbLocked 0x02 = false) : exec (.onOffConfig (some 0x18) .good) s = .next s :=
  congrArg Host.Outcome.next (pmbWrite_applied hopen hwp hlock (if_pos rfl))

theorem exec_writeProtect (c : Byte) (s : State) : exec (.writeProtect (some c) .good) s = .next (pmbWrite 0x10 .good (fun s =>
    if [0x80, 0x40, 0x20, 0x00].contains c.toNat then (.applied, s.set MGT_PMB_STAT_WP c.toNat) else pmbRefuse 0x10 s) s) := rfl

theorem writeProtect_set {c : Byte} (hopen : s.pathOpen .pmb true = true) (hwp : writeProtected (s.get MGT_PMB_STAT_WP) 0x10 = false)
    (hlock : s.pmbLocked 0x10 = false) (hc : c = 0x80 ∨ c = 0x40 ∨ c = 0x20 ∨ c = 0x00) :
    ∃ u, exec (.writeProtect (some c) .good) s = .next u ∧ u.get MGT_PMB_STAT_WP = c.toNat ∧ u.mgt = s.mgt ∧ Silent s u ∧
      Frame s u [Fld.off MGT_PMB_STAT_WP] := by
  have hcode : [0x80, 0x40, 0x20, 0x00].contains c.toNat = true := by rcases hc with rfl | rfl | rfl | rfl <;> rfl
  have hwrite := (exec_writeProtect c s).trans (congrArg _ (pmbWrite_applied hopen hwp hlock (if_pos hcode)))
  exact ⟨_, hwrite, State.get_set_fits rfl c.isLt, State.set_mgt .., calm_pmbStat s MGT_PMB_STAT_WP rfl _⟩

theorem exec_statusCml (c : Byte) (s : State) : exec (.statusCml (some c) .good) s = .next (pmbWrite 0x7E .good (fun s =>
    (.applied, s.modMgt (fun m => { m with cmlCmd := m.cmlCmd && !bitOf c.toNat 7, cmlData := m.cmlData && !bitOf c.toNat 6
                                           cmlPec := m.cmlPec && !bitOf c.toNat 5 }))) s) := rfl

theorem statusCml_clears (c : Byte) (hopen : s.pathOpen .pmb true = true) (hwp : writeProtected (s.get MGT_PMB_STAT_WP) 0x7E = false)
    (hlock : s.pmbLocked 0x7E = false) : ∃ u, exec (.statusCml (some c) .good) s = .next u ∧
      u.mgt.cmlCmd = (s.mgt.cmlCmd && !bitOf c.toNat 7) ∧ u.mgt.cmlData = (s.mgt.cmlData && !bitOf c.toNat 6) ∧
      u.mgt.cmlPec = (s.mgt.cmlPec && !bitOf c.toNat 5) ∧ Silent s u ∧ Frame s u [] :=
  ⟨_, (exec_statusCml c s).trans (congrArg _ (pmbWrite_applied hopen hwp hlock rfl)), rfl, rfl, rfl, modMgt_frame s _⟩

theorem exec_mfrRegAddr (c : Word) (s : State) : exec (.mfrRegAddr (some c) .good) s = .next (pmbWrite 0xD0 .good (fun s =>
    if c.toNat % 4 = 0 then (.applied, s.modMgt (fun m => { m with regAddr := c.toNat })) else pmbRefuse 0xD0 s) s) := rfl

theorem mfrRegAddr_set {c : Word} (hopen : s.pathOpen .pmb true = true) (hwp : writeProtected (s.get MGT_PMB_STAT_WP) 0xD0 = false)
    (halign : c.toNat % 4 = 0) : ∃ u, exec (.mfrRegAddr (some c) .good) s = .next u ∧ u.mgt.regAddr = c.toNat ∧ Silent s u ∧
      Frame s u [] :=
  ⟨_, (exec_mfrRegAddr c s).trans (congrArg _ (pmbWrite_applied hopen hwp (pmbLocked_free rfl) (if_pos halign))), rfl, modMgt_frame s _⟩

theorem exec_mfrRegData (c : Word) (s : State) : exec (.mfrRegData (some c) .good) s = .next (pmbWrite 0xD1 .good (fun s =>
    ((regWrite .pmb s.mgt.regAddr c s).1, regAdvance (regWrite .pmb s.mgt.regAddr c s).2)) s) := rfl

theorem mfrRegData_writes (c : Word) (hopen : s.pathOpen .pmb true = true) (hwp : writeProtected (s.get MGT_PMB_STAT_WP) 0xD1 = false) :
    ∃ u, exec (.mfrRegData (some c) .good) s = .next u ∧ u.regs = (regWrite .pmb s.mgt.regAddr c s).2.regs ∧
      u.mgt.regAddr = ((regWrite .pmb s.mgt.regAddr c s).2.mgt.regAddr + 4) % 2 ^ 32 := by
  refine ⟨_, (exec_mfrRegData c s).trans (congrArg _ (pmbWrite_taken hopen hwp (pmbLocked_free rfl))), ?_⟩
  dsimp only
  split
  · exact ⟨rfl, rfl⟩
  · exact ⟨rfl, rfl⟩

theorem exec_pmbTimeout (code : Byte) (s : State) : exec (.pmbTimeout code) s = .next (if s.pathOpen .pmb false then
    (s.bump MGT_PMB_STAT_TMO_CNT).raise MGT_EVT_EVT 1 0x0901 0 [(8, code.toNat)] else s) := rfl

theorem pmbTimeout_counts (code : Byte) (hopen : s.pathOpen .pmb false = true) : ∃ u, exec (.pmbTimeout code) s = .next u ∧
    u.get MGT_PMB_STAT_TMO_CNT = satNat 8 (s.get MGT_PMB_STAT_TMO_CNT + 1) ∧ u.bit MGT_EVT_EVT 1 = true ∧ Posted s u 0x0901 0 ∧
    Frame s u ([Fld.off MGT_PMB_STAT_TMO_CNT, Fld.off MGT_EVT_EVT] ++ eventOffs) := by
  have K := kept_frame s ([Fld.off MGT_PMB_STAT_TMO_CNT, Fld.off MGT_EVT_EVT] ++ eventOffs)
  refine ⟨_, (exec_pmbTimeout code s).trans (congrArg _ (if_pos hopen)), ?_, State.bit_raise_own rfl (by decide) rfl,
    posted_listedRaise (names := [.MGT_PMB_STAT, .MGT_EVT]) (fun K hs => K.set (f := MGT_PMB_STAT_TMO_CNT) rfl hs) rfl rfl,
    K.raise _ _ _ _ _ (by decide) (fun _ h => List.mem_append_right _ h) (K.bump _ (by decide) (.refl s _))⟩
  exact (State.get_raise_named rfl rfl).trans (State.get_bump_own rfl)

/-! ### The rails' limits and settings -/

/-- A bounded value for one field of the paged rail's register. -/
theorem bounded_maps {c : Instr} {code lo n a b : Nat} {v : Int} {reg : Nat → Reg} {g : FieldSpec}
    (hc : exec c s = .next (pmbWrite code .good (pmbBounded code reg lo n v a b) s)) (hopen : s.pathOpen .pmb true = true)
    (hwp : writeProtected (s.get MGT_PMB_STAT_WP) code = false) (hlock : s.pmbLocked code = false) (hpage : pmbPage s = r.val)
    (hlow : (a : Int) ≤ v) (hhigh : v ≤ b) (htake : s.takesWrite .pmb (reg r) (wordSet (s.word (reg r)) lo n v.toNat))
    (hreg : Reg.ofOff (reg r).off = some (reg r)) (hname : pmbNames.contains (reg r).name = true) (hg : g ∈ (reg r).fields)
    (hacc : g.acc = .rw) (hlo : g.lo = lo) (hw : g.w = n) (hfit : lo + n ≤ 32)
    (hafter : ∀ t, blockAfter .pmb (reg r) (s.word (reg r)) (wordSet (s.word (reg r)) lo n v.toNat) t = t) :
    ∃ u, exec c s = .next u ∧ u.get ⟨reg r, lo, n⟩ = v.toNat % 2 ^ n ∧ u.mgt.cmlData = s.mgt.cmlData ∧ Silent s u ∧
      Within s u (spanMgt ++ spanWork) := by
  have hok : (decide ((a : Int) ≤ v) && decide (v ≤ b)) = true := by simp [hlow, hhigh]
  obtain ⟨u, hwrite, hmaps⟩ := pmbField_maps htake hreg hname hg hacc hlo hw hfit hafter
  exact pmb_maps hc hopen hwp hlock ((onRailsIf_page hok hpage).trans hwrite) hmaps

theorem voutCommand_maps {c : BitVec 16} (hopen : s.pathOpen .pmb true = true)
    (hwp : writeProtected (s.get MGT_PMB_STAT_WP) 0x21 = false) (hlock : s.pmbLocked 0x21 = false) (hpage : pmbPage s = r.val)
    (hlow : 1024 ≤ c.toNat) (hhigh : 1000 * c.toNat ≤ 3600 * 4096)
    (htake : s.takesWrite .pmb (prgReg .PRG_VID r) (wordSet (s.word (prgReg .PRG_VID r)) 0 12 (roundDiv (25 * c.toNat) 128 - 200))) :
    ∃ u, exec (.voutCommand (some c) .good) s = .next u ∧
      u.get ⟨prgReg .PRG_VID r, 0, 12⟩ = (roundDiv (25 * c.toNat) 128 - 200) % 2 ^ 12 ∧ u.mgt.cmlData = s.mgt.cmlData ∧ Silent s u ∧
      Within s u (spanMgt ++ spanWork) := by
  have hok : (decide (1024 ≤ c.toNat) && decide (1000 * c.toNat ≤ 3600 * 4096)) = true := by simp only [hlow, hhigh]; rfl
  obtain ⟨u, hwrite, hmaps⟩ := pmbField_after (g := ⟨0, 12, .rw, .sh, [(0, 0xa78)]⟩) (after := vidWritten (prgReg .PRG_VID r).rail) htake
    (ofOff_prgReg (by decide) r) rfl List.mem_cons_self rfl rfl rfl (by decide) (fun _ => rfl) (fun K hz => K.vidWritten hz)
    (vidWritten_mgt _) rfl
  exact pmb_maps (exec_voutCommand c s) hopen hwp hlock ((onRailsIf_page hok hpage).trans hwrite) hmaps

theorem frequencySwitch_maps {c : BitVec 16} {v : Int} (hopen : s.pathOpen .pmb true = true)
    (hwp : writeProtected (s.get MGT_PMB_STAT_WP) 0x33 = false) (hlock : s.pmbLocked 0x33 = false) (hpage : pmbPage s = r.val)
    (hv : lin11Under c.toNat 6400000 = some v) (hlow : 1600 ≤ v) (hhigh : v ≤ 25600)
    (htake : s.takesWrite .pmb (prgReg .PRG_FSW r) (wordSet (s.word (prgReg .PRG_FSW r)) 0 15 v.toNat)) :
    ∃ u, exec (.frequencySwitch (some c) .good) s = .next u ∧ u.get (PRG_FSW_PERIOD r) = v.toNat ∧ u.mgt.cmlData = s.mgt.cmlData ∧
      Silent s u ∧ Within s u (spanMgt ++ spanWork) := by
  have hexec : exec (.frequencySwitch (some c) .good) s = .next (pmbWrite 0x33 .good
      (pmbBounded 0x33 (prgReg .PRG_FSW) 0 15 ((lin11Under c.toNat 6400000).getD 0) 1600 25600) s) := rfl
  rw [hv] at hexec
  obtain ⟨u, hu, hget, hrest⟩ := bounded_maps (g := ⟨0, 15, .rw, .sh, [(0x640, 0x6400)]⟩) hexec hopen hwp hlock hpage hlow hhigh htake
    (ofOff_prgReg (by decide) r) rfl List.mem_cons_self rfl rfl rfl (by decide) fun _ => rfl
  exact ⟨u, hu, hget.trans (Nat.mod_eq_of_lt (show v.toNat < 2 ^ 15 by omega)), hrest⟩

/-- A voltage limit's word: THR with MODE 0. -/
def limitWord (q : Reg) (thr : Nat) (s : State) : Word := wordSet (wordSet (s.word q) 0 10 thr) 10 1 0

theorem voltageLimit_maps {c : Instr} {code : Nat} {n : RegName} {x : BitVec 16}
    (hc : exec c s = .next (pmbWrite code .good (voltageLimit code n x) s)) (hopen : s.pathOpen .pmb true = true)
    (hwp : writeProtected (s.get MGT_PMB_STAT_WP) code = false) (hlock : s.pmbLocked code = false) (hpage : pmbPage s = r.val)
    (hlow : 1 ≤ roundDiv (125 * x.toNat) 2048) (hhigh : roundDiv (125 * x.toNat) 2048 ≤ 1023)
    (htake : s.takesWrite .pmb ⟨n, r, 0, 0⟩ (limitWord ⟨n, r, 0, 0⟩ (roundDiv (125 * x.toNat) 2048) s))
    (hn : n = .FLT_OV ∨ n = .FLT_UV) : ∃ u, exec c s = .next u ∧
      u.get ⟨⟨n, r, 0, 0⟩, 0, 10⟩ = roundDiv (125 * x.toNat) 2048 ∧ u.get ⟨⟨n, r, 0, 0⟩, 10, 1⟩ = 0 ∧ u.mgt.cmlData = s.mgt.cmlData ∧
      Silent s u ∧ Within s u (spanMgt ++ spanWork) := by
  have hok : (decide (1 ≤ roundDiv (125 * x.toNat) 2048) && decide (roundDiv (125 * x.toNat) 2048 ≤ 1023)) = true := by
    simp only [hlow, hhigh]
    rfl
  have hname : pmbNames.contains n = true := by rcases hn with rfl | rfl <;> rfl
  have hflt : n ∈ [RegName.FLT_OV, .FLT_UV, .FLT_OC, .FLT_OT, .FLT_RETRY, .FLT_RSTAT] := by rcases hn with rfl | rfl <;> decide
  have hthr : (⟨0, 10, .rw, .sh, []⟩ : FieldSpec) ∈ Reg.fields ⟨n, r, 0, 0⟩ := by
    rcases hn with rfl | rfl <;> exact List.mem_cons_self
  have hmode : (⟨10, 1, .rw, .sh, []⟩ : FieldSpec) ∈ Reg.fields ⟨n, r, 0, 0⟩ := by
    rcases hn with rfl | rfl <;> exact List.mem_cons_of_mem _ List.mem_cons_self
  have hafter : ∀ old new t, blockAfter .pmb ⟨n, r, 0, 0⟩ old new t = t := by rcases hn with rfl | rfl <;> exact fun _ _ _ => rfl
  have hwrite := pmbWrite_reg htake (ofOff_flt hflt r) hname
  rw [hafter] at hwrite
  have hmaps := fun (f : Fld) (g : FieldSpec) => mapped_stored (s := s) (r := ⟨n, r, 0, 0⟩) (w := limitWord ⟨n, r, 0, 0⟩ (roundDiv (125 * x.toNat) 2048) s)
    (f := f) (g := g) hname
  have hmapsThr := hmaps ⟨⟨n, r, 0, 0⟩, 0, 10⟩ _ rfl hthr rfl rfl rfl
  have hmapsMode := hmaps ⟨⟨n, r, 0, 0⟩, 10, 1⟩ _ rfl hmode rfl rfl rfl
  refine ⟨_, hc.trans (congrArg _ (pmbWrite_applied hopen hwp hlock ((onRailsIf_page hok hpage).trans hwrite))), ?_, ?_,
    congrArg MgtInt.cmlData hmapsThr.port, .of_events hmapsThr.events, hmapsThr.within⟩
  · refine hmapsThr.shown.trans ((wordGet_wordSet_below _ 10 1 0 0 10 (by decide) (by decide)).trans ?_)
    exact (wordGet_wordSet _ 0 10 _ (by decide)).trans (Nat.mod_eq_of_lt (by omega))
  · exact hmapsMode.shown.trans (wordGet_wordSet _ 10 1 0 (by decide))

/-! ### Fault responses -/

/-- What decides whether PMBus reaches a register. -/
def pmbFlds : List Fld := [GLB_DIE_ISOLATED, GLB_STATE_STATE, MGT_PMB_CFG_EN, HOST_MODE_MODE, MGT_CFG_WR_LOCK]

theorem takesWrite_of_gets {q : Reg} {w : Word} (hget : ∀ f ∈ pmbFlds, t.get f = s.get f)
    (haccept : t.accepts .pmb q w = s.accepts .pmb q w) (h : s.takesWrite .pmb q w) : t.takesWrite .pmb q w := by
  simp only [pmbFlds, List.forall_mem_cons, List.not_mem_nil, false_implies, implies_true, and_true] at hget
  obtain ⟨hdie, hpkg, hen, hmode, hlock⟩ := hget
  obtain ⟨hopen, hreach, hiso, hacc⟩ := h
  have hopen' : t.pathOpen .pmb true = s.pathOpen .pmb true := by
    have hpath : ∀ z : State, z.pathOpen .pmb true =
        (!z.isolated dieC && ((decide (z.get GLB_STATE_STATE = pkgRun) || decide (z.get GLB_STATE_STATE = pkgStandby)) &&
          z.on MGT_PMB_CFG_EN)) := fun _ => rfl
    rw [hpath, hpath, isolated_of_get hdie, hpkg, State.on_of_get hen]
  have hreach' : t.reaches .pmb q.off w = s.reaches .pmb q.off w := by
    have hspan : ∀ z : State, z.reaches .pmb q.off w =
        (!hostSpan q.off && (mailboxSpan q.off || !(z.on HOST_MODE_MODE && z.on MGT_CFG_WR_LOCK))) := fun _ => rfl
    rw [hspan, hspan, State.on_of_get hmode, State.on_of_get hlock]
  exact ⟨hopen'.trans hopen, hreach'.trans hreach, (isolated_of_get hdie _).trans hiso, haccept.trans hacc⟩

/-- No rule but the legal values judges a write of FLT_RETRY. -/
theorem accepts_retry (k : Nat) (w : Word) (s : State) : s.accepts .pmb ⟨.FLT_RETRY, k, 0, 0⟩ w = Reg.legalWord ⟨.FLT_RETRY, k, 0, 0⟩ w := by
  have hrule : blockRule .pmb ⟨.FLT_RETRY, k, 0, 0⟩ (s.word ⟨.FLT_RETRY, k, 0, 0⟩) w s = true := rfl
  unfold State.accepts
  rw [hrule, Bool.and_true]

theorem Mapped.word {f : Fld} {v : Nat} {q : Reg} {w : Word} (h : Mapped s f v t) (hname : pmbNames.contains q.name = true)
    (hapart : (⟨q, 0, 32⟩ : Fld).apartFrom f = true) : Mapped s f v (t.setWord q w) := by
  rw [State.setWord_eq_set]
  exact h.set hname hapart

/-- The words of a fault response: ACT, then RETRY (R299). -/
def actWord (f : Fld) (v : Nat) (s : State) : Word := wordSet (s.word f.reg) f.lo f.w v

/-- A rail's fault response is set to RAIL with its retries. -/
def responded (f : Fld) (r retry : Nat) (s : State) : State :=
  (stored ⟨.FLT_RETRY, r, 0, 0⟩ (wordSet (s.word ⟨.FLT_RETRY, r, 0, 0⟩) 0 3 retry) (stored f.reg (actWord f 1 s) s)).set
    (FLT_RETRY_LEFT r) (wordGet (wordSet (s.word ⟨.FLT_RETRY, r, 0, 0⟩) 0 3 retry) 0 3)

section
variable {f : Fld} {g : FieldSpec} {retry : Nat} {n : RegName}

theorem responded_act (hn : n ∈ [RegName.FLT_OV, .FLT_UV, .FLT_OC, .FLT_OT]) (hf : f.reg = ⟨n, r, 0, 0⟩) (hg : g ∈ f.reg.fields)
    (hacc : g.acc = .rw) (hlo : g.lo = f.lo) (hw : g.w = f.w) (hfit : f.lo + f.w ≤ 32) (hwide : f.w = 2) :
    Mapped s f 1 (responded f r retry s) := by
  have hnames : ∀ n ∈ [RegName.FLT_OV, .FLT_UV, .FLT_OC, .FLT_OT], pmbNames.contains n = true ∧
      RegName.FLT_RETRY ≠ n := by decide
  obtain ⟨hname, hne⟩ := hnames n hn
  have hapart : ∀ lo w : Nat, (⟨⟨.FLT_RETRY, r, 0, 0⟩, lo, w⟩ : Fld).apartFrom f = true := fun lo w => by
    unfold Fld.apartFrom
    rw [hf]
    simp [hne]
  have h : Mapped s f (wordGet (actWord f 1 s) f.lo f.w) (stored f.reg (actWord f 1 s) s) :=
    mapped_stored (by rw [hf]; exact hname) rfl hg hacc hlo hw
  have hval : wordGet (actWord f 1 s) f.lo f.w = 1 := by
    unfold actWord
    rw [wordGet_wordSet _ _ _ _ hfit, hwide]
    rfl
  rw [hval] at h
  exact (h.word rfl (hapart 0 32)).set rfl (hapart 16 3)

theorem responded_retry (hretry : retry < 8) : (responded f r retry s).get (FLT_RETRY_RETRY r) = retry := by
  refine (State.get_set_apart (f := FLT_RETRY_LEFT r) (g := FLT_RETRY_RETRY r) rfl).trans ?_
  refine (State.get_stored (f := FLT_RETRY_RETRY r) (q := ⟨.FLT_RETRY, r, 0, 0⟩) (g := ⟨0, 3, .rw, .sh, []⟩) rfl List.mem_cons_self rfl rfl
    rfl (stored f.reg (actWord f 1 s) s) (wordSet (s.word ⟨.FLT_RETRY, r, 0, 0⟩) 0 3 retry) _).trans ?_
  exact (wordGet_wordSet _ 0 3 _ (by decide)).trans (Nat.mod_eq_of_lt hretry)

theorem faultResponse_maps {c : Instr} {code : Nat} {act : Nat → Fld} {ov : Bool} {b : Byte}
    (hc : exec c s = .next (pmbWrite code .good (faultResponse code act ov b) s)) (hopen : s.pathOpen .pmb true = true)
    (hwp : writeProtected (s.get MGT_PMB_STAT_WP) code = false) (hlock : s.pmbLocked code = false) (hpage : pmbPage s = r.val)
    (hrail : b.toNat / 64 = 2) (hlow : b.toNat % 8 = 0) (hretry : b.toNat / 8 % 8 < 7)
    (htake : s.takesWrite .pmb (act r).reg (wordSet (s.word (act r).reg) (act r).lo (act r).w 1))
    (htakeRetry : s.takesWrite .pmb ⟨.FLT_RETRY, r, 0, 0⟩ (wordSet (s.word ⟨.FLT_RETRY, r, 0, 0⟩) 0 3 (b.toNat / 8 % 8)))
    (hn : n ∈ [RegName.FLT_OV, .FLT_UV, .FLT_OC, .FLT_OT]) (hf : (act r).reg = ⟨n, r, 0, 0⟩) (hg : g ∈ (act r).reg.fields)
    (hacc : g.acc = .rw) (hlo : g.lo = (act r).lo) (hw : g.w = (act r).w) (hfit : (act r).lo + (act r).w ≤ 32) (hwide : (act r).w = 2) :
    ∃ u, exec c s = .next u ∧ u.get (act r) = 1 ∧ u.get (FLT_RETRY_RETRY r) = b.toNat / 8 % 8 ∧ u.mgt.cmlData = s.mgt.cmlData ∧
      Silent s u ∧ Within s u (spanMgt ++ spanWork) := by
  have hok : responseOk ov b.toNat = true := by
    have hno : b.toNat / 8 % 8 ≠ 7 := by omega
    unfold responseOk
    simp [hlow, hrail, hno]
  have hone : b.toNat / 128 = 1 := by omega
  have hnames : ∀ n ∈ [RegName.FLT_OV, .FLT_UV, .FLT_OC, .FLT_OT], pmbNames.contains n = true ∧
      n ∈ [RegName.FLT_OV, .FLT_UV, .FLT_OC, .FLT_OT, .FLT_RETRY, .FLT_RSTAT] ∧ n ≠ .FLT_RETRY ∧
      ∀ f ∈ pmbFlds, n ≠ f.reg.name := by decide
  obtain ⟨hname, hflt, hne, hfree⟩ := hnames n hn
  have hplain : ∀ old new z, blockAfter .pmb (act r).reg old new z = z := by
    rw [hf]
    simp only [List.mem_cons, List.not_mem_nil, or_false] at hn
    rcases hn with rfl | rfl | rfl | rfl <;> exact fun _ _ _ => rfl
  have hact : pmbField (act r).reg (act r).lo (act r).w 1 s = (.applied, stored (act r).reg (actWord (act r) 1 s) s) :=
    (pmbWrite_reg htake (by rw [hf]; exact ofOff_flt hflt r) (by rw [hf]; exact hname)).trans (congrArg _ (hplain ..))
  have hget : ∀ f ∈ pmbFlds, (stored (act r).reg (actWord (act r) 1 s) s).get f = s.get f := fun f hm =>
    (kept_get f _).word s _ _ (by rw [hf]; exact Reg.ne_of_name (hfree f hm)) rfl
  have hword : (stored (act r).reg (actWord (act r) 1 s) s).word ⟨.FLT_RETRY, r, 0, 0⟩ = s.word ⟨.FLT_RETRY, r, 0, 0⟩ :=
    State.word_setWord_ne _ _ _ (by rw [hf]; exact Reg.ne_of_name hne)
  have hsecond : pmbField ⟨.FLT_RETRY, r, 0, 0⟩ 0 3 (b.toNat / 8 % 8) (stored (act r).reg (actWord (act r) 1 s) s) =
      (.applied, responded (act r) r (b.toNat / 8 % 8) s) := by
    unfold pmbField
    rw [hword]
    refine (pmbWrite_reg (takesWrite_of_gets hget ((accepts_retry ..).trans (accepts_retry ..).symm) htakeRetry)
      (ofOff_flt (by decide) r) rfl).trans ?_
    rfl
  have hF : faultResponse code act ov b s = (.applied, responded (act r) r (b.toNat / 8 % 8) s) := by
    refine (onRailsIf_page hok hpage).trans ?_
    dsimp only
    rw [hone, hact, if_pos ⟨hrail, rfl⟩, hsecond]
  obtain ⟨u, hu, hget, hdata, hrest⟩ := pmb_maps hc hopen hwp hlock hF (responded_act hn hf hg hacc hlo hw hfit hwide)
  have hu' := hc.trans (congrArg _ (pmbWrite_applied hopen hwp hlock hF))
  obtain rfl : responded (act r) r (b.toNat / 8 % 8) s = u := by
    rw [hu] at hu'
    injection hu'.symm
  exact ⟨_, hu, hget, responded_retry (by omega), hdata, hrest⟩

end

/-! ### OPERATION (R299) -/

theorem exec_operation (c : Byte) (s : State) : exec (.operation (some c) .good) s = .next (pmbWrite 0x01 .good (fun s =>
    onRailsIf ([0x80, 0x40, 0x00].contains c.toNat) 0x01 (operation c.toNat) s) s) := rfl

theorem operation_on (hopen : s.pathOpen .pmb true = true) (hwp : writeProtected (s.get MGT_PMB_STAT_WP) 0x01 = false)
    (hlock : s.pmbLocked 0x01 = false) (hpage : pmbPage s = r.val)
    (htake : s.takesWrite .pmb (prgReg .PRG_RCTL r) (wordSet (s.word (prgReg .PRG_RCTL r)) 0 1 1)) :
    ∃ u, exec (.operation (some 0x80) .good) s = .next u ∧ u.get ⟨prgReg .PRG_RCTL r, 0, 1⟩ = 1 % 2 ^ 1 ∧
      u.mgt.cmlData = s.mgt.cmlData ∧ Silent s u ∧ Within s u (spanMgt ++ spanWork) := by
  obtain ⟨u, hwrite, hmaps⟩ := pmbField_after (g := ⟨0, 1, .rw, .sh, []⟩)
    (after := railRaised r (s.word (prgReg .PRG_RCTL r)) (wordSet (s.word (prgReg .PRG_RCTL r)) 0 1 1)) htake
    (ofOff_prgReg (by decide) r) rfl List.mem_cons_self rfl rfl rfl (by decide)
    (blockAfter_raises (wordGet_wordSet _ 0 1 1 (by decide))) (fun K hz => K.railRaised hz) (railRaised_mgt _ _ _) rfl
  exact pmb_maps (exec_operation 0x80 s) hopen hwp hlock ((onRailsIf_page rfl hpage).trans hwrite) hmaps

/-- The word that lowers EN and STOP_MODE. -/
def offWord (r : Nat) (s : State) : Word := wordSet (wordSet (s.word (prgReg .PRG_RCTL r)) 0 1 0) 1 1 0

theorem offWord_en (r : Nat) (s : State) : wordGet (offWord r s) 0 1 = 0 :=
  (wordGet_wordSet_below _ 1 1 0 0 1 (by decide) (by decide)).trans (wordGet_wordSet _ 0 1 0 (by decide))

/-- The off code is remembered as OPERATION reads back. -/
def offRemembered (r : Nat) (s : State) : State := s.modMgt (fun m => { m with offCode := m.offCode.setIfInBounds r 0x40 })

theorem offRemembered_code {q : Nat} (hr : q < 24) (s : State) : bankGet (offRemembered q s).mgt.offCode q = 0x40 := by
  unfold offRemembered State.modMgt bankGet
  simp [hr]

theorem operation_off (hopen : s.pathOpen .pmb true = true) (hwp : writeProtected (s.get MGT_PMB_STAT_WP) 0x01 = false)
    (hlock : s.pmbLocked 0x01 = false) (hpage : pmbPage s = r.val) (htake : s.takesWrite .pmb (prgReg .PRG_RCTL r) (offWord r s)) :
    ∃ u, exec (.operation (some 0x40) .good) s = .next u ∧ u.get (PRG_RCTL_EN r) = 0 ∧ bankGet u.mgt.offCode r.val = 0x40 ∧
      Within s u (spanMgt ++ spanWork) := by
  have hwrite := pmbWrite_reg htake (ofOff_prgReg (by decide) r) rfl
  have hF : onRailsIf ([0x80, 0x40, 0x00].contains (0x40 : Byte).toNat) 0x01 (operation (0x40 : Byte).toNat) s =
      (.applied, offRemembered r (blockAfter .pmb (prgReg .PRG_RCTL r) (s.word (prgReg .PRG_RCTL r)) (offWord r s)
        (stored (prgReg .PRG_RCTL r) (offWord r s) s))) := by
    refine (onRailsIf_page rfl hpage).trans ?_
    have hoff : operation (0x40 : Byte).toNat r s = ((regWrite .pmb (prgReg .PRG_RCTL r).off (offWord r s) s).1,
        if (regWrite .pmb (prgReg .PRG_RCTL r).off (offWord r s) s).1 = .applied then
          offRemembered r (regWrite .pmb (prgReg .PRG_RCTL r).off (offWord r s) s).2
        else (regWrite .pmb (prgReg .PRG_RCTL r).off (offWord r s) s).2) := rfl
    rw [hoff, hwrite]
    rfl
  have hmaps : Mapped s (PRG_RCTL_EN r) (wordGet (offWord r s) 0 1) (stored (prgReg .PRG_RCTL r) (offWord r s) s) :=
    mapped_stored (g := ⟨0, 1, .rw, .sh, []⟩) rfl rfl List.mem_cons_self rfl rfl rfl
  have hkeeps : ∀ {P : State → Prop}, Noted railOffNames P → P (stored (prgReg .PRG_RCTL r) (offWord r s) s) →
      P (offRemembered r (blockAfter .pmb (prgReg .PRG_RCTL r) (s.word (prgReg .PRG_RCTL r)) (offWord r s)
        (stored (prgReg .PRG_RCTL r) (offWord r s) s))) := fun K hz => K.toCalm.beside (K.railLowered hz (offWord_en r s)) rfl
  exact ⟨_, (exec_operation 0x40 s).trans (congrArg _ (pmbWrite_applied hopen hwp hlock hF)),
    hkeeps (noted_get _ 0 rfl) (hmaps.shown.trans (offWord_en r s)), offRemembered_code r.isLt _,
    hkeeps (noted_within s (by decide)) hmaps.within⟩

/-! ### CLEAR_FAULTS and MFR_SEQ_START -/

/-- The rail's latches as the write of ones leaves them: those whose fault persists stay (R209). -/
def latchesCleared (r : Nat) (s : State) : State :=
  (stored ⟨.FLT_RSTAT, r, 0, 0⟩ 15 s).set (FLT_RSTAT_LATCH r)
    ((stored ⟨.FLT_RSTAT, r, 0, 0⟩ 15 s).get (FLT_RSTAT_LATCH r) |||
      (wordGet (s.word ⟨.FLT_RSTAT, r, 0, 0⟩) 0 4 &&& (stored ⟨.FLT_RSTAT, r, 0, 0⟩ 15 s).get (FLT_RSTAT_NOW r)))

theorem get_stored_word (q : Reg) (w : Word) (lo n : Nat) (s : State) :
    (stored q w s).get ⟨q, lo, n⟩ = wordGet (q.stored w (s.word q)) lo n :=
  congrArg (wordGet · lo n) (State.word_setWord_same s q _)

theorem storedOnes_latch (r : Nat) (s : State) : (stored ⟨.FLT_RSTAT, r, 0, 0⟩ 15 s).get (FLT_RSTAT_LATCH r) = 0 := by
  refine (get_stored_word ⟨.FLT_RSTAT, r, 0, 0⟩ 15 0 4 s).trans (Nat.eq_of_testBit_eq fun i => ?_)
  rw [Nat.zero_testBit]
  by_cases hi : i < 4
  · have hones : ∀ i < 4, bitOf (wordGet 15 0 4) i = true := by decide
    have hbit := accessCodesOfFields.2.2 ⟨.FLT_RSTAT, r, 0, 0⟩ ⟨0, 4, .w1c, .sh, []⟩ 15 (s.word ⟨.FLT_RSTAT, r, 0, 0⟩) i
      List.mem_cons_self rfl hi
    rw [hones i hi, Bool.not_true, Bool.and_false, bitOf_eq_testBit] at hbit
    exact hbit
  · exact Nat.testBit_lt_two_pow (Nat.lt_of_lt_of_le (Nat.mod_lt _ (by decide)) (Nat.pow_le_pow_right (by decide) (Nat.not_lt.1 hi)))

theorem storedOnes_now (r : Nat) (s : State) : (stored ⟨.FLT_RSTAT, r, 0, 0⟩ 15 s).get (FLT_RSTAT_NOW r) = s.get (FLT_RSTAT_NOW r) := by
  have hfield : ∀ k : Nat, (⟨8, 4, .ro, .dash, []⟩ : FieldSpec) ∈ Reg.fields ⟨.FLT_RSTAT, k, 0, 0⟩ := fun _ =>
    List.mem_of_elem_eq_true rfl
  exact (get_stored_word ⟨.FLT_RSTAT, r, 0, 0⟩ 15 8 4 s).trans
    (accessCodesOfFields.2.1 _ ⟨8, 4, .ro, .dash, []⟩ 15 _ (hfield r) (.inl rfl))

theorem latchesCleared_latch (r : Nat) (s : State) :
    (latchesCleared r s).get (FLT_RSTAT_LATCH r) = s.get (FLT_RSTAT_LATCH r) &&& s.get (FLT_RSTAT_NOW r) := by
  have hlt : s.get (FLT_RSTAT_LATCH r) &&& s.get (FLT_RSTAT_NOW r) < 2 ^ 4 := by
    exact Nat.lt_of_le_of_lt Nat.and_le_left (Nat.mod_lt _ (show 0 < 2 ^ 4 by decide))
  unfold latchesCleared
  rw [storedOnes_latch, storedOnes_now, Nat.zero_or]
  exact State.get_set_fits rfl hlt

theorem exec_clearFaults (s : State) : exec (.clearFaults .good) s = .next (pmbWrite 0x03 .good (fun s =>
    ((onRails (fun r s => regWrite .pmb (⟨.FLT_RSTAT, r, 0, 0⟩ : Reg).off 0xF s) s).1,
      (onRails (fun r s => regWrite .pmb (⟨.FLT_RSTAT, r, 0, 0⟩ : Reg).off 0xF s) s).2.modMgt (fun m =>
        { m with cmlCmd := false, cmlData := false, cmlPec := false }))) s) := rfl

theorem clearFaults_clears (hopen : s.pathOpen .pmb true = true) (hwp : writeProtected (s.get MGT_PMB_STAT_WP) 0x03 = false)
    (hlock : s.pmbLocked 0x03 = false) (hpage : pmbPage s = r.val) (htake : s.takesWrite .pmb ⟨.FLT_RSTAT, r, 0, 0⟩ 15) :
    ∃ u, exec (.clearFaults .good) s = .next u ∧
      (u.get (FLT_RSTAT_LATCH r) = s.get (FLT_RSTAT_LATCH r) &&& s.get (FLT_RSTAT_NOW r)) ∧ u.mgt.cmlCmd = false ∧
      u.mgt.cmlData = false ∧ u.mgt.cmlPec = false ∧ Within s u (spanMgt ++ spanWork) := by
  have hwrite : onRails (fun r s => regWrite .pmb (⟨.FLT_RSTAT, r, 0, 0⟩ : Reg).off 0xF s) s = (.applied, latchesCleared r s) :=
    (onRails_page hpage).trans (pmbWrite_reg htake (ofOff_flt (by decide) r) rfl)
  have hF := exec_clearFaults s
  refine ⟨_, hF.trans (congrArg _ (pmbWrite_applied hopen hwp hlock (congrArg (fun x : WRes × State => (x.1, x.2.modMgt (fun m =>
        { m with cmlCmd := false, cmlData := false, cmlPec := false }))) hwrite))), ?_, rfl, rfl, rfl, ?_⟩
  · exact (State.get_of_regs (modMgt_regs ..) _).trans (latchesCleared_latch r s)
  · have K := kept_within_names s (spanMgt ++ spanWork)
    have hname : RegName.FLT_RSTAT.within (spanMgt ++ spanWork) = true := by decide
    exact (K.calm (ok := fun f => f.reg.name.within (spanMgt ++ spanWork) = true) fun _ h => .inl h).beside
      (K.set _ _ (.inl hname) (K.word _ _ _ (.inl hname) (.refl s _))) rfl

theorem seqEnded_mgt (last cause : Nat) (s : State) : (seqEnded last cause s).mgt = s.mgt := by
  unfold seqEnded seqEvt latchClass State.raise
  dsimp only
  split
  all_goals simp [State.setBit_eq, State.modSeq]

theorem beginStep_mgt (i : Nat) (s : State) : (beginStep i s).mgt = s.mgt := by
  unfold beginStep
  dsimp only
  split
  · simp [State.modSeq]
  · rw [seqEnded_mgt]
    simp [State.modSeq]

theorem startCore_mgt (rank q : Nat) (s : State) : (startCore rank q s).mgt = s.mgt := by
  unfold startCore
  dsimp only
  split
  · simp [seqEnded_mgt]
  · simp [beginStep_mgt]

theorem startNow_mgt (rank q : Nat) (s : State) : (startNow rank q s).mgt = s.mgt := by
  unfold startNow startHeld
  split
  · split
    · simp [startCore_mgt, State.modSeq]
    · exact startCore_mgt ..
  · exact startCore_mgt ..

theorem cmdSeqStart_mgt (q : Nat) (h : (cmdSeqStart q s).status = stOk) : (cmdSeqStart q s).s.mgt = s.mgt := by
  unfold cmdSeqStart at *
  split
  · exact startNow_mgt ..
  · next hidle =>
    rw [if_neg hidle] at h
    exact absurd h (show stIgnored ≠ stOk by decide)

theorem exec_mfrSeqStart (c : Byte) (s : State) : exec (.mfrSeqStart c .good) s = .next (pmbWrite 0xD3 .good (fun s =>
    if 8 ≤ c.toNat then pmbRefuse 0xD3 s
    else if s.isolated dieP then (.dropped, s)
    else if (cmdSeqStart c.toNat s).status = stIgnored then pmbRefuse 0xD3 (cmdSeqStart c.toNat s).s
    else (.applied, (cmdSeqStart c.toNat s).s)) s) := rfl

theorem mfrSeqStart_starts {c : Byte} (hopen : s.pathOpen .pmb true = true) (hwp : writeProtected (s.get MGT_PMB_STAT_WP) 0xD3 = false)
    (hlock : s.pmbLocked 0xD3 = false) (hdie : s.isolated dieP = false) (hc : c.toNat < 8) (hok : (cmdSeqStart c.toNat s).status = stOk) :
    ∃ u, exec (.mfrSeqStart c .good) s = .next u ∧ u.regs = (cmdSeqStart c.toNat s).s.regs ∧ u.mgt = s.mgt ∧
      u.seq = (cmdSeqStart c.toNat s).s.seq := by
  refine ⟨_, (exec_mfrSeqStart c s).trans (congrArg _ (pmbWrite_applied (u := (cmdSeqStart c.toNat s).s) hopen hwp hlock ?_)), rfl,
    cmdSeqStart_mgt _ hok, rfl⟩
  rw [if_neg (by omega), hdie, if_neg Bool.false_ne_true, hok]
  exact if_neg (by decide)

end

/-- Settles O48: each command by the write it makes, and the refusals by what they count. -/
theorem pmbusWrites : Obligations.PmbusWrites := by
  unfold Obligations.PmbusWrites
  refine ⟨fun c s => page_set, fun c s => page_refused, fun c s => page_badPec c, fun w s => voutCommand_protected w, ?operation,
    fun r s => operation_off, ?onOffConfig, fun r s => clearFaults_clears, fun c s => writeProtect_set, fun r c s => voutCommand_maps,
    ?transitionRate, fun r c v s => frequencySwitch_maps, ?ovLimit, ?uvLimit, ?ovResponse, ?uvResponse, ?ocResponse, ?otResponse,
    ?ocLimit, ?otLimit, fun c s => statusCml_clears c, fun c s => mfrRegAddr_set, fun c s => mfrRegData_writes c,
    fun c s => mfrSeqStart_starts, fun code s => pmbTimeout_counts code, fun c s => voutCommand_locked c, fun c s => unsupported_refused⟩
  case operation =>
    rintro r c s hopen hwp hlock hpage rfl htake
    exact operation_on hopen hwp hlock hpage htake
  case onOffConfig =>
    rintro c s hopen hwp hlock rfl
    exact ⟨s, onOffConfig_keeps hopen hwp hlock, rfl⟩
  case transitionRate =>
    exact fun r c s hopen hwp hlock hpage hlow hhigh htake => bounded_maps (reg := prgReg .PRG_SLEW) (g := ⟨0, 8, .rw, .sh, [(1, 0xc8)]⟩)
      rfl hopen hwp hlock hpage hlow hhigh htake (ofOff_prgReg (by decide) r) rfl List.mem_cons_self rfl rfl rfl (by decide) fun _ => rfl
  case ovLimit =>
    exact fun r c s hopen hwp hlock hpage hlow hhigh htake =>
      voltageLimit_maps (n := .FLT_OV) rfl hopen hwp hlock hpage hlow hhigh htake (.inl rfl)
  case uvLimit =>
    exact fun r c s hopen hwp hlock hpage hlow hhigh htake =>
      voltageLimit_maps (n := .FLT_UV) rfl hopen hwp hlock hpage hlow hhigh htake (.inr rfl)
  case ovResponse =>
    exact fun r c s hopen hwp hlock hpage hrail hlow hretry htake htakeRetry => faultResponse_maps (n := .FLT_OV) (act := FLT_OV_ACT)
      (g := ⟨20, 2, .rw, .sh, []⟩) rfl hopen hwp hlock hpage hrail hlow hretry htake htakeRetry (by decide) rfl
      (List.mem_of_elem_eq_true rfl) rfl rfl rfl (show 20 + 2 ≤ 32 by decide) rfl
  case uvResponse =>
    exact fun r c s hopen hwp hlock hpage hrail hlow hretry htake htakeRetry => faultResponse_maps (n := .FLT_UV) (act := FLT_UV_ACT)
      (g := ⟨20, 2, .rw, .sh, []⟩) rfl hopen hwp hlock hpage hrail hlow hretry htake htakeRetry (by decide) rfl
      (List.mem_of_elem_eq_true rfl) rfl rfl rfl (show 20 + 2 ≤ 32 by decide) rfl
  case ocResponse =>
    exact fun r c s hopen hwp hlock hpage hrail hlow hretry htake htakeRetry => faultResponse_maps (n := .FLT_OC) (act := FLT_OC_ACT)
      (g := ⟨16, 2, .rw, .sh, []⟩) rfl hopen hwp hlock hpage hrail hlow hretry htake htakeRetry (by decide) rfl
      (List.mem_of_elem_eq_true rfl) rfl rfl rfl (show 16 + 2 ≤ 32 by decide) rfl
  case otResponse =>
    exact fun r c s hopen hwp hlock hpage hrail hlow hretry htake htakeRetry => faultResponse_maps (n := .FLT_OT) (act := FLT_OT_ACT)
      (g := ⟨8, 2, .rw, .sh, []⟩) rfl hopen hwp hlock hpage hrail hlow hretry htake htakeRetry (by decide) rfl
      (List.mem_of_elem_eq_true rfl) rfl rfl rfl (show 8 + 2 ≤ 32 by decide) rfl
  case ocLimit =>
    exact fun r c s hopen hwp hlock hpage hlow hhigh htake => bounded_maps (reg := fun r => ⟨.FLT_OC, r, 0, 0⟩)
      (g := ⟨0, 8, .rw, .sh, [(1, 0xff)]⟩) rfl hopen hwp hlock hpage hlow hhigh htake (ofOff_flt (by decide) r) rfl List.mem_cons_self
      rfl rfl rfl (by decide) fun _ => rfl
  case otLimit =>
    exact fun r c s hopen hwp hlock hpage hlow hhigh htake => bounded_maps (reg := fun r => ⟨.FLT_OT, r, 0, 0⟩)
      (g := ⟨0, 8, .rw, .sh, [(1, 0xc8)]⟩) rfl hopen hwp hlock hpage hlow hhigh htake (ofOff_flt (by decide) r) rfl List.mem_cons_self
      rfl rfl rfl (by decide) fun _ => rfl

end Sys2Proof.Machine

/-! What the DMA's shared operations change (R318 to R322, R336 to R345): the frame of a channel's step, a descriptor's end and a fault. -/

namespace Sys2Proof.Machine

/-! ### The frame -/

/-- The spans a channel's step may write. -/
abbrev dmaSpans : List (Nat × Nat) := spanGlb ++ spanHost ++ spanMgt ++ spanLnk ++ spanDma ++ spanEng

/-- No register outside the spans of a channel's step has changed, nor the queue, the fuses or the flash; an engine's memory may. -/
def DmaFrame (s u : State) : Prop := RegsWithin s u dmaSpans ∧ u.pending = s.pending ∧ u.otp.fuse = s.otp.fuse ∧ u.flash = s.flash

/-- The registers a channel's step writes beside the event registers. -/
def dmaNames : List RegName :=
  [.DMA_STAT, .DMA_RESID, .DMA_NEXT_LO, .DMA_NEXT_HI, .DMA_FCNT, .DMA_EVT, .DMA_ACTIVE, .DMA_REQ_BIND, .DMA_REQ_PEND, .MSIX_PBA, .GLB_EVT]
    ++ xlateNames

/-- A property that writes of the fields `ok` picks keep, and changes of what lies beside the registers, the queue, the fuses, the flash and
the events. -/
structure DmaCalm (ok : Fld → Prop) (P : State → Prop) : Prop where
  set : ∀ {s : State} {f : Fld} {v : Nat}, ok f → P s → P (s.set f v)
  rest : ∀ {s t : State}, t.regs = s.regs →
    (t.pending, t.otp.fuse, t.flash, t.evtSeq, t.evtFifo) = (s.pending, s.otp.fuse, s.flash, s.evtSeq, s.evtFifo) → P s → P t

section
variable {ok : Fld → Prop} {P : State → Prop} {s t : State} {f g : Fld} {ch x : Nat} {d : Desc}

theorem DmaCalm.calm (K : DmaCalm ok P) : Calm ok P where
  set := K.set
  rest hr hk he hs := by
    obtain ⟨hflash, -, -, hfuse, hpending⟩ := hk
    exact K.rest hr (by rw [hflash, hfuse, hpending, he.1, he.2]) hs

theorem DmaCalm.beside (K : DmaCalm ok P) (hs : P s)
    (h : (t.regs, t.pending, t.otp.fuse, t.flash, t.evtSeq, t.evtFifo) = (s.regs, s.pending, s.otp.fuse, s.flash, s.evtSeq, s.evtFifo)) :
    P t := by
  rw [Prod.mk.injEq] at h
  exact K.rest h.1 h.2 hs

theorem DmaCalm.mono {ok' : Fld → Prop} (K : DmaCalm ok' P) (h : ∀ f, ok f → ok' f) : DmaCalm ok P where
  set hf hs := K.set (h _ hf) hs
  rest := K.rest

theorem dmaCalm_get (g : Fld) (v : Nat) (h : ∀ f, ok f → f.Apart g) : DmaCalm ok (fun s => s.get g = v) where
  set := (calm_get g v h).set
  rest hr _ hs := (State.get_of_regs hr g).trans hs

theorem dmaCalm_events (ok : Fld → Prop) (n : Nat) (l : List EvtRec) : DmaCalm ok (fun s => s.evtSeq = n ∧ s.evtFifo = l) where
  set := (calm_events ok n l).set
  rest _ he hs := by
    simp only [Prod.mk.injEq] at he
    rwa [he.2.2.2.1, he.2.2.2.2]

theorem dmaName_inSpans (hf : Listed dmaNames f) : f.reg.name.within dmaSpans = true := by
  have hnames : ∀ n ∈ dmaNames, n.within dmaSpans = true := by decide
  exact hnames _ (List.contains_iff_mem.1 hf)

theorem dmaCalm_frame (s : State) : DmaCalm (Listed dmaNames) (DmaFrame s) where
  set := by
    rintro t f v hf ⟨hregs, hpending, hfuse, hflash⟩
    refine ⟨fun q hq hs he => ?_, hpending, hfuse, hflash⟩
    exact (State.word_set_ne _ _ _ (Reg.ne_of_within (.inl (dmaName_inSpans hf)) hq hs he)).trans (hregs q hq hs he)
  rest := by
    rintro t u hr hk ⟨hregs, hpending, hfuse, hflash⟩
    simp only [Prod.mk.injEq] at hk
    exact ⟨fun q hq hs he => (State.word_of_regs hr q).trans (hregs q hq hs he), hk.1.trans hpending, hk.2.1.trans hfuse,
      hk.2.2.1.trans hflash⟩

theorem DmaFrame.refl (s : State) : DmaFrame s s := ⟨fun _ _ _ _ => rfl, rfl, rfl, rfl⟩

theorem DmaFrame.trans {u : State} (h : DmaFrame s t) (h' : DmaFrame t u) : DmaFrame s u := by
  obtain ⟨hregs, hpending, hfuse, hflash⟩ := h
  obtain ⟨hregs', hpending', hfuse', hflash'⟩ := h'
  exact ⟨hregs.trans hregs', hpending'.trans hpending, hfuse'.trans hfuse, hflash'.trans hflash⟩

theorem DmaFrame.push {code src body : Nat} (h : DmaFrame s t) : DmaFrame s (t.pushEvt code src body) := by
  obtain ⟨hregs, hpending, hfuse, hflash⟩ := h
  refine ⟨(kept_regsWithin s _).pushEvt _ _ _ (fun _ => Reg.inSpans_of_event) hregs, ?_, ?_, ?_⟩
  · rw [State.pushEvt_pending, hpending]
  · rw [State.pushEvt_otp, hfuse]
  · rw [State.pushEvt_flash, hflash]

theorem DmaFrame.ignored {source addr detail : Nat} (h : DmaFrame s t) : DmaFrame s (t.ignored source addr detail) := by
  obtain ⟨hregs, hpending, hfuse, hflash⟩ := h
  have hglb : ∀ o ∈ ignoredOffs, 0 ≤ o ∧ o < 0x1000 := by decide
  refine ⟨(kept_regsWithin s _).ignored _ _ _ (fun _ hr => .inl ⟨(0, 0x1000), List.mem_cons_self, hglb _ hr⟩) hregs, ?_, ?_, ?_⟩
  · rw [State.ignored_pending, hpending]
  · rw [State.ignored_otp, hfuse]
  · rw [State.ignored_flash, hflash]

/-! ### The shared operations -/

/-- The common registers. -/
def showNames : List RegName := [.DMA_ACTIVE, .DMA_REQ_BIND, .DMA_REQ_PEND]

theorem DmaCalm.showDma (K : DmaCalm (Listed showNames) P) (hs : P s) : P (showDma s) :=
  K.set (f := DMA_REQ_PEND_PEND) rfl <| K.set (f := DMA_REQ_BIND_BOUND) rfl <| K.set (f := DMA_ACTIVE_ACTIVE) rfl hs

theorem DmaCalm.vector (K : DmaCalm (Listed [.MSIX_PBA]) P) {v : Nat} (hs : P s) : P (s.vector v) := by
  unfold State.vector
  split
  · exact K.set (f := MSIX_PBA_PEND (v / 32)) rfl hs
  · exact K.beside hs rfl

theorem DmaCalm.chInterrupt (K : DmaCalm (Listed [.MSIX_PBA]) P) (hs : P s) : P (chInterrupt ch s) := by
  unfold Machine.chInterrupt
  split
  · exact K.vector hs
  · unfold engInterrupt
    split
    · exact K.beside hs rfl
    · exact hs

theorem DmaCalm.ringWrite (K : DmaCalm (Listed [.DATU_CNT]) P) {i : Nat} {b : List Byte} (hs : P s) : P (ringWrite ch i b s) := by
  unfold Machine.ringWrite
  split
  · exact K.beside (s := s.when _ (fun s => s.bump DATU_CNT_MISS_CNT)) (State.when_keeps _ _ (fun _ => K.set rfl) hs) rfl
  · unfold engWrite
    split
    · exact K.beside hs rfl
    · exact hs

theorem DmaCalm.settle (K : DmaCalm (fun f => f = DMA_STAT_STATE ch) P) (hs : P s) : P (settle ch s) :=
  K.calm.ite (K.set rfl hs) <| K.calm.ite (K.set rfl hs) hs

theorem DmaCalm.modDma (K : DmaCalm ok P) {h : DmaInt → DmaInt} (hs : P s) : P (s.modDma ch h) := K.beside hs rfl

/-- The registers that show a channel's progress. -/
def progressNames : List RegName := [.DMA_RESID, .DMA_NEXT_LO, .DMA_NEXT_HI]

theorem DmaCalm.showNext {a : Nat × Bool} (K : DmaCalm (Listed progressNames) P) (hs : P s) : P (showNext ch a s) :=
  K.set (f := DMA_NEXT_HI_LOCAL ch) rfl <| K.set (f := DMA_NEXT_HI_ADDR ch) rfl <| K.set (f := DMA_NEXT_LO_ADDR ch) rfl hs

theorem DmaCalm.showProgress (K : DmaCalm (Listed progressNames) P) (hs : P s) : P (showProgress ch d s) :=
  K.showNext <| K.set (f := DMA_RESID_RESID ch) rfl hs

theorem DmaCalm.takeUp (K : DmaCalm (Listed progressNames) P) (hs : P s) : P (takeUp ch d s) := K.showProgress <| K.modDma hs

/-! ### What they leave of the channels -/

theorem showDma_dma (s : State) : (showDma s).dma = s.dma := by simp [showDma]

theorem vector_dma (v : Nat) (s : State) : (s.vector v).dma = s.dma := by
  unfold State.vector
  split
  · exact State.set_dma ..
  · rfl

theorem chInterrupt_dma (ch : Nat) (s : State) : (chInterrupt ch s).dma = s.dma := by
  unfold chInterrupt engInterrupt
  split
  · exact vector_dma ..
  · split
    · rfl
    · rfl

theorem ite_dma {c : Prop} [Decidable c] {a b : State} (ha : a.dma = s.dma) (hb : b.dma = s.dma) : (if c then a else b).dma = s.dma := by
  split
  · exact ha
  · exact hb

theorem settle_dma (ch : Nat) (s : State) : (settle ch s).dma = s.dma := ite_dma (State.set_dma ..) (ite_dma (State.set_dma ..) rfl)

theorem ringWrite_dma (ch i : Nat) (b : List Byte) (s : State) : (ringWrite ch i b s).dma = s.dma := by
  unfold ringWrite engWrite
  split
  · rw [State.emit_dma]
    exact State.when_keeps (P := fun u => u.dma = s.dma) _ _ (fun _ h => (State.set_dma ..).trans h) rfl
  · split
    · rfl
    · rfl

theorem showNext_dma (ch : Nat) (a : Nat × Bool) (s : State) : (showNext ch a s).dma = s.dma := by
  simp [showNext, State.setWide_eq, State.put_eq]

theorem showProgress_dma (ch : Nat) (d : Desc) (s : State) : (showProgress ch d s).dma = s.dma := by
  simp [showProgress, showNext_dma]

theorem dmaOf_modDma (hch : ch < 32) (h : DmaInt → DmaInt) (s : State) : (s.modDma ch h).dmaOf ch = h (s.dmaOf ch) :=
  bankGet_bankMod_same s.dma h hch

theorem takeUp_dmaOf (hch : ch < 32) (d : Desc) (s : State) : (takeUp ch d s).dmaOf ch = { s.dmaOf ch with cur := some d } :=
  (congrArg (bankGet · ch) (showProgress_dma ch d _)).trans (dmaOf_modDma hch _ s)

/-! ### What they leave of the registers -/

theorem get_showDma (hf : showNames.contains f.reg.name = false) : (showDma s).get f = s.get f :=
  (dmaCalm_get f _ fun _ h => h.apart hf).showDma rfl

theorem get_settle (h : (DMA_STAT_STATE ch).apartFrom f = true) : (settle ch s).get f = s.get f :=
  (dmaCalm_get f _ (by rintro _ rfl; exact Fld.apart_of_apartFrom h)).settle rfl

theorem get_chInterrupt (hf : [RegName.MSIX_PBA].contains f.reg.name = false) : (chInterrupt ch s).get f = s.get f :=
  (dmaCalm_get f _ fun _ h => h.apart hf).chInterrupt rfl

theorem get_ringWrite {i : Nat} {b : List Byte} (hf : [RegName.DATU_CNT].contains f.reg.name = false) :
    (ringWrite ch i b s).get f = s.get f :=
  (dmaCalm_get f _ fun _ h => h.apart hf).ringWrite rfl

theorem get_showNext {a : Nat × Bool} (hf : progressNames.contains f.reg.name = false) : (showNext ch a s).get f = s.get f :=
  (dmaCalm_get f _ fun _ h => h.apart hf).showNext rfl

theorem get_takeUp (hf : progressNames.contains f.reg.name = false) : (takeUp ch d s).get f = s.get f :=
  (dmaCalm_get f _ fun _ h => h.apart hf).takeUp rfl

theorem showProgress_resid : (showProgress ch d s).get (DMA_RESID_RESID ch) = d.residue % 2 ^ 32 :=
  (State.get_set_apart rfl).trans <| (State.get_set_apart rfl).trans <| (State.get_set_apart rfl).trans <|
    State.get_set_same s (DMA_RESID_RESID ch) _ (show 0 + 32 ≤ 32 by decide)

/-- A channel that is neither ACTIVE nor IDLE stays as it is. -/
theorem settle_of_state (hactive : s.chState ch ≠ chActive) (hidle : s.chState ch ≠ chIdle) : settle ch s = s := by
  unfold settle
  dsimp only
  rw [if_neg (by simp [hactive]), if_neg (by simp [hidle])]

end

/-! ### A channel faults -/

section
variable {s t : State} {ch : Nat} {f : XFault}

/-- A fault's cause, address and count, before its event. -/
def faultRecorded (ch : Nat) (f : XFault) (s : State) : State :=
  (showNext ch (f.addr, f.isLocal) ((s.when f.xlate (recordXlate (s.get (DMA_CCTL_XCTX ch)) f.addr f.kind f.why f.level ch false)).set
    (DMA_STAT_CAUSE ch) f.cause)).bump (DMA_FCNT_FAULT_CNT ch)

/-- The body of a fault's event. -/
def faultBody (ch : Nat) (f : XFault) (s : State) : List (Nat × Nat) :=
  [(5, ch), (5, s.get (DMA_CCTL_XCTX ch)), (48, f.addr), (2, f.kind), (4, f.cause), (2, if f.xlate then f.level - 1 else 0)]

/-- A channel has faulted. -/
def faulted (ch : Nat) (f : XFault) (s : State) : State :=
  chInterrupt ch (((faultRecorded ch f s).raise (DMA_EVT_EVT ch) 0 0x0A00 ch (faultBody ch f s)).set (DMA_STAT_STATE ch) chFaulted)

theorem recordXlate_dma (x iova kind why level : Nat) (host : Bool) (s : State) : (recordXlate x iova kind why level ch host s).dma = s.dma := by
  simp [recordXlate, State.setWide_eq, State.put_eq, State.bump_eq]

theorem faultRecorded_dma (ch : Nat) (f : XFault) (s : State) : (faultRecorded ch f s).dma = s.dma := by
  unfold faultRecorded
  rw [State.bump_eq, State.set_dma, showNext_dma, State.set_dma]
  exact State.when_keeps (P := fun u => u.dma = s.dma) _ _ (fun _ h => (recordXlate_dma ..).trans h) rfl

theorem raise_dma (g : Fld) (i code src : Nat) (body : List (Nat × Nat)) (s : State) : (s.raise g i code src body).dma = s.dma := by
  simp [State.raise, State.setBit_eq]

theorem faulted_dma (ch : Nat) (f : XFault) (s : State) : (faulted ch f s).dma = s.dma := by
  unfold faulted
  rw [chInterrupt_dma, State.set_dma, raise_dma, faultRecorded_dma]

theorem faultChannel_faults (h : (s.dmaOf ch).abort = none) : faultChannel ch f s = faulted ch f s := by
  have hdma : ∀ body, ((((faultRecorded ch f s).raise (DMA_EVT_EVT ch) 0 0x0A00 ch body).set (DMA_STAT_STATE ch) chFaulted).dmaOf ch).abort =
      none := fun body => by
    unfold State.dmaOf at *
    rw [State.set_dma, raise_dma, faultRecorded_dma, h]
  have heq : faultChannel ch f s = match
      ((((faultRecorded ch f s).raise (DMA_EVT_EVT ch) 0 0x0A00 ch (faultBody ch f s)).set (DMA_STAT_STATE ch) chFaulted).dmaOf ch).abort with
    | some _ => haltChannel ch 0x04
        (((faultRecorded ch f s).raise (DMA_EVT_EVT ch) 0 0x0A00 ch (faultBody ch f s)).set (DMA_STAT_STATE ch) chFaulted)
    | none => faulted ch f s := rfl
  rw [heq, hdma]

/-- The registers a fault writes before its event. -/
def faultNames : List RegName := [.DMA_STAT, .DMA_FCNT] ++ progressNames ++ xlateNames

theorem DmaCalm.faultRecorded {P : State → Prop} (K : DmaCalm (Listed faultNames) P) (hs : P s) : P (faultRecorded ch f s) := by
  have hprogress : ∀ n ∈ progressNames, n ∈ faultNames := by decide
  have hxlate : ∀ n ∈ xlateNames, n ∈ faultNames := by decide
  refine K.set (f := DMA_FCNT_FAULT_CNT ch) rfl ((K.mono fun _ h => h.mono hprogress).showNext (K.set (f := DMA_STAT_CAUSE ch) rfl ?_))
  exact State.when_keeps _ _ (fun _ => (K.calm.mono fun _ h => h.mono hxlate).recordXlate) hs

theorem faultRecorded_count : (faultRecorded ch f s).get (DMA_FCNT_FAULT_CNT ch) = satNat 16 (s.get (DMA_FCNT_FAULT_CNT ch) + 1) := by
  refine (State.get_bump_own rfl).trans (congrArg (fun n => satNat 16 (n + 1)) ?_)
  refine (get_showNext rfl).trans <| (State.get_set_apart rfl).trans ?_
  exact State.when_keeps (P := fun u => u.get (DMA_FCNT_FAULT_CNT ch) = _) _ _
    (fun _ => (calm_get _ _ fun _ h => h.apart rfl).recordXlate) rfl

theorem faultRecorded_cause (h : f.cause < 16) : (faultRecorded ch f s).get (DMA_STAT_CAUSE ch) = f.cause :=
  (State.get_set_apart rfl).trans <| (get_showNext rfl).trans <| State.get_set_fits rfl h

/-- What a fault shows, whatever calm change came before it. -/
theorem faulted_shows (hev : t.evtSeq = s.evtSeq ∧ t.evtFifo = s.evtFifo) (hdie : t.get GLB_DIE_ISOLATED = s.get GLB_DIE_ISOLATED)
    (hcount : t.get (DMA_FCNT_FAULT_CNT ch) = s.get (DMA_FCNT_FAULT_CNT ch)) (hframe : DmaFrame s t) (hcause : f.cause < 16) :
    (showDma (faulted ch f t)).chState ch = chFaulted ∧ (showDma (faulted ch f t)).get (DMA_STAT_CAUSE ch) = f.cause ∧
      (showDma (faulted ch f t)).get (DMA_FCNT_FAULT_CNT ch) = satNat 16 (s.get (DMA_FCNT_FAULT_CNT ch) + 1) ∧
      (showDma (faulted ch f t)).bit (DMA_EVT_EVT ch) 0 = true ∧ Posted s (showDma (faulted ch f t)) 0x0A00 ch ∧
      DmaFrame s (showDma (faulted ch f t)) := by
  have hget : ∀ {g : Fld}, showNames.contains g.reg.name = false → [RegName.MSIX_PBA].contains g.reg.name = false →
      (DMA_STAT_STATE ch).apartFrom g = true → (showDma (faulted ch f t)).get g =
        ((faultRecorded ch f t).raise (DMA_EVT_EVT ch) 0 0x0A00 ch (faultBody ch f t)).get g := fun h1 h2 h3 =>
    (get_showDma h1).trans <| (get_chInterrupt h2).trans (State.get_set_apart h3)
  have hraise : ∀ {g : Fld}, showNames.contains g.reg.name = false → [RegName.MSIX_PBA].contains g.reg.name = false →
      (DMA_STAT_STATE ch).apartFrom g = true → (DMA_EVT_EVT ch).apartFrom g = true → eventNames.contains g.reg.name = false →
      (showDma (faulted ch f t)).get g = (faultRecorded ch f t).get g := fun h1 h2 h3 h4 h5 =>
    (hget h1 h2 h3).trans (State.get_raise_named h4 h5)
  have hposted : Posted s ((faultRecorded ch f t).raise (DMA_EVT_EVT ch) 0 0x0A00 ch (faultBody ch f t)) 0x0A00 ch := by
    have hrec := (dmaCalm_events _ _ _).faultRecorded (ch := ch) (f := f) hev
    refine posted_monRaise hrec ?_ (Fld.apart_of_apartFrom rfl) _ _ _
    exact ((dmaCalm_get GLB_DIE_ISOLATED _ fun _ h => h.apart rfl).faultRecorded rfl).trans hdie
  have hposted' : Posted s (showDma (faulted ch f t)) 0x0A00 ch := hposted.of_events <|
    (dmaCalm_events _ _ _).showDma <| (dmaCalm_events _ _ _).chInterrupt <| (dmaCalm_events (fun _ => True) _ _).set trivial ⟨rfl, rfl⟩
  refine ⟨?_, (hraise rfl rfl rfl rfl rfl).trans (faultRecorded_cause hcause), (hraise rfl rfl rfl rfl rfl).trans ?_,
    (State.bit_of_get (hget rfl rfl rfl) 0).trans (State.bit_raise_own rfl (show 0 < 4 by decide) rfl), hposted', ?_⟩
  · exact (get_showDma (f := DMA_STAT_STATE ch) rfl).trans <| (get_chInterrupt rfl).trans (State.get_set_own rfl rfl)
  · rw [faultRecorded_count, hcount]
  · have K := dmaCalm_frame s
    have hshow : ∀ n ∈ showNames, n ∈ dmaNames := by decide
    have hirq : ∀ n ∈ [RegName.MSIX_PBA], n ∈ dmaNames := by decide
    have hfault : ∀ n ∈ faultNames, n ∈ dmaNames := by decide
    have hevt : DmaFrame s ((faultRecorded ch f t).raise (DMA_EVT_EVT ch) 0 0x0A00 ch (faultBody ch f t)) :=
      DmaFrame.push (K.set rfl ((K.mono fun _ h => h.mono hfault).faultRecorded hframe))
    exact (K.mono fun _ h => h.mono hshow).showDma <| (K.mono fun _ h => h.mono hirq).chInterrupt <| K.set rfl hevt

end

end Sys2Proof.Machine

/-! Descriptors fetched and judged (R320, R321, R338). -/

namespace Sys2Proof.Machine

/-! ### A descriptor's end -/

section
variable {s t : State} {f g : Fld} {ch i status residue : Nat} {d : Desc}

/-- The ring writes of a descriptor's end: the extension's entry, then its own. -/
def descWritten (ch : Nat) (d : Desc) (status residue : Nat) (s : State) : State :=
  ringWrite ch d.idx (wordsBytes (wordSet (wordSet (d.w 0) 16 8 status) 31 1 0 ::
      ((d.words.drop 1).take 5 ++ [BitVec.ofNat 32 d.seq, BitVec.ofNat 32 residue])))
    (if extended (d.w 0) then
      ringWrite ch ((d.idx + 1) % s.ringSize ch) (wordsBytes (wordSet (d.x 0) 31 1 0 :: d.ext.drop 1)) s else s)

/-- The channel's registers at a descriptor's end. -/
def descShown (ch i status residue : Nat) (s : State) : State :=
  (((s.set (DMA_STAT_LAST ch) status).set (DMA_RESID_RESID ch) residue).set (DMA_STAT_CIDX ch) i).when (status = 3)
    (fun s => s.bump (DMA_FCNT_POISON_CNT ch))

/-- The channel has no descriptor. -/
def descLeft (x : DmaInt) : DmaInt := { x with cur := none, bursts := [], rest := none }

/-- The consumer index after a descriptor. -/
def Desc.next (d : Desc) (n : Nat) : Nat := (d.idx + if extended (d.w 0) then 2 else 1) % n

/-- The end of a descriptor, but for its interrupt. -/
def descClosed (ch : Nat) (d : Desc) (status residue : Nat) (s : State) : State :=
  (descShown ch (d.next (s.ringSize ch)) status residue (descWritten ch d status residue s)).modDma ch descLeft

theorem finishDesc_eq (ch : Nat) (d : Desc) (status residue : Nat) (s : State) : finishDesc ch d status residue s =
    if d.irq then chInterrupt ch (descClosed ch d status residue s) else descClosed ch d status residue s := rfl

/-- The registers that show a descriptor's end. -/
def descNames : List RegName := [.DMA_STAT, .DMA_RESID, .DMA_FCNT, .DATU_CNT, .MSIX_PBA]

theorem DmaCalm.descWritten {P : State → Prop} (K : DmaCalm (Listed [.DATU_CNT]) P) (hs : P s) : P (descWritten ch d status residue s) :=
  K.ringWrite (K.calm.ite (K.ringWrite hs) hs)

theorem DmaCalm.descShown {P : State → Prop} (K : DmaCalm (Listed [.DMA_STAT, .DMA_RESID, .DMA_FCNT]) P) (hs : P s) :
    P (descShown ch i status residue s) :=
  State.when_keeps _ _ (fun _ => K.set (f := DMA_FCNT_POISON_CNT ch) rfl) <| K.set (f := DMA_STAT_CIDX ch) rfl <|
    K.set (f := DMA_RESID_RESID ch) rfl <| K.set (f := DMA_STAT_LAST ch) rfl hs

theorem DmaCalm.finishDesc {P : State → Prop} (K : DmaCalm (Listed descNames) P) (hs : P s) : P (finishDesc ch d status residue s) := by
  have hcnt : ∀ n ∈ [RegName.DATU_CNT], n ∈ descNames := by decide
  have hshow : ∀ n ∈ [RegName.DMA_STAT, .DMA_RESID, .DMA_FCNT], n ∈ descNames := by decide
  have hirq : ∀ n ∈ [RegName.MSIX_PBA], n ∈ descNames := by decide
  have hclosed : P (descClosed ch d status residue s) :=
    K.modDma <| (K.mono fun _ h => h.mono hshow).descShown <| (K.mono fun _ h => h.mono hcnt).descWritten hs
  rw [finishDesc_eq]
  exact K.calm.ite ((K.mono fun _ h => h.mono hirq).chInterrupt hclosed) hclosed

theorem descWritten_dma : (descWritten ch d status residue s).dma = s.dma :=
  (ringWrite_dma ..).trans (ite_dma (ringWrite_dma ..) rfl)

theorem descShown_dma : (descShown ch i status residue s).dma = s.dma := by
  refine State.when_keeps (P := fun u => u.dma = s.dma) _ _ (fun _ h => (State.set_dma ..).trans h) ?_
  rw [State.set_dma, State.set_dma, State.set_dma]

theorem finishDesc_dmaOf (hch : ch < 32) : (finishDesc ch d status residue s).dmaOf ch = descLeft (s.dmaOf ch) := by
  have hclosed : (descClosed ch d status residue s).dmaOf ch = descLeft (s.dmaOf ch) := by
    refine (dmaOf_modDma hch _ _).trans (congrArg descLeft ?_)
    unfold State.dmaOf
    rw [descShown_dma, descWritten_dma]
  rw [finishDesc_eq]
  split
  · exact (congrArg (bankGet · ch) (chInterrupt_dma ..)).trans hclosed
  · exact hclosed

theorem get_finishDesc (hf : [RegName.MSIX_PBA].contains f.reg.name = false) : (finishDesc ch d status residue s).get f =
    (descShown ch (d.next (s.ringSize ch)) status residue (descWritten ch d status residue s)).get f := by
  rw [finishDesc_eq]
  split
  · exact get_chInterrupt hf
  · rfl

theorem finishDesc_last (h : status < 256) : (finishDesc ch d status residue s).get (DMA_STAT_LAST ch) = status := by
  refine (get_finishDesc rfl).trans <| State.when_keeps (P := fun u => u.get (DMA_STAT_LAST ch) = status) _ _
    (fun _ h => (State.get_set_apart rfl).trans h) ?_
  exact (State.get_set_apart rfl).trans <| (State.get_set_apart rfl).trans (State.get_set_fits rfl h)

theorem finishDesc_resid : (finishDesc ch d status residue s).get (DMA_RESID_RESID ch) = residue % 2 ^ 32 := by
  refine (get_finishDesc rfl).trans <| State.when_keeps (P := fun u => u.get (DMA_RESID_RESID ch) = residue % 2 ^ 32) _ _
    (fun _ h => (State.get_set_apart rfl).trans h) ?_
  exact (State.get_set_apart rfl).trans (State.get_set_same _ (DMA_RESID_RESID ch) _ (show 0 + 32 ≤ 32 by decide))

theorem finishDesc_index : (finishDesc ch d status residue s).get (DMA_STAT_CIDX ch) = d.next (s.ringSize ch) % 2 ^ 16 := by
  refine (get_finishDesc rfl).trans <| State.when_keeps (P := fun u => u.get (DMA_STAT_CIDX ch) = d.next (s.ringSize ch) % 2 ^ 16) _ _
    (fun _ h => (State.get_set_apart rfl).trans h) ?_
  exact State.get_set_same _ (DMA_STAT_CIDX ch) _ (show 16 + 16 ≤ 32 by decide)

theorem finishDesc_poison : (finishDesc ch d 3 residue s).get (DMA_FCNT_POISON_CNT ch) =
    satNat 16 (s.get (DMA_FCNT_POISON_CNT ch) + 1) := by
  refine (get_finishDesc rfl).trans <| (State.get_bump_own rfl).trans (congrArg (fun n => satNat 16 (n + 1)) ?_)
  refine (State.get_set_apart rfl).trans <| (State.get_set_apart rfl).trans <| (State.get_set_apart rfl).trans ?_
  exact (dmaCalm_get _ _ fun _ h => h.apart rfl).descWritten rfl

theorem get_finishDesc_apart (hf : descNames.contains f.reg.name = false) : (finishDesc ch d status residue s).get f = s.get f :=
  (dmaCalm_get f _ fun _ h => h.apart hf).finishDesc rfl

/-- A ring write to host memory leaves the hub as one write. -/
theorem ringWrite_sent {b : List Byte} (hown : s.hostOwned ch = true) : (ringWrite ch i b s).sent.length = s.sent.length + 1 := by
  have hnone : s.chEngine ch = none := Option.isNone_iff_eq_none.1 hown
  unfold ringWrite
  rw [hnone]
  have hsent : ∀ c : Bool, (s.when c (fun s => s.bump DATU_CNT_MISS_CNT)).sent = s.sent := fun c =>
    State.when_keeps (P := fun u => u.sent = s.sent) _ _ (fun _ h => (State.set_sent ..).trans h) rfl
  unfold State.emit
  dsimp only
  rw [hsent, List.length_append]
  rfl

theorem finishDesc_sent (hown : s.hostOwned ch = true) (hirq : d.irq = false) :
    (finishDesc ch d status residue s).sent.length = s.sent.length + if extended (d.w 0) then 2 else 1 := by
  have hshown : ∀ (u : State) (k : Nat), (descShown ch k status residue u).sent = u.sent := fun u k => by
    refine State.when_keeps (P := fun v => v.sent = u.sent) _ _ (fun _ h => (State.set_sent ..).trans h) ?_
    rw [State.set_sent, State.set_sent, State.set_sent]
  have hown' : ∀ {k : Nat} {b : List Byte}, (ringWrite ch k b s).hostOwned ch = true := fun {k b} => by
    have hget : (ringWrite ch k b s).get (DMA_CCTL_OWNER ch) = s.get (DMA_CCTL_OWNER ch) := get_ringWrite rfl
    unfold State.hostOwned State.chEngine at *
    rw [hget]
    exact hown
  rw [finishDesc_eq, hirq, if_neg Bool.false_ne_true]
  refine (congrArg List.length (hshown _ _)).trans ?_
  unfold descWritten
  split
  · rw [ringWrite_sent hown', ringWrite_sent hown]
  · rw [ringWrite_sent hown]

end

end Sys2Proof.Machine

/-! The clauses of O40 about a descriptor's fetch (R320, R321, R338, R341). -/

namespace Sys2Proof.Machine

section
variable {s t u : State} {ch : Fin 32} {d : Desc} {f : XFault} {h e w : List Word} {x : Option (Fin 16)}

/-! ### A fetch -/

/-- A channel that may fetch is IDLE or ACTIVE, with no descriptor and no ABORT that waits. -/
theorem mayFetch_state (hmay : s.mayFetch ch = true) : (s.chState ch = chIdle ∨ s.chState ch = chActive) ∧
    (s.dmaOf ch).abort = none ∧ (s.dmaOf ch).cur = none := by
  unfold State.mayFetch at hmay
  simp only [Bool.and_eq_true, Bool.or_eq_true, decide_eq_true_eq, Option.isNone_iff_eq_none] at hmay
  obtain ⟨⟨⟨⟨⟨⟨hstate, habort⟩, hcur⟩, -⟩, -⟩, -⟩, -⟩ := hmay
  exact ⟨hstate, habort, hcur⟩

theorem exec_descriptorFetch (ch : Fin 32) (x : Option (Fin 16)) (h e w : List Word) (s : State) :
    exec (.descriptorFetch ch x h e w) s = .next (
      if !s.mayFetch ch then s else
      match s.ringFault ch with
      | some f => showDma (faultChannel ch f s)
      | none =>
        if !s.descInHand ch (s.descAt ch h e w) then s else
        if Desc.own ((s.descAt ch h e w).w 0) && (!extended ((s.descAt ch h e w).w 0) || Desc.own ((s.descAt ch h e w).x 0)) then
          showDma (settle ch (takeDesc ch (x.map (·.val)) (s.descAt ch h e w) (engDescLands ch (s.descAt ch h e w) s)))
        else showDma (((engDescLands ch (s.descAt ch h e w) s).set (DMA_STAT_STATE ch) chIdle).modDma ch
          (fun x => { x with stalled := true }))) := rfl

theorem fetch_refused (hmay : s.mayFetch ch = false) : exec (.descriptorFetch ch x h e w) s = .next s := by
  rw [exec_descriptorFetch, hmay]
  rfl

theorem fetch_ringFault (hmay : s.mayFetch ch = true) (hring : s.ringFault ch = some f) :
    exec (.descriptorFetch ch x h e w) s = .next (showDma (faultChannel ch f s)) := by
  rw [exec_descriptorFetch, hmay, hring]
  rfl

/-- The state with what engines' programs left in their memories. -/
def State.withEngMem (m : Vector EngMem 12) (s : State) : State := { s with engMem := m }

theorem engStore_mem (n a : Nat) (b : List Byte) (s : State) : ∃ m, engStore n a b s = s.withEngMem m := ⟨_, rfl⟩

theorem engDescLands_mem (ch : Nat) (d : Desc) (s : State) : ∃ m, engDescLands ch d s = s.withEngMem m := by
  have hwhen : ∀ (c : Bool) (n a : Nat) (b : List Byte) (t : State), (∃ m, t = s.withEngMem m) →
      ∃ m, t.when c (engStore n a b) = s.withEngMem m := fun c n a b t ht => by
    refine State.when_keeps (P := fun u => ∃ m, u = s.withEngMem m) _ _ (fun _ hz => ?_) ht
    obtain ⟨m, rfl⟩ := hz
    exact engStore_mem n a b _
  unfold engDescLands
  split
  · exact ⟨s.engMem, rfl⟩
  · dsimp only
    split
    · exact hwhen _ _ _ _ _ (hwhen _ _ _ _ _ (engStore_mem ..))
    · exact hwhen _ _ _ _ _ (engStore_mem ..)

/-- The owner has offered the entry, and its extension with it. -/
def Desc.offers (d : Desc) : Bool := Desc.own (d.w 0) && (!extended (d.w 0) || Desc.own (d.x 0))

theorem offers_of (hown : Desc.own (d.w 0) = true) (hext : extended (d.w 0) = true → Desc.own (d.x 0) = true) : d.offers = true := by
  unfold Desc.offers
  rw [hown]
  cases hx : extended (d.w 0) with
  | false => rfl
  | true => rw [hext hx]; rfl

theorem fetch_takes (hmay : s.mayFetch ch = true) (hring : s.ringFault ch = none) (hhand : s.descInHand ch (s.descAt ch h e w) = true)
    (hoffer : (s.descAt ch h e w).offers = true) : exec (.descriptorFetch ch x h e w) s =
      .next (showDma (settle ch (takeDesc ch (x.map (·.val)) (s.descAt ch h e w) (engDescLands ch (s.descAt ch h e w) s)))) := by
  unfold Desc.offers at hoffer
  rw [exec_descriptorFetch, hmay, hring, hhand, hoffer]
  rfl

theorem fetch_stalls (hmay : s.mayFetch ch = true) (hring : s.ringFault ch = none) (hhand : s.descInHand ch (s.descAt ch h e w) = true)
    (hown : Desc.own (h.getD 0 0) = false) : exec (.descriptorFetch ch x h e w) s =
      .next (showDma (((engDescLands ch (s.descAt ch h e w) s).set (DMA_STAT_STATE ch) chIdle).modDma ch
        (fun x => { x with stalled := true }))) := by
  have hword : (s.descAt ch h e w).w 0 = h.getD 0 0 := by
    cases h with
    | nil => rfl
    | cons a l => rfl
  have hno : (Desc.own ((s.descAt ch h e w).w 0) && (!extended ((s.descAt ch h e w).w 0) || Desc.own ((s.descAt ch h e w).x 0))) = false := by
    rw [hword, hown, Bool.false_and]
  rw [exec_descriptorFetch, hmay, hring, hhand, hno]
  rfl

theorem names_sub {a : List RegName} {P : State → Prop} (K : DmaCalm (Listed dmaNames) P) (hsub : ∀ n ∈ a, n ∈ dmaNames) :
    DmaCalm (Listed a) P := K.mono fun _ hf => hf.mono hsub

theorem DmaCalm.step_showDma {P : State → Prop} (K : DmaCalm (Listed dmaNames) P) (hs : P s) : P (Machine.showDma s) :=
  (names_sub K (by decide)).showDma hs

theorem DmaCalm.step_settle {P : State → Prop} {k : Nat} (K : DmaCalm (Listed dmaNames) P) (hs : P s) : P (Machine.settle k s) :=
  (K.mono (by rintro _ rfl; rfl)).settle hs

theorem DmaCalm.step_finishDesc {P : State → Prop} {k status residue : Nat} (K : DmaCalm (Listed dmaNames) P) (hs : P s) :
    P (Machine.finishDesc k d status residue s) := (names_sub K (by decide)).finishDesc hs

theorem DmaCalm.step_takeUp {P : State → Prop} {k : Nat} (K : DmaCalm (Listed dmaNames) P) (hs : P s) : P (Machine.takeUp k d s) :=
  (names_sub K (by decide)).takeUp hs

theorem showDma_sent (s : State) : (showDma s).sent = s.sent := by simp [showDma]

/-- A channel that waits for a doorbell. -/
def fetchStalled (ch : Nat) (s : State) : State :=
  showDma ((s.set (DMA_STAT_STATE ch) chIdle).modDma ch (fun x => { x with stalled := true }))

theorem fetchStalled_dmaOf {k : Nat} (hk : k < 32) (s : State) :
    (fetchStalled k s).dmaOf k = { s.dmaOf k with stalled := true } := by
  have hset : (s.set (DMA_STAT_STATE k) chIdle).dmaOf k = s.dmaOf k := congrArg (bankGet · k) (State.set_dma ..)
  refine (congrArg (bankGet · k) (showDma_dma _)).trans ((dmaOf_modDma hk _ _).trans ?_)
  rw [hset]

theorem DmaCalm.fetchStalled {P : State → Prop} {k : Nat} (K : DmaCalm (Listed dmaNames) P) (hs : P s) : P (fetchStalled k s) :=
  K.step_showDma <| K.modDma <| K.set (f := DMA_STAT_STATE k) rfl hs

theorem fetchStalled_state (k : Nat) (s : State) : (fetchStalled k s).chState k = chIdle :=
  (get_showDma (f := DMA_STAT_STATE k) rfl).trans (State.get_set_own (s := s) (f := DMA_STAT_STATE k) rfl rfl)

theorem fetchStalled_index (k : Nat) (s : State) : (fetchStalled k s).get (DMA_STAT_CIDX k) = s.get (DMA_STAT_CIDX k) :=
  (get_showDma (f := DMA_STAT_CIDX k) rfl).trans (State.get_set_apart (s := s) (f := DMA_STAT_STATE k) rfl)

theorem fetchStalled_sent (k : Nat) (s : State) : (fetchStalled k s).sent = s.sent :=
  (showDma_sent _).trans (State.set_sent s (DMA_STAT_STATE k) chIdle)

/-- The owner's OWN bit is clear. -/
theorem fetch_waits (hmay : s.mayFetch ch = true) (hring : s.ringFault ch = none) (hhand : s.descInHand ch (s.descAt ch h e w) = true)
    (hown : Desc.own (h.getD 0 0) = false) : ∃ u, exec (.descriptorFetch ch x h e w) s = .next u ∧ u.chState ch = chIdle ∧
      (u.dmaOf ch).cur = none ∧ (u.dmaOf ch).stalled = true ∧ u.get (DMA_STAT_CIDX ch) = s.get (DMA_STAT_CIDX ch) ∧ u.sent = s.sent ∧
      Silent s u ∧ DmaFrame s u := by
  obtain ⟨m, hmem⟩ := engDescLands_mem ch (s.descAt ch h e w) s
  obtain ⟨-, -, hcur⟩ := mayFetch_state hmay
  have hexec : exec (.descriptorFetch ch x h e w) s = .next (fetchStalled ch (s.withEngMem m)) :=
    (fetch_stalls hmay hring hhand hown).trans (by rw [hmem]; rfl)
  have hdma : (fetchStalled ch (s.withEngMem m)).dmaOf ch = { s.dmaOf ch with stalled := true } := fetchStalled_dmaOf ch.isLt _
  have hevents := (dmaCalm_events (Listed dmaNames) s.evtSeq s.evtFifo).fetchStalled (s := s.withEngMem m) (k := ch) ⟨rfl, rfl⟩
  have hframe := (dmaCalm_frame s).fetchStalled (s := s.withEngMem m) (k := ch) (DmaFrame.refl s)
  refine ⟨_, hexec, fetchStalled_state .., ?_, ?_, fetchStalled_index .., fetchStalled_sent .., .of_events hevents, hframe⟩
  · rw [hdma]; exact hcur
  · rw [hdma]

/-! ### Faults of a fetch -/

/-- A channel that faults, after calm changes. -/
theorem fault_clause {k : Nat} (habort : (t.dmaOf k).abort = none) (hkeeps : ∀ {P : State → Prop},
      DmaCalm (Listed progressNames) P → P s → P t) (hcause : f.cause < 16) :
    (showDma (faultChannel k f t)).chState k = chFaulted ∧ (showDma (faultChannel k f t)).get (DMA_STAT_CAUSE k) = f.cause ∧
      (showDma (faultChannel k f t)).get (DMA_FCNT_FAULT_CNT k) = satNat 16 (s.get (DMA_FCNT_FAULT_CNT k) + 1) ∧
      (showDma (faultChannel k f t)).bit (DMA_EVT_EVT k) 0 = true ∧ Posted s (showDma (faultChannel k f t)) 0x0A00 k ∧
      DmaFrame s (showDma (faultChannel k f t)) := by
  rw [faultChannel_faults habort]
  exact faulted_shows (hkeeps (dmaCalm_events _ _ _) ⟨rfl, rfl⟩) (hkeeps (dmaCalm_get _ _ fun _ hf => hf.apart rfl) rfl)
    (hkeeps (dmaCalm_get _ _ fun _ hf => hf.apart rfl) rfl) (hkeeps (names_sub (dmaCalm_frame s) (by decide)) (.refl s)) hcause

theorem fault_dma {k : Nat} (habort : (t.dmaOf k).abort = none) : (showDma (faultChannel k f t)).dma = t.dma := by
  rw [faultChannel_faults habort, showDma_dma, faulted_dma]

theorem ringFault_cause (hring : s.ringFault ch = some f) : f.cause = 2 := by
  unfold State.ringFault at hring
  dsimp only at hring
  split at hring
  all_goals
    split at hring
    · injection hring with hf
      rw [← hf]
      rfl
    · exact absurd hring (by simp)

theorem fetch_ringFaults (hmay : s.mayFetch ch = true) (hring : s.ringFault ch = some f) :
    ∃ u, exec (.descriptorFetch ch x h e w) s = .next u ∧ u.chState ch = chFaulted ∧ u.get (DMA_STAT_CAUSE ch) = 2 ∧
      u.get (DMA_FCNT_FAULT_CNT ch) = satNat 16 (s.get (DMA_FCNT_FAULT_CNT ch) + 1) ∧ u.bit (DMA_EVT_EVT ch) 0 = true ∧
      Posted s u 0x0A00 ch ∧ DmaFrame s u := by
  obtain ⟨-, habort, -⟩ := mayFetch_state hmay
  have hcause := ringFault_cause hring
  obtain ⟨hstate, hcz, hrest⟩ := fault_clause (s := s) (t := s) (f := f) habort (fun _ hs => hs) (by omega)
  exact ⟨_, fetch_ringFault hmay hring, hstate, hcz.trans hcause, hrest⟩

end

end Sys2Proof.Machine

/-! The clauses of O40 about a descriptor in hand (R320, R321, R338, R341, R343). -/

namespace Sys2Proof.Machine

/-! ### The end of a channel's step -/

/-- A channel's step ends: its state follows its work, and the common registers show the channels. -/
def stepEnd (ch : Nat) (s : State) : State := showDma (settle ch s)

section
variable {s t u : State} {k : Nat} {d : Desc} {f : Fld} {status residue : Nat} {P : State → Prop}

theorem DmaCalm.stepEnd (K : DmaCalm (Listed dmaNames) P) (hs : P s) : P (Machine.stepEnd k s) := K.step_showDma (K.step_settle hs)

theorem get_stepEnd (hshow : showNames.contains f.reg.name = false) (hstate : (DMA_STAT_STATE k).apartFrom f = true) :
    (stepEnd k s).get f = s.get f := (get_showDma hshow).trans (get_settle hstate)

theorem stepEnd_dmaOf (k : Nat) (s : State) : (stepEnd k s).dmaOf k = s.dmaOf k := by
  unfold stepEnd State.dmaOf
  rw [showDma_dma, settle_dma]

theorem settle_sent (k : Nat) (s : State) : (settle k s).sent = s.sent := by
  have hite : ∀ {c : Prop} [Decidable c] {a b : State}, a.sent = s.sent → b.sent = s.sent → (if c then a else b).sent = s.sent :=
    fun ha hb => by split <;> assumption
  exact hite (State.set_sent ..) (hite (State.set_sent ..) rfl)

theorem stepEnd_sent (k : Nat) (s : State) : (stepEnd k s).sent = s.sent := (showDma_sent _).trans (settle_sent k s)

/-- What the end of a descriptor with a status and a residue shows. -/
theorem descEnds_shows (hk : k < 32) (hsize : t.ringSize k = s.ringSize k) (hstatus : status < 256) :
    ((stepEnd k (finishDesc k d status residue t)).dmaOf k).cur = none ∧
      (stepEnd k (finishDesc k d status residue t)).get (DMA_STAT_LAST k) = status ∧
      (stepEnd k (finishDesc k d status residue t)).get (DMA_RESID_RESID k) = residue % 2 ^ 32 ∧
      (stepEnd k (finishDesc k d status residue t)).get (DMA_STAT_CIDX k) = d.next (s.ringSize k) % 2 ^ 16 := by
  refine ⟨?_, (get_stepEnd rfl rfl).trans (finishDesc_last hstatus), (get_stepEnd rfl rfl).trans finishDesc_resid,
    (get_stepEnd rfl rfl).trans (finishDesc_index.trans (by rw [hsize]))⟩
  rw [stepEnd_dmaOf, finishDesc_dmaOf hk]
  rfl

theorem ringSize_of_get (h : t.get (DMA_CCTL_RSIZE k) = s.get (DMA_CCTL_RSIZE k)) : t.ringSize k = s.ringSize k :=
  congrArg (2 ^ ·) h

theorem DmaCalm.descEnds (K : DmaCalm (Listed dmaNames) P) (ht : P t) : P (Machine.stepEnd k (Machine.finishDesc k d status residue t)) :=
  K.stepEnd (K.step_finishDesc ht)

theorem get_descEnds (hf : descNames.contains f.reg.name = false) (hshow : showNames.contains f.reg.name = false)
    (hstate : (DMA_STAT_STATE k).apartFrom f = true) : (stepEnd k (finishDesc k d status residue t)).get f = t.get f :=
  (get_stepEnd hshow hstate).trans (get_finishDesc_apart hf)

end

/-! ### What an event sends -/

section
variable {s : State}

theorem eventLine_sent (s : State) : (eventLine s).sent = s.sent := by
  unfold eventLine
  split
  · refine foldl_keeps (P := fun u => u.sent = s.sent) _ _ (fun _ _ u h => ?_) rfl
    exact (State.set_sent ..).trans h
  · rfl

theorem raiseIbi_sent {was code : Nat} (h : s.on MGT_I3C_STAT_IBI_EN = false) : (raiseIbi was code s).sent = s.sent := by
  unfold raiseIbi
  rw [h, Bool.and_false, Bool.false_and, Bool.false_and, if_neg Bool.false_ne_true]

/-- With in-band interrupts off, posting an event sends nothing. -/
theorem pushEvt_sent {code src body : Nat} (h : s.on MGT_I3C_STAT_IBI_EN = false) : (s.pushEvt code src body).sent = s.sent := by
  unfold State.pushEvt
  split
  · unfold State.postEvt
    dsimp only
    split
    · refine (raiseIbi_sent ?_).trans ((State.set_sent ..).trans (eventLine_sent _))
      have hline : ∀ t : State, (eventLine t).get MGT_I3C_STAT_IBI_EN = t.get MGT_I3C_STAT_IBI_EN := fun t =>
        congrArg (wordGet · _ _) (word_eventLine t _ (Reg.ne_of_name (show RegName.DMA_REQ_PEND ≠ .MGT_I3C_STAT by decide)))
      exact (State.on_of_get ((State.get_set_apart (f := MGT_EV_FILL) rfl).trans (hline _))).trans h
    · exact State.when_keeps (P := fun u => u.sent = s.sent) _ _ (fun _ hu => (State.set_sent ..).trans hu) (State.set_sent ..)
  · rfl

/-! ### A double-bit error of the descriptor cache -/

/-- The die's count of errors has gone up. -/
def dieCounted (die : Nat) (s : State) : State := { s with pkg_ := { s.pkg_ with diePoison := bankMod s.pkg_.diePoison die (· + 1) } }

/-- An error on the C-die itself is raised. -/
theorem poisoned_own (mem addr : Nat) (s : State) : poisoned dieC mem addr s =
    (dieCounted dieC s).raise GLB_EVT_EVT 0 0x0000 dieC [(2, dieC), (32, mem), (32, addr)] := rfl

theorem get_poisoned {f : Fld} (hn : (GLB_EVT_EVT).apartFrom f = true) (he : eventNames.contains f.reg.name = false) (mem addr : Nat) :
    (poisoned dieC mem addr s).get f = s.get f := by
  rw [poisoned_own, State.get_raise_named hn he]
  exact State.get_of_regs rfl f

theorem poisoned_posted (mem addr : Nat) (s : State) : Posted s (poisoned dieC mem addr s) 0x0000 dieC := by
  have hevents : (dieCounted dieC s).evtSeq = s.evtSeq ∧ (dieCounted dieC s).evtFifo = s.evtFifo := ⟨rfl, rfl⟩
  have hdie : (dieCounted dieC s).get GLB_DIE_ISOLATED = s.get GLB_DIE_ISOLATED := State.get_of_regs rfl _
  have hapart : (GLB_EVT_EVT).Apart GLB_DIE_ISOLATED := Fld.apart_of_apartFrom rfl
  rw [poisoned_own]
  exact posted_monRaise hevents hdie hapart 0x0000 dieC [(2, dieC), (32, mem), (32, addr)]

theorem poisoned_dma (mem addr : Nat) (s : State) : (poisoned dieC mem addr s).dma = s.dma := by
  rw [poisoned_own, raise_dma, dieCounted]

theorem poisoned_sent (mem addr : Nat) (h : s.on MGT_I3C_STAT_IBI_EN = false) : (poisoned dieC mem addr s).sent = s.sent := by
  have hget : ((dieCounted dieC s).setBit GLB_EVT_EVT 0 true).get MGT_I3C_STAT_IBI_EN = s.get MGT_I3C_STAT_IBI_EN :=
    (State.get_set_apart (s := dieCounted dieC s) (f := GLB_EVT_EVT) rfl).trans (State.get_of_regs rfl _)
  rw [poisoned_own, State.raise, pushEvt_sent ((State.on_of_get hget).trans h), State.setBit_eq, State.set_sent, dieCounted]

theorem poisoned_frame (mem addr : Nat) (s : State) : DmaFrame s (poisoned dieC mem addr s) := by
  rw [poisoned_own, State.raise]
  exact DmaFrame.push ((dmaCalm_frame s).set (s := dieCounted dieC s) (f := GLB_EVT_EVT) rfl (DmaFrame.refl s))

end

end Sys2Proof.Machine

/-! The clauses of O40 about a descriptor whose owner has offered it (R320, R321, R338, R341, R343). -/

namespace Sys2Proof.Machine

section
variable {s t : State} {k w : Nat} {d : Desc} {f : XFault}

theorem takeDesc_poisoned (k w : Nat) (d : Desc) (s : State) :
    takeDesc k (some w) d s = finishDesc k d 0x03 d.sum (poisoned dieC memDesc w s) := rfl

theorem takeDesc_ignored (hok : s.descOk k d = false) : takeDesc k none d s = finishDesc k d 0x01 d.sum (s.ignored 0x09 d.idx k) := by
  unfold takeDesc
  rw [hok, Bool.not_false, if_pos rfl]

theorem takeDesc_empty (hok : s.descOk k d = true) (hsum : d.sum = 0) : takeDesc k none d s = finishDesc k d 0x02 0 s := by
  unfold takeDesc
  rw [hok, if_neg (by decide), if_pos hsum]

theorem takeDesc_faults (hok : s.descOk k d = true) (hsum : d.sum ≠ 0) (hfault : s.tableFault k d = some f) :
    takeDesc k none d s = faultChannel k f (takeUp k d s) := by
  unfold takeDesc
  rw [hok, hfault, if_neg (by decide), if_neg hsum]

theorem takeDesc_takes (hok : s.descOk k d = true) (hsum : d.sum ≠ 0) (hfault : s.tableFault k d = none) (hreqs : (s.dmaOf k).reqs = []) :
    takeDesc k none d s = fitUnit k (takeUp k d s) := by
  unfold takeDesc
  rw [hok, hfault, hreqs, if_neg (by decide), if_neg hsum]

/-- A channel bound to no line fits no unit. -/
theorem fitUnit_unbound (hline : s.lineOf k = none) : fitUnit k s = s := by
  unfold fitUnit
  rw [hline]

/-- An ignored action writes its own registers alone. -/
theorem State.get_ignored_apart {g : Fld} {src addr detail : Nat} (hcount : GLB_IGNORED_CNT_CNT.apartFrom g = true)
    (hlast : [RegName.GLB_IGNORED_LAST_A, .GLB_IGNORED_LAST_S].contains g.reg.name = false) :
    (s.ignored src addr detail).get g = s.get g := by
  have K := calm_get (ok := Listed [.GLB_IGNORED_LAST_A, .GLB_IGNORED_LAST_S]) g (s.get g) fun _ hf => hf.apart hlast
  exact K.set rfl <| K.set rfl <| K.set rfl <| State.get_set_apart hcount

theorem lineOf_of_get (h : t.get (DMA_CCTL_REQ k) = s.get (DMA_CCTL_REQ k)) : t.lineOf k = s.lineOf k := by
  unfold State.lineOf
  rw [h]

theorem tableFault_cause (hfault : s.tableFault k d = some f) : f.cause = 3 := by
  unfold State.tableFault at hfault
  dsimp only at hfault
  split at hfault
  all_goals
    split at hfault
    · injection hfault with hf
      rw [← hf]
      rfl
    · exact absurd hfault (by simp)

theorem descAt_sum {k : Nat} {h e w : List Word} : (s.descAt k h e w).sum = (s.descAt k h e w).total := rfl

end

section
variable {s : State} {ch : Fin 32} {d : Desc} {h e w : List Word}
  (hmay : s.mayFetch ch = true) (hring : s.ringFault ch = none) (hhand : s.descInHand ch (s.descAt ch h e w) = true)
  (hown : Desc.own ((s.descAt ch h e w).w 0) = true)
  (hext : extended ((s.descAt ch h e w).w 0) = true → Desc.own ((s.descAt ch h e w).x 0) = true)
include hmay hring hhand hown hext

/-- A fetch judges its descriptor, after what an engine has left in its memory. -/
theorem fetch_judges (x : Option (Fin 16)) : ∃ m, exec (.descriptorFetch ch x h e w) s =
    .next (stepEnd ch (takeDesc ch (x.map (·.val)) (s.descAt ch h e w) (s.withEngMem m))) := by
  obtain ⟨m, hmem⟩ := engDescLands_mem ch (s.descAt ch h e w) s
  exact ⟨m, (fetch_takes hmay hring hhand (offers_of hown hext)).trans (by rw [hmem]; rfl)⟩

theorem fetch_poisoned (dbe : Fin 16) (hirq : (s.descAt ch h e w).irq = false) : ∃ u,
    exec (.descriptorFetch ch (some dbe) h e w) s = .next u ∧ (u.dmaOf ch).cur = none ∧ u.get (DMA_STAT_LAST ch) = 3 ∧
      u.get (DMA_RESID_RESID ch) = (s.descAt ch h e w).total % 2 ^ 32 ∧
      u.get (DMA_STAT_CIDX ch) = (s.descAt ch h e w).next (s.ringSize ch) % 2 ^ 16 ∧
      u.get (DMA_FCNT_POISON_CNT ch) = satNat 16 (s.get (DMA_FCNT_POISON_CNT ch) + 1) ∧
      (s.hostOwned ch = true → s.on MGT_I3C_STAT_IBI_EN = false →
        u.sent.length = s.sent.length + if extended ((s.descAt ch h e w).w 0) then 2 else 1) ∧
      u.bit GLB_EVT_EVT 0 = true ∧ Posted s u 0x0000 dieC ∧ DmaFrame s u := by
  obtain ⟨m, hexec⟩ := fetch_judges hmay hring hhand hown hext (some dbe)
  refine ⟨_, hexec, ?_⟩
  rw [Option.map_some, takeDesc_poisoned]
  generalize ht : poisoned dieC memDesc dbe.val (s.withEngMem m) = t
  have hget : ∀ {f : Fld}, (GLB_EVT_EVT).apartFrom f = true → eventNames.contains f.reg.name = false → t.get f = s.get f :=
    fun h1 h2 => by rw [← ht]; exact get_poisoned h1 h2 _ _
  have hbit : t.bit GLB_EVT_EVT 0 = true := by rw [← ht]; exact (poisoned_linked rfl _ _).1
  have hposted : Posted s t 0x0000 dieC := by rw [← ht]; exact poisoned_posted memDesc dbe (s.withEngMem m)
  have hframe : DmaFrame s t := by rw [← ht]; exact poisoned_frame memDesc dbe (s.withEngMem m)
  have hsent : s.on MGT_I3C_STAT_IBI_EN = false → t.sent = s.sent := fun hibi => by
    rw [← ht]; exact poisoned_sent (s := s.withEngMem m) memDesc dbe hibi
  obtain ⟨hcur, hlast, hresid, hindex⟩ := descEnds_shows (d := s.descAt ch h e w) (status := 3) (residue := (s.descAt ch h e w).sum)
    ch.isLt (ringSize_of_get (hget (f := DMA_CCTL_RSIZE ch) rfl rfl)) (by decide)
  refine ⟨hcur, hlast, hresid, hindex, ?_, fun howned hibi => ?_, ?_, ?_, (dmaCalm_frame s).descEnds hframe⟩
  · rw [get_stepEnd rfl rfl, finishDesc_poison, hget rfl rfl]
  · have howned' : t.hostOwned ch = true := by
      unfold State.hostOwned State.chEngine at *
      rwa [hget rfl rfl]
    rw [stepEnd_sent, finishDesc_sent howned' hirq, hsent hibi]
  · exact (State.bit_of_get (get_descEnds rfl rfl rfl) 0).trans hbit
  · exact hposted.of_events ((dmaCalm_events _ _ _).descEnds ⟨rfl, rfl⟩)

theorem fetch_ignored (hok : s.descOk ch (s.descAt ch h e w) = false) : ∃ u,
    exec (.descriptorFetch ch none h e w) s = .next u ∧ (u.dmaOf ch).cur = none ∧ u.get (DMA_STAT_LAST ch) = 1 ∧
      u.get (DMA_STAT_CIDX ch) = (s.descAt ch h e w).next (s.ringSize ch) % 2 ^ 16 ∧
      u.get GLB_IGNORED_CNT_CNT = satNat 32 (s.get GLB_IGNORED_CNT_CNT + 1) ∧ u.get GLB_IGNORED_LAST_S_SOURCE = 9 ∧
      Silent s u ∧ DmaFrame s u := by
  obtain ⟨m, hexec⟩ := fetch_judges hmay hring hhand hown hext none
  refine ⟨_, hexec, ?_⟩
  rw [Option.map_none, takeDesc_ignored (s := s.withEngMem m) hok]
  have hsize : ((s.withEngMem m).ignored 9 (s.descAt ch h e w).idx ch).get (DMA_CCTL_RSIZE ch) = s.get (DMA_CCTL_RSIZE ch) :=
    State.get_ignored_apart rfl rfl
  have hsilent : Silent s ((s.withEngMem m).ignored 9 (s.descAt ch h e w).idx ch) :=
    Silent.ignored (t := s.withEngMem m) (.refl s) _ _ _
  have hframe : DmaFrame s ((s.withEngMem m).ignored 9 (s.descAt ch h e w).idx ch) :=
    DmaFrame.ignored (t := s.withEngMem m) (.refl s)
  obtain ⟨hcur, hlast, -, hindex⟩ := descEnds_shows (d := s.descAt ch h e w) (status := 1) (residue := (s.descAt ch h e w).sum)
    ch.isLt (ringSize_of_get hsize) (by decide)
  refine ⟨hcur, hlast, hindex, (get_descEnds rfl rfl rfl).trans State.ignored_count,
    (get_descEnds rfl rfl rfl).trans (State.ignored_source (by decide)), ?_, (dmaCalm_frame s).descEnds hframe⟩
  exact hsilent.trans (.of_events ((dmaCalm_events _ _ _).descEnds ⟨rfl, rfl⟩))

end

end Sys2Proof.Machine

/-! The clauses of O40 about a good descriptor (R321, R338, R343). -/

namespace Sys2Proof.Machine

section
variable {s t : State} {k : Nat} {d : Desc} {f : XFault}

/-- A channel that faults does not move on. -/
theorem stepEnd_fault (hstate : (showDma (faultChannel k f t)).chState k = chFaulted) :
    stepEnd k (faultChannel k f t) = showDma (faultChannel k f t) := by
  have hfaulted : (faultChannel k f t).chState k = chFaulted := (get_showDma (f := DMA_STAT_STATE k) rfl).symm.trans hstate
  unfold stepEnd
  rw [settle_of_state (by rw [hfaulted]; decide) (by rw [hfaulted]; decide)]

/-- A fault leaves the channel's residue. -/
theorem fault_resid (habort : (t.dmaOf k).abort = none) :
    (showDma (faultChannel k f t)).get (DMA_RESID_RESID k) = t.get (DMA_RESID_RESID k) := by
  rw [faultChannel_faults habort]
  refine (get_showDma rfl).trans <| (get_chInterrupt rfl).trans <| (State.get_set_apart rfl).trans <|
    (State.get_raise_named rfl rfl).trans <| (State.get_set_apart rfl).trans <| (State.get_set_apart rfl).trans <|
    (State.get_set_apart rfl).trans <| (State.get_set_apart rfl).trans <| (State.get_set_apart rfl).trans ?_
  exact State.when_keeps (P := fun u => u.get (DMA_RESID_RESID k) = _) _ _
    (fun _ => (calm_get _ _ fun _ h => h.apart rfl).recordXlate) rfl

/-- A channel with a descriptor and no line is ACTIVE. -/
theorem settle_works (hline : s.lineOf k = none) (hcur : (s.dmaOf k).cur = some d)
    (hstate : s.chState k = chIdle ∨ s.chState k = chActive) : (settle k s).chState k = chActive := by
  unfold settle
  dsimp only
  rw [hline, hcur]
  rcases hstate with hidle | hactive
  · rw [hidle, if_neg (by simp), if_pos (by simp)]
    exact State.get_set_own rfl rfl
  · rw [hactive, if_neg (by simp), if_neg (by simp [chIdle, chActive])]
    exact hactive

theorem takeUp_resid : (takeUp k d s).get (DMA_RESID_RESID k) = d.residue % 2 ^ 32 := showProgress_resid

theorem showNext_sent (k : Nat) (a : Nat × Bool) (s : State) : (showNext k a s).sent = s.sent := by
  simp [showNext, State.setWide_eq, State.put_eq]

theorem showProgress_sent (k : Nat) (d : Desc) (s : State) : (showProgress k d s).sent = s.sent := by
  simp [showProgress, showNext_sent]

theorem takeUp_sent (k : Nat) (d : Desc) (s : State) : (takeUp k d s).sent = s.sent := showProgress_sent k d _

end

section
variable {s : State} {ch : Fin 32} {d : Desc} {f : XFault} {h e w : List Word}
  (hmay : s.mayFetch ch = true) (hring : s.ringFault ch = none) (hhand : s.descInHand ch (s.descAt ch h e w) = true)
  (hown : Desc.own ((s.descAt ch h e w).w 0) = true)
  (hext : extended ((s.descAt ch h e w).w 0) = true → Desc.own ((s.descAt ch h e w).x 0) = true)
include hmay hring hhand hown hext

theorem fetch_empty (hok : s.descOk ch (s.descAt ch h e w) = true) (hsum : (s.descAt ch h e w).total = 0) : ∃ u,
    exec (.descriptorFetch ch none h e w) s = .next u ∧ (u.dmaOf ch).cur = none ∧ u.get (DMA_STAT_LAST ch) = 2 ∧
      u.get (DMA_RESID_RESID ch) = 0 ∧ u.get (DMA_STAT_CIDX ch) = (s.descAt ch h e w).next (s.ringSize ch) % 2 ^ 16 ∧
      Silent s u ∧ DmaFrame s u := by
  obtain ⟨m, hexec⟩ := fetch_judges hmay hring hhand hown hext none
  refine ⟨_, hexec, ?_⟩
  rw [Option.map_none, takeDesc_empty (s := s.withEngMem m) hok (descAt_sum.trans hsum)]
  have hsize : (s.withEngMem m).ringSize ch = s.ringSize ch := ringSize_of_get (State.get_of_regs rfl _)
  obtain ⟨hcur, hlast, hresid, hindex⟩ := descEnds_shows (d := s.descAt ch h e w) (status := 2) (residue := 0)
    ch.isLt hsize (by decide)
  have hevents : Silent s (s.withEngMem m) := Silent.rest (.refl s) rfl rfl
  have hframe : DmaFrame s (s.withEngMem m) := DmaFrame.refl s
  exact ⟨hcur, hlast, hresid, hindex, hevents.trans (.of_events ((dmaCalm_events _ _ _).descEnds ⟨rfl, rfl⟩)),
    (dmaCalm_frame s).descEnds hframe⟩

theorem fetch_tableFaults (hok : s.descOk ch (s.descAt ch h e w) = true) (hsum : (s.descAt ch h e w).total ≠ 0)
    (hfault : s.tableFault ch (s.descAt ch h e w) = some f) : ∃ u, exec (.descriptorFetch ch none h e w) s = .next u ∧
      u.chState ch = chFaulted ∧ u.get (DMA_STAT_CAUSE ch) = 3 ∧ (u.dmaOf ch).cur = some (s.descAt ch h e w) ∧
      u.get (DMA_RESID_RESID ch) = (s.descAt ch h e w).total % 2 ^ 32 ∧
      u.get (DMA_FCNT_FAULT_CNT ch) = satNat 16 (s.get (DMA_FCNT_FAULT_CNT ch) + 1) ∧ Posted s u 0x0A00 ch ∧ DmaFrame s u := by
  obtain ⟨m, hexec⟩ := fetch_judges hmay hring hhand hown hext none
  refine ⟨_, hexec, ?_⟩
  rw [Option.map_none, takeDesc_faults (s := s.withEngMem m) hok hsum hfault]
  obtain ⟨-, habort, -⟩ := mayFetch_state hmay
  generalize hd : s.descAt ch h e w = d at *
  have htaken : ((takeUp ch d (s.withEngMem m)).dmaOf ch) = { s.dmaOf ch with cur := some d } := takeUp_dmaOf ch.isLt _ _
  have habort' : ((takeUp ch d (s.withEngMem m)).dmaOf ch).abort = none := by rw [htaken]; exact habort
  have hcause := tableFault_cause hfault
  obtain ⟨hstate, hcz, hcount, -, hposted, hframe⟩ := fault_clause (s := s) (f := f) habort'
    (fun K hs => K.takeUp (s := s.withEngMem m) (K.beside hs rfl)) (by omega)
  have hdone : d.done = 0 := by rw [← hd]; rfl
  rw [stepEnd_fault hstate]
  refine ⟨hstate, hcz.trans hcause, ?_, ?_, hcount, hposted, hframe⟩
  · unfold State.dmaOf at *
    rw [fault_dma habort', htaken]
  · rw [fault_resid habort', takeUp_resid, Desc.residue, hdone, Nat.sub_zero]

theorem fetch_taken (hline : s.lineOf ch = none) (hok : s.descOk ch (s.descAt ch h e w) = true)
    (hsum : (s.descAt ch h e w).total ≠ 0) (hfault : s.tableFault ch (s.descAt ch h e w) = none) (hreqs : (s.dmaOf ch).reqs = []) : ∃ u,
    exec (.descriptorFetch ch none h e w) s = .next u ∧ (u.dmaOf ch).cur = some (s.descAt ch h e w) ∧ u.chState ch = chActive ∧
      u.get (DMA_STAT_CIDX ch) = s.get (DMA_STAT_CIDX ch) ∧ u.get (DMA_RESID_RESID ch) = (s.descAt ch h e w).total % 2 ^ 32 ∧
      u.sent = s.sent ∧ Silent s u ∧ DmaFrame s u := by
  obtain ⟨m, hexec⟩ := fetch_judges hmay hring hhand hown hext none
  refine ⟨_, hexec, ?_⟩
  rw [Option.map_none, takeDesc_takes (s := s.withEngMem m) hok hsum hfault hreqs]
  obtain ⟨hstate, -, -⟩ := mayFetch_state hmay
  generalize hd : s.descAt ch h e w = d at *
  have hdone : d.done = 0 := by rw [← hd]; rfl
  have hget : ∀ {g : Fld}, progressNames.contains g.reg.name = false → (takeUp ch d (s.withEngMem m)).get g = s.get g := fun hg =>
    (get_takeUp hg).trans (State.get_of_regs rfl _)
  have hline' : (takeUp ch d (s.withEngMem m)).lineOf ch = none := (lineOf_of_get (hget rfl)).trans hline
  have hcur : ((takeUp ch d (s.withEngMem m)).dmaOf ch).cur = some d := congrArg DmaInt.cur (takeUp_dmaOf ch.isLt d (s.withEngMem m))
  have hstate' : (takeUp ch d (s.withEngMem m)).chState ch = s.chState ch := hget (g := DMA_STAT_STATE ch) rfl
  have hkeeps : ∀ {P : State → Prop}, DmaCalm (Listed dmaNames) P → P s → P (stepEnd ch (takeUp ch d (s.withEngMem m))) := fun K hs =>
    K.stepEnd (K.step_takeUp (s := s.withEngMem m) (K.beside hs rfl))
  rw [fitUnit_unbound hline']
  refine ⟨?_, ?_, ?_, ?_, ?_, .of_events (hkeeps (dmaCalm_events _ _ _) ⟨rfl, rfl⟩), hkeeps (dmaCalm_frame s) (.refl s)⟩
  · rw [stepEnd_dmaOf, hcur]
  · exact (get_showDma (f := DMA_STAT_STATE ch) rfl).trans (settle_works hline' hcur (by rwa [hstate']))
  · exact (get_stepEnd rfl rfl).trans (hget (g := DMA_STAT_CIDX ch) rfl)
  · rw [get_stepEnd rfl rfl, takeUp_resid, Desc.residue, hdone, Nat.sub_zero]
  · rw [stepEnd_sent, takeUp_sent]
    rfl

end

end Sys2Proof.Machine

/-! The clauses of O40 about a grant (R328) and about a fetch that faults (R338, R341). -/

namespace Sys2Proof.Machine

section
variable {s t : State} {ch : Fin 32} {d : Desc} {P : State → Prop}

/-! ### A grant -/

theorem exec_burstGrant (s : State) : exec .burstGrant s = .next (
    match s.arbiter with
    | some ch =>
      if s.inFlight < 32 then
        match (s.dmaOf ch).cur with
        | some d => showDma (grantBurst ch d s)
        | none => s
      else s
    | none => s) := rfl

theorem grant_idle (h : s.arbiter = none) : exec .burstGrant s = .next s := by
  rw [exec_burstGrant, h]

theorem grant_exec (hpick : s.arbiter = some ch.val) (hroom : s.inFlight < 32) (hcur : (s.dmaOf ch).cur = some d) :
    exec .burstGrant s = .next (showDma (grantBurst ch d s)) := by
  rw [exec_burstGrant, hpick]
  dsimp only
  rw [if_pos hroom, hcur]

/-- The channel has one burst more, and its level's arbiter stands at it. -/
def burstQueued (ch : Nat) (d : Desc) (b : Burst) (s : State) : State :=
  { s.modDma ch (fun x => { x with cur := some d, bursts := x.bursts ++ [b] }) with
    rr := bankMod s.rr (s.get (DMA_CCTL_PRIO ch)) (fun _ => ch) }

theorem grantBurst_unbound (hline : s.lineOf ch = none) : ∃ b n, grantBurst ch d s =
    (burstQueued ch { d with granted := d.granted + s.burstLen ch d } b s).bumpBy DATU_CNT_MISS_CNT n := by
  unfold grantBurst
  rw [hline]
  exact ⟨_, _, rfl⟩

theorem burstQueued_dmaOf (b : Burst) : (burstQueued ch d b s).dmaOf ch =
    { s.dmaOf ch with cur := some d, bursts := (s.dmaOf ch).bursts ++ [b] } := dmaOf_modDma ch.isLt _ s

theorem burstQueued_rr (b : Burst) : bankGet (burstQueued ch d b s).rr (s.get (DMA_CCTL_PRIO ch)) = ch :=
  bankGet_bankMod_same s.rr _ (State.get_lt s (DMA_CCTL_PRIO ch))

theorem showDma_rr (s : State) : (showDma s).rr = s.rr := by simp [showDma]

theorem grant_shows (hpick : s.arbiter = some ch.val) (hroom : s.inFlight < 32) (hcur : (s.dmaOf ch).cur = some d)
    (hline : s.lineOf ch = none) : ∃ u, exec .burstGrant s = .next u ∧
      (u.dmaOf ch).cur = some { d with granted := d.granted + s.burstLen ch d } ∧
      (u.dmaOf ch).bursts.length = (s.dmaOf ch).bursts.length + 1 ∧ bankGet u.rr (s.get (DMA_CCTL_PRIO ch)) = ch ∧
      Silent s u ∧ DmaFrame s u := by
  obtain ⟨b, n, hgrant⟩ := grantBurst_unbound (d := d) hline
  refine ⟨_, grant_exec hpick hroom hcur, ?_⟩
  rw [hgrant]
  generalize hd : { d with granted := d.granted + s.burstLen ch d } = d'
  have hdma : ((showDma ((burstQueued ch d' b s).bumpBy DATU_CNT_MISS_CNT n)).dmaOf ch) =
      { s.dmaOf ch with cur := some d', bursts := (s.dmaOf ch).bursts ++ [b] } := by
    rw [← burstQueued_dmaOf b]
    unfold State.dmaOf
    rw [showDma_dma, State.bumpBy, State.set_dma]
  have hkeeps : ∀ {P : State → Prop}, DmaCalm (Listed dmaNames) P → P s →
      P (showDma ((burstQueued ch d' b s).bumpBy DATU_CNT_MISS_CNT n)) := fun K hs =>
    K.step_showDma <| K.set (s := burstQueued ch d' b s) (f := DATU_CNT_MISS_CNT) rfl <| K.beside hs rfl
  refine ⟨?_, ?_, ?_, .of_events (hkeeps (dmaCalm_events _ _ _) ⟨rfl, rfl⟩), hkeeps (dmaCalm_frame s) (.refl s)⟩
  · rw [hdma]
  · rw [hdma, List.length_append]
    rfl
  · rw [showDma_rr, State.bumpBy, State.set_rr, burstQueued_rr]

end

/-! ### A fetch that faults -/

section
variable {s t : State} {ch : Fin 32} {k : Fin 3} {a : BitVec 48} {y : Fin 5} {z : Fin 4} {x : List Byte} {h e : List Word}

/-- The fault of a fetch: the cause and level of a translation in hand, else those given. -/
def fetchFault (k : Fin 3) (a : BitVec 48) (y : Fin 5) (z : Fin 4) (known : Option (Option (Nat × Nat))) : XFault :=
  let f := (known.join).getD (y.val, z.val + 1)
  { off := 0, cause := if k = 2 then 3 else 2, addr := a.toNat, xlate := true, why := f.1, level := f.2 }

theorem exec_dmaFetchFault (ch : Fin 32) (x : List Byte) (k : Fin 3) (a : BitVec 48) (y : Fin 5) (z : Fin 4) (h e : List Word) (s : State) :
    exec (.dmaFault ch x (some (k, a, y, z)) h e) s = .next (
      if s.mayFetch ch ∧ s.hostOwned ch ∧ s.get (DMA_CCTL_XCTX ch) < 16 ∧ s.fetchAt ch k a.toNat (s.descAt ch h e []) ∧
        s.translate (s.get (DMA_CCTL_XCTX ch)) (a.toNat / 4096) 0 ≠ some none then
        showDma (faultChannel ch (fetchFault k a y z (s.translate (s.get (DMA_CCTL_XCTX ch)) (a.toNat / 4096) 0))
          (s.when (k = 2) (takeUp ch (s.descAt ch h e []))))
      else s) := rfl

/-- A translation fault is pending in the channel's context. -/
theorem faultRecorded_pend {f : XFault} {n : Nat} (hx : f.xlate = true) :
    (faultRecorded n f s).get (DATU_FINFO_PEND (s.get (DMA_CCTL_XCTX n))) = 1 := by
  refine (State.get_set_apart rfl).trans <| (get_showNext rfl).trans <| (State.get_set_apart rfl).trans ?_
  rw [hx]
  exact recordXlate_pend

theorem fault_pend {f : XFault} {n : Nat} (habort : (t.dmaOf n).abort = none) (hx : f.xlate = true) :
    (showDma (faultChannel n f t)).get (DATU_FINFO_PEND (t.get (DMA_CCTL_XCTX n))) = 1 := by
  rw [faultChannel_faults habort]
  exact (get_showDma rfl).trans <| (get_chInterrupt rfl).trans <| (State.get_set_apart rfl).trans <|
    (State.get_raise_named rfl rfl).trans (faultRecorded_pend hx)

theorem fetchFault_shows (hmay : s.mayFetch ch = true) (howned : s.hostOwned ch = true) (hctx : s.get (DMA_CCTL_XCTX ch) < 16)
    (hat : s.fetchAt ch k a.toNat (s.descAt ch h e []) = true)
    (hmiss : s.translate (s.get (DMA_CCTL_XCTX ch)) (a.toNat / 4096) 0 ≠ some none) : ∃ u,
    exec (.dmaFault ch x (some (k, a, y, z)) h e) s = .next u ∧ u.chState ch = chFaulted ∧
      (u.get (DMA_STAT_CAUSE ch) = if k.val = 2 then 3 else 2) ∧ u.get (DATU_FINFO_PEND (s.get (DMA_CCTL_XCTX ch))) = 1 ∧
      u.bit (DMA_EVT_EVT ch) 0 = true ∧ Posted s u 0x0A00 ch ∧ DmaFrame s u := by
  have hexec := exec_dmaFetchFault ch x k a y z h e s
  rw [if_pos ⟨hmay, howned, hctx, hat, hmiss⟩] at hexec
  refine ⟨_, hexec, ?_⟩
  generalize hf : fetchFault k a y z (s.translate (s.get (DMA_CCTL_XCTX ch)) (a.toNat / 4096) 0) = f
  have hx : f.xlate = true := by rw [← hf]; rfl
  have hcause : f.cause = if k.val = 2 then 3 else 2 := by
    rw [← hf]
    exact if_congr Fin.ext_iff rfl rfl
  generalize ht : s.when (k = 2) (takeUp ch (s.descAt ch h e [])) = t
  have hkeeps : ∀ {P : State → Prop}, DmaCalm (Listed progressNames) P → P s → P t := fun K hs => by
    rw [← ht]
    exact State.when_keeps _ _ (fun _ => K.takeUp) hs
  obtain ⟨-, habort, -⟩ := mayFetch_state hmay
  have habort' : (t.dmaOf ch).abort = none := by
    rw [← ht]
    exact State.when_keeps (P := fun u => (u.dmaOf ch).abort = none) _ _
      (fun _ _ => (congrArg DmaInt.abort (takeUp_dmaOf ch.isLt _ _)).trans habort) habort
  have hctx' : t.get (DMA_CCTL_XCTX ch) = s.get (DMA_CCTL_XCTX ch) := hkeeps (dmaCalm_get _ _ fun _ hf => hf.apart rfl) rfl
  obtain ⟨hstate, hcz, -, hbit, hposted, hframe⟩ := fault_clause (s := s) (f := f) habort' hkeeps
    (by rw [hcause]; split <;> decide)
  have hpend := fault_pend habort' hx
  rw [hctx'] at hpend
  exact ⟨hstate, hcz.trans hcause, hpend, hbit, hposted, hframe⟩

end

end Sys2Proof.Machine

/-! The clauses of O40 about bursts (R322, R332, R338, R341). -/

namespace Sys2Proof.Machine

/-! ### Where the bytes of a linear burst between host addresses go -/

section
variable {s t : State} {k : Nat} {d : Desc} {P : State → Prop}

theorem space_host {a : Nat} (howned : s.hostOwned k = true) (ha : a < 2 ^ 48) : s.space k a = .host a := by
  unfold State.space
  rw [if_pos (by omega), howned, decide_eq_true ha]
  rfl

theorem offset_linear (hpat : d.pat = 0) (hshuf : d.shuf = 0) (dst : Bool) (i : Nat) : d.offset dst i = i := by
  unfold Desc.offset
  rw [if_neg (fun h => h.1 hpat), if_pos (.inl hshuf)]

/-- What a byte of a linear side that begins at a host address reaches, where it reaches anything. -/
theorem reach_linear {dst : Bool} {i : Nat} (howned : s.hostOwned k = true) (hpat : d.pat = 0) (hshuf : d.shuf = 0)
    (hbase : d.base dst < 2 ^ 48) : s.reach k d dst i = if d.base dst + i < 2 ^ 48 then .host (d.base dst + i) else .bad := by
  have hplace : (d.base dst : Int) + d.offset dst i = ((d.base dst + i : Nat) : Int) := by rw [offset_linear hpat hshuf]; rfl
  unfold State.reach
  dsimp only
  rw [hplace, if_neg (show ¬((d.base dst + i : Nat) : Int) < 0 by omega), Int.toNat_natCast, space_host howned hbase]
  by_cases h : d.base dst + i < 2 ^ 48
  · rw [if_pos h, space_host howned h]
    rfl
  · rw [if_neg h]
    have hkind : ∀ sp : Space, (∀ a, sp ≠ .host a) → (if sp.sameKind (.host (d.base dst)) = true then sp else .bad) = .bad := by
      intro sp hsp
      cases sp with
      | host a => exact absurd rfl (hsp a)
      | reg a => rfl
      | eng e a => rfl
      | bad => rfl
    refine hkind _ fun a ha => ?_
    unfold State.space at ha
    rw [decide_eq_false h, Bool.false_and, if_neg Bool.false_ne_true] at ha
    dsimp only at ha
    repeat' split at ha
    all_goals cases ha

theorem regJoin_nil {l : List (Space × Byte)} (h : ∀ e ∈ l, ∀ a, e.1 ≠ .reg a) : regJoin l = [] := by
  refine List.foldlRecOn (motive := (· = [])) l _ rfl fun ws hws e he => ?_
  rw [hws]
  cases hsp : e.1 with
  | reg a => exact absurd hsp (h e he a)
  | host a => rfl
  | eng n a => rfl
  | bad => rfl

/-- The bytes of a burst, each with what it reaches. -/
def burstRun (k : Nat) (d : Desc) (off : Nat) (b : List Byte) (s : State) : List (Space × Byte) :=
  b.zipIdx.map (fun bi => (s.reach k d true (off + bi.2), bi.1))

theorem deliver_host {off pos : Nat} {b : List Byte} (hline : s.lineOf k = none) (howned : s.hostOwned k = true) (hpat : d.pat = 0)
    (hshuf : d.shuf = 0) (hbase : d.base true < 2 ^ 48) : deliver k d off pos b s =
      ((gather (burstRun k d off b s) []).reverse).foldl (fun s r => emitRun k r s) s := by
  have hplain : d.transform b = b := by
    unfold Desc.transform
    rw [if_neg (by rw [hshuf]; decide)]
  have hregs : regJoin (burstRun k d off b s) = [] := regJoin_nil fun e he a => by
    obtain ⟨bi, -, rfl⟩ := List.mem_map.1 he
    dsimp only
    rw [reach_linear howned hpat hshuf hbase]
    split <;> exact fun h => nomatch h
  unfold deliver
  rw [hline]
  unfold deliver.memory
  dsimp only
  rw [hplain]
  unfold burstRun at hregs ⊢
  rw [hregs]
  rfl

theorem DmaCalm.emitRun {ok : Fld → Prop} {r : Space × List Byte} (K : DmaCalm ok P) (hs : P s) : P (emitRun k r s) := by
  unfold Machine.emitRun engWrite
  split
  · exact K.beside hs rfl
  · exact K.calm.ite (K.beside hs rfl) hs
  · exact hs

theorem emitRun_dma (r : Space × List Byte) : (emitRun k r s).dma = s.dma := by
  unfold emitRun engWrite
  split
  · rfl
  · exact ite_dma rfl rfl
  · rfl

section
variable {off pos : Nat} {b : List Byte} (hline : s.lineOf k = none) (howned : s.hostOwned k = true) (hpat : d.pat = 0)
  (hshuf : d.shuf = 0) (hbase : d.base true < 2 ^ 48)
include hline howned hpat hshuf hbase

theorem DmaCalm.deliver {ok : Fld → Prop} (K : DmaCalm ok P) (hs : P s) : P (deliver k d off pos b s) := by
  rw [deliver_host hline howned hpat hshuf hbase]
  exact foldl_keeps _ _ (fun _ _ _ h => K.emitRun h) hs

theorem deliver_dma : (deliver k d off pos b s).dma = s.dma := by
  rw [deliver_host hline howned hpat hshuf hbase]
  exact foldl_keeps (P := fun u => u.dma = s.dma) _ _ (fun _ _ _ h => (emitRun_dma _).trans h) rfl

end

/-! ### Bytes in order -/

/-- Bytes at consecutive host addresses. -/
def hostRun (a n : Nat) (b : List Byte) : List (Space × Byte) := (b.zipIdx n).map (fun bi => (.host (a + bi.2), bi.1))

theorem gather_hostRun (a : Nat) (b : List Byte) : ∀ bs : List Byte,
    gather (hostRun a bs.length b) [(.host a, bs)] = [(.host a, b.reverse ++ bs)] := by
  induction b with
  | nil => exact fun bs => rfl
  | cons c l ih =>
    intro bs
    have hstep : gather (hostRun a bs.length (c :: l)) [(.host a, bs)] = gather (hostRun a (c :: bs).length l) [(.host a, c :: bs)] := by
      unfold hostRun
      have hnext : Space.host (a + (c, bs.length).2) = Space.plus bs.length (.host a) := rfl
      rw [List.zipIdx_cons, List.map_cons, gather, if_pos hnext]
      rfl
    rw [hstep, ih, List.reverse_cons, List.append_assoc]
    rfl

/-- They make one run. -/
theorem gather_host {a : Nat} {b : List Byte} (hb : b ≠ []) : gather (hostRun a 0 b) [] = [(.host a, b.reverse)] := by
  obtain ⟨c, l, rfl⟩ := List.exists_cons_of_ne_nil hb
  have hstep : gather (hostRun a 0 (c :: l)) [] = gather (hostRun a [c].length l) [(.host a, [c])] := rfl
  rw [hstep, gather_hostRun, List.reverse_cons]

theorem burstRun_host {off : Nat} {b : List Byte} (howned : s.hostOwned k = true) (hpat : d.pat = 0) (hshuf : d.shuf = 0)
    (hbase : d.base true < 2 ^ 48) (hend : d.base true + off + b.length ≤ 2 ^ 48) :
    burstRun k d off b s = hostRun (d.base true + off) 0 b := by
  refine List.map_congr_left fun bi hbi => ?_
  have hlt : bi.2 < b.length := by
    have := List.snd_lt_of_mem_zipIdx hbi
    omega
  rw [reach_linear howned hpat hshuf hbase, if_pos (by omega), Nat.add_assoc]

/-- A linear burst to host addresses leaves as one write. -/
theorem deliver_sent {off pos : Nat} {b : List Byte} (hline : s.lineOf k = none) (howned : s.hostOwned k = true) (hpat : d.pat = 0)
    (hshuf : d.shuf = 0) (hbase : d.base true < 2 ^ 48) (hend : d.base true + off + b.length ≤ 2 ^ 48) (hb : b ≠ []) :
    (deliver k d off pos b s).sent = s.sent ++ [.host (s.get (DMA_CCTL_XCTX k)) (d.base true + off) b] := by
  rw [deliver_host hline howned hpat hshuf hbase, burstRun_host howned hpat hshuf hbase hend, gather_host hb]
  change s.sent ++ [.host (s.get (DMA_CCTL_XCTX k)) (d.base true + off) b.reverse.reverse] = _
  rw [List.reverse_reverse]

end

end Sys2Proof.Machine

/-! How a burst of a channel ends (R322, R325, R338), and O40 itself. -/

namespace Sys2Proof.Machine

/-! ### The oldest burst has moved -/

section
variable {s t : State} {ch : Fin 32} {d : Desc} {b : Burst} {x : List Byte} {h : DmaInt → DmaInt} {P : State → Prop}

/-- A channel moves on with its descriptor as it stands. -/
def movedOn (ch : Nat) (d : Desc) (h : DmaInt → DmaInt) (s : State) : State := showProgress ch d (s.modDma ch h)

theorem DmaCalm.movedOn (K : DmaCalm (Listed progressNames) P) (hs : P s) : P (movedOn ch d h s) := K.showProgress (K.modDma hs)

theorem get_movedOn {f : Fld} (hf : progressNames.contains f.reg.name = false) : (movedOn ch d h s).get f = s.get f :=
  (dmaCalm_get f _ fun _ hn => hn.apart hf).movedOn rfl

theorem movedOn_dmaOf : (movedOn ch d h s).dmaOf ch = h (s.dmaOf ch) :=
  (congrArg (bankGet · ch.val) (showProgress_dma ch d _)).trans (dmaOf_modDma ch.isLt h s)

theorem movedOn_sent : (movedOn ch d h s).sent = s.sent := showProgress_sent ch d _

/-- The oldest burst leaves, and the descriptor is as it stands after it. -/
def burstLeft (d : Desc) (x : DmaInt) : DmaInt := { x with cur := some d, bursts := x.bursts.drop 1 }

theorem burstDone_eq (ch : Nat) (d : Desc) (s : State) : burstDone ch d s =
    let s1 := movedOn ch d (burstLeft d) s
    let s2 := if (s.lineOf ch).isSome then unitDone ch d s1
      else if d.done = d.total then finishDesc ch d (if d.bad then 0x03 else 0x00) 0 s1 else s1
    match (s2.dmaOf ch).abort with
    | some st => if (s2.dmaOf ch).bursts.isEmpty then haltChannel ch st s2 else s2
    | none => settle ch s2 := rfl

theorem burstDone_goesOn (hline : s.lineOf ch = none) (habort : (s.dmaOf ch).abort = none) (hmore : d.done ≠ d.total) :
    burstDone ch d s = settle ch (movedOn ch d (burstLeft d) s) := by
  have habort' : ((movedOn ch d (burstLeft d) s).dmaOf ch).abort = none := by rw [movedOn_dmaOf]; exact habort
  rw [burstDone_eq]
  dsimp only
  rw [hline, Option.isSome_none, if_neg Bool.false_ne_true, if_neg hmore, habort']

theorem burstDone_ends (hline : s.lineOf ch = none) (habort : (s.dmaOf ch).abort = none) (hdone : d.done = d.total) (hbad : d.bad = false) :
    burstDone ch d s = settle ch (finishDesc ch d 0 0 (movedOn ch d (burstLeft d) s)) := by
  have habort' : ((finishDesc ch d 0 0 (movedOn ch d (burstLeft d) s)).dmaOf ch).abort = none := by
    rw [finishDesc_dmaOf ch.isLt, movedOn_dmaOf]
    exact habort
  rw [burstDone_eq]
  dsimp only
  rw [hline, Option.isSome_none, if_neg Bool.false_ne_true, if_pos hdone, hbad, if_neg Bool.false_ne_true, habort']

theorem exec_burstComplete (ch : Fin 32) (x : List Byte) (s : State) : exec (.burstComplete ch x none) s = .next (
    match (s.dmaOf ch).cur, (s.dmaOf ch).bursts with
    | some d, b :: _ =>
      if (s.chState ch = chActive ∨ s.chState ch = chStopped) ∧ b.need = [] ∧ b.bad = none then
        let y := poisonWord ch d b none (sourceBytes ch d b b.len x s)
        showDma (burstDone ch { d with done := b.off + b.len, bad := d.bad || y.2.2 } (deliver ch d b.off b.gone y.1 y.2.1))
      else s
    | _, _ => s) := rfl

/-- Host memory gives the bytes of a burst. -/
theorem sourceBytes_host {n : Nat} (howned : s.hostOwned ch = true) (hbase : d.base false < 2 ^ 48) (hdata : b.data = none) :
    sourceBytes ch d b n x s = (bytesAt x 0 n, s) := by
  unfold sourceBytes
  rw [hdata, space_host howned hbase]

/-- What the completion of a clean burst runs. -/
theorem burst_exec {l : List Burst} (howned : s.hostOwned ch = true) (hcur : (s.dmaOf ch).cur = some d) (hstate : s.chState ch = chActive)
    (hsrc : d.base false < 2 ^ 48) (hbursts : (s.dmaOf ch).bursts = b :: l) (hneed : b.need = []) (hbad : b.bad = none)
    (hdata : b.data = none) : exec (.burstComplete ch x none) s = .next (showDma (burstDone ch { d with done := b.off + b.len }
      (deliver ch d b.off b.gone (bytesAt x 0 b.len) s))) := by
  rw [exec_burstComplete, hcur, hbursts]
  dsimp only
  rw [if_pos ⟨.inl hstate, hneed, hbad⟩, sourceBytes_host howned hsrc hdata]
  have hclean : poisonWord ch d b none (bytesAt x 0 b.len, s) = (bytesAt x 0 b.len, s, false) := rfl
  rw [hclean, Bool.or_false]

end

section
variable {s : State} {ch : Fin 32} {d : Desc} {b : Burst} {x : List Byte}
  (hline : s.lineOf ch = none) (howned : s.hostOwned ch = true) (hcur : (s.dmaOf ch).cur = some d)
  (habort : (s.dmaOf ch).abort = none) (hstate : s.chState ch = chActive) (hpat : d.pat = 0) (hshuf : d.shuf = 0)
  (hsrc : d.base false < 2 ^ 48) (hdst : d.base true < 2 ^ 48)
include hline howned hcur habort hstate hpat hshuf hsrc hdst

theorem burst_moves (hbursts : (s.dmaOf ch).bursts = [b]) (hneed : b.need = []) (hbad : b.bad = none) (hdata : b.data = none)
    (hmore : b.off + b.len < d.total) (hlen : 0 < b.len) (hend : d.base true + d.total ≤ 2 ^ 48) : ∃ u,
    exec (.burstComplete ch x none) s = .next u ∧ (u.dmaOf ch).cur = some { d with done := b.off + b.len } ∧
      (u.dmaOf ch).bursts = [] ∧
      u.sent = s.sent ++ [.host (s.get (DMA_CCTL_XCTX ch)) (d.base true + b.off) (bytesAt x 0 b.len)] ∧ u.chState ch = chActive ∧
      Silent s u ∧ DmaFrame s u := by
  have hexec := burst_exec (x := x) howned hcur hstate hsrc hbursts hneed hbad hdata
  generalize hd : { d with done := b.off + b.len } = d' at *
  have hkeep : ∀ {ok : Fld → Prop} {P : State → Prop}, DmaCalm ok P → P s → P (deliver ch d b.off b.gone (bytesAt x 0 b.len) s) :=
    fun K => K.deliver hline howned hpat hshuf hdst
  have hdma := deliver_dma (off := b.off) (pos := b.gone) (b := bytesAt x 0 b.len) hline howned hpat hshuf hdst
  have hbytes : (bytesAt x 0 b.len).length = b.len := by unfold bytesAt; rw [List.length_map, List.length_range]
  have hsent := deliver_sent (off := b.off) (pos := b.gone) (b := bytesAt x 0 b.len) hline howned hpat hshuf hdst (by omega)
    (List.ne_nil_of_length_pos (by omega))
  generalize deliver ch d b.off b.gone (bytesAt x 0 b.len) s = t at *
  have hget : ∀ g : Fld, t.get g = s.get g := fun g => hkeep (dmaCalm_get (ok := fun _ => False) g _ fun _ h => h.elim) rfl
  have hline' : t.lineOf ch = none := (lineOf_of_get (hget _)).trans hline
  have hdmaOf : t.dmaOf ch = s.dmaOf ch := congrArg (bankGet · ch.val) hdma
  have hmore' : d'.done ≠ d'.total := by rw [← hd]; exact Nat.ne_of_lt hmore
  have hleft : (movedOn ch d' (burstLeft d') t).dmaOf ch = burstLeft d' (s.dmaOf ch) := by rw [movedOn_dmaOf, hdmaOf]
  rw [burstDone_goesOn hline' (by rw [hdmaOf]; exact habort) hmore'] at hexec
  have hkeeps : ∀ {P : State → Prop}, DmaCalm (Listed dmaNames) P → P s → P (stepEnd ch (movedOn ch d' (burstLeft d') t)) :=
    fun K hs => K.stepEnd ((names_sub K (by decide)).movedOn (hkeep K hs))
  refine ⟨stepEnd ch (movedOn ch d' (burstLeft d') t), hexec, ?_, ?_, ?_, ?_, .of_events (hkeeps (dmaCalm_events _ _ _) ⟨rfl, rfl⟩),
    hkeeps (dmaCalm_frame s) (.refl s)⟩
  · rw [stepEnd_dmaOf, hleft, burstLeft]
  · rw [stepEnd_dmaOf, hleft, burstLeft, hbursts]
    rfl
  · rw [stepEnd_sent, movedOn_sent, hsent]
  · refine (get_showDma (f := DMA_STAT_STATE ch) rfl).trans (settle_works (d := d') ?_ ?_ (.inr ?_))
    · exact (lineOf_of_get (get_movedOn rfl)).trans hline'
    · rw [hleft, burstLeft]
    · exact (get_movedOn (f := DMA_STAT_STATE ch) rfl).trans ((hget _).trans hstate)

theorem burst_ends (hbursts : (s.dmaOf ch).bursts = [b]) (hneed : b.need = []) (hbad : b.bad = none) (hdata : b.data = none)
    (hlast : b.off + b.len = d.total) (hgood : d.bad = false) (hext : extended (d.w 0) = false) : ∃ u,
    exec (.burstComplete ch x none) s = .next u ∧ (u.dmaOf ch).cur = none ∧ u.get (DMA_STAT_LAST ch) = 0 ∧
      u.get (DMA_RESID_RESID ch) = 0 ∧ u.get (DMA_STAT_CIDX ch) = (d.idx + 1) % s.ringSize ch % 2 ^ 16 ∧ Silent s u ∧ DmaFrame s u := by
  have hexec := burst_exec (x := x) howned hcur hstate hsrc hbursts hneed hbad hdata
  generalize hd : { d with done := b.off + b.len } = d' at *
  have hkeep : ∀ {ok : Fld → Prop} {P : State → Prop}, DmaCalm ok P → P s → P (deliver ch d b.off b.gone (bytesAt x 0 b.len) s) :=
    fun K => K.deliver hline howned hpat hshuf hdst
  have hdma := deliver_dma (off := b.off) (pos := b.gone) (b := bytesAt x 0 b.len) hline howned hpat hshuf hdst
  generalize deliver ch d b.off b.gone (bytesAt x 0 b.len) s = t at *
  have hget : ∀ g : Fld, t.get g = s.get g := fun g => hkeep (dmaCalm_get (ok := fun _ => False) g _ fun _ h => h.elim) rfl
  have hdmaOf : t.dmaOf ch = s.dmaOf ch := congrArg (bankGet · ch.val) hdma
  have hdone : d'.done = d'.total := by rw [← hd]; exact hlast
  have hgood' : d'.bad = false := by rw [← hd]; exact hgood
  have hnext : d'.next (s.ringSize ch) = (d.idx + 1) % s.ringSize ch := by
    have hw : extended (d'.w 0) = false := by rw [← hd]; exact hext
    have hidx : d'.idx = d.idx := by rw [← hd]
    rw [Desc.next, hw, hidx]
    rfl
  rw [burstDone_ends ((lineOf_of_get (hget _)).trans hline) (by rw [hdmaOf]; exact habort) hdone hgood'] at hexec
  obtain ⟨hnone, hst, hresid, hindex⟩ := descEnds_shows (s := s) (t := movedOn ch d' (burstLeft d') t) (d := d') (status := 0)
    (residue := 0) ch.isLt (ringSize_of_get ((get_movedOn rfl).trans (hget _))) (by decide)
  have hkeeps : ∀ {P : State → Prop}, DmaCalm (Listed dmaNames) P → P s →
      P (stepEnd ch (finishDesc ch d' 0 0 (movedOn ch d' (burstLeft d') t))) :=
    fun K hs => K.descEnds ((names_sub K (by decide)).movedOn (hkeep K hs))
  exact ⟨_, hexec, hnone, hst, hresid, hindex.trans (by rw [hnext]), .of_events (hkeeps (dmaCalm_events _ _ _) ⟨rfl, rfl⟩),
    hkeeps (dmaCalm_frame s) (.refl s)⟩

end

end Sys2Proof.Machine

/-! A burst meets its fault (R338, R341), and O40 itself. -/

namespace Sys2Proof.Machine

section
variable {s : State} {ch : Fin 32} {d : Desc} {f : XFault} {b : Burst} {l : List Burst} {x : List Byte} {h e : List Word}

theorem exec_dmaFault (ch : Fin 32) (x : List Byte) (h e : List Word) (s : State) : exec (.dmaFault ch x none h e) s = .next (
    match (s.dmaOf ch).cur, (s.dmaOf ch).bursts with
    | some d, b :: _ =>
      match b.bad with
      | some f =>
        if (s.chState ch = chActive ∨ s.chState ch = chStopped) ∧ b.need = [] then showDma (truncateBurst ch d b f x s) else s
      | none => s
    | _, _ => s) := rfl

/-- A channel stops where its fault lies: no burst is left, nor any of a unit. -/
def burstsDropped (d : Desc) (x : DmaInt) : DmaInt := { x with cur := some d, bursts := [], rest := none }

/-- A fault at the burst's first byte moves nothing. -/
theorem truncateBurst_start (hline : s.lineOf ch = none) (howned : s.hostOwned ch = true) (hpat : d.pat = 0) (hshuf : d.shuf = 0)
    (hsrc : d.base false < 2 ^ 48) (hdst : d.base true < 2 ^ 48) (hdata : b.data = none) (hat : f.off = b.off) :
    truncateBurst ch d b f x s = faultChannel ch f (movedOn ch { d with done := b.off, granted := b.off }
      (burstsDropped { d with done := b.off, granted := b.off }) s) := by
  have hcut : s.cut ch d f.off = b.off := by
    unfold State.cut State.deviceSide
    rw [if_neg (fun hne => hne hshuf), hline, space_host howned hdst, hat]
  have hnone : deliver ch d b.off b.gone [] s = s := by
    rw [deliver_host hline howned hpat hshuf hdst]
    rfl
  unfold truncateBurst
  dsimp only
  rw [hcut, Nat.max_self, Nat.sub_self, sourceBytes_host howned hsrc hdata]
  dsimp only
  rw [show bytesAt x 0 0 = [] from rfl, hnone, hline]
  rfl

theorem burst_faults (hline : s.lineOf ch = none) (howned : s.hostOwned ch = true) (hcur : (s.dmaOf ch).cur = some d)
    (habort : (s.dmaOf ch).abort = none) (hstate : s.chState ch = chActive) (hpat : d.pat = 0) (hshuf : d.shuf = 0)
    (hsrc : d.base false < 2 ^ 48) (hdst : d.base true < 2 ^ 48) (hbursts : (s.dmaOf ch).bursts = b :: l) (hneed : b.need = [])
    (hbad : b.bad = some f) (hdata : b.data = none) (hat : f.off = b.off) (hcause : f.cause = 4) : ∃ u,
    exec (.dmaFault ch x none h e) s = .next u ∧ u.chState ch = chFaulted ∧ u.get (DMA_STAT_CAUSE ch) = 4 ∧ (u.dmaOf ch).bursts = [] ∧
      (u.dmaOf ch).cur = some { d with done := b.off, granted := b.off } ∧
      u.get (DMA_FCNT_FAULT_CNT ch) = satNat 16 (s.get (DMA_FCNT_FAULT_CNT ch) + 1) ∧ u.bit (DMA_EVT_EVT ch) 0 = true ∧
      Posted s u 0x0A00 ch ∧ DmaFrame s u := by
  have hexec := exec_dmaFault ch x h e s
  rw [hcur, hbursts] at hexec
  dsimp only at hexec
  rw [hbad] at hexec
  dsimp only at hexec
  rw [if_pos ⟨.inl hstate, hneed⟩, truncateBurst_start hline howned hpat hshuf hsrc hdst hdata hat] at hexec
  generalize hd : { d with done := b.off, granted := b.off } = d' at *
  have hleft : (movedOn ch d' (burstsDropped d') s).dmaOf ch = burstsDropped d' (s.dmaOf ch) := movedOn_dmaOf
  have habort' : ((movedOn ch d' (burstsDropped d') s).dmaOf ch).abort = none := by rw [hleft]; exact habort
  obtain ⟨hfaulted, hcz, hcount, hbit, hposted, hframe⟩ := fault_clause (s := s) (f := f) habort' (fun K hs => K.movedOn hs)
    (by omega)
  have hdmaOf : (showDma (faultChannel ch f (movedOn ch d' (burstsDropped d') s))).dmaOf ch = burstsDropped d' (s.dmaOf ch) :=
    (congrArg (bankGet · ch.val) (fault_dma habort')).trans hleft
  refine ⟨_, hexec, hfaulted, hcz.trans hcause, ?_, ?_, hcount, hbit, hposted, hframe⟩
  · rw [hdmaOf, burstsDropped]
  · rw [hdmaOf, burstsDropped]

end

/-- Settles O40, clause by clause: a fetch that waits, is refused or faults; a descriptor's judgement; a grant; a linear burst's end and
fault, and a fetch's. -/
theorem dmaDescriptorsAndBursts : Obligations.DmaDescriptorsAndBursts := by
  unfold Obligations.DmaDescriptorsAndBursts
  refine ⟨?_, ?_, ?_, ?_, ?_, ?_, ?_, ?_, ?_, ?_, ?_, ?_, ?_, ?_⟩
  · intro ch h e t x s hmay hring hhand hown
    exact fetch_waits hmay hring hhand hown
  · intro ch h e t x s hmay
    exact ⟨s, fetch_refused hmay, rfl⟩
  · intro ch h e t f x s hmay hring
    exact fetch_ringFaults hmay hring
  · intro ch h e t w s hmay hring hhand hown hext hirq
    exact fetch_poisoned hmay hring hhand hown hext w hirq
  · intro ch h e t s hmay hring hhand hown hext hok _
    exact fetch_ignored hmay hring hhand hown hext hok
  · intro ch h e t s hmay hring hhand hown hext hok hsum _
    exact fetch_empty hmay hring hhand hown hext hok hsum
  · intro ch h e t f s hmay hring hhand hown hext hok hsum hfault
    exact fetch_tableFaults hmay hring hhand hown hext hok hsum hfault
  · intro ch h e t s hmay hring hhand hown hext hline hok hsum hfault hreqs
    exact fetch_taken hmay hring hhand hown hext hline hok hsum hfault hreqs
  · intro ch d s hpick hroom hcur hline
    exact grant_shows hpick hroom hcur hline
  · intro s hidle
    exact ⟨s, grant_idle hidle, rfl⟩
  · intro ch d b x s hline howned hcur habort hstate hpat hshuf hsrc hdst hbursts hneed hbad hdata hmore hlen hend
    exact burst_moves hline howned hcur habort hstate hpat hshuf hsrc hdst hbursts hneed hbad hdata hmore hlen hend
  · intro ch d b x s hline howned hcur habort hstate hpat hshuf hsrc hdst hbursts hneed hbad hdata hlast _ hgood hext
    exact burst_ends hline howned hcur habort hstate hpat hshuf hsrc hdst hbursts hneed hbad hdata hlast hgood hext
  · intro ch d f b l x h e s hline howned hcur habort hstate hpat hshuf hsrc hdst hbursts hneed hbad hdata hat hcause
    exact burst_faults hline howned hcur habort hstate hpat hshuf hsrc hdst hbursts hneed hbad hdata hat hcause
  · intro ch x k a y z h e s hmay howned hctx hat hmiss
    exact fetchFault_shows hmay howned hctx hat hmiss

end Sys2Proof.Machine
